-- ==== Sys2Proof/Word.lean ====
section
/-! DEFINITION. The word types of the block: bytes, registers, addresses and the keyed lists that hold sparse data. -/

namespace Sys2Proof

abbrev Byte := BitVec 8
abbrev Reg := BitVec 32
abbrev Word64 := BitVec 64
/-- A 52-bit device virtual address (R383). -/
abbrev VA := BitVec 52

/-- Sparse data by key: keys strictly rising, no entry equal to what an unlisted key reads as. -/
abbrev KMap (α : Type) := List (Nat × α)

end Sys2Proof
end

