-- ==== Sys2Proof/Syntax.lean ====
section
/-! DEFINITION. The commands of the block: one constructor of `Instr` per row of the table of operations and events, with
the operands its step has. What the spec takes from the physical world (an edge's time, a temperature, an ECC outcome, a
PHY's answer) is an operand. -/

namespace Sys2Proof

/-- The fifteen number formats (R90). -/
inductive Fmt where
  | e4m3 | e5m2 | int8 | uint8 | int4 | uint4 | fp16 | bf16 | fp32 | int32 | up8 | bs8 | bs4 | bf4 | xs128
  deriving DecidableEq, Repr

/-- The rounding modes (R101). -/
inductive Rnd where
  | rne | rtz | sr | rup | rdn
  deriving DecidableEq, Repr

/-- The narrowing part of an operation: RND, SAT and the stream and site of an SR draw (R101, R103, R109). -/
structure Conv where
  rnd  : Rnd
  sat  : Bool
  spin : Nat
  site : Nat
  deriving DecidableEq, Repr

/-- Where element (0,0) of an operation lies in the Figure's output tensor: LIST, ROW, COL, ROW_BASE and COL_BASE included
(R111). -/
structure Coord where
  list : Nat
  row  : Nat
  col  : Nat
  deriving DecidableEq, Repr

/-- What an array operation meets beside its two words: the rows, columns and K-steps of its block that hold real data (R529),
and the Scratchpad and ACM rows whose parity fails when it reads them (R151, R323). -/
structure MxaMeet where
  rows   : Nat
  cols   : Nat
  steps  : Nat
  spmBad : List Nat
  acmBad : List Nat
  deriving DecidableEq, Repr

/-- ACM_DRAIN (R140, R141): `bad` are ACM rows whose parity fails when it reads them, `mul` the FP32 scalar, `rowMul` the SPM row of 128
FP32 row multipliers, `rsRow` the SPM row of the row-scale plane of an XS128 destination. -/
structure DrainOp where
  core   : Nat
  slot   : Nat
  bank   : Nat
  first  : Nat
  count  : Nat
  dstRow : Nat
  dst    : Fmt
  conv   : Conv
  at0    : Coord
  mul    : BitVec 32
  rowMul : Option Nat
  rsRow  : Option Nat
  bad    : List Nat
  deriving DecidableEq, Repr

/-- ACM_FILL (R140, R142). -/
structure FillOp where
  core   : Nat
  slot   : Nat
  bank   : Nat
  srcRow : Nat
  src    : Fmt
  rsRow  : Option Nat
  grid   : Int
  deriving DecidableEq, Repr

/-- The arithmetic of the VU and SFU (R118). -/
inductive VuFn where
  | add | mul | fma | div | sqrt | rcp | exp2 | log2
  deriving DecidableEq, Repr

/-- An elementwise VU or SFU operation over `count` elements; operand and result rows are SPM rows (R118 to R122). -/
structure ArithOp where
  core   : Nat
  slot   : Nat
  fn     : VuFn
  fmt    : Fmt
  rnd    : Rnd
  strict : Bool
  count  : Nat
  aRow   : Nat
  bRow   : Nat
  cRow   : Nat
  dstRow : Nat
  deriving DecidableEq, Repr

/-- A VU conversion of a tensor of `rows` × `cols` elements (R101 to R108); `srcSc` and `dstSc` are the rows of the scale
planes of block-scaled formats, `rs` the row scale of an XS128 side (R97). -/
structure CvtOp where
  core   : Nat
  slot   : Nat
  src    : Fmt
  dst    : Fmt
  conv   : Conv
  at0    : Coord
  rows   : Nat
  cols   : Nat
  srcRow : Nat
  srcSc  : Nat
  dstRow : Nat
  dstSc  : Nat
  rs     : Int
  deriving DecidableEq, Repr

/-- How the pairs of a score tile are masked (R169, R260): `full` for code FULL or MASK_MODE 0, `bitmap b` for a PARTIAL
block with bitmap index `b` of the pool (R168). -/
inductive MaskOp where
  | full
  | bitmap (b : Nat)
  deriving DecidableEq, Repr

/-- Which (query row, key) pairs a tile works on: `rowTok i` of R258 is i mod `qrows` in a decode Figure (`qrows` 0 outside
one), `causal` and `window` are R260's. -/
structure PairOp where
  qBase   : Nat
  kBase   : Nat
  qLen    : Nat
  kvLen   : Nat
  posBase : Nat
  qrows   : Nat
  causal  : Bool
  window  : Nat
  mask    : MaskOp
  deriving DecidableEq, Repr

/-- One key tile of the integer-shift softmax (R165, R169, R173, R175 to R178): scores at `sRow`, P to `pRow` (and its group
exponents to the split layout in strict mode), shift amounts to `dRow`. -/
structure SoftOp where
  core   : Nat
  slot   : Nat
  strict : Bool
  pConv  : Conv
  at0    : Coord
  pair   : PairOp
  sRow   : Nat
  pRow   : Nat
  dRow   : Nat
  deriving DecidableEq, Repr

/-- Finishing the rows of a query tile (R181 to R183): row multipliers to `mulRow`, LSE to `lseRow`. -/
structure FinishOp where
  core   : Nat
  slot   : Nat
  strict : Bool
  pair   : PairOp
  mulRow : Nat
  lseRow : Nat
  deriving DecidableEq, Repr

/-- Placing finished O rows of `oFmt` at `oRow` under the outcomes of R183 (padded and NONE rows to +0, bad rows to NaN),
and the second conversion of E4M3 and E5M2 from FP32 rows at `srcRow` (R181). -/
structure OutOp where
  core   : Nat
  slot   : Nat
  pair   : PairOp
  oFmt   : Fmt
  conv   : Conv
  at0    : Coord
  cols   : Nat
  srcRow : Nat
  oRow   : Nat
  deriving DecidableEq, Repr

/-- Merging partial states of one row set (R267): per part the SPM rows of its O plane, row-scale plane and state records. -/
structure MergeOp where
  core   : Nat
  slot   : Nat
  rows   : Nat
  cols   : Nat
  parts  : List (Nat × Nat × Nat)
  oRow   : Nat
  rsRow  : Nat
  deriving DecidableEq, Repr

/-- The backward row term, probabilities and dS of one tile (R198 to R200). -/
structure BwdOp where
  core   : Nat
  slot   : Nat
  strict : Bool
  conv   : Conv
  dsConv : Conv
  dsFmt  : Fmt
  dsShift : Int
  at0    : Coord
  pair   : PairOp
  sRow   : Nat
  lseRow : Nat
  dpRow  : Nat
  termRow : Nat
  qRow   : Nat
  dsRow  : Nat
  deriving DecidableEq, Repr

/-- The operations of VU_OPERATION. -/
inductive VuOp where
  | arith (o : ArithOp)
  | convert (o : CvtOp)
  | resetRows (core : Nat) (strict : Bool)
  | softmax (o : SoftOp)
  | finish (o : FinishOp)
  | output (o : OutOp)
  | stateRecords (core slot : Nat) (pair : PairOp) (row : Nat)
  | merge (o : MergeOp)
  | rowTerm (o : BwdOp) (doFmt oFmt : Fmt) (doRow oRow cols : Nat)
  | probs (o : BwdOp)
  | dsForm (o : BwdOp)
  | scalarWrite (core slot byte : Nat) (data : List Byte)
  deriving DecidableEq, Repr

/-- ROPE (R162) on `rows` rows of `dim` elements: of keys, or of queries. -/
structure RopeOp where
  core    : Nat
  slot    : Nat
  fmt     : Fmt
  conv    : Conv
  at0     : Coord
  pairing : Bool
  rows    : Nat
  dim     : Nat
  srcRow  : Nat
  cosRow  : Nat
  sinRow  : Nat
  keys    : Bool
  posBase : Nat
  dstRow  : Nat
  dstFmt  : Fmt
  deriving DecidableEq, Repr

/-- VU SPLIT (R146, R147) of a 128 × 32·`groups` operand. -/
structure SplitOp where
  core   : Nat
  slot   : Nat
  fmt    : Fmt
  groups : Nat
  srcRow : Nat
  dstRow : Nat
  deriving DecidableEq, Repr

/-- KV_APPEND (R240): `head` is one KV head with rows (t, d), or all heads in the layout of R258 when `none`. -/
structure AppendOp where
  core  : Nat
  slot  : Nat
  list  : Nat
  seqId : BitVec 20
  layer : Nat
  head  : Option Nat
  token : Nat
  count : Nat
  src   : Fmt
  conv  : Conv
  kRow  : Nat
  vRow  : Nat
  deriving DecidableEq, Repr

/-- OPT_ADAM (R214) on `count` elements starting at `at0`: rows of g, θ, c, m, r and the scale planes of m and r. -/
structure AdamOp where
  core   : Nat
  slot   : Nat
  at0    : Coord
  count  : Nat
  gRow   : Nat
  gRs    : Int
  thRow  : Nat
  cRow   : Nat
  mRow   : Nat
  mSc    : Nat
  rRow   : Nat
  rSc    : Nat
  deriving DecidableEq, Repr

/-- The stream kinds (R381). -/
inductive StreamKind where
  | tileLoad | tileStore | gather | kv | copy | land | remote
  deriving DecidableEq, Repr

/-- What a stream does to the data it moves: raw bytes, a conversion (R101, R102), or a split on load (R146), transposing where the operand
is stored N-innermost (R197). -/
inductive StreamConv where
  | raw
  | convert (src dst : Fmt) (c : Conv)
  | split (src : Fmt) (trans : Bool)
  deriving DecidableEq, Repr

/-- A stream the Caller binds at the Figure's start (R379): `core` relative to the partition (R56), and so the multicast set `mcast` of a
read stream that has one (R31). -/
structure StreamDecl where
  core   : Nat
  engine : Nat
  kind   : StreamKind
  role   : Nat
  conv   : StreamConv
  mcast  : List Nat
  deriving DecidableEq, Repr

/-- A receive window declared in the tile parameters (R314): `core` relative to the partition, the 8 bytes as they stand. -/
structure WinDecl where
  core : Nat
  win  : Nat
  word : BitVec 64
  deriving DecidableEq, Repr

/-- What a tile program issues, as far as the loader checks it (R101, R130, R141, R143, R313, R317, R330). -/
inductive TileOp where
  | array (w0 w1 : BitVec 64)
  | shift (amounts : List Int)
  | inPlace (first count : Nat)
  | rows (first count : Nat) (write : Bool)
  | credTake (core win n : Nat)
  | credReturn (core win n : Nat)
  | rounding (r : Rnd) (strictVu : Bool)
  | rowScaleDrain (mul : BitVec 32) (rowMul : List (BitVec 32))
  | optAdam
  deriving DecidableEq, Repr

/-- The tile program of one Figure (the image does not encode it: log 20). -/
structure TileProg where
  fig     : Nat
  streams : List StreamDecl
  wins    : List WinDecl
  ops     : List TileOp
  deriving DecidableEq, Repr

/-- What the physical line read shows: no error, a single-bit error, a double-bit error (R356). -/
inductive Ecc where
  | clean | single | double
  deriving DecidableEq, Repr

/-- Who reads a line (R358). -/
inductive Reader where
  | stream (id : Nat)
  | snapshot (part : Nat)
  | pwu (set stream : Nat)
  | fremund (part : Nat)
  deriving DecidableEq, Repr

/-- Why a Figure is aborted (R324, R130, R313, R316, R331, R358, R387, R432, R398, R336, R548, R213). -/
inductive AbortCause where
  | spmParity (core row : Nat)
  | acmParity (core bank row : Nat)
  | mxaInvalid (core : Nat)
  | spmRange (core : Nat)
  | windowFault
  | memUe
  | farUe
  | regionViolation
  | linkData
  | faultAbort
  | jobKill
  | dieTrip
  | optState
  deriving DecidableEq, Repr

/-- The counts of one Bar that clocks and media add (R594, R318, R377, R452): per core the twelve stall clocks, the bank denials, the
narrow-wait and credit-wait clocks; per channel the queue waits; per port corrected symbols; Bar extremes of DUTY and temperatures are
kept by their own rows. -/
structure BarActivity where
  stall  : KMap (List Nat)
  conf   : KMap (List Nat)
  nwait  : KMap Nat
  crwait : KMap Nat
  qwait  : KMap Nat
  fecCorr : KMap Nat
  deriving DecidableEq, Repr

/-- A flit as received: 1,016 content bytes and the 64-bit trailer (R414); `fecBad` when it overlaps an uncorrectable
codeword (R413), `newUnc` the uncorrectable codewords that end in it. -/
structure Flit where
  content : List Byte
  trailer : BitVec 64
  fecBad  : Bool
  newUnc  : Nat
  deriving DecidableEq, Repr

/-- What a receiver sees of one lane (R642): whether the PHY reports lock, the markers seen, each with the codewords since the one
before, and the markers missing in a row. -/
structure LaneWatch where
  lock    : Bool
  markers : List (Nat × List (BitVec 10))
  missing : Nat
  deriving DecidableEq, Repr

/-- What a receiver that watches for loss of lock sees of a port's lanes, and the SEQ its partner has got (R416, R642). -/
structure LockWatch where
  got   : Nat
  lanes : List LaneWatch
  deriving DecidableEq, Repr

/-- What drives the test interface (R651, R652): the chain input, for each stack WRCK, WRSTN, SelectWIR, CaptureWR, ShiftWR, UpdateWR and
WSI, and WSO of each stack. -/
structure ScanDrive where
  input : List (BitVec 256)
  wrap  : List (BitVec 7)
  wso   : BitVec 8
  deriving DecidableEq, Repr

/-- The Scratchpad rows that an engine fills with zeros before a tile lands in them (R32, R187). -/
structure RowSpan where
  first : Nat
  rows  : Nat
  deriving DecidableEq, Repr

/-- A read of a Set's translation or paging caches for a stream; the entry read fails its parity where `bad` is true (R558). -/
structure TagRead where
  stream : Nat
  bad    : Bool
  deriving DecidableEq, Repr

/-- How a page is asked for (R237): by search rather than from the cursor, and for the item after the one in work. -/
structure PageAsk where
  search : Bool
  ahead  : Bool
  deriving DecidableEq, Repr

/-- A self-test outcome of bring-up (R672): units that failed. -/
structure SelfTestResult where
  cores  : List Nat
  sets   : List Nat
  block  : Bool
  deriving DecidableEq, Repr

/-- One stack's answers during training (R340, R675): capacity in GB, temperature, applied repairs, and per channel the number
of failing lanes, `none` where the channel does not train. -/
structure StackTraining where
  gb       : Nat
  temp     : Nat
  channels : List (Option Nat)
  deriving DecidableEq, Repr

/-- What boot reads from outside: fuse words and board NVM are read through their ports; `nvmErr` is an NVM read error. -/
structure BootInput where
  feed     : BitVec 16
  testMode : Bool
  nvmErr   : Bool
  deriving DecidableEq, Repr

/-- The commands, in the order of the table. -/
inductive Instr where
  | beatEdge (tNs : Nat)
  | beatInsert
  | holdoverExpiry
  | beatCountFrame (port : Nat) (frame : BitVec 256)
  | barBoundary (act : BarActivity)
  | lateFrame (part port node : Nat) (t len : Nat)
  | figureStalled (part fig : Nat)
  | figureStart (part fig : Nat)
  | figureComplete (part fig : Nat)
  | figureAbort (part fig : Nat)
  | backwardPhaseStart (part fig : Nat)
  | mergePhaseStart (part fig : Nat)
  | bucketStart (part fig : Nat)
  | appendPhase (part fig : Nat)
  | kvAppend (o : AppendOp)
  | mxaOp (core slot : Nat) (w0 w1 : BitVec 64) (meet : MxaMeet)
  | acmDrain (o : DrainOp)
  | acmFill (o : FillOp)
  | acmShift (core slot bank row : Nat)
  | acmClear (core bank : Nat)
  | acmStatus (core bank reg : Nat)
  | rope (o : RopeOp)
  | vuSplit (o : SplitOp)
  | cvtFromE4m3x (core slot : Nat) (sat : Bool) (count srcRow dstRow : Nat)
  | cvtToE4m3x (core slot : Nat) (sat : Bool) (count srcRow dstRow : Nat)
  | optAdam (o : AdamOp)
  | scaleStep (part fig : Nat)
  | kvCommit (part fig : Nat)
  | resReload (part fig : Nat)
  | clmLoad (clm n part fig : Nat)
  | clmClaim (core clm z : Nat)
  | clmRetire (core clm item : Nat)
  | clmReturn (clm item : Nat)
  | clmRelease (clm : Nat)
  | itemCommit (core clm item slot : Nat)
  | multicastStageIssue (part fig stream tile : Nat) (zeros : RowSpan)
  | spmFill (core slot channel first count : Nat) (pattern : BitVec 32)
  | spmCopy (core slot channel src dst count : Nat)
  | credTake (writer channel core win n : Nat)
  | credTakeGrant (core win : Nat)
  | credReturn (core slot win n : Nat)
  | remoteRowWrite (writer channel core win row : Nat) (data : List Byte)
  | streamAccess (stream : Nat) (va : VA) (bytes : Nat) (write : Bool) (tile spmByte scByte : Nat)
  | stbLookup (set : Nat) (read : TagRead)
  | stbWalkDone (set : Nat) (read : TagRead)
  | faultService
  | translationPrefetch (core engine stream : Nat) (va : VA) (bytes : Nat)
  | lineDataValid (stream tile : Nat) (zeros : RowSpan)
  | invalidationDone (part : Nat)
  | migrateCopyDone (part : Nat) (va : VA)
  | pwuLookup (set : Nat) (read : TagRead) (seqId : BitVec 20) (token : Nat) (ask : PageAsk)
  | pwuWalkDone (set : Nat) (read : TagRead)
  | quietPoint (part : Nat)
  | seqEvictCopyDone (slot : Nat)
  | seqRestoreCopyDone (slot : Nat)
  | frameZeroed (part : Nat) (far : Bool) (frame : Nat)
  | reserveWaitTimeout (ring : Nat) (seq : BitVec 16)
  | mcReadRequest (channel line part : Nat) (reader : Reader) (ecc : Ecc)
  | mcWriteRequest (channel line part : Nat) (mask : BitVec 64) (data : BitVec 512)
  | softRepairDone (channel : Nat)
  | wcbEvict (channel line : Nat) (ecc : Ecc)
  | refresh (channel : Nat)
  | patrolScrub (channel : Nat) (ecc : Ecc)
  | scrubAged (channel : Nat)
  | stackTempRead (stack temp : Nat)
  | channelLockLoss (channel : Nat)
  | channelRelock (channel : Nat)
  | channelFenceExpiry (channel : Nat)
  | channelUeLimit (channel : Nat)
  | intermissionItemStart (part : Nat)
  | channelRetrainDone (channel : Nat) (lanes : Option Nat)
  | portRetrainDone (port : Nat) (ok : Bool)
  | laneRemapDone (port : Nat) (lowOk highOk : Bool)
  | repairStagingDone (stack : Nat)
  | farDrsResponse (port tag : Nat) (data : BitVec 512) (poison : Bool)
  | farNdrCmp (port tag : Nat)
  | farLinkDown (port : Nat)
  | farLinkUp (port : Nat)
  | farLinkTimeout (port : Nat)
  | flitReceive (port : Nat) (flit : Flit)
  | portRetryLimit (port got : Nat)
  | portFecLimit (port got : Nat)
  | portLockLoss (port : Nat) (watch : LockWatch)
  | portRelock (port : Nat)
  | portRelockTimeout (port : Nat)
  | portPeerFence (port got : Nat)
  | linkCalibration (port : Nat) (lowLanes : BitVec 8) (got : Nat)
  | portTrainRetry (port : Nat) (lanes : List LaneWatch)
  | trainingFrame (port node : Nat) (master : Bool)
  | transferIssue (part xfer : Nat)
  | deliveryReceive (port : Nat) (header : BitVec 256) (data : List Byte)
  | creditFrame (port dst src lb units : Nat)
  | probeFrame (part group : Nat) (rttNs : Nat)
  | voteContribute (part vote : Nat)
  | voteFrame (part node : Nat) (vote : Nat) (step : BitVec 32) (flags : BitVec 4) (count : Nat)
  | voteLatch (part vote : Nat)
  | chainSegment (part chain seg : Nat)
  | dbProdWrite (req ring : Nat) (value : BitVec 32)
  | dbCplWrite (req ring : Nat) (value : BitVec 32)
  | dbEvconsWrite (req ring : Nat) (value : BitVec 32)
  | ringReset (req ring : Nat) (value : BitVec 32)
  | ringResetDone (ring : Nat)
  | heartbeatTick (stalled : BitVec 3)
  | coreProgressFail (core : Nat)
  | watchdogExpiry
  | ccSramError (corrected : Bool)
  | cifVersion (ring : Nat) (seq : BitVec 16)
  | commandUnknownOpcode (ring : Nat) (seq : BitVec 16)
  | eventRingSet (ring : Nat) (seq : BitVec 16)
  | jobOpen (ring : Nat) (seq : BitVec 16)
  | jobEnd (ring : Nat) (seq : BitVec 16)
  | chorLoad (ring : Nat) (seq : BitVec 16) (progs : List TileProg)
  | chorRun (ring : Nat) (seq : BitVec 16)
  | chorStop (ring : Nat) (seq : BitVec 16)
  | holdRequest (ring : Nat) (seq : BitVec 16)
  | intermissionReq (ring : Nat) (seq : BitVec 16)
  | kvArenaSet (ring : Nat) (seq : BitVec 16)
  | seqOpen (ring : Nat) (seq : BitVec 16)
  | seqQuery (ring : Nat) (seq : BitVec 16)
  | seqReserve (ring : Nat) (seq : BitVec 16)
  | seqTrim (ring : Nat) (seq : BitVec 16)
  | seqClose (ring : Nat) (seq : BitVec 16)
  | seqEvict (ring : Nat) (seq : BitVec 16)
  | seqRestore (ring : Nat) (seq : BitVec 16)
  | kvStat (ring : Nat) (seq : BitVec 16)
  | map (ring : Nat) (seq : BitVec 16)
  | unmap (ring : Nat) (seq : BitVec 16)
  | protect (ring : Nat) (seq : BitVec 16)
  | migrate (ring : Nat) (seq : BitVec 16)
  | faultAbort (ring : Nat) (seq : BitVec 16)
  | hotRead (ring : Nat) (seq : BitVec 16)
  | hotSet (ring : Nat) (seq : BitVec 16)
  | tableDigest (ring : Nat) (seq : BitVec 16)
  | fabricSet (ring : Nat) (seq : BitVec 16)
  | routeSet (ring : Nat) (seq : BitVec 16)
  | groupSet (ring : Nat) (seq : BitVec 16)
  | lbSet (ring : Nat) (seq : BitVec 16)
  | lbClear (ring : Nat) (seq : BitVec 16)
  | tableRead (ring : Nat) (seq : BitVec 16)
  | linkQuery (ring : Nat) (seq : BitVec 16)
  | snapSet (ring : Nat) (seq : BitVec 16)
  | snapRestore (ring : Nat) (seq : BitVec 16) (mirror : List Byte)
  | snapQuery (ring : Nat) (seq : BitVec 16)
  | setPartner (ring : Nat) (seq : BitVec 16)
  | partnerReply (part : Nat) (feed : BitVec 16) (cap lb half : Nat)
  | partnerTimeout (part : Nat)
  | counterRead (ring : Nat) (seq : BitVec 16)
  | powerState (ring : Nat) (seq : BitVec 16)
  | powerCap (ring : Nat) (seq : BitVec 16)
  | healthRead (ring : Nat) (seq : BitVec 16)
  | debugHalt (ring : Nat) (seq : BitVec 16)
  | debugResume (ring : Nat) (seq : BitVec 16)
  | fwStage (ring : Nat) (seq : BitVec 16)
  | fwCommit (ring : Nat) (seq : BitVec 16)
  | fwActivate (ring : Nat) (seq : BitVec 16)
  | fwConfirm (ring : Nat) (seq : BitVec 16)
  | snapStagingDone (part : Nat) (bad : List (Nat × Nat))
  | snapSlotWritten (part : Nat) (ok : Bool)
  | snapSlotErase (part : Nat)
  | mirrorDone (part : Nat) (held : Bool)
  | mirrorTimeout (part : Nat)
  | nvmResponse (tag : Nat) (ok : Bool) (data : BitVec 512)
  | p1IdleEntry
  | dutyAdjust (avgMw : Nat)
  | capWindowEnd (avgMw : Nat)
  | droopWarnStart (source : Nat)
  | droopWarnEnd (durationNs : Nat)
  | supplyFailure (source : Nat)
  | dieTempRead (temp : Nat)
  | thermThrottleChange (asserted : Bool)
  | porAssert
  | porRelease
  | resetEntry
  | resetEntryDone
  | resetRelease (boot : BootInput)
  | selfTests (r : SelfTestResult)
  | hbmTraining (answers : List StackTraining)
  | linkTraining (lanes : KMap (List LaneWatch))
  | hbmZeroInit (failed : List Nat)
  | fwRegionBuild (ok : Bool)
  | jtagIrUpdate (code : BitVec 8)
  | jtagDebugAccess (dr : BitVec 57)
  | scanPattern (drive : ScanDrive)
  | latchedLoRead (req : Nat) (addr : BitVec 26)
  | acmDbgGo (req : Nat) (value : BitVec 32)
  | acmDbgCopyDone (bad : Bool)
  | spmDbgGo (req : Nat) (value : BitVec 32)
  | spmDbgCopyDone (bad : Bool)
  | telemEnable (req part : Nat) (value : BitVec 32)
  | telemTailWrite (req part : Nat) (value : BitVec 32)
  | telemStatClear (req part : Nat) (value : BitVec 32)
  | spmCstatClear (req core : Nat) (value : BitVec 32)
  | mcCstatClear (req channel : Nat) (value : BitVec 32)
  | trCstatClear (req set : Nat) (value : BitVec 32)
  | fqCstatClear (req : Nat) (value : BitVec 32)
  | lkCstatClear (req port : Nat) (value : BitVec 32)
  | ceCstatClear (req : Nat) (value : BitVec 32)
  | stallCstatClear (req core : Nat) (value : BitVec 32)
  | pcntCstatClear (req part : Nat) (value : BitVec 32)
  | blkCstatClear (req : Nat) (value : BitVec 32)
  | hpfStatClear (req : Nat) (value : BitVec 32)
  | protViolClear (req : Nat) (value : BitVec 32)
  | registerWrite (req : Nat) (addr : BitVec 64) (be : BitVec 64) (data : BitVec 512) (parity : BitVec 64)
  | vuOperation (o : VuOp)
  | powerTransitionDone
  | fuseAck (word : BitVec 32)
  | partnerRequest (part node : Nat) (kind : Nat)
  deriving DecidableEq, Repr

end Sys2Proof
end

