-- ==== Sys2Proof/Machine/Map.lean ====
section
/-! DEFINITION. Reading and writing a keyed list against the value an unlisted key reads as. -/

namespace Sys2Proof.Machine

/-- What key `k` reads as, `d` where it is not listed. -/
def kget {α : Type} (d : α) (m : KMap α) (k : Nat) : α :=
  match m with
  | [] => d
  | (k', v) :: rest => if k' = k then v else kget d rest k

/-- The map without key `k`. -/
def kdel {α : Type} (m : KMap α) (k : Nat) : KMap α :=
  match m with
  | [] => []
  | (k', v) :: rest => if k' = k then kdel rest k else (k', v) :: kdel rest k

/-- The map with `(k, v)` put in key order; `k` is not listed in `m`. -/
def kins {α : Type} (m : KMap α) (k : Nat) (v : α) : KMap α :=
  match m with
  | [] => [(k, v)]
  | (k', v') :: rest => if k < k' then (k, v) :: (k', v') :: rest else (k', v') :: kins rest k v

/-- Write `v` at key `k`: the entry is removed when `v` is the unlisted value `d`. -/
def kset {α : Type} [DecidableEq α] (d : α) (m : KMap α) (k : Nat) (v : α) : KMap α :=
  if v = d then kdel m k else kins (kdel m k) k v

/-- Update the value at key `k`. -/
def kmod {α : Type} [DecidableEq α] (d : α) (m : KMap α) (k : Nat) (f : α → α) : KMap α :=
  kset d m k (f (kget d m k))

/-- Keys strictly rise. -/
def kasc {α : Type} (m : KMap α) : Bool :=
  match m with
  | [] => true
  | (k, _) :: rest => rest.all (fun e => decide (k < e.1)) && kasc rest

/-- The canonical form: keys strictly rise and no entry holds the unlisted value of its key. -/
def kwf {α : Type} [DecidableEq α] (d : Nat → α) (m : KMap α) : Bool :=
  kasc m && m.all (fun e => decide (e.2 ≠ d e.1))

end Sys2Proof.Machine
end

