-- ==== Sys2Proof/Machine/State.lean ====
section
/-! DEFINITION. The state of the block as plain data: every register, queue, table, counter, mode and pin the spec gives it,
and the queue of waiting commands. `KMap` fields hold what differs from the reset value of the thing they index. -/

namespace Sys2Proof.Machine

/-- The sizes fixed at design time, as CFG reports them (R3, R4, R9). -/
structure Design where
  spmSize   : Nat
  farPorts  : Nat
  linkPorts : Nat
  hbmStacks : Nat
  sets      : Nat
  deriving DecidableEq, Repr

/-- The four flag classes (R113). -/
structure Flags where
  ovf : Bool
  unf : Bool
  inx : Bool
  inv : Bool
  deriving DecidableEq, Repr

/-- No flag raised. -/
def Flags.none : Flags := ⟨false, false, false, false⟩

/-! ### Tempo -/

/-- The Beat Unit's lock states (R49). -/
inductive Lock where
  | unlocked | acquiring | locked | holdover
  deriving DecidableEq, Repr

/-- The Beat Unit (R43 to R49, R82 to R85, R683). Times are in ns on the CLK_REF timebase (R631); `lastPs` is the last beat or
edge in ps. `frame` is the first beat-count frame since ACQUIRING was entered, with the edges received up to and with the edge it
names (0 until that edge); `armed` are the frames waiting for the next accepted edge, with the peer they came from. -/
structure BeatUnit where
  cnt        : BitVec 64
  lock       : Lock
  split      : Bool
  missed     : Bool
  glitch     : Bool
  standalone : Bool
  periodPs   : Nat
  run        : List Nat
  lastPs     : Nat
  inserted   : Nat
  acquired   : Bool
  frame      : Option (Nat × Nat × Nat)
  armed      : List (Nat × Nat)
  deriving DecidableEq, Repr

/-- A LATE request (R62). -/
structure LateReq where
  node : Nat
  t    : Nat
  len  : Nat
  deriving DecidableEq, Repr

/-- A decided Hold: the barrier beat it precedes, its length, the node that set it, the Hold beats passed (R65, R66). -/
structure HoldPlan where
  barrier : Nat
  len     : Nat
  node    : Nat
  passed  : Nat
  deriving DecidableEq, Repr

/-- A partition's tempo registers and Hold state (R52 to R54, R61 to R70, R86 to R89). `offset` is SNAP_BEAT for a run resumed
under R585. -/
structure Tempo where
  base         : BitVec 64
  sched        : BitVec 64
  holdTotal    : BitVec 64
  holdLastLen  : BitVec 16
  holdLastNode : BitVec 10
  stalled      : Bool
  intermission : Bool
  hold         : Bool
  running      : Bool
  offset       : Nat
  late         : List LateReq
  plan         : Option HoldPlan
  hostLate     : Option Nat
  deriving DecidableEq, Repr

/-! ### The loaded Choreography -/

/-- A Figure record (R55, R495, R685). -/
structure FigRec where
  figId    : Nat
  start    : Nat
  deadline : Nat
  kind     : Nat
  condVote : Bool
  rerunOk  : Bool
  coreMask : BitVec 64
  ftype    : Nat
  plist    : BitVec 64
  params   : BitVec 64
  append   : Nat
  aLayer   : Nat
  aRnd     : Nat
  aSite    : Nat
  deriving DecidableEq, Repr

/-- A column descriptor of a pointer list (R284, R285). -/
structure ColDesc where
  padCols   : Nat
  padRows   : Nat
  rowStride : Nat
  role      : Nat
  plane     : Nat
  kind      : Nat
  fmt       : Nat
  out       : Bool
  deriving DecidableEq, Repr

/-- A pointer list (R283). -/
structure PtrList where
  count   : Nat
  rowBase : Nat
  colBase : Nat
  cols    : List ColDesc
  entries : List (List (BitVec 64))
  deriving DecidableEq, Repr

/-- The attention parameter block (R158). -/
structure AttnParams where
  partialOut : Bool
  strict     : Bool
  group      : Nat
  headDim    : Nat
  oFmt       : Nat
  vFmt       : Nat
  kFmt       : Nat
  qFmt       : Nat
  headScale  : BitVec 32
  oSite      : Nat
  pSite      : Nat
  spinId     : Nat
  maskMode   : Bool
  oSat       : Bool
  oRnd       : Nat
  pRnd       : Nat
  oGrid      : Int
  sGrid      : Int
  mapPlanes  : Nat
  mapCols4   : Nat
  layer      : Nat
  mapRows    : Nat
  mapBase    : Nat
  ptrBase    : Nat
  poolBase   : Nat
  lenBase    : Nat
  scaleBase  : Nat
  poolCount  : Nat
  maxKvLen   : Nat
  deriving DecidableEq, Repr

/-- The backward extension (R195). -/
structure BwdExt where
  dqPartial : Bool
  dsShift   : Int
  doFmt     : Nat
  dsFmt     : Nat
  dkvFmt    : Nat
  dqFmt     : Nat
  gradScale : BitVec 32
  dsSite    : Nat
  dsRnd     : Nat
  gRnd      : Nat
  gSat      : Bool
  dqGrid    : Int
  dkGrid    : Int
  dpGrid    : Int
  dvGrid    : Int
  deriving DecidableEq, Repr

/-- The decode extension (R256). -/
structure DecExt where
  self      : Bool
  bucket    : Bool
  causal    : Bool
  chunkLog2 : Nat
  qrows     : Nat
  newFmt    : Nat
  newSite   : Nat
  newRnd    : Nat
  window    : Nat
  partBase  : Nat
  partSlots : Nat
  layer     : Nat
  deriving DecidableEq, Repr

/-- A dense Figure's parameter block (R277). -/
structure DenseParams where
  aFmt      : Nat
  bFmt      : Nat
  cFmt      : Nat
  bT        : Bool
  accIn     : Bool
  fuseRole  : Nat
  fuseKind  : Bool
  gangLog2  : Nat
  shapeSet  : BitVec 8
  grid      : Int
  cRnd      : Nat
  cSat      : Bool
  spinId    : Nat
  cSite     : Nat
  fuseFig   : Nat
  kc        : Nat
  maxM      : Nat
  maxN      : Nat
  maxK      : Nat
  shapeBase : Nat
  deriving DecidableEq, Repr

/-- An optimiser Figure's parameter block (R212). -/
structure OptParams where
  thetaFmt  : Nat
  gFmt      : Nat
  comp      : Bool
  strict    : Bool
  mSite     : Nat
  rSite     : Nat
  spinId    : Nat
  lr        : BitVec 32
  eps       : BitVec 32
  wd        : BitVec 32
  stateBase : Nat
  deriving DecidableEq, Repr

/-- A range record of a snapshot manifest (R571). -/
inductive SnapRange where
  | mem (va bytes : Nat)
  | spm (core firstRow rows : Nat)
  deriving DecidableEq, Repr

/-- A snapshot manifest (R570). -/
structure Manifest where
  mirror     : Bool
  posVa      : Nat
  posBytes   : Nat
  stageVa    : Nat
  stageBytes : Nat
  ranges     : List SnapRange
  deriving DecidableEq, Repr

/-- The parameters of a Figure by its kind (R158, R194, R256, R277, R212, R221, R247, R327, R570). -/
inductive FigParams where
  | dense (p : DenseParams)
  | attn (p : AttnParams)
  | backward (p : AttnParams) (x : BwdExt)
  | decode (p : AttnParams) (x : DecExt)
  | merge (p : AttnParams)
  | optimiser (p : OptParams)
  | scaleStep (recordVa : Nat)
  | kvCommit (batchVa : Nat)
  | resReload (resId : Nat)
  | snapshot (m : Manifest)
  | transferOnly
  | intermission
  deriving DecidableEq, Repr

/-- A loaded Figure. -/
structure Figure where
  hdr  : FigRec
  list : Option PtrList
  par  : FigParams
  prog : TileProg
  deriving DecidableEq, Repr

/-- An outgoing transfer (R426) with its progress. -/
structure Xfer where
  xferId  : Nat
  mc      : Bool
  dest    : Nat
  lb      : Nat
  offset  : Nat
  bytes   : Nat
  srcFig  : Nat
  srcLb   : Bool
  src     : Nat
  issue   : Nat
  release : Nat
  issued  : Bool
  isNull  : Bool
  deriving DecidableEq, Repr

/-- An incoming binding (R427, R431, R432) with its progress: the bytes landed and the deliveries they came in, by offset and bytes. -/
structure Binding where
  srcNode    : Nat
  xferId     : Nat
  lb         : Nat
  offset     : Nat
  bytes      : Nat
  consumer   : Nat
  releaseFig : Nat
  landed     : Nat
  pieces     : List (Nat × Nat)
  gotNull    : Bool
  poisoned   : Bool
  deriving DecidableEq, Repr

/-- A credit table record (R433, R495). -/
structure CreditRec where
  lb      : Nat
  srcNode : Nat
  units   : Nat
  deriving DecidableEq, Repr

/-- A vote entry (R217) with its run state: contributions of children (R441), whether this device has sent its own, the
result once it has arrived with the schedule beat of its arrival, whether it has latched (R218). -/
structure Vote where
  voteId     : Nat
  v          : Nat
  vd         : Nat
  scopeFirst : Nat
  scopeLast  : Nat
  mask       : BitVec 4
  childFlags : BitVec 4
  childCount : Nat
  children   : Nat
  sent       : Bool
  result     : Option (BitVec 4 × Nat)
  latched    : Bool
  deriving DecidableEq, Repr

/-- A chain record (R443, R495) and the segments this device has done. -/
structure Chain where
  chainId : Nat
  fmt     : Nat
  elems   : Nat
  rows    : Nat
  segRows : Nat
  lb      : Nat
  result  : BitVec 64
  members : List Nat
  sources : List (Nat × Nat)
  done    : Nat
  deriving DecidableEq, Repr

/-- A resident region as declared (R326). -/
structure Region where
  resId    : Nat
  firstRow : Nat
  rows     : Nat
  mask     : BitVec 64
  backing  : Nat
  valid    : Bool
  deriving DecidableEq, Repr

/-- A loaded Choreography (R494, R495). -/
structure Chor where
  crc        : BitVec 32
  jobTag     : BitVec 16
  holdMax    : Nat
  barrier    : Nat
  quarters   : Nat
  tempoGroup : Nat
  figures    : List Figure
  xfers      : List Xfer
  bindings   : List Binding
  credits    : List CreditRec
  votes      : List Vote
  chains     : List Chain
  deriving DecidableEq, Repr

/-- A work item of a Figure: output tile, query tile, key tile, chunk or merge row set (R287, R189, R193, R260, R265). -/
structure Item where
  entry : Nat
  a     : Nat
  b     : Nat
  deriving DecidableEq, Repr

/-- One bucket run of a bucket-mode Figure (R272 to R274, R498): its sweep items, `sweeps` of them, then its merge items. -/
structure BucketRun where
  bucket  : Nat
  entries : Nat
  sweeps  : Nat
  items   : List Item
  deriving DecidableEq, Repr

/-- What a Figure in progress holds. `phase`: 0 phase 0 or the sweep, 1 phases 1 and 2 or the merge. `retired` counts
the items retired, `recent` those completed in each of the last 4 beats (R61); `assign` the cores that bucket mode gives the items of the
bucket in work (R273); `appendLeft` the (entry, KV head) appends of an append phase still to be issued; `opDone` that a control
operation has been carried out, `detectedOn` the cores with a parity detection in this attempt (R324), `gangs` the gangs that still
hold together (R189, R294). -/
structure RunFig where
  fig       : Nat
  startBeat : BitVec 64
  attempts  : Nat
  detections : Nat
  phase     : Nat
  noWrite   : Bool
  appended  : Bool
  shape     : Nat
  clms      : List Nat
  items     : List Item
  mergeItems : List Item
  buckets   : List BucketRun
  bucketNow : Nat
  bucketRecs : List (Nat × Nat × Nat)
  committed : List (Nat × Nat)
  retired   : Nat
  total     : Nat
  recent    : List Nat
  beatDone  : Nat
  beats     : Nat
  flags     : Flags
  opDone    : Bool
  aborting  : Option AbortCause
  detectedOn : List Nat
  gangs     : List (List Nat)
  assign    : List (Nat × Nat)
  appendLeft : List (Nat × Option Nat)
  deriving DecidableEq, Repr

/-- The run of the loaded Choreography (R52, R497, R498, R585). For R70: `raisedLate` are the places that have raised LATE since
the last Hold ended, `progressed` those that have completed an item since the last Hold began, `lateHolds` the consecutive Holds in
which a Figure raised LATE and made no progress. `first` is the iteration in which the run began (R585). -/
structure Run where
  iterations : Nat
  first      : Nat
  iteration  : Nat
  next       : Nat
  completed  : List Nat
  raisedLate : List Nat
  progressed : List Nat
  lateHolds  : KMap Nat
  active     : List RunFig
  records    : KMap Flags
  traceVa    : Nat
  traceLen   : Nat
  tracePos   : Nat
  traceOn    : Bool
  traceFull  : Bool
  stopNow    : Bool
  stopAtEnd  : Bool
  stopCause  : Nat
  tempoLost  : Bool
  deriving DecidableEq, Repr

/-! ### The KV cache -/

/-- The states of a Sequence Descriptor (R227). -/
inductive SeqState where
  | free | opened | evicting | evicted | restoring
  deriving DecidableEq, Repr

/-- A page-list entry (R230). -/
structure Page where
  sealedAll  : Bool
  far        : Bool
  valid      : Bool
  vFmt       : Nat
  kFmt       : Nat
  log2Size   : Nat
  firstToken : Nat
  frame      : Nat
  deriving DecidableEq, Repr

/-- A Sequence Descriptor slot (R227) with its page list (R230), the far frames of an eviction in progress or the HBM frames of a
restore in progress (R253, R254), and the V groups sealed so far (R234), as (layer × 32 + head) × 2^19 + group. -/
structure Seq where
  state     : SeqState
  gen       : BitVec 4
  part      : Nat
  jobTag    : BitVec 16
  layers    : Nat
  kvHeads   : Nat
  headDim   : Nat
  kFmt      : Nat
  vFmt      : Nat
  log2Min   : Nat
  log2Max   : Nat
  plCap     : Nat
  len       : Nat
  resEnd    : Nat
  plAddr    : BitVec 64
  tailFrame : BitVec 32
  hbmFrames : Nat
  farFrames : Nat
  pages     : List Page
  target    : List Nat
  targetTail : Option Nat
  copied    : Bool
  sealed    : List Nat
  deriving DecidableEq, Repr

/-- What an arena frame is: free and zeroed, free and dirty, or held by a slot (R225, R251). -/
inductive FrameUse where
  | dirty | zeroed | held (slot : Nat)
  deriving DecidableEq, Repr

/-- A KV arena (R222): base, frame count and the frames that are not dirty. -/
structure Arena where
  base   : Nat
  frames : Nat
  use    : KMap FrameUse
  deriving DecidableEq, Repr

/-- A partition's share of the cache (R223, R226, R606): arenas, descriptor quota. -/
structure KvPart where
  hbm   : Arena
  far   : Arena
  quota : Nat
  deriving DecidableEq, Repr

/-! ### Commands in progress -/

/-- A command acknowledged and not yet complete: its number and its 64 bytes as read from the slot (R464, R465), and its place among the
commands handed to the control cores (R456). -/
structure OpenCmd where
  seq     : BitVec 16
  image   : BitVec 512
  started : Bool
  turn    : Nat
  deriving DecidableEq, Repr

/-- An intrusive item (R71, R72, R496). -/
inductive Intrusive where
  | channel (ch : Nat) | port (n : Nat) | staging (k : Nat) | laneRemap (n : Nat)
  deriving DecidableEq, Repr

/-- A queued or running intrusive item; `who` are the INTERMISSION_REQ commands that complete with it (R497). -/
structure QueuedItem where
  item    : Intrusive
  who     : List (Nat × BitVec 16)
  running : Bool
  deriving DecidableEq, Repr

/-- A group record (R437) with its children. -/
structure Group where
  tempo    : Bool
  root     : Bool
  members  : Nat
  subtree  : Nat
  upNode   : Nat
  children : List Nat
  deriving DecidableEq, Repr

/-- What a started command waits for (the W, Q and F effects of R490, R492). -/
inductive Wait where
  | trim (slot len : Nat)
  | close (slot : Nat)
  | evict (slot : Nat)
  | restore (slot : Nat)
  | restoreAfterEvict (slot : Nat)
  | jobEnd (kill : Bool) (step : Nat) (aborted : Nat)
  | reserve (entries : List (Nat × Nat × Nat)) (results : List Nat) (frames : Nat)
  | migrate (va : Nat)
  | invalidate (done : Nat)
  | chorStop
  | groupSet (groups : List (Nat × Group)) (probes : List Nat) (rtt : Nat)
  | setPartner (node : Nat) (allowSame : Bool)
  | power (target : Nat)
  | debugResume (core : Nat)
  deriving DecidableEq, Repr

/-- A started command that has not completed: ring, number and what it waits for. -/
structure Waiting where
  ring : Nat
  seq  : BitVec 16
  what : Wait
  deriving DecidableEq, Repr

/-- The result of one SEQ_RESERVE entry that KV_COMMIT reads (R247): SEQ_ID, k, granted. -/
structure Reserved where
  batchVa : Nat
  entries : List (BitVec 20 × Nat × Bool)
  deriving DecidableEq, Repr

/-! ### Accounting, telemetry, snapshots -/

/-- Seven accounting counters with their remainders (R529), SAT bits and copies (R531, R532); `kvEdge` is KV_PAGE_BEATS before the beat
at the last Bar boundary (R590). -/
structure Acct where
  live    : List Nat
  rem     : List Nat
  sat     : BitVec 7
  bar     : List Nat
  barBeat : BitVec 64
  opened  : List Nat
  openBeat : BitVec 64
  ended   : List Nat
  endBeat : BitVec 64
  openTag : BitVec 16
  endTag  : BitVec 16
  kvEdge  : Nat
  deriving DecidableEq, Repr

/-- Partition event counters (R598, R600). -/
structure PartCounters where
  holds     : Nat
  holdBeats : Nat
  lateRaised : Nat
  reruns    : Nat
  aborts    : Nat
  sat       : BitVec 5
  deriving DecidableEq, Repr

/-- What the telemetry record of the Bar needs besides live state (R604). -/
structure BarNotes where
  hold       : Bool
  inter      : Bool
  fence      : Bool
  satEvent   : Bool
  holdBeats  : Nat
  late       : Nat
  faults     : Nat
  crwait     : Nat
  unbound    : Bool
  noRoute    : Bool
  loop       : Bool
  deriving DecidableEq, Repr

/-- A partition's telemetry unit (R601 to R605). -/
structure Telem where
  enable  : Bool
  records : BitVec 20
  baseLo  : BitVec 24
  baseHi  : BitVec 20
  head    : BitVec 20
  tail    : BitVec 20
  err     : Bool
  sat     : Bool
  dropped : Nat
  gap     : Nat
  buffer  : List (List Byte)
  deriving DecidableEq, Repr

/-- A mirror this device holds for another node (R580, R581): the half of the latest complete mirror with its snapshot number, and of the
mirror in progress its number, the bytes landed and whether its header has landed. -/
structure MirrorHeld where
  node     : Nat
  half     : Nat
  complete : Bool
  seq      : Nat
  next     : Nat
  landed   : Nat
  header   : Bool
  deriving DecidableEq, Repr

/-- A partition's snapshot state (R566 to R585): `staging` the schedule beat and the body of the snapshot in the staging area, `stageHdr`
its header bytes 0x10 to 0x4F; `partnerLb`, `partnerCap` and `mirrorHalf` are the
Partner's mirror buffer, its bytes and the half the next mirror goes into. -/
structure Snap where
  set       : Bool
  nvmBase   : Nat
  slotMb    : Nat
  slots     : Nat
  latest    : Option Nat
  nextSlot  : Nat
  snapSeq   : Nat
  bad       : List Nat
  staging   : Option (Nat × List Byte)
  stageHdr  : List Byte
  stageFig  : Nat
  writing   : Bool
  mirroring : Bool
  wear      : Nat
  failed    : Bool
  doneBit   : Bool
  lastCause : Nat
  partner   : Option Nat
  partnerLb : Nat
  partnerCap : Nat
  mirrorHalf : Nat
  mirrorSent : Bool
  atRisk    : Bool
  mirrorDown : Bool
  held      : Option MirrorHeld
  resume    : Option (Nat × Nat × Nat)
  deriving DecidableEq, Repr

/-! ### Translation -/

/-- A leaf of a page table (R385): 32 MiB when `big` is false, 1 GiB when true. -/
structure Leaf where
  big    : Bool
  far    : Bool
  port   : Bool
  wr     : Bool
  rd     : Bool
  pin    : Bool
  target : Nat
  deriving DecidableEq, Repr

/-- A migration in progress (R407): the page, its new target and its permissions before step 1. -/
structure Migration where
  va     : Nat
  target : Leaf
  deriving DecidableEq, Repr

/-- A partition's page table and its access table (R384, R406): leaves and counts keyed by VA bits [51:25] of the page; a key in
`corrupt` meets a corrupt entry (R385). -/
structure Space where
  leaves    : KMap (Option Leaf)
  corrupt   : List Nat
  counts    : KMap Nat
  grown     : KMap Nat
  hot       : List (Nat × Nat × Nat)
  hotDropped : Nat
  hotThreshold : Nat
  hotFarOnly : Bool
  moving    : List Migration
  deriving DecidableEq, Repr

/-! ### Fabric -/

/-- A frame (R416): a delivery (R429), or a control frame. Only the beat-count frame's bits are given (R633); the others are held
by their fields. -/
inductive Frame where
  | delivery (header : BitVec 256) (data : List Byte)
  | beatCount (w : BitVec 256)
  | late (node t len : Nat)
  | vote (up : Bool) (id : Nat) (step : BitVec 32) (flags : BitVec 4) (count : Nat)
  | credit (dst src lb units : Nat)
  | probe (group : Nat)
  | partner (dst src kind feed cap lb half : Nat)
  | mirror (dst src off : Nat) (data : List Byte)
  deriving DecidableEq, Repr

/-- A partition's fabric plane (R421 to R423, R433 to R437, R451). Routes are the 64-bit records by node; `credits` the sender's
counts keyed by node × 4,096 + LB; `rotate` the rotation place per node; `waitq` the frames that wait for a usable port; `echoes` the
echoes that a group's probe still awaits here (R439). -/
structure Plane where
  node       : BitVec 10
  valid      : Bool
  noRoute    : Bool
  tempoGroup : BitVec 8
  routes     : KMap (BitVec 64)
  groups     : KMap (Option Group)
  credits    : KMap (Option Nat)
  rotate     : KMap Nat
  waitq      : List (Nat × Frame)
  echoes     : KMap Nat
  deriving DecidableEq, Repr

/-- A partition (R507, R508). `notes` are of the Bar in progress, `closed` of the one that last ended. -/
structure Part where
  tempo     : Tempo
  spin      : List (BitVec 64 × BitVec 32)
  flags     : Flags
  firstFig  : BitVec 24
  firstBeat : BitVec 64
  voteId    : BitVec 8
  voteFlags : BitVec 4
  voteClear : Bool
  voteValid : Bool
  job       : Option (BitVec 16)
  endedTags : List (BitVec 16)
  jobLoaded : Bool
  chor      : Option Chor
  run       : Option Run
  kv        : KvPart
  residents : List Region
  quarterOn : BitVec 4
  wakeOn    : BitVec 4
  zeroising : Bool
  waiting   : List Waiting
  reserved  : List Reserved
  items     : List QueuedItem
  space     : Space
  plane     : Plane
  acct      : Acct
  cnt       : PartCounters
  notes     : BarNotes
  closed    : BarNotes
  telem     : Telem
  snap      : Snap
  eventRing : Nat
  deriving DecidableEq, Repr

/-! ### Tile programs -/

/-- What one step of a tile program issues, Scratchpad rows apart. `other` is the bank: OB of R180 and R202, or the bank of an odd block
(R144), where it is true. An array operation may be split over its K-steps (R144): the step holds those left. A drain reads `count` rows
at least; the grid of a fill is none where the row scales read with it give it (R268). -/
inductive Act where
  | mxa (aFmt bFmt : Fmt) (bT add other : Bool) (grid : Option Int) (steps : Nat)
  | drain (other : Bool) (count : Nat) (dst : Fmt) (conv : Conv) (at0 : Coord) (mul : BitVec 32) (rowMul rs : Bool)
  | fill (other : Bool) (src : Fmt) (rs : Bool) (grid : Option Int)
  | shift (other : Bool)
  | clear (other : Bool)
  | convert (src dst : Fmt) (conv : Conv) (at0 : Coord) (rows cols : Nat)
  | resetRows (strict : Bool)
  | softmax (strict : Bool) (pConv : Conv) (at0 : Coord) (pair : PairOp)
  | finish (strict : Bool) (pair : PairOp)
  | output (oFmt : Fmt) (conv : Conv) (at0 : Coord) (cols : Nat) (pair : PairOp)
  | records (pair : PairOp)
  | merge (rows cols parts : Nat)
  | rowTerm (doFmt oFmt : Fmt) (cols : Nat) (pair : PairOp)
  | probs (strict : Bool) (conv : Conv) (at0 : Coord) (pair : PairOp)
  | dsForm (strict : Bool) (conv dsConv : Conv) (dsFmt : Fmt) (dsShift : Int) (at0 : Coord) (pair : PairOp)
  deriving DecidableEq, Repr

/-- What a drain of a step writes: the rows as they stand, the finished rows of R183, the rows of a partial state (R184), or +0 rows on a
grid (R202, R205, R282). -/
inductive RowsAs where
  | plain | finished | partials
  | zeros (grid : Int)
  deriving DecidableEq, Repr

/-- A step of a tile program: what it issues, the named Scratchpad areas of its operand rows in the operation's order, true where it
writes one (area 0 is any place), and what of its block is real data (R187, R258, R281, R529): row `i` is when i < `rows` and, where
`qrows` is not 0, i mod `qrows` < `qLen`; `cols` columns, those beyond being padding where `padCols` says so, and `ks` K-steps. -/
structure Step where
  act    : Act
  areas  : List (Nat × Bool)
  rows   : Nat
  qrows  : Nat
  qLen   : Nat
  cols   : Nat
  padCols : Bool
  ks     : Nat
  rowsAs : RowsAs
  deriving DecidableEq, Repr

/-! ### Attention Cores and Sets -/

/-- The tag of an ACM element (R132). -/
inductive Tag where
  | fin | pinf | ninf | nan
  deriving DecidableEq, Repr

/-- An ACM element (R132). -/
structure Elem where
  x   : BitVec 128
  tag : Tag
  deriving DecidableEq, Repr

/-- An ACM bank (R134, R137): elements keyed by 128 × row + column, rows that fail parity. -/
structure Bank where
  elems : KMap Elem
  grid  : Int
  sat   : Bool
  bad   : List Nat
  deriving DecidableEq, Repr

/-- The state of one query row (R172): `m` is `none` for NONE; `pad` marks a row merged from padded partial states (R267). -/
structure RowState where
  m   : Option Int
  l   : Nat
  e   : Int
  bad : Bool
  pad : Bool
  deriving DecidableEq, Repr

/-- A Figure slot of a core (R115, R116): the Figure, the flags of the item in work and of work that belongs to no item; the item in
work as (key, number), the steps its tile program has still to issue, the ACM bank that plays SB (R180), and the rows of its named
Scratchpad areas. -/
structure Slot where
  fig   : Option (Nat × Nat)
  item  : Flags
  other : Flags
  work  : Option (Nat × Nat)
  todo  : List Step
  sb    : Option Nat
  areas : KMap (Option Nat)
  deriving DecidableEq, Repr

/-- A receive window (R314, R315): waiting takes are (writer, n) in arrival order. -/
structure Window where
  isOpen   : Bool
  part     : Nat
  fig      : Nat
  firstRow : Nat
  rows     : Nat
  any      : Bool
  writer   : Nat
  avail    : Nat
  waiting  : List (Nat × Nat × Nat)
  granted  : KMap Nat
  deriving DecidableEq, Repr

/-- A core's Scratchpad counters (R318 to R322). -/
structure SpmCounters where
  conf    : List Nat
  nwait   : Nat
  crwait  : Nat
  perr    : Nat
  perrSat : Bool
  crwaitSat : Bool
  nwaitSat : Bool
  csat    : BitVec 32
  deriving DecidableEq, Repr

/-- What a claim returns (R290). -/
inductive ClaimAnswer where
  | items (l : List Nat)
  | empty
  | done
  deriving DecidableEq, Repr

/-- An Attention Core (R23, R304 to R324, R594 to R597). `tags` holds the tags of split operand elements beside their high pieces, by
Scratchpad byte address (R146, log 29); `rowMask` is the number of masked quarters of the array (R259), 4 when clear; `staged` are the
rows that multicast stages delivered and the core has not released (R297, log 98). -/
structure Core where
  spm       : KMap Byte
  badRows   : List Nat
  tags      : KMap Nat
  bank0     : Bank
  bank1     : Bank
  rows      : KMap RowState
  regs      : KMap (BitVec 64)
  slot0     : Slot
  slot1     : Slot
  held      : List (Nat × Nat)
  answer    : Option ClaimAnswer
  windows   : KMap Window
  rowMask   : Nat
  fenced    : Bool
  halted    : Bool
  busyCh    : List Nat
  staged    : List Nat
  poisoned  : Bool
  cnt       : SpmCounters
  stall     : List Nat
  stallBar  : List Nat
  stallSat  : BitVec 12
  perrBar   : Nat
  deriving DecidableEq, Repr

/-- A KVLB entry (R237, R238): the sequence and its page. -/
structure KvlbEntry where
  seqId : BitVec 20
  page  : Page
  deriving DecidableEq, Repr

/-- A cached leaf of a uTLB or the STB (R388, R389), tagged by partition and page (VA bits [51:25]); `count` is the STB's
access field (R406). -/
structure TlbEntry where
  part  : Nat
  page  : Nat
  leaf  : Leaf
  count : Nat
  deriving DecidableEq, Repr

/-- A walk in flight (R389, R404): started by a stream's access; `stale` once an invalidation overlaps its page. -/
structure Walk where
  part    : Nat
  page    : Nat
  streams : List Nat
  second  : Bool
  stale   : Bool
  deriving DecidableEq, Repr

/-- A KV walk in flight (R237). -/
structure KvWalk where
  stream : Nat
  seqId  : BitVec 20
  token  : Nat
  search : Bool
  work   : Nat × Nat
  deriving DecidableEq, Repr

/-- A Set's shared units (R27, R237, R238, R389, R409, R410). Lists are most recently used first; `walkCache` holds the non-leaf entries
that the STB caches, by partition and VA bits [51:30] (R389). -/
structure SetUnits where
  kvlb      : List KvlbEntry
  cursors   : KMap (Option (BitVec 20 × Nat))
  descCache : List Nat
  kvWalks   : List KvWalk
  stb       : List TlbEntry
  walkCache : List (Nat × Nat)
  walks     : List Walk
  utlbMiss  : Nat
  stbHit    : Nat
  stbMiss   : Nat
  invRanges : Nat
  umissSat  : Bool
  shitSat   : Bool
  smissSat  : Bool
  invSat    : Bool
  fenced    : Bool
  deriving DecidableEq, Repr

/-! ### Streams, faults and claims -/

/-- A line request of a stream (R379, R394): `bytes` from `va` inside one 64-byte line, its direction and tile, where its data stands in
the Scratchpad (in the transit of a COPY stream) and, for a block-scaled side there, its first scale byte, the place it was issued to
(far?, channel or port, address), and its data once read, or to be written. -/
structure LineReq where
  va       : Nat
  bytes    : Nat
  write    : Bool
  tile     : Nat
  spmByte  : Nat
  scByte   : Nat
  place    : Option (Bool × Nat × Nat)
  data     : Option (List Byte)
  poisoned : Bool
  deriving DecidableEq, Repr

/-- A fault's cause (R393, R396). -/
inductive FaultCause where
  | notMapped | noRead | noWrite
  deriving DecidableEq, Repr

/-- What a page walk found for a token: its page, or the cause of the failure (R239). -/
inductive KvFound where
  | page (g : Page)
  | failed (cause : Nat)
  deriving DecidableEq, Repr

/-- A lookup a gather stream made for the item (key, number) of its core, and what it found (R237, R239). -/
structure KvLook where
  work  : Nat × Nat
  seqId : BitVec 20
  token : Nat
  found : KvFound
  deriving DecidableEq, Repr

/-- A bound DMA or gather stream (R379 to R381, R394, R395); `mcast` are the cores of its multicast set (R31), none for a stream that
serves its own core. -/
structure Stream where
  bound     : Bool
  part      : Nat
  fig       : Nat
  core      : Nat
  engine    : Nat
  kind      : StreamKind
  role      : Nat
  conv      : StreamConv
  mcast     : List Nat
  lines     : List LineReq
  ready     : List Nat
  suspended : Option (Nat × Bool × FaultCause)
  parked    : Bool
  queued    : Bool
  heldWrite : Bool
  poisoned  : Bool
  kvPages   : List KvLook
  deriving DecidableEq, Repr

/-- A Fault Queue entry (R396). -/
structure FaultEntry where
  fig    : Nat
  stream : Nat
  part   : Nat
  core   : Nat
  engine : Nat
  write  : Bool
  cause  : FaultCause
  va     : Nat
  deriving DecidableEq, Repr

/-- The Fault Queue, the parking order and their counters (R395, R408, R409, R411). -/
structure FaultQueue where
  entries   : List FaultEntry
  parking   : List Nat
  posted    : Nat
  parks     : Nat
  viol      : Nat
  postedSat : Bool
  parksSat  : Bool
  violSat   : Bool
  deriving DecidableEq, Repr

/-- A Claim Counter (R290, R293): `kept` are returns the Caller keeps while the return queue is full. -/
structure Clm where
  loaded  : Bool
  limit   : Nat
  next    : Nat
  queue   : List Nat
  kept    : List Nat
  retired : Nat
  fig     : Nat
  part    : Nat
  signalled : Bool
  returned : List Nat
  deriving DecidableEq, Repr

/-! ### Memory -/

/-- A memory region's register group (R342) and its channel list, `none` until it is latched (R344). -/
structure MemRegion where
  size   : Nat
  caBase : Nat
  base   : Nat
  valid  : Bool
  mode   : Nat
  fw     : Bool
  part   : Nat
  set    : Nat
  port   : Nat
  list   : Option (List Nat)
  deriving DecidableEq, Repr

/-- A Write-Combining Buffer entry (R351): the line, its owner, whether accounting counts
it (R529) and the bytes its mask covers. -/
structure WcbEntry where
  line : Nat
  part : Nat
  counted : Bool
  data : KMap (Option Byte)
  deriving DecidableEq, Repr

/-- Channel states (R363). -/
inductive ChState where
  | online | fenced | down | retraining | failed | spare
  deriving DecidableEq, Repr

/-- A channel's counters (R377, R378). -/
structure McCounters where
  corr     : Nat
  ue       : Nat
  rmw      : Nat
  qwait    : Nat
  scrub    : Nat
  scrubSat : Bool
  qwaitSat : Bool
  rmwSat   : Bool
  ueSat    : Bool
  corrSat  : Bool
  deriving DecidableEq, Repr

/-- The Bandwidth Regulators of a controller or far port (R347, R349), per partition: the slots taken in this round of 64, the one
that last took a slot beyond its share, and of the slots issued while requests of both paths waited, the last 64 at most, all and those
of the crossbar. -/
structure Turns where
  slots : List Nat
  last  : Nat
  both  : List Nat
  cross : List Nat
  deriving DecidableEq, Repr

/-- A memory channel and its controller (R351 to R364, R376 to R378). Memory is keyed by channel address; `undef` is the free
value's counter once the contents are undefined (R363). -/
structure Channel where
  mem        : KMap Byte
  undef      : Option Nat
  poison     : List Nat
  wcb        : List WcbEntry
  state      : ChState
  sparesUsed : Nat
  remaps     : List Nat
  copying    : List Nat
  retrainQueued : Bool
  remapFull  : Bool
  served     : BitVec 4
  keep       : Bool
  uesInBar   : Nat
  corrRows   : KMap Nat
  scrubAt    : Nat
  scrubAge   : Bool
  refreshed  : Nat
  turns      : Turns
  cnt        : McCounters
  deriving DecidableEq, Repr

/-- An HBM stack (R340, R354, R361, R375). -/
structure Stack where
  temp      : Nat
  staged    : Nat
  level     : Nat
  selfRefresh : Bool
  phyReset  : Bool
  deriving DecidableEq, Repr

/-- An outstanding far request (R637, R639): the line address, the stream that asked, the bytes to write (by place in the line) of a
write, whether it is the read of a read-merge-write (R368), and FM_RWD_POISON. -/
structure FarReq where
  tag    : Nat
  addr   : Nat
  part   : Nat
  stream : Nat
  write  : Option (KMap (Option Byte))
  rmw    : Bool
  poison : Bool
  deriving DecidableEq, Repr

/-- A Far Memory Port (R368 to R371, R637 to R639). -/
structure FarPort where
  mem    : KMap Byte
  poison : List Nat
  linkUp : Bool
  reqs   : List FarReq
  turns  : Turns
  deriving DecidableEq, Repr

/-- Block-wide memory registers (R373, R374, R347, R349). -/
structure MemBlock where
  stackGb  : Nat
  mismatch : Bool
  trained  : Bool
  ueLast   : Nat
  ueValid  : Bool
  ueChannel : Nat
  farShare : BitVec 7
  bwShare  : BitVec 32
  deriving DecidableEq, Repr

/-! ### Links -/

/-- Port states (R417). -/
inductive PortState where
  | down | training | up | keepalive | fenced | retraining | failed
  deriving DecidableEq, Repr

/-- A port's counters (R452, R453). -/
structure LkCounters where
  tx      : Nat
  rx      : Nat
  fecCorr : Nat
  fecUnc  : Nat
  retry   : Nat
  crwait  : Nat
  sat     : BitVec 6
  txRem   : Nat
  rxRem   : Nat
  deriving DecidableEq, Repr

/-- A frame whose flits have been sent and not all acknowledged (R415, R420): the SEQ of its last flit, its flits, the node it goes
toward. -/
structure SentFrame where
  seq    : BitVec 12
  flits  : Nat
  toward : Nat
  frame  : Frame
  deriving DecidableEq, Repr

/-- A link port (R414 to R420, R450, R632, R640). -/
structure Port where
  state     : PortState
  width     : Nat
  cause     : Nat
  retrainQueued : Bool
  peer      : Nat
  master    : Bool
  rxSeq     : BitVec 12
  ackSeen   : BitVec 12
  txSeq     : BitVec 12
  discarding : Bool
  sent      : List SentFrame
  replays   : Nat
  rxBytes   : List Byte
  out       : List (Nat × Frame)
  uncInBar  : Nat
  lanes     : BitVec 8
  phyReset  : Bool
  relocking : Bool
  cnt       : LkCounters
  deriving DecidableEq, Repr

/-- A landing buffer (R424, R425). -/
structure LandBuf where
  isSet : Bool
  base  : Nat
  size  : Nat
  deriving DecidableEq, Repr

/-- The Collective Engine's counters (R452, R454). -/
structure CeCounters where
  unbound : Nat
  dcrc    : Nat
  rsMis   : Nat
  unbSat  : Bool
  dcrcSat : Bool
  rsmSat  : Bool
  deriving DecidableEq, Repr

/-! ### Control Cluster and mailbox -/

/-- Ring states (R476). -/
inductive RingState where
  | down | ready | resetting | halted
  deriving DecidableEq, Repr

/-- A mailbox ring (R458 to R476). -/
structure Ring where
  prod     : BitVec 16
  cpl      : BitVec 16
  evcons   : BitVec 16
  cplEn    : Bool
  evtEn    : Bool
  ack      : BitVec 16
  head     : BitVec 16
  etail    : BitVec 16
  ctail    : BitVec 16
  dropped  : Nat
  state    : RingState
  evtOverflow : Bool
  badCons  : Bool
  overrun  : Bool
  evtPend  : Bool
  cplPend  : Bool
  versionRead : Bool
  opened   : List OpenCmd
  deriving DecidableEq, Repr

/-- A FAULT event that waits in cluster SRAM for a free slot (R469): its partition, the job tag when it arose and the Fault
Queue entry it carries. -/
structure Backlog where
  part    : Nat
  tag     : BitVec 16
  payload : BitVec 128
  deriving DecidableEq, Repr

/-- FW_STAT.STATE (R480). -/
inductive FwState where
  | boot | running | restarting | panic
  deriving DecidableEq, Repr

/-- Fremund and the Control Cluster (R455, R477 to R486); `sram` is the Fremund image in the control cores' SRAM (R34, R518), `handed` the
number of commands handed to the control cores (R456). -/
structure Fremund where
  state      : FwState
  hb         : BitVec 64
  slot       : Bool
  trial      : Bool
  lastUpdate : Nat
  coreFault  : BitVec 4
  wdog       : Bool
  version    : BitVec 32
  misses     : List Nat
  selfTests  : Bool
  hbmTrained : Bool
  zeroed     : Bool
  regionsBuilt : Bool
  fwLost     : Bool
  early      : List (Nat × Nat × BitVec 128)
  backlog    : List Backlog
  freeSlots  : List Nat
  sram       : List Byte
  handed     : Nat
  deriving DecidableEq, Repr

/-! ### Protection -/

/-- The protection registers (R509 to R526). -/
structure Prot where
  lock      : Bool
  refuse    : Nat
  refIndex  : Nat
  setPart   : BitVec 32
  setEn     : BitVec 16
  portPart  : BitVec 96
  portEn    : BitVec 48
  ringCfg   : BitVec 64
  hostReq   : BitVec 64
  dbgPart   : BitVec 4
  dbgJtag   : Bool
  dbgSpm    : Bool
  dbgHalt   : Bool
  dbgAcm    : Bool
  fwMeasure : BitVec 384
  protMeasure : BitVec 384
  bootStage : Nat
  bootFail  : Nat
  svnMin    : Nat
  hpfValid  : Bool
  hpfReq    : Nat
  hpfWrite  : Bool
  hpfSat    : Bool
  hpfCount  : Nat
  hpfAddr   : BitVec 26
  violValid : Bool
  violCore  : Nat
  violClm   : Nat
  violSat   : Bool
  violCount : Nat
  deriving DecidableEq, Repr

/-! ### Power -/

/-- The PMU (R533 to R554). -/
structure Pmu where
  state      : Nat
  target     : Nat
  transition : Bool
  duty       : Nat
  stretch    : Bool
  throttle   : Bool
  dieTemp    : Nat
  dieLevel   : Nat
  avgW       : Nat
  capW       : Nat
  overCap    : Bool
  droopWarn  : Bool
  droopSat   : Bool
  droopSource : Nat
  droopCount : Nat
  droopPosted : Bool
  droopBar   : Bool
  episode    : Nat
  vnom       : Nat
  resetMv    : Nat
  warnMv     : Nat
  monEn      : BitVec 15
  dieTripC   : Nat
  dieHotC    : Nat
  rstSource  : Nat
  rstSupply  : Bool
  dutyMin    : Nat
  dieTempMax : Nat
  stackTempMax : Nat
  deriving DecidableEq, Repr

/-! ### Health, block counters, interrupts, debug, test -/

/-- The sticky part of the health word (R560, R561, R565). -/
structure Health where
  replaceCause : BitVec 5
  resetRequested : Bool
  thermalTrip : Bool
  deriving DecidableEq, Repr

/-- Block error counters (R599, R600). -/
structure BlkCounters where
  ccCorr   : Nat
  cachePar : Nat
  glitch   : Nat
  missed   : Nat
  splits   : Nat
  sat      : BitVec 5
  deriving DecidableEq, Repr

/-- INT_FATAL_CAUSE (R663). -/
structure Fatal where
  supply   : Bool
  therm    : Bool
  bootStop : Bool
  panic    : Bool
  wdog     : Bool
  deriving DecidableEq, Repr

/-- The debug window (R154 to R157, R665 to R670). -/
structure Debug where
  acmCore   : Nat
  acmBank   : Nat
  acmRow    : Nat
  acmGrid   : BitVec 16
  acmDenied : Bool
  acmNotHalted : Bool
  acmSat    : Bool
  acmBusy   : Bool
  acmData   : KMap (BitVec 128)
  acmTag    : KMap (BitVec 2)
  spmCore   : Nat
  spmRow    : Nat
  spmPerr   : Bool
  spmDenied : Bool
  spmNotHalted : Bool
  spmRange  : Bool
  spmBusy   : Bool
  spmData   : KMap Byte
  deriving DecidableEq, Repr

/-- The reset phases (R615 to R618, R649). -/
inductive Phase where
  | cold | held | running | entry | testMode
  deriving DecidableEq, Repr

/-- Reset, test and board signals (R609, R615 to R618, R644 to R652, R681). `wrapIn` are WRCK, WRSTN, SelectWIR, CaptureWR, ShiftWR,
UpdateWR and WSI as the pass-through drives them to each stack, `wrapOut` the external WSO of each stack (R651). -/
structure Pins where
  phase     : Phase
  rstAck    : Bool
  blkRstN   : Bool
  testReady : Bool
  shdnReq   : Bool
  feed      : BitVec 16
  jtagIr    : BitVec 8
  jtagData  : BitVec 32
  fuseReq   : Bool
  fuseAddr  : Nat
  fuses     : KMap (BitVec 32)
  nvmErr    : Bool
  scanOut   : List (BitVec 256)
  wrapIn    : List (BitVec 7)
  wrapOut   : BitVec 8
  deriving DecidableEq, Repr

/-- An outstanding NVM request (R625). -/
structure NvmReq where
  tag   : Nat
  op    : Nat
  addr  : Nat
  lines : Nat
  data  : BitVec 512
  why   : Nat
  deriving DecidableEq, Repr

/-- The block. `free` counts the free values drawn (the model's own field). -/
structure State where
  pending  : List Instr
  free     : Nat
  cfg      : Design
  beat     : BeatUnit
  parts    : KMap Part
  cores    : KMap Core
  sets     : KMap SetUnits
  clms     : KMap Clm
  streams  : KMap Stream
  utlbs    : KMap (List TlbEntry)
  faults   : FaultQueue
  seqs     : KMap Seq
  regions  : KMap MemRegion
  channels : KMap Channel
  stackSt  : KMap Stack
  far      : KMap FarPort
  mem      : MemBlock
  ports    : KMap Port
  lbs      : KMap LandBuf
  ce       : CeCounters
  rings    : KMap Ring
  ringMem  : KMap Byte
  fw       : Fremund
  prot     : Prot
  pmu      : Pmu
  health   : Health
  blk      : BlkCounters
  fatal    : Fatal
  dbg      : Debug
  pins     : Pins
  nvm      : KMap Byte
  nvmReqs  : List NvmReq
  latches  : KMap (BitVec 32)
  deriving DecidableEq, Repr

/-! ### Reset values -/

/-- The Beat Unit at reset (R46, R83 to R85). -/
def BeatUnit.reset : BeatUnit :=
  ⟨0, .unlocked, false, false, false, false, 0, [], 0, 0, false, none, []⟩

/-- Tempo registers at reset (R87 to R89). -/
def Tempo.reset : Tempo := ⟨0, 0, 0, 0, 0, false, false, false, false, 0, [], none, none⟩

/-- No arena set. -/
def Arena.reset : Arena := ⟨0, 0, []⟩

/-- Accounting at reset (R531). -/
def Acct.reset : Acct :=
  let z : List Nat := [0, 0, 0, 0, 0, 0, 0]
  ⟨z, z, 0, z, 0, z, 0, z, 0, 0, 0, 0⟩

/-- Notes of a Bar that has just begun. -/
def BarNotes.reset : BarNotes :=
  ⟨false, false, false, false, 0, 0, 0, 0, false, false, false⟩

/-- Telemetry at reset (R601). -/
def Telem.reset : Telem := ⟨false, 0, 0, 0, 0, 0, false, false, 0, 0, []⟩

/-- Snapshot state at reset (R578). -/
def Snap.reset : Snap :=
  ⟨false, 0, 0, 0, none, 0, 0, [], none, [], 0, false, false, 0, false, false, 0, none, 0, 0, 0, false, false, false, none, none⟩

/-- An empty page table with the hot-page defaults (R406). -/
def Space.reset : Space := ⟨[], [], [], [], [], 0, 2 ^ 20, true, []⟩

/-- A plane at reset (R451). -/
def Plane.reset : Plane := ⟨0, false, false, 0, [], [], [], [], [], []⟩

/-- A partition at reset: FLAG_ACC 0x0FFF_FFF0, VOTE_STAT 0, SPM_QSTAT 0xF (R117, R220, R333, R658). -/
def Part.reset : Part where
  tempo := Tempo.reset
  spin := List.replicate 16 (0, 0)
  flags := Flags.none
  firstFig := 0xFFFFFF
  firstBeat := 0
  voteId := 0
  voteFlags := 0
  voteClear := false
  voteValid := false
  job := none
  endedTags := []
  jobLoaded := false
  chor := none
  run := none
  kv := ⟨Arena.reset, Arena.reset, 0⟩
  residents := []
  quarterOn := 0xF
  wakeOn := 0xF
  zeroising := false
  waiting := []
  reserved := []
  items := []
  space := Space.reset
  plane := Plane.reset
  acct := Acct.reset
  cnt := ⟨0, 0, 0, 0, 0, 0⟩
  notes := BarNotes.reset
  closed := BarNotes.reset
  telem := Telem.reset
  snap := Snap.reset
  eventRing := 16

/-- ACM element 0 with a finite tag. -/
def Elem.zero : Elem := ⟨0, .fin⟩

/-- A bank after ACM_CLEAR (R140, R152). -/
def Bank.clear : Bank := ⟨[], -48, false, []⟩

/-- A query row at the start of a tile in default mode (R172). -/
def RowState.reset : RowState := ⟨none, 0, -33, false, false⟩

/-- An empty Figure slot. -/
def Slot.empty : Slot := ⟨none, Flags.none, Flags.none, none, [], none, []⟩

/-- A closed window. -/
def Window.closed : Window := ⟨false, 0, 0, 0, 0, false, 0, 0, [], []⟩

/-- Scratchpad counters at 0 (R319 to R322). -/
def SpmCounters.reset : SpmCounters :=
  ⟨List.replicate 32 0, 0, 0, 0, false, false, false, 0⟩

/-- A core after block reset: SPM and ACM zero (R152, R335), counters 0. -/
def Core.reset : Core where
  spm := []
  badRows := []
  tags := []
  bank0 := Bank.clear
  bank1 := Bank.clear
  rows := []
  regs := []
  slot0 := Slot.empty
  slot1 := Slot.empty
  held := []
  answer := none
  windows := []
  rowMask := 4
  fenced := false
  halted := false
  busyCh := []
  staged := []
  poisoned := false
  cnt := SpmCounters.reset
  stall := List.replicate 12 0
  stallBar := List.replicate 12 0
  stallSat := 0
  perrBar := 0

/-- A Set's units at reset: caches empty, counters 0. -/
def SetUnits.reset : SetUnits :=
  ⟨[], [], [], [], [], [], [], 0, 0, 0, 0, false, false, false, false, false⟩

/-- A cleared Claim Counter (R290). -/
def Clm.clear : Clm := ⟨false, 0, 0, [], [], 0, 0, 0, false, []⟩

/-- A free stream ID. -/
def Stream.unbound : Stream :=
  ⟨false, 0, 0, 0, 0, .tileLoad, 0, .raw, [], [], [], none, false, false, false, false, []⟩

/-- A FREE descriptor slot (R226, R227). -/
def Seq.free : Seq where
  state := .free
  gen := 0
  part := 0
  jobTag := 0
  layers := 0
  kvHeads := 0
  headDim := 0
  kFmt := 0
  vFmt := 0
  log2Min := 0
  log2Max := 0
  plCap := 0
  len := 0
  resEnd := 0
  plAddr := 0
  tailFrame := 0
  hbmFrames := 0
  farFrames := 0
  pages := []
  target := []
  targetTail := none
  copied := false
  sealed := []

/-- A region register group at reset (R342). -/
def MemRegion.reset : MemRegion := ⟨0, 0, 0, false, 0, false, 0, 0, 0, none⟩

/-- Channel counters at 0. -/
def McCounters.reset : McCounters := ⟨0, 0, 0, 0, 0, false, false, false, false, false⟩

/-- Regulators at the start of a round. -/
def Turns.reset : Turns := ⟨[0, 0, 0, 0], 3, [0, 0, 0, 0], [0, 0, 0, 0]⟩

/-- A channel at reset: DOWN until training completes (R376). -/
def Channel.reset : Channel where
  mem := []
  undef := none
  poison := []
  wcb := []
  state := .down
  sparesUsed := 0
  remaps := []
  copying := []
  retrainQueued := false
  remapFull := false
  served := 0
  keep := false
  uesInBar := 0
  corrRows := []
  scrubAt := 0
  scrubAge := false
  refreshed := 0
  turns := Turns.reset
  cnt := McCounters.reset

/-- A stack at reset (R375); its PHY is held in reset until training (R634). -/
def Stack.reset : Stack := ⟨0, 0, 0, false, true⟩

/-- A far port at reset; FM_LINK_UP is an input, taken as up until the bridge lowers it. -/
def FarPort.reset : FarPort := ⟨[], [], true, [], Turns.reset⟩

/-- Port counters at 0. -/
def LkCounters.reset : LkCounters := ⟨0, 0, 0, 0, 0, 0, 0, 0, 0⟩

/-- A port at reset: DOWN, peer unknown (R450). -/
def Port.reset : Port where
  state := .down
  width := 0
  cause := 0
  retrainQueued := false
  peer := 0x3FF
  master := false
  rxSeq := 0
  ackSeen := 0xFFF
  txSeq := 0
  discarding := false
  sent := []
  replays := 0
  rxBytes := []
  out := []
  uncInBar := 0
  lanes := 0
  phyReset := true
  relocking := false
  cnt := LkCounters.reset

/-- A landing buffer not set. -/
def LandBuf.reset : LandBuf := ⟨false, 0, 0⟩

/-- A ring at reset: every doorbell register 0, DOWN (R473 to R476). -/
def Ring.reset : Ring where
  prod := 0
  cpl := 0
  evcons := 0
  cplEn := false
  evtEn := false
  ack := 0
  head := 0
  etail := 0
  ctail := 0
  dropped := 0
  state := .down
  evtOverflow := false
  badCons := false
  overrun := false
  evtPend := false
  cplPend := false
  versionRead := false
  opened := []

/-- Fremund before boot (R480, R481); the 65,536 descriptor slots are all free, slot 0 first (R606). `freeSlots` lists the slots
freed since reset, oldest first; slots never used come before them in ascending order. -/
def Fremund.reset : Fremund where
  state := .boot
  hb := 0
  slot := false
  trial := false
  lastUpdate := 0
  coreFault := 0
  wdog := false
  version := 0
  misses := [0, 0, 0]
  selfTests := false
  hbmTrained := false
  zeroed := false
  regionsBuilt := false
  fwLost := false
  early := []
  backlog := []
  freeSlots := []
  sram := []
  handed := 0

/-- Protection at reset: every RWL field 0 (R510 to R526). -/
def Prot.reset : Prot where
  lock := false
  refuse := 0
  refIndex := 0
  setPart := 0
  setEn := 0
  portPart := 0
  portEn := 0
  ringCfg := 0
  hostReq := 0
  dbgPart := 0
  dbgJtag := false
  dbgSpm := false
  dbgHalt := false
  dbgAcm := false
  fwMeasure := 0
  protMeasure := 0
  bootStage := 0
  bootFail := 0
  svnMin := 0
  hpfValid := false
  hpfReq := 0
  hpfWrite := false
  hpfSat := false
  hpfCount := 0
  hpfAddr := 0
  violValid := false
  violCore := 0
  violClm := 0
  violSat := false
  violCount := 0

/-- The configuration's maximum block power in W (R3). -/
def maxPower (d : Design) : Nat :=
  if d.sets ≤ 4 then 340 else if d.sets ≤ 8 then 660 else if d.sets ≤ 12 then 980 else 1300

/-- The PMU at reset: DUTY 16, the cap at the configuration's maximum, default levels (R550 to R554). -/
def Pmu.reset (d : Design) : Pmu where
  state := 0
  target := 0
  transition := false
  duty := 16
  stretch := false
  throttle := false
  dieTemp := 0
  dieLevel := 0
  avgW := 0
  capW := maxPower d
  overCap := false
  droopWarn := false
  droopSat := false
  droopSource := 0
  droopCount := 0
  droopPosted := false
  droopBar := false
  episode := 0
  vnom := 750
  resetMv := 120
  warnMv := 60
  monEn := 0x7FFF
  dieTripC := 115
  dieHotC := 100
  rstSource := 0
  rstSupply := false
  dutyMin := 16
  dieTempMax := 0
  stackTempMax := 0

/-- The debug window at reset (R155, R156, R665). -/
def Debug.reset : Debug where
  acmCore := 0
  acmBank := 0
  acmRow := 0
  acmGrid := 0xFFD0
  acmDenied := false
  acmNotHalted := false
  acmSat := false
  acmBusy := false
  acmData := []
  acmTag := []
  spmCore := 0
  spmRow := 0
  spmPerr := false
  spmDenied := false
  spmNotHalted := false
  spmRange := false
  spmBusy := false
  spmData := []

/-- A C16 block with 12 MiB Scratchpads (the design the model resets to: log 1). -/
def Design.c16 : Design := ⟨2, 2, 48, 8, 16⟩

/-- The block held in block reset with the supply just applied: the state of every register at its reset value, BLK_RST_N low
and RST_ACK asserted, the next event being RESET_RELEASE. -/
def State.resetOf (d : Design) : State where
  pending := []
  free := 0
  cfg := d
  beat := BeatUnit.reset
  parts := []
  cores := []
  sets := []
  clms := []
  streams := []
  utlbs := []
  faults := ⟨[], [], 0, 0, 0, false, false, false⟩
  seqs := []
  regions := []
  channels := []
  stackSt := []
  far := []
  mem := ⟨0, false, false, 0, false, 0, 0x20, 0x10101010⟩
  ports := []
  lbs := []
  ce := ⟨0, 0, 0, false, false, false⟩
  rings := []
  ringMem := []
  fw := Fremund.reset
  prot := Prot.reset
  pmu := Pmu.reset d
  health := ⟨0, false, false⟩
  blk := ⟨0, 0, 0, 0, 0, 0⟩
  fatal := ⟨false, false, false, false, false⟩
  dbg := Debug.reset
  pins := ⟨.held, true, false, false, false, 0, 0xFF, 0, true, 16, [], false, [], [], 0⟩
  nvm := []
  nvmReqs := []
  latches := []

/-- The machine right after reset. -/
def State.reset : State := State.resetOf Design.c16

/-! ### Reasons a step stops -/

/-- Reasons a step faults. No step of this block faults: the spec turns each error into a status, an event or a register
(R556, R607), so none is raised. -/
inductive Fault where
  /-- Raised by no command (safe). -/
  | none
  deriving DecidableEq, Repr

/-- Reasons a step is refused. -/
inductive Refusal where
  /-- Raised by a command that has no meaning yet, named by its row (safe: nothing can be proved of it). -/
  | notModelled (mnemonic : String)
  deriving DecidableEq, Repr

end Sys2Proof.Machine
end

