-- ==== Sys2Proof/Machine/Flags.lean ====
section
/-! DEFINITION. The four sticky flag classes (R113) and how they combine. -/

namespace Sys2Proof.Machine

/-- The union of two flag records. -/
def Flags.or (a b : Flags) : Flags := ⟨a.ovf || b.ovf, a.unf || b.unf, a.inx || b.inx, a.inv || b.inv⟩

/-- The union of a list of flag records. -/
def Flags.all (l : List Flags) : Flags := l.foldl Flags.or Flags.none

def flOvf : Flags := ⟨true, false, false, false⟩
def flUnf : Flags := ⟨false, true, false, false⟩
def flInx : Flags := ⟨false, false, true, false⟩
def flInv : Flags := ⟨false, false, false, true⟩
def flOvfInx : Flags := ⟨true, false, true, false⟩
def flUnfInx : Flags := ⟨false, true, true, false⟩

/-- INX alone when `b`. -/
def inxIf (b : Bool) : Flags := ⟨false, false, b, false⟩

/-- The flags as bits OVF, UNF, INX, INV from bit 0 (R117, R498). -/
def Flags.bits (f : Flags) : Nat :=
  (if f.ovf then 1 else 0) + (if f.unf then 2 else 0) + (if f.inx then 4 else 0) + (if f.inv then 8 else 0)

/-- The record that bits OVF, UNF, INX, INV spell. -/
def Flags.ofBits (n : Nat) : Flags := ⟨n.testBit 0, n.testBit 1, n.testBit 2, n.testBit 3⟩

end Sys2Proof.Machine
end

