-- ==== Sys2Proof/Machine/Ops.lean ====
section
/-! DEFINITION. The named operations shared by the commands: bit fields and bytes, reading and updating indexed state, who owns
what, saturating counters, events, completions and the common checks of a mailbox command. -/

namespace Sys2Proof.Machine

abbrev Res := Host.Outcome State Fault Refusal

/-! ### Bits and bytes -/

/-- Bits [lo+n-1:lo] of `w`. -/
def fld (w lo n : Nat) : Nat := w / 2 ^ lo % 2 ^ n

/-- Bit `i` of `w`. -/
def bit (w i : Nat) : Bool := fld w i 1 = 1

/-- A Bool as 0 or 1. -/
def b2n (b : Bool) : Nat := if b then 1 else 0

/-- `w` with bit `i` set to `b`. -/
def setBit (w i : Nat) (b : Bool) : Nat := w - fld w i 1 * 2 ^ i + b2n b * 2 ^ i

/-- An `n`-bit two's complement field as an integer. -/
def sfld (w lo n : Nat) : Int :=
  let v := fld w lo n
  if v < 2 ^ (n - 1) then (v : Int) else (v : Int) - 2 ^ n

/-- `x` in `n`-bit two's complement. -/
def toTwos (n : Nat) (x : Int) : Nat := (x % (2 ^ n : Int)).toNat

/-- `n` bytes of `w`, little-endian (R17). -/
def leBytes (n w : Nat) : List Byte :=
  match n with
  | 0 => []
  | k + 1 => BitVec.ofNat 8 w :: leBytes k (w / 256)

/-- The number that little-endian bytes spell. -/
def ofLe (bs : List Byte) : Nat :=
  match bs with
  | [] => 0
  | b :: r => b.toNat + 256 * ofLe r

/-- `n` bytes of a byte map whose unlisted bytes read as 0. -/
def bread (m : KMap Byte) (a n : Nat) : List Byte := (List.range n).map (fun i => kget 0 m (a + i))

/-- Write bytes from address `a`. -/
def bwrite (m : KMap Byte) (a : Nat) (bs : List Byte) : KMap Byte :=
  match bs with
  | [] => m
  | b :: r => bwrite (kset 0 m a b) (a + 1) r

/-- The `k`-th entry of a list of counts. -/
def nth (l : List Nat) (k : Nat) : Nat := l.getD k 0

/-- Add the counts of two lists place by place. -/
def addLists (a b : List Nat) : List Nat := a.zipWith (· + ·) b

/-- Reflected CRC-32 of IEEE 802.3, one bit step. -/
def crcBit (c : BitVec 32) : BitVec 32 := if c.getLsbD 0 then (c >>> 1) ^^^ 0xEDB88320 else c >>> 1

/-- CRC-32 state after one byte. -/
def crcByte (c : BitVec 32) (b : Byte) : BitVec 32 :=
  crcBit (crcBit (crcBit (crcBit (crcBit (crcBit (crcBit (crcBit (c ^^^ b.setWidth 32))))))))

/-- `f n`; the match hands `n` on as a numeral, so that a long fold is evaluated step by step (`forced_eq`). -/
def forced {α : Type} (n : Nat) (f : Nat → α) : α :=
  match n with
  | 0 => f 0
  | k + 1 => f (k + 1)

/-- The CRC-32 state after the bytes, from state `c` (`crcFrom_eq`: the fold of `crcByte`). -/
def crcFrom (c : BitVec 32) (bs : List Byte) : BitVec 32 :=
  match bs with
  | [] => c
  | b :: r => forced (crcByte c b).toNat (fun n => crcFrom (BitVec.ofNat 32 n) r)

/-- CRC-32 of IEEE 802.3 (R402, R494, R567). -/
def crc32 (bs : List Byte) : BitVec 32 := ~~~ (crcFrom 0xFFFFFFFF bs)

/-- Distance from 16-bit number `a` to `b` (R462). -/
def dist16 (a b : BitVec 16) : Nat := (b - a).toNat

/-- Insert into an ascending list without repeats. -/
def insAsc (l : List Nat) (x : Nat) : List Nat :=
  match l with
  | [] => [x]
  | y :: r => if x < y then x :: y :: r else if x = y then y :: r else y :: insAsc r x

/-! ### Indexed state -/

def State.part (s : State) (p : Nat) : Part := kget Part.reset s.parts p
def State.setPart (s : State) (p : Nat) (v : Part) : State := { s with parts := kset Part.reset s.parts p v }
def State.modPart (s : State) (p : Nat) (f : Part → Part) : State := s.setPart p (f (s.part p))

def State.core (s : State) (c : Nat) : Core := kget Core.reset s.cores c
def State.setCore (s : State) (c : Nat) (v : Core) : State := { s with cores := kset Core.reset s.cores c v }
def State.modCore (s : State) (c : Nat) (f : Core → Core) : State := s.setCore c (f (s.core c))

def State.unit (s : State) (k : Nat) : SetUnits := kget SetUnits.reset s.sets k
def State.setUnit (s : State) (k : Nat) (v : SetUnits) : State := { s with sets := kset SetUnits.reset s.sets k v }
def State.modUnit (s : State) (k : Nat) (f : SetUnits → SetUnits) : State := s.setUnit k (f (s.unit k))

def State.clm (s : State) (k : Nat) : Clm := kget Clm.clear s.clms k
def State.setClm (s : State) (k : Nat) (v : Clm) : State := { s with clms := kset Clm.clear s.clms k v }
def State.modClm (s : State) (k : Nat) (f : Clm → Clm) : State := s.setClm k (f (s.clm k))

def State.stream (s : State) (k : Nat) : Stream := kget Stream.unbound s.streams k
def State.setStream (s : State) (k : Nat) (v : Stream) : State := { s with streams := kset Stream.unbound s.streams k v }
def State.modStream (s : State) (k : Nat) (f : Stream → Stream) : State := s.setStream k (f (s.stream k))

def State.seq (s : State) (k : Nat) : Seq := kget Seq.free s.seqs k
def State.setSeq (s : State) (k : Nat) (v : Seq) : State := { s with seqs := kset Seq.free s.seqs k v }
def State.modSeq (s : State) (k : Nat) (f : Seq → Seq) : State := s.setSeq k (f (s.seq k))

def State.region (s : State) (k : Nat) : MemRegion := kget MemRegion.reset s.regions k
def State.setRegion (s : State) (k : Nat) (v : MemRegion) : State := { s with regions := kset MemRegion.reset s.regions k v }

def State.channel (s : State) (k : Nat) : Channel := kget Channel.reset s.channels k
def State.setChannel (s : State) (k : Nat) (v : Channel) : State := { s with channels := kset Channel.reset s.channels k v }
def State.modChannel (s : State) (k : Nat) (f : Channel → Channel) : State := s.setChannel k (f (s.channel k))

def State.stackAt (s : State) (k : Nat) : Stack := kget Stack.reset s.stackSt k
def State.setStack (s : State) (k : Nat) (v : Stack) : State := { s with stackSt := kset Stack.reset s.stackSt k v }
def State.modStack (s : State) (k : Nat) (f : Stack → Stack) : State := s.setStack k (f (s.stackAt k))

def State.farPort (s : State) (k : Nat) : FarPort := kget FarPort.reset s.far k
def State.setFar (s : State) (k : Nat) (v : FarPort) : State := { s with far := kset FarPort.reset s.far k v }
def State.modFar (s : State) (k : Nat) (f : FarPort → FarPort) : State := s.setFar k (f (s.farPort k))

def State.port (s : State) (k : Nat) : Port := kget Port.reset s.ports k
def State.setPort (s : State) (k : Nat) (v : Port) : State := { s with ports := kset Port.reset s.ports k v }
def State.modPort (s : State) (k : Nat) (f : Port → Port) : State := s.setPort k (f (s.port k))

def State.landBuf (s : State) (k : Nat) : LandBuf := kget LandBuf.reset s.lbs k
def State.setLb (s : State) (k : Nat) (v : LandBuf) : State := { s with lbs := kset LandBuf.reset s.lbs k v }

def State.ring (s : State) (k : Nat) : Ring := kget Ring.reset s.rings k
def State.setRing (s : State) (k : Nat) (v : Ring) : State := { s with rings := kset Ring.reset s.rings k v }
def State.modRing (s : State) (k : Nat) (f : Ring → Ring) : State := s.setRing k (f (s.ring k))

def State.utlb (s : State) (core engine : Nat) : List TlbEntry := kget [] s.utlbs (8 * core + engine)
def State.setUtlb (s : State) (core engine : Nat) (v : List TlbEntry) : State :=
  { s with utlbs := kset [] s.utlbs (8 * core + engine) v }

/-! ### Sizes and ownership -/

/-- Cores of the block (R3). -/
def Design.cores (d : Design) : Nat := 4 * d.sets

/-- HBM channels of the block (R339). -/
def Design.channels (d : Design) : Nat := 32 * d.hbmStacks

/-- Rows of a core's Scratchpad (R304). -/
def Design.spmRows (d : Design) : Nat := 8192 * (d.spmSize + 1)

/-- Set `k` belongs to a partition (R511). -/
def State.setEnabled (s : State) (k : Nat) : Bool := decide (k < s.cfg.sets) && bit s.prot.setEn.toNat k

/-- The partition of Set `k`, if it has one (R507). -/
def State.setOwner (s : State) (k : Nat) : Option Nat :=
  if s.setEnabled k then some (fld s.prot.setPart.toNat (2 * k) 2) else none

/-- The partition of a core (R507). -/
def State.coreOwner (s : State) (c : Nat) : Option Nat := s.setOwner (c / 4)

/-- The Sets of partition `p`, ascending. -/
def State.partSets (s : State) (p : Nat) : List Nat := (List.range 16).filter (fun k => decide (s.setOwner k = some p))

/-- Partition `p` exists (R507). -/
def State.partExists (s : State) (p : Nat) : Bool := !(s.partSets p).isEmpty

/-- The partitions that exist, ascending. -/
def State.liveParts (s : State) : List Nat := (List.range 4).filter s.partExists

/-- The cores of partition `p`, ascending; core i of the list is its core i (R56). -/
def State.partCores (s : State) (p : Nat) : List Nat :=
  (s.partSets p).flatMap (fun k => [4 * k, 4 * k + 1, 4 * k + 2, 4 * k + 3])

/-- The partition of link port `n` (R512). -/
def State.portOwner (s : State) (n : Nat) : Option Nat :=
  if decide (n < s.cfg.linkPorts) && bit s.prot.portEn.toNat n then some (fld s.prot.portPart.toNat (2 * n) 2) else none

/-- The ports of partition `p`, ascending. -/
def State.partPorts (s : State) (p : Nat) : List Nat := (List.range 48).filter (fun n => decide (s.portOwner n = some p))

/-- The owner of ring `r` (R513). -/
def State.ringOwner (s : State) (r : Nat) : Option Nat :=
  let w := s.prot.ringCfg.toNat
  if decide (r < 16) && bit w (4 * r + 2) then some (fld w (4 * r) 2) else none

/-- Ring `r` is administrative (R513). -/
def State.ringAdmin (s : State) (r : Nat) : Bool := decide (r < 16) && bit s.prot.ringCfg.toNat (4 * r + 3)

/-- The event ring of partition `p` (R469). -/
def State.eventRing (s : State) (p : Nat) : Option Nat :=
  let own := (List.range 16).filter (fun r => decide (s.ringOwner r = some p))
  let e := (s.part p).eventRing
  if e ∈ own then some e else
  match own.find? (fun r => !s.ringAdmin r) with
  | some r => some r
  | none => own.head?

/-- A_p of a pool of `n` (R380, R424), and where partition `p`'s share begins. -/
def State.share (s : State) (n p : Nat) : Nat := n * (s.partSets p).length / s.cfg.sets
def State.shareBase (s : State) (n p : Nat) : Nat := ((List.range p).map (s.share n)).sum

/-- The mirror buffer of partition `p` (R580). -/
def State.mirrorLb (s : State) (p : Nat) : Nat := s.shareBase 4096 p + s.share 4096 p - 1

/-- A landing buffer of partition `p` (R424). -/
def State.ownsLb (s : State) (p lb : Nat) : Bool :=
  decide (s.shareBase 4096 p ≤ lb) && decide (lb < s.shareBase 4096 p + s.share 4096 p)

/-- Fremund runs and takes commands (R479, R480). -/
def State.fwRunning (s : State) : Bool := decide (s.fw.state = .running)

/-- P3 Sleep: CC0 to CC2 are stopped, and of the background work only telemetry runs (R533, R534, R536). -/
def State.asleep (s : State) : Bool := decide (s.pmu.state = 3)

/-! ### Health -/

/-- Cores that are fenced (R562). -/
def State.fencedCores (s : State) : List Nat := (List.range s.cfg.cores).filter (fun c => (s.core c).fenced)

/-- Sets that are fenced (R563). -/
def State.fencedSets (s : State) : List Nat :=
  (List.range s.cfg.sets).filter (fun k =>
    (s.unit k).fenced || [0, 1, 2, 3].all (fun i => (s.core (4 * k + i)).fenced))

def State.failedChannels (s : State) : List Nat :=
  (List.range s.cfg.channels).filter (fun c => decide ((s.channel c).state = .failed))

def State.failedPorts (s : State) : List Nat :=
  (List.range s.cfg.linkPorts).filter (fun n => decide ((s.port n).state = .failed))

/-- Snapshot slots that can be used (R577). -/
def Snap.usable (n : Snap) : Nat := ((List.range n.slots).filter (fun i => !(n.bad.contains i))).length

/-- The health word (R560). -/
def State.healthWord (s : State) : Nat :=
  let fc := s.fencedCores.length
  let fs := s.fencedSets.length
  let ch := s.failedChannels.length
  let pt := s.failedPorts.length
  let chF := (List.range s.cfg.channels).any (fun c => decide ((s.channel c).state = .fenced))
  let ptF := (List.range s.cfg.linkPorts).any (fun n => decide ((s.port n).state = .fenced))
  let deg := decide (0 < fc + fs + ch + pt) || chF || ptF
  let ps := s.liveParts.map (fun p => (s.part p).snap)
  b2n (decide (s.health.replaceCause ≠ 0)) * 2 ^ 63 + b2n s.health.resetRequested * 2 ^ 62 + b2n deg * 2 ^ 61
    + b2n (ps.any (·.atRisk)) * 2 ^ 60 + b2n (ps.any (·.mirrorDown)) * 2 ^ 59
    + b2n (ps.any (fun n => n.set && decide (n.usable < 2))) * 2 ^ 58
    + b2n s.pmu.rstSupply * 2 ^ 57 + b2n s.health.thermalTrip * 2 ^ 56
    + s.health.replaceCause.toNat * 2 ^ 48 + fc * 2 ^ 24 + ch * 2 ^ 14 + pt * 2 ^ 8 + fs * 2 ^ 3

/-! ### Events -/

/-- The open job's tag, 0 if none (R461). -/
def State.jobTag (s : State) (p : Nat) : BitVec 16 := (s.part p).job.getD 0

/-- No Figure concerned (R505). -/
def noFig : Nat := 0xFFFFFF

/-- An event's payload: FIG_ID, UNIT and bytes 4 to 15 (R505). -/
def payloadOf (fig unit rest : Nat) : Nat := fig % 2 ^ 24 + unit % 256 * 2 ^ 24 + rest % 2 ^ 96 * 2 ^ 32

/-- Write an event into ring `r`'s next event slot (R458, R461, R470). -/
def putEvent (r code payload : Nat) (tag : BitVec 16) (s : State) : State :=
  let g := s.ring r
  let w := g.etail.toNat + code * 2 ^ 16 + tag.toNat * 2 ^ 48 + s.beat.cnt.toNat * 2 ^ 64 + payload % 2 ^ 128 * 2 ^ 128
  let a := 0x10000 * r + 0x6000 + 32 * (g.etail.toNat % 256)
  { s with ringMem := bwrite s.ringMem a (leBytes 32 w) }.setRing r { g with etail := g.etail + 1, evtPend := true }

/-- The next event slot of ring `r` has been consumed (R469). -/
def State.eventRoom (s : State) (r : Nat) : Bool :=
  let g := s.ring r
  decide (g.state = .ready) && decide (dist16 g.evcons g.etail ≤ 255)

/-- FAULT events of partition `p` wait (R469). -/
def State.faultsWait (s : State) (p : Nat) : Bool := s.fw.backlog.any (fun b => decide (b.part = p))

/-- Post an event of partition `p` (R469, R471, R506): into its event ring; a FAULT waits while the ring is full or resetting,
any other event is then dropped and counted. Nothing is posted while Fremund does not run; an event of bring-up waits until the rings
are READY (R677). -/
def postEvent (p code payload : Nat) (s : State) : State :=
  match s.eventRing p with
  | none => s
  | some r =>
    let g := s.ring r
    if !s.fwRunning || decide (g.state = .halted) then s
    else if g.state = .down then { s with fw := { s.fw with early := s.fw.early ++ [(p, code, BitVec.ofNat 128 payload)] } }
    else if code = 1 then
      if s.eventRoom r && !s.faultsWait p then putEvent r code payload (s.jobTag p) s
      else { s with fw := { s.fw with backlog := s.fw.backlog ++ [⟨p, s.jobTag p, BitVec.ofNat 128 payload⟩] } }
    else if s.eventRoom r then putEvent r code payload (s.jobTag p) s
    else s.setRing r { g with dropped := min 0xFFFF (g.dropped + 1), evtOverflow := true }

/-- Post an event to each partition of a list. -/
def postEach (ps : List Nat) (code payload : Nat) (s : State) : State := ps.foldl (fun t p => postEvent p code payload t) s

/-- Post an event to every partition (R469). -/
def postAll (code payload : Nat) (s : State) : State := postEach s.liveParts code payload s

/-- Post waiting FAULT events of a partition while its ring has room (R469); `n` bounds the number. -/
def drainBacklog (p n : Nat) (s : State) : State :=
  match n with
  | 0 => s
  | k + 1 =>
    match s.eventRing p, s.fw.backlog.find? (fun b => decide (b.part = p)) with
    | some r, some b =>
      if s.eventRoom r then
        drainBacklog p k { putEvent r 1 b.payload.toNat b.tag s with fw := { s.fw with backlog := s.fw.backlog.erase b } }
      else s
    | _, _ => s

/-- Post HEALTH_CHANGE if the health word has changed (R561). -/
def withHealth (f : State → State) (s : State) : State :=
  let t := f s
  if t.healthWord = s.healthWord then t else postAll 0xB0 (payloadOf noFig 0 (t.healthWord * 2 ^ 32)) t

/-- Set REPLACE_CAUSE bit 48 + `i` (R561). -/
def replaceCause (i : Nat) (s : State) : State :=
  { s with health := { s.health with replaceCause := BitVec.ofNat 5 (setBit s.health.replaceCause.toNat i true) } }

/-! ### Counters -/

/-- A counter of `w` bits after `k` increments, and whether it has saturated (R589). -/
def satAdd (w v k : Nat) : Nat × Bool := if v + k < 2 ^ w then (v + k, false) else (2 ^ w - 1, true)

/-- COUNTER_SAT of a partition's counter (R591), noted for its telemetry record (R604). -/
def satPart (p off : Nat) (s : State) : State :=
  postEvent p 0x80 (payloadOf noFig 0 off) (s.modPart p (fun q => { q with notes := { q.notes with satEvent := true } }))

/-- COUNTER_SAT of a counter that belongs to no partition (R591). -/
def satAll (off : Nat) (s : State) : State := s.liveParts.foldl (fun t p => satPart p off t) s

/-- COUNTER_SAT of a counter of core, Set or port owned by `p`. -/
def satOwned (p : Option Nat) (off : Nat) (s : State) : State :=
  match p with
  | some p => satPart p off s
  | none => s

/-- Units of the accounting counters (R529). -/
def acctUnit : List Nat := [1, 2 ^ 20, 4096, 4096, 4096, 2 ^ 20, 1]

/-- Add `k` to accounting counter `n` of partition `p`, with its exact remainder (R529, R530). -/
def acctAdd (p n k : Nat) (s : State) : State :=
  let a := (s.part p).acct
  let u := acctUnit.getD n 1
  let tot := nth a.rem n + k
  let v := nth a.live n + tot / u
  let top := 2 ^ 64 - 1
  let v' := min v top
  let sat := setBit a.sat.toNat n (bit a.sat.toNat n || decide (top ≤ v))
  let s1 := s.modPart p (fun q =>
    { q with acct := { a with live := a.live.set n v', rem := a.rem.set n (tot % u), sat := BitVec.ofNat 7 sat } })
  if decide (top ≤ v) && !bit a.sat.toNat n then satPart p (0x100000 + 0x100 * p + 8 * n) s1 else s1

/-- Partition event counters (R598): 0 HOLDS, 1 HOLD_BEATS, 2 LATE_RAISED, 3 RERUNS, 4 ABORTS. -/
def partCount (p n k : Nat) (s : State) : State :=
  let c := (s.part p).cnt
  let v := nth [c.holds, c.holdBeats, c.lateRaised, c.reruns, c.aborts] n
  let (v', o) := satAdd (if n < 3 then 32 else 16) v k
  let sat := setBit c.sat.toNat n (bit c.sat.toNat n || o)
  let c' : PartCounters :=
    { holds := if n = 0 then v' else c.holds, holdBeats := if n = 1 then v' else c.holdBeats,
      lateRaised := if n = 2 then v' else c.lateRaised, reruns := if n = 3 then v' else c.reruns,
      aborts := if n = 4 then v' else c.aborts, sat := BitVec.ofNat 5 sat }
  let s1 := s.modPart p (fun q => { q with cnt := c' })
  if o && !bit c.sat.toNat n then satPart p (0x100400 + 0x20 * p + 4 * n) s1 else s1

/-- Block error counters (R599): 0 CC_ECC_CORR, 1 CACHE_PAR, 2 BEAT_GLITCH, 3 BEAT_MISSED, 4 TEMPO_SPLITS. -/
def blkCount (n : Nat) (s : State) : State :=
  let c := s.blk
  let (v', o) := satAdd 16 (nth [c.ccCorr, c.cachePar, c.glitch, c.missed, c.splits] n) 1
  let sat := setBit c.sat.toNat n (bit c.sat.toNat n || o)
  let s1 := { s with blk :=
    { ccCorr := if n = 0 then v' else c.ccCorr, cachePar := if n = 1 then v' else c.cachePar,
      glitch := if n = 2 then v' else c.glitch, missed := if n = 3 then v' else c.missed,
      splits := if n = 4 then v' else c.splits, sat := BitVec.ofNat 5 sat } }
  if o && !bit c.sat.toNat n then satAll (0x200000 + 4 * n) s1 else s1

/-- Channel counters (R377): 0 MC_CORR, 1 MC_UE, 2 MC_RMW, 3 MC_QWAIT, 4 MC_SCRUB. -/
def mcCount (ch n k : Nat) (s : State) : State :=
  let c := (s.channel ch).cnt
  let (v', o) := satAdd (if n = 2 ∨ n = 3 then 32 else 16) (nth [c.corr, c.ue, c.rmw, c.qwait, c.scrub] n) k
  let old := nth [b2n c.corrSat, b2n c.ueSat, b2n c.rmwSat, b2n c.qwaitSat, b2n c.scrubSat] n
  let s1 := s.modChannel ch (fun h => { h with cnt :=
    { corr := if n = 0 then v' else c.corr, ue := if n = 1 then v' else c.ue, rmw := if n = 2 then v' else c.rmw,
      qwait := if n = 3 then v' else c.qwait, scrub := if n = 4 then v' else c.scrub,
      scrubSat := c.scrubSat || (o && n == 4), qwaitSat := c.qwaitSat || (o && n == 3),
      rmwSat := c.rmwSat || (o && n == 2), ueSat := c.ueSat || (o && n == 1), corrSat := c.corrSat || (o && n == 0) } })
  if o && old == 0 then satAll (0x500000 + 0x20 * ch + 4 * n) s1 else s1

/-- Translation counters of a Set (R409): 0 UTLB_MISS, 1 STB_HIT, 2 STB_MISS, 3 INV_RANGES. -/
def trCount (k n : Nat) (s : State) : State :=
  let u := s.unit k
  let (v', o) := satAdd (if n < 3 then 32 else 16) (nth [u.utlbMiss, u.stbHit, u.stbMiss, u.invRanges] n) 1
  let old := nth [b2n u.umissSat, b2n u.shitSat, b2n u.smissSat, b2n u.invSat] n
  let s1 := s.setUnit k { u with
    utlbMiss := if n = 0 then v' else u.utlbMiss, stbHit := if n = 1 then v' else u.stbHit,
    stbMiss := if n = 2 then v' else u.stbMiss, invRanges := if n = 3 then v' else u.invRanges,
    umissSat := u.umissSat || (o && n == 0), shitSat := u.shitSat || (o && n == 1),
    smissSat := u.smissSat || (o && n == 2), invSat := u.invSat || (o && n == 3) }
  if o && old == 0 then satOwned (s.setOwner k) (0x600000 + 0x40 * k + 4 * n) s1 else s1

/-- Fault Queue counters (R409): 0 FQ_POSTED, 1 FQ_PARKS, 2 FQ_VIOL. -/
def fqCount (n : Nat) (s : State) : State :=
  let f := s.faults
  let (v', o) := satAdd (if n < 2 then 32 else 16) (nth [f.posted, f.parks, f.viol] n) 1
  let old := nth [b2n f.postedSat, b2n f.parksSat, b2n f.violSat] n
  let s1 := { s with faults := { f with
    posted := if n = 0 then v' else f.posted, parks := if n = 1 then v' else f.parks, viol := if n = 2 then v' else f.viol,
    postedSat := f.postedSat || (o && n == 0), parksSat := f.parksSat || (o && n == 1), violSat := f.violSat || (o && n == 2) } }
  if o && old == 0 then satAll (0x600400 + 4 * n) s1 else s1

/-- Link port counters (R452): 0 LK_TX, 1 LK_RX, 2 LK_FEC_CORR, 3 LK_FEC_UNC, 4 LK_RETRY, 5 LK_CRWAIT; widths are `w`. -/
def lkCount (n i w k : Nat) (s : State) : State :=
  let c := (s.port n).cnt
  let (v', o) := satAdd w (nth [c.tx, c.rx, c.fecCorr, c.fecUnc, c.retry, c.crwait] i) k
  let sat := setBit c.sat.toNat i (bit c.sat.toNat i || o)
  let s1 := s.modPort n (fun q => { q with cnt := { c with
    tx := if i = 0 then v' else c.tx, rx := if i = 1 then v' else c.rx, fecCorr := if i = 2 then v' else c.fecCorr,
    fecUnc := if i = 3 then v' else c.fecUnc, retry := if i = 4 then v' else c.retry,
    crwait := if i = 5 then v' else c.crwait, sat := BitVec.ofNat 6 sat } })
  if o && !bit c.sat.toNat i then satOwned (s.portOwner n) (0x700000 + 0x20 * n + 4 * i) s1 else s1

/-- Collective Engine counters (R452): 0 CE_UNBOUND, 1 CE_DCRC, 2 CE_RS_MISMATCH. -/
def ceCount (n : Nat) (s : State) : State :=
  let c := s.ce
  let (v', o) := satAdd 16 (nth [c.unbound, c.dcrc, c.rsMis] n) 1
  let old := nth [b2n c.unbSat, b2n c.dcrcSat, b2n c.rsmSat] n
  let s1 := { s with ce :=
    { unbound := if n = 0 then v' else c.unbound, dcrc := if n = 1 then v' else c.dcrc, rsMis := if n = 2 then v' else c.rsMis,
      unbSat := c.unbSat || (o && n == 0), dcrcSat := c.dcrcSat || (o && n == 1), rsmSat := c.rsmSat || (o && n == 2) } }
  if o && old == 0 then satAll (0x700800 + 4 * n) s1 else s1

/-- Take a free value's number: the state with its counter advanced. -/
def State.draw (s : State) : State := { s with free := s.free + 1 }

/-! ### Mailbox commands -/

/-- `n` bits at bit `lo` of the word at byte `off` of a command (R459). -/
def arg (img : BitVec 512) (off lo n : Nat) : Nat := fld img.toNat (8 * off + lo) n

def cmdOpcode (img : BitVec 512) : Nat := arg img 0 16 16
def cmdVer (img : BitVec 512) : Nat := arg img 0 32 8
def cmdFence (img : BitVec 512) : Bool := arg img 0 40 1 = 1
def cmdTag (img : BitVec 512) : BitVec 16 := BitVec.ofNat 16 (arg img 0 48 16)
def resultVa (img : BitVec 512) : Nat := arg img 8 0 52
def resultLen (img : BitVec 512) : Nat := arg img 16 0 32

/-- The header's reserved bits are 0 (R459). -/
def headerOk (img : BitVec 512) : Bool := arg img 0 41 7 == 0 && arg img 8 52 12 == 0 && arg img 16 32 32 == 0

/-- Only the bits of the listed fields (offset, low bit, width) are set among bytes 0x18 to 0x3F (R487). -/
def fieldsOk (img : BitVec 512) (fs : List (Nat × Nat × Nat)) : Bool :=
  let m := (fs.map (fun f => 2 ^ (8 * f.1 + f.2.1) * (2 ^ f.2.2 - 1))).sum
  let w := img.toNat / 2 ^ 192 * 2 ^ 192
  w &&& m == w

/-- The open command `seq` of a ring. -/
def Ring.find (g : Ring) (seq : BitVec 16) : Option OpenCmd := g.opened.find? (fun o => decide (o.seq = seq))

/-- Post a completion (R460, R467, R470): the 32 bytes into the next completion slot; discarded while the ring resets (R471).
The command leaves the ring's open list. CIF_VERSION's completion admits the ring's other commands (R482). -/
def complete (r : Nat) (seq : BitVec 16) (status data bytes : Nat) (s : State) : State :=
  let g := s.ring r
  match g.find seq with
  | none => s
  | some o =>
    let g1 := { g with opened := g.opened.filter (fun x => !decide (x.seq = seq)) }
    if g.state = .ready then
      let w := (cmdOpcode o.image * 2 ^ 16 + arg o.image 0 0 16) + status * 2 ^ 32 + g.ctail.toNat * 2 ^ 48
        + cmdVer o.image * 2 ^ 64 + bytes % 2 ^ 32 * 2 ^ 96 + data % 2 ^ 128 * 2 ^ 128
      let a := 0x10000 * r + 0x4000 + 32 * (g.ctail.toNat % 256)
      { s with ringMem := bwrite s.ringMem a (leBytes 32 w) }.setRing r
        { g1 with ctail := g.ctail + 1, cplPend := true,
                  versionRead := g.versionRead || (cmdOpcode o.image == 1 && (status == 0 || status == 8)) }
    else s.setRing r g1

/-- The opcodes of CIF 3.0, ascending (R492). -/
def opcodes : List Nat :=
  [0x0001, 0x0002, 0x0100, 0x0101, 0x0110, 0x0111, 0x0112, 0x0114, 0x0115] ++
  [0x0200, 0x0201, 0x0202, 0x0203, 0x0204, 0x0205, 0x0206, 0x0207, 0x0208] ++
  [0x0300, 0x0301, 0x0302, 0x0303, 0x0304, 0x0305, 0x0306, 0x0307] ++
  [0x0400, 0x0401, 0x0402, 0x0403, 0x0404, 0x0405, 0x0406] ++
  [0x0500, 0x0501, 0x0502, 0x0503, 0x0600, 0x0610, 0x0611, 0x0620, 0x0700, 0x0701] ++
  [0x0800, 0x0801, 0x0802, 0x0803]

/-- Status codes (R491). -/
def stOk : Nat := 0x00
def stField : Nat := 0x01
def stSchedule : Nat := 0x02
def stSeqNum : Nat := 0x03
def stUnknown : Nat := 0x04
def stVersion : Nat := 0x05
def stNotRead : Nat := 0x06
def stDenied : Nat := 0x07
def stShort : Nat := 0x08
def stJobEnded : Nat := 0x09
def stNoJob : Nat := 0x0A
def stJobBusy : Nat := 0x0B
def stChorBusy : Nat := 0x10
def stNotLoaded : Nat := 0x11
def stNotRunning : Nat := 0x12
def stTempo : Nat := 0x13
def stTooSoon : Nat := 0x14
def stSeqBusy : Nat := 0x20
def stSeqLimit : Nat := 0x21
def stSeqStale : Nat := 0x22
def stSeqEvicted : Nat := 0x23
def stCacheFull : Nat := 0x24
def stNoFar : Nat := 0x25
def stFarFull : Nat := 0x26
def stFarError : Nat := 0x27
def stPageMapped : Nat := 0x30
def stRegion : Nat := 0x31
def stTableFull : Nat := 0x32
def stPinned : Nat := 0x33
def stNotMapped : Nat := 0x34
def stMigrate : Nat := 0x35
def stNotSuspended : Nat := 0x36
def stFabricBusy : Nat := 0x40
def stFabricSlow : Nat := 0x41
def stLbBusy : Nat := 0x42
def stPort : Nat := 0x43
def stSnapBusy : Nat := 0x50
def stSnapInvalid : Nat := 0x51
def stSameFeed : Nat := 0x52
def stUnreachable : Nat := 0x53
def stPowerBusy : Nat := 0x60
def stFwBusy : Nat := 0x80
def stFwInvalid : Nat := 0x81

/-- The job check of R489 for a command marked J: `none` when it passes. -/
def jobCheck (q : Part) (tag : BitVec 16) : Option Nat :=
  if q.job = some tag ∧ tag ≠ 0 ∧ ¬ (tag ∈ q.endedTags) then none
  else if tag ∈ q.endedTags then some stJobEnded
  else some stNoJob

/-- The open command that may start next with number `seq` (R466): every earlier one has started, and has completed when FENCE is
set. -/
def startable (g : Ring) (seq : BitVec 16) : Option OpenCmd :=
  match g.opened.find? (fun o => !o.started) with
  | some o =>
    if o.seq = seq ∧ (cmdFence o.image → g.opened.head? = some o) then some o else none
  | none => none

/-- The control core that executes an opcode (R456). -/
def componentOf (op : Nat) : Nat := if op < 0x100 then 3 else if op < 0x200 then 0 else if op < 0x400 then 1 else if op < 0x600 then 2 else 3

/-- Ring `r` runs commands: Fremund runs and the ring is READY, or RESETTING with commands still to run (R471). -/
def State.ringRuns (s : State) (r : Nat) : Bool :=
  s.fwRunning && (decide ((s.ring r).state = .ready) || decide ((s.ring r).state = .resetting))

/-- The open command of ring `r` that may start next with number `seq`: no command of another ring that may start too was handed to its
control core before it (R456, R466). -/
def State.mayBegin (s : State) (r : Nat) (seq : BitVec 16) : Option OpenCmd :=
  (startable (s.ring r) seq).filter (fun o => (List.range 16).all (fun k =>
    match (s.ring k).opened.find? (fun x => !x.started) with
    | some x => !(componentOf (cmdOpcode x.image) == componentOf (cmdOpcode o.image) && decide (x.turn < o.turn) && s.ringRuns k
        && (startable (s.ring k) x.seq).isSome)
    | none => true))

/-- Note that a command has started. -/
def markStarted (r : Nat) (seq : BitVec 16) (s : State) : State :=
  s.modRing r (fun g => { g with opened := g.opened.map (fun o => if o.seq = seq then { o with started := true } else o) })

/-- A command of ring `r` waits for something to finish (R490). -/
def addWait (p r : Nat) (seq : BitVec 16) (w : Wait) (s : State) : State :=
  s.modPart p (fun q => { q with waiting := q.waiting ++ [⟨r, seq, w⟩] })

/-- Take the waits of a partition that satisfy a test, leaving the others. -/
def takeWaits (p : Nat) (f : Wait → Bool) (s : State) : List Waiting × State :=
  ((s.part p).waiting.filter (fun w => f w.what),
   s.modPart p (fun q => { q with waiting := q.waiting.filter (fun w => !f w.what) }))

/-! ### Figures -/

/-- The schedule beat of partition `p` since its base beat (R52, R53); none before it. -/
def State.sched (s : State) (p : Nat) : Option Nat :=
  let t := (s.part p).tempo
  if t.running && decide (t.base.toNat ≤ s.beat.cnt.toNat) then some t.sched.toNat else none

/-- The loaded Figure with place `i` in the list. -/
def Part.figure (q : Part) (i : Nat) : Option Figure :=
  match q.chor with
  | some c => c.figures[i]?
  | none => none

/-- FIG_ID of place `i`; 0xFFFFFF if there is none. -/
def Part.figId (q : Part) (i : Nat) : Nat :=
  match q.figure i with
  | some f => f.hdr.figId
  | none => noFig

/-- The place of a FIG_ID in the list. -/
def Chor.place (c : Chor) (id : Nat) : Option Nat := c.figures.findIdx? (fun f => decide (f.hdr.figId = id))

/-- The running attempt of the Figure with FIG_ID `id`. -/
def Part.active (q : Part) (id : Nat) : Option RunFig :=
  match q.run with
  | some r => r.active.find? (fun a => decide (q.figId a.fig = id))
  | none => none

/-- Update the running attempt of FIG_ID `id`. -/
def modActive (p id : Nat) (f : RunFig → RunFig) (s : State) : State :=
  s.modPart p (fun q =>
    match q.run with
    | some r => { q with run := some { r with active := r.active.map (fun a => if q.figId a.fig = id then f a else a) } }
    | none => q)

/-- Ask for a Figure's abort at its next tile boundary (R324), keeping the first cause asked for. -/
def askAbort (p id : Nat) (c : AbortCause) (s : State) : State :=
  modActive p id (fun a => if a.aborting.isNone then { a with aborting := some c } else a) s

/-- Cores of a Figure's mask (R56), ascending. -/
def State.figCores (s : State) (p : Nat) (h : FigRec) : List Nat :=
  let cs := s.partCores p
  ((List.range cs.length).filter (fun i => decide (h.coreMask = 0) || h.coreMask.getLsbD i)).map (fun i => cs.getD i 0)

/-- The unfenced cores of a Figure's mask. -/
def State.figHealthy (s : State) (p : Nat) (h : FigRec) : List Nat :=
  (s.figCores p h).filter (fun c => !(s.core c).fenced)

/-- Stop the running Choreography of `p` at its next Figure boundary by Fremund itself, for the event code `cause` (R497). -/
def stopChor (p cause : Nat) (s : State) : State :=
  s.modPart p (fun q =>
    match q.run with
    | some r => if r.stopNow then q else { q with run := some { r with stopNow := true, stopCause := cause } }
    | none => q)

end Sys2Proof.Machine
end

