-- ==== Sys2Proof/Machine/Numbers.lean ====
section
/-! DEFINITION. The number formats (R90 to R100), the one rounding of a conversion (R101 to R108), block scaling (R93 to R96) and the
Spin generator (R109 to R112). Every value is exact: a sign, a natural number and a power of two. -/

namespace Sys2Proof.Machine

/-! ### Values -/

/-- A value: finite (−1)^neg × m × 2^e, with a sign of zero; infinite; or NaN. -/
inductive Num where
  | fin (neg : Bool) (m : Nat) (e : Int)
  | inf (neg : Bool)
  | nan
  deriving DecidableEq, Repr

def Num.zero : Num := .fin false 0 0

/-- An integer multiple of 2^e as a value; 0 is +0. -/
def Num.ofInt (x e : Int) : Num := .fin (decide (x < 0)) x.natAbs e

def Num.isNan (v : Num) : Bool := decide (v = .nan)
def Num.isFin (v : Num) : Bool := match v with | .fin _ _ _ => true | _ => false
def Num.isZero (v : Num) : Bool := match v with | .fin _ m _ => m == 0 | _ => false
def Num.neg (v : Num) : Num := match v with | .fin s m e => .fin (!s) m e | .inf s => .inf (!s) | .nan => .nan
def Num.sign (v : Num) : Bool := match v with | .fin s _ _ => s | .inf s => s | .nan => false

/-- `m` × 2^`k` rounded toward 0 to an integer. -/
def shiftNat (m : Nat) (k : Int) : Nat := if 0 ≤ k then m * 2 ^ k.toNat else m / 2 ^ (-k).toNat

/-- ⌊log₂(m × 2^e)⌋ of a nonzero magnitude. -/
def ilog (m : Nat) (e : Int) : Int := (Nat.log2 m : Int) + e

/-- Compare two magnitudes: `m` × 2^`e` ≤ `m'` × 2^`e'`. -/
def magLe (m : Nat) (e : Int) (m' : Nat) (e' : Int) : Bool :=
  let b := min e e'
  decide (m * 2 ^ (e - b).toNat ≤ m' * 2 ^ (e' - b).toNat)

/-- A finite value as an integer multiple of 2^`b`, exact when `b` ≤ its exponent. -/
def Num.intAt (v : Num) (b : Int) : Int :=
  match v with
  | .fin s m e => if s then -(shiftNat m (e - b) : Int) else (shiftNat m (e - b) : Int)
  | _ => 0

/-- A finite value's exponent. -/
def Num.exp (v : Num) : Int := match v with | .fin _ _ e => e | _ => 0

/-! ### Formats -/

/-- The parameters of a floating format (R90, R91): whether it has a sign and an all-ones field of specials. -/
structure FloatFmt where
  ebits  : Nat
  mbits  : Nat
  bias   : Int
  signed : Bool
  ieee   : Bool
  nan    : Nat
  deriving DecidableEq, Repr

def fE4M3 : FloatFmt := ⟨4, 3, 7, true, true, 0x7F⟩
def fE5M2 : FloatFmt := ⟨5, 2, 15, true, true, 0x7E⟩
def fFP16 : FloatFmt := ⟨5, 10, 15, true, true, 0x7E00⟩
def fBF16 : FloatFmt := ⟨8, 7, 127, true, true, 0x7FC0⟩
def fFP32 : FloatFmt := ⟨8, 23, 127, true, true, 0x7FC00000⟩
def fUP8 : FloatFmt := ⟨5, 3, 31, false, false, 0xFF⟩
def fE2M1 : FloatFmt := ⟨2, 1, 1, true, false, 0⟩

/-- What a format is: floating, integer of a width, XS128, or block-scaled with its element, the shift of R95 and the largest
element a store writes (R95, R96). -/
inductive Kind where
  | flt (f : FloatFmt)
  | int (bits : Nat) (signed : Bool)
  | xs
  | blk (elemFloat : Bool) (bits shift lim : Nat)
  deriving DecidableEq, Repr

def fmtKind (f : Fmt) : Kind :=
  match f with
  | .e4m3 => .flt fE4M3
  | .e5m2 => .flt fE5M2
  | .int8 => .int 8 true
  | .uint8 => .int 8 false
  | .int4 => .int 4 true
  | .uint4 => .int 4 false
  | .fp16 => .flt fFP16
  | .bf16 => .flt fBF16
  | .fp32 => .flt fFP32
  | .int32 => .int 32 true
  | .up8 => .flt fUP8
  | .bs8 => .blk false 8 6 127
  | .bs4 => .blk false 4 2 7
  | .bf4 => .blk true 4 2 6
  | .xs128 => .xs

/-- Bits of one element (R90). -/
def fmtBits (f : Fmt) : Nat :=
  match f with
  | .e4m3 => 8
  | .e5m2 => 8
  | .int8 => 8
  | .uint8 => 8
  | .int4 => 4
  | .uint4 => 4
  | .fp16 => 16
  | .bf16 => 16
  | .fp32 => 32
  | .int32 => 32
  | .up8 => 8
  | .bs8 => 8
  | .bs4 => 4
  | .bf4 => 4
  | .xs128 => 128

def fmtIsBlock (f : Fmt) : Bool := match fmtKind f with | .blk _ _ _ _ => true | _ => false

/-- The FMT code of a 4-bit field (R90); 0xF is reserved. -/
def fmtOf (c : Nat) : Option Fmt :=
  [Fmt.e4m3, .e5m2, .int8, .uint8, .int4, .uint4, .fp16, .bf16, .fp32, .int32, .up8, .bs8, .bs4, .bf4, .xs128][c]?

/-- The rounding mode of a 3-bit RND field (R101); 5 to 7 are reserved. -/
def rndOf (c : Nat) : Option Rnd := [Rnd.rne, .rtz, .sr, .rup, .rdn][c]?

/-- The largest finite magnitude of a floating format as (m, e) (R90). -/
def FloatFmt.largest (f : FloatFmt) : Nat × Int :=
  if f.ieee then (2 ^ (f.mbits + 1) - 1, (2 ^ f.ebits - 2 : Int) - f.bias - f.mbits)
  else if f.signed then (2 ^ (f.mbits + 1) - 1, (2 ^ f.ebits - 1 : Int) - f.bias - f.mbits)
  else (2 ^ (f.mbits + 1) - 2, (2 ^ f.ebits - 1 : Int) - f.bias - f.mbits)

/-- The value of a code (R91). -/
def FloatFmt.decode (f : FloatFmt) (c : Nat) : Num :=
  let ef := fld c f.mbits f.ebits
  let m := fld c 0 f.mbits
  let neg := f.signed && bit c (f.ebits + f.mbits)
  if !f.ieee && !f.signed && c == 0xFF then .nan
  else if f.ieee && ef == 2 ^ f.ebits - 1 then (if m = 0 then .inf neg else .nan)
  else if ef = 0 then .fin neg m (1 - f.bias - f.mbits)
  else .fin neg (2 ^ f.mbits + m) ((ef : Int) - f.bias - f.mbits)

/-- The code of a value the format represents exactly. -/
def FloatFmt.encode (f : FloatFmt) (v : Num) : Nat :=
  let sb (s : Bool) := if f.signed && s then 2 ^ (f.ebits + f.mbits) else 0
  match v with
  | .nan => f.nan
  | .inf s => sb s + (2 ^ f.ebits - 1) * 2 ^ f.mbits
  | .fin s m e =>
    if m = 0 then sb s
    else if ilog m e < 1 - f.bias then sb s + shiftNat m (e - (1 - f.bias - f.mbits))
    else sb s + (ilog m e + f.bias).toNat * 2 ^ f.mbits + (shiftNat m (e - (ilog m e - f.mbits)) - 2 ^ f.mbits)

/-- The value of an integer code. -/
def intDecode (w : Nat) (signed : Bool) (c : Nat) : Num :=
  Num.ofInt (if signed then sfld c 0 w else (fld c 0 w : Int)) 0

/-- Least and largest of an integer format. -/
def intRange (w : Nat) (signed : Bool) : Int × Int :=
  if signed then (-(2 ^ (w - 1) : Int), 2 ^ (w - 1) - 1) else (0, 2 ^ w - 1)

/-- The value of an element code; `scale` is the E8M0 byte of a block format (R93), `rs` the row scale of XS128 (R97). -/
def fmtDecode (f : Fmt) (c scale : Nat) (rs : Int) : Num :=
  match fmtKind f with
  | .flt g => g.decode c
  | .int w s => intDecode w s c
  | .xs => Num.ofInt (sfld c 0 128) (rs - 48)
  | .blk ef w _ _ =>
    if scale = 0xFF then .nan
    else
      match if ef then fE2M1.decode (fld c 0 4) else intDecode w true c with
      | .fin s m e => .fin s m (e + ((scale : Int) - 127))
      | v => v

/-! ### Rounding -/

/-- Round the magnitude `m` × 2^`e`, plus something below 2^`e` when `st`, to a multiple of 2^`q` (R101, R107, R108): the multiple
and whether it differs. `r` is the 24-bit draw of SR. -/
def roundAt (rnd : Rnd) (neg : Bool) (r m : Nat) (e : Int) (st : Bool) (q : Int) : Nat × Bool :=
  if q ≤ e then (m * 2 ^ (e - q).toNat, st)
  else
    let d := 2 ^ (q - e).toNat
    let t := m / d
    let rem := m % d
    let off := decide (rem ≠ 0) || st
    let up : Bool :=
      match rnd with
      | .rne => decide (d < 2 * rem) || (decide (2 * rem = d) && (st || decide (t % 2 = 1)))
      | .rtz => false
      | .sr => decide (2 ^ 24 ≤ rem * 2 ^ 24 / d + r)
      | .rup => off && !neg
      | .rdn => off && neg
    (if up then t + 1 else t, off)

/-- How far beyond the largest finite value counts as overflow (R104): a conversion, drain, chain or fast-mode operation, or strict
VU arithmetic. -/
inductive Over where
  | conv | strict
  deriving DecidableEq, Repr

/-- The value a finite overflow takes (R103). -/
def FloatFmt.overflow (f : FloatFmt) (rnd : Rnd) (sat neg : Bool) : Num :=
  let toInf : Bool :=
    match rnd with
    | .rne => true
    | .sr => true
    | .rup => !neg
    | .rdn => neg
    | .rtz => false
  if f.ieee && !sat && toInf then .inf neg else .fin neg f.largest.1 f.largest.2

/-- Round a finite magnitude to a floating format (R101 to R108). `st` marks a magnitude slightly above `m` × 2^`e`. -/
def FloatFmt.round (f : FloatFmt) (ov : Over) (rnd : Rnd) (sat : Bool) (r : Nat) (neg : Bool) (m : Nat) (e : Int) (st : Bool) :
    Num × Flags :=
  if m = 0 then (.fin neg 0 0, Flags.none)
  else
    let (lm, le) := f.largest
    let E := ilog m e
    let (u, _) := roundAt rnd neg r m e st (E - f.mbits)
    let past : Bool := !magLe u (E - f.mbits) lm le
    let above : Bool := !magLe m e lm le || (st && magLe lm le m e)
    let past2 : Bool :=
      match ov, rnd with
      | .conv, .rne => magLe (2 * lm + 1) (le - 1) m e
      | .conv, .rtz => above
      | .conv, .sr => above
      | _, _ => past
    if past2 then (f.overflow rnd sat neg, flOvfInx)
    else if above then (.fin neg lm le, flInx)
    else
      let q := max E (1 - f.bias) - f.mbits
      let (n, off) := roundAt rnd neg r m e st q
      let tiny : Bool := decide (E < 1 - f.bias) && !magLe 1 (1 - f.bias) u (E - f.mbits)
      (.fin neg n q, ⟨false, off && tiny, off, false⟩)

/-- Convert a value to a floating format (R101 to R106). -/
def FloatFmt.convert (f : FloatFmt) (ov : Over) (rnd : Rnd) (sat : Bool) (r : Nat) (v : Num) : Num × Flags :=
  match v with
  | .nan => (.nan, Flags.none)
  | .inf s =>
    if f.signed then (.inf s, Flags.none)
    else if !s && sat then (.fin false f.largest.1 f.largest.2, flOvf)
    else (.nan, flInv)
  | .fin s m e =>
    if f.signed then f.round ov rnd sat r s m e false
    else if s && m != 0 then (.nan, flInv)
    else f.round ov rnd sat r false m e false

/-- Convert a value to an integer multiple of 2^`q` within [lo, hi] (R102, R103): rounded once, then saturated. -/
def convertInt (lo hi q : Int) (rnd : Rnd) (r : Nat) (v : Num) : Int × Flags :=
  match v with
  | .nan => (0, flInv)
  | .inf s => (if s then lo else hi, flInv)
  | .fin s m e =>
    let (n, off) := roundAt rnd s r m e false q
    let x : Int := if s then -(n : Int) else n
    if hi < x then (hi, flOvfInx) else if x < lo then (lo, flOvfInx) else (x, inxIf off)

/-- Convert a value to an element of a format that has no block scale; `rs` is an XS128 row scale. -/
def fmtConvert (f : Fmt) (rnd : Rnd) (sat : Bool) (r : Nat) (rs : Int) (v : Num) : Nat × Flags :=
  match fmtKind f with
  | .flt g =>
    let (x, fl) := g.convert .conv rnd sat r v
    (g.encode x, fl)
  | .int w s =>
    let (x, fl) := convertInt (intRange w s).1 (intRange w s).2 0 rnd r v
    (toTwos w x, fl)
  | .xs =>
    let (x, fl) := convertInt (-(2 ^ 127 : Int)) (2 ^ 127 - 1) (rs - 48) rnd r v
    (toTwos 128 x, fl)
  | .blk _ _ _ _ => (0, Flags.none)

/-! ### Block scaling -/

/-- The larger of two magnitudes. -/
def magMax (a b : Nat × Int) : Nat × Int :=
  if a.1 = 0 then b else if b.1 = 0 then a else if magLe a.1 a.2 b.1 b.2 then b else a

/-- The largest magnitude of a list of finite values. -/
def maxMag (vs : List Num) : Nat × Int :=
  vs.foldl (fun a v => match v with | .fin _ m e => magMax a (m, e) | _ => a) (0, 0)

/-- The block exponent of R95 for largest magnitude `m` × 2^`e`. -/
def blockExp (shift lim m : Nat) (e : Int) : Int :=
  let E := ilog m e - shift
  let E' := if magLe m (e - E) lim 0 then E else E + 1
  max (-127) (min 127 E')

/-- One element of a block scaled by 2^−E (R96): its code and flags. -/
def blockElem (ef : Bool) (w lim : Nat) (rnd : Rnd) (r : Nat) (E : Int) (v : Num) : Nat × Flags :=
  match v with
  | .fin s m e =>
    if m = 0 then (if ef && s then 8 else 0, Flags.none)
    else if ef then
      let (x, fl) := fE2M1.round .conv rnd true r s m (e - E) false
      (fE2M1.encode x, { fl with unf := x.isZero, inx := fl.inx || x.isZero })
    else
      let (n, off) := roundAt rnd s r m (e - E) false 0
      if lim < n then (toTwos w (if s then -(lim : Int) else lim), flOvfInx)
      else (toTwos w (if s then -(n : Int) else n), ⟨false, decide (n = 0), off, false⟩)
  | _ => (0, Flags.none)

/-- Convert 32 values to a block (R95, R96): scale byte, codes and flags. `draws` are the elements' SR draws. -/
def fmtBlock (f : Fmt) (rnd : Rnd) (draws : List Nat) (vs : List Num) : Nat × List Nat × Flags :=
  match fmtKind f with
  | .blk ef w shift lim =>
    if vs.any (fun v => !v.isFin) then
      (0xFF, vs.map (fun _ => 0), if vs.any (fun v => match v with | .inf _ => true | _ => false) then flInv else Flags.none)
    else
      let (m, e) := maxMag vs
      if m = 0 then (0, vs.map (fun v => if ef && v.sign then 8 else 0), Flags.none)
      else
        let E := blockExp shift lim m e
        let rs := vs.zipIdx.map (fun x => blockElem ef w lim rnd (nth draws x.2) E x.1)
        ((E + 127).toNat, rs.map (·.1), Flags.all (rs.map (·.2)))
  | _ => (0, [], Flags.none)

/-! ### The Spin generator -/

/-- The rotations of R112. -/
def spinRot : List Nat := [23, 41, 11, 37, 29, 53, 7, 47, 19, 31]

/-- The Spin mixing function (R112). -/
def spin (key cHi cLo : BitVec 64) : BitVec 64 :=
  let (x0, x1, _) := spinRot.foldl
    (fun (x : BitVec 64 × BitVec 64 × BitVec 64) rot =>
      let x0 := x.1 + (x.2.1 ^^^ x.2.2)
      let x1 := x.2.1.rotateLeft rot ^^^ x0
      (x0 * 0xA24BAED4963EE407, x1, x.2.2 + 0x6A09E667F3BCC909))
    (cLo, cHi, key)
  x0 ^^^ x1

/-- The 24-bit draw of an element: stream (KEY, STEP), FIG_ID, SITE and output coordinates (R107, R111). -/
def drawOf (key : BitVec 64) (step : BitVec 32) (fig site list row col : Nat) : Nat :=
  let hi : BitVec 64 := BitVec.ofNat 64 (fig % 2 ^ 24 * 2 ^ 40 + site % 256 * 2 ^ 32 + step.toNat)
  let lo : BitVec 64 := BitVec.ofNat 64 (list % 2 ^ 16 * 2 ^ 48 + row % 2 ^ 24 * 2 ^ 24 + col % 2 ^ 24)
  fld (spin key hi lo).toNat 40 24

/-- The draw of the element at (row, col) of list entry `list` for an operation of partition `p`'s Figure `fig` (R109, R111). -/
def State.drawAt (s : State) (p fig : Nat) (c : Conv) (list row col : Nat) : Nat :=
  match c.rnd with
  | .sr =>
    let k := (s.part p).spin.getD c.spin (0, 0)
    drawOf k.1 k.2 fig c.site list row col
  | _ => 0

end Sys2Proof.Machine
end

