-- ==== Sys2Proof/Config.lean ====
section
/-! DEFINITION. The values the spec leaves open, as constants with no body: a statement about one holds for every value. -/

namespace Sys2Proof.Config

/-- Bytes whose contents the spec calls undefined: of a channel that nothing has written since its retraining (R363), of memory after a
power-on or a test, and of an NVM line whose write or erase a reset cut off; first argument the free-value counter at that moment, second
the address. Log 4. -/
opaque freeByte : Nat → Nat → BitVec 8

/-- How a line whose HBM write was under way at a supply failure reads afterwards (R546): 0 old, 1 new, 2 poisoned
(other values act as 2). Log 5. -/
opaque tornLine : Nat → Nat → Nat

/-- The tracked beat period in ps after an accepted edge, from the old one and the last interval in ns (R43 gives no
filter). Log 6. -/
opaque trackedPeriod : Nat → Nat → Nat

/-- The energy estimate of one Bar in mJ for a partition (R529 gives no coefficients), from the free-value counter. Log 7. -/
opaque energyMj : Nat → Nat

/-- The address in the KV control region that Fremund chooses for a page list (R224). Log 8. -/
opaque plAddr : Nat → BitVec 64

/-- FW_VER of a Fremund image, by its body (R481 gives no encoding of where it stands). Log 10. -/
opaque fwVersion : List (BitVec 8) → BitVec 32

/-- The page-table pages a partition's translation region holds beyond the three that one leaf needs (R384, R401 TABLE_FULL; the size is
not given). Log 11. -/
opaque tableCapacity : Nat → Nat

/-- A byte of a restored range after a restore that stopped at a failed CRC entry (R584: undefined bytes). Log 12. -/
opaque restoreByte : Nat → Nat → BitVec 8

/-- The data a scan pattern shifts out (R652, R680 do not describe the chains cell by cell). Log 13. -/
opaque scanOut : Nat → List (BitVec 256) → List (BitVec 256)

/-- A result or value the spec does not state for its operands; first argument the free-value counter. Log 14. -/
opaque freeWord : Nat → BitVec 64

/-- The HBM row of its channel that a channel address falls in (R360 repairs rows; their size is not given). Log 23. -/
opaque rowOf : Nat → Nat

/-- The bank of an HBM row (R360 has the bank of a copied row wait; its rows are not given). Log 23. -/
opaque bankOf : Nat → Nat

/-- The schedule beat at which an iteration of the Figure list begins, after the first: the iteration and the last DEADLINE (R110 repeats
the Choreography; no rule places the repeated beats). Log 31. -/
opaque iterationStart : Nat → Nat → Nat

end Sys2Proof.Config
end

