-- ==== Sys2Proof/Machine/Storage.lean ====
section
/-! DEFINITION. Memory as the block sees it: regions and placement (R342 to R345), page tables (R384 to R387), channel contents,
poison and Write-Combining Buffers (R351 to R360), the far tier (R369 to R371), and Fremund's own reads and writes by device
virtual address. -/

namespace Sys2Proof.Machine

/-- A byte's place: a channel address of an HBM channel, or a far address of a port (R341, R369). -/
inductive Loc where
  | hbm (ch ca : Nat)
  | far (port addr : Nat)
  deriving DecidableEq, Repr

/-! ### Regions -/

/-- Channel `c` is in service (R344). -/
def State.inService (s : State) (c : Nat) : Bool :=
  decide (c < s.cfg.channels) && (decide ((s.channel c).state = .online) || decide ((s.channel c).state = .spare))

/-- The channels a region may list (R344). -/
def regionReach (d : Design) (r : MemRegion) : List Nat :=
  if r.mode = 0 then List.range d.channels else (List.range 16).map (fun i => 16 * r.set + i)

/-- A region's channel list: the latched one, or the channels in service while none is latched (R344, log 24). -/
def State.regionList (s : State) (r : MemRegion) : List Nat :=
  match r.list with
  | some l => l
  | none => (regionReach s.cfg r).filter s.inService

/-- U of a region whose list has `n` channels (R345). -/
def usableOf (r : MemRegion) (n : Nat) : Nat := n * r.size * 2 ^ 21 / 2 ^ 25 * 2 ^ 25

def State.usable (s : State) (r : MemRegion) : Nat := usableOf r (s.regionList r).length

/-- The regions, in number order. -/
def State.regionAll (s : State) : List MemRegion := (List.range 64).map s.region

/-- VALID regions of partition `p` that are not Fremund's. -/
def State.partRegions (s : State) (p : Nat) : List MemRegion :=
  s.regionAll.filter (fun r => r.valid && !r.fw && decide (r.part = p))

/-- The PA span a SPREAD or LOCAL region reserves (R343). -/
def regionSpan (d : Design) (r : MemRegion) : Nat × Nat :=
  (r.base * 2 ^ 25, r.base * 2 ^ 25 + (regionReach d r).length * r.size * 2 ^ 21)

/-- The region whose span holds a PA. -/
def State.regionOf (s : State) (pa : Nat) : Option MemRegion :=
  s.regionAll.find? (fun r => r.valid && decide (r.mode ≤ 1)
    && decide ((regionSpan s.cfg r).1 ≤ pa) && decide (pa < (regionSpan s.cfg r).2))

/-- The placement function (R345); `none` is a region fault. -/
def State.place (s : State) (pa : Nat) : Option (Nat × Nat) :=
  match s.regionOf pa with
  | none => none
  | some r =>
    let off := pa - r.base * 2 ^ 25
    let l := s.regionList r
    if off < s.usable r then
      let g := off / 512
      some (l.getD (g % l.length) 0, r.caBase * 2 ^ 21 + g / l.length * 512 + off % 512)
    else none

/-- The PA that places at channel address `ca` of channel `ch`, if a region covers it. -/
def State.paOf (s : State) (ch ca : Nat) : Option Nat :=
  (s.regionAll.filter (fun r => r.valid && decide (r.mode ≤ 1))).findSome? (fun r =>
    let l := s.regionList r
    match l.findIdx? (fun c => decide (c = ch)) with
    | none => none
    | some i =>
      if r.caBase * 2 ^ 21 ≤ ca then
        let o := ca - r.caBase * 2 ^ 21
        let off := (o / 512 * l.length + i) * 512 + o % 512
        if off < s.usable r then some (r.base * 2 ^ 25 + off) else none
      else none)

/-- Partition `p` has latched its channel lists (R344). -/
def State.hasLatched (s : State) (p : Nat) : Bool := (s.partRegions p).any (fun r => r.list.isSome)

/-- A channel carries a FW region (R344, R565). -/
def State.fwChannel (s : State) (ch : Nat) : Bool :=
  s.regionAll.any (fun r => r.valid && r.fw && decide (r.mode ≤ 1) && (s.regionList r).contains ch)

/-- Partitions with a region that lies on channel `ch` (R366). -/
def State.channelUsers (s : State) (ch : Nat) : List Nat :=
  s.liveParts.filter (fun p => (s.partRegions p).any (fun r => decide (r.mode ≤ 1) && (s.regionList r).contains ch))

/-- Partitions with a region whose list can include channel `ch` (R364). -/
def State.channelParts (s : State) (ch : Nat) : List Nat :=
  s.liveParts.filter (fun p => (s.partRegions p).any (fun r => decide (r.mode ≤ 1) && (regionReach s.cfg r).contains ch))

/-- The partitions whose resources an item touches (R72, R75). -/
def State.itemUsers (s : State) (it : Intrusive) : List Nat :=
  match it with
  | .channel ch => s.channelParts ch
  | .staging k => s.liveParts.filter (fun p => (List.range 32).any (fun i => (s.channelParts (32 * k + i)).contains p))
  | .port n => (s.portOwner n).toList
  | .laneRemap n => (s.portOwner n).toList

/-- How a channel treats a partition's access (R364). -/
inductive Serve where
  | now | queued | lost
  deriving DecidableEq, Repr

def State.serve (s : State) (p ch : Nat) : Serve :=
  let c := s.channel ch
  if c.served.getLsbD p || !s.hasLatched p then
    match c.state with
    | .online => .now
    | .spare => .now
    | .fenced => .queued
    | .retraining => .queued
    | .down => .lost
    | .failed => .lost
  else .lost

/-! ### Page tables -/

/-- Bytes of a leaf's page. -/
def Leaf.bytes (l : Leaf) : Nat := if l.big then 2 ^ 30 else 2 ^ 25

/-- A leaf permits a read or a write. -/
def Leaf.permits (l : Leaf) (write : Bool) : Bool := if write then l.wr else l.rd

/-- Key of the 32 MiB page that holds a VA: VA bits [51:25]. -/
def pageKey (va : Nat) : Nat := va / 2 ^ 25

/-- Key of the first 32 MiB of the 1 GiB page that holds a VA. -/
def bigKey (va : Nat) : Nat := va / 2 ^ 30 * 32

/-- What a walk of a page table finds (R385). -/
inductive Walked where
  | leaf (base : Nat) (l : Leaf)
  | unmapped
  | corrupt
  deriving DecidableEq, Repr

def Space.walk (t : Space) (va : Nat) : Walked :=
  if t.corrupt.contains (pageKey va) then .corrupt else
  match kget none t.leaves (pageKey va) with
  | some l =>
    if l.big then .leaf (bigKey va * 2 ^ 25) l else .leaf (pageKey va * 2 ^ 25) l
  | none =>
    match kget none t.leaves (bigKey va) with
    | some l => if l.big then .leaf (bigKey va * 2 ^ 25) l else .unmapped
    | none => .unmapped

/-- R386: the leaf's whole page lies in one VALID region of the partition, not a FW region, of matching MODE, and below U. -/
def State.leafOk (s : State) (p : Nat) (l : Leaf) : Bool :=
  let a := l.target * 2 ^ 25
  (s.partRegions p).any (fun r =>
    if l.far then
      decide (r.mode = 2) && decide (r.port = b2n l.port) && decide (r.base * 2 ^ 25 ≤ a)
        && decide (a + l.bytes ≤ (r.base + r.size) * 2 ^ 25)
    else
      decide (r.mode ≤ 1) && decide (r.base * 2 ^ 25 ≤ a) && decide (a + l.bytes ≤ r.base * 2 ^ 25 + s.usable r))

/-- The place of the byte at VA under a leaf of its page; `none` outside every region (R345, R387). -/
def State.locOf (s : State) (base : Nat) (l : Leaf) (va : Nat) : Option Loc :=
  let a := l.target * 2 ^ 25 + (va - base)
  if l.far then some (.far (b2n l.port) a) else (s.place a).map (fun x => .hbm x.1 x.2)

/-- The leaf of partition `p` at VA that Fremund and the pinned units may use: valid and inside a region (R386). -/
def State.leafAt (s : State) (p va : Nat) : Option (Nat × Leaf) :=
  if va < 2 ^ 52 then
    match (s.part p).space.walk va with
    | .leaf b l => if s.leafOk p l then some (b, l) else none
    | _ => none
  else none

/-- Every page of [va, va + n) passes `f`. -/
def State.rangeAll (s : State) (p va n : Nat) (f : Leaf → Bool) : Bool :=
  (List.range ((va + max n 1 - 1) / 2 ^ 25 - va / 2 ^ 25 + 1)).all (fun i =>
    match s.leafAt p ((va / 2 ^ 25 + i) * 2 ^ 25) with
    | some (_, l) => f l
    | none => false)

def State.readable (s : State) (p va n : Nat) : Bool := s.rangeAll p va n (·.rd)
def State.writable (s : State) (p va n : Nat) : Bool := s.rangeAll p va n (·.wr)
def State.pinned (s : State) (p va n : Nat) : Bool := s.rangeAll p va n (·.pin)

/-! ### Channel contents -/

/-- What an unlisted byte of a channel reads as: 0 (R675), or a free byte once the contents are undefined (R363). -/
def chDefault (c : Channel) (a : Nat) : Byte :=
  match c.undef with
  | none => 0
  | some n => Config.freeByte n a

/-- The stored byte at a channel address. -/
def chByte (c : Channel) (a : Nat) : Byte := kget (chDefault c a) c.mem a

/-- Store a byte. -/
def setChByte (c : Channel) (a : Nat) (b : Byte) : Channel := { c with mem := kset (chDefault c a) c.mem a b }

/-- The byte a read returns: a Write-Combining Buffer entry's byte over the stored one (R351). -/
def chView (c : Channel) (a : Nat) : Byte :=
  match c.wcb.find? (fun e => decide (e.line = a / 64)) with
  | some e => (kget none e.data (a % 64)).getD (chByte c a)
  | none => chByte c a

/-- Write the bytes an entry's mask covers into the stored line. -/
def mergeLine (c : Channel) (e : WcbEntry) : Channel :=
  (List.range 64).foldl (fun c i =>
    match kget none e.data i with
    | some b => setChByte c (64 * e.line + i) b
    | none => c) c

/-- The entry's mask is full. -/
def WcbEntry.full (e : WcbEntry) : Bool := (List.range 64).all (fun i => (kget none e.data i).isSome)

/-- A soft repair of the row of channel address `ca` begins (R360): a remap is used and the row's error count starts again; when
all 64 are in use REMAP_FULL is set and reported once (R561). -/
def softRepair (ch ca : Nat) (s : State) : State :=
  let c := s.channel ch
  let row := Config.rowOf ca
  if c.remaps.length < 64 then
    s.setChannel ch { c with remaps := c.remaps ++ [row], copying := c.copying ++ [row], corrRows := kset 0 c.corrRows row 0 }
  else if c.remapFull then s
  else
    withHealth (replaceCause 3)
      (postEach (s.channelParts ch) 0x53 (payloadOf noFig ch 0) (s.setChannel ch { c with remapFull := true }))

/-- A corrected read (R357): counted, and the fourth of one row within a scrub pass starts a soft repair (R360). -/
def corrected (ch ca : Nat) (s : State) : State :=
  let row := Config.rowOf ca
  let s1 := mcCount ch 0 1 (s.modChannel ch (fun c => { c with corrRows := kmod 0 c.corrRows row (· + 1) }))
  if kget 0 (s1.channel ch).corrRows row = 4 then softRepair ch ca s1 else s1

/-- Payload of MEM_UE (R505). -/
def ueParams (pa ca : Nat) : Nat := pa % 2 ^ 40 + ca % 2 ^ 32 * 2 ^ 64

/-- The PA reported for a channel address; a free value where no region covers it (log 25). -/
def State.uePa (s : State) (ch ca : Nat) : Nat := (s.paOf ch ca).getD (fld (Config.freeWord s.free).toNat 0 40)

/-- An uncorrectable read of the line at `ca` (R358): counted, recorded in MEM_UE_LAST, MEM_UE posted to `ps` with FIG_ID `fig`; where the
channel served the read, the poison code is written and the row soft-repaired (R360). -/
def uncorrectableAt (served : Bool) (ch ca fig : Nat) (ps : List Nat) (s : State) : State :=
  let pa := s.uePa ch ca
  let s0 := if (s.paOf ch ca).isNone then s.draw else s
  let live := served && decide ((s.channel ch).state ≠ .down) && decide ((s.channel ch).state ≠ .failed)
  let s1 := mcCount ch 1 1 s0
  let s2 := { s1 with mem := { s1.mem with ueLast := pa, ueValid := true, ueChannel := ch } }
  let s3 := s2.modChannel ch (fun c =>
    { c with uesInBar := c.uesInBar + 1, poison := if live then insAsc c.poison (ca / 64) else c.poison })
  let s4 := postEach ps 0x50 (payloadOf fig ch (ueParams pa ca)) s3
  if live then softRepair ch ca s4 else s4

/-- An uncorrectable read on a channel that serves the reader, if it serves any. -/
def uncorrectable (ch ca fig : Nat) (ps : List Nat) (s : State) : State := uncorrectableAt true ch ca fig ps s

/-- The bank of channel address `ca` waits for the copy of a row (R360). -/
def State.bankBusy (s : State) (ch ca : Nat) : Bool :=
  (s.channel ch).copying.any (fun r => decide (Config.bankOf r = Config.bankOf (Config.rowOf ca)))

/-- A write to a channel that does not serve the writer is discarded and reported as MEM_UE (R363, R364). -/
def lostWrite (ch ca fig : Nat) (ps : List Nat) (s : State) : State :=
  let s0 := if (s.paOf ch ca).isNone then s.draw else s
  postEach ps 0x50 (payloadOf fig ch (ueParams (s.uePa ch ca) ca)) s0

/-! ### Bandwidth regulators -/

/-- Slots of a round that each partition is guaranteed (R349). -/
def State.shares (s : State) : List Nat :=
  let r := (List.range 4).map (fun p => fld s.mem.bwShare.toNat (8 * p) 8)
  if 64 < r.sum then r.map (fun x => x * 64 / r.sum) else r

/-- Slots of its share that partition `p` has not taken in this round. -/
def Turns.owed (t : Turns) (sh : List Nat) (p : Nat) : Nat := sh.getD p 0 - t.slots.getD p 0

/-- Partition `p`, while those of `waiting` have requests too, may take the next slot (R349): one of its share, or one that the shares of
the waiting leave, in rotation after the partition that took the last such slot. -/
def Turns.grants (t : Turns) (sh waiting : List Nat) (p : Nat) : Bool :=
  let asks (q : Nat) : Bool := decide (q = p) || waiting.contains q
  decide (0 < t.owed sh p)
    || (decide (t.slots.sum + (((List.range 4).filter asks).map (t.owed sh)).sum < 64)
      && decide (((List.range 4).map (fun i => (t.last + 1 + i) % 4)).find? (fun q => asks q && decide (t.owed sh q = 0)) = some p))

/-- Partition `p` takes `n` slots; a round ends at 64 (R349). -/
def Turns.take (t : Turns) (sh : List Nat) (p n : Nat) : Turns :=
  let l := t.slots.set p (t.slots.getD p 0 + n)
  { t with slots := if 64 ≤ l.sum then [0, 0, 0, 0] else l, last := if t.owed sh p = 0 then p else t.last }

/-- Count one slot of partition `p` issued while near and crossbar requests of it waited (R347). -/
def Turns.cross1 (t : Turns) (p : Nat) (crossbar : Bool) : Turns :=
  let b := t.both.getD p 0 + 1
  { t with both := t.both.set p (b % 64), cross := t.cross.set p (if b = 64 then 0 else t.cross.getD p 0 + b2n crossbar) }

/-- The line waits for channel `ch` to serve it. -/
def LineReq.waitsAt (x : LineReq) (ch : Nat) : Bool :=
  match x.place with
  | some (false, c, _) => decide (c = ch) && (x.write || x.data.isNone)
  | _ => false

/-- Channel `ch` is one of the near channels of the Set of core `c` (R346). -/
def isNear (ch c : Nat) : Bool := decide (ch / 16 = c / 4)

/-- The demand that waits at channel `ch`: the partition of each stream with a line for it, and whether it comes over the near path. -/
def State.waitingAt (s : State) (ch : Nat) : List (Nat × Bool) :=
  s.streams.flatMap (fun x => if x.2.lines.any (·.waitsAt ch) then [(x.2.part, isNear ch x.2.core)] else [])

/-- Near and crossbar requests of partition `p` wait at channel `ch` together. -/
def State.bothPaths (s : State) (ch p : Nat) : Bool :=
  (s.waitingAt ch).contains (p, true) && (s.waitingAt ch).contains (p, false)

/-- FAR_SHARE as it acts (R347). -/
def State.crossShare (s : State) : Nat := max 1 (min 64 s.mem.farShare.toNat)

/-- Channel `ch` may give its next slot to demand of partition `p` (R347 to R349): no aged scrub waits, the regulator grants it, and a
crossbar request beside near ones is within FAR_SHARE. -/
def State.slotFor (s : State) (ch p : Nat) (crossbar : Bool) : Bool :=
  let c := s.channel ch
  !c.scrubAge && c.turns.grants s.shares ((s.waitingAt ch).map (·.1)) p
    && !(crossbar && s.bothPaths ch p && decide (s.crossShare ≤ c.turns.cross.getD p 0))

/-- Channel `ch` gives `n` slots to partition `p` (R349, R352). -/
def chargeSlots (ch p n : Nat) (s : State) : State := s.modChannel ch (fun c => { c with turns := c.turns.take s.shares p n })

/-- Far port `q` gives `n` slots to partition `p` (R349). -/
def chargeFar (q p n : Nat) (s : State) : State := s.modFar q (fun f => { f with turns := f.turns.take s.shares p n })

/-- A read that the block makes of itself meets a correctable or an uncorrectable error, or none, as the free value says (log 71). -/
def State.freeEcc (s : State) : Ecc :=
  match fld (Config.freeWord s.free).toNat 0 2 with
  | 0 => .single
  | 1 => .double
  | _ => .clean

/-- Evict a Write-Combining Buffer entry (R352, R356): a full line is written whole and replaces any poison; a partial one is a
read-merge-write, whose read `ecc` describes, and which keeps an uncorrectable line poisoned. An entry of a DOWN or FAILED channel
is discarded (R353). -/
def evictEntry (ch : Nat) (e : WcbEntry) (ecc : Ecc) (s : State) : State :=
  let c := s.channel ch
  let c1 := { c with wcb := c.wcb.filter (fun x => !decide (x.line = e.line)) }
  if c.state = .down ∨ c.state = .failed then s.setChannel ch c1
  else if e.full then
    let s1 := chargeSlots ch e.part 1 (s.setChannel ch (mergeLine { c1 with poison := c1.poison.filter (fun l => !decide (l = e.line)) } e))
    if e.counted then acctAdd e.part 2 64 s1 else s1
  else
    let s1 := mcCount ch 2 1 (chargeSlots ch e.part 2 (s.setChannel ch (mergeLine c1 e)))
    let s2 := if e.counted then acctAdd e.part 2 128 s1 else s1
    if c.poison.contains e.line || decide (ecc = .double) then uncorrectable ch (64 * e.line) noFig [e.part] s2
    else if ecc = .single then corrected ch (64 * e.line) s2
    else s2

/-- Evict an entry whose read, if it needs one, is the controller's own (R352, R353). -/
def evictForced (ch : Nat) (e : WcbEntry) (s : State) : State :=
  if e.full then evictEntry ch e .clean s else evictEntry ch e s.freeEcc s.draw

/-- Accept a write into the Write-Combining Buffer (R351): it merges into the line's entry, or takes a free one, the oldest being
evicted when none is free; a full mask is evicted at once. -/
def wcbAccept (ch line p : Nat) (counted : Bool) (bs : List (Nat × Byte)) (s : State) : State :=
  let c := s.channel ch
  let put (m : KMap (Option Byte)) := bs.foldl (fun m x => kset none m x.1 (some x.2)) m
  match c.wcb.find? (fun e => decide (e.line = line)) with
  | some e =>
    let e' := { e with part := p, counted := e.counted || counted, data := put e.data }
    let s1 := s.setChannel ch { c with wcb := c.wcb.map (fun x => if x.line = line then e' else x) }
    if e'.full then evictEntry ch e' .clean s1 else s1
  | none =>
    let e' : WcbEntry := ⟨line, p, counted, put []⟩
    let s0 :=
      match c.wcb with
      | o :: _ => if 64 ≤ c.wcb.length then evictForced ch o s else s
      | [] => s
    let s1 := s0.modChannel ch (fun c => { c with wcb := c.wcb ++ [e'] })
    if e'.full then evictEntry ch e' .clean s1 else s1

/-- Flush the entries of a channel that `f` picks, oldest first (R353). -/
def flushChannel (ch : Nat) (f : WcbEntry → Bool) (s : State) : State :=
  ((s.channel ch).wcb.filter f).foldl (fun t e => evictForced ch e t) s

/-- Flush every entry of partition `p` (R353). -/
def flushPart (p : Nat) (s : State) : State :=
  (List.range s.cfg.channels).foldl (fun t ch => flushChannel ch (fun e => decide (e.part = p)) t) s

/-- Flush every entry (R353). -/
def flushAll (s : State) : State := (List.range s.cfg.channels).foldl (fun t ch => flushChannel ch (fun _ => true) t) s

/-! ### The far tier -/

/-- The partitions whose streams have a line to ask of far port `q`. -/
def State.farDemand (s : State) (q : Nat) : List Nat :=
  s.streams.filterMap (fun x =>
    if x.2.lines.any (fun y => decide (y.place = none) && (y.write || y.data.isNone) && (match s.leafAt x.2.part y.va with
      | some (_, l) => l.far && decide (b2n l.port = q)
      | none => false)) then some x.2.part else none)

/-- The regulator of far port `q` lets partition `p` send `n` requests (R349). -/
def farSlot (q p n : Nat) (s : State) : Option State :=
  if (s.farPort q).turns.grants s.shares (s.farDemand q) p then some (chargeFar q p n s) else none

/-- Write bytes of one far line; a whole line clears its poison. -/
def farPut (port addr : Nat) (bs : List Byte) (s : State) : State :=
  s.modFar port (fun f => { f with
    mem := bwrite f.mem addr bs,
    poison := if bs.length = 64 then f.poison.filter (fun l => !decide (l = addr / 64)) else f.poison })

/-! ### Fremund's reads and writes -/

/-- A byte of the partition's memory as Fremund reads it. -/
inductive Got where
  | ok (b : Byte)
  | unmapped
  | bad (l : Loc)
  deriving DecidableEq, Repr

/-- The byte at a place, for partition `p`. -/
def State.byteAt (s : State) (p : Nat) (l : Loc) : Got :=
  match l with
  | .hbm ch ca =>
    let c := s.channel ch
    if s.serve p ch = .lost then .bad l
    else if c.poison.contains (ca / 64) then .bad l
    else .ok (chView c ca)
  | .far q a =>
    let f := s.farPort q
    if f.poison.contains (a / 64) then .bad l else .ok (kget 0 f.mem a)

/-- The byte at VA, through a leaf with RD. -/
def State.byteVa (s : State) (p va : Nat) : Got :=
  match s.leafAt p va with
  | some (b, l) =>
    if l.rd then
      match s.locOf b l va with
      | some x => s.byteAt p x
      | none => .unmapped
    else .unmapped
  | none => .unmapped

/-- A run of bytes as Fremund reads it: the bytes, or the first place that stops the read. -/
inductive GotAll where
  | ok (bs : List Byte)
  | unmapped
  | bad (l : Loc)
  deriving DecidableEq, Repr

/-- `n` bytes from VA. -/
def State.readVa (s : State) (p va n : Nat) : GotAll :=
  match n with
  | 0 => .ok []
  | k + 1 =>
    match s.byteVa p va with
    | .unmapped => .unmapped
    | .bad l => .bad l
    | .ok b =>
      match s.readVa p (va + 1) k with
      | .ok bs => .ok (b :: bs)
      | r => r

/-- The bytes, empty where the read stops. -/
def GotAll.bytes (g : GotAll) : List Byte :=
  match g with
  | .ok bs => bs
  | _ => []

/-- What an uncorrectable read by Fremund for `p` reports, with FIG_ID `fig` (R358, R371, R494). -/
def fwUncorrectable (p fig : Nat) (l : Loc) (s : State) : State :=
  match l with
  | .hbm ch ca => uncorrectableAt (decide (s.serve p ch ≠ .lost)) ch (ca / 64 * 64) fig [p] s
  | .far q a => postEvent p 0x56 (payloadOf fig q (a % 2 ^ 48)) s

/-- Cut bytes at line boundaries: the offset of each piece from `va` and its bytes. -/
def linePieces (va : Nat) (bs : List Byte) : List (Nat × List Byte) :=
  (List.range ((va + bs.length + 63) / 64 - va / 64)).map (fun i =>
    let lo := max va ((va / 64 + i) * 64)
    let hi := min (va + bs.length) ((va / 64 + i + 1) * 64)
    (lo, (bs.drop (lo - va)).take (hi - lo)))

/-- Write one piece of a line for partition `p`. -/
def writePiece (p : Nat) (counted : Bool) (va : Nat) (bs : List Byte) (s : State) : State :=
  match s.leafAt p va with
  | none => s
  | some (b, l) =>
    match s.locOf b l va with
    | none => s
    | some (.hbm ch ca) =>
      if s.serve p ch = .lost then lostWrite ch ca noFig [p] s
      else wcbAccept ch (ca / 64) p counted (bs.zipIdx.map (fun x => (ca % 64 + x.2, x.1))) s
    | some (.far q a) =>
      let n := if bs.length = 64 then 1 else 2
      let s1 := chargeFar q p n (farPut q a bs s)
      if counted then acctAdd p 4 (64 * n) s1 else s1

/-- Write bytes at VA for partition `p`, through its mapping. -/
def writeVa (p : Nat) (counted : Bool) (va : Nat) (bs : List Byte) (s : State) : State :=
  if bs.isEmpty then s else (linePieces va bs).foldl (fun t x => writePiece p counted x.1 x.2 t) s

/-! ### Completing with a result -/

/-- Complete a command whose result is `bs` (R467): written to RESULT_VA when it names a buffer, cut at RESULT_LEN with
RESULT_SHORT and the full length in DATA bytes 12 to 15 (log 26). -/
def completeWith (p r : Nat) (seq : BitVec 16) (img : BitVec 512) (data : Nat) (bs : List Byte) (s : State) : State :=
  if resultVa img = 0 then complete r seq stOk data 0 s
  else
    let n := min bs.length (resultLen img)
    let s1 := writeVa p false (resultVa img) (bs.take n) s
    if resultLen img < bs.length then complete r seq stShort (data % 2 ^ 96 + bs.length % 2 ^ 32 * 2 ^ 96) n s1
    else complete r seq stOk data n s1

/-- RESULT_VA is 0 or lies in mapped, writable pages (R467). -/
def State.resultOk (s : State) (p : Nat) (img : BitVec 512) : Bool :=
  decide (resultVa img = 0) || s.writable p (resultVa img) (resultLen img)

/-- A command's ring and job rules (R492). -/
structure CmdRule where
  op    : Nat
  admin : Bool
  job   : Bool
  lost  : Bool
  fields : List (Nat × Nat × Nat)
  deriving DecidableEq, Repr

/-- A command that first returns the block to P0 from P2 or P3 (R456, R537). -/
def wakesBlock (state op : Nat) : Bool :=
  if state = 2 then op == 0x111 || op == 0x501 || op == 0x700
  else if state = 3 then decide (0x100 ≤ op) && decide (op < 0x600)
  else false

/-- Run the acknowledged command `seq` of ring `r` when its row's opcode is `k.op` and it may start: the checks of R488 in order,
each failing one completing with its status and nothing else; then `body` for the owning partition. Otherwise nothing happens
(log 3). `lost` commands are refused after a FW region is lost (R565); a command that wakes the block waits for P0 (R537). -/
def runCommand (k : CmdRule) (r : Nat) (seq : BitVec 16) (body : Nat → BitVec 512 → State → State) (s : State) : State :=
  match s.mayBegin r seq, s.ringOwner r with
  | some o, some p =>
    let img := o.image
    if !s.ringRuns r || cmdOpcode img != k.op then s
    else
      let done (st : Nat) := complete r seq st 0 0 s
      if k.op ≠ 1 ∧ ¬ (s.ring r).versionRead then done stNotRead
      else if cmdVer img ≠ 1 then done stVersion
      else if k.admin && !s.ringAdmin r then done stDenied
      else if k.lost && s.fw.fwLost then done stDenied
      else
        match if k.job then jobCheck (s.part p) (cmdTag img) else none with
        | some st => done st
        | none =>
          if wakesBlock s.pmu.state k.op then
            (if s.pmu.transition then s else { s with pmu := { s.pmu with target := 0, transition := true } })
          else if s.pmu.transition && wakesBlock s.pmu.target k.op then s
          else if !headerOk img || !fieldsOk img k.fields || !s.resultOk p img then done stField
          else body p img (markStarted r seq s)
  | _, _ => s

end Sys2Proof.Machine
end

