-- ==== Sys2Proof/Machine/Operands.lean ====
section
/-! DEFINITION. Operand forms: Scratchpad rows and elements (R304 to R313, R323, R331), what a core's operation needs to run, and
where its flags go (R115, R116). -/

namespace Sys2Proof.Machine

/-! ### Scratchpad bytes -/

/-- Rows per quarter (R330). -/
def Design.quarterRows (d : Design) : Nat := d.spmRows / 4

/-- A Scratchpad row exists and its quarter is powered (R304, R330). A fenced core's quarters are powered down (R335). -/
def State.rowOn (s : State) (c row : Nat) : Bool :=
  decide (row < s.cfg.spmRows) && !(s.core c).fenced &&
    match s.coreOwner c with
    | some p => (s.part p).quarterOn.getLsbD (row / s.cfg.quarterRows)
    | none => false

/-- The byte a read of the Scratchpad returns: 0 from a powered-down quarter (R331). -/
def State.spmByte (s : State) (c a : Nat) : Byte := if s.rowOn c (a / 512) then kget 0 (s.core c).spm a else 0

/-- `n` bytes from byte address `a` of core `c`'s Scratchpad. -/
def State.spmBytes (s : State) (c a n : Nat) : List Byte := (List.range n).map (fun i => s.spmByte c (a + i))

/-- `n` bytes as a number. -/
def State.spmNat (s : State) (c a n : Nat) : Nat := ofLe (s.spmBytes c a n)

/-- Rows that bytes [a, a + n) touch. -/
def rowsOf (a n : Nat) : List Nat := if n = 0 then [] else (List.range ((a + n - 1) / 512 - a / 512 + 1)).map (a / 512 + ·)

/-- Write bytes into a Scratchpad: rows of a powered-down quarter are discarded (R331), parity is set (R323), and tags of split
elements in the rows are gone. -/
def spmWrite (c a : Nat) (bs : List Byte) (s : State) : State :=
  let rows := rowsOf a bs.length
  s.modCore c (fun k =>
    { k with
      spm := bs.zipIdx.foldl (fun m x => if s.rowOn c ((a + x.2) / 512) then kset 0 m (a + x.2) x.1 else m) k.spm
      badRows := k.badRows.filter (fun r => !(rows.contains r && s.rowOn c r))
      tags := k.tags.filter (fun t => !rows.contains (t.1 / 512)) })

/-- The code of element `i` of a run of elements that begins at byte `a` (R92). -/
def State.spmCode (s : State) (c : Nat) (f : Fmt) (a i : Nat) : Nat :=
  if fmtBits f = 4 then fld (s.spmByte c (a + i / 2)).toNat (4 * (i % 2)) 4
  else s.spmNat c (a + i * (fmtBits f / 8)) (fmtBits f / 8)

/-- The value of element `i` of an FP32 run. -/
def State.spmF32 (s : State) (c a i : Nat) : Num := fFP32.decode (s.spmNat c (a + 4 * i) 4)

/-- INT32 number `i` of a run. -/
def State.spmI32 (s : State) (c a i : Nat) : Int := sfld (s.spmNat c (a + 4 * i) 4) 0 32

/-- The row scale that a row-scale plane's entry stands for: itself in R97's range, else a free value of it, since R97 rejects such an
entry and states no value (log 90). -/
def rsUsed (x : Int) : Int :=
  if -16384 ≤ x ∧ x ≤ 16383 then x else ((Config.freeWord (toTwos 32 x)).toNat % 32768 : Nat) - (16384 : Int)

/-- Pack element codes into bytes (R92). -/
def packCodes (f : Fmt) (cs : List Nat) : List Byte :=
  if fmtBits f = 4 then
    (List.range ((cs.length + 1) / 2)).map (fun i => BitVec.ofNat 8 (nth cs (2 * i) % 16 + nth cs (2 * i + 1) % 16 * 16))
  else cs.flatMap (leBytes (fmtBits f / 8))

/-- FP32 codes as bytes. -/
def packF32 (vs : List Num) : List Byte := vs.flatMap (fun v => leBytes 4 (fFP32.encode v))

/-- INT32 numbers as bytes. -/
def packI32 (xs : List Int) : List Byte := xs.flatMap (fun x => leBytes 4 (toTwos 32 x))

/-! ### The Figure of an operation -/

def Core.slot (k : Core) (i : Nat) : Slot := if i = 0 then k.slot0 else k.slot1

def Core.setSlot (k : Core) (i : Nat) (v : Slot) : Core := if i = 0 then { k with slot0 := v } else { k with slot1 := v }

/-- The state of query row `i` (R172). -/
def Core.row (k : Core) (i : Nat) : RowState := kget RowState.reset k.rows i

/-- The partition and FIG_ID whose operations slot `i` of core `c` issues, if the core may issue: unfenced and not halted, with the
die below its trip level (R115, R153, R548). -/
def State.issuing (s : State) (c i : Nat) : Option (Nat × Nat) :=
  let k := s.core c
  if k.fenced || k.halted || decide (s.pmu.dieLevel = 2) then none else (k.slot i).fig

/-- Core `c` holds an item of FIG_ID `fig`. -/
def State.holdsItem (s : State) (c fig : Nat) : Bool := (s.core c).held.any (fun h => decide ((s.clm h.1).fig = fig))

/-- Core `c` has an item of FIG_ID `fig` in work or prefetch: one it claimed, or one its first slot works, of a bucket or of a fused
producer (R273, R299). -/
def State.itemOpen (s : State) (c fig : Nat) : Bool := (s.core c).slot0.work.isSome || s.holdsItem c fig

/-- Raise flags in slot `i` of core `c`: with the item it works, or apart from items (R115, R116). -/
def raise (c i : Nat) (fl : Flags) (s : State) : State :=
  s.modCore c (fun k =>
    let v := k.slot i
    match v.fig with
    | none => k
    | some (_, fig) =>
      if s.itemOpen c fig then k.setSlot i { v with item := v.item.or fl } else k.setSlot i { v with other := v.other.or fl })

/-- Count parity detections of core `c` in SPM_PERR (R318, R324). -/
def countPerr (c : Nat) (s : State) : State :=
  let n := (s.core c).cnt
  let (v, o) := satAdd 16 n.perr 1
  let s1 := s.modCore c (fun k => { k with
    cnt := { n with perr := v, perrSat := n.perrSat || o }, perrBar := k.perrBar + 1 })
  if o && !n.perrSat then satOwned (s.coreOwner c) (0x400088 + 0x100 * c) s1 else s1

/-- SPM_PARITY's bytes 4 to 6 (R505): row, and for ACM its bit and bank. -/
def parityRest (row : Nat) (bank : Option Nat) : Nat :=
  row % 2 ^ 16 + match bank with
    | some b => 2 ^ 16 + b % 2 * 2 ^ 17
    | none => 0

/-- A region whose rows hold `row` on core `c` becomes EMPTY (R327). -/
def spoilRegions (c row : Nat) (s : State) : State :=
  match s.coreOwner c with
  | none => s
  | some p =>
    let i := (s.partCores p).findIdx (fun x => decide (x = c))
    s.modPart p (fun q => { q with residents := q.residents.map (fun r =>
      if r.mask.getLsbD i && decide (r.firstRow ≤ row) && decide (row < r.firstRow + r.rows) then { r with valid := false } else r) })

/-- A parity detection on core `c` for a Figure (R151, R324, R327): counted, reported, the core poisoned and the Figure to abort; the second
and each later one of the Figure has its core fenced. -/
def parityDetect (p fig c row : Nat) (bank : Option Nat) (s : State) : State :=
  let s1 := postEvent p 0x40 (payloadOf fig c (parityRest row bank)) (countPerr c s)
  let s2 := if bank.isNone then spoilRegions c row s1 else s1
  let s3 := s2.modCore c (fun k => { k with poisoned := true })
  modActive p fig (fun a => { a with detections := a.detections + 1, detectedOn := if a.detections = 0 then a.detectedOn else insAsc a.detectedOn c })
    (askAbort p fig (match bank with | some b => .acmParity c b row | none => .spmParity c row) s3)

/-- The rows of a list whose parity fails, each once, ascending. -/
def State.failing (s : State) (c : Nat) (rows : List Nat) : List Nat :=
  (rows.filter (fun r => (s.core c).badRows.contains r)).foldl insAsc []

/-- An operation reads and writes Scratchpad rows: every failing row it reads is a detection, rows it reads are released to the next
multicast stage, and a row that does not exist or is powered down sets INV, reports SPM_RANGE and aborts (R297, R323, R324, R331). -/
def touchRows (p fig c i : Nat) (rd wr : List Nat) (s : State) : State :=
  let s0 := s.modCore c (fun k => { k with staged := k.staged.filter (fun r => !rd.contains r) })
  let s1 := (s.failing c (rd.filter (s.rowOn c))).foldl (fun t r => parityDetect p fig c r none t) s0
  if (rd ++ wr).all (s.rowOn c) then s1
  else askAbort p fig (.spmRange c) (postEvent p 0x41 (payloadOf fig c 0) (raise c i flInv s1))

/-- An operation reads rows of an ACM bank whose parity fails: each is a detection (R151). -/
def detectBank (p fig c b : Nat) (rows : List Nat) (s : State) : State :=
  rows.foldl (fun t r => parityDetect p fig c r (some b) t) s

end Sys2Proof.Machine
end

