-- ==== Sys2Proof/Machine/Fabric.lean ====
section
/-! DEFINITION. Sending frames: the port queues and their flits (R415, R416), routes and rotation (R423), the multicast trees (R437,
R438) and what a fence does to frames not yet received whole (R420). -/

namespace Sys2Proof.Machine

/-- Bytes of a frame (R416). -/
def Frame.bytes (f : Frame) : Nat :=
  match f with
  | .delivery _ d => 32 + d.length
  | .mirror _ _ _ d => 32 + d.length
  | _ => 32

/-- Control frames go ahead of data frames (R416). -/
def Frame.isControl (f : Frame) : Bool :=
  match f with
  | .delivery _ _ => false
  | .mirror _ _ _ _ => false
  | _ => true

/-- Flits that carry a frame, 1,016 bytes each (R414). -/
def Frame.flits (f : Frame) : Nat := (f.bytes + 1015) / 1016

/-- A port that carries frames (R417, R448). -/
def PortState.carries (x : PortState) : Bool := decide (x = .up) || decide (x = .keepalive)

/-- Flits sent and not acknowledged. -/
def Port.unacked (q : Port) : Nat := (q.sent.map (·.flits)).sum

/-- Count `k` frame bytes sent (direction 0) or received (1) on a port, in 64 KiB units (R452). -/
def countFrameBytes (n dir k : Nat) (s : State) : State :=
  let c := (s.port n).cnt
  let tot := (if dir = 0 then c.txRem else c.rxRem) + k
  let s1 := s.modPort n (fun q => { q with cnt :=
    if dir = 0 then { q.cnt with txRem := tot % 65536 } else { q.cnt with rxRem := tot % 65536 } })
  if tot < 65536 then s1 else lkCount n dir 32 (tot / 65536) s1

/-- The next frame of a port's queue: the oldest control frame, else the oldest frame (R416). -/
def nextOut (l : List (Nat × Frame)) : Option (Nat × Frame) :=
  match l.find? (fun x => x.2.isControl) with
  | some x => some x
  | none => l.head?

/-- Send up to `k` queued frames of port `n`, while the port carries frames and the replay buffer of 256 flits has room (R415). -/
def pump (n k : Nat) (s : State) : State :=
  match k with
  | 0 => s
  | k + 1 =>
    let q := s.port n
    match nextOut q.out with
    | none => s
    | some x =>
      if q.state.carries && decide (q.unacked + x.2.flits ≤ 256) then
        let tx := q.txSeq + BitVec.ofNat 12 x.2.flits
        pump n k (countFrameBytes n 0 x.2.bytes (s.setPort n { q with
          out := q.out.erase x, txSeq := tx, sent := q.sent ++ [⟨tx - 1, x.2.flits, x.1, x.2⟩] }))
      else s

/-- Queue a frame on port `n` and send what can be sent. -/
def queueFrame (n toward : Nat) (f : Frame) (s : State) : State :=
  let s1 := s.modPort n (fun q => { q with out := q.out ++ [(toward, f)] })
  pump n (s1.port n).out.length s1

/-- Report NO_ROUTE (code 0x71) or ROUTE_LOOP (0x72) once per Bar (R423, R451). -/
def reportRoute (p code node : Nat) (s : State) : State :=
  let q := s.part p
  let seen := if code = 0x71 then q.notes.noRoute else q.notes.loop
  let s1 := s.modPart p (fun q => { q with
    plane := { q.plane with noRoute := true },
    notes := if code = 0x71 then { q.notes with noRoute := true } else { q.notes with loop := true } })
  if seen then s1 else postEvent p code (payloadOf noFig 0 node) s1

/-- Ports of a route record that partition `p` can use now (R423). -/
def State.usablePorts (s : State) (p : Nat) (rec : BitVec 64) : List Nat :=
  (List.range 48).filter (fun n => rec.getLsbD n && decide (s.portOwner n = some p) && (s.port n).state.carries)

/-- The port that the next frame toward `node` goes out on: the next of the mask in rotation. -/
def State.nextPort (s : State) (p node : Nat) : Option Nat :=
  let pl := (s.part p).plane
  let us := s.usablePorts p (kget 0 pl.routes node)
  match us.find? (fun n => decide (kget 0 pl.rotate node ≤ n)) with
  | some n => some n
  | none => us.head?

/-- Send a frame toward a node by its route record (R423). -/
def sendToward (p node : Nat) (f : Frame) (s : State) : State :=
  if !(kget 0 (s.part p).plane.routes node).getLsbD 63 then reportRoute p 0x71 node s
  else
    match s.nextPort p node with
    | some n =>
      queueFrame n node f (s.modPart p (fun q => { q with plane := { q.plane with rotate := kset 0 q.plane.rotate node (n + 1) } }))
    | none =>
      reportRoute p 0x71 node (s.modPart p (fun q => { q with plane := { q.plane with waitq := q.plane.waitq ++ [(node, f)] } }))

/-- Try the waiting frames of partition `p` again, in order, when a port returns or a route changes (R420, R423). -/
def retryFrames (p : Nat) (s : State) : State :=
  let l := (s.part p).plane.waitq
  l.foldl (fun t x => sendToward p x.1 x.2 t) (s.modPart p (fun q => { q with plane := { q.plane with waitq := [] } }))

/-- The tree neighbours of this device in a group (R437). -/
def Group.neighbours (g : Group) : List Nat := (if g.root then [] else [g.upNode]) ++ g.children

/-- Send a group's frame to every tree neighbour except those listed (R438). -/
def flood (p group : Nat) (but : List Nat) (f : Frame) (s : State) : State :=
  match kget none (s.part p).plane.groups group with
  | none => s
  | some g => (g.neighbours.filter (fun n => !but.contains n)).foldl (fun t n => sendToward p n f t) s

/-- The tempo group that partition `p`'s LATE requests and votes travel on; none in a standalone block (R48, R439). -/
def State.tempoTree (s : State) (p : Nat) : Option Group :=
  if s.beat.standalone then none else kget none (s.part p).plane.groups (s.part p).plane.tempoGroup.toNat

/-- A fenced port's frames after the exchange of R420: the peer has received the first `got` of the sent frames whole; the rest, and
the queued ones, go out in their order over the remaining ports. -/
def resend (n got : Nat) (s : State) : State :=
  let q := s.port n
  let l := (q.sent.drop got).map (fun x => (x.toward, x.frame)) ++ q.out
  let s1 := s.setPort n { q with sent := [], out := [], replays := 0, rxBytes := [] }
  match s.portOwner n with
  | none => s1
  | some p => l.foldl (fun t x => sendToward p x.1 x.2 t) s1

end Sys2Proof.Machine
end

