-- ==== Sys2Proof/Machine/Runs.lean ====
section
/-! DEFINITION. The run of a Choreography: its schedule and iterations, stopping it (R497, R435), and the Hold arithmetic of a
partition's tempo (R52, R64 to R66). -/

namespace Sys2Proof.Machine

/-! ### Iterations -/

/-- The last DEADLINE of a Choreography. -/
def Chor.lastDeadline (c : Chor) : Nat := c.figures.foldl (fun m f => max m f.hdr.deadline) 0

/-- The schedule beat at which iteration `iteration` of a run begins (log 31). -/
def iterBase (c : Chor) (iteration : Nat) : Nat :=
  if iteration = 0 then 0 else Config.iterationStart iteration c.lastDeadline

/-- The beat of the current iteration's own schedule; none before it begins. -/
def State.iterBeat (s : State) (p : Nat) : Option Nat :=
  match s.sched p, (s.part p).chor, (s.part p).run with
  | some b, some c, some r =>
    let o := iterBase c (r.iteration - r.first)
    if o ≤ b then some (b - o) else none
  | _, _, _ => none

/-- A Choreography with the progress of its transfers, bindings, votes and chains cleared (R435). -/
def Chor.fresh (c : Chor) : Chor :=
  { c with
    xfers := c.xfers.map (fun x => { x with issued := false, isNull := false }),
    bindings := c.bindings.map (fun b => { b with landed := 0, pieces := [], gotNull := false, poisoned := false }),
    votes := c.votes.map (fun v =>
      { v with childFlags := 0, childCount := 0, children := 0, sent := false, result := none, latched := false }),
    chains := c.chains.map (fun k => { k with done := 0 }) }

/-- NEXT_FIG: the first Figure not started (R496). -/
def Run.nextFig (r : Run) : Nat := r.next

/-! ### Stopping -/

/-- End the run of partition `p` (R497, R435, R451): credits and bindings are discarded, CHOR_STOPPED is posted for a stop Fremund
made itself, and the CHOR_STOP commands that wait complete. What BASE, SCHED and HOLD_TOTAL read while nothing runs the spec does not
say: they keep the last run's values (DESIGN CHOICE, log 83). -/
def haltRun (p : Nat) (s : State) : State :=
  match (s.part p).run with
  | none => s
  | some r =>
    let s1 := s.modPart p (fun q => { q with
      run := none
      chor := q.chor.map Chor.fresh
      tempo := { q.tempo with running := false, hold := false, intermission := false, late := [], plan := none, hostLate := none }
      plane := { q.plane with tempoGroup := 0, credits := [] } })
    let s2 := if r.stopCause = 0 then s1 else postEvent p 0x11 (payloadOf noFig 0 r.stopCause) s1
    let (ws, s3) := takeWaits p (fun w => decide (w = .chorStop)) s2
    ws.foldl (fun t w => complete w.ring w.seq stOk (r.nextFig % 2 ^ 24 + r.iteration % 2 ^ 32 * 2 ^ 32) 0 t) s3

/-- End the run if it is to stop and no Figure is in progress. -/
def settle (p : Nat) (s : State) : State :=
  match (s.part p).run with
  | some r => if r.stopNow && r.active.isEmpty then haltRun p s else s
  | none => s

/-- Fremund stops the Choreography of `p` at its next Figure boundary, at once when no Figure is in progress (R497). -/
def fremundStop (p cause : Nat) (s : State) : State := settle p (stopChor p cause s)

/-- The last iteration has ended: CHOR_DONE, and the run is over (R497, R498). -/
def finishRun (p : Nat) (s : State) : State :=
  match (s.part p).run with
  | none => s
  | some r =>
    haltRun p (postEvent p 0x10 (payloadOf noFig 0 (r.iteration % 2 ^ 32 + b2n r.traceFull * 2 ^ 32)) s)

/-- TEMPO_SPLIT is reported to partition `p` (R441, R599): a frame of node `node` disagreed. -/
def reportSplit (p node : Nat) (s : State) : State := postEvent p 0x14 (payloadOf noFig 0 node) (blkCount 4 s)

/-- TEMPO_SPLIT from node `node` for the partitions of `ps` with a running Choreography, which Fremund stops (R46, R47, R67). -/
def tempoSplit (node : Nat) (ps : List Nat) (s : State) : State :=
  let s1 := blkCount 4 { s with beat := { s.beat with split := true } }
  (ps.filter (fun p => (s.part p).tempo.running)).foldl
    (fun t p => fremundStop p 0x14 (postEvent p 0x14 (payloadOf noFig 0 node) t)) s1

/-! ### Holds -/

/-- What the beat that falls is to a partition (R52, R65): before its base beat, a Hold beat (the first of its Hold or a later one),
or a schedule beat. -/
inductive BeatKind where
  | idle | holdFirst | hold | schedule
  deriving DecidableEq, Repr

/-- The request that sets a Hold's length: the longest, of the lowest node (R64, R88). -/
def worstLate (l : List LateReq) : Option LateReq :=
  l.foldl (fun m r =>
    match m with
    | none => some r
    | some x => if x.len < r.len ∨ (x.len = r.len ∧ r.node < x.node) then some r else m) none

/-- The first multiple of `b` at or after `x` (R65). -/
def barrierFrom (b x : Nat) : Nat := (x + b - 1) / b * b

/-- Put a request into the pending Hold plan (R64 to R66). -/
def mergeLate (b : Nat) (plan : Option HoldPlan) (r : LateReq) : Option HoldPlan :=
  match plan with
  | none => some ⟨barrierFrom b (r.t + 2), r.len, r.node, 0⟩
  | some pl =>
    if pl.len < r.len ∨ (pl.len = r.len ∧ r.node < pl.node) then some { pl with len := r.len, node := r.node } else plan

/-- A partition's tempo as beat `cnt` falls, with BARRIER_INTERVAL `b` (R52, R64 to R66, R87, R88). A request raised on schedule
beat t is combined during t + 1; one whose decision beat falls inside a Hold is combined at the Hold's last beat: a longer one extends
the Hold, any other is satisfied by it and leaves NODE as it is, though its node be lower (DESIGN CHOICE, log 84). -/
def Tempo.advance (t : Tempo) (b : Nat) (cnt : BitVec 64) : Tempo × BeatKind :=
  let n64 := cnt - t.base - t.holdTotal + BitVec.ofNat 64 t.offset
  let n := n64.toNat
  if !t.running then (t, .idle)
  else if cnt.toNat < t.base.toNat then ({ t with sched := n64 }, .idle)
  else
    let inHold (t : Tempo) (pl : HoldPlan) (k : BeatKind) : Tempo × BeatKind :=
      ({ t with hold := true, plan := some { pl with passed := pl.passed + 1 }, holdTotal := t.holdTotal + 1,
                holdLastLen := BitVec.ofNat 16 pl.len, holdLastNode := BitVec.ofNat 10 pl.node }, k)
    match t.hold, t.plan with
    | true, some pl =>
      if pl.passed < pl.len then inHold t pl .hold
      else
        let now := t.sched.toNat
        let t1 := { t with late := t.late.filter (fun r => decide (now < r.t)) }
        match worstLate (t.late.filter (fun r => decide (r.t ≤ now))) with
        | some r =>
          if pl.passed < r.len then inHold t1 { pl with len := r.len, node := r.node } .hold
          else ({ t1 with hold := false, sched := n64 }, .schedule)
        | none => ({ t1 with hold := false, sched := n64 }, .schedule)
    | _, _ =>
      let t1 := { t with late := t.late.filter (fun r => decide (n < r.t + 2)) }
      let kept := t.plan.filter (fun pl => decide (n ≤ pl.barrier))
      match (t.late.filter (fun r => decide (r.t + 2 ≤ n))).foldl (mergeLate b) kept with
      | some pl =>
        if pl.barrier = n then inHold { t1 with plan := some pl } pl .holdFirst
        else ({ t1 with plan := some pl, hold := false, sched := n64 }, .schedule)
      | none => ({ t1 with plan := none, hold := false, sched := n64 }, .schedule)

/-- A LATE request of schedule beat `x` that arrives now has missed its combining beat (R66, R67). -/
def Tempo.missedLate (t : Tempo) (x : Nat) : Bool :=
  let now := t.sched.toNat
  let after := t.hold || match t.plan with
    | some pl => decide (pl.barrier = now) && decide (0 < pl.passed)
    | none => false
  if after then decide (x + 1 ≤ now) else decide (x + 2 ≤ now)

end Sys2Proof.Machine
end

