-- ==== Sys2Proof/Machine/Figures.lean ====
section
/-! DEFINITION. What a Figure is made of at run time: its columns and tables, its work items (R189, R193, R260, R287), the shape a
dense Figure takes (R279, R280), the entries that produce no work (R188, R263, R282, R684), and when its inputs are valid (R57). -/

namespace Sys2Proof.Machine

def ceilDiv (a b : Nat) : Nat := (a + b - 1) / b

/-! ### Roles and columns -/

def roleA : Nat := 0
def roleB : Nat := 1
def roleC : Nat := 2
def roleQ : Nat := 3
def roleK : Nat := 4
def roleV : Nat := 5
def roleO : Nat := 6
def roleLse : Nat := 7
def roleDo : Nat := 8
def roleD : Nat := 9
def roleDq : Nat := 10
def roleDk : Nat := 11
def roleDv : Nat := 12
def roleSeq : Nat := 13
def roleNew : Nat := 14
def rolePo : Nat := 15
def rolePst : Nat := 16
def roleG : Nat := 17
def roleTheta : Nat := 18
def roleCerr : Nat := 19
def roleM : Nat := 20
def roleR : Nat := 21

/-- The place of the first column with a role and plane. -/
def PtrList.colOf (l : PtrList) (role plane : Nat) : Option Nat :=
  l.cols.findIdx? (fun c => decide (c.role = role) && decide (c.plane = plane))

/-- The first column descriptor with a role and plane. -/
def PtrList.desc (l : PtrList) (role plane : Nat) : Option ColDesc :=
  l.cols.find? (fun c => decide (c.role = role) && decide (c.plane = plane))

/-- The value of column `c` in entry `e` (R286). -/
def PtrList.value (l : PtrList) (e c : Nat) : Nat := ((l.entries.getD e []).getD c 0).toNat

/-- SEQ_ID of an entry (R286). -/
def PtrList.seqId (l : PtrList) (e : Nat) : Option (BitVec 20) :=
  (l.colOf roleSeq 0).map (fun c => BitVec.ofNat 20 (l.value e c))

/-- Bytes per element of a plane (R92, R97, R284): in halves of a byte. -/
def halfBytes (c : ColDesc) : Nat :=
  if c.plane = 1 then 2 else if c.plane = 2 then 8 else
  match fmtOf c.fmt with
  | some f => fmtBits f / 4
  | none => 2

/-- Byte range of elements [c0, c1) of row `r` of an entry whose address is `a`. -/
def rowRange (d : ColDesc) (a r c0 c1 : Nat) : Nat × Nat :=
  (a + r * d.rowStride + c0 * halfBytes d / 2, a + r * d.rowStride + (c1 * halfBytes d + 1) / 2)

/-- Two half-open ranges meet. -/
def meets (a b : Nat × Nat) : Bool := decide (a.1 < b.2) && decide (b.1 < a.2)

/-! ### Tables -/

/-- Bytes of a table the Caller reads; none where the read stops. -/
def State.table (s : State) (p va n : Nat) : Option (List Byte) :=
  match s.readVa p va n with
  | .ok bs => some bs
  | _ => none

/-- A length-table entry (R166). -/
structure LenEntry where
  qLen   : Nat
  kvLen  : Nat
  posBase : Nat
  mapSel : Nat
  deriving DecidableEq, Repr

def State.lenEntry (s : State) (p lenBase e : Nat) : Option LenEntry :=
  (s.table p (lenBase + 16 * e) 16).map (fun bs =>
    let w := ofLe bs
    ⟨fld w 0 32, fld w 32 32, fld w 64 32, fld w 96 32⟩)

/-- A shape-record entry M, N, K (R278). -/
def State.shapeEntry (s : State) (p base e : Nat) : Option (Nat × Nat × Nat) :=
  (s.table p (base + 16 * e) 16).map (fun bs =>
    let w := ofLe bs
    (fld w 0 32, fld w 32 32, fld w 64 32))

/-! ### Descriptors -/

/-- The slot and generation of a SEQ_ID (R226). -/
def seqSlot (i : BitVec 20) : Nat := fld i.toNat 0 16
def seqGen (i : BitVec 20) : BitVec 4 := BitVec.ofNat 4 (fld i.toNat 16 4)

/-- A SEQ_ID names a live descriptor of partition `p` (R226). -/
def State.seqLive (s : State) (p : Nat) (i : BitVec 20) : Bool :=
  let d := s.seq (seqSlot i)
  decide (d.state ≠ .free) && decide (d.gen = seqGen i) && decide (d.part = p)

/-! ### Dense shapes -/

/-- M and N of a SHAPE code (R276). -/
def shapeM (c : Nat) : Nat := if c < 4 then 128 else 256
def shapeN (c : Nat) : Nat := 128 * (c % 4 + 1)

/-- SPM bytes per element of an operand, in 32nds (R279). -/
def operand32 (fmt : Nat) : Nat :=
  match fmtOf fmt with
  | some f =>
    match f with
    | .fp16 => 68
    | .bf16 => 68
    | .fp32 => 100
    | f => fmtBits f * 4 + (if fmtIsBlock f then 1 else 0)
  | none => 32

/-- Bytes of an element of C. -/
def cBytes (fmt : Nat) : Nat :=
  match fmtOf fmt with
  | some f => fmtBits f / 8
  | none => 1

/-- SPM rows of the resident regions a partition's Choreography declares (R279). -/
def residentBytes (rs : List Region) : Nat := 512 * (rs.map (·.rows)).sum

/-- The retained band of a BAND producer (R300). -/
def bandBytes (d : DenseParams) (l : PtrList) (c : Nat) : Nat :=
  if d.fuseRole = 1 ∧ d.fuseKind then
    match l.cols.find? (fun x => decide (x.kind = 2) && x.out) with
    | some x => shapeM c * x.padCols * halfBytes x / 2
    | none => 0
  else 0

/-- The SPM footprint of a shape (R279). -/
def footprint (d : DenseParams) (l : PtrList) (c : Nat) : Nat :=
  2 * d.kc * (shapeM c * operand32 d.aFmt + shapeN c * operand32 d.bFmt) / 32 + 2 * 16384 * cBytes d.cFmt
    + (if d.accIn then 16384 * cBytes d.cFmt else 0) + bandBytes d l c

/-- The SPM budget of a Figure (R279). -/
def Design.budget (d : Design) (rs : List Region) : Nat := d.spmRows * 512 - residentBytes rs

/-- Usable SHAPE codes of a dense Figure, ascending (R279). -/
def usableShapes (g : Design) (rs : List Region) (d : DenseParams) (l : PtrList) : List Nat :=
  (List.range 8).filter (fun c => d.shapeSet.getLsbD c && decide (footprint d l c ≤ g.budget rs))

/-- T(s) (R280). -/
def tiles (c : Nat) (dims : List (Nat × Nat × Nat)) : Nat :=
  (dims.map (fun x => ceilDiv x.1 (shapeM c) * ceilDiv x.2.1 (shapeN c))).sum

/-- The shape the Caller chooses for `h` healthy cores (R280). -/
def chooseShape (us : List Nat) (dims : List (Nat × Nat × Nat)) (h : Nat) : Option Nat :=
  let best (key : Nat → Nat) (l : List Nat) : Option Nat :=
    l.foldl (fun m c =>
      match m with
      | none => some c
      | some b => if key b < key c then some c else m) none
  match best (fun c => shapeM c * shapeN c) (us.filter (fun c => decide (2 * h ≤ tiles c dims))) with
  | some c => some c
  | none => best (fun c => tiles c dims) us

/-- The entries of a dense Figure that produce work, with their dimensions (R282), and those out of range. -/
def denseEntries (d : DenseParams) (dims : List (Nat × Nat × Nat)) : List (Nat × Nat × Nat × Nat) × List Nat :=
  let es := dims.zipIdx.map (fun x => (x.2, x.1))
  let out := es.filter (fun x => decide (d.maxM < x.2.1) || decide (d.maxN < x.2.2.1) || decide (d.maxK < x.2.2.2))
  (es.filter (fun x => !(out.map (·.1)).contains x.1 && decide (x.2.1 ≠ 0) && decide (x.2.2.1 ≠ 0)), out.map (·.1))

/-- Items of a dense Figure in their order (R287). -/
def denseItems (c : Nat) (es : List (Nat × Nat × Nat × Nat)) : List Item :=
  es.flatMap (fun x => (List.range (ceilDiv x.2.1 (shapeM c))).flatMap (fun i =>
    (List.range (ceilDiv x.2.2.1 (shapeN c))).map (fun j => ⟨x.1, i, j⟩)))

/-- Bands of a BAND pair (R299). -/
def bandItems (c : Nat) (es : List (Nat × Nat × Nat × Nat)) : List Item :=
  es.flatMap (fun x => (List.range (ceilDiv x.2.1 (shapeM c))).map (fun i => ⟨x.1, i, 0⟩))

/-! ### What a Figure finds at its start -/

/-- What the Caller finds when it starts a Figure: its items (of the first and of the later phases), bucket runs, the shape, and the
events of entries that produce no work. -/
structure Plan where
  items   : List Item
  later   : List Item
  buckets : List BucketRun
  shape   : Nat
  events  : List (Nat × Nat)
  rowMask : Nat
  deriving DecidableEq, Repr

/-- A plan with nothing to do. -/
def Plan.empty : Plan := ⟨[], [], [], 0, [], 4⟩

/-- All of a list of answers, or none. -/
def allSome {α : Type} (l : List (Option α)) : Option (List α) :=
  l.foldr (fun x acc => match x, acc with | some a, some r => some (a :: r) | _, _ => none) (some [])

/-- The plan of a dense Figure; `kept` is the shape of an earlier attempt (R280), `shapeOfPair` the producer's shape for a BAND
consumer (R299). -/
def State.densePlan (s : State) (p : Nat) (fid : Nat) (d : DenseParams) (l : PtrList) (h : Nat) (kept : Option Nat)
    (pairShape : Option Nat) : Option Plan :=
  match allSome ((List.range l.count).map (s.shapeEntry p d.shapeBase)) with
  | none => none
  | some dims =>
    let (es, bad) := denseEntries d dims
    let us := usableShapes s.cfg (s.part p).residents d l
    let us' := match pairShape with
      | some c => us.filter (fun x => decide (shapeM x = shapeM c))
      | none => us
    match (match kept with | some c => some c | none => chooseShape us' (es.map (·.2)) h) with
    | none => none
    | some c =>
      let is := if d.fuseRole ≠ 0 ∧ d.fuseKind then bandItems c es else denseItems c es
      some { Plan.empty with items := is, shape := c, events := bad.map (fun e => (0x22, payloadOf fid 0 e)) }

/-- The length-table entries of an attention Figure, and those that are out of range (R188). -/
def lenBad (maxQ maxKv : Nat) (x : LenEntry) : Bool :=
  decide (maxQ < x.qLen) || decide (maxKv < x.kvLen) || decide (2 ^ 24 < x.kvLen)

/-- Largest Q_LEN and KV_LEN of a Figure (R161). -/
def maxQ (l : PtrList) : Nat := ((l.desc roleQ 0).map (·.padRows)).getD 0
def maxKv (a : AttnParams) (l : PtrList) : Nat :=
  if (l.colOf roleSeq 0).isSome then a.maxKvLen
  else ((l.cols.find? (fun c => decide (c.role = roleK) && decide (c.plane = 0) && decide (c.kind ≠ 2))).map (·.padRows)).getD 0

/-- KV_WALK_ERROR's payload (R505). -/
def walkError (fid cause lst : Nat) (sid : BitVec 20) (tok : Nat) : Nat :=
  payloadOf fid cause (lst % 2 ^ 32 + sid.toNat * 2 ^ 32 + tok % 2 ^ 32 * 2 ^ 64)

/-- DECODE_SHAPE's payload (R505). -/
def decodeShape (fid lst : Nat) (sid : BitVec 20) : Nat := payloadOf fid 0 (lst % 2 ^ 32 + sid.toNat * 2 ^ 32)

/-- The run of consecutive GQA groups with the SEQ_ID of group `j` (R684): its first group and its length. -/
def seqRun (l : PtrList) (group j : Nat) : Nat × Nat :=
  let sid (k : Nat) := l.seqId (k * group)
  let n := l.count / group
  let before := ((List.range j).reverse.takeWhile (fun k => decide (sid k = sid j))).length
  let after := (((List.range n).drop j).takeWhile (fun k => decide (sid k = sid j))).length
  (j - before, before + after)

/-- What group `j` of a forward attention Figure with paged K and V reports, if it produces no work (R684). -/
def State.groupFault (s : State) (p fid : Nat) (a : AttnParams) (l : PtrList) (j : Nat) : Option (Nat × Nat) :=
  match l.seqId (j * a.group) with
  | none => none
  | some sid =>
    let d := s.seq (seqSlot sid)
    if !s.seqLive p sid then some (0x30, walkError fid 0 (j * a.group) sid 0)
    else if (seqRun l a.group j).2 ≠ d.kvHeads ∨ d.headDim ≠ a.headDim ∨ d.kFmt ≠ a.kFmt ∨ d.vFmt ≠ a.vFmt ∨ d.layers ≤ a.layer then
      some (0x23, decodeShape fid (j * a.group) sid)
    else none

/-- ATTN_LENGTH events of the entries of a list. -/
def lengthEvents (fid : Nat) (es : List Nat) : List (Nat × Nat) := es.map (fun e => (0x21, payloadOf fid 0 e))

/-- The plan of a forward attention Figure: items (group, query tile) (R169, R189). -/
def State.forwardPlan (s : State) (p fid : Nat) (a : AttnParams) (l : PtrList) : Option Plan :=
  match allSome ((List.range l.count).map (s.lenEntry p a.lenBase)) with
  | none => none
  | some ls =>
    let bad := (List.range l.count).filter (fun e =>
      match ls[e]? with | some x => lenBad (maxQ l) (maxKv a l) x | none => true)
    let groups := List.range (l.count / a.group)
    let faults := groups.filterMap (fun j => (s.groupFault p fid a l j).map (fun ev => (j, ev)))
    let qOf (j : Nat) : Nat :=
      ((List.range a.group).map (fun h =>
        let e := j * a.group + h
        if bad.contains e then 0 else match ls[e]? with | some x => x.qLen | none => 0)).foldl max 0
    let ok := groups.filter (fun j => !(faults.map (·.1)).contains j)
    some { Plan.empty with
      items := ok.flatMap (fun j => (List.range (ceilDiv (qOf j) 128)).map (fun t => ⟨j, t, 0⟩))
      events := lengthEvents fid bad ++ faults.map (·.2) }

/-- The plan of a backward Figure: phase 0 items (entry, query tile); then phase 1 items (group, key tile) and phase 2 items (entry,
query tile) (R193, R202). -/
def State.backwardPlan (s : State) (p fid : Nat) (a : AttnParams) (l : PtrList) : Option Plan :=
  match allSome ((List.range l.count).map (s.lenEntry p a.lenBase)) with
  | none => none
  | some ls =>
    let bad := (List.range l.count).filter (fun e =>
      match ls[e]? with | some x => lenBad (maxQ l) (maxKv a l) x | none => true)
    let good := (List.range l.count).filter (fun e => !bad.contains e)
    let q (e : Nat) : Nat := match ls[e]? with | some x => x.qLen | none => 0
    let k (e : Nat) : Nat := match ls[e]? with | some x => x.kvLen | none => 0
    let p0 := good.flatMap (fun e => (List.range (ceilDiv (q e) 128)).map (fun t => (⟨e, t, 0⟩ : Item)))
    let p1 := (List.range (l.count / a.group)).flatMap (fun j =>
      let kmax := ((good.filter (fun e => decide (e / a.group = j))).map k).foldl max 0
      (List.range (ceilDiv kmax 128)).map (fun u => (⟨j, u, 1⟩ : Item)))
    some { Plan.empty with items := p0, later := p1 ++ p0.map (fun i => { i with b := 2 }), events := lengthEvents fid bad }

/-- Chunk `c` of a decode entry keeps a key for some real query row (R260). -/
def chunkKept (x : DecExt) (e : LenEntry) (c : Nat) : Bool :=
  let sz := 2 ^ x.chunkLog2
  (List.range e.qLen).any (fun j =>
    let lo := max (c * sz) (if x.window = 0 then 0 else e.posBase + j + 1 - x.window)
    let hi := min (min ((c + 1) * sz) e.kvLen) (if x.causal then e.posBase + j + 1 else e.kvLen)
    decide (lo < hi))

/-- The chunks of a decode entry (R260, R261). -/
def chunksOf (x : DecExt) (e : LenEntry) : List Nat :=
  let cs := (List.range (ceilDiv e.kvLen (2 ^ x.chunkLog2))).filter (chunkKept x e)
  if x.self && cs.isEmpty then [0] else cs

/-- The largest number of KV heads of a decode entry (R257). -/
def hKv (a : AttnParams) (x : DecExt) (l : PtrList) : Nat :=
  match l.desc roleQ 0 with
  | some c => c.padRows * c.padCols / (x.qrows * a.group * a.headDim)
  | none => 0

/-- What entry `e` of a decode Figure is (R263): its KV heads and length entry when it produces work, or what it reports. -/
def State.decodeEntry (s : State) (p fid : Nat) (a : AttnParams) (x : DecExt) (l : PtrList) (e : Nat) (le : LenEntry) :
    Option (Nat × LenEntry) × List (Nat × Nat) :=
  if le.qLen = 0 then (none, []) else
  match l.seqId e with
  | none => (none, [])
  | some sid =>
    let d := s.seq (seqSlot sid)
    if !s.seqLive p sid then (none, [(0x30, walkError fid 0 e sid 0)])
    else if x.qrows < le.qLen ∨ a.maxKvLen < le.kvLen ∨ (x.self = true ∧ le.kvLen ≠ le.posBase) then
      (none, lengthEvents fid [e])
    else if d.headDim ≠ a.headDim ∨ d.kFmt ≠ a.kFmt ∨ d.vFmt ≠ a.vFmt ∨ d.layers ≤ x.layer ∨ hKv a x l < d.kvHeads then
      (none, [(0x23, decodeShape fid e sid)])
    else (some (d.kvHeads, le), [])

/-- ⌈log₂ n⌉, 0 for n ≤ 1. -/
def log2Up (n : Nat) : Nat := if n ≤ 1 then 0 else Nat.log2 (n - 1) + 1

/-- The plan of a decode Figure (R260 to R265, R272): sweep items (entry, KV head, chunk) by chunk, entry and head; merge items of the
entries with no or several chunks; buckets in bucket mode. -/
def State.decodePlan (s : State) (p fid : Nat) (a : AttnParams) (x : DecExt) (l : PtrList) : Option Plan :=
  match allSome ((List.range l.count).map (s.lenEntry p a.lenBase)) with
  | none => none
  | some ls =>
    let es := ls.zipIdx.map (fun y => (y.2, s.decodeEntry p fid a x l y.2 y.1))
    let work := es.filterMap (fun y => y.2.1.map (fun w => (y.1, w.1, chunksOf x w.2)))
    let sweep (ws : List (Nat × Nat × List Nat)) : List Item :=
      let top := (ws.map (fun w => w.2.2.foldl (fun m c => max m (c + 1)) 0)).foldl max 0
      (List.range top).flatMap (fun c => ws.flatMap (fun w =>
        if w.2.2.contains c then (List.range w.2.1).map (fun h => (⟨w.1, h, c⟩ : Item)) else []))
    let merge (ws : List (Nat × Nat × List Nat)) : List Item :=
      (ws.filter (fun w => decide (w.2.2.length ≠ 1))).flatMap (fun w => (List.range w.2.1).map (fun h => (⟨w.1, h, 0⟩ : Item)))
    let bucket (b : Nat) := work.filter (fun w => decide (log2Up w.2.2.length = b))
    let bs := (List.range 18).filterMap (fun b =>
      if (bucket b).isEmpty then none else some (⟨b, (bucket b).length, (sweep (bucket b)).length, sweep (bucket b) ++ merge (bucket b)⟩ : BucketRun))
    some { Plan.empty with
      items := sweep work, later := merge work, buckets := if x.bucket then bs else []
      events := es.flatMap (fun y => y.2.2), rowMask := ceilDiv (a.group * x.qrows) 32 }

/-- The rows and columns of what an ATTN_MERGE Figure writes: O, or PO where the state stays partial (R269). -/
def mergeTarget (a : AttnParams) (l : PtrList) : Option ColDesc :=
  l.cols.find? (fun c => c.out && decide (c.plane = 0) && decide (c.role = if a.partialOut then rolePo else roleO))

/-- Items of a Figure whose rows are worked in tiles of 128 (log 32). -/
def rowTiles (l : PtrList) (d : Option ColDesc) : List Item :=
  let rows := (d.map (·.padRows)).getD 0
  (List.range l.count).flatMap (fun e => (List.range (ceilDiv rows 128)).map (fun t => ⟨e, t, 0⟩))

/-- The plan of a Figure at its start; none while a table it reads cannot be read. -/
def State.plan (s : State) (p : Nat) (f : Figure) (h : Nat) (kept pairShape : Option Nat) : Option Plan :=
  match f.par, f.list with
  | .dense d, some l => s.densePlan p f.hdr.figId d l h kept pairShape
  | .attn a, some l => s.forwardPlan p f.hdr.figId a l
  | .backward a _, some l => s.backwardPlan p f.hdr.figId a l
  | .decode a x, some l => s.decodePlan p f.hdr.figId a x l
  | .merge a, some l => some { Plan.empty with items := rowTiles l (mergeTarget a l) }
  | .optimiser _, some l => some { Plan.empty with items := rowTiles l (l.desc roleTheta 0) }
  | _, _ => some Plan.empty

/-- Claim Counters a Figure uses (R289, log 32). -/
def clmsOf (f : Figure) : Nat :=
  match f.par with
  | .dense d => if d.fuseRole = 2 then 0 else 1
  | .attn _ => 1
  | .merge _ => 1
  | .backward _ _ => 2
  | .decode _ x => if x.bucket then 0 else 2
  | .optimiser _ => 1
  | _ => 0

/-! ### When a Figure may start -/

/-- The vote that governs a COND_VOTE Figure (R219). -/
def governing (c : Chor) (f : FigRec) : Option Vote :=
  (c.votes.filter (fun v => decide (v.vd ≤ f.start))).foldl (fun m v =>
    match m with
    | none => some v
    | some x => if x.vd < v.vd then some v else m) none

/-- VOTE_CLEAR of a latched vote (R218): result bits OVF, UNF, INX, INV from bit 0; MASK bits INX, UNF, OVF, INV. -/
def Vote.clear (v : Vote) : Bool :=
  match v.result with
  | some (r, _) =>
    let x := (b2n (r.getLsbD 2) + 2 * b2n (r.getLsbD 1) + 4 * b2n (r.getLsbD 0) + 8 * b2n (r.getLsbD 3))
    decide (x &&& v.mask.toNat = 0)
  | none => false

/-- Core masks of two Figures overlap (R56). -/
def masksMeet (a b : BitVec 64) : Bool := decide (a = 0) || decide (b = 0) || decide (a &&& b ≠ 0)

/-- The fused partner's FIG_ID of a Figure, with its role (R298). -/
def fuseOf (f : Figure) : Option (Nat × Nat) :=
  match f.par with
  | .dense d => if d.fuseRole = 0 then none else some (d.fuseRole, d.fuseFig)
  | _ => none

/-- Two Figures are a fused pair. -/
def fusedPair (a b : Figure) : Bool :=
  (match fuseOf b with
    | some (2, i) => decide (i = a.hdr.figId)
    | _ => false)

/-- The length table of a Figure, if it has one. -/
def lenBaseOf (f : Figure) : Option Nat :=
  match f.par with
  | .attn a => some a.lenBase
  | .backward a _ => some a.lenBase
  | .decode a _ => some a.lenBase
  | _ => none

/-- Rows of equal width at a stride in the VA space. -/
structure Ext where
  base   : Nat
  stride : Nat
  width  : Nat
  rows   : Nat
  deriving DecidableEq, Repr

/-- One run of bytes. -/
def Ext.run (a n : Nat) : Ext := ⟨a, 0, n, 1⟩

/-- The bytes from the first to the end of the last row. -/
def Ext.span (x : Ext) : Nat × Nat := if x.rows = 0 then (x.base, x.base) else (x.base, x.base + (x.rows - 1) * x.stride + x.width)

/-- Some row of `x` meets [a, b): the last row that begins below b does, or none. -/
def Ext.meetsRun (x : Ext) (a b : Nat) : Bool :=
  decide (a < b) && decide (0 < x.rows) && decide (0 < x.width) && decide (x.base < b) &&
    decide (a < x.base + min (x.rows - 1) (if x.stride = 0 then 0 else (b - 1 - x.base) / x.stride) * x.stride + x.width)

/-- Two row sets share a byte. -/
def Ext.meets (x y : Ext) : Bool :=
  Sys2Proof.Machine.meets x.span y.span && (List.range x.rows).any (fun r => y.meetsRun (x.base + r * x.stride) (x.base + r * x.stride + x.width))

/-- Two lists of row sets share a byte. -/
def extsMeet (a b : List Ext) : Bool := a.any (fun x => b.any x.meets)

/-- GROUP of an attention Figure outside decode (R189). -/
def groupOf (f : Figure) : Nat :=
  match f.par with
  | .attn a => max 1 a.group
  | .backward a _ => max 1 a.group
  | _ => 1

/-- The extents of the columns that `want` picks, in memory or in local landing buffers (R208, R286): K, V, DK and DV stand in the first
entry of each group only (R189). -/
def State.colExts (s : State) (f : Figure) (want : ColDesc → Bool) : List Ext :=
  match f.list with
  | none => []
  | some l =>
    (l.cols.zipIdx.filter (fun c => want c.1 && decide (c.1.kind ≤ 1) && decide (c.1.role ≠ roleSeq))).flatMap (fun c =>
      let once := c.1.role == roleK || c.1.role == roleV || c.1.role == roleDk || c.1.role == roleDv
      ((List.range l.count).filter (fun e => !once || e % groupOf f == 0)).map (fun e =>
        let v := l.value e c.2
        let a := if c.1.kind = 0 then v else (s.landBuf (fld v 0 12)).base + fld v 16 32
        let w := if c.1.role = rolePst then 16 * c.1.padCols else (c.1.padCols * halfBytes c.1 + 1) / 2
        ⟨a, c.1.rowStride, w, c.1.padRows⟩))

/-- Columns the Figure only reads, those it writes, and the written ones it reads in place (ACC_IN, the optimiser's). -/
def State.readExts (s : State) (f : Figure) : List Ext := s.colExts f (fun c => !c.out)
def State.writeExts (s : State) (f : Figure) : List Ext := s.colExts f (·.out)
def State.placeExts (s : State) (f : Figure) : List Ext :=
  match f.par with
  | .dense d => if d.accIn then s.colExts f (fun c => c.out && c.role == roleC) else []
  | .optimiser _ => s.writeExts f
  | _ => []

/-- The tables a Figure reads through its parameters (R166 to R168, R278). -/
def tableExts (f : Figure) : List Ext :=
  let n := match f.list with | some l => l.count | none => 0
  let attn (a : AttnParams) : List Ext :=
    [Ext.run a.lenBase (16 * n)] ++ (if a.scaleBase = 0 then [] else [Ext.run a.scaleBase (4 * n)])
      ++ (if a.maskMode then
            let blocks := a.mapPlanes * a.mapRows * a.mapCols4 * 4
            [Ext.run a.mapBase (blocks / 4), Ext.run a.ptrBase (4 * blocks), Ext.run a.poolBase (2048 * a.poolCount)]
          else [])
  match f.par with
  | .dense d => [Ext.run d.shapeBase (16 * n)]
  | .attn a => attn a
  | .backward a _ => attn a
  | .decode a _ => attn a
  | _ => []

/-- A Figure whose input is a latched vote: a COND_VOTE Figure (R219), a SCALE_STEP (R221). -/
def Figure.awaitsVote (f : Figure) : Bool := f.hdr.condVote || (match f.par with | .scaleStep _ => true | _ => false)

/-- A Figure that recomputes from what earlier Figures wrote (R210, R211): a backward Figure; the rules name no other, and do not say that
there is none (DESIGN CHOICE, log 91). -/
def Figure.recomputes (f : Figure) : Bool := match f.par with | .backward _ _ => true | _ => false

/-- Figure `w` wrote bytes that Figure `r` recomputes from and `f` writes (R210). -/
def State.checkpoint (s : State) (w r f : Figure) : Bool :=
  r.recomputes && (s.writeExts f).any (fun a =>
    (s.readExts r).any (fun b => a.meets b && (s.writeExts w).any (fun d => a.meets d && b.meets d)))

/-- A pending quiet-point change, which holds back Figure starts (R248). -/
def Wait.atQuiet (w : Wait) : Bool :=
  match w with
  | .trim _ _ => true
  | .close _ => true
  | .jobEnd _ _ _ => true
  | _ => false

/-- An eviction of partition `p` waits for its switch (R253). -/
def State.switchDue (s : State) (p : Nat) : Bool :=
  s.seqs.any (fun x => decide (x.2.part = p) && decide (x.2.state = .evicting) && x.2.copied)

/-- Pending SEQ_RESERVE commands of a partition name a length table (R244). -/
def State.tableBusy (s : State) (p va : Nat) : Bool :=
  (s.part p).waiting.any (fun w =>
    match w.what, (s.ring w.ring).find w.seq with
    | .reserve _ _ _, some o => [arg o.image 0x28 0 52, arg o.image 0x30 0 52, arg o.image 0x38 0 52].contains va && decide (va ≠ 0)
    | _, _ => false)

/-- Every input of the Figure at place `i` is valid (R57): deliveries (R431), the governing vote (R219, R221), length tables (R244), what
an earlier Figure writes of its columns and tables (R171, R278) once that Figure has completed, and checkpoints once their readers have
(R210). -/
def State.inputsValid (s : State) (p : Nat) (c : Chor) (r : Run) (i : Nat) (f : Figure) : Bool :=
  (c.bindings.filter (fun b => decide (b.consumer = f.hdr.figId))).all (fun b => decide (b.landed = b.bytes) || b.gotNull)
    && (!f.awaitsVote || match governing c f.hdr with
        | some v => v.latched
        | none => false)
    && (match lenBaseOf f with
        | some va => !s.tableBusy p va
        | none => true)
    && (c.figures.zipIdx.all (fun x =>
        !decide (x.2 < i) || r.completed.contains x.2
          || ((fusedPair x.1 f || !extsMeet (s.writeExts x.1) (s.readExts f ++ s.placeExts f ++ tableExts f))
            && !c.figures.zipIdx.any (fun y => decide (y.2 < x.2) && s.checkpoint y.1 x.1 f))))

/-- Earlier Figures whose core mask overlaps have completed, a fused producer apart (R57, R299). -/
def earlierDone (c : Chor) (r : Run) (i : Nat) (f : Figure) : Bool :=
  c.figures.zipIdx.all (fun x =>
    !decide (x.2 < i) || r.completed.contains x.2 || !masksMeet x.1.hdr.coreMask f.hdr.coreMask || fusedPair x.1 f)

/-! ### Outputs of items and transfers -/

/-- The output elements of an item: entry, rows and columns (R276, R287, R189); none when the kind writes them in several phases. -/
def itemBox (f : Figure) (shape : Nat) (i : Item) : Option (List (Nat × Nat × Nat × Nat × Nat)) :=
  match f.par with
  | .dense d =>
    if d.fuseRole ≠ 0 ∧ d.fuseKind then some [(i.entry, shapeM shape * i.a, shapeM shape * (i.a + 1), 0, 2 ^ 32)]
    else some [(i.entry, shapeM shape * i.a, shapeM shape * (i.a + 1), shapeN shape * i.b, shapeN shape * (i.b + 1))]
  | .attn a => some ((List.range a.group).map (fun h => (i.entry * a.group + h, 128 * i.a, 128 * (i.a + 1), 0, 2 ^ 32)))
  | .optimiser _ => some [(i.entry, 128 * i.a, 128 * (i.a + 1), 0, 2 ^ 32)]
  | _ => none

/-- An item's output extent in memory overlaps a range (R428). -/
def itemMeets (f : Figure) (shape : Nat) (i : Item) (rng : Nat × Nat) : Bool :=
  match itemBox f shape i, f.list with
  | some bs, some l =>
    l.cols.zipIdx.any (fun c => c.1.out && decide (c.1.kind = 0) && bs.any (fun b =>
      (List.range (min b.2.2.1 c.1.padRows - b.2.1)).any (fun r =>
        meets (rowRange c.1 (l.value b.1 c.2) (b.2.1 + r) b.2.2.2.1 (min b.2.2.2.2 c.1.padCols)) rng)))
  | _, _ => true

/-- The source of a transfer is valid (R428). -/
def State.sourceValid (s : State) (p : Nat) (x : Xfer) : Bool :=
  match (s.part p).chor, (s.part p).run with
  | some c, some r =>
    match c.place x.srcFig with
    | none => false
    | some i =>
      r.completed.contains i ||
        match r.active.find? (fun a => decide (a.fig = i)), c.figures[i]? with
        | some a, some f =>
          if x.srcLb || decide (a.total ≤ a.retired) then decide (a.total ≤ a.retired)
          else
            a.items.zipIdx.all (fun y => a.committed.contains (0, y.2)
              || ((itemBox f a.shape y.1).isSome && !itemMeets f a.shape y.1 (x.src, x.src + x.bytes)))
        | _, _ => false
  | _, _ => false

/-- Units a transfer takes (R434). -/
def xferUnits (x : Xfer) : Nat := ceilDiv x.bytes 512

/-- Nodes whose credit counts a transfer takes from (R434): its destination, or every node that has granted credits in the landing
buffer of a multicast transfer (log 33). -/
def State.xferNodes (s : State) (p : Nat) (x : Xfer) : List Nat :=
  if x.mc then ((s.part p).plane.credits.filter (fun k => decide (k.1 % 4096 = x.lb))).map (fun k => k.1 / 4096)
  else [x.dest]

/-- The credit count for a node and landing buffer (R433). -/
def Plane.credit (pl : Plane) (node lb : Nat) : Nat := (kget none pl.credits (4096 * node + lb)).getD 0

/-- Credits for a transfer are held (R434). -/
def State.creditsHeld (s : State) (p : Nat) (x : Xfer) : Bool :=
  (s.xferNodes p x).all (fun n => decide (xferUnits x ≤ (s.part p).plane.credit n x.lb))

/-- A transfer whose issue beat has come and whose source is valid waits for credits (R434). -/
def State.waitsCredit (s : State) (p : Nat) (x : Xfer) : Bool :=
  !x.issued && (match s.iterBeat p with | some b => decide (x.issue ≤ b) | none => false)
    && s.sourceValid p x && !s.creditsHeld p x

end Sys2Proof.Machine
end

