-- ==== Sys2Proof/Machine/VuMath.lean ====
section
/-! DEFINITION. Arithmetic of the VU and SFU: add, multiply, FMA, divide, square root, reciprocal, exp2 and log₂ in fast and strict
mode (R118 to R123). -/

namespace Sys2Proof.Machine

/-! ### Correctly rounded results -/

/-- A magnitude of more than 24 significant bits with a sticky part: `m` × 2^`e`, or slightly above it when `st`. -/
structure Mag where
  m  : Nat
  e  : Int
  st : Bool
  deriving DecidableEq, Repr

/-- `a` / `b` to at least 80 significant bits. -/
def magDiv (a : Nat) (ea : Int) (b : Nat) (eb : Int) : Mag :=
  let k := 80 + Nat.log2 b
  ⟨a * 2 ^ k / b, ea - eb - k, decide (a * 2 ^ k % b ≠ 0)⟩

/-- Integer square root, deciding one bit at a time from bit `b` down. -/
def isqrtFrom (n b acc : Nat) : Nat :=
  match b with
  | 0 => if (acc + 1) * (acc + 1) ≤ n then acc + 1 else acc
  | k + 1 => isqrtFrom n k (if (acc + 2 ^ (k + 1)) * (acc + 2 ^ (k + 1)) ≤ n then acc + 2 ^ (k + 1) else acc)

/-- ⌊√n⌋. -/
def isqrt (n : Nat) : Nat := isqrtFrom n (Nat.log2 n / 2) 0

/-- The square root of `m` × 2^`e` to at least 60 significant bits. -/
def magSqrt (m : Nat) (e : Int) : Mag :=
  let k : Int := if (e - 120) % 2 = 0 then e - 120 else e - 121
  let n := m * 2 ^ (e - k).toNat
  let r := isqrt n
  ⟨r, k / 2, decide (r * r ≠ n)⟩

/-- 2^(p/2^k) × 2^256 for 0 ≤ p < 2^k, multiplying square roots of 2 in 256-bit fixed point: `s` is the current root, `acc` the
product so far. -/
def exp2Loop (k p s acc : Nat) : Nat :=
  match k with
  | 0 => acc
  | j + 1 =>
    if p = 0 then acc
    else
      let s' := isqrt (s * 2 ^ 256)
      if 2 ^ j ≤ p then exp2Loop j (p - 2 ^ j) s' (acc * s' / 2 ^ 256) else exp2Loop j p s' acc

/-- 2^x of a finite x that lies in −200 .. 200, to 256 bits below the leading one (log 27). -/
def magExp2 (x : Num) : Mag :=
  let b := min x.exp 0
  let k := (-b).toNat
  let v := x.intAt b
  let n := v / 2 ^ k
  let p := (v % 2 ^ k).toNat
  if p = 0 then ⟨1, n, false⟩ else ⟨exp2Loop k p (2 * 2 ^ 256) (2 ^ 256), n - 256, true⟩

/-- The first `j` bits of log₂ of y / 2^400 for 1 ≤ y / 2^400 < 2, by repeated squaring. -/
def log2Loop (j y acc : Nat) : Nat :=
  match j with
  | 0 => acc
  | i + 1 =>
    let z := y * y / 2 ^ 400
    if 2 ^ 401 ≤ z then log2Loop i (z / 2) (2 * acc + 1) else log2Loop i z (2 * acc)

/-- log₂ of a positive finite `m` × 2^`e` to 130 bits below the point (log 27): its sign and magnitude. -/
def magLog2 (m : Nat) (e : Int) : Bool × Mag :=
  let E := ilog m e
  if 2 ^ Nat.log2 m = m then (decide (E < 0), ⟨E.natAbs, 0, false⟩)
  else
    let f := log2Loop 130 (m * 2 ^ (400 - Nat.log2 m)) 0
    let t : Int := E * 2 ^ 130 + f
    if t < 0 then (true, ⟨(-t - 1).toNat, -130, true⟩) else (false, ⟨t.toNat, -130, true⟩)

/-! ### Exact results of the operations -/

/-- What an operation's exact result is before its one rounding: a special value with its flags, or a signed magnitude. -/
inductive Exact where
  | special (v : Num) (fl : Flags)
  | mag (neg : Bool) (x : Mag)
  deriving DecidableEq, Repr

/-- A finite value as an exact result. -/
def Exact.ofNum (v : Num) : Exact :=
  match v with
  | .fin s m e => .mag s ⟨m, e, false⟩
  | v => .special v Flags.none

/-- x + y (R99, R113); an exact zero of opposite operands is +0, or −0 toward −∞. -/
def exactAdd (rnd : Rnd) (x y : Num) : Exact :=
  match x, y with
  | .nan, _ => .special .nan Flags.none
  | _, .nan => .special .nan Flags.none
  | .inf a, .inf b => if a = b then .special (.inf a) Flags.none else .special .nan flInv
  | .inf a, _ => .special (.inf a) Flags.none
  | _, .inf b => .special (.inf b) Flags.none
  | .fin s m e, .fin s' m' e' =>
    let b := min e e'
    let t := (Num.fin s m e).intAt b + (Num.fin s' m' e').intAt b
    if t = 0 then
      if m = 0 ∧ m' = 0 ∧ s = s' then .mag s ⟨0, 0, false⟩ else .mag (decide (rnd = .rdn)) ⟨0, 0, false⟩
    else .mag (decide (t < 0)) ⟨t.natAbs, b, false⟩

/-- x × y (R113). -/
def exactMul (x y : Num) : Exact :=
  match x, y with
  | .nan, _ => .special .nan Flags.none
  | _, .nan => .special .nan Flags.none
  | .fin s m e, .fin s' m' e' => .mag (s != s') ⟨m * m', e + e', false⟩
  | a, b => if a.isZero || b.isZero then .special .nan flInv else .special (.inf (a.sign != b.sign)) Flags.none

/-- An exact product as a value. -/
def Exact.num (x : Exact) : Num :=
  match x with
  | .special v _ => v
  | .mag s m => .fin s m.m m.e

/-- x × y + z with a NaN operand first (R99, R118). -/
def exactFma (rnd : Rnd) (x y z : Num) : Exact :=
  if x.isNan || y.isNan || z.isNan then .special .nan Flags.none
  else
    match exactMul x y with
    | .special .nan fl => .special .nan fl
    | p => exactAdd rnd p.num z

/-- x / y (R113). -/
def exactDiv (x y : Num) : Exact :=
  match x, y with
  | .nan, _ => .special .nan Flags.none
  | _, .nan => .special .nan Flags.none
  | .inf _, .inf _ => .special .nan flInv
  | .inf a, y => .special (.inf (a != y.sign)) Flags.none
  | x, .inf b => .special (.fin (x.sign != b) 0 0) Flags.none
  | .fin s m e, .fin s' m' e' =>
    if m' = 0 then
      if m = 0 then .special .nan flInv else .special (.inf (s != s')) flInv
    else .mag (s != s') (magDiv m e m' e')

/-- √x (R113). -/
def exactSqrt (x : Num) : Exact :=
  match x with
  | .nan => .special .nan Flags.none
  | .inf s => if s then .special .nan flInv else .special (.inf false) Flags.none
  | .fin s m e =>
    if m = 0 then .mag s ⟨0, 0, false⟩
    else if s then .special .nan flInv
    else .mag false (magSqrt m e)

/-- 2^x. Beyond ±200 the result overflows or underflows every operand format as 2^±200 does. -/
def exactExp2 (x : Num) : Exact :=
  match x with
  | .nan => .special .nan Flags.none
  | .inf s => .special (if s then Num.zero else .inf false) Flags.none
  | .fin s m e =>
    if m = 0 then .mag false ⟨1, 0, false⟩
    else if magLe 200 0 m e then .mag false ⟨1, if s then -200 else 200, true⟩
    else .mag false (magExp2 x)

/-- log₂ x (R113, R122). -/
def exactLog2 (x : Num) : Exact :=
  match x with
  | .nan => .special .nan Flags.none
  | .inf s => if s then .special .nan flInv else .special (.inf false) Flags.none
  | .fin s m e =>
    if m = 0 then .special (.inf true) flInv
    else if s then .special .nan flInv
    else
      let (n, g) := magLog2 m e
      .mag n g

/-- Round an exact result to a floating format. -/
def Exact.roundTo (f : FloatFmt) (ov : Over) (rnd : Rnd) (x : Exact) : Num × Flags :=
  match x with
  | .special v fl => (v, fl)
  | .mag s g => f.round ov rnd false 0 s g.m g.e g.st

/-! ### Fast mode -/

/-- A finite nonzero value below the format's smallest normal. -/
def FloatFmt.subnormal (f : FloatFmt) (v : Num) : Bool :=
  match v with
  | .fin _ m e => m != 0 && !magLe 1 (1 - f.bias) m e
  | _ => false

/-- A subnormal reads as zero of the same sign (R119). -/
def FloatFmt.flush (f : FloatFmt) (v : Num) : Num := if f.subnormal v then .fin v.sign 0 0 else v

/-- A result that would be subnormal is written as zero, with UNF and INX (R119). -/
def FloatFmt.flushOut (f : FloatFmt) (x : Num × Flags) : Num × Flags :=
  if f.subnormal x.1 then (.fin x.1.sign 0 0, x.2.or flUnfInx) else x

/-- One FP32 step rounded RNE, subnormals kept (R119). -/
def step32 (x : Exact) : Num := (x.roundTo fFP32 .conv .rne).1

def add32 (x y : Num) : Num := step32 (exactAdd .rne x y)
def mul32 (x y : Num) : Num := step32 (exactMul x y)
def fma32 (x y z : Num) : Num := step32 (exactFma .rne x y z)

/-- The FP32 value with a given code. -/
def c32 (c : Nat) : Num := fFP32.decode c

/-- TE[i] = 2^(i/64), TR[j] = 1/(1 + (j + 0.5)/128), RC[i] = 1/(1 + i/64), LT[i] = log₂(1 + i/64), each rounded RNE to FP32
(R119). -/
def tE (i : Nat) : Num := step32 (exactExp2 (.fin false i (-6)))
def tR (j : Nat) : Num := step32 (exactDiv (.fin false 256 0) (.fin false (257 + 2 * j) 0))
def rC (i : Nat) : Num := step32 (exactDiv (.fin false 64 0) (.fin false (64 + i) 0))
def lT (i : Nat) : Num := step32 (exactLog2 (.fin false (64 + i) (-6)))

/-- A finite value times 2^`k`, exactly. -/
def Num.scale (v : Num) (k : Int) : Num :=
  match v with
  | .fin s m e => .fin s m (e + k)
  | v => v

/-- ⌊x⌋ of a finite value. -/
def Num.floor (v : Num) : Int := let b := min v.exp 0; v.intAt b / 2 ^ (-b).toNat

/-- Exact x − n. -/
def Num.subInt (v : Num) (n : Int) : Num := let b := min v.exp 0; Num.ofInt (v.intAt b - n * 2 ^ (-b).toNat) b

/-- exp2_fast (R120). -/
def exp2Fast (x : Num) : Num × Flags :=
  match x with
  | .nan => (.nan, Flags.none)
  | .inf s => (if s then Num.zero else .inf false, Flags.none)
  | .fin _ _ _ =>
    let x := fFP32.flush x
    if 128 ≤ x.floor then (.inf false, flOvfInx)
    else if x.floor < -126 then (Num.zero, flUnfInx)
    else
      let n := x.floor
      let f := x.subInt n
      let i := (f.scale 6).floor
      let g := step32 (.ofNum ((f.scale 6).subInt i |>.scale (-6)))
      let t := fma32 g (c32 0x3D635847) (c32 0x3E75FDF0)
      let t := fma32 g t (c32 0x3F317218)
      let u := mul32 g t
      let y := fma32 (tE i.toNat) u (tE i.toNat)
      let r := (Exact.ofNum (y.scale n)).roundTo fFP32 .conv .rne
      (r.1, ⟨r.2.ovf, false, !f.isZero, false⟩)

/-- The significand of a finite nonzero value in [1, 2), and its exponent. -/
def Num.split (v : Num) : Num × Int :=
  match v with
  | .fin _ m e => (.fin false m (-(Nat.log2 m : Int)), ilog m e)
  | v => (v, 0)

/-- rcp_fast of a finite nonzero normal value, before the flush of R119 (R121). -/
def rcpCore (y : Num) : Num :=
  let (m, e) := y.split
  let j := ((m.scale 7).floor - 128).toNat
  let one : Num := .fin false 1 0
  let a := tR j
  let d := fma32 m.neg a one
  let a := fma32 a d a
  let d := fma32 m.neg a one
  let a := fma32 a d a
  let r := a.scale (-e)
  if y.sign then r.neg else r

/-- Whether a finite `r` differs from a / b, b nonzero. -/
def differsQuot (r a b : Num) : Bool :=
  match exactMul r b, a with
  | .mag s g, .fin s' m e => !(magLe g.m g.e m e && magLe m e g.m g.e && (s == s' || m == 0))
  | _, _ => true

/-- rcp_fast (R121). -/
def rcpFast (y : Num) : Num × Flags :=
  let y := fFP32.flush y
  match y with
  | .nan => (.nan, Flags.none)
  | .inf s => (.fin s 0 0, Flags.none)
  | .fin s m _ =>
    if m = 0 then (.inf s, flInv)
    else
      let r := (Exact.ofNum (rcpCore y)).roundTo fFP32 .conv .rne
      fFP32.flushOut (r.1, ⟨r.2.ovf, false, r.2.ovf || differsQuot r.1 (.fin false 1 0) y, false⟩)

/-- Fast-mode division in FP32: x × rcp_fast(y) rounded once, specials by IEEE 754 (R121). A reciprocal flushed to
zero sets UNF (log 28). -/
def divFast (rnd : Rnd) (x y : Num) : Num × Flags :=
  if x.isFin && y.isFin && !x.isZero && !y.isZero then
    let q := fFP32.flush (rcpCore y)
    let r := (exactMul x q).roundTo fFP32 .conv rnd
    (r.1, { r.2 with unf := r.2.unf || q.isZero, inx := r.2.ovf || differsQuot r.1 x y })
  else (exactDiv x y).roundTo fFP32 .conv rnd

/-- log2_fast (R122). -/
def log2Fast (x : Num) : Num × Flags :=
  let x := fFP32.flush x
  match x with
  | .nan => (.nan, Flags.none)
  | .inf s => if s then (.nan, flInv) else (.inf false, Flags.none)
  | .fin s m _ =>
    if m = 0 then (.inf true, flInv)
    else if s then (.nan, flInv)
    else
      let (g, e) := x.split
      let i := (g.scale 6).floor - 64
      let z := (g.scale 6).subInt (64 + i) |>.scale (-6)
      let w := mul32 z (rC i.toNat)
      let t := fma32 w (c32 0x3EF6384F) (c32 0xBF38AA3B)
      let t := fma32 w t (c32 0x3FB8AA3B)
      let p := mul32 w t
      let h := add32 (Num.ofInt e 0) (lT i.toNat)
      (add32 h p, inxIf (!(2 ^ Nat.log2 m == m)))

/-! ### Operations -/

/-- The exact result of an operation (R118). -/
def exactOp (fn : VuFn) (rnd : Rnd) (a b c : Num) : Exact :=
  match fn with
  | .add => exactAdd rnd a b
  | .mul => exactMul a b
  | .fma => exactFma rnd a b c
  | .div => exactDiv a b
  | .sqrt => exactSqrt a
  | .rcp => exactDiv (.fin false 1 0) a
  | .exp2 => exactExp2 a
  | .log2 => exactLog2 a

/-- A fast-mode operation in FP32, before the flush of its result (R118 to R122). -/
def fast32 (fn : VuFn) (rnd : Rnd) (a b c : Num) : Num × Flags :=
  match fn with
  | .div => divFast rnd a b
  | .rcp => rcpFast a
  | .exp2 => exp2Fast a
  | .log2 => log2Fast a
  | .add => (exactAdd rnd a b).roundTo fFP32 .conv rnd
  | .mul => (exactMul a b).roundTo fFP32 .conv rnd
  | .fma => (exactFma rnd a b c).roundTo fFP32 .conv rnd
  | .sqrt => (exactSqrt a).roundTo fFP32 .conv rnd

/-- A VU or SFU operation in FP32, FP16 or BF16 (R118, R119). -/
def vuOp (fn : VuFn) (f : FloatFmt) (strict : Bool) (rnd : Rnd) (a b c : Num) : Num × Flags :=
  if strict then (exactOp fn rnd a b c).roundTo f .strict rnd
  else
    let r := fast32 fn rnd (f.flush a) (f.flush b) (f.flush c)
    if f = fFP32 then f.flushOut r
    else
      let w := f.flushOut (f.convert .conv rnd false 0 r.1)
      let tiny := r.2.unf && (w.1.isZero || f.subnormal w.1)
      (w.1, { r.2.or w.2 with unf := w.2.unf || tiny })

/-- An FP32 operation under RNE in the given mode, the form the attention pipeline uses. -/
def vu32 (fn : VuFn) (strict : Bool) (a b c : Num) : Num × Flags := vuOp fn fFP32 strict .rne a b c

end Sys2Proof.Machine
end

