-- ==== Sys2Proof/Machine/Programs.lean ====
section
/-! DEFINITION. Tile programs: the steps that the item in work on a core issues, in order (R144, R162 to R191, R198 to R206, R260 to
R269, R686), and the check that an operation is the next of them. Where an operation's rows stand in the Scratchpad is the program's
choice; all else is the Figure's (log 85). -/

namespace Sys2Proof.Machine

/-! ### Operand types -/

/-- What an operand type is to the array (R124): native with its ℓ, block-scaled, or split into pieces. -/
inductive OpType where
  | native (ell : Int)
  | block
  | split (pieces : Nat)
  deriving DecidableEq, Repr

def opType (f : Fmt) : Option OpType :=
  match f with
  | .e4m3 => some (.native (-9))
  | .e5m2 => some (.native (-16))
  | .int8 => some (.native 0)
  | .uint8 => some (.native 0)
  | .int4 => some (.native 0)
  | .uint4 => some (.native 0)
  | .up8 => some (.native (-33))
  | .bs8 => some .block
  | .bs4 => some .block
  | .bf4 => some .block
  | .fp16 => some (.split 2)
  | .bf16 => some (.split 2)
  | .fp32 => some (.split 3)
  | .int32 => none
  | .xs128 => none

def OpType.isNative (t : OpType) : Bool := match t with | .native _ => true | _ => false
def OpType.isSplit (t : OpType) : Bool := match t with | .split _ => true | _ => false

/-- ℓ of a native operand (R124). -/
def ellOf (f : Fmt) : Int := match opType f with | some (.native l) => l | _ => 0

/-- A native 8-bit operand stored N-innermost is read with B_T = 1 (R127, R179, R197). -/
def readsBt (f : Fmt) : Bool := match opType f with | some (.native _) => decide (fmtBits f = 8) | _ => false

/-- The grid an array operation names: none for a native pairing, whose grid is the natural one, else the Figure's field (R134). -/
def gridFor (a b : Fmt) (g : Int) : Option Int :=
  match opType a, opType b with
  | some (.native _), some (.native _) => none
  | _, _ => some g

/-- The grid the bank then has (R134). -/
def gridValue (a b : Fmt) (g : Int) : Int := (gridFor a b g).getD (ellOf a + ellOf b - 16)

/-! ### Parts of steps -/

/-- The format a code names. -/
def fmtAt (c : Nat) : Fmt := (fmtOf c).getD .fp32

/-- A conversion as an operation depends on it: SPIN and SITE matter to a draw alone (R109). -/
def normConv (c : Conv) : Conv := if c.rnd = .sr then c else { c with spin := 0, site := 0 }

/-- Coordinates matter to a draw alone (R111). -/
def placeFor (c : Conv) (x : Coord) : Coord := if c.rnd = .sr then x else ⟨0, 0, 0⟩

def convRne : Conv := ⟨.rne, false, 0, 0⟩
def coord0 : Coord := ⟨0, 0, 0⟩
def fp32One : BitVec 32 := 0x3F800000

/-- Row `i` of a step's block holds real data. -/
def Step.real (t : Step) (i : Nat) : Bool := decide (i < t.rows) && (decide (t.qrows = 0) || decide (i % t.qrows < t.qLen))

/-- Named areas of a program: scores, probabilities, shift amounts, row multipliers, LSE, dP, qᵀ, dS in its two orientations, finished
FP32 rows, output rows, partial O and its row scales, records, the row term, the merged O and its row scales, and from 32 on the XS128
blocks of dV, dK and dQ with their row scales (R203). -/
def arS : Nat := 1
def arP : Nat := 2
def arShift : Nat := 3
def arMul : Nat := 4
def arLse : Nat := 5
def arDp : Nat := 6
def arQ : Nat := 7
def arDs : Nat := 8
def arDsT : Nat := 9
def arOut : Nat := 10
def arFin : Nat := 11
def arPo : Nat := 12
def arPoRs : Nat := 13
def arRec : Nat := 14
def arTerm : Nat := 15
def arMerge : Nat := 16
def arMergeRs : Nat := 17
def arBlock (which cb : Nat) : Nat := 32 + 8 * which + 2 * cb
def rdA (n : Nat) : Nat × Bool := (n, false)
def wrA (n : Nat) : Nat × Bool := (n, true)
def anyA : Nat × Bool := (0, false)

/-- Columns of column block `cb` of a row of `d` elements. -/
def blockCols (d cb : Nat) : Nat := min 128 (d - 128 * cb)

/-- The output format of a drain before the second conversion of the 8-bit formats (R181, R686). -/
def is8 (f : Fmt) : Bool := f == .e4m3 || f == .e5m2

/-- A query tile of an attention item as its steps depend on it: the Figure, LIST, the ROW of its first row, the row pairs, the rows a
drain reads at least, the factor of its scores, and its real rows. -/
structure QTile where
  a      : AttnParams
  e      : Nat
  row0   : Nat
  col0   : Nat
  pair   : PairOp
  nq     : Nat
  factor : BitVec 32
  rows   : Nat
  deriving DecidableEq, Repr

/-- A step of a query tile. -/
def QTile.step (t : QTile) (act : Act) (areas : List (Nat × Bool)) (cols ks : Nat) (as : RowsAs) : Step :=
  ⟨act, areas, t.rows, t.pair.qrows, t.pair.qLen, cols, false, ks, as⟩

/-- A step of a query tile that computes no product. -/
def QTile.plain (t : QTile) (act : Act) (areas : List (Nat × Bool)) : Step := t.step act areas 128 0 .plain

/-- A key tile to visit: its first key, the key index that ends it, and its mask (R169). -/
structure KTile where
  k0   : Nat
  stop : Nat
  mask : MaskOp
  deriving DecidableEq, Repr

/-- Real keys of a key tile. -/
def KTile.keys (k : KTile) : Nat := min 128 (k.stop - k.k0)

/-- The pairs of a query tile and a key tile. -/
def QTile.pairs (t : QTile) (k : KTile) : PairOp := { t.pair with kBase := k.k0, kvLen := k.stop, mask := k.mask }

/-- The format of P as the array reads it (R177, R185). -/
def pArray (strict : Bool) : Fmt := if strict then .fp16 else .up8

/-- The conversion of P (R177). -/
def AttnParams.pConv (a : AttnParams) : Conv := normConv ⟨(rndOf a.pRnd).getD .rne, false, a.spinId, a.pSite⟩

/-- The conversion of O (R181). -/
def AttnParams.oConv (a : AttnParams) : Conv := normConv ⟨(rndOf a.oRnd).getD .rne, a.oSat, a.spinId, a.oSite⟩

/-- Where the P of a key tile draws (R177, R264). -/
def QTile.pAt (t : QTile) (k : KTile) : Coord := placeFor t.a.pConv ⟨t.e, t.row0, k.k0⟩

/-- Scores of a key tile: QKᵀ and its drain (R163, R164). -/
def QTile.scores (t : QTile) (k : KTile) : List Step :=
  let q := fmtAt t.a.qFmt
  let kf := fmtAt t.a.kFmt
  let n := t.a.headDim / 32
  [t.step (.mxa q kf false false false (gridFor q kf t.a.sGrid) n) [anyA, anyA] k.keys n .plain,
   t.plain (.drain false t.nq .fp32 convRne coord0 t.factor false false) [wrA arS, anyA, anyA]]

/-- Column blocks of a head dimension. -/
def colBlocks (d : Nat) : Nat := ceilDiv d 128

/-- The grid field of the O bank (R179). -/
def AttnParams.pvGrid (a : AttnParams) : Option Int :=
  let v := fmtAt a.vFmt
  match opType v with
  | some (.native l) => if a.strict then some (l - 54) else none
  | _ => some a.oGrid

/-- The O bank's grid (R179). -/
def AttnParams.oBankGrid (a : AttnParams) : Int := a.pvGrid.getD (ellOf .up8 + ellOf (fmtAt a.vFmt) - 16)

/-- One sweep of a query tile over its key tiles, for one column block of O (R172 to R180, R191). -/
def QTile.sweep (t : QTile) (ks : List KTile) (cb : Nat) : List Step :=
  let v := fmtAt t.a.vFmt
  t.plain (.resetRows t.a.strict) [] :: ks.zipIdx.flatMap (fun x =>
    let k := x.1
    t.scores k
      ++ [t.plain (.softmax t.a.strict t.a.pConv (t.pAt k) (t.pairs k)) [rdA arS, wrA arP, wrA arShift]]
      ++ (if x.2 = 0 then [] else [t.plain (.shift true) [rdA arShift]])
      ++ [t.step (.mxa (pArray t.a.strict) v (readsBt v) (decide (x.2 ≠ 0)) true t.a.pvGrid 4) [rdA arP, anyA]
            (blockCols t.a.headDim cb) (ceilDiv k.keys 32) .plain])

/-- Finishing the rows and writing one column block of O (R181 to R183). -/
def QTile.finish (t : QTile) (cb : Nat) : List Step :=
  let o := fmtAt t.a.oFmt
  let c := if is8 o then convRne else t.a.oConv
  let x : Coord := ⟨t.e, t.row0, t.col0 + 128 * cb⟩
  [t.plain (.finish t.a.strict t.pair) [wrA arMul, wrA arLse],
   t.step (.drain true t.nq (if is8 o then .fp32 else o) c (placeFor c x) fp32One true false) [wrA arOut, rdA arMul, anyA]
     (blockCols t.a.headDim cb) 0 .finished,
   t.plain (.output o t.a.oConv (placeFor t.a.oConv x) (blockCols t.a.headDim cb) t.pair) [rdA arOut, wrA arFin]]

/-- The partial state of one column block of O; the records follow the last (R184, R191). -/
def QTile.partials (t : QTile) (cb : Nat) : List Step :=
  t.step (.drain true t.nq .xs128 convRne coord0 fp32One false true) [wrA arPo, anyA, wrA arPoRs] (blockCols t.a.headDim cb) 0 .partials
    :: (if cb + 1 = colBlocks t.a.headDim then [t.plain (.records t.pair) [wrA arRec]] else [])

/-- A query tile: one sweep per column block of O, each finished or written as a partial state (R180, R191). -/
def QTile.steps (t : QTile) (ks : List KTile) (part : Bool) : List Step :=
  (List.range (colBlocks t.a.headDim)).flatMap (fun cb => t.sweep ks cb ++ (if part then t.partials cb else t.finish cb))

/-! ### Block maps -/

/-- What the block map says of a block: skip it, and whether that sets INV, or visit it under a mask (R167, R168, R170). A map or table
that cannot be read acts as SKIP and sets INV (log 86). -/
inductive BlockUse where
  | skip (inv : Bool)
  | visit (m : MaskOp)
  deriving DecidableEq, Repr

/-- Block (t, u) of an entry (R167, R168, R170). -/
def State.blockUse (s : State) (p : Nat) (a : AttnParams) (le : LenEntry) (t u : Nat) : BlockUse :=
  if !a.maskMode then .visit .full
  else if a.mapPlanes ≤ le.mapSel ∨ a.mapRows ≤ t ∨ 4 * a.mapCols4 ≤ u then .skip true
  else
    let n := (le.mapSel * a.mapRows + t) * (4 * a.mapCols4) + u
    match s.table p (a.mapBase % 2 ^ 52 + n / 4) 1 with
    | none => .skip true
    | some bs =>
      match fld (ofLe bs) (2 * (n % 4)) 2 with
      | 0 => .skip false
      | 1 => .visit .full
      | 2 =>
        (match s.table p (a.ptrBase % 2 ^ 52 + 4 * n) 4 with
         | none => .skip true
         | some w =>
           if ofLe w < a.poolCount ∧ (s.table p (a.poolBase % 2 ^ 52 + 2048 * ofLe w) 2048).isSome then .visit (.bitmap (ofLe w)) else .skip true)
      | _ => .skip true

/-- The key tiles of a query tile that are visited, ascending, and whether INV is set (R169, R170). -/
def State.visited (s : State) (p : Nat) (a : AttnParams) (le : LenEntry) (t : Nat) : List KTile × Bool :=
  let us := (List.range (ceilDiv le.kvLen 128)).map (fun u => (u, s.blockUse p a le t u))
  (us.filterMap (fun x => match x.2 with | .visit m => some ⟨128 * x.1, le.kvLen, m⟩ | .skip _ => none),
   us.any (fun x => match x.2 with | .skip b => b | .visit _ => false))

/-- The factor of an entry's scores (R158, R164); a scale table that cannot be read leaves HEAD_SCALE (log 86). -/
def State.factorOf (s : State) (p : Nat) (a : AttnParams) (e : Nat) : BitVec 32 :=
  if a.scaleBase = 0 then a.headScale
  else match s.table p (a.scaleBase % 2 ^ 52 + 4 * e) 4 with
    | some bs => BitVec.ofNat 32 (ofLe bs)
    | none => a.headScale

/-- Query tile `t` of entry `e` outside a decode Figure. -/
def State.queryTile (s : State) (p : Nat) (a : AttnParams) (l : PtrList) (le : LenEntry) (e t : Nat) : QTile :=
  ⟨a, e, l.rowBase + 128 * t, l.colBase, ⟨128 * t, 0, le.qLen, 0, le.posBase, 0, false, 0, .full⟩, 128, s.factorOf p a e,
    min 128 (le.qLen - 128 * t)⟩

/-! ### Forward and backward attention -/

/-- A good entry's length record; none for an entry that produces no work (R188). -/
def State.goodEntry (s : State) (p : Nat) (a : AttnParams) (l : PtrList) (e : Nat) : Option LenEntry :=
  (s.lenEntry p a.lenBase e).filter (fun x => !lenBad (maxQ l) (maxKv a l) x)

/-- The query heads a member of a gang works for an item, in order (R189). -/
def memberHeads (group h z : Nat) : List Nat := (List.range (group / max z 1)).map (fun k => h + k * z)

/-- A forward item on member `h` of a gang of `z` cores: each of its heads that has this query tile (R169, R188, R189). -/
def State.forwardSteps (s : State) (p : Nat) (a : AttnParams) (l : PtrList) (it : Item) (h z : Nat) : List Step × Bool :=
  let xs := (memberHeads a.group h z).map (fun q =>
    let e := it.entry * a.group + q
    match s.goodEntry p a l e with
    | none => ([], false)
    | some le =>
      if le.qLen ≤ 128 * it.a then ([], false)
      else
        let v := s.visited p a le it.a
        ((s.queryTile p a l le e it.a).steps v.1 a.partialOut, v.2))
  (xs.flatMap (·.1), xs.any (·.2))

/-- The row term of a query tile (R198). -/
def State.termSteps (s : State) (p : Nat) (a : AttnParams) (x : BwdExt) (l : PtrList) (it : Item) : List Step :=
  match s.goodEntry p a l it.entry with
  | none => []
  | some le =>
    let t := s.queryTile p a l le it.entry it.a
    [t.plain (.rowTerm (fmtAt x.doFmt) (fmtAt a.oFmt) a.headDim t.pair) [anyA, anyA, wrA arTerm]]

/-- A bank of a backward item: `other` is OB. -/
def accStep (t : QTile) (a b : Fmt) (bT add other : Bool) (grid : Int) (steps : Nat) (areas : List (Nat × Bool)) (cols ks : Nat) : Step :=
  t.step (.mxa a b bT add other (gridFor a b grid) steps) areas cols ks .plain

/-- Fill a bank with an XS128 block of the Scratchpad, and drain it there (R202, R203). -/
def fillBlock (other : Bool) (g : Int) (ar : Nat) : Step :=
  ⟨.fill other .xs128 true (some g), [rdA ar, rdA (ar + 1)], 128, 0, 0, 128, false, 0, .plain⟩
def drainBlock (other : Bool) (ar : Nat) : Step :=
  ⟨.drain other 128 .xs128 convRne coord0 fp32One false true, [wrA ar, anyA, wrA (ar + 1)], 128, 0, 0, 128, false, 0, .plain⟩

/-- Rounding of the dS, and of the dQ, dK and dV stores (R195, R200, R687). -/
def dsConvOf (a : AttnParams) (x : BwdExt) : Conv := normConv ⟨(rndOf x.dsRnd).getD .rne, false, a.spinId, x.dsSite⟩
def gradConv (a : AttnParams) (x : BwdExt) (k : Nat) : Conv :=
  normConv ⟨(rndOf x.gRnd).getD .rne, x.gSat, a.spinId, (x.dsSite + k) % 256⟩

/-- GRAD_SCALE × 2^(−DS_SHIFT) in FP32 (R202). -/
def gradMul (x : BwdExt) : BitVec 32 := BitVec.ofNat 32 (fFP32.encode ((fFP32.decode x.gradScale.toNat).scale (-x.dsShift)))

/-- The steps that recompute q and form dS for a query tile and a key tile (R199, R200, R202). -/
def QTile.recompute (t : QTile) (x : BwdExt) (k : KTile) : List Step :=
  let d := fmtAt x.doFmt
  let v := fmtAt t.a.vFmt
  let n := t.a.headDim / 32
  t.scores k ++
  [t.plain (.probs t.a.strict t.a.pConv (t.pAt k) (t.pairs k)) [rdA arS, anyA, wrA arQ],
   accStep t d v false false false x.dpGrid n [anyA, anyA] k.keys n,
   t.plain (.drain false 128 .fp32 convRne coord0 fp32One false false) [wrA arDp, anyA, anyA],
   t.plain (.dsForm t.a.strict t.a.pConv (dsConvOf t.a x) (fmtAt x.dsFmt) x.dsShift
     (placeFor (if t.a.pConv.rnd = .sr then t.a.pConv else dsConvOf t.a x) ⟨t.e, t.row0, k.k0⟩) (t.pairs k))
     [rdA arS, anyA, rdA arDp, anyA, wrA arDs, wrA arDsT]]

/-- Add a product to a block: in its bank, or by the fill, add and drain of a block kept in the Scratchpad (R202, R203). -/
def addTo (kept first other : Bool) (g : Int) (ar : Nat) (st : Step) : List Step :=
  (if kept && !first then [fillBlock other g ar] else []) ++ [st] ++ (if kept then [drainBlock other ar] else [])

/-- The last drain of a block: to its output format, or as it is to XS128, after a fill where it stands in the Scratchpad (R202). -/
def lastDrain (kept other : Bool) (g : Int) (ar : Nat) (f : Fmt) (c : Conv) (at0 : Coord) (mul : BitVec 32) (rows cols : Nat) : List Step :=
  (if kept then [fillBlock other g ar] else []) ++
  [if f = .xs128 then ⟨.drain other 128 .xs128 convRne coord0 fp32One false true, [wrA arOut, anyA, wrA (arOut + 1)], rows, 0, 0, cols, true, 0, .plain⟩
   else ⟨.drain other 128 f c (placeFor c at0) mul false false, [wrA arOut, anyA, anyA], rows, 0, 0, cols, true, 0, .plain⟩]

/-- +0 rows, with the row scale of a bank on grid `g` where they are XS128 (R202, R205). -/
def zeroDrain (f : Fmt) (g : Int) (cols : Nat) : Step :=
  if f = .xs128 then ⟨.drain false 128 .xs128 convRne coord0 fp32One false true, [wrA arOut, anyA, wrA (arOut + 1)], 0, 0, 0, cols, true, 0, .zeros g⟩
  else ⟨.drain false 128 f convRne coord0 fp32One false false, [wrA arOut, anyA, anyA], 0, 0, 0, cols, true, 0, .zeros g⟩

/-- A phase 1 item: dV and dK of one key tile of a KV head (R202, R203). -/
def State.keySteps (s : State) (p : Nat) (a : AttnParams) (x : BwdExt) (l : PtrList) (it : Item) : List Step × Bool :=
  let nb := colBlocks a.headDim
  let f := fmtAt x.dkvFmt
  let pf := pArray a.strict
  let df := fmtAt x.doFmt
  let sf := fmtAt x.dsFmt
  let qf := fmtAt a.qFmt
  let gv := gridValue pf df x.dvGrid
  let gk := gridValue sf qf x.dkGrid
  let es := (List.range a.group).filterMap (fun h => (s.goodEntry p a l (it.entry * a.group + h)).map (fun le => (it.entry * a.group + h, le)))
  let ts := es.flatMap (fun y => (List.range (ceilDiv y.2.qLen 128)).map (fun t =>
    (y.1, y.2, t, if y.2.kvLen ≤ 128 * it.a then BlockUse.skip false else s.blockUse p a y.2 t it.a)))
  let vs := ts.filterMap (fun y => match y.2.2.2 with
    | .visit m => some (s.queryTile p a l y.2.1 y.1 y.2.2.1, (⟨128 * it.a, y.2.1.kvLen, m⟩ : KTile))
    | .skip _ => none)
  let inv := ts.any (fun y => match y.2.2.2 with | .skip b => b | .visit _ => false)
  let kmax := (es.map (fun y => y.2.kvLen)).foldl max 0
  let rows := min 128 (kmax - 128 * it.a)
  let wide := decide (1 < nb)
  let body := vs.zipIdx.flatMap (fun y =>
    let t := y.1.1
    let first := decide (y.2 = 0)
    let ks := ceilDiv t.rows 32
    let row (st : Step) : Step := { st with rows := rows, qrows := 0 }
    t.recompute x y.1.2
      ++ (List.range nb).flatMap (fun cb => addTo wide first (!wide) gv (arBlock 0 cb)
          (row (accStep t pf df (readsBt df) (!first) (!wide) x.dvGrid 4 [rdA arQ, anyA] (blockCols a.headDim cb) ks)))
      ++ (List.range nb).flatMap (fun cb => addTo true first false gk (arBlock 1 cb)
          (row (accStep t sf qf (readsBt qf) (!first) false x.dkGrid 4 [rdA arDsT, anyA] (blockCols a.headDim cb) ks))))
  let at0 (cb : Nat) : Coord := ⟨it.entry * a.group, l.rowBase + 128 * it.a, l.colBase + 128 * cb⟩
  let tail :=
    if vs.isEmpty then
      (List.range nb).map (fun cb => zeroDrain f gv (blockCols a.headDim cb)) ++ (List.range nb).map (fun cb => zeroDrain f gk (blockCols a.headDim cb))
    else
      (List.range nb).flatMap (fun cb =>
        lastDrain wide (!wide) gv (arBlock 0 cb) f (gradConv a x 3) (at0 cb) fp32One rows (blockCols a.headDim cb))
      ++ (List.range nb).flatMap (fun cb =>
        lastDrain true false gk (arBlock 1 cb) f (gradConv a x 2) (at0 cb) (gradMul x) rows (blockCols a.headDim cb))
  (body ++ tail, inv)

/-- A phase 2 item: dQ of one query tile (R205). -/
def State.gradSteps (s : State) (p : Nat) (a : AttnParams) (x : BwdExt) (l : PtrList) (it : Item) : List Step × Bool :=
  match s.goodEntry p a l it.entry with
  | none => ([], false)
  | some le =>
    let nb := colBlocks a.headDim
    let sf := fmtAt x.dsFmt
    let kf := fmtAt a.kFmt
    let g := gridValue sf kf x.dqGrid
    let f := if x.dqPartial then .xs128 else fmtAt x.dqFmt
    let t := s.queryTile p a l le it.entry it.a
    let v := s.visited p a le it.a
    let body := v.1.zipIdx.flatMap (fun y =>
      let first := decide (y.2 = 0)
      t.recompute x y.1 ++ (List.range nb).flatMap (fun cb => addTo (decide (cb ≠ 0)) first (decide (cb = 0)) g (arBlock 2 cb)
        (accStep t sf kf (readsBt kf) (!first) (decide (cb = 0)) x.dqGrid 4 [rdA arDs, anyA] (blockCols a.headDim cb) (ceilDiv y.1.keys 32))))
    let tail :=
      if v.1.isEmpty then (List.range nb).map (fun cb => zeroDrain f g (blockCols a.headDim cb))
      else (List.range nb).flatMap (fun cb =>
        lastDrain (decide (cb ≠ 0)) (decide (cb = 0)) g (arBlock 2 cb) f (gradConv a x 1)
          ⟨it.entry, l.rowBase + 128 * it.a, l.colBase + 128 * cb⟩ (gradMul x) t.rows (blockCols a.headDim cb))
    (body ++ tail, v.2)

/-! ### Decode and merges -/

/-- The packed query tile of an entry and KV head (R258, R264). -/
def State.packedTile (s : State) (p : Nat) (a : AttnParams) (x : DecExt) (l : PtrList) (le : LenEntry) (e h : Nat) : QTile :=
  let nq := a.group * x.qrows
  ⟨a, e, l.rowBase + h * nq, l.colBase, ⟨nq, 0, le.qLen, 0, le.posBase, x.qrows, x.causal, x.window, .full⟩, nq, s.factorOf p a e, nq⟩

/-- The key tiles of chunk `c`; the last generated chunk also visits the extra tile of the new tokens (R260, R261). -/
def chunkTiles (x : DecExt) (le : LenEntry) (c : Nat) : List KTile :=
  let sz := 2 ^ x.chunkLog2
  let stop := min le.kvLen ((c + 1) * sz)
  let own := (List.range (ceilDiv (stop - c * sz) 128)).map (fun i => (⟨c * sz + 128 * i, le.kvLen, .full⟩ : KTile))
  own ++ (if x.self && decide ((chunksOf x le).getLast? = some c) then [⟨le.posBase, le.posBase + le.qLen, .full⟩] else [])

/-- A sweep item (R260, R265). -/
def State.chunkSteps (s : State) (p : Nat) (a : AttnParams) (x : DecExt) (l : PtrList) (it : Item) : List Step :=
  match s.lenEntry p a.lenBase it.entry with
  | none => []
  | some le =>
    (s.packedTile p a x l le it.entry it.a).steps (chunkTiles x le it.b) (a.partialOut || decide ((chunksOf x le).length ≠ 1))

/-- What merging leaves is written as a partial state, or finished from a fill on its own grid (R265, R268, R269). -/
def QTile.merged (t : QTile) (d : Nat) : List Step :=
  if t.a.partialOut then [t.plain (.records t.pair) [wrA arRec]]
  else
    let o := fmtAt t.a.oFmt
    let c := if is8 o then convRne else t.a.oConv
    t.plain (.finish t.a.strict t.pair) [wrA arMul, wrA arLse] :: (List.range (colBlocks d)).flatMap (fun cb =>
      let x : Coord := ⟨t.e, t.row0, t.col0 + 128 * cb⟩
      [⟨.fill true .xs128 true none, [rdA (arMerge + 64 * cb), rdA arMergeRs], t.rows, t.pair.qrows, t.pair.qLen, 128, false, 0, .plain⟩,
       t.step (.drain true t.nq (if is8 o then .fp32 else o) c (placeFor c x) fp32One true false) [wrA arOut, rdA arMul, anyA] (blockCols d cb) 0 .finished,
       t.plain (.output o t.a.oConv (placeFor t.a.oConv x) (blockCols d cb) t.pair) [rdA arOut, wrA arFin]])

/-- What a merge writes: the column blocks of O from the first, and the row scales. -/
def mergeAreas (d : Nat) : List (Nat × Bool) :=
  [wrA arMerge, wrA arMergeRs] ++ (List.range (colBlocks d - 1)).map (fun cb => wrA (arMerge + 64 * (cb + 1)))

/-- A merge item of a decode Figure (R265, R268). -/
def State.mergeSteps (s : State) (p : Nat) (a : AttnParams) (x : DecExt) (l : PtrList) (it : Item) : List Step :=
  match s.lenEntry p a.lenBase it.entry with
  | none => []
  | some le =>
    let t := s.packedTile p a x l le it.entry it.a
    t.plain (.merge t.nq a.headDim (chunksOf x le).length) (mergeAreas a.headDim) :: t.merged a.headDim

/-- The partial sets an entry of an ATTN_MERGE Figure names: its PO inputs hold them one after the other (R269). -/
def mergeSets (a : AttnParams) (l : PtrList) : Nat :=
  match mergeTarget a l with
  | none => 0
  | some t => ((l.cols.filter (fun c => !c.out && decide (c.plane = 0) && decide (c.role = rolePo))).map (fun c => c.padRows * c.padCols)).sum
      / max 1 (t.padRows * t.padCols)

/-- An item of an ATTN_MERGE Figure: 128 rows of an entry (R269, log 32). -/
def setSteps (a : AttnParams) (l : PtrList) (it : Item) : List Step :=
  match mergeTarget a l with
  | none => []
  | some c =>
    let rows := min 128 (c.padRows - 128 * it.a)
    let t : QTile := ⟨a, it.entry, l.rowBase + 128 * it.a, l.colBase, ⟨0, 0, 128, 0, 0, 0, false, 0, .full⟩, 128, fp32One, rows⟩
    t.plain (.merge rows c.padCols (mergeSets a l)) (mergeAreas c.padCols) :: t.merged c.padCols

/-! ### Dense items -/

/-- One 128 × 128 block of C at (row0, col0) of an entry of dimensions M, N, K, in bank `other` (R144, R282, R686). -/
def denseBlock (d : DenseParams) (l : PtrList) (e row0 col0 m n k : Nat) (other : Bool) : List Step :=
  let a := fmtAt d.aFmt
  let b := fmtAt d.bFmt
  let f := fmtAt d.cFmt
  let g := gridValue a b d.grid
  let rs := (l.desc roleC 2).isSome
  let ar := if other then arOut + 32 else arOut
  let rows := min 128 (m - row0)
  let cols := min 128 (n - col0)
  let steps := ceilDiv k 32
  let c := normConv ⟨(rndOf d.cRnd).getD .rne, d.cSat, d.spinId, d.cSite⟩
  let x : Coord := ⟨e, l.rowBase + row0, l.colBase + col0⟩
  let mk (act : Act) (areas : List (Nat × Bool)) (as : RowsAs) : Step := ⟨act, areas, rows, 0, 0, cols, true, steps, as⟩
  let src := if f = .xs128 || f = .fp32 || f = .int32 then f else .fp32
  let none' := decide (k = 0) && !d.accIn
  let as := if none' then RowsAs.zeros g else .plain
  (if d.accIn then [mk (.fill other src (rs && f == .xs128) (some g)) [anyA, anyA] .plain] else [])
    ++ (if k = 0 then [] else [mk (.mxa a b d.bT d.accIn other (gridFor a b d.grid) steps) [anyA, anyA] .plain])
    ++ (if is8 f then
          [mk (.drain other 128 .fp32 convRne coord0 fp32One false false) [wrA ar, anyA, anyA] as,
           mk (.convert .fp32 f c (placeFor c x) 128 128) [rdA ar, wrA (ar + 1)] .plain]
        else if f = .xs128 && rs then
          [mk (.drain other 128 .xs128 convRne coord0 fp32One false true) [wrA ar, anyA, wrA (ar + 1)] as]
        else [mk (.drain other 128 f c (placeFor c x) fp32One false false) [wrA ar, anyA, anyA] as])

/-- A dense item: the blocks of its output tile, or of every tile of its band, row block outer and column block inner (R144, R299). -/
def State.denseSteps (s : State) (p : Nat) (d : DenseParams) (l : PtrList) (shape : Nat) (it : Item) : List Step :=
  match s.shapeEntry p d.shapeBase it.entry with
  | none => []
  | some (m, n, k) =>
    let band := decide (d.fuseRole ≠ 0) && d.fuseKind
    let tiles := if band then List.range (ceilDiv n (shapeN shape)) else [it.b]
    let blocks := tiles.flatMap (fun j => (List.range (shapeM shape / 128)).flatMap (fun r =>
      (List.range (shapeN shape / 128)).map (fun c => (shapeM shape * it.a + 128 * r, shapeN shape * j + 128 * c))))
    blocks.zipIdx.flatMap (fun x => denseBlock d l it.entry x.1.1 x.1.2 m n k (decide (x.2 % 2 = 1)))

/-! ### The item in work -/

/-- The key under which a Figure's items of counter `k` are committed. -/
def itemKey (f : Figure) (a : RunFig) (k : Nat) : Nat :=
  match f.par with
  | .backward _ _ => if a.phase = 0 then 0 else if a.clms.head? = some k then 1 else 2
  | .decode _ x => if x.bucket then a.bucketNow - 1 else if a.clms.head? = some k then 0 else 1
  | _ => 0

/-- Item `n` of key `k` of a Figure (R193, R265, R272, R287). -/
def RunFig.itemAt (a : RunFig) (f : Figure) (k n : Nat) : Option Item :=
  match f.par with
  | .backward _ _ => if k = 0 then a.items[n]? else (a.mergeItems.filter (fun i => decide (i.b = k)))[n]?
  | .decode _ x => if x.bucket then (a.buckets[k]?).bind (fun b => b.items[n]?) else if k = 0 then a.items[n]? else a.mergeItems[n]?
  | _ => a.items[n]?

/-- Item `item` of the bucket in work is a merge item, and part of the bucket's sweep is still to be done (R265, R273). -/
def RunFig.mergeTooSoon (a : RunFig) (item : Nat) : Bool :=
  match a.buckets[a.bucketNow - 1]? with
  | some b => decide (b.sweeps ≤ item) && (List.range b.sweeps).any (fun i => !a.committed.contains (a.bucketNow - 1, i))
  | none => false

/-- Stores of a Figure that are still to be written (R394). -/
def State.storing (s : State) (p fig : Nat) : Bool :=
  s.streams.any (fun x => x.2.bound && decide (x.2.part = p) && decide (x.2.fig = fig) && x.2.lines.any (·.write))

/-- Item `item` of the bucket in work must still wait: it is a merge item, and a sweep item is to be done or written (R265, R272). -/
def State.mergeWaits (s : State) (p : Nat) (f : Figure) (a : RunFig) (item : Nat) : Bool :=
  a.mergeTooSoon item || (s.storing p f.hdr.figId && (match a.buckets[a.bucketNow - 1]? with | some b => decide (b.sweeps ≤ item) | none => false))

/-- The items core `c` holds for a Figure in progress, the one to work first: those it claimed, in the order claimed, or those a bucket
assigns it, in list order (R273, R292). -/
def State.itemsOf (s : State) (p c : Nat) (f : Figure) (a : RunFig) : List (Nat × Nat) :=
  match f.par with
  | .decode _ x =>
    if x.bucket then
      ((a.assign.filter (fun y => decide (y.2 = c))).map (fun y => (a.bucketNow - 1, y.1))).filter (fun y =>
        !a.committed.contains y && !s.mergeWaits p f a y.2)
    else (((s.core c).held.filter (fun h => a.clms.contains h.1)).map (fun h => (itemKey f a h.1, h.2))).filter (fun y => !a.committed.contains y)
  | _ => (((s.core c).held.filter (fun h => a.clms.contains h.1)).map (fun h => (itemKey f a h.1, h.2))).filter (fun y => !a.committed.contains y)

/-- The attempt and Figure of slot `i` of core `c`. -/
def State.slotFigure (s : State) (c i : Nat) : Option (Nat × RunFig × Figure) :=
  match ((s.core c).slot i).fig with
  | none => none
  | some (p, fig) =>
    match (s.part p).active fig with
    | none => none
    | some a => ((s.part p).figure a.fig).map (fun f => (p, a, f))

/-- A Figure whose items issue a program in order: a dense Figure that is no consumer, and attention, backward, decode and merge Figures. A
fused consumer's work lies between its producer's steps where the program places it (log 85). -/
def Figure.sequenced (f : Figure) : Bool :=
  match f.par with
  | .dense d => decide (d.fuseRole ≠ 2)
  | .attn _ => true
  | .backward _ _ => true
  | .decode _ _ => true
  | .merge _ => true
  | _ => false

/-- The place of core `c` in its gang and the gang's size; alone where it is in none (R189, R294). -/
def RunFig.member (a : RunFig) (c : Nat) : Nat × Nat :=
  match a.gangs.find? (fun g => g.contains c) with
  | some g => (g.findIdx (fun x => decide (x = c)), g.length)
  | none => (0, 1)

/-- Item `y`, as (key, number), of a decode Figure merges (R265, R272). -/
def RunFig.mergeItem (a : RunFig) (f : Figure) (y : Nat × Nat) : Bool :=
  match f.par with
  | .decode _ x => if x.bucket then (match a.buckets[y.1]? with | some b => decide (b.sweeps ≤ y.2) | none => false) else decide (y.1 = 1)
  | _ => false

/-- The program of item `it`, `y` as (key, number), on core `c`, and whether its block map sets INV. -/
def State.programOf (s : State) (p c : Nat) (a : RunFig) (f : Figure) (y : Nat × Nat) (it : Item) : List Step × Bool :=
  match f.list with
  | none => ([], false)
  | some l =>
    match f.par with
    | .dense d => (s.denseSteps p d l a.shape it, false)
    | .attn q => s.forwardSteps p q l it (a.member c).1 (a.member c).2
    | .backward q x => if y.1 = 0 then (s.termSteps p q x l it, false) else if y.1 = 1 then s.keySteps p q x l it else s.gradSteps p q x l it
    | .decode q x => (if a.mergeItem f y then s.mergeSteps p q x l it else s.chunkSteps p q x l it, false)
    | .merge q => (setSteps q l it, false)
    | _ => ([], false)

/-- What the KV streams of core `c` looked up for its item `w` in slot 0's Figure (R237). -/
def State.workLooks (s : State) (c : Nat) (w : Nat × Nat) : List KvLook :=
  ((s.streams.map (·.2)).filter (fun m => m.bound && decide (m.core = c) && decide (m.kind = .kv)
    && decide ((s.core c).slot0.fig = some (m.part, m.fig)))).flatMap (fun m => m.kvPages.filter (fun x => decide (x.work = w)))

/-- A lookup failed (R239). -/
def KvLook.failed (x : KvLook) : Bool := match x.found with | .failed _ => true | .page _ => false

/-- The items of core `c` for a lookup: the one in work or to be worked next, or the one after it (R292). -/
def State.lookWork (s : State) (c : Nat) (ahead : Bool) : Option (Nat × Nat) :=
  match s.slotFigure c 0 with
  | none => none
  | some (p, a, f) => if ahead then (s.itemsOf p c f a)[1]? else (s.itemsOf p c f a).head?

/-- The core's first slot takes up its next item when it has none in work: its program begins; its block map, or a lookup made for it ahead
that failed, sets INV (R170, R239, R292). -/
def primeItem (c : Nat) (s : State) : State :=
  let v := (s.core c).slot0
  if v.work.isSome then s
  else
    match s.slotFigure c 0 with
    | none => s
    | some (p, a, f) =>
      match s.itemsOf p c f a with
      | [] => s
      | y :: _ =>
        match a.itemAt f y.1 y.2 with
        | none => s
        | some it =>
          let pr := s.programOf p c a f y it
          s.modCore c (fun k => { k with slot0 := { k.slot0 with
            work := some y, todo := pr.1, sb := none, areas := [], item := if pr.2 || (s.workLooks c y).any KvLook.failed then k.slot0.item.or flInv else k.slot0.item } })

/-- The item core `c` works is item `item` of key `key`, and its program has nothing more to issue. -/
def State.itemFinished (s : State) (c key item : Nat) : Bool :=
  decide ((s.core c).slot0.work = some (key, item)) && (s.core c).slot0.todo.isEmpty

/-- Core `c` is done with the item it works. -/
def leaveWork (c : Nat) (s : State) : State :=
  s.modCore c (fun k => { k with staged := [], slot0 := { k.slot0 with work := none, todo := [], sb := none, areas := [] } })

/-! ### The next step -/

/-- The rows of an operation stand where its step's areas are; areas written are taken up. -/
def placeAreas (m : KMap (Option Nat)) (as : List (Nat × Bool)) (rows : List Nat) : Option (KMap (Option Nat)) :=
  match as, rows with
  | [], _ => some m
  | (n, w) :: as, r :: rows =>
    if n = 0 then placeAreas m as rows
    else if w then placeAreas (kset none m n (some r)) as rows
    else if kget none m n = some r then placeAreas m as rows
    else none
  | _ :: _, [] => none

/-- An operation is the one a step issues. An array operation may issue the first of its K-steps. -/
def Act.issues (want got : Act) : Bool :=
  match want, got with
  | .mxa a b t ad o g n, .mxa a' b' t' ad' o' g' n' =>
    decide (a = a') && decide (b = b') && t == t' && ad == ad' && o == o' && (ad || decide (g = g')) && decide (1 ≤ n') && decide (n' ≤ n)
  | .drain o n f c x m w r, .drain o' n' f' c' x' m' w' r' =>
    o == o' && decide (n ≤ n') && decide (f = f') && decide (c = c') && decide (x = x') && decide (m = m') && w == w' && r == r'
  | x, y => decide (x = y)

/-- What is left of a step after an operation issued its first K-steps. -/
def Step.rest (t : Step) (got : Act) : List Step :=
  match t.act, got with
  | .mxa a b bt _ o g n, .mxa _ _ _ _ _ _ n' => if n' < n then [{ t with act := .mxa a b bt true o g (n - n'), ks := t.ks - n' }] else []
  | _, _ => []

/-- The bank an operation names, in the program's terms: the first array operation or fill of an item fixes which bank is SB (R180). -/
def Slot.bankRole (v : Slot) (bank : Nat) (want : Bool) : Option (Option Nat) :=
  match v.sb with
  | none => some (some (if want then 1 - bank % 2 else bank % 2))
  | some b => if decide (bank % 2 ≠ b) = want then some v.sb else none

/-- Which bank of the program an action uses. -/
def Act.bank (x : Act) : Option Bool :=
  match x with
  | .mxa _ _ _ _ o _ _ => some o
  | .drain o _ _ _ _ _ _ _ => some o
  | .fill o _ _ _ => some o
  | .shift o => some o
  | .clear o => some o
  | _ => none

/-- A step's bank is the program's other one, OB. -/
def Step.other (t : Step) : Bool := t.act.bank.getD false

/-- A step loads a merged state, on the grid its rows give. -/
def Step.anyGrid (t : Step) : Bool := match t.act with | .fill _ _ _ g => g.isNone | _ => false

/-- What slot `i` of core `c` makes of an operation. -/
inductive Admit where
  /-- The tile program in work does not issue it now. -/
  | no
  /-- No program is in work that orders it. -/
  | free
  /-- It is the next step; the state has the program moved on. -/
  | step (t : Step) (s : State)
  deriving DecidableEq, Repr

/-- Match an operation on `bank` with the next step of the item in work: `got` is the operation in that step's terms, `rows` where its
operands stand. -/
def State.admission (s : State) (c i bank : Nat) (got : Step → Act) (rows : List Nat) : Admit :=
  match s.slotFigure c i with
  | none => .free
  | some (_, _, f) =>
    if !f.sequenced || decide (i ≠ 0) then .free
    else if (s.issuing c i).isNone then .no
    else
      let s1 := primeItem c s
      let v := (s1.core c).slot0
      match v.todo with
      | [] => .no
      | t :: more =>
        match v.bankRole bank t.other, placeAreas v.areas t.areas rows with
        | some sb, some m =>
          if t.act.issues (got t) && ((t.rest (got t)).isEmpty || t.areas.all (fun a => decide (a.1 = 0))) then
            .step t (s1.modCore c (fun k => { k with slot0 := { k.slot0 with
              todo := t.rest (got t) ++ more, sb := if t.act.bank.isSome then sb else k.slot0.sb, areas := m } }))
          else .no
        | _, _ => .no

/-- The step an operation runs as and the state it runs in; none where the tile program in work does not issue it now. -/
def Admit.runs (x : Admit) (s : State) : Option (Option Step × State) :=
  match x with
  | .no => none
  | .free => some (none, s)
  | .step t u => some (some t, u)

/-- Run an operation that tile programs order: nothing happens where the program in work does not issue it now. -/
def ordered (x : Admit) (f : Option Step → State → Res) (s : State) : Res :=
  match x.runs s with
  | none => .next s
  | some (t, u) => f t u

/-- Run an operation that a tile program may have at other places too: it moves the program on where it is the next step, and runs in any
case (a conversion, R686). -/
def orderedOrFree (x : Admit) (f : Option Step → State → Res) (s : State) : Res :=
  match x.runs s with
  | none => f none s
  | some (t, u) => f t u

/-- Row `i` holds real data of the step; every row does outside a program. -/
def realRow (t : Option Step) (i : Nat) : Bool := match t with | some t => t.real i | none => true

/-- Column `j` is no padding of the step (R281). -/
def realCol (t : Option Step) (j : Nat) : Bool := match t with | some t => !t.padCols || decide (j < t.cols) | none => true

/-- Keys of a tile that no page found for the item's lookups covers, where a lookup in the tile failed (R239). -/
def State.lostKeys (s : State) (c k0 : Nat) : List Nat :=
  match (s.core c).slot0.work with
  | none => []
  | some w =>
    let ls := s.workLooks c w
    (List.range 128).filterMap (fun j =>
      let k := k0 + j
      if ls.any (fun x => x.failed && decide (x.token / 128 = k / 128))
          && !ls.any (fun x => match x.found with
            | .page g => decide (g.firstToken ≤ k) && decide (k < g.firstToken + 2 ^ g.log2Size)
            | .failed _ => false) then some k else none)

end Sys2Proof.Machine
end

