-- ==== Sys2Proof/Machine/Array.lean ====
section
/-! DEFINITION. The Matrix Array and the Accumulator Memory (R124 to R152): array operations, drains, fills, shifts, clears and
status. -/

namespace Sys2Proof.Machine

/-! ### Array operations -/

/-- The pairings R125 permits. -/
def pairOk (a b : Fmt) : Bool :=
  match opType a, opType b with
  | some _, some tb => decide (b ≠ .up8) && (decide (a ≠ .up8) || !tb.isSplit)
  | _, _ => false

/-- The decoded fields of an array operation (R128, R129). -/
structure ArrayOp where
  aFmt  : Fmt
  bFmt  : Fmt
  ta    : OpType
  tb    : OpType
  add   : Bool
  bank  : Nat
  bT    : Bool
  grid  : Option Int
  steps : Nat
  aRow  : Nat
  bRow  : Nat
  aSc   : Nat
  bSc   : Nat
  deriving DecidableEq, Repr

/-- Scratchpad rows of one K-step of a slab (R127). -/
def stepRows (f : Fmt) (t : OpType) : Nat :=
  match t with
  | .split 2 => 17
  | .split _ => 25
  | _ => if fmtBits f = 4 then 4 else 8

/-- Rows a slab and its scale plane occupy. -/
def slabRows (f : Fmt) (t : OpType) (row sc steps : Nat) : List Nat :=
  (List.range (stepRows f t * steps)).map (row + ·)
    ++ (match t with | .block => (List.range ((steps + 3) / 4)).map (sc + ·) | _ => [])

/-- The array operation two words spell, `none` where R130 rejects it: a reserved encoding, a forbidden pairing, a scaled pairing
without an explicit grid, or a slab past a Scratchpad of `rows` rows. -/
def arrayDecode (rows : Nat) (w0 w1 : BitVec 64) : Option ArrayOp :=
  let u := w0.toNat
  let v := w1.toNat
  match fmtOf (fld u 60 4), fmtOf (fld u 56 4) with
  | some a, some b =>
    match opType a, opType b with
    | some ta, some tb =>
      let expl := bit u 51
      let g := sfld u 32 16
      let add := fld u 54 2 == 1
      let o : ArrayOp := ⟨a, b, ta, tb, add, fld u 53 1, bit u 52, if expl then some g else none, fld u 16 16,
        fld v 48 16, fld v 32 16, fld v 16 16, fld v 0 16⟩
      if pairOk a b && decide (fld u 54 2 ≤ 1) && fld u 48 3 == 0 && fld u 0 16 == 0 && o.steps != 0
          && (expl || (ta.isNative && tb.isNative))
          && (!expl || add || (decide (-16432 ≤ g) && decide (g ≤ 16335)))
          && (!o.bT || (tb.isNative && decide (fmtBits b = 8)))
          && (slabRows a ta o.aRow o.aSc o.steps ++ slabRows b tb o.bRow o.bSc o.steps).all (· < rows)
      then some o else none
    | _, _ => none
  | _, _ => none

/-- A group's operand side: pieces from the most significant, the exponent of the least significant piece, the elements' tags
(0 finite, 1 +∞, 2 −∞, 3 NaN) and the whole aligned integers (R131, R132, R146, R147). -/
structure Grp where
  ps   : List (List Int)
  e    : Int
  tags : List Nat
  q    : List Int
  deriving DecidableEq, Repr

/-- The tag of a value. -/
def tagOf (v : Num) : Nat :=
  match v with
  | .fin _ _ _ => 0
  | .inf s => if s then 2 else 1
  | .nan => 3

/-- 32 values as integers on the exponent `e` all of them are multiples of. -/
def plainGrp (vs : List Num) (e : Int) : Grp :=
  let q := vs.map (fun v => v.intAt e)
  ⟨[q], e, vs.map tagOf, q⟩

/-- Byte address of K index `k` of slab row `m` in K-step `st` (R127). -/
def slabByte (f : Fmt) (t : OpType) (bT : Bool) (row m st k : Nat) : Nat :=
  let base := 512 * (row + stepRows f t * st)
  if bT then base + 128 * k + m
  else if fmtBits f = 4 then base + 16 * m + k / 2
  else base + 32 * m + k

/-- The group of slab row `m` in K-step `st`, as the array reads it from core `c`'s Scratchpad (R126, R127). -/
def State.grp (s : State) (c : Nat) (f : Fmt) (t : OpType) (bT : Bool) (row sc m st : Nat) : Grp :=
  let ks := List.range 32
  let code (k : Nat) : Nat :=
    let b := (s.spmByte c (slabByte f t bT row m st k)).toNat
    if fmtBits f = 4 then fld b (4 * (k % 2)) 4 else b
  match t with
  | .native ell => plainGrp (ks.map (fun k => fmtDecode f (code k) 0 0)) ell
  | .block =>
    let e := (s.spmByte c (512 * (sc + st / 4) + 128 * (st % 4) + m)).toNat
    plainGrp (ks.map (fun k => fmtDecode f (code k) e 0)) ((e : Int) - 127 - (if f = .bf4 then 1 else 0))
  | .split n =>
    let base := 512 * (row + stepRows f t * st)
    let piece (i k : Nat) : Int :=
      let b := (s.spmByte c (base + 4096 * i + 32 * m + k)).toNat
      if i = 0 then sfld b 0 8 else (b : Int)
    let eg := sfld (s.spmNat c (base + 4096 * n + 2 * m) 2) 0 16
    let ps := (List.range n).map (fun i => ks.map (piece i))
    let q := ks.map (fun k => (List.range n).foldl (fun a i => a * 256 + piece i k) 0)
    ⟨ps, eg - (8 * n - 2 : Int), ks.map (fun k => kget 0 (s.core c).tags (base + 32 * m + k)), q⟩

/-- The products of two lists, summed (R133: exact). -/
def dot (a b : List Int) : Int := (a.zipWith (· * ·) b).foldl (· + ·) 0

/-- Pairs of pieces in the order they are added (R144, R148): descending weight, A's more significant piece first; `na` and `nb`
pieces. -/
def passes (na nb : Nat) : List (Nat × Nat) :=
  (List.range (max na nb)).flatMap (fun d =>
    ((List.range (d + 1)).map (fun i => (i, d - i))).filter (fun x => decide (x.1 < na) && decide (x.2 < nb)))

/-- Pairs of pieces that are dropped (R148). -/
def dropped (na nb : Nat) : List (Nat × Nat) :=
  ((List.range na).flatMap (fun i => (List.range nb).map (fun j => (i, j)))).filter (fun x => decide (max na nb ≤ x.1 + x.2))

/-- A group's tag and whether it raises INV (R132). -/
def groupTag (a b : Grp) : Nat × Bool :=
  let one (ta tb : Nat) (qa qb : Int) : Nat × Bool :=
    if ta = 0 ∧ tb = 0 then (0, false)
    else if ta = 3 ∨ tb = 3 then (3, false)
    else if (ta = 0 ∧ qa = 0) ∨ (tb = 0 ∧ qb = 0) then (3, true)
    else
      let na : Bool := if ta = 0 then decide (qa < 0) else ta == 2
      let nb : Bool := if tb = 0 then decide (qb < 0) else tb == 2
      (if na != nb then 2 else 1, false)
  let ts := (List.range 32).map (fun k => one (nth a.tags k) (nth b.tags k) (a.q.getD k 0) (b.q.getD k 0))
  let inv := ts.any (·.2)
  let clash := ts.any (fun t => t.1 == 1) && ts.any (fun t => t.1 == 2)
  if ts.any (fun t => t.1 == 3) then (3, inv || clash)
  else if clash then (3, true)
  else if ts.any (fun t => t.1 == 1) then (1, inv)
  else if ts.any (fun t => t.1 == 2) then (2, inv)
  else (0, inv)

def tagNum (t : Tag) : Nat := match t with | .fin => 0 | .pinf => 1 | .ninf => 2 | .nan => 3
def numTag (n : Nat) : Tag := if n = 0 then .fin else if n = 1 then .pinf else if n = 2 then .ninf else .nan

/-- A group's tag added to an element's (R132). -/
def addTags (t g : Nat) : Nat × Bool :=
  if t = 0 then (g, false) else if g = 0 then (t, false) else if t = 3 ∨ g = 3 then (3, false)
  else if t = g then (t, false) else (3, true)

/-- An integer multiple of 2^`e` on the grid 2^`g`, RNE, and whether it rounded (R135). -/
def placeOn (x : Int) (e g : Int) : Int × Bool :=
  let (n, off) := roundAt .rne false 0 x.natAbs e false g
  (if x < 0 then -(n : Int) else n, off)

/-- Bounds of an element in grid units (R136). -/
def accMax : Int := 2 ^ 127 - 1
def accMin : Int := -(2 ^ 127 : Int)

/-- Saturate (R137). -/
def saturate (x : Int) : Int × Bool := if accMax < x then (accMax, true) else if x < accMin then (accMin, true) else (x, false)

/-- An element while an operation works on it: value, tag, saturated, and flags INX and INV. -/
structure Work where
  x   : Int
  tag : Nat
  sat : Bool
  inx : Bool
  inv : Bool
  deriving DecidableEq, Repr

/-- Add one K-step's group to an element (R132 to R138, R148, R149): the tag, then each pass placed on the grid and added with
saturation unless the element is tagged; `first` is the first K-step of an OVERWRITE. -/
def addGroup (g : Int) (first : Bool) (a b : Grp) (w : Work) : Work :=
  let (gt, i1) := groupTag a b
  let (t, i2) := addTags w.tag gt
  let na := a.ps.length
  let nb := b.ps.length
  let w1 : Work := { w with tag := t, inv := w.inv || i1 || i2 }
  let w2 := (passes na nb).foldl (fun (w : Work) (x : Nat × Nat) =>
    let wt : Int := 8 * ((na - 1 - x.1 : Nat) + (nb - 1 - x.2 : Nat) : Int)
    let d := dot (a.ps.getD x.1 []) (b.ps.getD x.2 [])
    let (v, off) := placeOn d (a.e + b.e + wt) g
    let w := { w with inx := w.inx || off }
    if t = 0 ∨ first then
      let (y, o) := saturate (w.x + v)
      { w with x := y, sat := w.sat || o }
    else w) w1
  let lost := (dropped na nb).any (fun x =>
    ((a.ps.getD x.1 []).zipWith (fun p q => decide (p * q ≠ 0)) (b.ps.getD x.2 [])).any id)
  { w2 with inx := w2.inx || lost }

def Core.bank (k : Core) (b : Nat) : Bank := if b = 0 then k.bank0 else k.bank1
def Core.setBank (k : Core) (b : Nat) (v : Bank) : Core := if b = 0 then { k with bank0 := v } else { k with bank1 := v }

/-- Element (i, j) of a bank. -/
def Bank.at (b : Bank) (i j : Nat) : Elem := kget Elem.zero b.elems (128 * i + j)

/-- A bank's elements from a function of row and column. -/
def elemsOf (f : Nat → Nat → Elem) : KMap Elem :=
  (List.range 128).flatMap (fun i => (List.range 128).filterMap (fun j =>
    let e := f i j
    if e = Elem.zero then none else some (128 * i + j, e)))

/-- The natural grid (R134). -/
def naturalGrid (o : ArrayOp) : Int :=
  match o.ta, o.tb with
  | .native a, .native b => a + b - 16
  | _, _ => 0

/-- The work an array operation leaves in each element of the rows it computes. -/
def State.mxaWork (s : State) (c : Nat) (o : ArrayOp) (g : Int) (rows : Nat) : List (List Work) :=
  let bk := (s.core c).bank o.bank
  let ks := List.range o.steps
  let bs := (List.range 128).map (fun j => ks.map (s.grp c o.bFmt o.tb o.bT o.bRow o.bSc j))
  (List.range rows).map (fun i =>
    let ag := ks.map (s.grp c o.aFmt o.ta false o.aRow o.aSc i)
    bs.zipIdx.map (fun bj =>
      let e := bk.at i bj.2
      let w0 : Work := if o.add then ⟨e.x.toInt, tagNum e.tag, false, false, false⟩ else ⟨0, 0, false, false, false⟩
      (ag.zip bj.1).zipIdx.foldl (fun w x => addGroup g (!o.add && x.2 == 0) x.1.1 x.1.2 w) w0))

/-- Flags of a list of works. -/
def workFlags (ws : List (List Work)) : Flags :=
  let any (f : Work → Bool) := ws.any (fun r => r.any f)
  ⟨any (·.sat), false, any (·.inx), any (·.inv)⟩

/-- The rows of a parity-protected read: those whose stored parity fails, with those found failing now. -/
def upset (k : Core) (bad : List Nat) : Core := { k with badRows := bad.foldl insAsc k.badRows }

/-- The multiply-adds of an operation: those of its real rows, columns and K indices (R529). -/
def mxaMacs (t : Option Step) (o : ArrayOp) (meet : MxaMeet) (rows : Nat) : Nat :=
  let np := (passes (match o.ta with | .split n => n | _ => 1) (match o.tb with | .split n => n | _ => 1)).length
  match t with
  | some t => np * 32 * min o.steps t.ks * ((List.range rows).filter t.real).length * t.cols
  | none => np * 32 * meet.steps * meet.rows * meet.cols

/-- The effect of a decoded array operation. Failing Scratchpad and ACM rows are detections; an ADD leaves the parity of the ACM rows it
rewrites as it found it (R151, R324, log 87). Padded rows raise no flag (R187, R281). -/
def mxaRun (p fig c slot : Nat) (o : ArrayOp) (meet : MxaMeet) (t : Option Step) (s : State) : Res :=
  let k0 := upset (s.core c) meet.spmBad
  let b0 := k0.bank o.bank
  let s0 := s.setCore c (k0.setBank o.bank { b0 with bad := meet.acmBad.foldl insAsc b0.bad })
  let rows := min 128 (32 * k0.rowMask)
  let s1 := touchRows p fig c slot (slabRows o.aFmt o.ta o.aRow o.aSc o.steps ++ slabRows o.bFmt o.tb o.bRow o.bSc o.steps) [] s0
  let bad := ((s0.core c).bank o.bank).bad
  let s2 := detectBank p fig c o.bank (if o.add then bad.filter (· < rows) else []) s1
  let g := if o.add then b0.grid else o.grid.getD (naturalGrid o)
  let ws := s0.mxaWork c o g rows
  let el (i j : Nat) : Elem :=
    if i < rows then
      match (ws.getD i [])[j]? with
      | some w => ⟨BitVec.ofInt 128 w.x, numTag w.tag⟩
      | none => Elem.zero
    else if o.add then b0.at i j else Elem.zero
  let fl := workFlags (ws.zipIdx.map (fun r => if realRow t r.2 then r.1.zipIdx.filterMap (fun w => if realCol t w.2 then some w.1 else none) else []))
  let b1 : Bank := ⟨elemsOf el, g, (workFlags ws).ovf || (o.add && b0.sat), if o.add then bad else []⟩
  .next (acctAdd p 1 (mxaMacs t o meet rows) (raise c slot fl (s2.modCore c (fun k => k.setBank o.bank b1))))

/-- What the tile program makes of an array operation. -/
def State.admitMxa (s : State) (c slot : Nat) (o : ArrayOp) : Admit :=
  s.admission c slot o.bank (fun t => .mxa o.aFmt o.bFmt o.bT o.add t.other o.grid o.steps) [o.aRow, o.bRow]

/-- MXA_OP (R128 to R138, R144, R149): the operation two words spell, where the tile program issues it. An operation R130 rejects does
nothing but report MXA_INVALID and abort. -/
def execMxaOp (c slot : Nat) (w0 w1 : BitVec 64) (meet : MxaMeet) (s : State) : Res :=
  match s.issuing c slot with
  | none => .next s
  | some (p, fig) =>
    match arrayDecode s.cfg.spmRows w0 w1 with
    | none => .next (askAbort p fig (.mxaInvalid c) (postEvent p 0x20 (payloadOf fig c 0) s))
    | some o => ordered (s.admitMxa c slot o) (mxaRun p fig c slot o meet) s

/-! ### ACM operations -/

/-- x × y as a drain multiplies them (R141): a zero carries no sign, and a nonzero x times a zero factor of either sign gives +0, which the
rule leaves open (DESIGN CHOICE, log 88). -/
def drainMul (v f : Num) : Num × Flags :=
  match v, f with
  | .nan, _ => (.nan, Flags.none)
  | _, .nan => (.nan, Flags.none)
  | .fin s m e, .fin s' m' e' => (if m * m' = 0 then Num.zero else .fin (s != s') (m * m') (e + e'), Flags.none)
  | a, b => if a.isZero || b.isZero then (.nan, flInv) else (.inf (a.sign != b.sign), Flags.none)

/-- The exact value an element drains, before rounding (R141). -/
def drainValue (b : Bank) (i j : Nat) (mul rm : Num) : Num × Flags :=
  let e := b.at i j
  let v : Num :=
    match e.tag with
    | .fin => Num.ofInt e.x.toInt b.grid
    | .pinf => .inf false
    | .ninf => .inf true
    | .nan => .nan
  let (x, f1) := drainMul v mul
  if x.isNan && (mul.isNan || rm.isNan || v.isNan) then (.nan, Flags.none)
  else
    let (y, f2) := drainMul x rm
    if rm.isNan then (.nan, Flags.none) else (y, f1.or f2)

def one32 : Num := .fin false 1 0

/-- Destinations of a drain (R140). -/
def drainFmt (f : Fmt) : Bool := f == .fp32 || f == .bf16 || f == .fp16 || f == .int32 || f == .xs128

/-- A drain that the loader admits (R101, R140). -/
def drainOk (o : DrainOp) : Bool :=
  drainFmt o.dst && decide (o.conv.rnd ≠ .rup) && decide (o.conv.rnd ≠ .rdn) && decide (o.first + o.count ≤ 128)
    && (o.rsRow.isNone || o.dst == .xs128)

/-- MUL and every ROWMUL of a drain with a row-scale plane are 1.0; a drain that has another is rejected (R141). -/
def State.rsMulOk (s : State) (o : DrainOp) : Bool :=
  o.rsRow.isNone || (decide (o.mul = fp32One) && (match o.rowMul with
    | none => true
    | some r => (List.range o.count).all (fun i => decide (s.spmNat o.core (512 * r + 4 * (o.first + i)) 4 = fp32One.toNat))))

/-- Element (i, j) of a drain is +0 and raises nothing under the step it belongs to: padding of the block, an outcome of R183 other than a
normal row, a padded or empty row of a partial state (R184), or a row for which nothing was accumulated (R202, R205, R282). -/
def State.drainsZero (s : State) (c : Nat) (t : Option Step) (i j : Nat) : Bool :=
  match t with
  | none => false
  | some t =>
    let r := (s.core c).row i
    match t.rowsAs with
    | .plain => !t.real i || !realCol (some t) j
    | .finished => !t.real i || r.pad || r.bad || r.m.isNone
    | .partials => !t.real i || r.pad || r.m.isNone
    | .zeros _ => true

/-- Element (i, j) of a drain: its code and flags. -/
def State.drainElem (s : State) (p fig : Nat) (o : DrainOp) (i j : Nat) : Nat × Flags :=
  let b := (s.core o.core).bank o.bank
  if o.rsRow.isSome && (b.at i j).tag = .fin then ((b.at i j).x.toNat, Flags.none)
  else
    let rm := match o.rowMul with | some r => s.spmF32 o.core (512 * r) i | none => one32
    let (v, f1) := drainValue b i j (fFP32.decode o.mul.toNat) rm
    let r := s.drawAt p fig o.conv o.at0.list (o.at0.row + (i - o.first)) (o.at0.col + j)
    let (code, f2) := fmtConvert o.dst o.conv.rnd o.conv.sat r (if o.rsRow.isSome then b.grid + 48 else 0) v
    (code, f1.or f2)

/-- The grid whose row scale a drain writes. -/
def drainGrid (t : Option Step) (b : Bank) : Int :=
  match t with
  | some t => (match t.rowsAs with | .zeros g => g | _ => b.grid)
  | none => b.grid

/-- The effect of a drain. The data stand from the first drained row on; the row-scale plane is indexed by the bank's row, which the rule
leaves open (DESIGN CHOICE, log 88). -/
def drainRun (p fig : Nat) (o : DrainOp) (t : Option Step) (s : State) : Res :=
  let b0 := (s.core o.core).bank o.bank
  let s0 := s.modCore o.core (fun k => k.setBank o.bank { b0 with bad := o.bad.foldl insAsc b0.bad })
  let is := (List.range o.count).map (o.first + ·)
  let es := is.flatMap (fun i => (List.range 128).map (fun j =>
    if s0.drainsZero o.core t i j then (0, Flags.none) else s0.drainElem p fig o i j))
  let bytes := packCodes o.dst (es.map (·.1))
  let rs := match o.rsRow with
    | some r => is.map (fun i => (512 * r + 4 * i, leBytes 4 (toTwos 32 (drainGrid t b0 + 48))))
    | none => []
  let wr := rowsOf (512 * o.dstRow) bytes.length ++ (if o.count = 0 then [] else o.rsRow.toList)
  let s1 := touchRows p fig o.core o.slot o.rowMul.toList wr s0
  let s2 := detectBank p fig o.core o.bank (is.filter (fun i => ((s0.core o.core).bank o.bank).bad.contains i)) s1
  let s3 := spmWrite o.core (512 * o.dstRow) bytes s2
  .next (raise o.core o.slot (Flags.all (es.map (·.2))) (rs.foldl (fun t x => spmWrite o.core x.1 x.2 t) s3))

/-- What the tile program makes of a drain; a drain with a row-scale plane rounds nothing. -/
def State.admitDrain (s : State) (o : DrainOp) : Admit :=
  let c := if o.rsRow.isSome then convRne else normConv o.conv
  s.admission o.core o.slot o.bank
    (fun t => .drain t.other o.count o.dst c (placeFor c { o.at0 with row := o.at0.row - o.first }) o.mul o.rowMul.isSome o.rsRow.isSome)
    [o.dstRow, o.rowMul.getD 0, o.rsRow.getD 0]

/-- ACM_DRAIN (R140, R141), where the tile program issues it. -/
def execAcmDrain (o : DrainOp) (s : State) : Res :=
  match s.issuing o.core o.slot with
  | none => .next s
  | some (p, fig) =>
    if !drainOk o || !s.rsMulOk o then .next s
    else ordered (s.admitDrain o) (drainRun p fig o) s

/-- One value onto the grid of a fill (R142); the value bits under an infinity or NaN tag are 0, which the rule leaves open (DESIGN CHOICE,
log 88). -/
def fillElem (g : Int) (v : Num) : Work :=
  match v with
  | .nan => ⟨0, 3, false, false, false⟩
  | .inf n => ⟨0, if n then 2 else 1, false, false, false⟩
  | .fin n m e =>
    let (x, off) := placeOn (if n then -(m : Int) else m) e g
    let (y, o) := saturate x
    ⟨y, 0, o, off, false⟩

/-- Row scale `i` of a fill. -/
def State.fillRs (s : State) (o : FillOp) (i : Nat) : Int := match o.rsRow with | some r => rsUsed (s.spmI32 o.core (512 * r) i) | none => 0

/-- A fill stands on the grid of the merged state it loads: RS − 48 of its rows, the least where they differ (R268, log 89). -/
def State.mergedGrid (s : State) (o : FillOp) (t : Step) : Bool :=
  let rs := ((List.range 128).filter (fun i => t.real i && !((s.core o.core).row i).pad && ((s.core o.core).row i).m.isSome)).map (s.fillRs o)
  match rs with
  | [] => true
  | x :: xs => decide (o.grid + 48 = xs.foldl min x)

/-- The effect of a fill. -/
def fillRun (p fig : Nat) (o : FillOp) (t : Option Step) (s : State) : Res :=
  let ws := (List.range 128).map (fun i => (List.range 128).map (fun j =>
    if realRow t i && realCol t j then
      fillElem o.grid (fmtDecode o.src (s.spmCode o.core o.src (512 * o.srcRow) (128 * i + j)) 0 (s.fillRs o i))
    else fillElem o.grid Num.zero))
  let el (i j : Nat) : Elem :=
    match (ws.getD i [])[j]? with
    | some w => ⟨BitVec.ofInt 128 w.x, numTag w.tag⟩
    | none => Elem.zero
  let fl := workFlags ws
  let rd := rowsOf (512 * o.srcRow) (16384 * (fmtBits o.src / 8)) ++ o.rsRow.toList
  .next (raise o.core o.slot fl
    ((touchRows p fig o.core o.slot rd [] s).modCore o.core (fun k => k.setBank o.bank ⟨elemsOf el, o.grid, fl.ovf, []⟩)))

/-- A fill whose formats and grid R142 admits. -/
def fillOk (o : FillOp) : Bool :=
  (o.src == .fp32 || o.src == .int32 || o.src == .xs128) && (o.rsRow.isNone || o.src == .xs128) && decide (-16432 ≤ o.grid)
    && decide (o.grid ≤ 16335)

/-- What the tile program makes of a fill. -/
def State.admitFill (s : State) (o : FillOp) : Admit :=
  s.admission o.core o.slot o.bank (fun t => .fill t.other o.src o.rsRow.isSome (if t.anyGrid && s.mergedGrid o t then none else some o.grid))
    [o.srcRow, o.rsRow.getD 0]

/-- ACM_FILL (R140, R142), where the tile program issues it. -/
def execAcmFill (o : FillOp) (s : State) : Res :=
  match s.issuing o.core o.slot with
  | none => .next s
  | some (p, fig) => if fillOk o then ordered (s.admitFill o) (fillRun p fig o) s else .next s

/-- The effect of a shift (R143): amounts above 127 act as 127, a negative one as 0 with INV. The rows keep their parity (log 87). -/
def shiftRun (p fig c slot bank row : Nat) (t : Option Step) (s : State) : Res :=
  let b := (s.core c).bank bank
  let d (i : Nat) : Int := s.spmI32 c (512 * row) i
  let amt (i : Nat) : Nat := min 127 (d i).toNat
  let el (i j : Nat) : Elem :=
    let e := b.at i j
    if e.tag = .fin then { e with x := BitVec.ofInt 128 (e.x.toInt / 2 ^ amt i) } else e
  let inx := b.elems.any (fun x => realRow t (x.1 / 128) && decide (x.2.tag = .fin) && decide (x.2.x.toInt % 2 ^ amt (x.1 / 128) ≠ 0))
  let inv := (List.range 128).any (fun i => realRow t i && decide (d i < 0))
  let s2 := detectBank p fig c bank b.bad (touchRows p fig c slot [row] [] s)
  .next (raise c slot ⟨false, false, inx, inv⟩ (s2.modCore c (fun k => k.setBank bank { b with elems := elemsOf el })))

/-- What the tile program makes of a shift. -/
def State.admitShift (s : State) (c slot bank row : Nat) : Admit := s.admission c slot bank (fun t => .shift t.other) [row]

/-- ACM_SHIFT (R143), where the tile program issues it. -/
def execAcmShift (c slot bank row : Nat) (s : State) : Res :=
  match s.issuing c slot with
  | none => .next s
  | some (p, fig) => ordered (s.admitShift c slot bank row) (shiftRun p fig c slot bank row) s

/-- ACM_CLEAR (R140). -/
def execAcmClear (c bank : Nat) (s : State) : Res :=
  if (s.core c).fenced || (s.core c).halted then .next s else .next (s.modCore c (fun k => k.setBank bank Bank.clear))

/-- ACM_STATUS (R140): GRID in bits [15:0] and ACM_SAT in bit 16 of a scalar register (log 30). -/
def execAcmStatus (c bank reg : Nat) (s : State) : Res :=
  if (s.core c).fenced || (s.core c).halted then .next s
  else
    let b := (s.core c).bank bank
    .next (s.modCore c (fun k => { k with regs := kset 0 k.regs reg (BitVec.ofNat 64 (toTwos 16 b.grid + b2n b.sat * 2 ^ 16)) }))

end Sys2Proof.Machine
end

