-- ==== Sys2Proof/Machine/Crypto.lean ====
section
/-! DEFINITION. SHA-384 and the verification of an ECDSA P-384 signature, which R517 and R519 name. PRESUMED (log 9): the spec names the
standards and does not restate them; the constants and steps are those of FIPS 180-4, FIPS 186-5 and SEC 1. -/

namespace Sys2Proof.Machine

/-! ### SHA-384 -/

/-- Bytes of a string read with the first byte most significant. -/
def ofBe (bs : List Byte) : Nat := bs.foldl (fun a b => 256 * a + b.toNat) 0

/-- The first primes, up to 409. -/
def smallPrimes : List Nat :=
  (List.range 410).filter (fun n => decide (2 ≤ n) && (List.range 21).all (fun d => decide (d < 2) || decide (n ≤ d) || decide (n % d ≠ 0)))

/-- The largest `x` below 2^`bits` whose `k`-th power is at most `v`, found bit by bit. -/
def rootFloor (k v bits : Nat) : Nat :=
  (List.range bits).foldl (fun x i => let y := x + 2 ^ (bits - 1 - i); if y ^ k ≤ v then y else x) 0

/-- The first 64 bits of the fraction of the `k`-th root of `p`. -/
def rootFraction (k p : Nat) : BitVec 64 := BitVec.ofNat 64 (rootFloor k (p * 2 ^ (64 * k)) 70)

/-- The addends of the 80 rounds: the cube roots of the first 80 primes. -/
def roundAddends : List (BitVec 64) := smallPrimes.map (rootFraction 3)

/-- The first chaining value of SHA-384: the square roots of the ninth to the sixteenth prime. -/
def sha384Start : List (BitVec 64) := ((smallPrimes.drop 8).take 8).map (rootFraction 2)

/-- A word turned right by each of some amounts, combined by exclusive or; the last amount shifts where `shift` is set. -/
def turned (x : BitVec 64) (turns : List Nat) (shift : Option Nat) : BitVec 64 :=
  turns.foldl (fun acc n => acc ^^^ x.rotateRight n) (match shift with | some n => x >>> n | none => 0)

/-- Word `t` of a block's schedule follows from the words before it, newest first in `ws`. -/
def nextWord (ws : List (BitVec 64)) : BitVec 64 :=
  turned (ws.getD 1 0) [19, 61] (some 6) + ws.getD 6 0 + turned (ws.getD 14 0) [1, 8] (some 7) + ws.getD 15 0

/-- The 80 schedule words of a block, newest first. -/
def wordsOf (block : List Byte) : List (BitVec 64) :=
  let first := (List.range 16).map (fun i => BitVec.ofNat 64 (ofBe ((block.drop (8 * i)).take 8)))
  (List.range 64).foldl (fun ws _ => nextWord ws :: ws) first.reverse

/-- One round on the eight working words `v`, with the sum of its schedule word and its addend. -/
def mixWords (v : List (BitVec 64)) (add : BitVec 64) : List (BitVec 64) :=
  let x (i : Nat) : BitVec 64 := v.getD i 0
  let pick := (x 4 &&& x 5) ||| (~~~ x 4 &&& x 6)
  let most := (x 0 &&& x 1) ||| (x 2 &&& (x 0 ||| x 1))
  let inner := x 7 + turned (x 4) [14, 18, 41] none + pick + add
  (inner + turned (x 0) [28, 34, 39] none + most) :: v.take 3 ++ (x 3 + inner) :: (v.drop 4).take 3

/-- The chaining value after one block of 128 bytes. -/
def shaBlock (h : List (BitVec 64)) (block : List Byte) : List (BitVec 64) :=
  h.zipWith (· + ·) ((((wordsOf block).reverse.zipWith (· + ·) roundAddends)).foldl mixWords h)

/-- A message padded to whole blocks: a 1 bit, zeros, and its length in bits in 16 bytes. -/
def shaPad (bs : List Byte) : List Byte :=
  bs ++ 0x80 :: List.replicate ((239 - bs.length % 128) % 128) 0 ++ (leBytes 16 (8 * bs.length)).reverse

/-- SHA-384 of a byte string. -/
def sha384 (bs : List Byte) : BitVec 384 :=
  let m := shaPad bs
  let h := (List.range (m.length / 128)).foldl (fun h i => shaBlock h ((m.drop (128 * i)).take 128)) sha384Start
  BitVec.ofNat 384 ((h.take 6).foldl (fun a x => 2 ^ 64 * a + x.toNat) 0)

/-! ### ECDSA on P-384 -/

/-- The field prime, the coefficient b, the base point and its order; the coefficient a is -3. -/
def ecP : Nat := 2 ^ 384 - 2 ^ 128 - 2 ^ 96 + 2 ^ 32 - 1
def ecB : Nat := 0xb3312fa7e23ee7e4988e056be3f82d19181d9c6efe8141120314088f5013875ac656398d8a2ed19d2a85c8edd3ec2aef
def ecGx : Nat := 0xaa87ca22be8b05378eb1c71ef320ad746e1d3b628ba79b9859f741e082542a385502f25dbf55296c3a545e3872760ab7
def ecGy : Nat := 0x3617de4a96262c6f5d9e98bf9292dc29f8f41dbd289a147ce9da3113b5f0b8c00a60b1ce1d7e819d7a431d7c90ea0e5f
def ecN : Nat := 0xffffffffffffffffffffffffffffffffffffffffffffffffc7634d81f4372ddf581a0db248b0a77aecec196accc52973

/-- A point (X / Z^2, Y / Z^3); Z = 0 is the point at infinity. -/
structure EcPoint where
  x : Nat
  y : Nat
  z : Nat
  deriving DecidableEq, Repr

/-- The difference of two field elements. -/
def ecSub (a b : Nat) : Nat := (a + ecP - b % ecP) % ecP

/-- Twice a point. -/
def EcPoint.double (q : EcPoint) : EcPoint :=
  if q.z = 0 ∨ q.y = 0 then ⟨1, 1, 0⟩
  else
    let yy := q.y * q.y % ecP
    let s := 4 * q.x * yy % ecP
    let zz := q.z * q.z % ecP
    let m := 3 * (ecSub q.x zz) * (q.x + zz) % ecP
    let x := ecSub (m * m) (2 * s)
    ⟨x, ecSub (m * ecSub s x) (8 * yy * yy), 2 * q.y * q.z % ecP⟩

/-- The sum of two points. -/
def EcPoint.add (q r : EcPoint) : EcPoint :=
  if q.z = 0 then r
  else if r.z = 0 then q
  else
    let qq := q.z * q.z % ecP
    let rr := r.z * r.z % ecP
    let u1 := q.x * rr % ecP
    let u2 := r.x * qq % ecP
    let s1 := q.y * rr * r.z % ecP
    let s2 := r.y * qq * q.z % ecP
    if u1 = u2 then (if s1 = s2 then q.double else ⟨1, 1, 0⟩)
    else
      let h := ecSub u2 u1
      let d := ecSub s2 s1
      let hh := h * h % ecP
      let hhh := hh * h % ecP
      let v := u1 * hh % ecP
      let x := ecSub (d * d) (hhh + 2 * v)
      ⟨x, ecSub (d * ecSub v x) (s1 * hhh), q.z * r.z * h % ecP⟩

/-- a * G + b * Q, over the low `n` bits of the two factors, the highest first. -/
def ecMul2 (n a b : Nat) (q : EcPoint) : EcPoint :=
  let g : EcPoint := ⟨ecGx, ecGy, 1⟩
  let gq := g.add q
  (List.range n).foldl (fun r i =>
    let d := r.double
    match bit a (n - 1 - i), bit b (n - 1 - i) with
    | true, true => d.add gq
    | true, false => d.add g
    | false, true => d.add q
    | false, false => d) ⟨1, 1, 0⟩

/-- x to the power `e` modulo `m`, over the low `n` bits of the exponent. -/
def powMod (n x e m : Nat) : Nat :=
  (List.range n).foldl (fun r i => let d := r * r % m; if bit e (n - 1 - i) then d * x % m else d) 1

/-- The public key is an uncompressed SEC 1 point of the curve (R517): 04, then X and Y, 48 bytes each. -/
def ecKey (key : List Byte) : Option EcPoint :=
  let x := ofBe ((key.drop 1).take 48)
  let y := ofBe ((key.drop 49).take 48)
  if key.length = 97 ∧ key.head? = some 4 ∧ x < ecP ∧ y < ecP ∧ y * y % ecP = (ecSub (x * x * x) (3 * x) + ecB) % ecP then some ⟨x, y, 1⟩
  else none

/-- A signature r, s over a digest verifies with a public key (R517, R519). -/
def ecdsaP384 (key : List Byte) (digest : BitVec 384) (sig : List Byte) : Bool :=
  let r := ofBe (sig.take 48)
  let s := ofBe ((sig.drop 48).take 48)
  match ecKey key with
  | none => false
  | some q =>
    if sig.length ≠ 96 ∨ r = 0 ∨ s = 0 ∨ ecN ≤ r ∨ ecN ≤ s then false
    else
      let w := powMod 384 s (ecN - 2) ecN
      let t := ecMul2 384 (digest.toNat * w % ecN) (r * w % ecN) q
      if t.z = 0 then false
      else
        let zi := powMod 384 t.z (ecP - 2) ecP
        decide (t.x * zi * zi % ecP % ecN = r)

end Sys2Proof.Machine
end

