-- ==== Sys2Proof/Machine/Copies.lean ====
section
/-! DEFINITION. Fremund's background copies line by line, for eviction, restore and migration (R253, R254, R358, R371, R382, R407,
R529). -/

namespace Sys2Proof.Machine

/-- The place of a VA of partition `p` through its mapping. -/
def State.locVa (s : State) (p va : Nat) : Option Loc :=
  match s.leafAt p va with
  | some (b, l) => s.locOf b l va
  | none => none

/-- The place `i` bytes on, inside the same line. -/
def Loc.plus (l : Loc) (i : Nat) : Loc :=
  match l with
  | .hbm ch ca => .hbm ch (ca + i)
  | .far q a => .far q (a + i)

/-- `n` bytes from a place; none where one of them is uncorrectable. -/
def State.bytesAt (s : State) (p : Nat) (l : Loc) (n : Nat) : Option (List Byte) :=
  match n with
  | 0 => some []
  | k + 1 =>
    match s.byteAt p l, s.bytesAt p (l.plus 1) k with
    | .ok b, some bs => some (b :: bs)
    | _, _ => none

/-- Count a line that a copy reads or writes for partition `p`, in its accounts and against its share (R349, R529). -/
def countLine (p : Nat) (l : Loc) (s : State) : State :=
  match l with
  | .hbm ch _ => chargeSlots ch p 1 (acctAdd p 2 64 s)
  | .far q _ => chargeFar q p 1 (acctAdd p 4 64 s)

/-- Give a line the poison code (R356, R371). -/
def poisonAt (l : Loc) (s : State) : State :=
  match l with
  | .hbm ch ca => s.modChannel ch (fun c => { c with poison := insAsc c.poison (ca / 64) })
  | .far q a => s.modFar q (fun f => { f with poison := insAsc f.poison (a / 64) })

/-- Write a whole line at a place for partition `p`; an HBM line is counted by its controller (R352, R529). -/
def putLine (p : Nat) (l : Loc) (bs : List Byte) (s : State) : State :=
  match l with
  | .hbm ch ca =>
    if s.serve p ch = .lost then lostWrite ch ca noFig [p] s
    else wcbAccept ch (ca / 64) p true (bs.zipIdx.map (fun x => (x.2, x.1))) s
  | .far q a => countLine p l (farPut q a bs s)

/-- Copy one line: an uncorrectable source is reported and its copy carries the poison code. -/
def copyLine (p : Nat) (src dst : Loc) (s : State) : State :=
  let s1 := countLine p src s
  match s.bytesAt p src 64 with
  | some bs => putLine p dst bs s1
  | none => poisonAt dst (putLine p dst (List.replicate 64 0) (fwUncorrectable p noFig src s1))

/-- Copy `n` lines from VA `a` to VA `b` of partition `p`. -/
def copyVas (p a b n : Nat) (s : State) : State :=
  (List.range n).foldl (fun t i =>
    match t.locVa p (a + 64 * i), t.locVa p (b + 64 * i) with
    | some x, some y => copyLine p x y t
    | _, _ => t) s

/-- The first of `n` lines from VA `a` that is uncorrectable. -/
def State.badLine (s : State) (p a n : Nat) : Option Loc :=
  (List.range n).findSome? (fun i =>
    match s.locVa p (a + 64 * i) with
    | some x => if (s.bytesAt p x 64).isSome then none else some x
    | none => none)

end Sys2Proof.Machine
end

