-- ==== Sys2Proof/Machine/SnapBody.lean ====
section
/-! DEFINITION. Table images (R422, R437), board NVM bytes (R625, R626), slot headers and bodies of snapshots (R567 to R576). -/

namespace Sys2Proof.Machine

/-! ### Table images -/

/-- A 64-byte image header and its records (R422); the CRC covers the records (log 34). -/
def tableImage (table count : Nat) (recs more : List Byte) : List Byte :=
  leBytes 4 (count % 2 ^ 16 + table * 2 ^ 16 + 2 ^ 24) ++ leBytes 4 (crc32 recs).toNat ++ List.replicate 56 0 ++ recs ++ more

/-- A plane's route table as TABLE_READ returns it (R422). -/
def Plane.routeImage (pl : Plane) : List Byte :=
  tableImage 1 1024 ((List.range 1024).flatMap (fun n => leBytes 8 (kget 0 pl.routes n).toNat)) []

/-- The 32 bytes of group `n` whose children begin at entry `base` of the node list (R437). -/
def Group.record (g : Group) (n base : Nat) : List Byte :=
  leBytes 32 (n + b2n g.root * 2 ^ 8 + b2n g.tempo * 2 ^ 9 + g.members * 2 ^ 146 + g.subtree * 2 ^ 157 + g.upNode * 2 ^ 168
    + g.children.length * 2 ^ 178 + base * 2 ^ 184)

/-- The records of a plane's groups in ascending number, and their node list. -/
def groupBytes (gs : List (Nat × Group)) : List Byte × List Byte :=
  gs.foldl (fun acc g => (acc.1 ++ g.2.record g.1 (acc.2.length / 2), acc.2 ++ g.2.children.flatMap (leBytes 2))) ([], [])

/-- A plane's group table as TABLE_READ returns it (R422, R437). -/
def Plane.groupImage (pl : Plane) : List Byte :=
  let gs := (List.range 256).filterMap (fun n => (kget none pl.groups n).map (fun g => (n, g)))
  let (recs, nodes) := groupBytes gs
  tableImage 2 gs.length recs nodes

/-! ### Board NVM -/

/-- `n` bytes of board NVM from offset `a`; bytes never written read as erased (R626, log 35). -/
def State.nvmRead (s : State) (a n : Nat) : List Byte := (List.range n).map (fun i => kget 0xFF s.nvm (a + i))

/-- Bytes written to board NVM from offset `a`. -/
def nvmPut (m : KMap Byte) (a : Nat) (bs : List Byte) : KMap Byte :=
  bs.zipIdx.foldl (fun m x => kset 0xFF m (a + x.2) x.1) m

def nvmWrite (a : Nat) (bs : List Byte) (s : State) : State := { s with nvm := nvmPut s.nvm a bs }

/-- Issue an NVM request under the lowest tag that is free, if fewer than 32 are outstanding and none names the line (R625).
OP: 0 READ, 1 WRITE, 2 ERASE. `why`: 0 no follow-up, 1 + p a snapshot of partition `p`. -/
def nvmAsk (op addr lines : Nat) (data : BitVec 512) (why : Nat) (s : State) : State :=
  let free := (List.range 32).find? (fun t => !s.nvmReqs.any (fun r => decide (r.tag = t)))
  match free with
  | some t =>
    if s.nvmReqs.any (fun r => decide (r.addr = addr)) then s
    else { s with nvmReqs := s.nvmReqs ++ [⟨t, op, addr, lines, data, why⟩] }
  | none => s

/-! ### Slots -/

/-- BLK_VER of the block (R8). -/
def blkVer : Nat := 0x201

/-- NVM offset of slot `i` (R566). -/
def Snap.slotAt (n : Snap) (i : Nat) : Nat := n.nvmBase + i * n.slotMb * 1000000

/-- The slot after `i` that is not BAD, in rotation (R566, R577). -/
def Snap.slotAfter (n : Snap) (i : Nat) : Nat :=
  (((List.range n.slots).map (fun k => (i + 1 + k) % n.slots)).find? (fun k => !n.bad.contains k)).getD ((i + 1) % max 1 n.slots)

/-- A slot header of STATE `st` and WEAR `wear` over header bytes 0x10 to 0x4F (R568). -/
def slotHeader (st wear : Nat) (f : List Byte) : List Byte :=
  let h := f.take 0x38 ++ leBytes 4 wear ++ f.drop 0x3C ++ List.replicate (0xFB0) 0
  leBytes 4 0x0A5E5C01 ++ leBytes 4 1 ++ leBytes 4 st ++ leBytes 4 (crc32 h).toNat ++ h

/-- What a slot header says. -/
structure SlotHdr where
  state   : Nat
  snapSeq : Nat
  beat    : Nat
  iteration : Nat
  fig     : Nat
  chorCrc : Nat
  node    : Nat
  blkVer  : Nat
  bodyBytes : Nat
  wear    : Nat
  ranges  : Nat
  deriving DecidableEq, Repr

/-- The header that 4,096 bytes hold, if MAGIC, FORMAT and HDR_CRC are right (R568, R569). -/
def readHeader (bs : List Byte) : Option SlotHdr :=
  let w (o n : Nat) : Nat := ofLe ((bs.drop o).take n)
  if w 0 4 = 0x0A5E5C01 ∧ w 4 4 = 1 ∧ w 0xC 4 = (crc32 (bs.drop 0x10)).toNat then
    some ⟨w 8 4, w 0x10 8, w 0x18 8, w 0x28 4, w 0x2C 3, w 0x30 4, w 0x36 2, w 0x38 4, w 0x40 8, w 0x48 4, w 0x4C 4⟩
  else none

/-- The valid snapshot of slot `i` of partition `p` (R569). -/
def State.slotHdr (s : State) (p i : Nat) : Option SlotHdr :=
  (readHeader (s.nvmRead ((s.part p).snap.slotAt i) 4096)).filter (fun h => decide (h.state = 2))

/-- The valid slot with the highest SNAP_SEQ (R566). -/
def State.latestSlot (s : State) (p : Nat) : Option (Nat × SlotHdr) :=
  ((List.range (s.part p).snap.slots).filterMap (fun i => (s.slotHdr p i).map (fun h => (i, h)))).foldl
    (fun m x => match m with
      | none => some x
      | some y => if y.2.snapSeq < x.2.snapSeq then some x else m) none

/-! ### Bodies -/

/-- Pad to a 512-byte boundary (R574). -/
def pad512 (bs : List Byte) : List Byte := bs ++ List.replicate ((512 - bs.length % 512) % 512) 0

/-- Bytes of a section. -/
def up512 (n : Nat) : Nat := ceilDiv n 512 * 512

/-- Bytes of a range (R571). -/
def SnapRange.bytes (r : SnapRange) : Nat := match r with | .mem _ n => n | .spm _ _ n => 512 * n

/-- Bytes of the fixed sections of a body but its data-position record (R574). -/
def Plane.imageBytes (pl : Plane) : Nat := up512 pl.groupImage.length + up512 pl.routeImage.length

/-- BODY_BYTES of a manifest (R574). -/
def Manifest.bodyBytes (m : Manifest) (pl : Plane) : Nat :=
  512 + up512 m.posBytes + pl.imageBytes + (m.ranges.map (fun r => up512 r.bytes)).sum

/-- Bytes of a CRC table (R567). -/
def crcBytes (body : Nat) : Nat := ceilDiv (4 * ceilDiv body (2 ^ 20)) 4096 * 4096

/-- The CRC table of a body (R567). -/
def crcTable (body : List Byte) : List Byte :=
  let t := (List.range (ceilDiv body.length (2 ^ 20))).flatMap (fun j =>
    leBytes 4 (crc32 ((body.drop (j * 2 ^ 20)).take (2 ^ 20))).toNat)
  t ++ List.replicate (crcBytes body.length - t.length) 0

/-- The Spin section (R574). -/
def spinSection (q : Part) : List Byte :=
  pad512 (q.spin.flatMap (fun k => leBytes 8 k.1.toNat ++ leBytes 4 k.2.toNat ++ List.replicate 4 0))

/-- SNAP_FAILED with the status of its cause, SNAP_STAT's record of it (R577). -/
def snapFail (p slot cause status : Nat) (s : State) : State :=
  postEvent p 0xA1 (payloadOf noFig slot status)
    (s.modPart p (fun q => { q with snap := { q.snap with failed := true, lastCause := cause } }))

/-- The staging area is in use (R576). -/
def Snap.busy (n : Snap) : Bool := n.staging.isSome

/-- Start the snapshot of Figure `fid` with schedule beat `start` (R573, R574, R576): the fixed sections are captured now, the ranges
by the copy. -/
def snapCapture (p fid start : Nat) (m : Manifest) (s : State) : State :=
  let q := s.part p
  if q.snap.busy then snapFail p q.snap.nextSlot 1 stSnapBusy s
  else if q.snap.usable < 2 then snapFail p q.snap.nextSlot 4 stSnapInvalid s
  else
  match s.readVa p m.posVa m.posBytes with
  | .bad l => snapFail p q.snap.nextSlot 2 stSnapInvalid (fwUncorrectable p noFig l s)
  | .unmapped => snapFail p q.snap.nextSlot 2 stSnapInvalid s
  | .ok pos =>
    let fixed := spinSection q ++ pad512 pos ++ pad512 q.plane.groupImage ++ pad512 q.plane.routeImage
    let it := match q.run with | some r => r.iteration | none => 0
    let crc := match q.chor with | some c => c.crc.toNat | none => 0
    let h := leBytes 8 (q.snap.snapSeq + 1) ++ leBytes 8 start ++ leBytes 8 s.beat.cnt.toNat ++ leBytes 4 it ++ leBytes 4 fid
      ++ leBytes 4 crc ++ leBytes 2 (s.jobTag p).toNat ++ leBytes 2 q.plane.node.toNat ++ leBytes 4 blkVer
      ++ leBytes 4 s.fw.version.toNat ++ leBytes 8 (m.bodyBytes q.plane) ++ leBytes 4 0 ++ leBytes 4 m.ranges.length
    s.modPart p (fun q => { q with snap := { q.snap with staging := some (start, fixed), stageHdr := h, stageFig := fid } })

end Sys2Proof.Machine
end

