-- ==== Sys2Proof/Machine/Vector.lean ====
section
/-! DEFINITION. The VU and SFU operations: elementwise arithmetic and conversions (R101 to R108, R118 to R122), the integer-shift
softmax (R165, R169 to R185), backward probabilities and dS (R198 to R200), merging (R267), ROPE, SPLIT, the E4M3 convention
conversions and OPT_ADAM (R106, R146, R162, R214). -/

namespace Sys2Proof.Machine

/-! ### Running an operation -/

/-- An operation of slot `i` of core `c` that reads rows `rd`, writes byte runs and raises flags (R115, R323, R331). -/
def vuApply (c i : Nat) (rd : List Nat) (ws : List (Nat × List Byte)) (fl : Flags) (s : State) : Res :=
  match s.issuing c i with
  | none => .next s
  | some (p, fig) =>
    let wr := ws.flatMap (fun w => rowsOf w.1 w.2.length)
    .next (raise c i fl (ws.foldl (fun t w => spmWrite c w.1 w.2 t) (touchRows p fig c i rd wr s)))

/-- The partition and FIG_ID an operation draws for. -/
def State.who (s : State) (c i : Nat) : Nat × Nat := (s.issuing c i).getD (0, 0)

/-- A value of an SPM run of elements without a block scale. -/
def State.spmVal (s : State) (c : Nat) (f : Fmt) (row i : Nat) (rs : Int) : Num :=
  fmtDecode f (s.spmCode c f (512 * row) i) 0 rs

/-- Element (r, k) of a tensor of `cols` columns in SPM, with its block scale where the format has one (R94). -/
def State.spmElem (s : State) (c : Nat) (f : Fmt) (row sc cols : Nat) (rs : Int) (r k : Nat) : Num :=
  let scale := if fmtIsBlock f then (s.spmByte c (512 * sc + r * (cols / 32) + k / 32)).toNat else 0
  fmtDecode f (s.spmCode c f (512 * row) (r * cols + k)) scale rs

/-- SPM rows that `n` elements of a format take from row `row`. -/
def elemRows (f : Fmt) (row n : Nat) : List Nat := rowsOf (512 * row) ((n * fmtBits f + 7) / 8)

/-! ### Elementwise arithmetic -/

/-- The formats VU arithmetic works in (R118). -/
def vuFmt (f : Fmt) : Option FloatFmt :=
  match f with
  | .fp32 => some fFP32
  | .fp16 => some fFP16
  | .bf16 => some fBF16
  | _ => none

/-- RUP and RDN only in strict mode, SR never (R101, R118). -/
def vuRndOk (strict : Bool) (r : Rnd) : Bool :=
  match r with
  | .rne => true
  | .rtz => true
  | .sr => false
  | _ => strict

/-- An elementwise operation (R118 to R122). -/
def vuArith (o : ArithOp) (s : State) : Res :=
  match vuFmt o.fmt with
  | none => .next s
  | some f =>
    if !vuRndOk o.strict o.rnd then .next s
    else
      let v (row i : Nat) : Num := f.decode (s.spmCode o.core o.fmt (512 * row) i)
      let rs := (List.range o.count).map (fun i => vuOp o.fn f o.strict o.rnd (v o.aRow i) (v o.bRow i) (v o.cRow i))
      let rd := [o.aRow, o.bRow, o.cRow].flatMap (fun r => elemRows o.fmt r o.count)
      vuApply o.core o.slot rd [(512 * o.dstRow, packCodes o.fmt (rs.map (fun x => f.encode x.1)))] (Flags.all (rs.map (·.2))) s

/-! ### Conversions -/

/-- Convert a row of values that begins at output column `col` to a format: codes, scale bytes and flags (R95, R96, R102 to R108). -/
def State.convertRow (s : State) (p fig : Nat) (f : Fmt) (c : Conv) (list row col : Nat) (rs : Int) (vs : List Num) :
    List Nat × List Nat × Flags :=
  let draw (k : Nat) := s.drawAt p fig c list row (col + k)
  if fmtIsBlock f then
    let bs := (List.range (vs.length / 32)).map (fun b =>
      fmtBlock f c.rnd ((List.range 32).map (fun k => draw (32 * b + k))) ((vs.drop (32 * b)).take 32))
    (bs.flatMap (·.2.1), bs.map (·.1), Flags.all (bs.map (·.2.2)))
  else
    let xs := vs.zipIdx.map (fun v => fmtConvert f c.rnd c.sat (draw v.2) rs v.1)
    (xs.map (·.1), [], Flags.all (xs.map (·.2)))

/-- Formats a conversion may join: XS128 only with FP32 and INT32 (R98). -/
def cvtOk (a b : Fmt) : Bool :=
  (a != .xs128 || b == .fp32 || b == .int32 || b == .xs128) && (b != .xs128 || a == .fp32 || a == .int32 || a == .xs128)

/-- A conversion in registers (R101 to R108). -/
def vuConvert (o : CvtOp) (s : State) : Res :=
  let (p, fig) := s.who o.core o.slot
  if !cvtOk o.src o.dst || decide (o.conv.rnd = .rup) || decide (o.conv.rnd = .rdn) || decide (rsUsed o.rs ≠ o.rs) then .next s
  else
    let rows := (List.range o.rows).map (fun r =>
      s.convertRow p fig o.dst o.conv o.at0.list (o.at0.row + r) o.at0.col o.rs
        ((List.range o.cols).map (fun k => s.spmElem o.core o.src o.srcRow o.srcSc o.cols o.rs r k)))
    let scs := rows.flatMap (·.2.1)
    let n := o.rows * o.cols
    let rd := elemRows o.src o.srcRow n ++ (if fmtIsBlock o.src then rowsOf (512 * o.srcSc) (n / 32) else [])
    let ws := [(512 * o.dstRow, packCodes o.dst (rows.flatMap (·.1)))]
      ++ (if fmtIsBlock o.dst then [(512 * o.dstSc, scs.map (BitVec.ofNat 8))] else [])
    orderedOrFree (s.admission o.core o.slot 0 (fun _ => .convert o.src o.dst (normConv o.conv) (placeFor o.conv o.at0) o.rows o.cols)
      [o.srcRow, o.dstRow]) (fun _ => vuApply o.core o.slot rd ws (Flags.all (rows.map (·.2.2)))) s

/-- CVT_FROM_E4M3X of one code (R106). -/
def fromE4m3x (sat : Bool) (c : Nat) : Nat × Flags :=
  if fld c 3 4 ≠ 15 then (c, Flags.none)
  else if fld c 0 3 = 7 then (0x7F, Flags.none)
  else (fld c 7 1 * 128 + (if sat then 0x77 else 0x78), flOvfInx)

/-- CVT_TO_E4M3X of one code (R106). -/
def toE4m3x (sat : Bool) (c : Nat) : Nat × Flags :=
  if fld c 3 4 ≠ 15 then (c, Flags.none)
  else if fld c 0 3 ≠ 0 then (0x7F, Flags.none)
  else if sat then (fld c 7 1 * 128 + 0x7E, flOvf)
  else (0x7F, flInv)

/-- Map the codes of `count` bytes. -/
def mapCodes (f : Nat → Nat × Flags) (c i count src dst : Nat) (s : State) : Res :=
  let xs := (s.spmBytes c (512 * src) count).map (fun b => f b.toNat)
  vuApply c i (rowsOf (512 * src) count) [(512 * dst, xs.map (fun x => BitVec.ofNat 8 x.1))] (Flags.all (xs.map (·.2))) s

/-- CVT_FROM_E4M3X. -/
def execCvtFromE4m3x (c i : Nat) (sat : Bool) (count src dst : Nat) (s : State) : Res := mapCodes (fromE4m3x sat) c i count src dst s

/-- CVT_TO_E4M3X. -/
def execCvtToE4m3x (c i : Nat) (sat : Bool) (count src dst : Nat) (s : State) : Res := mapCodes (toE4m3x sat) c i count src dst s

/-! ### Split operands -/

/-- The aligned group of 32 values (R146): E_g, the integers q, the tags, whether bits were lost. -/
structure Aligned where
  eg   : Int
  q    : List Int
  tags : List Nat
  lost : Bool
  deriving DecidableEq, Repr

/-- ⌊log₂ |v|⌋ of a nonzero finite value. -/
def logOf (v : Num) : Option Int :=
  match v with
  | .fin _ m e => if m = 0 then none else some (ilog m e)
  | _ => none

/-- A value's tag: 0 finite, 1 +∞, 2 −∞, 3 NaN (R132). -/
def valTag (v : Num) : Nat := match v with | .fin _ _ _ => 0 | .inf n => if n then 2 else 1 | .nan => 3

/-- Align 32 values for `n` pieces, W = 8n (R146). -/
def alignGroup (n : Nat) (vs : List Num) : Aligned :=
  let eg := (vs.filterMap logOf).foldl (fun (m : Option Int) x => match m with | none => some x | some y => some (max x y)) none
  let E := eg.getD (-149)
  let w : Int := 8 * n
  let one (v : Num) : Int × Bool :=
    match v with
    | .fin s m e =>
      let k := e + (w - 2 - E)
      let q := shiftNat m k
      (if s then -(q : Int) else q, decide (k < 0) && decide (m % 2 ^ (-k).toNat ≠ 0))
    | _ => (0, false)
  ⟨E, vs.map (fun v => (one v).1), vs.map valTag, vs.any (fun v => (one v).2)⟩

/-- The bytes of a K-step's planes for 128 aligned groups: the pieces from the highest, then the group exponents (R127, R147). -/
def splitBytes (n : Nat) (gs : List Aligned) : List Byte :=
  (List.range n).flatMap (fun i => gs.flatMap (fun g => g.q.map (fun q => BitVec.ofNat 8 (toTwos (8 * n) q / 2 ^ (8 * (n - 1 - i))))))
    ++ gs.flatMap (fun g => leBytes 2 (toTwos 16 g.eg)) ++ List.replicate 256 0

/-- SPM rows of a K-step of `n` pieces (R127). -/
def splitRows (n : Nat) : Nat := 8 * n + 1

/-- Write the split slab of a 128 × 32·`steps` operand from row `dst`; the tags of elements that are not finite stand beside their
high pieces (log 29). -/
def writeSplit (c dst n : Nat) (slab : List (List Aligned)) (s : State) : State :=
  slab.zipIdx.foldl (fun t x =>
    let base := 512 * (dst + splitRows n * x.2)
    let t1 := spmWrite c base (splitBytes n x.1) t
    let tg := x.1.zipIdx.flatMap (fun g => g.1.tags.zipIdx.filterMap (fun y =>
      if y.1 = 0 then none else some (base + 32 * g.2 + y.2, y.1)))
    t1.modCore c (fun k => { k with tags := tg.foldl (fun m y => kset 0 m y.1 y.2) k.tags })) s

/-- The slab of a function of (row, K index). -/
def slabOf (n steps : Nat) (f : Nat → Nat → Num) : List (List Aligned) :=
  (List.range steps).map (fun st => (List.range 128).map (fun m => alignGroup n ((List.range 32).map (fun k => f m (32 * st + k)))))

/-- INX of an alignment (R146). -/
def slabFlags (g : List (List Aligned)) : Flags := inxIf (g.any (fun l => l.any (·.lost)))

/-- Pieces of a wide format (R146). -/
def piecesOf (f : Fmt) : Option Nat := match f with | .fp16 => some 2 | .bf16 => some 2 | .fp32 => some 3 | _ => none

/-- VU SPLIT (R146, R147). -/
def execVuSplit (o : SplitOp) (s : State) : Res :=
  match s.issuing o.core o.slot, piecesOf o.fmt with
  | some (p, fig), some n =>
    let cols := 32 * o.groups
    let g := slabOf n o.groups (fun m k => s.spmVal o.core o.fmt o.srcRow (m * cols + k) 0)
    let wr := (List.range (splitRows n * o.groups)).map (o.dstRow + ·)
    let s1 := touchRows p fig o.core o.slot (elemRows o.fmt o.srcRow (128 * cols)) wr s
    .next (raise o.core o.slot (slabFlags g) (writeSplit o.core o.dstRow n g s1))
  | _, _ => .next s

/-- Bytes of a native 8-bit A slab of 128 keys or queries: K-step by K-step, row by row (R127). -/
def slab8 (f : Nat → Nat → Nat) : List Byte :=
  (List.range 4).flatMap (fun st => (List.range 128).flatMap (fun m =>
    (List.range 32).map (fun k => BitVec.ofNat 8 (f m (32 * st + k)))))

/-! ### Rows and pairs of a score tile -/

/-- The query token of tile row `i`, and whether the row is padded (R187, R258). In a decode tile `qBase` holds N_Q. -/
def pairToken (o : PairOp) (i : Nat) : Nat := if o.qrows = 0 then o.qBase + i else i % o.qrows
def pairPadded (o : PairOp) (i : Nat) : Bool :=
  if o.qrows = 0 then decide (o.qLen ≤ o.qBase + i) else decide (o.qBase ≤ i) || decide (o.qLen ≤ i % o.qrows)

/-- The pairs of a tile with what core `c` finds of them: the keys a failed walk lost (R239) and the bytes of the block's bitmap (R168). -/
structure Pairs where
  op   : PairOp
  lost : List Nat
  bits : List Byte
  deriving DecidableEq, Repr

/-- The attention parameters of the Figure in slot `i` of core `c`. -/
def State.slotAttn (s : State) (c i : Nat) : Option (Nat × AttnParams) :=
  match s.slotFigure c i with
  | none => none
  | some (p, _, f) =>
    match f.par with
    | .attn a => some (p, a)
    | .backward a _ => some (p, a)
    | .decode a _ => some (p, a)
    | .merge a => some (p, a)
    | _ => none

def State.pairsAt (s : State) (c i : Nat) (o : PairOp) : Pairs :=
  ⟨o, s.lostKeys c o.kBase, match o.mask with
    | .full => []
    | .bitmap b =>
      match s.slotAttn c i with
      | some (p, a) => (s.table p (a.poolBase % 2 ^ 52 + 2048 * b) 2048).getD []
      | none => []⟩

/-- Pair (row `i`, column `j`) is excluded (R169, R239, R260). -/
def Pairs.excluded (x : Pairs) (i j : Nat) : Bool :=
  let o := x.op
  let k := o.kBase + j
  let t := pairToken o i
  decide (o.kvLen ≤ k) || x.lost.contains k
    || (match o.mask with
        | .full => false
        | .bitmap _ => !(x.bits.getD (16 * i + j / 8) 0).getLsbD (j % 8))
    || (o.causal && decide (o.posBase + t < k))
    || (decide (o.window ≠ 0) && decide (k + o.window < o.posBase + t + 1))

/-- A drained score before masking (R165): its value, whether it marks its row bad, its flags. -/
def classify (v : Num) : Option Num × Bool × Flags :=
  match v with
  | .nan => (none, true, Flags.none)
  | .inf s => if s then (none, false, Flags.none) else (none, true, flInv)
  | .fin s m e =>
    if magLe m e 1 30 then (some v, false, Flags.none) else (some (.fin s 1 30), false, flOvf)

/-- ⌈v⌉ of a finite value. -/
def Num.ceil (v : Num) : Int := -(v.neg.floor)

/-- The scores of a row of a tile after classification and exclusion. -/
def State.scoreRow (s : State) (c : Nat) (x : Pairs) (sRow i : Nat) : List (Option Num) × Bool × Flags :=
  let ys := (List.range 128).map (fun j => (j, classify (s.spmF32 c (512 * sRow) (128 * i + j))))
  (ys.map (fun y => if x.excluded i y.1 then none else y.2.1), ys.any (·.2.2.1), Flags.all (ys.map (·.2.2.2)))

/-- E_P (R172). -/
def eP (strict : Bool) : Int := if strict then -38 else -33

/-- s − y in FP32 as a fast-mode step from exact operands (R119, R176, R199). -/
def sub32 (x y : Num) : Num × Flags := fFP32.flushOut ((exactAdd .rne (fFP32.flush x) (fFP32.flush y).neg).roundTo fFP32 .conv .rne)

/-- The sum of finite values as a multiple of a power of two. -/
def sumNum (vs : List Num) : Num :=
  let b := vs.foldl (fun b v => min b v.exp) 0
  Num.ofInt ((vs.map (fun v => v.intAt b)).foldl (· + ·) 0) b

/-- Add T to l (R178): the new significand and exponent, and INX. -/
def addL (ep : Int) (L : Nat) (e : Int) (t : Num) : Nat × Int × Bool :=
  let sg := sumNum [.fin false L e, t]
  match sg with
  | .fin _ m b =>
    let es := min e ep
    let e1 := if m = 0 ∨ ilog m b < 48 + es then es else ilog m b - 47
    let k := b - e1
    (shiftNat m k, e1, decide (k < 0) && decide (m % 2 ^ (-k).toNat ≠ 0))
  | _ => (L, e, false)

/-- Update m and d (R173) and rescale l (R175): the new row state, d and INX. -/
def RowState.raise (r : RowState) (top : Option Int) (bad : Bool) : RowState × Nat × Bool :=
  let r := { r with bad := r.bad || bad }
  match top, r.m with
  | none, _ => (r, 0, false)
  | some t, none => ({ r with m := some t }, 0, false)
  | some t, some m =>
    if t ≤ m then (r, 0, false)
    else
      let d := (t - m).toNat
      let e := r.e - d
      if -160 ≤ e then ({ r with m := some t, e := e }, d, false)
      else
        let k := (-160 - e).toNat
        ({ r with m := some t, e := -160, l := r.l / 2 ^ k }, d, decide (r.l % 2 ^ k ≠ 0))

/-- A row after a key tile: its state, d, its p values (already quantised, as values and codes) and flags. -/
structure TileRow where
  st    : RowState
  d     : Nat
  codes : List Nat
  vals  : List Num
  fl    : Flags
  deriving DecidableEq, Repr

/-- The format of the quantised probabilities (R177, R185). -/
def pFmt (strict : Bool) : FloatFmt := if strict then fFP16 else fUP8

/-- One row of a softmax tile up to its quantised p (R165, R173, R175 to R177). -/
def State.softRow (s : State) (o : SoftOp) (x : Pairs) (p fig i : Nat) : TileRow :=
  let (sc, bad, f0) := s.scoreRow o.core x o.sRow i
  let top := (sc.filterMap (fun x => x.map Num.ceil)).foldl
    (fun (m : Option Int) x => match m with | none => some x | some y => some (max x y)) none
  let (r1, d, lostE) := ((s.core o.core).row i).raise top bad
  let f := pFmt o.strict
  let ps := sc.zipIdx.map (fun x =>
    match x.1, r1.m with
    | some v, some m =>
      let (y, f1) := sub32 v (Num.ofInt m 0)
      let (q, f2) := vuOp .exp2 fFP32 o.strict .rne y y y
      let (w, f3) := f.convert .conv o.pConv.rnd o.pConv.sat
        (s.drawAt p fig o.pConv o.at0.list (o.at0.row + i) (o.at0.col + x.2)) q
      (w, (f1.or f2).or f3)
    | _, _ => (Num.zero, Flags.none))
  ⟨r1, d, ps.map (fun x => f.encode x.1), ps.map (·.1), (Flags.all (ps.map (·.2))).or (f0.or (inxIf lostE))⟩

/-- The shift of the O bank that follows is left out where no row maximum grew (R174). -/
def skipShift (c : Nat) (grew : Bool) (s : State) : State :=
  s.modCore c (fun k =>
    match k.slot0.todo with
    | t :: more => (match t.act with
        | .shift _ => if grew then k else { k with slot0 := { k.slot0 with todo := more } }
        | _ => k)
    | [] => k)

/-- The effect of one key tile of the softmax (R173 to R178, R185). -/
def softRun (p fig : Nat) (o : SoftOp) (s : State) : Res :=
  let x := s.pairsAt o.core o.slot o.pair
  let rows := (List.range 128).map (s.softRow o x p fig)
  let row (i : Nat) : TileRow := rows.getD i ⟨RowState.reset, 0, [], [], Flags.none⟩
  let val (i j : Nat) : Num := (row i).vals.getD j Num.zero
  let slab := if o.strict then slabOf 2 4 val else []
  let t (i : Nat) : Num :=
    if o.strict then
      sumNum (slab.map (fun l => match l[i]? with
        | some g => Num.ofInt (g.q.foldl (· + ·) 0) (g.eg - 14)
        | none => Num.zero))
    else sumNum (row i).vals
  let sums := (List.range 128).map (fun i => addL (eP o.strict) (row i).st.l (row i).st.e (t i))
  let fl := Flags.all ((List.range 128).map (fun i =>
    if pairPadded o.pair i then Flags.none
    else ((row i).fl.or (inxIf (match sums[i]? with | some x => x.2.2 | none => false))).or
      (inxIf (slab.any (fun l => match l[i]? with | some g => g.lost | none => false)))))
  let rd := rowsOf (512 * o.sRow) 65536
  let wr := (List.range (if o.strict then 68 else 32)).map (o.pRow + ·) ++ [o.dRow]
  let s1 := touchRows p fig o.core o.slot rd wr s
  let s2 := if o.strict then writeSplit o.core o.pRow 2 slab s1
    else spmWrite o.core (512 * o.pRow) (slab8 (fun m k => nth (row m).codes k)) s1
  let s3 := spmWrite o.core (512 * o.dRow) (packI32 (rows.map (fun r => (min r.d 127 : Nat)))) s2
  let s4 := skipShift o.core (rows.any (fun r => decide (r.d ≠ 0))) s3
  .next (raise o.core o.slot fl (s4.modCore o.core (fun k =>
    { k with rows := (List.range 128).foldl (fun m i =>
        match sums[i]? with
        | some x => kset RowState.reset m i { (row i).st with l := x.1, e := x.2.1 }
        | none => m) k.rows })))

/-- One key tile of the softmax, where the tile program issues it. -/
def vuSoftmax (o : SoftOp) (s : State) : Res :=
  match s.issuing o.core o.slot with
  | none => .next s
  | some (p, fig) =>
    ordered (s.admission o.core o.slot 0 (fun _ => .softmax o.strict (normConv o.pConv) (placeFor o.pConv o.at0) o.pair) [o.sRow, o.pRow, o.dRow])
      (fun _ => softRun p fig o) s

/-- Reset the row state at the start of a query tile (R172), where the tile program does. -/
def vuResetRows (c : Nat) (strict : Bool) (s : State) : Res :=
  if (s.core c).fenced || (s.core c).halted then .next s
  else
    let rs : KMap RowState := if strict then (List.range 128).map (fun i => (i, { RowState.reset with e := eP true })) else []
    ordered (s.admission c 0 0 (fun _ => .resetRows strict) []) (fun _ t => .next (t.modCore c (fun k => { k with rows := rs }))) s

/-! ### Finishing -/

/-- The outcomes of R183. -/
inductive RowEnd where
  | padded | bad | empty | normal
  deriving DecidableEq, Repr

def State.rowEnd (s : State) (c : Nat) (o : PairOp) (i : Nat) : RowEnd :=
  let r := (s.core c).row i
  if pairPadded o i || r.pad then .padded else if r.bad then .bad else if r.m.isNone then .empty else .normal

/-- Row multiplier and LSE of a row (R181, R182, R183). -/
def State.finishRow (s : State) (o : FinishOp) (i : Nat) : Num × Num × Flags :=
  let r := (s.core o.core).row i
  match s.rowEnd o.core o.pair i with
  | .padded => (Num.zero, .inf true, Flags.none)
  | .bad => (Num.zero, .nan, Flags.none)
  | .empty => (Num.zero, .inf true, Flags.none)
  | .normal =>
    let (lf, f0) := fFP32.convert .conv .rne false 0 (.fin false r.l r.e)
    let (rc, f1) := vuOp .rcp fFP32 o.strict .rne lf lf lf
    let (h, f2) := vuOp .log2 fFP32 o.strict .rne lf lf lf
    let (lse, f3) := (exactAdd .rne (Num.ofInt (r.m.getD 0) 0) h).roundTo fFP32 .conv .rne
    (rc, lse, (f0.or f1).or (f2.or f3))

/-- Finish the rows of a tile: multipliers and LSE (R181 to R183). -/
def vuFinish (o : FinishOp) (s : State) : Res :=
  let xs := (List.range 128).map (s.finishRow o)
  ordered (s.admission o.core o.slot 0 (fun _ => .finish o.strict o.pair) [o.mulRow, o.lseRow])
    (fun _ => vuApply o.core o.slot [] [(512 * o.mulRow, packF32 (xs.map (·.1))), (512 * o.lseRow, packF32 (xs.map (·.2.1)))]
      (Flags.all (xs.map (·.2.2)))) s

/-- Place the O rows under the outcomes of R183; E4M3 and E5M2 are converted once more from the drained FP32 rows (R181). Rows hold 128
elements; only the first `cols` are written. -/
def vuOutput (o : OutOp) (s : State) : Res :=
  let (p, fig) := s.who o.core o.slot
  let conv := o.oFmt == .e4m3 || o.oFmt == .e5m2
  let code (i j : Nat) : Nat × Flags :=
    match s.rowEnd o.core o.pair i with
    | .padded => (0, Flags.none)
    | .empty => (0, Flags.none)
    | .bad => fmtConvert o.oFmt .rne false 0 0 .nan
    | .normal =>
      if conv then
        fmtConvert o.oFmt o.conv.rnd o.conv.sat (s.drawAt p fig o.conv o.at0.list (o.at0.row + i) (o.at0.col + j)) 0
          (s.spmF32 o.core (512 * o.srcRow) (128 * i + j))
      else (s.spmCode o.core o.oFmt (512 * o.srcRow) (128 * i + j), Flags.none)
  let xs := (List.range 128).map (fun i => (List.range o.cols).map (code i))
  let rd := elemRows (if conv then .fp32 else o.oFmt) o.srcRow 16384
  let ws := xs.zipIdx.map (fun x => (512 * o.oRow + 128 * x.2 * fmtBits o.oFmt / 8, packCodes o.oFmt (x.1.map (·.1))))
  ordered (s.admission o.core o.slot 0 (fun _ => .output o.oFmt (normConv o.conv) (placeFor o.conv o.at0) o.cols o.pair) [o.srcRow, o.oRow])
    (fun _ => vuApply o.core o.slot rd ws (Flags.all (xs.flatMap (fun l => l.map (·.2))))) s

/-- The 16-byte state record of a row (R184). -/
def stateRecord (r : RowState) (pad : Bool) (ep : Int) : Nat :=
  let r := if pad then { RowState.reset with e := ep } else r
  toTwos 32 (r.m.getD (-(2 ^ 31 : Int))) + toTwos 16 r.e * 2 ^ 32 + b2n r.bad * 2 ^ 48 + b2n pad * 2 ^ 49 + r.l % 2 ^ 48 * 2 ^ 64

/-- Write the state records of the 128 rows (R184, R267); the mode's E_P is that of the Figure. -/
def vuRecords (c i : Nat) (pair : PairOp) (row : Nat) (s : State) : Res :=
  let strict := (s.slotAttn c i).any (fun x => x.2.strict)
  ordered (s.admission c i 0 (fun _ => .records pair) [row]) (fun _ => vuApply c i [] [(512 * row, (List.range 128).flatMap (fun r =>
    leBytes 16 (stateRecord ((s.core c).row r) (pairPadded pair r || ((s.core c).row r).pad) (eP strict))))] Flags.none) s

/-! ### Merging -/

/-- A partial state of one row (R184, R267). -/
structure Part1 where
  m   : Option Int
  l   : Nat
  e   : Int
  bad : Bool
  pad : Bool
  rs  : Int
  x   : List Int
  deriving DecidableEq, Repr

/-- Read one part of row `r`: O plane, row scales and records at SPM rows. -/
def State.partialAt (s : State) (c cols : Nat) (at' : Nat × Nat × Nat) (r : Nat) : Part1 :=
  let w := s.spmNat c (512 * at'.2.2 + 16 * r) 16
  let m := sfld w 0 32
  { m := if m = -(2 ^ 31 : Int) then none else some m, l := fld w 64 48, e := sfld w 32 16, bad := bit w 48, pad := bit w 49,
    rs := rsUsed (s.spmI32 c (512 * at'.2.1) r),
    x := (List.range cols).map (fun k => sfld (s.spmNat c (512 * at'.1 + 16 * (r * cols + k)) 16) 0 128) }

/-- The merged state of one row (R267): its state, its O elements, its row scale, its flags. -/
def mergeRow (cols : Nat) (ps : List Part1) : RowState × List Int × Int × Flags :=
  let zeros := List.replicate cols (0 : Int)
  let rs0 := match ps with | a :: _ => a.rs | [] => 0
  let live := ps.filter (fun a => a.m.isSome)
  if ps.any (·.pad) then ({ RowState.reset with pad := true }, zeros, rs0, Flags.none)
  else if ps.any (·.bad) then ({ RowState.reset with bad := true }, zeros, rs0, Flags.none)
  else
    match live with
    | [] => (RowState.reset, zeros, rs0, Flags.none)
    | a :: rest =>
      if rest.any (fun b => decide (b.rs ≠ a.rs)) then ({ RowState.reset with bad := true }, zeros, a.rs, flInv)
      else
        let m := live.foldl (fun m b => max m (b.m.getD m)) (a.m.getD 0)
        let k (b : Part1) : Nat := min 127 (m - b.m.getD m).toNat
        let e (b : Part1) : Int := b.e - (m - b.m.getD m)
        let el (j : Nat) : Int := (live.map (fun b => b.x.getD j 0 / 2 ^ k b)).foldl (· + ·) 0
        let lost := live.any (fun b => b.x.any (fun v => decide (v % 2 ^ k b ≠ 0)))
        let hi : Int := 2 ^ 127 - 1
        let lo : Int := -(2 ^ 127 : Int)
        let xs := (List.range cols).map el
        let e0 := max (-160) (live.foldl (fun x b => min x (e b)) (e a))
        match sumNum (live.map (fun b => .fin false b.l (e b))) with
        | .fin _ sm sb =>
          let e1 := if sm = 0 ∨ ilog sm sb < 48 + e0 then e0 else ilog sm sb - 47
          let kk := sb - e1
          ({ m := some m, l := shiftNat sm kk, e := e1, bad := false, pad := false }, xs.map (fun x => max lo (min hi x)), a.rs,
            ⟨xs.any (fun x => decide (hi < x) || decide (x < lo)), false,
              lost || (decide (kk < 0) && decide (sm % 2 ^ (-kk).toNat ≠ 0)), false⟩)
        | _ => (RowState.reset, zeros, a.rs, Flags.none)

/-- The bytes of a merged O plane: blocks of 128 rows by 128 columns, one after the other, as fills read them. -/
def mergedBlocks (row cols : Nat) (xs : List (List Int)) : List (Nat × List Byte) :=
  (List.range (ceilDiv cols 128)).map (fun cb =>
    (512 * row + 262144 * cb, xs.flatMap (fun x => (List.range 128).flatMap (fun j =>
      leBytes 16 (toTwos 128 (if 128 * cb + j < cols then x.getD (128 * cb + j) 0 else 0))))))

/-- The effect of a merge (R267): O to the O plane, row scales to their plane, m and l to the row states. -/
def mergeRun (o : MergeOp) (s : State) : Res :=
  let xs := (List.range o.rows).map (fun r => mergeRow o.cols (o.parts.map (fun a => s.partialAt o.core o.cols a r)))
  let rd := o.parts.flatMap (fun a =>
    rowsOf (512 * a.1) (16 * o.rows * o.cols) ++ rowsOf (512 * a.2.1) (4 * o.rows) ++ rowsOf (512 * a.2.2) (16 * o.rows))
  let ws := mergedBlocks o.oRow o.cols (xs.map (·.2.1)) ++ [(512 * o.rsRow, packI32 (xs.map (·.2.2.1)))]
  match vuApply o.core o.slot rd ws (Flags.all (xs.map (·.2.2.2))) s with
  | .next t =>
    if (s.issuing o.core o.slot).isNone then .next t
    else .next (t.modCore o.core (fun k => { k with rows := xs.zipIdx.foldl (fun m x => kset RowState.reset m x.2 x.1.1) k.rows }))
  | r => r

/-- Merge partial states row by row, where the tile program does. -/
def vuMerge (o : MergeOp) (s : State) : Res :=
  ordered (s.admission o.core o.slot 0 (fun _ => .merge o.rows o.cols o.parts.length)
    ([o.oRow, o.rsRow] ++ (List.range (ceilDiv o.cols 128 - 1)).map (fun cb => o.oRow + 512 * (cb + 1)))) (fun _ => mergeRun o) s

/-! ### Backward attention -/

/-- D of a row (R198). -/
def State.rowTerm (s : State) (c : Nat) (o : PairOp) (doFmt oFmt : Fmt) (doRow oRow cols i : Nat) : Num × Flags :=
  if pairPadded o i then (Num.zero, Flags.none)
  else
    (List.range cols).foldl (fun (a : Num × Flags) k =>
      let (v, f) := vuOp .fma fFP32 false .rne (s.spmVal c doFmt doRow (i * cols + k) 0) (s.spmVal c oFmt oRow (i * cols + k) 0) a.1
      (v, a.2.or f)) (Num.zero, Flags.none)

/-- The row term of a tile (R198). -/
def vuRowTerm (o : BwdOp) (doFmt oFmt : Fmt) (doRow oRow cols : Nat) (s : State) : Res :=
  let xs := (List.range 128).map (s.rowTerm o.core o.pair doFmt oFmt doRow oRow cols)
  ordered (s.admission o.core o.slot 0 (fun _ => .rowTerm doFmt oFmt cols o.pair) [doRow, oRow, o.termRow])
    (fun _ => vuApply o.core o.slot (elemRows doFmt doRow (128 * cols) ++ elemRows oFmt oRow (128 * cols))
      [(512 * o.termRow, packF32 (xs.map (·.1)))] (Flags.all (xs.map (·.2)))) s

/-- The quantised recomputed probability of (row `i`, key column `j`) (R199). -/
def State.prob (s : State) (o : BwdOp) (x : Pairs) (p fig i j : Nat) : Num × Flags :=
  let (sc, bad, f0) := classify (s.spmF32 o.core (512 * o.sRow) (128 * i + j))
  let lse := s.spmF32 o.core (512 * o.lseRow) i
  let f := pFmt o.strict
  let draw := s.drawAt p fig o.conv o.at0.list (o.at0.row + i) (o.at0.col + j)
  if pairPadded o.pair i then (Num.zero, Flags.none)
  else if x.excluded i j || (sc.isNone && !bad) then (Num.zero, f0)
  else if bad || lse.isNan then (.nan, f0)
  else
    match sc with
    | none => (Num.zero, f0)
    | some v =>
      match lse with
      | .fin _ _ _ =>
        let (x, f1) := sub32 v lse
        let (q, f2) := vuOp .exp2 fFP32 o.strict .rne x x x
        let (w, f3) := f.convert .conv o.conv.rnd o.conv.sat draw q
        (w, (f0.or f1).or (f2.or f3))
      | _ => (Num.zero, f0)

/-- Rows a backward operation reads for its probabilities. -/
def probRows (o : BwdOp) : List Nat := rowsOf (512 * o.sRow) 65536 ++ [o.lseRow]

/-- Write a 128 × 128 matrix from row `row` as an A operand with rows along its first index, then, after the rows that takes, with rows
along its second: split pieces where `wide`, else codes of the format (R127, R146, R197). -/
def writeBoth (c row : Nat) (wide : Bool) (f : FloatFmt) (v : Nat → Nat → Num) (s : State) : State :=
  if wide then writeSplit c (row + 68) 2 (slabOf 2 4 (fun m k => v k m)) (writeSplit c row 2 (slabOf 2 4 v) s)
  else spmWrite c (512 * (row + 32)) (slab8 (fun m k => f.encode (v k m))) (spmWrite c (512 * row) (slab8 (fun m k => f.encode (v m k))) s)

/-- Rows of one orientation. -/
def bothRows (wide : Bool) : Nat := if wide then 68 else 32

/-- The effect of recomputing probabilities: qᵀ, the A operand of dV, aligned per 32 query rows where it is split FP16, then q (R197, R199).
The alignment of qᵀ, which enters dV, is the one that raises INX. -/
def probsRun (p fig : Nat) (o : BwdOp) (s : State) : Res :=
  let x := s.pairsAt o.core o.slot o.pair
  let xs := (List.range 128).map (fun i => (List.range 128).map (s.prob o x p fig i))
  let val (i j : Nat) : Num × Flags := (xs.getD i []).getD j (Num.zero, Flags.none)
  let fl := (Flags.all (xs.flatMap (fun l => l.map (·.2)))).or (slabFlags (if o.strict then slabOf 2 4 (fun m k => (val k m).1) else []))
  let wr := (List.range (2 * bothRows o.strict)).map (o.qRow + ·)
  let s1 := touchRows p fig o.core o.slot (probRows o) wr s
  .next (raise o.core o.slot fl (writeBoth o.core o.qRow o.strict (pFmt o.strict) (fun m k => (val k m).1) s1))

/-- The recomputed probabilities, where the tile program forms them. -/
def vuProbs (o : BwdOp) (s : State) : Res :=
  match s.issuing o.core o.slot with
  | none => .next s
  | some (p, fig) =>
    ordered (s.admission o.core o.slot 0 (fun _ => .probs o.strict (normConv o.conv) (placeFor o.conv o.at0) o.pair) [o.sRow, o.lseRow, o.qRow])
      (fun _ => probsRun p fig o) s

/-- dS of (row `i`, key column `j`) as a value of DS_FMT (R200). -/
def State.dsElem (s : State) (o : BwdOp) (x : Pairs) (f : FloatFmt) (p fig i j : Nat) : Num × Flags :=
  let (q, _) := s.prob o x p fig i j
  if q.isZero then (Num.zero, Flags.none)
  else
    let (w, f1) := vuOp .add fFP32 false .rne (s.spmF32 o.core (512 * o.dpRow) (128 * i + j)) (s.spmF32 o.core (512 * o.termRow) i).neg Num.zero
    let (z, f2) := vuOp .mul fFP32 false .rne q w Num.zero
    let (d, f3) := f.convert .conv o.dsConv.rnd o.dsConv.sat
      (s.drawAt p fig o.dsConv o.at0.list (o.at0.row + i) (o.at0.col + j)) (z.scale o.dsShift)
    (d, (f1.or f2).or f3)

/-- The formats of dS (R196). -/
def dsFloat (f : Fmt) : Option FloatFmt :=
  match f with
  | .e4m3 => some fE4M3
  | .e5m2 => some fE5M2
  | .fp16 => some fFP16
  | _ => none

/-- The effect of forming dS: query-major from `dsRow`, then key-major (R197, R200). -/
def dsRun (p fig : Nat) (f : FloatFmt) (o : BwdOp) (s : State) : Res :=
  let x := s.pairsAt o.core o.slot o.pair
  let xs := (List.range 128).map (fun i => (List.range 128).map (s.dsElem o x f p fig i))
  let val (i j : Nat) : Num := ((xs.getD i []).getD j (Num.zero, Flags.none)).1
  let wide := o.dsFmt == .fp16
  let slab (g : Nat → Nat → Num) := slabFlags (if wide then slabOf 2 4 g else [])
  let fl := (Flags.all (xs.flatMap (fun l => l.map (·.2)))).or ((slab val).or (slab (fun m k => val k m)))
  let rd := probRows o ++ rowsOf (512 * o.dpRow) 65536 ++ [o.termRow]
  let s1 := touchRows p fig o.core o.slot rd ((List.range (2 * bothRows wide)).map (o.dsRow + ·)) s
  .next (raise o.core o.slot fl (writeBoth o.core o.dsRow wide f val s1))

/-- dS of a tile, where the tile program forms it. -/
def vuDs (o : BwdOp) (s : State) : Res :=
  match s.issuing o.core o.slot, dsFloat o.dsFmt with
  | some (p, fig), some f =>
    ordered (s.admission o.core o.slot 0 (fun _ => .dsForm o.strict (normConv o.conv) (normConv o.dsConv) o.dsFmt o.dsShift
        (placeFor (if o.conv.rnd = .sr then o.conv else o.dsConv) o.at0) o.pair)
      [o.sRow, o.lseRow, o.dpRow, o.termRow, o.dsRow, o.dsRow + bothRows (o.dsFmt == .fp16)]) (fun _ => dsRun p fig f o) s
  | _, _ => .next s

/-- A write by the scalar pipe: it reads the rows it writes into and merges its bytes (R309, R323). -/
def vuScalarWrite (c i byte : Nat) (data : List Byte) (s : State) : Res :=
  vuApply c i (rowsOf byte data.length) [(byte, data)] Flags.none s

/-- VU_OPERATION. -/
def execVuOperation (o : VuOp) (s : State) : Res :=
  match o with
  | .arith o => vuArith o s
  | .convert o => vuConvert o s
  | .resetRows c strict => vuResetRows c strict s
  | .softmax o => vuSoftmax o s
  | .finish o => vuFinish o s
  | .output o => vuOutput o s
  | .stateRecords c i pair row => vuRecords c i pair row s
  | .merge o => vuMerge o s
  | .rowTerm o a b c d e => vuRowTerm o a b c d e s
  | .probs o => vuProbs o s
  | .dsForm o => vuDs o s
  | .scalarWrite c i byte data => vuScalarWrite c i byte data s

/-! ### ROPE -/

/-- A pair of elements turned by its angle (R162): a·cos − b·sin and b·cos + a·sin, a multiply and a fused multiply-add each. -/
def ropePair (a b co si : Num) : (Num × Flags) × (Num × Flags) :=
  let (t, f1) := vuOp .mul fFP32 false .rne b si Num.zero
  let (y0, f2) := vuOp .fma fFP32 false .rne a co t.neg
  let (u, f3) := vuOp .mul fFP32 false .rne b co Num.zero
  let (y1, f4) := vuOp .fma fFP32 false .rne a si u
  ((y0, f1.or f2), (y1, f3.or f4))

/-- Element `d` of row `i` after ROPE (R162): tables of FP32 cosines and sines by (position, pair). -/
def State.ropeElem (s : State) (o : RopeOp) (i d : Nat) : Num × Flags :=
  let half := o.dim / 2
  let tab (r k : Nat) : Num := s.spmF32 o.core (512 * r) ((o.posBase + i) * half + k)
  let x (k : Nat) : Num := s.spmVal o.core o.fmt o.srcRow (i * o.dim + k) 0
  let pair (k : Nat) : (Num × Flags) × (Num × Flags) :=
    if o.pairing then ropePair (x k) (x (k + half)) (tab o.cosRow k) (tab o.sinRow k)
    else ropePair (x (2 * k)) (x (2 * k + 1)) (tab o.cosRow k) (tab o.sinRow k)
  if o.pairing then (if d < half then (pair d).1 else (pair (d - half)).2)
  else if d % 2 = 0 then (pair (d / 2)).1 else (pair (d / 2)).2

/-- Row `i` after ROPE, converted to the destination: codes and flags. -/
def State.ropeRow (s : State) (p fig : Nat) (o : RopeOp) (i : Nat) : List Nat × Flags :=
  let ys := (List.range o.dim).map (s.ropeElem o i)
  let (cs, _, f) := s.convertRow p fig o.dstFmt o.conv o.at0.list (o.at0.row + i) o.at0.col 0 (ys.map (·.1))
  (cs, (Flags.all (ys.map (·.2))).or f)

/-- The first row's position is the one R162 gives it: of query rows of a Figure with a length table, POS_BASE of the entry plus the row
in it; of key rows, whose position is the token index, and where no table stands, what the operation says. -/
def State.ropeOk (s : State) (o : RopeOp) : Bool :=
  match s.slotFigure o.core o.slot with
  | none => true
  | some (p, _, f) =>
    match lenBaseOf f, f.list with
    | some b, some l =>
      let r := o.at0.row - l.rowBase
      let i := match f.par with | .decode _ x => r % max 1 x.qrows | _ => r
      o.keys || (s.lenEntry p b o.at0.list).any (fun e => decide (o.posBase = e.posBase + i))
    | _, _ => true

/-- ROPE (R162). One whose position is not its rows' is rejected. -/
def execRope (o : RopeOp) (s : State) : Res :=
  if !s.ropeOk o then .next s else
  let (p, fig) := s.who o.core o.slot
  let out := (List.range o.rows).map (s.ropeRow p fig o)
  let tabLen := 4 * (o.posBase + o.rows) * (o.dim / 2)
  vuApply o.core o.slot
    (elemRows o.fmt o.srcRow (o.rows * o.dim) ++ rowsOf (512 * o.cosRow) tabLen ++ rowsOf (512 * o.sinRow) tabLen)
    [(512 * o.dstRow, packCodes o.dstFmt (out.flatMap (·.1)))] (Flags.all (out.map (·.2))) s

/-! ### The optimiser step -/

/-- The step state record (R213), its FP32 fields as values. -/
structure StepState where
  t     : Nat
  p1    : Num
  p2    : Num
  b1    : Num
  b2    : Num
  loss  : Num
  good  : Nat
  growth : Nat
  lo    : Num
  hi    : Num
  deriving DecidableEq, Repr

/-- The record that 40 bytes spell. -/
def StepState.ofBytes (bs : List Byte) : StepState :=
  let w := ofLe bs
  let f (i : Nat) : Num := fFP32.decode (fld w (32 * i) 32)
  ⟨fld w 0 32, f 1, f 2, f 3, f 4, f 5, fld w 192 32, fld w 224 32, f 8, f 9⟩

/-- The bytes of a record. -/
def StepState.bytes (x : StepState) : List Byte :=
  let f (v : Num) : List Byte := leBytes 4 (fFP32.encode v)
  leBytes 4 x.t ++ f x.p1 ++ f x.p2 ++ f x.b1 ++ f x.b2 ++ f x.loss ++ leBytes 4 x.good ++ leBytes 4 x.growth ++ f x.lo ++ f x.hi

/-- A power of two in the normal FP32 range. -/
def powerOfTwo (v : Num) : Bool :=
  match v with
  | .fin s m e => !s && m != 0 && 2 ^ Nat.log2 m == m && decide (-126 ≤ ilog m e) && decide (ilog m e ≤ 127)
  | _ => false

/-- A value in (0, 1). -/
def inUnit (v : Num) : Bool :=
  match v with
  | .fin s m e => !s && m != 0 && decide (ilog m e < 0)
  | _ => false

/-- A valid step state record (R213). -/
def StepState.ok (x : StepState) : Bool :=
  powerOfTwo x.loss && powerOfTwo x.lo && powerOfTwo x.hi && inUnit x.b1 && inUnit x.b2

/-- The per-Figure constants of R214. -/
structure AdamConst where
  gs  : Num
  bc1 : Num
  sb2 : Num
  b1  : Num
  b2  : Num
  ob1 : Num
  ob2 : Num
  lr  : Num
  lwd : Num
  eps : Num
  fl  : Flags
  deriving DecidableEq, Repr

/-- The constants of an optimiser Figure, "computed once, by the same operations" (R214). -/
def adamConst (q : OptParams) (x : StepState) : AdamConst :=
  let op (fn : VuFn) (a b : Num) := vu32 fn q.strict a b Num.zero
  let one : Num := .fin false 1 0
  let lr := fFP32.decode q.lr.toNat
  let wd := fFP32.decode q.wd.toNat
  let (p1, f1) := op .mul x.p1 x.b1
  let (p2, f2) := op .mul x.p2 x.b2
  let (bc1, f3) := op .add one p1.neg
  let (d2, f4) := op .add one p2.neg
  let (sb2, f5) := op .sqrt d2 d2
  let (ob1, f6) := op .add one x.b1.neg
  let (ob2, f7) := op .add one x.b2.neg
  let (lwd, f8) := op .mul lr wd
  let gs := match x.loss with | .fin _ m e => (Num.fin false 1 (-(ilog m e))) | v => v
  ⟨gs, bc1, sb2, x.b1, x.b2, ob1, ob2, lr, lwd, fFP32.decode q.eps.toNat, Flags.all [f1, f2, f3, f4, f5, f6, f7, f8]⟩

/-- One element of OPT_ADAM (R214): m1, r1, theta1, c1 and the flags of its steps. -/
def adamElem (q : OptParams) (k : AdamConst) (tf : FloatFmt) (g0 m r th c : Num) : Num × Num × Num × Num × Flags :=
  let op (fn : VuFn) (a b : Num) := vu32 fn q.strict a b Num.zero
  let fma (a b d : Num) := vu32 .fma q.strict a b d
  let (g1, f0) := fFP32.convert .conv .rne false 0 g0
  let (g, f1) := op .mul g1 k.gs
  let (og, f2) := op .mul k.ob1 g
  let (m1, f3) := fma k.b1 m og
  let (gg, f4) := op .mul g g
  let (og2, f5) := op .mul k.ob2 gg
  let (rr, f6) := op .mul r r
  let (v1, f7) := fma k.b2 rr og2
  let (r1, f8) := op .sqrt v1 v1
  let (ma, f9) := op .div m1 k.bc1
  let (ra, f10) := op .div r1 k.sb2
  let (de, f11) := op .add ra k.eps
  let (a, f12) := op .div ma de
  let (la, f13) := op .mul k.lr a
  let (u, f14) := fma k.lwd th la
  let fs := Flags.all [f0, f1, f2, f3, f4, f5, f6, f7, f8, f9, f10, f11, f12, f13, f14]
  if q.comp then
    let (y, g1) := op .add u.neg c.neg
    let (t, g2) := op .add th y
    let (t1, g3) := tf.convert .conv .rne false 0 t
    let (dt, g4) := op .add t1 th.neg
    let (e, g5) := op .add dt y.neg
    let (c1, g6) := fBF16.convert .conv .rne false 0 e
    (m1, r1, t1, c1, fs.or (Flags.all [g1, g2, g3, g4, g5, g6]))
  else
    let (t, g1) := op .add th u.neg
    let (t1, g2) := tf.convert .conv .rne false 0 t
    (m1, r1, t1, c, fs.or (g1.or g2))

/-- OPT_ADAM (R214) on the elements of one row of a tensor, `count` a multiple of 32. -/
def execOptAdam (o : AdamOp) (s : State) : Res :=
  let (p, fig) := s.who o.core o.slot
  match ((s.part p).active fig).bind (fun a => (s.part p).figure a.fig) with
  | none => .next s
  | some f =>
    match f.par with
    | .optimiser q =>
      match s.readVa p (q.stateBase % 2 ^ 52) 40, fmtOf q.gFmt, fmtOf q.thetaFmt with
      | .ok bs, some gf, some tfm =>
        match vuFmt tfm with
        | none => .next s
        | some tf =>
          let k := adamConst q (StepState.ofBytes bs)
          let el (i : Nat) := adamElem q k tf
            (s.spmVal o.core gf o.gRow i o.gRs)
            (s.spmElem o.core .bs8 o.mRow o.mSc o.count 0 0 i) (s.spmElem o.core .bs8 o.rRow o.rSc o.count 0 0 i)
            (s.spmVal o.core tfm o.thRow i 0) (s.spmVal o.core .bf16 o.cRow i 0)
          let xs := (List.range o.count).map el
          let cm : Conv := ⟨.sr, false, q.spinId, q.mSite⟩
          let cr : Conv := ⟨.sr, false, q.spinId, q.rSite⟩
          let (mc, ms, fm) := s.convertRow p fig .bs8 cm o.at0.list o.at0.row o.at0.col 0 (xs.map (·.1))
          let (rc, rs, fr) := s.convertRow p fig .bs8 cr o.at0.list o.at0.row o.at0.col 0 (xs.map (·.2.1))
          let th := packCodes tfm (xs.map (fun x => tf.encode x.2.2.1))
          let ce := packCodes .bf16 (xs.map (fun x => fBF16.encode x.2.2.2.1))
          let fl := Flags.all ([k.fl, fm, fr] ++ xs.map (·.2.2.2.2))
          let rd := elemRows gf o.gRow o.count ++ elemRows tfm o.thRow o.count ++ elemRows .bs8 o.mRow o.count
            ++ elemRows .bs8 o.rRow o.count ++ rowsOf (512 * o.mSc) (o.count / 32) ++ rowsOf (512 * o.rSc) (o.count / 32)
            ++ (if q.comp then elemRows .bf16 o.cRow o.count else [])
          let ws := [(512 * o.mRow, packCodes .bs8 mc), (512 * o.mSc, ms.map (BitVec.ofNat 8)),
            (512 * o.rRow, packCodes .bs8 rc), (512 * o.rSc, rs.map (BitVec.ofNat 8)), (512 * o.thRow, th)]
            ++ (if q.comp then [(512 * o.cRow, ce)] else [])
          vuApply o.core o.slot rd ws fl s
      | _, _, _ => .next s
    | _ => .next s

end Sys2Proof.Machine
end

