-- ==== Sys2Proof/Machine/Caller.lean ====
section
/-! DEFINITION. The Caller's Figures: starting (R57, R302), phases (R193, R265, R272, R246), completion (R58, R116, R435), aborts,
reruns and fences (R293, R324), and the control operations (R221, R247, R327). -/

namespace Sys2Proof.Machine

/-! ### Attempts -/

/-- The block core of a core index of partition `p` (R56). -/
def State.coreAt (s : State) (p i : Nat) : Option Nat := (s.partCores p)[i]?

/-- FTYPE 0 to 5: a Figure with work for cores. -/
def Figure.works (f : Figure) : Bool := decide (f.hdr.ftype ≤ 5)

/-- The flag slot of a Figure (R115, R299). -/
def Figure.slot (f : Figure) : Nat := match fuseOf f with | some (2, _) => 1 | _ => 0

/-- Withdraw the faults of a stream and take it off the parking order (R399). -/
def withdrawFault (i : Nat) (s : State) : State :=
  { s with faults := { s.faults with
      entries := s.faults.entries.filter (fun e => !decide (e.stream = i)),
      parking := s.faults.parking.filter (fun k => !decide (k = i)) } }

/-- CAUSE codes (R396). -/
def FaultCause.code (c : FaultCause) : Nat := match c with | .notMapped => 0 | .noRead => 1 | .noWrite => 2

/-- A stream's fault enters the Fault Queue (R395, R409). -/
def enqueueFault (i : Nat) (s : State) : State :=
  let m := s.stream i
  match m.suspended with
  | none => s
  | some (va, w, c) =>
    let s1 := (s.setStream i { m with queued := true, parked := false }).modPart m.part (fun q =>
      { q with notes := { q.notes with faults := q.notes.faults + 1 } })
    fqCount 0 { s1 with faults := { s1.faults with entries := s1.faults.entries ++ [⟨m.fig, i, m.part, m.core, m.engine, w, c, va⟩] } }

/-- The suspended access of stream `i` is legal under the current table (R391, R395). -/
def State.legalNow (s : State) (i : Nat) : Bool :=
  let m := s.stream i
  match m.suspended with
  | none => false
  | some (va, w, _) =>
    match (s.part m.part).space.walk va with
    | .leaf _ l => l.permits w
    | _ => false

/-- A suspended stream resumes (R398): its fault is withdrawn, and it repeats the access. -/
def resumeStream (i : Nat) (s : State) : State :=
  (withdrawFault i s).modStream i (fun m => { m with suspended := none, parked := false, queued := false, heldWrite := false })

/-- While the Fault Queue has a free entry, the parked streams try again in their order: one whose access is legal resumes and posts
nothing, any other's fault enters the queue (R395). -/
def retryParked (l : List Nat) (s : State) : State :=
  match l with
  | [] => s
  | i :: more =>
    if 512 ≤ s.faults.entries.length then s
    else retryParked more (if s.legalNow i then resumeStream i s else enqueueFault i { s with faults := { s.faults with parking := more } })

/-- Entries of the Fault Queue have become free (R395). -/
def unpark (s : State) : State := retryParked s.faults.parking s

/-- Unbind a stream (R379, R399). -/
def unbindStream (i : Nat) (s : State) : State := (withdrawFault i s).setStream i Stream.unbound

/-- Unbind the streams that satisfy a test. -/
def unbindWhere (f : Stream → Bool) (s : State) : State :=
  unpark ((s.streams.filter (fun x => x.2.bound && f x.2)).foldl (fun t x => unbindStream x.1 t) s)

/-- The lowest free stream ID of partition `p` (R380). -/
def State.freeStream (s : State) (p : Nat) : Option Nat :=
  ((List.range (s.share 1024 p)).map (s.shareBase 1024 p + ·)).find? (fun i => !(s.stream i).bound)

/-- Bind the streams of a Figure on its unfenced cores (R31, R379, R380). -/
def bindStreams (p fid : Nat) (ds : List StreamDecl) (s : State) : State :=
  ds.foldl (fun t d =>
    match t.coreAt p d.core, t.freeStream p with
    | some c, some i =>
      if (t.core c).fenced then t
      else t.setStream i { Stream.unbound with
        bound := true, part := p, fig := fid, core := c, engine := d.engine, kind := d.kind, role := d.role, conv := d.conv,
        mcast := d.mcast.filterMap (t.coreAt p) }
    | _, _ => t) s

/-- Open the receive windows of a Figure (R314). -/
def openWindows (p fid : Nat) (ws : List WinDecl) (s : State) : State :=
  ws.foldl (fun t d =>
    match t.coreAt p d.core with
    | none => t
    | some c =>
      if (t.core c).fenced then t else
      let w := d.word.toNat
      let who := (t.coreAt p (fld w 0 6)).getD 64
      let v : Window := ⟨true, p, fid, fld w 48 16, fld w 32 16, bit w 6, who, fld w 16 16, [], []⟩
      t.modCore c (fun k => { k with windows := kset Window.closed k.windows d.win v })) s

/-- Close the windows of a Figure on every core, discarding their credits (R314). -/
def closeWindows (p fid : Nat) (s : State) : State :=
  (s.partCores p).foldl (fun t c =>
    if (t.core c).windows.isEmpty then t
    else
      let keep (w : Nat × Window) : Bool := !(decide (w.2.part = p) && decide (w.2.fig = fid))
      t.modCore c (fun k => { k with windows := k.windows.filter keep })) s

/-- The cores of the Figure take its slot, and its row mask (R115, R259). -/
def takeSlots (cs : List Nat) (p fid slot mask : Nat) (s : State) : State :=
  cs.foldl (fun t c => t.modCore c (fun k =>
    { k.setSlot slot { Slot.empty with fig := some (p, fid) } with rowMask := if slot = 0 then mask else k.rowMask })) s

/-- The cores leave the Figure's slot: flags of uncommitted items are discarded (R116), the row mask is cleared (R259), and its items
are no longer held. -/
def leaveSlots (p fid : Nat) (clms : List Nat) (s : State) : State :=
  (s.partCores p).foldl (fun t c => t.modCore c (fun k =>
    let drop (v : Slot) : Slot := if v.fig = some (p, fid) then Slot.empty else v
    { k with
      slot0 := drop k.slot0, slot1 := drop k.slot1,
      rowMask := if k.slot0.fig = some (p, fid) then 4 else k.rowMask,
      busyCh := if k.slot0.fig = some (p, fid) ∨ k.slot1.fig = some (p, fid) then [] else k.busyCh,
      held := k.held.filter (fun h => !clms.contains h.1), staged := [],
      poisoned := if k.slot0.fig = some (p, fid) ∨ k.slot1.fig = some (p, fid) then false else k.poisoned })) s

/-- Clear Claim Counters (R290). -/
def clearClms (l : List Nat) (s : State) : State := l.foldl (fun t k => t.setClm k Clm.clear) s

/-- Everything a Figure's attempt holds is given back (R289, R314, R379). -/
def endAttempt (p fid : Nat) (clms : List Nat) (s : State) : State :=
  clearClms clms (leaveSlots p fid clms (closeWindows p fid
    (unbindWhere (fun x => decide (x.part = p) && decide (x.fig = fid)) s)))

/-- Claim Counters of partition `p` that no Figure in progress has (R289), ascending. -/
def State.freeClms (s : State) (p : Nat) : List Nat :=
  let used := match (s.part p).run with | some r => r.active.flatMap (fun (a : RunFig) => a.clms) | none => []
  ((List.range 16).map (16 * p + ·)).filter (fun k => !used.contains k && !(s.clm k).loaded)

/-- CORE_BEATS of an attempt (R529). -/
def countCoreBeats (p : Nat) (f : Figure) (s : State) : State :=
  if f.works then acctAdd p 0 ((s.figCores p f.hdr).length * (f.hdr.deadline - f.hdr.start)) s else s

/-- An attempt of a Figure begins on its healthy cores. -/
def beginAttempt (p : Nat) (f : Figure) (mask : Nat) (s : State) : State :=
  let fid := f.hdr.figId
  countCoreBeats p f (takeSlots (s.figHealthy p f.hdr) p fid f.slot mask (openWindows p fid f.prog.wins (bindStreams p fid f.prog.streams s)))

/-! ### Resident regions -/

/-- Scratchpad rows that a tile program's checked operations read, as first row and count: row operands, and the operands of array
operations (R127, R327). -/
def progReads (rows : Nat) (prog : TileProg) : List (Nat × Nat) :=
  prog.ops.flatMap (fun o =>
    match o with
    | .rows a n false => [(a, n)]
    | .array w0 w1 =>
      match arrayDecode rows w0 w1 with
      | some x =>
        let sc (t : OpType) (r : Nat) : List (Nat × Nat) := match t with | .block => [(r, (x.steps + 3) / 4)] | _ => []
        [(x.aRow, stepRows x.aFmt x.ta * x.steps), (x.bRow, stepRows x.bFmt x.tb * x.steps)] ++ sc x.ta x.aSc ++ sc x.tb x.bSc
      | none => []
    | _ => [])

/-- The program reads rows of a region. -/
def readsRegion (rows : Nat) (prog : TileProg) (r : Region) : Bool :=
  (progReads rows prog).any (fun x => meets (x.1, x.1 + x.2) (r.firstRow, r.firstRow + r.rows))

/-- Load an EMPTY region from its backing copy into every core of its mask (R327). -/
def loadRegion (p : Nat) (r : Region) (s : State) : State :=
  match s.readVa p r.backing (512 * r.rows) with
  | .ok bs =>
    let s1 := ((s.partCores p).zipIdx.filter (fun c => r.mask.getLsbD c.2)).foldl (fun t c => spmWrite c.1 (512 * r.firstRow) bs t) s
    s1.modPart p (fun q => { q with residents := q.residents.map (fun x => if x.resId = r.resId then { x with valid := true } else x) })
  | _ => s

/-- Load the EMPTY regions a Figure reads. -/
def loadRegions (p : Nat) (prog : TileProg) (s : State) : State :=
  ((s.part p).residents.filter (fun r => !r.valid && readsRegion s.cfg.spmRows prog r)).foldl (fun t r => loadRegion p r t) s

/-- Every region the Figure reads is VALID. -/
def State.regionsReady (s : State) (p : Nat) (prog : TileProg) : Bool :=
  (s.part p).residents.all (fun r => r.valid || !readsRegion s.cfg.spmRows prog r)

/-! ### Starting a Figure -/

/-- The state record of an optimiser Figure or SCALE_STEP, if it names one. -/
def stateBaseOf (f : Figure) : Option Nat :=
  match f.par with
  | .optimiser o => some o.stateBase
  | .scaleStep va => some va
  | _ => none

/-- The Figure runs as a no-write Figure (R219, R431). -/
def isNoWrite (c : Chor) (f : Figure) : Bool :=
  f.hdr.condVote &&
    ((match governing c f.hdr with | some v => !v.clear | none => false)
      || c.bindings.any (fun b => decide (b.consumer = f.hdr.figId) && b.gotNull))

/-- S lies at or past START, the beat is no Hold beat, the Beat Unit is locked, and nothing holds Figures back (R50, R57, R68, R73,
R248, R479). -/
def State.mayStart (s : State) (p : Nat) (r : Run) (f : Figure) : Bool :=
  let t := (s.part p).tempo
  s.fwRunning && t.running && !t.hold && !r.stopNow && !r.tempoLost
    && (decide (s.beat.lock = .locked) || decide (s.beat.lock = .holdover))
    && (match s.iterBeat p with | some b => decide (f.hdr.start ≤ b) | none => false)
    && !(s.part p).waiting.any (fun w => w.what.atQuiet) && !s.switchDue p && !(s.part p).zeroising
    && !(decide (f.hdr.kind = 0) && r.active.any (fun a =>
        match (s.part p).figure a.fig with | some g => decide (g.hdr.kind = 2) | none => false))

/-- The producer's attempt of a fused consumer. -/
def producerOf (q : Part) (f : Figure) : Option RunFig :=
  match fuseOf f with
  | some (2, i) => q.active i
  | _ => none

/-- A Figure that has started: its record in the run. -/
def startedFig (i : Nat) (cnt : BitVec 64) (noWrite : Bool) (clms : List Nat) (pl : Plan) (gangs : List (List Nat)) (inv : Bool)
    (abort : Option AbortCause) : RunFig where
  fig := i
  startBeat := cnt
  attempts := 1
  detections := 0
  phase := 0
  noWrite := noWrite
  appended := false
  shape := pl.shape
  clms := clms
  items := pl.items
  mergeItems := pl.later
  buckets := pl.buckets
  bucketNow := 0
  bucketRecs := []
  committed := []
  retired := 0
  total := if pl.buckets.isEmpty then pl.items.length + pl.later.length else (pl.buckets.map (·.items.length)).sum
  recent := []
  beatDone := 0
  beats := 0
  flags := if inv then flInv else Flags.none
  opDone := false
  aborting := abort
  detectedOn := []
  gangs := gangs
  assign := []
  appendLeft := []

/-- The gangs of a Figure when an attempt starts: z healthy cores of ascending number each, and for a dense Figure the remaining cores
singly (R189, R294, R299). -/
def State.gangs (s : State) (p : Nat) (f : Figure) : List (List Nat) :=
  let cs := s.figHealthy p f.hdr
  let h := cs.length
  let fused := match (s.part p).chor with | some c => c.figures.any (fun g => fusedPair f g || fusedPair g f) | none => false
  let z := if fused then 1 else
    match f.par with
    | .dense d => min (2 ^ d.gangLog2) (2 ^ Nat.log2 h)
    | .attn a => ((List.range (a.group + 1)).filter (fun z => decide (1 ≤ z) && decide (a.group % z = 0) && decide (z ≤ h))).foldl max 1
    | _ => 1
  let alone := match f.par with | .attn _ => [] | _ => cs.drop (h / z * z)
  (List.range (h / z)).map (fun i => (cs.drop (i * z)).take z) ++ alone.map (fun c => [c])

/-- Put a started Figure into the run (R57). -/
def enterFigure (p : Nat) (a : RunFig) (s : State) : State :=
  s.modPart p (fun q =>
    match q.run with
    | some r => { q with run := some { r with next := a.fig + 1, active := r.active ++ [a] } }
    | none => q)

/-- A Figure due to start ends P1 Idle (R535). -/
def leaveIdle (s : State) : State :=
  if s.pmu.state = 1 then { s with pmu := { s.pmu with state := 0, target := 0 } } else s

/-- The start of a no-write Figure: it is complete at its start, and its transfers go out as null deliveries (R219). -/
def startNoWrite (p i fid : Nat) (s : State) : State :=
  let s1 := s.modPart p (fun q => { q with chor := q.chor.map (fun c =>
    { c with xfers := c.xfers.map (fun x => if x.srcFig = fid then { x with isNull := true } else x) }) })
  enterFigure p (startedFig i s.beat.cnt true [] Plan.empty [] false none) s1

/-- The start of a Figure that passes its checks, with its plan (R57, R302). -/
def startWork (p i : Nat) (f : Figure) (pl : Plan) (s : State) : State :=
  let fid := f.hdr.figId
  let clms := (s.freeClms p).take (clmsOf f)
  let s1 := loadRegions p f.prog s
  if !s1.regionsReady p f.prog then s
  else
    let s2 := pl.events.foldl (fun t e => postEvent p e.1 e.2 t) (beginAttempt p f pl.rowMask s1)
    let s3 := enterFigure p (startedFig i s.beat.cnt false clms pl (s.gangs p f) (!pl.events.isEmpty) none) s2
    match f.par with
    | .snapshot m => snapCapture p fid f.hdr.start m s3
    | .intermission => s3.modPart p (fun q => { q with tempo := { q.tempo with intermission := true }, notes := { q.notes with inter := true } })
    | _ => s3

/-- OPT_STATE: the record is not valid, so the Figure aborts without a rerun (R213). -/
def startBadState (p i fid base : Nat) (s : State) : State :=
  postEvent p 0x18 (payloadOf fid 0 (base * 2 ^ 32))
    (enterFigure p (startedFig i s.beat.cnt false [] Plan.empty [] false (some .optState)) s)

/-- No sequence that the Figure names is being restored (R41, R254). -/
def State.seqsReady (s : State) (p : Nat) (f : Figure) : Bool :=
  match f.list with
  | none => true
  | some l => (List.range l.count).all (fun e =>
    match l.seqId e with
    | some i => !(s.seqLive p i && decide ((s.seq (seqSlot i)).state = .restoring))
    | none => true)

/-- FIGURE_START of the Figure with FIG_ID `fig` (R57, R302). A Figure that starts as no-write touches no state record, and its record is
not checked, on which the rules are silent (R213, R219; DESIGN CHOICE, log 92). -/
def execFigureStart (p fig : Nat) (s : State) : Res :=
  let q := s.part p
  match q.chor, q.run with
  | some c, some r =>
    match c.figures[r.next]? with
    | none => .next s
    | some f =>
      let i := r.next
      if f.hdr.figId ≠ fig || !s.mayStart p r f || !earlierDone c r i f || !s.inputsValid p c r i f || !s.seqsReady p f then .next s
      else
        let t := leaveIdle s
        if isNoWrite c f then .next (startNoWrite p i fig t)
        else if f.works && (s.figHealthy p f.hdr).isEmpty then .next (postEvent p 0x13 (payloadOf fig 0 0) t)
        else if (s.freeClms p).length < clmsOf f then .next s
        else
          let prod := producerOf q f
          match s.plan p f (s.figHealthy p f.hdr).length none (prod.map (·.shape)) with
          | none => .next s
          | some pl0 =>
            let pl := match prod with | some a => { pl0 with items := a.items } | none => pl0
            match stateBaseOf f with
            | none => .next (startWork p i f pl t)
            | some base =>
              match s.table p base 40 with
              | none => .next s
              | some bs =>
                if (StepState.ofBytes bs).ok then .next (startWork p i f pl t) else .next (startBadState p i fig base t)
  | _, _ => .next s

/-! ### Phases -/

/-- The parameters of the Figure at place `i`. -/
def Part.parOf (q : Part) (i : Nat) : Option FigParams :=
  match q.figure i with
  | some f => some f.par
  | none => none

/-- Items committed under key `k` (0 the first items, 1 and 2 the later phases). -/
def RunFig.doneOf (a : RunFig) (k : Nat) : Nat := (a.committed.filter (fun x => decide (x.1 = k))).length

/-- The first phase of a Figure has completed, its items retired with their stores written: phase 0 of a backward Figure, the sweep of a
decode Figure (R290, R292, R394). -/
def RunFig.firstDone (a : RunFig) : Bool := decide (a.items.length ≤ a.retired)

/-- BACKWARD_PHASE_START: phases 1 and 2 start claiming once phase 0 has completed (R193); the counter that served phase 0 is free to
be loaded for phase 2 (R289). -/
def execBackwardPhaseStart (p fig : Nat) (s : State) : Res :=
  let q := s.part p
  match q.active fig with
  | none => .next s
  | some a =>
    match q.parOf a.fig with
    | some (.backward _ _) =>
      if a.phase ≠ 0 || a.aborting.isSome || a.noWrite || !a.firstDone then .next s
      else .next (clearClms (a.clms.drop 1) (modActive p fig (fun a => { a with phase := 1 }) s))
    | _ => .next s

/-- MERGE_PHASE_START: every sweep item has completed (R265). -/
def execMergePhaseStart (p fig : Nat) (s : State) : Res :=
  let q := s.part p
  match q.active fig with
  | none => .next s
  | some a =>
    match q.parOf a.fig with
    | some (.decode _ x) =>
      if x.bucket || a.phase ≠ 0 || a.aborting.isSome || a.noWrite || !a.firstDone then .next s
      else .next (modActive p fig (fun a => { a with phase := 1 }) s)
    | _ => .next s

/-- Items assigned round-robin to cores (R273, R274). -/
def roundRobin (cs items : List Nat) : List (Nat × Nat) := items.zipIdx.map (fun x => (x.1, cs.getD (x.2 % cs.length) 0))

/-- The cores that work a bucket's items: its sweep and its merge are each assigned from the lowest core on (R273). -/
def assignBucket (cs : List Nat) (b : BucketRun) : List (Nat × Nat) :=
  roundRobin cs (List.range b.sweeps) ++ roundRobin cs ((List.range (b.items.length - b.sweeps)).map (b.sweeps + ·))

/-- The bucket in work has run to its end: its merge is done. Before the first bucket none is in work. -/
def RunFig.bucketDone (a : RunFig) : Bool :=
  if a.bucketNow = 0 then true else
  match a.buckets[a.bucketNow - 1]? with
  | some b => decide (b.items.length ≤ a.doneOf (a.bucketNow - 1))
  | none => true

/-- The record of the bucket that has just ended (R274): its clocks are a measurement no rule gives. -/
def closeBucket (a : RunFig) (clocks : Nat) : RunFig :=
  if a.bucketRecs.length < a.bucketNow then
    match a.buckets[a.bucketNow - 1]? with
    | some b => { a with bucketRecs := a.bucketRecs ++ [(b.entries, b.items.length, clocks)] }
    | none => a
  else a

/-- The append phase of a Figure has run, if it comes at place `w` (1 start, 2 end). -/
def appendsDone (f : Figure) (a : RunFig) (w : Nat) : Bool := decide (f.hdr.append ≠ w) || (a.appended && a.appendLeft.isEmpty)

/-- BUCKET_START: the next bucket starts once the one before has completed, its stores written (R58, R272,
R273), the first after an append phase at the start (R246). -/
def execBucketStart (p fig : Nat) (s : State) : Res :=
  let q := s.part p
  match q.active fig with
  | none => .next s
  | some a =>
    match a.buckets[a.bucketNow]?, q.figure a.fig with
    | some b, some f =>
      if a.aborting.isSome || !a.bucketDone || s.storing p fig || !appendsDone f a 1 then .next s
      else
        let cs := s.figHealthy p f.hdr
        let ck := (Config.freeWord s.free).toNat
        let s1 := if 0 < a.bucketNow then s.draw else s
        .next (modActive p fig (fun a =>
          { closeBucket a ck with bucketNow := a.bucketNow + 1, assign := assignBucket cs b }) s1)
    | _, _ => .next s

/-- The appends of a Figure's append phase (R685): one per working entry of a decode Figure with new tokens, one per KV head of a
working group of a forward Figure. -/
def appendsOf (f : Figure) (a : RunFig) : List (Nat × Option Nat) :=
  let works (e : Nat) : Bool := a.items.any (fun i => decide (i.entry = e)) || a.mergeItems.any (fun i => decide (i.entry = e))
    || a.buckets.any (fun b => b.items.any (fun i => decide (i.entry = e)))
  match f.par, f.list with
  | .decode _ _, some l => ((List.range l.count).filter works).map (fun e => (e, none))
  | .attn at', some l =>
    ((List.range (l.count / at'.group)).filter works).map (fun j => (j * at'.group, some (j - (seqRun l at'.group j).1)))
  | _, _ => []

/-- APPEND_PHASE: the Figure's appends are due (R246, R685), before its first claim or after its last item. -/
def execAppendPhase (p fig : Nat) (s : State) : Res :=
  let q := s.part p
  match q.active fig with
  | none => .next s
  | some a =>
    match q.figure a.fig with
    | none => .next s
    | some f =>
      let due := if f.hdr.append = 1 then a.committed.isEmpty && a.clms.all (fun k => (s.clm k).next == 0)
        else decide (f.hdr.append = 2) && decide (a.total ≤ a.retired)
      if !due || a.appended || a.noWrite || a.aborting.isSome then .next s
      else .next (modActive p fig (fun x => { x with appended := true, appendLeft := appendsOf f a }) s)

/-! ### Control operations -/

/-- The vote whose result a SCALE_STEP reads: the one with the latest VD not after its START (R219, R221). -/
def clearFor (c : Chor) (f : FigRec) : Bool := match governing c f with | some v => v.clear | none => false

/-- The larger or smaller of two positive values. -/
def numLe (a b : Num) : Bool := match a, b with | .fin _ m e, .fin _ n k => magLe m e n k | _, _ => false

/-- The step of R221 on a valid record. The rule gives the products no VU mode; they are formed in fast mode (DESIGN CHOICE, log 101). -/
def scaleStep (clear : Bool) (x : StepState) : StepState :=
  if clear then
    let y := { x with
      t := x.t + 1
      p1 := (vu32 .mul false x.p1 x.b1 Num.zero).1
      p2 := (vu32 .mul false x.p2 x.b2 Num.zero).1
      good := (x.good + 1) % 2 ^ 32 }
    if x.growth ≠ 0 ∧ y.good = x.growth then
      let d := x.loss.scale 1
      { y with loss := if numLe d x.hi then d else x.hi, good := 0 }
    else y
  else
    let h := x.loss.scale (-1)
    { x with loss := if numLe x.lo h then h else x.lo, good := 0 }

/-- SCALE_STEP: the Caller updates the step state record by its vote's latched result (R221); a T at its largest value leaves it and
reports OPT_EXHAUSTED. -/
def execScaleStep (p fig : Nat) (s : State) : Res :=
  let q := s.part p
  match q.active fig, q.chor with
  | some a, some c =>
    match q.figure a.fig with
    | none => .next s
    | some f =>
      match f.par with
      | .scaleStep va =>
        if a.opDone || a.aborting.isSome || !(governing c f.hdr).any (·.latched) then .next s
        else
          let done := modActive p fig (fun a => { a with opDone := true })
          match s.table p va 40 with
          | none => .next s
          | some bs =>
            let x := StepState.ofBytes bs
            let k := clearFor c f.hdr
            if k && decide (2 ^ 32 - 1 ≤ x.t) then .next (done (postEvent p 0x17 (payloadOf fig 0 0) s))
            else .next (done (writeVa p false va (scaleStep k x).bytes s))
      | _ => .next s
  | _, _ => .next s

/-- KV_COMMIT: LEN of each sequence that the batch reserved rises by its k, within RES_END (R247). -/
def execKvCommit (p fig : Nat) (s : State) : Res :=
  let q := s.part p
  match q.active fig with
  | none => .next s
  | some a =>
    match q.parOf a.fig with
    | some (.kvCommit va) =>
      if a.opDone || a.aborting.isSome then .next s
      else
        let es := match q.reserved.find? (fun r => decide (r.batchVa = va)) with | some r => r.entries | none => []
        let s1 := es.foldl (fun t e =>
          if e.2.2 && t.seqLive p e.1 then
            t.modSeq (seqSlot e.1) (fun d => { d with len := max d.len (min (d.len + e.2.1) d.resEnd) })
          else t) s
        .next (modActive p fig (fun a => { a with opDone := true }) s1)
    | _ => .next s

/-- RES_RELOAD: the region it names becomes EMPTY (R327). -/
def execResReload (p fig : Nat) (s : State) : Res :=
  let q := s.part p
  match q.active fig with
  | none => .next s
  | some a =>
    match q.parOf a.fig with
    | some (.resReload id) =>
      if a.opDone || a.aborting.isSome then .next s
      else
        .next (modActive p fig (fun a => { a with opDone := true }) (s.modPart p (fun q => { q with
          residents := q.residents.map (fun r => if r.resId = id then { r with valid := false } else r) })))
    | _ => .next s

/-! ### Completion -/

/-- A snapshot Figure's copy is still running (R573). -/
def State.copying (s : State) (p fig : Nat) : Bool :=
  let n := (s.part p).snap
  n.staging.isSome && decide (n.stageFig = fig) && !n.writing && !n.mirroring

/-- Every output of the Figure is written (R58). An Intermission Figure has no output tile and no rule says when it is complete: once no
item of its partition runs and DEADLINE is no later than the next beat (DESIGN CHOICE, log 94). -/
def State.outputsDone (s : State) (p : Nat) (f : Figure) (a : RunFig) : Bool :=
  if a.noWrite then true else
  decide (a.total ≤ a.retired) && appendsDone f a 1 && appendsDone f a 2
    && (match f.par with
        | .scaleStep _ => a.opDone
        | .kvCommit _ => a.opDone
        | .resReload _ => a.opDone
        | .snapshot _ => !s.copying p f.hdr.figId
        | .intermission =>
          !(s.part p).items.any (·.running) && (match s.iterBeat p with | some b => decide (f.hdr.deadline ≤ b + 1) | none => false)
        | .backward _ _ => a.phase == 1
        | .decode _ x => x.bucket || a.phase == 1
        | _ => true)

/-- Fold a completed Figure's record into FLAG_ACC (R116, R117). -/
def foldFlags (fid : Nat) (cnt : BitVec 64) (fl : Flags) (q : Part) : Part :=
  let old := q.firstFig.toNat
  let first := if (fl.ovf || fl.inv) && (decide (old = noFig) || (decide (q.firstBeat = cnt) && decide (fid < old))) then fid else old
  { q with
    flags := q.flags.or fl
    firstFig := BitVec.ofNat 24 first
    firstBeat := if first = old then q.firstBeat else cnt
    run := q.run.map (fun r => { r with records := kset Flags.none r.records fid fl }) }

/-- Return the units of the bindings that a completed Figure releases (R435). -/
def returnCredits (p fid : Nat) (s : State) : State :=
  let q := s.part p
  match q.chor with
  | none => s
  | some c =>
    let bs := c.bindings.filter (fun b => decide (b.releaseFig = fid))
    let s1 := bs.foldl (fun t b =>
      sendToward p b.srcNode (.credit b.srcNode q.plane.node.toNat b.lb (ceilDiv b.bytes 512)) t) s
    s1.modPart p (fun q => { q with chor := q.chor.map (fun c => { c with
      bindings := c.bindings.map (fun b => if b.releaseFig = fid then { b with landed := 0, pieces := [], gotNull := false, poisoned := false } else b) }) })

/-- A Figure's trace record (R498). -/
def traceRecord (fid : Nat) (a : RunFig) (fl : Flags) (cnt : BitVec 64) (iteration : Nat) : List Byte :=
  leBytes 8 (fid % 2 ^ 24 + a.attempts % 256 * 2 ^ 24 + fl.bits * 2 ^ 32 + a.bucketRecs.length % 256 * 2 ^ 40)
    ++ leBytes 8 a.startBeat.toNat ++ leBytes 8 cnt.toNat ++ leBytes 8 (iteration % 2 ^ 32)
    ++ a.bucketRecs.flatMap (fun b => leBytes 4 b.1 ++ leBytes 4 b.2.1 ++ leBytes 8 b.2.2)

/-- Write a trace record while it fits; tracing stops at the first that does not (R498). -/
def writeTrace (p : Nat) (bs : List Byte) (s : State) : State :=
  match (s.part p).run with
  | none => s
  | some r =>
    if !r.traceOn then s
    else if r.tracePos + bs.length ≤ r.traceLen then
      writeVa p false (r.traceVa + r.tracePos) bs
        (s.modPart p (fun q => { q with run := some { r with tracePos := r.tracePos + bs.length } }))
    else s.modPart p (fun q => { q with run := some { r with traceOn := false, traceFull := true } })

/-- The last Figure of an iteration has completed (R110, R497): the run ends, or repeats with every Spin STEP raised by 1. -/
def endIteration (p : Nat) (s : State) : State :=
  match (s.part p).run, (s.part p).chor with
  | some r, some c =>
    if r.completed.length < c.figures.length then s
    else
      let s1 := s.modPart p (fun q => { q with run := some { r with iteration := r.iteration + 1 } })
      if r.iterations ≠ 0 ∧ r.iterations ≤ r.iteration + 1 then finishRun p s1
      else if r.stopAtEnd then haltRun p s1
      else
        match (s.part p).spin.findIdx? (fun k => decide (k.2 = 0xFFFFFFFF)) with
        | some i => postEvent p 0x16 (payloadOf noFig i 0) s1
        | none =>
          s1.modPart p (fun q => { q with
            spin := q.spin.map (fun k => (k.1, k.2 + 1))
            chor := q.chor.map (fun c => { c.fresh with bindings := c.bindings })
            run := some { r with iteration := r.iteration + 1, next := 0, completed := [], records := [] } })
  | _, _ => s

/-- Flags of a Figure's slots: those of work that belongs to no item (R116). -/
def State.slotFlags (s : State) (p fid : Nat) : Flags :=
  Flags.all ((s.partCores p).map (fun c =>
    let k := s.core c
    (if k.slot0.fig = some (p, fid) then k.slot0.other else Flags.none).or
      (if k.slot1.fig = some (p, fid) then k.slot1.other else Flags.none)))

/-- Every chain bound to a Figure, the one that produced its last local partial, has done its segments (R443, R447). -/
def Chor.chainsSent (c : Chor) (fig : Nat) : Bool :=
  c.chains.all (fun k => decide (k.sources.getLast?.map (·.1) ≠ some fig) || decide (ceilDiv k.rows k.segRows ≤ k.done))

/-- FIGURE_COMPLETE (R58, R110, R116, R289, R301, R435, R498). -/
def execFigureComplete (p fig : Nat) (s : State) : Res :=
  let q := s.part p
  match q.active fig, q.chor, q.run with
  | some a, some c, some r =>
    match q.figure a.fig with
    | none => .next s
    | some f =>
      if a.aborting.isSome || !s.outputsDone p f a || !a.bucketDone || decide (a.bucketNow < a.buckets.length)
          || (!a.buckets.isEmpty && s.storing p fig)
          || !(c.xfers.filter (fun x => decide (x.srcFig = fig))).all (·.issued) || !c.chainsSent fig then .next s
      else
        let fl := if a.noWrite then Flags.none else a.flags.or (s.slotFlags p fig)
        let a1 := closeBucket a (Config.freeWord s.free).toNat
        let s0 := if a1.bucketRecs.length = a.bucketRecs.length then s else s.draw
        let s1 := s0.modPart p (fun q => { q with run := some { r with
          active := r.active.filter (fun x => !decide (x.fig = a.fig)), completed := insAsc r.completed a.fig } })
        let s2 := endAttempt p fig a.clms s1
        let s3 := s2.modPart p (foldFlags fig s.beat.cnt fl)
        let s4 := writeTrace p (traceRecord fig a1 fl s.beat.cnt r.iteration) (returnCredits p fig s3)
        let s5 := if f.hdr.kind = 2 then s4.modPart p (fun q => { q with tempo := { q.tempo with
            intermission := q.run.any (fun r => r.active.any (fun x => match q.figure x.fig with | some g => decide (g.hdr.kind = 2) | none => false)) } })
          else s4
        .next (settle p (endIteration p s5))
  | _, _, _ => .next s

/-! ### Fences and aborts -/

/-- The attempt and Figure that counter `k` serves. -/
def State.clmFig (s : State) (k : Nat) : Option (RunFig × Figure) :=
  let p := k / 16
  match (s.part p).run with
  | none => none
  | some r =>
    match r.active.find? (fun a => a.clms.contains k) with
    | none => none
    | some a => ((s.part p).figure a.fig).map (fun f => (a, f))

/-- The Figures in progress that abort together with place `i`: itself and its fused partner (R301), ascending. -/
def abortGroup (q : Part) (r : Run) (i : Nat) : List (RunFig × Figure) :=
  let all := r.active.filterMap (fun a => (q.figure a.fig).map (fun f => (a, f)))
  match q.figure i with
  | none => []
  | some f => all.filter (fun x => decide (x.1.fig = i) || fusedPair x.2 f || fusedPair f x.2)

/-- The Figures whose item a core commits: the claimed one, and its fused consumer (R299). -/
def State.commitGroup (s : State) (p : Nat) (a : RunFig) : List (RunFig × Figure) :=
  match (s.part p).run with
  | some r => abortGroup (s.part p) r a.fig
  | none => []

/-- Count a retired item for LATE and progress (R61, R70). -/
def countRetired (p : Nat) (x : RunFig × Figure) (s : State) : State :=
  let s1 := modActive p x.2.hdr.figId (fun a => { a with retired := a.retired + 1, beatDone := a.beatDone + 1 }) s
  s1.modPart p (fun q => { q with run := q.run.map (fun r => { r with progressed := insAsc r.progressed x.1.fig }) })

/-- Return an item to its counter (R293): to the return queue, or kept while that is full. -/
def returnItem (clm item : Nat) (s : State) : State :=
  s.modClm clm (fun k =>
    let k := { k with returned := insAsc k.returned item }
    if k.queue.length < 128 then { k with queue := insAsc k.queue item } else { k with kept := k.kept ++ [item] })

/-- An item counts as retired: at RETIRED = LIMIT the counter signals the Caller (R290). -/
def retireItem (k : Nat) (a : RunFig) (s : State) : State :=
  let s1 := s.modClm k (fun x => { x with retired := x.retired + 1, signalled := x.signalled || decide (x.limit ≤ x.retired + 1) })
  (s.commitGroup (k / 16) a).foldl (fun t y => countRetired (k / 16) y t) s1

/-- A fenced core's hold on an item ends: an uncommitted item is returned; a committed one, whose stores are never repeated, counts as
retired (R293, log 93). -/
def giveBack (k item : Nat) (s : State) : State :=
  match s.clmFig k with
  | some (a, f) => if a.committed.contains (itemKey f a k, item) then retireItem k a s else returnItem k item s
  | none => returnItem k item s

/-- Zeroise a core's powered rows with ACM_CLEAR of both banks (R152, R334): the regions in those rows become EMPTY (R327). -/
def zeroiseCore (c : Nat) (s : State) : State :=
  let s1 := s.modCore c (fun k => { k with spm := [], badRows := [], tags := [], bank0 := Bank.clear, bank1 := Bank.clear })
  match s.coreOwner c with
  | none => s1
  | some p =>
    let i := (s.partCores p).findIdx (fun x => decide (x = c))
    s1.modPart p (fun q => { q with residents := q.residents.map (fun r => if r.mask.getLsbD i then { r with valid := false } else r) })

/-- The unfinished items of a bucket that core `c` was assigned go to the cores `cs`, in list order, round-robin from the lowest, the
sweep's and the merge's each (R273, R274). -/
def RunFig.reassign (a : RunFig) (c : Nat) (cs : List Nat) : RunFig :=
  let mine := a.assign.filter (fun x => decide (x.2 = c) && !a.committed.contains (a.bucketNow - 1, x.1))
  let sweeps := match a.buckets[a.bucketNow - 1]? with | some b => b.sweeps | none => 0
  let part (f : Nat → Bool) := roundRobin cs ((mine.map (·.1)).filter f)
  { a with assign := a.assign.filter (fun x => !mine.contains x) ++ (if cs.isEmpty then mine
      else part (fun i => decide (i < sweeps)) ++ part (fun i => decide (sweeps ≤ i))) }

/-- An attempt goes on without a fenced core: its gang dissolves into single cores, its bucket's items are reassigned (R274, R294). -/
def RunFig.without (a : RunFig) (c : Nat) (cs : List Nat) : RunFig :=
  { a.reassign c cs with
    gangs := a.gangs.flatMap (fun g => if g.contains c then (g.filter (fun x => !decide (x = c))).map (fun x => [x]) else [g]) }

/-- The Figures in progress of partition `p` go on without core `c`. -/
def leaveFigures (p c : Nat) (s : State) : State :=
  s.modPart p (fun q => { q with run := q.run.map (fun r => { r with active := r.active.map (fun a =>
    match q.figure a.fig with
    | some f => a.without c ((s.figHealthy p f.hdr).filter (fun x => !decide (x = c)))
    | none => a) }) })

/-- The item of a forward gang is returned with a fenced member's copy, so the other members drop it with its flags (R189, R293, log 93). -/
def dropShared (c : Nat) (s : State) : State :=
  ((s.core c).held).foldl (fun t h =>
    (List.range s.cfg.cores).foldl (fun t d =>
      if d = c ∨ !(t.core d).held.contains h then t
      else t.modCore d (fun k => { k with
        held := k.held.filter (fun x => !decide (x = h))
        slot0 := if k.slot0.work.map (·.2) = some h.2 then { k.slot0 with item := Flags.none, work := none, todo := [], sb := none, areas := [] } else k.slot0 })) t) s

/-- Fence a core (R151, R293, R399, R563): zeroised, its streams unbound, its held items returned in ascending index, and the Figures in
progress going on without it. -/
def fenceCore (c : Nat) (s0 : State) : State :=
  let s := dropShared c s0
  let items := ((s.core c).held).mergeSort (fun a b => decide (a.2 ≤ b.2))
  let s1 := items.foldl (fun t h => giveBack h.1 h.2 t) (unbindWhere (fun x => decide (x.core = c)) s)
  let s2 := (zeroiseCore c s1).modCore c (fun k => { k with
    held := [], slot0 := Slot.empty, slot1 := Slot.empty, windows := [], rows := [], busyCh := [], poisoned := false,
    rowMask := 4, staged := [], fenced := true })
  match s2.coreOwner c with
  | some p => leaveFigures p c (s2.modPart p (fun q => { q with notes := { q.notes with fence := true } }))
  | none => s2

/-- A cause that leads to a rerun (R555). -/
def causeReruns (c : AbortCause) : Bool :=
  match c with
  | .spmParity _ _ => true
  | .acmParity _ _ _ => true
  | _ => false

/-- The event code a stop for an abort carries, if the cause stops the Choreography (R213, R557). -/
def causeStop (c : AbortCause) : Option Nat :=
  match c with
  | .memUe => some 0x50
  | .farUe => some 0x56
  | .regionViolation => some 0x60
  | .linkData => some 0x74
  | .optState => some 0x18
  | .dieTrip => some 0xB0
  | _ => none

/-- The record of a Figure's next attempt (R208, R209, R280): the whole Figure, or its uncommitted items. -/
def RunFig.again (a : RunFig) (whole : Bool) (clms : List Nat) (gangs : List (List Nat)) : RunFig :=
  let kept := if whole then [] else a.committed
  { a with
    attempts := a.attempts + 1, phase := if whole then 0 else a.phase, appended := !whole && a.appended, clms := clms
    bucketNow := if whole then 0 else a.bucketNow, bucketRecs := if whole then [] else a.bucketRecs, committed := kept
    retired := kept.length, recent := [], beatDone := 0, beats := 0, opDone := false, aborting := none, detectedOn := [], gangs := gangs
    assign := if whole then [] else a.assign
    appendLeft := if whole then [] else a.appendLeft }

/-- Rerun a Figure (R324), a fused pair's without its committed items (R301): its regions reloaded, its attempt begun on the healthy
cores; none left is NO_CORES (R293). -/
def rerunFigure (p : Nat) (pair : Bool) (x : RunFig × Figure) (s : State) : State :=
  let fid := x.2.hdr.figId
  let cs := s.figHealthy p x.2.hdr
  let clms := (s.freeClms p).take x.1.clms.length
  let mask := match x.2.par with | .decode at' d => ceilDiv (at'.group * d.qrows) 32 | _ => 4
  let s1 := modActive p fid (fun a => a.again (x.2.hdr.rerunOk && !pair) clms (s.gangs p x.2)) (partCount p 3 1 (loadRegions p x.2.prog s))
  if cs.isEmpty then postEvent p 0x13 (payloadOf fid 0 0) s1 else beginAttempt p x.2 mask s1

/-- Drop a Figure without a rerun (R557). -/
def dropFigure (p : Nat) (i : Nat) (s : State) : State :=
  partCount p 4 1 (s.modPart p (fun q => { q with run := q.run.map (fun r => { r with active := r.active.filter (fun a => !decide (a.fig = i)) }) }))

/-- Fence a core for a second parity detection, and ask for replacement (R151, R324, R561). -/
def fenceForParity (c : Nat) (s : State) : State := withHealth (fun s => replaceCause 0 (fenceCore c s)) s

/-- FIGURE_ABORT at the tile boundary (R293, R301, R324, R399, R557): the cores of the second and each later parity detection are fenced; a
parity detection leads to a rerun, any other cause drops the Figure, and stops the Choreography where the rule says so. -/
def execFigureAbort (p fig : Nat) (s : State) : Res :=
  let q := s.part p
  match q.active fig, q.run with
  | some a, some r =>
    match a.aborting with
    | none => .next s
    | some cause =>
      let g := abortGroup q r a.fig
      let s1 := g.foldl (fun t x => endAttempt p x.2.hdr.figId x.1.clms t) s
      let s2 := (g.flatMap (fun x => x.1.detectedOn)).foldl (fun t c => if (t.core c).fenced then t else fenceForParity c t) s1
      if causeReruns cause then
        let s3 := g.foldl (fun t x => modActive p x.2.hdr.figId (fun a => { a with clms := [] }) t) s2
        .next (g.foldl (fun t x => rerunFigure p (decide (1 < g.length)) x t) s3)
      else
        let s3 := g.foldl (fun t x => dropFigure p x.1.fig t) s2
        match causeStop cause with
        | some code => .next (fremundStop p code s3)
        | none => .next (settle p s3)
  | _, _ => .next s

end Sys2Proof.Machine
end

