-- ==== Sys2Proof/Machine/Claims.lean ====
section
/-! DEFINITION. Claim Counters (R289 to R294) and committing items (R116, R239, R292, R299). -/

namespace Sys2Proof.Machine

/-- Counter `k` may be loaded in the Figure's phase (R193, R265, R289). -/
def loadDue (f : Figure) (a : RunFig) (k : Nat) : Bool :=
  match f.par with
  | .backward _ _ => decide (a.phase = 1) || decide (a.clms.head? ≠ some k)
  | .decode _ _ => decide (a.clms.head? = some k) || decide (a.phase = 1)
  | _ => true

/-- The items counter `k` deals out in the Figure's phase (R193, R262, R265, R287). -/
def RunFig.countOf (a : RunFig) (f : Figure) (k : Nat) : Nat :=
  match f.par, itemKey f a k with
  | .backward _ _, key => if key = 0 then a.items.length else (a.mergeItems.filter (fun i => decide (i.b = key))).length
  | .decode _ _, key => if key = 0 then a.items.length else a.mergeItems.length
  | _, _ => a.items.length

/-- CLM_LOAD (R262, R290) with the item count: LIMIT = n, NEXT = 0, the return queue empty, RETIRED = 0, the Figure and partition
recorded. -/
def execClmLoad (k n p fig : Nat) (s : State) : Res :=
  match s.clmFig k with
  | none => .next s
  | some (a, f) =>
    if f.hdr.figId ≠ fig || decide (k / 16 ≠ p) || (s.clm k).loaded || a.aborting.isSome || !loadDue f a k
        || decide (n ≠ a.countOf f k) then .next s
    else .next (s.setClm k ⟨true, n, 0, [], [], 0, fig, p, false, []⟩)

/-- Record a refused claim (R291, R526), with COUNTER_SAT when COUNT saturates (R591, R593). -/
def refuseClaim (c k : Nat) (s : State) : State :=
  let t := s.prot
  let (n, o) := satAdd 16 t.violCount 1
  let s1 := { s with prot := { t with
      violValid := true
      violCore := if t.violValid then t.violCore else c
      violClm := if t.violValid then t.violClm else k
      violCount := n
      violSat := t.violSat || o } }
  if o && !t.violSat then satAll 0x20308 s1 else s1

/-- A core receives an answer to its claim. -/
def answerClaim (c : Nat) (x : ClaimAnswer) (s : State) : State := s.modCore c (fun k => { k with answer := some x })

/-- Take up to `z` indices of a counter (R290): from the return queue first for z = 1, from NEXT first for z > 1. Indices committed
in an earlier attempt are passed over and count as retired (log 36). -/
def takeItems (k : Clm) (done : List Nat) (z : Nat) : List Nat × Clm :=
  let fresh := (((List.range (k.limit - k.next)).map (k.next + ·)).filter (fun i => !done.contains i)).take z
  let fromQueue := k.queue.take z
  let useQueue := !k.queue.isEmpty && (decide (z = 1) || fresh.isEmpty)
  if useQueue then
    let rest := k.queue.drop z
    let room := 128 - rest.length
    (fromQueue, { k with queue := (k.kept.take room).foldl insAsc rest, kept := k.kept.drop room })
  else
    let next := match fresh.getLast? with | some i => i + 1 | none => k.limit
    let passed := (next - k.next) - fresh.length
    let r := k.retired + passed
    (fresh, { k with next := next, retired := r, signalled := k.signalled || (decide (0 < passed) && decide (k.limit ≤ r)) })

/-- The cores that the items of a claim go to: the gang's members in order, its size being the claim's z (R294), and for a forward Figure
every member of the gang for its one item, which the first claims (R189); a core in no gang claims singly, but takes no part in a forward
Figure. None where the core claims otherwise. -/
def RunFig.claimants (a : RunFig) (f : Figure) (c z : Nat) : Option (List Nat) :=
  let g := a.gangs.find? (fun g => g.contains c)
  match f.par with
  | .attn _ => g.filter (fun g => decide (z = 1) && decide (g.head? = some c))
  | _ =>
    match g with
    | some g => if g.length = z then some g else none
    | none => if z = 1 then some [c] else none

/-- Hand the items to their cores. -/
def giveItems (attn : Bool) (k : Nat) (cs items : List Nat) (s : State) : State :=
  if attn then cs.foldl (fun t c => t.modCore c (fun x => { x with held := x.held ++ items.map (fun i => (k, i)) })) s
  else items.zipIdx.foldl (fun t i =>
    match cs[i.2]? with
    | some c => t.modCore c (fun x => { x with held := x.held ++ [(k, i.1)] })
    | none => t) s

/-- CLM_CLAIM(z) by core `c` (R189, R290 to R294): items, EMPTY, or DONE. A claim from outside the counter's partition or the Figure's
core mask returns EMPTY and is recorded. -/
def execClmClaim (c k z : Nat) (s : State) : Res :=
  let x := s.core c
  let p := k / 16
  if x.fenced || x.halted || decide (s.pmu.dieLevel = 2) then .next s
  else
    match s.clmFig k with
    | none => .next (if s.coreOwner c = some p then answerClaim c .empty s else refuseClaim c k (answerClaim c .empty s))
    | some (a, f) =>
      if !(s.figCores p f.hdr).contains c then .next (refuseClaim c k (answerClaim c .empty s))
      else if a.aborting.isSome || x.poisoned || !appendsDone f a 1 || !(s.clm k).loaded then .next (answerClaim c .empty s)
      else
        match a.claimants f c z with
        | none => .next s
        | some cs =>
          if cs.any (fun c => decide (2 ≤ ((s.core c).held.filter (fun h => decide (h.1 = k))).length)) then .next s
          else
            let key := itemKey f a k
            let (got, k') := takeItems (s.clm k) ((a.committed.filter (fun y => decide (y.1 = key))).map (·.2)) z
            let s1 := s.setClm k k'
            if got.isEmpty then .next (answerClaim c (if k'.retired < k'.limit then .empty else .done) s1)
            else
              let attn := match f.par with | .attn _ => true | _ => false
              .next (answerClaim c (.items got) (giveItems attn k cs got s1))

/-- The commit of item `item` of key `key` by core `c` for one Figure: its flags join the record (R116). -/
def commitFor (p c key item : Nat) (last : Bool) (x : RunFig × Figure) (s : State) : State :=
  let fl := ((s.core c).slot x.2.slot).item
  let s1 := s.modCore c (fun k => k.setSlot x.2.slot { k.slot x.2.slot with item := Flags.none })
  modActive p x.2.hdr.figId (fun a =>
    { a with flags := a.flags.or fl, committed := if last then a.committed ++ [(key, item)] else a.committed }) s1

/-- A failed lookup as the event names it (R239): the tile of 128 keys, its cause, SEQ_ID and LIST, and the lowest token reported. -/
def walkFaults (ls : List KvLook) : List KvLook :=
  ls.filter (fun x => match x.found with
    | .page _ => false
    | .failed r => !ls.any (fun y => decide (y.found = .failed r) && decide (y.seqId = x.seqId) && decide (y.token / 128 = x.token / 128)
        && decide (y.token < x.token)))

/-- The pointer-list entry of an item, for a group that of its first head (R189). -/
def State.workList (s : State) (c : Nat) (w : Nat × Nat) : Nat :=
  match s.slotFigure c 0 with
  | none => 0
  | some (_, a, f) => (((a.itemAt f w.1 w.2).map (·.entry)).getD 0) * groupOf f

/-- Core `c` has committed its item: it takes up the next, and what its streams looked up for the item is forgotten, a failed walk being
reported once per tile and cause, with the lowest token (R239, log 95). -/
def endItem (c : Nat) (s : State) : State :=
  match (s.core c).slot0.work, (s.core c).slot0.fig with
  | some w, some (p, fig) =>
    let lst := s.workList c w
    let mine (m : Stream) : Bool := decide (m.core = c) && decide (m.part = p) && decide (m.fig = fig)
    let ls := ((s.streams.filter (fun y => mine y.2)).flatMap (fun y => y.2.kvPages.filter (fun x => decide (x.work = w)))).eraseDups
    let s1 := (walkFaults ls).foldl (fun t x =>
      match x.found with
      | .failed cause => postEvent p 0x30 (walkError fig cause lst x.seqId x.token) t
      | .page _ => t) s
    leaveWork c (s1.streams.foldl (fun t y =>
      if mine y.2 then t.modStream y.1 (fun m => { m with kvPages := m.kvPages.filter (fun x => !decide (x.work = w)) }) else t) s1)
  | _, _ => leaveWork c s

/-- ITEM_COMMIT in bucket mode: the core commits the item it works, one it was assigned (R273). -/
def commitBucket (p c item : Nat) (a : RunFig) (f : Figure) (s : State) : State :=
  let key := a.bucketNow - 1
  let s0 := primeItem c s
  if !a.assign.contains (item, c) || a.committed.contains (key, item) || a.bucketNow == 0 || a.mergeTooSoon item
      || !s0.itemFinished c key item then s
  else endItem c (countRetired p (a, f) (commitFor p c key item true (a, f) s0))

/-- ITEM_COMMIT (R116, R209, R292, R299): a core that has worked the item, the first it holds, to the end of its program with no parity
detection commits its stores and flags; the members of a forward gang each commit their heads, the claiming core last (R189). -/
def execItemCommit (c k item slot : Nat) (s : State) : Res :=
  let x := s.core c
  let p := k / 16
  if x.fenced || x.halted || decide (s.pmu.dieLevel = 2) || x.poisoned then .next s
  else
    match s.clmFig k with
    | some (a, f) =>
      let key := itemKey f a k
      let s0 := primeItem c s
      if !x.held.contains (k, item) || a.committed.contains (key, item) || !s0.itemFinished c key item then .next s
      else
        let g := s0.commitGroup p a
        let others := (s.partCores p).filter (fun d => decide (d ≠ c) && (s.core d).held.contains (k, item))
        let first := a.gangs.any (fun g => g.head? = some c)
        match f.par with
        | .attn _ =>
          if first then
            if others.isEmpty then .next (endItem c (g.foldl (fun t y => commitFor p c key item true y t) s0)) else .next s
          else
            .next (endItem c (g.foldl (fun t y => commitFor p c key item false y t)
              (s0.modCore c (fun x => { x with held := x.held.erase (k, item) }))))
        | _ => .next (endItem c (g.foldl (fun t y => commitFor p c key item true y t) s0))
    | none =>
      match (x.slot slot).fig with
      | none => .next s
      | some (p, fig) =>
        match (s.part p).active fig with
        | none => .next s
        | some a =>
          match (s.part p).figure a.fig with
          | some f => .next (commitBucket p c item a f s)
          | none => .next s

/-- A store of core `c` for the Figure waits on a fault, or part of it is not written yet (R394). -/
def State.storeWaits (s : State) (c p fig : Nat) : Bool :=
  s.streams.any (fun x => x.2.bound && decide (x.2.core = c) && decide (x.2.part = p) && decide (x.2.fig = fig)
    && x.2.lines.any (fun l => l.write))

/-- CLM_RETIRE (R290, R292, R394): a core retires the item it committed; at RETIRED = LIMIT the counter signals the Caller. -/
def execClmRetire (c k item : Nat) (s : State) : Res :=
  let p := k / 16
  match s.clmFig k with
  | none => .next s
  | some (a, f) =>
    if !(s.core c).held.contains (k, item) || !a.committed.contains (itemKey f a k, item) || s.storeWaits c p f.hdr.figId then .next s
    else
      let s1 := s.modCore c (fun x => { x with held := x.held.erase (k, item) })
      .next (retireItem k a s1)

/-- CLM_RETURN: the Caller places an uncommitted index that no core holds in the return queue (R290, R293). -/
def execClmReturn (k item : Nat) (s : State) : Res :=
  match s.clmFig k with
  | none => .next s
  | some (a, f) =>
    let x := s.clm k
    if !x.loaded || decide (x.next ≤ item) || a.committed.contains (itemKey f a k, item) || x.queue.contains item || x.kept.contains item
        || (s.partCores (k / 16)).any (fun c => !(s.core c).fenced && (s.core c).held.contains (k, item)) then .next s
    else .next (returnItem k item s)

/-- CLM_RELEASE: the Caller clears the counter for its next load (R290), once its phase is done. -/
def execClmRelease (k : Nat) (s : State) : Res :=
  let x := s.clm k
  if x.loaded && (x.signalled || decide (x.limit ≤ x.retired) || (s.clmFig k).isNone) then .next (s.setClm k Clm.clear) else .next s

end Sys2Proof.Machine
end

