-- ==== Sys2Proof/Machine/Kv.lean ====
section
/-! DEFINITION. The paged key/value cache (R222 to R255): arenas and frames, descriptors, pages and their planes, walks, appends,
reservation, trimming, closing, eviction and restore, and the KV commands (R499, R500). -/

namespace Sys2Proof.Machine

/-! ### Arenas -/

/-- What frame `f` of an arena is. -/
def Arena.frame (a : Arena) (f : Nat) : FrameUse := kget .dirty a.use f

/-- Set a run of frames. -/
def Arena.setRun (a : Arena) (f n : Nat) (v : FrameUse) : Arena :=
  { a with use := (List.range n).foldl (fun m i => kset .dirty m (f + i) v) a.use }

/-- Frame `f` starts a run of `n` free, zeroed frames. -/
def Arena.runAt (a : Arena) (f n : Nat) : Bool :=
  decide (f + n ≤ a.frames) && (List.range n).all (fun i => decide (a.frame (f + i) = .zeroed))

/-- The lowest run of `n` free, zeroed frames (R233). -/
def Arena.findRun (a : Arena) (n : Nat) : Option Nat := (a.use.map (·.1)).find? (fun f => a.runAt f n)

/-- Allocate runs of the given lengths in order; none if one of them does not fit (R233). -/
def Arena.allocate (a : Arena) (slot : Nat) (ns : List Nat) : Option (List Nat × Arena) :=
  match ns with
  | [] => some ([], a)
  | n :: r =>
    match a.findRun n with
    | none => none
    | some f =>
      match (a.setRun f n (.held slot)).allocate slot r with
      | some (fs, b) => some (f :: fs, b)
      | none => none

/-- Free every frame that a slot holds, as dirty (R251). -/
def Arena.release (a : Arena) (slot : Nat) : Arena := { a with use := a.use.filter (fun x => decide (x.2 ≠ .held slot)) }

/-- Frames of an arena in a use. -/
def Arena.count (a : Arena) (f : FrameUse → Bool) : Nat := (a.use.filter (fun x => f x.2)).length

def FrameUse.isHeld (u : FrameUse) : Bool := match u with | .held _ => true | _ => false

def Arena.zeroed (a : Arena) : Nat := a.count (fun u => decide (u = .zeroed))
def Arena.heldFrames (a : Arena) : Nat := a.count FrameUse.isHeld
def Arena.dirty (a : Arena) : Nat := a.frames - a.use.length

/-- Length of the run of zeroed frames that starts at `f`; `n` bounds it. -/
def Arena.runLength (a : Arena) (f n : Nat) : Nat :=
  match n with
  | 0 => 0
  | k + 1 => if a.frame f = .zeroed then a.runLength (f + 1) k + 1 else 0

/-- The largest run of zeroed frames. -/
def Arena.largestRun (a : Arena) : Nat := ((a.use.map (fun x => a.runLength x.1 a.use.length))).foldl max 0

/-- VA of a frame (R222). -/
def Arena.va (a : Arena) (f : Nat) : Nat := a.base + 8192 * f

/-- Change partition `p`'s cache record. -/
def modKv (p : Nat) (f : KvPart → KvPart) (s : State) : State := s.modPart p (fun q => { q with kv := f q.kv })

/-! ### Descriptors -/

/-- The cache formats (R227). -/
def cacheFmt (c : Nat) : Bool :=
  match fmtOf c with
  | some .e4m3 => true
  | some .e5m2 => true
  | some .bs8 => true
  | some .bs4 => true
  | some .bf4 => true
  | _ => false

/-- A format code is block-scaled. -/
def blockCode (c : Nat) : Bool := match fmtOf c with | some f => fmtIsBlock f | none => false

/-- Bits of an element of a format code. -/
def codeBits (c : Nat) : Nat := match fmtOf c with | some f => fmtBits f | none => 8

/-- STATE codes (R227). -/
def SeqState.code (x : SeqState) : Nat :=
  match x with | .free => 0 | .opened => 1 | .evicting => 2 | .evicted => 3 | .restoring => 4

/-- The 64 bytes of a descriptor (R227). -/
def Seq.bytes (d : Seq) : List Byte :=
  if d.state = .free then leBytes 64 (d.gen.toNat * 2 ^ 24) else
  leBytes 4 (d.jobTag.toNat + d.part * 2 ^ 22 + d.gen.toNat * 2 ^ 24 + d.state.code * 2 ^ 28)
    ++ leBytes 4 (d.vFmt * 2 ^ 2 + d.kFmt * 2 ^ 6 + d.headDim * 2 ^ 10 + (d.kvHeads - 1) * 2 ^ 19 + d.layers * 2 ^ 24)
    ++ leBytes 4 (d.plCap + d.log2Max * 2 ^ 24 + d.log2Min * 2 ^ 28)
    ++ leBytes 4 d.pages.length ++ leBytes 4 d.len ++ leBytes 4 d.resEnd ++ leBytes 8 d.plAddr.toNat
    ++ leBytes 4 d.tailFrame.toNat ++ leBytes 4 d.hbmFrames ++ leBytes 4 d.farFrames ++ List.replicate 20 0

/-- Round up to 512 bytes. -/
def round512 (n : Nat) : Nat := ceilDiv n 512 * 512

/-- Bytes of an element plane of `n` tokens (R231). -/
def elemPlane (d : Seq) (f n : Nat) : Nat := round512 (n * d.headDim * codeBits f / 8)

/-- Bytes of a scale plane, 0 where the format has none. -/
def scalePlane (d : Seq) (f n : Nat) : Nat := if blockCode f then round512 (n * d.headDim / 32) else 0

/-- Bytes of the planes of one layer and KV head (R231). -/
def headBytes (d : Seq) (n : Nat) : Nat :=
  elemPlane d d.kFmt n + scalePlane d d.kFmt n + elemPlane d d.vFmt n + scalePlane d d.vFmt n

/-- Frames of a page of `n` tokens (R231). -/
def pageFrames (d : Seq) (n : Nat) : Nat := ceilDiv (d.layers * d.kvHeads * headBytes d n) 8192

/-- Frames of the V tail (R235); 0 where V is not block-scaled. -/
def tailFrames (d : Seq) : Nat := if blockCode d.vFmt then ceilDiv (d.layers * d.kvHeads * 32 * d.headDim * 2) 8192 else 0

/-- Tokens of a page. -/
def Page.tokens (g : Page) : Nat := 2 ^ g.log2Size

/-- The first token after the pages of a sequence. -/
def Seq.covered (d : Seq) : Nat := match d.pages.getLast? with | some g => g.firstToken + g.tokens | none => 0

/-- LOG2_SIZE of a new page that starts at token `t` (R229). -/
def ladder (d : Seq) (t : Nat) : Nat := if t < 2 ^ d.log2Min then d.log2Min else min (Nat.log2 t) d.log2Max

/-- The pages, as first token and size, that reach token `e`; `n` bounds their number. -/
def newPages (d : Seq) (t e n : Nat) : List (Nat × Nat) :=
  match n with
  | 0 => []
  | k + 1 => if e ≤ t then [] else (t, ladder d t) :: newPages d (t + 2 ^ ladder d t) e k

/-- The lowest of `n` slots from `i` that is free and was never freed since reset. -/
def State.neverUsed (s : State) (i n : Nat) : Option Nat :=
  match n with
  | 0 => none
  | k + 1 => if (s.seq i).state = .free && !s.fw.freeSlots.contains i then some i else s.neverUsed (i + 1) k

/-- The FREE slot that has been free longest (R606). -/
def State.freeSlot (s : State) : Option Nat :=
  match s.neverUsed 0 65536 with
  | some i => some i
  | none => s.fw.freeSlots.head?

/-- Descriptors of partition `p` that are not FREE. -/
def State.openSeqs (s : State) (p : Nat) : List Nat :=
  (s.seqs.filter (fun x => decide (x.2.state ≠ .free) && decide (x.2.part = p))).map (·.1)

/-- Drop every Set's KVLB entries, cached descriptor and cursors of a slot (R238). -/
def dropSeqCaches (slot : Nat) (s : State) : State :=
  s.sets.foldl (fun t x => t.modUnit x.1 (fun u => { u with
    kvlb := u.kvlb.filter (fun e => decide (seqSlot e.seqId ≠ slot))
    descCache := u.descCache.filter (fun k => decide (k ≠ slot))
    cursors := u.cursors.filter (fun c => match c.2 with | some v => decide (seqSlot v.1 ≠ slot) | none => true) })) s

/-- Close a sequence (R250, R253): frames of both tiers freed as dirty, the descriptor zeroed, GEN kept. -/
def closeSeq (slot : Nat) (s : State) : State :=
  let d := s.seq slot
  let s1 := modKv d.part (fun k => { k with hbm := k.hbm.release slot, far := k.far.release slot }) (dropSeqCaches slot s)
  let s2 := s1.setSeq slot { Seq.free with gen := d.gen }
  { s2 with fw := { s2.fw with freeSlots := s2.fw.freeSlots ++ [slot] } }

/-! ### Addresses in a page -/

/-- VA of frame `f` of the tier a page lies in. -/
def KvPart.frameVa (k : KvPart) (far : Bool) (f : Nat) : Nat := if far then k.far.va f else k.hbm.va f

/-- VA of a plane of a page: layer, KV head, and 0 K elements, 1 K scales, 2 V elements, 3 V scales (R231). -/
def planeVa (k : KvPart) (d : Seq) (g : Page) (layer head plane : Nat) : Nat :=
  let n := g.tokens
  let off := [0, elemPlane d d.kFmt n, elemPlane d d.kFmt n + scalePlane d d.kFmt n,
    elemPlane d d.kFmt n + scalePlane d d.kFmt n + elemPlane d d.vFmt n]
  k.frameVa g.far g.frame + (layer * d.kvHeads + head) * headBytes d n + nth off plane

/-- VA of a token's row in the V tail (R235). -/
def tailVa (k : KvPart) (d : Seq) (layer head t : Nat) : Nat :=
  k.frameVa (decide (d.state = .evicted) || decide (d.state = .restoring)) d.tailFrame.toNat
    + ((layer * d.kvHeads + head) * 32 + t % 32) * d.headDim * 2

/-- The page that holds a token. -/
def Seq.pageOf (d : Seq) (t : Nat) : Option Page := d.pages.find? (fun g => decide (g.firstToken ≤ t) && decide (t < g.firstToken + g.tokens))

/-! ### Walks -/

/-- The entry of a page list that a walk reaches, and the entries it probes (R237): a cursor's ascending scan from place `i`, or a
binary search. `n` bounds the steps. -/
def scanFrom (ps : List Page) (t i n : Nat) : Nat × List Nat :=
  match n with
  | 0 => (i, [i])
  | k + 1 =>
    match ps[i]? with
    | some g =>
      if g.firstToken + g.tokens ≤ t then
        let r := scanFrom ps t (i + 1) k
        (r.1, i :: r.2)
      else (i, [i])
    | none => (i, [i])

def searchIn (ps : List Page) (t lo hi n : Nat) : Nat × List Nat :=
  match n with
  | 0 => (lo, [lo])
  | k + 1 =>
    if lo < hi then
      let mid := (lo + hi + 1) / 2
      let low := match ps[mid]? with | some g => decide (g.firstToken ≤ t) | none => false
      let r := if low then searchIn ps t mid hi k else searchIn ps t lo (mid - 1) k
      (r.1, mid :: r.2)
    else (lo, [lo])

/-- Most recently used first: `x` moves to the front of a list of at most `n`. -/
def useFirst {α : Type} [DecidableEq α] (l : List α) (x : α) (n : Nat) : List α := (x :: l.erase x).take n

/-- The KV stream of a lookup is bound, of the KV kind and on a core of the Set. -/
def State.kvStream (s : State) (k i : Nat) : Bool :=
  let m := s.stream i
  m.bound && decide (m.kind = .kv) && decide (m.core / 4 = k)

/-- The list entry of a Figure that names a sequence. -/
def listOf (f : Figure) (i : BitVec 20) : Nat :=
  match f.list with
  | some l => ((List.range l.count).find? (fun e => decide (l.seqId e = some i))).getD 0
  | none => 0

/-- A lookup is for a sequence and a token that item `w` of the stream's core reads: the SEQ_ID of its entry and a tile below its KV_LEN
(R166, R260, R684); any is where no item is held. -/
def State.looksFor (s : State) (c : Nat) (w : Option (Nat × Nat)) (sid : BitVec 20) (tok : Nat) : Bool :=
  match w, s.slotFigure c 0 with
  | some w, some (p, a, f) =>
    (match a.itemAt f w.1 w.2, f.list, lenBaseOf f with
     | some it, some l, some b =>
       let e := it.entry * groupOf f
       decide (l.seqId e = some sid) && (match s.lenEntry p b e with | some le => decide (tok < 128 * ceilDiv le.kvLen 128) | none => true)
     | _, _, _ => true)
  | _, _ => true

/-- What a lookup of stream `i` for item `w` found (R237, R239): a failure sets INV with its item, and is reported when the item commits. -/
def walkResult (i : Nat) (w : Nat × Nat) (sid : BitVec 20) (tok : Nat) (r : KvFound) (s : State) : State :=
  let m := s.stream i
  let s1 := s.setStream i { m with kvPages := m.kvPages ++ [⟨w, sid, tok, r⟩] }
  match r with
  | .page _ => s1
  | .failed _ => if (s.lookWork m.core false).all (fun x => decide (x = w)) then raise m.core (if (s.core m.core).slot1.fig = some (m.part, m.fig) then 1 else 0) flInv s1 else s1

/-- What the descriptor says of a lookup before any page is read: a failure's cause (R237; R253 and R255 for a sequence that is not OPEN,
log 38). -/
def State.walkDenied (s : State) (p : Nat) (sid : BitVec 20) (tok : Nat) : Option Nat :=
  if !s.seqLive p sid then some 0 else if (s.seq (seqSlot sid)).resEnd ≤ tok then some 1 else none

/-- The KVLB entry that holds a token (R238). -/
def SetUnits.kvHit (u : SetUnits) (sid : BitVec 20) (tok : Nat) : Option KvlbEntry :=
  u.kvlb.find? (fun e => decide (e.seqId = sid) && decide (e.page.firstToken ≤ tok) && decide (tok < e.page.firstToken + e.page.tokens))

/-- Read a descriptor through the descriptor cache of Set `k`, whose entry may fail its parity and then is read again (R237, R558). -/
def readDescriptor (k slot : Nat) (bad : Bool) (s : State) : State :=
  let u := s.unit k
  let s1 := s.setUnit k { u with descCache := useFirst u.descCache slot 16 }
  if bad && u.descCache.contains slot then blkCount 1 s1 else s1

/-- PWU_LOOKUP (R237, R238, R558): a KVLB hit, also while a walk of the stream is in flight, a failure, or a walk of at most 8 in flight.
An entry read that fails its parity is dropped and served as on a miss. -/
def execPwuLookup (k : Nat) (r : TagRead) (sid : BitVec 20) (tok : Nat) (ask : PageAsk) (s : State) : Res :=
  let i := r.stream
  let u := s.unit k
  let c := (s.stream i).core
  let w := s.lookWork c ask.ahead
  if !s.kvStream k i || u.fenced || !s.looksFor c w sid tok then .next s
  else
    let w := w.getD (0, 0)
    let hit := u.kvHit sid tok
    match if r.bad then none else hit with
    | some e => .next (walkResult i w sid tok (.page e.page) (s.setUnit k { u with kvlb := useFirst u.kvlb e 256 }))
    | none =>
      let s1 := match hit with
        | some e => blkCount 1 (s.setUnit k { u with kvlb := u.kvlb.erase e })
        | none => s
      if u.kvWalks.any (fun w => decide (w.stream = i)) || decide (8 ≤ u.kvWalks.length) then .next s1
      else
        let s2 := readDescriptor k (seqSlot sid) (r.bad && hit.isNone) s1
        match s.walkDenied (s.stream i).part sid tok with
        | some c => .next (walkResult i w sid tok (.failed c) s2)
        | none => .next (s2.modUnit k (fun u => { u with kvWalks := u.kvWalks ++ [⟨i, sid, tok, ask.search, w⟩] }))

/-- The page-list entry a lookup reaches, from a cursor or by binary search, and the entries it reads (R237). -/
def Seq.reach (d : Seq) (cur : Option Nat) (tok : Nat) : Nat × List Nat :=
  match cur with
  | some j => scanFrom d.pages tok j d.pages.length
  | none => searchIn d.pages tok 0 (d.pages.length - 1) 13

/-- What the entry at place `i` of a page list is worth (R237). -/
def Seq.entryFound (d : Seq) (i : Nat) : KvFound :=
  match d.pages[i]? with
  | none => .failed 2
  | some g => if !g.valid || decide (g.kFmt ≠ d.kFmt) || decide (g.vFmt ≠ d.vFmt) then .failed 2 else if g.far then .failed 3 else .page g

/-- Walk a sequence's page list in Set `k` for partition `p`: the lines it reads are counted, and an entry found is cached (R237, R529). -/
def walkPages (k p : Nat) (sid : BitVec 20) (tok : Nat) (cur : Option Nat) (stream : Option Nat) (s : State) : KvFound × State :=
  let d := s.seq (seqSlot sid)
  let r := d.reach cur tok
  let s1 := acctAdd p 2 (64 * ((r.2.map (· / 4)).foldl insAsc []).length) s
  let v := d.entryFound r.1
  (v, match v with
    | .failed _ => s1
    | .page g => s1.modUnit k (fun u => { u with
        kvlb := useFirst u.kvlb ⟨sid, g⟩ 256
        cursors := match stream with | some i => kset none u.cursors i (some (sid, r.1)) | none => u.cursors }))

/-- PWU_WALK_DONE (R237, R239, R529, R558): the entry is found by the cursor's scan or a binary search, checked, and cached. -/
def execPwuWalkDone (k : Nat) (x : TagRead) (s : State) : Res :=
  let i := x.stream
  let u := s.unit k
  match u.kvWalks.find? (fun w => decide (w.stream = i)) with
  | none => .next s
  | some w =>
    let p := (s.stream i).part
    let s0 := s.setUnit k { u with kvWalks := u.kvWalks.erase w }
    if !s.kvStream k i then .next s0
    else
      let s1 := readDescriptor k (seqSlot w.seqId) x.bad s0
      match s.walkDenied p w.seqId w.token with
      | some c => .next (walkResult i w.work w.seqId w.token (.failed c) s1)
      | none =>
        let d := s.seq (seqSlot w.seqId)
        let cur := match kget none u.cursors i with
          | some (q, j) =>
            (match d.pages[j]? with
              | some g => if !w.search && decide (q = w.seqId) && decide (g.firstToken ≤ w.token) then some j else none
              | none => none)
          | none => none
        let r := walkPages k p w.seqId w.token cur (some i) s1
        .next (walkResult i w.work w.seqId w.token r.1 r.2)

/-! ### Appends -/

/-- Bytes of a run of codes of a format. -/
def fmtBytes (c : Nat) (codes : List Nat) : List Byte := match fmtOf c with | some f => packCodes f codes | none => []

/-- Append the K row of a token and head (R232, R240). -/
def appendK (p fig : Nat) (o : AppendOp) (d : Seq) (g : Page) (head t : Nat) (vs : List Num) (s : State) : State × Flags :=
  match fmtOf d.kFmt with
  | none => (s, Flags.none)
  | some f =>
    let kv := (s.part p).kv
    let tau := t - g.firstToken
    let (cs, sc, fl) := s.convertRow p fig f { o.conv with sat := true } (fld o.seqId.toNat 0 16) t (head * d.headDim) 0 vs
    let s1 := writeVa p true (planeVa kv d g o.layer head 0 + tau * d.headDim * fmtBits f / 8) (packCodes f cs) s
    let s2 := if fmtIsBlock f then writeVa p true (planeVa kv d g o.layer head 1 + tau * d.headDim / 32) (sc.map (BitVec.ofNat 8)) s1 else s1
    (s2, fl)

/-- The number of a V group of a layer and KV head (R234). -/
def groupKey (layer head g : Nat) : Nat := (layer * 32 + head) * 2 ^ 19 + g

/-- Every V group of a page, of every layer and KV head, is sealed (R230). -/
def Seq.allSealed (d : Seq) (sealed : List Nat) (g : Page) : Bool :=
  (List.range d.layers).all (fun l => (List.range d.kvHeads).all (fun h =>
    (List.range (g.tokens / 32)).all (fun x => sealed.contains (groupKey l h (g.firstToken / 32 + x)))))

/-- The sealed groups of a sequence change, and SEALED_ALL of its pages with them (R230, R235). -/
def Seq.withSealed (d : Seq) (sealed : List Nat) : Seq :=
  { d with sealed := sealed, pages := d.pages.map (fun g => if blockCode d.vFmt then { g with sealedAll := d.allSealed sealed g } else g) }

/-- Seal the open group that ends at token `t` (R234, R235): each dimension's 32 BF16 values become one block of the page. -/
def sealGroup (p : Nat) (o : AppendOp) (slot head t : Nat) (d : Seq) (g : Page) (f : Fmt) (s : State) : State × Flags :=
  let kv := (s.part p).kv
  let n := g.tokens
  let tau := t - 31 - g.firstToken
  let bytes := (s.readVa p (tailVa kv d o.layer head 0) (64 * d.headDim)).bytes
  let val (j x : Nat) : Num := fBF16.decode (ofLe ((bytes.drop (2 * (j * d.headDim + x))).take 2))
  let bs := (List.range d.headDim).map (fun x => fmtBlock f .rne (List.replicate 32 0) ((List.range 32).map (fun j => val j x)))
  let s1 := bs.zipIdx.foldl (fun s b =>
    writeVa p true (planeVa kv d g o.layer head 3 + b.2 * n / 32 + tau / 32) [BitVec.ofNat 8 b.1.1]
      (writeVa p true (planeVa kv d g o.layer head 2 + (b.2 * n + tau) * fmtBits f / 8) (packCodes f b.1.2.1) s)) s
  let s2 := s1.modSeq slot (fun d => d.withSealed (insAsc d.sealed (groupKey o.layer head (t / 32))))
  (s2, Flags.all (bs.map (·.2.2)))

/-- Append the V row of a token and head (R232, R234, R240). -/
def appendV (p fig : Nat) (o : AppendOp) (slot : Nat) (d : Seq) (g : Page) (head t : Nat) (vs : List Num) (s : State) : State × Flags :=
  match fmtOf d.vFmt with
  | none => (s, Flags.none)
  | some f =>
    let kv := (s.part p).kv
    if fmtIsBlock f then
      let xs := vs.map (fun v => fBF16.convert .conv .rne true 0 v)
      let s1 := writeVa p true (tailVa kv d o.layer head t) (xs.flatMap (fun x => leBytes 2 (fBF16.encode x.1))) s
      let fl := Flags.all (xs.map (·.2))
      if t % 32 = 31 then
        let (s2, f2) := sealGroup p o slot head t d g f s1
        (s2, fl.or f2)
      else (s1, fl)
    else
      let (cs, _, fl) := s.convertRow p fig f { o.conv with sat := true } (fld o.seqId.toNat 0 16) t (head * d.headDim) 0 vs
      (writeVa p true (planeVa kv d g o.layer head 2 + (t - g.firstToken) * d.headDim * fmtBits f / 8) (packCodes f cs) s, fl)

/-- Append one token of one head to page `g`, its K and V values at element `e` of the two Scratchpad areas. -/
def appendToken (p fig : Nat) (o : AppendOp) (slot head t e : Nat) (g : Page) (s : State) : State × Flags :=
  let d := s.seq slot
  let vals (row : Nat) : List Num := (List.range d.headDim).map (fun x => s.spmVal o.core o.src row (e + x) 0)
  let (s1, f1) := appendK p fig o d g head t (vals o.kRow) s
  let (s2, f2) := appendV p fig o slot d g head t (vals o.vRow) s1
  (s2, f1.or f2)

/-- The pages of the tokens of an append, each resolved through the PWU of the core's Set (R237, R245). -/
def appendPages (p core : Nat) (sid : BitVec 20) (ts : List Nat) (s : State) : List (Nat × KvFound) × State :=
  ts.foldl (fun x t =>
    let k := core / 4
    let u := x.2.unit k
    match u.kvHit sid t with
    | some e => (x.1 ++ [(t, .page e.page)], x.2.setUnit k { u with kvlb := useFirst u.kvlb e 256 })
    | none =>
      let r := walkPages k p sid t none none (readDescriptor k (seqSlot sid) false x.2)
      (x.1 ++ [(t, r.1)], r.2)) ([], s)

/-- The tokens of an append that lie in [LEN, RES_END), in order, and the first that does not (R245). -/
def appendSplit (d : Seq) (t n : Nat) : List Nat × Option Nat :=
  let ts := (List.range n).map (t + ·)
  let ok (x : Nat) : Bool := decide (d.len ≤ x) && decide (x < d.resEnd)
  (ts.filter ok, ts.find? (fun x => !ok x))

/-- A format KV_APPEND takes rows in (R240). -/
def appendSrcOk (f : Fmt) : Bool := f == .fp32 || f == .bf16

/-- The heads an append writes, each with the element of its first token's row and the elements from one token to the next
(R258, R685). -/
def appendHeads (o : AppendOp) (d : Seq) : List (Nat × Nat × Nat) :=
  match o.head with
  | some h => [(h, 0, d.headDim)]
  | none => (List.range d.kvHeads).map (fun h => (h, h * d.headDim, d.kvHeads * d.headDim))

/-- Report a failed append once for each of its KV heads (R239, R245). -/
def appendReports (p : Nat) (code payload : Nat) (n : Nat) (s : State) : State :=
  (List.replicate n ()).foldl (fun t _ => postEvent p code payload t) s

/-- What an append of the Figure's phase carries: the sequence of its entry, the layer, RND and SITE of the append record, the entry's new
tokens and the format of NEW (R240, R685). -/
def State.appendDue (s : State) (p : Nat) (f : Figure) (o : AppendOp) : Bool :=
  match f.list, lenBaseOf f with
  | some l, some b =>
    (match s.lenEntry p b o.list with
     | some le => decide (o.token = le.posBase) && decide (o.count = le.qLen)
     | none => false)
      && decide (l.seqId o.list = some o.seqId) && decide (o.layer = f.hdr.aLayer) && decide (rndOf f.hdr.aRnd = some o.conv.rnd)
      && (decide (o.conv.rnd ≠ .sr) || decide (o.conv.site = f.hdr.aSite))
      && (match l.desc roleNew 0 with | some c => decide (fmtOf c.fmt = some o.src) | none => false)
  | _, _ => false

/-- The lowest token of each cause among failed lookups (R239). -/
def lowestFailed (xs : List (Nat × KvFound)) : List (Nat × Nat) :=
  [2, 3].filterMap (fun c => (xs.find? (fun x => decide (x.2 = .failed c))).map (fun x => (c, x.1)))

/-- An append is done. The last of an append phase has the phase's flags join the record (R116). -/
def endAppend (p fig : Nat) (o : AppendOp) (s : State) : State :=
  let s1 := modActive p fig (fun a => { a with appendLeft := a.appendLeft.erase (o.list, o.head) }) s
  match (s1.part p).active fig with
  | some a =>
    if !a.appendLeft.isEmpty then s1
    else
      let fl := s1.slotFlags p fig
      let clear (v : Slot) : Slot := if v.fig = some (p, fig) then { v with other := Flags.none } else v
      modActive p fig (fun a => { a with flags := a.flags.or fl })
        ((s1.partCores p).foldl (fun t c => t.modCore c (fun k => { k with slot0 := clear k.slot0, slot1 := clear k.slot1 })) s1)
  | none => s1

/-- Write the tokens of an append whose pages were found, and report what failed (R239, R245). -/
def runAppend (p fig : Nat) (o : AppendOp) (s : State) : State :=
  let slot := seqSlot o.seqId
  let d := s.seq slot
  let hs := appendHeads o d
  let n := hs.length
  let (ts, bad) := appendSplit d o.token o.count
  let top := (hs.map (fun h => h.2.1)).foldl max 0 + o.count * (match hs with | h :: _ => h.2.2 | [] => 0)
  let (ps, s0) := appendPages p o.core o.seqId ts (touchRows p fig o.core o.slot (elemRows o.src o.kRow top ++ elemRows o.src o.vRow top) [] s)
  let (s1, fl) := hs.foldl (fun (x : State × Flags) h =>
    ps.foldl (fun (x : State × Flags) t =>
      match t.2 with
      | .failed _ => x
      | .page g =>
        let (y, f) := appendToken p fig o slot h.1 t.1 (h.2.1 + (t.1 - o.token) * h.2.2) g x.1
        (y, x.2.or f)) x) (s0, Flags.none)
  let lost := lowestFailed ps
  let s2 := raise o.core o.slot (fl.or (if lost.isEmpty && bad.isNone then Flags.none else flInv)) s1
  let s3 := lost.foldl (fun t x => appendReports p 0x30 (walkError fig x.1 o.list o.seqId x.2) n t) s2
  match bad with
  | none => s3
  | some t => appendReports p 0x31 (payloadOf fig 0 (o.seqId.toNat * 2 ^ 32 + t % 2 ^ 32 * 2 ^ 64)) n s3

/-- KV_APPEND (R234, R235, R239, R240, R245, R246) in the append phase of its Figure. A layer that the sequence does not have holds no page
bytes: nothing is written there and INV is set (log 96). -/
def execKvAppend (o : AppendOp) (s : State) : Res :=
  match s.issuing o.core o.slot with
  | none => .next s
  | some (p, fig) =>
    match (s.part p).active fig with
    | none => .next s
    | some a =>
      match (s.part p).figure a.fig with
      | none => .next s
      | some f =>
        if !a.appended || !a.appendLeft.contains (o.list, o.head) || !appendSrcOk o.src || !s.appendDue p f o then .next s
        else
          let d := s.seq (seqSlot o.seqId)
          if !s.seqLive p o.seqId || decide (d.state ≠ .opened) then
            let cause := if s.seqLive p o.seqId then 3 else 0
            let m := if s.seqLive p o.seqId then (appendHeads o d).length else 1
            .next (endAppend p fig o (appendReports p 0x30 (walkError fig cause o.list o.seqId o.token) m (raise o.core o.slot flInv s)))
          else if d.layers ≤ o.layer then .next (endAppend p fig o (raise o.core o.slot flInv s))
          else .next (endAppend p fig o (runAppend p fig o s))

end Sys2Proof.Machine
end

