-- ==== Sys2Proof/Machine/KvCommands.lean ====
section
/-! DEFINITION. The KV commands (R222, R223, R226 to R228, R243, R244, R249 to R254, R499, R500) and the events of zeroing, eviction
and restore. -/

namespace Sys2Proof.Machine

/-! ### Arenas -/

/-- An arena range is mapped, pinned, readable and writable for `p` (R223). -/
def State.arenaOk (s : State) (p base frames : Nat) : Bool :=
  s.rangeAll p base (8192 * frames) (fun l => l.pin && l.rd && l.wr)

/-- A far arena's range lies in FAR pages of one port (R223). -/
def State.oneFarPort (s : State) (p base frames : Nat) : Bool :=
  [false, true].any (fun q => s.rangeAll p base (8192 * frames) (fun l => l.far && l.port == q))

/-- The fields of a KV_ARENA_SET are in range (R222, R223, R499). -/
def State.arenaFields (s : State) (p : Nat) (img : BitVec 512) : Bool :=
  let hb := arg img 0x18 0 52
  let hf := arg img 0x20 0 28
  let ff := arg img 0x24 0 28
  let fb := arg img 0x28 0 52
  let quota := arg img 0x30 0 17
  let others := (([0, 1, 2, 3].filter (fun k => decide (k ≠ p))).map (fun k => (s.part k).kv.quota)).sum
  decide (1 ≤ hf) && decide (hf ≤ 2 ^ 27) && decide (hb % 2 ^ 25 = 0) && s.arenaOk p hb hf
    && (ff == 0 || (decide (ff ≤ 2 ^ 27) && decide (fb % 2 ^ 25 = 0) && s.arenaOk p fb ff && s.oneFarPort p fb ff))
    && decide (quota + others ≤ 65536)

/-- KV_ARENA_SET (R222, R223): every frame of a newly set arena is dirty. -/
def execKvArenaSet (ring : Nat) (seq : BitVec 16) (s : State) : Res :=
  .next (runCommand ⟨0x200, false, false, true, [(0x18, 0, 52), (0x20, 0, 28), (0x24, 0, 28), (0x28, 0, 52), (0x30, 0, 17)]⟩ ring seq
    (fun p img s =>
      if !s.arenaFields p img then complete ring seq stField 0 0 s
      else if !(s.openSeqs p).isEmpty then complete ring seq stSeqBusy 0 0 s
      else
        let ff := arg img 0x24 0 28
        complete ring seq stOk 0 0 (modKv p (fun _ =>
          ⟨⟨arg img 0x18 0 52, arg img 0x20 0 28, []⟩, ⟨if ff = 0 then 0 else arg img 0x28 0 52, ff, []⟩, arg img 0x30 0 17⟩) s)) s)

/-- KV_STAT (R499). -/
def execKvStat (ring : Nat) (seq : BitVec 16) (s : State) : Res :=
  .next (runCommand ⟨0x208, false, false, true, []⟩ ring seq
    (fun p img s =>
      let k := (s.part p).kv
      let data := ofLe ([k.hbm.zeroed, k.hbm.dirty, k.hbm.heldFrames, k.hbm.largestRun].flatMap (leBytes 4))
      let more := [k.far.frames - k.far.heldFrames, k.far.heldFrames, (s.openSeqs p).length, k.quota].flatMap (leBytes 4)
      completeWith p ring seq img data (leBytes 16 data ++ more) s) s)

/-! ### Opening and reading -/

/-- The descriptor that SHAPE and PAGING ask for, if every field is in range (R227, R228). -/
def shapeOf (shape paging : Nat) : Option Seq :=
  let d : Seq := { Seq.free with
    state := .opened
    layers := fld shape 24 8
    kvHeads := fld shape 19 5 + 1
    headDim := fld shape 10 9
    kFmt := fld shape 6 4
    vFmt := fld shape 2 4
    log2Min := fld paging 28 4
    log2Max := fld paging 24 4
    plCap := fld paging 0 13
    tailFrame := 0xFFFFFFFF }
  if fld shape 0 2 = 0 && fld paging 13 11 = 0 && decide (1 ≤ d.layers) && decide (32 ≤ d.headDim) && decide (d.headDim ≤ 256)
      && d.headDim % 32 == 0 && cacheFmt d.kFmt && cacheFmt d.vFmt && decide (4 ≤ d.log2Min) && decide (d.log2Min ≤ d.log2Max)
      && decide (d.log2Max ≤ 12) && decide (1 ≤ d.plCap) && decide (d.plCap ≤ 4096)
      && (!blockCode d.vFmt || decide (5 ≤ d.log2Min)) then some d
  else none

/-- SEQ_OPEN (R226 to R228). A CACHE_FULL completion carries the largest zeroed run in DATA (R233, log 97). -/
def execSeqOpen (ring : Nat) (seq : BitVec 16) (s : State) : Res :=
  .next (runCommand ⟨0x201, false, true, true, [(0x18, 0, 32), (0x1C, 0, 32)]⟩ ring seq
    (fun p img s =>
      match shapeOf (arg img 0x18 0 32) (arg img 0x1C 0 32) with
      | none => complete ring seq stField 0 0 s
      | some d =>
        if (s.part p).kv.quota ≤ (s.openSeqs p).length then complete ring seq stSeqLimit 0 0 s
        else
          match s.freeSlot with
          | none => complete ring seq stSeqLimit 0 0 s
          | some slot =>
            let n := tailFrames d
            match if n = 0 then some ([], (s.part p).kv.hbm) else (s.part p).kv.hbm.allocate slot [n] with
            | none => complete ring seq stCacheFull (s.part p).kv.hbm.largestRun 0 s
            | some (fs, a) =>
              let gen := (s.seq slot).gen + 1
              let v : Seq := { d with
                gen := gen
                part := p
                jobTag := cmdTag img
                plAddr := Config.plAddr s.free
                hbmFrames := n
                tailFrame := match fs with | f :: _ => BitVec.ofNat 32 f | [] => d.tailFrame }
              let s1 := (modKv p (fun k => { k with hbm := a }) s.draw).setSeq slot v
              let s2 := { s1 with fw := { s1.fw with freeSlots := s1.fw.freeSlots.erase slot } }
              complete ring seq stOk (slot + gen.toNat * 2 ^ 16) 0 s2) s)

/-- The SEQ_ID field of a command that names one sequence. -/
def cmdSeqId (img : BitVec 512) : BitVec 20 := BitVec.ofNat 20 (arg img 0x18 0 20)

/-- SEQ_QUERY (R224, R227, R499). -/
def execSeqQuery (ring : Nat) (seq : BitVec 16) (s : State) : Res :=
  .next (runCommand ⟨0x202, false, false, true, [(0x18, 0, 20)]⟩ ring seq
    (fun p img s =>
      let sid := cmdSeqId img
      if !s.seqLive p sid then complete ring seq stSeqStale 0 0 s
      else
        let bs := (s.seq (seqSlot sid)).bytes
        let word (o : Nat) : List Byte := (bs.drop o).take 4
        completeWith p ring seq img (ofLe (word 0 ++ word 0x10 ++ word 0x14 ++ word 0x24)) bs s) s)

/-! ### Reservation -/

/-- Reserve `k` tokens of one sequence (R229, R233, R243): a status, the frames allocated and the state, unchanged on failure. -/
def reserveOne (p : Nat) (sid : BitVec 20) (k : Nat) (s : State) : Nat × Nat × State :=
  let slot := seqSlot sid
  let d := s.seq slot
  let new := newPages d d.covered (d.len + k) (d.plCap + 1)
  if !s.seqLive p sid then (stSeqStale, 0, s)
  else if d.state ≠ .opened then (stSeqEvicted, 0, s)
  else if 2 ^ 24 < d.len + k ∨ d.plCap < d.pages.length + new.length then (stSeqLimit, 0, s)
  else
    let ns := new.map (fun x => pageFrames d (2 ^ x.2))
    match (s.part p).kv.hbm.allocate slot ns with
    | none => (stCacheFull, 0, s)
    | some (fs, a) =>
      let pages := (new.zip fs).map (fun x => (⟨false, false, true, d.vFmt, d.kFmt, x.1.2, x.1.1, x.2⟩ : Page))
      (stOk, ns.sum, (modKv p (fun v => { v with hbm := a }) s).setSeq slot { d with
        pages := d.pages ++ pages, hbmFrames := d.hbmFrames + ns.sum, resEnd := max d.resEnd (d.len + k) })

/-- Reserve a list of batch entries in order (R243): statuses, frames, and whether an entry waits for dirty frames (R251). -/
def reserveAll (p : Nat) (wait : Bool) (todo : List (Nat × Nat × Nat)) (rs : List Nat) (frames : Nat) (s : State) :
    List Nat × Nat × Bool × State :=
  match todo with
  | [] => (rs, frames, false, s)
  | e :: more =>
    let (st, n, t) := reserveOne p (BitVec.ofNat 20 e.1) e.2.1 s
    if wait && st == stCacheFull && decide (0 < (s.part p).kv.hbm.dirty) then (rs, frames, true, s)
    else reserveAll p wait more (rs ++ [st]) (frames + n) t

/-- The length tables a SEQ_RESERVE names. -/
def reserveTables (img : BitVec 512) : List Nat := [arg img 0x28 0 52, arg img 0x30 0 52, arg img 0x38 0 52].filter (fun v => decide (v ≠ 0))

/-- Zero Q_LEN and KV_LEN of the withdrawn entries in every table (R244). -/
def withdraw (p : Nat) (img : BitVec 512) (lists : List Nat) (s : State) : State :=
  (reserveTables img).foldl (fun t v => lists.foldl (fun t l => writeVa p false (v + 16 * l) (List.replicate 8 0) t) t) s

/-- Complete a SEQ_RESERVE (R243, R244, R247, R499), with the largest zeroed run above FRAMES where an entry met CACHE_FULL (R233, log
97). -/
def finishReserve (p ring : Nat) (seq : BitVec 16) (img : BitVec 512) (es : List (Nat × Nat × Nat)) (rs : List Nat) (frames : Nat)
    (s : State) : State :=
  let all := es.zip rs
  let lost := all.filter (fun x => decide (x.2 ≠ stOk))
  let va := arg img 0x18 0 52
  let rec' : Reserved := ⟨va, all.map (fun x => (BitVec.ofNat 20 x.1.1, x.1.2.1, decide (x.2 = stOk)))⟩
  let s1 := withdraw p img (lost.map (fun x => x.1.2.2)) s
  let s2 := s1.modPart p (fun q => { q with reserved := q.reserved.filter (fun r => decide (r.batchVa ≠ va)) ++ [rec'] })
  let run := if rs.contains stCacheFull then (s.part p).kv.hbm.largestRun else 0
  completeWith p ring seq img ((es.length - lost.length) + lost.length * 2 ^ 32 + frames * 2 ^ 64 + run * 2 ^ 96) (rs.flatMap (leBytes 2)) s2

/-- Go on with a reservation: to its end, or to an entry that waits. -/
def goReserve (p ring : Nat) (seq : BitVec 16) (img : BitVec 512) (wait : Bool) (es : List (Nat × Nat × Nat)) (rs : List Nat)
    (frames : Nat) (s : State) : State :=
  let (rs', fr, stopped, t) := reserveAll p wait (es.drop rs.length) rs frames s
  if stopped then addWait p ring seq (.reserve es rs' fr) t else finishReserve p ring seq img es rs' fr t

/-- A batch table: SEQ_ID, k and LIST of each entry; none where a reserved bit is set or a SEQ_ID comes twice (R243, R499). -/
def batchOf (bs : List Byte) (n : Nat) : Option (List (Nat × Nat × Nat)) :=
  let ws := (List.range n).map (fun i => ofLe ((bs.drop (16 * i)).take 16))
  if ws.all (fun w => fld w 20 12 == 0 && fld w 96 32 == 0) && decide ((ws.map (fun w => fld w 0 20)).Nodup) then
    some (ws.map (fun w => (fld w 0 20, fld w 32 32, fld w 64 32)))
  else none

/-- Every entry's place in the tables a SEQ_RESERVE names can be written. -/
def State.tablesOk (s : State) (p : Nat) (img : BitVec 512) (es : List (Nat × Nat × Nat)) : Bool :=
  (reserveTables img).all (fun v => es.all (fun e => s.writable p (v + 16 * e.2.2) 8))

/-- SEQ_RESERVE (R243, R244, R251). -/
def execSeqReserve (ring : Nat) (seq : BitVec 16) (s : State) : Res :=
  .next (runCommand ⟨0x203, false, true, true,
      [(0x18, 0, 52), (0x20, 0, 17), (0x20, 31, 1), (0x28, 0, 52), (0x30, 0, 52), (0x38, 0, 52)]⟩ ring seq
    (fun p img s =>
      let n := arg img 0x20 0 17
      let bad := complete ring seq stField 0 0
      if n = 0 ∨ 65536 < n then bad s
      else
        match s.readVa p (arg img 0x18 0 52) (16 * n) with
        | .unmapped => bad s
        | .bad l => bad (fwUncorrectable p noFig l s)
        | .ok bs =>
          match batchOf bs n with
          | none => bad s
          | some es =>
            if !s.tablesOk p img es then bad s
            else goReserve p ring seq img (arg img 0x20 31 1 == 1) es [] 0 s) s)

def Wait.isReserve (w : Wait) : Bool := match w with | .reserve _ _ _ => true | _ => false

/-- Go on with a waiting reservation. -/
def resumeReserve (p : Nat) (wait : Bool) (w : Waiting) (s : State) : State :=
  match w.what, (s.ring w.ring).find w.seq with
  | .reserve es rs fr, some o => goReserve p w.ring w.seq o.image wait es rs fr s
  | _, _ => s

/-- Demand of partition `p` waits where the frame at `va` lies (R348). -/
def State.demandOn (s : State) (p va : Nat) : Bool :=
  (List.range 16).any (fun g =>
    match s.leafAt p (va + 512 * g) with
    | some (b, l) =>
      match s.locOf b l (va + 512 * g) with
      | some (.hbm ch _) => (s.waitingAt ch).any (fun x => decide (x.1 = p))
      | some (.far q _) => (s.farDemand q).contains p
      | none => false
    | none => false)

/-- FRAME_ZEROED, behind the partition's demand (R38, R348): a dirty frame's zeroing write completes (R40, R251, R252); waiting
reservations try again. -/
def execFrameZeroed (p : Nat) (far : Bool) (f : Nat) (s : State) : Res :=
  let k := (s.part p).kv
  let a := if far then k.far else k.hbm
  if s.asleep || a.frames ≤ f || decide (a.frame f ≠ .dirty) || s.demandOn p (a.va f) then .next s
  else
    let s1 := writeVa p false (a.va f) (List.replicate 8192 0) s
    let b := a.setRun f 1 .zeroed
    let s2 := modKv p (fun k => if far then { k with far := b } else { k with hbm := b }) s1
    if far then .next s2
    else
      let (ws, s3) := takeWaits p Wait.isReserve s2
      .next (ws.foldl (fun t w => resumeReserve p true w t) s3)

/-- RESERVE_WAIT_TIMEOUT (R251). -/
def execReserveWaitTimeout (ring : Nat) (seq : BitVec 16) (s : State) : Res :=
  match s.ringOwner ring with
  | none => .next s
  | some p =>
    match (s.part p).waiting.find? (fun w => decide (w.ring = ring) && decide (w.seq = seq) && w.what.isReserve) with
    | none => .next s
    | some w => .next (resumeReserve p false w (s.modPart p (fun q => { q with waiting := q.waiting.erase w })))

/-! ### Trimming and closing -/

/-- Why a trim of a slot to `len` cannot be done, if it cannot (R249, R491). -/
def State.trimStatus (s : State) (slot len : Nat) : Option Nat :=
  let d := s.seq slot
  if d.state = .free then some stSeqStale
  else if d.len < len ∨ (blockCode d.vFmt = true ∧ len % 32 ≠ 0) then some stField
  else if d.state ≠ .opened then some stSeqEvicted
  else none

/-- Trim a sequence (R230, R249, R251): pages that begin at or after `len` are freed, dirty; groups beyond it are no longer sealed. -/
def trimSeq (slot len : Nat) (s : State) : State :=
  let d := s.seq slot
  let keep := d.pages.filter (fun g => decide (g.firstToken < len))
  let gone := d.pages.filter (fun g => !decide (g.firstToken < len))
  let n := (gone.map (fun g => pageFrames d g.tokens)).sum
  let s1 := modKv d.part (fun k => { k with
    hbm := gone.foldl (fun a g => a.setRun g.frame (pageFrames d g.tokens) .dirty) k.hbm }) (dropSeqCaches slot s)
  s1.setSeq slot (Seq.withSealed { d with pages := keep, len := len, resEnd := len, hbmFrames := d.hbmFrames - n }
    (d.sealed.filter (fun x => decide (32 * (x % 2 ^ 19) + 31 < len))))

/-- SEQ_TRIM: it takes effect at the partition's next quiet point (R248, R249). -/
def execSeqTrim (ring : Nat) (seq : BitVec 16) (s : State) : Res :=
  .next (runCommand ⟨0x204, false, false, true, [(0x18, 0, 20), (0x1C, 0, 32)]⟩ ring seq
    (fun p img s =>
      let sid := cmdSeqId img
      let len := arg img 0x1C 0 32
      if !s.seqLive p sid then complete ring seq stSeqStale 0 0 s
      else
        match s.trimStatus (seqSlot sid) len with
        | some st => complete ring seq st 0 0 s
        | none => addWait p ring seq (.trim (seqSlot sid) len) s) s)

/-- SEQ_CLOSE: it takes effect at the partition's next quiet point (R248, R250). -/
def execSeqClose (ring : Nat) (seq : BitVec 16) (s : State) : Res :=
  .next (runCommand ⟨0x205, false, false, true, [(0x18, 0, 20)]⟩ ring seq
    (fun p img s =>
      let sid := cmdSeqId img
      if !s.seqLive p sid then complete ring seq stSeqStale 0 0 s
      else addWait p ring seq (.close (seqSlot sid)) s) s)

/-! ### Eviction and restore -/

/-- Frames of each page of a sequence, and of its tail if it has one. -/
def seqRuns (d : Seq) : List Nat :=
  d.pages.map (fun g => pageFrames d g.tokens) ++ (if tailFrames d = 0 then [] else [tailFrames d])

/-- SEQ_EVICT (R41, R253, R500). -/
def execSeqEvict (ring : Nat) (seq : BitVec 16) (s : State) : Res :=
  .next (runCommand ⟨0x206, false, false, true, [(0x18, 0, 20)]⟩ ring seq
    (fun p img s =>
      let sid := cmdSeqId img
      let slot := seqSlot sid
      let d := s.seq slot
      let done (st data : Nat) := complete ring seq st data 0 s
      if s.cfg.farPorts = 0 ∨ (s.part p).kv.far.frames = 0 then done stNoFar 0
      else if !s.seqLive p sid then done stSeqStale 0
      else
        match d.state with
        | .evicted => done stOk d.farFrames
        | .evicting => addWait p ring seq (.evict slot) s
        | .opened =>
          if d.len < d.resEnd then done stSeqBusy 0
          else
            (match (s.part p).kv.far.allocate slot (seqRuns d) with
            | none => done stFarFull 0
            | some (fs, a) =>
              addWait p ring seq (.evict slot) ((modKv p (fun k => { k with far := a }) s).setSeq slot { d with
                state := .evicting, target := fs, targetTail := if tailFrames d = 0 then none else fs.getLast?,
                farFrames := (seqRuns d).sum, copied := false }))
        | _ => done stSeqBusy 0) s)

/-- The frame runs of a sequence in its present tier and in its target: first frames and length. -/
def copyRuns (d : Seq) : List (Nat × Nat × Nat) :=
  (d.pages.map (·.frame) ++ (if tailFrames d = 0 then [] else [d.tailFrame.toNat])).zip (d.target.zip (seqRuns d))

/-- SEQ_EVICT_COPY_DONE (R253): the far copy holds every page and the tail; the switch waits for a quiet point. -/
def execSeqEvictCopyDone (slot : Nat) (s : State) : Res :=
  let d := s.seq slot
  if s.asleep || d.state ≠ .evicting || d.copied then .next s
  else
    let k := (s.part d.part).kv
    let s1 := (copyRuns d).foldl (fun t x => copyVas d.part (k.hbm.va x.1) (k.far.va x.2.1) (128 * x.2.2) t) s
    .next (s1.modSeq slot (fun d => { d with copied := true }))

/-- The pages with their frames replaced by a copy's. -/
def movePages (far : Bool) (ps : List Page) (fs : List Nat) : List Page :=
  ps.zipIdx.map (fun x => { x.1 with far := far, frame := nth fs x.2 })

/-- A sequence in its other tier: pages and tail moved to the copy. -/
def Seq.moved (d : Seq) (far : Bool) : Seq :=
  { d with
    pages := movePages far d.pages d.target
    tailFrame := match d.targetTail with | some f => BitVec.ofNat 32 f | none => d.tailFrame
    target := []
    targetTail := none
    copied := false }

/-- The switch of an eviction at a quiet point (R238, R253). -/
def switchSeq (slot : Nat) (s : State) : State :=
  let d := s.seq slot
  let s1 := modKv d.part (fun k => { k with hbm := k.hbm.release slot }) (dropSeqCaches slot s)
  s1.setSeq slot { d.moved true with state := .evicted, hbmFrames := 0 }

/-- Start the restore of an EVICTED sequence for a command (R233, R254, log 97). -/
def startRestore (p ring : Nat) (seq : BitVec 16) (slot : Nat) (s : State) : State :=
  let d := s.seq slot
  match (s.part p).kv.hbm.allocate slot (seqRuns d) with
  | none => complete ring seq stCacheFull (s.part p).kv.hbm.largestRun 0 s
  | some (fs, a) =>
    addWait p ring seq (.restore slot) ((modKv p (fun k => { k with hbm := a }) s).setSeq slot { d with
      state := .restoring, target := fs, targetTail := if tailFrames d = 0 then none else fs.getLast?,
      hbmFrames := (seqRuns d).sum, copied := false })

/-- SEQ_RESTORE (R254, R500). -/
def execSeqRestore (ring : Nat) (seq : BitVec 16) (s : State) : Res :=
  .next (runCommand ⟨0x207, false, false, true, [(0x18, 0, 20)]⟩ ring seq
    (fun p img s =>
      let sid := cmdSeqId img
      let slot := seqSlot sid
      let d := s.seq slot
      if !s.seqLive p sid then complete ring seq stSeqStale 0 0 s
      else
        match d.state with
        | .opened => complete ring seq stOk d.hbmFrames 0 s
        | .restoring => addWait p ring seq (.restore slot) s
        | .evicting => addWait p ring seq (.restoreAfterEvict slot) s
        | _ => startRestore p ring seq slot s) s)

/-- Complete the waiting commands of partition `p` that satisfy a test. -/
def finishWaits (p : Nat) (f : Wait → Bool) (st data : Nat) (s : State) : State :=
  let (ws, s1) := takeWaits p f s
  ws.foldl (fun t w => complete w.ring w.seq st data 0 t) s1

/-- SEQ_RESTORE_COPY_DONE (R254, R371, R500): the sequence is OPEN in HBM, or a poisoned far line stops the restore. -/
def execSeqRestoreCopyDone (slot : Nat) (s : State) : Res :=
  let d := s.seq slot
  if s.asleep || d.state ≠ .restoring then .next s
  else
    let p := d.part
    let k := (s.part p).kv
    match (copyRuns d).findSome? (fun x => s.badLine p (k.far.va x.1) (128 * x.2.2)) with
    | some l =>
      let s1 := modKv p (fun k => { k with hbm := k.hbm.release slot }) (fwUncorrectable p noFig l s)
      .next (finishWaits p (fun w => decide (w = .restore slot)) stFarError 0
        (s1.setSeq slot { d with state := .evicted, target := [], targetTail := none, hbmFrames := 0 }))
    | none =>
      let s1 := (copyRuns d).foldl (fun t x => copyVas p (k.far.va x.1) (k.hbm.va x.2.1) (128 * x.2.2) t) s
      let s2 := modKv p (fun k => { k with far := k.far.release slot }) (dropSeqCaches slot s1)
      .next (finishWaits p (fun w => decide (w = .restore slot)) stOk d.hbmFrames
        (s2.setSeq slot { d.moved false with state := .opened, farFrames := 0 }))

/-! ### A quiet point -/

/-- A KV change that waits for a quiet point takes effect (R248 to R253, R490, R500): true when it is done with. -/
def quietChange (p : Nat) (w : Waiting) (s : State) : Option State :=
  match w.what with
  | .trim slot len =>
    match s.trimStatus slot len with
    | some st => some (complete w.ring w.seq st 0 0 s)
    | none => some (complete w.ring w.seq stOk 0 0 (trimSeq slot len s))
  | .close slot =>
    if (s.seq slot).state = .free then some (complete w.ring w.seq stSeqStale 0 0 s)
    else
      let s1 := closeSeq slot s
      some (complete w.ring w.seq stOk 0 0
        (finishWaits p (fun x => decide (x = .evict slot) || decide (x = .restore slot) || decide (x = .restoreAfterEvict slot)) stSeqStale 0 s1))
  | .evict slot =>
    let d := s.seq slot
    if d.state = .evicting ∧ d.copied = true then
      some (finishWaits p (fun x => decide (x = .evict slot)) stOk d.farFrames
        (complete w.ring w.seq stOk d.farFrames 0 (switchSeq slot s)))
    else none
  | .restoreAfterEvict slot =>
    let d := s.seq slot
    (match d.state with
    | .evicted => some (startRestore p w.ring w.seq slot s)
    | .restoring => some (addWait p w.ring w.seq (.restore slot) s)
    | .opened => some (complete w.ring w.seq stOk d.hbmFrames 0 s)
    | _ => none)
  | _ => none

end Sys2Proof.Machine
end

