-- ==== Sys2Proof/Machine/Extents.lean ====
section
/-! DEFINITION. Where the data of items lie (R166, R169, R187, R189, R231, R258, R265, R266, R281, R284, R286, R295, R688): the element a
VA names, what of a tensor is data and what padding, and the accesses an item's program makes. -/

namespace Sys2Proof.Machine

/-! ### Elements -/

/-- Half-bytes from one entry of a column's row to the next: a state record takes 16 bytes. -/
def unitHalf (c : ColDesc) : Nat := if c.role = rolePst then 32 else halfBytes c

/-- Bytes from an entry's first byte to `va`: in memory, or in its landing buffer (R286). -/
def offsetIn (c : ColDesc) (value va : Nat) : Option Nat :=
  if c.kind = 0 then (if value ≤ va then some (va - value) else none)
  else if c.kind = 1 ∧ fld value 0 12 = fld va 0 12 ∧ fld value 16 32 ≤ fld va 16 32 then some (fld va 16 32 - fld value 16 32)
  else none

/-- The column of `role` that holds VA, or the place in a landing buffer: entry, descriptor, row and first element of the row there
(R284, R286). -/
def PtrList.locate (l : PtrList) (role va : Nat) : Option (Nat × ColDesc × Nat × Nat) :=
  l.cols.zipIdx.findSome? (fun c =>
    if c.1.role ≠ role then none
    else (List.range l.count).findSome? (fun e =>
      match offsetIn c.1 (l.value e c.2) va with
      | some d =>
        if d < c.1.padRows * c.1.rowStride then some (e, c.1, d / c.1.rowStride, d % c.1.rowStride * 2 / unitHalf c.1) else none
      | none => none))

/-- The pointer list of a stream's Figure. -/
def State.streamList (s : State) (m : Stream) : Option PtrList :=
  match (s.part m.part).active m.fig with
  | some a => (match (s.part m.part).figure a.fig with | some f => f.list | none => none)
  | none => none

/-- What a line's elements are in their tensor: LIST, ROW and COL of the first (R111) and its plane. -/
structure LinePlace where
  coord : Coord
  plane : Nat
  entry : Nat
  row   : Nat
  col   : Nat
  deriving DecidableEq, Repr

def State.linePlace (s : State) (m : Stream) (va : Nat) : LinePlace :=
  match s.streamList m with
  | none => ⟨⟨0, 0, 0⟩, 0, 0, 0, 0⟩
  | some l =>
    match l.locate m.role va with
    | some (e, c, r, k) => ⟨⟨e, l.rowBase + r, l.colBase + k⟩, c.plane, e, r, k⟩
    | none => ⟨⟨0, 0, 0⟩, 0, 0, 0, 0⟩

/-- The sequence, page, layer, KV head, plane and offset that VA lies in (R231). -/
def State.kvWhere (s : State) (p va : Nat) : Option (Nat × Page × Nat × Nat × Nat × Nat) :=
  let kv := (s.part p).kv
  (s.openSeqs p).findSome? (fun slot =>
    let d := s.seq slot
    d.pages.findSome? (fun g =>
      let a := kv.frameVa g.far g.frame
      if g.far || decide (va < a) || decide (a + 8192 * pageFrames d g.tokens ≤ va) then none
      else
        let n := g.tokens
        let idx := (va - a) / headBytes d n
        let r := (va - a) % headBytes d n
        let ke := elemPlane d d.kFmt n
        let ks := ke + scalePlane d d.kFmt n
        let ve := ks + elemPlane d d.vFmt n
        let pl := if r < ke then (0, r) else if r < ks then (1, r - ke) else if r < ve then (2, r - ks) else (3, r - ve)
        some (slot, g, idx / d.kvHeads, idx % d.kvHeads, pl.1, pl.2)))

/-! ### Data and padding -/

/-- Largest KV_LEN of the entries that produce work in the group of entry `e` (R188, R189, R202). -/
def State.groupKv (s : State) (p : Nat) (a : AttnParams) (l : PtrList) (e : Nat) : Nat :=
  let g := max 1 a.group
  ((List.range g).map (fun h => ((s.goodEntry p a l (e / g * g + h)).map (·.kvLen)).getD 0)).foldl max 0

/-- Element (r, k) of an entry's column is data, for a column that an engine loads with zeros beyond it (R187). -/
def State.attnReal (s : State) (p : Nat) (a : AttnParams) (l : PtrList) (e : Nat) (c : ColDesc) (r k : Nat) : Bool :=
  if c.role = roleQ ∨ c.role = roleDo then
    (match s.lenEntry p a.lenBase e with | some x => decide (r < x.qLen) | none => false)
  else if c.role = roleK then decide (r < s.groupKv p a l e)
  else if c.role = roleV then decide ((if blockCode c.fmt then k else r) < s.groupKv p a l e)
  else true

/-- The query heads of entry `e` of a decode Figure (R258). -/
def State.queryHeads (s : State) (a : AttnParams) (l : PtrList) (e : Nat) : Nat :=
  match l.seqId e with
  | some sid => (s.seq (seqSlot sid)).kvHeads * a.group
  | none => 0

/-- Element (r, k) of an entry's column is data and no padding (R187, R258, R261, R281). -/
def State.realElem (s : State) (p : Nat) (f : Figure) (l : PtrList) (e : Nat) (c : ColDesc) (r k : Nat) : Bool :=
  if c.plane ≠ 0 then true
  else
    match f.par with
    | .dense d =>
      (match s.shapeEntry p d.shapeBase e with
       | none => true
       | some (m, n, x) =>
         if c.role = roleA then decide (r < m) && decide (k < x)
         else if c.role = roleB then (if d.bT then decide (r < x) && decide (k < n) else decide (r < n) && decide (k < x))
         else decide (r < m) && decide (k < n))
    | .attn a => s.attnReal p a l e c r k
    | .backward a _ => s.attnReal p a l e c r k
    | .decode a x =>
      let i := r * c.padCols + k
      let q := s.queryHeads a l e
      let n := match s.lenEntry p a.lenBase e with | some y => y.qLen | none => 0
      if c.role = roleQ then decide (i / (q * a.headDim) < n)
      else if c.role = roleNew then decide (i % (x.qrows * (q / max 1 a.group) * a.headDim) / (q / max 1 a.group * a.headDim) < n)
      else true
    | _ => true

/-- KV_LEN of the entries that name a sequence in a Figure (R166). -/
def State.kvLenOf (s : State) (m : Stream) (slot : Nat) : Nat :=
  match (s.part m.part).active m.fig with
  | none => 0
  | some a =>
    match (s.part m.part).figure a.fig with
    | none => 0
    | some f =>
      match lenBaseOf f, f.list with
      | some b, some l =>
        (((List.range l.count).filter (fun e => (l.seqId e).any (fun x => decide (seqSlot x = slot)))).map (fun e =>
          ((s.lenEntry m.part b e).map (·.kvLen)).getD 0)).foldl max 0
      | _, _ => 0

/-! ### Partial slots -/

/-- The bytes of a partial slot (R266). -/
def slotBytes (a : AttnParams) (x : DecExt) : Nat :=
  let n := a.group * x.qrows
  round512 (n * a.headDim * 16) + round512 (n * 4) + round512 (n * 16)

/-- A sweep item belongs to an entry with two or more chunks (R265). -/
def RunFig.manyChunks (a : RunFig) (it : Item) : Bool :=
  decide (2 ≤ (a.items.filter (fun i => decide (i.entry = it.entry) && decide (i.a = it.a))).length)

/-- The partial slot of a sweep item (R266). -/
def RunFig.slotOf (a : RunFig) (it : Item) : Nat := (a.items.filter a.manyChunks).findIdx (fun i => decide (i = it))

/-- The slots an item writes, or reads where it merges (R265, R266). -/
def RunFig.itemSlots (a : RunFig) (merge : Bool) (it : Item) : List Nat :=
  if merge then (a.items.filter (fun i => decide (i.entry = it.entry) && decide (i.a = it.a) && a.manyChunks i)).map a.slotOf
  else if a.manyChunks it then [a.slotOf it] else []

/-! ### An item's accesses -/

/-- The items of a core, those committed whose stores may still run among them: the ones it claimed, or a bucket's assigned (R273, R292). -/
def State.allItemsOf (s : State) (c : Nat) (f : Figure) (a : RunFig) : List (Nat × Nat) :=
  if !a.buckets.isEmpty then (a.assign.filter (fun y => decide (y.2 = c))).map (fun y => (a.bucketNow - 1, y.1))
  else ((s.core c).held.filter (fun h => a.clms.contains h.1)).map (fun h => (itemKey f a h.1, h.2))

/-- An item reads of entry `e`: its own, those of its group, or the group's first for K and V (R189). -/
def readsEntry (f : Figure) (key : Nat) (it : Item) (role e : Nat) : Bool :=
  match f.par with
  | .attn a => decide (e / max 1 a.group = it.entry)
  | .backward a _ =>
    if key = 1 then decide (e / max 1 a.group = it.entry)
    else decide (e = it.entry) || ((role == roleK || role == roleV) && decide (e = it.entry / max 1 a.group * max 1 a.group))
  | _ => decide (e = it.entry)

/-- The KV head of an element of a decode Figure's output column (R258, R265). -/
def decodeHead (a : AttnParams) (q : Nat) (c : ColDesc) (r k : Nat) : Nat :=
  let i := r * c.padCols + k
  (if c.plane = 0 ∧ (c.role = roleO ∨ c.role = rolePo) then i / a.headDim % q else i % q) / max 1 a.group

/-- An item writes element (r, k) of output column `c` in entry `e` (R189, R202, R205, R265, R276, R295). -/
def State.writesElem (s : State) (f : Figure) (l : PtrList) (a : RunFig) (y : Nat × Nat) (it : Item) (e : Nat) (c : ColDesc) (r k : Nat) : Bool :=
  let rows := decide (128 * it.a ≤ r) && decide (r < 128 * (it.a + 1))
  match f.par with
  | .backward q _ =>
    if y.1 = 1 then (c.role == roleDk || c.role == roleDv) && decide (e = it.entry * max 1 q.group) && rows
    else (if y.1 = 0 then c.role == roleD else c.role == roleDq) && decide (e = it.entry) && rows
  | .decode q _ =>
    decide (e = it.entry) && decide (decodeHead q (s.queryHeads q l e) c r k = it.a) && (a.mergeItem f y || !a.manyChunks it)
  | .merge _ => decide (e = it.entry) && rows
  | _ =>
    match itemBox f a.shape it with
    | none => true
    | some bs => bs.any (fun b => decide (b.1 = e) && decide (b.2.1 ≤ r) && decide (r < b.2.2.1)
        && (c.plane != 0 || (decide (b.2.2.2.1 ≤ k) && decide (k < b.2.2.2.2))))

/-- A KV stream reads pages of the sequence, layer and KV head of an item of its core that the item's lookups found (R237, R684). -/
def State.kvAccess (s : State) (m : Stream) (p : Nat) (f : Figure) (a : RunFig) (va : Nat) : Bool :=
  match s.kvWhere m.part va, f.list with
  | some (slot, g, layer, head, _, _), some l =>
    (s.itemsOf p m.core f a).any (fun y =>
      match a.itemAt f y.1 y.2 with
      | none => false
      | some it =>
        let e := it.entry * groupOf f
        let want : Nat × Nat := match f.par with
          | .attn q => (q.layer, it.entry - (seqRun l q.group it.entry).1)
          | .decode _ x => (x.layer, it.a)
          | _ => (layer, head)
        decide ((l.seqId e).map seqSlot = some slot) && decide ((layer, head) = want)
          && (s.workLooks m.core y).any (fun x => decide (x.found = .page g)))
  | _, _ => false

/-- A line of a stream lies where an item of its core reads or writes: in its role's columns (R286), in a partial slot (R266), or in a
cache page (R684). A role that the list does not name, and a Figure that runs no program, leave the place to the stream (log 85). -/
def State.accessOk (s : State) (m : Stream) (va n : Nat) (write : Bool) : Bool :=
  match s.slotFigure m.core 0 with
  | none => true
  | some (p, a, f) =>
    if decide (m.part ≠ p) || decide (m.fig ≠ f.hdr.figId) || !f.sequenced || decide (m.kind = .copy) || decide (m.kind = .remote) then true
    else if m.kind = .kv then s.kvAccess m p f a va
    else
      match f.list with
      | none => true
      | some l =>
        let items := (s.allItemsOf m.core f a).filterMap (fun y => (a.itemAt f y.1 y.2).map (fun it => (y, it)))
        match l.locate m.role va with
        | some (e, c, r, k) =>
          let last := k + max 1 (2 * n / max 1 (unitHalf c)) - 1
          if write then c.out && items.any (fun y => s.writesElem f l a y.1 y.2 e c r k && s.writesElem f l a y.1 y.2 e c r last)
          else items.any (fun y => readsEntry f y.1.1 y.2 m.role e)
        | none =>
          (match f.par with
           | .decode q x =>
             if x.partBase ≤ va ∧ va < x.partBase + slotBytes q x * x.partSlots then
               items.any (fun y => (a.itemSlots (a.mergeItem f y.1) y.2).contains ((va - x.partBase) / slotBytes q x) && (write != a.mergeItem f y.1))
             else !l.cols.any (fun c => decide (c.role = m.role))
           | _ => !l.cols.any (fun c => decide (c.role = m.role)))

/-- Stores of a stream's Figure may issue (R209, R324): its core has met no parity error, the Figure is not to abort, and in a tile-local
Figure the item the core works has run to its end or is committed. -/
def State.storesOpen (s : State) (m : Stream) : Bool :=
  let k := s.core m.core
  match (s.part m.part).active m.fig with
  | none => false
  | some a =>
    match (s.part m.part).figure a.fig with
    | none => false
    | some f =>
      !k.poisoned && a.aborting.isNone
        && (f.hdr.rerunOk || (f.sequenced && k.slot0.work.isSome && k.slot0.todo.isEmpty)
            || (s.allItemsOf m.core f a).any (fun y => a.committed.contains y))

end Sys2Proof.Machine
end

