-- ==== Sys2Proof/Machine/Streams.lean ====
section
/-! DEFINITION. Streams and translation: accesses through the uTLBs and STBs (R379 to R392), faults and parking (R393 to R399), range
invalidation (R403 to R405), access counts (R406), and the data of tiles: conversions on load and store (R101, R102, R146, R261), the V
tail (R236) and multicast (R31, R296, R297). -/

namespace Sys2Proof.Machine

/-! ### Leaves and caches -/

/-- First VA of a cached page. -/
def TlbEntry.base (e : TlbEntry) : Nat := e.page * 2 ^ 25

/-- A cached entry of partition `p` holds VA. -/
def TlbEntry.holds (e : TlbEntry) (p va : Nat) : Bool :=
  decide (e.part = p) && decide (e.base ≤ va) && decide (va < e.base + e.leaf.bytes)

/-- The cached entry of a leaf. -/
def entryOf (p base : Nat) (l : Leaf) : TlbEntry := ⟨p, base / 2 ^ 25, l, 0⟩

/-- The STB set a page is indexed to: VA[33:25], or VA[38:30] of a 1 GiB page (R389). -/
def TlbEntry.index (e : TlbEntry) : Nat := if e.leaf.big then e.page / 32 % 512 else e.page % 512

/-- Add accesses to a page's 32-bit count (R406). -/
def addAccess (p page n : Nat) (s : State) : State :=
  if n = 0 then s
  else s.modPart p (fun q =>
    let old := kget 0 q.space.counts page
    let new := min 0xFFFFFFFF (old + n)
    { q with space := { q.space with
        counts := kset 0 q.space.counts page new, grown := kmod 0 q.space.grown page (· + (new - old)) } })

/-- Entries leave the STB: their counts join the access table (R406). -/
def dropEntries (es : List TlbEntry) (s : State) : State := es.foldl (fun t e => addAccess e.part e.page e.count t) s

/-- Keep at most 8 entries of an STB set, the most recently used first (R389). -/
def keepWays (idx n : Nat) (l : List TlbEntry) : List TlbEntry × List TlbEntry :=
  match l with
  | [] => ([], [])
  | e :: r =>
    if e.index = idx then
      match n with
      | 0 => let x := keepWays idx 0 r; (x.1, e :: x.2)
      | k + 1 => let x := keepWays idx k r; (e :: x.1, x.2)
    else let x := keepWays idx n r; (e :: x.1, x.2)

/-- Fill the STB of Set `k` with a leaf (R389). -/
def fillStb (k p base : Nat) (l : Leaf) (s : State) : State :=
  let e := entryOf p base l
  let u := s.unit k
  let same (x : TlbEntry) : Bool := decide (x.part = p) && decide (x.page = e.page) && x.leaf.big == l.big
  let x := keepWays e.index 8 (e :: u.stb.filter (fun y => !same y))
  dropEntries (u.stb.filter same ++ x.2) (s.setUnit k { u with stb := x.1 })

/-- Fill the uTLB of an engine with a leaf (R388). -/
def fillUtlb (core engine p base : Nat) (l : Leaf) (s : State) : State :=
  let e := entryOf p base l
  s.setUtlb core engine
    ((e :: (s.utlb core engine).filter (fun y => !(decide (y.part = p) && decide (y.page = e.page) && y.leaf.big == l.big))).take 32)

/-- Count one 64-byte access through the STB's entry of its page (R406). -/
def countAccess (k p va : Nat) (s : State) : State :=
  s.modUnit k (fun u => { u with stb := u.stb.map (fun e => if e.holds p va then { e with count := min 0xFFFF (e.count + 1) } else e) })

/-- The Figure of a stream. -/
def State.streamFig (s : State) (m : Stream) : Option Figure :=
  match (s.part m.part).active m.fig with
  | some a => (s.part m.part).figure a.fig
  | none => none

/-- The byte of plane `plane` (1 scales, 2 row scales) that belongs to an element of a stream's tensor. -/
def State.planeBytes (s : State) (m : Stream) (plane entry row off n : Nat) : Nat :=
  match s.streamList m with
  | none => 0
  | some l =>
    match l.cols.findIdx? (fun c => decide (c.role = m.role) && decide (c.plane = plane)) with
    | none => 0
    | some c => ofLe (s.readVa m.part (l.value entry c + row * ((l.cols.map (·.rowStride)).getD c 0) + off) n).bytes

/-- The row scale of an XS128 side in memory (R97). -/
def State.memRs (s : State) (m : Stream) (x : LinePlace) : Int := rsUsed (sfld (s.planeBytes m 2 x.entry x.row 0 4) 0 32)

/-- The row scale of an XS128 side in a core's Scratchpad (R97). -/
def State.spmRs (s : State) (m : Stream) (byte : Nat) : Int := rsUsed (s.spmI32 m.core byte 0)

/-- Code `i` of a run of bytes (R92). -/
def codeAt (f : Fmt) (bs : List Byte) (i : Nat) : Nat :=
  if fmtBits f = 4 then fld (bs.getD (i / 2) 0).toNat (4 * (i % 2)) 4
  else ofLe ((bs.drop (i * (fmtBits f / 8))).take (fmtBits f / 8))

/-! ### The V tail -/

/-- The block of dimension `x` of a group that is not sealed: its tail rows below KV_LEN, 0 for the rest (R236). -/
def State.tailBlock (s : State) (p slot layer head g x kvLen : Nat) (f : Fmt) : Nat × List Nat × Flags :=
  let d := s.seq slot
  let kv := (s.part p).kv
  let vs := (List.range 32).map (fun j =>
    if 32 * g + j < kvLen then fBF16.decode (ofLe (s.readVa p (tailVa kv d layer head j + 2 * x) 2).bytes) else Num.zero)
  fmtBlock f .rne (List.replicate 32 0) vs

/-- The byte that a KV stream delivers for a byte at VA: from the tail for a group that is not sealed (R236). -/
def State.kvByte (s : State) (m : Stream) (va : Nat) (b : Byte) : Byte × Flags :=
  match s.kvWhere m.part va with
  | none => (b, Flags.none)
  | some (slot, g, layer, head, plane, r) =>
    let d := s.seq slot
    match fmtOf d.vFmt with
    | none => (b, Flags.none)
    | some f =>
      if !fmtIsBlock f || decide (plane < 2) then (b, Flags.none)
      else
        let n := g.tokens
        let el := r * 8 / fmtBits f
        let x := if plane = 2 then el / n else r / (n / 32)
        let grp := g.firstToken / 32 + (if plane = 2 then el % n / 32 else r % (n / 32))
        if d.sealed.contains (groupKey layer head grp) || decide (d.headDim ≤ x) then (b, Flags.none)
        else
          let t := s.tailBlock m.part slot layer head grp x (s.kvLenOf m slot) f
          if plane = 3 then (BitVec.ofNat 8 t.1, t.2.2)
          else ((packCodes f (t.2.1.drop (el % n % 32))).getD 0 0, t.2.2)

/-- The element of a cache plane that a byte begins with lies at or beyond KV_LEN (R187). -/
def State.kvBeyond (s : State) (m : Stream) (va : Nat) : Bool :=
  match s.kvWhere m.part va with
  | none => false
  | some (slot, g, _, _, plane, r) =>
    let d := s.seq slot
    let at' (f : Nat) : Nat := r * 8 / max 1 (codeBits f)
    let t := if plane = 0 then at' d.kFmt / d.headDim else if blockCode d.vFmt then at' d.vFmt % g.tokens else at' d.vFmt / d.headDim
    decide (plane % 2 = 0) && decide (s.kvLenOf m slot ≤ g.firstToken + t)

/-- Bytes of elements of `c` from (r, k) on, those that are padding made 0 (R187, R281). -/
def zeroPads (c : ColDesc) (real : Nat → Nat → Bool) (r k : Nat) (bs : List Byte) : List Byte :=
  bs.zipIdx.map (fun x =>
    let el (half : Nat) : Bool := real r (k + half / max 1 (unitHalf c))
    if unitHalf c = 1 then
      BitVec.ofNat 8 ((if el (2 * x.2) then x.1.toNat % 16 else 0) + (if el (2 * x.2 + 1) then x.1.toNat / 16 * 16 else 0))
    else if el (2 * x.2) then x.1 else 0)

/-- The bytes that a read of a stream delivers: the tail's for open groups (R236), zeros for padding (R187, R261, R281). -/
def State.delivered (s : State) (m : Stream) (va : Nat) (bs : List Byte) : List Byte × Flags :=
  if m.kind = .kv then
    let xs := bs.zipIdx.map (fun x => if s.kvBeyond m (va + x.2) then (0, Flags.none) else s.kvByte m (va + x.2) x.1)
    (xs.map (·.1), Flags.all (xs.map (·.2)))
  else
    match s.streamFig m with
    | some f =>
      (match f.list with
       | some l =>
         (match l.locate m.role va with
          | some (e, c, r, k) => (zeroPads c (s.realElem m.part f l e c) r k bs, Flags.none)
          | none => (bs, Flags.none))
       | none => (bs, Flags.none))
    | none => (bs, Flags.none)

/-! ### Conversions on load and store -/

/-- A line of a tile, its place, and the bytes delivered for it. -/
abbrev TileLine := LineReq × LinePlace × List Byte

/-- The conversion of a load and the draw's coordinates for element `k` of a row: a decode Figure quantises NEW as KV_APPEND does (R240,
R261). -/
def State.loadConv (s : State) (m : Stream) (c : Conv) (pl : LinePlace) : Conv × Coord :=
  match s.streamFig m with
  | some f =>
    (match f.par, f.list with
     | .decode a x, some l =>
       if m.role ≠ roleNew then (c, pl.coord)
       else
         let sid := (l.seqId pl.entry).getD 0
         let kv := max 1 (s.seq (seqSlot sid)).kvHeads
         let cols := ((l.desc roleNew 0).map (·.padCols)).getD 1
         let i := (pl.row * cols + pl.col) % (x.qrows * kv * a.headDim)
         let pos := ((s.lenEntry m.part a.lenBase pl.entry).map (·.posBase)).getD 0
         (⟨(rndOf x.newRnd).getD .rne, true, a.spinId, x.newSite⟩, ⟨fld sid.toNat 0 16, pos + i / (kv * a.headDim), i % (kv * a.headDim)⟩)
     | _, _ => (c, pl.coord))
  | none => (c, pl.coord)

/-- The values of the 32-element block of a row of a tile that holds column `col`, as far as the tile's lines hold them (R94). -/
def State.blockVals (src : Fmt) (val : LinePlace → Nat → List Byte → Num) (ls : List TileLine) (pl : LinePlace) (b : Nat) : List Num :=
  (List.range 32).map (fun j =>
    match ls.find? (fun x => decide (x.2.1.entry = pl.entry) && decide (x.2.1.row = pl.row) && decide (x.2.1.plane = 0)
        && decide (x.2.1.col ≤ 32 * b + j) && decide (32 * b + j < x.2.1.col + x.2.2.length * 8 / fmtBits src)) with
    | some x => val x.2.1 (32 * b + j - x.2.1.col) x.2.2
    | none => Num.zero)

/-- What a load writes into the Scratchpad for a line of a tile: byte runs and flags (R95, R101, R102). The elements of a block-scaled
destination are converted block by block, whichever lines bring them. -/
def State.loadLine (s : State) (m : Stream) (ls : List TileLine) (x : TileLine) : List (Nat × List Byte) × Flags :=
  match m.conv with
  | .convert src dst c =>
    let pl := x.2.1
    if pl.plane ≠ 0 then ([], Flags.none)
    else
      let n := x.2.2.length * 8 / fmtBits src
      let rs := if src = .xs128 then s.memRs m pl else if dst = .xs128 then s.spmRs m x.1.scByte else 0
      let val (y : LinePlace) (i : Nat) (bs : List Byte) : Num :=
        fmtDecode src (codeAt src bs i) (if fmtIsBlock src then s.planeBytes m 1 y.entry y.row ((y.col + i) / 32) 1 else 0) rs
      let (cv, at') := s.loadConv m c pl
      if fmtIsBlock dst then
        let bs := (List.range ((pl.col + n + 31) / 32 - pl.col / 32)).map (fun b =>
          let b := pl.col / 32 + b
          s.convertRow m.part m.fig dst cv at'.list at'.row (at'.col + 32 * b - pl.col) 0 (State.blockVals src val ls pl b))
        ([(x.1.spmByte, packCodes dst (((bs.flatMap (·.1)).drop (pl.col % 32)).take n)),
          (x.1.scByte, (bs.flatMap (·.2.1)).map (BitVec.ofNat 8))], Flags.all (bs.map (·.2.2)))
      else
        let (cs, _, fl) := s.convertRow m.part m.fig dst cv at'.list at'.row at'.col rs ((List.range n).map (fun i => val pl i x.2.2))
        ([(x.1.spmByte, packCodes dst cs)], fl)
  | _ => ([(x.1.spmByte, x.2.2)], Flags.none)

/-- The rows of scales that a conversion of a line reads in the Scratchpad (R94, R97, R323). -/
def scaleRows (f : Fmt) (byte n : Nat) : List Nat :=
  if f = .xs128 then rowsOf byte 4 else if fmtIsBlock f then rowsOf byte ((n + 31) / 32) else []

/-- The bytes a store writes to memory for a line, with flags and the Scratchpad rows it reads (R101, R102, R323). A line of a block-scaled
destination is part of whole blocks. -/
def State.storeLine (s : State) (m : Stream) (x : LineReq) : List Byte × Flags × List Nat :=
  let plain := (s.spmBytes m.core x.spmByte x.bytes, Flags.none, rowsOf x.spmByte x.bytes)
  match m.conv with
  | .convert src dst c =>
    let pl := s.linePlace m x.va
    if pl.plane = 2 then plain
    else
      let n := if pl.plane = 1 then 32 * x.bytes else x.bytes * 8 / fmtBits dst
      let col := if pl.plane = 1 then 32 * pl.col else pl.col
      let off := if fmtIsBlock dst then col % 32 else 0
      let len := if fmtIsBlock dst then (off + n + 31) / 32 * 32 else n
      let base := x.spmByte - off * fmtBits src / 8
      let rs := if src = .xs128 then s.spmRs m x.scByte else if dst = .xs128 then s.memRs m pl else 0
      let sc (i : Nat) : Nat := if fmtIsBlock src then (s.spmByte m.core (x.scByte + i / 32)).toNat else 0
      let vs := (List.range len).map (fun i => fmtDecode src (s.spmCode m.core src base i) (sc i) rs)
      let (cs, scs, fl) := s.convertRow m.part m.fig dst c pl.coord.list pl.coord.row (pl.coord.col - pl.col + col - off) rs vs
      (if pl.plane = 1 then scs.map (BitVec.ofNat 8) else packCodes dst ((cs.drop off).take n), fl,
        rowsOf base ((len * fmtBits src + 7) / 8) ++ scaleRows src x.scByte len)
  | _ => plain

/-- The slot of its core that a stream's Figure has. -/
def State.streamSlot (s : State) (m : Stream) : Nat := if (s.core m.core).slot1.fig = some (m.part, m.fig) then 1 else 0

/-! ### Issuing -/

/-- Replace line `j` of stream `i`. -/
def setLine (i j : Nat) (x : LineReq) (s : State) : State := s.modStream i (fun m => { m with lines := m.lines.set j x })

/-- Take line `j` of stream `i` away. -/
def dropLine (i j : Nat) (s : State) : State := s.modStream i (fun m => { m with lines := m.lines.eraseIdx j })

/-- The lowest free tag of a far port (R637). -/
def FarPort.freeTag (f : FarPort) : Option Nat := (List.range 2048).find? (fun t => !f.reqs.any (fun r => decide (r.tag = t)))

/-- A line's bytes by their place in the 64-byte line. -/
def maskOf (lo : Nat) (bs : List Byte) : KMap (Option Byte) := bs.zipIdx.map (fun x => (lo + x.2, some x.1))

/-- Ask a far port for a line (R349, R368, R637); without a free tag or a slot, and between the read and the write of another request's
read-merge-write of the line, nothing is asked yet. -/
def farAsk (q addr part stream : Nat) (write : Option (KMap (Option Byte))) (s : State) : Option State :=
  let f := s.farPort q
  match if f.reqs.any (fun r => r.rmw && decide (r.addr = addr / 64 * 64)) then none else f.freeTag with
  | none => none
  | some t =>
    let part' := match write with | some m => decide (m.length < 64) | none => false
    (farSlot q part (1 + b2n part') s).map (fun s1 => s1.modFar q (fun f =>
      { f with reqs := f.reqs ++ [⟨t, addr / 64 * 64, part, stream, write, part', false⟩] }))

/-- The access is not performed (R387): a read delivers zeros and poisons its tile, the Figure aborts, REGION_VIOLATION is reported. -/
def violate (i j : Nat) (x : LineReq) (s : State) : State :=
  let m := s.stream i
  let s1 := if x.write then dropLine i j s
    else setLine i j { x with data := some (List.replicate x.bytes 0), poisoned := true } (s.modStream i (fun m => { m with poisoned := true }))
  let s2 := postEvent m.part 0x60 (payloadOf m.fig 0 (i % 2 ^ 16 + x.va * 2 ^ 32)) (fqCount 2 s1)
  askAbort m.part m.fig .regionViolation s2

/-- The bytes a write of a stream carries: converted from the Scratchpad, or for COPY those its read of the same tile and transit
place brought. -/
def State.writeData (s : State) (m : Stream) (x : LineReq) : Option (List Byte × Flags × List Nat) :=
  if m.kind = .copy then
    (m.lines.findSome? (fun y => if !y.write && decide (y.tile = x.tile) && decide (y.spmByte = x.spmByte) && decide (y.bytes = x.bytes)
      then y.data else none)).map (fun bs => (bs, Flags.none, []))
  else some (s.storeLine m x)

/-- The read of a COPY stream whose data a write has taken is done with. -/
def dropCopied (i : Nat) (x : LineReq) (s : State) : State :=
  s.modStream i (fun m =>
    if m.kind = .copy then { m with lines := m.lines.filter (fun y =>
      y.write || decide (y.tile ≠ x.tile) || decide (y.spmByte ≠ x.spmByte) || y.data.isNone) }
    else m)

/-- Issue line `j` of stream `i` to the place its translation gives: to the channel's controller, or to a far port. A store that is held
back waits (R209, R324). -/
def issueAt (i j : Nat) (x : LineReq) (l : Loc) (s : State) : State :=
  let m := s.stream i
  match if x.write && !s.storesOpen m then none else if x.write then s.writeData m x else some ([], Flags.none, []) with
  | none => s
  | some (bs, fl, rd) =>
    let k := s.streamSlot m
    let s1 := if x.write then raise m.core k fl (touchRows m.part m.fig m.core k rd [] s) else s
    let data := if x.write then some bs else none
    match l with
    | .hbm ch ca =>
      let s2 := setLine i j { x with place := some (false, ch, ca), data := data } s1
      if x.write then dropCopied i x s2 else s2
    | .far q a =>
      match farAsk q a m.part i (if x.write then some (maskOf (a % 64) bs) else none) s1 with
      | none => s
      | some s2 =>
        let s3 := setLine i j { x with place := some (true, q, a), data := data } s2
        if x.write then dropCopied i x s3 else s3

/-- Perform a translated access of line `j` through a leaf (R387, R406). -/
def performLine (i j base : Nat) (l : Leaf) (s : State) : State :=
  let m := s.stream i
  match m.lines[j]? with
  | none => s
  | some x =>
    let s1 := countAccess (m.core / 4) m.part x.va s
    match s.locOf base l x.va with
    | none => violate i j x s1
    | some w => issueAt i j x w s1

/-- The kinds whose accesses translate (R381). -/
def kindTranslated (k : StreamKind) : Bool :=
  match k with
  | .land => false
  | .remote => false
  | _ => true

/-- A kind may read, or write. -/
def kindMay (k : StreamKind) (write : Bool) : Bool :=
  match k with
  | .tileLoad => !write
  | .tileStore => write
  | .gather => !write
  | .kv => !write
  | .copy => true
  | .land => true
  | .remote => false

/-- Lines in flight on an engine (R379). -/
def State.engineLines (s : State) (core engine : Nat) : Nat :=
  ((s.streams.filter (fun x => x.2.bound && decide (x.2.core = core) && decide (x.2.engine = engine))).map (fun x => x.2.lines.length)).sum

/-- Stream `i` may issue (R315, R379, R394): bound, not suspended, its core at work and its channel waiting for no credits, its Figure in
progress. -/
def State.mayIssue (s : State) (i : Nat) : Bool :=
  let m := s.stream i
  let c := s.core m.core
  m.bound && m.suspended.isNone && !c.fenced && !c.halted && !c.busyCh.contains m.engine && decide (s.pmu.dieLevel ≠ 2)
    && ((s.part m.part).active m.fig).isSome

/-- A line that waits for its translation: not issued, not answered. -/
def LineReq.untranslated (x : LineReq) : Bool := x.place.isNone && x.data.isNone

/-- The place of a landing buffer access: LB in bits [11:0], offset in bits [47:16] (R286, R425). -/
def State.landPlace (s : State) (p va n : Nat) : Option Loc :=
  let b := s.landBuf (fld va 0 12)
  if b.isSet && decide (fld va 16 32 + n ≤ b.size) then s.locVa p (b.base + fld va 16 32) else none

/-- An access of a GATHER stream lies in the row of its tensor that the INT32 index at Scratchpad byte `at'` selects (R381). -/
def State.gathers (s : State) (m : Stream) (va at' : Nat) : Bool :=
  match m.kind, s.streamList m with
  | .gather, some l => (match l.locate m.role va with | some (_, _, r, _) => decide ((r : Int) = s.spmI32 m.core at' 0) | none => false)
  | _, _ => true

/-- The Scratchpad row of the index that a GATHER stream's access reads is checked (R323, R381). -/
def readIndex (m : Stream) (at' : Nat) (s : State) : State :=
  if m.kind = .gather then touchRows m.part m.fig m.core (s.streamSlot m) (rowsOf at' 4) [] s else s

/-- STREAM_ACCESS (R379 to R381, R388, R390, R394): a line request in the order of the stream's tiles, where an item of its core reads or
writes; it issues on a uTLB hit that permits it, and otherwise waits for the STB. -/
def execStreamAccess (i : Nat) (va : VA) (bytes : Nat) (write : Bool) (tile spmByte scByte : Nat) (s : State) : Res :=
  let m := s.stream i
  let x : LineReq := ⟨va.toNat, bytes, write, tile, spmByte, scByte, none, none, false⟩
  let j := m.lines.length
  if !s.mayIssue i || !kindMay m.kind write || !s.accessOk m va.toNat bytes write || !s.gathers m va.toNat scByte
      || (write && !s.storesOpen m) || m.lines.any (fun y => y.untranslated || decide (tile < y.tile)) || decide (512 ≤ s.engineLines m.core m.engine) || decide (bytes = 0) || decide (64 < va.toNat % 64 + bytes) then .next s
  else
    let s1 := readIndex m scByte (s.setStream i { m with lines := m.lines ++ [x] })
    if kindTranslated m.kind then
      let l := s.utlb m.core m.engine
      match l.find? (fun e => e.holds m.part va.toNat && e.leaf.permits write) with
      | some e => .next (performLine i j e.base e.leaf (s1.setUtlb m.core m.engine (e :: l.erase e)))
      | none => .next (trCount (m.core / 4) 0 s1)
    else
      match s.landPlace m.part va.toNat bytes with
      | some w => .next (issueAt i j x w s1)
      | none => .next s

/-! ### Walks -/

/-- The place of the line of stream `i` that waits for translation, and the line. -/
def State.waitingLine (s : State) (i : Nat) : Option (Nat × LineReq) :=
  let m := s.stream i
  match m.lines.findIdx? LineReq.untranslated with
  | some j => m.lines[j]?.map (fun x => (j, x))
  | none => none

/-- The page number under which misses share a walk: that of the 1 GiB page where the table has one (R390). -/
def State.walkPage (s : State) (p va : Nat) : Nat :=
  match (s.part p).space.walk va with
  | .leaf b _ => b / 2 ^ 25
  | _ => pageKey va

/-- Start or join a walk for a stream; at most 16 are in flight (R389, R390). -/
def joinWalk (k p page i : Nat) (second : Bool) (s : State) : Option State :=
  let u := s.unit k
  let same (w : Walk) : Bool := decide (w.part = p) && decide (w.page = page) && w.second == second
  if u.walks.any same then
    some (s.setUnit k { u with walks := u.walks.map (fun w => if same w then { w with streams := w.streams ++ [i] } else w) })
  else if u.walks.length < 16 then some (s.setUnit k { u with walks := u.walks ++ [⟨p, page, [i], second, false⟩] })
  else none

/-- A parity detection in the STB's entry drops it (R558). -/
def dropStb (k : Nat) (e : TlbEntry) (s : State) : State :=
  blkCount 1 (dropEntries [e] (s.modUnit k (fun u => { u with stb := u.stb.erase e })))

/-- STB_LOOKUP (R389 to R391, R558): a hit that permits the access fills the uTLB and the access issues; one that would deny it, and a miss,
lead to a walk. An entry hit that fails its parity is dropped and served as a miss. -/
def execStbLookup (k : Nat) (r : TagRead) (s : State) : Res :=
  let i := r.stream
  let m := s.stream i
  let u := s.unit k
  match s.waitingLine i with
  | none => .next s
  | some (j, x) =>
    if !s.mayIssue i || decide (m.core / 4 ≠ k) || u.walks.any (fun w => w.streams.contains i) || !kindTranslated m.kind then .next s
    else
      let page := s.walkPage m.part x.va
      let hit := u.stb.find? (fun e => e.holds m.part x.va)
      let s0 := match hit with | some e => if r.bad then dropStb k e s else s | none => s
      match if r.bad then none else hit with
      | some e =>
        let s1 := trCount k 1 (s.setUnit k { u with stb := e :: u.stb.erase e })
        if e.leaf.permits x.write then .next (performLine i j e.base e.leaf (fillUtlb m.core m.engine m.part e.base e.leaf s1))
        else (match joinWalk k m.part page i true s1 with | some t => .next t | none => .next s)
      | none => (match joinWalk k m.part page i false (trCount k 2 s0) with | some t => .next t | none => .next s0)

/-! ### Faults -/

/-- The 16 bytes of an entry (R396). -/
def FaultEntry.bits (e : FaultEntry) : Nat :=
  e.va % 2 ^ 52 + e.cause.code * 2 ^ 79 + b2n e.write * 2 ^ 82 + e.engine % 8 * 2 ^ 83 + e.core % 64 * 2 ^ 86 + e.part % 4 * 2 ^ 92
    + e.stream % 1024 * 2 ^ 94 + e.fig % 2 ^ 24 * 2 ^ 104

/-- A stream faults and is suspended (R394, R395): queued, or parked while the queue is full; a write to a page that is migrating is
held by Fremund and not posted (R407). -/
def faultStream (i : Nat) (x : LineReq) (c : FaultCause) (s : State) : State :=
  let m := s.stream i
  let held := c = .noWrite ∧ ((s.part m.part).space.moving.any (fun v => decide (v.va ≤ x.va) && decide (x.va < v.va + v.target.bytes))) = true
  let s1 := s.setStream i { m with suspended := some (x.va, x.write, c) }
  if held then s1.modStream i (fun m => { m with heldWrite := true })
  else if s.faults.entries.length < 512 then enqueueFault i s1
  else
    fqCount 1 { s1.modStream i (fun m => { m with parked := true }) with
      faults := { s1.faults with parking := s1.faults.parking ++ [i] } }

/-- Resume the suspended streams of partition `p` whose access is legal now (R398). -/
def resumeLegal (p : Nat) (s : State) : State :=
  unpark ((s.streams.filter (fun x => x.2.bound && decide (x.2.part = p))).foldl (fun t x => if t.legalNow x.1 then resumeStream x.1 t else t) s)

/-- Report a corrupt entry (R385). -/
def reportCorrupt (p va : Nat) (s : State) : State := postEvent p 0x61 (payloadOf noFig 0 (va * 2 ^ 32)) s

/-- What a finished walk does for one of its streams (R387, R391, R393). -/
def walkFor (k : Nat) (second : Bool) (i : Nat) (s : State) : State :=
  let m := s.stream i
  match s.waitingLine i with
  | none => s
  | some (j, x) =>
    let again (c : FaultCause) (t : State) : State :=
      if second then faultStream i x c t
      else (joinWalk k m.part (t.walkPage m.part x.va) i true t).getD t
    if !m.bound then s
    else
      match (s.part m.part).space.walk x.va with
      | .corrupt => again .notMapped (reportCorrupt m.part x.va s)
      | .unmapped => again .notMapped s
      | .leaf b l =>
        if !s.leafOk m.part l then violate i j x s
        else
          let s1 := fillStb k m.part b l s
          if l.permits x.write then performLine i j b l (fillUtlb m.core m.engine m.part b l s1)
          else again (if x.write then .noWrite else .noRead) s1

/-- A walk of the 1 GiB region of page `page` reads non-leaf entries through the walk cache of Set `k`, whose entry may fail its parity and
then is read again (R389, R558). -/
def readNonLeaf (k p page : Nat) (bad : Bool) (s : State) : State :=
  let u := s.unit k
  let key := (p, page / 32)
  let s1 := s.setUnit k { u with walkCache := useFirst u.walkCache key 64 }
  if bad && u.walkCache.contains key then blkCount 1 s1 else s1

/-- STB_WALK_DONE (R387, R390, R391, R393, R404, R558). -/
def execStbWalkDone (k : Nat) (r : TagRead) (s : State) : Res :=
  let u := s.unit k
  match u.walks.find? (fun w => w.streams.contains r.stream) with
  | none => .next s
  | some w =>
    if w.stale then .next (s.setUnit k { u with walks := u.walks.map (fun y => if y = w then { y with stale := false } else y) })
    else .next (w.streams.foldl (fun t j => walkFor k w.second j t)
      (readNonLeaf k w.part w.page r.bad (s.setUnit k { u with walks := u.walks.erase w })))

/-- FAULT_SERVICE (R395, R397): the oldest entry is freed and posted; parked streams try again. -/
def execFaultService (s : State) : Res :=
  match s.faults.entries with
  | [] => .next s
  | e :: rest =>
    if !s.fwRunning then .next s
    else
      let s1 := { s with faults := { s.faults with entries := rest } }
      .next (unpark (postEvent e.part 1 e.bits (s1.modStream e.stream (fun m => { m with queued := false }))))

/-- TRANSLATION_PREFETCH (R382): the pages of a declared tile that are validly mapped fill the uTLB and the STB; any other page does
nothing. -/
def execTranslationPrefetch (core engine i : Nat) (va : VA) (bytes : Nat) (s : State) : Res :=
  let m := s.stream i
  if !s.mayIssue i || decide (m.core ≠ core) || decide (m.engine ≠ engine) || !kindTranslated m.kind then .next s
  else
    let a := va.toNat
    let pages := (List.range ((a + max bytes 1 - 1) / 2 ^ 25 - a / 2 ^ 25 + 1)).map (fun k => (a / 2 ^ 25 + k) * 2 ^ 25)
    .next (pages.foldl (fun t v =>
      match (t.part m.part).space.walk v with
      | .leaf b l =>
        if t.leafOk m.part l && (l.permits false || kindMay m.kind true) && (l.permits true || kindMay m.kind false) then
          fillUtlb core engine m.part b l (fillStb (core / 4) m.part b l t)
        else t
      | _ => t) s)

/-! ### Data -/

/-- The tile's split slab (R146, R147): elements placed by their rows and columns within the tile, 0 elsewhere; a transposing load places
a row's elements along the slab's rows (R197). -/
def State.splitSlab (src : Fmt) (trans : Bool) (ls : List TileLine) : List (List Aligned) :=
  let n := (piecesOf src).getD 2
  let els := ls.flatMap (fun x =>
    (List.range (x.2.2.length * 8 / fmtBits src)).map (fun i => ((x.2.1.row, x.2.1.col + i), fmtDecode src (codeAt src x.2.2 i) 0 0)))
  let r0 := (els.map (fun e => e.1.1)).foldl min (2 ^ 32)
  let r1 := (els.map (fun e => e.1.1 + 1)).foldl max r0
  let c0 := (els.map (fun e => e.1.2)).foldl min (2 ^ 32)
  let c1 := (els.map (fun e => e.1.2 + 1)).foldl max c0
  let at' (r c : Nat) : Num := ((els.find? (fun e => decide (e.1 = (r0 + r, c0 + c)))).map (·.2)).getD Num.zero
  if trans then slabOf n (ceilDiv (r1 - r0) 32) (fun r k => at' k r) else slabOf n (ceilDiv (c1 - c0) 32) at'

/-- Land the lines of a tile in the Scratchpads of `cs` at the same rows: raw or converted, or split as a whole (R31). Rows [row, row +
rows) are made 0 first (R179, R187, R239). -/
def landTile (i : Nat) (ls : List LineReq) (row rows : Nat) (cs : List Nat) (s : State) : State :=
  let m := s.stream i
  let k := s.streamSlot m
  let got := ls.map (fun x => (x, s.delivered m x.va (x.data.getD [])))
  let tl : List TileLine := got.map (fun g => (g.1, s.linePlace m g.1.va, g.2.1))
  let fl := Flags.all (got.map (fun g => g.2.2))
  let zero (c : Nat) (t : State) : State := spmWrite c (512 * row) (List.replicate (512 * rows) 0) (touchRows m.part m.fig c k [] ((List.range rows).map (row + ·)) t)
  match m.conv with
  | .split src tr =>
    let slab := State.splitSlab src tr tl
    let n := (piecesOf src).getD 2
    let at' := (ls.map (·.spmByte)).foldl min (2 ^ 32) / 512
    let wr := (List.range (splitRows n * slab.length)).map (at' + ·)
    raise m.core k (fl.or (slabFlags slab)) (cs.foldl (fun t c =>
      let t0 := zero c t
      if ls.isEmpty then t0 else writeSplit c at' n slab (touchRows m.part m.fig c k [] wr t0)) s)
  | _ =>
    let out := tl.map (s.loadLine m tl)
    let ws := out.flatMap (·.1)
    raise m.core k (fl.or (Flags.all (out.map (·.2)))) (cs.foldl (fun t c =>
      ws.foldl (fun t w => spmWrite c w.1 w.2 t) (touchRows m.part m.fig c k [] (ws.flatMap (fun w => rowsOf w.1 w.2.length)) (zero c t))) s)

/-- The lines of a tile of stream `i` that loads it. -/
def State.tileLines (s : State) (i tile : Nat) : List LineReq := (s.stream i).lines.filter (fun x => !x.write && decide (x.tile = tile))

/-- A tile of stream `i` may land: every line has its data, and it is not ready yet. -/
def State.tileComes (s : State) (i tile rows : Nat) : Bool :=
  let m := s.stream i
  let ls := s.tileLines i tile
  m.bound && decide (m.kind ≠ .copy) && kindMay m.kind false && !(ls.isEmpty && decide (rows = 0)) && ls.all (·.data.isSome) && !m.ready.contains tile

/-- The tile's lines are done with, and it is visible (R32). -/
def tileReady (i tile : Nat) (s : State) : State :=
  s.modStream i (fun m => { m with lines := m.lines.filter (fun x => x.write || decide (x.tile ≠ tile)), ready := m.ready ++ [tile] })

/-! ### Landing alone and multicast -/

/-- Cores whose items share the tile of a multicast stream: one gang, fenced cores apart, no item returned to its counter, the same entry
and row tile for a dense A slab, the gang's one item for K and V (R189, R293, R296). -/
def State.sharesTile (s : State) (m : Stream) (a : RunFig) (f : Figure) : Bool :=
  let held (c : Nat) : List (Nat × Nat) := (s.core c).held.filter (fun h => a.clms.contains h.1)
  let item (h : Nat × Nat) : Option Item := a.itemAt f (itemKey f a h.1) h.2
  a.gangs.any (fun g => m.mcast.all g.contains) && m.mcast.contains m.core
    && (held m.core).any (fun h => m.mcast.all (fun c => (s.core c).fenced || (held c).any (fun x =>
      !(s.clm x.1).returned.contains x.2 && (match f.par, item h, item x with
        | .dense _, some y, some z => decide (m.role = roleA) && decide (y.entry = z.entry) && decide (y.a = z.a)
        | .attn _, some y, some z => (m.role == roleK || m.role == roleV) && decide (y = z)
        | _, _, _ => false))))

/-- The tiles of stream `i` are multicast now. -/
def State.castsTiles (s : State) (i : Nat) : Bool :=
  let m := s.stream i
  match (s.part m.part).active m.fig, s.streamFig m with
  | some a, some f => s.sharesTile m a f
  | _, _ => false

/-- LINE_DATA_VALID (R32, R187, R239): every line of the tile has its data; they land over the zeros the engine writes into the slab's rows,
and the tile becomes visible. A stream with a multicast set lands alone while its members' items do not share the tile (R293, R296). -/
def execLineDataValid (i tile : Nat) (z : RowSpan) (s : State) : Res :=
  let m := s.stream i
  if !s.tileComes i tile z.rows || s.castsTiles i then .next s
  else .next (tileReady i tile (landTile i (s.tileLines i tile) z.first z.rows [m.core] s))

/-- MULTICAST_STAGE_ISSUE (R31, R296, R297): a tile that was fetched once lands at the same Scratchpad rows of every member of the
stream's multicast set, a stream of the Figure, once each has read what the stage before left in those rows (log 98); the copy of a fenced
member is discarded. -/
def execMulticastStageIssue (p fig i tile : Nat) (z : RowSpan) (s : State) : Res :=
  let m := s.stream i
  let live := m.mcast.filter (fun c => !(s.core c).fenced)
  let ls := s.tileLines i tile
  let dst := (List.range z.rows).map (z.first + ·) ++ ls.flatMap (fun x => rowsOf x.spmByte x.bytes)
  if decide (m.part ≠ p) || decide (m.fig ≠ fig) || !s.tileComes i tile z.rows || !s.castsTiles i || live.any (fun c => dst.any (s.core c).staged.contains) then .next s
  else .next (live.foldl (fun t c => t.modCore c (fun k => { k with staged := dst.foldl insAsc k.staged }))
    (tileReady i tile (landTile i ls z.first z.rows live s)))

/-! ### Invalidation -/

/-- A page overlaps the VA range [a, b). -/
def TlbEntry.overlaps (e : TlbEntry) (p a b : Nat) : Bool := decide (e.part = p) && meets (e.base, e.base + e.leaf.bytes) (a, b)

/-- Invalidate [a, b) of partition `p` (R403, R404): cached entries are dropped, walks in flight will walk again. -/
def invalidate (p a b : Nat) (s : State) : State :=
  let s1 := (List.range s.cfg.sets).foldl (fun t k =>
    let u := t.unit k
    let gone := u.stb.filter (fun e => e.overlaps p a b)
    dropEntries gone (t.setUnit k { u with
      stb := u.stb.filter (fun e => !e.overlaps p a b)
      walkCache := u.walkCache.filter (fun x => !(decide (x.1 = p) && meets (x.2 * 2 ^ 30, (x.2 + 1) * 2 ^ 30) (a, b)))
      walks := u.walks.map (fun w => if decide (w.part = p) && meets (w.page * 2 ^ 25, w.page * 2 ^ 25 + 2 ^ 30) (a, b) then { w with stale := true } else w) })) s
  { s1 with utlbs := (s1.utlbs.map (fun x => (x.1, x.2.filter (fun e => !e.overlaps p a b)))).filter (fun x => !x.2.isEmpty) }

/-- An access of partition `p` to [a, b) is in flight (R403). -/
def State.inFlight (s : State) (p a b : Nat) : Bool :=
  s.streams.any (fun x => decide (x.2.part = p) && kindTranslated x.2.kind && x.2.lines.any (fun l =>
    decide (a ≤ l.va) && decide (l.va < b) && l.place.isSome && (l.write || l.data.isNone)))

/-- VA range of a mapping command: first VA and end (R501). -/
def mapRange (img : BitVec 512) : Nat × Nat :=
  let va := arg img 0x18 0 52
  (va, va + arg img 0x20 0 32 * (if arg img 0x24 0 1 = 1 then 2 ^ 30 else 2 ^ 25))

/-- INVALIDATION_DONE (R398, R403, R409): every unit acknowledges the oldest invalidation that waits, its accesses in flight having
ended; the command completes and the streams it makes legal resume. -/
def execInvalidationDone (p : Nat) (s : State) : Res :=
  match (s.part p).waiting.find? (fun w => match w.what with | .invalidate _ => true | _ => false) with
  | none => .next s
  | some w =>
    match (s.ring w.ring).find w.seq, w.what with
    | some o, .invalidate n =>
      let r := mapRange o.image
      if s.inFlight p r.1 r.2 then .next s
      else
        let s1 := s.modPart p (fun q => { q with waiting := q.waiting.erase w })
        let s2 := (List.range s.cfg.sets).foldl (fun t k => trCount k 3 t) s1
        .next (complete w.ring w.seq stOk n 0 (resumeLegal p s2))
    | _, _ => .next (s.modPart p (fun q => { q with waiting := q.waiting.erase w }))

end Sys2Proof.Machine
end

