-- ==== Sys2Proof/Machine/Channels.lean ====
section
/-! DEFINITION. HBM channels and stacks: line reads and writes (R351 to R358), soft repair and patrol scrub (R359, R360), temperature
(R354), channel states (R363 to R367, R565), and the queue of intrusive items (R71). -/

namespace Sys2Proof.Machine

/-! ### Intrusive items -/

/-- An item is queued or running. -/
def State.itemQueued (s : State) (it : Intrusive) : Bool :=
  [0, 1, 2, 3].any (fun p => (s.part p).items.any (fun q => decide (q.item = it)))

/-- Mark that a retraining or remap waits (R376, R450). -/
def markQueued (it : Intrusive) (b : Bool) (s : State) : State :=
  match it with
  | .channel ch => s.modChannel ch (fun c => { c with retrainQueued := b })
  | .port n => s.modPort n (fun q => { q with retrainQueued := b })
  | .laneRemap n => s.modPort n (fun q => { q with retrainQueued := b })
  | .staging _ => s

/-- Fremund queues an item itself (R71), with the first partition it touches. -/
def queueItem (it : Intrusive) (s : State) : State :=
  if s.itemQueued it then s
  else
    let p := ((s.itemUsers it).head?).getD (s.liveParts.head?.getD 0)
    markQueued it true (s.modPart p (fun q => { q with items := q.items ++ [⟨it, [], false⟩] }))

/-- A running item has ended: it leaves the queue, and the commands that wait for it complete with its outcome (R496, R497). -/
def finishItem (it : Intrusive) (bad : Bool) (code : Nat) (s : State) : State :=
  [0, 1, 2, 3].foldl (fun t p =>
    match (t.part p).items.find? (fun q => decide (q.item = it)) with
    | none => t
    | some q =>
      let t1 := t.modPart p (fun x => { x with items := x.items.filter (fun y => !decide (y.item = it)) })
      q.who.foldl (fun t w => complete w.1 w.2 stOk (b2n bad + code * 2 ^ 8) 0 t) t1) s

/-- A running item. -/
def State.itemRuns (s : State) (it : Intrusive) : Bool :=
  [0, 1, 2, 3].any (fun p => (s.part p).items.any (fun q => decide (q.item = it) && q.running))

/-! ### Line reads and writes -/

/-- The first read of stream `i` that waits for line `line` of channel `ch`. -/
def State.readWaiting (s : State) (i ch line : Nat) : Option (Nat × LineReq × Nat) :=
  let ls := (s.stream i).lines
  ls.zipIdx.findSome? (fun x =>
    match x.1.place with
    | some (false, c, ca) => if c = ch ∧ ca / 64 = line ∧ x.1.write = false ∧ x.1.data = none then some (x.2, x.1, ca) else none
    | _ => none)

/-- A poisoned line reaches a stream: its tile is poisoned and its Figure aborts (R358). -/
def poisonStream (i : Nat) (c : AbortCause) (s : State) : State :=
  let m := s.stream i
  askAbort m.part m.fig c (s.modStream i (fun m => { m with poisoned := true }))

/-- Deliver a line to a stream. -/
def deliverLine (i j : Nat) (x : LineReq) (bs : List Byte) (bad : Bool) (s : State) : State :=
  setLine i j { x with data := some bs, poisoned := bad } s

/-- What an uncorrectable read does for its reader (R358), `served` unless the channel serves it nothing (R364); the Snapshot Engine's own
report is SNAP_FAILED (R577). -/
def readLost (reader : Reader) (served : Bool) (p ch ca : Nat) (s : State) : State :=
  match reader with
  | .stream i => poisonStream i .memUe (uncorrectableAt served ch ca (s.stream i).fig [p] s)
  | .snapshot _ => uncorrectableAt served ch ca noFig [] s
  | .fremund _ => uncorrectableAt served ch ca noFig [p] s
  | .pwu k i =>
    let s1 := uncorrectableAt served ch ca noFig [p] s
    match (s1.unit k).kvWalks.find? (fun w => decide (w.stream = i)) with
    | some w => walkResult i w.work w.seqId w.token (.failed 2) (s1.modUnit k (fun u => { u with kvWalks := u.kvWalks.erase w }))
    | none => s1

/-- The partition a reader reads for. -/
def readerPart (r : Reader) (s : State) : Nat :=
  match r with
  | .stream i => (s.stream i).part
  | .snapshot p => p
  | .fremund p => p
  | .pwu _ i => (s.stream i).part

/-- A stream's read that comes over the Multicast Crossbar (R346); the readers of the Control Complex compete with no near path. -/
def State.byCrossbar (s : State) (r : Reader) (ch : Nat) : Bool :=
  match r with
  | .stream i => !isNear ch (s.stream i).core
  | _ => false

/-- A read takes its slot of channel `ch` (R347, R349). -/
def takeRead (ch p : Nat) (r : Reader) (s : State) : State :=
  let both := match r with | .stream _ => s.bothPaths ch p | _ => false
  let x := s.byCrossbar r ch
  chargeSlots ch p 1 (if both then s.modChannel ch (fun c => { c with turns := c.turns.cross1 p x }) else s)

/-- MC_READ_REQUEST (R347 to R351, R356 to R358, R360, R363, R364, R529). A request to a channel that queues, to a bank
where a row is being copied, or without a slot of the channel (log 99), waits. -/
def execMcReadRequest (ch line p : Nat) (reader : Reader) (ecc : Ecc) (s : State) : Res :=
  let c := s.channel ch
  let ca := 64 * line
  let waits := match reader with | .stream i => (s.readWaiting i ch line).isNone | _ => false
  if s.cfg.channels ≤ ch || decide (readerPart reader s ≠ p) || waits || decide (s.serve p ch = .queued)
      || s.bankBusy ch ca || (decide (s.serve p ch = .now) && !s.slotFor ch p (s.byCrossbar reader ch)) then .next s
  else
    let lost := decide (s.serve p ch = .lost)
    let bad := lost || c.poison.contains line || decide (ecc = .double)
    let counted := match reader with | .stream _ => !lost | _ => false
    let s0 := if lost then s else takeRead ch p reader s
    let s1 := if counted then acctAdd p 2 64 s0 else s0
    let s2 :=
      match reader with
      | .stream i =>
        match s.readWaiting i ch line with
        | some (j, x, a) => deliverLine i j x ((List.range x.bytes).map (fun k => chView c (a + k))) bad s1
        | none => s1
      | _ => s1
    .next (if bad then readLost reader (!lost) p ch ca s2 else if ecc = .single then corrected ch ca s2 else s2)

/-- The bytes a mask selects, by place in the line. -/
def maskBytes (mask : BitVec 64) (data : BitVec 512) : List (Nat × Byte) :=
  ((List.range 64).filter (fun i => mask.getLsbD i)).map (fun i => (i, BitVec.ofNat 8 (fld data.toNat (8 * i) 8)))

/-- A store of partition `p` that waits for channel `ch` with exactly these bytes: its stream and place. -/
def State.storeWaiting (s : State) (ch line p : Nat) (bs : List (Nat × Byte)) : Option (Nat × Nat) :=
  s.streams.findSome? (fun x =>
    if x.2.part ≠ p then none
    else (x.2.lines.findIdx? (fun l =>
      match l.place, l.data with
      | some (false, c, ca), some d =>
        l.write && decide (c = ch) && decide (ca / 64 = line) && decide (d.zipIdx.map (fun b => (ca % 64 + b.2, b.1)) = bs)
      | _, _ => false)).map (fun j => (x.1, j)))

/-- MC_WRITE_REQUEST (R348 to R351, R353, R363, R364): accepted into the Write-Combining Buffer and so acknowledged, queued while the
channel queues or has no slot for the partition (log 99), or discarded and reported on a channel that does not serve the writer. -/
def execMcWriteRequest (ch line p : Nat) (mask : BitVec 64) (data : BitVec 512) (s : State) : Res :=
  let bs := maskBytes mask data
  if s.cfg.channels ≤ ch || bs.isEmpty || decide (s.serve p ch = .queued)
      || (decide (s.serve p ch = .now) && !s.slotFor ch p false) then .next s
  else
    let who := s.storeWaiting ch line p bs
    let s1 := match who with | some (i, j) => dropLine i j s | none => s
    let fig := match who with | some (i, _) => (s.stream i).fig | none => noFig
    if s.serve p ch = .lost then .next (lostWrite ch (64 * line) fig [p] s1)
    else .next (wcbAccept ch line p true bs s1)

/-- The channel's memory can be reached. -/
def Channel.reachable (c : Channel) : Bool := decide (c.state = .online) || decide (c.state = .spare)

/-- WCB_EVICT (R348, R349, R351, R352, R356). -/
def execWcbEvict (ch line : Nat) (ecc : Ecc) (s : State) : Res :=
  let c := s.channel ch
  match c.wcb.find? (fun e => decide (e.line = line)) with
  | none => .next s
  | some e => if c.reachable && !s.bankBusy ch (64 * line) && s.slotFor ch e.part false then .next (evictEntry ch e ecc s) else .next s

/-- SOFT_REPAIR_DONE (R360, R361): the row's copy is finished; Fremund queues its hard-repair staging. -/
def execSoftRepairDone (ch : Nat) (s : State) : Res :=
  match (s.channel ch).copying with
  | [] => .next s
  | _ :: rest => .next (queueItem (.staging (ch / 32)) (s.modChannel ch (fun c => { c with copying := rest })))

/-- REFRESH (R348, R354, R355). -/
def execRefresh (ch : Nat) (s : State) : Res :=
  .next (if ch < s.cfg.channels then s.modChannel ch (fun c => { c with refreshed := c.refreshed + 1 }) else s)

/-- Bytes of a channel: one thirty-second of a stack (R18, R340). -/
def State.channelBytes (s : State) : Nat := s.mem.stackGb * 10 ^ 9 / 32

/-- Partitions that an error of a line concerns: that of the region that holds it, else those with a region on the channel (R506). -/
def State.lineParts (s : State) (ch ca : Nat) : List Nat :=
  match s.paOf ch ca with
  | some pa =>
    match s.regionOf pa with
    | some r => if r.fw then s.channelParts ch else [r.part]
    | none => s.channelParts ch
  | none => s.channelParts ch

/-- PATROL_SCRUB (R38, R39, R348, R358, R359), awake (R534) and behind the demand that waits unless it is aged: the next line is read,
corrected or reported; a completed pass is counted and the rows' error counts start again (R360). -/
def execPatrolScrub (ch : Nat) (ecc : Ecc) (s : State) : Res :=
  let c := s.channel ch
  if s.asleep || !c.reachable || decide ((s.stackAt (ch / 32)).level = 3) || (s.stackAt (ch / 32)).selfRefresh
      || s.bankBusy ch c.scrubAt || (!c.scrubAge && !(s.waitingAt ch).isEmpty) then .next s
  else
    let ca := c.scrubAt
    let bad := c.poison.contains (ca / 64) || decide (ecc = .double)
    let s1 := if bad then uncorrectable ch ca noFig (s.lineParts ch ca) s else if ecc = .single then corrected ch ca s else s
    let last := decide (s.channelBytes ≤ ca + 64)
    let s2 := s1.modChannel ch (fun c => { c with
      scrubAt := if last then 0 else ca + 64, scrubAge := false, corrRows := if last then [] else c.corrRows })
    .next (if last then mcCount ch 4 1 s2 else s2)

/-- SCRUB_AGED (R38, R348, R534). -/
def execScrubAged (ch : Nat) (s : State) : Res :=
  .next (if ch < s.cfg.channels ∧ s.asleep = false then s.modChannel ch (fun c => { c with scrubAge := true }) else s)

/-! ### Channel states -/

/-- A FW region has lost a channel (R565). -/
def fwLoss (s : State) : State :=
  withHealth (fun s => { s with health := { s.health with resetRequested := true } })
    { (s.liveParts.foldl (fun t p => fremundStop p 0x51 t) s) with fw := { (s.liveParts.foldl (fun t p => fremundStop p 0x51 t) s).fw with fwLost := true } }

/-- A channel goes DOWN (R353, R363 to R366, R565): the event goes to every partition that could use it, and the Choreographies with a
region on it stop. -/
def channelDown (ch : Nat) (s : State) : State :=
  let fw := s.fwChannel ch
  let ps := s.channelParts ch
  let s1 := withHealth (fun s => s.modChannel ch (fun c => { c with state := .down, served := 0, wcb := [], copying := [] })) s
  let s2 := queueItem (.channel ch) s1
  let s3 := postEach ps 0x51 (payloadOf noFig ch 0) s2
  let s4 := (s.channelUsers ch).foldl (fun t p => fremundStop p 0x51 t) s3
  if fw then fwLoss s4 else s4

/-- CHANNEL_LOCK_LOSS (R363). -/
def execChannelLockLoss (ch : Nat) (s : State) : Res :=
  if (s.channel ch).state = .online ∨ (s.channel ch).state = .spare then
    .next (withHealth (fun s => s.modChannel ch (fun c => { c with state := .fenced, keep := decide (c.state = .online) })) s)
  else .next s

/-- CHANNEL_RELOCK within 50 µs (R363). -/
def execChannelRelock (ch : Nat) (s : State) : Res :=
  if (s.channel ch).state = .fenced then
    .next (withHealth (fun s => s.modChannel ch (fun c => { c with state := if c.keep then .online else .spare })) s)
  else .next s

/-- CHANNEL_FENCE_EXPIRY after 50 µs (R363). -/
def execChannelFenceExpiry (ch : Nat) (s : State) : Res :=
  if (s.channel ch).state = .fenced then .next (channelDown ch s) else .next s

/-- CHANNEL_UE_LIMIT: 16 uncorrectable reads in one Bar (R363). -/
def execChannelUeLimit (ch : Nat) (s : State) : Res :=
  let c := s.channel ch
  if 16 ≤ c.uesInBar ∧ (c.state = .online ∨ c.state = .spare ∨ c.state = .fenced) then .next (channelDown ch s) else .next s

/-- A channel becomes FAILED (R363, R367, R561). -/
def channelFailed (ch : Nat) (s : State) : State :=
  let s1 := withHealth (fun s => replaceCause 1 (s.modChannel ch (fun c =>
    { c with state := .failed, served := 0, retrainQueued := false, wcb := [], copying := [] }))) s
  postEach (s.channelParts ch) 0x52 (payloadOf noFig ch 0) s1

/-- CHANNEL_RETRAIN_DONE (R362, R363, R367, R497): `lanes` failing lanes, none where the channel does not train. Contents that were not
kept read as free bytes from now on (log 4). -/
def execChannelRetrainDone (ch : Nat) (lanes : Option Nat) (s : State) : Res :=
  let c := s.channel ch
  if c.state ≠ .retraining ∨ (s.stackAt (ch / 32)).level = 3 then .next s
  else
    match lanes.filter (fun n => decide (n ≤ 4)) with
    | some n =>
      if c.keep then
        .next (finishItem (.channel ch) false 0 (withHealth (fun s => s.modChannel ch (fun c => { c with state := .online, sparesUsed := n })) s))
      else
        let s1 := s.modChannel ch (fun c => { c with
          state := .spare, sparesUsed := n, mem := [], poison := [], wcb := [], undef := some s.free })
        .next (finishItem (.channel ch) false 5 (withHealth (fun t => { t with channels := s1.channels }) s.draw))
    | none => .next (finishItem (.channel ch) true 4 (channelFailed ch s))

/-! ### Stacks -/

/-- The thermal level after a reading (R354). -/
def stackLevel (old t : Nat) : Nat :=
  if old = 3 ∨ 105 ≤ t then 3
  else if 95 ≤ t ∨ (old = 2 ∧ 92 ≤ t) then 2
  else if 85 ≤ t ∨ (1 ≤ old ∧ 82 ≤ t) then 1
  else 0

/-- A thermal trip: the shutdown request, INT_FATAL and the health word (R354, R548, R561). -/
def tripAlarm (s : State) : State :=
  withHealth (fun s => replaceCause 4 { s with health := { s.health with thermalTrip := true } })
    { s with pins := { s.pins with shdnReq := true }, fatal := { s.fatal with therm := true } }

/-- STACK_TEMP_READ (R354, R355, R373, R505). -/
def execStackTempRead (k t : Nat) (s : State) : Res :=
  if !s.mem.trained || decide (s.cfg.hbmStacks ≤ k) then .next s
  else
    let old := (s.stackAt k).level
    let lv := stackLevel old t
    let s1 := { s.modStack k (fun x => { x with temp := t, level := lv }) with pmu := { s.pmu with stackTempMax := max s.pmu.stackTempMax t } }
    if lv = 3 ∧ old ≠ 3 then
      let s2 := ((List.range 32).map (32 * k + ·)).foldl (fun t ch =>
        if (t.channel ch).state = .failed ∨ (t.channel ch).state = .down then t else channelDown ch t) s1
      .next (postAll 0x55 (payloadOf noFig k (t % 256)) (tripAlarm s2))
    else .next s1

/-- REPAIR_STAGING_DONE (R361, R375). -/
def execRepairStagingDone (k : Nat) (s : State) : Res :=
  if !s.itemRuns (.staging k) then .next s
  else
    let n := (((List.range 32).map (fun i => (s.channel (32 * k + i)).remaps.length))).sum
    .next (finishItem (.staging k) false 0 (s.modStack k (fun x => { x with staged := min 255 n })))

end Sys2Proof.Machine
end

