-- ==== Sys2Proof/Machine/FarMemory.lean ====
section
/-! DEFINITION. Far Memory Ports: responses, read-merge-writes and link loss (R368 to R371, R637 to R639). -/

namespace Sys2Proof.Machine

/-- The far request with a tag. -/
def FarPort.req (f : FarPort) (tag : Nat) : Option FarReq := f.reqs.find? (fun r => decide (r.tag = tag))

/-- Take a request off its port. -/
def dropReq (q tag : Nat) (s : State) : State := s.modFar q (fun f => { f with reqs := f.reqs.filter (fun r => !decide (r.tag = tag)) })

/-- The line of stream `i` that waits on a far request: a read without data, or a write. -/
def State.farWaiting (s : State) (i q addr : Nat) (write : Bool) : Option (Nat × LineReq × Nat) :=
  (s.stream i).lines.zipIdx.findSome? (fun x =>
    match x.1.place with
    | some (true, p, a) =>
      if p = q ∧ a / 64 * 64 = addr ∧ x.1.write = write ∧ (write = true ∨ x.1.data = none) then some (x.2, x.1, a) else none
    | _ => none)

/-- Deliver a far read to its stream (R371). -/
def farDeliver (q : Nat) (r : FarReq) (line : List Byte) (bad : Bool) (s : State) : State :=
  match s.farWaiting r.stream q r.addr false with
  | some (j, x, a) => deliverLine r.stream j x ((line.drop (a % 64)).take x.bytes) bad s
  | none => s

/-- FAR_ERROR for a poisoned read (R371, R505). -/
def farError (p fig q addr : Nat) (s : State) : State := postEvent p 0x56 (payloadOf fig q (addr % 2 ^ 48)) s

/-- The line with the bytes of a partial write put over it. -/
def overlay (line : List Byte) (w : KMap (Option Byte)) : List Byte := line.zipIdx.map (fun x => (kget none w x.2).getD x.1)

/-- The far line at `addr`. -/
def FarPort.line (f : FarPort) (addr : Nat) : List Byte := (List.range 64).map (fun i => kget 0 f.mem (addr + i))

/-- A response to `r` may carry these bytes (R370): those the port holds, while no write of the line is under way. -/
def FarPort.mayAnswer (f : FarPort) (r : FarReq) (line : List Byte) : Bool :=
  decide (line = f.line r.addr) || f.reqs.any (fun x => x.write.isSome && decide (x.addr = r.addr) && decide (x.tag ≠ r.tag))

/-- FAR_DRS_RESPONSE (R358, R368, R370, R371, R529): a read's data, poisoned or not; the read of a read-merge-write turns into the write
of the merged line, poisoned where it was. -/
def execFarDrsResponse (q tag : Nat) (data : BitVec 512) (poison : Bool) (s : State) : Res :=
  match (s.farPort q).req tag with
  | none => .next s
  | some r =>
    let line := leBytes 64 data.toNat
    if !(s.farPort q).linkUp || (r.write.isSome && !r.rmw) || (!poison && !(s.farPort q).mayAnswer r line) then .next s
    else
      let s1 := acctAdd r.part 4 64 s
      let s2 := if poison then s1.modFar q (fun f => { f with poison := insAsc f.poison (r.addr / 64) }) else s1
      match r.write with
      | some w =>
        let r' := { r with write := some (maskOf 0 (overlay line w)), rmw := false, poison := poison }
        let s3 := s2.modFar q (fun f => { f with reqs := f.reqs.map (fun x => if x.tag = tag then r' else x) })
        .next (if poison then farError r.part noFig q r.addr s3 else s3)
      | none =>
        let fig := (s.stream r.stream).fig
        let s3 := farDeliver q r line poison (dropReq q tag s2)
        .next (if poison then poisonStream r.stream .farUe (farError r.part fig q r.addr s3) else s3)

/-- FAR_NDR_CMP (R370, R529): the far write is acknowledged. -/
def execFarNdrCmp (q tag : Nat) (s : State) : Res :=
  match (s.farPort q).req tag with
  | none => .next s
  | some r =>
    match r.write with
    | none => .next s
    | some w =>
      if !(s.farPort q).linkUp || r.rmw then .next s
      else
        let bs := w.map (fun x => x.2.getD 0)
        let s1 := acctAdd r.part 4 64 (farPut q r.addr bs (dropReq q tag s))
        let s2 := if r.poison then s1.modFar q (fun f => { f with poison := insAsc f.poison (r.addr / 64) }) else s1
        match s2.farWaiting r.stream q r.addr true with
        | some (j, _, _) => .next (dropLine r.stream j s2)
        | none => .next s2

/-- FAR_LINK_DOWN (R639): the port keeps its outstanding and new requests. -/
def execFarLinkDown (q : Nat) (s : State) : Res :=
  .next (if q < s.cfg.farPorts then s.modFar q (fun f => { f with linkUp := false }) else s)

/-- FAR_LINK_UP within 50 µs (R639): the held requests are issued again. -/
def execFarLinkUp (q : Nat) (s : State) : Res :=
  .next (if q < s.cfg.farPorts then s.modFar q (fun f => { f with linkUp := true }) else s)

/-- Partitions with a region on a far port (R506). -/
def State.farParts (s : State) (q : Nat) : List Nat :=
  s.liveParts.filter (fun p => (s.partRegions p).any (fun r => decide (r.mode = 2) && decide (r.port = q)))

/-- A held request completes as a poisoned read or a discarded write (R371). -/
def farGiveUp (q : Nat) (r : FarReq) (s : State) : State :=
  if r.write.isSome then
    match s.farWaiting r.stream q r.addr true with
    | some (j, _, _) => dropLine r.stream j s
    | none => s
  else poisonStream r.stream .farUe (farDeliver q r (List.replicate 64 0) true s)

/-- FAR_LINK_TIMEOUT after 50 µs (R371, R639). -/
def execFarLinkTimeout (q : Nat) (s : State) : Res :=
  let f := s.farPort q
  if f.linkUp || decide (s.cfg.farPorts ≤ q) then .next s
  else
    let s1 := f.reqs.foldl (fun t r => farGiveUp q r t) (s.setFar q { f with reqs := [] })
    .next (postEach (s.farParts q) 0x57 (payloadOf noFig q 0) s1)

end Sys2Proof.Machine
end

