-- ==== Sys2Proof/Machine/Intrusive.lean ====
section
/-! DEFINITION. Port states (R417 to R420, R676) and the intrusive items of Intermissions (R71 to R76, R496, R497). -/

namespace Sys2Proof.Machine

/-! ### Ports -/

/-- Lanes in a lane mask. -/
def laneCount (m : BitVec 8) : Nat := ((List.range 8).filter (fun i => m.getLsbD i)).length

/-- The port as its state machine comes UP on `lanes` (R415, R419). -/
def Port.raised (q : Port) (lanes : BitVec 8) : Port :=
  { q with
    state := .up, lanes := lanes, width := laneCount lanes, relocking := false,
    rxSeq := 0, ackSeen := 0xFFF, txSeq := 0, discarding := false, sent := [], replays := 0, rxBytes := [] }

/-- What waits for port `n` goes out (R423). -/
def portFlow (n : Nat) (s : State) : State :=
  let s1 := pump n (s.port n).out.length s
  match s1.portOwner n with
  | some p => retryFrames p s1
  | none => s1

/-- A port comes UP on the lanes of a mask, with its flit sequence begun anew; waiting frames are tried again (R417, R420). -/
def portUp (n : Nat) (lanes : BitVec 8) (s : State) : State :=
  portFlow n (withHealth (fun s => s.modPort n (fun q => q.raised lanes)) s)

/-- The port as it FAILS. -/
def Port.lost (q : Port) : Port := { q with state := .failed, retrainQueued := false, relocking := false, rxBytes := [] }

/-- LINK_FAILED to the partition of port `n` (R506). -/
def tellFailed (n : Nat) (s : State) : State :=
  match s.portOwner n with
  | some p => postEvent p 0x70 (payloadOf noFig n 0) s
  | none => s

/-- A port becomes FAILED (R417, R419, R561, R676): LINK_FAILED to its partition. -/
def portFailed (n : Nat) (s : State) : State :=
  tellFailed n (withHealth (fun s => replaceCause 2 (s.modPort n Port.lost)) s)

/-- Fence a port (R417, R418, R420): it leaves every route, its frames not received whole by the peer go out over the remaining ports,
and for a cause other than LOCK its retraining, or for cause LANE its lane remap, is queued. -/
def fencePort (n cause got : Nat) (s : State) : State :=
  if !(s.port n).state.carries then s
  else
    let s1 := withHealth (fun s => s.modPort n (fun q => { q with
      state := .fenced, cause := cause, relocking := decide (cause = 1), discarding := false })) s
    let s2 := resend n got s1
    if cause = 1 then s2
    else if cause = 4 then queueItem (.laneRemap n) s2
    else queueItem (.port n) s2

/-- What training ends in, by the lanes that align (R676); a remap is queued for a half-width port. -/
def trainResult (n : Nat) (aligned : BitVec 8) (s : State) : State :=
  let low := decide (aligned &&& 0x0F = 0x0F)
  let high := decide (aligned &&& 0xF0 = 0xF0)
  if low && high then portUp n 0xFF s
  else if low then queueItem (.laneRemap n) (portUp n 0x0F s)
  else if high then queueItem (.laneRemap n) (portUp n 0xF0 s)
  else if aligned = 0 then s
  else portFailed n s

/-- PORT_RETRY_LIMIT: one flit has been replayed 16 times in succession (R418). -/
def execPortRetryLimit (n got : Nat) (s : State) : Res :=
  .next (if 16 ≤ (s.port n).replays then fencePort n 2 got s else s)

/-- PORT_FEC_LIMIT: more than 16 uncorrectable codewords in one Bar (R418). -/
def execPortFecLimit (n got : Nat) (s : State) : Res :=
  .next (if 16 < (s.port n).uncInBar then fencePort n 3 got s else s)

/-! ### Alignment markers -/

/-- The alignment marker of lane `l` (R642). -/
def markerOf (l : Nat) : List (BitVec 10) :=
  let id : BitVec 10 := 0x3C0 + BitVec.ofNat 10 l
  [0x2A5, 0x15A, 0x2A5, 0x15A, 0x2A5, 0x15A, id, ~~~id]

/-- A receiver has seen three markers of lane `l` at their spacing of 16,384 codewords (R642). -/
def laneAligned (x : LaneWatch) (l : Nat) : Bool :=
  let m := x.markers.drop (x.markers.length - 3)
  x.lock && decide (m.length = 3) && m.all (fun y => decide (y.2 = markerOf l)) && (m.drop 1).all (fun y => decide (y.1 = 16384))

/-- A lane has lost lock: the PHY says so, or four markers in a row are missing (R418, R642). -/
def laneLost (x : LaneWatch) : Bool := !x.lock || decide (4 ≤ x.missing)

/-- The lanes that align. -/
def alignedLanes (ls : List LaneWatch) : BitVec 8 :=
  BitVec.ofNat 8 ((ls.take 8).zipIdx.map (fun x => b2n (laneAligned x.1 x.2) * 2 ^ x.2)).sum

/-- PORT_LOCK_LOSS (R418, R642): a lane in use has lost lock. -/
def execPortLockLoss (n : Nat) (w : LockWatch) (s : State) : Res :=
  .next (if w.lanes.zipIdx.any (fun x => (s.port n).lanes.getLsbD x.2 && laneLost x.1) then fencePort n 1 w.got s else s)

/-- PORT_PEER_FENCE (R418). -/
def execPortPeerFence (n got : Nat) (s : State) : Res := .next (fencePort n 5 got s)

/-- PORT_RELOCK within 100 µs (R417). -/
def execPortRelock (n : Nat) (s : State) : Res :=
  let q := s.port n
  .next (if q.state = .fenced ∧ q.relocking then portUp n q.lanes s else s)

/-- PORT_RELOCK_TIMEOUT (R417, R418): the port stays FENCED and its retraining is queued. -/
def execPortRelockTimeout (n : Nat) (s : State) : Res :=
  let q := s.port n
  .next (if q.state = .fenced ∧ q.relocking then queueItem (.port n) (s.setPort n { q with relocking := false }) else s)

/-- LINK_CALIBRATION (R38, R418, R419): `lowLanes` are the lanes below their margin limit; a port whose lanes in use are all below it is
fenced for MARGIN, one with some below it for LANE. -/
def execLinkCalibration (n : Nat) (lowLanes : BitVec 8) (got : Nat) (s : State) : Res :=
  let q := s.port n
  let low := lowLanes &&& q.lanes
  .next (if low = 0 then s else if low = q.lanes then fencePort n 6 got s else fencePort n 4 got s)

/-- PORT_TRAIN_RETRY: a port without a peer trains again (R642, R676). -/
def execPortTrainRetry (n : Nat) (lanes : List LaneWatch) (s : State) : Res :=
  .next (if (s.port n).state = .training then trainResult n (alignedLanes lanes) s else s)

/-- TRAINING_FRAME (R450, R632, R676): the peer's node ID and whether it is a timing master. -/
def execTrainingFrame (n node : Nat) (master : Bool) (s : State) : Res :=
  let q := s.port n
  .next (if q.state = .training ∨ q.state.carries then s.setPort n { q with peer := node % 1024, master := master } else s)

/-! ### Starting an item -/

/-- The budget of an item in ps (R72). -/
def Intrusive.budget (it : Intrusive) : Nat :=
  match it with
  | .channel _ => 600 * 10 ^ 6
  | .port _ => 4000 * 10 ^ 6
  | .staging _ => 100 * 10 ^ 6
  | .laneRemap _ => 800 * 10 ^ 6

/-- Partition `p` leaves room for `budget` ps of intrusive work: it runs no Choreography (R75), or an Intermission in progress has that
much left at the locked period (R71, R72). -/
def State.roomFor (s : State) (p budget : Nat) : Bool :=
  match (s.part p).run, s.iterBeat p with
  | none, _ => true
  | some r, some b =>
    r.active.any (fun a =>
      match (s.part p).figure a.fig with
      | some f => decide (f.hdr.kind = 2) && decide (b < f.hdr.deadline) && decide (budget ≤ (f.hdr.deadline - b) * s.beat.periodPs)
      | none => false)
  | some _, none => false

/-- A port may stop for its item: nothing it sent is unacknowledged. -/
def Port.quiet (q : Port) : Bool := !q.state.carries || q.sent.isEmpty

/-- An item can start: every partition leaves room, a port has nothing unacknowledged, and the stack has not tripped (R354). -/
def State.itemReady (s : State) (it : Intrusive) : Bool :=
  (s.itemUsers it).all (fun p => s.roomFor p it.budget)
    && (match it with
        | .port n => (s.port n).quiet
        | .laneRemap n => (s.port n).quiet
        | .channel ch => decide ((s.stackAt (ch / 32)).level ≠ 3)
        | .staging k => decide ((s.stackAt k).level ≠ 3))

/-- A port leaves service for its item (R417). -/
def startPortItem (n : Nat) (it : Intrusive) (s : State) : State :=
  if (s.port n).state = .failed then finishItem it true 6 s
  else
    resend n 0 (withHealth (fun s => s.modPort n (fun q => { q with state := .retraining, relocking := false, retrainQueued := false })) s)

/-- A started item takes its resource (R72, R353, R363, R365, R417). -/
def beginItem (it : Intrusive) (s : State) : State :=
  match it with
  | .channel ch =>
    if (s.channel ch).state = .failed then finishItem it true 4 s
    else
      let s1 := flushChannel ch (fun _ => true) s
      withHealth (fun s => s.modChannel ch (fun c =>
        { c with keep := decide (c.state ≠ .down), state := .retraining, retrainQueued := false })) s1
  | .port n => startPortItem n it s
  | .laneRemap n => startPortItem n it s
  | .staging _ => s

/-- INTERMISSION_ITEM_START (R71, R72, R75, R533): the first item of a partition's queue starts when no other of the queue runs and every
partition whose resources it touches leaves room. -/
def execIntermissionItemStart (p : Nat) (s : State) : Res :=
  let q := s.part p
  match q.items with
  | [] => .next s
  | x :: rest =>
    if !s.fwRunning || s.asleep || x.running || rest.any (·.running) || !s.itemReady x.item then .next s
    else .next (beginItem x.item (s.setPart p { q with items := { x with running := true } :: rest }))

/-- PORT_RETRAIN_DONE (R76, R417, R497). -/
def execPortRetrainDone (n : Nat) (ok : Bool) (s : State) : Res :=
  if (s.port n).state ≠ .retraining ∨ !s.itemRuns (.port n) then .next s
  else if ok then
    let lanes := (s.port n).lanes
    .next (finishItem (.port n) false 2 (portUp n (if lanes = 0 then 0xFF else lanes) s))
  else .next (finishItem (.port n) true 6 (portFailed n s))

/-- LANE_REMAP_DONE (R419): lanes 0 to 3 or lanes 4 to 7, whichever four are healthy; FAILED when neither are. -/
def execLaneRemapDone (n : Nat) (lowOk highOk : Bool) (s : State) : Res :=
  if (s.port n).state ≠ .retraining ∨ !s.itemRuns (.laneRemap n) then .next s
  else if lowOk then .next (finishItem (.laneRemap n) false 2 (portUp n 0x0F s))
  else if highOk then .next (finishItem (.laneRemap n) false 2 (portUp n 0xF0 s))
  else .next (finishItem (.laneRemap n) true 6 (portFailed n s))

/-! ### Requests -/

/-- The item that ITEM and UNIT name. -/
def itemOf (item unit : Nat) : Intrusive :=
  match item with
  | 0 => .channel unit
  | 1 => .port unit
  | 2 => .staging unit
  | _ => .laneRemap unit

/-- The unit of an item exists. -/
def State.itemExists (s : State) (it : Intrusive) : Bool :=
  match it with
  | .channel ch => decide (ch < s.cfg.channels)
  | .port n => decide (n < s.cfg.linkPorts)
  | .staging k => decide (k < s.cfg.hbmStacks)
  | .laneRemap n => decide (n < s.cfg.linkPorts)

/-- A command joins an item that is queued already (R497). -/
def joinItem (it : Intrusive) (w : Nat × BitVec 16) (s : State) : State :=
  [0, 1, 2, 3].foldl (fun t p => t.modPart p (fun q => { q with
    items := q.items.map (fun x => if x.item = it then { x with who := x.who ++ [w] } else x) })) s

/-- INTERMISSION_REQ (R71, R75, R492, R496, R497): channels and stacks need an administrative ring, ports their owner. -/
def execIntermissionReq (ring : Nat) (seq : BitVec 16) (s : State) : Res :=
  .next (runCommand ⟨0x115, false, false, false, [(0x18, 0, 2), (0x1C, 0, 8)]⟩ ring seq (fun p img s =>
    let it := itemOf (arg img 0x18 0 2) (arg img 0x1C 0 8)
    let port := match it with | .port n => some n | .laneRemap n => some n | _ => none
    if port.isNone && !s.ringAdmin ring then complete ring seq stDenied 0 0 s
    else if !s.itemExists it then complete ring seq stField 0 0 s
    else if (match port with | some n => decide (s.portOwner n ≠ some p) | none => false) then complete ring seq stPort 0 0 s
    else if s.itemQueued it then joinItem it (ring, seq) s
    else markQueued it true (s.modPart p (fun q => { q with items := q.items ++ [⟨it, [(ring, seq)], false⟩] }))) s)

end Sys2Proof.Machine
end

