-- ==== Sys2Proof/Machine/Host.lean ====
section
/-! DEFINITION. The Host Port (R522 to R524, R622 to R624, R653, R654): what a register offset names, which requester may reach it, and
the record of a refusal. -/

namespace Sys2Proof.Machine

/-- What an offset of the host window names, as far as admission goes (R522, R593, R653, R658 to R665). -/
inductive Target where
  | ident
  | block (w1c : Bool)
  | part (p : Nat)
  | link (n : Nat)
  | ring (r : Nat)
  | prot (stat : Bool)
  | intPart (p : Nat)
  | intAdmin
  | acct (p : Nat)
  | core (c : Nat)
  | setCounter (k : Nat)
  | port (n : Nat)
  | admin
  | debugWin
  | unassigned
  deriving DecidableEq, Repr

/-- The instance number of an offset in an array of `n` instances of `stride` bytes from `base`. -/
def instanceOf (off base stride n : Nat) : Option Nat :=
  if base ≤ off ∧ off < base + stride * n then some ((off - base) / stride) else none

/-- The first of several answers. -/
def firstSome {α : Type} (l : List (Option α)) : Option α := l.findSome? id

/-- The target of a register offset (R653, R654). -/
def State.target (s : State) (off : Nat) : Target :=
  let d := s.cfg
  let ps (base stride : Nat) := (instanceOf off base stride 4).map Target.part
  let part := firstSome [ps 0x1100 4, ps 0x1110 4, ps 0x1120 8, ps 0x1140 4, ps 0x1150 4, ps 0x4100 4, ps 0x6000 0x20, ps 0x40100 0x40, ps 0x100400 0x20]
  let other := firstSome [
    (instanceOf off 0x4000 4 d.linkPorts).map Target.link,
    (instanceOf off 0x10000 0x1000 16).map Target.ring,
    (instanceOf off 0x2000000 0x10000 16).map Target.ring,
    (instanceOf off 0x30000 4 4).map Target.intPart,
    (instanceOf off 0x100000 0x100 4).map Target.acct,
    ((instanceOf off 0x300000 0x80 d.cores).filter (fun c => s.setEnabled (c / 4))).map Target.core,
    ((instanceOf off 0x400000 0x100 d.cores).filter (fun c => s.setEnabled (c / 4))).map Target.core,
    ((instanceOf off 0x600000 0x40 d.sets).filter (fun k => s.setEnabled k)).map Target.setCounter,
    (instanceOf off 0x700000 0x20 d.linkPorts).map Target.port,
    (instanceOf off 0x500000 0x20 d.channels).map (fun _ => Target.admin),
    (instanceOf off 0x2040 4 d.hbmStacks).map (fun _ => Target.block false),
    (instanceOf off 0x2100 4 d.channels).map (fun _ => Target.block false)]
  if off < 0x1000 then .ident
  else
    match part, other with
    | some t, _ => t
    | none, some t => t
    | none, none =>
      if [0x1088, 0x2008, 0x40008].contains off then .block true
      else if [0x1000, 0x1004, 0x1008, 0x100C, 0x1010, 0x1014, 0x1080, 0x1084, 0x108C, 0x2000, 0x2004, 0x3000].contains off
          || [0x5000, 0x5004, 0x5008, 0x500C, 0x5010, 0x5014, 0x5018, 0x40000, 0x40004, 0x4000C, 0x40010].contains off then .block false
      else if 0x20000 ≤ off ∧ off < 0x30000 then .prot (decide (off = 0x20300) || decide (off = 0x20308))
      else if off = 0x30010 ∨ off = 0x30014 then .intAdmin
      else if (instanceOf off 0x200000 4 6).isSome || (instanceOf off 0x600400 4 4).isSome || (instanceOf off 0x700800 4 4).isSome then .admin
      else if 0x1000000 ≤ off ∧ off < 0x2000000 then .debugWin
      else .unassigned

/-- HOST_REQ of a requester (R514). -/
def State.reqAdmin (s : State) (req : Nat) : Bool := bit s.prot.hostReq.toNat (4 * req + 3)
def State.reqPart (s : State) (req : Nat) : Option Nat :=
  if bit s.prot.hostReq.toNat (4 * req + 2) then some (fld s.prot.hostReq.toNat (4 * req) 2) else none

/-- The firewall admits an access (R522). Requester 16 is the JTAG port, an administrator (R681). -/
def State.admits (s : State) (req off : Nat) (write : Bool) : Bool :=
  let adm := decide (req = 16) || (decide (req < 16) && s.reqAdmin req)
  let bound := if req < 16 then s.reqPart req else none
  let own (p : Option Nat) : Bool := p.isSome && decide (bound = p)
  let any := adm || bound.isSome
  if s.pins.phase = .testMode then false
  else if !s.prot.lock then !write && (decide (off < 0x1000) || decide (off = 0x20280) || decide (off = 0x20000))
  else
    match s.target off with
    | .ident => !write
    | .block w1c => any && (!write || (adm && w1c))
    | .part p => own (some p) || (adm && !write)
    | .link n => !write && (adm || own (s.portOwner n))
    | .ring r =>
      (adm && s.ringAdmin r && (s.ringOwner r).isSome)
        || (own (s.ringOwner r) && (!s.ringAdmin r || adm))
    | .prot stat => if write then adm && stat else any
    | .intPart p => !write && (adm || own (some p))
    | .intAdmin => adm && !write
    | .acct p => !write && (adm || own (some p))
    | .core c => adm || own (s.coreOwner c)
    | .setCounter k => adm || own (s.setOwner k)
    | .port n => adm || own (s.portOwner n)
    | .admin => adm
    | .debugWin => adm
    | .unassigned => any

/-- A refused access is recorded (R523, R524): the first since VALID was cleared, and their count. -/
def refuseAccess (req off : Nat) (write : Bool) (s : State) : State :=
  let t := s.prot
  let (n, o) := satAdd 16 t.hpfCount 1
  let s1 := { s with prot := { t with
    hpfValid := true
    hpfReq := if t.hpfValid then t.hpfReq else req % 16
    hpfWrite := if t.hpfValid then t.hpfWrite else write
    hpfAddr := if t.hpfValid then t.hpfAddr else BitVec.ofNat 26 off
    hpfCount := n
    hpfSat := t.hpfSat || o } }
  if o && !t.hpfSat then satAll 0x20300 s1 else s1

/-- The Host Port takes requests (R623): the block is out of reset. -/
def State.hostOpen (s : State) : Bool := decide (s.pins.phase = .running) || decide (s.pins.phase = .testMode)

/-- Perform `f` for requester `req` at an offset, if the firewall admits the access; the refusal is recorded otherwise. -/
def hostAccess (req off : Nat) (write : Bool) (f : State → State) (s : State) : State :=
  if !s.hostOpen then s
  else if s.admits req off write then f s
  else refuseAccess req off write s

end Sys2Proof.Machine
end

