-- ==== Sys2Proof/Machine/Boot.lean ====
section
/-! DEFINITION. Boot (R516 to R519, R629, R630, R648): the fuses, the images in board NVM, the boot record, the writes of the
protection records and of LOCK, and the choice of the Fremund image. -/

namespace Sys2Proof.Machine

/-! ### Fuses -/

/-- Fuse word `i` as read; unblown fuses read 0 (R648). -/
def State.fuse (s : State) (i : Nat) : BitVec 32 := kget 0 s.pins.fuses i

/-- KEY_HASH (R648). -/
def State.keyHash (s : State) : List Byte := (List.range 12).flatMap (fun i => leBytes 4 (s.fuse i).toNat)

/-- MIN_SVN: the ones of a thermometer code (R518, R648). -/
def State.minSvn (s : State) : Nat := ((List.range 32).filter (fun i => (s.fuse 12).getLsbD i)).length

/-! ### Images -/

/-- A digest as a byte string, its first byte the most significant. -/
def digestBytes (h : BitVec 384) : List Byte := (leBytes 48 h.toNat).reverse

/-- A measurement register set: byte i of the digest in bits [8i+7:8i] (R520). -/
def measureOf (h : List Byte) : BitVec 384 := BitVec.ofNat 384 (ofLe h)

/-- `n` bytes of a list from place `a`. -/
def cut (bs : List Byte) (a n : Nat) : List Byte := (bs.drop a).take n

/-- LENGTH of the image at NVM offset `a` (R517). -/
def State.imageLen (s : State) (a : Nat) : Nat := ofLe (s.nvmRead (a + 8) 4)

/-- The body of the image at NVM offset `a` (R517). -/
def State.imageBody (s : State) (a : Nat) : List Byte := s.nvmRead (a + 512) (s.imageLen a)

/-- The header's MAGIC, LENGTH and reserved fields are correct (R517, R519). -/
def headerGood (magic most : Nat) (h : List Byte) : Bool :=
  decide (ofLe (cut h 0 4) = magic) && decide (ofLe (cut h 8 4) ≤ most)
    && (cut h 0x0C 4 ++ cut h 0xA1 95 ++ cut h 0x160 160).all (fun b => decide (b = 0))

/-- The first test that the image at NVM offset `a` fails, as FAIL of BOOT_STAT; none where it verifies (R519, R520). -/
def State.imageFault (s : State) (magic most a : Nat) : Option Nat :=
  let h := s.nvmRead a 512
  let key := cut h 0x40 97
  if s.pins.nvmErr then some 9
  else if !headerGood magic most h then some 2
  else if s.keyHash.all (fun b => decide (b = 0)) then some 1
  else if digestBytes (sha384 key) ≠ s.keyHash then some 3
  else if ofLe (cut h 4 4) < s.minSvn then some 4
  else if !ecdsaP384 key (sha384 (h.take 256)) (cut h 0x100 96) then some 5
  else if digestBytes (sha384 (s.imageBody a)) ≠ cut h 0x10 48 then some 6
  else none

/-- A Fremund image at NVM offset `a` (R517). -/
def State.fwFault (s : State) (a : Nat) : Option Nat := s.imageFault 0x0A5E0B01 (6 * 2 ^ 20) a

/-! ### Protection records -/

/-- The 8-byte records of a protection body: offset and value (R517). -/
def protRecords (bs : List Byte) : List (Nat × Nat) :=
  (List.range (bs.length / 8)).map (fun i => (ofLe (cut bs (8 * i) 4), ofLe (cut bs (8 * i + 4) 4)))

/-- Replace 32 bits of `w` at bit `32 * i`. -/
def putWord (w i v : Nat) : Nat := w - fld w (32 * i) 32 * 2 ^ (32 * i) + v % 2 ^ 32 * 2 ^ (32 * i)

/-- A region with word `k` of its register group written (R342). -/
def MemRegion.put (r : MemRegion) (k v : Nat) : MemRegion :=
  match k with
  | 0 => { r with
      valid := bit v 31, mode := fld v 29 2, fw := bit v 28, part := fld v 26 2, set := fld v 22 4, port := fld v 21 1 }
  | 1 => { r with base := fld v 0 16 }
  | 2 => { r with caBase := fld v 0 16 }
  | _ => { r with size := fld v 0 16 }

/-- Write an RWL register of the protection area but PROT_LOCK; none where the offset names no such register (R509 to R515). -/
def Prot.put (t : Prot) (off v : Nat) : Option Prot :=
  match off with
  | 0x20004 => some { t with setPart := BitVec.ofNat 32 v }
  | 0x20008 => some { t with setEn := BitVec.ofNat 16 v }
  | 0x20010 => some { t with portPart := BitVec.ofNat 96 (putWord t.portPart.toNat 0 v) }
  | 0x20014 => some { t with portPart := BitVec.ofNat 96 (putWord t.portPart.toNat 1 v) }
  | 0x20018 => some { t with portPart := BitVec.ofNat 96 (putWord t.portPart.toNat 2 v) }
  | 0x2001C => some { t with portEn := BitVec.ofNat 48 (putWord t.portEn.toNat 0 v) }
  | 0x20020 => some { t with portEn := BitVec.ofNat 48 (putWord t.portEn.toNat 1 (v % 2 ^ 16)) }
  | 0x20030 => some { t with ringCfg := BitVec.ofNat 64 (putWord t.ringCfg.toNat 0 v) }
  | 0x20034 => some { t with ringCfg := BitVec.ofNat 64 (putWord t.ringCfg.toNat 1 v) }
  | 0x20040 => some { t with hostReq := BitVec.ofNat 64 (putWord t.hostReq.toNat 0 v) }
  | 0x20044 => some { t with hostReq := BitVec.ofNat 64 (putWord t.hostReq.toNat 1 v) }
  | 0x20100 => some { t with
      dbgPart := BitVec.ofNat 4 (fld v 8 4), dbgJtag := bit v 3, dbgSpm := bit v 2, dbgHalt := bit v 1, dbgAcm := bit v 0 }
  | _ => none

/-- Write an RWL register of the PMU (R553). -/
def Pmu.put (u : Pmu) (off v : Nat) : Option Pmu :=
  match off with
  | 0x500C => some { u with vnom := fld v 16 12, resetMv := fld v 8 8, warnMv := fld v 0 8 }
  | 0x5010 => some { u with monEn := BitVec.ofNat 15 (fld v 1 15) }
  | 0x5014 => some { u with dieTripC := fld v 8 8, dieHotC := fld v 0 8 }
  | _ => none

/-- Write an RWL register other than PROT_LOCK; none where the offset names no such register (R519, R655, R659). -/
def writeRwl (off v : Nat) (s : State) : Option State :=
  if 0x21000 ≤ off ∧ off < 0x21400 then
    (if off % 4 ≠ 0 then none
     else
       let n := (off - 0x21000) / 16
       some (s.setRegion n ((s.region n).put (off % 16 / 4) v)))
  else
    match s.prot.put off v, s.pmu.put off v with
    | some t, _ => some { s with prot := t }
    | none, some u => some { s with pmu := u }
    | none, none =>
      match off with
      | 0x20800 => some { s with mem := { s.mem with bwShare := BitVec.ofNat 32 v } }
      | 0x20804 => some { s with mem := { s.mem with farShare := BitVec.ofNat 7 v } }
      | 0x40010 => some { s with beat := { s.beat with standalone := bit v 0 } }
      | _ => none

/-- Write the records in order; none at the first that names no RWL register. -/
def writeRecords (rs : List (Nat × Nat)) (s : State) : Option State :=
  match rs with
  | [] => some s
  | r :: rest =>
    match writeRwl r.1 r.2 s with
    | some t => writeRecords rest t
    | none => none

/-! ### LOCK -/

/-- Two half-open ranges meet. -/
def spansMeet (a b : Nat × Nat) : Bool := decide (a.1 < b.2) && decide (b.1 < a.2)

/-- Channel addresses of a region (R343). -/
def MemRegion.caSpan (r : MemRegion) : Nat × Nat := (r.caBase * 2 ^ 21, (r.caBase + r.size) * 2 ^ 21)

/-- Far addresses of a FAR region (R343). -/
def MemRegion.farSpan (r : MemRegion) : Nat × Nat := (r.base * 2 ^ 25, (r.base + r.size) * 2 ^ 25)

/-- Two VALID regions overlap (R343). -/
def regionsMeet (d : Design) (a b : MemRegion) : Bool :=
  if a.mode = 2 ∨ b.mode = 2 then decide (a.mode = b.mode) && decide (a.port = b.port) && spansMeet a.farSpan b.farSpan
  else
    spansMeet (regionSpan d a) (regionSpan d b)
      || (spansMeet a.caSpan b.caSpan && (regionReach d a).any (fun c => (regionReach d b).contains c))

/-- A VALID region keeps R343, but for overlaps. A channel is taken to hold the largest stack's share, as LOCK precedes
training (R18, R340, log 40). -/
def State.regionFits (s : State) (r : MemRegion) : Bool :=
  decide (r.mode ≠ 3) && decide (r.size ≠ 0) &&
    (if r.mode = 2 then decide (r.farSpan.2 ≤ 2 * 10 ^ 12) && decide (r.port < s.cfg.farPorts)
     else
       decide ((regionSpan s.cfg r).2 ≤ 2 ^ 40) && decide (r.caSpan.2 ≤ 4 * 10 ^ 9)
         && (decide (r.mode = 0) || (decide (r.set < s.cfg.sets) && (r.fw || decide (s.setOwner r.set = some r.part)))))

/-- The first VALID region that breaks R343. -/
def State.badRegion (s : State) : Option Nat :=
  (List.range 64).find? (fun n =>
    let r := s.region n
    r.valid && (!s.regionFits r
      || (List.range 64).any (fun m => decide (m ≠ n) && (s.region m).valid && regionsMeet s.cfg r (s.region m))))

/-- The partition that a 4-bit field of RING_CFG or HOST_REQ names (R513, R514). -/
def nibblePart (w i : Nat) : Nat := fld w (4 * i) 2

/-- The first failing check of a write of 1 to LOCK: REFUSE and INDEX (R516). -/
def State.lockRefusal (s : State) : Option (Nat × Nat) :=
  let t := s.prot
  let rc := t.ringCfg.toNat
  let hr := t.hostReq.toNat
  let first (n : Nat) (f : Nat → Bool) := (List.range n).find? f
  firstSome [
    (s.badRegion).map (fun i => (1, i)),
    (first 16 (fun k => t.setEn.getLsbD k && decide (s.cfg.sets ≤ k))).map (fun i => (2, i)),
    (first 48 (fun n => t.portEn.getLsbD n && (decide (s.cfg.linkPorts ≤ n) || !s.partExists (fld t.portPart.toNat (2 * n) 2)))).map (fun i => (3, i)),
    (first 16 (fun r => (bit rc (4 * r + 2) && !s.partExists (nibblePart rc r)) || (bit rc (4 * r + 3) && !bit rc (4 * r + 2)))).map (fun i => (4, i)),
    (first 16 (fun q => bit hr (4 * q + 2) && !s.partExists (nibblePart hr q))).map (fun i => (5, i)),
    (first 4 (fun p => s.partExists p && !(List.range 16).any (fun r => decide (s.ringOwner r = some p)))).map (fun i => (6, i)),
    (if (List.range 16).any (fun q => bit hr (4 * q + 3)) && (List.range 16).any (fun r => bit rc (4 * r + 2) && bit rc (4 * r + 3)) then none
     else some (7, 0)),
    (if s.pmu.resetMv ≤ s.pmu.warnMv then some (8, 0) else if s.pmu.dieTripC ≤ s.pmu.dieHotC then some (8, 1) else none)]

/-! ### The boot record -/

/-- A boot record (R629): its generation and per slot its state and length. -/
structure BootRec where
  gen    : Nat
  stateA : Nat
  stateB : Nat
  lenA   : Nat
  lenB   : Nat
  deriving DecidableEq, Repr

/-- The 32 bytes of a boot record (R629). -/
def BootRec.bytes (r : BootRec) : List Byte :=
  let b := leBytes 4 0x0A5E0B00 ++ leBytes 4 1 ++ leBytes 4 r.gen ++ leBytes 1 r.stateA ++ leBytes 1 r.stateB ++ leBytes 2 0
    ++ leBytes 4 r.lenA ++ leBytes 4 r.lenB ++ leBytes 4 0
  b ++ leBytes 4 (crc32 b).toNat

/-- Copy `i` of the boot record, if it is valid (R630). -/
def State.bootCopy (s : State) (i : Nat) : Option BootRec :=
  let b := s.nvmRead (0x800 * i) 32
  if ofLe (cut b 0 4) = 0x0A5E0B00 ∧ ofLe (cut b 4 4) = 1 ∧ ofLe (cut b 0x1C 4) = (crc32 (b.take 28)).toNat then
    some ⟨ofLe (cut b 8 4), ofLe (cut b 12 1), ofLe (cut b 13 1), ofLe (cut b 16 4), ofLe (cut b 20 4)⟩
  else none

/-- The record in force and its copy: the valid copy with the larger GEN (R630). -/
def State.bootRec (s : State) : Option (Nat × BootRec) :=
  match s.bootCopy 0, s.bootCopy 1 with
  | some a, some b => if a.gen < b.gen then some (1, b) else some (0, a)
  | some a, none => some (0, a)
  | none, some b => some (1, b)
  | none, none => none

/-- Write a record into copy `i`; the reserved rest of the copy is 0 (R629). -/
def putBootRec (i : Nat) (r : BootRec) (s : State) : State := nvmWrite (0x800 * i) (r.bytes ++ List.replicate 2016 0) s

/-- Change the record in force: the other copy is written with GEN + 1 (R630). -/
def modBootRec (f : BootRec → BootRec) (s : State) : State :=
  match s.bootRec with
  | some (i, r) => putBootRec (1 - i) { f r with gen := (r.gen + 1) % 2 ^ 32 } s
  | none => s

/-- NVM offset of Fremund slot `i`: 0 A, 1 B (R627). -/
def fwSlotAt (i : Nat) : Nat := if i = 0 then 0x100000 else 0x900000

/-- STATE of slot `i`. -/
def BootRec.stateOf (r : BootRec) (i : Nat) : Nat := if i = 0 then r.stateA else r.stateB

/-- The record with slot `i` in state `v`. -/
def BootRec.setState (r : BootRec) (i v : Nat) : BootRec := if i = 0 then { r with stateA := v } else { r with stateB := v }

/-- The record with the length of slot `i`. -/
def BootRec.setLen (r : BootRec) (i n : Nat) : BootRec := if i = 0 then { r with lenA := n } else { r with lenB := n }

/-- The slot in a state: 1 ACTIVE, 2 PENDING, 3 TRIAL. -/
def BootRec.slotIn (r : BootRec) (v : Nat) : Option Nat := [0, 1].find? (fun i => decide (r.stateOf i = v))

/-! ### Choosing the Fremund image -/

/-- What step 4 of boot ends in: the slot to run, whether it is a trial, LAST_UPDATE and the changed NVM, or a cause to stop. -/
inductive Chosen where
  | run (slot : Nat) (trial : Bool) (last : Nat) (s : State)
  | stop (cause : Nat)
  deriving DecidableEq, Repr

/-- Run the ACTIVE image of a record, with the change its outcome makes (R485). -/
def State.runActive (s : State) (r : BootRec) (last : Nat) (f : BootRec → BootRec) : Chosen :=
  match r.slotIn 1 with
  | none => .stop 2
  | some i =>
    match s.fwFault (fwSlotAt i) with
    | some c => .stop c
    | none => .run i false last (if last = 0 then s else modBootRec f s)

/-- With no valid record: slot A, then slot B, and a record that names the first that verifies (R630). -/
def State.runFirst (s : State) : Chosen :=
  let named (i : Nat) : State :=
    putBootRec 0 ((BootRec.setState ⟨1, 0, 0, 0, 0⟩ i 1).setLen i (s.imageLen (fwSlotAt i) + 512)) s
  match s.fwFault (fwSlotAt 0), s.fwFault (fwSlotAt 1) with
  | none, _ => .run 0 false 0 (named 0)
  | some _, none => .run 1 false 0 (named 1)
  | some _, some c => .stop c

/-- Choose the Fremund image (R485, R630). -/
def State.chooseImage (s : State) : Chosen :=
  match s.bootRec with
  | none => s.runFirst
  | some (_, r) =>
    match r.slotIn 3, r.slotIn 2 with
    | some t, _ => s.runActive r 3 (fun r => r.setState t 0)
    | none, some i =>
      (match s.fwFault (fwSlotAt i) with
       | none => .run i true 1 (modBootRec (fun r => r.setState i 3) s)
       | some _ => s.runActive r 2 (fun r => r.setState i 0))
    | none, none => s.runActive r 0 id

/-! ### The sequence -/

/-- Boot code stops: the cause is recorded and INT_FATAL asserted (R519, R646). -/
def bootStop (cause : Nat) (s : State) : State :=
  { s with prot := { s.prot with bootFail := cause }, fatal := { s.fatal with bootStop := true } }

/-- Steps 4 and 5 of R518: the chosen image is loaded into the control cores' SRAM and runs (R34, R480, R520). -/
def loadFremund (slot : Nat) (trial : Bool) (last : Nat) (s : State) : State :=
  let a := fwSlotAt slot
  { s with
    prot := { s.prot with bootStage := 5, fwMeasure := measureOf (s.nvmRead (a + 0x10) 48) }
    fw := { s.fw with
      state := .running, slot := decide (slot = 1), trial := trial, lastUpdate := last
      version := Config.fwVersion (s.imageBody a), sram := s.imageBody a }
    fatal := { s.fatal with supply := false } }

/-- Steps 4 and 5 of R518. -/
def bootFremund (s : State) : State :=
  match s.chooseImage with
  | .run slot trial last t => loadFremund slot trial last t
  | .stop c => bootStop c s

/-- A write of 1 to LOCK: set, or refused with its cause (R516). -/
def tryLock (s : State) : State × Bool :=
  match s.lockRefusal with
  | some (c, i) => ({ s with prot := { s.prot with refuse := c, refIndex := i } }, false)
  | none => ({ s with prot := { s.prot with lock := true } }, true)

/-- Note the last step of R518 completed. -/
def bootStep (n : Nat) (s : State) : State := { s with prot := { s.prot with bootStage := n } }

/-- Boot (R518), once the fuses are read: from a block reset on, LOCK being 0 (R510). -/
def runBoot (s : State) : State :=
  if s.prot.lock then s
  else
  let s1 := bootStep 1 { s with prot := { s.prot with svnMin := s.minSvn } }
  match s1.imageFault 0x0A5E0B02 (2 ^ 16) 0x10000 with
  | some c => bootStop c s1
  | none =>
    match writeRecords (protRecords (s1.imageBody 0x10000)) s1 with
    | none => bootStop 7 s1
    | some s2 =>
      let s3 := bootStep 2 { s2 with prot := { s2.prot with protMeasure := measureOf (s1.nvmRead 0x10010 48) } }
      match tryLock s3 with
      | (s4, false) => bootStop 8 s4
      | (s4, true) => bootFremund (bootStep 3 s4)

/-- FUSE_ACK (R518, R648): the word that FUSE_ADDR names is stored, and the next one asked for: the repair words during reset, then in
step 1 of boot the key words; boot runs on from the last of them. -/
def execFuseAck (word : BitVec 32) (s : State) : Res :=
  let p := s.pins
  if !p.fuseReq then .next s
  else
    let p1 := { p with fuses := kset 0 p.fuses p.fuseAddr word, fuseAddr := p.fuseAddr + 1 }
    if p.fuseAddr = 271 then .next { s with pins := { p1 with fuseReq := decide (p.phase = .running), fuseAddr := 0 } }
    else if p.fuseAddr = 13 then .next (runBoot { s with pins := { p1 with fuseReq := false } })
    else .next { s with pins := p1 }

end Sys2Proof.Machine
end

