-- ==== Sys2Proof/Machine/Links.lean ====
section
/-! DEFINITION. The flit layer (R413 to R416), credits and probes (R433, R439), and the fabric commands (R421 to R425, R437, R439, R449,
R450, R502). -/

namespace Sys2Proof.Machine

/-! ### Flits -/

/-- The flit is good: its codewords were corrected and its CRC holds (R413, R414). -/
def flitOk (f : Flit) : Bool :=
  !f.fecBad && decide (f.content.length = 1016)
    && decide (fld f.trailer.toNat 0 32 = (crc32 (f.content ++ leBytes 4 (fld f.trailer.toNat 32 32))).toNat)

/-- Bytes of the frame whose first 32 bytes are `h` (R416, R429, R633); none for fill. -/
def frameBytes (h : Nat) : Option Nat :=
  if fld h 0 8 ≠ 0 ∨ fld h 121 3 = 1 then some 32
  else if fld h 124 8 = 0 then none
  else some (32 + 64 * fld h 124 8)

/-- Take the whole frames off received bytes: the bytes they have, and the bytes of a frame still coming. -/
def takeFrames (n : Nat) (bs : List Byte) : Nat × List Byte :=
  match n with
  | 0 => (0, bs)
  | k + 1 =>
    if bs.length < 32 then (0, bs)
    else
      match frameBytes (ofLe (bs.take 32)) with
      | none => (0, [])
      | some m =>
        if bs.length < m then (0, bs)
        else
          let r := takeFrames k (bs.drop m)
          (m + r.1, r.2)

/-- What a good flit's trailer acknowledges (R415): the frames whose last flit is at or before ACK leave the replay buffer; NAK is a
replay, counted in LK_RETRY, and ACK's advance ends a succession of replays. -/
def takeAck (n : Nat) (ack : BitVec 12) (nak : Bool) (s : State) : State :=
  let q := s.port n
  let d := (ack - q.ackSeen).toNat
  let gone := decide (0 < d) && decide (d ≤ q.unacked)
  let q1 :=
    if gone then { q with sent := q.sent.filter (fun x => decide (d < (x.seq - q.ackSeen).toNat)), ackSeen := ack, replays := 0 } else q
  if nak then lkCount n 4 16 1 (s.setPort n { q1 with replays := q1.replays + 1 }) else s.setPort n q1

/-- A good flit in SEQ order is accepted (R415): its content joins the frame in progress. -/
def takeContent (n : Nat) (f : Flit) (s : State) : State :=
  let q := s.port n
  if BitVec.ofNat 12 (fld f.trailer.toNat 52 12) ≠ q.rxSeq then s
  else
    let q1 := { q with rxSeq := q.rxSeq + 1, discarding := false }
    if f.trailer.getLsbD 32 then s.setPort n q1
    else
      let r := takeFrames 64 (q.rxBytes ++ f.content)
      countFrameBytes n 1 r.1 (s.setPort n { q1 with rxBytes := r.2 })

/-- FLIT_RECEIVE (R413 to R416): a bad flit starts the discarding that ends with the replay; a good one acknowledges, and is accepted in
SEQ order. -/
def execFlitReceive (n : Nat) (f : Flit) (s : State) : Res :=
  if !(s.port n).state.carries then .next s
  else
    let s1 := if f.newUnc = 0 then s
      else lkCount n 3 16 f.newUnc (s.modPort n (fun q => { q with uncInBar := q.uncInBar + f.newUnc }))
    if !flitOk f then .next (s1.modPort n (fun q => { q with discarding := true }))
    else
      let s2 := takeAck n (BitVec.ofNat 12 (fld f.trailer.toNat 40 12)) (f.trailer.getLsbD 33) s1
      let s3 := takeContent n f s2
      .next (pump n (s3.port n).out.length s3)

/-! ### Credits and probes -/

/-- A frame of port `n` is handled for its partition: the port carries frames and no timing master is attached (R421, R632). -/
def State.frameFrom (s : State) (n : Nat) : Option Nat :=
  let q := s.port n
  if q.state.carries && !q.master then s.portOwner n else none

/-- Load group records into a plane (R437). -/
def setGroups (p : Nat) (gs : List (Nat × Group)) (s : State) : State :=
  s.modPart p (fun q => { q with plane := { q.plane with groups := gs.foldl (fun m g => kset none m g.1 (some g.2)) q.plane.groups } })

/-- A round trip exceeds half the locked beat period (R439). -/
def State.tooSlow (s : State) (rttNs : Nat) : Bool :=
  (decide (s.beat.lock = .locked) || decide (s.beat.lock = .holdover)) && decide (s.beat.periodPs < 2000 * rttNs)

/-- The GROUP_SET of partition `p` that probes group `g`. -/
def Part.probing (q : Part) (g : Nat) : Option (Waiting × List (Nat × Group) × List Nat × Nat) :=
  q.waiting.findSome? (fun w =>
    match w.what with
    | .groupSet gs ps r => if ps.contains g then some (w, gs, ps, r) else none
    | _ => none)

/-- The last echo of group `g` has returned to the root (R439): FABRIC_SLOW leaves the previous table in place; otherwise the records
load once every probe has returned. -/
def probeBack (p g rttNs : Nat) (s : State) : State :=
  match (s.part p).probing g with
  | none => s
  | some (w, gs, ps, r) =>
    let s1 := s.modPart p (fun q => { q with waiting := q.waiting.erase w })
    let rest := ps.filter (fun x => !decide (x = g))
    let m := max r rttNs
    if s.tooSlow rttNs then complete w.ring w.seq stFabricSlow 0 0 s1
    else if rest.isEmpty then complete w.ring w.seq stOk (m % 2 ^ 32) 0 (setGroups p gs s1)
    else addWait p w.ring w.seq (.groupSet gs rest m) s1

/-- Echoes that group `g`'s probe awaits here. -/
def setEchoes (p g n : Nat) (s : State) : State :=
  s.modPart p (fun q => { q with plane := { q.plane with echoes := kset 0 q.plane.echoes g n } })

/-- PROBE_FRAME (R438, R439): a probe goes on to the children, or at a leaf back to the parent as its echo; once every child has echoed,
the echo goes to the parent, and at the root the last one, with the time it took, answers the GROUP_SET (log 104). -/
def execProbeFrame (p g rttNs : Nat) (s : State) : Res :=
  let q := s.part p
  let x := kget none q.plane.groups g
  match kget 0 q.plane.echoes g with
  | 0 =>
    match x with
    | none => .next s
    | some x =>
      if x.root then .next s
      else if x.children.isEmpty then .next (sendToward p x.upNode (.probe g) s)
      else .next (flood p g [x.upNode] (.probe g) (setEchoes p g x.children.length s))
  | k + 1 =>
    let s1 := setEchoes p g k s
    if 0 < k then .next s1
    else if (q.probing g).isSome then .next (probeBack p g rttNs s1)
    else .next (match x with | some x => if x.root then s1 else sendToward p x.upNode (.probe g) s1 | none => s1)

/-! ### Table images -/

/-- The records of a table image with records of `size` bytes, and what follows them (R422). -/
def imageBody (table size : Nat) (bs : List Byte) : Option (Nat × List Byte × List Byte) :=
  let h := ofLe (bs.take 64)
  let n := fld h 0 16
  let recs := (bs.drop 64).take (n * size)
  if bs.length < 64 ∨ fld h 24 8 ≠ 1 ∨ fld h 16 8 ≠ table ∨ h / 2 ^ 64 ≠ 0 ∨ recs.length ≠ n * size ∨ fld h 32 32 ≠ (crc32 recs).toNat then none
  else some (n, recs, bs.drop (64 + n * size))

/-- Cut bytes into records. -/
def records (size n : Nat) (bs : List Byte) : List Nat :=
  match n with
  | 0 => []
  | k + 1 => ofLe (bs.take size) :: records size k (bs.drop size)

/-- The route records of an image (R422). -/
def routeImage (bs : List Byte) : Option (List Nat) :=
  match imageBody 1 8 bs with
  | some (n, recs, _) =>
    let rs := records 8 n recs
    if rs.all (fun r => fld r 56 7 == 0) then some rs else none
  | none => none

/-- The group records of an image (R437). -/
def groupImage (bs : List Byte) : Option (List (Nat × Group)) :=
  match imageBody 2 32 bs with
  | some (n, recs, tail) =>
    let nodes := records 2 (tail.length / 2) tail
    allSome ((records 32 n recs).map (fun r =>
      let base := fld r 184 16
      let cnt := fld r 178 6
      let cs := (nodes.drop base).take cnt
      let members := fld r 146 11
      if fld r 200 56 ≠ 0 ∨ fld r 10 136 ≠ 0 ∨ 48 < cnt ∨ members = 0 ∨ 1024 < members ∨ cs.length ≠ cnt ∨ cs.any (fun x => decide (1024 ≤ x))
      then none
      else some (fld r 0 8, ⟨bit r 9, bit r 8, members, fld r 157 11, fld r 168 10, cs⟩)))
  | none => none

/-- The bytes that a command names in the partition's memory; none after a read that stops (R494). -/
def State.imageAt (s : State) (p va n : Nat) : Option (List Byte) :=
  match s.readVa p va n with
  | .ok bs => some bs
  | _ => none

/-- What an uncorrectable byte of an image reports. -/
def imageLost (p va n : Nat) (s : State) : State :=
  match s.readVa p va n with
  | .bad l => fwUncorrectable p noFig l s
  | _ => s

/-! ### Fabric commands -/

/-- Set route records from node `first` on (R422). -/
def setRoutes (p first : Nat) (rs : List Nat) (s : State) : State :=
  s.modPart p (fun q => { q with plane := { q.plane with
    routes := rs.zipIdx.foldl (fun m x => kset 0 m (first + x.2) (BitVec.ofNat 64 x.1)) q.plane.routes } })

/-- A Choreography of partition `p` runs. -/
def State.chorRuns (s : State) (p : Nat) : Bool := (s.part p).run.isSome

/-- FABRIC_SET (R421, R422, R449, R502). -/
def execFabricSet (ring : Nat) (seq : BitVec 16) (s : State) : Res :=
  .next (runCommand ⟨0x400, false, false, true, [(0x18, 0, 10), (0x20, 0, 52), (0x28, 0, 32)]⟩ ring seq (fun p img s =>
    let va := arg img 0x20 0 52
    let n := arg img 0x28 0 32
    match (s.imageAt p va n).bind routeImage with
    | none => complete ring seq stField 0 0 (imageLost p va n s)
    | some rs =>
      if rs.length ≠ 1024 then complete ring seq stField 0 0 s
      else if s.chorRuns p then complete ring seq stFabricBusy 0 0 s
      else
        let s1 := setRoutes p 0 rs (s.modPart p (fun q => { q with
          plane := { q.plane with node := BitVec.ofNat 10 (arg img 0x18 0 10), valid := true } }))
        complete ring seq stOk 0 0 (retryFrames p s1)) s)

/-- ROUTE_SET (R423, R449, R502). -/
def execRouteSet (ring : Nat) (seq : BitVec 16) (s : State) : Res :=
  .next (runCommand ⟨0x401, false, false, true, [(0x18, 0, 10), (0x20, 0, 52), (0x28, 0, 32)]⟩ ring seq (fun p img s =>
    let first := arg img 0x18 0 10
    let va := arg img 0x20 0 52
    let n := arg img 0x28 0 32
    match (s.imageAt p va n).bind routeImage with
    | none => complete ring seq stField 0 0 (imageLost p va n s)
    | some rs =>
      if 1024 < first + rs.length then complete ring seq stField 0 0 s
      else complete ring seq stOk 0 0 (retryFrames p (setRoutes p first rs s))) s)

/-- GROUP_SET (R437, R439, R449, R502): tempo groups of which this device is the root are probed first. -/
def execGroupSet (ring : Nat) (seq : BitVec 16) (s : State) : Res :=
  .next (runCommand ⟨0x402, false, false, true, [(0x20, 0, 52), (0x28, 0, 32)]⟩ ring seq (fun p img s =>
    let va := arg img 0x20 0 52
    let n := arg img 0x28 0 32
    match (s.imageAt p va n).bind groupImage with
    | none => complete ring seq stField 0 0 (imageLost p va n s)
    | some gs =>
      let busy := match (s.part p).chor with
        | some c => s.chorRuns p && gs.any (fun g => decide (g.1 = c.tempoGroup))
        | none => false
      if busy then complete ring seq stFabricBusy 0 0 s
      else
        let probes := (gs.filter (fun g => g.2.tempo && g.2.root && !g.2.children.isEmpty)).map (·.1)
        if probes.isEmpty then complete ring seq stOk 0 0 (setGroups p gs s)
        else
          let s1 := (gs.filter (fun g => probes.contains g.1)).foldl (fun t g =>
            g.2.children.foldl (fun t c => sendToward p c (.probe g.1) t) (setEchoes p g.1 g.2.children.length t)) s
          addWait p ring seq (.groupSet gs probes 0) s1) s)

/-- A page of the range lies in the partition's table but in no HBM region of it (R386, R369). -/
def State.regionRefused (s : State) (p base n : Nat) : Bool :=
  (s.part p).space.leaves.any (fun x =>
    match x.2 with
    | some l => meets (x.1 * 2 ^ 25, x.1 * 2 ^ 25 + l.bytes) (base, base + n) && (l.far || !s.leafOk p l)
    | none => false)

/-- LB_SET (R424, R425, R449, R502). -/
def execLbSet (ring : Nat) (seq : BitVec 16) (s : State) : Res :=
  .next (runCommand ⟨0x403, false, false, true, [(0x18, 0, 12), (0x20, 0, 52), (0x28, 0, 21)]⟩ ring seq (fun p img s =>
    let lb := arg img 0x18 0 12
    let base := arg img 0x20 0 52
    let k := arg img 0x28 0 21
    let refused := s.regionRefused p base (4096 * k)
    if !s.ownsLb p lb || decide (base % 512 ≠ 0) || decide (k = 0) || decide (2 ^ 20 < k) || decide (2 ^ 52 < base + 4096 * k)
        || (!refused && !s.pinned p base (4096 * k)) then
      complete ring seq stField 0 0 s
    else if s.chorRuns p then complete ring seq stLbBusy 0 0 s
    else if refused then complete ring seq stRegion 0 0 s
    else complete ring seq stOk 0 0 (s.setLb lb ⟨true, base, 4096 * k⟩)) s)

/-- LB_CLEAR (R424, R425, R449); clearing the mirror buffer ends its mirror binding (R580). -/
def execLbClear (ring : Nat) (seq : BitVec 16) (s : State) : Res :=
  .next (runCommand ⟨0x404, false, false, true, [(0x18, 0, 12)]⟩ ring seq (fun p img s =>
    let lb := arg img 0x18 0 12
    if !s.ownsLb p lb then complete ring seq stField 0 0 s
    else if s.chorRuns p then complete ring seq stLbBusy 0 0 s
    else
      let s1 := if lb = s.mirrorLb p then s.modPart p (fun q => { q with snap := { q.snap with held := none } }) else s
      complete ring seq stOk 0 0 (s1.setLb lb LandBuf.reset)) s)

/-- TABLE_READ (R422, R449, R502): the plane's route or group image. -/
def execTableRead (ring : Nat) (seq : BitVec 16) (s : State) : Res :=
  .next (runCommand ⟨0x405, false, false, true, [(0x18, 0, 2)]⟩ ring seq (fun p img s =>
    match arg img 0x18 0 2 with
    | 1 => completeWith p ring seq img 0 (s.part p).plane.routeImage s
    | 2 => completeWith p ring seq img 0 (s.part p).plane.groupImage s
    | _ => complete ring seq stField 0 0 s) s)

/-- STATE codes of R417. -/
def PortState.code (x : PortState) : Nat :=
  match x with
  | .down => 0
  | .training => 1
  | .up => 2
  | .keepalive => 3
  | .fenced => 4
  | .retraining => 5
  | .failed => 6

/-- LINK_STAT of port `n` (R450). -/
def State.linkStat (s : State) (n : Nat) : Nat :=
  let q := s.port n
  let width := if q.state = .up then q.width else if q.state = .keepalive then 1 else 0
  q.peer + (s.portOwner n).getD 0 * 2 ^ 14 + b2n q.retrainQueued * 2 ^ 16 + q.cause * 2 ^ 17 + width * 2 ^ 20 + q.state.code * 2 ^ 24

/-- LINK_QUERY (R449, R450, R452, R502). -/
def execLinkQuery (ring : Nat) (seq : BitVec 16) (s : State) : Res :=
  .next (runCommand ⟨0x406, false, false, true, [(0x18, 0, 6)]⟩ ring seq (fun p img s =>
    let n := arg img 0x18 0 6
    if s.cfg.linkPorts ≤ n then complete ring seq stField 0 0 s
    else if s.portOwner n ≠ some p then complete ring seq stPort 0 0 s
    else
      let c := (s.port n).cnt
      completeWith p ring seq img (s.linkStat n) ([c.tx, c.rx, c.fecCorr, c.fecUnc, c.retry, c.crwait].flatMap (leBytes 4)) s) s)

end Sys2Proof.Machine
end

