-- ==== Sys2Proof/Machine/Collectives.lean ====
section
/-! DEFINITION. Bound transfers and deliveries (R426 to R435), flag votes (R217, R218, R441) and chain reductions (R443 to R447). -/

namespace Sys2Proof.Machine

/-! ### Landing buffers as memory -/

/-- A byte of a landing buffer, by its offset. -/
def State.lbByte (s : State) (p lb off : Nat) : Got :=
  match s.landPlace p (lb + off * 2 ^ 16) 1 with
  | some l => s.byteAt p l
  | none => .unmapped

/-- `n` bytes of a landing buffer. -/
def State.readLb (s : State) (p lb off n : Nat) : GotAll :=
  match n with
  | 0 => .ok []
  | k + 1 =>
    match s.lbByte p lb off with
    | .unmapped => .unmapped
    | .bad l => .bad l
    | .ok b =>
      match s.readLb p lb (off + 1) k with
      | .ok bs => .ok (b :: bs)
      | r => r

/-- Land one piece of a line, through the Write-Combining Buffer (R425, R430). -/
def landPiece (p va : Nat) (bs : List Byte) (s : State) : State :=
  match s.locVa p va with
  | some (.hbm ch ca) =>
    if s.serve p ch = .lost then lostWrite ch ca noFig [p] s
    else wcbAccept ch (ca / 64) p true (bs.zipIdx.map (fun x => (ca % 64 + x.2, x.1))) s
  | _ => s

/-- Land bytes in a landing buffer. -/
def landBytes (p lb off : Nat) (bs : List Byte) (s : State) : State :=
  (linePieces ((s.landBuf lb).base + off) bs).foldl (fun t x => landPiece p x.1 x.2 t) s

/-! ### Delivery headers and sending -/

/-- A delivery's header (R429) with TTL 15. -/
def deliveryHeader (kind lb off xid : Nat) (mc : Bool) (dest src : Nat) (data : List Byte) : BitVec 256 :=
  BitVec.ofNat 256 ((if mc then dest * 2 ^ 108 else dest * 2 ^ 88) + src * 2 ^ 98 + b2n mc * 2 ^ 116 + 15 * 2 ^ 117 + kind * 2 ^ 121
    + data.length / 64 * 2 ^ 124 + xid * 2 ^ 132 + lb * 2 ^ 148 + off * 2 ^ 160 + (crc32 data).toNat * 2 ^ 224)

/-- Send a delivery toward a node; its data bytes are counted in LINK_BYTES (R529). -/
def sendData (p node : Nat) (h : BitVec 256) (data : List Byte) (s : State) : State :=
  let s1 := if (kget 0 (s.part p).plane.routes node).getLsbD 63 then acctAdd p 3 data.length s else s
  sendToward p node (.delivery h data) s1

/-- Send a delivery to every tree neighbour of a group but those listed (R438). -/
def floodData (p group : Nat) (but : List Nat) (h : BitVec 256) (data : List Byte) (s : State) : State :=
  match kget none (s.part p).plane.groups group with
  | none => s
  | some g => (g.neighbours.filter (fun n => !but.contains n)).foldl (fun t n => sendData p n h data t) s

/-- Bytes cut into deliveries of at most 8 KiB (R429): offsets and data. -/
def deliveries (bs : List Byte) : List (Nat × List Byte) :=
  (List.range (ceilDiv bs.length 8192)).map (fun i => (8192 * i, (bs.drop (8192 * i)).take 8192))

/-- Send bytes as deliveries in ascending offset. -/
def sendAll (p kind lb off xid : Nat) (mc : Bool) (dest : Nat) (bs : List Byte) (s : State) : State :=
  let src := (s.part p).plane.node.toNat
  (deliveries bs).foldl (fun t d =>
    let h := deliveryHeader kind lb (off + d.1) xid mc dest src d.2
    if mc then floodData p dest [] h d.2 t else sendData p dest h d.2 t) s

/-! ### Transfers -/

/-- A chain whose result a transfer carries is complete (R443). -/
def chainsDone (c : Chor) (xid : Nat) : Bool :=
  c.chains.all (fun k => !(k.result.getLsbD 63 && decide (fld k.result.toNat 0 16 = xid)) || decide (ceilDiv k.rows k.segRows ≤ k.done))

/-- Take units from credit counts (R434). -/
def takeCredits (p : Nat) (nodes : List Nat) (lb units : Nat) (s : State) : State :=
  nodes.foldl (fun t n => t.modPart p (fun q => { q with plane := { q.plane with
    credits := kmod none q.plane.credits (4096 * n + lb) (fun v => some (v.getD 0 - units)) } })) s

/-- Note a transfer as issued. -/
def markIssued (p xid : Nat) (s : State) : State :=
  s.modPart p (fun q => { q with chor := q.chor.map (fun c => { c with
    xfers := c.xfers.map (fun x => if x.xferId = xid then { x with issued := true } else x) }) })

/-- The source bytes of a transfer (R426, R428). -/
def State.xferSource (s : State) (p : Nat) (x : Xfer) : GotAll :=
  if x.srcLb then s.readLb p (fld x.src 0 12) (fld x.src 16 32) x.bytes else s.readVa p x.src x.bytes

/-- A transfer may issue (R428, R434): its beat has come, its source is valid and its credits are held. -/
def State.xferReady (s : State) (p : Nat) (c : Chor) (x : Xfer) : Bool :=
  !x.issued && (match s.iterBeat p with | some b => decide (x.issue ≤ b) | none => false)
    && s.sourceValid p x && chainsDone c x.xferId && s.creditsHeld p x

/-- TRANSFER_ISSUE (R59, R219, R428, R429, R434): deliveries of at most 8 KiB, or one null delivery. A source that is uncorrectable
stops the Choreography. -/
def execTransferIssue (p xid : Nat) (s : State) : Res :=
  match (s.part p).chor with
  | none => .next s
  | some c =>
    match c.xfers.find? (fun x => decide (x.xferId = xid)) with
    | none => .next s
    | some x =>
      if !s.xferReady p c x then .next s
      else
        let s1 := markIssued p xid (takeCredits p (s.xferNodes p x) x.lb (xferUnits x) s)
        if x.isNull then
          let h := deliveryHeader 1 x.lb x.offset xid x.mc x.dest (s.part p).plane.node.toNat []
          .next (if x.mc then floodData p x.dest [] h [] s1 else sendData p x.dest h [] s1)
        else
          match s.xferSource p x with
          | .ok bs => .next (sendAll p 0 x.lb x.offset xid x.mc x.dest bs (acctAdd p 2 x.bytes s1))
          | .bad l => .next (fremundStop p 0x50 (fwUncorrectable p x.srcFig l s))
          | .unmapped => .next s

/-! ### Deliveries -/

/-- A discarded delivery (R430): counted, and reported once per Bar. -/
def unbound (p src xid : Nat) (s : State) : State :=
  let seen := (s.part p).notes.unbound
  let s1 := ceCount 0 (s.modPart p (fun q => { q with notes := { q.notes with unbound := true } }))
  if seen then s1 else postEvent p 0x73 (payloadOf noFig 0 (src + xid * 2 ^ 16)) s1

/-- Change a binding of partition `p`. -/
def modBinding (p src xid : Nat) (f : Binding → Binding) (s : State) : State :=
  s.modPart p (fun q => { q with chor := q.chor.map (fun c => { c with
    bindings := c.bindings.map (fun b => if b.srcNode = src ∧ b.xferId = xid then f b else b) }) })

/-- A DCRC failure (R432): counted, the binding poisoned, LINK_DATA_ERROR, and the consumer aborts or the Choreography stops. -/
def dataError (p : Nat) (b : Binding) (s : State) : State :=
  let s1 := modBinding p b.srcNode b.xferId (fun b => { b with poisoned := true }) (ceCount 1 s)
  let s2 := postEvent p 0x74 (payloadOf b.consumer 0 (b.srcNode + b.xferId * 2 ^ 16)) s1
  if ((s.part p).active b.consumer).isSome then askAbort p b.consumer .linkData s2 else fremundStop p 0x74 s2

/-- Data lies in a binding's range and in the landing buffer it names, and does not exceed its bytes (R430). -/
def State.fitsBinding (s : State) (b : Binding) (lb off n : Nat) : Bool :=
  decide (lb = b.lb) && decide (b.offset ≤ off) && decide (off + n ≤ b.offset + b.bytes) && decide (b.landed + n ≤ b.bytes)
    && (s.landBuf lb).isSet && decide (off + n ≤ (s.landBuf lb).size)

/-- A DATA delivery fits the mirror binding of partition `p` (R580, R581): from the mirrored node, into the half of the mirror buffer that
does not hold its latest complete mirror. -/
def State.mirrorFits (s : State) (p src lb kind off n : Nat) : Bool :=
  match (s.part p).snap.held with
  | none => false
  | some m =>
    let half := (s.landBuf lb).size / 2
    let base := if m.complete then (1 - m.half) * half else 0
    decide (src = m.node) && decide (lb = s.mirrorLb p) && (s.landBuf lb).isSet && decide (kind = 0) && decide (0 < n) && decide (n ≤ 8192)
      && decide (base ≤ off) && decide (off + n ≤ base + half)

/-- Land a mirror delivery, or discard one whose DCRC fails (R432, R581). -/
def landMirror (p xid lb off h : Nat) (data : List Byte) (s : State) : State :=
  if fld h 224 32 ≠ (crc32 data).toNat then ceCount 1 s
  else
    (landBytes p lb off data (acctAdd p 3 data.length s)).modPart p (fun q => { q with snap := { q.snap with
      held := q.snap.held.map (fun m =>
        let m1 := if m.next = xid then m else { m with next := xid, landed := 0, header := false }
        { m1 with landed := m1.landed + data.length, header := m1.header || decide (off % ((s.landBuf lb).size / 2) = 0) }) } })

/-- A delivery for this device: checked against its binding and landed, or discarded (R430 to R432). -/
def landDelivery (p h : Nat) (data : List Byte) (s : State) : State :=
  let src := fld h 98 10
  let xid := fld h 132 16
  let lb := fld h 148 12
  let off := fld h 160 32
  let n := 64 * fld h 124 8
  let kind := fld h 121 3
  let q := s.part p
  let found := match q.chor with
    | some c => if q.run.isSome then c.bindings.find? (fun (b : Binding) => decide (b.srcNode = src) && decide (b.xferId = xid)) else none
    | none => none
  match found with
  | none => if s.mirrorFits p src lb kind off n && decide (data.length = n) then landMirror p xid lb off h data s else unbound p src xid s
  | some b =>
    if kind = 1 then
      if lb = b.lb ∧ b.offset ≤ off ∧ off < b.offset + b.bytes then modBinding p src xid (fun b => { b with gotNull := true }) s
      else unbound p src xid s
    else if 2 < kind ∨ n = 0 ∨ 8192 < n ∨ data.length ≠ n ∨ !s.fitsBinding b lb off n then unbound p src xid s
    else if fld h 224 32 ≠ (crc32 data).toNat then dataError p b s
    else
      modBinding p src xid (fun b => { b with landed := b.landed + n, pieces := b.pieces ++ [(off, n)] })
        (landBytes p lb off data (acctAdd p 3 n s))

/-- The header with its TTL lowered by one hop (R423). -/
def lowerTtl (h : Nat) : BitVec 256 := BitVec.ofNat 256 (h - 2 ^ 117)

/-- DELIVERY_RECEIVE (R421, R423, R430, R438, R448, R632): a multicast frame goes on to the other tree neighbours and lands; a frame for
another node is forwarded; a frame whose TTL reaches 0 is discarded. A device in P3 Sleep lands nothing. -/
def execDeliveryReceive (n : Nat) (header : BitVec 256) (data : List Byte) (s : State) : Res :=
  match s.frameFrom n with
  | none => .next s
  | some p =>
    let h := header.toNat
    let dst := fld h 88 10
    let mc := bit h 116
    let mine := mc || decide (dst = (s.part p).plane.node.toNat)
    if mine && decide (s.pmu.state = 3) then .next s
    else if fld h 117 4 ≤ 1 then .next (reportRoute p 0x72 dst s)
    else if mc then .next (landDelivery p h data (floodData p (fld h 108 8) [(s.port n).peer] (lowerTtl h) data s))
    else if mine then .next (landDelivery p h data s)
    else .next (sendData p dst (lowerTtl h) data s)

/-! ### Votes -/

/-- The scope Figures of a vote on this device have completed (R218). -/
def scopeDone (c : Chor) (r : Run) (v : Vote) : Bool :=
  c.figures.zipIdx.all (fun x =>
    !(decide (v.scopeFirst ≤ x.1.hdr.figId) && decide (x.1.hdr.figId ≤ v.scopeLast)) || r.completed.contains x.2)

/-- The OR of the flag records of a vote's scope Figures (R218). -/
def scopeFlags (c : Chor) (r : Run) (v : Vote) : BitVec 4 :=
  BitVec.ofNat 4 (Flags.all ((c.figures.filter (fun f =>
    decide (v.scopeFirst ≤ f.hdr.figId) && decide (f.hdr.figId ≤ v.scopeLast))).map (fun f => kget Flags.none r.records f.hdr.figId))).bits

/-- Change a vote entry. -/
def modVote (p id : Nat) (f : Vote → Vote) (s : State) : State :=
  s.modPart p (fun q => { q with chor := q.chor.map (fun c => { c with votes := c.votes.map (fun v => if v.voteId = id then f v else v) }) })

/-- The vote with an ID. -/
def Part.vote (q : Part) (id : Nat) : Option Vote :=
  match q.chor with
  | some c => c.votes.find? (fun v => decide (v.voteId = id))
  | none => none

/-- STEP of Spin stream 0 (R441). -/
def Part.voteStep (q : Part) : BitVec 32 := (q.spin.getD 0 (0, 0)).2

/-- VOTE_CONTRIBUTE (R218, R441): once the vote beat has come, the scope has completed and every child has contributed, the device sends
the OR to its parent; the root, when the count equals MEMBERS, sends the result down. A standalone block votes only with itself. -/
def execVoteContribute (p id : Nat) (s : State) : Res :=
  let q := s.part p
  match q.chor, q.run, q.vote id, s.iterBeat p with
  | some c, some r, some v, some b =>
    if v.sent || decide (b < v.v) || !scopeDone c r v then .next s
    else
      let own := scopeFlags c r v ||| v.childFlags
      let count := v.childCount + 1
      let got := fun (v : Vote) => { v with sent := true, result := some (own, b) }
      if s.beat.standalone then .next (modVote p id got s)
      else
        match s.tempoTree p with
        | none => .next s
        | some g =>
          if v.children < g.children.length then .next s
          else if !g.root then
            .next (sendToward p g.upNode (.vote true id q.voteStep own count) (modVote p id (fun v => { v with sent := true }) s))
          else if count = g.members then
            .next (flood p q.plane.tempoGroup.toNat [] (.vote false id q.voteStep own count) (modVote p id got s))
          else .next s
  | _, _, _, _ => .next s

/-- VOTE_FRAME from node `node` (R441): a child's contribution is ORed in, the parent's result goes down the tree; a frame whose VOTE_ID or
STEP matches no vote this device waits for is discarded and reported as TEMPO_SPLIT. -/
def execVoteFrame (p node id : Nat) (step : BitVec 32) (flags : BitVec 4) (count : Nat) (s : State) : Res :=
  let q := s.part p
  match s.tempoTree p, s.iterBeat p with
  | some g, some b =>
    let fromUp := !g.root && decide (node = g.upNode)
    let waits := match q.vote id with
      | some v => decide (q.voteStep = step) && v.result.isNone && (if fromUp then v.sent else !v.sent && decide (v.children < g.children.length))
      | none => false
    if !waits then .next (reportSplit p node s)
    else if fromUp then
      .next (flood p q.plane.tempoGroup.toNat [node] (.vote false id step flags count)
        (modVote p id (fun v => { v with result := some (flags, b) }) s))
    else
      .next (modVote p id (fun v => { v with
        childFlags := v.childFlags ||| flags, childCount := v.childCount + count, children := v.children + 1 }) s)
  | _, _ => .next s

/-- VOTE_LATCH (R117, R218, R220): at the first schedule beat at or after VD that follows the result, it is latched and FLAG_ACC is
cleared. -/
def execVoteLatch (p id : Nat) (s : State) : Res :=
  let q := s.part p
  match q.vote id, s.iterBeat p with
  | some v, some b =>
    match v.result with
    | none => .next s
    | some (r, t) =>
      if v.latched || q.tempo.hold || decide (b < v.vd) || decide (b ≤ t) then .next s
      else
        .next (modVote p id (fun v => { v with latched := true }) (s.modPart p (fun q => { q with
          flags := Flags.none, firstFig := 0xFFFFFF,
          voteId := BitVec.ofNat 8 id, voteFlags := r, voteClear := v.clear, voteValid := true })))
  | _, _ => .next s

/-! ### Chains -/

/-- Elements of a row of a chain. -/
def Chain.cols (k : Chain) : Nat := k.elems / k.rows

/-- Rows of segment `i`. -/
def Chain.rowsIn (k : Chain) (i : Nat) : Nat := min k.segRows (k.rows - i * k.segRows)

/-- Bytes of `n` rows of a segment as it travels (R444, R446), in whole 64-byte units. -/
def Chain.bytesFor (k : Chain) (n : Nat) : Nat :=
  ceilDiv (if k.fmt = 0xE then n * (18 * k.cols + 4) else 4 * n * k.cols) 64 * 64

/-- Offset of segment `i` in the landing buffer's range. -/
def Chain.offset (k : Chain) (i : Nat) : Nat := i * k.bytesFor k.segRows

/-- One element's value and a row's RS of a local partial (R443, R445). -/
structure Partial where
  xs : List Int
  fs : List Num
  rs : Int
  deriving DecidableEq, Repr

/-- Bytes of a column of a pointer list. -/
def State.colBytes (s : State) (p : Nat) (d : ColDesc) (value off n : Nat) : GotAll :=
  if d.kind = 1 then s.readLb p (fld value 0 12) (fld value 16 32 + off) n else s.readVa p (value + off) n

/-- Where row `r` of a chain lies in a source: the descriptor, the entry's value and the byte offset of the row, with its row scale's. -/
def sourceRow (f : Figure) (col r : Nat) : Option (ColDesc × Nat × Nat × Option (ColDesc × Nat × Nat)) :=
  match f.list with
  | none => none
  | some l =>
    match l.cols[col]? with
    | none => none
    | some d =>
      let e := r / d.padRows
      let i := r % d.padRows
      let sc := (l.cols.zipIdx.find? (fun x => decide (x.1.role = d.role) && decide (x.1.plane = 2))).map (fun x =>
        (x.1, l.value e x.2, i * x.1.rowStride))
      some (d, l.value e col, i * d.rowStride, sc)

/-- Row `r` of a source as numbers; the place that stops the read otherwise. -/
def State.partialRow (s : State) (p : Nat) (k : Chain) (f : Figure) (col r : Nat) : Except (Option Loc) Partial :=
  match sourceRow f col r with
  | none => .error none
  | some (d, v, off, sc) =>
    let w := if k.fmt = 0xE then 16 else 4
    match s.colBytes p d v off (w * k.cols) with
    | .bad l => .error (some l)
    | .unmapped => .error none
    | .ok bs =>
      let ns := records w k.cols bs
      let xs := if k.fmt = 0xE then ns.map (fun n => sfld n 0 128) else []
      let fs := if k.fmt = 0xE then [] else ns.map fFP32.decode
      match sc with
      | none => .ok ⟨xs, fs, 0⟩
      | some (d2, v2, off2) =>
        match s.colBytes p d2 v2 off2 4 with
        | .ok b => .ok ⟨xs, fs, rsUsed (sfld (ofLe b) 0 32)⟩
        | .bad l => .error (some l)
        | .unmapped => .error none

/-- Add one partial to a running element (R444). -/
def chainAdd (a : Int × Int) (p : Int) : Int × Int :=
  let t := a.2 + p
  if 2 ^ 127 ≤ t then (a.1 + 1, t - 2 ^ 128) else if t < -(2 ^ 127) then (a.1 - 1, t + 2 ^ 128) else (a.1, t)

/-- The final value of an element, and whether it saturates (R444). -/
def chainTotal (a : Int × Int) : Int × Bool := saturate (a.1 * 2 ^ 128 + a.2)

/-- A row of a segment as it travels: running elements or FP32 values, and RS. -/
structure ChainRow where
  acc : List (Int × Int)
  fs  : List Num
  rs  : Int
  deriving DecidableEq, Repr

/-- A member's work on one row (R444 to R446): the row to send, its flags, and whether its RS disagreed. -/
def chainRow (xs128 : Bool) (incoming : Option ChainRow) (ps : List Partial) : ChainRow × Flags × Bool :=
  let start : ChainRow × List Partial :=
    match incoming, ps with
    | some r, l => (r, l)
    | none, x :: l => (⟨x.xs.map (fun v => (0, v)), x.fs, x.rs⟩, l)
    | none, [] => (⟨[], [], 0⟩, [])
  let r := start.1
  let rest := start.2
  if xs128 then
    if rest.any (fun q => decide (q.rs ≠ r.rs)) then ({ r with acc := r.acc.map (fun _ => (0, 0)) }, flInv, true)
    else ({ r with acc := rest.foldl (fun a q => a.zipWith chainAdd q.xs) r.acc }, Flags.none, false)
  else
    let out := rest.foldl (fun (a : List Num × Flags) q =>
      let zs := a.1.zipWith (fun x y => vu32 .add true x y Num.zero) q.fs
      (zs.map (·.1), a.2.or (Flags.all (zs.map (·.2))))) (r.fs, Flags.none)
    ({ r with fs := out.1 }, out.2, false)

/-- The bytes of a segment as it travels: planes x, W and RS, or FP32 values (R444, R446). -/
def segmentBytes (k : Chain) (rs : List ChainRow) : List Byte :=
  let body :=
    if k.fmt = 0xE then
      rs.flatMap (fun r => r.acc.flatMap (fun a => leBytes 16 (toTwos 128 a.2)))
        ++ rs.flatMap (fun r => r.acc.flatMap (fun a => leBytes 2 (toTwos 16 a.1)))
        ++ rs.flatMap (fun r => leBytes 4 (toTwos 32 r.rs))
    else rs.flatMap (fun r => packF32 r.fs)
  body ++ List.replicate (k.bytesFor rs.length - body.length) 0

/-- The rows of a received segment of `n` rows. -/
def segmentRows (k : Chain) (n : Nat) (bs : List Byte) : List ChainRow :=
  let c := k.cols
  (List.range n).map (fun r =>
    if k.fmt = 0xE then
      let xs := records 16 c (bs.drop (16 * c * r))
      let ws := records 2 c (bs.drop (16 * c * n + 2 * c * r))
      ⟨ws.zipWith (fun w x => (sfld w 0 16, sfld x 0 128)) xs, [], sfld (ofLe ((bs.drop (18 * c * n + 4 * r)).take 4)) 0 32⟩
    else ⟨[], (records 4 c (bs.drop (4 * c * r))).map fFP32.decode, 0⟩)

/-- Bytes of [a, a + n) that a binding's deliveries have landed. -/
def Binding.landedIn (b : Binding) (a n : Nat) : Nat :=
  (b.pieces.map (fun x => min (x.1 + x.2) (a + n) - max x.1 a)).sum

/-- All of a list of results, or the first error. -/
def allOk {α : Type} (l : List (Except (Option Loc) α)) : Except (Option Loc) (List α) :=
  match l with
  | [] => .ok []
  | x :: r =>
    match x, allOk r with
    | .ok a, .ok as => .ok (a :: as)
    | .error e, _ => .error e
    | _, .error e => .error e

/-- The member number of this device in a chain, and the neighbours before and after it. -/
def Chain.member (k : Chain) (node : Nat) : Option (Nat × Option Nat × Option Nat) :=
  match k.members.findIdx? (fun n => decide (n = node)) with
  | none => none
  | some i => some (i, if i = 0 then none else k.members[i - 1]?, k.members[i + 1]?)

/-- The local sources of segment `i` are valid (R443, R444). -/
def State.sourcesReady (s : State) (p : Nat) (c : Chor) (k : Chain) (i : Nat) : Bool :=
  k.sources.all (fun x =>
    match (c.place x.1).bind (fun j => c.figures[j]?) with
    | none => false
    | some f => (List.range (k.rowsIn i)).all (fun r =>
      match sourceRow f x.2 (i * k.segRows + r) with
      | none => false
      | some (d, v, off, _) =>
        s.sourceValid p ⟨0, false, 0, 0, 0, (if k.fmt = 0xE then 16 else 4) * k.cols, x.1, decide (d.kind = 1), v + off, 0, 0, false, false⟩))

/-- The incoming rows of segment `i` from the predecessor; `none` while it has not all landed. -/
def State.incoming (s : State) (p : Nat) (c : Chor) (k : Chain) (i : Nat) (pred : Option Nat) : Option (Except (Option Loc) (List (Option ChainRow))) :=
  let n := k.rowsIn i
  match pred with
  | none => some (.ok (List.replicate n none))
  | some a =>
    match c.bindings.find? (fun b => decide (b.srcNode = a) && decide (b.lb = k.lb)) with
    | none => none
    | some b =>
      let off := b.offset + k.offset i
      if b.landedIn off (k.bytesFor n) < k.bytesFor n then none
      else
        match s.readLb p k.lb off (k.bytesFor n) with
        | .ok bs => some (.ok ((segmentRows k n bs).map some))
        | .bad l => some (.error (some l))
        | .unmapped => none

/-- A member's rows of segment `i`, with flags and the number of rows whose RS disagreed. -/
def State.segment (s : State) (p : Nat) (c : Chor) (k : Chain) (i : Nat) (ins : List (Option ChainRow)) :
    Except (Option Loc) (List ChainRow × Flags × Nat) :=
  let figs := k.sources.filterMap (fun x => ((c.place x.1).bind (fun j => c.figures[j]?)).map (fun f => (f, x.2)))
  let rows := allOk (ins.zipIdx.map (fun y =>
    match allOk (figs.map (fun f => s.partialRow p k f.1 f.2 (i * k.segRows + y.2))) with
    | .ok ps => .ok (chainRow (decide (k.fmt = 0xE)) y.1 ps)
    | .error e => .error e))
  match rows with
  | .error e => .error e
  | .ok rs => .ok (rs.map (·.1), Flags.all (rs.map (·.2.1)), (rs.filter (·.2.2)).length)

/-- Units that segment `i` takes, so that a chain's segments take ⌈bytes / 512⌉ in all (R434). -/
def Chain.units (k : Chain) (i : Nat) : Nat := ceilDiv (k.offset i + k.bytesFor (k.rowsIn i)) 512 - ceilDiv (k.offset i) 512

/-- Write bytes of a chain's result (R443): at its VA, or at the source of the transfer it names. -/
def writeResult (p : Nat) (c : Chor) (k : Chain) (off : Nat) (bs : List Byte) (s : State) : State :=
  if k.result.getLsbD 63 then
    match c.xfers.find? (fun x => decide (x.xferId = fld k.result.toNat 0 16)) with
    | some x => if x.srcLb then landBytes p (fld x.src 0 12) (fld x.src 16 32 + off) bs s else writeVa p true (x.src + off) bs s
    | none => s
  else writeVa p true (fld k.result.toNat 0 52 + off) bs s

/-- The last member's end of a segment (R444, R446): the totals, saturated once, and the RS plane behind them. -/
def finishSegment (p : Nat) (c : Chor) (k : Chain) (i : Nat) (rs : List ChainRow) (s : State) : Flags × State :=
  let r0 := i * k.segRows
  if k.fmt = 0xE then
    let tot := rs.map (fun r => r.acc.map chainTotal)
    let fl := if tot.any (fun l => l.any (·.2)) then flOvf else Flags.none
    let s1 := writeResult p c k (16 * k.cols * r0) (tot.flatMap (fun l => l.flatMap (fun x => leBytes 16 (toTwos 128 x.1)))) s
    (fl, writeResult p c k (16 * k.elems + 4 * r0) (rs.flatMap (fun r => leBytes 4 (toTwos 32 r.rs))) s1)
  else (Flags.none, writeResult p c k (4 * k.cols * r0) (rs.flatMap (fun r => packF32 r.fs)) s)

/-- A segment of a chain is done. -/
def markSegment (p id : Nat) (fig : Option Nat) (fl : Flags) (s : State) : State :=
  let s1 := s.modPart p (fun q => { q with chor := q.chor.map (fun c => { c with
    chains := c.chains.map (fun k => if k.chainId = id then { k with done := k.done + 1 } else k) }) })
  match fig with
  | some f => modActive p f (fun a => { a with flags := a.flags.or fl }) s1
  | none => s1

/-- CHAIN_SEGMENT (R443 to R447): the next segment, once valid from the predecessor and the local sources, is added and sent to the next
member when its credits are held, or its totals are written. -/
def execChainSegment (p id i : Nat) (s : State) : Res :=
  let q := s.part p
  match q.chor, q.run with
  | some c, some _ =>
    match c.chains.find? (fun k => decide (k.chainId = id)) with
    | none => .next s
    | some k =>
      match k.member q.plane.node.toNat with
      | none => .next s
      | some (_, pred, succ) =>
        let waitsCredit := match succ with | some n => decide (q.plane.credit n k.lb < k.units i) | none => false
        if decide (i ≠ k.done) || decide (ceilDiv k.rows k.segRows ≤ i) || waitsCredit || !s.sourcesReady p c k i then .next s
        else
          let fig := k.sources.getLast?.map (·.1)
          match s.incoming p c k i pred with
          | none => .next s
          | some (.error none) => .next s
          | some (.error (some l)) => .next (fremundStop p 0x50 (fwUncorrectable p (fig.getD noFig) l s))
          | some (.ok ins) =>
            match s.segment p c k i ins with
            | .error none => .next s
            | .error (some l) => .next (fremundStop p 0x50 (fwUncorrectable p (fig.getD noFig) l s))
            | .ok (rs, fl, bad) =>
              let s1 := (List.range bad).foldl (fun t _ => ceCount 2 t) s
              match succ with
              | some n =>
                let s2 := takeCredits p [n] k.lb (k.units i) s1
                .next (markSegment p id fig fl (sendAll p 2 k.lb (k.offset i) id false n (segmentBytes k rs) s2))
              | none =>
                let (fl2, s2) := finishSegment p c k i rs s1
                .next (markSegment p id fig (fl.or fl2) s2)
  | _, _ => .next s

end Sys2Proof.Machine
end

