-- ==== Sys2Proof/Machine/Image.lean ====
section
/-! DEFINITION. Reading a Choreography image (R494, R495): sections and packed records (R55, R217, R426, R427, R443), parameter blocks
(R158, R195, R212, R256, R277), snapshot manifests (R570, R571) and pointer lists (R283 to R286). A reserved bit or encoding set
anywhere makes the image invalid (R20). -/

namespace Sys2Proof.Machine

/-- An answer of the loader: a value, `none` for INVALID_FIELD, or the place of an uncorrectable read (R494). -/
abbrev Load (α : Type) := Except (Option Loc) α

/-- A condition whose failure is INVALID_FIELD. -/
def need (b : Bool) : Load Unit := if b then .ok () else .error none

/-- A value whose absence is INVALID_FIELD. -/
def given {α : Type} (x : Option α) : Load α := match x with | some a => .ok a | none => .error none

/-- `n` bytes at VA, read through pages with RD (R494). -/
def State.fetchVa (s : State) (p va n : Nat) : Load (List Byte) :=
  match s.readVa p va n with
  | .ok bs => .ok bs
  | .unmapped => .error none
  | .bad l => .error (some l)

/-- The number that bytes [off, off + n) spell. -/
def wordOf (bs : List Byte) (off n : Nat) : Nat := ofLe ((bs.drop off).take n)

/-- The listed (low bit, width) fields of a word are 0. -/
def zeros (w : Nat) (fs : List (Nat × Nat)) : Bool := fs.all (fun f => fld w f.1 f.2 == 0)

/-- FMT codes that are not reserved (R90). -/
def fmtsOk (l : List Nat) : Bool := l.all (fun f => decide (f < 15))

/-- RND codes that are not reserved (R101). -/
def rndsOk (l : List Nat) : Bool := l.all (fun r => decide (r ≤ 4))

/-! ### Packed records -/

/-- Fields of the listed widths packed from bit 0, and what is left above them (R495). -/
def unpack (ws : List Nat) (w : Nat) : List Nat × Nat :=
  match ws with
  | [] => ([], w)
  | n :: r => let (l, x) := unpack r (w / 2 ^ n); (w % 2 ^ n :: l, x)

/-- The records of a section of `size` bytes each; none where a reserved bit is set. -/
def packed (ws : List Nat) (size n : Nat) (bs : List Byte) : Option (List (List Nat)) :=
  let rs := (List.range n).map (fun i => unpack ws (wordOf bs (i * size) size))
  if rs.all (fun r => r.2 == 0) then some (rs.map (·.1)) else none

/-- A Figure record (R55, R495, R685). -/
def figRecOf (l : List Nat) : Option (FigRec × Nat) :=
  match l with
  | [i, a, d, k, v, r, m, t, pl, pa, ap, ly, rn, st] =>
    some (⟨i, a, d, k, v == 1, r == 1, BitVec.ofNat 64 m, t, BitVec.ofNat 64 pl, BitVec.ofNat 64 pa, ap, ly, rn, st⟩, i)
  | _ => none

/-- An outgoing transfer (R426). -/
def xferOf (l : List Nat) : Option Xfer :=
  match l with
  | [i, m, d, lb, o, n, f, sl, sr, is, rl] => some ⟨i, m == 1, d, lb, o, n, f, sl == 1, sr, is, rl, false, false⟩
  | _ => none

/-- An incoming binding (R427). -/
def bindingOf (l : List Nat) : Option Binding :=
  match l with
  | [n, i, lb, o, b, c, r] => some ⟨n, i, lb, o, b, c, r, 0, [], false, false⟩
  | _ => none

/-- A credit record (R495). -/
def creditOf (l : List Nat) : Option CreditRec :=
  match l with
  | [lb, n, u] => some ⟨lb, n, u⟩
  | _ => none

/-- A vote entry (R217). -/
def voteOf (l : List Nat) : Option Vote :=
  match l with
  | [i, v, vd, a, b, m] => some ⟨i, v, vd, a, b, BitVec.ofNat 4 m, 0, 0, 0, false, none, false⟩
  | _ => none

/-- A resident region (R326, R495). -/
def regionRecOf (l : List Nat) : Option Region :=
  match l with
  | [i, f, n, m, b] => some ⟨i, f, n, BitVec.ofNat 64 m, b, false⟩
  | _ => none

/-- The chain records of a section, one after another, each with its members and sources (R443, R495). -/
def chainsOf (n : Nat) (bs : List Byte) : Option (List Chain) :=
  match n with
  | 0 => some []
  | k + 1 =>
    let (l, x) := unpack [8, 4, 32, 32, 32, 11, 7, 12, 64] (wordOf bs 0 32)
    match l with
    | [i, f, e, r, g, m, c, lb, res] =>
      let size := 32 + 2 * m + 4 * c
      let mem := (List.range m).map (fun j => wordOf bs (32 + 2 * j) 2)
      let src := (List.range c).map (fun j => wordOf bs (32 + 2 * m + 4 * j) 4)
      if x ≠ 0 ∨ bs.length < size ∨ src.any (fun w => fld w 28 4 != 0) ∨ mem.any (fun w => decide (1024 ≤ w)) then none
      else
        match chainsOf k (bs.drop size) with
        | some rest => some (⟨i, f, e, r, g, lb, BitVec.ofNat 64 res, mem, src.map (fun w => (fld w 0 24, fld w 24 4)), 0⟩ :: rest)
        | none => none
    | _ => none

/-! ### Sections -/

/-- A section of an image: its type, its record count and its bytes to the end of the image. -/
structure Section where
  kind  : Nat
  count : Nat
  bytes : List Byte
  deriving DecidableEq, Repr

/-- Bytes of a record of a section type, and the limit of its count (R495). -/
def sectionRule (t : Nat) : Option (Nat × Nat) :=
  match t with
  | 1 => some (48, 2 ^ 24)
  | 2 => some (40, 65536)
  | 3 => some (24, 65536)
  | 4 => some (8, 65536)
  | 5 => some (24, 256)
  | 6 => some (32, 256)
  | 7 => some (16, 16)
  | 8 => some (24, 16)
  | _ => none

/-- The section table of an image (R494, R495). -/
def sectionsOf (img : List Byte) (n : Nat) : Option (List Section) :=
  let rs := (List.range n).map (fun i => let o := 0x40 + 16 * i; (wordOf img o 4, wordOf img (o + 4) 4, wordOf img (o + 8) 8))
  let ok (r : Nat × Nat × Nat) : Bool :=
    match sectionRule r.1 with
    | some (size, lim) => decide (r.2.1 ≤ lim) && decide (r.2.2 + r.2.1 * size ≤ img.length)
    | none => false
  if 0x40 + 16 * n ≤ img.length ∧ rs.all ok ∧ (rs.map (·.1)).Nodup then
    some (rs.map (fun r => ⟨r.1, r.2.1, img.drop r.2.2⟩))
  else none

/-- The records of a section type, empty where the image has none. -/
def recordsOf {α : Type} (ss : List Section) (t : Nat) (ws : List Nat) (f : List Nat → Option α) : Option (List α) :=
  match ss.find? (fun x => decide (x.kind = t)), sectionRule t with
  | some x, some (size, _) =>
    match packed ws size x.count x.bytes with
    | some rs => allSome (rs.map f)
    | none => none
  | _, _ => some []

/-- The header of an image (R494). -/
structure ImgHdr where
  crc        : BitVec 32
  sections   : Nat
  holdMax    : Nat
  barrier    : Nat
  quarters   : Nat
  tempoGroup : Nat
  deriving DecidableEq, Repr

/-- The header that an image begins with, if MAGIC, FORMAT and CRC match and every field is in range (R65, R330, R494). -/
def imgHeader (img : List Byte) : Option ImgHdr :=
  let w := wordOf img 0 64
  let hold := fld w 128 16
  let bar := fld w 144 7
  let h : ImgHdr := ⟨BitVec.ofNat 32 (fld w 64 32), fld w 96 8, if hold = 0 then 1024 else hold, if bar = 0 then 4 else bar,
    fld w 152 3, fld w 160 8⟩
  if 64 ≤ img.length && fld w 0 32 == 0x0A5E0C01 && fld w 32 32 == 1 && h.crc == crc32 (img.drop 0x40)
      && zeros w [(104, 24), (151, 1), (155, 5), (168, 24), (192, 320)] && decide (1 ≤ h.sections) && decide (h.sections ≤ 16)
      && [1, 2, 4, 8, 16, 32, 64].contains h.barrier && decide (1 ≤ h.quarters) && decide (h.quarters ≤ 4) then some h
  else none

/-! ### Parameter blocks -/

/-- The attention parameter block (R158). -/
def attnOf (w : Nat) : Option AttnParams :=
  let a : AttnParams := {
    partialOut := bit w 31
    strict := bit w 30
    group := fld w 25 5
    headDim := fld w 16 9
    oFmt := fld w 12 4
    vFmt := fld w 8 4
    kFmt := fld w 4 4
    qFmt := fld w 0 4
    headScale := BitVec.ofNat 32 (fld w 32 32)
    oSite := fld w 84 8
    pSite := fld w 76 8
    spinId := fld w 72 4
    maskMode := bit w 71
    oSat := bit w 70
    oRnd := fld w 67 3
    pRnd := fld w 64 3
    oGrid := sfld w 112 16
    sGrid := sfld w 96 16
    mapPlanes := fld w 144 16
    mapCols4 := fld w 128 16
    layer := fld w 180 8
    mapRows := fld w 160 20
    mapBase := fld w 192 52
    ptrBase := fld w 256 52
    poolBase := fld w 320 52
    lenBase := fld w 384 52
    scaleBase := fld w 448 52
    poolCount := fld w 512 32
    maxKvLen := fld w 544 32 }
  if zeros w [(92, 4), (188, 4), (244, 12), (308, 12), (372, 12), (436, 12), (500, 12)]
      && fmtsOk [a.oFmt, a.vFmt, a.kFmt, a.qFmt] && rndsOk [a.oRnd, a.pRnd] then some a
  else none

/-- The backward extension (R195). -/
def bwdOf (w : Nat) : Option BwdExt :=
  let x : BwdExt := {
    dqPartial := bit w 607
    dsShift := sfld w 592 8
    doFmt := fld w 588 4
    dsFmt := fld w 584 4
    dkvFmt := fld w 580 4
    dqFmt := fld w 576 4
    gradScale := BitVec.ofNat 32 (fld w 608 32)
    dsSite := fld w 652 8
    dsRnd := fld w 649 3
    gRnd := fld w 646 3
    gSat := bit w 645
    dqGrid := sfld w 688 16
    dkGrid := sfld w 672 16
    dpGrid := sfld w 720 16
    dvGrid := sfld w 704 16 }
  if zeros w [(600, 7), (660, 12), (640, 5), (736, 32)] && fmtsOk [x.doFmt, x.dsFmt, x.dkvFmt, x.dqFmt] && rndsOk [x.dsRnd, x.gRnd] then some x
  else none

/-- The decode extension (R256). -/
def decOf (w : Nat) : Option DecExt :=
  let x : DecExt := {
    self := bit w 607
    bucket := bit w 606
    causal := bit w 605
    chunkLog2 := fld w 600 5
    qrows := fld w 596 4
    newFmt := fld w 592 4
    newSite := fld w 584 8
    newRnd := fld w 581 3
    window := fld w 608 32
    partBase := fld w 640 52
    partSlots := fld w 704 32
    layer := fld w 736 8 }
  if zeros w [(576, 5), (692, 12), (744, 24)] && fmtsOk [x.newFmt] && rndsOk [x.newRnd] then some x else none

/-- A dense Figure's parameter block (R277). -/
def denseOf (w : Nat) : Option DenseParams :=
  let d : DenseParams := {
    aFmt := fld w 28 4
    bFmt := fld w 24 4
    cFmt := fld w 20 4
    bT := bit w 19
    accIn := bit w 18
    fuseRole := fld w 16 2
    fuseKind := bit w 15
    gangLog2 := fld w 10 2
    shapeSet := BitVec.ofNat 8 (fld w 0 8)
    grid := sfld w 48 16
    cRnd := fld w 45 3
    cSat := bit w 44
    spinId := fld w 40 4
    cSite := fld w 32 8
    fuseFig := fld w 64 24
    kc := fld w 96 16
    maxM := fld w 128 32
    maxN := fld w 160 32
    maxK := fld w 192 32
    shapeBase := fld w 256 52 }
  if zeros w [(12, 3), (8, 2), (88, 8), (112, 16), (224, 32), (308, 12)] && fmtsOk [d.aFmt, d.bFmt, d.cFmt] && rndsOk [d.cRnd]
      && decide (d.fuseRole ≤ 2) then some d
  else none

/-- An optimiser Figure's parameter block (R212). -/
def optOf (w : Nat) : Option OptParams :=
  let o : OptParams := {
    thetaFmt := fld w 28 4
    gFmt := fld w 24 4
    comp := bit w 23
    strict := bit w 22
    mSite := fld w 12 8
    rSite := fld w 4 8
    spinId := fld w 0 4
    lr := BitVec.ofNat 32 (fld w 32 32)
    eps := BitVec.ofNat 32 (fld w 64 32)
    wd := BitVec.ofNat 32 (fld w 96 32)
    stateBase := fld w 128 52 }
  if zeros w [(20, 2), (180, 12), (192, 64)] && fmtsOk [o.thetaFmt, o.gFmt] then some o else none

/-- A range record of a manifest (R571). -/
def rangeOf (w : Nat) : Option SnapRange :=
  if bit w 127 then
    (if zeros w [(6, 10), (32, 32), (80, 47)] then some (.spm (fld w 0 6) (fld w 16 16) (fld w 64 16)) else none)
  else if zeros w [(52, 12), (96, 31)] && fld w 64 32 % 64 == 0 then some (.mem (fld w 0 52) (fld w 64 32)) else none

/-- The header of a manifest: its range count and the manifest without ranges (R570). -/
def manifestOf (w : Nat) : Option (Nat × Manifest) :=
  let n := fld w 0 32
  let m : Manifest := ⟨bit w 32, fld w 64 52, fld w 128 32, fld w 192 52, fld w 256 64, []⟩
  if zeros w [(33, 31), (116, 12), (160, 32), (244, 12), (320, 192)] && decide (1 ≤ n) && decide (n ≤ 4096) && decide (m.posBytes ≤ 4096)
      && m.posBytes % 64 == 0 then some (n, m)
  else none

/-! ### Pointer lists -/

/-- Bytes per entry of a column's plane, in halves of a byte; a state record is 16 bytes (R184, R284). -/
def colHalf (d : ColDesc) : Nat := if d.role = rolePst then 32 else halfBytes d

/-- A column descriptor (R284, R285). -/
def colOf (w : Nat) : Option ColDesc :=
  let d : ColDesc := ⟨fld w 96 32, fld w 64 32, fld w 32 32, fld w 27 5, fld w 25 2, fld w 23 2, fld w 19 4, bit w 18⟩
  if fld w 0 18 == 0 && decide (d.role ≤ 21) && decide (d.plane ≤ 2) && decide (d.kind ≤ 2) && decide (d.fmt < 15)
      && d.rowStride % 64 == 0 && decide (d.padCols * colHalf d ≤ 2 * d.rowStride) then some d
  else none

/-- The column is of a block-scaled tensor: its planes begin on 512-byte boundaries (R94). -/
def ColDesc.blocky (d : ColDesc) : Bool := d.plane == 1 || blockCode d.fmt

/-- An entry's value fits its column (R94, R286). -/
def valueOk (d : ColDesc) (v : Nat) : Bool :=
  if d.role = roleSeq then decide (v < 2 ^ 20)
  else if d.kind = 0 then decide (v < 2 ^ 52) && v % (if d.blocky then 512 else 64) == 0
  else if d.kind = 1 then zeros v [(12, 4), (48, 16)] && (!d.blocky || fld v 16 32 % 512 == 0)
  else v == 0

/-- A pointer list's header and columns from its first 0x140 bytes (R283 to R285). -/
def listHeader (bs : List Byte) : Option PtrList :=
  let w := wordOf bs 0 64
  let n := fld w 56 8
  let count := fld w 0 32
  let ds := (List.range 16).map (fun i => wordOf bs (0x40 + 16 * i) 16)
  match allSome ((ds.take n).map colOf) with
  | some cols =>
    if decide (1 ≤ count) && decide (count ≤ 65536) && decide (1 ≤ n) && decide (n ≤ 16)
        && zeros w [(32, 24), (88, 8), (120, 8), (128, 384)] && (ds.drop n).all (fun d => d == 0)
        && decide ((cols.map (fun c => (c.role, c.plane, c.kind))).Nodup) then
      some ⟨count, fld w 64 24, fld w 96 24, cols, []⟩
    else none
  | none => none

/-- The entries of a list from their bytes (R283, R286). -/
def listEntries (l : PtrList) (bs : List Byte) : Option PtrList :=
  let n := l.cols.length
  let es := (List.range l.count).map (fun e => (List.range n).map (fun c => wordOf bs (8 * (n * e + c)) 8))
  if es.all (fun r => (l.cols.zip r).all (fun x => valueOk x.1 x.2)) then some { l with entries := es.map (fun r => r.map (BitVec.ofNat 64)) }
  else none

/-- The pointer list at VA (R276, R283 to R286). -/
def State.loadList (s : State) (p va : Nat) : Load PtrList := do
  need (va % 64 == 0 && decide (va < 2 ^ 52))
  let h ← s.fetchVa p va 0x140
  let l ← given (listHeader h)
  let bs ← s.fetchVa p (va + 0x140) (8 * l.cols.length * l.count)
  given (listEntries l bs)

/-- The manifest at VA (R570, R571). -/
def State.loadManifest (s : State) (p va : Nat) : Load Manifest := do
  let h ← s.fetchVa p va 64
  let (n, m) ← given (manifestOf (ofLe h))
  let bs ← s.fetchVa p (va + 0x40) (16 * n)
  let rs ← given (allSome ((List.range n).map (fun i => rangeOf (wordOf bs (16 * i) 16))))
  pure { m with ranges := rs }

/-- The bytes of a parameter block, at a 64-byte aligned VA (R276), as one number. -/
def State.loadBlock (s : State) (p va n : Nat) : Load Nat := do
  need (va % 64 == 0 && decide (va < 2 ^ 52))
  let bs ← s.fetchVa p va n
  pure (ofLe bs)

/-- A Figure of a record: its parameters and its list, as its FTYPE and KIND say (R55, R276, R495; PARAMS of the control operations:
log 21). -/
def State.loadFigure (s : State) (p : Nat) (h : FigRec) (prog : TileProg) : Load Figure := do
  let pa := h.params.toNat
  need (decide (h.plist.toNat < 2 ^ 52) && decide (pa < 2 ^ 52))
  need (decide (h.ftype ≤ 9) && decide (h.kind ≤ 2) && (h.ftype == 9) == (h.kind != 0))
  let par ←
    match h.ftype with
    | 0 => do given ((denseOf (← s.loadBlock p pa 40)).map FigParams.dense)
    | 1 => do given ((attnOf (← s.loadBlock p pa 72)).map FigParams.attn)
    | 2 => do
      let w ← s.loadBlock p pa 96
      let a ← given (attnOf w)
      let x ← given (bwdOf w)
      pure (FigParams.backward a x)
    | 3 => do
      let w ← s.loadBlock p pa 96
      let a ← given (attnOf w)
      let x ← given (decOf w)
      pure (FigParams.decode a x)
    | 4 => do given ((attnOf (← s.loadBlock p pa 72)).map FigParams.merge)
    | 5 => do given ((optOf (← s.loadBlock p pa 32)).map FigParams.optimiser)
    | 6 => do need (pa % 8 == 0); pure (FigParams.scaleStep pa)
    | 7 => pure (FigParams.kvCommit pa)
    | 8 => do need (decide (pa < 16)); pure (FigParams.resReload pa)
    | _ =>
      if h.kind = 2 then pure FigParams.intermission
      else if pa = 0 then pure FigParams.transferOnly
      else do
        need (pa % 64 == 0)
        pure (FigParams.snapshot (← s.loadManifest p pa))
  let l ← if h.ftype ≤ 5 then do pure (some (← s.loadList p h.plist.toNat)) else pure none
  pure ⟨h, l, par, prog⟩

/-- What an image holds. -/
structure Loaded where
  chor    : Chor
  spin    : List (BitVec 64 × BitVec 32)
  regions : List Region
  deriving DecidableEq, Repr

/-- The tile program of a Figure (log 20): the one the loader is given, an empty one where it is given none. -/
def progFor (progs : List TileProg) (i : Nat) : TileProg := (progs.find? (fun g => decide (g.fig = i))).getD ⟨i, [], [], []⟩

/-- The image at VA, read and unpacked (R109, R494, R495). -/
def State.loadImage (s : State) (p va n : Nat) (tag : BitVec 16) (progs : List TileProg) : Load Loaded := do
  need (decide (64 ≤ n))
  let img ← s.fetchVa p va n
  let h ← given (imgHeader img)
  let ss ← given (sectionsOf img h.sections)
  let recs ← given (recordsOf ss 1 [24, 48, 48, 2, 1, 1, 64, 8, 64, 64, 2, 8, 3, 8] figRecOf)
  need (recs.zipIdx.all (fun x => decide (x.1.2 = x.2)))
  let figs ← recs.mapM (fun r => s.loadFigure p r.1 (progFor progs r.2))
  let xs ← given (recordsOf ss 2 [16, 1, 10, 12, 32, 32, 24, 1, 52, 48, 48] xferOf)
  let bs ← given (recordsOf ss 3 [10, 16, 12, 32, 32, 24, 24] bindingOf)
  let cs ← given (recordsOf ss 4 [12, 10, 32] creditOf)
  let vs ← given (recordsOf ss 5 [8, 48, 48, 24, 24, 4] voteOf)
  let ks ← given (match ss.find? (fun x => decide (x.kind = 6)) with
    | some x => chainsOf x.count x.bytes
    | none => some [])
  let spin ← given (recordsOf ss 7 [64, 32] (fun l =>
    match l with
    | [k, t] => some (BitVec.ofNat 64 k, BitVec.ofNat 32 t)
    | _ => none))
  let rs ← given (recordsOf ss 8 [4, 16, 16, 64, 52] regionRecOf)
  pure ⟨⟨h.crc, tag, h.holdMax, h.barrier, h.quarters, h.tempoGroup, figs, xs, bs, cs, vs, ks⟩,
    (spin ++ List.replicate (16 - spin.length) (0, 0)), rs⟩

end Sys2Proof.Machine
end

