-- ==== Sys2Proof/Machine/LoadChecks.lean ====
section
/-! DEFINITION. The field checks of a Choreography load, each failing one being INVALID_FIELD: core masks (R56), columns and their
formats (R94, R285, R688), dense (R276 to R281), attention (R159 to R161, R186), backward (R196, R197), decode (R256 to R258), merge
(R269), optimiser (R212, R213, R216) and snapshot Figures (R572), append records (R685), tile programs (R101, R130, R141, R143, R330, R380),
transfers, bindings, credits, chains and regions (R326, R424 to R443). -/

namespace Sys2Proof.Machine

/-! ### Codes and ranges -/

/-- The FMT code is one of the formats. -/
def oneOf (c : Nat) (l : List Fmt) : Bool := match fmtOf c with | some f => l.contains f | none => false

/-- The range of a grid exponent (R128, R160, R197). -/
def gridOk (g : Int) : Bool := decide (-16432 ≤ g) && decide (g ≤ 16335)

/-- A pairing that R125 permits. -/
def pairCodes (a b : Nat) : Bool := match fmtOf a, fmtOf b with | some x, some y => pairOk x y | _, _ => false

/-- A scaled pairing: not both sides are native (R124). -/
def scaledPair (a b : Nat) : Bool :=
  match fmtOf a, fmtOf b with
  | some x, some y =>
    (match opType x, opType y with
    | some t, some u => !(t.isNative && u.isNative)
    | _, _ => false)
  | _, _ => false

/-- An 8-bit native type, the only B stored N-innermost (R127). -/
def nativeByte (c : Nat) : Bool :=
  match fmtOf c with
  | some f => (match opType f with | some t => t.isNative && fmtBits f == 8 | none => false)
  | none => false

/-- An FP32 word is finite. -/
def finite32 (w : BitVec 32) : Bool := (fFP32.decode w.toNat).isFin

/-- RNE or SR. -/
def rneSr (r : Nat) : Bool := r == 0 || r == 2

/-- A rounding mode of a conversion outside strict VU arithmetic: RNE, RTZ or SR (R101). -/
def rneRtzSr (r : Nat) : Bool := decide (r ≤ 2)

/-- Cores of partition `p` (R56). -/
def State.coreCount (s : State) (p : Nat) : Nat := (s.partCores p).length

/-- A core mask names cores of the partition only (R56). -/
def maskOk (n : Nat) (m : BitVec 64) : Bool := decide (m.toNat < 2 ^ n)

/-- Bytes [o, o + n) lie in a set landing buffer of partition `p` (R424, R425). -/
def State.inLb (s : State) (p lb o n : Nat) : Bool :=
  s.ownsLb p lb && (s.landBuf lb).isSet && decide (o + n ≤ (s.landBuf lb).size)

/-! ### Columns -/

/-- What a kind of Figure says of a role: its formats (any where none are listed), whether the Figure writes it, whether the list must
carry it (R285, R688). -/
structure RoleRule where
  role : Nat
  fmts : List Nat
  out  : Bool
  must : Bool
  deriving DecidableEq, Repr

/-- FMT codes of FP32, BF16, XS128 and BS8 (R90). -/
def codeFp32 : Nat := 8
def codeBf16 : Nat := 7
def codeXs : Nat := 14
def codeBs8 : Nat := 11

/-- The output columns of an attention Figure: O and LSE, or partial states (R158, R184). -/
def outRules (a : AttnParams) : List RoleRule :=
  if a.partialOut then [⟨rolePo, [codeXs], true, true⟩, ⟨rolePst, [], true, true⟩]
  else [⟨roleO, [a.oFmt], true, true⟩, ⟨roleLse, [codeFp32], true, true⟩]

/-- The roles of a Figure's list, by its parameters. -/
def roleRules (f : Figure) (paged : Bool) : List RoleRule :=
  match f.par with
  | .dense d =>
    let fused := d.fuseRole = 2
    [⟨roleA, [d.aFmt], false, !fused⟩, ⟨roleB, [d.bFmt], false, true⟩, ⟨roleC, [d.cFmt], true, true⟩]
  | .attn a =>
    [⟨roleQ, [a.qFmt], false, true⟩, ⟨roleK, [a.kFmt], false, !paged⟩, ⟨roleV, [a.vFmt], false, !paged⟩, ⟨roleSeq, [], false, false⟩,
      ⟨roleNew, [codeFp32, codeBf16], false, false⟩] ++ outRules a
  | .backward a x =>
    [⟨roleQ, [a.qFmt], false, true⟩, ⟨roleK, [a.kFmt], false, true⟩, ⟨roleV, [a.vFmt], false, true⟩, ⟨roleO, [a.oFmt], false, true⟩,
      ⟨roleDo, [x.doFmt], false, true⟩, ⟨roleLse, [codeFp32], false, true⟩, ⟨roleD, [codeFp32], true, true⟩,
      ⟨roleDq, [if x.dqPartial then codeXs else x.dqFmt], true, true⟩, ⟨roleDk, [x.dkvFmt], true, true⟩,
      ⟨roleDv, [x.dkvFmt], true, true⟩]
  | .decode a x =>
    [⟨roleQ, [a.qFmt], false, true⟩, ⟨roleSeq, [], false, true⟩, ⟨roleNew, [x.newFmt], false, x.self⟩] ++ outRules a
  | .merge a => outRules a
  | .optimiser o =>
    [⟨roleG, [o.gFmt], false, true⟩, ⟨roleTheta, [o.thetaFmt], true, true⟩, ⟨roleM, [codeBs8], true, true⟩, ⟨roleR, [codeBs8], true, true⟩]
      ++ (if o.comp then [⟨roleCerr, [codeBf16], true, true⟩] else [])
  | _ => []

/-- A column of the partial sets that an ATTN_MERGE Figure reads, or of those it writes under PARTIAL_OUT (R269): both carry the role PO or
PST. -/
def mergeColumn (f : Figure) (c : ColDesc) : Bool :=
  match f.par with
  | .merge a => (c.role == rolePo || c.role == rolePst) && (a.partialOut || !c.out)
  | _ => false

/-- The list carries a SEQ column. -/
def PtrList.paged (l : PtrList) : Bool := (l.desc roleSeq 0).isSome

/-- An input column that comes from a fused producer: it keeps the producer's role and stands for A (R298). -/
def fusedInput (f : Figure) (c : ColDesc) : Bool :=
  match f.par with
  | .dense d => d.fuseRole == 2 && c.kind == 2 && !c.out
  | _ => false

/-- A column's role, OUT bit and format are those of the Figure's kind (R688). -/
def columnRule (f : Figure) (l : PtrList) (c : ColDesc) : Bool :=
  if fusedInput f c then
    (match f.par with
    | .dense d => decide (c.plane ≠ 0) || decide (c.fmt = d.aFmt)
    | _ => false)
  else if mergeColumn f c then c.role == rolePst || decide (c.fmt = codeXs)
  else
    match (roleRules f l.paged).find? (fun r => decide (r.role = c.role)) with
    | some r =>
      decide (c.out = r.out) && (c.plane != 0 || r.fmts.isEmpty || r.fmts.contains c.fmt)
        && (c.plane == 0 || decide ((l.desc c.role 0).map (·.fmt) = some c.fmt))
    | none => false

/-- The planes a column needs beside it: a block-scale plane that covers its elements (R94), a row-scale plane for PO, of its rows (R184,
R186). -/
def planesOk (l : PtrList) (c : ColDesc) : Bool :=
  if c.plane ≠ 0 ∨ c.role = roleSeq ∨ c.role = rolePst then true
  else if blockCode c.fmt then
    c.padCols % 32 == 0
      && l.cols.any (fun d => decide (d.role = c.role) && decide (d.plane = 1) && decide (d.kind = c.kind)
          && decide (c.padCols ≤ 32 * d.padCols) && decide (c.padRows ≤ d.padRows))
  else if c.role = rolePo then
    l.cols.any (fun d => decide (d.role = rolePo) && decide (d.plane = 2) && decide (d.kind = c.kind) && d.out == c.out
      && decide (c.padRows ≤ d.padRows))
  else codeBits c.fmt != 4 || c.padCols % 2 == 0

/-- Pages of [va, va + n) that are mapped lie inside regions of the partition (R302, R386); unmapped ones are left to translation. -/
def State.addressOk (s : State) (p va n : Nat) : Bool :=
  decide (va + n ≤ 2 ^ 52) && (List.range ((va + max n 1 - 1) / 2 ^ 25 - va / 2 ^ 25 + 1)).all (fun i =>
    match (s.part p).space.walk ((va / 2 ^ 25 + i) * 2 ^ 25) with
    | .leaf _ l => s.leafOk p l
    | _ => true)

/-- Every extent of a column lies in the VA space, or in an owned landing buffer that is set (R286, R424). -/
def State.extentsOk (s : State) (p : Nat) (l : PtrList) (i : Nat) (c : ColDesc) : Bool :=
  if c.role = roleSeq then true
  else
    (List.range l.count).all (fun e =>
      let v := l.value e i
      let n := c.padRows * c.rowStride
      if c.kind = 0 then s.addressOk p v n
      else if c.kind = 1 then s.inLb p (fld v 0 12) (fld v 16 32) n
      else true)

/-- A Figure's list: every column allowed, every required role present, planes and extents right. -/
def State.listOk (s : State) (p : Nat) (f : Figure) (l : PtrList) : Bool :=
  l.cols.all (columnRule f l) && l.cols.all (planesOk l)
    && (roleRules f l.paged).all (fun r => !r.must || (l.desc r.role 0).isSome)
    && l.cols.zipIdx.all (fun x => s.extentsOk p l x.2 x.1)
    && ((match f.par with | .dense d => decide (d.fuseRole ≠ 2) | _ => true) || l.cols.any (fun c => fusedInput f c)
        || (l.desc roleA 0).isSome)

/-- The output coordinates of an SR site fit their fields (R111). -/
def coordsOk (l : PtrList) : Bool :=
  l.cols.all (fun c => c.plane != 0 || !c.out
    || (decide (l.rowBase + c.padRows ≤ 2 ^ 24) && decide (l.colBase + c.padCols ≤ 2 ^ 24)))

/-! ### Dense Figures -/

/-- The rows and columns of a column cover the padded sizes. -/
def covers (l : PtrList) (role rows cols : Nat) : Bool :=
  l.cols.all (fun c => c.role != role || c.plane != 0 || (decide (rows ≤ c.padRows) && decide (cols ≤ c.padCols)))

/-- Padding of a dense Figure's extents over its shapes (R281). B is stored N rows by K, or K rows by N with B_T. -/
def densePads (d : DenseParams) (l : PtrList) : Bool :=
  let cs := (List.range 8).filter (fun c => d.shapeSet.getLsbD c)
  let m := (cs.map (fun c => ceilDiv d.maxM (shapeM c) * shapeM c)).foldl max 0
  let n := (cs.map (fun c => ceilDiv d.maxN (shapeN c) * shapeN c)).foldl max 0
  let k := ceilDiv d.maxK 32 * 32
  covers l roleA m k && (if d.bT then covers l roleB k n else covers l roleB n k)
    && l.cols.all (fun c => c.role != roleC || c.plane != 0 || !c.out || (decide (m ≤ c.padRows) && decide (n ≤ c.padCols)))

/-- Largest number of items of a counter load (R287): bands of a BAND pair, none for a fused consumer, which loads no counter (R299). -/
def denseMost (d : DenseParams) (l : PtrList) : Nat :=
  (((List.range 8).filter (fun c => d.shapeSet.getLsbD c)).map (fun c =>
    if d.fuseRole = 2 then 0
    else l.count * (ceilDiv d.maxM (shapeM c) * (if d.fuseRole = 1 ∧ d.fuseKind then 1 else ceilDiv d.maxN (shapeN c))))).foldl max 0

/-- A dense Figure's fields (R101, R125, R127, R276 to R281, R287). -/
def State.denseOk (s : State) (p : Nat) (rs : List Region) (d : DenseParams) (l : PtrList) : Bool :=
  pairCodes d.aFmt d.bFmt && oneOf d.cFmt [.fp32, .bf16, .fp16, .e4m3, .e5m2, .int32, .xs128] && rneRtzSr d.cRnd
    && (!scaledPair d.aFmt d.bFmt || gridOk d.grid) && (!d.bT || nativeByte d.bFmt)
    && d.kc % 32 == 0 && decide (32 ≤ d.kc) && decide (d.kc ≤ 4096)
    && d.shapeSet != 0 && !(usableShapes s.cfg rs d l).isEmpty && (d.fuseRole != 0 || d.fuseFig == 0)
    && densePads d l && decide (denseMost d l ≤ 2 ^ 24) && (d.cRnd != 2 || coordsOk l)
    && s.readable p d.shapeBase (16 * l.count)

/-! ### Attention Figures -/

/-- Types of a forward attention Figure (R159); `paged` a decode Figure (R257). -/
def attnTypes (a : AttnParams) (paged : Bool) : Bool :=
  let kv : List Fmt := [.e4m3, .e5m2, .bs8, .bs4, .bf4]
  oneOf a.qFmt [.e4m3, .e5m2, .int8, .fp16, .bf16]
    && (if paged then oneOf a.kFmt kv && oneOf a.vFmt kv
        else oneOf a.kFmt ([Fmt.int8, .fp16, .bf16] ++ kv) && oneOf a.vFmt ((if a.strict then [Fmt.int8, .fp16, .bf16] else [Fmt.int8]) ++ kv))

/-- The cases of R160 but its types and its count of query heads; `sc` and `ov` say that S_GRID and O_GRID are in use. -/
def attnCommon (a : AttnParams) (ov : Bool) : Bool :=
  decide (32 ≤ a.headDim) && decide (a.headDim ≤ 256) && a.headDim % 32 == 0 && decide (1 ≤ a.group) && decide (a.group ≤ 16)
    && rneSr a.pRnd && rneRtzSr a.oRnd && oneOf a.oFmt [.fp32, .bf16, .fp16, .e4m3, .e5m2] && finite32 a.headScale
    && (!a.maskMode || (a.mapCols4 != 0 && a.mapRows != 0 && a.mapPlanes != 0 && a.poolCount != 0))
    && a.lenBase % 16 == 0 && a.scaleBase % 4 == 0
    && (!scaledPair a.qFmt a.kFmt || gridOk a.sGrid) && (!ov || gridOk a.oGrid) && decide (a.maxKvLen ≤ 2 ^ 24)

/-- O_GRID is in use (R160, R179). -/
def usesOGrid (a : AttnParams) : Bool := blockCode a.vFmt || (a.strict && oneOf a.vFmt [.fp16, .bf16])

/-- The largest KV_LEN where K lies in memory. -/
def PtrList.padKv (l : PtrList) : Nat := ((l.desc roleK 0).map (·.padRows)).getD 0

/-- The largest Q_LEN outside a decode Figure (R161). -/
def PtrList.padQ (l : PtrList) : Nat := ((l.desc roleQ 0).map (·.padRows)).getD 0

/-- Rows of a column by query rows: a multiple of 128 that covers the largest Q_LEN, with `n` columns (R161, R186). -/
def qPads (l : PtrList) (role n : Nat) : Bool :=
  l.cols.all (fun c => c.role != role || c.plane != 0 || (c.padRows % 128 == 0 && decide (l.padQ ≤ c.padRows) && decide (n ≤ c.padCols)))

/-- Rows of a column by key tokens (R161, R186); a block-scaled V is stored dimension-major (R179). -/
def kvPads (l : PtrList) (role n : Nat) : Bool :=
  l.cols.all (fun c => c.role != role || c.plane != 0
    || (if role = roleV ∧ blockCode c.fmt then c.padCols % 128 == 0 && decide (l.padKv ≤ c.padCols) && decide (n ≤ c.padRows)
        else c.padRows % 128 == 0 && decide (l.padKv ≤ c.padRows) && decide (n ≤ c.padCols)))

/-- The tables an attention Figure reads (R166 to R168, R302). -/
def State.attnTables (s : State) (p : Nat) (a : AttnParams) (l : PtrList) : Bool :=
  let blocks := a.mapPlanes * a.mapRows * a.mapCols4 * 4
  s.readable p a.lenBase (16 * l.count) && (a.scaleBase == 0 || s.readable p a.scaleBase (4 * l.count))
    && (!a.maskMode || (s.readable p a.mapBase (blocks / 4) && s.readable p a.ptrBase (4 * blocks) && s.readable p a.poolBase (2048 * a.poolCount)))

/-- Largest number of items of a forward Figure (R189, R287). -/
def attnMost (a : AttnParams) (l : PtrList) : Nat := l.count / max 1 a.group * ceilDiv l.padQ 128

/-- The NEW column of a forward Figure with an append phase: K and V planes of the Q column's rows (R685). -/
def newPads (a : AttnParams) (l : PtrList) : Bool :=
  l.cols.all (fun c => c.role != roleNew || decide (2 * l.padQ * a.headDim ≤ c.padRows * c.padCols))

/-- A forward attention Figure's fields (R158 to R161, R186, R684). -/
def State.attnOk (s : State) (p : Nat) (a : AttnParams) (l : PtrList) : Bool :=
  attnCommon a (usesOGrid a) && attnTypes a false && l.count % max 1 a.group == 0 && (a.layer == 0 || l.paged)
    && (!l.paged || a.maxKvLen != 0)
    && qPads l roleQ a.headDim && qPads l roleO a.headDim && qPads l roleLse 1 && qPads l rolePo a.headDim && covers l rolePst l.padQ 1
    && (l.paged || (kvPads l roleK a.headDim && kvPads l roleV a.headDim))
    && newPads a l && decide (attnMost a l ≤ 2 ^ 24) && ((a.pRnd != 2 && a.oRnd != 2) || coordsOk l) && s.attnTables p a l

/-- The exponent of a value's leading bit; outside every normal range for a value that has none. -/
def Num.top (v : Num) : Int := match v with | .fin _ m e => if m = 0 then -10000 else ilog m e | _ => 10000

/-- A backward attention Figure's fields but its chain (R194 to R197). -/
def State.backwardOk (s : State) (p : Nat) (a : AttnParams) (x : BwdExt) (l : PtrList) : Bool :=
  let io : List Fmt := [.e4m3, .e5m2, .int8, .fp16, .bf16]
  let out : List Fmt := [.fp32, .bf16, .fp16, .xs128]
  let pFmt : Nat := if a.strict then 6 else 10
  let g := (fFP32.decode x.gradScale.toNat)
  let k := g.scale (-x.dsShift)
  attnCommon a false && !a.partialOut && a.layer == 0 && !l.paged && l.count % max 1 a.group == 0
    && oneOf a.qFmt io && oneOf a.kFmt io && oneOf a.vFmt io
    && oneOf x.doFmt (if a.strict then [.e4m3, .e5m2, .fp16, .bf16] else [.e4m3, .e5m2]) && oneOf x.dsFmt [.e4m3, .e5m2, .fp16]
    && oneOf x.dkvFmt out && oneOf x.dqFmt out && decide (-64 ≤ x.dsShift) && decide (x.dsShift ≤ 63)
    && rneRtzSr x.dsRnd && rneRtzSr x.gRnd && g.isFin && !g.isZero && decide (-126 ≤ k.top) && decide (k.top ≤ 127)
    && (!scaledPair x.dsFmt a.kFmt || gridOk x.dqGrid) && (!scaledPair x.dsFmt a.qFmt || gridOk x.dkGrid)
    && (!scaledPair x.doFmt a.vFmt || gridOk x.dpGrid) && (!scaledPair pFmt x.doFmt || gridOk x.dvGrid)
    && [roleQ, roleO, roleDo, roleDq].all (fun r => qPads l r a.headDim) && [roleLse, roleD].all (fun r => qPads l r 1)
    && [roleK, roleV, roleDk, roleDv].all (fun r => kvPads l r a.headDim)
    && decide (l.count * ceilDiv l.padQ 128 ≤ 2 ^ 24) && decide (l.count / max 1 a.group * ceilDiv l.padKv 128 ≤ 2 ^ 24)
    && ((a.pRnd != 2 && x.dsRnd != 2 && x.gRnd != 2) || coordsOk l) && s.attnTables p a l

/-- Elements of the first column with a role. -/
def PtrList.elems (l : PtrList) (role : Nat) : Nat := ((l.desc role 0).map (fun c => c.padRows * c.padCols)).getD 0


/-- A decode Figure's fields (R256 to R258). -/
def State.decodeOk (s : State) (p : Nat) (h : FigRec) (a : AttnParams) (x : DecExt) (l : PtrList) : Bool :=
  let unit := x.qrows * a.group * a.headDim
  let n := hKv a x l
  let most := l.count * n * ceilDiv a.maxKvLen (2 ^ x.chunkLog2)
  attnCommon a (usesOGrid a) && attnTypes a true && !a.maskMode && a.layer == 0 && a.maxKvLen != 0
    && decide (1 ≤ x.qrows) && decide (x.qrows ≤ 8) && decide (7 ≤ x.chunkLog2) && decide (x.chunkLog2 ≤ 24)
    && decide (a.group * x.qrows ≤ 128)
    && (!x.self || (!blockCode a.vFmt && oneOf x.newFmt [.fp32, .bf16] && rneSr x.newRnd
        && h.append == 2 && h.aLayer == x.layer && h.aRnd == x.newRnd && h.aSite == x.newSite))
    && decide (most ≤ x.partSlots) && s.readable p x.partBase (slotBytes a x * x.partSlots)
    && s.writable p x.partBase (slotBytes a x * x.partSlots)
    && l.elems roleQ != 0 && l.elems roleQ % unit == 0
    && (a.partialOut || (l.elems roleO == l.elems roleQ && decide (x.qrows * a.group * n ≤ l.elems roleLse)))
    && ((l.desc roleNew 0).isNone || decide (2 * x.qrows * n * a.headDim ≤ l.elems roleNew))
    && ((l.desc rolePo 0).isNone || decide (x.qrows * a.group * n * a.headDim ≤ l.elems rolePo))
    && ((l.desc rolePst 0).isNone || decide (x.qrows * a.group * n ≤ l.elems rolePst))
    && decide (most ≤ 2 ^ 24) && ((a.pRnd != 2 && a.oRnd != 2) || coordsOk l) && s.attnTables p a l

/-- The partial sets of an ATTN_MERGE Figure: 2 to 1,024, as many rows of PO as of PST (R269, log 100). -/
def setsOk (a : AttnParams) (l : PtrList) : Bool :=
  let n := mergeSets a l
  match mergeTarget a l with
  | none => false
  | some t =>
    let size (role : Nat) : Nat :=
      ((l.cols.filter (fun c => !c.out && decide (c.plane = 0) && decide (c.role = role))).map (fun c => c.padRows * c.padCols)).sum
    decide (2 ≤ n) && decide (n ≤ 1024) && decide (size rolePo = n * (t.padRows * t.padCols)) && decide (n * t.padRows ≤ size rolePst)

/-- An ATTN_MERGE Figure's fields: only those of R269 may be set. -/
def mergeOk (a : AttnParams) (l : PtrList) : Bool :=
  let b : AttnParams := { a with partialOut := false, strict := false, oFmt := 0, oRnd := 0, oSat := false, oSite := 0, spinId := 0 }
  let z : AttnParams := ⟨false, false, 0, 0, 0, 0, 0, 0, 0, 0, 0, 0, false, false, 0, 0, 0, 0, 0, 0, 0, 0, 0, 0, 0, 0, 0, 0, 0⟩
  decide (b = z) && oneOf a.oFmt [.fp32, .bf16, .fp16, .e4m3, .e5m2] && rneRtzSr a.oRnd && !l.paged && (a.oRnd != 2 || coordsOk l)
    && setsOk a l

/-- The step state record at VA is valid (R213). -/
def State.recordOk (s : State) (p va : Nat) : Load Unit := do
  need (va % 8 == 0)
  let bs ← s.fetchVa p va 40
  need (StepState.ofBytes bs).ok

/-- An optimiser Figure's fields (R212). -/
def optimiserOk (o : OptParams) (l : PtrList) : Bool :=
  oneOf o.thetaFmt [.fp32, .bf16] && oneOf o.gFmt [.xs128, .fp32, .bf16] && coordsOk l
    && [roleM, roleR, roleG].all (fun r => covers l r (((l.desc roleTheta 0).map (·.padRows)).getD 0) (((l.desc roleTheta 0).map (·.padCols)).getD 0))

/-! ### Append records -/

/-- An append record (R685). -/
def appendOk (f : Figure) : Bool :=
  let h := f.hdr
  let vFmt : Option Nat := match f.par with | .attn a => some a.vFmt | .decode a _ => some a.vFmt | _ => none
  if h.append = 0 then h.aLayer == 0 && h.aRnd == 0 && h.aSite == 0
  else
    match f.list, vFmt with
    | some l, some v =>
      decide (h.append ≤ 2) && l.paged && rneSr h.aRnd && (!blockCode v || h.aRnd == 0)
        && l.cols.any (fun c => decide (c.role = roleNew) && oneOf c.fmt [.fp32, .bf16])
    | _, _ => false

/-! ### Tile programs -/

/-- Cores that a tile program names are cores of the partition (R56). -/
def progCores (n : Nat) (g : TileProg) : Bool :=
  g.streams.all (fun d => decide (d.core < n) && decide (d.engine < 8))
    && g.wins.all (fun w => decide (w.core < n) && (bit w.word.toNat 6 || decide (fld w.word.toNat 0 6 < n)))
    && g.ops.all (fun o =>
      match o with
      | .credTake c _ _ => decide (c < n)
      | .credReturn c _ _ => decide (c < n)
      | _ => true)

/-- A window's fields (R314). -/
def winOk (w : WinDecl) : Bool :=
  let x := w.word.toNat
  decide (w.win < 16) && fld x 7 9 == 0 && decide (1 ≤ fld x 32 16) && decide (fld x 32 16 ≤ 24576) && decide (fld x 16 16 ≤ fld x 32 16)

/-- An operation of a tile program on a Scratchpad of `rows` rows (R101, R130, R141, R143, R313). -/
def opOk (rows : Nat) (o : TileOp) : Bool :=
  match o with
  | .array w0 w1 => (arrayDecode rows w0 w1).isSome
  | .shift ds => ds.all (fun d => decide (0 ≤ d))
  | .inPlace a n => decide (a + n ≤ rows)
  | .rows a n _ => decide (a + n ≤ rows)
  | .rounding r strictVu => strictVu || (r != .rup && r != .rdn)
  | .rowScaleDrain m ms => decide (m = fp32One) && ms.all (fun x => decide (x = fp32One))
  | _ => true

/-- Rows an operation reads (false) and writes (true), as ranges. -/
def opRows (o : TileOp) : List (Nat × Nat × Bool) :=
  match o with
  | .array w0 w1 =>
    (match arrayDecode (2 ^ 16) w0 w1 with
    | some a =>
      [(a.aRow, a.aRow + stepRows a.aFmt a.ta * a.steps, false), (a.bRow, a.bRow + stepRows a.bFmt a.tb * a.steps, false)]
        ++ (if a.ta = .block then [(a.aSc, a.aSc + (a.steps + 3) / 4, false)] else [])
        ++ (if a.tb = .block then [(a.bSc, a.bSc + (a.steps + 3) / 4, false)] else [])
    | none => [])
  | .inPlace a n => [(a, a + n, true)]
  | .rows a n w => [(a, a + n, w)]
  | _ => []

/-- Rows of a window, as a range. -/
def winRows (w : WinDecl) : Nat × Nat := (fld w.word.toNat 48 16, fld w.word.toNat 48 16 + fld w.word.toNat 32 16)

/-- The rounding mode of a stream's conversion is one of RNE, RTZ and SR (R101). -/
def streamRndOk (d : StreamDecl) : Bool := match d.conv with | .convert _ _ c => c.rnd != .rup && c.rnd != .rdn | _ => true

/-- A stream conversion or an operation of a tile program rounds under SR (R111). -/
def progDraws (g : TileProg) : Bool :=
  g.streams.any (fun d => match d.conv with | .convert _ _ c => c.rnd == .sr | _ => false)
    || g.ops.any (fun o => match o with | .rounding r _ => r == .sr | _ => false)

/-- A tile program's fields, for QUARTERS of `top` rows (R101, R216, R221, R313, R330, R380). -/
def progOk (n rows top : Nat) (f : Figure) : Bool :=
  let g := f.prog
  progCores n g && g.wins.all winOk && g.ops.all (opOk rows) && g.streams.all streamRndOk
    && g.ops.all (fun o => (opRows o).all (fun r => decide (r.2.1 ≤ top))) && g.wins.all (fun w => decide ((winRows w).2 ≤ top))
    && g.streams.all (fun d => decide ((g.streams.filter (fun e => decide (e.core = d.core) && decide (e.engine = d.engine))).length ≤ 8))
    && (f.hdr.condVote || !(g.ops.contains .optAdam || decide (f.hdr.ftype = 5)))
    && !(f.hdr.condVote && (match f.par with | .scaleStep _ => true | _ => false))

/-! ### Snapshot Figures -/

/-- A snapshot Figure's fields (R56, R571, R572). -/
def State.snapshotOk (s : State) (p top : Nat) (m : Manifest) : Bool :=
  let q := s.part p
  let body := m.bodyBytes q.plane
  m.ranges.all (fun r =>
    match r with
    | .mem va n => s.pinned p va n
    | .spm c a n => decide (c < s.coreCount p) && decide (a + n ≤ top))
    && (m.posBytes == 0 || s.pinned p m.posVa m.posBytes) && s.pinned p m.stageVa m.stageBytes
    && decide (body ≤ m.stageBytes) && q.snap.set && decide (4096 + crcBytes body + body ≤ q.snap.slotMb * 1000000)

/-! ### One Figure -/

/-- The field checks of one Figure. Of a KV_COMMIT batch table, whose length the image does not give, the first entry is to be readable
(R302, DESIGN CHOICE, log 100). -/
def State.figureOk (s : State) (p : Nat) (c : Chor) (rs : List Region) (f : Figure) : Load Unit := do
  let rows := s.cfg.spmRows
  let top := c.quarters * s.cfg.quarterRows
  need (maskOk (s.coreCount p) f.hdr.coreMask)
  need (progOk (s.coreCount p) rows top f && appendOk f)
  match f.list with
  | some l => need (s.listOk p f l && (!progDraws f.prog || coordsOk l))
  | none => pure ()
  match f.par, f.list with
  | .dense d, some l => need (s.denseOk p rs d l)
  | .attn a, some l => need (s.attnOk p a l)
  | .backward a x, some l => do
    need (s.backwardOk p a x l)
    need (!x.dqPartial || c.chains.any (fun k => k.sources.any (fun y =>
      decide (y.1 = f.hdr.figId) && decide (l.colOf roleDq 0 = some y.2))))
  | .decode a x, some l => need (s.decodeOk p f.hdr a x l)
  | .merge a, some l => need (mergeOk a l)
  | .optimiser o, some l => do
    need (optimiserOk o l)
    s.recordOk p o.stateBase
  | .scaleStep va, _ => s.recordOk p va
  | .kvCommit va, _ => need (s.readable p va 16)
  | .resReload i, _ => need (rs.any (fun r => decide (r.resId = i)))
  | .snapshot m, _ => need (s.snapshotOk p top m)
  | _, _ => pure ()

/-! ### Links and regions -/

/-- A transfer's fields (R426, R428). -/
def State.xferOk (s : State) (p : Nat) (c : Chor) (x : Xfer) : Bool :=
  x.offset % 64 == 0 && x.bytes % 64 == 0 && decide (64 ≤ x.bytes) && (!x.mc || decide (x.dest < 256)) && (c.place x.srcFig).isSome
    && (if x.srcLb then zeros x.src [(12, 4), (48, 4)] && s.inLb p (fld x.src 0 12) (fld x.src 16 32) x.bytes
        else decide (x.src + x.bytes ≤ 2 ^ 52) && s.readable p x.src x.bytes && s.pinned p x.src x.bytes)

/-- A binding's fields (R427). -/
def State.bindOk (s : State) (p : Nat) (c : Chor) (b : Binding) : Bool :=
  s.inLb p b.lb b.offset b.bytes && (c.place b.consumer).isSome && (c.place b.releaseFig).isSome

/-- A chain's fields (R443, R495). -/
def State.chainOk (s : State) (p : Nat) (c : Chor) (k : Chain) : Bool :=
  let node := (s.part p).plane.node.toNat
  let res := k.result.toNat
  decide (k.fmt = codeXs ∨ k.fmt = codeFp32) && decide (2 ≤ k.members.length) && decide (k.members.length ≤ 1024)
    && decide k.members.Nodup && k.members.contains node && decide (1 ≤ k.sources.length) && decide (k.sources.length ≤ 64)
    && decide (1 ≤ k.rows) && decide (1 ≤ k.segRows) && k.elems % k.rows == 0
    && k.sources.all (fun x =>
      match c.place x.1 with
      | some i =>
        (match (c.figures[i]?).bind (·.list) with
        | some l => (match l.cols[x.2]? with | some d => decide (d.fmt = k.fmt) && d.out | none => false)
        | none => false)
      | none => false)
    && (k.members.head? == some node || s.ownsLb p k.lb)
    && (k.members.getLast? != some node
        || (if bit res 63 then c.xfers.any (fun x => decide (x.xferId = fld res 0 16) && x.mc) && fld res 16 47 == 0
            else decide (res < 2 ^ 52) && s.pinned p res (k.elems * codeBits k.fmt / 8) && s.writable p res (k.elems * codeBits k.fmt / 8)))

/-- Resident regions (R56, R326, R330): unique, of the partition's cores, below QUARTERS, apart on shared cores, with a backing
copy. -/
def State.regionsOk (s : State) (p top : Nat) (rs : List Region) : Bool :=
  decide ((rs.map (·.resId)).Nodup)
    && rs.all (fun r => maskOk (s.coreCount p) r.mask && decide (1 ≤ r.rows) && decide (r.firstRow + r.rows ≤ top)
        && decide (r.backing + 512 * r.rows ≤ 2 ^ 52))
    && rs.all (fun a => rs.all (fun b => decide (a.resId = b.resId) || decide (a.mask &&& b.mask = 0)
        || !meets (a.firstRow, a.firstRow + a.rows) (b.firstRow, b.firstRow + b.rows)))

/-- Every INVALID_FIELD check of an image that has been read. -/
def State.fieldsChecked (s : State) (p : Nat) (x : Loaded) : Load Unit := do
  let c := x.chor
  need (s.regionsOk p (c.quarters * s.cfg.quarterRows) x.regions)
  c.figures.forM (fun f => s.figureOk p c x.regions f)
  need (decide ((c.xfers.map (·.xferId)).Nodup) && c.xfers.all (s.xferOk p c))
  need (c.bindings.all (s.bindOk p c))
  need (c.credits.all (fun k => decide (k.srcNode = (s.part p).plane.node.toNat) || s.ownsLb p k.lb))
  need (decide ((c.chains.map (·.chainId)).Nodup) && c.chains.all (s.chainOk p c))

end Sys2Proof.Machine
end

