-- ==== Sys2Proof/Machine/Schedule.lean ====
section
/-! DEFINITION. The schedule checks of a Choreography load, each failing one being INVALID_SCHEDULE: intervals (R60), tables, reruns and
checkpoints (R171, R208 to R210, R278, R295), votes (R217), Claim Counters (R289), fused pairs (R257, R298, R300), windows and regions
(R317, R326), streams (R380), landing buffers and multicast transfers (R436, R438), snapshots (R572) and the mirror buffer (R580). -/

namespace Sys2Proof.Machine

/-! ### Intervals -/

/-- [START, DEADLINE) of two Figures overlap (R60). -/
def overlaps (a b : FigRec) : Bool := decide (a.start < b.deadline) && decide (b.start < a.deadline)

/-- Pairs of different places of a list. -/
def otherPairs (fs : List Figure) : List (Figure × Figure) :=
  fs.zipIdx.flatMap (fun x => (fs.zipIdx.filter (fun y => decide (y.2 ≠ x.2))).map (fun y => (x.1, y.1)))

/-- R60, but for transfers. -/
def intervalsOk (c : Chor) : Bool :=
  c.figures.all (fun f => decide (f.hdr.start < f.hdr.deadline)) && decide (c.lastDeadline ≤ 2 ^ 47)
    && (otherPairs c.figures).all (fun x => !overlaps x.1.hdr x.2.hdr || !masksMeet x.1.hdr.coreMask x.2.hdr.coreMask
      || fusedPair x.1 x.2 || fusedPair x.2 x.1)

/-- A transfer issues within its producer's interval (R60, R436). -/
def issueOk (c : Chor) (x : Xfer) : Bool :=
  match (c.place x.srcFig).bind (fun i => c.figures[i]?) with
  | some f => decide (f.hdr.start ≤ x.issue) && decide (x.issue < f.hdr.deadline)
  | none => false

/-! ### Extents -/

/-- Delivered bytes that a Figure is the first to read (R208). -/
def State.boundExts (s : State) (c : Chor) (f : Figure) : List Ext :=
  (c.bindings.filter (fun b => decide (b.consumer = f.hdr.figId))).map (fun b => Ext.run ((s.landBuf b.lb).base + b.offset) b.bytes)

/-- Every two output rows of a Figure are apart, but for those of one column and entry (R295). -/
def disjointOuts (es : List Ext) : Bool :=
  es.zipIdx.all (fun x => (!decide (1 < x.1.rows) || decide (x.1.width ≤ x.1.stride))
    && es.zipIdx.all (fun y => decide (y.2 ≤ x.2) || !x.1.meets y.1))

/-- R171, R208, R209, R278 and R295 for one Figure beside the others. -/
def State.extentsApart (s : State) (c : Chor) (f : Figure) : Bool :=
  let reads := s.readExts f ++ s.boundExts c f
  let place := s.placeExts f
  let own := s.writeExts f
  disjointOuts own && !extsMeet (if f.hdr.rerunOk then reads ++ place else reads) own
    && c.figures.all (fun g => decide (g.hdr.figId = f.hdr.figId) || !overlaps f.hdr g.hdr || fusedPair g f
      || !extsMeet (reads ++ place ++ tableExts f) (s.writeExts g))

/-- R210: between the writer's START and a recomputing reader's DEADLINE no other Figure writes what the one wrote and the other reads. The
writer is the last in the list before the reader. -/
def State.checkpointsOk (s : State) (c : Chor) : Bool :=
  c.figures.zipIdx.all (fun r => !r.1.recomputes || c.figures.zipIdx.all (fun w => decide (r.2 ≤ w.2)
    || c.figures.zipIdx.all (fun x => (decide (w.2 ≤ x.2) && decide (x.2 ≤ r.2))
      || c.figures.zipIdx.any (fun v => decide (w.2 < v.2) && decide (v.2 < r.2) && s.checkpoint v.1 r.1 x.1)
      || decide (x.1.hdr.deadline ≤ w.1.hdr.start) || decide (r.1.hdr.deadline ≤ x.1.hdr.start) || !s.checkpoint w.1 r.1 x.1)))

/-! ### Votes -/

/-- R217, and the START of a SCALE_STEP (R221). -/
def votesOk (c : Chor) (node : Nat) : Bool :=
  let scope (v : Vote) := c.figures.filter (fun f => decide (v.scopeFirst ≤ f.hdr.figId) && decide (f.hdr.figId ≤ v.scopeLast))
  decide ((c.votes.map (·.voteId)).Nodup)
    && c.votes.all (fun v => decide (v.v + 2 ≤ v.vd) && decide (v.scopeFirst ≤ v.scopeLast) && (c.place v.scopeLast).isSome
      && (scope v).all (fun f => decide (f.hdr.deadline ≤ v.v)))
    && c.votes.all (fun a => c.votes.all (fun b => decide (a.voteId = b.voteId)
      || !meets (a.scopeFirst, a.scopeLast + 1) (b.scopeFirst, b.scopeLast + 1)))
    && c.figures.all (fun f => !f.awaitsVote || c.votes.any (fun v => decide (v.vd ≤ f.hdr.start)))
    && c.bindings.all (fun b => decide (b.srcNode ≠ node)
      || !c.xfers.any (fun x => decide (x.xferId = b.xferId)
          && c.figures.any (fun f => decide (f.hdr.figId = x.srcFig) && f.hdr.condVote))
      || c.figures.all (fun f => decide (f.hdr.figId ≠ b.consumer) || f.hdr.condVote))

/-! ### Counters and streams -/

/-- At each Figure's START, what `n` counts over the Figures whose interval holds that beat stays within `most`. -/
def peakOk (c : Chor) (n : Figure → Nat) (most : Nat) : Bool :=
  c.figures.all (fun f => decide
    (((c.figures.filter (fun g => decide (g.hdr.start ≤ f.hdr.start) && decide (f.hdr.start < g.hdr.deadline))).map n).sum ≤ most))

/-! ### Fused pairs -/

/-- The largest footprint of a dense Figure over its shapes (R300); 0 for another. -/
def largestFootprint (f : Figure) : Nat :=
  match f.par, f.list with
  | .dense d, some l => (((List.range 8).filter (fun c => d.shapeSet.getLsbD c)).map (footprint d l)).foldl max 0
  | _, _ => 0

/-- KIND 2 columns of a list by direction. -/
def fusedCols (f : Figure) (out : Bool) : List ColDesc :=
  match f.list with
  | some l => l.cols.filter (fun c => decide (c.kind = 2) && decide (c.out = out))
  | none => []

/-- The fused pair of producer `a` and consumer `b` (R298, R300). -/
def pairFits (g : Design) (rs : List Region) (a b : Figure) : Bool :=
  match b.par with
  | .dense d =>
    a.hdr.figId + 1 == b.hdr.figId && a.hdr.coreMask == b.hdr.coreMask && a.hdr.start == b.hdr.start
      && decide (a.hdr.deadline ≤ b.hdr.deadline)
      && (match a.par with
          | .dense e => e.fuseRole == 1 && e.fuseFig == b.hdr.figId && e.fuseKind == d.fuseKind
              && (!d.fuseKind || decide (largestFootprint a + largestFootprint b ≤ g.budget rs))
          | .attn _ => !d.fuseKind
          | _ => false)
      && (fusedCols b false).all (fun x => (fusedCols a true).any (fun y => decide (y.role = x.role) && decide (y.plane = x.plane)
          && decide (y.fmt = x.fmt) && decide (y.padRows = x.padRows) && decide (y.padCols = x.padCols)))
  | _ => false

/-- Every Figure with FUSE fields has its partner (R257, R298); only fused Figures have KIND 2 columns. -/
def fusesOk (g : Design) (rs : List Region) (c : Chor) : Bool :=
  c.figures.all (fun f =>
    let consumers := c.figures.filter (fun b => fusedPair f b)
    (match fuseOf f with
      | some (2, i) => c.figures.any (fun a => decide (a.hdr.figId = i) && pairFits g rs a f)
      | some (1, i) => consumers.any (fun b => decide (b.hdr.figId = i))
      | _ => true)
    && decide (consumers.length ≤ 1) && ((fusedCols f true).isEmpty || !consumers.isEmpty)
    && ((fusedCols f false).isEmpty || (match fuseOf f with | some (2, _) => true | _ => false)))

/-! ### Scratchpads -/

/-- A core of the partition, by index, is in a Figure's mask. -/
def onCore (h : FigRec) (i : Nat) : Bool := decide (h.coreMask = 0) || h.coreMask.getLsbD i

/-- The largest take from a window before the first return to it (R317). -/
def firstTakes (ops : List TileOp) (core win : Nat) : Nat :=
  let mine := ops.takeWhile (fun o => match o with | .credReturn c w _ => !(decide (c = core) && decide (w = win)) | _ => true)
  (mine.map (fun o => match o with | .credTake c w n => if c = core ∧ w = win then n else 0 | _ => 0)).foldl max 0

/-- Windows and takes of a Figure (R317). -/
def windowsOk (rs : List Region) (f : Figure) : Bool :=
  let ws := f.prog.wins
  f.prog.ops.all (fun o =>
    match o with
    | .credTake c w n => ws.any (fun d => decide (d.core = c) && decide (d.win = w) && decide (n ≤ fld d.word.toNat 32 16))
    | _ => true)
    && ws.all (fun d => decide (firstTakes f.prog.ops d.core d.win ≤ fld d.word.toNat 16 16)
      && rs.all (fun r => !r.mask.getLsbD d.core || !meets (winRows d) (r.firstRow, r.firstRow + r.rows)))
    && ws.zipIdx.all (fun a => ws.zipIdx.all (fun b => decide (b.2 ≤ a.2) || decide (a.1.core ≠ b.1.core)
      || (decide (a.1.win ≠ b.1.win) && !meets (winRows a.1) (winRows b.1))))

/-- No Figure writes a row of a resident region on a core of its mask (R326). -/
def regionsKept (rs : List Region) (f : Figure) : Bool :=
  f.prog.ops.all (fun o => (opRows o).all (fun r => !r.2.2
    || rs.all (fun g => !masksMeet f.hdr.coreMask g.mask || !meets (r.1, r.2.1) (g.firstRow, g.firstRow + g.rows))))

/-! ### Links -/

/-- UNITS that a list of credit records reserves. -/
def unitsOf (l : List CreditRec) : Nat := (l.map (·.units)).sum

/-- Two bindings of one landing buffer overlap while both are live (R436): the interval of a binding is taken from its consumer's START
to its release Figure's DEADLINE, the sender's ISSUE being no field of it. -/
def liveOverlap (c : Chor) (a b : Binding) : Bool :=
  let ivl (b : Binding) : Nat × Nat :=
    let f (i : Nat) := (c.place i).bind (fun i => c.figures[i]?)
    (((f b.consumer).map (·.hdr.start)).getD 0, ((f b.releaseFig).map (·.hdr.deadline)).getD 0)
  decide (a.lb = b.lb) && meets (a.offset, a.offset + a.bytes) (b.offset, b.offset + b.bytes) && meets (ivl a) (ivl b)

/-- R436 and R438. -/
def State.linksOk (s : State) (p : Nat) (c : Chor) : Bool :=
  let node := (s.part p).plane.node.toNat
  let mine := c.credits.filter (fun k => decide (k.srcNode = node))
  let held := c.credits.filter (fun k => decide (k.srcNode ≠ node))
  held.all (fun k => decide (unitsOf (held.filter (fun j => decide (j.lb = k.lb))) ≤ (s.landBuf k.lb).size / 512))
    && c.bindings.zipIdx.all (fun a => c.bindings.zipIdx.all (fun b => decide (b.2 ≤ a.2) || !liveOverlap c a.1 b.1))
    && c.xfers.all (fun x => issueOk c x
      && (let same := c.xfers.filter (fun y => y.mc == x.mc && decide (y.dest = x.dest) && decide (y.lb = x.lb)
            && decide (y.issue ≤ x.issue) && decide (x.issue ≤ y.release))
          decide ((same.map xferUnits).sum ≤ unitsOf (mine.filter (fun k => decide (k.lb = x.lb)))))
      && (!x.mc
        || (match kget none (s.part p).plane.groups x.dest with
            | some g => decide (g.members ≤ 1 + (mine.filter (fun k => decide (k.lb = x.lb))).length)
            | none => mine.any (fun k => decide (k.lb = x.lb)))))

/-- While the partition serves as a Partner its Choreographies leave the mirror buffer alone (R580). -/
def State.mirrorKept (s : State) (p : Nat) (c : Chor) : Bool :=
  (s.part p).snap.held.isNone
    || (c.bindings.all (fun b => decide (b.lb ≠ s.mirrorLb p))
      && c.credits.all (fun k => decide (k.srcNode = (s.part p).plane.node.toNat) || decide (k.lb ≠ s.mirrorLb p)))

/-! ### Snapshots -/

/-- A Figure writes rows [a, b) of core index `i`'s Scratchpad. -/
def writesRows (f : Figure) (i a b : Nat) : Bool :=
  onCore f.hdr i && f.prog.ops.any (fun o => (opRows o).any (fun r => r.2.2 && meets (r.1, r.2.1) (a, b)))

/-- No Figure writes what a snapshot Figure copies during its interval, or its staging area at any time (R572). -/
def State.snapshotsKept (s : State) (c : Chor) : Bool :=
  c.figures.all (fun f =>
    match f.par with
    | .snapshot m =>
      let mem := m.ranges.filterMap (fun r => match r with | .mem va n => some (Ext.run va n) | _ => none)
      c.figures.all (fun g =>
        let w := s.writeExts g
        !extsMeet w [Ext.run m.stageVa m.stageBytes]
          && (!overlaps f.hdr g.hdr || (!extsMeet w (Ext.run m.posVa m.posBytes :: mem)
            && m.ranges.all (fun r => match r with | .spm i a n => !writesRows g i a (a + n) | _ => true))))
    | _ => true)

/-- Every INVALID_SCHEDULE check. -/
def State.schedChecked (s : State) (p : Nat) (x : Loaded) : Bool :=
  let c := x.chor
  intervalsOk c && s.linksOk p c && c.figures.all (s.extentsApart c) && s.checkpointsOk c
    && votesOk c (s.part p).plane.node.toNat && peakOk c clmsOf 16 && peakOk c (fun f => f.prog.streams.length) (s.share 1024 p)
    && fusesOk s.cfg x.regions c && c.figures.all (windowsOk x.regions) && c.figures.all (regionsKept x.regions)
    && s.snapshotsKept c && s.mirrorKept p c

end Sys2Proof.Machine
end

