-- ==== Sys2Proof/Machine/Loader.lean ====
section
/-! DEFINITION. CHOR_LOAD (R302, R493 to R496): the order of its checks (R488), and what a load does: at a job load the channel lists
latch (R344, R364, R367) and pages beyond a smaller U go (R386); rows that no kept region holds are zeroised (R329, R335). -/

namespace Sys2Proof.Machine

/-! ### The job load -/

/-- The channels that a partition's SPREAD and LOCAL regions list. -/
def State.listed (s : State) (p : Nat) : List Nat :=
  ((s.partRegions p).filter (fun r => decide (r.mode ≤ 1))).flatMap (fun r => (r.list.getD []))

/-- Latch the channel lists of partition `p` (R344). -/
def latchLists (p : Nat) (s : State) : State :=
  (List.range 64).foldl (fun t n =>
    let r := t.region n
    if r.valid && !r.fw && decide (r.part = p) && decide (r.mode ≤ 1) then
      t.setRegion n { r with list := some ((regionReach t.cfg r).filter t.inService) }
    else t) s

/-- SERVED bit `p` of every channel, and SPARE channels that every partition concerned has latched (R364); one that carries a FW region
stays SPARE. -/
def setServed (p : Nat) (s : State) : State :=
  let l := s.listed p
  (List.range s.cfg.channels).foldl (fun t c =>
    let t1 := t.modChannel c (fun h => { h with served := BitVec.ofNat 4 (setBit h.served.toNat p (l.contains c)) })
    if (t1.channel c).state = .spare ∧ t.fwChannel c = false ∧ (t1.channelParts c).all (fun q => (t1.channel c).served.getLsbD q) then
      t1.modChannel c (fun h => { h with state := .online })
    else t1) s

/-- Pages of partition `p` whose leaf no longer satisfies R386, as (key, leaf). -/
def State.lostPages (s : State) (p : Nat) : List (Nat × Leaf) :=
  (s.part p).space.leaves.filterMap (fun x =>
    match x.2 with
    | some l => if s.leafOk p l then none else some (x.1, l)
    | none => none)

/-- Remove pages from the table, with their translations (R386, R395). -/
def removePages (p : Nat) (ls : List (Nat × Leaf)) (s : State) : State :=
  ls.foldl (fun t x =>
    invalidate p (x.1 * 2 ^ 25) (x.1 * 2 ^ 25 + x.2.bytes)
      (t.modPart p (fun q => { q with space := { q.space with leaves := kset none q.space.leaves x.1 none } }))) s

/-- The job load's part of a load: lists, SERVED bits and removed pages; with the number of pages removed. -/
def jobLoad (p : Nat) (s : State) : State × Nat :=
  let s1 := setServed p (latchLists p s)
  let gone := s1.lostPages p
  ((removePages p gone s1).modPart p (fun q => { q with jobLoaded := true }), gone.length)

/-- Capacity that the partition's regions lack against every channel of their reach, in 32 MiB units (R345). -/
def State.capLost (s : State) (p : Nat) : Nat :=
  (((s.partRegions p).filter (fun r => decide (r.mode ≤ 1))).map (fun r =>
    (usableOf r (regionReach s.cfg r).length - s.usable r) / 2 ^ 25)).sum

/-- Channels in the partition's SPREAD list. -/
def State.spreadChannels (s : State) (p : Nat) : Nat :=
  match (s.partRegions p).find? (fun r => decide (r.mode = 0)) with
  | some r => (s.regionList r).length
  | none => 0

/-- A channel of the block is FENCED or RETRAINING: a job load waits (R344). -/
def State.channelUnsettled (s : State) : Bool :=
  (List.range s.cfg.channels).any (fun c => decide ((s.channel c).state = .fenced) || decide ((s.channel c).state = .retraining))

/-! ### Scratchpads -/

/-- A region of the new Choreography that stays VALID (R329): the previous one ran under the same tag and declared it alike. -/
def Part.keeps (q : Part) (tag : BitVec 16) (r : Region) : Bool :=
  (match q.chor with | some c => decide (c.jobTag = tag) | none => false)
    && q.residents.any (fun o => o.valid && decide ({ o with valid := false } = { r with valid := false }))

/-- Zeroise a core's rows outside the given ranges, with both ACM banks cleared (R334). -/
def zeroiseBut (c : Nat) (kept : List (Nat × Nat)) (s : State) : State :=
  let keep (row : Nat) : Bool := kept.any (fun r => decide (r.1 ≤ row) && decide (row < r.2))
  s.modCore c (fun k => { k with
    spm := k.spm.filter (fun b => keep (b.1 / 512)), badRows := k.badRows.filter keep, tags := k.tags.filter (fun b => keep (b.1 / 512)),
    bank0 := Bank.clear, bank1 := Bank.clear })

/-- Zeroise the partition's Scratchpads but for the regions kept on each core (R329, R335). -/
def zeroiseForLoad (p : Nat) (kept : List Region) (s : State) : State :=
  (s.partCores p).zipIdx.foldl (fun t c =>
    zeroiseBut c.1 ((kept.filter (fun r => r.mask.getLsbD c.2)).map (fun r => (r.firstRow, r.firstRow + r.rows))) t) s

/-! ### The command -/

/-- Everything a load that passed its checks does (R109, R329, R493). -/
def installChor (p : Nat) (x : Loaded) (s : State) : State :=
  let q := s.part p
  let rs := x.regions.map (fun r => { r with valid := q.keeps x.chor.jobTag r })
  (zeroiseForLoad p (rs.filter (·.valid)) s).modPart p (fun q => { q with
    chor := some x.chor, spin := x.spin, residents := rs, snap := { q.snap with resume := none } })

/-- The load of an image that passed its checks, and its completion. The step state record is in no section of an image, so a load writes
none (R213; DESIGN CHOICE, log 102). -/
def loadChor (p ring : Nat) (seq : BitVec 16) (x : Loaded) (s : State) : State :=
  let (s1, gone) := if (s.part p).jobLoaded then (s, 0) else jobLoad p s
  let s2 := installChor p x s1
  complete ring seq stOk
    (x.chor.figures.length + gone % 2 ^ 32 * 2 ^ 32 + s2.capLost p % 2 ^ 32 * 2 ^ 64 + s2.spreadChannels p % 2 ^ 9 * 2 ^ 96) 0 s2

/-- CHOR_LOAD. A job load waits until no channel is FENCED or RETRAINING (R344). -/
def execChorLoad (ring : Nat) (seq : BitVec 16) (progs : List TileProg) (s : State) : Res :=
  .next (runCommand ⟨0x110, false, true, false, [(0x18, 0, 52), (0x20, 0, 32)]⟩ ring seq
    (fun p img t =>
      let fail (st : Nat) (s : State) := complete ring seq st 0 0 s
      let got := (do
        let x ← t.loadImage p (arg img 0x18 0 52) (arg img 0x20 0 32) (cmdTag img) progs
        t.fieldsChecked p x
        pure x : Load Loaded)
      match got with
      | .error none => fail stField t
      | .error (some l) => fail stField (fwUncorrectable p noFig l t)
      | .ok x =>
        if (t.part p).run.isSome then fail stChorBusy t
        else if !t.schedChecked p x then fail stSchedule t
        else if !(t.part p).jobLoaded && t.channelUnsettled then s
        else loadChor p ring seq x t) s)

end Sys2Proof.Machine
end

