-- ==== Sys2Proof/Machine/Jobs.lean ====
section
/-! DEFINITION. Jobs and runs: JOB_OPEN (R493, R527), JOB_END (R336, R468, R528), the quiet point (R248), CHOR_RUN, CHOR_STOP and
HOLD_REQUEST (R52, R62, R433, R496 to R498, R585). -/

namespace Sys2Proof.Machine

/-! ### Opening and ending a job -/

/-- JOB_OPEN (R489, R493, R527): the tag is recorded and the OPEN copy of the accounting counters taken. -/
def execJobOpen (ring : Nat) (seq : BitVec 16) (s : State) : Res :=
  .next (runCommand ⟨0x100, false, false, false, []⟩ ring seq
    (fun p img s =>
      let tag := cmdTag img
      if tag = 0 then complete ring seq stField 0 0 s
      else if (s.part p).job.isSome then complete ring seq stJobBusy 0 0 s
      else
        complete ring seq stOk s.beat.cnt.toNat 0 (s.modPart p (fun q => { q with
          job := some tag, jobLoaded := false, endedTags := q.endedTags.filter (fun t => decide (t ≠ tag))
          acct := { q.acct with opened := q.acct.live, openBeat := s.beat.cnt, openTag := tag } }))) s)

/-- Abort the Figures in progress with no further commit: their number, counted with KILL only (R336). -/
def stopFigures (p : Nat) (kill : Bool) (s : State) : State × Nat :=
  let q := s.part p
  let as := match q.run with | some r => r.active | none => []
  (as.foldl (fun t a =>
    let t1 := endAttempt p (q.figId a.fig) a.clms t
    if kill then dropFigure p a.fig t1
    else t1.modPart p (fun q => { q with run := q.run.map (fun r => { r with active := r.active.filter (fun b => !decide (b.fig = a.fig)) }) })) s,
   if kill then as.length else 0)

/-- Store lines already issued to HBM complete (R336). -/
def drainWrites (p : Nat) (s : State) : State :=
  (s.streams.filter (fun x => x.2.bound && decide (x.2.part = p))).foldl (fun t x =>
    x.2.lines.foldl (fun t l =>
      match l.place, l.data with
      | some (false, ch, ca), some bs =>
        if !l.write then t
        else if t.serve p ch = .lost then lostWrite ch ca x.2.fig [p] t
        else wcbAccept ch (ca / 64) p true (bs.zipIdx.map (fun b => (ca % 64 + b.2, b.1))) t
      | _, _ => t) t) s

/-- A core of an ended job holds nothing of it. -/
def idleCore (c : Nat) (s : State) : State :=
  s.modCore c (fun k => { k with
    slot0 := Slot.empty, slot1 := Slot.empty, held := [], answer := none, windows := [], rows := [], rowMask := 4, busyCh := [],
    poisoned := false })

/-- A snapshot in progress is abandoned (R336, R577). -/
def abandonSnapshot (p : Nat) (s : State) : State :=
  let n := (s.part p).snap
  if n.busy then
    (snapFail p n.nextSlot 5 stJobEnded s).modPart p (fun q => { q with snap := { q.snap with
      staging := none, stageHdr := [], writing := false, mirroring := false, mirrorSent := false } })
  else s

/-- The sequences of partition `p` opened under a tag, by slot. -/
def State.tagSeqs (s : State) (p : Nat) (tag : BitVec 16) : List Nat :=
  (s.seqs.filter (fun x => decide (x.2.part = p) && decide (x.2.state ≠ .free) && decide (x.2.jobTag = tag))).map (·.1)

/-- Close a sequence, with the commands that wait for its pages to move (R252). -/
def closeTagSeq (p slot : Nat) (s : State) : State :=
  finishWaits p (fun x => decide (x = .evict slot) || decide (x = .restore slot) || decide (x = .restoreAfterEvict slot)) stSeqStale 0
    (closeSeq slot s)

/-- What a partition no longer holds after JOB_END (R528). -/
def Part.ended (q : Part) (tag : BitVec 16) (cnt : BitVec 64) : Part :=
  { q with
    job := none, jobLoaded := false, zeroising := false, chor := none, run := none, spin := List.replicate 16 (0, 0), residents := [], reserved := []
    flags := Flags.none, firstFig := 0xFFFFFF, firstBeat := 0, voteId := 0, voteFlags := 0, voteClear := false, voteValid := false
    snap := { q.snap with resume := none, held := none }
    acct := { q.acct with ended := q.acct.live, endBeat := cnt, endTag := tag } }

/-- The sequence of R336 for the open job of partition `p`, and JOB_END's completion: stores that have issued complete before their streams
go; ZEROISING is 1 from the zeroisation to the completion, which one command holds here. -/
def endJob (p ring : Nat) (seq : BitVec 16) (kill : Bool) (s : State) : State :=
  let tag := s.jobTag p
  let (s1, n) := stopFigures p kill (drainWrites p s)
  let s2 := haltRun p s1
  let s3 := clearClms ((List.range 16).map (16 * p + ·)) s2
  let s4 := unbindWhere (fun x => decide (x.part = p)) s3
  let s5 := flushPart p (abandonSnapshot p ((s4.partCores p).foldl (fun t c => idleCore c t) s4))
  let s6 := (s5.partCores p).foldl (fun t c => zeroiseCore c t) (s5.modPart p (fun q => { q with zeroising := true }))
  let seqs := s6.tagSeqs p tag
  let s7 := seqs.foldl (fun t k => closeTagSeq p k t) s6
  let (ws, s8) := takeWaits p Wait.isReserve s7
  let s9 := ws.foldl (fun t w => resumeReserve p false w t) s8
  complete ring seq stOk (seqs.length % 2 ^ 32 + n % 2 ^ 32 * 2 ^ 32) 0 (s9.modPart p (fun q => q.ended tag s9.beat.cnt))

/-- JOB_END (R336, R493): from its acceptance the tag counts as ended; without KILL the sequence waits for the quiet point. -/
def execJobEnd (ring : Nat) (seq : BitVec 16) (s : State) : Res :=
  .next (runCommand ⟨0x101, false, true, false, [(0x18, 0, 1)]⟩ ring seq
    (fun p img s =>
      let s1 := s.modPart p (fun q => { q with endedTags := cmdTag img :: q.endedTags })
      if arg img 0x18 0 1 = 1 then endJob p ring seq true s1 else addWait p ring seq (.jobEnd false 0 0) s1) s)

/-! ### The quiet point -/

/-- No Figure of KIND 0 or KIND 1 of partition `p` is in progress (R248). -/
def State.quiet (s : State) (p : Nat) : Bool :=
  match (s.part p).run with
  | some r => r.active.all (fun a => match (s.part p).figure a.fig with | some f => decide (f.hdr.kind = 2) | none => true)
  | none => true

/-- A change that waits for the quiet point takes effect; none while it is not ready. -/
def quietEffect (p : Nat) (w : Waiting) (s : State) : Option State :=
  match w.what with
  | .jobEnd k _ _ => some (endJob p w.ring w.seq k s)
  | _ => quietChange p w s

/-- Apply the changes that wait, in the order in which their commands came. -/
def quietChanges (p : Nat) (ws : List Waiting) (s : State) : State :=
  ws.foldl (fun t w =>
    if !(t.part p).waiting.contains w then t
    else
      match quietEffect p w (t.modPart p (fun q => { q with waiting := q.waiting.erase w })) with
      | some u => u
      | none => t) s

/-- QUIET_POINT: CC1 applies every pending change (R248). -/
def execQuietPoint (p : Nat) (s : State) : Res :=
  .next (if s.fwRunning && s.quiet p then quietChanges p (s.part p).waiting s else s)

/-! ### Runs -/

/-- Power the quarters `on` of a partition's Scratchpads; the contents of those that change are zero (R330, R331, R335). -/
def setQuarters (p : Nat) (on : BitVec 4) (s : State) : State :=
  let old := (s.part p).quarterOn
  let same (row : Nat) : Bool :=
    let q := row / s.cfg.quarterRows
    old.getLsbD q && on.getLsbD q
  let s1 := (s.partCores p).foldl (fun t c => t.modCore c (fun k => { k with
    spm := k.spm.filter (fun b => same (b.1 / 512)), badRows := k.badRows.filter same, tags := k.tags.filter (fun b => same (b.1 / 512)) })) s
  s1.modPart p (fun q => { q with quarterOn := on })

/-- The quarters that QUARTERS powers (R330). -/
def powerQuarters (p n : Nat) (s : State) : State := setQuarters p (BitVec.ofNat 4 (2 ^ n - 1)) s

/-- The CREDIT frames that grant each sender its reserved units (R433). -/
def grantCredits (p : Nat) (c : Chor) (s : State) : State :=
  let node := (s.part p).plane.node.toNat
  (c.credits.filter (fun k => decide (k.srcNode ≠ node))).foldl (fun t k => sendToward p k.srcNode (.credit k.srcNode node k.lb k.units) t) s

/-- A run that begins, with its first iteration and the Figures that count as complete (R585). -/
def startRun (iterations traceVa traceLen : Nat) (from' : Option (Nat × Nat × Nat)) : Run where
  iterations := iterations
  first := match from' with | some (_, i, _) => i | none => 0
  iteration := match from' with | some (_, i, _) => i | none => 0
  next := match from' with | some (_, _, f) => f + 1 | none => 0
  completed := match from' with | some (_, _, f) => List.range (f + 1) | none => []
  raisedLate := []
  progressed := []
  lateHolds := []
  active := []
  records := []
  traceVa := traceVa
  traceLen := traceLen
  tracePos := 0
  traceOn := decide (traceVa ≠ 0)
  traceFull := false
  stopNow := false
  stopAtEnd := false
  stopCause := 0
  tempoLost := false

/-- The partition's tempo registers as a run with base beat `b` is accepted while BEAT_CNT is `cnt` (R52, R87, R585). -/
def Tempo.begin (t : Tempo) (cnt : BitVec 64) (b offset : Nat) : Tempo :=
  { t with base := BitVec.ofNat 64 b, sched := cnt - BitVec.ofNat 64 b + BitVec.ofNat 64 offset, holdTotal := 0, hold := false, running := true, offset := offset, late := [], plan := none,
           hostLate := none }

/-- CHOR_RUN accepted (R52, R330, R433, R497, R498, R585). -/
def beginRun (p : Nat) (c : Chor) (b iterations traceVa traceLen : Nat) (s : State) : State :=
  let r := (s.part p).snap.resume
  let s1 := powerQuarters p c.quarters s
  let s2 := s1.modPart p (fun q => { q with
    run := some (startRun iterations traceVa traceLen r)
    chor := some c.fresh
    tempo := q.tempo.begin s.beat.cnt b (match r with | some (o, _, _) => o | none => 0)
    voteValid := false
    plane := { q.plane with tempoGroup := BitVec.ofNat 8 c.tempoGroup }
    snap := { q.snap with resume := none } })
  grantCredits p c s2

/-- CHOR_RUN (R52, R496, R497). -/
def execChorRun (ring : Nat) (seq : BitVec 16) (s : State) : Res :=
  .next (runCommand ⟨0x111, false, true, false, [(0x18, 0, 64), (0x20, 0, 32), (0x28, 0, 52), (0x30, 0, 32)]⟩ ring seq
    (fun p img s =>
      let fail (st : Nat) := complete ring seq st 0 0 s
      match (s.part p).chor with
      | none => fail stNotLoaded
      | some c =>
        if (s.part p).run.isSome then fail stChorBusy
        else if s.beat.lock ≠ .locked ∧ s.beat.lock ≠ .holdover then fail stTempo
        else if arg img 0x18 0 64 < s.beat.cnt.toNat + 64 then fail stTooSoon
        else
          complete ring seq stOk s.beat.cnt.toNat 0
            (beginRun p c (arg img 0x18 0 64) (arg img 0x20 0 32) (arg img 0x28 0 52) (arg img 0x30 0 32) s)) s)

/-- CHOR_STOP (R497): at the next Figure boundary, or after the iteration. A run that Fremund stops itself no longer counts as
running. -/
def execChorStop (ring : Nat) (seq : BitVec 16) (s : State) : Res :=
  .next (runCommand ⟨0x112, false, true, false, [(0x18, 0, 1)]⟩ ring seq
    (fun p img s =>
      match (s.part p).run with
      | none => complete ring seq stNotRunning 0 0 s
      | some r =>
        if r.stopNow && r.stopCause != 0 then complete ring seq stNotRunning 0 0 s
        else
          let atEnd := arg img 0x18 0 1 = 1
          settle p (addWait p ring seq .chorStop (s.modPart p (fun q => { q with
            run := some { r with stopNow := r.stopNow || !atEnd, stopAtEnd := r.stopAtEnd || atEnd } })))) s)

/-- HOLD_REQUEST (R62, R497): LATE is raised with LENGTH on the next schedule beat. -/
def execHoldRequest (ring : Nat) (seq : BitVec 16) (s : State) : Res :=
  .next (runCommand ⟨0x114, false, true, false, [(0x18, 0, 16)]⟩ ring seq
    (fun p img s =>
      let n := arg img 0x18 0 16
      if n = 0 then complete ring seq stField 0 0 s
      else
        match (s.part p).run, (s.part p).chor with
        | some _, some c =>
          let next := match s.sched p with | some b => b + 1 | none => (s.part p).tempo.offset
          complete ring seq stOk next 0 (s.modPart p (fun q => { q with
            tempo := { q.tempo with hostLate := some (max (q.tempo.hostLate.getD 0) (min n c.holdMax)) } }))
        | _, _ => complete ring seq stNotRunning 0 0 s) s)

end Sys2Proof.Machine
end

