-- ==== Sys2Proof/Machine/Debug.lean ====
section
/-! DEFINITION. Debug halts (R153, R503, R667), the row copies of the debug window (R153 to R157, R665 to R670) and HEALTH_READ. -/

namespace Sys2Proof.Machine

/-! ### Debug halt -/

/-- The partition of core `c` admits debug actions (R515). -/
def State.debugPart (s : State) (c : Nat) : Option Nat := (s.coreOwner c).filter (fun p => s.prot.dbgPart.getLsbD p)

/-- DEBUG_HALT (R153, R492, R503, R515, R535). -/
def execDebugHalt (ring : Nat) (seq : BitVec 16) (s : State) : Res :=
  .next (runCommand ⟨0x700, true, false, false, [(0x18, 0, 6)]⟩ ring seq
    (fun _ img s =>
      let c := arg img 0x18 0 6
      if s.cfg.cores ≤ c then complete ring seq stField 0 0 s
      else
        match s.debugPart c with
        | none => complete ring seq stDenied 0 0 s
        | some p =>
          if !s.prot.dbgHalt then complete ring seq stDenied 0 0 s
          else if (s.part p).run.isSome then complete ring seq stChorBusy 0 0 s
          else complete ring seq stOk 0 0 (leaveIdle (s.modCore c (fun k => { k with halted := true })))) s)

/-- A row copy from core `c` is in progress (R670). -/
def State.copyingFrom (s : State) (c : Nat) : Bool :=
  (s.dbg.acmBusy && decide (s.dbg.acmCore = c)) || (s.dbg.spmBusy && decide (s.dbg.spmCore = c))

/-- The core leaves debug halt (R503). -/
def resumeCore (c : Nat) (s : State) : State := s.modCore c (fun k => { k with halted := false })

/-- DEBUG_RESUME (R492, R503, R535, R670): it waits for a copy from the core. -/
def execDebugResume (ring : Nat) (seq : BitVec 16) (s : State) : Res :=
  .next (runCommand ⟨0x701, true, false, false, [(0x18, 0, 6)]⟩ ring seq
    (fun p img s =>
      let c := arg img 0x18 0 6
      if s.cfg.cores ≤ c then complete ring seq stField 0 0 s
      else if s.copyingFrom c then addWait p ring seq (.debugResume c) (leaveIdle s)
      else complete ring seq stOk 0 0 (leaveIdle (resumeCore c s))) s)

/-- A copy has ended: DEBUG_RESUME commands that waited for it take effect. -/
def wakeResumes (c : Nat) (s : State) : State :=
  if s.copyingFrom c then s
  else
    let waits := fun (w : Wait) => decide (w = .debugResume c)
    if [0, 1, 2, 3].any (fun p => (s.part p).waiting.any (fun w => waits w.what)) then
      [0, 1, 2, 3].foldl (fun t p => finishWaits p waits stOk 0 t) (resumeCore c s)
    else s

/-! ### Row copies -/

/-- The first test of R666 that a copy from core `c` fails: 0 DENIED, 1 NOT_HALTED. -/
def State.copyRefused (s : State) (perm : Bool) (c : Nat) : Option Nat :=
  if !perm || (s.debugPart c).isNone then some 0
  else if !(s.core c).halted || (s.core c).fenced then some 1
  else none

/-- A write of ACM_DBG_CTRL (R153, R155, R666). -/
def writeAcmCtrl (v : Nat) (s : State) : State :=
  let d := s.dbg
  if d.acmBusy then s
  else
    let d1 := { d with acmCore := fld v 8 6, acmBank := fld v 7 1, acmRow := fld v 0 7 }
    if !bit v 31 then { s with dbg := d1 }
    else
      match s.copyRefused s.prot.dbgAcm d1.acmCore with
      | some 0 => { s with dbg := { d1 with acmDenied := true, acmData := [], acmTag := [] } }
      | some _ => leaveIdle { s with dbg := { d1 with acmNotHalted := true, acmData := [], acmTag := [] } }
      | none => leaveIdle { s with dbg := { d1 with acmBusy := true } }

/-- The row is in a powered quarter of the core's Scratchpad (R304, R330, R666). -/
def State.rowPowered (s : State) (c row : Nat) : Bool :=
  decide (row < s.cfg.spmRows) && (match s.coreOwner c with
    | some p => (s.part p).quarterOn.getLsbD (row / s.cfg.quarterRows)
    | none => false)

/-- A write of SPM_DBG_CTRL (R666, R668, R669). -/
def writeSpmCtrl (v : Nat) (s : State) : State :=
  let d := s.dbg
  if d.spmBusy then s
  else
    let d1 := { d with spmRow := fld v 16 15, spmCore := fld v 0 6 }
    if !bit v 31 then { s with dbg := d1 }
    else
      match s.copyRefused s.prot.dbgSpm d1.spmCore with
      | some 0 => { s with dbg := { d1 with spmDenied := true, spmData := [] } }
      | some _ => leaveIdle { s with dbg := { d1 with spmNotHalted := true, spmData := [] } }
      | none =>
        if s.rowPowered d1.spmCore d1.spmRow then leaveIdle { s with dbg := { d1 with spmBusy := true } }
        else leaveIdle { s with dbg := { d1 with spmRange := true, spmData := [] } }

/-- A parity detection in a debug copy (R325, R327, R670): counted and reported, with no Figure; a region with the row becomes EMPTY. -/
def debugParity (c row : Nat) (bank : Option Nat) (s : State) : State :=
  let s1 := if bank.isNone then spoilRegions c row (countPerr c s) else countPerr c s
  match s.coreOwner c with
  | some p => postEvent p 0x40 (payloadOf noFig c (parityRest row bank)) s1
  | none => s1

/-- Tag codes (R132). -/
def Tag.bits (t : Tag) : BitVec 2 := match t with | .fin => 0 | .pinf => 1 | .ninf => 2 | .nan => 3

/-- What a copy of a bank's row reads: x and tag by column, G and ACM_SAT (R156, R157), and the free values drawn. In P2 and P3 the ACM is
not powered, and all of it is free (R536, log 14). -/
structure RowRead where
  x    : KMap (BitVec 128)
  tag  : KMap (BitVec 2)
  grid : BitVec 16
  sat  : Bool
  drew : Nat
  deriving DecidableEq, Repr

def State.acmRow (s : State) (c bank row : Nat) : RowRead :=
  let b := (s.core c).bank bank
  let f (j k : Nat) : BitVec 64 := Config.freeWord (s.free + 2 + 3 * j + k)
  let off := decide (2 ≤ s.pmu.state)
  let e (j : Nat) : Elem := kget Elem.zero b.elems (128 * row + j)
  let x (j : Nat) : BitVec 128 := if off then f j 0 ++ f j 1 else (e j).x
  let t (j : Nat) : BitVec 2 := if off then (f j 2).setWidth 2 else Tag.bits (e j).tag
  { x := (List.range 128).foldl (fun m j => kset 0 m j (x j)) []
    tag := (List.range 128).foldl (fun m j => kset 0 m j (t j)) []
    grid := if off then (Config.freeWord s.free).setWidth 16 else BitVec.ofNat 16 (toTwos 16 b.grid)
    sat := if off then (Config.freeWord (s.free + 1)).getLsbD 0 else b.sat
    drew := if off then 386 else 0 }

/-- ACM_DBG_COPY_DONE (R151, R156, R157, R670): `bad` when the row fails parity. -/
def execAcmDbgCopyDone (bad : Bool) (s : State) : Res :=
  let d := s.dbg
  if !d.acmBusy then .next s
  else
    let b := (s.core d.acmCore).bank d.acmBank
    let r := s.acmRow d.acmCore d.acmBank d.acmRow
    let s1 := { s with
      free := s.free + r.drew
      dbg := { d with acmBusy := false, acmData := r.x, acmTag := r.tag, acmGrid := r.grid, acmSat := r.sat } }
    let s2 := if bad || b.bad.contains d.acmRow then debugParity d.acmCore d.acmRow (some d.acmBank) s1 else s1
    .next (wakeResumes d.acmCore s2)

/-- SPM_DBG_COPY_DONE (R325, R669, R670): `bad` when the row fails parity. -/
def execSpmDbgCopyDone (bad : Bool) (s : State) : Res :=
  let d := s.dbg
  if !d.spmBusy then .next s
  else
    let k := s.core d.spmCore
    let err := bad || k.badRows.contains d.spmRow
    let s1 := { s with dbg := { d with
      spmBusy := false, spmPerr := err, spmData := bwrite [] 0 (bread k.spm (512 * d.spmRow) 512) } }
    let s2 := if err then debugParity d.spmCore d.spmRow none s1 else s1
    .next (wakeResumes d.spmCore s2)

/-! ### Health -/

/-- A mask with the bits of a list set. -/
def maskWord (l : List Nat) : Nat := (l.map (2 ^ ·)).sum

/-- HEALTH_READ (R492, R503, R562). -/
def execHealthRead (ring : Nat) (seq : BitVec 16) (s : State) : Res :=
  .next (runCommand ⟨0x620, false, false, false, []⟩ ring seq
    (fun p img s =>
      completeWith p ring seq img s.healthWord
        (leBytes 8 (maskWord s.fencedCores) ++ leBytes 32 (maskWord s.failedChannels) ++ leBytes 8 (maskWord s.failedPorts)) s) s)

end Sys2Proof.Machine
end

