-- ==== Sys2Proof/Machine/Mailbox.lean ====
section
/-! DEFINITION. The mailbox rings (R458 to R476), the Control Cluster's heartbeat and PANIC (R455, R478, R479), and the interface
commands (R469, R482, R483). -/

namespace Sys2Proof.Machine

/-- Offset of register `k` of ring `r`'s doorbell page (R472). -/
def dbOffset (r k : Nat) : Nat := 0x10000 + 0x1000 * r + k

/-- A doorbell write of ring `r` takes effect only in READY; in RESETTING it is discarded with OVERRUN, otherwise it is discarded (R471,
R476). -/
def doorbell (r : Nat) (f : Ring → State → State) (s : State) : State :=
  let g := s.ring r
  match g.state with
  | .ready => f g s
  | .resetting => s.setRing r { g with overrun := true }
  | _ => s

/-! ### Doorbells -/

/-- Read the command at SEQ position `x` of ring `r`, acknowledge it and hand it to its control core (R456, R464, R465); one whose SEQ
differs completes with INVALID_SEQ. -/
def readSlot (r : Nat) (x : BitVec 16) (s : State) : State :=
  let img := BitVec.ofNat 512 (ofLe (bread s.ringMem (0x10000 * r + 64 * (x.toNat % 256)) 64))
  let s0 := { s with fw := { s.fw with handed := s.fw.handed + 1 } }
  let s1 := s0.modRing r (fun g => { g with head := x + 1, ack := x + 1, opened := g.opened ++ [⟨x, img, false, s.fw.handed⟩] })
  if arg img 0 0 16 = x.toNat then s1 else complete r x stSeqNum 0 0 (markStarted r x s1)

/-- A write of DB_PROD (R464, R465, R473): the newly covered commands are read in order, or the write is discarded with OVERRUN. -/
def writeProd (r value : Nat) (s : State) : State :=
  let v := BitVec.ofNat 16 (fld value 0 16)
  doorbell r (fun g s =>
    if dist16 g.prod v = 0 ∨ 32767 < dist16 g.prod v ∨ 256 < dist16 g.cpl v then s.setRing r { g with overrun := true }
    else
      (List.range (dist16 g.head v)).foldl (fun t i => readSlot r (g.head + BitVec.ofNat 16 i) t) (s.setRing r { g with prod := v })) s

/-- A write of DB_CPL (R473). -/
def writeCpl (r value : Nat) (s : State) : State :=
  let v := BitVec.ofNat 16 (fld value 0 16)
  doorbell r (fun g s =>
    if dist16 g.cpl v ≤ dist16 g.cpl g.ctail then s.setRing r { g with cpl := v } else s.setRing r { g with badCons := true }) s

/-- Post the FAULT events that wait for partition `p`. -/
def drainFaults (p : Option Nat) (s : State) : State :=
  match p with
  | some p => drainBacklog p s.fw.backlog.length s
  | none => s

/-- A write of DB_EVCONS (R469, R473). -/
def writeEvcons (r value : Nat) (s : State) : State :=
  let v := BitVec.ofNat 16 (fld value 0 16)
  doorbell r (fun g s =>
    if dist16 g.evcons v ≤ dist16 g.evcons g.etail then drainFaults (s.ringOwner r) (s.setRing r { g with evcons := v })
    else s.setRing r { g with badCons := true }) s

/-- A write of DB_CTRL (R471, R474): the enables, and with RESET the ring begins its reset. -/
def writeCtrl (r value : Nat) (s : State) : State :=
  doorbell r (fun g s =>
    s.setRing r { g with
      cplEn := bit value 0, evtEn := bit value 1, state := if bit value 31 then .resetting else g.state }) s

/-- A write of DB_STAT clears its W1C bits (R470, R476). -/
def writeDbStat (r value : Nat) (s : State) : State :=
  doorbell r (fun g s =>
    s.setRing r { g with
      evtOverflow := g.evtOverflow && !bit value 5, badCons := g.badCons && !bit value 4, overrun := g.overrun && !bit value 3
      evtPend := g.evtPend && !bit value 1, cplPend := g.cplPend && !bit value 0 }) s

/-- A write of the doorbell page of ring `r` (R472); the other registers of the page are read-only. -/
def writeDoorbell (r off value : Nat) (s : State) : State :=
  match off with
  | 0 => writeProd r value s
  | 4 => writeCpl r value s
  | 8 => writeEvcons r value s
  | 0xC => writeCtrl r value s
  | 0x18 => writeDbStat r value s
  | _ => s

/-- DB_PROD_WRITE (R464, R465, R473). -/
def execDbProdWrite (req r : Nat) (value : BitVec 32) (s : State) : Res :=
  .next (hostAccess req (dbOffset r 0) true (writeProd r value.toNat) s)

/-- DB_CPL_WRITE (R473). -/
def execDbCplWrite (req r : Nat) (value : BitVec 32) (s : State) : Res :=
  .next (hostAccess req (dbOffset r 4) true (writeCpl r value.toNat) s)

/-- DB_EVCONS_WRITE (R469, R473). -/
def execDbEvconsWrite (req r : Nat) (value : BitVec 32) (s : State) : Res :=
  .next (hostAccess req (dbOffset r 8) true (writeEvcons r value.toNat) s)

/-- RING_RESET: a write of 1 to DB_CTRL.RESET (R471, R474). -/
def execRingReset (req r : Nat) (value : BitVec 32) (s : State) : Res :=
  .next (hostAccess req (dbOffset r 0xC) true (writeCtrl r value.toNat) s)

/-- A ring that starts from 0 (R462, R471). -/
def Ring.fresh (g : Ring) : Ring :=
  { g with
    prod := 0, cpl := 0, evcons := 0, ack := 0, head := 0, etail := 0, ctail := 0, dropped := 0, state := .ready
    evtPend := false, cplPend := false, versionRead := false, opened := [] }

/-- RING_RESET_DONE (R471): every acknowledged command has completed. -/
def execRingResetDone (r : Nat) (s : State) : Res :=
  let g := s.ring r
  if g.state = .resetting ∧ g.opened.isEmpty then .next (drainFaults (s.ringOwner r) (s.setRing r g.fresh)) else .next s

/-! ### The Control Cluster -/

/-- Every ring that a partition owns is HALTED (R476). -/
def haltRings (s : State) : State :=
  (List.range 16).foldl (fun t r =>
    if (t.ringOwner r).isSome then t.modRing r (fun g => { g with state := .halted }) else t) s

/-- Fremund enters PANIC (R479). -/
def enterPanic (s : State) : State := haltRings { s with fw := { s.fw with state := .panic } }

/-- HEARTBEAT_TICK (R478): `stalled` names the cores CC0 to CC2 whose progress count has not moved. Cores stopped in P3 are skipped. -/
def execHeartbeatTick (stalled : BitVec 3) (s : State) : Res :=
  if !s.fwRunning then .next s
  else
    let next := (List.range 3).map (fun i => if s.pmu.state = 3 then 0 else if stalled.getLsbD i then nth s.fw.misses i + 1 else 0)
    .next { s with fw := { s.fw with hb := s.fw.hb + 1, misses := next } }

/-- CORE_PROGRESS_FAIL (R478, R480, R663): no progress on 4 consecutive checks. -/
def execCoreProgressFail (i : Nat) (s : State) : Res :=
  if !s.fwRunning || decide (nth s.fw.misses i < 4) then .next s
  else
    let s1 := enterPanic { s with fw := { s.fw with coreFault := BitVec.ofNat 4 (setBit s.fw.coreFault.toNat i true) } }
    .next { s1 with fatal := { s1.fatal with panic := true } }

/-- WATCHDOG_EXPIRY (R478, R480, R663). -/
def execWatchdogExpiry (s : State) : Res :=
  if s.pins.phase ≠ .running ∨ s.fw.state = .boot then .next s
  else
    let s1 := enterPanic { s with fw := { s.fw with wdog := true } }
    .next { s1 with fatal := { s1.fatal with wdog := true } }

/-- CC_SRAM_ERROR (R455, R599, R663). -/
def execCcSramError (corrected : Bool) (s : State) : Res :=
  if s.pins.phase ≠ .running then .next s
  else if corrected then .next (blkCount 0 s)
  else
    let s1 := enterPanic s
    .next { s1 with fatal := { s1.fatal with panic := true } }

/-! ### Interface commands -/

/-- CIF_VERSION (R482). -/
def execCifVersion (ring : Nat) (seq : BitVec 16) (s : State) : Res :=
  .next (runCommand ⟨1, false, false, false, []⟩ ring seq (fun p img s =>
    let data := 3 + s.fw.version.toNat * 2 ^ 32 + blkVer * 2 ^ 64
    completeWith p ring seq img data (opcodes.flatMap (fun o => leBytes 4 (o + 2 ^ 16 + 2 ^ 24))) s) s)

/-- COMMAND_UNKNOWN_OPCODE (R483, R488). -/
def execCommandUnknownOpcode (ring : Nat) (seq : BitVec 16) (s : State) : Res :=
  match s.mayBegin ring seq with
  | some o =>
    if !s.ringRuns ring || opcodes.contains (cmdOpcode o.image) then .next s
    else .next (complete ring seq (if (s.ring ring).versionRead then stUnknown else stNotRead) 0 0 s)
  | none => .next s

/-- EVENT_RING_SET (R469, R492, R496). -/
def execEventRingSet (ring : Nat) (seq : BitVec 16) (s : State) : Res :=
  .next (runCommand ⟨2, false, false, false, [(0x18, 0, 4)]⟩ ring seq (fun p img s =>
    let r := arg img 0x18 0 4
    if s.ringOwner r ≠ some p || (s.ringAdmin r && !s.ringAdmin ring) then complete ring seq stDenied 0 0 s
    else complete ring seq stOk 0 0 (drainFaults (some p) (s.modPart p (fun q => { q with eventRing := r })))) s)

end Sys2Proof.Machine
end

