-- ==== Sys2Proof/Machine/Tempo.lean ====
section
/-! DEFINITION. Beats: the Beat Unit (R43 to R49, R683), what a beat does to a running partition (R52, R61 to R70), and LATE frames
(R67, R440). -/

namespace Sys2Proof.Machine

/-! ### LATE -/

/-- The length a Figure in progress asks for on beat `b` of its iteration, if it is late (R61, R62): T_rem tiles at the rate of the
last 4 beats, and DEADLINE + HOLD_MAX at rate 0. An Intermission has no tiles: it is late when an item still runs in it so near its
DEADLINE that no later beat's Hold is sure to begin before it, at barrier interval `bar` (R65, R74, log 81). -/
def lateLen (holdMax bar b : Nat) (f : FigRec) (a : RunFig) (itemRuns : Bool) : Option Nat :=
  let clip (n : Nat) := max 1 (min n holdMax)
  if f.kind = 2 then (if itemRuns && decide (f.deadline ≤ b + 2 + bar) then some holdMax else none)
  else
    let sum := a.recent.sum
    let proj := if sum = 0 then f.deadline + holdMax else b + ceilDiv ((a.total - a.retired) * a.recent.length) sum
    if f.deadline ≤ proj then some (clip (proj - f.deadline + 1)) else none

/-- The length a Figure not started by START + 1 asks for (R61, R62). -/
def notStartedLen (holdMax b : Nat) (f : FigRec) : Option Nat :=
  if f.start + 1 ≤ b then some (max 1 (min (b - f.start + (f.deadline - f.start) + 1) holdMax)) else none

/-- The places and lengths of the Figures that are late on beat `b` (R61). -/
def lateFigures (c : Chor) (r : Run) (b : Nat) (itemRuns : Bool) : List (Nat × Nat) :=
  c.figures.zipIdx.filterMap (fun x =>
    match r.active.find? (fun a => decide (a.fig = x.2)) with
    | some a => (lateLen c.holdMax c.barrier b x.1.hdr a itemRuns).map (fun n => (x.2, n))
    | none =>
      if r.completed.contains x.2 || decide (x.2 < r.next) || r.stopNow then none
      else (notStartedLen c.holdMax b x.1.hdr).map (fun n => (x.2, n)))

/-- Raise one LATE request of length `len` on the current schedule beat (R62, R63, R440, R598). -/
def raiseLate (p len : Nat) (s : State) : State :=
  let q := s.part p
  let r : LateReq := ⟨q.plane.node.toNat, q.tempo.sched.toNat, len⟩
  let s1 := s.modPart p (fun q => { q with
    tempo := { q.tempo with late := q.tempo.late ++ [r] }, notes := { q.notes with late := q.notes.late + 1 } })
  let s2 := partCount p 2 1 s1
  if (s2.tempoTree p).isSome then flood p q.plane.tempoGroup.toNat [] (.late r.node r.t r.len) s2 else s2

/-- An intrusive item that takes a resource of partition `p` runs, whichever partition's queue holds it (R74, R75). -/
def State.itemWithin (s : State) (p : Nat) : Bool :=
  [0, 1, 2, 3].any (fun o => (s.part o).items.any (fun x => x.running && (decide (o = p) || (s.itemUsers x.item).contains p)))

/-- The Caller's check of a schedule beat (R61 to R63): one request with the largest length, HOLD_REQUEST's included (R497). -/
def callerCheck (p : Nat) (s : State) : State :=
  let q := s.part p
  match q.chor, q.run, s.iterBeat p with
  | some c, some r, some b =>
    let ls := lateFigures c r b (s.itemWithin p)
    let len := (ls.map (·.2)).foldl max (q.tempo.hostLate.getD 0)
    let s1 := s.modPart p (fun q => { q with
      tempo := { q.tempo with hostLate := none }
      run := some { r with raisedLate := (ls.map (·.1)).foldl insAsc r.raisedLate } })
    if len = 0 then s1 else raiseLate p len s1
  | _, _, _ => s

/-- A Hold has ended: the Figures that raised LATE and completed nothing in it count one more (R70). -/
def holdEnded (p : Nat) (s : State) : State :=
  s.modPart p (fun q =>
    match q.run with
    | none => q
    | some r =>
      let next := r.raisedLate.foldl (fun m i =>
        if r.progressed.contains i then m else kset 0 m i (kget 0 r.lateHolds i + 1)) ([] : KMap Nat)
      { q with run := some { r with lateHolds := next, raisedLate := [] } })

/-- Each Figure in progress closes its count of the beat (R61). -/
def closeBeat (a : RunFig) : RunFig :=
  { a with recent := (a.recent ++ [a.beatDone]).drop (a.recent.length - 3), beatDone := 0, beats := a.beats + 1 }

/-- Ports on which a transfer waited for credits this beat (R452): the next port of its route. -/
def countCreditWaits (p : Nat) (s : State) : State :=
  match (s.part p).chor with
  | none => s
  | some c =>
    let ns := (c.xfers.filter (s.waitsCredit p)).filterMap (fun x =>
      if x.mc then none else s.nextPort p x.dest)
    let ports := ns.foldl insAsc []
    ports.foldl (fun t n => lkCount n 5 32 1 t) (s.modPart p (fun q => { q with notes := { q.notes with crwait := q.notes.crwait + ports.length } }))

/-- HBM arena frames that the sequences of partition `p` hold (R529). -/
def State.framesHeld (s : State) (p : Nat) : Nat :=
  ((s.seqs.filter (fun x => decide (x.2.part = p) && decide (x.2.state ≠ .free))).map (fun x => x.2.hbmFrames)).sum

/-- A beat falls for partition `p` (R52, R61 to R66, R70, R529). -/
def beatPart (p : Nat) (s : State) : State :=
  let s0 := acctAdd p 5 (s.framesHeld p) s
  let q := s0.part p
  if !q.tempo.running then s0 else
  let b := match q.chor with | some c => c.barrier | none => 4
  let (t, k) := q.tempo.advance b s0.beat.cnt
  let s1 := s0.modPart p (fun q => { q with
    tempo := t, run := q.run.map (fun r => { r with active := r.active.map closeBeat }) })
  let s2 := countCreditWaits p s1
  let held := fun (s : State) =>
    partCount p 1 1 (s.modPart p (fun q => { q with notes := { q.notes with hold := true, holdBeats := q.notes.holdBeats + 1 } }))
  match k with
  | .idle => s2
  | .hold => held s2
  | .holdFirst =>
    held (partCount p 0 1 (s2.modPart p (fun q => { q with run := q.run.map (fun r => { r with progressed := [] }) })))
  | .schedule => callerCheck p (if q.tempo.hold then holdEnded p s2 else s2)

/-- A Bar ends for partition `p` (R51, R590): its notes are closed, before anything that the boundary's beat counts. -/
def closeBar (p : Nat) (s : State) : State :=
  s.modPart p (fun q => { q with
    closed := q.notes
    notes := { BarNotes.reset with inter := q.tempo.intermission }
    acct := { q.acct with kvEdge := nth q.acct.live 5 } })

/-- A beat falls: BEAT_CNT takes `cnt`, and every partition's beat follows (R46). -/
def fallBeat (cnt : BitVec 64) (s : State) : State :=
  let s1 := if cnt.toNat % 64 = 0 then [0, 1, 2, 3].foldl (fun t p => closeBar p t) s else s
  [0, 1, 2, 3].foldl (fun t p => beatPart p t) { s1 with beat := { s1.beat with cnt := cnt } }

/-! ### The Beat Unit -/

/-- An interval in ns is within 200 ppm of the mean of a run with sum `sum` and length `n` (R683). -/
def nearMean (i sum n : Nat) : Bool :=
  decide (5000 * (i * n - sum) ≤ sum) && decide (5000 * (sum - i * n) ≤ sum)

/-- The run of intervals after interval `i` (R683). -/
def runAfter (run : List Nat) (i : Nat) : List Nat :=
  if i < 500 ∨ 4000 < i then []
  else if !run.isEmpty && !nearMean i run.sum run.length then [i]
  else (run ++ [i]).drop (run.length - 15)

/-- The acquisition test (R683). -/
def runPasses (run : List Nat) : Bool := decide (run.length = 16) && run.all (fun i => nearMean i run.sum 16)

/-- The tracked period after an accepted edge, within the band of R43: no further from either the period held or the interval just
measured than they are from each other. The spec gives no filter (log 6). -/
def track (old interval : Nat) : Nat :=
  max 500000 (min 4000000 (max (min old interval) (min (max old interval) (Config.trackedPeriod old interval))))

/-- Check the frames that name this edge against its count (R47). -/
def checkFrames (s : State) : State :=
  let l := s.beat.armed
  let s1 := { s with beat := { s.beat with armed := [] } }
  l.foldl (fun t x => if x.1 = t.beat.cnt.toNat then t else tempoSplit x.2 [0, 1, 2, 3] t) s1

/-- BEAT_EDGE at time `tNs` (R43, R44, R46, R48, R49, R683); edges count from the release of reset (R671). -/
def execBeatEdge (tNs : Nat) (s : State) : Res :=
  let u := s.beat
  let at' := 1000 * tNs
  if s.pins.phase ≠ .running then .next s else
  match u.lock with
  | .unlocked => .next { s with beat := { u with lock := .acquiring, run := [], lastPs := at', frame := none, armed := [] } }
  | .acquiring =>
    let run := runAfter u.run ((at' - u.lastPs) / 1000)
    let frame := u.frame.map (fun f => (f.1, f.2.1 + 1, f.2.2))
    if runPasses run && (u.standalone || frame.isSome) then
      let c := match frame with | some (c, k, _) => c + k - 1 | none => 0
      let held := u.cnt.toNat
      let split := !u.standalone && u.acquired && decide (c ≤ held)
      let cnt := if u.standalone || split then held + 1 else c
      let s1 := { s with beat := { u with
        lock := .locked, run := run, lastPs := at', inserted := 0, acquired := true, frame := none,
        periodPs := track (run.sum * 1000 / 16) (nth run 15) } }
      let s2 := checkFrames { s1 with beat := { s1.beat with cnt := BitVec.ofNat 64 cnt } }
      let s3 := if split then tempoSplit ((u.frame.map (fun f => f.2.2)).getD 0x3FF) [0, 1, 2, 3] s2 else s2
      .next (fallBeat (BitVec.ofNat 64 cnt) s3)
    else .next { s with beat := { u with run := run, lastPs := at', frame := frame, armed := [] } }
  | _ =>
    let pred := u.lastPs + u.periodPs
    if pred ≤ at' + 50000 ∧ at' ≤ pred + 50000 then
      let s1 := { s with beat := { u with
        lock := .locked, inserted := 0, lastPs := at', periodPs := track u.periodPs ((at' - u.lastPs) / 1000), cnt := u.cnt + 1 } }
      .next (fallBeat (u.cnt + 1) (checkFrames s1))
    else .next (blkCount 2 { s with beat := { u with glitch := true } })

/-- BEAT_INSERT: no edge within the window, the beat falls at the predicted time (R45, R46). -/
def execBeatInsert (s : State) : Res :=
  let u := s.beat
  if (u.lock = .locked ∨ u.lock = .holdover) ∧ u.inserted < 1024 then
    let s1 := { s with beat := { u with
      lock := .holdover, missed := true, inserted := u.inserted + 1, lastPs := u.lastPs + u.periodPs } }
    .next (fallBeat (u.cnt + 1) (blkCount 3 s1))
  else .next s

/-- TEMPO_LOST for a partition with a running Choreography, which stops once its Figures in progress have completed (R50, R497). -/
def loseTempo (p : Nat) (s : State) : State :=
  if (s.part p).tempo.running then
    fremundStop p 0x15 (postEvent p 0x15 (payloadOf noFig 0 0) (s.modPart p (fun q =>
      { q with run := q.run.map (fun r => { r with tempoLost := true }) })))
  else s

/-- HOLDOVER_EXPIRY: the move to UNLOCKED after 1,024 inserted beats (R45, R49, R50, R84). -/
def execHoldoverExpiry (s : State) : Res :=
  let u := s.beat
  if u.lock = .holdover ∧ 1024 ≤ u.inserted then
    .next ([0, 1, 2, 3].foldl (fun t p => loseTempo p t)
      { s with beat := { u with lock := .unlocked, periodPs := 0, run := [], frame := none, armed := [] } })
  else .next s

/-- The frame's CRC holds and its period lies in the band (R633). -/
def beatFrameOk (f : BitVec 256) : Bool :=
  decide ((fld f.toNat 224 32) = (crc32 (leBytes 28 f.toNat)).toNat) && decide (fld f.toNat 0 8 = 0x21)
    && decide (500000 ≤ fld f.toNat 84 22) && decide (fld f.toNat 84 22 ≤ 4000000)

/-- BEAT_COUNT_FRAME on port `n` (R46, R47, R442, R632, R633): the Beat Unit takes it, and the root of the port's tempo group forwards
it, as every other member forwards what its parent sends. -/
def execBeatCountFrame (n : Nat) (f : BitVec 256) (s : State) : Res :=
  if !(s.port n).state.carries || !beatFrameOk f then .next s
  else
    let s1 :=
      match s.portOwner n with
      | none => s
      | some p =>
        match s.tempoTree p with
        | some g =>
          if g.root || decide ((s.port n).peer = g.upNode) then
            flood p (s.part p).plane.tempoGroup.toNat (if g.root then [] else [g.upNode]) (.beatCount f) s
          else s
        | none => s
    let u := s1.beat
    let c := fld f.toNat 128 64
    if u.standalone then .next s1
    else
      match u.lock with
      | .unlocked => .next s1
      | .acquiring =>
        if u.frame.isNone then .next { s1 with beat := { u with frame := some (c, 0, (s.port n).peer) } }
        else .next { s1 with beat := { u with armed := u.armed ++ [(c, (s.port n).peer)] } }
      | _ => .next { s1 with beat := { u with armed := u.armed ++ [(c, (s.port n).peer)] } }

/-- LATE_FRAME from node `d` for partition `p`, received on port `n` (R64, R66, R67, R438, R440). -/
def execLateFrame (p n d t len : Nat) (s : State) : Res :=
  let q := s.part p
  if s.beat.standalone || !decide (s.portOwner n = some p) || !(s.port n).state.carries then .next s
  else
    let s1 := flood p q.plane.tempoGroup.toNat [(s.port n).peer] (.late d t len) s
    if !q.tempo.running then .next s1
    else if (s.sched p).isSome && q.tempo.missedLate t then .next (tempoSplit d [p] s1)
    else .next (s1.modPart p (fun q => { q with tempo := { q.tempo with late := q.tempo.late ++ [⟨d, t, len⟩] } }))

/-- FIGURE_STALLED: a Figure has raised LATE in 8 consecutive Holds without progress (R70, R89). Whether it is reported again the spec
does not say: the count begins again at 0, so 8 more such Holds report it again (DESIGN CHOICE, log 82). -/
def execFigureStalled (p fig : Nat) (s : State) : Res :=
  let q := s.part p
  match q.chor, q.run with
  | some c, some r =>
    match c.place fig with
    | none => .next s
    | some i =>
      if kget 0 r.lateHolds i < 8 then .next s
      else .next (postEvent p 0x12 (payloadOf fig 0 0) (s.modPart p (fun q => { q with
        tempo := { q.tempo with stalled := true }, run := some { r with lateHolds := kset 0 r.lateHolds i 0 } })))
  | _, _ => .next s

end Sys2Proof.Machine
end

