-- ==== Sys2Proof/Machine/Telemetry.lean ====
section
/-! DEFINITION. The Bar boundary (R42, R51, R589 to R596, R601 to R605): the Bar's counts, the copies of the accounting counters, the
telemetry records and the hot lists (R406); COUNTER_READ (R532). -/

namespace Sys2Proof.Machine

/-! ### Counts of the Bar -/

/-- Add the counts of a Bar to counters of `w` bits: the new values, and the places that have saturated. -/
def addCounts (w : Nat) (live add : List Nat) : List Nat × List Nat :=
  let l := live.zipIdx.map (fun x => (satAdd w x.1 (nth add x.2), x.2))
  (l.map (·.1.1), (l.filter (·.1.2)).map (·.2))

/-- A word with the bits of a list set. -/
def withBits (w : Nat) (l : List Nat) : Nat := l.foldl (fun w i => setBit w i true) w

/-- The Bar's stall clocks of core `c` (R594, R596). -/
def countStalls (c : Nat) (add : List Nat) (s : State) : State :=
  let k := s.core c
  let add := if k.fenced then [] else add
  let (live, full) := addCounts 32 k.stall add
  let s1 := s.setCore c { k with
    stall := live, stallBar := (List.range 12).map (nth add), stallSat := BitVec.ofNat 12 (withBits k.stallSat.toNat full) }
  (full.filter (fun n => !k.stallSat.getLsbD n)).foldl (fun t n => satOwned (s.coreOwner c) (0x300000 + 0x80 * c + 4 * n) t) s1

/-- The Bar's Scratchpad clocks of core `c` (R318). -/
def countSpm (c : Nat) (conf : List Nat) (nwait crwait : Nat) (s : State) : State :=
  let k := s.core c
  let n := k.cnt
  let (live, full) := addCounts 32 n.conf conf
  let (a, ao) := satAdd 32 n.nwait nwait
  let (b, bo) := satAdd 32 n.crwait crwait
  let s1 := s.setCore c { k with cnt := { n with
    conf := live, csat := BitVec.ofNat 32 (withBits n.csat.toNat full), nwait := a, nwaitSat := n.nwaitSat || ao
    crwait := b, crwaitSat := n.crwaitSat || bo } }
  let new := (full.filter (fun i => !n.csat.getLsbD i)).map (4 * ·) ++ (if ao && !n.nwaitSat then [0x80] else [])
    ++ (if bo && !n.crwaitSat then [0x84] else [])
  new.foldl (fun t o => satOwned (s.coreOwner c) (0x400000 + 0x100 * c + o) t) s1

/-- Everything the Bar's clocks and media add, in ascending offset (R591). -/
def countBar (act : BarActivity) (s : State) : State :=
  let cs := (List.range s.cfg.cores).filter (fun c => (s.coreOwner c).isSome)
  let s1 := cs.foldl (fun t c => countStalls c (kget [] act.stall c) t) s
  let s2 := cs.foldl (fun t c => countSpm c (kget [] act.conf c) (kget 0 act.nwait c) (kget 0 act.crwait c) t) s1
  let s3 := (List.range s.cfg.channels).foldl (fun t c =>
    if kget 0 act.qwait c = 0 then t else mcCount c 3 (kget 0 act.qwait c) t) s2
  (List.range s.cfg.linkPorts).foldl (fun t n =>
    if kget 0 act.fecCorr n = 0 then t else lkCount n 2 32 (kget 0 act.fecCorr n) t) s3

/-! ### Accounting -/

/-- The energy estimate of the Bar (R529), a free value (log 7). -/
def addEnergy (p : Nat) (s : State) : State := acctAdd p 6 (Config.energyMj s.free) s.draw

/-- The BAR copy (R42, R531, R590): KV_PAGE_BEATS as it was before the boundary's beat. -/
def barCopy (p : Nat) (s : State) : State :=
  s.modPart p (fun q => { q with acct := { q.acct with bar := q.acct.live.set 5 q.acct.kvEdge, barBeat := s.beat.cnt } })

/-! ### Telemetry -/

/-- FLAGS of a record (R604). -/
def State.telemFlags (s : State) (p : Nat) : Nat :=
  let q := s.part p
  b2n q.closed.hold + 2 * b2n q.closed.inter + 4 * b2n s.pmu.droopBar + 8 * b2n (decide (s.pmu.dutyMin < 16))
    + 16 * b2n q.tempo.running + 32 * b2n q.closed.fence + 64 * b2n (q.closed.satEvent || q.notes.satEvent)

/-- A partition's record of the Bar just ended, of `act` (R604). -/
def State.telemRecord (s : State) (p : Nat) (act : BarActivity) : List Byte :=
  let q := s.part p
  let cs := (s.partCores p).filter (fun c => !(s.core c).fenced)
  let sum (f : Nat → Nat) : Nat := (cs.map f).sum
  leBytes 8 s.beat.cnt.toNat ++ leBytes 2 (s.jobTag p).toNat ++ leBytes 2 (s.telemFlags p) ++ leBytes 4 q.telem.gap
    ++ q.acct.bar.flatMap (leBytes 8) ++ leBytes 4 q.closed.holdBeats ++ leBytes 4 q.closed.late
    ++ (List.range 12).flatMap (fun n => leBytes 4 (sum (fun c => nth (s.core c).stallBar n)))
    ++ leBytes 8 (sum (fun c => (kget [] act.conf c).sum)) ++ leBytes 4 (sum (fun c => kget 0 act.nwait c))
    ++ leBytes 4 (sum (fun c => kget 0 act.crwait c)) ++ leBytes 2 (sum (fun c => (s.core c).perrBar))
    ++ leBytes 1 ((s.partCores p).length - cs.length) ++ leBytes 1 s.pmu.dutyMin ++ leBytes 2 s.pmu.avgW
    ++ leBytes 1 s.pmu.dieTempMax ++ leBytes 1 s.pmu.stackTempMax ++ leBytes 4 q.kv.hbm.zeroed ++ leBytes 4 q.kv.hbm.dirty
    ++ leBytes 4 q.closed.faults ++ leBytes 4 q.closed.crwait ++ List.replicate 88 0

/-- A record that the ring has no place for (R601, R603). -/
def telemDrop (p : Nat) (s : State) : State :=
  let t := (s.part p).telem
  let (v, o) := satAdd 16 t.dropped 1
  let s1 := s.modPart p (fun q => { q with telem := { t with dropped := v, sat := t.sat || o, gap := t.gap + 1 } })
  if o && !t.sat then satPart p (0x6014 + 0x20 * p) s1 else s1

/-- Base VA of a telemetry ring (R601). -/
def Telem.base (t : Telem) : Nat := t.baseHi.toNat * 2 ^ 32 + t.baseLo.toNat * 2 ^ 8

/-- Write a record at HEAD, or drop it while the ring is full (R603). -/
def telemPut (p : Nat) (r : List Byte) (s : State) : State :=
  let t := (s.part p).telem
  let next := (t.head.toNat + 1) % max 1 t.records.toNat
  if next = t.tail.toNat then telemDrop p s
  else
    writeVa p false (t.base + 256 * t.head.toNat) r
      (s.modPart p (fun q => { q with telem := { t with head := BitVec.ofNat 20 next, gap := 0 } }))

/-- The record of a Bar: written, or kept in the unit's own buffer of 64 records in P3 (R603, R605). -/
def telemBar (p : Nat) (act : BarActivity) (s : State) : State :=
  let t := (s.part p).telem
  if !t.enable then s
  else if s.pmu.state = 3 then
    if t.buffer.length < 64 then
      s.modPart p (fun q => { q with telem := { t with buffer := t.buffer ++ [s.telemRecord p act], gap := 0 } })
    else telemDrop p s
  else telemPut p (s.telemRecord p act) s

/-- The buffered records are written on wake, in order (R605). -/
def telemFlush (p : Nat) (s : State) : State :=
  let rs := (s.part p).telem.buffer
  rs.foldl (fun t r => telemPut p r t) (s.modPart p (fun q => { q with telem := { q.telem with buffer := [] } }))

/-! ### Hot pages -/

/-- The STBs' access fields join the access tables (R406). -/
def drainAccess (s : State) : State :=
  (List.range s.cfg.sets).foldl (fun t k =>
    (t.unit k).stb.foldl (fun t e =>
      if e.count = 0 then t
      else
        t.modPart e.part (fun q =>
          let old := kget 0 q.space.counts e.page
          let new := min 0xFFFFFFFF (old + e.count)
          { q with space := { q.space with
              counts := kset 0 q.space.counts e.page new, grown := kmod 0 q.space.grown e.page (· + (new - old)) } }))
      (t.setUnit k { t.unit k with stb := (t.unit k).stb.map (fun e => { e with count := 0 }) })) s

/-- Insert by growth, the largest first. -/
def insHot (l : List (Nat × Nat × Nat)) (x : Nat × Nat × Nat) : List (Nat × Nat × Nat) :=
  match l with
  | [] => [x]
  | y :: r => if y.2.1 < x.2.1 then x :: y :: r else y :: insHot r x

/-- A page of partition `p`'s table is far. -/
def Space.isFar (t : Space) (page : Nat) : Bool :=
  match t.walk (page * 2 ^ 25) with
  | .leaf _ l => l.far
  | _ => false

/-- The hot list after a Bar (R406): pages that grew enough enter it, at most 64 stay, the others are counted. -/
def hotBar (p : Nat) (s : State) : State :=
  s.modPart p (fun q =>
    let t := q.space
    let new := (t.grown.filter (fun g => decide (t.hotThreshold ≤ g.2) && (!t.hotFarOnly || t.isFar g.1))).map (fun g =>
      (g.1, g.2, kget 0 t.counts g.1))
    let all := new.foldl insHot (t.hot.filter (fun h => !new.any (fun n => decide (n.1 = h.1))))
    { q with space := { t with grown := [], hot := all.take 64, hotDropped := min 0xFFFFFFFF (t.hotDropped + (all.length - 64)) } })

/-! ### The boundary -/

/-- What starts anew with a Bar: the Bar's extremes and error counts. -/
def newBar (s : State) : State :=
  { s with
    cores := (s.cores.map (fun c => (c.1, { c.2 with perrBar := 0 }))).filter (fun c => decide (c.2 ≠ Core.reset))
    channels := (s.channels.map (fun c => (c.1, { c.2 with uesInBar := 0 }))).filter (fun c => decide (c.2 ≠ Channel.reset))
    ports := (s.ports.map (fun c => (c.1, { c.2 with uncInBar := 0 }))).filter (fun c => decide (c.2 ≠ Port.reset))
    pmu := { s.pmu with
      dutyMin := s.pmu.duty, dieTempMax := s.pmu.dieTemp, droopBar := s.pmu.stretch, droopPosted := false
      stackTempMax := ((List.range s.cfg.hbmStacks).map (fun k => (s.stackAt k).temp)).foldl max 0 } }

/-- The boundary's work for one partition, after the Bar's counts. -/
def barPart (act : BarActivity) (p : Nat) (s : State) : State :=
  (hotBar p (telemBar p act (barCopy p (addEnergy p s)))).modPart p (fun q => { q with notes := { q.notes with satEvent := false } })

/-- BAR_BOUNDARY: a beat whose BEAT_CNT is a multiple of 64 has fallen, and its copies are not taken yet (R42, R51). -/
def execBarBoundary (act : BarActivity) (s : State) : Res :=
  if (s.beat.lock ≠ .locked ∧ s.beat.lock ≠ .holdover) ∨ s.beat.cnt.toNat % 64 ≠ 0 ∨ (s.part 0).acct.barBeat = s.beat.cnt then .next s
  else .next (newBar ([0, 1, 2, 3].foldl (fun t p => barPart act p t) (drainAccess (countBar act s))))

/-! ### COUNTER_READ -/

/-- COUNTER_READ (R503, R532). -/
def execCounterRead (ring : Nat) (seq : BitVec 16) (s : State) : Res :=
  .next (runCommand ⟨0x600, false, false, false, [(0x18, 0, 1)]⟩ ring seq
    (fun p img s =>
      let a := (s.part p).acct
      let bar := arg img 0x18 0 1 = 1
      completeWith p ring seq img (if bar then a.barBeat.toNat else s.beat.cnt.toNat)
        ((if bar then a.bar else a.live).flatMap (leBytes 8) ++ leBytes 8 a.sat.toNat) s) s)

end Sys2Proof.Machine
end

