-- ==== Sys2Proof/Machine/Power.lean ====
section
/-! DEFINITION. The PMU: power states (R533 to R538), the power cap and DUTY (R541 to R543), droop warnings (R544, R545) and the die's
temperature (R547, R548). -/

namespace Sys2Proof.Machine

/-- The PMU acts while the block is out of reset (R616, R618). -/
def State.powered (s : State) : Bool := decide (s.pins.phase = .running)

/-! ### Power states -/

/-- A Figure is in progress or a stream is bound (R535). -/
def State.busyNow (s : State) : Bool :=
  s.parts.any (fun x => match x.2.run with | some r => !r.active.isEmpty | none => false) || s.streams.any (fun x => x.2.bound)

/-- Some partition runs a Choreography (R536). -/
def State.anyRun (s : State) : Bool := s.parts.any (fun x => x.2.run.isSome)

/-- Change the state at once, between P0 and P1. -/
def powerTo (n : Nat) (s : State) : State := { s with pmu := { s.pmu with state := n, target := n } }

/-- Begin a transition that takes time (R536, R538). -/
def powerToward (n : Nat) (s : State) : State := { s with pmu := { s.pmu with target := n, transition := true } }

/-- The quarters that hold VALID resident regions on core `i` of partition `p` (R332). -/
def State.residentQuarters (s : State) (p i : Nat) : BitVec 4 :=
  let n := s.cfg.quarterRows
  BitVec.ofNat 4 (((List.range 4).filter (fun q => (s.part p).residents.any (fun r =>
    r.valid && r.mask.getLsbD i && decide (0 < r.rows) && decide (r.firstRow < (q + 1) * n) && decide (q * n < r.firstRow + r.rows)))).map (2 ^ ·)).sum

/-- Power down the quarters of partition `p` that hold no VALID resident region, on each core apart (R332); those powered on every core
are still on (R333). -/
def sleepQuarters (p : Nat) (s : State) : State :=
  let on := (s.part p).quarterOn
  let cs := (s.partCores p).zipIdx.map (fun c => (c.1, on &&& s.residentQuarters p c.2))
  let s1 := cs.foldl (fun t c =>
    let keep (row : Nat) : Bool := c.2.getLsbD (row / s.cfg.quarterRows)
    t.modCore c.1 (fun k => { k with
      spm := k.spm.filter (fun b => keep (b.1 / 512)), badRows := k.badRows.filter keep, tags := k.tags.filter (fun b => keep (b.1 / 512)) })) s
  s1.modPart p (fun q => { q with wakeOn := on, quarterOn := cs.foldl (fun m c => m &&& c.2) on })

/-- Every UP port enters KEEPALIVE on one lane (R417, R448). -/
def keepalivePorts (s : State) : State :=
  (List.range s.cfg.linkPorts).foldl (fun t n =>
    if (t.port n).state = .up then t.modPort n (fun q => { q with state := .keepalive, width := 1 }) else t) s

/-- Every port leaves KEEPALIVE without retraining (R448, R538). -/
def wakePorts (s : State) : State :=
  (List.range s.cfg.linkPorts).foldl (fun t n =>
    if (t.port n).state = .keepalive then t.modPort n (fun q => { q with state := .up, width := laneCount q.lanes }) else t) s

/-- ACM_CLEAR of both banks on every core (R152, R538). -/
def clearAcm (s : State) : State :=
  (List.range s.cfg.cores).foldl (fun t c => t.modCore c (fun k => { k with bank0 := Bank.clear, bank1 := Bank.clear })) s

/-- What P3 adds: quarters without VALID resident regions power down, stacks enter self-refresh (R332, R536). -/
def sleepDeep (s : State) : State :=
  let s1 := s.liveParts.foldl (fun t p => sleepQuarters p t) s
  (List.range s.cfg.hbmStacks).foldl (fun t k => t.modStack k (fun x => { x with selfRefresh := true })) s1

/-- Leaving P3: stacks leave self-refresh, quarters power up with what sleep left of them, the buffered telemetry records are written
(R331, R538, R605). -/
def wakeDeep (s : State) : State :=
  let s1 := (List.range s.cfg.hbmStacks).foldl (fun t k => t.modStack k (fun x => { x with selfRefresh := false })) s
  s1.liveParts.foldl (fun t p => telemFlush p (t.modPart p (fun q => { q with quarterOn := q.wakeOn }))) s1

/-- The POWER_STATE commands that asked for state `n` complete. -/
def finishPower (n : Nat) (s : State) : State :=
  [0, 1, 2, 3].foldl (fun t p => finishWaits p (fun w => decide (w = .power n)) stOk 0 t) s

/-- POWER_TRANSITION_DONE (R353, R536, R538). -/
def execPowerTransitionDone (s : State) : Res :=
  if !s.powered || !s.pmu.transition then .next s
  else
    let n := s.pmu.target
    let old := s.pmu.state
    let s1 := if 2 ≤ n then keepalivePorts (flushAll s) else s
    let s2 := if n = 3 ∧ old ≠ 3 then sleepDeep s1 else if old = 3 ∧ n ≠ 3 then wakeDeep s1 else s1
    let s3 := if 2 ≤ old ∧ n < 2 then wakePorts (clearAcm s2) else s2
    .next (finishPower n { s3 with pmu := { s3.pmu with state := n, transition := false } })

/-- POWER_STATE (R535, R536). A command that meets a transition in progress waits for its end. -/
def execPowerState (ring : Nat) (seq : BitVec 16) (s : State) : Res :=
  .next (runCommand ⟨0x610, true, false, false, [(0x18, 0, 2)]⟩ ring seq
    (fun p img t =>
      let n := arg img 0x18 0 2
      if t.pmu.transition then s
      else if 2 ≤ n ∧ t.anyRun then complete ring seq stPowerBusy 0 0 t
      else if n = t.pmu.state then complete ring seq stOk 0 0 t
      else if n < 2 ∧ t.pmu.state < 2 then complete ring seq stOk 0 0 (powerTo (if n = 1 ∧ t.busyNow then 0 else n) t)
      else addWait p ring seq (.power n) (powerToward n t)) s)

/-- P1_IDLE_ENTRY after 1 ms without a Figure in progress or a bound stream (R535). -/
def execP1IdleEntry (s : State) : Res :=
  .next (if s.powered && decide (s.pmu.state = 0) && !s.pmu.transition && !s.busyNow then powerTo 1 s else s)

/-! ### The cap -/

/-- The cap that a written value acts as (R541). -/
def capOf (top v : Nat) : Nat := if v = 0 ∨ top < v then top else if v < top * 3 / 10 then top * 3 / 10 else v

/-- POWER_CAP (R541). -/
def execPowerCap (ring : Nat) (seq : BitVec 16) (s : State) : Res :=
  .next (runCommand ⟨0x611, true, false, false, [(0x18, 0, 16)]⟩ ring seq
    (fun _ img s =>
      complete ring seq stOk 0 0 { s with pmu := { s.pmu with capW := capOf (maxPower s.cfg) (arg img 0x18 0 16) } }) s)

/-- The ceiling of DUTY (R542, R544, R547). -/
def Pmu.ceiling (u : Pmu) : Nat := if 1 ≤ u.dieLevel ∨ u.throttle ∨ u.stretch then 8 else 16

/-- DUTY falls to its ceiling at once; the Bar's lowest DUTY follows (R542, R604). -/
def Pmu.settled (u : Pmu) : Pmu := { u with duty := min u.duty u.ceiling, dutyMin := min u.dutyMin (min u.duty u.ceiling) }

/-- DUTY after 10 µs with the trailing average `avgMw` in mW (R542). -/
def dutyNext (u : Pmu) (avgMw : Nat) : Nat :=
  if 1000 * u.capW < avgMw then max 4 (u.duty - 1)
  else if avgMw < 950 * u.capW ∧ u.duty < u.ceiling then u.duty + 1
  else u.duty

/-- DUTY_ADJUST (R542). -/
def execDutyAdjust (avgMw : Nat) (s : State) : Res :=
  .next (if s.powered then { s with pmu := Pmu.settled { s.pmu with duty := dutyNext s.pmu avgMw } } else s)

/-- CAP_WINDOW_END (R543, R551): the average of a 1 ms window in mW. -/
def execCapWindowEnd (avgMw : Nat) (s : State) : Res :=
  if !s.powered then .next s
  else
    let hit := decide (1000 * s.pmu.capW < avgMw)
    let s1 := { s with pmu := { s.pmu with avgW := avgMw / 1000, overCap := hit } }
    .next (if hit && !s.pmu.overCap then postAll 0x91 (payloadOf noFig 0 (avgMw % 2 ^ 32)) s1 else s1)

/-! ### Droop warnings -/

/-- A source of warnings or supply failures: the detectors, or an enabled monitor input (R544, R546, R553, R644). -/
def Pmu.source (u : Pmu) (i : Nat) : Bool := decide (i = 0) || (decide (i ≤ 15) && u.monEn.getLsbD (i - 1))

/-- DROOP_WARN_START (R544): a warning that begins again before the last has ended continues its episode. -/
def execDroopWarnStart (source : Nat) (s : State) : Res :=
  if !s.powered || !s.pmu.source source || s.pmu.stretch then .next s
  else .next { s with pmu := Pmu.settled { s.pmu with stretch := true, droopBar := true, episode := source } }

/-- DROOP_WARN_END (R545, R552): the episode is counted, and posted unless one has been in this Bar. -/
def execDroopWarnEnd (durNs : Nat) (s : State) : Res :=
  let u := s.pmu
  if !s.powered || !u.stretch then .next s
  else
    let (n, o) := satAdd 16 u.droopCount 1
    let s1 := { s with pmu := { u with
      stretch := false, droopWarn := true, droopCount := n, droopSat := u.droopSat || o, droopSource := u.episode, droopPosted := true } }
    let s2 := if o && !u.droopSat then satAll 0x5008 s1 else s1
    .next (if u.droopPosted then s2 else postAll 0x90 (payloadOf noFig u.episode (min durNs 0xFFFFFFFF)) s2)

/-! ### Die temperature -/

/-- The die level after a reading (R547). -/
def Pmu.levelAt (u : Pmu) (t : Nat) : Nat :=
  if u.dieLevel = 2 ∨ u.dieTripC ≤ t then 2
  else if u.dieHotC ≤ t ∨ (u.dieLevel = 1 ∧ u.dieHotC ≤ t + 3) then 1
  else 0

/-- Every Figure in progress aborts without further commits, and Fremund stops every running Choreography (R548). -/
def dieTripped (s : State) : State :=
  [0, 1, 2, 3].foldl (fun t p =>
    match (t.part p).run with
    | none => t
    | some r => fremundStop p 0xB0 (r.active.foldl (fun u a => askAbort p ((t.part p).figId a.fig) .dieTrip u) t)) s

/-- DIE_TEMP_READ (R547, R548). -/
def execDieTempRead (temp : Nat) (s : State) : Res :=
  if !s.powered then .next s
  else
    let u := s.pmu
    let lv := u.levelAt temp
    let s1 := { s with pmu := Pmu.settled { u with dieTemp := temp % 256, dieLevel := lv, dieTempMax := max u.dieTempMax (temp % 256) } }
    .next (if lv = 2 ∧ u.dieLevel ≠ 2 then tripAlarm (dieTripped s1) else s1)

/-- THERM_THROTTLE_CHANGE (R547, R645). -/
def execThermThrottleChange (b : Bool) (s : State) : Res := .next { s with pmu := Pmu.settled { s.pmu with throttle := b } }

end Sys2Proof.Machine
end

