-- ==== Sys2Proof/Machine/Resets.lean ====
section
/-! DEFINITION. The two resets (R540, R546, R615 to R618, R649) and bring-up (R671 to R677). -/

namespace Sys2Proof.Machine

/-! ### What a reset keeps -/

/-- An NVM line whose WRITE had no response, or a line under ERASE, may hold anything afterwards (R626, log 4). -/
def spoilNvm (r : NvmReq) (s : State) : State :=
  if r.op = 0 then s
  else (nvmWrite r.addr ((List.range (64 * r.lines)).map (fun i => Config.freeByte s.free (r.addr + i))) s).draw

/-- A far write without its completion has happened or not (R370, log 5). -/
def spoilFar (q : Nat) (r : FarReq) (s : State) : State :=
  match r.write with
  | some w =>
    if !r.rmw && decide (Config.tornLine s.free r.addr = 1) then (farPut q r.addr (w.map (fun x => x.2.getD 0)) s).draw else s.draw
  | none => s

/-- Far requests outstanding at a reset are over. -/
def endFar (s : State) : State :=
  s.far.foldl (fun t f => (f.2.reqs.foldl (fun t r => spoilFar f.1 r t) t).modFar f.1 (fun x => { x with reqs := [] })) s

/-- The line of an entry of a Write-Combining Buffer after a supply failure: as it was, as the entry has it, or poisoned (R546, log 5). -/
def tearEntry (ch : Nat) (e : WcbEntry) (s : State) : State :=
  match Config.tornLine s.free (64 * e.line) with
  | 0 => s.draw
  | 1 => (s.modChannel ch (fun c => mergeLine c e)).draw
  | _ => (s.modChannel ch (fun c => { c with poison := insAsc c.poison e.line })).draw

/-- Every Write-Combining Buffer is lost (R546). -/
def tearAll (s : State) : State :=
  (List.range s.cfg.channels).foldl (fun t ch => (t.channel ch).wcb.foldl (fun t e => tearEntry ch e t) t) s

/-- The contents of the channels of the stacks that `f` picks become undefined (R361, R540, R649). -/
def loseStacks (f : Nat → Bool) (s : State) : State :=
  ((List.range s.cfg.channels).foldl (fun t ch =>
    if f (ch / 32) then t.modChannel ch (fun c => { c with mem := [], poison := [], undef := some s.free }) else t) s).draw

/-- What a channel holds through block reset: its contents (R616). -/
def Channel.kept (c : Channel) : Channel := { Channel.reset with mem := c.mem, undef := c.undef, poison := c.poison }

/-- The block after block reset, in phase `ph`: what the board, the stacks and the supply keep stays (R554, R616, R617, R646); the level
of THERM_THROTTLE is an input. -/
def afterReset (ph : Phase) (s : State) : State :=
  let r := State.resetOf s.cfg
  { r with
    pending := s.pending
    free := s.free
    channels := (s.channels.map (fun c => (c.1, c.2.kept))).filter (fun c => decide (c.2 ≠ Channel.reset))
    stackSt := (List.range s.cfg.hbmStacks).map (fun k => (k, { Stack.reset with selfRefresh := true }))
    far := s.far
    nvm := s.nvm
    pmu := Pmu.settled { r.pmu with throttle := s.pmu.throttle, rstSource := s.pmu.rstSource, rstSupply := s.pmu.rstSupply }
    fatal := { r.fatal with supply := s.fatal.supply }
    pins := { r.pins with phase := ph, rstAck := decide (ph ≠ .entry) } }

/-- NVM and far requests that a reset cuts off. -/
def cutRequests (s : State) : State := s.nvmReqs.foldl (fun t r => spoilNvm r t) (endFar s)

/-- The block is out of reset. -/
def State.outOfReset (s : State) : Bool := decide (s.pins.phase = .running) || decide (s.pins.phase = .testMode)

/-! ### Resets -/

/-- RESET_ENTRY (R616): engines stop, buffers are flushed while power holds, stacks with staged repairs are reset and the others enter
self-refresh; the block holds its reset state from here. -/
def execResetEntry (s : State) : Res :=
  if !s.outOfReset then .next s
  else .next (afterReset .entry (loseStacks (fun k => decide (0 < (s.stackAt k).staged)) (flushAll (cutRequests s))))

/-- RESET_ENTRY_DONE (R616). -/
def execResetEntryDone (s : State) : Res :=
  if s.pins.phase = .entry then .next { s with pins := { s.pins with phase := .held, rstAck := true } } else .next s

/-- SUPPLY_FAILURE (R546, R554, R617, R646): block reset at once; a detector or an enabled monitor input reports it. -/
def execSupplyFailure (source : Nat) (s : State) : Res :=
  if s.pins.phase = .cold ∨ !s.pmu.source source then .next s
  else
    let s1 := afterReset .held (tearAll (cutRequests s))
    .next { s1 with
      pmu := { s1.pmu with rstSource := source, rstSupply := true }, fatal := { s1.fatal with supply := true }
      pins := { s1.pins with blkRstN := s.pins.blkRstN } }

/-- POR_ASSERT (R540, R615): the whole block is in cold reset. -/
def execPorAssert (s : State) : Res :=
  let s1 := afterReset .cold (loseStacks (fun _ => true) (cutRequests s))
  .next { s1 with pins := { s1.pins with fuseReq := false } }

/-- POR_RELEASE (R554, R615, R648): what only supply application clears is cleared; BLK_RST_N still holds the block. -/
def execPorRelease (s : State) : Res :=
  if s.pins.phase ≠ .cold then .next s
  else .next { s with
    pmu := { s.pmu with rstSource := 0, rstSupply := false }, fatal := { s.fatal with supply := false }
    pins := { s.pins with phase := .held, fuseReq := true, fuseAddr := 16 } }

/-- Test mode is entered: the SRAMs are zero since reset, HBM is no longer refreshed, and TEST_READY is asserted (R649). -/
def enterTest (s : State) : State :=
  let s1 := loseStacks (fun _ => true) s
  { s1 with cores := [], ringMem := [], pins := { s1.pins with phase := .testMode, testReady := true } }

/-- RESET_RELEASE (R617, R618, R648, R649): a reset entry in progress completes first; straps and TEST_MODE are sampled; in mission mode
boot reads the key words next, or as soon as the repair words are read. -/
def execResetRelease (boot : BootInput) (s : State) : Res :=
  if s.pins.phase ≠ .held ∧ s.pins.phase ≠ .entry then .next s
  else
    let p := { s.pins with rstAck := false, blkRstN := true, feed := boot.feed, nvmErr := boot.nvmErr }
    if boot.testMode then .next (enterTest { s with pins := p })
    else .next { s with pins := { p with phase := .running, fuseReq := true } }

/-! ### Bring-up -/

/-- A stage of bring-up can run: Fremund is RUNNING (R671). -/
def State.bringUp (s : State) : Bool := s.powered && s.fwRunning

/-- PANIC with INT_FATAL (R479, R646, R663). -/
def panicNow (s : State) : State :=
  let s1 := enterPanic s
  { s1 with fatal := { s1.fatal with panic := true } }

/-- The cores and Sets that self-tests fence: of enabled Sets only (R672). -/
def fenceFailed (r : SelfTestResult) (s : State) : State :=
  let sets := r.sets.filter s.setEnabled
  let cores := (List.range s.cfg.cores).filter (fun c => s.setEnabled (c / 4) && (r.cores.contains c || sets.contains (c / 4)))
  let s1 := cores.foldl (fun t c => fenceCore c t) s
  let s2 := sets.foldl (fun t k => t.modUnit k (fun u => { u with fenced := true })) s1
  if cores.isEmpty then s2 else replaceCause 0 s2

/-- Every core's Scratchpad and ACM are zero (R335, R672). -/
def zeroiseAll (s : State) : State := (List.range s.cfg.cores).foldl (fun t c => zeroiseCore c t) s

/-- SELF_TESTS (R671, R672): stage 2 of bring-up. -/
def execSelfTests (r : SelfTestResult) (s : State) : Res :=
  if !s.bringUp || s.fw.selfTests then .next s
  else
    let s1 := withHealth (fenceFailed r) (zeroiseAll s)
    let s2 := { s1 with fw := { s1.fw with selfTests := true } }
    .next (if r.block then panicNow s2 else s2)

/-- Train one channel: `lanes` failing lanes, none where it does not train (R362, R363, R675). -/
def trainChannel (ch : Nat) (lanes : Option Nat) (s : State) : State :=
  match lanes.filter (fun n => decide (n ≤ 4)) with
  | some n => s.modChannel ch (fun c => { c with state := .online, sparesUsed := n })
  | none => channelFailed ch s

/-- Train one stack (R340, R354, R675); one that gave no answer fails on every channel. -/
def trainStack (k : Nat) (a : StackTraining) (s : State) : State :=
  let s1 := s.setStack k ⟨a.temp, 0, stackLevel 0 a.temp, false, false⟩
  let s2 := { s1 with pmu := { s1.pmu with stackTempMax := max s1.pmu.stackTempMax a.temp } }
  (List.range 32).foldl (fun t i => trainChannel (32 * k + i) ((a.channels[i]?).join) t) s2

/-- The stacks that reached the trip level while training (R354, R675). -/
def tripTrained (s : State) : State :=
  ((List.range s.cfg.hbmStacks).filter (fun k => decide ((s.stackAt k).level = 3))).foldl (fun t k =>
    let t1 := ((List.range 32).map (32 * k + ·)).foldl (fun t ch => if (t.channel ch).state = .failed then t else channelDown ch t) t
    postAll 0x55 (payloadOf noFig k (((t.stackAt k).temp) % 256)) (tripAlarm t1)) s

/-- HBM_TRAINING (R340, R671, R675): stage 3 of bring-up. -/
def execHbmTraining (answers : List StackTraining) (s : State) : Res :=
  if !s.bringUp || s.fw.hbmTrained then .next s
  else
    let n := s.cfg.hbmStacks
    let ask (k : Nat) : StackTraining := answers.getD k ⟨0, 0, []⟩
    let gbs := (List.range n).map (fun k => (ask k).gb)
    let gb := gbs.foldl min (gbs.headD 0)
    let odd := gbs.any (fun g => decide (g ≠ gb))
    let s1 := (List.range n).foldl (fun t k => trainStack k (ask k) t) s
    let s2 := { s1 with mem := { s1.mem with stackGb := gb, mismatch := odd, trained := true }, fw := { s1.fw with hbmTrained := true } }
    let small := (gbs.findIdx? (fun g => decide (g = gb))).getD 0
    .next (tripTrained (if odd then postAll 0x54 (payloadOf noFig small gb) s2 else s2))

/-- LINK_TRAINING (R512, R642, R671, R676): stage 4 of bring-up, for every enabled port. -/
def execLinkTraining (lanes : KMap (List LaneWatch)) (s : State) : Res :=
  if !s.bringUp then .next s
  else
    .next (((List.range s.cfg.linkPorts).filter (fun n => (s.portOwner n).isSome && decide ((s.port n).state = .down))).foldl (fun t n =>
      trainResult n (alignedLanes (kget [] lanes n)) (t.modPort n (fun q => { q with state := .training, phyReset := false }))) s)

/-- HBM_ZERO_INIT (R671, R675): stage 5 of bring-up; `failed` are the channels that fail in it. -/
def execHbmZeroInit (failed : List Nat) (s : State) : Res :=
  if !s.bringUp || !s.fw.hbmTrained || s.fw.zeroed then .next s
  else
    let s1 := (List.range s.cfg.channels).foldl (fun t ch =>
      if (t.channel ch).state = .online ∨ (t.channel ch).state = .fenced then
        t.modChannel ch (fun c => { c with mem := [], poison := [], undef := none })
      else t) s
    let s2 := (failed.filter (fun ch => decide (ch < s.cfg.channels) && decide ((s1.channel ch).state ≠ .failed))).foldl
      (fun t ch => channelFailed ch t) s1
    .next { s2 with fw := { s2.fw with zeroed := true } }

/-- FW regions latch their channel lists (R344). -/
def latchFw (s : State) : State :=
  (List.range 64).foldl (fun t n =>
    let r := t.region n
    if r.valid && r.fw && decide (r.mode ≤ 1) then t.setRegion n { r with list := some ((regionReach t.cfg r).filter t.inService) } else t) s

/-- Every ring that a partition owns is READY from 0 (R476, R486, R671). -/
def openRings (s : State) : State :=
  (List.range 16).foldl (fun t r => if (t.ringOwner r).isSome then t.modRing r Ring.fresh else t) s

/-- Events of bring-up are posted, in order (R677). -/
def postEarly (s : State) : State :=
  s.fw.early.foldl (fun t e => postEvent e.1 e.2.1 e.2.2.toNat t) { s with fw := { s.fw with early := [] } }

/-- FW_REGION_BUILD (R671, R675): stage 6 of bring-up; a stack's trip has ended bring-up. -/
def execFwRegionBuild (ok : Bool) (s : State) : Res :=
  if !s.bringUp || !s.fw.selfTests || !s.fw.zeroed || s.fw.regionsBuilt
      || (List.range s.cfg.hbmStacks).any (fun k => decide ((s.stackAt k).level = 3)) then .next s
  else if !ok then .next (panicNow s)
  else
    let s1 := latchFw s
    .next (postEarly (openRings { s1 with fw := { s1.fw with regionsBuilt := true } }))

/-! ### Test -/

/-- JTAG_IR_UPDATE (R650). -/
def execJtagIrUpdate (code : BitVec 8) (s : State) : Res := .next { s with pins := { s.pins with jtagIr := code } }

/-- SCAN_PATTERN (R651, R652, R679, R680): in test mode the stacks' IEEE 1500 signals are connected straight through, the inputs of each
stack and WSO of all of them, and after TEST_READY the data shifted out are Config's (log 13); in mission mode the inputs are ignored and
WSO is 0. -/
def execScanPattern (d : ScanDrive) (s : State) : Res :=
  let p := s.pins
  if p.phase ≠ .testMode then .next { s with pins := { p with wrapIn := [], wrapOut := 0 } }
  else
    let q := { p with wrapIn := d.wrap.take s.cfg.hbmStacks, wrapOut := d.wso &&& BitVec.ofNat 8 (2 ^ s.cfg.hbmStacks - 1) }
    if p.testReady then .next { s.draw with pins := { q with scanOut := Config.scanOut s.free d.input } } else .next { s with pins := q }

end Sys2Proof.Machine
end

