-- ==== Sys2Proof/Machine/Firmware.lean ====
section
/-! DEFINITION. The firmware commands (R484 to R486, R504, R521) and the restart of the Control Cluster. -/

namespace Sys2Proof.Machine

/-- Largest image: header and body (R484). -/
def maxImage : Nat := 6 * 2 ^ 20 + 512

/-- The slot that is not ACTIVE (R484). -/
def BootRec.spare (r : BootRec) : Nat := match r.slotIn 1 with | some 0 => 1 | _ => 0

/-- A slot is PENDING or TRIAL (R484). -/
def BootRec.updating (r : BootRec) : Bool := (r.slotIn 2).isSome || (r.slotIn 3).isSome

/-- Erase the 8 MiB of a slot (R484, R627). -/
def eraseSlot (i : Nat) (s : State) : State :=
  { s with nvm := s.nvm.filter (fun e => !(decide (fwSlotAt i ≤ e.1) && decide (e.1 < fwSlotAt i + 2 ^ 23))) }

/-- Put staged bytes into slot `i` at an offset; offset 0 first erases the slot (R484). -/
def stageBytes (i off : Nat) (bs : List Byte) (s : State) : State :=
  nvmWrite (fwSlotAt i + off) bs (if off = 0 then eraseSlot i s else s)

/-- FW_STAGE (R484, R492, R504). -/
def execFwStage (ring : Nat) (seq : BitVec 16) (s : State) : Res :=
  .next (runCommand ⟨0x800, true, false, false, [(0x18, 0, 52), (0x20, 0, 23), (0x24, 0, 17)]⟩ ring seq
    (fun p img s =>
      let va := arg img 0x18 0 52
      let off := arg img 0x20 0 23
      let n := arg img 0x24 0 17
      if n = 0 ∨ 65536 < n ∨ maxImage ≤ off ∨ maxImage < off + n ∨ !s.pinned p va n then complete ring seq stField 0 0 s
      else
        match s.bootRec with
        | none => complete ring seq stFwBusy 0 0 s
        | some (_, r) =>
          if r.updating then complete ring seq stFwBusy 0 0 s
          else
            match s.readVa p va n with
            | .ok bs => complete ring seq stOk 0 0 (stageBytes r.spare off bs s)
            | .bad l => complete ring seq stField 0 0 (fwUncorrectable p noFig l s)
            | .unmapped => complete ring seq stField 0 0 s) s)

/-- The staged image of slot `i` of `n` bytes has a well-formed header and the digest it names (R484, R517). -/
def State.stagedOk (s : State) (i n : Nat) : Bool :=
  let a := fwSlotAt i
  let h := s.nvmRead a 512
  headerGood 0x0A5E0B01 (6 * 2 ^ 20) h && decide (ofLe (cut h 8 4) + 512 = n)
    && decide (digestBytes (sha384 (s.imageBody a)) = cut h 0x10 48)

/-- FW_COMMIT (R484, R492, R504, R630). -/
def execFwCommit (ring : Nat) (seq : BitVec 16) (s : State) : Res :=
  .next (runCommand ⟨0x801, true, false, false, [(0x18, 0, 23)]⟩ ring seq
    (fun _ img s =>
      let n := arg img 0x18 0 23
      match s.bootRec with
      | none => complete ring seq stFwBusy 0 0 s
      | some (_, r) =>
        if r.updating then complete ring seq stFwBusy 0 0 s
        else if maxImage < n ∨ !s.stagedOk r.spare n then complete ring seq stFwInvalid 0 0 s
        else complete ring seq stOk 0 0 (modBootRec (fun r => (r.setState r.spare 2).setLen r.spare n) s)) s)

/-- FW_CONFIRM (R484, R492, R630). -/
def execFwConfirm (ring : Nat) (seq : BitVec 16) (s : State) : Res :=
  .next (runCommand ⟨0x803, true, false, false, []⟩ ring seq
    (fun _ _ s =>
      match s.bootRec with
      | none => complete ring seq stFwInvalid 0 0 s
      | some (_, r) =>
        match r.slotIn 3 with
        | none => complete ring seq stFwInvalid 0 0 s
        | some i =>
          let s1 := modBootRec (fun r => (r.setState i 1).setState (1 - i) 0) s
          complete ring seq stOk 0 0 { s1 with fw := { s1.fw with trial := false } }) s)

/-! ### Restart -/

/-- What a partition keeps through a restart: its registers and counters, not what Fremund holds for it (R486). -/
def Part.restarted (q : Part) : Part :=
  { q with
    endedTags := [], jobLoaded := false, chor := none, kv := Part.reset.kv, residents := [], waiting := [], reserved := []
    items := q.items.map (fun i => { i with who := [] }), space := Space.reset, plane := Plane.reset, snap := Snap.reset
    eventRing := Part.reset.eventRing }

/-- What a Set's units keep: no translation and no cache of Fremund's tables. -/
def SetUnits.restarted (u : SetUnits) : SetUnits :=
  { u with kvlb := [], cursors := [], descCache := [], kvWalks := [], stb := [], walks := [], walkCache := [] }

/-- Every state that Fremund holds is cleared as at block reset (R486). -/
def clearFremund (s : State) : State :=
  { s with
    parts := (s.parts.map (fun x => (x.1, x.2.restarted))).filter (fun x => decide (x.2 ≠ Part.reset))
    sets := (s.sets.map (fun x => (x.1, x.2.restarted))).filter (fun x => decide (x.2 ≠ SetUnits.reset))
    clms := [], seqs := [], lbs := [], utlbs := []
    faults := { s.faults with entries := [], parking := [] }
    nvmReqs := s.nvmReqs.map (fun r => { r with why := 0 })
    fw := { s.fw with early := [], backlog := [], freeSlots := [], misses := [0, 0, 0], state := .restarting } }

/-- The Control Cluster restarts: rings are HALTED, Fremund's state is cleared, boot code repeats step 4, and every owned ring is READY
from 0 when the new Fremund runs (R486, R521). If no image verifies, boot code stops with every ring DOWN (R519). -/
def restartCluster (s : State) : State :=
  let s1 := bootFremund (clearFremund (haltRings s))
  if s1.fw.state = .running then openRings s1
  else (List.range 16).foldl (fun t r => if (t.ringOwner r).isSome then t.modRing r (fun g => { g.fresh with state := .down }) else t) s1

/-- Some partition has an open job or a running Choreography (R484). -/
def State.workOpen (s : State) : Bool := s.parts.any (fun x => x.2.job.isSome || x.2.run.isSome)

/-- FW_ACTIVATE (R484 to R486, R492, R504). -/
def execFwActivate (ring : Nat) (seq : BitVec 16) (s : State) : Res :=
  .next (runCommand ⟨0x802, true, false, false, [(0x18, 0, 1)]⟩ ring seq
    (fun _ img s =>
      let now := decide (arg img 0x18 0 1 = 1)
      if now && s.workOpen then complete ring seq stFwBusy 0 0 s
      else
        match s.bootRec.bind (fun x => x.2.slotIn 2) with
        | none => complete ring seq stFwInvalid 0 0 s
        | some _ => if now then restartCluster (complete ring seq stOk 0 0 s) else complete ring seq stOk 0 0 s) s)

end Sys2Proof.Machine
end

