-- ==== Sys2Proof/Machine/Mapping.lean ====
section
/-! DEFINITION. The mapping commands (R401 to R403, R406, R407, R501) and FAULT_ABORT (R398). -/

namespace Sys2Proof.Machine

/-- Bytes of a page of a SIZE. -/
def pageBytes (big : Bool) : Nat := if big then 2 ^ 30 else 2 ^ 25

/-- A mapping command's fields (R501). -/
structure MapCmd where
  va      : Nat
  pages   : Nat
  big     : Bool
  rd      : Bool
  wr      : Bool
  pin     : Bool
  replace : Bool
  far     : Bool
  port    : Bool
  target  : Nat
  deriving DecidableEq, Repr

def mapCmd (img : BitVec 512) : MapCmd :=
  let b (i : Nat) : Bool := arg img 0x24 i 1 == 1
  ⟨arg img 0x18 0 52, arg img 0x20 0 32, b 0, b 1, b 2, b 3, b 4, b 5, b 6, arg img 0x28 0 41⟩

/-- VAs of the pages of a command, ascending. -/
def MapCmd.vas (c : MapCmd) : List Nat := (List.range c.pages).map (fun i => c.va + i * pageBytes c.big)

/-- PAGES is 1 to 2^27, VA is aligned to SIZE, and the range lies in the address space. -/
def MapCmd.rangeOk (c : MapCmd) : Bool :=
  decide (1 ≤ c.pages) && decide (c.pages ≤ 2 ^ 27) && decide (c.va % pageBytes c.big = 0)
    && decide (c.va + c.pages * pageBytes c.big ≤ 2 ^ 52)

/-- TARGET is aligned to SIZE, and the target range can be named (R341, R369). -/
def MapCmd.targetOk (c : MapCmd) : Bool :=
  decide (c.target % pageBytes c.big = 0) && decide (c.target + c.pages * pageBytes c.big ≤ if c.far then 2 ^ 41 else 2 ^ 40)

/-- The leaf that MAP writes for the page at `va`. -/
def MapCmd.leaf (c : MapCmd) (va : Nat) : Leaf := ⟨c.big, c.far, c.port, c.wr, c.rd, c.pin, (c.target + (va - c.va)) / 2 ^ 25⟩

/-- Valid leaves of a table that overlap [a, b), as first VA and leaf. -/
def Space.leavesIn (t : Space) (a b : Nat) : List (Nat × Leaf) :=
  t.leaves.filterMap (fun x =>
    match x.2 with
    | some l => if meets (x.1 * 2 ^ 25, x.1 * 2 ^ 25 + l.bytes) (a, b) then some (x.1 * 2 ^ 25, l) else none
    | none => none)

/-- Set or clear the leaf of the page at `va`. -/
def Space.put (t : Space) (va : Nat) (l : Option Leaf) : Space := { t with leaves := kset none t.leaves (pageKey va) l }

/-- Change partition `p`'s page table. -/
def modSpace (p : Nat) (f : Space → Space) (s : State) : State := s.modPart p (fun q => { q with space := f q.space })

/-- Page-table pages in use: the L0 table, the L1 tables and the L2 tables (R384). -/
def Space.tables (t : Space) : Nat :=
  let live := t.leaves.filter (fun x => x.2.isSome)
  let l1 := (live.map (fun x => x.1 / 2 ^ 14)).foldl insAsc []
  let l2 := ((live.filter (fun x => match x.2 with | some l => !l.big | none => false)).map (fun x => x.1 / 32)).foldl insAsc []
  1 + l1.length + l2.length

/-- [a, b) meets an arena that is set. -/
def KvPart.meetsArena (k : KvPart) (a b : Nat) : Bool :=
  (decide (0 < k.hbm.frames) && meets (k.hbm.base, k.hbm.base + 8192 * k.hbm.frames) (a, b))
    || (decide (0 < k.far.frames) && meets (k.far.base, k.far.base + 8192 * k.far.frames) (a, b))

/-- [a, b) meets a landing buffer of partition `p` that is set (R425). -/
def State.meetsLb (s : State) (p a b : Nat) : Bool :=
  s.lbs.any (fun x => x.2.isSet && decide (s.shareBase 4096 p ≤ x.1) && decide (x.1 < s.shareBase 4096 p + s.share 4096 p)
    && meets (x.2.base, x.2.base + x.2.size) (a, b))

/-- Complete a mapping command after its invalidation (R403). -/
def afterInvalidation (p ring : Nat) (seq : BitVec 16) (c : MapCmd) (done : Nat) (s : State) : State :=
  addWait p ring seq (.invalidate done) (invalidate p c.va (c.va + c.pages * pageBytes c.big) s)

/-- MAP (R386, R391, R401, R501). -/
def execMap (ring : Nat) (seq : BitVec 16) (s : State) : Res :=
  .next (runCommand ⟨0x300, false, false, true, [(0x18, 0, 52), (0x20, 0, 32), (0x24, 0, 7), (0x28, 0, 41)]⟩ ring seq
    (fun p img s =>
      let c := mapCmd img
      let t := (s.part p).space
      let fail (st : Nat) := complete ring seq st 0 0 s
      if !c.rangeOk || !c.targetOk then fail stField
      else
        let old := t.leavesIn c.va (c.va + c.pages * pageBytes c.big)
        let new := c.vas.foldl (fun t v => t.put v (some (c.leaf v))) t
        if c.replace && old.any (fun x => x.2.big != c.big) then fail stField
        else if !c.replace && !old.isEmpty then fail stPageMapped
        else if !c.vas.all (fun v => s.leafOk p (c.leaf v)) then fail stRegion
        else if 3 + Config.tableCapacity p < new.tables then fail stTableFull
        else if old.any (fun x => x.2.pin) then fail stPinned
        else
          let s1 := modSpace p (fun _ => new) s
          if c.replace then afterInvalidation p ring seq c c.pages s1
          else complete ring seq stOk c.pages 0 (resumeLegal p s1)) s)

/-- UNMAP (R223, R401, R403). -/
def execUnmap (ring : Nat) (seq : BitVec 16) (s : State) : Res :=
  .next (runCommand ⟨0x301, false, false, true, [(0x18, 0, 52), (0x20, 0, 32), (0x24, 0, 1)]⟩ ring seq
    (fun p img s =>
      let c := mapCmd img
      let b := c.va + c.pages * pageBytes c.big
      let fail (st : Nat) := complete ring seq st 0 0 s
      if !c.rangeOk then fail stField
      else
        let old := (s.part p).space.leavesIn c.va b
        if old.any (fun x => x.2.big != c.big) then fail stField
        else if (s.part p).kv.meetsArena c.va b then fail stSeqBusy
        else if old.any (fun x => x.2.pin) then fail stPinned
        else afterInvalidation p ring seq c old.length (modSpace p (fun t => old.foldl (fun t x => t.put x.1 none) t) s)) s)

/-- A leaf under PROTECT. While its page migrates WR stays clear (R407). -/
def MapCmd.protect (c : MapCmd) (moving : Bool) (l : Leaf) : Leaf := { l with rd := c.rd, wr := c.wr && !moving, pin := c.pin }

/-- PROTECT takes a permission away from a leaf. -/
def MapCmd.narrows (c : MapCmd) (l : Leaf) : Bool := (l.rd && !c.rd) || (l.wr && !c.wr)

/-- Ranges of memory that units translating through pinned leaves use for partition `p` (R303, R602): the sources of bound transfers,
the results of chains, the ranges, position records and staging areas of snapshot Figures, and the telemetry ring. -/
def State.pinUses (s : State) (p : Nat) : List (Nat × Nat) :=
  let q := s.part p
  let chor :=
    match q.chor with
    | none => []
    | some c =>
      ((c.xfers.filter (fun x => !x.srcLb)).map (fun x => (x.src, x.src + x.bytes)))
        ++ (c.chains.filter (fun k => !k.result.getLsbD 63)).map (fun k =>
            (fld k.result.toNat 0 52, fld k.result.toNat 0 52 + (if k.fmt = 0xE then 16 else 4) * k.elems + 4 * k.rows))
        ++ c.figures.flatMap (fun f =>
            match f.par with
            | .snapshot m =>
              [(m.posVa, m.posVa + m.posBytes), (m.stageVa, m.stageVa + m.stageBytes)]
                ++ m.ranges.filterMap (fun r => match r with | .mem va n => some (va, va + n) | _ => none)
            | _ => [])
  let t := q.telem
  let base := t.baseLo.toNat * 2 ^ 8 + t.baseHi.toNat * 2 ^ 32
  if t.enable then (base, base + 256 * t.records.toNat) :: chor else chor

/-- PROTECT (R223, R303, R391, R401, R403, R425, R602). -/
def execProtect (ring : Nat) (seq : BitVec 16) (s : State) : Res :=
  .next (runCommand ⟨0x302, false, false, true, [(0x18, 0, 52), (0x20, 0, 32), (0x24, 0, 4)]⟩ ring seq
    (fun p img s =>
      let c := mapCmd img
      let b := c.va + c.pages * pageBytes c.big
      let fail (st : Nat) := complete ring seq st 0 0 s
      if !c.rangeOk then fail stField
      else
        let t := (s.part p).space
        let old := t.leavesIn c.va b
        let moves (v : Nat) : Bool := t.moving.any (fun m => decide (m.va = v))
        if old.any (fun x => x.2.big != c.big) then fail stField
        else if (s.part p).kv.meetsArena c.va b && !(c.pin && c.rd && c.wr) then fail stSeqBusy
        else if !c.pin && s.meetsLb p c.va b && old.any (fun x => x.2.pin) then fail stLbBusy
        else if old.any (fun x => x.2.pin && c.narrows x.2) then fail stPinned
        else if !c.pin && old.any (fun x => x.2.pin && (s.pinUses p).any (fun u => meets u (x.1, x.1 + x.2.bytes))) then fail stPinned
        else
          let s1 := modSpace p (fun t =>
            { old.foldl (fun t x => t.put x.1 (some (c.protect (moves x.1) x.2))) t with
              moving := t.moving.map (fun m =>
                if decide (c.va ≤ m.va) && decide (m.va < b) then { m with target := c.protect false m.target } else m) }) s
          if old.any (fun x => c.narrows x.2) then afterInvalidation p ring seq c old.length s1
          else complete ring seq stOk old.length 0 (resumeLegal p s1)) s)

/-- MIGRATE (R401, R407): step 1 clears WR under invalidation; the copy runs in the background. -/
def execMigrate (ring : Nat) (seq : BitVec 16) (s : State) : Res :=
  .next (runCommand ⟨0x303, false, false, true, [(0x18, 0, 52), (0x24, 0, 1), (0x24, 5, 2), (0x28, 0, 41)]⟩ ring seq
    (fun p img s =>
      let c := { mapCmd img with pages := 1 }
      let t := (s.part p).space
      let fail (st : Nat) := complete ring seq st 0 0 s
      if !c.rangeOk || !c.targetOk then fail stField
      else
        let cur : Option Leaf := match kget none t.leaves (pageKey c.va) with
          | some l => if l.big = c.big then some l else none
          | none => none
        let pinned := match cur with | some l => l.pin | none => false
        if pinned then fail stPinned
        else if !s.leafOk p (c.leaf c.va) then fail stRegion
        else
          match cur with
          | none => fail stNotMapped
          | some l =>
            if t.moving.any (fun m => decide (m.va = c.va)) then fail stMigrate
            else
              let target := { c.leaf c.va with rd := l.rd, wr := l.wr, pin := l.pin }
              let s1 := modSpace p (fun t => { t.put c.va (some { l with wr := false }) with moving := t.moving ++ [⟨c.va, target⟩] }) s
              addWait p ring seq (.migrate c.va) (invalidate p c.va (c.va + pageBytes c.big) s1)) s)

/-- Copy the lines of a page from one leaf's target to another's. -/
def copyPage (p va : Nat) (old new : Leaf) (s : State) : State :=
  (List.range (old.bytes / 64)).foldl (fun t i =>
    match t.locOf va old (va + 64 * i), t.locOf va new (va + 64 * i) with
    | some x, some y => copyLine p x y t
    | _, _ => t) s

/-- MIGRATE_COPY_DONE (R407): the page's bytes are at the new target; the new leaf is written under invalidation, every access to the
old target having ended; held writers resume and the command completes. -/
def execMigrateCopyDone (p : Nat) (va : VA) (s : State) : Res :=
  let v := va.toNat
  let t := (s.part p).space
  match t.moving.find? (fun m => decide (m.va = v)) with
  | none => .next s
  | some m =>
    if s.asleep || s.inFlight p v (v + m.target.bytes) then .next s
    else
      let s0 := modSpace p (fun t => { t with moving := t.moving.filter (fun x => decide (x.va ≠ v)) }) s
      let fin (st : Nat) (s : State) : State := finishWaits p (fun w => decide (w = .migrate v)) st 0 s
      match kget none t.leaves (pageKey v) with
      | some l =>
        let s1 := modSpace p (fun t => t.put v (some m.target)) (copyPage p v l m.target s0)
        .next (fin stOk (resumeLegal p (invalidate p v (v + m.target.bytes) s1)))
      | none => .next (fin stNotMapped s0)

/-- FAULT_ABORT (R398). -/
def execFaultAbort (ring : Nat) (seq : BitVec 16) (s : State) : Res :=
  .next (runCommand ⟨0x304, false, false, true, [(0x18, 0, 10), (0x1C, 0, 24)]⟩ ring seq
    (fun p img s =>
      let i := arg img 0x18 0 10
      let fig := arg img 0x1C 0 24
      let m := s.stream i
      if !m.bound || decide (m.part ≠ p) || decide (m.fig ≠ fig) || m.suspended.isNone then complete ring seq stNotSuspended 0 0 s
      else
        complete ring seq stOk 0 0
          (postEvent p 0x02 (payloadOf fig 0 i) (askAbort p fig .faultAbort (unpark (resumeStream i s))))) s)

/-- HOT_SET (R406). -/
def execHotSet (ring : Nat) (seq : BitVec 16) (s : State) : Res :=
  .next (runCommand ⟨0x306, false, false, true, [(0x18, 0, 32), (0x1C, 0, 1)]⟩ ring seq
    (fun p img s => complete ring seq stOk 0 0
      (modSpace p (fun t => { t with hotThreshold := arg img 0x18 0 32, hotFarOnly := arg img 0x1C 0 1 == 1 }) s)) s)

/-- HOT_READ (R406, R501): the hot list and HOT_DROPPED, then cleared. -/
def execHotRead (ring : Nat) (seq : BitVec 16) (s : State) : Res :=
  .next (runCommand ⟨0x305, false, false, true, []⟩ ring seq
    (fun p img s =>
      let t := (s.part p).space
      let bs := t.hot.flatMap (fun h => leBytes 8 (h.1 * 2 ^ 25) ++ leBytes 4 h.2.1 ++ leBytes 4 h.2.2)
      let n := if resultVa img = 0 then 0 else min t.hot.length (resultLen img / 16)
      completeWith p ring seq img (n + t.hotDropped % 2 ^ 32 * 2 ^ 32) bs
        (modSpace p (fun t => { t with hot := [], hotDropped := 0 }) s)) s)

/-- A leaf entry (R385). -/
def Leaf.entry (l : Leaf) : Nat :=
  2 ^ 63 + 2 ^ 62 + b2n l.far * 2 ^ 61 + b2n l.port * 2 ^ 60 + b2n l.wr * 2 ^ 59 + b2n l.rd * 2 ^ 58 + b2n l.pin * 2 ^ 57
    + l.target % 2 ^ 16 * 2 ^ 25

/-- TABLE_DIGEST (R402). -/
def execTableDigest (ring : Nat) (seq : BitVec 16) (s : State) : Res :=
  .next (runCommand ⟨0x307, false, false, true, []⟩ ring seq
    (fun p _ s =>
      let ls := (s.part p).space.leavesIn 0 (2 ^ 52)
      let bs := ls.flatMap (fun x => leBytes 8 x.1 ++ leBytes 8 x.2.entry)
      complete ring seq stOk ((crc32 bs).toNat + ls.length * 2 ^ 32) 0 s) s)

end Sys2Proof.Machine
end

