-- ==== Sys2Proof/Machine/Registers.lean ====
section
/-! DEFINITION. The registers of the host window as reads see them (R656, R658 to R664, R593), host writes under their access codes
(R21, R622, R657), and the JTAG port's access to the debug window (R681). -/

namespace Sys2Proof.Machine

/-! ### Values -/

/-- 64-bit words by half. -/
def loHalf (w : Nat) : Nat := fld w 0 32
def hiHalf (w : Nat) : Nat := fld w 32 32

/-- CFG (R9). -/
def Design.word (d : Design) : Nat := d.sets + d.hbmStacks * 2 ^ 12 + d.linkPorts * 2 ^ 16 + d.farPorts * 2 ^ 24 + d.spmSize * 2 ^ 26

/-- FW_STAT (R480). -/
def Fremund.stat (f : Fremund) : Nat :=
  let st := match f.state with | .boot => 0 | .running => 1 | .restarting => 2 | .panic => 3
  b2n f.wdog * 2 ^ 15 + f.coreFault.toNat * 2 ^ 16 + f.lastUpdate * 2 ^ 20 + b2n f.trial * 2 ^ 26 + b2n f.slot * 2 ^ 27 + st * 2 ^ 28

/-- FW_VER reads 0 until STATE reads RUNNING (R481). -/
def Fremund.ver (f : Fremund) : Nat := if f.state = .boot then 0 else f.version.toNat

/-- Partition `p` as its registers read: one that holds no Set reads as after reset (R654). -/
def State.shown (s : State) (p : Nat) : Part := if s.partExists p then s.part p else Part.reset

/-- FLAG_ACC (R117). -/
def Part.flagAcc (q : Part) : Nat := q.flags.bits + q.firstFig.toNat * 2 ^ 4

/-- VOTE_STAT (R220). -/
def Part.voteStat (q : Part) : Nat :=
  b2n q.voteValid + b2n q.voteClear * 2 + q.voteFlags.toNat * 2 ^ 4 + q.voteId.toNat * 2 ^ 24

/-- SPM_QSTAT of partition `p`, shown as `q` (R333): the quarters of a fenced core are down (R335). -/
def State.qstat (s : State) (p : Nat) (q : Part) : Nat :=
  (if (s.partCores p).any (fun c => (s.core c).fenced) then 0 else q.quarterOn.toNat) + b2n q.zeroising * 2 ^ 8

/-- SNAP_STAT (R578). -/
def Snap.stat (n : Snap) : Nat :=
  b2n n.set + b2n n.doneBit * 2 + b2n n.failed * 2 ^ 2 + b2n n.busy * 2 ^ 3 + b2n n.writing * 2 ^ 4 + b2n n.mirroring * 2 ^ 5
    + b2n n.partner.isSome * 2 ^ 6 + b2n n.atRisk * 2 ^ 7 + b2n n.latest.isSome * 2 ^ 8 + n.nextSlot % 16 * 2 ^ 16
    + n.latest.getD 0 % 16 * 2 ^ 20 + n.lastCause % 256 * 2 ^ 24

/-- Channels of the block in a state. -/
def State.chCount (s : State) (x : ChState) : Nat := ((List.range s.cfg.channels).filter (fun c => decide ((s.channel c).state = x))).length

/-- MEM_STAT (R373). -/
def State.memStat (s : State) : Nat :=
  let bad := s.chCount .failed
  bad % 512 + s.chCount .online % 512 * 2 ^ 9 + b2n s.mem.trained * 2 ^ 18 + b2n (decide (0 < bad)) * 2 ^ 19
    + b2n s.mem.mismatch * 2 ^ 20 + s.mem.stackGb % 256 * 2 ^ 24

/-- MEM_UE_LAST, both halves (R374). -/
def MemBlock.ueWord (m : MemBlock) : Nat := m.ueLast % 2 ^ 40 + m.ueChannel % 256 * 2 ^ 40 + b2n m.ueValid * 2 ^ 63

/-- STACK_STAT (R375). -/
def Stack.stat (x : Stack) : Nat := x.level + x.staged % 256 * 2 ^ 8 + x.temp % 256 * 2 ^ 16

/-- STATE codes of R363. -/
def ChState.code (x : ChState) : Nat :=
  match x with | .online => 0 | .fenced => 1 | .down => 2 | .retraining => 3 | .failed => 4 | .spare => 5

/-- CH_STAT (R376). -/
def Channel.stat (c : Channel) : Nat :=
  c.served.toNat + b2n c.remapFull * 2 ^ 8 + b2n c.retrainQueued * 2 ^ 9 + c.remaps.length % 128 * 2 ^ 10 + c.sparesUsed % 16 * 2 ^ 20
    + c.state.code * 2 ^ 24

/-- FQ_STAT (R408). -/
def FaultQueue.stat (f : FaultQueue) : Nat := f.entries.length % 1024 + f.parking.length % 1024 * 2 ^ 10

/-- FABRIC_STAT (R451). -/
def Plane.stat (pl : Plane) : Nat := pl.node.toNat + pl.tempoGroup.toNat * 2 ^ 10 + b2n pl.noRoute * 2 ^ 30 + b2n pl.valid * 2 ^ 31

/-- PWR_STAT (R550). -/
def Pmu.stat (u : Pmu) : Nat :=
  u.state + (if u.transition then u.target else u.state) * 2 ^ 2 + b2n u.transition * 2 ^ 5 + u.dieLevel * 2 ^ 6
    + b2n (decide (u.dieLevel = 2)) * 2 ^ 8 + b2n u.throttle * 2 ^ 9 + u.duty * 2 ^ 12 + b2n u.stretch * 2 ^ 17 + u.dieTemp % 256 * 2 ^ 24

/-- DROOP_STAT (R552). -/
def Pmu.droopStat (u : Pmu) : Nat :=
  u.droopCount + u.droopSource % 16 * 2 ^ 16 + b2n u.droopSat * 2 ^ 30 + b2n u.droopWarn * 2 ^ 31

/-- A telemetry register at displacement `k` (R601). -/
def Telem.reg (t : Telem) (k : Nat) : Nat :=
  match k with
  | 0x00 => t.records.toNat + b2n t.enable * 2 ^ 31
  | 0x04 => t.baseLo.toNat * 2 ^ 8
  | 0x08 => t.baseHi.toNat
  | 0x0C => t.head.toNat
  | 0x10 => t.tail.toNat
  | 0x14 => t.dropped + b2n t.sat * 2 ^ 16 + b2n t.err * 2 ^ 17
  | _ => 0

/-- Ring `r`'s STATE code (R476). -/
def RingState.code (x : RingState) : Nat := match x with | .down => 0 | .ready => 1 | .resetting => 2 | .halted => 3

/-- DB_STAT (R476). -/
def State.dbStat (s : State) (r : Nat) : Nat :=
  let g := s.ring r
  let w := s.prot.ringCfg.toNat
  b2n g.cplPend + b2n g.evtPend * 2 + b2n g.overrun * 2 ^ 3 + b2n g.badCons * 2 ^ 4 + b2n g.evtOverflow * 2 ^ 5
    + b2n ((List.range 4).any (fun p => decide (s.ringOwner r = some p) && decide (s.eventRing p = some r))) * 2 ^ 9
    + g.state.code * 2 ^ 10 + b2n (bit w (4 * r + 3)) * 2 ^ 12 + b2n (bit w (4 * r + 2)) * 2 ^ 13 + fld w (4 * r) 2 * 2 ^ 14
    + g.dropped * 2 ^ 16

/-- A register of ring `r`'s doorbell page (R472 to R476). -/
def State.dbReg (s : State) (r k : Nat) : Nat :=
  let g := s.ring r
  match k with
  | 0x00 => g.prod.toNat
  | 0x04 => g.cpl.toNat
  | 0x08 => g.evcons.toNat
  | 0x0C => b2n g.cplEn + b2n g.evtEn * 2
  | 0x10 => g.head.toNat + g.ack.toNat * 2 ^ 16
  | 0x14 => g.ctail.toNat + g.etail.toNat * 2 ^ 16
  | 0x18 => s.dbStat r
  | _ => 0

/-- A word of a region register group (R342). -/
def MemRegion.reg (r : MemRegion) (k : Nat) : Nat :=
  match k with
  | 0 => r.port * 2 ^ 21 + r.set * 2 ^ 22 + r.part * 2 ^ 26 + b2n r.fw * 2 ^ 28 + r.mode * 2 ^ 29 + b2n r.valid * 2 ^ 31
  | 1 => r.base
  | 2 => r.caBase
  | _ => r.size

/-- A register of the protection area (R509 to R526, R659). -/
def State.protReg (s : State) (off : Nat) : Nat :=
  let t := s.prot
  if 0x21000 ≤ off ∧ off < 0x21400 then (s.region ((off - 0x21000) / 16)).reg (off % 16 / 4)
  else if 0x20200 ≤ off ∧ off < 0x20230 then fld t.fwMeasure.toNat (8 * (off - 0x20200)) 32
  else if 0x20240 ≤ off ∧ off < 0x20270 then fld t.protMeasure.toNat (8 * (off - 0x20240)) 32
  else
    match off with
    | 0x20000 => b2n t.lock + t.refIndex % 256 * 2 ^ 8 + t.refuse % 256 * 2 ^ 16
    | 0x20004 => t.setPart.toNat
    | 0x20008 => t.setEn.toNat
    | 0x20010 => fld t.portPart.toNat 0 32
    | 0x20014 => fld t.portPart.toNat 32 32
    | 0x20018 => fld t.portPart.toNat 64 32
    | 0x2001C => fld t.portEn.toNat 0 32
    | 0x20020 => fld t.portEn.toNat 32 16
    | 0x20030 => fld t.ringCfg.toNat 0 32
    | 0x20034 => fld t.ringCfg.toNat 32 32
    | 0x20040 => fld t.hostReq.toNat 0 32
    | 0x20044 => fld t.hostReq.toNat 32 32
    | 0x20100 => b2n t.dbgAcm + b2n t.dbgHalt * 2 + b2n t.dbgSpm * 2 ^ 2 + b2n t.dbgJtag * 2 ^ 3 + t.dbgPart.toNat * 2 ^ 8
    | 0x20280 => t.svnMin % 256 + t.bootFail % 256 * 2 ^ 16 + t.bootStage * 2 ^ 28
    | 0x20300 => t.hpfCount + b2n t.hpfSat * 2 ^ 24 + b2n t.hpfWrite * 2 ^ 25 + t.hpfReq % 16 * 2 ^ 26 + b2n t.hpfValid * 2 ^ 30
    | 0x20304 => t.hpfAddr.toNat
    | 0x20308 => t.violCount + b2n t.violSat * 2 ^ 17 + t.violClm % 64 * 2 ^ 18 + t.violCore % 64 * 2 ^ 24 + b2n t.violValid * 2 ^ 30
    | 0x20800 => s.mem.bwShare.toNat
    | 0x20804 => s.mem.farShare.toNat
    | _ => 0

/-- INT_PEND of partition `p` (R661). -/
def State.intPend (s : State) (p : Nat) : Nat :=
  (((List.range 16).filter (fun r =>
    let g := s.ring r
    decide (s.ringOwner r = some p) && ((g.cplPend && g.cplEn) || (g.evtPend && g.evtEn)))).map (2 ^ ·)).sum

/-- INT_HOST[p] (R470, R661). -/
def State.intHost (s : State) (p : Nat) : Bool := decide (s.intPend p ≠ 0)

/-- The causes of INT_FATAL (R663). -/
def Fatal.causes (f : Fatal) : Nat :=
  b2n f.wdog + b2n f.panic * 2 + b2n f.bootStop * 2 ^ 2 + b2n f.therm * 2 ^ 3 + b2n f.supply * 2 ^ 4

/-- INT_FATAL (R646, R663). -/
def Fatal.line (f : Fatal) : Bool := decide (f.causes ≠ 0)

/-- INT_LINES (R662). -/
def State.intLines (s : State) : Nat := (((List.range 4).filter s.intHost).map (2 ^ ·)).sum + b2n s.fatal.line * 2 ^ 4

/-- LOCK_STATE codes (R83). -/
def Lock.code (x : Lock) : Nat := match x with | .unlocked => 0 | .acquiring => 1 | .locked => 2 | .holdover => 3

/-- BEAT_STAT (R83). -/
def BeatUnit.stat (b : BeatUnit) : Nat :=
  b.lock.code + b2n b.standalone * 2 ^ 4 + b2n b.glitch * 2 ^ 5 + b2n b.missed * 2 ^ 6 + b2n b.split * 2 ^ 7

/-- BEAT_PERIOD (R84). -/
def BeatUnit.period (b : BeatUnit) : Nat := if b.lock = .locked ∨ b.lock = .holdover then b.periodPs % 2 ^ 22 else 0

/-- A standing Intermission: no Choreography runs in a partition of a running block (R75, R89). -/
def State.standing (s : State) (p : Nat) : Bool := s.partExists p && s.fwRunning && (s.part p).run.isNone

/-- TEMPO_STAT (R89). -/
def State.tempoStat (s : State) (p : Nat) : Nat :=
  let t := (s.shown p).tempo
  b2n t.running + b2n t.hold * 2 + b2n (t.intermission || s.standing p) * 2 ^ 2 + b2n t.stalled * 2 ^ 3

/-- An accounting value at displacement `k` of a partition (R531): a 64-bit counter, copy or beat. -/
def Acct.word (a : Acct) (k : Nat) : Nat :=
  let row (l : List Nat) (beat : Nat) : Nat := if k / 8 % 8 = 7 then beat else nth l (k / 8 % 8)
  match k / 64 with
  | 0 => row a.live (a.sat.toNat + a.openTag.toNat * 2 ^ 32 + a.endTag.toNat * 2 ^ 48)
  | 1 => row a.bar a.barBeat.toNat
  | 2 => row a.opened a.openBeat.toNat
  | _ => row a.ended a.endBeat.toNat

/-- The 64-bit value whose LO half stands at an offset (R656): health, heartbeat, last uncorrectable read, beat and tempo counts,
accounting and DBG_HALT. -/
def State.pair (s : State) (off : Nat) : Option Nat :=
  match off with
  | 0x1000 => some s.healthWord
  | 0x1008 => some (maskWord s.fencedCores)
  | 0x1010 => some (maskWord s.failedPorts)
  | 0x1080 => some s.fw.hb.toNat
  | 0x2004 => some s.mem.ueWord
  | 0x40000 => some s.beat.cnt.toNat
  | 0x1000000 => some (maskWord ((List.range s.cfg.cores).filter (fun c => (s.core c).halted)))
  | _ =>
    match instanceOf off 0x40100 0x40 4, instanceOf off 0x100000 0x100 4 with
    | some p, _ =>
      let t := (s.shown p).tempo
      (match (off - 0x40100) % 0x40 with
       | 0x00 => some t.base.toNat
       | 0x08 => some t.sched.toNat
       | 0x10 => some t.holdTotal.toNat
       | _ => none)
    | none, some p =>
      let k := (off - 0x100000) % 0x100
      if k % 8 = 0 ∧ k ≠ 0x38 then some ((s.shown p).acct.word k) else none
    | none, none => none

/-- A counter of core `c` at displacement `k` of its stall registers (R596, R597). -/
def Core.stallReg (x : Core) (k : Nat) : Nat :=
  if k < 0x30 then nth x.stall (k / 4) else if k = 0x30 then x.stallSat.toNat
  else if 0x40 ≤ k ∧ k < 0x70 then nth x.stallBar ((k - 0x40) / 4) else 0

/-- A Scratchpad counter of a core (R318 to R322). -/
def SpmCounters.reg (n : SpmCounters) (k : Nat) : Nat :=
  if k < 0x80 then nth n.conf (k / 4)
  else
    match k with
    | 0x80 => n.nwait
    | 0x84 => n.crwait
    | 0x88 => n.perr
    | 0x8C => b2n n.nwaitSat + b2n n.crwaitSat * 2 + b2n n.perrSat * 2 ^ 2
    | 0x90 => n.csat.toNat
    | _ => 0

/-- A list of counters followed by their status word. -/
def counterReg (l : List Nat) (stat k : Nat) : Nat := if k = 4 * l.length then stat else nth l (k / 4)

/-- Counters that belong to a core, Set, port, channel or the block (R593). -/
def State.counterRegs (s : State) (off : Nat) : Nat :=
  let in' (base stride n : Nat) : Option (Nat × Nat) := (instanceOf off base stride n).map (fun i => (i, (off - base) % stride))
  let d := s.cfg
  let vals : List (Option Nat) := [
    (in' 0x100400 0x20 4).map (fun (p, k) =>
      let c := (s.shown p).cnt
      counterReg [c.holds, c.holdBeats, c.lateRaised, c.reruns, c.aborts] c.sat.toNat k),
    (in' 0x200000 0x18 1).map (fun (_, k) =>
      let c := s.blk
      counterReg [c.ccCorr, c.cachePar, c.glitch, c.missed, c.splits] c.sat.toNat k),
    ((in' 0x300000 0x80 d.cores).filter (fun x => s.setEnabled (x.1 / 4))).map (fun (c, k) => (s.core c).stallReg k),
    ((in' 0x400000 0x100 d.cores).filter (fun x => s.setEnabled (x.1 / 4))).map (fun (c, k) => (s.core c).cnt.reg k),
    (in' 0x500000 0x20 d.channels).map (fun (c, k) =>
      let n := (s.channel c).cnt
      counterReg [n.corr, n.ue, n.rmw, n.qwait, n.scrub]
        (b2n n.corrSat + b2n n.ueSat * 2 + b2n n.rmwSat * 4 + b2n n.qwaitSat * 8 + b2n n.scrubSat * 16) k),
    ((in' 0x600000 0x40 d.sets).filter (fun x => s.setEnabled x.1)).map (fun (c, k) =>
      let u := s.unit c
      counterReg [u.utlbMiss, u.stbHit, u.stbMiss, u.invRanges]
        (b2n u.umissSat + b2n u.shitSat * 2 + b2n u.smissSat * 4 + b2n u.invSat * 8) k),
    (in' 0x600400 0x10 1).map (fun (_, k) =>
      let f := s.faults
      counterReg [f.posted, f.parks, f.viol] (b2n f.postedSat + b2n f.parksSat * 2 + b2n f.violSat * 4) k),
    (in' 0x700000 0x20 d.linkPorts).map (fun (n, k) =>
      let c := (s.port n).cnt
      counterReg [c.tx, c.rx, c.fecCorr, c.fecUnc, c.retry, c.crwait] c.sat.toNat k),
    (in' 0x700800 0x10 1).map (fun (_, k) =>
      let c := s.ce
      counterReg [c.unbound, c.dcrc, c.rsMis] (b2n c.unbSat + b2n c.dcrcSat * 2 + b2n c.rsmSat * 4) k)]
  (firstSome vals).getD 0

/-- A register of the debug window but DBG_HALT (R665). -/
def State.debugReg (s : State) (off : Nat) : Nat :=
  let d := s.dbg
  let word (m : KMap (BitVec 128)) (k : Nat) : Nat := fld (kget 0 m (k / 16)).toNat (8 * (k % 16)) 32
  if 0x1101000 ≤ off ∧ off < 0x1101800 then word d.acmData (off - 0x1101000)
  else if 0x1101800 ≤ off ∧ off < 0x1101820 then
    ((List.range 16).map (fun i => (kget 0 d.acmTag ((off - 0x1101800) / 4 * 16 + i)).toNat * 4 ^ i)).sum
  else if 0x1201000 ≤ off ∧ off < 0x1201200 then ofLe (bread d.spmData (off - 0x1201000) 4)
  else
    match off with
    | 0x1100000 => d.acmRow + d.acmBank * 2 ^ 7 + d.acmCore * 2 ^ 8
    | 0x1100004 => b2n d.acmBusy + b2n d.acmSat * 2 + b2n d.acmNotHalted * 2 ^ 2 + b2n d.acmDenied * 2 ^ 3 + d.acmGrid.toNat * 2 ^ 16
    | 0x1200000 => d.spmCore + d.spmRow * 2 ^ 16
    | 0x1200004 => b2n d.spmBusy + b2n d.spmRange * 2 + b2n d.spmNotHalted * 2 ^ 2 + b2n d.spmDenied * 2 ^ 3 + b2n d.spmPerr * 2 ^ 4
    | _ => 0

/-- Registers of 0x0000 to 0xFFFF that belong to no pair (R658). -/
def State.frontReg (s : State) (off : Nat) : Nat :=
  match off with
  | 0x0 => 0x0A5E
  | 0x4 => blkVer
  | 0x8 => s.cfg.word
  | 0x1088 => s.fw.stat
  | 0x108C => s.fw.ver
  | 0x2000 => s.memStat
  | 0x3000 => s.faults.stat
  | 0x5000 => s.pmu.stat
  | 0x5004 => s.pmu.capW % 2 ^ 16 + s.pmu.avgW % 2 ^ 16 * 2 ^ 16
  | 0x5008 => s.pmu.droopStat
  | 0x500C => s.pmu.warnMv + s.pmu.resetMv * 2 ^ 8 + s.pmu.vnom * 2 ^ 16
  | 0x5010 => s.pmu.monEn.toNat * 2
  | 0x5014 => s.pmu.dieHotC + s.pmu.dieTripC * 2 ^ 8
  | 0x5018 => b2n s.pmu.rstSupply + s.pmu.rstSource % 16 * 2 ^ 8
  | _ =>
    (firstSome [
      (instanceOf off 0x1100 4 4).map (fun p => (s.shown p).flagAcc),
      (instanceOf off 0x1110 4 4).map (fun p => (s.shown p).voteStat),
      (instanceOf off 0x1120 8 4).map (fun p =>
        if (off - 0x1120) % 8 = 0 then (s.shown p).kv.hbm.zeroed else (s.shown p).kv.hbm.dirty),
      (instanceOf off 0x1140 4 4).map (fun p => s.qstat p (s.shown p)),
      (instanceOf off 0x1150 4 4).map (fun p => (s.shown p).snap.stat),
      (instanceOf off 0x2040 4 s.cfg.hbmStacks).map (fun k => (s.stackAt k).stat),
      (instanceOf off 0x2100 4 s.cfg.channels).map (fun c => (s.channel c).stat),
      (instanceOf off 0x4000 4 s.cfg.linkPorts).map s.linkStat,
      (instanceOf off 0x4100 4 4).map (fun p => (s.shown p).plane.stat),
      (instanceOf off 0x6000 0x20 4).map (fun p => (s.shown p).telem.reg ((off - 0x6000) % 0x20))]).getD 0

/-- The 32-bit register at a 4-byte-aligned offset, as a read that passes the firewall returns it; the upper half of a pair is
`readReg`'s. Offsets that name none read 0 (R622). -/
def State.reg (s : State) (off : Nat) : Nat :=
  match s.pair off with
  | some w => loHalf w
  | none =>
    if off < 0x10000 then s.frontReg off
    else if off < 0x20000 then s.dbReg ((off - 0x10000) / 0x1000) (off % 0x1000)
    else if off < 0x30000 then s.protReg off
    else if off < 0x40000 then
      (match off with
       | 0x30010 => s.intLines
       | 0x30014 => s.fatal.causes + b2n s.fatal.line * 2 ^ 31
       | _ => ((instanceOf off 0x30000 4 4).map s.intPend).getD 0)
    else if off < 0x50000 then
      (match off with
       | 0x40008 => s.beat.stat
       | 0x4000C => s.beat.period
       | 0x40010 => b2n s.beat.standalone
       | _ =>
         match instanceOf off 0x40100 0x40 4 with
         | some p =>
           let t := (s.shown p).tempo
           (match (off - 0x40100) % 0x40 with
            | 0x18 => t.holdLastNode.toNat + t.holdLastLen.toNat * 2 ^ 16
            | 0x1C => s.tempoStat p
            | _ => 0)
         | none => 0)
    else if off < 0x100000 then 0
    else if off < 0x100400 then
      (match instanceOf off 0x100000 0x100 4 with
       | some p =>
         let w := (s.shown p).acct.word 0x38
         (match (off - 0x100000) % 0x100 with | 0x38 => loHalf w | 0x3C => hiHalf w | _ => 0)
       | none => 0)
    else if off < 0x1000000 then s.counterRegs off
    else if off < 0x2000000 then s.debugReg off
    else 0

/-- The latch of requester `req` for the pair whose LO half stands at `off` (R656). -/
def latchKey (req off : Nat) : Nat := req * 2 ^ 26 + off

/-- What requester `req` reads at an offset: HI halves come from its latch (R82, R656). -/
def State.readReg (s : State) (req off : Nat) : Nat :=
  if 4 ≤ off ∧ (s.pair (off - 4)).isSome then (kget 0 s.latches (latchKey req (off - 4))).toNat else s.reg off

/-- The effect of an admitted read: the LO half of a pair latches its HI half (R82, R656). -/
def latchRead (req off : Nat) (s : State) : State :=
  match s.pair off with
  | some w => { s with latches := kset 0 s.latches (latchKey req off) (BitVec.ofNat 32 (hiHalf w)) }
  | none => s

/-- LATCHED_LO_READ (R82, R656). -/
def execLatchedLoRead (req : Nat) (addr : BitVec 26) (s : State) : Res :=
  .next (hostAccess req addr.toNat false (latchRead req addr.toNat) s)

/-! ### Writes -/

/-- A W1C bit after a write. -/
def w1c (b : Bool) (v i : Nat) : Bool := b && !bit v i

/-- A W1C field of `n` bits at bit 0 after a write of `v`; CLEAR in bit 31 clears it whole. -/
def w1cField (n : Nat) (w v : Nat) : Nat := if bit v 31 then 0 else w &&& ((2 ^ n - 1) ^^^ fld v 0 n)

/-- A counter after a write of its status register: CLEAR zeroes it. -/
def cleared (v n : Nat) : Nat := if bit v 31 then 0 else n

/-- A saturation bit after a write of its status register. -/
def satBit (b : Bool) (v i : Nat) : Bool := w1c b v i && !bit v 31

/-- SPM_CSTAT of core `c` (R321). -/
def writeSpmCstat (c v : Nat) (s : State) : State :=
  s.modCore c (fun k =>
    let n := k.cnt
    { k with cnt := {
        conf := n.conf.map (cleared v), nwait := cleared v n.nwait, crwait := cleared v n.crwait, perr := cleared v n.perr
        perrSat := satBit n.perrSat v 2, crwaitSat := satBit n.crwaitSat v 1, nwaitSat := satBit n.nwaitSat v 0
        csat := if bit v 31 then 0 else n.csat } })

/-- SPM_CSAT of core `c` (R322). -/
def writeSpmCsat (c v : Nat) (s : State) : State :=
  s.modCore c (fun k => { k with cnt := { k.cnt with csat := k.cnt.csat &&& ~~~ (BitVec.ofNat 32 v) } })

/-- STALL_CSTAT of core `c` (R597). -/
def writeStallCstat (c v : Nat) (s : State) : State :=
  s.modCore c (fun k => { k with stall := k.stall.map (cleared v), stallSat := BitVec.ofNat 12 (w1cField 12 k.stallSat.toNat v) })

/-- MC_CSTAT of channel `c` (R378). -/
def writeMcCstat (c v : Nat) (s : State) : State :=
  s.modChannel c (fun h =>
    let n := h.cnt
    { h with cnt := {
        corr := cleared v n.corr, ue := cleared v n.ue, rmw := cleared v n.rmw, qwait := cleared v n.qwait, scrub := cleared v n.scrub
        scrubSat := satBit n.scrubSat v 4, qwaitSat := satBit n.qwaitSat v 3, rmwSat := satBit n.rmwSat v 2
        ueSat := satBit n.ueSat v 1, corrSat := satBit n.corrSat v 0 } })

/-- TR_CSTAT of Set `k` (R410). -/
def writeTrCstat (k v : Nat) (s : State) : State :=
  s.modUnit k (fun u => { u with
    utlbMiss := cleared v u.utlbMiss, stbHit := cleared v u.stbHit, stbMiss := cleared v u.stbMiss, invRanges := cleared v u.invRanges
    umissSat := satBit u.umissSat v 0, shitSat := satBit u.shitSat v 1, smissSat := satBit u.smissSat v 2, invSat := satBit u.invSat v 3 })

/-- FQ_CSTAT (R411). -/
def writeFqCstat (v : Nat) (s : State) : State :=
  { s with faults := { s.faults with
      posted := cleared v s.faults.posted, parks := cleared v s.faults.parks, viol := cleared v s.faults.viol
      postedSat := satBit s.faults.postedSat v 0, parksSat := satBit s.faults.parksSat v 1, violSat := satBit s.faults.violSat v 2 } }

/-- LK_CSTAT of port `n` (R453). -/
def writeLkCstat (n v : Nat) (s : State) : State :=
  s.modPort n (fun q => { q with cnt := { q.cnt with
    tx := cleared v q.cnt.tx, rx := cleared v q.cnt.rx, fecCorr := cleared v q.cnt.fecCorr, fecUnc := cleared v q.cnt.fecUnc
    retry := cleared v q.cnt.retry, crwait := cleared v q.cnt.crwait, sat := BitVec.ofNat 6 (w1cField 6 q.cnt.sat.toNat v) } })

/-- CE_CSTAT (R454). -/
def writeCeCstat (v : Nat) (s : State) : State :=
  { s with ce := {
      unbound := cleared v s.ce.unbound, dcrc := cleared v s.ce.dcrc, rsMis := cleared v s.ce.rsMis
      unbSat := satBit s.ce.unbSat v 0, dcrcSat := satBit s.ce.dcrcSat v 1, rsmSat := satBit s.ce.rsmSat v 2 } }

/-- PCNT_CSTAT of partition `p` (R600). -/
def writePcntCstat (p v : Nat) (s : State) : State :=
  s.modPart p (fun q =>
    let c := q.cnt
    { q with cnt := {
        holds := cleared v c.holds, holdBeats := cleared v c.holdBeats, lateRaised := cleared v c.lateRaised
        reruns := cleared v c.reruns, aborts := cleared v c.aborts, sat := BitVec.ofNat 5 (w1cField 5 c.sat.toNat v) } })

/-- BLK_CSTAT (R600). -/
def writeBlkCstat (v : Nat) (s : State) : State :=
  { s with blk := {
      ccCorr := cleared v s.blk.ccCorr, cachePar := cleared v s.blk.cachePar, glitch := cleared v s.blk.glitch
      missed := cleared v s.blk.missed, splits := cleared v s.blk.splits, sat := BitVec.ofNat 5 (w1cField 5 s.blk.sat.toNat v) } }

/-- HPF_STAT (R524). -/
def writeHpfStat (v : Nat) (s : State) : State :=
  { s with prot := { s.prot with
      hpfCount := cleared v s.prot.hpfCount, hpfSat := satBit s.prot.hpfSat v 24, hpfValid := w1c s.prot.hpfValid v 30 } }

/-- PROT_VIOL (R526). -/
def writeProtViol (v : Nat) (s : State) : State :=
  { s with prot := { s.prot with
      violCount := cleared v s.prot.violCount, violSat := satBit s.prot.violSat v 17, violValid := w1c s.prot.violValid v 30 } }

/-- Change a partition's telemetry unit. -/
def modTelem (p : Nat) (f : Telem → Telem) (s : State) : State := s.modPart p (fun q => { q with telem := f q.telem })

/-- The Telemetry Unit accepts ENABLE (R602). -/
def State.telemReady (s : State) (p : Nat) (t : Telem) : Bool :=
  decide (16 ≤ t.records.toNat) && s.rangeAll p t.base (256 * t.records.toNat) (fun l => l.wr && l.pin)

/-- TELEM_CTRL of partition `p` (R601, R602): RECORDS is written unless ENABLE is 1, and a write of ENABLE is tested. -/
def writeTelemCtrl (p v : Nat) (s : State) : State :=
  let t := (s.part p).telem
  if t.enable then (if bit v 31 then s else modTelem p (fun t => { t with enable := false }) s)
  else
    let t1 := { t with records := BitVec.ofNat 20 (fld v 0 20) }
    if !bit v 31 then modTelem p (fun _ => t1) s
    else if s.telemReady p t1 then modTelem p (fun _ => { t1 with enable := true, head := 0, tail := 0 }) s
    else modTelem p (fun _ => { t1 with err := true }) s

/-- TELEM_BASE_LO and TELEM_BASE_HI (R601, R602). -/
def writeTelemBase (p : Nat) (hi : Bool) (v : Nat) (s : State) : State :=
  modTelem p (fun t =>
    if t.enable then t
    else if hi then { t with baseHi := BitVec.ofNat 20 (fld v 0 20) }
    else { t with baseLo := BitVec.ofNat 24 (fld v 8 24) }) s

/-- TELEM_TAIL (R603): from TAIL to HEAD, going forward. -/
def writeTelemTail (p v : Nat) (s : State) : State :=
  modTelem p (fun t =>
    let n := max 1 t.records.toNat
    let w := fld v 0 20
    let dist (a b : Nat) : Nat := (b + n - a % n) % n
    if w < n ∧ dist t.tail.toNat w ≤ dist t.tail.toNat t.head.toNat then { t with tail := BitVec.ofNat 20 w } else t) s

/-- TELEM_STAT (R601). -/
def writeTelemStat (p v : Nat) (s : State) : State :=
  modTelem p (fun t => { t with dropped := cleared v t.dropped, sat := satBit t.sat v 16, err := w1c t.err v 17 }) s

/-- A write of a register indexed by partition (R117, R578, R451, R601, R89, R600); none for a partition without Sets (R654). -/
def writePartReg (p off v : Nat) (s : State) : State :=
  if !s.partExists p then s
  else if off = 0x1150 + 4 * p then
    s.modPart p (fun q => { q with snap := { q.snap with failed := w1c q.snap.failed v 2, doneBit := w1c q.snap.doneBit v 1 } })
  else if off = 0x4100 + 4 * p then s.modPart p (fun q => { q with plane := { q.plane with noRoute := w1c q.plane.noRoute v 30 } })
  else if off = 0x4011C + 0x40 * p then s.modPart p (fun q => { q with tempo := { q.tempo with stalled := w1c q.tempo.stalled v 3 } })
  else if off = 0x100414 + 0x20 * p then writePcntCstat p v s
  else
    match off - (0x6000 + 0x20 * p), decide (0x6000 ≤ off) && decide (off < 0x6080) with
    | 0x00, true => writeTelemCtrl p v s
    | 0x04, true => writeTelemBase p false v s
    | 0x08, true => writeTelemBase p true v s
    | 0x10, true => writeTelemTail p v s
    | 0x14, true => writeTelemStat p v s
    | _, _ => s

/-- A write of a block-wide W1C register (R480, R374, R83). -/
def writeBlockReg (off v : Nat) (s : State) : State :=
  match off with
  | 0x1088 => { s with fw := { s.fw with wdog := w1c s.fw.wdog v 15 } }
  | 0x2008 => { s with mem := { s.mem with ueValid := w1c s.mem.ueValid v 31 } }
  | 0x40008 => { s with beat := { s.beat with
      split := w1c s.beat.split v 7, missed := w1c s.beat.missed v 6, glitch := w1c s.beat.glitch v 5 } }
  | _ => s

/-- ACM_DBG_STAT and SPM_DBG_STAT (R156, R669). -/
def writeAcmStat (v : Nat) (s : State) : State :=
  { s with dbg := { s.dbg with acmDenied := w1c s.dbg.acmDenied v 3, acmNotHalted := w1c s.dbg.acmNotHalted v 2 } }

def writeSpmStat (v : Nat) (s : State) : State :=
  { s with dbg := { s.dbg with
      spmDenied := w1c s.dbg.spmDenied v 3, spmNotHalted := w1c s.dbg.spmNotHalted v 2, spmRange := w1c s.dbg.spmRange v 1 } }

/-- A write of the debug window (R665); its other registers are read-only. -/
def writeDebugReg (off v : Nat) (s : State) : State :=
  match off with
  | 0x1100000 => writeAcmCtrl v s
  | 0x1100004 => writeAcmStat v s
  | 0x1200000 => writeSpmCtrl v s
  | 0x1200004 => writeSpmStat v s
  | _ => s

/-- An admitted write of 32 bits at a register offset, under its access codes (R21, R655); registers that are RO or RWL keep their
values. -/
def writeReg (off v : Nat) (s : State) : State :=
  match s.target off with
  | .part p => writePartReg p off v s
  | .ring r => writeDoorbell r (off % 0x1000) v s
  | .block _ => writeBlockReg off v s
  | .prot _ => if off = 0x20300 then writeHpfStat v s else if off = 0x20308 then writeProtViol v s else s
  | .core c =>
    if off = 0x300030 + 0x80 * c then writeStallCstat c v s
    else if off = 0x40008C + 0x100 * c then writeSpmCstat c v s
    else if off = 0x400090 + 0x100 * c then writeSpmCsat c v s
    else s
  | .setCounter k => if off = 0x600010 + 0x40 * k then writeTrCstat k v s else s
  | .port n => if off = 0x700018 + 0x20 * n then writeLkCstat n v s else s
  | .admin =>
    if off = 0x200014 then writeBlkCstat v s
    else if off = 0x60040C then writeFqCstat v s
    else if off = 0x70080C then writeCeCstat v s
    else if off % 0x20 = 0x14 then writeMcCstat ((off - 0x500000) / 0x20) v s
    else s
  | .debugWin => writeDebugReg off v s
  | _ => s

/-- A host write of one register, through the firewall. -/
def hostWrite (req off : Nat) (v : BitVec 32) (s : State) : Res := .next (hostAccess req off true (writeReg off v.toNat) s)

/-- ACM_DBG_GO (R153, R155, R666). -/
def execAcmDbgGo (req : Nat) (value : BitVec 32) (s : State) : Res := hostWrite req 0x1100000 value s

/-- SPM_DBG_GO (R666, R668). -/
def execSpmDbgGo (req : Nat) (value : BitVec 32) (s : State) : Res := hostWrite req 0x1200000 value s

/-- TELEM_ENABLE (R601, R602). -/
def execTelemEnable (req p : Nat) (value : BitVec 32) (s : State) : Res := hostWrite req (0x6000 + 0x20 * p) value s

/-- TELEM_TAIL_WRITE (R603). -/
def execTelemTailWrite (req p : Nat) (value : BitVec 32) (s : State) : Res := hostWrite req (0x6010 + 0x20 * p) value s

/-- TELEM_STAT_CLEAR (R601). -/
def execTelemStatClear (req p : Nat) (value : BitVec 32) (s : State) : Res := hostWrite req (0x6014 + 0x20 * p) value s

/-- SPM_CSTAT_CLEAR (R321). -/
def execSpmCstatClear (req core : Nat) (value : BitVec 32) (s : State) : Res := hostWrite req (0x40008C + 0x100 * core) value s

/-- MC_CSTAT_CLEAR (R378). -/
def execMcCstatClear (req channel : Nat) (value : BitVec 32) (s : State) : Res := hostWrite req (0x500014 + 0x20 * channel) value s

/-- TR_CSTAT_CLEAR (R410). -/
def execTrCstatClear (req set : Nat) (value : BitVec 32) (s : State) : Res := hostWrite req (0x600010 + 0x40 * set) value s

/-- FQ_CSTAT_CLEAR (R411). -/
def execFqCstatClear (req : Nat) (value : BitVec 32) (s : State) : Res := hostWrite req 0x60040C value s

/-- LK_CSTAT_CLEAR (R453). -/
def execLkCstatClear (req port : Nat) (value : BitVec 32) (s : State) : Res := hostWrite req (0x700018 + 0x20 * port) value s

/-- CE_CSTAT_CLEAR (R454). -/
def execCeCstatClear (req : Nat) (value : BitVec 32) (s : State) : Res := hostWrite req 0x70080C value s

/-- STALL_CSTAT_CLEAR (R597). -/
def execStallCstatClear (req core : Nat) (value : BitVec 32) (s : State) : Res := hostWrite req (0x300030 + 0x80 * core) value s

/-- PCNT_CSTAT_CLEAR (R600). -/
def execPcntCstatClear (req p : Nat) (value : BitVec 32) (s : State) : Res := hostWrite req (0x100414 + 0x20 * p) value s

/-- BLK_CSTAT_CLEAR (R600). -/
def execBlkCstatClear (req : Nat) (value : BitVec 32) (s : State) : Res := hostWrite req 0x200014 value s

/-- HPF_STAT_CLEAR (R524). -/
def execHpfStatClear (req : Nat) (value : BitVec 32) (s : State) : Res := hostWrite req 0x20300 value s

/-- PROT_VIOL_CLEAR (R526). -/
def execProtViolClear (req : Nat) (value : BitVec 32) (s : State) : Res := hostWrite req 0x20308 value s

/-! ### A write request of the Host Port -/

/-- Even parity of a byte (R620). -/
def parityOf (b : Byte) : Bool := decide (((List.range 8).filter (fun i => b.getLsbD i)).length % 2 = 1)

/-- Byte `i` of a line. -/
def lineByte (data : BitVec 512) (i : Nat) : Byte := BitVec.ofNat 8 (fld data.toNat (8 * i) 8)

/-- Every enabled byte matches its parity (R622). -/
def parityGood (be : BitVec 64) (data : BitVec 512) (parity : BitVec 64) : Bool :=
  (List.range 64).all (fun i => !be.getLsbD i || (parity.getLsbD i == parityOf (lineByte data i)))

/-- The enables of 4-byte group `g`. -/
def groupOn (be : BitVec 64) (g : Nat) : Nat := fld be.toNat (4 * g) 4

/-- Write the enabled bytes of a line of the ring SRAM (R458, R622): the host writes command slots only. -/
def writeRingBytes (a : Nat) (be : BitVec 64) (data : BitVec 512) (s : State) : State :=
  (List.range 64).foldl (fun t i =>
    if be.getLsbD i && decide ((a + i) % 0x10000 < 0x4000) then { t with ringMem := kset 0 t.ringMem (a + i) (lineByte data i) } else t) s

/-- REGISTER_WRITE: a write request of the Host Port (R622 to R624). -/
def execRegisterWrite (req : Nat) (addr be : BitVec 64) (data : BitVec 512) (parity : BitVec 64) (s : State) : Res :=
  let a := addr.toNat
  if !s.hostOpen || decide (a % 64 ≠ 0) || decide (0x4000000 ≤ a) || !parityGood be data parity || decide (be = 0) then .next s
  else if a < 0x2000000 then
    let gs := (List.range 16).filter (fun g => decide (groupOn be g ≠ 0))
    if gs.any (fun g => decide (groupOn be g ≠ 15)) then .next s
    else
      .next (gs.foldl (fun t g =>
        hostAccess req (a + 4 * g) true (writeReg (a + 4 * g) (fld data.toNat (32 * g) 32)) t) s)
  else .next (hostAccess req a true (fun t => if a < 0x2100000 then writeRingBytes (a - 0x2000000) be data t else t) s)

/-- JTAG_DEBUG_ACCESS (R650, R681): one access to the debug window as an administrator with a latch of its own; DEBUG acts as BYPASS
until LOCK is set with DBG_PERM.JTAG. -/
def execJtagDebugAccess (dr : BitVec 57) (s : State) : Res :=
  let off := 0x1000000 + 4 * fld dr.toNat 32 24
  if s.pins.phase ≠ .running ∨ s.pins.jtagIr ≠ 0x80 ∨ !s.prot.lock ∨ !s.prot.dbgJtag ∨ 0x2000000 ≤ off then .next s
  else if bit dr.toNat 56 then .next (writeDebugReg off (fld dr.toNat 0 32) s)
  else
    let v := s.readReg 16 off
    let s1 := latchRead 16 off s
    .next { s1 with pins := { s1.pins with jtagData := BitVec.ofNat 32 v } }

/-- IDCODE (R650). -/
def State.idcode (s : State) : Nat := 1 + fld (kget 0 s.pins.fuses 13).toNat 0 11 * 2 + 0x0A5E * 2 ^ 12 + 2 * 2 ^ 28

end Sys2Proof.Machine
end

