-- ==== Sys2Proof/Machine/Snapshots.lean ====
section
/-! DEFINITION. Snapshots and Partners: SNAP_SET, SNAP_QUERY and SNAP_RESTORE (R566, R583 to R585), the staging copy and the slot write
(R573 to R577), NVM responses (R625), Partners and mirrors (R579 to R582). -/

namespace Sys2Proof.Machine

/-- CC2 executes (R456, R536). -/
def State.cc2Runs (s : State) : Bool := s.fwRunning && !s.asleep

/-- Change a partition's snapshot state. -/
def modSnap (p : Nat) (f : Snap → Snap) (s : State) : State := s.modPart p (fun q => { q with snap := f q.snap })

/-! ### SNAP_SET and SNAP_QUERY -/

/-- NVM bytes of a partition's slots from `base`. -/
def slotSpan (base mb slots : Nat) : Nat × Nat := (base, base + slots * mb * 1000000)

/-- The slots of another partition overlap the range (R566). -/
def State.slotsMeet (s : State) (p : Nat) (r : Nat × Nat) : Bool :=
  (s.liveParts.filter (fun q => decide (q ≠ p))).any (fun q =>
    let n := (s.part q).snap
    n.set && meets r (slotSpan n.nvmBase n.slotMb n.slots))

/-- Bytes of a slot that a body needs (R567, R572). -/
def slotNeed (body : Nat) : Nat := 4096 + crcBytes body + body

/-- Every snapshot of the loaded Choreography fits a slot of `mb` MB (R566, R572). -/
def Part.snapsFit (q : Part) (mb : Nat) : Bool :=
  match q.chor with
  | none => true
  | some c => c.figures.all (fun f =>
    match f.par with
    | .snapshot m => decide (slotNeed (m.bodyBytes q.plane) ≤ mb * 1000000)
    | _ => true)

/-- The fields of a SNAP_SET are in range (R503, R566, R628). -/
def State.snapFields (s : State) (p base mb slots : Nat) : Bool :=
  decide (0x2000000 ≤ base) && base % 4096 == 0 && decide (2 ≤ slots) && decide (slots ≤ 16) && decide (1 ≤ mb)
    && !s.slotsMeet p (slotSpan base mb slots) && (s.part p).snapsFit mb

/-- The slots are placed, and their headers read (R566). -/
def placeSlots (p base mb slots : Nat) (s : State) : State :=
  let s1 := modSnap p (fun n => { n with set := true, nvmBase := base, slotMb := mb, slots := slots, bad := [] }) s
  match s1.latestSlot p with
  | none => modSnap p (fun n => { n with latest := none, nextSlot := 0, snapSeq := 0 }) s1
  | some (i, h) => modSnap p (fun n => { n with latest := some i, nextSlot := (i + 1) % slots, snapSeq := h.snapSeq }) s1

/-- SNAP_SET (R492, R503, R566). -/
def execSnapSet (ring : Nat) (seq : BitVec 16) (s : State) : Res :=
  .next (runCommand ⟨0x500, false, false, true, [(0x18, 0, 48), (0x20, 0, 32), (0x24, 0, 5)]⟩ ring seq
    (fun p img s =>
      let base := arg img 0x18 0 48
      let mb := arg img 0x20 0 32
      let slots := arg img 0x24 0 5
      let n := (s.part p).snap
      if !s.snapFields p base mb slots then complete ring seq stField 0 0 s
      else if n.writing || n.mirroring then complete ring seq stSnapBusy 0 0 s
      else if s.chorRuns p then complete ring seq stChorBusy 0 0 s
      else complete ring seq stOk 0 0 (withHealth (placeSlots p base mb slots) s)) s)

/-- A slot's record in SNAP_QUERY's result (R503). -/
def State.slotRecord (s : State) (p i : Nat) : List Byte :=
  match s.slotHdr p i with
  | none => List.replicate 32 0
  | some h => leBytes 8 1 ++ leBytes 8 h.beat ++ leBytes 8 h.bodyBytes ++ List.replicate 8 0

/-- SNAP_QUERY (R503). -/
def execSnapQuery (ring : Nat) (seq : BitVec 16) (s : State) : Res :=
  .next (runCommand ⟨0x502, false, false, true, []⟩ ring seq
    (fun p img s =>
      let n := (s.part p).snap
      completeWith p ring seq img (n.latest.getD 0xFF) ((List.range n.slots).flatMap (s.slotRecord p)) s) s)

/-! ### The staging copy -/

/-- What the copy of one range gives. -/
inductive Copied where
  | ok (bs : List Byte)
  | memory (l : Loc)
  | unmapped
  | parity (core row : Nat)
  deriving DecidableEq, Repr

/-- Copy a range (R571, R573): `bad` are the rows, by core of the block, whose parity fails. -/
def State.copyRange (s : State) (p : Nat) (bad : List (Nat × Nat)) (r : SnapRange) : Copied :=
  match r with
  | .mem va n =>
    match s.readVa p va n with
    | .ok bs => .ok bs
    | .bad l => .memory l
    | .unmapped => .unmapped
  | .spm i first rows =>
    let c := (s.partCores p).getD i 0
    match (List.range rows).find? (fun k => bad.contains (c, first + k) || (s.core c).badRows.contains (first + k)) with
    | some k => .parity c (first + k)
    | none => .ok (s.spmBytes c (512 * first) (512 * rows))

/-- Copy ranges in manifest order, each padded (R574), until one fails. -/
def State.copyRanges (s : State) (p : Nat) (bad : List (Nat × Nat)) (rs : List SnapRange) (acc : List Byte) : Copied :=
  match rs with
  | [] => .ok acc
  | r :: rest =>
    match s.copyRange p bad r with
    | .ok bs => s.copyRanges p bad rest (acc ++ pad512 bs)
    | x => x

/-- HBM and far bytes of a memory range that a snapshot copy or a restore moves (R529). -/
def countRange (p : Nat) (r : SnapRange) (s : State) : State :=
  match r with
  | .mem va n =>
    match s.leafAt p va with
    | some (_, l) => acctAdd p (if l.far then 4 else 2) n s
    | none => s
  | .spm _ _ _ => s

/-- An NVM request of the partition's snapshots is outstanding (R625). -/
def State.snapAsked (s : State) (p : Nat) : Bool := s.nvmReqs.any (fun r => decide (r.why = 1 + p))

/-- WEAR of slot `i`: 0 where it holds no header (R568). -/
def State.slotWear (s : State) (p i : Nat) : Nat :=
  match readHeader (s.nvmRead ((s.part p).snap.slotAt i) 4096) with
  | some h => h.wear
  | none => 0

/-- Write a header over its slot but for its first line, which goes out as an NVM write (R575, R625). -/
def askHeader (p slot : Nat) (h : List Byte) (s : State) : State :=
  let a := (s.part p).snap.slotAt slot
  nvmAsk 1 a 1 (BitVec.ofNat 512 (ofLe (h.take 64))) (1 + p) (nvmWrite (a + 64) (h.drop 64) s)

/-- Send the mirror once the Partner has granted its credits (R433, R581): CRC table and body, then the header. -/
def pushMirror (p : Nat) (s : State) : State :=
  let n := (s.part p).snap
  match n.partner, n.staging with
  | some node, some (_, body) =>
    let units := ceilDiv (slotNeed body.length) 512
    if !n.mirroring || n.mirrorSent || (s.part p).plane.credit node n.partnerLb < units then s
    else
      let off := n.mirrorHalf * (n.partnerCap / 2)
      let xid := n.snapSeq % 2 ^ 16
      let tail := crcTable body ++ body
      let s1 := takeCredits p [node] n.partnerLb units s
      let s2 := sendAll p 0 n.partnerLb (off + 4096) xid false node tail s1
      modSnap p (fun n => { n with mirrorSent := true })
        (sendAll p 0 n.partnerLb off xid false node (slotHeader 2 n.wear n.stageHdr) s2)
  | _, _ => s

/-- CREDIT_FRAME (R423, R433): units granted to this node for (`src`, `lb`), or a frame of another node, which is forwarded; a mirror
that waited for its credits goes out (R581). -/
def execCreditFrame (n dst src lb units : Nat) (s : State) : Res :=
  match s.frameFrom n with
  | none => .next s
  | some p =>
    let pl := (s.part p).plane
    if dst = pl.node.toNat then
      let k := 4096 * src + lb
      .next (pushMirror p (s.modPart p (fun q => { q with plane := { pl with credits := kset none pl.credits k (some ((kget none pl.credits k).getD 0 + units)) } })))
    else .next (sendToward p dst (.credit dst src lb units) s)

/-- A message of this partition's Fremund to another device's (R579, R581): 0 query, 1 install, 2 clear, 3 start of a mirror, 4 read-back,
5 answer. -/
def tellPartner (p node kind : Nat) (s : State) : State :=
  sendToward p node (.partner node (s.part p).plane.node.toNat kind 0 0 0 0) s

/-- The body is staged: the slot write begins, and the mirror if the manifest asks for one (R573, R575, R581). -/
def stageBody (p beat : Nat) (m : Manifest) (body : List Byte) (s : State) : State :=
  let n := (s.part p).snap
  let s1 := writeVa p true m.stageVa body (m.ranges.foldl (fun t r => countRange p r t) s)
  let s2 := modSnap p (fun n => { n with
    staging := some (beat, body), snapSeq := n.snapSeq + 1, writing := true, wear := s.slotWear p n.nextSlot + 1
    mirroring := m.mirror && n.partner.isSome, mirrorSent := false }) s1
  let s3 := askHeader p n.nextSlot (slotHeader 1 (s2.part p).snap.wear n.stageHdr) s2
  match (s3.part p).snap.mirroring, n.partner with
  | true, some node => pushMirror p (tellPartner p node 3 s3)
  | _, _ => s3

/-- A snapshot copy that fails stops, and the staging area is free (R577). -/
def copyFailed (p cause : Nat) (s : State) : State :=
  let n := (s.part p).snap
  snapFail p n.nextSlot cause stSnapInvalid (modSnap p (fun n => { n with staging := none, stageHdr := [] }) s)

/-- The manifest of the snapshot in the staging area. -/
def Part.stageManifest (q : Part) : Option Manifest :=
  match q.chor with
  | none => none
  | some c => c.figures.findSome? (fun f =>
    if f.hdr.figId = q.snap.stageFig then (match f.par with | .snapshot m => some m | _ => none) else none)

/-- SNAP_STAGING_DONE (R325, R327, R573 to R577): the last byte reaches the staging area, or the copy stops. -/
def execSnapStagingDone (p : Nat) (bad : List (Nat × Nat)) (s : State) : Res :=
  let q := s.part p
  match q.snap.staging, q.stageManifest with
  | some (beat, fixed), some m =>
    if !s.cc2Runs || q.snap.writing || q.snap.mirroring || s.snapAsked p then .next s
    else
      match s.copyRanges p bad m.ranges fixed with
      | .ok body => .next (stageBody p beat m body s)
      | .memory l => .next (copyFailed p 2 (fwUncorrectable p noFig l s))
      | .unmapped => .next (copyFailed p 2 s)
      | .parity c row => .next (copyFailed p 3 (spoilRegions c row (postEvent p 0x40 (payloadOf noFig c (parityRest row none)) (countPerr c s))))
  | _, _ => .next s

/-! ### The slot write -/

/-- The staging area is freed once both the slot and the mirror are done (R575, R581). -/
def freeStaging (p : Nat) (s : State) : State :=
  modSnap p (fun n => if n.writing || n.mirroring then n else { n with staging := none, stageHdr := [] }) s

/-- An NVM write of the slot failed (R577, cause 4): the slot is BAD and rotation passes it. -/
def slotFailed (p : Nat) (s : State) : State :=
  let n := (s.part p).snap
  let s1 := nvmWrite (n.slotAt n.nextSlot) (slotHeader 3 n.wear n.stageHdr) s
  let s2 := withHealth (modSnap p (fun n =>
    let n1 := { n with bad := n.nextSlot :: n.bad, writing := false }
    { n1 with nextSlot := n1.slotAfter n.nextSlot })) s1
  freeStaging p (snapFail p n.nextSlot 4 stSnapInvalid s2)

/-- The slot is COMPLETE and the latest valid one (R575). -/
def slotComplete (p beat : Nat) (body : List Byte) (s : State) : State :=
  let n := (s.part p).snap
  let s1 := nvmWrite (n.slotAt n.nextSlot) (slotHeader 2 n.wear n.stageHdr ++ crcTable body ++ body) s
  let s2 := modSnap p (fun n => { n with
    latest := some n.nextSlot, nextSlot := n.slotAfter n.nextSlot, writing := false, doneBit := true }) s1
  freeStaging p (postEvent p 0xA0 (payloadOf noFig n.nextSlot (beat % 2 ^ 64)) s2)

/-- SNAP_SLOT_WRITTEN (R575, R577): the rest of the slot is durable, or a write of it failed. -/
def execSnapSlotWritten (p : Nat) (ok : Bool) (s : State) : Res :=
  let n := (s.part p).snap
  match n.staging with
  | none => .next s
  | some (beat, body) =>
    if !s.cc2Runs || !n.writing || s.snapAsked p then .next s
    else if ok then .next (slotComplete p beat body s)
    else .next (slotFailed p s)

/-- SNAP_SLOT_ERASE (R38, R575): between snapshots, and never the latest valid slot. -/
def execSnapSlotErase (p : Nat) (s : State) : Res :=
  let n := (s.part p).snap
  if !s.cc2Runs || !n.set || n.busy || n.writing || n.mirroring || s.snapAsked p || decide (n.latest = some n.nextSlot) then .next s
  else
    let lines := n.slotMb * 15625
    .next (nvmAsk 2 (n.slotAt n.nextSlot) lines (BitVec.ofNat 512 (lines % 2 ^ 32)) (1 + p)
      (modSnap p (fun n => { n with wear := s.slotWear p n.nextSlot }) s))

/-- What an NVM request that succeeded leaves (R575, R625, R626). -/
def nvmDone (r : NvmReq) (s : State) : State :=
  match r.op with
  | 1 => nvmWrite r.addr (leBytes 64 r.data.toNat) s
  | 2 =>
    let s1 := { s with nvm := s.nvm.filter (fun e => !(decide (r.addr ≤ e.1) && decide (e.1 < r.addr + 64 * r.lines))) }
    if r.why = 0 then s1
    else nvmWrite r.addr (slotHeader 0 ((s.part (r.why - 1)).snap.wear) (List.replicate 64 0)) s1
  | _ => s

/-- NVM_RESPONSE (R577, R625, R626): matched by tag. -/
def execNvmResponse (tag : Nat) (ok : Bool) (_data : BitVec 512) (s : State) : Res :=
  match s.nvmReqs.find? (fun r => decide (r.tag = tag)) with
  | none => .next s
  | some r =>
    let s1 := { s with nvmReqs := s.nvmReqs.erase r }
    if ok then .next (nvmDone r s1)
    else if r.op = 1 ∧ r.why ≠ 0 ∧ (s.part (r.why - 1)).snap.writing then .next (slotFailed (r.why - 1) s1)
    else .next s1

/-! ### Restoring -/

/-- Bytes of a group image, by its header and records (R422, R437). -/
def groupImageBytes (bs : List Byte) : Nat :=
  let n := ofLe (bs.take 2)
  64 + 32 * n + 2 * ((List.range n).map (fun i => fld (ofLe ((bs.drop (64 + 32 * i)).take 32)) 178 6)).sum

/-- Every entry of the CRC table matches its MiB of the body (R567, R584). -/
def crcsOk (table body : List Byte) : Bool := decide (table.take (4 * ceilDiv body.length (2 ^ 20)) = (crcTable body).take (4 * ceilDiv body.length (2 ^ 20)))

/-- Write one range from its bytes. -/
def writeRange (p : Nat) (r : SnapRange) (bs : List Byte) (s : State) : State :=
  match r with
  | .mem va _ => writeVa p true va bs s
  | .spm i first _ => spmWrite ((s.partCores p).getD i 0) (512 * first) bs s

/-- Write every range, each from its place in the section of ranges (R574, R584). -/
def writeRanges (p : Nat) (rs : List SnapRange) (bs : List Byte) (s : State) : State :=
  match rs with
  | [] => s
  | r :: rest => writeRanges p rest (bs.drop (up512 r.bytes)) (writeRange p r (bs.take r.bytes) s)

/-- The ranges after a restore that stopped hold undefined bytes (R584, log 12). -/
def spoilRanges (p : Nat) (rs : List SnapRange) (s : State) : State :=
  rs.foldl (fun t r => writeRange p r ((List.range r.bytes).map (Config.restoreByte t.free)) t.draw) s

/-- Load KEY and STEP of the 16 Spin streams (R574, R584). -/
def spinsOf (bs : List Byte) : List (BitVec 64 × BitVec 32) :=
  (List.range 16).map (fun i => (BitVec.ofNat 64 (ofLe ((bs.drop (16 * i)).take 8)), BitVec.ofNat 32 (ofLe ((bs.drop (16 * i + 8)).take 4))))

/-- A source a restore accepts (R583): the header, the Figure's place, its manifest, and whether every KIND 1 range names a healthy core. -/
def State.restorable (s : State) (p : Nat) (h : SlotHdr) : Option (Nat × Manifest) :=
  let q := s.part p
  match q.chor with
  | none => none
  | some c =>
    if c.crc.toNat ≠ h.chorCrc ∨ h.node ≠ q.plane.node.toNat ∨ fld h.blkVer 8 8 ≠ fld blkVer 8 8 then none
    else
      match c.place h.fig with
      | none => none
      | some i =>
        match c.figures[i]? with
        | none => none
        | some f =>
          match f.par with
          | .snapshot m =>
            if m.ranges.any (fun r => match r with
              | .spm k _ _ => (match (s.partCores p)[k]? with | some c => (s.core c).fenced | none => true)
              | _ => false) then none
            else some (i, m)
          | _ => none

/-- Restore from a slot's bytes (R583 to R585). -/
def restoreFrom (p ring : Nat) (seq : BitVec 16) (img : BitVec 512) (bs : List Byte) (s : State) : State :=
  match (readHeader (bs.take 4096)).filter (fun h => decide (h.state = 2)) with
  | none => complete ring seq stSnapInvalid 0 0 s
  | some h =>
    match s.restorable p h with
    | none => complete ring seq stSnapInvalid 0 0 s
    | some (i, m) =>
      let table := (bs.drop 4096).take (crcBytes h.bodyBytes)
      let body := (bs.drop (4096 + crcBytes h.bodyBytes)).take h.bodyBytes
      if decide (body.length ≠ h.bodyBytes) || !crcsOk table body then complete ring seq stSnapInvalid 0 0 (spoilRanges p m.ranges s)
      else
        let pos := up512 m.posBytes
        let ranges := (m.ranges.map (fun r => up512 r.bytes)).sum
        let routes := body.drop (body.length - ranges - up512 8256)
        let groups := body.drop (512 + pos)
        let s1 := writeRanges p m.ranges (body.drop (body.length - ranges)) s
        let s2 := writeVa p true m.posVa ((body.drop 512).take m.posBytes) s1
        let s3 := s2.modPart p (fun q => { q with
          spin := spinsOf body, flags := Flags.none, firstFig := 0xFFFFFF, firstBeat := 0
          voteId := 0, voteFlags := 0, voteClear := false, voteValid := false
          snap := { q.snap with resume := some (h.beat, h.iteration, i) } })
        completeWith p ring seq img h.beat (groups.take (groupImageBytes groups) ++ routes.take 8256) s3

/-- SNAP_RESTORE (R492, R583 to R585); `mirror` is what the Partner returns of its latest complete mirror for FROM_PARTNER. -/
def execSnapRestore (ring : Nat) (seq : BitVec 16) (mirror : List Byte) (s : State) : Res :=
  .next (runCommand ⟨0x501, false, true, true, [(0x18, 0, 9)]⟩ ring seq
    (fun p img s =>
      let n := (s.part p).snap
      let slot := if arg img 0x18 0 8 = 0xFF then n.latest else some (arg img 0x18 0 8)
      if s.chorRuns p then complete ring seq stChorBusy 0 0 s
      else if n.busy then complete ring seq stSnapBusy 0 0 s
      else if bit (arg img 0x18 0 9) 8 then
        (if n.partner.isNone then complete ring seq stSnapInvalid 0 0 s else restoreFrom p ring seq img mirror s)
      else
        match slot with
        | none => complete ring seq stSnapInvalid 0 0 s
        | some i =>
          if n.slots ≤ i then complete ring seq stSnapInvalid 0 0 s
          else restoreFrom p ring seq img (s.nvmRead (n.slotAt i) (n.slotMb * 1000000)) s) s)

/-! ### Partners -/

/-- SET_PARTNER (R492, R579). -/
def execSetPartner (ring : Nat) (seq : BitVec 16) (s : State) : Res :=
  .next (runCommand ⟨0x503, false, false, true, [(0x18, 0, 10), (0x18, 16, 2)]⟩ ring seq
    (fun p img s =>
      let node := arg img 0x18 0 10
      if s.chorRuns p then complete ring seq stChorBusy 0 0 s
      else if arg img 0x18 17 1 = 1 then
        let s1 := withHealth (modSnap p (fun n => { n with partner := none, atRisk := false })) s
        complete ring seq stOk 0 0 (match (s.part p).snap.partner with | some d => tellPartner p d 2 s1 | none => s1)
      else addWait p ring seq (.setPartner node (arg img 0x18 16 1 = 1)) (tellPartner p node 0 s)) s)

/-- The SET_PARTNER of partition `p` that waits for an answer. -/
def Part.askedPartner (q : Part) : Option (Waiting × Nat × Bool) :=
  q.waiting.findSome? (fun w => match w.what with | .setPartner d a => some (w, d, a) | _ => none)

/-- A wait of partition `p` is over. -/
def dropWait (p : Nat) (w : Waiting) (s : State) : State := s.modPart p (fun q => { q with waiting := q.waiting.erase w })

/-- Two devices share a power feed, or one does not know its own (R579, R647). -/
def sameFeed (a b : BitVec 16) : Bool := decide (a = 0) || decide (b = 0) || decide (a = b)

/-- The Partner is set, with its mirror buffer and the half the next mirror goes into (R579). -/
def acceptPartner (p : Nat) (w : Waiting) (node : Nat) (feed : BitVec 16) (cap lb half : Nat) (s : State) : State :=
  let same := sameFeed s.pins.feed feed
  let s1 := tellPartner p node 1 (withHealth (modSnap p (fun n => { n with
    partner := some node, partnerLb := lb, partnerCap := cap, mirrorHalf := half, atRisk := same })) (dropWait p w s))
  let s2 := if same then postEvent p 0xA2 (payloadOf noFig 0 node) s1 else s1
  complete w.ring w.seq stOk (feed.toNat + b2n same * 2 ^ 32) 0 s2

/-- PARTNER_REPLY (R579): the Partner's feed, the bytes of the mirror buffer it offers (0 if none), its landing buffer and the half the
next mirror goes into. -/
def execPartnerReply (p : Nat) (feed : BitVec 16) (cap lb half : Nat) (s : State) : Res :=
  match (s.part p).askedPartner with
  | none => .next s
  | some (w, node, same) =>
    if !s.cc2Runs then .next s
    else if cap = 0 ∨ cap < 2 * (s.part p).snap.slotMb * 1000000 then .next (complete w.ring w.seq stField 0 0 (dropWait p w s))
    else if sameFeed s.pins.feed feed && !same then .next (complete w.ring w.seq stSameFeed 0 0 (dropWait p w s))
    else .next (acceptPartner p w node feed cap lb half s)

/-- PARTNER_TIMEOUT: no answer within 10 ms (R579). -/
def execPartnerTimeout (p : Nat) (s : State) : Res :=
  match (s.part p).askedPartner with
  | none => .next s
  | some (w, _, _) => .next (complete w.ring w.seq stUnreachable 0 0 (dropWait p w s))

/-- The half of a held mirror buffer that the next mirror goes into (R581). -/
def MirrorHeld.other (m : MirrorHeld) : Nat := if m.complete then 1 - m.half else 0

/-- Bytes of the mirror buffer offered to `node`: none while it is not set or serves another device (R579, R580). -/
def State.mirrorOffer (s : State) (p node : Nat) : Nat :=
  let b := s.landBuf (s.mirrorLb p)
  let free := match (s.part p).snap.held with | some m => decide (m.node = node) | none => true
  if b.isSet && free then b.size else 0

/-- The bytes of the latest complete mirror held for `node`, if they can be read (R581, R584). -/
def State.heldMirror (s : State) (p node : Nat) : Option (List Byte) :=
  match (s.part p).snap.held with
  | some m =>
    if m.node ≠ node ∨ !m.complete then none
    else
      let lb := s.mirrorLb p
      let off := m.half * ((s.landBuf lb).size / 2)
      match s.readLb p lb off 4096 with
      | .ok h =>
        match readHeader h with
        | some x => (match s.readLb p lb off (slotNeed x.bodyBytes) with | .ok bs => some bs | _ => none)
        | none => none
      | _ => none
  | none => none

/-- PARTNER_REQUEST on the Partner (R579 to R581, R584): `kind` as in `tellPartner`. -/
def execPartnerRequest (p node kind : Nat) (s : State) : Res :=
  let held := (s.part p).snap.held
  let me := (s.part p).plane.node.toNat
  let lb := s.mirrorLb p
  if !s.cc2Runs then .next s
  else
    match kind with
    | 0 =>
      let half := match held with | some m => m.other | none => 0
      .next (sendToward p node (.partner node me 5 s.pins.feed.toNat (s.mirrorOffer p node) lb half) s)
    | 1 =>
      if s.mirrorOffer p node = 0 ∨ held.isSome then .next s
      else .next (modSnap p (fun n => { n with held := some ⟨node, 0, false, 0, 0, 0, false⟩ }) s)
    | 2 => .next (modSnap p (fun n => { n with held := n.held.filter (fun m => decide (m.node ≠ node)) }) s)
    | 3 =>
      match held with
      | some m => if m.node = node then .next (sendToward p node (.credit node me lb ((s.landBuf lb).size / 1024)) s) else .next s
      | none => .next s
    | 4 =>
      match s.heldMirror p node with
      | some bs => .next ((deliveries bs).foldl (fun t d => sendToward p node (.mirror node me d.1 d.2) t) s)
      | none => .next s
    | _ => .next s

/-- A mirror of this device is complete on its Partner (R581, R582). -/
def mirrorSentDone (p : Nat) (s : State) : State :=
  freeStaging p (withHealth (modSnap p (fun n => { n with
    mirroring := false, mirrorSent := false, mirrorDown := false, mirrorHalf := 1 - n.mirrorHalf })) s)

/-- MIRROR_DONE (R581): on the sender, or on the Partner (`held`), which marks the half complete once the header has landed. -/
def execMirrorDone (p : Nat) (held : Bool) (s : State) : Res :=
  let n := (s.part p).snap
  if held then
    match n.held with
    | some m =>
      if m.header then
        .next (modSnap p (fun n => { n with held := some { m with half := m.other, complete := true, seq := m.next, landed := 0, header := false } }) s)
      else .next s
    | none => .next s
  else if n.mirroring && n.mirrorSent then .next (mirrorSentDone p s)
  else .next s

/-- MIRROR_TIMEOUT (R577, R582): the mirror is abandoned; the slot write continues. -/
def execMirrorTimeout (p : Nat) (s : State) : Res :=
  let n := (s.part p).snap
  if !s.cc2Runs || !n.mirroring then .next s
  else
    let slot := if n.writing then n.nextSlot else n.latest.getD n.nextSlot
    let s1 := withHealth (modSnap p (fun n => { n with mirroring := false, mirrorSent := false, mirrorDown := true })) s
    .next (freeStaging p (snapFail p slot 6 stUnreachable s1))

end Sys2Proof.Machine
end

