-- ==== Sys2Proof/Machine/Spm.lean ====
section
/-! DEFINITION. Scratchpad operations in place (R311 to R313) and writes from other cores under receive windows (R314 to R316). -/

namespace Sys2Proof.Machine

/-- An in-place operation of slot `i` on rows that do not all exist with power: SPM_RANGE without a rerun (R313), and INV where a
powered-down quarter is met (R331). -/
def rangeAbort (p fig c i : Nat) (rows : List Nat) (s : State) : State :=
  let off := rows.any (fun r => decide (r < s.cfg.spmRows) && !s.rowOn c r)
  askAbort p fig (.spmRange c) (postEvent p 0x41 (payloadOf fig c 0) (if off then raise c i flInv s else s))

/-- Rows first to first + count − 1. -/
def rowRun (first count : Nat) : List Nat := (List.range count).map (first + ·)

/-- Rows [first, first + count) exist and are powered. -/
def State.rowsOn (s : State) (c first count : Nat) : Bool := (List.range count).all (fun i => s.rowOn c (first + i))

/-- A channel of core `c` may issue (R311, R315). -/
def State.channelFree (s : State) (c ch : Nat) : Bool := decide (ch < 4) && !(s.core c).busyCh.contains ch

/-- A row count of an in-place operation (R311). -/
def rowCountOk (n : Nat) : Bool := decide (1 ≤ n) && decide (n ≤ 24576)

/-- SPM_FILL (R311, R313). -/
def execSpmFill (c slot ch first count : Nat) (pat : BitVec 32) (s : State) : Res :=
  match s.issuing c slot with
  | none => .next s
  | some (p, fig) =>
    if !s.channelFree c ch || !rowCountOk count then .next s
    else if !s.rowsOn c first count then .next (rangeAbort p fig c slot (rowRun first count) s)
    else .next (spmWrite c (512 * first) ((List.replicate (128 * count) (leBytes 4 pat.toNat)).flatten) s)

/-- SPM_COPY (R311 to R313): every source row is read before any destination row is written. -/
def execSpmCopy (c slot ch src dst count : Nat) (s : State) : Res :=
  match s.issuing c slot with
  | none => .next s
  | some (p, fig) =>
    if !s.channelFree c ch || !rowCountOk count then .next s
    else if !s.rowsOn c src count || !s.rowsOn c dst count then .next (rangeAbort p fig c slot (rowRun src count ++ rowRun dst count) s)
    else
      let bs := s.spmBytes c (512 * src) (512 * count)
      let tags := ((s.core c).tags.filter (fun t => decide (512 * src ≤ t.1) && decide (t.1 < 512 * (src + count)))).map
        (fun t => (t.1 + 512 * dst - 512 * src, t.2))
      let s1 := touchRows p fig c slot (rowRun src count) [] s
      let s2 := spmWrite c (512 * dst) bs s1
      .next (s2.modCore c (fun k => { k with tags := tags.foldl (fun m t => kset 0 m t.1 t.2) k.tags }))

/-! ### Receive windows -/

/-- Grant `n` rows of a window to core `w` (R315). -/
def Window.grant (x : Window) (w n : Nat) : Window := { x with avail := x.avail - n, granted := kmod 0 x.granted w (· + n) }

/-- Replace window `win` of core `c`. -/
def setWindow (c win : Nat) (x : Window) (s : State) : State :=
  s.modCore c (fun k => { k with windows := kset Window.closed k.windows win x })

/-- CRED_TAKE: granted when the window has the credits and nobody waits before it, else the channel waits (R315). -/
def execCredTake (w ch c win n : Nat) (s : State) : Res :=
  let x := kget Window.closed (s.core c).windows win
  if !x.isOpen || (s.core w).fenced || (s.core w).halted || !s.channelFree w ch then .next s
  else if x.waiting.isEmpty && decide (n ≤ x.avail) then .next (setWindow c win (x.grant w n) s)
  else .next ((setWindow c win { x with waiting := x.waiting ++ [(w, ch, n)] } s).modCore w (fun k => { k with busyCh := ch :: k.busyCh }))

/-- CRED_TAKE_GRANT: the oldest waiting take is granted once the credits suffice (R315). -/
def execCredTakeGrant (c win : Nat) (s : State) : Res :=
  let x := kget Window.closed (s.core c).windows win
  match x.waiting with
  | (w, ch, n) :: rest =>
    if x.isOpen && decide (n ≤ x.avail) then
      .next ((setWindow c win { x.grant w n with waiting := rest } s).modCore w (fun k => { k with busyCh := k.busyCh.erase ch }))
    else .next s
  | [] => .next s

/-- CRED_RETURN: rows consumed come back; above ROWS they are clamped with INV and SPM_CREDIT (R315). -/
def execCredReturn (c slot win n : Nat) (s : State) : Res :=
  let x := kget Window.closed (s.core c).windows win
  match s.issuing c slot with
  | none => .next s
  | some (p, fig) =>
    if !x.isOpen then .next s
    else if x.avail + n ≤ x.rows then .next (setWindow c win { x with avail := x.avail + n } s)
    else .next (postEvent p 0x42 (payloadOf fig c win) (raise c slot flInv (setWindow c win { x with avail := x.rows } s)))

/-- A remote row may be written (R316). -/
def State.windowOk (s : State) (w c win row : Nat) : Bool :=
  let x := kget Window.closed (s.core c).windows win
  let same := decide ((s.core w).slot0.fig = some (x.part, x.fig)) || decide ((s.core w).slot1.fig = some (x.part, x.fig))
  x.isOpen && decide (x.firstRow ≤ row) && decide (row < x.firstRow + x.rows) && (x.any || decide (x.writer = w)) && same
    && decide (s.coreOwner w = some x.part)

/-- The Figure a writing core's channel works for: that of the window when it is one of the core's two, else the core's first. -/
def State.writerFig (s : State) (w c win : Nat) : Option (Nat × Nat) :=
  let x := kget Window.closed (s.core c).windows win
  let k := s.core w
  if k.slot1.fig = some (x.part, x.fig) then k.slot1.fig else if k.slot0.fig.isSome then k.slot0.fig else k.slot1.fig

/-- REMOTE_ROW_WRITE: a row from core `w` is written under its window, or refused with SPM_WINDOW_FAULT and its writer's Figure aborts
(R316). -/
def execRemoteRowWrite (w ch c win row : Nat) (data : List Byte) (s : State) : Res :=
  match s.writerFig w c win with
  | none => .next s
  | some (p, fig) =>
    if !s.channelFree w ch || decide (data.length ≠ 512) then .next s
    else if s.windowOk w c win row then .next (spmWrite c (512 * row) data s)
    else .next (askAbort p fig .windowFault (postEvent p 0x43 (payloadOf fig c (w % 256 + row % 2 ^ 16 * 2 ^ 16)) s))

end Sys2Proof.Machine
end

