-- ==== Sys2Proof/Machine/Dispatch.lean ====
section
/-! DEFINITION. One arm per command. -/

namespace Sys2Proof.Machine

/-- What a command does to everything but the queue. -/
def exec (i : Instr) (s : State) : Host.Outcome State Fault Refusal :=
  match i with
  | .beatEdge tNs => Sys2Proof.Machine.execBeatEdge tNs s
  | .beatInsert => Sys2Proof.Machine.execBeatInsert s
  | .holdoverExpiry => Sys2Proof.Machine.execHoldoverExpiry s
  | .beatCountFrame port frame => Sys2Proof.Machine.execBeatCountFrame port frame s
  | .barBoundary act => Sys2Proof.Machine.execBarBoundary act s
  | .lateFrame part port node t len => Sys2Proof.Machine.execLateFrame part port node t len s
  | .figureStalled part fig => Sys2Proof.Machine.execFigureStalled part fig s
  | .figureStart part fig => Sys2Proof.Machine.execFigureStart part fig s
  | .figureComplete part fig => Sys2Proof.Machine.execFigureComplete part fig s
  | .figureAbort part fig => Sys2Proof.Machine.execFigureAbort part fig s
  | .backwardPhaseStart part fig => Sys2Proof.Machine.execBackwardPhaseStart part fig s
  | .mergePhaseStart part fig => Sys2Proof.Machine.execMergePhaseStart part fig s
  | .bucketStart part fig => Sys2Proof.Machine.execBucketStart part fig s
  | .appendPhase part fig => Sys2Proof.Machine.execAppendPhase part fig s
  | .kvAppend o => Sys2Proof.Machine.execKvAppend o s
  | .mxaOp core slot w0 w1 meet => Sys2Proof.Machine.execMxaOp core slot w0 w1 meet s
  | .acmDrain o => Sys2Proof.Machine.execAcmDrain o s
  | .acmFill o => Sys2Proof.Machine.execAcmFill o s
  | .acmShift core slot bank row => Sys2Proof.Machine.execAcmShift core slot bank row s
  | .acmClear core bank => Sys2Proof.Machine.execAcmClear core bank s
  | .acmStatus core bank reg => Sys2Proof.Machine.execAcmStatus core bank reg s
  | .rope o => Sys2Proof.Machine.execRope o s
  | .vuSplit o => Sys2Proof.Machine.execVuSplit o s
  | .cvtFromE4m3x core slot sat count srcRow dstRow => Sys2Proof.Machine.execCvtFromE4m3x core slot sat count srcRow dstRow s
  | .cvtToE4m3x core slot sat count srcRow dstRow => Sys2Proof.Machine.execCvtToE4m3x core slot sat count srcRow dstRow s
  | .optAdam o => Sys2Proof.Machine.execOptAdam o s
  | .scaleStep part fig => Sys2Proof.Machine.execScaleStep part fig s
  | .kvCommit part fig => Sys2Proof.Machine.execKvCommit part fig s
  | .resReload part fig => Sys2Proof.Machine.execResReload part fig s
  | .clmLoad clm n part fig => Sys2Proof.Machine.execClmLoad clm n part fig s
  | .clmClaim core clm z => Sys2Proof.Machine.execClmClaim core clm z s
  | .clmRetire core clm item => Sys2Proof.Machine.execClmRetire core clm item s
  | .clmReturn clm item => Sys2Proof.Machine.execClmReturn clm item s
  | .clmRelease clm => Sys2Proof.Machine.execClmRelease clm s
  | .itemCommit core clm item slot => Sys2Proof.Machine.execItemCommit core clm item slot s
  | .multicastStageIssue part fig stream tile zeros => Sys2Proof.Machine.execMulticastStageIssue part fig stream tile zeros s
  | .spmFill core slot channel first count pattern => Sys2Proof.Machine.execSpmFill core slot channel first count pattern s
  | .spmCopy core slot channel src dst count => Sys2Proof.Machine.execSpmCopy core slot channel src dst count s
  | .credTake writer channel core win n => Sys2Proof.Machine.execCredTake writer channel core win n s
  | .credTakeGrant core win => Sys2Proof.Machine.execCredTakeGrant core win s
  | .credReturn core slot win n => Sys2Proof.Machine.execCredReturn core slot win n s
  | .remoteRowWrite writer channel core win row data => Sys2Proof.Machine.execRemoteRowWrite writer channel core win row data s
  | .streamAccess stream va bytes write tile spmByte scByte => Sys2Proof.Machine.execStreamAccess stream va bytes write tile spmByte scByte s
  | .stbLookup set read => Sys2Proof.Machine.execStbLookup set read s
  | .stbWalkDone set read => Sys2Proof.Machine.execStbWalkDone set read s
  | .faultService => Sys2Proof.Machine.execFaultService s
  | .translationPrefetch core engine stream va bytes => Sys2Proof.Machine.execTranslationPrefetch core engine stream va bytes s
  | .lineDataValid stream tile zeros => Sys2Proof.Machine.execLineDataValid stream tile zeros s
  | .invalidationDone part => Sys2Proof.Machine.execInvalidationDone part s
  | .migrateCopyDone part va => Sys2Proof.Machine.execMigrateCopyDone part va s
  | .pwuLookup set read seqId token ask => Sys2Proof.Machine.execPwuLookup set read seqId token ask s
  | .pwuWalkDone set read => Sys2Proof.Machine.execPwuWalkDone set read s
  | .quietPoint part => Sys2Proof.Machine.execQuietPoint part s
  | .seqEvictCopyDone slot => Sys2Proof.Machine.execSeqEvictCopyDone slot s
  | .seqRestoreCopyDone slot => Sys2Proof.Machine.execSeqRestoreCopyDone slot s
  | .frameZeroed part far frame => Sys2Proof.Machine.execFrameZeroed part far frame s
  | .reserveWaitTimeout ring seq => Sys2Proof.Machine.execReserveWaitTimeout ring seq s
  | .mcReadRequest channel line part reader ecc => Sys2Proof.Machine.execMcReadRequest channel line part reader ecc s
  | .mcWriteRequest channel line part mask data => Sys2Proof.Machine.execMcWriteRequest channel line part mask data s
  | .softRepairDone channel => Sys2Proof.Machine.execSoftRepairDone channel s
  | .wcbEvict channel line ecc => Sys2Proof.Machine.execWcbEvict channel line ecc s
  | .refresh channel => Sys2Proof.Machine.execRefresh channel s
  | .patrolScrub channel ecc => Sys2Proof.Machine.execPatrolScrub channel ecc s
  | .scrubAged channel => Sys2Proof.Machine.execScrubAged channel s
  | .stackTempRead stack temp => Sys2Proof.Machine.execStackTempRead stack temp s
  | .channelLockLoss channel => Sys2Proof.Machine.execChannelLockLoss channel s
  | .channelRelock channel => Sys2Proof.Machine.execChannelRelock channel s
  | .channelFenceExpiry channel => Sys2Proof.Machine.execChannelFenceExpiry channel s
  | .channelUeLimit channel => Sys2Proof.Machine.execChannelUeLimit channel s
  | .intermissionItemStart part => Sys2Proof.Machine.execIntermissionItemStart part s
  | .channelRetrainDone channel lanes => Sys2Proof.Machine.execChannelRetrainDone channel lanes s
  | .portRetrainDone port ok => Sys2Proof.Machine.execPortRetrainDone port ok s
  | .laneRemapDone port lowOk highOk => Sys2Proof.Machine.execLaneRemapDone port lowOk highOk s
  | .repairStagingDone stack => Sys2Proof.Machine.execRepairStagingDone stack s
  | .farDrsResponse port tag data poison => Sys2Proof.Machine.execFarDrsResponse port tag data poison s
  | .farNdrCmp port tag => Sys2Proof.Machine.execFarNdrCmp port tag s
  | .farLinkDown port => Sys2Proof.Machine.execFarLinkDown port s
  | .farLinkUp port => Sys2Proof.Machine.execFarLinkUp port s
  | .farLinkTimeout port => Sys2Proof.Machine.execFarLinkTimeout port s
  | .flitReceive port flit => Sys2Proof.Machine.execFlitReceive port flit s
  | .portRetryLimit port got => Sys2Proof.Machine.execPortRetryLimit port got s
  | .portFecLimit port got => Sys2Proof.Machine.execPortFecLimit port got s
  | .portLockLoss port watch => Sys2Proof.Machine.execPortLockLoss port watch s
  | .portRelock port => Sys2Proof.Machine.execPortRelock port s
  | .portRelockTimeout port => Sys2Proof.Machine.execPortRelockTimeout port s
  | .portPeerFence port got => Sys2Proof.Machine.execPortPeerFence port got s
  | .linkCalibration port lowLanes got => Sys2Proof.Machine.execLinkCalibration port lowLanes got s
  | .portTrainRetry port lanes => Sys2Proof.Machine.execPortTrainRetry port lanes s
  | .trainingFrame port node master => Sys2Proof.Machine.execTrainingFrame port node master s
  | .transferIssue part xfer => Sys2Proof.Machine.execTransferIssue part xfer s
  | .deliveryReceive port header data => Sys2Proof.Machine.execDeliveryReceive port header data s
  | .creditFrame port dst src lb units => Sys2Proof.Machine.execCreditFrame port dst src lb units s
  | .probeFrame part group rttNs => Sys2Proof.Machine.execProbeFrame part group rttNs s
  | .voteContribute part vote => Sys2Proof.Machine.execVoteContribute part vote s
  | .voteFrame part node vote step flags count => Sys2Proof.Machine.execVoteFrame part node vote step flags count s
  | .voteLatch part vote => Sys2Proof.Machine.execVoteLatch part vote s
  | .chainSegment part chain seg => Sys2Proof.Machine.execChainSegment part chain seg s
  | .dbProdWrite req ring value => Sys2Proof.Machine.execDbProdWrite req ring value s
  | .dbCplWrite req ring value => Sys2Proof.Machine.execDbCplWrite req ring value s
  | .dbEvconsWrite req ring value => Sys2Proof.Machine.execDbEvconsWrite req ring value s
  | .ringReset req ring value => Sys2Proof.Machine.execRingReset req ring value s
  | .ringResetDone ring => Sys2Proof.Machine.execRingResetDone ring s
  | .heartbeatTick stalled => Sys2Proof.Machine.execHeartbeatTick stalled s
  | .coreProgressFail core => Sys2Proof.Machine.execCoreProgressFail core s
  | .watchdogExpiry => Sys2Proof.Machine.execWatchdogExpiry s
  | .ccSramError corrected => Sys2Proof.Machine.execCcSramError corrected s
  | .cifVersion ring seq => Sys2Proof.Machine.execCifVersion ring seq s
  | .commandUnknownOpcode ring seq => Sys2Proof.Machine.execCommandUnknownOpcode ring seq s
  | .eventRingSet ring seq => Sys2Proof.Machine.execEventRingSet ring seq s
  | .jobOpen ring seq => Sys2Proof.Machine.execJobOpen ring seq s
  | .jobEnd ring seq => Sys2Proof.Machine.execJobEnd ring seq s
  | .chorLoad ring seq progs => Sys2Proof.Machine.execChorLoad ring seq progs s
  | .chorRun ring seq => Sys2Proof.Machine.execChorRun ring seq s
  | .chorStop ring seq => Sys2Proof.Machine.execChorStop ring seq s
  | .holdRequest ring seq => Sys2Proof.Machine.execHoldRequest ring seq s
  | .intermissionReq ring seq => Sys2Proof.Machine.execIntermissionReq ring seq s
  | .kvArenaSet ring seq => Sys2Proof.Machine.execKvArenaSet ring seq s
  | .seqOpen ring seq => Sys2Proof.Machine.execSeqOpen ring seq s
  | .seqQuery ring seq => Sys2Proof.Machine.execSeqQuery ring seq s
  | .seqReserve ring seq => Sys2Proof.Machine.execSeqReserve ring seq s
  | .seqTrim ring seq => Sys2Proof.Machine.execSeqTrim ring seq s
  | .seqClose ring seq => Sys2Proof.Machine.execSeqClose ring seq s
  | .seqEvict ring seq => Sys2Proof.Machine.execSeqEvict ring seq s
  | .seqRestore ring seq => Sys2Proof.Machine.execSeqRestore ring seq s
  | .kvStat ring seq => Sys2Proof.Machine.execKvStat ring seq s
  | .map ring seq => Sys2Proof.Machine.execMap ring seq s
  | .unmap ring seq => Sys2Proof.Machine.execUnmap ring seq s
  | .protect ring seq => Sys2Proof.Machine.execProtect ring seq s
  | .migrate ring seq => Sys2Proof.Machine.execMigrate ring seq s
  | .faultAbort ring seq => Sys2Proof.Machine.execFaultAbort ring seq s
  | .hotRead ring seq => Sys2Proof.Machine.execHotRead ring seq s
  | .hotSet ring seq => Sys2Proof.Machine.execHotSet ring seq s
  | .tableDigest ring seq => Sys2Proof.Machine.execTableDigest ring seq s
  | .fabricSet ring seq => Sys2Proof.Machine.execFabricSet ring seq s
  | .routeSet ring seq => Sys2Proof.Machine.execRouteSet ring seq s
  | .groupSet ring seq => Sys2Proof.Machine.execGroupSet ring seq s
  | .lbSet ring seq => Sys2Proof.Machine.execLbSet ring seq s
  | .lbClear ring seq => Sys2Proof.Machine.execLbClear ring seq s
  | .tableRead ring seq => Sys2Proof.Machine.execTableRead ring seq s
  | .linkQuery ring seq => Sys2Proof.Machine.execLinkQuery ring seq s
  | .snapSet ring seq => Sys2Proof.Machine.execSnapSet ring seq s
  | .snapRestore ring seq mirror => Sys2Proof.Machine.execSnapRestore ring seq mirror s
  | .snapQuery ring seq => Sys2Proof.Machine.execSnapQuery ring seq s
  | .setPartner ring seq => Sys2Proof.Machine.execSetPartner ring seq s
  | .partnerReply part feed cap lb half => Sys2Proof.Machine.execPartnerReply part feed cap lb half s
  | .partnerTimeout part => Sys2Proof.Machine.execPartnerTimeout part s
  | .counterRead ring seq => Sys2Proof.Machine.execCounterRead ring seq s
  | .powerState ring seq => Sys2Proof.Machine.execPowerState ring seq s
  | .powerCap ring seq => Sys2Proof.Machine.execPowerCap ring seq s
  | .healthRead ring seq => Sys2Proof.Machine.execHealthRead ring seq s
  | .debugHalt ring seq => Sys2Proof.Machine.execDebugHalt ring seq s
  | .debugResume ring seq => Sys2Proof.Machine.execDebugResume ring seq s
  | .fwStage ring seq => Sys2Proof.Machine.execFwStage ring seq s
  | .fwCommit ring seq => Sys2Proof.Machine.execFwCommit ring seq s
  | .fwActivate ring seq => Sys2Proof.Machine.execFwActivate ring seq s
  | .fwConfirm ring seq => Sys2Proof.Machine.execFwConfirm ring seq s
  | .snapStagingDone part bad => Sys2Proof.Machine.execSnapStagingDone part bad s
  | .snapSlotWritten part ok => Sys2Proof.Machine.execSnapSlotWritten part ok s
  | .snapSlotErase part => Sys2Proof.Machine.execSnapSlotErase part s
  | .mirrorDone part held => Sys2Proof.Machine.execMirrorDone part held s
  | .mirrorTimeout part => Sys2Proof.Machine.execMirrorTimeout part s
  | .nvmResponse tag ok data => Sys2Proof.Machine.execNvmResponse tag ok data s
  | .p1IdleEntry => Sys2Proof.Machine.execP1IdleEntry s
  | .dutyAdjust avgMw => Sys2Proof.Machine.execDutyAdjust avgMw s
  | .capWindowEnd avgMw => Sys2Proof.Machine.execCapWindowEnd avgMw s
  | .droopWarnStart source => Sys2Proof.Machine.execDroopWarnStart source s
  | .droopWarnEnd durationNs => Sys2Proof.Machine.execDroopWarnEnd durationNs s
  | .supplyFailure source => Sys2Proof.Machine.execSupplyFailure source s
  | .dieTempRead temp => Sys2Proof.Machine.execDieTempRead temp s
  | .thermThrottleChange asserted => Sys2Proof.Machine.execThermThrottleChange asserted s
  | .porAssert => Sys2Proof.Machine.execPorAssert s
  | .porRelease => Sys2Proof.Machine.execPorRelease s
  | .resetEntry => Sys2Proof.Machine.execResetEntry s
  | .resetEntryDone => Sys2Proof.Machine.execResetEntryDone s
  | .resetRelease boot => Sys2Proof.Machine.execResetRelease boot s
  | .selfTests r => Sys2Proof.Machine.execSelfTests r s
  | .hbmTraining answers => Sys2Proof.Machine.execHbmTraining answers s
  | .linkTraining lanes => Sys2Proof.Machine.execLinkTraining lanes s
  | .hbmZeroInit failed => Sys2Proof.Machine.execHbmZeroInit failed s
  | .fwRegionBuild ok => Sys2Proof.Machine.execFwRegionBuild ok s
  | .jtagIrUpdate code => Sys2Proof.Machine.execJtagIrUpdate code s
  | .jtagDebugAccess dr => Sys2Proof.Machine.execJtagDebugAccess dr s
  | .scanPattern drive => Sys2Proof.Machine.execScanPattern drive s
  | .latchedLoRead req addr => Sys2Proof.Machine.execLatchedLoRead req addr s
  | .acmDbgGo req value => Sys2Proof.Machine.execAcmDbgGo req value s
  | .acmDbgCopyDone bad => Sys2Proof.Machine.execAcmDbgCopyDone bad s
  | .spmDbgGo req value => Sys2Proof.Machine.execSpmDbgGo req value s
  | .spmDbgCopyDone bad => Sys2Proof.Machine.execSpmDbgCopyDone bad s
  | .telemEnable req part value => Sys2Proof.Machine.execTelemEnable req part value s
  | .telemTailWrite req part value => Sys2Proof.Machine.execTelemTailWrite req part value s
  | .telemStatClear req part value => Sys2Proof.Machine.execTelemStatClear req part value s
  | .spmCstatClear req core value => Sys2Proof.Machine.execSpmCstatClear req core value s
  | .mcCstatClear req channel value => Sys2Proof.Machine.execMcCstatClear req channel value s
  | .trCstatClear req set value => Sys2Proof.Machine.execTrCstatClear req set value s
  | .fqCstatClear req value => Sys2Proof.Machine.execFqCstatClear req value s
  | .lkCstatClear req port value => Sys2Proof.Machine.execLkCstatClear req port value s
  | .ceCstatClear req value => Sys2Proof.Machine.execCeCstatClear req value s
  | .stallCstatClear req core value => Sys2Proof.Machine.execStallCstatClear req core value s
  | .pcntCstatClear req part value => Sys2Proof.Machine.execPcntCstatClear req part value s
  | .blkCstatClear req value => Sys2Proof.Machine.execBlkCstatClear req value s
  | .hpfStatClear req value => Sys2Proof.Machine.execHpfStatClear req value s
  | .protViolClear req value => Sys2Proof.Machine.execProtViolClear req value s
  | .registerWrite req addr be data parity => Sys2Proof.Machine.execRegisterWrite req addr be data parity s
  | .vuOperation o => Sys2Proof.Machine.execVuOperation o s
  | .powerTransitionDone => Sys2Proof.Machine.execPowerTransitionDone s
  | .fuseAck word => Sys2Proof.Machine.execFuseAck word s
  | .partnerRequest part node kind => Sys2Proof.Machine.execPartnerRequest part node kind s

end Sys2Proof.Machine
end

