-- ==== Sys2Proof/Safety.lean ====
section
/-! DEFINITION. What a safe run is, in the terms the statements use: the configuration that the protection lock freezes (R509, R510,
R655), and the canonical form of the block's memories. -/

namespace Sys2Proof.Machine

/-! ### The locked configuration -/

/-- The protection registers marked RWL (R655), with the lock and what boot fixed before it; every other register of the unit at its
reset value. -/
def Prot.fixed (p : Prot) : Prot :=
  { Prot.reset with
    lock := p.lock, setPart := p.setPart, setEn := p.setEn, portPart := p.portPart, portEn := p.portEn, ringCfg := p.ringCfg,
    hostReq := p.hostReq, dbgPart := p.dbgPart, dbgJtag := p.dbgJtag, dbgSpm := p.dbgSpm, dbgHalt := p.dbgHalt,
    dbgAcm := p.dbgAcm, protMeasure := p.protMeasure, svnMin := p.svnMin }

/-- The PMU's RWL registers: the droop and thermal limits (R553). -/
def Pmu.fixed (p : Pmu) : Pmu :=
  { Pmu.reset Design.c16 with
    vnom := p.vnom, resetMv := p.resetMv, warnMv := p.warnMv, monEn := p.monEn, dieTripC := p.dieTripC, dieHotC := p.dieHotC }

/-- The memory system's RWL registers: the two shares (R347, R349). -/
def MemBlock.fixed (m : MemBlock) : MemBlock := ⟨0, false, false, 0, false, 0, m.farShare, m.bwShare⟩

/-- The Beat Unit's RWL register: STANDALONE (R85). -/
def BeatUnit.fixed (b : BeatUnit) : BeatUnit := { BeatUnit.reset with standalone := b.standalone }

/-- A region's register group, without the channel list that is latched at its first use (R342, R344). -/
def MemRegion.fixed (r : MemRegion) : MemRegion := { r with list := none }

/-- The register groups of the 64 regions. -/
def State.regionRegs (s : State) : List MemRegion := (List.range 64).map (fun k => (s.region k).fixed)

/-- What the lock freezes. -/
structure LockedView where
  prot    : Prot
  regions : List MemRegion
  pmu     : Pmu
  mem     : MemBlock
  beat    : BeatUnit
  deriving DecidableEq, Repr

def State.lockedView (s : State) : LockedView := ⟨s.prot.fixed, s.regionRegs, s.pmu.fixed, s.mem.fixed, s.beat.fixed⟩

/-- The commands in which the block, or its supply, is reset (R615, R546): the only ones that end a lock (R510). -/
def resetting (c : Instr) : Bool :=
  match c with
  | .resetEntry => true
  | .supplyFailure _ => true
  | .porAssert => true
  | _ => false

/-- Where LOCK is 1, the configuration passes every check that a write of 1 to LOCK makes (R516). -/
def State.lockSound (s : State) : Prop := s.prot.lock = true → s.lockRefusal = none

/-! ### The beat count -/

/-- Until the first acquisition since reset has completed, BEAT_CNT is 0 and the Beat Unit is UNLOCKED or ACQUIRING (R46, R49). -/
def State.beatSound (s : State) : Prop :=
  s.beat.acquired = false → s.beat.cnt = 0 ∧ (s.beat.lock = .unlocked ∨ s.beat.lock = .acquiring)

/-- The next beat's count, and the count that the frame in hand would make the next edge adopt, fit in 64 bits. -/
def State.countFits (s : State) : Prop :=
  s.beat.cnt.toNat + 1 < 2 ^ 64 ∧ ∀ f, s.beat.frame = some f → f.1 + f.2.1 < 2 ^ 64

/-! ### Memory -/

/-- Every memory is in canonical form: the rings' SRAM, board NVM, the channels, the far ports and the Scratchpads. -/
def State.memWf (s : State) : Bool :=
  kwf (fun _ => 0) s.ringMem && kwf (fun _ => 0xFF) s.nvm && s.channels.all (fun e => kwf (chDefault e.2) e.2.mem)
    && s.far.all (fun e => kwf (fun _ => 0) e.2.mem) && s.cores.all (fun e => kwf (fun _ => 0) e.2.spm)

/-! ### Completing -/

/-- Command `c` answers a next state in state `s`, one with `P`. -/
def completes (c : Instr) (s : State) (P : State → Prop) : Prop := ∃ t, exec c s = .next t ∧ P t

/-- Core `c`'s Scratchpad holds bytes `bs` from byte address `a`, in its powered rows; a read of another row gives 0 (R331). -/
def State.spmHolds (s : State) (c a : Nat) (bs : List Byte) : Prop :=
  ∀ k b, bs[k]? = some b → s.rowOn c ((a + k) / 512) = true → s.spmByte c (a + k) = b

/-- The Scratchpad bytes of core `c` outside `n` bytes from `a` are the same in two states. -/
def spmKept (c a n : Nat) (s t : State) : Prop :=
  ∀ b, (b < a ∨ a + n ≤ b) → kget 0 (t.core c).spm b = kget 0 (s.core c).spm b

/-- Every core but `c` is the same in two states. -/
def othersSame (c : Nat) (s t : State) : Prop := ∀ k, k ≠ c → t.core k = s.core k

/-! ### Mailbox commands -/

/-- The acknowledged command `seq` of ring `r`, with bytes `img`, may start for partition `p` under the ring and job rules `k`, and passes
the checks of R488: Fremund runs and the ring runs (R471, R479), every earlier command has started, and has completed where FENCE is set,
and none was handed to its control core before it (R456, R466), CIF_VERSION has been read (R482), and no power state stands before it
(R537). -/
def admitted (k : CmdRule) (r : Nat) (seq : BitVec 16) (p : Nat) (img : BitVec 512) (s : State) : Bool :=
  decide ((s.mayBegin r seq).map (·.image) = some img) && decide (((s.ring r).find seq).map (·.image) = some img)
    && decide (s.ringOwner r = some p) && s.ringRuns r
    && cmdOpcode img == k.op && (decide (k.op = 1) || (s.ring r).versionRead) && decide (cmdVer img = 1)
    && (!k.admin || s.ringAdmin r) && !(k.lost && s.fw.fwLost) && (!k.job || (jobCheck (s.part p) (cmdTag img)).isNone)
    && !wakesBlock s.pmu.state k.op && !(s.pmu.transition && wakesBlock s.pmu.target k.op)
    && headerOk img && fieldsOk img k.fields && s.resultOk p img

/-- The 32 bytes of a completion of `o` with posting number `cseq`, as a number (R460). -/
def completionWord (o : OpenCmd) (cseq : BitVec 16) (status data bytes : Nat) : Nat :=
  arg o.image 0 0 16 + cmdOpcode o.image * 2 ^ 16 + status * 2 ^ 32 + cseq.toNat * 2 ^ 48 + cmdVer o.image * 2 ^ 64
    + bytes % 2 ^ 32 * 2 ^ 96 + data % 2 ^ 128 * 2 ^ 128

/-- Command `seq` of ring `r` has completed from `s` to `t`: no command of that number is open, and on a READY ring the next completion
slot holds its completion, DB_CTAIL has moved on by one and CPL_PEND is 1 (R458, R460, R467, R470). -/
def answered (r : Nat) (seq : BitVec 16) (status data bytes : Nat) (s t : State) : Prop :=
  (t.ring r).find seq = none
  ∧ ((s.ring r).state = .ready → (t.ring r).ctail = (s.ring r).ctail + 1 ∧ (t.ring r).cplPend = true
      ∧ ∀ o, (s.ring r).find seq = some o →
          bread t.ringMem (0x10000 * r + 0x4000 + 32 * ((s.ring r).ctail.toNat % 256)) 32
            = leBytes 32 (completionWord o (s.ring r).ctail status data bytes))

/-- The answer of a query whose result is `bs`: STATUS, DATA and RESULT_BYTES (R467). -/
def resultAnswer (img : BitVec 512) (data : Nat) (bs : List Byte) : Nat × Nat × Nat :=
  if resultVa img = 0 then (stOk, data, 0)
  else if resultLen img < bs.length then (stShort, data % 2 ^ 96 + bs.length % 2 ^ 32 * 2 ^ 96, resultLen img)
  else (stOk, data, bs.length)

/-- Command `seq` of ring `r` has started, is open in `t` and waits for `w` alone. -/
def nowWaits (p r : Nat) (seq : BitVec 16) (w : Wait) (s t : State) : Prop :=
  (t.part p).waiting = (s.part p).waiting ++ [⟨r, seq, w⟩] ∧ (t.ring r).opened.map (·.seq) = (s.ring r).opened.map (·.seq)
  ∧ (t.ring r).ctail = (s.ring r).ctail

/-- Frame `f` waits in port `n`'s queue, or has been sent on it and is not yet acknowledged (R415, R416). -/
def State.sends (s : State) (n : Nat) (f : Frame) : Prop := (∃ x ∈ (s.port n).out, x.2 = f) ∨ ∃ x ∈ (s.port n).sent, x.frame = f

/-! ### What a command may change -/

/-- The parts of the block: the fields of State, and of five of them the part that the lock freezes. -/
inductive Field where
  | pending | free | cfg | beat | parts | cores | sets | clms | streams | utlbs | faults | seqs
  | regions | channels | stackSt | far | mem | ports | lbs | ce | rings | ringMem | fw | prot
  | pmu | health | blk | fatal | dbg | pins | nvm | nvmReqs | latches | regionRegs | protFixed | pmuFixed
  | memFixed | beatFixed
  deriving DecidableEq, Repr

/-- A part of the block is the same in two states. -/
def Field.same (f : Field) (s t : State) : Prop :=
  match f with
  | .pending => t.pending = s.pending
  | .free => t.free = s.free
  | .cfg => t.cfg = s.cfg
  | .beat => t.beat = s.beat
  | .parts => t.parts = s.parts
  | .cores => t.cores = s.cores
  | .sets => t.sets = s.sets
  | .clms => t.clms = s.clms
  | .streams => t.streams = s.streams
  | .utlbs => t.utlbs = s.utlbs
  | .faults => t.faults = s.faults
  | .seqs => t.seqs = s.seqs
  | .regions => t.regions = s.regions
  | .channels => t.channels = s.channels
  | .stackSt => t.stackSt = s.stackSt
  | .far => t.far = s.far
  | .mem => t.mem = s.mem
  | .ports => t.ports = s.ports
  | .lbs => t.lbs = s.lbs
  | .ce => t.ce = s.ce
  | .rings => t.rings = s.rings
  | .ringMem => t.ringMem = s.ringMem
  | .fw => t.fw = s.fw
  | .prot => t.prot = s.prot
  | .pmu => t.pmu = s.pmu
  | .health => t.health = s.health
  | .blk => t.blk = s.blk
  | .fatal => t.fatal = s.fatal
  | .dbg => t.dbg = s.dbg
  | .pins => t.pins = s.pins
  | .nvm => t.nvm = s.nvm
  | .nvmReqs => t.nvmReqs = s.nvmReqs
  | .latches => t.latches = s.latches
  | .regionRegs => t.regionRegs = s.regionRegs
  | .protFixed => t.prot.fixed = s.prot.fixed
  | .pmuFixed => t.pmu.fixed = s.pmu.fixed
  | .memFixed => t.mem.fixed = s.mem.fixed
  | .beatFixed => t.beat.fixed = s.beat.fixed

/-- Only the parts in `fs` differ between two states. -/
def onlyChanges (fs : List Field) (s t : State) : Prop := ∀ f, ¬ f ∈ fs → f.same s t

/-- The parts of the block that a command's rules let it change, its events, completions, counters and the reports they make
included. -/
def touches (c : Instr) : List Field :=
  match c with
  | .beatEdge _ => [.beat, .parts, .ports, .rings, .ringMem, .fw, .blk]
  | .beatInsert => [.beat, .parts, .ports, .rings, .ringMem, .fw, .blk]
  | .holdoverExpiry => [.beat, .parts, .rings, .ringMem, .fw]
  | .beatCountFrame _ _ => [.beat, .parts, .ports, .rings, .ringMem, .fw]
  | .barBoundary _ => [.free, .parts, .cores, .sets, .channels, .far, .mem, .ports, .rings, .ringMem, .fw, .pmu, .health]
  | .lateFrame _ _ _ _ _ => [.beat, .parts, .ports, .rings, .ringMem, .fw, .blk]
  | .figureStalled _ _ => [.parts, .rings, .ringMem, .fw]
  | .figureStart _ _ => [.free, .parts, .cores, .streams, .channels, .mem, .rings, .ringMem, .fw, .pmu, .health]
  | .figureComplete _ _ => [.free, .parts, .cores, .clms, .streams, .faults, .channels, .far, .mem, .ports, .rings, .ringMem, .fw, .health]
  | .figureAbort _ _ => [.parts, .cores, .clms, .streams, .faults, .rings, .ringMem, .fw, .health]
  | .backwardPhaseStart _ _ => [.parts, .clms]
  | .mergePhaseStart _ _ => [.parts]
  | .bucketStart _ _ => [.free, .parts]
  | .appendPhase _ _ => [.parts]
  | .kvAppend _ => [.free, .parts, .cores, .sets, .seqs, .channels, .far, .mem, .rings, .ringMem, .fw, .health, .blk]
  | .mxaOp _ _ _ _ _ => [.parts, .cores, .rings, .ringMem, .fw]
  | .acmDrain _ => [.parts, .cores, .rings, .ringMem, .fw]
  | .acmFill _ => [.parts, .cores, .rings, .ringMem, .fw]
  | .acmShift _ _ _ _ => [.parts, .cores, .rings, .ringMem, .fw]
  | .acmClear _ _ => [.cores]
  | .acmStatus _ _ _ => [.cores]
  | .rope _ => [.parts, .cores, .rings, .ringMem, .fw]
  | .vuSplit _ => [.parts, .cores, .rings, .ringMem, .fw]
  | .cvtFromE4m3x _ _ _ _ _ _ => [.parts, .cores, .rings, .ringMem, .fw]
  | .cvtToE4m3x _ _ _ _ _ _ => [.parts, .cores, .rings, .ringMem, .fw]
  | .optAdam _ => [.parts, .cores, .rings, .ringMem, .fw]
  | .scaleStep _ _ => [.free, .parts, .channels, .far, .mem, .rings, .ringMem, .fw, .health]
  | .kvCommit _ _ => [.parts, .seqs]
  | .resReload _ _ => [.parts]
  | .clmLoad _ _ _ _ => [.clms]
  | .clmClaim _ _ _ => [.parts, .cores, .clms, .rings, .ringMem, .fw, .prot]
  | .clmRetire _ _ _ => [.parts, .cores, .clms]
  | .clmReturn _ _ => [.clms]
  | .clmRelease _ => [.clms]
  | .itemCommit _ _ _ _ => [.parts, .cores, .streams, .rings, .ringMem, .fw]
  | .multicastStageIssue _ _ _ _ _ => [.parts, .cores, .streams, .rings, .ringMem, .fw]
  | .spmFill _ _ _ _ _ _ => [.parts, .cores, .rings, .ringMem, .fw]
  | .spmCopy _ _ _ _ _ _ => [.parts, .cores, .rings, .ringMem, .fw]
  | .credTake _ _ _ _ _ => [.cores]
  | .credTakeGrant _ _ => [.cores]
  | .credReturn _ _ _ _ => [.cores, .rings, .ringMem, .fw]
  | .remoteRowWrite _ _ _ _ _ _ => [.parts, .cores, .rings, .ringMem, .fw]
  | .streamAccess _ _ _ _ _ _ _ => [.parts, .cores, .sets, .streams, .utlbs, .faults, .far, .rings, .ringMem, .fw]
  | .stbLookup _ _ => [.parts, .cores, .sets, .streams, .utlbs, .faults, .far, .rings, .ringMem, .fw, .blk]
  | .stbWalkDone _ _ => [.parts, .cores, .sets, .streams, .utlbs, .faults, .far, .rings, .ringMem, .fw, .blk]
  | .faultService => [.parts, .streams, .faults, .rings, .ringMem, .fw]
  | .translationPrefetch _ _ _ _ _ => [.parts, .sets, .utlbs]
  | .lineDataValid _ _ _ => [.parts, .cores, .streams, .rings, .ringMem, .fw]
  | .invalidationDone _ => [.parts, .sets, .streams, .faults, .rings, .ringMem, .fw]
  | .migrateCopyDone _ _ => [.free, .parts, .sets, .streams, .utlbs, .faults, .channels, .far, .mem, .rings, .ringMem, .fw, .health]
  | .pwuLookup _ _ _ _ _ => [.parts, .cores, .sets, .streams, .rings, .ringMem, .fw, .blk]
  | .pwuWalkDone _ _ => [.parts, .cores, .sets, .streams, .rings, .ringMem, .fw, .blk]
  | .quietPoint _ => [.free, .parts, .cores, .sets, .clms, .streams, .faults, .seqs, .channels, .far, .mem, .rings, .ringMem, .fw, .health]
  | .seqEvictCopyDone _ => [.free, .parts, .seqs, .channels, .far, .mem, .rings, .ringMem, .fw, .health]
  | .seqRestoreCopyDone _ => [.free, .parts, .sets, .seqs, .channels, .far, .mem, .rings, .ringMem, .fw, .health]
  | .frameZeroed _ _ _ => [.free, .parts, .seqs, .channels, .far, .mem, .rings, .ringMem, .fw, .health]
  | .reserveWaitTimeout _ _ => [.free, .parts, .seqs, .channels, .far, .mem, .rings, .ringMem, .fw, .health]
  | .mcReadRequest _ _ _ _ _ => [.free, .parts, .cores, .sets, .streams, .channels, .mem, .rings, .ringMem, .fw, .health]
  | .mcWriteRequest _ _ _ _ _ => [.free, .parts, .streams, .channels, .mem, .rings, .ringMem, .fw, .health]
  | .softRepairDone _ => [.parts, .channels, .ports]
  | .wcbEvict _ _ _ => [.free, .parts, .channels, .mem, .rings, .ringMem, .fw, .health]
  | .refresh _ => [.channels]
  | .patrolScrub _ _ => [.free, .parts, .channels, .mem, .rings, .ringMem, .fw, .health]
  | .scrubAged _ => [.channels]
  | .stackTempRead _ _ => [.parts, .channels, .stackSt, .ports, .rings, .ringMem, .fw, .pmu, .health, .fatal, .pins]
  | .channelLockLoss _ => [.channels, .rings, .ringMem, .fw]
  | .channelRelock _ => [.channels, .rings, .ringMem, .fw]
  | .channelFenceExpiry _ => [.parts, .channels, .ports, .rings, .ringMem, .fw, .health]
  | .channelUeLimit _ => [.parts, .channels, .ports, .rings, .ringMem, .fw, .health]
  | .intermissionItemStart _ => [.free, .parts, .channels, .mem, .ports, .rings, .ringMem, .fw, .health]
  | .channelRetrainDone _ _ => [.free, .parts, .channels, .rings, .ringMem, .fw, .health]
  | .portRetrainDone _ _ => [.parts, .ports, .rings, .ringMem, .fw, .health]
  | .laneRemapDone _ _ _ => [.parts, .ports, .rings, .ringMem, .fw, .health]
  | .repairStagingDone _ => [.parts, .stackSt, .rings, .ringMem]
  | .farDrsResponse _ _ _ _ => [.parts, .streams, .far, .rings, .ringMem, .fw]
  | .farNdrCmp _ _ => [.parts, .streams, .far, .rings, .ringMem, .fw]
  | .farLinkDown _ => [.far]
  | .farLinkUp _ => [.far]
  | .farLinkTimeout _ => [.parts, .streams, .far, .rings, .ringMem, .fw]
  | .flitReceive _ _ => [.parts, .ports, .rings, .ringMem, .fw]
  | .portRetryLimit _ _ => [.parts, .channels, .ports, .rings, .ringMem, .fw]
  | .portFecLimit _ _ => [.parts, .channels, .ports, .rings, .ringMem, .fw]
  | .portLockLoss _ _ => [.parts, .channels, .ports, .rings, .ringMem, .fw]
  | .portRelock _ => [.parts, .ports, .rings, .ringMem, .fw]
  | .portRelockTimeout _ => [.parts, .channels, .ports]
  | .portPeerFence _ _ => [.parts, .channels, .ports, .rings, .ringMem, .fw]
  | .linkCalibration _ _ _ => [.parts, .channels, .ports, .rings, .ringMem, .fw]
  | .portTrainRetry _ _ => [.parts, .channels, .ports, .rings, .ringMem, .fw, .health]
  | .trainingFrame _ _ _ => [.ports]
  | .transferIssue _ _ => [.free, .parts, .channels, .mem, .ports, .rings, .ringMem, .fw, .health]
  | .deliveryReceive _ _ _ => [.free, .parts, .channels, .mem, .ports, .ce, .rings, .ringMem, .fw, .health]
  | .creditFrame _ _ _ _ _ => [.parts, .ports, .rings, .ringMem, .fw]
  | .probeFrame _ _ _ => [.parts, .ports, .rings, .ringMem, .fw]
  | .voteContribute _ _ => [.parts, .ports, .rings, .ringMem, .fw]
  | .voteFrame _ _ _ _ _ _ => [.beat, .parts, .ports, .rings, .ringMem, .fw, .blk]
  | .voteLatch _ _ => [.parts]
  | .chainSegment _ _ _ => [.free, .parts, .channels, .far, .mem, .ports, .ce, .rings, .ringMem, .fw, .health]
  | .dbProdWrite _ _ _ => [.parts, .rings, .ringMem, .fw, .prot]
  | .dbCplWrite _ _ _ => [.parts, .rings, .ringMem, .fw, .prot]
  | .dbEvconsWrite _ _ _ => [.parts, .rings, .ringMem, .fw, .prot]
  | .ringReset _ _ _ => [.parts, .rings, .ringMem, .fw, .prot]
  | .ringResetDone _ => [.rings, .ringMem, .fw]
  | .heartbeatTick _ => [.fw]
  | .coreProgressFail _ => [.rings, .fw, .fatal]
  | .watchdogExpiry => [.rings, .fw, .fatal]
  | .ccSramError _ => [.parts, .rings, .ringMem, .fw, .blk, .fatal]
  | .cifVersion _ _ => [.free, .parts, .channels, .far, .mem, .rings, .ringMem, .fw, .pmu, .health]
  | .commandUnknownOpcode _ _ => [.rings, .ringMem]
  | .eventRingSet _ _ => [.parts, .rings, .ringMem, .fw, .pmu]
  | .jobOpen _ _ => [.parts, .rings, .ringMem, .pmu]
  | .jobEnd _ _ => [.free, .parts, .cores, .sets, .clms, .streams, .faults, .seqs, .channels, .far, .mem, .rings, .ringMem, .fw, .pmu, .health]
  | .chorLoad _ _ _ => [.free, .parts, .cores, .sets, .utlbs, .regions, .channels, .mem, .rings, .ringMem, .fw, .pmu, .health]
  | .chorRun _ _ => [.parts, .cores, .ports, .rings, .ringMem, .fw, .pmu]
  | .chorStop _ _ => [.parts, .rings, .ringMem, .fw, .pmu]
  | .holdRequest _ _ => [.parts, .rings, .ringMem, .pmu]
  | .intermissionReq _ _ => [.parts, .channels, .ports, .rings, .ringMem, .pmu]
  | .kvArenaSet _ _ => [.parts, .rings, .ringMem, .pmu]
  | .seqOpen _ _ => [.free, .parts, .seqs, .rings, .ringMem, .fw, .pmu]
  | .seqQuery _ _ => [.free, .parts, .channels, .far, .mem, .rings, .ringMem, .fw, .pmu, .health]
  | .seqReserve _ _ => [.free, .parts, .seqs, .channels, .far, .mem, .rings, .ringMem, .fw, .pmu, .health]
  | .seqTrim _ _ => [.parts, .rings, .ringMem, .pmu]
  | .seqClose _ _ => [.parts, .rings, .ringMem, .pmu]
  | .seqEvict _ _ => [.parts, .seqs, .rings, .ringMem, .pmu]
  | .seqRestore _ _ => [.parts, .seqs, .rings, .ringMem, .pmu]
  | .kvStat _ _ => [.free, .parts, .channels, .far, .mem, .rings, .ringMem, .fw, .pmu, .health]
  | .map _ _ => [.parts, .sets, .streams, .utlbs, .faults, .rings, .ringMem, .pmu]
  | .unmap _ _ => [.parts, .sets, .utlbs, .rings, .ringMem, .pmu]
  | .protect _ _ => [.parts, .sets, .streams, .utlbs, .faults, .rings, .ringMem, .pmu]
  | .migrate _ _ => [.parts, .sets, .utlbs, .rings, .ringMem, .pmu]
  | .faultAbort _ _ => [.parts, .streams, .faults, .rings, .ringMem, .fw, .pmu]
  | .hotRead _ _ => [.free, .parts, .channels, .far, .mem, .rings, .ringMem, .fw, .pmu, .health]
  | .hotSet _ _ => [.parts, .rings, .ringMem, .pmu]
  | .tableDigest _ _ => [.rings, .ringMem, .pmu]
  | .fabricSet _ _ => [.free, .parts, .channels, .mem, .ports, .rings, .ringMem, .fw, .pmu, .health]
  | .routeSet _ _ => [.free, .parts, .channels, .mem, .ports, .rings, .ringMem, .fw, .pmu, .health]
  | .groupSet _ _ => [.free, .parts, .channels, .mem, .ports, .rings, .ringMem, .fw, .pmu, .health]
  | .lbSet _ _ => [.lbs, .rings, .ringMem, .pmu]
  | .lbClear _ _ => [.parts, .lbs, .rings, .ringMem, .pmu]
  | .tableRead _ _ => [.free, .parts, .channels, .far, .mem, .rings, .ringMem, .fw, .pmu, .health]
  | .linkQuery _ _ => [.free, .parts, .channels, .far, .mem, .rings, .ringMem, .fw, .pmu, .health]
  | .snapSet _ _ => [.parts, .rings, .ringMem, .fw, .pmu]
  | .snapRestore _ _ _ => [.free, .parts, .cores, .channels, .far, .mem, .rings, .ringMem, .fw, .pmu, .health]
  | .snapQuery _ _ => [.free, .parts, .channels, .far, .mem, .rings, .ringMem, .fw, .pmu, .health]
  | .setPartner _ _ => [.parts, .ports, .rings, .ringMem, .fw, .pmu]
  | .partnerReply _ _ _ _ _ => [.parts, .ports, .rings, .ringMem, .fw]
  | .partnerTimeout _ => [.parts, .rings, .ringMem]
  | .counterRead _ _ => [.free, .parts, .channels, .far, .mem, .rings, .ringMem, .fw, .pmu, .health]
  | .powerState _ _ => [.parts, .rings, .ringMem, .pmu]
  | .powerCap _ _ => [.rings, .ringMem, .pmu]
  | .healthRead _ _ => [.free, .parts, .channels, .far, .mem, .rings, .ringMem, .fw, .pmu, .health]
  | .debugHalt _ _ => [.cores, .rings, .ringMem, .pmu]
  | .debugResume _ _ => [.parts, .cores, .rings, .ringMem, .pmu]
  | .fwStage _ _ => [.free, .parts, .channels, .mem, .rings, .ringMem, .fw, .pmu, .health, .nvm]
  | .fwCommit _ _ => [.rings, .ringMem, .pmu, .nvm]
  | .fwActivate _ _ => [.parts, .sets, .clms, .utlbs, .faults, .seqs, .lbs, .rings, .ringMem, .fw, .prot, .pmu, .fatal, .nvm, .nvmReqs]
  | .fwConfirm _ _ => [.rings, .ringMem, .fw, .pmu, .nvm]
  | .snapStagingDone _ _ => [.free, .parts, .cores, .channels, .far, .mem, .ports, .rings, .ringMem, .fw, .health, .nvm, .nvmReqs]
  | .snapSlotWritten _ _ => [.parts, .rings, .ringMem, .fw, .nvm]
  | .snapSlotErase _ => [.parts, .nvmReqs]
  | .mirrorDone _ _ => [.parts, .rings, .ringMem, .fw]
  | .mirrorTimeout _ => [.parts, .rings, .ringMem, .fw]
  | .nvmResponse _ _ _ => [.parts, .rings, .ringMem, .fw, .nvm, .nvmReqs]
  | .p1IdleEntry => [.pmu]
  | .dutyAdjust _ => [.pmu]
  | .capWindowEnd _ => [.rings, .ringMem, .fw, .pmu]
  | .droopWarnStart _ => [.pmu]
  | .droopWarnEnd _ => [.parts, .rings, .ringMem, .fw, .pmu]
  | .supplyFailure _ => [.free, .beat, .beatFixed, .parts, .cores, .sets, .clms, .streams, .utlbs, .faults, .seqs, .regions, .regionRegs, .channels, .stackSt, .far, .mem, .memFixed, .ports, .lbs, .ce, .rings, .ringMem, .fw, .prot, .protFixed, .pmu, .pmuFixed, .health, .blk, .fatal, .dbg, .pins, .nvm, .nvmReqs, .latches]
  | .dieTempRead _ => [.parts, .rings, .ringMem, .fw, .pmu, .health, .fatal, .pins]
  | .thermThrottleChange _ => [.pmu]
  | .porAssert => [.free, .beat, .beatFixed, .parts, .cores, .sets, .clms, .streams, .utlbs, .faults, .seqs, .regions, .regionRegs, .channels, .stackSt, .far, .mem, .memFixed, .ports, .lbs, .ce, .rings, .ringMem, .fw, .prot, .protFixed, .pmu, .pmuFixed, .health, .blk, .fatal, .dbg, .pins, .nvm, .nvmReqs, .latches]
  | .porRelease => [.pmu, .fatal, .pins]
  | .resetEntry => [.free, .beat, .beatFixed, .parts, .cores, .sets, .clms, .streams, .utlbs, .faults, .seqs, .regions, .regionRegs, .channels, .stackSt, .far, .mem, .memFixed, .ports, .lbs, .ce, .rings, .ringMem, .fw, .prot, .protFixed, .pmu, .pmuFixed, .health, .blk, .fatal, .dbg, .pins, .nvm, .nvmReqs, .latches]
  | .resetEntryDone => [.pins]
  | .resetRelease _ => [.free, .cores, .channels, .ringMem, .pins]
  | .selfTests _ => [.parts, .cores, .sets, .clms, .streams, .faults, .rings, .ringMem, .fw, .health, .fatal]
  | .hbmTraining _ => [.parts, .channels, .stackSt, .mem, .ports, .rings, .ringMem, .fw, .pmu, .health, .fatal, .pins]
  | .linkTraining _ => [.parts, .channels, .ports, .rings, .ringMem, .fw, .health]
  | .hbmZeroInit _ => [.channels, .rings, .ringMem, .fw, .health]
  | .fwRegionBuild _ => [.regions, .rings, .ringMem, .fw, .fatal]
  | .jtagIrUpdate _ => [.pins]
  | .jtagDebugAccess _ => [.pmu, .dbg, .pins, .latches]
  | .scanPattern _ => [.free, .pins]
  | .latchedLoRead _ _ => [.parts, .rings, .ringMem, .fw, .prot, .latches]
  | .acmDbgGo _ _ => [.beat, .parts, .cores, .sets, .faults, .channels, .mem, .ports, .ce, .rings, .ringMem, .fw, .prot, .pmu, .blk, .dbg]
  | .acmDbgCopyDone _ => [.free, .parts, .cores, .rings, .ringMem, .fw, .dbg]
  | .spmDbgGo _ _ => [.beat, .parts, .cores, .sets, .faults, .channels, .mem, .ports, .ce, .rings, .ringMem, .fw, .prot, .pmu, .blk, .dbg]
  | .spmDbgCopyDone _ => [.parts, .cores, .rings, .ringMem, .fw, .dbg]
  | .telemEnable _ _ _ => [.beat, .parts, .cores, .sets, .faults, .channels, .mem, .ports, .ce, .rings, .ringMem, .fw, .prot, .pmu, .blk, .dbg]
  | .telemTailWrite _ _ _ => [.beat, .parts, .cores, .sets, .faults, .channels, .mem, .ports, .ce, .rings, .ringMem, .fw, .prot, .pmu, .blk, .dbg]
  | .telemStatClear _ _ _ => [.beat, .parts, .cores, .sets, .faults, .channels, .mem, .ports, .ce, .rings, .ringMem, .fw, .prot, .pmu, .blk, .dbg]
  | .spmCstatClear _ _ _ => [.beat, .parts, .cores, .sets, .faults, .channels, .mem, .ports, .ce, .rings, .ringMem, .fw, .prot, .pmu, .blk, .dbg]
  | .mcCstatClear _ _ _ => [.beat, .parts, .cores, .sets, .faults, .channels, .mem, .ports, .ce, .rings, .ringMem, .fw, .prot, .pmu, .blk, .dbg]
  | .trCstatClear _ _ _ => [.beat, .parts, .cores, .sets, .faults, .channels, .mem, .ports, .ce, .rings, .ringMem, .fw, .prot, .pmu, .blk, .dbg]
  | .fqCstatClear _ _ => [.beat, .parts, .cores, .sets, .faults, .channels, .mem, .ports, .ce, .rings, .ringMem, .fw, .prot, .pmu, .blk, .dbg]
  | .lkCstatClear _ _ _ => [.beat, .parts, .cores, .sets, .faults, .channels, .mem, .ports, .ce, .rings, .ringMem, .fw, .prot, .pmu, .blk, .dbg]
  | .ceCstatClear _ _ => [.beat, .parts, .cores, .sets, .faults, .channels, .mem, .ports, .ce, .rings, .ringMem, .fw, .prot, .pmu, .blk, .dbg]
  | .stallCstatClear _ _ _ => [.beat, .parts, .cores, .sets, .faults, .channels, .mem, .ports, .ce, .rings, .ringMem, .fw, .prot, .pmu, .blk, .dbg]
  | .pcntCstatClear _ _ _ => [.beat, .parts, .cores, .sets, .faults, .channels, .mem, .ports, .ce, .rings, .ringMem, .fw, .prot, .pmu, .blk, .dbg]
  | .blkCstatClear _ _ => [.beat, .parts, .cores, .sets, .faults, .channels, .mem, .ports, .ce, .rings, .ringMem, .fw, .prot, .pmu, .blk, .dbg]
  | .hpfStatClear _ _ => [.beat, .parts, .cores, .sets, .faults, .channels, .mem, .ports, .ce, .rings, .ringMem, .fw, .prot, .pmu, .blk, .dbg]
  | .protViolClear _ _ => [.beat, .parts, .cores, .sets, .faults, .channels, .mem, .ports, .ce, .rings, .ringMem, .fw, .prot, .pmu, .blk, .dbg]
  | .registerWrite _ _ _ _ _ => [.beat, .parts, .cores, .sets, .faults, .channels, .mem, .ports, .ce, .rings, .ringMem, .fw, .prot, .pmu, .blk, .dbg]
  | .vuOperation _ => [.parts, .cores, .rings, .ringMem, .fw]
  | .powerTransitionDone => [.free, .parts, .cores, .channels, .stackSt, .far, .mem, .ports, .rings, .ringMem, .fw, .pmu, .health]
  | .fuseAck _ => [.beat, .beatFixed, .regions, .regionRegs, .mem, .memFixed, .fw, .prot, .protFixed, .pmu, .pmuFixed, .fatal, .pins, .nvm]
  | .partnerRequest _ _ _ => [.parts, .ports, .rings, .ringMem, .fw]

end Sys2Proof.Machine
end

