-- ==== Sys2Proof/Certificates/Slice0/Obligations.lean ====
section
/-! DEFINITION. The statements for the provers. `completes c s P` says that command c answers a next state in state s, one with P. -/

open Sys2Proof Sys2Proof.Machine

/-! ### The whole machine -/

/-- A step carries out the command at the front of the queue on the state with the queue's rest; on an empty queue the block idles (the
model's choice, log 2). -/
def Obligations.StepRunsFront : Prop :=
  (∀ (c : Instr) (rest : List Instr) (s : State), s.pending = c :: rest → step s = exec c { s with pending := rest })
  ∧ (∀ s : State, s.pending = [] → step s = .next s)

/-- Every command answers a next state, and changes only the parts of the block that its rules name: its own state, and what events,
completions, reports and counters change. -/
def Obligations.CommandFrame : Prop :=
  ∀ (c : Instr) (s : State), completes c s (onlyChanges (touches c) s)

/-- Once LOCK is 1, every RWL register of the block keeps its value in every step, until the block is reset (R510). -/
def Obligations.LockFreezes : Prop :=
  ∀ s t : State, s.prot.lock = true → (∀ c, s.pending.head? = some c → resetting c = false) → step s = .next t →
    t.lockedView = s.lockedView ∧ t.prot.lock = true

/-- Where LOCK is 1, the configuration passes every check of R516; every step keeps this. -/
def Obligations.LockedPassesChecks : Prop :=
  ∀ s t : State, s.lockSound → step s = .next t → t.lockSound

/-- BEAT_CNT never decreases, in any step but a reset (R46), as long as the counts adopted do not wrap, from every state in which, until
the first acquisition since a reset has completed, BEAT_CNT is 0 and the Beat Unit UNLOCKED or ACQUIRING; and every step keeps this. -/
def Obligations.BeatCountRises : Prop :=
  ∀ s t : State, s.beatSound → step s = .next t →
    t.beatSound
    ∧ (s.countFits → (∀ c, s.pending.head? = some c → resetting c = false) → s.beat.cnt.toNat ≤ t.beat.cnt.toNat)

/-- What the spec gives for block reset: BEAT_CNT 0 and UNLOCKED (R46, R49), FLAG_ACC with no Figure (R117), VOTE_STAT 0 (R220), all
quarters on (R333), every ring DOWN with its doorbell registers 0 (R473 to R476), LOCK and the protection registers 0 (R510 to R526), DUTY
16 and the limits of R550 to R553, the shares of R347 and R349, channels and ports DOWN and a port's peer unknown (R376, R450),
Scratchpads and ACM banks zero (R152, R335), no VALID region; and no command waits. -/
def Obligations.ResetState : Prop :=
  let s := State.reset
  s.pending = [] ∧ s.beat.cnt = 0 ∧ s.beat.lock = .unlocked ∧ s.beat.periodPs = 0
  ∧ (∀ p, (s.part p).firstFig = 0xFFFFFF ∧ (s.part p).flags = Flags.none ∧ (s.part p).voteValid = false
      ∧ (s.part p).quarterOn = 0xF ∧ (s.part p).job = none ∧ (s.part p).run = none ∧ (s.part p).telem.enable = false)
  ∧ (∀ r, s.ring r = Ring.reset) ∧ Ring.reset.state = .down ∧ Ring.reset.prod = 0 ∧ Ring.reset.etail = 0
  ∧ s.prot.lock = false ∧ s.prot.setEn = 0 ∧ s.prot.portEn = 0 ∧ s.prot.ringCfg = 0 ∧ s.prot.hostReq = 0
  ∧ s.pmu.duty = 16 ∧ s.pmu.vnom = 750 ∧ s.pmu.resetMv = 120 ∧ s.pmu.warnMv = 60 ∧ s.pmu.dieTripC = 115 ∧ s.pmu.dieHotC = 100
  ∧ s.mem.farShare = 0x20 ∧ s.mem.bwShare = 0x10101010
  ∧ (∀ n, (s.channel n).state = .down ∧ (s.port n).state = .down ∧ (s.port n).peer = 0x3FF)
  ∧ (∀ c, (s.core c).spm = [] ∧ (s.core c).bank0 = Bank.clear ∧ (s.core c).bank1 = Bank.clear)
  ∧ (∀ k, (s.seq k).state = .free ∧ (s.region k).valid = false)
  ∧ s.lockSound ∧ s.beatSound ∧ s.memWf = true

/-! ### Tempo -/

/-- The lock states of the Beat Unit (R44, R45, R49). The first edge in UNLOCKED enters ACQUIRING. In LOCKED and HOLDOVER an edge within
±50 ns of the predicted one is a beat that adds 1 to BEAT_CNT and leads to LOCKED; any other edge is discarded, sets GLITCH and leaves
BEAT_CNT alone. A beat inserted for a missing edge adds 1, sets MISSED and leads to HOLDOVER, up to 1,024 of them in a row; after those
the unit moves to UNLOCKED. -/
def Obligations.BeatUnitMoves : Prop :=
  ∀ s : State,
    (∀ tNs, s.pins.phase = .running → s.beat.lock = .unlocked → completes (.beatEdge tNs) s (fun t =>
        t = { s with beat := { s.beat with lock := .acquiring, run := [], lastPs := 1000 * tNs, frame := none, armed := [] } }))
    ∧ (∀ tNs, s.pins.phase = .running → (s.beat.lock = .locked ∨ s.beat.lock = .holdover) →
        s.beat.lastPs + s.beat.periodPs ≤ 1000 * tNs + 50000 → 1000 * tNs ≤ s.beat.lastPs + s.beat.periodPs + 50000 →
        completes (.beatEdge tNs) s (fun t => t.beat.cnt = s.beat.cnt + 1 ∧ t.beat.lock = .locked ∧ t.beat.inserted = 0
          ∧ t.beat.lastPs = 1000 * tNs ∧ t.beat.glitch = s.beat.glitch ∧ t.beat.missed = s.beat.missed))
    ∧ (∀ tNs, s.pins.phase = .running → (s.beat.lock = .locked ∨ s.beat.lock = .holdover) →
        (1000 * tNs + 50000 < s.beat.lastPs + s.beat.periodPs ∨ s.beat.lastPs + s.beat.periodPs + 50000 < 1000 * tNs) →
        completes (.beatEdge tNs) s (fun t => t.beat = { s.beat with glitch := true }
          ∧ (∀ p, (t.part p).tempo = (s.part p).tempo) ∧ t.blk.glitch = min 0xFFFF (s.blk.glitch + 1)))
    ∧ ((s.beat.lock = .locked ∨ s.beat.lock = .holdover) → s.beat.inserted < 1024 →
        completes .beatInsert s (fun t => t.beat = { s.beat with
            cnt := s.beat.cnt + 1, lock := .holdover, missed := true, inserted := s.beat.inserted + 1,
            lastPs := s.beat.lastPs + s.beat.periodPs }))
    ∧ (s.beat.lock = .holdover → 1024 ≤ s.beat.inserted →
        completes .holdoverExpiry s (fun t =>
          t.beat = { s.beat with lock := .unlocked, periodPs := 0, run := [], frame := none, armed := [] }))

/-- How a running partition counts beats (R52, R65): from its base beat on, a beat outside a Hold is a schedule beat, numbered BEAT_CNT
less BASE and the Hold beats so far, plus the beat a resumed run began at; a Hold beat adds 1 to HOLD_TOTAL and leaves the schedule beat
where it was. No beat does both. -/
def Obligations.HoldArithmetic : Prop :=
  ∀ (s : State) (p : Nat) (c : Chor) (t : Tempo) (k : BeatKind), (s.part p).tempo.running = true → (s.part p).chor = some c →
    (s.part p).tempo.base.toNat ≤ s.beat.cnt.toNat →
    (s.part p).tempo.advance c.barrier s.beat.cnt = (t, k) →
    let old := (s.part p).tempo
    let new := ((beatPart p s).part p).tempo
    new.sched = t.sched ∧ new.holdTotal = t.holdTotal ∧ new.hold = t.hold ∧ new.base = old.base
    ∧ (k = .schedule → t.sched = s.beat.cnt - old.base - old.holdTotal + BitVec.ofNat 64 old.offset
        ∧ t.holdTotal = old.holdTotal ∧ t.hold = false)
    ∧ (k = .hold ∨ k = .holdFirst → t.sched = old.sched ∧ t.holdTotal = old.holdTotal + 1 ∧ t.hold = true)
    ∧ (k = .schedule ∨ k = .hold ∨ k = .holdFirst)

/-- Frames and reports of the tempo. A beat-count frame whose CRC holds, on a port that carries frames, gives the Beat Unit a count in
ACQUIRING and a count to check in LOCKED and HOLDOVER, and nothing in a standalone block (R46, R47, R48); BEAT_CNT stays. A LATE frame
whose combining beat has not passed joins the partition's requests; one that has missed it sets SPLIT (R66, R67). A Figure that has
raised LATE in 8 consecutive Holds without progress sets STALLED (R70, R89) and starts its count again (the model's choice, log 82). -/
def Obligations.TempoReports : Prop :=
  ∀ s : State,
    (∀ n f, (s.port n).state.carries = true → beatFrameOk f = true → completes (.beatCountFrame n f) s (fun t =>
        t.beat = (if s.beat.standalone ∨ s.beat.lock = .unlocked then s.beat
          else if s.beat.lock = .acquiring ∧ s.beat.frame = none then
            { s.beat with frame := some (fld f.toNat 128 64, 0, (s.port n).peer) }
          else { s.beat with armed := s.beat.armed ++ [(fld f.toNat 128 64, (s.port n).peer)] })))
    ∧ (∀ p n d x len, s.beat.standalone = false → s.portOwner n = some p → (s.port n).state.carries = true →
        (s.part p).tempo.running = true → ((s.sched p).isSome && (s.part p).tempo.missedLate x) = false →
        completes (.lateFrame p n d x len) s (fun t => t.beat = s.beat
          ∧ (t.part p).tempo = { (s.part p).tempo with late := (s.part p).tempo.late ++ [⟨d, x, len⟩] }))
    ∧ (∀ p n d x len, s.beat.standalone = false → s.portOwner n = some p → (s.port n).state.carries = true →
        (s.part p).tempo.running = true → ((s.sched p).isSome && (s.part p).tempo.missedLate x) = true →
        completes (.lateFrame p n d x len) s (fun t => t.beat = { s.beat with split := true }))
    ∧ (∀ p fig c r i, (s.part p).chor = some c → (s.part p).run = some r → c.place fig = some i → 8 ≤ kget 0 r.lateHolds i →
        completes (.figureStalled p fig) s (fun t =>
          t.part p = { s.part p with
            tempo := { (s.part p).tempo with stalled := true }, run := some { r with lateHolds := kset 0 r.lateHolds i 0 } }
          ∧ ∀ q, q ≠ p → t.part q = s.part q))

/-- The Bar boundary (R51, R531, R590): every partition's copy is taken at the boundary's BEAT_CNT, CORE_BEATS as it stands and
KV_PAGE_BEATS as before the boundary's beat; the Bar's error counts and extremes start anew. -/
def Obligations.BarBoundary : Prop :=
  ∀ (s : State) (act : BarActivity), (s.beat.lock = .locked ∨ s.beat.lock = .holdover) → s.beat.cnt.toNat % 64 = 0 →
    (s.part 0).acct.barBeat ≠ s.beat.cnt → completes (.barBoundary act) s (fun t =>
      (∀ p, p < 4 → (t.part p).acct.barBeat = s.beat.cnt ∧ nth (t.part p).acct.bar 0 = nth (s.part p).acct.live 0
        ∧ ((s.part p).acct.live.length = 7 → nth (t.part p).acct.bar 5 = (s.part p).acct.kvEdge))
      ∧ (∀ n, (t.channel n).uesInBar = 0 ∧ (t.port n).uncInBar = 0)
      ∧ t.pmu.dutyMin = s.pmu.duty ∧ t.pmu.dieTempMax = s.pmu.dieTemp ∧ t.pmu.droopPosted = false)

/-! ### Figures -/

/-- A Figure whose inputs are valid and whose turn it is starts (R57, R302): it becomes the last Figure in progress, on its first attempt,
with the beat of its start, and the run goes on to the next place of the list. One that a vote turned into a no-write Figure starts as
such (R219). The premises are those of R57: the block may start it, every earlier Figure it waits for is done, its inputs are valid,
its sequences are not being restored; and, for work, an unfenced core, Claim Counters, VALID resident regions, a valid state record. -/
def Obligations.FigureStarts : Prop :=
  ∀ (s : State) (p fig : Nat) (c : Chor) (r : Run) (f : Figure), (s.part p).chor = some c → (s.part p).run = some r →
    c.figures[r.next]? = some f → f.hdr.figId = fig → s.mayStart p r f = true → earlierDone c r r.next f = true →
    s.inputsValid p c r r.next f = true → s.seqsReady p f = true →
    (isNoWrite c f = true ∨ (f.works = true → s.figHealthy p f.hdr ≠ []) ∧ clmsOf f ≤ (s.freeClms p).length
      ∧ (s.plan p f (s.figHealthy p f.hdr).length none ((producerOf (s.part p) f).map (·.shape))).isSome = true
      ∧ s.regionsReady p f.prog = true
      ∧ (∀ base, stateBaseOf f = some base → ∃ bs, s.table p base 40 = some bs ∧ (StepState.ofBytes bs).ok = true)) →
    completes (.figureStart p fig) s (fun t => ∃ (r' : Run) (a : RunFig), (t.part p).run = some r' ∧ r'.next = r.next + 1
      ∧ r'.active = r.active ++ [a] ∧ a.fig = r.next ∧ a.attempts = 1 ∧ a.startBeat = s.beat.cnt ∧ a.noWrite = isNoWrite c f
      ∧ a.aborting = none ∧ r'.completed = r.completed ∧ ∀ q, q ≠ p → (t.part q).run = (s.part q).run)

/-- A Figure whose outputs are written and whose transfers and chains have gone out completes (R58, R116, R117, R289): it leaves the
Figures in progress and joins the completed ones, its flags are folded into FLAG_ACC, and its Claim Counters are cleared. Here the
iteration goes on. -/
def Obligations.FigureCompletes : Prop :=
  ∀ (s : State) (p fig : Nat) (c : Chor) (r : Run) (a : RunFig) (f : Figure), (s.part p).chor = some c → (s.part p).run = some r →
    (s.part p).active fig = some a → (s.part p).figure a.fig = some f → a.aborting = none → s.outputsDone p f a = true →
    a.bucketDone = true → a.buckets.length ≤ a.bucketNow → (a.buckets = [] ∨ s.storing p fig = false) → (∀ x ∈ c.xfers, x.srcFig = fig →
      x.issued = true) →
    c.chainsSent fig = true → (insAsc r.completed a.fig).length < c.figures.length → r.stopNow = false →
    completes (.figureComplete p fig) s (fun t => ∃ r' : Run, (t.part p).run = some r'
      ∧ r'.active = r.active.filter (fun x => !decide (x.fig = a.fig)) ∧ r'.completed = insAsc r.completed a.fig
      ∧ r'.iteration = r.iteration
      ∧ (t.part p).flags = (s.part p).flags.or (if a.noWrite then Flags.none else a.flags.or (s.slotFlags p fig))
      ∧ (∀ k ∈ a.clms, t.clm k = Clm.clear) ∧ (∀ k, ¬ k ∈ a.clms → t.clm k = s.clm k))

/-- A Figure to be aborted, which is not part of a fused pair (R324, R557, R598): a parity detection leads to its next attempt, and counts
a rerun; any other cause drops it, and stops the run at its next Figure boundary where R557 says so. -/
def Obligations.FigureAborts : Prop :=
  ∀ (s : State) (p fig : Nat) (r : Run) (a : RunFig) (f : Figure) (cause : AbortCause), (s.part p).run = some r →
    (s.part p).active fig = some a → a.aborting = some cause → abortGroup (s.part p) r a.fig = [(a, f)] → f.hdr.figId = fig →
    (causeReruns cause = true → completes (.figureAbort p fig) s (fun t => ∃ a', (t.part p).active fig = some a'
        ∧ a'.attempts = a.attempts + 1 ∧ a'.aborting = none ∧ a'.fig = a.fig
        ∧ a'.committed = (if f.hdr.rerunOk then [] else a.committed)
        ∧ (t.part p).cnt.reruns = min 0xFFFF ((s.part p).cnt.reruns + 1)))
    ∧ (causeReruns cause = false → causeStop cause = none → r.stopNow = false → completes (.figureAbort p fig) s (fun t =>
        ∃ r' : Run, (t.part p).run = some r' ∧ r'.active.map (·.fig) = (r.active.map (·.fig)).filter (fun i => !decide (i = a.fig))
        ∧ r'.stopNow = false ∧ (t.part p).cnt.aborts = min 0xFFFF ((s.part p).cnt.aborts + 1)))
    ∧ (∀ code, causeReruns cause = false → causeStop cause = some code → r.stopNow = false →
        r.active.any (fun x => !decide (x.fig = a.fig)) = true → completes (.figureAbort p fig) s (fun t =>
        ∃ r' : Run, (t.part p).run = some r' ∧ r'.active.map (·.fig) = (r.active.map (·.fig)).filter (fun i => !decide (i = a.fig))
        ∧ r'.stopNow = true ∧ r'.stopCause = code))

/-- The phases of a Figure in progress (R193, R246, R265, R272, R273): phases 1 and 2 of a backward Figure start once phase 0 is done, its
later counters being free again; the merge of a decode Figure once its sweep is done; the next bucket once the one before is done and
written and the appends that come first are issued, its items going round robin to the unfenced cores; and the appends are listed when
they are due. -/
def Obligations.FigurePhases : Prop :=
  ∀ (s : State) (p fig : Nat) (a : RunFig) (f : Figure), (s.part p).active fig = some a → (s.part p).figure a.fig = some f →
    a.aborting = none →
    (∀ x y, f.par = .backward x y → a.phase = 0 → a.noWrite = false → a.firstDone = true →
      completes (.backwardPhaseStart p fig) s (fun t => (t.part p).active fig = some { a with phase := 1 }
        ∧ ∀ k, t.clm k = if k ∈ a.clms.drop 1 then Clm.clear else s.clm k))
    ∧ (∀ x y, f.par = .decode x y → y.bucket = false → a.phase = 0 → a.noWrite = false → a.firstDone = true →
      completes (.mergePhaseStart p fig) s (fun t => (t.part p).active fig = some { a with phase := 1 }))
    ∧ (∀ b, a.buckets[a.bucketNow]? = some b → a.bucketDone = true → s.storing p fig = false → appendsDone f a 1 = true →
      completes (.bucketStart p fig) s (fun t =>
        ∃ a', (t.part p).active fig = some a' ∧ a'.bucketNow = a.bucketNow + 1
        ∧ a'.assign = assignBucket (s.figHealthy p f.hdr) b ∧ a'.committed = a.committed))
    ∧ ((if f.hdr.append = 1 then a.committed = [] ∧ ∀ k ∈ a.clms, (s.clm k).next = 0 else f.hdr.append = 2 ∧ a.total ≤ a.retired) →
        a.appended = false → a.noWrite = false → completes (.appendPhase p fig) s (fun t =>
          (t.part p).active fig = some { a with appended := true, appendLeft := appendsOf f a }))

/-- The control operations of a Figure in progress (R221, R247, R327), each carried out once: SCALE_STEP, once its vote is latched, writes
the stepped record back, or, with T at its largest value, leaves it. With a clear vote T and GOOD rise by 1 and the powers of the moments'
factors advance, and LOSS doubles up to its limit each GROWTH steps; with a vote that is not clear LOSS halves down to its limit and T
stays. KV_COMMIT raises LEN of the sequence its batch reserved by k, within RES_END, and leaves every other sequence; RES_RELOAD makes its
region EMPTY. -/
def Obligations.ControlOperations : Prop :=
  (∀ x : StepState,
      ((scaleStep true x).t = x.t + 1
        ∧ (scaleStep true x).p1 = (vu32 .mul false x.p1 x.b1 Machine.Num.zero).1
          ∧ (scaleStep true x).p2 = (vu32 .mul false x.p2 x.b2 Machine.Num.zero).1
        ∧ (x.growth ≠ 0 ∧ (x.good + 1) % 2 ^ 32 = x.growth →
            (scaleStep true x).good = 0
            ∧ (scaleStep true x).loss = if numLe (x.loss.scale 1) x.hi then x.loss.scale 1 else x.hi)
        ∧ (¬ (x.growth ≠ 0 ∧ (x.good + 1) % 2 ^ 32 = x.growth) →
            (scaleStep true x).good = (x.good + 1) % 2 ^ 32 ∧ (scaleStep true x).loss = x.loss))
      ∧ (scaleStep false x).t = x.t ∧ (scaleStep false x).good = 0
      ∧ (scaleStep false x).p1 = x.p1 ∧ (scaleStep false x).p2 = x.p2
      ∧ (scaleStep false x).loss = if numLe x.lo (x.loss.scale (-1)) then x.loss.scale (-1) else x.lo)
  ∧ ∀ (s : State) (p fig : Nat) (a : RunFig) (f : Figure) (c : Chor), (s.part p).active fig = some a → (s.part p).chor = some c →
    (s.part p).figure a.fig = some f → a.aborting = none → a.opDone = false →
    (∀ va bs, f.par = .scaleStep va → s.table p va 40 = some bs → (governing c f.hdr).any (·.latched) = true →
      completes (.scaleStep p fig) s (fun t =>
        t = modActive p fig (fun a => { a with opDone := true })
          (if clearFor c f.hdr = true ∧ 2 ^ 32 - 1 ≤ (StepState.ofBytes bs).t then postEvent p 0x17 (payloadOf fig 0 0) s
           else writeVa p false va (scaleStep (clearFor c f.hdr) (StepState.ofBytes bs)).bytes s)))
    ∧ (∀ va i k, f.par = .kvCommit va → (s.part p).reserved = [⟨va, [(i, k, true)]⟩] → s.seqLive p i = true →
        completes (.kvCommit p fig) s (fun t => (t.part p).active fig = some { a with opDone := true }
          ∧ (t.seq (seqSlot i)) = { s.seq (seqSlot i) with
              len := max (s.seq (seqSlot i)).len (min ((s.seq (seqSlot i)).len + k) (s.seq (seqSlot i)).resEnd) }
          ∧ ∀ j, j ≠ seqSlot i → t.seq j = s.seq j))
    ∧ (∀ id, f.par = .resReload id → completes (.resReload p fig) s (fun t => (t.part p).active fig = some { a with opDone := true }
        ∧ (t.part p).residents = (s.part p).residents.map (fun r => if r.resId = id then { r with valid := false } else r)))

/-! ### The Matrix Array -/

/-- A value that is a multiple of 2^G is placed on the grid exactly and sets no INX; any other is placed at the nearest multiple, the even
one of two, and sets INX (R135). A K-step of one-piece operands whose products are multiples of the grid adds its exact dot product to an
untagged element, and saturates at the range of R136 (R131, R133, R137, R138). -/
def Obligations.AccumulationExact : Prop :=
  (∀ x e g : Int,
      (g ≤ e → placeOn x e g = (x * 2 ^ (e - g).toNat, false))
      ∧ (e < g → 2 * |x - (placeOn x e g).1 * 2 ^ (g - e).toNat| ≤ 2 ^ (g - e).toNat
          ∧ (2 * |x - (placeOn x e g).1 * 2 ^ (g - e).toNat| = 2 ^ (g - e).toNat → (placeOn x e g).1 % 2 = 0)
          ∧ ((placeOn x e g).2 = true ↔ ¬ (2 ^ (g - e).toNat : Int) ∣ x)))
  ∧ ∀ (g : Int) (first : Bool) (a b : Grp) (u v : List Int) (w : Work), a.ps = [u] → b.ps = [v] → (∀ k, k < 32 → nth a.tags k = 0) →
    (∀ k, k < 32 → nth b.tags k = 0) → w.tag = 0 → g ≤ a.e + b.e →
    let r := addGroup g first a b w
    let sum := w.x + dot u v * 2 ^ (a.e + b.e - g).toNat
    r.tag = 0 ∧ r.inx = w.inx ∧ r.inv = w.inv
    ∧ (accMin ≤ sum → sum ≤ accMax → r.x = sum ∧ r.sat = w.sat)
    ∧ (accMax < sum → r.x = accMax ∧ r.sat = true)
    ∧ (sum < accMin → r.x = accMin ∧ r.sat = true)

/-- An array operation (R128 to R138) that the tile program in work issues now, as step `st`, or that no program orders: the rows that the
row mask lets it compute take the works of their K-steps, on the bank's grid or the one it sets; the rows beyond stay, or are 0 when it
overwrites. The other bank, the Scratchpad bytes and every other core stay. Two words that R130 rejects change nothing but report
MXA_INVALID and ask for the Figure's abort. An operation that the program in work does not issue now has no effect. -/
def Obligations.ArrayOperation : Prop :=
  ∀ (s : State) (c slot p fig : Nat) (w0 w1 : BitVec 64) (m : MxaMeet), s.issuing c slot = some (p, fig) →
    (∀ o, arrayDecode s.cfg.spmRows w0 w1 = some o → (s.admitMxa c slot o).runs s = none →
      completes (.mxaOp c slot w0 w1 m) s (fun t => t = s))
    ∧ (∀ o st u, arrayDecode s.cfg.spmRows w0 w1 = some o → (s.admitMxa c slot o).runs s = some (st, u) →
      completes (.mxaOp c slot w0 w1 m) s (fun t =>
      let old := (s.core c).bank o.bank
      let new := (t.core c).bank o.bank
      let g := if o.add then old.grid else o.grid.getD (naturalGrid o)
      let n := min 128 (32 * (s.core c).rowMask)
      new.grid = g
      ∧ (∀ i j, i < n → j < 128 → ∃ x, (s.mxaWork c o g n)[i]?.bind (·[j]?) = some x
          ∧ new.at i j = ⟨BitVec.ofInt 128 x.x, numTag x.tag⟩)
      ∧ (∀ i j, n ≤ i → i < 128 → j < 128 → new.at i j = if o.add then old.at i j else Elem.zero)
      ∧ (o.add = true → old.sat = true → new.sat = true)
      ∧ (t.core c).bank (1 - o.bank) = (s.core c).bank (1 - o.bank) ∧ (t.core c).spm = (s.core c).spm ∧ othersSame c s t))
    ∧ (arrayDecode s.cfg.spmRows w0 w1 = none → completes (.mxaOp c slot w0 w1 m) s (fun t =>
        t = askAbort p fig (.mxaInvalid c) (postEvent p 0x20 (payloadOf fig c 0) s)))

/-- A drain (R139, R140, R141) that the tile program in work issues now, as step `st`, or that no program orders: the rows' elements,
converted, lie in the Scratchpad from the destination row on, 0 where the step has no result; with a row-scale plane each row's scale lies
in it, and without one every other byte stays. The bank keeps its elements, its grid and its ACM_SAT, and every other core stays. A drain
that the program does not issue now, or whose multipliers a row-scale plane refuses, has no effect. -/
def Obligations.AcmDrains : Prop :=
  ∀ (s : State) (o : DrainOp) (p fig : Nat), s.issuing o.core o.slot = some (p, fig) → drainOk o = true →
    (s.rsMulOk o = false ∨ (s.admitDrain o).runs s = none → completes (.acmDrain o) s (fun t => t = s))
    ∧ (∀ st u, s.rsMulOk o = true → (s.admitDrain o).runs s = some (st, u) → completes (.acmDrain o) s (fun t =>
      let codes := ((List.range o.count).map (o.first + ·)).flatMap (fun i => (List.range 128).map (fun j =>
        if s.drainsZero o.core st i j then 0 else (s.drainElem p fig o i j).1))
      let bytes := packCodes o.dst codes
      ((o.rsRow = none ∨ ∃ r, o.rsRow = some r ∧ ¬ r ∈ rowsOf (512 * o.dstRow) bytes.length) → t.spmHolds o.core (512 * o.dstRow) bytes)
      ∧ (∀ r i, o.rsRow = some r → i < o.count → t.spmHolds o.core (512 * r + 4 * (o.first + i))
          (leBytes 4 (toTwos 32 (drainGrid st ((s.core o.core).bank o.bank) + 48))))
      ∧ (o.rsRow = none → spmKept o.core (512 * o.dstRow) bytes.length s t)
      ∧ ((t.core o.core).bank o.bank).elems = ((s.core o.core).bank o.bank).elems
      ∧ ((t.core o.core).bank o.bank).grid = ((s.core o.core).bank o.bank).grid
      ∧ ((t.core o.core).bank o.bank).sat = ((s.core o.core).bank o.bank).sat
      ∧ othersSame o.core s t))

/-- The operations that set a bank (R140, R142, R143), a fill and a shift as the tile program in work issues them, as step `st`, or where no
program orders them: a fill places each source value on the grid it sets, 0 where the step has no data; a shift takes the floor of
each untagged element divided by 2^d and leaves tags, grid and ACM_SAT; a clear zeroes the bank with grid −48; ACM_STATUS returns GRID and
ACM_SAT. The Scratchpad bytes and every other core stay. A fill or shift that the program does not issue now has no effect. -/
def Obligations.AcmBanks : Prop :=
  (∀ (s : State) (o : FillOp) (p fig : Nat), s.issuing o.core o.slot = some (p, fig) →
      (o.src = .fp32 ∨ o.src = .int32 ∨ o.src = .xs128) → (o.rsRow.isSome = true → o.src = .xs128) → -16432 ≤ o.grid → o.grid ≤ 16335 →
      ((s.admitFill o).runs s = none → completes (.acmFill o) s (fun t => t = s))
      ∧ ∀ st u, (s.admitFill o).runs s = some (st, u) → completes (.acmFill o) s (fun t =>
        (∀ i j, i < 128 → j < 128 →
          let w := fillElem o.grid (if realRow st i && realCol st j then
            fmtDecode o.src (s.spmCode o.core o.src (512 * o.srcRow) (128 * i + j)) 0 (s.fillRs o i) else Machine.Num.zero)
          ((t.core o.core).bank o.bank).at i j = ⟨BitVec.ofInt 128 w.x, numTag w.tag⟩)
        ∧ ((t.core o.core).bank o.bank).grid = o.grid ∧ (t.core o.core).spm = (s.core o.core).spm ∧ othersSame o.core s t))
  ∧ (∀ (s : State) (c slot bank row p fig : Nat), s.issuing c slot = some (p, fig) →
      ((s.admitShift c slot bank row).runs s = none → completes (.acmShift c slot bank row) s (fun t => t = s))
      ∧ ∀ st u, (s.admitShift c slot bank row).runs s = some (st, u) → completes (.acmShift c slot bank row) s (fun t =>
        let old := (s.core c).bank bank
        let new := (t.core c).bank bank
        (∀ i j, i < 128 → j < 128 → new.at i j =
          if (old.at i j).tag = .fin then
            ⟨BitVec.ofInt 128 ((old.at i j).x.toInt / 2 ^ min 127 (s.spmI32 c (512 * row) i).toNat), .fin⟩
          else old.at i j)
        ∧ new.grid = old.grid ∧ new.sat = old.sat ∧ (t.core c).spm = (s.core c).spm ∧ othersSame c s t))
  ∧ (∀ (s : State) (c bank : Nat), (s.core c).fenced = false → (s.core c).halted = false →
      completes (.acmClear c bank) s (fun t => (t.core c).bank bank = Bank.clear ∧ (t.core c).spm = (s.core c).spm ∧ othersSame c s t)
      ∧ ∀ reg, completes (.acmStatus c bank reg) s (fun t =>
          kget 0 (t.core c).regs reg
            = BitVec.ofNat 64 (toTwos 16 ((s.core c).bank bank).grid + b2n ((s.core c).bank bank).sat * 2 ^ 16)
          ∧ (t.core c).bank bank = (s.core c).bank bank ∧ (t.core c).spm = (s.core c).spm ∧ othersSame c s t))

/-! ### The VU -/

/-- The conversions between the two E4M3 conventions (R106): every code with exponent field 1110 or less passes through. From the other
convention, exponent 1111 overflows to ±∞, or to ±240 with SAT, and its NaN is 0x7F; to it, ±∞ becomes ±448 with OVF under SAT, else 0x7F
with INV, and NaN becomes 0x7F. The results lie at the destination; nothing else of the Scratchpad and no other core changes. -/
def Obligations.E4m3Conventions : Prop :=
  (∀ sat c, c < 256 → fld c 3 4 ≠ 15 → fromE4m3x sat c = (c, Flags.none) ∧ toE4m3x sat c = (c, Flags.none))
  ∧ (∀ sat m sg, m < 7 → sg < 2 → fromE4m3x sat (sg * 128 + 120 + m) = (sg * 128 + (if sat then 0x77 else 0x78), ⟨true, false, true, false⟩))
  ∧ (∀ sat sg, sg < 2 → fromE4m3x sat (sg * 128 + 127) = (0x7F, Flags.none))
  ∧ (∀ sg, sg < 2 → toE4m3x true (sg * 128 + 120) = (sg * 128 + 0x7E, ⟨true, false, false, false⟩)
      ∧ toE4m3x false (sg * 128 + 120) = (0x7F, ⟨false, false, false, true⟩))
  ∧ (∀ sat m sg, 0 < m → m < 8 → sg < 2 → toE4m3x sat (sg * 128 + 120 + m) = (0x7F, Flags.none))
  ∧ (∀ (s : State) (c slot p fig : Nat) (sat : Bool) (count src dst : Nat), s.issuing c slot = some (p, fig) →
      completes (.cvtFromE4m3x c slot sat count src dst) s (fun t =>
        t.spmHolds c (512 * dst) ((s.spmBytes c (512 * src) count).map (fun b => BitVec.ofNat 8 (fromE4m3x sat b.toNat).1))
        ∧ spmKept c (512 * dst) count s t ∧ othersSame c s t)
      ∧ completes (.cvtToE4m3x c slot sat count src dst) s (fun t =>
        t.spmHolds c (512 * dst) ((s.spmBytes c (512 * src) count).map (fun b => BitVec.ofNat 8 (toE4m3x sat b.toNat).1))
        ∧ spmKept c (512 * dst) count s t ∧ othersSame c s t))

/-- ROPE (R162) from the position that its Figure's length table gives the rows: a pair (a, b) becomes fma(a, cos, −(b·sin)) and fma(a,
sin, b·cos), and the converted rows lie at the destination. SPLIT (R146, R147) writes its slab, from the destination row on, and nothing
else of the Scratchpad. -/
def Obligations.RopeAndSplit : Prop :=
  (∀ a b co si : Machine.Num, (ropePair a b co si).1.1
        = (vuOp .fma fFP32 false .rne a co (vuOp .mul fFP32 false .rne b si Machine.Num.zero).1.neg).1
      ∧ (ropePair a b co si).2.1 = (vuOp .fma fFP32 false .rne a si (vuOp .mul fFP32 false .rne b co Machine.Num.zero).1).1)
  ∧ (∀ (s : State) (o : RopeOp) (p fig : Nat), s.issuing o.core o.slot = some (p, fig) → s.ropeOk o = true → completes (.rope o) s (fun t =>
      let bytes := packCodes o.dstFmt ((List.range o.rows).flatMap (fun i => (s.ropeRow p fig o i).1))
      t.spmHolds o.core (512 * o.dstRow) bytes ∧ spmKept o.core (512 * o.dstRow) bytes.length s t
      ∧ (t.core o.core).bank0 = (s.core o.core).bank0 ∧ (t.core o.core).bank1 = (s.core o.core).bank1 ∧ othersSame o.core s t))
  ∧ (∀ (s : State) (o : SplitOp) (p fig n : Nat), s.issuing o.core o.slot = some (p, fig) → piecesOf o.fmt = some n →
      completes (.vuSplit o) s (fun t =>
        let slab := slabOf n o.groups (fun m k => s.spmVal o.core o.fmt o.srcRow (m * (32 * o.groups) + k) 0)
        (∀ st l, slab[st]? = some l → t.spmHolds o.core (512 * (o.dstRow + splitRows n * st)) (splitBytes n l))
        ∧ spmKept o.core (512 * o.dstRow) (512 * (splitRows n * o.groups)) s t ∧ othersSame o.core s t))

/-- Elementwise arithmetic and the other VU operations (R101, R118 to R122, R172): the results lie at the destination, packed; resetting
the rows, where the tile program in work does so now or none orders it, gives every query row no maximum and an empty sum; a scalar write
merges its bytes; and whatever the operation, the ACM banks of the core and every other core
stay. -/
def Obligations.VuOperations : Prop :=
  (∀ (s : State) (o : ArithOp) (f : FloatFmt) (p fig : Nat), s.issuing o.core o.slot = some (p, fig) → vuFmt o.fmt = some f →
      vuRndOk o.strict o.rnd = true → completes (.vuOperation (.arith o)) s (fun t =>
        let v (row i : Nat) : Machine.Num := f.decode (s.spmCode o.core o.fmt (512 * row) i)
        let bytes := packCodes o.fmt ((List.range o.count).map (fun i =>
          f.encode (vuOp o.fn f o.strict o.rnd (v o.aRow i) (v o.bRow i) (v o.cRow i)).1))
        t.spmHolds o.core (512 * o.dstRow) bytes ∧ spmKept o.core (512 * o.dstRow) bytes.length s t))
  ∧ (∀ (s : State) (c : Nat) (strict : Bool), (s.core c).fenced = false → (s.core c).halted = false →
      ((s.admission c 0 0 (fun _ => .resetRows strict) []).runs s).isSome = true → completes (.vuOperation (.resetRows c strict)) s (fun t =>
        ∀ i, i < 128 → (t.core c).row i = ⟨none, 0, eP strict, false, false⟩))
  ∧ (∀ (s : State) (c slot byte p fig : Nat) (bs : List Byte), s.issuing c slot = some (p, fig) →
      completes (.vuOperation (.scalarWrite c slot byte bs)) s (fun t => t.spmHolds c byte bs ∧ spmKept c byte bs.length s t))
  ∧ (∀ (s : State) (o : VuOp) (c : Nat), (match o with
        | .arith o => o.core
        | .convert o => o.core
        | .resetRows c _ => c
        | .softmax o => o.core
        | .finish o => o.core
        | .output o => o.core
        | .stateRecords c _ _ _ => c
        | .merge o => o.core
        | .rowTerm o _ _ _ _ _ => o.core
        | .probs o => o.core
        | .dsForm o => o.core
        | .scalarWrite c _ _ _ => c) = c →
      completes (.vuOperation o) s (fun t =>
        (t.core c).bank0 = (s.core c).bank0 ∧ (t.core c).bank1 = (s.core c).bank1 ∧ othersSame c s t))

/-- OPT_ADAM (R213, R214): each parameter of the run becomes the one the steps of R214 give, from the Figure's constants and the element's
moments; without compensation the new parameters are what the operation writes last, with it the new compensation terms are. Nothing
outside the core changes but counters, events and the Figure's flags. -/
def Obligations.OptAdamRuns : Prop :=
  ∀ (s : State) (o : AdamOp) (p fig : Nat) (a : RunFig) (f : Figure) (q : OptParams) (bs : List Byte) (gf tfm : Fmt) (tf : FloatFmt),
    s.issuing o.core o.slot = some (p, fig) → (s.part p).active fig = some a → (s.part p).figure a.fig = some f → f.par = .optimiser q →
    s.readVa p (q.stateBase % 2 ^ 52) 40 = .ok bs → fmtOf q.gFmt = some gf → fmtOf q.thetaFmt = some tfm → vuFmt tfm = some tf →
    completes (.optAdam o) s (fun t =>
      let el (i : Nat) := adamElem q (adamConst q (StepState.ofBytes bs)) tf (s.spmVal o.core gf o.gRow i o.gRs)
        (s.spmElem o.core .bs8 o.mRow o.mSc o.count 0 0 i) (s.spmElem o.core .bs8 o.rRow o.rSc o.count 0 0 i)
        (s.spmVal o.core tfm o.thRow i 0) (s.spmVal o.core .bf16 o.cRow i 0)
      (q.comp = false → t.spmHolds o.core (512 * o.thRow) (packCodes tfm ((List.range o.count).map (fun i => tf.encode (el i).2.2.1))))
      ∧ (q.comp = true → t.spmHolds o.core (512 * o.cRow) (packCodes .bf16 ((List.range o.count).map (fun i =>
          fBF16.encode (el i).2.2.2.1))))
      ∧ (t.core o.core).bank0 = (s.core o.core).bank0 ∧ (t.core o.core).bank1 = (s.core o.core).bank1 ∧ othersSame o.core s t)

/-! ### Claims -/

/-- What a claim takes from a counter (R290, R293): at most z indices, each from the return queue, or at or past NEXT, below the new
NEXT and not committed before; NEXT passes no index that is neither taken nor committed, stays within LIMIT, and LIMIT stays. So no index
is handed out twice from NEXT. -/
def Obligations.ClaimsTakeInOrder : Prop :=
  ∀ (k k' : Clm) (done got : List Nat) (z : Nat), 0 < z → k.next ≤ k.limit → takeItems k done z = (got, k') →
    got.length ≤ z ∧ k'.limit = k.limit ∧ k.next ≤ k'.next ∧ k'.next ≤ k.limit
    ∧ (∀ i ∈ got, i ∈ k.queue ∨ (k.next ≤ i ∧ i < k'.next ∧ ¬ i ∈ done))
    ∧ (∀ i, k.next ≤ i → i < k'.next → i ∈ got ∨ i ∈ done)
    ∧ (k.queue ≠ [] → z = 1 → k'.next = k.next ∧ got = k.queue.take 1)

/-- Loading and claiming (R290, R291, R294, R526). CLM_LOAD sets LIMIT to the number of the counter's items, clears NEXT, the return queue
and RETIRED, and records the Figure. A claim by a core that may claim takes its items and answers them, or answers EMPTY while items are
still to retire and DONE after. A core outside the Figure's mask is answered EMPTY, the counter stays, and the claim is counted and
recorded. -/
def Obligations.ClaimCounters : Prop :=
  ∀ (s : State) (k : Nat) (a : RunFig) (f : Figure), s.clmFig k = some (a, f) →
    ((s.clm k).loaded = false → a.aborting = none → loadDue f a k = true →
      completes (.clmLoad k (a.countOf f k) (k / 16) f.hdr.figId) s (fun t =>
        t.clm k = ⟨true, a.countOf f k, 0, [], [], 0, f.hdr.figId, k / 16, false, []⟩ ∧ (∀ j, j ≠ k → t.clm j = s.clm j)))
    ∧ (∀ c z cs, (s.core c).fenced = false → (s.core c).halted = false → s.pmu.dieLevel ≠ 2 → (s.figCores (k / 16) f.hdr).contains c = true →
        a.aborting = none → (s.core c).poisoned = false → appendsDone f a 1 = true → (s.clm k).loaded = true →
        a.claimants f c z = some cs →
        (∀ d ∈ cs, ((s.core d).held.filter (fun h => decide (h.1 = k))).length < 2) →
        completes (.clmClaim c k z) s (fun t =>
          let r := takeItems (s.clm k) ((a.committed.filter (fun y => decide (y.1 = itemKey f a k))).map (·.2)) z
          t.clm k = r.2 ∧ (∀ j, j ≠ k → t.clm j = s.clm j)
          ∧ (t.core c).answer = some (if r.1 = [] then (if r.2.retired < r.2.limit then .empty else .done) else .items r.1)
          ∧ (r.1 = [] → (t.core c).held = (s.core c).held)
          ∧ (∀ i, r.1 = [i] → cs = [c] → (t.core c).held = (s.core c).held ++ [(k, i)])))
    ∧ (∀ c z, (s.core c).fenced = false → (s.core c).halted = false → s.pmu.dieLevel ≠ 2 → (s.figCores (k / 16) f.hdr).contains c = false →
        completes (.clmClaim c k z) s (fun t => (t.core c).answer = some .empty ∧ (∀ j, t.clm j = s.clm j)
          ∧ (t.core c).held = (s.core c).held ∧ t.prot.violValid = true ∧ t.prot.violCount = min 0xFFFF (s.prot.violCount + 1)))

/-- Committing, retiring, returning and releasing (R116, R290, R292, R293). A commit of the item in work, its program issued to the end,
of a Figure that is no forward attention Figure and no fused pair joins the item and the slot's flags to the Figure's record; a retirement
adds 1 to RETIRED, signals at LIMIT and drops the held item; a return puts the index into the return queue, or keeps it while that holds
128; a release clears the counter. -/
def Obligations.ItemsRetire : Prop :=
  ∀ (s : State) (k : Nat),
    (∀ (a : RunFig) (f : Figure), s.clmFig k = some (a, f) → ∀ c item,
      (∀ slot, (∀ x, f.par ≠ .attn x) → s.commitGroup (k / 16) a = [(a, f)] → (s.part (k / 16)).active f.hdr.figId = some a →
        (s.core c).fenced = false → (s.core c).halted = false → s.pmu.dieLevel ≠ 2 → (s.core c).poisoned = false →
        (s.core c).held.contains (k, item) = true → a.committed.contains (itemKey f a k, item) = false →
        (primeItem c s).itemFinished c (itemKey f a k) item = true → completes (.itemCommit c k item slot) s (fun t =>
          (t.part (k / 16)).active f.hdr.figId = some { a with
            flags := a.flags.or (((primeItem c s).core c).slot f.slot).item, committed := a.committed ++ [(itemKey f a k, item)] }
          ∧ ((t.core c).slot f.slot).item = Flags.none ∧ othersSame c s t))
      ∧ ((s.core c).held.contains (k, item) = true → a.committed.contains (itemKey f a k, item) = true →
          s.storeWaits c (k / 16) f.hdr.figId = false → completes (.clmRetire c k item) s (fun t =>
            t.clm k = { s.clm k with
              retired := (s.clm k).retired + 1
              signalled := (s.clm k).signalled || decide ((s.clm k).limit ≤ (s.clm k).retired + 1) }
            ∧ (∀ j, j ≠ k → t.clm j = s.clm j) ∧ (t.core c).held = (s.core c).held.erase (k, item) ∧ othersSame c s t))
      ∧ ((s.clm k).loaded = true → item < (s.clm k).next → a.committed.contains (itemKey f a k, item) = false →
          (s.clm k).queue.contains item = false → (s.clm k).kept.contains item = false →
          (∀ c ∈ s.partCores (k / 16), (s.core c).fenced = false → (s.core c).held.contains (k, item) = false) →
          completes (.clmReturn k item) s (fun t => (∀ j, j ≠ k → t.clm j = s.clm j)
            ∧ t.clm k = if (s.clm k).queue.length < 128 then
                { s.clm k with returned := insAsc (s.clm k).returned item, queue := insAsc (s.clm k).queue item }
              else { s.clm k with returned := insAsc (s.clm k).returned item, kept := (s.clm k).kept ++ [item] })))
    ∧ ((s.clm k).loaded = true → (s.clm k).signalled = true → completes (.clmRelease k) s (fun t =>
        t.clm k = Clm.clear ∧ ∀ j, j ≠ k → t.clm j = s.clm j))

/-! ### Scratchpads -/

/-- Fills, copies and multicast stages (R31, R297, R311 to R313). A fill writes its pattern, a copy the source rows as they were before,
overlap or not; every other byte and core stays. Rows that do not exist or are powered down change no byte: SPM_RANGE is reported, INV set
for a row that is down, and the Figure is to abort. A stage lands a fetched line, over the zeros of the slab's rows, in every unfenced
member of the stream's set, once each has read what the stage before left there. -/
def Obligations.ScratchpadWrites : Prop :=
  ∀ s : State,
    (∀ c slot ch p fig n, s.issuing c slot = some (p, fig) → s.channelFree c ch = true → rowCountOk n = true →
      (∀ first pat, s.rowsOn c first n = true → completes (.spmFill c slot ch first n pat) s (fun t =>
          t.spmHolds c (512 * first) ((List.replicate (128 * n) (leBytes 4 pat.toNat)).flatten)
          ∧ spmKept c (512 * first) (512 * n) s t ∧ othersSame c s t))
      ∧ (∀ first pat, s.rowsOn c first n = false → completes (.spmFill c slot ch first n pat) s (fun t => t = rangeAbort p fig c slot (rowRun first n) s))
      ∧ (∀ src dst, s.rowsOn c src n = true → s.rowsOn c dst n = true → completes (.spmCopy c slot ch src dst n) s (fun t =>
          t.spmHolds c (512 * dst) (s.spmBytes c (512 * src) (512 * n))
          ∧ spmKept c (512 * dst) (512 * n) s t ∧ othersSame c s t))
      ∧ (∀ src dst, (s.rowsOn c src n && s.rowsOn c dst n) = false →
          completes (.spmCopy c slot ch src dst n) s (fun t =>
            t = rangeAbort p fig c slot (rowRun src n ++ rowRun dst n) s)))
    ∧ (∀ (i tile row rows : Nat) (x : LineReq) (bs : List Byte),
        let m := s.stream i
        let live := m.mcast.filter (fun c => !(s.core c).fenced)
        let dst := (List.range rows).map (row + ·) ++ rowsOf x.spmByte x.bytes
        s.tileComes i tile rows = true → s.castsTiles i = true → s.tileLines i tile = [x] → x.data = some bs → m.conv = .raw →
        ((∀ c ∈ live, ∀ r ∈ dst, ¬ r ∈ (s.core c).staged) → completes (.multicastStageIssue m.part m.fig i tile ⟨row, rows⟩) s (fun t =>
          let got := (s.delivered m x.va bs).1
          (∀ c ∈ live, t.spmHolds c x.spmByte got ∧ ∀ b, (b < 512 * row ∨ 512 * (row + rows) ≤ b) →
              (b < x.spmByte ∨ x.spmByte + got.length ≤ b) → kget 0 (t.core c).spm b = kget 0 (s.core c).spm b)
          ∧ (∀ c, ¬ c ∈ live → (t.core c).spm = (s.core c).spm) ∧ (t.stream i).ready = m.ready ++ [tile]))
        ∧ (∀ c r, c ∈ live → r ∈ dst → r ∈ (s.core c).staged → completes (.multicastStageIssue m.part m.fig i tile ⟨row, rows⟩) s (fun t => t = s)))

/-- Receive windows (R314 to R316). A take is granted when the window has the rows and nobody waits, and else waits with its channel; the
oldest waiting take is granted once the rows suffice; a return adds its rows, held to ROWS with INV; a row that the window admits is
written where it says, and any other writes nothing, reports SPM_WINDOW_FAULT and aborts its writer's Figure. -/
def Obligations.ReceiveWindows : Prop :=
  ∀ (s : State) (c win : Nat),
    let x := kget Window.closed (s.core c).windows win
    (∀ w ch n, x.isOpen = true → (s.core w).fenced = false → (s.core w).halted = false → s.channelFree w ch = true →
      completes (.credTake w ch c win n) s (fun t =>
        kget Window.closed (t.core c).windows win =
          (if x.waiting = [] ∧ n ≤ x.avail then x.grant w n else { x with waiting := x.waiting ++ [(w, ch, n)] })
        ∧ (¬ (x.waiting = [] ∧ n ≤ x.avail) → ch ∈ (t.core w).busyCh)))
    ∧ (∀ w ch n rest, x.waiting = (w, ch, n) :: rest → x.isOpen = true → n ≤ x.avail → completes (.credTakeGrant c win) s (fun t =>
        kget Window.closed (t.core c).windows win = { x.grant w n with waiting := rest }
        ∧ (t.core w).busyCh = (s.core w).busyCh.erase ch))
    ∧ (∀ slot n p fig, s.issuing c slot = some (p, fig) → x.isOpen = true → completes (.credReturn c slot win n) s (fun t =>
        kget Window.closed (t.core c).windows win = { x with avail := min (x.avail + n) x.rows }
        ∧ (x.rows < x.avail + n → (((t.core c).slot slot).item.inv = true ∨ ((t.core c).slot slot).other.inv = true)) ∧ othersSame c s t))
    ∧ (∀ w ch row data p fig, s.writerFig w c win = some (p, fig) → s.channelFree w ch = true → data.length = 512 →
        completes (.remoteRowWrite w ch c win row data) s (fun t =>
          (s.windowOk w c win row = true → t.spmHolds c (512 * row) data ∧ spmKept c (512 * row) 512 s t ∧ othersSame c s t)
          ∧ (s.windowOk w c win row = false →
              t = askAbort p fig .windowFault (postEvent p 0x43 (payloadOf fig c (w % 256 + row % 2 ^ 16 * 2 ^ 16)) s))))
/-! ### Streams, translation and mapping events -/

/-- A line access of a stream that its item may make (R379, R387 to R390), a gathered one in the row that its index selects (R381). A uTLB
miss queues the line and counts; a hit that permits a read issues it to the channel that its place names, and the entry becomes the most
recently used; a hit that places nowhere is not performed: the read delivers zeros, its tile is poisoned and the violation is counted. No
other stream changes. A store of a poisoned item, of a Figure that aborts, or of a tile-local Figure before its item's program is issued
does not start (R209, R324). -/
def Obligations.StreamAccesses : Prop :=
  ∀ (s : State) (i : Nat) (va : VA) (bytes tile spmByte scByte : Nat) (write : Bool),
    let m := s.stream i
    let x : LineReq := ⟨va.toNat, bytes, write, tile, spmByte, scByte, none, none, false⟩
    let hit := (s.utlb m.core m.engine).find? (fun e => e.holds m.part va.toNat && e.leaf.permits write)
    s.mayIssue i = true → kindMay m.kind write = true → kindTranslated m.kind = true →
    (∀ y ∈ m.lines, y.untranslated = false ∧ y.tile ≤ tile) → s.engineLines m.core m.engine < 512 → 0 < bytes →
    va.toNat % 64 + bytes ≤ 64 → s.accessOk m va.toNat bytes write = true → s.gathers m va.toNat scByte = true →
    (write = true → s.storesOpen m = true) →
    (hit = none → completes (.streamAccess i va bytes write tile spmByte scByte) s (fun t =>
        t.stream i = { m with lines := m.lines ++ [x] } ∧ (∀ k, k ≠ i → t.stream k = s.stream k)
        ∧ (t.unit (m.core / 4)).utlbMiss = min (2 ^ 32 - 1) ((s.unit (m.core / 4)).utlbMiss + 1)))
    ∧ (∀ e ch ca, hit = some e → write = false → s.locOf e.base e.leaf va.toNat = some (.hbm ch ca) →
        completes (.streamAccess i va bytes write tile spmByte scByte) s (fun t =>
          t.stream i = { m with lines := m.lines ++ [{ x with place := some (false, ch, ca) }] }
          ∧ (∀ k, k ≠ i → t.stream k = s.stream k) ∧ (t.utlb m.core m.engine).head? = some e))
    ∧ (∀ e, hit = some e → write = false → s.locOf e.base e.leaf va.toNat = none →
        completes (.streamAccess i va bytes write tile spmByte scByte) s (fun t =>
          t.stream i = { m with lines := m.lines ++ [{ x with data := some (List.replicate bytes 0), poisoned := true }], poisoned := true }
          ∧ t.faults.viol = min (2 ^ 16 - 1) (s.faults.viol + 1)))

/-- Stores that a detection holds back (R209, R324, R557), and the tags of the translation caches (R558). While the stream's core is
poisoned, or its Figure is to abort, no store of it starts. A lookup whose STB entry fails its parity drops the entry, counts it in
CACHE_PAR and walks as a miss does. -/
def Obligations.DetectionsHoldBack : Prop :=
  (∀ (s : State) (i : Nat) (va : VA) (bytes tile spmByte scByte : Nat), s.storesOpen (s.stream i) = false →
      completes (.streamAccess i va bytes true tile spmByte scByte) s (fun t => t = s))
  ∧ (∀ (s : State) (m : Stream) (a : RunFig), (s.part m.part).active m.fig = some a →
      ((s.core m.core).poisoned = true ∨ a.aborting.isSome = true) → s.storesOpen m = false)
  ∧ (∀ (s : State) (k i j : Nat) (x : LineReq) (e : TlbEntry), s.waitingLine i = some (j, x) → (s.stream i).bound = true →
      s.mayIssue i = true → (s.stream i).core / 4 = k → (∀ w ∈ (s.unit k).walks, ¬ i ∈ w.streams) → kindTranslated (s.stream i).kind = true →
      (s.unit k).stb.find? (fun e => e.holds (s.stream i).part x.va) = some e → (s.unit k).walks.length < 16 →
      (∀ w ∈ (s.unit k).walks, ¬ (w.part = (s.stream i).part ∧ w.page = s.walkPage (s.stream i).part x.va ∧ w.second = false)) →
      completes (.stbLookup k ⟨i, true⟩) s (fun t => (t.unit k).stb = (s.unit k).stb.erase e
        ∧ (t.unit k).walks = (s.unit k).walks ++ [⟨(s.stream i).part, s.walkPage (s.stream i).part x.va, [i], false, false⟩]
        ∧ t.blk.cachePar = min 0xFFFF (s.blk.cachePar + 1)
        ∧ ∀ n, t.stream n = s.stream n))

/-- The Set's STB and its walks (R389 to R391, R393 to R395, R404). A lookup that hits a leaf that permits the access fills the uTLB and
issues; one that misses starts its walk or joins the walk of its page. A walk that an invalidation overtook walks again; a first walk
that finds no leaf walks once more; a second one suspends its stream and its fault enters the queue; a walk that finds a leaf that
permits the access fills the STB and the uTLB. -/
def Obligations.WalksAndFaults : Prop :=
  ∀ (s : State) (k i j : Nat) (x : LineReq), s.waitingLine i = some (j, x) → (s.stream i).bound = true →
    let m := s.stream i
    let u := s.unit k
    let page := s.walkPage m.part x.va
    (s.mayIssue i = true → m.core / 4 = k → (∀ w ∈ u.walks, ¬ i ∈ w.streams) → kindTranslated m.kind = true →
      (∀ e, u.stb.find? (fun e => e.holds m.part x.va) = some e → e.leaf.permits x.write = true →
        completes (.stbLookup k ⟨i, false⟩) s (fun t => (t.utlb m.core m.engine).head? = some (entryOf m.part e.base e.leaf)
          ∧ (∀ ch ca, x.write = false → s.locOf e.base e.leaf x.va = some (.hbm ch ca) →
              (t.stream i).lines = m.lines.set j { x with place := some (false, ch, ca) })))
      ∧ (u.stb.find? (fun e => e.holds m.part x.va) = none → u.walks.length < 16 →
          (∀ w ∈ u.walks, ¬ (w.part = m.part ∧ w.page = page ∧ w.second = false)) →
          ∀ bad, completes (.stbLookup k ⟨i, bad⟩) s (fun t => (t.unit k).walks = u.walks ++ [⟨m.part, page, [i], false, false⟩]
            ∧ (∀ n, t.stream n = s.stream n) ∧ (t.unit k).stbMiss = min (2 ^ 32 - 1) (u.stbMiss + 1))))
    ∧ (∀ w bad, u.walks.find? (fun w => w.streams.contains i) = some w →
      (w.stale = true → completes (.stbWalkDone k ⟨i, bad⟩) s (fun t =>
        (∀ n, t.stream n = s.stream n) ∧ (t.unit k).walks = u.walks.map (fun y => if y = w then { y with stale := false } else y)))
      ∧ (w.stale = false → w.streams = [i] → (s.part m.part).space.walk x.va = .unmapped →
          (w.second = false → u.walks = [w] → completes (.stbWalkDone k ⟨i, bad⟩) s (fun t =>
            (t.unit k).walks = [⟨m.part, page, [i], true, false⟩] ∧ t.stream i = m))
          ∧ (w.second = true → s.faults.entries.length < 512 → completes (.stbWalkDone k ⟨i, bad⟩) s (fun t =>
            t.stream i = { m with suspended := some (x.va, x.write, .notMapped), queued := true, parked := false }
            ∧ t.faults.entries = s.faults.entries ++ [⟨m.fig, i, m.part, m.core, m.engine, x.write, .notMapped, x.va⟩])))
      ∧ (∀ b l, w.stale = false → w.streams = [i] → (s.part m.part).space.walk x.va = .leaf b l → s.leafOk m.part l = true →
          l.permits x.write = true → completes (.stbWalkDone k ⟨i, bad⟩) s (fun t =>
            (t.utlb m.core m.engine).head? = some (entryOf m.part b l)
            ∧ ((t.unit k).stb.head?.map (fun e => (e.part, e.page, e.leaf))) = some (m.part, b / 2 ^ 25, l))))

/-- Serving faults and prefetching (R382, R395, R397). FAULT_SERVICE takes the oldest entry, frees it and posts a FAULT event into the
owner's event ring; the first parked stream resumes if its access is legal now, and otherwise its fault enters the queue. A prefetch of a
page that is validly mapped and permitted fills the uTLB; a page that is not mapped changes nothing. -/
def Obligations.FaultsServed : Prop :=
  (∀ (s : State) (e : FaultEntry) (rest : List FaultEntry), s.faults.entries = e :: rest → s.fwRunning = true →
    (s.faults.parking = [] → completes .faultService s (fun t => t.faults.entries = rest ∧ (t.stream e.stream).queued = false
        ∧ (∀ r, s.eventRing e.part = some r → s.eventRoom r = true → s.faultsWait e.part = false →
            (t.ring r).etail = (s.ring r).etail + 1 ∧ (t.ring r).evtPend = true)))
    ∧ (∀ i more, s.faults.parking = i :: more → rest.length < 512 →
        (s.legalNow i = true → completes .faultService s (fun t => (t.stream i).suspended = none ∧ (t.stream i).parked = false))
        ∧ (∀ va w c, (s.stream i).suspended = some (va, w, c) → s.legalNow i = false → completes .faultService s (fun t =>
            let m := s.stream i
            ⟨m.fig, i, m.part, m.core, m.engine, w, c, va⟩ ∈ t.faults.entries ∧ (t.stream i).queued = true
            ∧ (t.stream i).parked = false ∧ (more = [] → t.faults.parking = [])))))
  ∧ ∀ (s : State) (c g i n : Nat) (va : VA),
    let m := s.stream i
    s.mayIssue i = true → m.core = c → m.engine = g → kindTranslated m.kind = true → 0 < n → va.toNat % 2 ^ 25 + n ≤ 2 ^ 25 →
      (∀ b l, (s.part m.part).space.walk (va.toNat / 2 ^ 25 * 2 ^ 25) = .leaf b l → s.leafOk m.part l = true → l.rd = true → l.wr = true →
        completes (.translationPrefetch c g i va n) s (fun t => (t.utlb c g).head? = some (entryOf m.part b l)
          ∧ (∀ k, t.stream k = s.stream k)))
      ∧ ((s.part m.part).space.walk (va.toNat / 2 ^ 25 * 2 ^ 25) = .unmapped →
        completes (.translationPrefetch c g i va n) s (fun t => t = s))

/-- Data, invalidations and migrations that finish (R32, R187, R403, R407). The lines of a tile land where their requests say, over the
zeros of the slab's rows, and the tile becomes ready; an invalidation whose accesses have ended completes its command; a migration that
has been copied leaves the page at its new target with the permissions it had, and completes its command. -/
def Obligations.DataAndMappingsLand : Prop :=
  (∀ (s : State) (i tile : Nat) (x : LineReq) (bs : List Byte),
    let m := s.stream i
    m.bound = true → m.kind = .tileLoad → m.conv = .raw → m.lines.filter (fun y => !y.write && decide (y.tile = tile)) = [x] →
    x.data = some bs → m.ready.contains tile = false → s.castsTiles i = false → ∀ row rows,
    completes (.lineDataValid i tile ⟨row, rows⟩) s (fun t =>
      let got := (s.delivered m x.va bs).1
      t.spmHolds m.core x.spmByte got
      ∧ (∀ b, (b < 512 * row ∨ 512 * (row + rows) ≤ b) → (b < x.spmByte ∨ x.spmByte + got.length ≤ b) →
          kget 0 (t.core m.core).spm b = kget 0 (s.core m.core).spm b)
      ∧ (∀ b, 512 * row ≤ b → b < 512 * (row + rows) → (b < x.spmByte ∨ x.spmByte + got.length ≤ b) → s.rowOn m.core (b / 512) = true →
          t.spmByte m.core b = 0)
      ∧ othersSame m.core s t ∧ t.stream i = { m with
          lines := m.lines.filter (fun y => y.write || decide (y.tile ≠ tile)), ready := m.ready ++ [tile] }))
  ∧ (∀ (s : State) (p : Nat) (w : Waiting) (n : Nat) (o : OpenCmd) (pre rest : List Waiting),
    (s.part p).waiting = pre ++ w :: rest → (∀ v ∈ pre, ∀ k, v.what ≠ .invalidate k) → w.what = .invalidate n →
    (s.ring w.ring).find w.seq = some o → s.inFlight p (mapRange o.image).1 (mapRange o.image).2 = false →
    completes (.invalidationDone p) s (fun t => (t.part p).waiting = pre ++ rest
      ∧ answered w.ring w.seq stOk n 0 s t))
  ∧ ∀ (s : State) (p : Nat) (va : VA) (g : Migration) (l : Leaf),
    (s.part p).space.moving.find? (fun m => decide (m.va = va.toNat)) = some g →
    s.asleep = false → s.inFlight p va.toNat (va.toNat + g.target.bytes) = false → kget none (s.part p).space.leaves (pageKey va.toNat) = some l →
    completes (.migrateCopyDone p va) s (fun t =>
      kget none (t.part p).space.leaves (pageKey va.toNat) = some g.target
      ∧ (∀ k, k ≠ pageKey va.toNat → kget none (t.part p).space.leaves k = kget none (s.part p).space.leaves k)
      ∧ (t.part p).space.moving = (s.part p).space.moving.filter (fun x => decide (x.va ≠ va.toNat))
      ∧ (∀ w, (s.part p).waiting.filter (fun w => decide (w.what = .migrate va.toNat)) = [w] → ((s.ring w.ring).find w.seq).isSome = true →
          answered w.ring w.seq stOk 0 0 s t))

/-! ### The key/value cache -/

/-- Page lookups and walks (R237 to R239, R253, R255, R558), for the item in work or the one after it. A lookup that hits the KVLB answers
its page, a walk of the stream being in flight or not; one that the descriptor denies fails with its cause; any other starts a walk, also
one whose entry failed its parity, which is dropped and counted. A walk without a cursor finds, in a page list whose first tokens rise,
the page that holds the token, answers it and caches it. -/
def Obligations.PageWalks : Prop :=
  ∀ (s : State) (k i : Nat), s.kvStream k i = true →
    let m := s.stream i
    let u := s.unit k
    (∀ sid tok search ahead, u.fenced = false → s.looksFor m.core (s.lookWork m.core ahead) sid tok = true →
      let w := (s.lookWork m.core ahead).getD (0, 0)
      (∀ e, u.kvHit sid tok = some e → completes (.pwuLookup k ⟨i, false⟩ sid tok ⟨search, ahead⟩) s (fun t =>
        t.stream i = { m with kvPages := m.kvPages ++ [⟨w, sid, tok, .page e.page⟩] } ∧ (t.unit k).kvlb.head? = some e))
      ∧ ((∀ w ∈ u.kvWalks, w.stream ≠ i) → u.kvWalks.length < 8 →
        (∀ c bad, u.kvHit sid tok = none → s.walkDenied m.part sid tok = some c →
          completes (.pwuLookup k ⟨i, bad⟩ sid tok ⟨search, ahead⟩) s (fun t =>
            t.stream i = { m with kvPages := m.kvPages ++ [⟨w, sid, tok, .failed c⟩] }))
        ∧ (∀ bad, u.kvHit sid tok = none → s.walkDenied m.part sid tok = none →
          completes (.pwuLookup k ⟨i, bad⟩ sid tok ⟨search, ahead⟩) s (fun t =>
            (t.unit k).kvWalks = u.kvWalks ++ [⟨i, sid, tok, search, w⟩] ∧ t.stream i = m))
        ∧ (∀ e, u.kvHit sid tok = some e → s.walkDenied m.part sid tok = none →
          completes (.pwuLookup k ⟨i, true⟩ sid tok ⟨search, ahead⟩) s (fun t => (t.unit k).kvlb = u.kvlb.erase e
            ∧ (t.unit k).kvWalks = u.kvWalks ++ [⟨i, sid, tok, search, w⟩] ∧ t.stream i = m
            ∧ t.blk.cachePar = min 0xFFFF (s.blk.cachePar + 1)))))
    ∧ (∀ w g j bad, u.kvWalks.find? (fun w => decide (w.stream = i)) = some w → kget none u.cursors i = none →
        s.walkDenied m.part w.seqId w.token = none →
        let d := s.seq (seqSlot w.seqId)
        d.pages[j]? = some g → d.pages.length ≤ 4096 → g.valid = true → g.kFmt = d.kFmt → g.vFmt = d.vFmt → g.far = false →
        (∀ (n : Nat) (x : Page), n ≤ j → d.pages[n]? = some x → x.firstToken ≤ w.token) →
        (∀ (n : Nat) (x : Page), j < n → d.pages[n]? = some x → w.token < x.firstToken) →
        completes (.pwuWalkDone k ⟨i, bad⟩) s (fun t =>
          t.stream i = { m with kvPages := m.kvPages ++ [⟨w.work, w.seqId, w.token, .page g⟩] } ∧ (t.unit k).kvlb.head? = some ⟨w.seqId, g⟩
          ∧ (t.unit k).kvWalks = u.kvWalks.erase w))

/-- Appending (R239, R240, R245, R246, R685). An append that the Figure's record and tables ask for is carried out once: it leaves the
list of those still to be issued, and no sequence's LEN, RES_END or state moves, whatever its tokens; only the named slot's descriptor may
change. -/
def Obligations.AppendsKeepLen : Prop :=
  ∀ (s : State) (o : AppendOp) (p fig : Nat) (a : RunFig) (f : Figure), s.issuing o.core o.slot = some (p, fig) →
    (s.part p).active fig = some a → (s.part p).figure a.fig = some f → s.appendDue p f o = true → a.appended = true →
    a.appendLeft.contains (o.list, o.head) = true → appendSrcOk o.src = true →
    completes (.kvAppend o) s (fun t =>
      (∃ b, (t.part p).active fig = some b ∧ b.appendLeft = a.appendLeft.erase (o.list, o.head)
        ∧ (s.seqLive p o.seqId = false →
            b.flags.inv = true ∨ ((t.core o.core).slot o.slot).item.inv = true ∨ ((t.core o.core).slot o.slot).other.inv = true))
      ∧ (∀ k, (t.seq k).len = (s.seq k).len ∧ (t.seq k).resEnd = (s.seq k).resEnd ∧ (t.seq k).state = (s.seq k).state)
      ∧ (∀ k, k ≠ seqSlot o.seqId → t.seq k = s.seq k)
      ∧ (s.seqLive p o.seqId = false → ∀ k, t.seq k = s.seq k))

/-- Changes at the quiet point (R248 to R251, R253). With no Figure of kind 0 or 1 in progress, a waiting trim cuts LEN and RES_END; a
waiting close frees the slot, its GEN kept; a waiting eviction that has been copied leaves the sequence EVICTED; each completes. While
such a Figure is in progress nothing changes. -/
def Obligations.QuietPointApplies : Prop :=
  ∀ (s : State) (p r slot : Nat) (q : BitVec 16), s.fwRunning = true →
    (s.quiet p = false → completes (.quietPoint p) s (fun t => t = s))
    ∧ (s.quiet p = true → ((s.ring r).find q).isSome = true →
      (∀ len, (s.part p).waiting = [⟨r, q, .trim slot len⟩] → (s.seq slot).state = .opened → len ≤ (s.seq slot).len →
        (blockCode (s.seq slot).vFmt = true → len % 32 = 0) → completes (.quietPoint p) s (fun t =>
          (t.seq slot).len = len ∧ (t.seq slot).resEnd = len ∧ (∀ g ∈ (t.seq slot).pages, g.firstToken < len)
          ∧ (∀ k, k ≠ slot → t.seq k = s.seq k) ∧ (t.part p).waiting = [] ∧ answered r q stOk 0 0 s t))
      ∧ ((s.part p).waiting = [⟨r, q, .close slot⟩] → (s.seq slot).state ≠ .free → completes (.quietPoint p) s (fun t =>
          t.seq slot = { Seq.free with gen := (s.seq slot).gen } ∧ (∀ k, k ≠ slot → t.seq k = s.seq k)
          ∧ (t.part p).waiting = [] ∧ answered r q stOk 0 0 s t))
      ∧ ((s.part p).waiting = [⟨r, q, .evict slot⟩] → (s.seq slot).state = .evicting → (s.seq slot).copied = true →
          completes (.quietPoint p) s (fun t => (t.seq slot).state = .evicted ∧ (∀ g ∈ (t.seq slot).pages, g.far = true)
            ∧ (t.seq slot).hbmFrames = 0 ∧ (t.seq slot).len = (s.seq slot).len ∧ (t.part p).waiting = []
            ∧ answered r q stOk (s.seq slot).farFrames 0 s t)))

/-- Sequences that move and frames that are zeroed (R251, R253, R254, R371). While the block is not in P3 (R533), a finished eviction copy
is noted and the sequence stays EVICTING; a finished restore leaves it OPEN in HBM, with its length and its far frames free; a restore
that meets an uncorrectable far line leaves it EVICTED. A frame zeroed while no demand waits on its channels becomes free, and no other
frame changes. A reservation whose wait has run out is decided. -/
def Obligations.SequencesMove : Prop :=
  (∀ (s : State) (slot : Nat),
    let d := s.seq slot
    (s.asleep = false → d.state = .evicting → d.copied = false → completes (.seqEvictCopyDone slot) s (fun t =>
      t.seq slot = { d with copied := true } ∧ ∀ k, k ≠ slot → t.seq k = s.seq k))
    ∧ (s.asleep = false → d.state = .restoring → (∀ x ∈ copyRuns d, s.badLine d.part ((s.part d.part).kv.far.va x.1) (128 * x.2.2) = none) →
        completes (.seqRestoreCopyDone slot) s (fun t => (t.seq slot).state = .opened ∧ (t.seq slot).len = d.len
          ∧ (t.seq slot).farFrames = 0 ∧ (∀ g ∈ (t.seq slot).pages, g.far = false) ∧ ∀ k, k ≠ slot → t.seq k = s.seq k))
    ∧ (∀ x l, s.asleep = false → d.state = .restoring → x ∈ copyRuns d → s.badLine d.part ((s.part d.part).kv.far.va x.1) (128 * x.2.2) = some l →
        completes (.seqRestoreCopyDone slot) s (fun t => (t.seq slot).state = .evicted ∧ (t.seq slot).pages = d.pages
          ∧ (t.seq slot).hbmFrames = 0 ∧ ∀ k, k ≠ slot → t.seq k = s.seq k)))
  ∧ (∀ (s : State) (p f : Nat), s.asleep = false → (∀ w ∈ (s.part p).waiting, w.what.isReserve = false) →
    (f < (s.part p).kv.hbm.frames → (s.part p).kv.hbm.frame f = .dirty → s.demandOn p ((s.part p).kv.hbm.va f) = false →
      completes (.frameZeroed p false f) s (fun t =>
      (t.part p).kv.hbm.frame f = .zeroed ∧ (t.part p).kv.far = (s.part p).kv.far
      ∧ ∀ k, k ≠ f → (t.part p).kv.hbm.frame k = (s.part p).kv.hbm.frame k))
    ∧ (f < (s.part p).kv.far.frames → (s.part p).kv.far.frame f = .dirty → s.demandOn p ((s.part p).kv.far.va f) = false →
      completes (.frameZeroed p true f) s (fun t =>
      (t.part p).kv.far.frame f = .zeroed ∧ (t.part p).kv.hbm = (s.part p).kv.hbm
      ∧ ∀ k, k ≠ f → (t.part p).kv.far.frame k = (s.part p).kv.far.frame k)))
  ∧ ∀ (s : State) (p r : Nat) (q : BitVec 16) (w : Waiting), s.ringOwner r = some p → (s.part p).waiting = [w] → w.ring = r → w.seq = q →
    w.what.isReserve = true → ((s.ring r).find q).isSome = true → completes (.reserveWaitTimeout r q) s (fun t =>
      (t.part p).waiting = [] ∧ (t.ring r).find q = none)

/-! ### Memory -/

/-- Reading and writing a line (R350, R351, R353, R356, R358, R363, R364), where the channel gives the partition a slot (R347 to R349) and
no row of the bank is being copied (R360). A clean read delivers to its stream the bytes that the channel shows, Write-Combining Buffer
over memory; an uncorrectable one delivers them poisoned, poisons the stream, leaves the line poisoned and is counted and recorded. A
write on a channel that serves its writer is what every later read sees, in the bytes of its mask and nowhere else; on one that does not,
no byte changes; while the channel queues, or gives the partition no slot, nothing does. Evicting an entry changes no byte that a read
sees. -/
def Obligations.LinesReadAndWrite : Prop :=
  ∀ (s : State) (ch line : Nat), ch < s.cfg.channels →
    (∀ i j x a, s.readWaiting i ch line = some (j, x, a) → s.serve (s.stream i).part ch = .now →
      s.bankBusy ch (64 * line) = false → s.slotFor ch (s.stream i).part (s.byCrossbar (.stream i) ch) = true →
      ((s.channel ch).poison.contains line = false → completes (.mcReadRequest ch line (s.stream i).part (.stream i) .clean) s (fun t =>
          (t.stream i).lines = (s.stream i).lines.set j
            { x with data := some ((List.range x.bytes).map (fun k => chView (s.channel ch) (a + k))), poisoned := false }
          ∧ (∀ k, k ≠ i → t.stream k = s.stream k)
          ∧ (∀ k b, chView (t.channel k) b = chView (s.channel k) b) ∧ ∀ k, (t.channel k).poison = (s.channel k).poison))
      ∧ (∀ e, (s.channel ch).poison.contains line = true ∨ e = .double →
          completes (.mcReadRequest ch line (s.stream i).part (.stream i) e) s (fun t =>
            (t.stream i).poisoned = true ∧ (t.channel ch).poison.contains line = true
            ∧ (t.channel ch).cnt.ue = min 0xFFFF ((s.channel ch).cnt.ue + 1) ∧ t.mem.ueValid = true ∧ t.mem.ueChannel = ch
            ∧ ∀ b, chView (t.channel ch) b = chView (s.channel ch) b)))
    ∧ (∀ p mask data, mask ≠ 0 →
      (s.serve p ch = .now → s.slotFor ch p false = false → completes (.mcWriteRequest ch line p mask data) s (fun t => t = s))
      ∧ (s.serve p ch = .now → s.slotFor ch p false = true → completes (.mcWriteRequest ch line p mask data) s (fun t =>
        (∀ k, k < 64 → mask.getLsbD k = true → chView (t.channel ch) (64 * line + k) = BitVec.ofNat 8 (fld data.toNat (8 * k) 8))
        ∧ (∀ b, (b / 64 ≠ line ∨ mask.getLsbD (b % 64) = false) → chView (t.channel ch) b = chView (s.channel ch) b)
        ∧ (∀ k, k ≠ ch → t.channel k = s.channel k)))
      ∧ (s.serve p ch = .lost → completes (.mcWriteRequest ch line p mask data) s (fun t => t.channels = s.channels))
      ∧ (s.serve p ch = .queued → completes (.mcWriteRequest ch line p mask data) s (fun t => t = s)))
    ∧ (∀ e ecc, (s.channel ch).wcb.find? (fun e => decide (e.line = line)) = some e → (s.channel ch).reachable = true →
      s.bankBusy ch (64 * line) = false → s.slotFor ch e.part false = true →
        completes (.wcbEvict ch line ecc) s (fun t => (∀ b, chView (t.channel ch) b = chView (s.channel ch) b)
          ∧ (∀ x ∈ (t.channel ch).wcb, x.line ≠ line) ∧ (∀ k, k ≠ ch → t.channel k = s.channel k)))

/-- Refresh, scrub and repair (R354, R358 to R361). A scrub step moves to the next line, or to the first with the pass counted; an
uncorrectable line is poisoned and counted; no byte changes. It waits for demand until it is aged, and then demand waits for it (R38,
R348); in P3 it pauses (R534). A finished soft repair lets its bank go and queues its staging; staging counts the stack's remaps. A
refresh and an aged scrub leave their marks and no more. -/
def Obligations.ScrubAndRepair : Prop :=
  ∀ (s : State) (ch : Nat),
    ((s.channel ch).reachable = true → (s.stackAt (ch / 32)).level ≠ 3 → (s.stackAt (ch / 32)).selfRefresh = false →
      s.asleep = false → s.bankBusy ch (s.channel ch).scrubAt = false →
      ((s.channel ch).scrubAge = true ∨ s.waitingAt ch = []) → ∀ e, completes (.patrolScrub ch e) s (fun t =>
        let ca := (s.channel ch).scrubAt
        (t.channel ch).scrubAt = (if s.channelBytes ≤ ca + 64 then 0 else ca + 64) ∧ (t.channel ch).scrubAge = false
        ∧ (t.channel ch).cnt.scrub = (if s.channelBytes ≤ ca + 64 then min 0xFFFF ((s.channel ch).cnt.scrub + 1) else (s.channel ch).cnt.scrub)
        ∧ (∀ b, chView (t.channel ch) b = chView (s.channel ch) b)
        ∧ (e = .double → (t.channel ch).poison.contains (ca / 64) = true ∧ (t.channel ch).cnt.ue = min 0xFFFF ((s.channel ch).cnt.ue + 1))))
    ∧ ((s.channel ch).scrubAge = false → s.waitingAt ch ≠ [] → ∀ e, completes (.patrolScrub ch e) s (fun t => t = s))
    ∧ ((s.channel ch).scrubAge = true → ∀ line p r e, s.serve p ch = .now →
        completes (.mcReadRequest ch line p r e) s (fun t => t = s)
        ∧ ∀ mask data, completes (.mcWriteRequest ch line p mask data) s (fun t => t = s))
    ∧ (s.asleep = true → ∀ e, completes (.patrolScrub ch e) s (fun t => t = s))
    ∧ (∀ r rest, (s.channel ch).copying = r :: rest → completes (.softRepairDone ch) s (fun t =>
        (t.channel ch).copying = rest ∧ t.itemQueued (.staging (ch / 32)) = true))
    ∧ (∀ k, s.itemRuns (.staging k) = true → completes (.repairStagingDone k) s (fun t =>
        (t.stackAt k).staged = min 255 (((List.range 32).map (fun i => (s.channel (32 * k + i)).remaps.length)).sum)
        ∧ t.itemRuns (.staging k) = false))
    ∧ (ch < s.cfg.channels →
        completes (.refresh ch) s (fun t => t.channel ch = { s.channel ch with refreshed := (s.channel ch).refreshed + 1 }
          ∧ ∀ k, k ≠ ch → t.channel k = s.channel k)
        ∧ (s.asleep = false → completes (.scrubAged ch) s (fun t => t.channel ch = { s.channel ch with scrubAge := true }
          ∧ ∀ k, k ≠ ch → t.channel k = s.channel k)))

/-- The bandwidth regulators (R347, R349). The guaranteed slots of a round are the shares, scaled down to 64 together. A partition that
has slots of its share left may take the next one; beyond its share it may take one that the shares of the waiting leave, and only then;
one that waits alone always may. Of the last 64 slots counted at a channel that requests of both paths waited for, crossbar requests get
at most FAR_SHARE, 0 acting as 1 and more than 64 as 64. -/
def Obligations.Regulators : Prop :=
  (∀ s : State, s.shares.length = 4 ∧ s.shares.sum ≤ 64
    ∧ (((List.range 4).map (fun p => fld s.mem.bwShare.toNat (8 * p) 8)).sum ≤ 64 →
        s.shares = (List.range 4).map (fun p => fld s.mem.bwShare.toNat (8 * p) 8)))
  ∧ (∀ (t : Turns) (sh w : List Nat) (p : Nat), p < 4 →
      (0 < t.owed sh p → t.grants sh w p = true)
      ∧ (t.owed sh p = 0 → t.grants sh w p = true →
          t.slots.sum + (((List.range 4).filter (fun q => decide (q = p) || w.contains q)).map (t.owed sh)).sum < 64)
      ∧ (t.slots.sum < 64 → (∀ q ∈ w, q = p) → t.grants sh w p = true))
  ∧ ∀ (s : State) (ch p : Nat), s.bothPaths ch p = true → s.slotFor ch p true = true →
      (s.channel ch).turns.cross.getD p 0 < max 1 (min 64 s.mem.farShare.toNat)

/-- Channel states and stack temperatures (R354, R363, R364, R366, R548). -/
def Obligations.ChannelStates : Prop :=
  (∀ (s : State) (ch : Nat),
    let c := s.channel ch
    let goesDown (t : State) : Prop := (t.channel ch).state = .down ∧ (t.channel ch).served = 0 ∧ (t.channel ch).wcb = []
      ∧ t.itemQueued (.channel ch) = true
    (c.state = .online ∨ c.state = .spare → completes (.channelLockLoss ch) s (fun t =>
      t.channel ch = { c with state := .fenced, keep := decide (c.state = .online) } ∧ ∀ k, k ≠ ch → t.channel k = s.channel k))
    ∧ (c.state = .fenced → completes (.channelRelock ch) s (fun t => t.channel ch = { c with state := if c.keep then .online else .spare }))
    ∧ (c.state = .fenced → completes (.channelFenceExpiry ch) s goesDown)
    ∧ (16 ≤ c.uesInBar → (c.state = .online ∨ c.state = .spare ∨ c.state = .fenced) → completes (.channelUeLimit ch) s goesDown)
    ∧ (c.state = .retraining → (s.stackAt (ch / 32)).level = 3 → ∀ l, completes (.channelRetrainDone ch l) s (fun t => t = s))
    ∧ (c.state = .retraining → (s.stackAt (ch / 32)).level ≠ 3 → ∀ n, n ≤ 4 → completes (.channelRetrainDone ch (some n)) s (fun t =>
        (t.channel ch).sparesUsed = n ∧ t.itemRuns (.channel ch) = false
        ∧ (c.keep = true → (t.channel ch).state = .online ∧ ∀ b, chView (t.channel ch) b = chView c b)
        ∧ (c.keep = false → (t.channel ch).state = .spare ∧ (t.channel ch).mem = [] ∧ (t.channel ch).undef.isSome = true)))
    ∧ (c.state = .retraining → (s.stackAt (ch / 32)).level ≠ 3 → completes (.channelRetrainDone ch none) s (fun t =>
        (t.channel ch).state = .failed ∧ (t.channel ch).served = 0 ∧ t.health.replaceCause.getLsbD 1 = true)))
  ∧ ∀ (s : State) (k n : Nat), s.mem.trained = true → k < s.cfg.hbmStacks →
      let old := (s.stackAt k).level
      completes (.stackTempRead k n) s (fun t =>
        (t.stackAt k).temp = n ∧ t.pmu.stackTempMax = max s.pmu.stackTempMax n
        ∧ (t.stackAt k).level = (if old = 3 ∨ 105 ≤ n then 3 else if 95 ≤ n then 2 else if 92 ≤ n ∧ old = 2 then 2
            else if 85 ≤ n then 1 else if 82 ≤ n ∧ 1 ≤ old then 1 else 0)
        ∧ (105 ≤ n → old ≠ 3 → t.pins.shdnReq = true ∧ t.fatal.therm = true ∧ t.health.thermalTrip = true
            ∧ ∀ i, i < 32 → (t.channel (32 * k + i)).state = .down ∨ (t.channel (32 * k + i)).state = .failed))

/-- Intrusive items (R71 to R76, R353, R363, R417, R419). The first item of a queue starts when none runs and its budget fits: its channel
or port begins to retrain, the channel's Write-Combining Buffer flushed. A retrained port comes UP on its lanes, a remapped one on the
four that are healthy; one that does not train is FAILED, and its item has ended either way. -/
def Obligations.IntermissionItems : Prop :=
  (∀ (s : State) (p : Nat) (x : QueuedItem) (rest : List QueuedItem), s.fwRunning = true → s.asleep = false → (s.part p).items = x :: rest →
    (∀ y ∈ x :: rest, y.running = false) → s.itemReady x.item = true →
    completes (.intermissionItemStart p) s (fun t =>
      (∀ ch, x.item = .channel ch → (s.channel ch).state ≠ .failed →
        (t.channel ch).state = .retraining ∧ (t.channel ch).keep = decide ((s.channel ch).state ≠ .down)
        ∧ (t.part p).items = { x with running := true } :: rest
        ∧ (t.channel ch).wcb = [])
      ∧ (∀ n, x.item = .port n ∨ x.item = .laneRemap n → (s.port n).state ≠ .failed →
          (t.port n).state = .retraining ∧ (t.part p).items = { x with running := true } :: rest)
      ∧ (∀ k, x.item = .staging k → (t.part p).items = { x with running := true } :: rest)))
  ∧ ∀ (s : State) (n : Nat), (s.port n).state = .retraining →
    (s.itemRuns (.port n) = true →
      completes (.portRetrainDone n true) s (fun t => (t.port n).state = .up ∧ t.itemRuns (.port n) = false
        ∧ (t.port n).lanes = if (s.port n).lanes = 0 then 0xFF else (s.port n).lanes)
      ∧ completes (.portRetrainDone n false) s (fun t => (t.port n).state = .failed ∧ t.itemRuns (.port n) = false
        ∧ t.health.replaceCause.getLsbD 2 = true))
    ∧ (s.itemRuns (.laneRemap n) = true →
      (∀ hi, completes (.laneRemapDone n true hi) s (fun t => (t.port n).state = .up ∧ (t.port n).lanes = 0x0F ∧ (t.port n).width = 4))
      ∧ completes (.laneRemapDone n false true) s (fun t => (t.port n).state = .up ∧ (t.port n).lanes = 0xF0 ∧ (t.port n).width = 4)
      ∧ completes (.laneRemapDone n false false) s (fun t => (t.port n).state = .failed ∧ t.itemRuns (.laneRemap n) = false))

/-- Far Memory Ports (R358, R368, R370, R371, R639). A read's response delivers its bytes, those
that the port holds while no write of the line is under way, to the stream that waits; the read of a
read-merge-write becomes the write of the merged line; a completed write puts its bytes at its line; a link that stays down completes
every request, its reads poisoned. -/
def Obligations.FarResponses : Prop :=
  (∀ (s : State) (q tag : Nat) (r : FarReq) (data : BitVec 512), (s.farPort q).req tag = some r → (s.farPort q).linkUp = true →
    (∀ j x a, r.write = none → s.farWaiting r.stream q r.addr false = some (j, x, a) →
      (s.farPort q).mayAnswer r (leBytes 64 data.toNat) = true →
      completes (.farDrsResponse q tag data false) s (fun t =>
        (t.stream r.stream).lines = (s.stream r.stream).lines.set j
          { x with data := some (((leBytes 64 data.toNat).drop (a % 64)).take x.bytes), poisoned := false }
        ∧ (t.farPort q).req tag = none))
    ∧ (r.write = none → completes (.farDrsResponse q tag data true) s (fun t =>
        (t.stream r.stream).poisoned = true ∧ (t.farPort q).poison.contains (r.addr / 64) = true ∧ (t.farPort q).req tag = none))
    ∧ (∀ w, r.write = some w → r.rmw = true → (s.farPort q).mayAnswer r (leBytes 64 data.toNat) = true →
      completes (.farDrsResponse q tag data false) s (fun t =>
        (t.farPort q).req tag = some { r with write := some (maskOf 0 (overlay (leBytes 64 data.toNat) w)), rmw := false, poison := false }
        ∧ (t.farPort q).mem = (s.farPort q).mem))
    ∧ (∀ bs, r.write = some (maskOf 0 bs) → bs.length = 64 → r.rmw = false → r.poison = false →
        completes (.farNdrCmp q tag) s (fun t => bread (t.farPort q).mem r.addr 64 = bs
          ∧ (∀ b, (b < r.addr ∨ r.addr + 64 ≤ b) → kget 0 (t.farPort q).mem b = kget 0 (s.farPort q).mem b)
          ∧ (t.farPort q).poison.contains (r.addr / 64) = false ∧ (t.farPort q).req tag = none)))
  ∧ ∀ (s : State) (q : Nat), q < s.cfg.farPorts →
    completes (.farLinkDown q) s (fun t => t.farPort q = { s.farPort q with linkUp := false })
    ∧ completes (.farLinkUp q) s (fun t => t.farPort q = { s.farPort q with linkUp := true })
    ∧ ((s.farPort q).linkUp = false → completes (.farLinkTimeout q) s (fun t => (t.farPort q).reqs = []
        ∧ (t.farPort q).mem = (s.farPort q).mem
        ∧ ∀ r ∈ (s.farPort q).reqs, r.write = none → (t.stream r.stream).poisoned = true))

/-! ### Links, deliveries, votes and chains -/

/-- Ports and flits (R414 to R420, R450, R676). A fence cause takes a port that carries frames out of service, its frames moved away, and
queues what the cause calls for; a relock brings it UP and one that fails leaves it FENCED with its retraining queued; training ends by
the lanes that align. A bad flit is discarded; a good one is accepted only in SEQ order. -/
def Obligations.LinkPorts : Prop :=
  ∀ (s : State) (n got : Nat),
    let q := s.port n
    let fenced (cause : Nat) (t : State) : Prop :=
      (t.port n).state = .fenced ∧ (t.port n).cause = cause ∧ (t.port n).sent = [] ∧ (t.port n).out = []
    (q.state.carries = true →
      (∀ lanes, (∃ l x, lanes[l]? = some x ∧ q.lanes.getLsbD l = true ∧ laneLost x = true) →
        completes (.portLockLoss n ⟨got, lanes⟩) s (fun t => fenced 1 t ∧ (t.port n).relocking = true))
      ∧ completes (.portPeerFence n got) s (fun t => fenced 5 t ∧ t.itemQueued (.port n) = true)
      ∧ (16 ≤ q.replays → completes (.portRetryLimit n got) s (fun t => fenced 2 t ∧ t.itemQueued (.port n) = true))
      ∧ (16 < q.uncInBar → completes (.portFecLimit n got) s (fun t => fenced 3 t ∧ t.itemQueued (.port n) = true))
      ∧ (∀ low, low &&& q.lanes ≠ 0 → low &&& q.lanes ≠ q.lanes → completes (.linkCalibration n low got) s (fun t =>
          fenced 4 t ∧ t.itemQueued (.laneRemap n) = true))
      ∧ (∀ low, low &&& q.lanes ≠ 0 → low &&& q.lanes = q.lanes → completes (.linkCalibration n low got) s (fun t =>
          fenced 6 t ∧ t.itemQueued (.port n) = true))
      ∧ (∀ low, low &&& q.lanes = 0 → completes (.linkCalibration n low got) s (fun t => t = s)))
    ∧ (q.state = .fenced → q.relocking = true →
        completes (.portRelock n) s (fun t => (t.port n).state = .up ∧ (t.port n).lanes = q.lanes ∧ (t.port n).relocking = false)
        ∧ completes (.portRelockTimeout n) s (fun t => (t.port n).state = .fenced ∧ (t.port n).relocking = false
          ∧ t.itemQueued (.port n) = true))
    ∧ (q.state = .training → ∀ lanes,
        let al := alignedLanes lanes
        (al = 0 → completes (.portTrainRetry n lanes) s (fun t => t = s))
        ∧ (al = 0xFF → completes (.portTrainRetry n lanes) s (fun t => (t.port n).state = .up ∧ (t.port n).width = 8))
        ∧ (al ≠ 0xFF → (al &&& 0x0F = 0x0F ∨ al &&& 0xF0 = 0xF0) → completes (.portTrainRetry n lanes) s (fun t =>
            (t.port n).state = .up ∧ (t.port n).width = 4 ∧ t.itemQueued (.laneRemap n) = true))
        ∧ (al ≠ 0 → al &&& 0x0F ≠ 0x0F → al &&& 0xF0 ≠ 0xF0 → completes (.portTrainRetry n lanes) s (fun t =>
            (t.port n).state = .failed ∧ t.health.replaceCause.getLsbD 2 = true)))
    ∧ (q.state = .training ∨ q.state.carries = true → ∀ node m, completes (.trainingFrame n node m) s (fun t =>
        t.port n = { q with peer := node % 1024, master := m } ∧ ∀ k, k ≠ n → t.port k = s.port k))
    ∧ (q.state.carries = true → ∀ f : Flit,
        (flitOk f = false → completes (.flitReceive n f) s (fun t =>
          (t.port n).discarding = true ∧ (t.port n).rxSeq = q.rxSeq ∧ (t.port n).rxBytes = q.rxBytes ∧ (t.port n).sent = q.sent))
        ∧ (flitOk f = true → fld f.trailer.toNat 52 12 ≠ q.rxSeq.toNat → completes (.flitReceive n f) s (fun t =>
            (t.port n).rxSeq = q.rxSeq ∧ (t.port n).rxBytes = q.rxBytes))
        ∧ (flitOk f = true → fld f.trailer.toNat 52 12 = q.rxSeq.toNat → completes (.flitReceive n f) s (fun t =>
            (t.port n).rxSeq = q.rxSeq + 1 ∧ (t.port n).discarding = false
            ∧ (t.port n).rxBytes = if f.trailer.getLsbD 32 then q.rxBytes else (takeFrames 64 (q.rxBytes ++ f.content)).2)))

/-- Alignment markers (R642): a lane of which the receiver has seen three markers of the lane, 16,384 codewords apart, and that has lock,
is aligned; it has lost lock when the PHY says so or when four markers in a row are missing. A port aligns where every lane in use does;
while no lane in use has lost lock, a PORT_LOCK_LOSS changes nothing. The marker's symbols are those of R642. -/
def Obligations.AlignmentMarkers : Prop :=
  (∀ l, l < 8 → (markerOf l).length = 8 ∧ (markerOf l).take 6 = [0x2A5, 0x15A, 0x2A5, 0x15A, 0x2A5, 0x15A]
      ∧ (∀ x y, (markerOf l)[6]? = some x → (markerOf l)[7]? = some y → x.toNat = 0x3C0 + l ∧ x.toNat + y.toNat = 1023))
  ∧ (∀ (ms : List (Nat × List (BitVec 10))) (l n d : Nat),
      laneAligned ⟨true, ms ++ [(d, markerOf l), (16384, markerOf l), (16384, markerOf l)], n⟩ l = true)
  ∧ (∀ (x : LaneWatch) (l : Nat), laneAligned x l = true → x.lock = true ∧ 3 ≤ x.markers.length ∧ ∃ d, x.markers.getLast? = some (d, markerOf l))
  ∧ (∀ x : LaneWatch, laneLost x = true ↔ (x.lock = false ∨ 4 ≤ x.missing))
  ∧ (∀ (ls : List LaneWatch) (l : Nat), l < 8 → ((alignedLanes ls).getLsbD l = true ↔ ∃ x, ls[l]? = some x ∧ laneAligned x l = true))
  ∧ ∀ (s : State) (n got : Nat) (ls : List LaneWatch), (∀ l x, ls[l]? = some x → (s.port n).lanes.getLsbD l = true → laneLost x = false) →
      completes (.portLockLoss n ⟨got, ls⟩) s (fun t => t = s)

/-- Transfers and deliveries (R423, R428 to R434, R438). A transfer that is ready issues once, takes its units from its destination's
count, and goes out on the port that its route gives. A delivery for this node lands in its binding's count, is discarded when nothing
binds it, and poisons its binding when its DCRC fails; one for another node goes on with its TTL lowered; one whose TTL ends is
discarded. A credit frame adds its units; a probe turns back at a leaf, and its echo goes on once the
last child has answered. -/
def Obligations.Deliveries : Prop :=
  (∀ (s : State) (p xid : Nat) (c : Chor) (x : Xfer), (s.part p).chor = some c → c.xfers.find? (fun x => decide (x.xferId = xid)) = some x →
    s.xferReady p c x = true → x.mc = false →
    let issued (t : State) : Prop :=
      (∃ d, (t.part p).chor = some d ∧ d.xfers = c.xfers.map (fun x => if x.xferId = xid then { x with issued := true } else x))
      ∧ (t.part p).plane.credit x.dest x.lb = (s.part p).plane.credit x.dest x.lb - xferUnits x
    (x.isNull = true → completes (.transferIssue p xid) s issued)
    ∧ (∀ bs, x.isNull = false → s.xferSource p x = .ok bs → completes (.transferIssue p xid) s (fun t => issued t
        ∧ (∀ n, 0 < bs.length → bs.length ≤ 8192 → (kget 0 (s.part p).plane.routes x.dest).getLsbD 63 = true →
            s.nextPort p x.dest = some n →
            t.sends n (.delivery (deliveryHeader 0 x.lb x.offset xid false x.dest (s.part p).plane.node.toNat bs) bs)))))
  ∧ (∀ (s : State) (n p : Nat) (h : BitVec 256) (data : List Byte), s.frameFrom n = some p → s.pmu.state ≠ 3 → bit h.toNat 116 = false →
    let w := h.toNat
    let src := fld w 98 10
    let xid := fld w 132 16
    let len := 64 * fld w 124 8
    (fld w 117 4 ≤ 1 → completes (.deliveryReceive n h data) s (fun t => t.channels = s.channels ∧ (t.part p).plane.noRoute = true))
    ∧ (1 < fld w 117 4 → fld w 88 10 ≠ (s.part p).plane.node.toNat → completes (.deliveryReceive n h data) s (fun t =>
        t.channels = s.channels
        ∧ ∀ m, (kget 0 (s.part p).plane.routes (fld w 88 10)).getLsbD 63 = true → s.nextPort p (fld w 88 10) = some m →
            t.sends m (.delivery (lowerTtl w) data)))
    ∧ (1 < fld w 117 4 → fld w 88 10 = (s.part p).plane.node.toNat → (s.part p).chor = none → (s.part p).snap.held = none →
        completes (.deliveryReceive n h data) s (fun t => t.channels = s.channels ∧ t.ce.unbound = min 0xFFFF (s.ce.unbound + 1)))
    ∧ (∀ c b, 1 < fld w 117 4 → fld w 88 10 = (s.part p).plane.node.toNat → (s.part p).chor = some c → (s.part p).run.isSome = true →
        c.bindings.find? (fun (b : Binding) => decide (b.srcNode = src) && decide (b.xferId = xid)) = some b → fld w 121 3 = 0 →
        0 < len → len ≤ 8192 → data.length = len → s.fitsBinding b (fld w 148 12) (fld w 160 32) len = true →
        (fld w 224 32 = (crc32 data).toNat → completes (.deliveryReceive n h data) s (fun t =>
          ∃ d, (t.part p).chor = some d ∧ d.bindings = c.bindings.map (fun b => if b.srcNode = src ∧ b.xferId = xid then
            { b with landed := b.landed + len, pieces := b.pieces ++ [(fld w 160 32, len)] } else b)))
        ∧ (fld w 224 32 ≠ (crc32 data).toNat → ((s.part p).active b.consumer).isSome = true →
          completes (.deliveryReceive n h data) s (fun t => t.channels = s.channels ∧ t.ce.dcrc = min 0xFFFF (s.ce.dcrc + 1)
            ∧ ∃ d, (t.part p).chor = some d ∧ d.bindings = c.bindings.map (fun b => if b.srcNode = src ∧ b.xferId = xid then
              { b with poisoned := true } else b)))))
  ∧ (∀ (s : State) (n p dst src lb units : Nat), s.frameFrom n = some p →
    (dst = (s.part p).plane.node.toNat → (s.part p).snap.mirroring = false → completes (.creditFrame n dst src lb units) s (fun t =>
      (t.part p).plane.credit src lb = (s.part p).plane.credit src lb + units))
    ∧ (∀ m, dst ≠ (s.part p).plane.node.toNat → (kget 0 (s.part p).plane.routes dst).getLsbD 63 = true → s.nextPort p dst = some m →
      completes (.creditFrame n dst src lb units) s (fun t => t.sends m (.credit dst src lb units))))
  ∧ ∀ (s : State) (p g rtt : Nat),
    (∀ x m, kget 0 (s.part p).plane.echoes g = 0 → kget none (s.part p).plane.groups g = some x → x.root = false → x.children = [] →
      (kget 0 (s.part p).plane.routes x.upNode).getLsbD 63 = true → s.nextPort p x.upNode = some m →
      completes (.probeFrame p g rtt) s (fun t => t.sends m (.probe g)))
    ∧ (∀ k, kget 0 (s.part p).plane.echoes g = k + 2 → completes (.probeFrame p g rtt) s (fun t => t = setEchoes p g (k + 1) s))
    ∧ (∀ w gs r, kget 0 (s.part p).plane.echoes g = 1 → (s.part p).waiting = [w] → w.what = .groupSet gs [g] r → ((s.ring w.ring).find w.seq).isSome = true →
      (s.tooSlow rtt = true → completes (.probeFrame p g rtt) s (fun t =>
        (t.part p).plane = { (s.part p).plane with echoes := kset 0 (s.part p).plane.echoes g 0 } ∧ (t.part p).waiting = []
        ∧ answered w.ring w.seq stFabricSlow 0 0 s t))
      ∧ (s.tooSlow rtt = false → completes (.probeFrame p g rtt) s (fun t => (t.part p).waiting = []
        ∧ (t.part p).plane.groups = gs.foldl (fun m x => kset none m x.1 (some x.2)) (s.part p).plane.groups
        ∧ answered w.ring w.seq stOk (max r rtt % 2 ^ 32) 0 s t)))

/-- Flag votes (R117, R218, R220, R441). A device that has its vote beat, its scope and its children's contributions sends the OR up, and
the root takes the result when every member has counted; a child's frame is ORed in and counted; the parent's result is taken; a frame
that matches no vote is discarded, reported and counted. At the first schedule beat at or after VD that follows the result, VOTE_STAT
takes it and FLAG_ACC is cleared. -/
def Obligations.Votes : Prop :=
  ∀ (s : State) (p id : Nat) (c : Chor) (v : Vote) (b : Nat), (s.part p).chor = some c → (s.part p).vote id = some v →
    s.iterBeat p = some b →
    (∀ r, (s.part p).run = some r → v.sent = false → v.v ≤ b → scopeDone c r v = true →
      let own := scopeFlags c r v ||| v.childFlags
      (s.beat.standalone = true → completes (.voteContribute p id) s (fun t =>
        (t.part p).vote id = some { v with sent := true, result := some (own, b) }))
      ∧ (∀ g, s.tempoTree p = some g → g.children.length ≤ v.children →
          (g.root = false → completes (.voteContribute p id) s (fun t => (t.part p).vote id = some { v with sent := true }
            ∧ ∀ n, (kget 0 (s.part p).plane.routes g.upNode).getLsbD 63 = true → s.nextPort p g.upNode = some n →
                t.sends n (.vote true id (s.part p).voteStep own (v.childCount + 1))))
          ∧ (g.root = true → v.childCount + 1 = g.members → completes (.voteContribute p id) s (fun t =>
            (t.part p).vote id = some { v with sent := true, result := some (own, b) }))))
    ∧ (∀ g node flags count, s.tempoTree p = some g → v.result = none →
        ((g.root = true ∨ node ≠ g.upNode) → v.sent = false → v.children < g.children.length →
          completes (.voteFrame p node id (s.part p).voteStep flags count) s (fun t => (t.part p).vote id = some { v with
            childFlags := v.childFlags ||| flags, childCount := v.childCount + count, children := v.children + 1 }))
        ∧ (g.root = false → node = g.upNode → v.sent = true →
          completes (.voteFrame p node id (s.part p).voteStep flags count) s (fun t =>
            (t.part p).vote id = some { v with result := some (flags, b) }))
        ∧ (∀ step, step ≠ (s.part p).voteStep → completes (.voteFrame p node id step flags count) s (fun t =>
            t.beat = s.beat ∧ (t.part p).vote id = some v ∧ t.blk.splits = min 0xFFFF (s.blk.splits + 1))))
    ∧ (∀ r n, v.result = some (r, n) → v.latched = false → (s.part p).tempo.hold = false → v.vd ≤ b → n < b →
        completes (.voteLatch p id) s (fun t => (t.part p).vote id = some { v with latched := true }
          ∧ (t.part p).voteValid = true ∧ (t.part p).voteFlags = r ∧ (t.part p).voteId = BitVec.ofNat 8 id
          ∧ (t.part p).flags = Flags.none ∧ (t.part p).firstFig = 0xFFFFFF ∧ ∀ k, k ≠ p → t.part k = s.part k))

/-- Chain reductions (R443 to R446). Adding a partial keeps the running value exact, so any order of the partials gives one value, and
the last member saturates it once; a row whose RS disagrees becomes zeros with INV and keeps the incoming RS. A segment that is ready is
done once, and a member that is not the last takes the units of what it sends. -/
def Obligations.Chains : Prop :=
  (∀ (a : Int × Int) (ps qs : List Int), -(2 ^ 127) ≤ a.2 → a.2 < 2 ^ 127 → (∀ x ∈ ps, -(2 ^ 127) ≤ x ∧ x < 2 ^ 127) → ps.Perm qs →
    let r := ps.foldl chainAdd a
    r.1 * 2 ^ 128 + r.2 = a.1 * 2 ^ 128 + a.2 + ps.sum ∧ -(2 ^ 127) ≤ r.2 ∧ r.2 < 2 ^ 127 ∧ qs.foldl chainAdd a = r
    ∧ (chainTotal r).1 = max (-(2 ^ 127)) (min (2 ^ 127 - 1) (r.1 * 2 ^ 128 + r.2))
    ∧ ((chainTotal r).2 = true ↔ (chainTotal r).1 ≠ r.1 * 2 ^ 128 + r.2))
  ∧ (∀ (r : ChainRow) (ps : List Partial), (∃ q ∈ ps, q.rs ≠ r.rs) →
    chainRow true (some r) ps = ({ r with acc := r.acc.map (fun _ => (0, 0)) }, flInv, true))
  ∧ ∀ (s : State) (p id : Nat) (c : Chor) (k : Chain) (m : Nat) (pred succ : Option Nat) (ins : List (Option ChainRow))
    (rs : List ChainRow) (fl : Flags) (bad : Nat), (s.part p).chor = some c → (s.part p).run.isSome = true →
    c.chains.find? (fun k => decide (k.chainId = id)) = some k → k.member (s.part p).plane.node.toNat = some (m, pred, succ) →
    k.done < ceilDiv k.rows k.segRows → (∀ n, succ = some n → k.units k.done ≤ (s.part p).plane.credit n k.lb) →
    s.sourcesReady p c k k.done = true → s.incoming p c k k.done pred = some (.ok ins) → s.segment p c k k.done ins = .ok (rs, fl, bad) →
    completes (.chainSegment p id k.done) s (fun t =>
      (∃ d, (t.part p).chor = some d ∧ d.chains = c.chains.map (fun k => if k.chainId = id then { k with done := k.done + 1 } else k))
      ∧ (s.ce.rsMis + bad < 2 ^ 16 → t.ce.rsMis = s.ce.rsMis + bad)
      ∧ ∀ n, succ = some n → (t.part p).plane.credit n k.lb = (s.part p).plane.credit n k.lb - k.units k.done)

/-! ### Control Cluster and mailbox -/

/-- Doorbell writes that the firewall admits (R464, R465, R471, R473, R474, R522 to R524). DB_PROD: a value that follows PROD and lies at
most 256 past CPL is taken and the covered commands are read, the one with its own SEQ opened and acknowledged, another completed with
INVALID_SEQ; any other value sets OVERRUN and nothing more. DB_CPL and DB_EVCONS take a value up to their tail, or set BAD_CONS. DB_CTRL
takes the enables and begins a reset. While RESETTING a write only sets OVERRUN, and in DOWN and HALTED it does nothing. A reset that is
done leaves the ring READY with every index 0. -/
def Obligations.RingDoorbells : Prop :=
  (∀ (s : State) (req r : Nat) (value : BitVec 32), s.hostOpen = true →
    let g := s.ring r
    let v := BitVec.ofNat 16 (fld value.toNat 0 16)
    (s.admits req (dbOffset r 0) true = true →
      (g.state = .ready → (dist16 g.prod v = 0 ∨ 32767 < dist16 g.prod v ∨ 256 < dist16 g.cpl v) →
        completes (.dbProdWrite req r value) s (fun t => t = s.setRing r { g with overrun := true }))
      ∧ (g.state = .ready → 0 < dist16 g.prod v → dist16 g.prod v ≤ 32767 → dist16 g.cpl v ≤ 256 →
          completes (.dbProdWrite req r value) s (fun t => (t.ring r).prod = v ∧ (t.ring r).head = v
            ∧ (v = g.head + 1 →
                let img := BitVec.ofNat 512 (ofLe (bread s.ringMem (0x10000 * r + 64 * (g.head.toNat % 256)) 64))
                (t.ring r).ack = v
                ∧ (arg img 0 0 16 = g.head.toNat → (t.ring r).opened = g.opened ++ [⟨g.head, img, false, s.fw.handed⟩] ∧ t.ringMem = s.ringMem)
                ∧ (arg img 0 0 16 ≠ g.head.toNat → (t.ring r).find g.head = none ∧ (t.ring r).ctail = g.ctail + 1))))
      ∧ (g.state = .resetting → completes (.dbProdWrite req r value) s (fun t => t = s.setRing r { g with overrun := true }))
      ∧ ((g.state = .down ∨ g.state = .halted) → completes (.dbProdWrite req r value) s (fun t => t = s)))
    ∧ (s.admits req (dbOffset r 0) true = false → completes (.dbProdWrite req r value) s (fun t =>
        t.prot.hpfValid = true ∧ t.prot.hpfCount = min 0xFFFF (s.prot.hpfCount + 1) ∧ (t.ring r).prod = g.prod ∧ (t.ring r).opened = g.opened
        ∧ (s.prot.hpfCount < 0xFFFF → t.rings = s.rings)
        ∧ (s.prot.hpfValid = false → t.prot.hpfReq = req % 16 ∧ t.prot.hpfWrite = true ∧ t.prot.hpfAddr = BitVec.ofNat 26 (dbOffset r 0))
        ∧ (s.prot.hpfValid = true → t.prot.hpfReq = s.prot.hpfReq ∧ t.prot.hpfAddr = s.prot.hpfAddr)))
    ∧ (s.admits req (dbOffset r 4) true = true → g.state = .ready → completes (.dbCplWrite req r value) s (fun t =>
        t = if dist16 g.cpl v ≤ dist16 g.cpl g.ctail then s.setRing r { g with cpl := v } else s.setRing r { g with badCons := true }))
    ∧ (s.admits req (dbOffset r 8) true = true → g.state = .ready → completes (.dbEvconsWrite req r value) s (fun t =>
        (dist16 g.evcons v ≤ dist16 g.evcons g.etail → (t.ring r).evcons = v ∧ (s.fw.backlog = [] → t = s.setRing r { g with evcons := v }))
        ∧ (¬ dist16 g.evcons v ≤ dist16 g.evcons g.etail → t = s.setRing r { g with badCons := true })))
    ∧ (s.admits req (dbOffset r 0xC) true = true → g.state = .ready → completes (.ringReset req r value) s (fun t =>
        t = s.setRing r { g with
          cplEn := bit value.toNat 0, evtEn := bit value.toNat 1, state := if bit value.toNat 31 then .resetting else .ready })))
  ∧ ∀ (s : State) (r : Nat), (s.ring r).state = .resetting → (s.ring r).opened = [] → s.fw.backlog = [] →
      completes (.ringResetDone r) s (fun t => t = s.setRing r { s.ring r with
        prod := 0, cpl := 0, evcons := 0, ack := 0, head := 0, etail := 0, ctail := 0, dropped := 0, state := .ready
        evtPend := false, cplPend := false, versionRead := false })

/-- Posting events and watching the Control Cluster (R455, R461, R469, R470, R476, R478 to R480, R599). An event whose slot is consumed is
written whole into it and moves ETAIL; without room a FAULT waits and any other event is dropped and counted. Four checks without progress,
a watchdog that expires, or an uncorrectable cluster SRAM error end in PANIC, with the fatal cause set and every owned ring HALTED. -/
def Obligations.EventsAndPanic : Prop :=
  (∀ (s : State) (p r code payload : Nat), s.eventRing p = some r → s.fwRunning = true → (s.ring r).state = .ready →
    let g := s.ring r
    let t := postEvent p code payload s
    (s.eventRoom r = true → (code = 1 → s.faultsWait p = false) →
      (t.ring r).etail = g.etail + 1 ∧ (t.ring r).evtPend = true ∧ (t.ring r).opened = g.opened ∧ (t.ring r).ctail = g.ctail
      ∧ bread t.ringMem (0x10000 * r + 0x6000 + 32 * (g.etail.toNat % 256)) 32
          = leBytes 32 (g.etail.toNat + code * 2 ^ 16 + (s.jobTag p).toNat * 2 ^ 48 + s.beat.cnt.toNat * 2 ^ 64 + payload % 2 ^ 128 * 2 ^ 128)
      ∧ (∀ a, (a < 0x10000 * r + 0x6000 ∨ 0x10000 * r + 0x8000 ≤ a) → kget 0 t.ringMem a = kget 0 s.ringMem a))
    ∧ (s.eventRoom r = false → code ≠ 1 → t = s.setRing r { g with dropped := min 0xFFFF (g.dropped + 1), evtOverflow := true })
    ∧ (s.eventRoom r = false → code = 1 →
        t = { s with fw := { s.fw with backlog := s.fw.backlog ++ [⟨p, s.jobTag p, BitVec.ofNat 128 payload⟩] } }))
  ∧ ∀ s : State,
    let panics (t : State) : Prop := t.fw.state = .panic ∧ ∀ r, (s.ringOwner r).isSome = true → (t.ring r).state = .halted
    (s.fwRunning = true →
      (∀ st, completes (.heartbeatTick st) s (fun t => t.fw.hb = s.fw.hb + 1
        ∧ ∀ i, i < 3 → nth t.fw.misses i = if s.pmu.state = 3 then 0 else if st.getLsbD i = true then nth s.fw.misses i + 1 else 0))
      ∧ (∀ i, i < 3 → 4 ≤ nth s.fw.misses i → completes (.coreProgressFail i) s (fun t =>
          panics t ∧ t.fatal.panic = true ∧ t.fw.coreFault.getLsbD i = true)))
    ∧ (s.pins.phase = .running →
      (s.fw.state ≠ .boot → completes .watchdogExpiry s (fun t => panics t ∧ t.fatal.wdog = true ∧ t.fw.wdog = true))
      ∧ completes (.ccSramError false) s (fun t => panics t ∧ t.fatal.panic = true)
      ∧ completes (.ccSramError true) s (fun t => t.blk.ccCorr = min 0xFFFF (s.blk.ccCorr + 1) ∧ t.fw.state = s.fw.state))

/-- The checks of a command that its control core comes to (R456), in their order (R482, R483, R488, R489, R565): the first that fails
completes it with its status, and nothing else happens. CIF_VERSION answers the interface's version, Fremund's and the block's, lists the
opcodes, and admits the ring's other commands; an opcode of no command completes with UNKNOWN_OPCODE once it has been read. -/
def Obligations.CommandChecks : Prop :=
  (∀ (k : CmdRule) (s : State) (r : Nat) (q : BitVec 16) (o : OpenCmd) (p : Nat) (body : Nat → BitVec 512 → State → State),
    s.mayBegin r q = some o → s.ringOwner r = some p → s.ringRuns r = true → cmdOpcode o.image = k.op →
    let t := runCommand k r q body s
    let fails (st : Nat) : Prop := t = complete r q st 0 0 s
    let read := decide (k.op = 1) || (s.ring r).versionRead
    let denied := k.admin && !s.ringAdmin r || k.lost && s.fw.fwLost
    let held := wakesBlock s.pmu.state k.op || (s.pmu.transition && wakesBlock s.pmu.target k.op)
    (read = false → fails stNotRead)
    ∧ (read = true → cmdVer o.image ≠ 1 → fails stVersion)
    ∧ (read = true → cmdVer o.image = 1 → denied = true → fails stDenied)
    ∧ (∀ st, read = true → cmdVer o.image = 1 → denied = false → k.job = true → jobCheck (s.part p) (cmdTag o.image) = some st → fails st)
    ∧ (read = true → cmdVer o.image = 1 → denied = false → (k.job = true → jobCheck (s.part p) (cmdTag o.image) = none) → held = false →
        ((headerOk o.image && fieldsOk o.image k.fields && s.resultOk p o.image) = false → fails stField)
        ∧ ((headerOk o.image && fieldsOk o.image k.fields && s.resultOk p o.image) = true →
            t = body p o.image (markStarted r q s))))
  ∧ (∀ (q : Part) (tag : BitVec 16),
      (tag ∈ q.endedTags → jobCheck q tag = some stJobEnded)
      ∧ (¬ tag ∈ q.endedTags → (tag = 0 ∨ q.job ≠ some tag) → jobCheck q tag = some stNoJob)
      ∧ (¬ tag ∈ q.endedTags → tag ≠ 0 → q.job = some tag → jobCheck q tag = none))
  ∧ (∀ (s : State) (r : Nat) (q : BitVec 16) (o : OpenCmd), s.mayBegin r q = some o → s.ringRuns r = true →
      ¬ cmdOpcode o.image ∈ opcodes → completes (.commandUnknownOpcode r q) s (fun t =>
        answered r q (if (s.ring r).versionRead = true then stUnknown else stNotRead) 0 0 s t))
  ∧ ∀ (s : State) (r p : Nat) (q : BitVec 16) (img : BitVec 512), admitted ⟨1, false, false, false, []⟩ r q p img s = true →
      completes (.cifVersion r q) s (fun t =>
        let a := resultAnswer img (3 + s.fw.version.toNat * 2 ^ 32 + blkVer * 2 ^ 64) (opcodes.flatMap (fun o => leBytes 4 (o + 2 ^ 16 + 2 ^ 24)))
        answered r q a.1 a.2.1 a.2.2 s t ∧ ((s.ring r).state = .ready → (t.ring r).versionRead = true))


/-! ### Commands of the mailbox -/

/-- Jobs, loading and runs (R469, R493, R527, R528, R336, R494 to R497, R52, R71). A command that may start (in `u` it has started) and
whose conditions hold completes with OK and its effect, or waits; otherwise it completes with the status of the first condition that
fails, and the partition stays as it was. -/
def Obligations.JobCommands : Prop :=
  ∀ (s : State) (r p : Nat) (q : BitVec 16) (img : BitVec 512),
  let ok (op : Nat) (admin job : Bool) (fs : List (Nat × Nat × Nat)) : Prop := admitted ⟨op, admin, job, false, fs⟩ r q p img s = true
  let me := s.part p
  let u := markStarted r q s
  let fails (st : Nat) (t : State) : Prop := answered r q st 0 0 s t ∧ t.part p = me
  (ok 2 false false [(0x18, 0, 4)] →
    let e := arg img 0x18 0 4
    ((s.ringOwner e = some p ∧ (s.ringAdmin e = true → s.ringAdmin r = true)) → completes (.eventRingSet r q) s (fun t =>
      answered r q stOk 0 0 s t ∧ (t.part p).eventRing = e))
    ∧ (¬ (s.ringOwner e = some p ∧ (s.ringAdmin e = true → s.ringAdmin r = true)) → completes (.eventRingSet r q) s (fails stDenied)))
  ∧ (ok 0x100 false false [] →
      let tag := cmdTag img
      (tag = 0 → completes (.jobOpen r q) s (fails stField))
      ∧ (tag ≠ 0 → me.job ≠ none → completes (.jobOpen r q) s (fails stJobBusy))
      ∧ (tag ≠ 0 → me.job = none → completes (.jobOpen r q) s (fun t =>
          answered r q stOk s.beat.cnt.toNat 0 s t ∧ (t.part p).job = some tag ∧ (t.part p).jobLoaded = false
          ∧ ¬ tag ∈ (t.part p).endedTags ∧ (t.part p).acct.opened = me.acct.live ∧ (t.part p).acct.openBeat = s.beat.cnt
          ∧ (t.part p).acct.openTag = tag)))
  ∧ (ok 0x101 false true [(0x18, 0, 1)] →
      (arg img 0x18 0 1 = 0 → completes (.jobEnd r q) s (fun t =>
        nowWaits p r q (.jobEnd false 0 0) s t ∧ (t.part p).endedTags = cmdTag img :: me.endedTags ∧ (t.part p).run = me.run))
      ∧ (arg img 0x18 0 1 = 1 → me.waiting = [] → completes (.jobEnd r q) s (fun t =>
          (∃ d, answered r q stOk d 0 s t) ∧ (t.part p).job = none ∧ (t.part p).chor = none ∧ (t.part p).run = none
          ∧ cmdTag img ∈ (t.part p).endedTags ∧ (t.part p).acct.endTag = cmdTag img
          ∧ ∀ k, (s.seq k).part = p → (s.seq k).jobTag = cmdTag img → (t.seq k).state = .free)))
  ∧ (ok 0x110 false true [(0x18, 0, 52), (0x20, 0, 32)] →
      ∀ (progs : List TileProg) (x : Loaded), u.loadImage p (arg img 0x18 0 52) (arg img 0x20 0 32) (cmdTag img) progs = .ok x →
      u.fieldsChecked p x = .ok () →
      (me.run ≠ none → completes (.chorLoad r q progs) s (fails stChorBusy))
      ∧ (me.run = none → u.schedChecked p x = false → completes (.chorLoad r q progs) s (fails stSchedule))
      ∧ (me.run = none → u.schedChecked p x = true → (me.jobLoaded = true ∨ s.channelUnsettled = false) →
          completes (.chorLoad r q progs) s (fun t => (∃ d, answered r q stOk (x.chor.figures.length + d * 2 ^ 32) 0 s t)
            ∧ (t.part p).chor = some x.chor ∧ (t.part p).spin = x.spin ∧ (t.part p).jobLoaded = true ∧ (t.part p).run = none)))
  ∧ (ok 0x111 false true [(0x18, 0, 64), (0x20, 0, 32), (0x28, 0, 52), (0x30, 0, 32)] →
      (me.chor = none → completes (.chorRun r q) s (fails stNotLoaded))
      ∧ ∀ c, me.chor = some c →
        (me.run ≠ none → completes (.chorRun r q) s (fails stChorBusy))
        ∧ (me.run = none → s.beat.lock ≠ .locked → s.beat.lock ≠ .holdover → completes (.chorRun r q) s (fails stTempo))
        ∧ (me.run = none → (s.beat.lock = .locked ∨ s.beat.lock = .holdover) →
            (arg img 0x18 0 64 < s.beat.cnt.toNat + 64 → completes (.chorRun r q) s (fails stTooSoon))
            ∧ (s.beat.cnt.toNat + 64 ≤ arg img 0x18 0 64 → completes (.chorRun r q) s (fun t =>
                answered r q stOk s.beat.cnt.toNat 0 s t
                ∧ (∃ x, (t.part p).run = some x ∧ x.iterations = arg img 0x20 0 32 ∧ x.active = [] ∧ (me.snap.resume = none → x.next = 0))
                ∧ (t.part p).tempo.running = true ∧ (t.part p).tempo.base.toNat = arg img 0x18 0 64 ∧ (t.part p).tempo.holdTotal = 0
                ∧ (∀ k, k < 4 → (t.part p).quarterOn.getLsbD k = decide (k < c.quarters))))))
  ∧ (ok 0x112 false true [(0x18, 0, 1)] →
      (me.run = none → completes (.chorStop r q) s (fails stNotRunning))
      ∧ ∀ x, me.run = some x → x.stopCause = 0 →
        ((x.active ≠ [] ∨ (arg img 0x18 0 1 = 1 ∧ x.stopNow = false)) → completes (.chorStop r q) s (fun t => nowWaits p r q .chorStop s t
          ∧ ∃ y, (t.part p).run = some y ∧ (arg img 0x18 0 1 = 0 → y.stopNow = true) ∧ (arg img 0x18 0 1 = 1 → y.stopAtEnd = true)))
        ∧ (x.active = [] → arg img 0x18 0 1 = 0 → me.waiting = [] → completes (.chorStop r q) s (fun t =>
            answered r q stOk (x.next % 2 ^ 24 + x.iteration % 2 ^ 32 * 2 ^ 32) 0 s t ∧ (t.part p).run = none
            ∧ (t.part p).tempo.running = false)))
  ∧ (ok 0x114 false true [(0x18, 0, 16)] →
      (arg img 0x18 0 16 = 0 → completes (.holdRequest r q) s (fails stField))
      ∧ (arg img 0x18 0 16 ≠ 0 → me.run = none → completes (.holdRequest r q) s (fails stNotRunning))
      ∧ (∀ c, arg img 0x18 0 16 ≠ 0 → me.run ≠ none → me.chor = some c → completes (.holdRequest r q) s (fun t =>
          (∃ d, answered r q stOk d 0 s t)
          ∧ (t.part p).tempo.hostLate = some (max (me.tempo.hostLate.getD 0) (min (arg img 0x18 0 16) c.holdMax)))))
  ∧ (ok 0x115 false false [(0x18, 0, 2), (0x1C, 0, 8)] →
      let it := itemOf (arg img 0x18 0 2) (arg img 0x1C 0 8)
      (∀ ch, it = .channel ch → s.ringAdmin r = false → completes (.intermissionReq r q) s (fails stDenied))
      ∧ (∀ n, it = .port n → s.itemExists it = true → s.portOwner n ≠ some p → completes (.intermissionReq r q) s (fails stPort))
      ∧ (∀ n, it = .port n → s.itemExists it = true → s.portOwner n = some p → s.itemQueued it = false →
          completes (.intermissionReq r q) s (fun t => (t.part p).items = me.items ++ [⟨it, [(r, q)], false⟩]
            ∧ (t.port n).retrainQueued = true ∧ (t.ring r).ctail = (s.ring r).ctail)))

/-- The KV commands (R222, R223, R226 to R229, R233, R243, R247 to R254, R499, R500), for sequences of the partition, in the state `u` in
which the command has started: opening takes a free slot and the first frames, a reservation the frames of its new pages, and where the
frames are missing DATA is the largest run of zeroed frames; a trim and a close wait for the quiet point; an eviction and a restore take
their frames in the other tier and wait for the copy. -/
def Obligations.KvCommands : Prop :=
  ∀ (s : State) (r p : Nat) (q : BitVec 16) (img : BitVec 512),
  let ok (op : Nat) (job : Bool) (fs : List (Nat × Nat × Nat)) : Prop := admitted ⟨op, false, job, true, fs⟩ r q p img s = true
  let kv := (s.part p).kv
  let u := markStarted r q s
  let failsWith (st data : Nat) (t : State) : Prop := answered r q st data 0 s t ∧ (t.part p).kv = kv ∧ t.seqs = s.seqs
  let fails (st : Nat) : State → Prop := failsWith st 0
  let sid := cmdSeqId img
  let k := seqSlot sid
  let d := s.seq k
  let one : List (Nat × Nat × Nat) := [(0x18, 0, 20)]
  (ok 0x200 false [(0x18, 0, 52), (0x20, 0, 28), (0x24, 0, 28), (0x28, 0, 52), (0x30, 0, 17)] →
    (u.arenaFields p img = false → completes (.kvArenaSet r q) s (fails stField))
    ∧ (u.arenaFields p img = true → s.openSeqs p ≠ [] → completes (.kvArenaSet r q) s (fails stSeqBusy))
    ∧ (u.arenaFields p img = true → s.openSeqs p = [] → completes (.kvArenaSet r q) s (fun t => answered r q stOk 0 0 s t
        ∧ (t.part p).kv.hbm.base = arg img 0x18 0 52 ∧ (t.part p).kv.hbm.frames = arg img 0x20 0 28
        ∧ (t.part p).kv.far.frames = arg img 0x24 0 28 ∧ (t.part p).kv.quota = arg img 0x30 0 17
        ∧ ∀ f, (t.part p).kv.hbm.frame f = .dirty ∧ (t.part p).kv.far.frame f = .dirty)))
  ∧ (ok 0x201 true [(0x18, 0, 32), (0x1C, 0, 32)] →
      (shapeOf (arg img 0x18 0 32) (arg img 0x1C 0 32) = none → completes (.seqOpen r q) s (fails stField))
      ∧ ∀ (x : Seq), shapeOf (arg img 0x18 0 32) (arg img 0x1C 0 32) = some x →
        (kv.quota ≤ (s.openSeqs p).length → completes (.seqOpen r q) s (fails stSeqLimit))
        ∧ ∀ (j : Nat), (s.openSeqs p).length < kv.quota → s.freeSlot = some j →
          (tailFrames x ≠ 0 → kv.hbm.allocate j [tailFrames x] = none → completes (.seqOpen r q) s (failsWith stCacheFull kv.hbm.largestRun))
          ∧ ∀ fs (a : Arena), (tailFrames x = 0 → fs = [] ∧ a = kv.hbm) →
            (tailFrames x ≠ 0 → kv.hbm.allocate j [tailFrames x] = some (fs, a)) →
            completes (.seqOpen r q) s (fun t =>
              answered r q stOk (j + ((s.seq j).gen + 1).toNat * 2 ^ 16) 0 s t ∧ (t.part p).kv = { kv with hbm := a }
              ∧ t.seq j = { x with
                  gen := (s.seq j).gen + 1, part := p, jobTag := cmdTag img, plAddr := (t.seq j).plAddr, hbmFrames := tailFrames x
                  tailFrame := match fs with | f :: _ => BitVec.ofNat 32 f | [] => x.tailFrame }
              ∧ ∀ i, i ≠ j → t.seq i = s.seq i))
  ∧ (ok 0x202 false one →
      (s.seqLive p sid = false → completes (.seqQuery r q) s (fails stSeqStale))
      ∧ (s.seqLive p sid = true → completes (.seqQuery r q) s (fun t =>
          let word (o : Nat) : List Byte := (d.bytes.drop o).take 4
          let a := resultAnswer img (ofLe (word 0 ++ word 0x10 ++ word 0x14 ++ word 0x24)) d.bytes
          answered r q a.1 a.2.1 a.2.2 s t ∧ t.seqs = s.seqs)))
  ∧ (ok 0x203 true [(0x18, 0, 52), (0x20, 0, 17), (0x20, 31, 1), (0x28, 0, 52), (0x30, 0, 52), (0x38, 0, 52)] →
      ∀ (bs : List Byte) (i : BitVec 20) (n l : Nat), arg img 0x20 0 17 = 1 → u.readVa p (arg img 0x18 0 52) 16 = .ok bs →
      batchOf bs 1 = some [(i.toNat, n, l)] → u.tablesOk p img [(i.toNat, n, l)] = true → s.seqLive p i = true →
      let e := s.seq (seqSlot i)
      let new := newPages e e.covered (e.len + n) (e.plCap + 1)
      let need := new.map (fun x => pageFrames e (2 ^ x.2))
      (e.state = .opened → e.len + n ≤ 2 ^ 24 → e.pages.length + new.length ≤ e.plCap →
        ∀ fs (a : Arena), kv.hbm.allocate (seqSlot i) need = some (fs, a) → completes (.seqReserve r q) s (fun t =>
          let b := resultAnswer img (1 + need.sum * 2 ^ 64) (leBytes 2 stOk)
          let f := t.seq (seqSlot i)
          answered r q b.1 b.2.1 b.2.2 s t ∧ (t.part p).kv = { kv with hbm := a }
          ∧ f.resEnd = max e.resEnd (e.len + n) ∧ f.len = e.len ∧ f.hbmFrames = e.hbmFrames + need.sum
          ∧ f.pages = e.pages ++ (new.zip fs).map (fun x => (⟨false, false, true, e.vFmt, e.kFmt, x.1.2, x.1.1, x.2⟩ : Page)))))
  ∧ (ok 0x204 false [(0x18, 0, 20), (0x1C, 0, 32)] →
      let len := arg img 0x1C 0 32
      (s.seqLive p sid = false → completes (.seqTrim r q) s (fails stSeqStale))
      ∧ (∀ st, s.seqLive p sid = true → s.trimStatus k len = some st → completes (.seqTrim r q) s (fails st))
      ∧ (s.seqLive p sid = true → s.trimStatus k len = none → completes (.seqTrim r q) s (fun t =>
          nowWaits p r q (.trim k len) s t ∧ t.seqs = s.seqs)))
  ∧ (ok 0x205 false one →
      (s.seqLive p sid = false → completes (.seqClose r q) s (fails stSeqStale))
      ∧ (s.seqLive p sid = true → completes (.seqClose r q) s (fun t => nowWaits p r q (.close k) s t ∧ t.seqs = s.seqs)))
  ∧ (ok 0x206 false one →
      ((s.cfg.farPorts = 0 ∨ kv.far.frames = 0) → completes (.seqEvict r q) s (fails stNoFar))
      ∧ (0 < s.cfg.farPorts → 0 < kv.far.frames → s.seqLive p sid = true →
          (d.state = .opened → d.len < d.resEnd → completes (.seqEvict r q) s (fails stSeqBusy))
          ∧ (d.state = .opened → d.resEnd ≤ d.len → kv.far.allocate k (seqRuns d) = none → completes (.seqEvict r q) s (fails stFarFull))
          ∧ (d.state = .opened → d.resEnd ≤ d.len → ∀ fs a, kv.far.allocate k (seqRuns d) = some (fs, a) →
              completes (.seqEvict r q) s (fun t => nowWaits p r q (.evict k) s t ∧ (t.part p).kv = { kv with far := a }
                ∧ (t.seq k).state = .evicting ∧ (t.seq k).target = fs ∧ (t.seq k).farFrames = (seqRuns d).sum ∧ (t.seq k).copied = false
                ∧ (t.seq k).pages = d.pages))
          ∧ (d.state = .evicted → completes (.seqEvict r q) s (fun t => answered r q stOk d.farFrames 0 s t ∧ t.seqs = s.seqs))))
  ∧ (ok 0x207 false one →
      (s.seqLive p sid = false → completes (.seqRestore r q) s (fails stSeqStale))
      ∧ (s.seqLive p sid = true →
          (d.state = .opened → completes (.seqRestore r q) s (fun t => answered r q stOk d.hbmFrames 0 s t ∧ t.seqs = s.seqs))
          ∧ (d.state = .evicted → kv.hbm.allocate k (seqRuns d) = none → completes (.seqRestore r q) s (failsWith stCacheFull kv.hbm.largestRun))
          ∧ (d.state = .evicted → ∀ fs a, kv.hbm.allocate k (seqRuns d) = some (fs, a) → completes (.seqRestore r q) s (fun t =>
              nowWaits p r q (.restore k) s t ∧ (t.part p).kv = { kv with hbm := a } ∧ (t.seq k).state = .restoring
              ∧ (t.seq k).target = fs ∧ (t.seq k).hbmFrames = (seqRuns d).sum ∧ (t.seq k).pages = d.pages))))
  ∧ (ok 0x208 false [] → completes (.kvStat r q) s (fun t =>
      let w := leBytes 4
      let data := w kv.hbm.zeroed ++ w kv.hbm.dirty ++ w kv.hbm.heldFrames ++ w kv.hbm.largestRun
      let more := w (kv.far.frames - kv.far.heldFrames) ++ w kv.far.heldFrames ++ w (s.openSeqs p).length ++ w kv.quota
      let a := resultAnswer img (ofLe data) (data ++ more)
      answered r q a.1 a.2.1 a.2.2 s t ∧ t.seqs = s.seqs))

/-- The mapping commands (R386, R391, R398, R401 to R403, R406, R407, R501). MAP writes the leaf of every page of its range and completes
with their number; UNMAP, a narrowing PROTECT and MIGRATE change the table at once and wait for the invalidation, or the copy; the status
of the first condition that fails leaves the table as it was. -/
def Obligations.MappingCommands : Prop :=
  ∀ (s : State) (r p : Nat) (q : BitVec 16) (img : BitVec 512),
  let ok (op : Nat) (fs : List (Nat × Nat × Nat)) : Prop := admitted ⟨op, false, false, true, fs⟩ r q p img s = true
  let space := (s.part p).space
  let fails (st : Nat) (t : State) : Prop := answered r q st 0 0 s t ∧ (t.part p).space = space
  let c := mapCmd img
  let b := c.va + c.pages * pageBytes c.big
  let old := space.leavesIn c.va b
  let leafAfter (t : State) (va : Nat) : Option Leaf := kget none (t.part p).space.leaves (pageKey va)
  let kept (vs : List Nat) (t : State) : Prop :=
    ∀ n, ¬ n ∈ vs.map pageKey → kget none (t.part p).space.leaves n = kget none space.leaves n
  (ok 0x300 [(0x18, 0, 52), (0x20, 0, 32), (0x24, 0, 7), (0x28, 0, 41)] →
    ((c.rangeOk && c.targetOk) = false → completes (.map r q) s (fails stField))
    ∧ (c.rangeOk = true → c.targetOk = true → c.replace = false →
        (old ≠ [] → completes (.map r q) s (fails stPageMapped))
        ∧ (old = [] → c.vas.all (fun v => s.leafOk p (c.leaf v)) = false → completes (.map r q) s (fails stRegion))
        ∧ (old = [] → c.vas.all (fun v => s.leafOk p (c.leaf v)) = true →
            let tables := (c.vas.foldl (fun t v => t.put v (some (c.leaf v))) space).tables
            (tables ≤ 3 + Config.tableCapacity p → completes (.map r q) s (fun t =>
              answered r q stOk c.pages 0 s t ∧ (∀ v ∈ c.vas, leafAfter t v = some (c.leaf v)) ∧ kept c.vas t))
            ∧ (3 + Config.tableCapacity p < tables → completes (.map r q) s (fails stTableFull)))))
  ∧ (ok 0x301 [(0x18, 0, 52), (0x20, 0, 32), (0x24, 0, 1)] → c.rangeOk = true → old.all (fun x => x.2.big == c.big) = true →
      ((s.part p).kv.meetsArena c.va b = true → completes (.unmap r q) s (fails stSeqBusy))
      ∧ ((s.part p).kv.meetsArena c.va b = false → old.any (fun x => x.2.pin) = true → completes (.unmap r q) s (fails stPinned))
      ∧ ((s.part p).kv.meetsArena c.va b = false → old.any (fun x => x.2.pin) = false → completes (.unmap r q) s (fun t =>
          nowWaits p r q (.invalidate old.length) s t ∧ (∀ x ∈ old, leafAfter t x.1 = none) ∧ kept (old.map (·.1)) t)))
  ∧ (ok 0x302 [(0x18, 0, 52), (0x20, 0, 32), (0x24, 0, 4)] → c.rangeOk = true → old.all (fun x => x.2.big == c.big) = true →
      ((s.part p).kv.meetsArena c.va b = true → (c.pin && c.rd && c.wr) = false → completes (.protect r q) s (fails stSeqBusy))
      ∧ ((s.part p).kv.meetsArena c.va b = false → old.any (fun x => x.2.pin && c.narrows x.2) = true → s.meetsLb p c.va b = false →
        completes (.protect r q) s (fails stPinned))
      ∧ ((s.part p).kv.meetsArena c.va b = false → old.any (fun x => x.2.pin) = false → space.moving = [] →
          let after (t : State) : Prop :=
            (∀ x ∈ old, ∃ y ∈ old, y.1 = x.1 ∧ leafAfter t x.1 = some { y.2 with rd := c.rd, wr := c.wr, pin := c.pin }) ∧ kept (old.map (·.1)) t
          (old.any (fun x => c.narrows x.2) = false → completes (.protect r q) s (fun t => answered r q stOk old.length 0 s t ∧ after t))
          ∧ (old.any (fun x => c.narrows x.2) = true → completes (.protect r q) s (fun t =>
              nowWaits p r q (.invalidate old.length) s t ∧ after t))))
  ∧ (ok 0x303 [(0x18, 0, 52), (0x24, 0, 1), (0x24, 5, 2), (0x28, 0, 41)] →
      let m := { c with pages := 1 }
      m.rangeOk = true → m.targetOk = true →
      (kget none space.leaves (pageKey c.va) = none → s.leafOk p (m.leaf c.va) = true → completes (.migrate r q) s (fails stNotMapped))
      ∧ (∀ l, kget none space.leaves (pageKey c.va) = some l → l.big = c.big →
          (l.pin = true → completes (.migrate r q) s (fails stPinned))
          ∧ (l.pin = false → s.leafOk p (m.leaf c.va) = false → completes (.migrate r q) s (fails stRegion))
          ∧ (l.pin = false → s.leafOk p (m.leaf c.va) = true → space.moving.any (fun x => decide (x.va = c.va)) = false →
              completes (.migrate r q) s (fun t => nowWaits p r q (.migrate c.va) s t
                ∧ leafAfter t c.va = some { l with wr := false } ∧ kept [c.va] t
                ∧ (t.part p).space.moving = space.moving ++ [⟨c.va, { m.leaf c.va with rd := l.rd, wr := l.wr, pin := l.pin }⟩]))))
  ∧ (ok 0x304 [(0x18, 0, 10), (0x1C, 0, 24)] →
      let i := arg img 0x18 0 10
      let m := s.stream i
      let hit := m.bound && decide (m.part = p) && decide (m.fig = arg img 0x1C 0 24) && m.suspended.isSome
      (hit = false → completes (.faultAbort r q) s (fails stNotSuspended))
      ∧ (hit = true → completes (.faultAbort r q) s (fun t => answered r q stOk 0 0 s t ∧ (t.stream i).suspended = none
          ∧ (∀ e ∈ t.faults.entries, e.stream ≠ i)
          ∧ ∀ a, (s.part p).active m.fig = some a → ∃ a', (t.part p).active m.fig = some a' ∧ a'.aborting.isSome = true)))
  ∧ (ok 0x305 [] → completes (.hotRead r q) s (fun t =>
      let n := if resultVa img = 0 then 0 else min space.hot.length (resultLen img / 16)
      let a := resultAnswer img (n + space.hotDropped % 2 ^ 32 * 2 ^ 32)
        (space.hot.flatMap (fun h => leBytes 8 (h.1 * 2 ^ 25) ++ leBytes 4 h.2.1 ++ leBytes 4 h.2.2))
      answered r q a.1 a.2.1 a.2.2 s t ∧ (t.part p).space = { space with hot := [], hotDropped := 0 }))
  ∧ (ok 0x306 [(0x18, 0, 32), (0x1C, 0, 1)] → completes (.hotSet r q) s (fun t => answered r q stOk 0 0 s t
      ∧ (t.part p).space = { space with hotThreshold := arg img 0x18 0 32, hotFarOnly := arg img 0x1C 0 1 == 1 }))
  ∧ (ok 0x307 [] → completes (.tableDigest r q) s (fun t =>
      let ls := space.leavesIn 0 (2 ^ 52)
      answered r q stOk ((crc32 (ls.flatMap (fun x => leBytes 8 x.1 ++ leBytes 8 x.2.entry))).toNat + ls.length * 2 ^ 32) 0 s t
      ∧ (t.part p).space = space))

/-- Fabric tables, landing buffers, snapshots and Partners (R421 to R425, R437, R439, R449, R450, R452, R502, R503, R566, R579, R583 to
R585): the tables load from an image that verifies, tempo groups of which this device is the root once their probes return; a landing
buffer takes pinned pages of a HBM region; a restore takes a slot's, or a mirror's, header, body and CRCs. In `u` the command has started.
-/
def Obligations.FabricCommands : Prop :=
  ∀ (s : State) (r p : Nat) (q : BitVec 16) (img : BitVec 512),
  let ok (op : Nat) (job : Bool) (fs : List (Nat × Nat × Nat)) : Prop := admitted ⟨op, false, job, true, fs⟩ r q p img s = true
  let me := s.part p
  let u := markStarted r q s
  let fails (st : Nat) (t : State) : Prop := answered r q st 0 0 s t ∧ t.part p = me ∧ t.lbs = s.lbs
  let image := u.imageAt p (arg img 0x20 0 52) (arg img 0x28 0 32)
  let route (t : State) (n : Nat) : BitVec 64 := kget 0 (t.part p).plane.routes n
  (ok 0x400 false [(0x18, 0, 10), (0x20, 0, 52), (0x28, 0, 32)] → ∀ rs, image.bind routeImage = some rs →
    (rs.length ≠ 1024 → completes (.fabricSet r q) s (fails stField))
    ∧ (rs.length = 1024 → me.run ≠ none → completes (.fabricSet r q) s (fails stFabricBusy))
    ∧ (rs.length = 1024 → me.run = none → completes (.fabricSet r q) s (fun t => answered r q stOk 0 0 s t
        ∧ (t.part p).plane.valid = true ∧ (t.part p).plane.node.toNat = arg img 0x18 0 10
        ∧ ∀ i, i < 1024 → route t i = BitVec.ofNat 64 (nth rs i))))
  ∧ (ok 0x401 false [(0x18, 0, 10), (0x20, 0, 52), (0x28, 0, 32)] → ∀ rs, image.bind routeImage = some rs →
      let n := arg img 0x18 0 10
      (1024 < n + rs.length → completes (.routeSet r q) s (fails stField))
      ∧ (n + rs.length ≤ 1024 → completes (.routeSet r q) s (fun t => answered r q stOk 0 0 s t
          ∧ (∀ i, i < rs.length → route t (n + i) = BitVec.ofNat 64 (nth rs i))
          ∧ ∀ i, (i < n ∨ n + rs.length ≤ i) → route t i = route s i)))
  ∧ (ok 0x402 false [(0x20, 0, 52), (0x28, 0, 32)] → ∀ (gs : List (Nat × Group)), image.bind groupImage = some gs →
      (∀ c, me.run ≠ none → me.chor = some c → gs.any (fun g => decide (g.1 = c.tempoGroup)) = true →
        completes (.groupSet r q) s (fails stFabricBusy))
      ∧ (me.run = none →
          let probes := (gs.filter (fun g => g.2.tempo && g.2.root && !g.2.children.isEmpty)).map (·.1)
          (probes = [] → completes (.groupSet r q) s (fun t => answered r q stOk 0 0 s t
            ∧ (∀ g, ¬ g ∈ gs.map (·.1) → kget none (t.part p).plane.groups g = kget none me.plane.groups g)
            ∧ ∀ x ∈ gs, ∃ y ∈ gs, y.1 = x.1 ∧ kget none (t.part p).plane.groups x.1 = some y.2))
          ∧ (probes ≠ [] → completes (.groupSet r q) s (fun t =>
              nowWaits p r q (.groupSet gs probes 0) s t ∧ (t.part p).plane.groups = me.plane.groups))))
  ∧ (ok 0x403 false [(0x18, 0, 12), (0x20, 0, 52), (0x28, 0, 21)] →
      let lb := arg img 0x18 0 12
      let base := arg img 0x20 0 52
      let k := arg img 0x28 0 21
      (s.ownsLb p lb = false ∨ base % 512 ≠ 0 ∨ k = 0 ∨ 2 ^ 20 < k ∨ 2 ^ 52 < base + 4096 * k → completes (.lbSet r q) s (fails stField))
      ∧ (s.ownsLb p lb = true → base % 512 = 0 → 0 < k → k ≤ 2 ^ 20 → base + 4096 * k ≤ 2 ^ 52 →
          (u.regionRefused p base (4096 * k) = false → u.pinned p base (4096 * k) = false → completes (.lbSet r q) s (fails stField))
          ∧ (u.pinned p base (4096 * k) = true → me.run ≠ none → completes (.lbSet r q) s (fails stLbBusy))
          ∧ (me.run = none → u.regionRefused p base (4096 * k) = true → completes (.lbSet r q) s (fails stRegion))
          ∧ (me.run = none → u.regionRefused p base (4096 * k) = false → u.pinned p base (4096 * k) = true →
              completes (.lbSet r q) s (fun t => answered r q stOk 0 0 s t ∧ t.landBuf lb = ⟨true, base, 4096 * k⟩
                ∧ ∀ n, n ≠ lb → t.landBuf n = s.landBuf n))))
  ∧ (ok 0x404 false [(0x18, 0, 12)] →
      let lb := arg img 0x18 0 12
      (s.ownsLb p lb = false → completes (.lbClear r q) s (fails stField))
      ∧ (s.ownsLb p lb = true → me.run ≠ none → completes (.lbClear r q) s (fails stLbBusy))
      ∧ (s.ownsLb p lb = true → me.run = none → completes (.lbClear r q) s (fun t => answered r q stOk 0 0 s t
          ∧ (t.landBuf lb).isSet = false ∧ (lb = s.mirrorLb p → (t.part p).snap.held = none) ∧ ∀ n, n ≠ lb → t.landBuf n = s.landBuf n)))
  ∧ (ok 0x405 false [(0x18, 0, 2)] →
      let gives (bs : List Byte) (t : State) : Prop :=
        let a := resultAnswer img 0 bs
        answered r q a.1 a.2.1 a.2.2 s t
      (arg img 0x18 0 2 = 1 → completes (.tableRead r q) s (gives me.plane.routeImage))
      ∧ (arg img 0x18 0 2 = 2 → completes (.tableRead r q) s (gives me.plane.groupImage))
      ∧ (arg img 0x18 0 2 ≠ 1 → arg img 0x18 0 2 ≠ 2 → completes (.tableRead r q) s (fails stField)))
  ∧ (ok 0x406 false [(0x18, 0, 6)] →
      let n := arg img 0x18 0 6
      (s.cfg.linkPorts ≤ n → completes (.linkQuery r q) s (fails stField))
      ∧ (n < s.cfg.linkPorts → s.portOwner n ≠ some p → completes (.linkQuery r q) s (fails stPort))
      ∧ (n < s.cfg.linkPorts → s.portOwner n = some p → completes (.linkQuery r q) s (fun t =>
          let c := (s.port n).cnt
          let a := resultAnswer img (s.linkStat n) ([c.tx, c.rx, c.fecCorr, c.fecUnc, c.retry, c.crwait].flatMap (leBytes 4))
          answered r q a.1 a.2.1 a.2.2 s t)))
  ∧ (ok 0x500 false [(0x18, 0, 48), (0x20, 0, 32), (0x24, 0, 5)] →
      let base := arg img 0x18 0 48
      let mb := arg img 0x20 0 32
      let slots := arg img 0x24 0 5
      (s.snapFields p base mb slots = false → completes (.snapSet r q) s (fails stField))
      ∧ (s.snapFields p base mb slots = true → (me.snap.writing || me.snap.mirroring) = true → completes (.snapSet r q) s (fails stSnapBusy))
      ∧ (s.snapFields p base mb slots = true → (me.snap.writing || me.snap.mirroring) = false → me.run = none →
          completes (.snapSet r q) s (fun t => answered r q stOk 0 0 s t ∧ (t.part p).snap.set = true ∧ (t.part p).snap.nvmBase = base
            ∧ (t.part p).snap.slotMb = mb ∧ (t.part p).snap.slots = slots ∧ (t.part p).snap.bad = [] ∧ t.nvm = s.nvm)))
  ∧ (ok 0x501 true [(0x18, 0, 9)] → ∀ mirror : List Byte,
      let n := me.snap
      let partner := bit (arg img 0x18 0 9) 8
      let slot := if arg img 0x18 0 8 = 0xFF then n.latest else some (arg img 0x18 0 8)
      (me.run ≠ none → completes (.snapRestore r q mirror) s (fails stChorBusy))
      ∧ (me.run = none → n.busy = true → completes (.snapRestore r q mirror) s (fails stSnapBusy))
      ∧ (me.run = none → n.busy = false → partner = true → n.partner = none → completes (.snapRestore r q mirror) s (fails stSnapInvalid))
      ∧ (me.run = none → n.busy = false → ∀ bs : List Byte, (partner = true → n.partner ≠ none ∧ bs = mirror) →
          (partner = false → ∃ i, slot = some i ∧ i < n.slots ∧ bs = s.nvmRead (n.slotAt i) (n.slotMb * 1000000)) →
          ((readHeader (bs.take 4096)).filter (fun h => decide (h.state = 2)) = none →
            completes (.snapRestore r q mirror) s (fails stSnapInvalid))
          ∧ ∀ h, (readHeader (bs.take 4096)).filter (fun h => decide (h.state = 2)) = some h →
            (s.restorable p h = none → completes (.snapRestore r q mirror) s (fails stSnapInvalid))
            ∧ ∀ i m, s.restorable p h = some (i, m) →
              let table := (bs.drop 4096).take (crcBytes h.bodyBytes)
              let body := (bs.drop (4096 + crcBytes h.bodyBytes)).take h.bodyBytes
              ((body.length ≠ h.bodyBytes ∨ crcsOk table body = false) → completes (.snapRestore r q mirror) s (fun t =>
                answered r q stSnapInvalid 0 0 s t ∧ (t.part p).snap.resume = n.resume ∧ (t.part p).spin = me.spin))
              ∧ (body.length = h.bodyBytes → crcsOk table body = true → completes (.snapRestore r q mirror) s (fun t =>
                (∃ st d b, answered r q st d b s t ∧ (resultVa img = 0 → st = stOk ∧ d = h.beat ∧ b = 0))
                ∧ (t.part p).snap.resume = some (h.beat, h.iteration, i) ∧ (t.part p).spin = spinsOf body ∧ (t.part p).flags = Flags.none))))
  ∧ (ok 0x502 false [] → completes (.snapQuery r q) s (fun t =>
      let a := resultAnswer img (me.snap.latest.getD 0xFF) ((List.range me.snap.slots).flatMap (s.slotRecord p))
      answered r q a.1 a.2.1 a.2.2 s t))
  ∧ (ok 0x503 false [(0x18, 0, 10), (0x18, 16, 2)] →
      (me.run ≠ none → completes (.setPartner r q) s (fails stChorBusy))
      ∧ (me.run = none → arg img 0x18 17 1 = 1 → completes (.setPartner r q) s (fun t =>
          answered r q stOk 0 0 s t ∧ (t.part p).snap.partner = none ∧ (t.part p).snap.atRisk = false))
      ∧ (me.run = none → arg img 0x18 17 1 = 0 → completes (.setPartner r q) s (fun t =>
          nowWaits p r q (.setPartner (arg img 0x18 0 10) (arg img 0x18 16 1 = 1)) s t ∧ (t.part p).snap = me.snap)))

/-- Counters, power, debug halts and firmware (R484 to R486, R492, R503, R504, R515, R532, R535, R536, R541, R562, R630, R670). In `u` the
command has started. -/
def Obligations.ServiceCommands : Prop :=
  ∀ (s : State) (r p : Nat) (q : BitVec 16) (img : BitVec 512),
  let ok (op : Nat) (admin : Bool) (fs : List (Nat × Nat × Nat)) : Prop := admitted ⟨op, admin, false, false, fs⟩ r q p img s = true
  let u := markStarted r q s
  let fails (st : Nat) (t : State) : Prop := answered r q st 0 0 s t ∧ t.cores = s.cores ∧ t.pmu = s.pmu ∧ t.nvm = s.nvm ∧ t.parts = s.parts
  let gives (data : Nat) (bs : List Byte) (t : State) : Prop :=
    let a := resultAnswer img data bs
    answered r q a.1 a.2.1 a.2.2 s t
  (ok 0x600 false [(0x18, 0, 1)] →
    let a := (s.part p).acct
    (arg img 0x18 0 1 = 0 → completes (.counterRead r q) s (gives s.beat.cnt.toNat (a.live.flatMap (leBytes 8) ++ leBytes 8 a.sat.toNat)))
    ∧ (arg img 0x18 0 1 = 1 → completes (.counterRead r q) s (gives a.barBeat.toNat (a.bar.flatMap (leBytes 8) ++ leBytes 8 a.sat.toNat))))
  ∧ (ok 0x610 true [(0x18, 0, 2)] →
      let n := arg img 0x18 0 2
      (s.pmu.transition = true → completes (.powerState r q) s (fun t => t = s))
      ∧ (s.pmu.transition = false →
          (2 ≤ n → s.anyRun = true → completes (.powerState r q) s (fails stPowerBusy))
          ∧ (n = s.pmu.state → (2 ≤ n → s.anyRun = false) → completes (.powerState r q) s (fails stOk))
          ∧ (n ≠ s.pmu.state → n < 2 → s.pmu.state < 2 → (n = 1 → s.busyNow = false) → completes (.powerState r q) s (fun t =>
              answered r q stOk 0 0 s t ∧ t.pmu = { s.pmu with state := n, target := n }))
          ∧ (n ≠ s.pmu.state → (2 ≤ n → s.anyRun = false) → (2 ≤ n ∨ 2 ≤ s.pmu.state) → completes (.powerState r q) s (fun t =>
              nowWaits p r q (.power n) s t ∧ t.pmu = { s.pmu with target := n, transition := true }))))
  ∧ (ok 0x611 true [(0x18, 0, 16)] → completes (.powerCap r q) s (fun t => answered r q stOk 0 0 s t
      ∧ let v := arg img 0x18 0 16
        let top := maxPower s.cfg
        ((v = 0 ∨ top < v) → t.pmu.capW = top) ∧ (0 < v → v ≤ top → t.pmu.capW = max v (top * 3 / 10))))
  ∧ (ok 0x620 false [] → completes (.healthRead r q) s (gives s.healthWord
      (leBytes 8 (maskWord s.fencedCores) ++ leBytes 32 (maskWord s.failedChannels) ++ leBytes 8 (maskWord s.failedPorts))))
  ∧ (ok 0x700 true [(0x18, 0, 6)] →
      let c := arg img 0x18 0 6
      (s.cfg.cores ≤ c → completes (.debugHalt r q) s (fails stField))
      ∧ (c < s.cfg.cores → (s.debugPart c = none ∨ s.prot.dbgHalt = false) → completes (.debugHalt r q) s (fails stDenied))
      ∧ (∀ o, c < s.cfg.cores → s.debugPart c = some o → s.prot.dbgHalt = true →
          ((s.part o).run ≠ none → completes (.debugHalt r q) s (fails stChorBusy))
          ∧ ((s.part o).run = none → completes (.debugHalt r q) s (fun t =>
              answered r q stOk 0 0 s t ∧ t.core c = { s.core c with halted := true } ∧ othersSame c s t ∧ t.pmu.state ≠ 1))))
  ∧ (ok 0x701 true [(0x18, 0, 6)] →
      let c := arg img 0x18 0 6
      (s.cfg.cores ≤ c → completes (.debugResume r q) s (fails stField))
      ∧ (c < s.cfg.cores → s.copyingFrom c = true → completes (.debugResume r q) s (fun t =>
          nowWaits p r q (.debugResume c) s t ∧ t.cores = s.cores ∧ t.pmu.state ≠ 1))
      ∧ (c < s.cfg.cores → s.copyingFrom c = false → completes (.debugResume r q) s (fun t =>
          answered r q stOk 0 0 s t ∧ t.core c = { s.core c with halted := false } ∧ othersSame c s t ∧ t.pmu.state ≠ 1)))
  ∧ (ok 0x800 true [(0x18, 0, 52), (0x20, 0, 23), (0x24, 0, 17)] →
      let off := arg img 0x20 0 23
      let n := arg img 0x24 0 17
      (n = 0 ∨ 65536 < n ∨ maxImage < off + n ∨ u.pinned p (arg img 0x18 0 52) n = false → completes (.fwStage r q) s (fails stField))
      ∧ (0 < n → n ≤ 65536 → off + n ≤ maxImage → u.pinned p (arg img 0x18 0 52) n = true → ∀ i x, s.bootRec = some (i, x) →
          (x.updating = true → completes (.fwStage r q) s (fails stFwBusy))
          ∧ (∀ bs : List Byte, x.updating = false → u.readVa p (arg img 0x18 0 52) n = .ok bs → completes (.fwStage r q) s (fun t =>
              let a := fwSlotAt x.spare
              let inSlot (b : Nat) : Prop := a ≤ b ∧ b < a + 2 ^ 23
              answered r q stOk 0 0 s t
              ∧ (∀ k b, bs[k]? = some b → kget 0xFF t.nvm (a + off + k) = b)
              ∧ (∀ b, (b < a + off ∨ a + off + bs.length ≤ b) → (off ≠ 0 ∨ ¬ inSlot b) → kget 0xFF t.nvm b = kget 0xFF s.nvm b)
              ∧ (∀ b, off = 0 → inSlot b → a + bs.length ≤ b → kget 0xFF t.nvm b = 0xFF)))))
  ∧ (ok 0x801 true [(0x18, 0, 23)] → ∀ i x, s.bootRec = some (i, x) →
      let n := arg img 0x18 0 23
      (x.updating = true → completes (.fwCommit r q) s (fails stFwBusy))
      ∧ (x.updating = false → (maxImage < n ∨ s.stagedOk x.spare n = false) → completes (.fwCommit r q) s (fails stFwInvalid))
      ∧ (x.updating = false → n ≤ maxImage → s.stagedOk x.spare n = true → x.gen + 1 < 2 ^ 32 → completes (.fwCommit r q) s (fun t =>
          answered r q stOk 0 0 s t
          ∧ t.bootRec = some (1 - i, { (x.setState x.spare 2).setLen x.spare n with gen := x.gen + 1 }))))
  ∧ (ok 0x802 true [(0x18, 0, 1)] →
      let now := arg img 0x18 0 1 = 1
      let pending := (s.bootRec.bind (fun x => x.2.slotIn 2)).isSome
      (now → s.workOpen = true → completes (.fwActivate r q) s (fails stFwBusy))
      ∧ ((now → s.workOpen = false) → pending = false → completes (.fwActivate r q) s (fails stFwInvalid))
      ∧ (¬ now → pending = true → completes (.fwActivate r q) s (fails stOk))
      ∧ (now → s.workOpen = false → pending = true → completes (.fwActivate r q) s (fun t =>
          t.seqs = [] ∧ t.lbs = [] ∧ t.clms = [] ∧ t.utlbs = [] ∧ t.faults.entries = []
          ∧ (∀ k, (t.part k).chor = none ∧ (t.part k).waiting = [] ∧ (t.part k).kv = Part.reset.kv ∧ (t.part k).space = Space.reset)
          ∧ (t.fw.state = .running → ∀ k, k < 16 → (s.ringOwner k).isSome = true →
              (t.ring k).state = .ready ∧ (t.ring k).opened = [] ∧ (t.ring k).prod = 0 ∧ (t.ring k).ctail = 0 ∧ (t.ring k).versionRead = false))))
  ∧ (ok 0x803 true [] →
      (s.bootRec = none → completes (.fwConfirm r q) s (fails stFwInvalid))
      ∧ ∀ i x, s.bootRec = some (i, x) →
        (x.slotIn 3 = none → completes (.fwConfirm r q) s (fails stFwInvalid))
        ∧ ∀ j, x.slotIn 3 = some j → x.gen + 1 < 2 ^ 32 → completes (.fwConfirm r q) s (fun t =>
            answered r q stOk 0 0 s t ∧ t.fw.trial = false
            ∧ t.bootRec = some (1 - i, { (x.setState j 1).setState (1 - j) 0 with gen := x.gen + 1 })))

/-! ### Snapshots, power, resets and registers -/

/-- Snapshots, NVM and Partners (R573 to R582, R625, R626). The copy stages the body and begins the slot write, or stops with its cause;
the slot becomes the latest, or is BAD; an NVM response ends its request, and a write that succeeds leaves its bytes; a mirror that
completes or times out is over; a Partner is set if it offers a buffer and the feeds differ, or may agree. -/
def Obligations.SnapshotsAndPartners : Prop :=
  ∀ (s : State) (p : Nat),
  let me := s.part p
  let n := me.snap
  let snap (t : State) : Snap := (t.part p).snap
  (∀ (bad : List (Nat × Nat)) beat fixed m, n.staging = some (beat, fixed) → me.stageManifest = some m → s.cc2Runs = true →
    n.writing = false → n.mirroring = false → s.nvmReqs = [] →
    (∀ body, s.copyRanges p bad m.ranges fixed = .ok body → completes (.snapStagingDone p bad) s (fun t =>
      (snap t).staging = some (beat, body) ∧ (snap t).snapSeq = n.snapSeq + 1 ∧ (snap t).writing = true
      ∧ (snap t).mirroring = (m.mirror && n.partner.isSome)
      ∧ t.nvmReqs.map (fun r => (r.op, r.addr, r.lines)) = [(1, n.slotAt n.nextSlot, 1)]))
    ∧ (∀ l, s.copyRanges p bad m.ranges fixed = .memory l → completes (.snapStagingDone p bad) s (fun t =>
        (snap t).staging = none ∧ (snap t).failed = true ∧ (snap t).lastCause = 2 ∧ t.nvmReqs = []))
    ∧ (∀ c row, s.copyRanges p bad m.ranges fixed = .parity c row → completes (.snapStagingDone p bad) s (fun t =>
        (snap t).staging = none ∧ (snap t).failed = true ∧ (snap t).lastCause = 3 ∧ (t.core c).perrBar = (s.core c).perrBar + 1)))
  ∧ (∀ beat body, n.staging = some (beat, body) → s.cc2Runs = true → n.writing = true → s.snapAsked p = false →
      completes (.snapSlotWritten p true) s (fun t => (snap t).latest = some n.nextSlot ∧ (snap t).nextSlot = n.slotAfter n.nextSlot
        ∧ (snap t).writing = false ∧ (snap t).doneBit = true ∧ (n.mirroring = false → (snap t).staging = none)
        ∧ ∀ k b, (slotHeader 2 n.wear n.stageHdr ++ crcTable body ++ body)[k]? = some b → kget 0xFF t.nvm (n.slotAt n.nextSlot + k) = b)
      ∧ completes (.snapSlotWritten p false) s (fun t => (snap t).bad = n.nextSlot :: n.bad ∧ (snap t).writing = false
          ∧ (snap t).failed = true ∧ (snap t).lastCause = 4 ∧ (snap t).latest = n.latest))
  ∧ (s.cc2Runs = true → n.set = true → n.staging = none → n.writing = false → n.mirroring = false → s.nvmReqs = [] →
      n.latest ≠ some n.nextSlot → completes (.snapSlotErase p) s (fun t =>
        t.nvmReqs.map (fun r => (r.op, r.addr, r.lines)) = [(2, n.slotAt n.nextSlot, n.slotMb * 15625)] ∧ t.nvm = s.nvm))
  ∧ (∀ (tag : Nat) (data : BitVec 512) r, s.nvmReqs.find? (fun r => decide (r.tag = tag)) = some r →
      (r.op = 1 → completes (.nvmResponse tag true data) s (fun t => t.nvmReqs = s.nvmReqs.erase r ∧ t.parts = s.parts
        ∧ (∀ k b, (leBytes 64 r.data.toNat)[k]? = some b → kget 0xFF t.nvm (r.addr + k) = b)
        ∧ ∀ a, (a < r.addr ∨ r.addr + 64 ≤ a) → kget 0xFF t.nvm a = kget 0xFF s.nvm a))
      ∧ (r.op = 2 → r.why = 0 → completes (.nvmResponse tag true data) s (fun t => t.nvmReqs = s.nvmReqs.erase r
          ∧ (∀ a, r.addr ≤ a → a < r.addr + 64 * r.lines → kget 0xFF t.nvm a = 0xFF)
          ∧ ∀ a, (a < r.addr ∨ r.addr + 64 * r.lines ≤ a) → kget 0xFF t.nvm a = kget 0xFF s.nvm a))
      ∧ (r.op = 1 → r.why = 1 + p → n.writing = true → completes (.nvmResponse tag false data) s (fun t =>
          t.nvmReqs = s.nvmReqs.erase r ∧ (snap t).bad = n.nextSlot :: n.bad ∧ (snap t).lastCause = 4)))
  ∧ (∀ m, n.held = some m → m.header = true → completes (.mirrorDone p true) s (fun t => ∃ m', (snap t).held = some m'
      ∧ m'.node = m.node ∧ m'.complete = true ∧ m'.half = m.other ∧ ∀ k, k ≠ p → t.part k = s.part k))
  ∧ (n.mirroring = true → n.mirrorSent = true → completes (.mirrorDone p false) s (fun t =>
      (snap t).mirroring = false ∧ (snap t).mirrorHalf = 1 - n.mirrorHalf ∧ (n.writing = false → (snap t).staging = none)))
  ∧ (s.cc2Runs = true → n.mirroring = true → completes (.mirrorTimeout p) s (fun t => (snap t).mirroring = false
      ∧ (snap t).failed = true ∧ (snap t).lastCause = 6 ∧ (snap t).writing = n.writing ∧ t.nvm = s.nvm))
  ∧ (∀ w node may, me.waiting = [w] → w.what = .setPartner node may → ((s.ring w.ring).find w.seq).isSome = true →
      completes (.partnerTimeout p) s (fun t => answered w.ring w.seq stUnreachable 0 0 s t ∧ (t.part p).waiting = [] ∧ snap t = n)
      ∧ ∀ (feed : BitVec 16) (cap lb half : Nat), s.cc2Runs = true →
        let same := decide (s.pins.feed = 0) || decide (feed = 0) || decide (s.pins.feed = feed)
        ((cap = 0 ∨ cap < 2 * n.slotMb * 1000000) → completes (.partnerReply p feed cap lb half) s (fun t =>
          answered w.ring w.seq stField 0 0 s t ∧ snap t = n))
        ∧ (0 < cap → 2 * n.slotMb * 1000000 ≤ cap → same = true → may = false → completes (.partnerReply p feed cap lb half) s (fun t =>
            answered w.ring w.seq stSameFeed 0 0 s t ∧ snap t = n))
        ∧ (0 < cap → 2 * n.slotMb * 1000000 ≤ cap → (same = true → may = true) → completes (.partnerReply p feed cap lb half) s (fun t =>
            answered w.ring w.seq stOk (feed.toNat + (if same = true then 1 else 0) * 2 ^ 32) 0 s t ∧ (t.part p).waiting = []
            ∧ (snap t).partner = some node ∧ (snap t).atRisk = same ∧ (snap t).partnerCap = cap)))
  ∧ ∀ node m, s.cc2Runs = true → (kget 0 me.plane.routes node).getLsbD 63 = true → s.nextPort p node = some m →
      let self := me.plane.node.toNat
      let lb := s.mirrorLb p
      completes (.partnerRequest p node 0) s (fun t => t.sends m (.partner node self 5 s.pins.feed.toNat (s.mirrorOffer p node) lb
        (match n.held with | some x => x.other | none => 0)))
      ∧ (s.mirrorOffer p node ≠ 0 → n.held = none → completes (.partnerRequest p node 1) s (fun t =>
          ∃ x, (snap t).held = some x ∧ x.node = node ∧ x.complete = false))
      ∧ completes (.partnerRequest p node 2) s (fun t => (snap t).held = n.held.filter (fun x => decide (x.node ≠ node)))
      ∧ (∀ x, n.held = some x → x.node = node → completes (.partnerRequest p node 3) s (fun t =>
          t.sends m (.credit node self lb ((s.landBuf lb).size / 1024))))

/-- Power and temperature (R353, R354, R448, R533 to R538, R541 to R548, R604). DUTY follows the trailing average within its ceiling, which
is 8 of 16 while the die is hot, THERM_THROTTLE is low or a droop warning lasts; the die's trip asserts INT_FATAL and the shutdown
request and stops every run; the states change as a transition ends. -/
def Obligations.PowerAndThermal : Prop :=
  ∀ (s : State), s.pins.phase = .running →
  let u := s.pmu
  (u.state = 0 → u.transition = false → s.busyNow = false →
    completes .p1IdleEntry s (fun t => t = { s with pmu := { u with state := 1, target := 1 } }))
  ∧ (∀ avg, completes (.dutyAdjust avg) s (fun t =>
      let top := if u.dieLevel = 0 ∧ u.throttle = false ∧ u.stretch = false then 16 else 8
      (1000 * u.capW < avg → t.pmu.duty = min (max 4 (u.duty - 1)) top)
      ∧ (avg ≤ 1000 * u.capW → avg < 950 * u.capW → u.duty < top → t.pmu.duty = u.duty + 1)
      ∧ (avg ≤ 1000 * u.capW → 950 * u.capW ≤ avg → t.pmu.duty = min u.duty top)
      ∧ t.pmu.duty ≤ top ∧ t.pmu.dutyMin = min u.dutyMin t.pmu.duty ∧ t = { s with pmu := { u with duty := t.pmu.duty, dutyMin := t.pmu.dutyMin } }))
  ∧ (∀ avg, completes (.capWindowEnd avg) s (fun t => t.pmu = { u with avgW := avg / 1000, overCap := decide (1000 * u.capW < avg) }
      ∧ ((avg ≤ 1000 * u.capW ∨ u.overCap = true) → t.rings = s.rings)))
  ∧ (∀ i, (i = 0 ∨ (0 < i ∧ i ≤ 15 ∧ u.monEn.getLsbD (i - 1) = true)) → u.stretch = false →
      completes (.droopWarnStart i) s (fun t => t.pmu.stretch = true ∧ t.pmu.duty = min u.duty 8 ∧ t.pmu.droopBar = true ∧ t.pmu.episode = i
        ∧ t.rings = s.rings))
  ∧ (∀ ns, u.stretch = true → completes (.droopWarnEnd ns) s (fun t => t.pmu.stretch = false ∧ t.pmu.droopWarn = true
      ∧ t.pmu.droopCount = min 0xFFFF (u.droopCount + 1) ∧ t.pmu.droopSource = u.episode ∧ t.pmu.droopPosted = true ∧ t.pmu.duty = u.duty
      ∧ (u.droopPosted = true → u.droopCount < 0xFFFF → t.rings = s.rings)))
  ∧ (∀ temp, temp < 256 → completes (.dieTempRead temp) s (fun t => t.pmu.dieTemp = temp ∧ t.pmu.dieTempMax = max u.dieTempMax temp
      ∧ (u.dieTripC ≤ temp → t.pmu.dieLevel = 2) ∧ (u.dieLevel = 2 → t.pmu.dieLevel = 2)
      ∧ (u.dieLevel ≠ 2 → temp < u.dieTripC → u.dieHotC ≤ temp → t.pmu.dieLevel = 1)
      ∧ (u.dieLevel = 1 → temp < u.dieTripC → u.dieHotC ≤ temp + 3 → t.pmu.dieLevel = 1)
      ∧ (u.dieLevel = 1 → temp < u.dieTripC → temp + 3 < u.dieHotC → t.pmu.dieLevel = 0)
      ∧ (t.pmu.dieLevel ≠ 0 → t.pmu.duty ≤ 8)
      ∧ (u.dieTripC ≤ temp → u.dieLevel ≠ 2 → t.fatal.therm = true ∧ t.pins.shdnReq = true
          ∧ ∀ p r, p < 4 → (s.part p).run = some r →
            (r.active = [] → r.stopNow = false → (t.part p).run = none)
            ∧ (r.active ≠ [] → ∃ r', (t.part p).run = some r' ∧ r'.stopNow = true ∧ ∀ a ∈ r'.active, a.aborting.isSome = true))))
  ∧ (∀ b, completes (.thermThrottleChange b) s (fun t => t.pmu.throttle = b ∧ (b = true → t.pmu.duty ≤ 8) ∧ t.pmu.duty ≤ u.duty
      ∧ t.rings = s.rings))
  ∧ (u.transition = true → completes .powerTransitionDone s (fun t => t.pmu.state = u.target ∧ t.pmu.transition = false
      ∧ (∀ n, n < s.cfg.linkPorts → 2 ≤ u.target → (s.port n).state = .up → (t.port n).state = .keepalive ∧ (t.port n).width = 1)
      ∧ (∀ n, n < s.cfg.linkPorts → 2 ≤ u.state → u.target < 2 → (s.port n).state = .keepalive → (t.port n).state = .up)
      ∧ (∀ c, c < s.cfg.cores → 2 ≤ u.state → u.target < 2 → (t.core c).bank0 = Bank.clear ∧ (t.core c).bank1 = Bank.clear)
      ∧ (∀ k, k < s.cfg.hbmStacks → u.target = 3 → u.state ≠ 3 → (t.stackAt k).selfRefresh = true)
      ∧ (∀ k, k < s.cfg.hbmStacks → u.state = 3 → u.target ≠ 3 → (t.stackAt k).selfRefresh = false)))

/-- Resets, boot, bring-up and test (R327, R335, R340, R344, R362, R476, R486, R510, R516 to R519, R540, R546, R554, R615 to R618, R646 to
R652, R671 to R677). -/
def Obligations.ResetsAndBringUp : Prop :=
  ∀ (s : State),
  let fresh (t : State) : Prop := t.prot = Prot.reset ∧ t.fw = Fremund.reset ∧ t.parts = [] ∧ t.cores = [] ∧ t.sets = [] ∧ t.regions = []
    ∧ t.rings = [] ∧ t.ringMem = [] ∧ t.ports = [] ∧ t.seqs = [] ∧ t.lbs = [] ∧ t.nvmReqs = [] ∧ t.beat = BeatUnit.reset ∧ t.cfg = s.cfg
  ((s.pins.phase = .running ∨ s.pins.phase = .testMode) → completes .resetEntry s (fun t => fresh t ∧ t.pins.phase = .entry
    ∧ t.pins.rstAck = false ∧ (s.nvmReqs = [] → t.nvm = s.nvm)
    ∧ ∀ ch, ch < s.cfg.channels → (s.channel ch).mem ≠ [] → (∀ k, (s.channel k).wcb = []) → (s.stackAt (ch / 32)).staged = 0 →
        (t.channel ch).mem = (s.channel ch).mem ∧ (t.channel ch).poison = (s.channel ch).poison))
  ∧ (s.pins.phase = .entry → completes .resetEntryDone s (fun t => t = { s with pins := { s.pins with phase := .held, rstAck := true } }))
  ∧ (∀ i, s.pins.phase ≠ .cold → (i = 0 ∨ (0 < i ∧ i ≤ 15 ∧ s.pmu.monEn.getLsbD (i - 1) = true)) → completes (.supplyFailure i) s (fun t =>
      fresh t ∧ t.pins.phase = .held ∧ t.pmu.rstSupply = true ∧ t.pmu.rstSource = i ∧ t.fatal.supply = true))
  ∧ completes .porAssert s (fun t => fresh t ∧ t.pins.phase = .cold
      ∧ ∀ ch, ch < s.cfg.channels → (t.channel ch).mem = [] ∧ (t.channel ch).undef.isSome = true)
  ∧ (s.pins.phase = .cold → completes .porRelease s (fun t => t.pins.phase = .held ∧ t.pmu.rstSupply = false ∧ t.pmu.rstSource = 0
      ∧ t.fatal.supply = false ∧ t.pins.fuseReq = true ∧ t.pins.fuseAddr = 16 ∧ t.prot = s.prot))
  ∧ (∀ b : BootInput, s.pins.phase = .held →
      (b.testMode = false → completes (.resetRelease b) s (fun t => t.pins.phase = .running ∧ t.pins.rstAck = false ∧ t.pins.blkRstN = true
        ∧ t.pins.feed = b.feed ∧ t.pins.fuseReq = true ∧ t.cores = s.cores ∧ t.ringMem = s.ringMem))
      ∧ (b.testMode = true → completes (.resetRelease b) s (fun t => t.pins.phase = .testMode ∧ t.pins.testReady = true ∧ t.pins.rstAck = false
          ∧ t.cores = [] ∧ t.ringMem = [] ∧ ∀ ch, ch < s.cfg.channels → (t.channel ch).mem = [] ∧ (t.channel ch).undef.isSome = true)))
  ∧ (∀ w : BitVec 32, s.pins.fuseReq = true →
      let i := s.pins.fuseAddr
      (i ≠ 13 → i ≠ 271 → completes (.fuseAck w) s (fun t => t.pins = { s.pins with fuses := kset 0 s.pins.fuses i w, fuseAddr := i + 1 }
        ∧ t.prot = s.prot))
      ∧ (i = 271 → completes (.fuseAck w) s (fun t => t.pins.fuseAddr = 0 ∧ t.pins.fuseReq = decide (s.pins.phase = .running)))
      ∧ (i = 13 → s.prot.lock = false →
          let s0 := { s with pins := { s.pins with fuses := kset 0 s.pins.fuses 13 w, fuseAddr := 14, fuseReq := false } }
          let s1 := { s0 with prot := { s0.prot with svnMin := s0.minSvn, bootStage := 1 } }
          let body := protRecords (s1.imageBody 0x10000)
          let stops (c : Nat) (t : State) : Prop := t.prot.bootFail = c ∧ t.fatal.bootStop = true ∧ t.prot.lock = false ∧ t.fw.state = s.fw.state
          (∀ c, s1.imageFault 0x0A5E0B02 (2 ^ 16) 0x10000 = some c → completes (.fuseAck w) s (fun t => stops c t ∧ t.prot.bootStage = 1))
          ∧ (s1.imageFault 0x0A5E0B02 (2 ^ 16) 0x10000 = none →
              (writeRecords body s1 = none → completes (.fuseAck w) s (stops 7))
              ∧ ∀ s2, writeRecords body s1 = some s2 →
                let s3 := { s2 with prot := { s2.prot with bootStage := 2, protMeasure := measureOf (s1.nvmRead 0x10010 48) } }
                (∀ c j, s3.lockRefusal = some (c, j) → completes (.fuseAck w) s (fun t =>
                  stops 8 t ∧ t.prot.refuse = c ∧ t.prot.refIndex = j ∧ t.prot.bootStage = 2))
                ∧ (s3.lockRefusal = none → completes (.fuseAck w) s (fun t => t.prot.lock = true
                    ∧ ((t.fw.state = .running ∧ t.prot.bootStage = 5) ∨ (t.fatal.bootStop = true ∧ t.prot.bootStage = 3)))))))
  ∧ (s.pins.phase = .running → s.fwRunning = true →
      (∀ x : SelfTestResult, s.fw.selfTests = false → completes (.selfTests x) s (fun t => t.fw.selfTests = true
        ∧ (∀ c, c < s.cfg.cores → (t.core c).spm = [] ∧ (t.core c).bank0 = Bank.clear ∧ (t.core c).bank1 = Bank.clear)
        ∧ (∀ c, c < s.cfg.cores → s.setEnabled (c / 4) = true → (c ∈ x.cores ∨ c / 4 ∈ x.sets) → (t.core c).fenced = true)
        ∧ (x.block = true → t.fw.state = .panic ∧ t.fatal.panic = true)))
      ∧ (∀ l : List StackTraining, s.fw.hbmTrained = false → completes (.hbmTraining l) s (fun t =>
          let ask (k : Nat) : StackTraining := l.getD k ⟨0, 0, []⟩
          t.mem.trained = true ∧ t.fw.hbmTrained = true ∧ (∀ k, k < s.cfg.hbmStacks → t.mem.stackGb ≤ (ask k).gb)
          ∧ (t.mem.mismatch = true ↔ ∃ k, k < s.cfg.hbmStacks ∧ (ask k).gb ≠ t.mem.stackGb)
          ∧ ∀ k i, k < s.cfg.hbmStacks → i < 32 → (ask k).temp < 105 →
              (∀ n, (ask k).channels[i]? = some (some n) → n ≤ 4 →
                (t.channel (32 * k + i)).state = .online ∧ (t.channel (32 * k + i)).sparesUsed = n)
              ∧ ((∀ n, (ask k).channels[i]? = some (some n) → 4 < n) → (t.channel (32 * k + i)).state = .failed)))
      ∧ (∀ (m : KMap (List LaneWatch)) n, n < s.cfg.linkPorts → (s.portOwner n).isSome = true → (s.port n).state = .down →
          completes (.linkTraining m) s (fun t => (alignedLanes (kget [] m n) = 0xFF → (t.port n).state = .up ∧ (t.port n).width = 8)
            ∧ (alignedLanes (kget [] m n) = 0x0F → (t.port n).state = .up ∧ (t.port n).lanes = 0x0F)
            ∧ (alignedLanes (kget [] m n) = 0x3C → (t.port n).state = .failed)))
      ∧ (∀ l : List Nat, s.fw.hbmTrained = true → s.fw.zeroed = false → completes (.hbmZeroInit l) s (fun t => t.fw.zeroed = true
          ∧ ∀ ch, ch < s.cfg.channels → ((s.channel ch).state = .online ∨ (s.channel ch).state = .fenced) →
            (t.channel ch).mem = [] ∧ (t.channel ch).undef = none ∧ (ch ∈ l → (t.channel ch).state = .failed)
            ∧ (¬ ch ∈ l → (t.channel ch).state = (s.channel ch).state)))
      ∧ (s.fw.selfTests = true → s.fw.zeroed = true → s.fw.regionsBuilt = false → (∀ k, k < s.cfg.hbmStacks → (s.stackAt k).level ≠ 3) →
          completes (.fwRegionBuild true) s (fun t => t.fw.regionsBuilt = true
            ∧ (∀ r, r < 16 → (s.ringOwner r).isSome = true → (t.ring r).state = .ready ∧ (t.ring r).opened = [])
            ∧ ∀ n, n < 64 → (s.region n).valid = true → (s.region n).fw = true → (s.region n).mode ≤ 1 →
                (t.region n).list = some ((regionReach s.cfg (s.region n)).filter s.inService))
          ∧ completes (.fwRegionBuild false) s (fun t => t.fw.state = .panic ∧ t.fatal.panic = true)))
  ∧ (∀ c, completes (.jtagIrUpdate c) s (fun t => t = { s with pins := { s.pins with jtagIr := c } }))
  ∧ (∀ x wrap wso,
      (s.pins.phase = .testMode → completes (.scanPattern ⟨x, wrap, wso⟩) s (fun t => t.pins.wrapIn = wrap.take s.cfg.hbmStacks
        ∧ (∀ k, k < s.cfg.hbmStacks → k < 8 → t.pins.wrapOut.getLsbD k = wso.getLsbD k)
        ∧ (s.pins.testReady = false → t.pins.scanOut = s.pins.scanOut)
        ∧ t.pins = { s.pins with scanOut := t.pins.scanOut, wrapIn := t.pins.wrapIn, wrapOut := t.pins.wrapOut }
        ∧ t.cores = s.cores ∧ t.prot = s.prot ∧ t.fw = s.fw))
      ∧ (s.pins.phase ≠ .testMode → completes (.scanPattern ⟨x, wrap, wso⟩) s (fun t =>
        t = { s with pins := { s.pins with wrapIn := [], wrapOut := 0 } })))

/-- Register accesses that the firewall admits (R21, R82, R153 to R157, R321, R378, R410, R411, R453, R454, R524, R526, R593, R597, R600
to R603, R622, R650, R656, R665 to R670, R681). CLEAR zeroes the counters of a status register and their saturation bits, and a 1 clears
its own bit; telemetry is enabled where its ring lies in pinned pages; a row copy begins where the permissions and the core allow it; a
read of a LO half latches its HI half for its requester; a line write of the ring SRAM writes its enabled bytes. -/
def Obligations.RegisterAccesses : Prop :=
  (∀ (s : State), s.cfg = Design.c16 →
    (∀ c, c < 64 → s.setEnabled (c / 4) = true → s.target (0x40008C + 0x100 * c) = .core c ∧ s.target (0x300030 + 0x80 * c) = .core c)
    ∧ (∀ k, k < 16 → s.setEnabled k = true → s.target (0x600010 + 0x40 * k) = .setCounter k)
    ∧ (∀ n, n < s.cfg.linkPorts → s.target (0x700018 + 0x20 * n) = .port n)
    ∧ (∀ ch, ch < s.cfg.channels → s.target (0x500014 + 0x20 * ch) = .admin)
    ∧ (∀ p, p < 4 → s.target (0x6000 + 0x20 * p) = .part p ∧ s.target (0x100414 + 0x20 * p) = .part p))
  ∧ (∀ (s : State) (req : Nat) (value : BitVec 32), s.hostOpen = true →
    let v := value.toNat
    let at' (off : Nat) : Prop := s.admits req off true = true
    let n (x : Nat) : Nat := if bit v 31 = true then 0 else x
    let b (x : Bool) (i : Nat) : Bool := x && !bit v i && !bit v 31
    (∀ c, s.target (0x40008C + 0x100 * c) = .core c → at' (0x40008C + 0x100 * c) → completes (.spmCstatClear req c value) s (fun t =>
      let o := (s.core c).cnt
      let m := (t.core c).cnt
      m.conf = o.conf.map n ∧ m.nwait = n o.nwait ∧ m.crwait = n o.crwait ∧ m.perr = n o.perr ∧ m.nwaitSat = b o.nwaitSat 0
      ∧ m.crwaitSat = b o.crwaitSat 1 ∧ m.perrSat = b o.perrSat 2 ∧ othersSame c s t))
    ∧ (∀ c, s.target (0x300030 + 0x80 * c) = .core c → at' (0x300030 + 0x80 * c) → completes (.stallCstatClear req c value) s (fun t =>
        (t.core c).stall = (s.core c).stall.map n ∧ othersSame c s t
        ∧ ∀ i, i < 12 → (t.core c).stallSat.getLsbD i = b ((s.core c).stallSat.getLsbD i) i))
    ∧ (∀ ch, s.target (0x500014 + 0x20 * ch) = .admin → at' (0x500014 + 0x20 * ch) → completes (.mcCstatClear req ch value) s (fun t =>
        let o := (s.channel ch).cnt
        t.channel ch = { s.channel ch with cnt := { o with
          corr := n o.corr, ue := n o.ue, rmw := n o.rmw, qwait := n o.qwait, scrub := n o.scrub
          corrSat := b o.corrSat 0, ueSat := b o.ueSat 1, rmwSat := b o.rmwSat 2, qwaitSat := b o.qwaitSat 3, scrubSat := b o.scrubSat 4 } }
        ∧ ∀ k, k ≠ ch → t.channel k = s.channel k))
    ∧ (∀ k, s.target (0x600010 + 0x40 * k) = .setCounter k → at' (0x600010 + 0x40 * k) → completes (.trCstatClear req k value) s (fun t =>
        let o := s.unit k
        t.unit k = { o with
          utlbMiss := n o.utlbMiss, stbHit := n o.stbHit, stbMiss := n o.stbMiss, invRanges := n o.invRanges
          umissSat := b o.umissSat 0, shitSat := b o.shitSat 1, smissSat := b o.smissSat 2, invSat := b o.invSat 3 }))
    ∧ (at' 0x60040C → s.target 0x60040C = .admin → completes (.fqCstatClear req value) s (fun t =>
        let o := s.faults
        t.faults = { o with
          posted := n o.posted, parks := n o.parks, viol := n o.viol
          postedSat := b o.postedSat 0, parksSat := b o.parksSat 1, violSat := b o.violSat 2 }))
    ∧ (∀ k, s.target (0x700018 + 0x20 * k) = .port k → at' (0x700018 + 0x20 * k) → completes (.lkCstatClear req k value) s (fun t =>
        let o := (s.port k).cnt
        let m := (t.port k).cnt
        m.tx = n o.tx ∧ m.rx = n o.rx ∧ m.fecCorr = n o.fecCorr ∧ m.fecUnc = n o.fecUnc ∧ m.retry = n o.retry ∧ m.crwait = n o.crwait
        ∧ ∀ i, i < 6 → m.sat.getLsbD i = b (o.sat.getLsbD i) i))
    ∧ (at' 0x70080C → s.target 0x70080C = .admin → completes (.ceCstatClear req value) s (fun t =>
        let o := s.ce
        t.ce.unbound = n o.unbound ∧ t.ce.dcrc = n o.dcrc ∧ t.ce.rsMis = n o.rsMis ∧ t.ce.unbSat = b o.unbSat 0 ∧ t.ce.dcrcSat = b o.dcrcSat 1
        ∧ t.ce.rsmSat = b o.rsmSat 2))
    ∧ (∀ p, p < 4 → s.partExists p = true → s.target (0x100414 + 0x20 * p) = .part p → at' (0x100414 + 0x20 * p) →
        completes (.pcntCstatClear req p value) s (fun t =>
          let o := (s.part p).cnt
          let m := (t.part p).cnt
          m.holds = n o.holds ∧ m.holdBeats = n o.holdBeats ∧ m.lateRaised = n o.lateRaised ∧ m.reruns = n o.reruns ∧ m.aborts = n o.aborts
          ∧ ∀ i, i < 5 → m.sat.getLsbD i = b (o.sat.getLsbD i) i))
    ∧ (at' 0x200014 → s.target 0x200014 = .admin → completes (.blkCstatClear req value) s (fun t =>
        let o := s.blk
        t.blk.ccCorr = n o.ccCorr ∧ t.blk.cachePar = n o.cachePar ∧ t.blk.glitch = n o.glitch ∧ t.blk.missed = n o.missed
        ∧ t.blk.splits = n o.splits ∧ ∀ i, i < 5 → t.blk.sat.getLsbD i = b (o.sat.getLsbD i) i))
    ∧ (at' 0x20300 → s.target 0x20300 = .prot true → completes (.hpfStatClear req value) s (fun t => t.prot = { s.prot with
        hpfCount := n s.prot.hpfCount, hpfSat := b s.prot.hpfSat 24, hpfValid := s.prot.hpfValid && !bit v 30 }))
    ∧ (at' 0x20308 → s.target 0x20308 = .prot true → completes (.protViolClear req value) s (fun t => t.prot = { s.prot with
        violCount := n s.prot.violCount, violSat := b s.prot.violSat 17, violValid := s.prot.violValid && !bit v 30 }))
    ∧ (∀ p, p < 4 → s.partExists p = true →
        let x := (s.part p).telem
        let y := { x with records := BitVec.ofNat 20 (fld v 0 20) }
        (s.target (0x6000 + 0x20 * p) = .part p → at' (0x6000 + 0x20 * p) →
          (x.enable = false → bit v 31 = true → s.telemReady p y = true → completes (.telemEnable req p value) s (fun t =>
            (t.part p).telem = { y with enable := true, head := 0, tail := 0 }))
          ∧ (x.enable = false → bit v 31 = true → s.telemReady p y = false → completes (.telemEnable req p value) s (fun t =>
              (t.part p).telem = { y with err := true }))
          ∧ (x.enable = true → bit v 31 = false → completes (.telemEnable req p value) s (fun t => (t.part p).telem = { x with enable := false })))
        ∧ (s.target (0x6010 + 0x20 * p) = .part p → at' (0x6010 + 0x20 * p) → x.tail.toNat ≤ x.head.toNat → x.head.toNat < x.records.toNat →
            completes (.telemTailWrite req p value) s (fun t => (t.part p).telem =
              if x.tail.toNat ≤ fld v 0 20 ∧ fld v 0 20 ≤ x.head.toNat then { x with tail := BitVec.ofNat 20 (fld v 0 20) } else x))
        ∧ (s.target (0x6014 + 0x20 * p) = .part p → at' (0x6014 + 0x20 * p) → completes (.telemStatClear req p value) s (fun t =>
            (t.part p).telem = { x with dropped := n x.dropped, sat := b x.sat 16, err := x.err && !bit v 17 })))
    ∧ (at' 0x1100000 → s.target 0x1100000 = .debugWin → s.dbg.acmBusy = false → bit v 31 = true →
        let c := fld v 8 6
        completes (.acmDbgGo req value) s (fun t => t.dbg.acmCore = c ∧ t.dbg.acmBank = fld v 7 1 ∧ t.dbg.acmRow = fld v 0 7
          ∧ ((s.prot.dbgAcm = false ∨ s.debugPart c = none) → t.dbg.acmDenied = true ∧ t.dbg.acmBusy = false)
          ∧ (s.prot.dbgAcm = true → s.debugPart c ≠ none → ((s.core c).halted = false ∨ (s.core c).fenced = true) →
              t.dbg.acmNotHalted = true ∧ t.dbg.acmBusy = false)
          ∧ (s.prot.dbgAcm = true → s.debugPart c ≠ none → (s.core c).halted = true → (s.core c).fenced = false → t.dbg.acmBusy = true)))
    ∧ (at' 0x1200000 → s.target 0x1200000 = .debugWin → s.dbg.spmBusy = false → bit v 31 = true →
        let c := fld v 0 6
        completes (.spmDbgGo req value) s (fun t => t.dbg.spmCore = c ∧ t.dbg.spmRow = fld v 16 15
          ∧ ((s.prot.dbgSpm = false ∨ s.debugPart c = none) → t.dbg.spmDenied = true ∧ t.dbg.spmBusy = false)
          ∧ (s.prot.dbgSpm = true → s.debugPart c ≠ none → ((s.core c).halted = false ∨ (s.core c).fenced = true) →
              t.dbg.spmNotHalted = true ∧ t.dbg.spmBusy = false)
          ∧ (s.prot.dbgSpm = true → s.debugPart c ≠ none → (s.core c).halted = true → (s.core c).fenced = false →
              (t.dbg.spmBusy = s.rowPowered c (fld v 16 15) ∧ (s.rowPowered c (fld v 16 15) = false → t.dbg.spmRange = true)))))
    ∧ (∀ off w, s.admits req off.toNat false = true → s.pair off.toNat = some w → completes (.latchedLoRead req off) s (fun t =>
        t.readReg req (off.toNat + 4) = hiHalf w ∧ t.rings = s.rings ∧ ∀ k, k ≠ latchKey req off.toNat → kget 0 t.latches k = kget 0 s.latches k))
    ∧ ∀ (r k : Nat) (be : BitVec 64) (data : BitVec 512) (parity : BitVec 64), r < 16 → k < 256 → parityGood be data parity = true → be ≠ 0 →
        at' (0x2000000 + 0x10000 * r + 64 * k) →
        completes (.registerWrite req (BitVec.ofNat 64 (0x2000000 + 0x10000 * r + 64 * k)) be data parity) s (fun t =>
          (∀ i, i < 64 → be.getLsbD i = true → kget 0 t.ringMem (0x10000 * r + 64 * k + i) = lineByte data i)
          ∧ (∀ i, i < 64 → be.getLsbD i = false →
              kget 0 t.ringMem (0x10000 * r + 64 * k + i) = kget 0 s.ringMem (0x10000 * r + 64 * k + i))
          ∧ (∀ a, (a < 0x10000 * r + 64 * k ∨ 0x10000 * r + 64 * k + 64 ≤ a) → kget 0 t.ringMem a = kget 0 s.ringMem a) ∧ t.rings = s.rings))
  ∧ ∀ (s : State),
    (∀ bad, s.dbg.acmBusy = true → s.pmu.state < 2 → completes (.acmDbgCopyDone bad) s (fun t => t.dbg.acmBusy = false
      ∧ t.dbg.acmSat = ((s.core s.dbg.acmCore).bank s.dbg.acmBank).sat
      ∧ ∀ j, j < 128 →
          let e := kget Elem.zero ((s.core s.dbg.acmCore).bank s.dbg.acmBank).elems (128 * s.dbg.acmRow + j)
          kget 0 t.dbg.acmData j = e.x ∧ kget 0 t.dbg.acmTag j = Tag.bits e.tag))
    ∧ (∀ bad, s.dbg.spmBusy = true → completes (.spmDbgCopyDone bad) s (fun t => t.dbg.spmBusy = false
        ∧ t.dbg.spmPerr = (bad || (s.core s.dbg.spmCore).badRows.contains s.dbg.spmRow)
        ∧ bread t.dbg.spmData 0 512 = bread (s.core s.dbg.spmCore).spm (512 * s.dbg.spmRow) 512))
    ∧ ∀ dr : BitVec 57, s.pins.phase = .running → s.pins.jtagIr = 0x80 → s.prot.lock = true → s.prot.dbgJtag = true →
      let off := 0x1000000 + 4 * fld dr.toNat 32 24
      off < 0x2000000 →
      (bit dr.toNat 56 = false → completes (.jtagDebugAccess dr) s (fun t => t.pins.jtagData = BitVec.ofNat 32 (s.readReg 16 off) ∧ t.dbg = s.dbg))
      ∧ (bit dr.toNat 56 = true → off = 0x1100004 → completes (.jtagDebugAccess dr) s (fun t =>
          t.dbg.acmDenied = (s.dbg.acmDenied && !bit (fld dr.toNat 0 32) 3) ∧ t.pins = s.pins))
end

