-- ==== Sys2Proof/Laws/Map.lean ====
section
/-! SUPPORT. Laws of keyed lists: a read after a write, and the canonical form that every write keeps. -/

namespace Sys2Proof.Machine

variable {α : Type}

theorem kget_kdel_same (d : α) (m : KMap α) (k : Nat) : kget d (kdel m k) k = d := by
  induction m with
  | nil => rfl
  | cons e r ih =>
    obtain ⟨k', v⟩ := e
    by_cases h : k' = k
    · simp [kdel, h, ih]
    · simp [kdel, h, kget, ih]

theorem kget_kdel_other (d : α) (m : KMap α) {k j : Nat} (h : j ≠ k) : kget d (kdel m k) j = kget d m j := by
  induction m with
  | nil => rfl
  | cons e r ih =>
    obtain ⟨k', v⟩ := e
    by_cases hk : k' = k
    · have : k' ≠ j := fun e => h (e ▸ hk)
      simp [kdel, hk, kget, ih]
      intro e; exact absurd e.symm h
    · by_cases hj : k' = j <;> simp [kdel, hk, kget, hj, ih]
      simp [← hj, hk, kget]

theorem kget_kins_same (d : α) (m : KMap α) (k : Nat) (v : α) (h : ∀ e ∈ m, e.1 ≠ k) : kget d (kins m k v) k = v := by
  induction m with
  | nil => simp [kins, kget]
  | cons e r ih =>
    obtain ⟨k', v'⟩ := e
    have h1 : k' ≠ k := h (k', v') (by simp)
    by_cases hk : k < k'
    · simp [kins, hk, kget]
    · simp [kins, hk, kget, h1, ih (fun e he => h e (by simp [he]))]

theorem kget_kins_other (d : α) (m : KMap α) {k j : Nat} (v : α) (h : j ≠ k) : kget d (kins m k v) j = kget d m j := by
  induction m with
  | nil => simp [kins, kget]; intro e; exact absurd e.symm h
  | cons e r ih =>
    obtain ⟨k', v'⟩ := e
    by_cases hk : k < k'
    · simp [kins, hk, kget]; intro e; exact absurd e.symm h
    · by_cases hj : k' = j
      · subst hj; simp [kins, hk, kget]
      · simp [kins, hk, kget, hj, ih]

theorem kdel_keys (m : KMap α) (k : Nat) : ∀ e ∈ kdel m k, e.1 ≠ k := by
  induction m with
  | nil => simp [kdel]
  | cons e r ih =>
    obtain ⟨k', v⟩ := e
    by_cases h : k' = k
    · simpa [kdel, h] using ih
    · simp only [kdel, h, if_false, List.mem_cons]
      rintro e (rfl | he)
      · exact h
      · exact ih e he

theorem kdel_sub (m : KMap α) (k : Nat) : ∀ e ∈ kdel m k, e ∈ m := by
  induction m with
  | nil => simp [kdel]
  | cons e r ih =>
    obtain ⟨k', v⟩ := e
    by_cases h : k' = k
    · simp only [kdel, h, if_true]
      exact fun e he => List.mem_cons_of_mem _ (ih e he)
    · simp only [kdel, h, if_false, List.mem_cons]
      rintro e (rfl | he)
      · exact .inl rfl
      · exact .inr (ih e he)

theorem kins_mem (m : KMap α) (k : Nat) (v : α) : ∀ e ∈ kins m k v, e = (k, v) ∨ e ∈ m := by
  induction m with
  | nil => simp [kins]
  | cons e r ih =>
    obtain ⟨k', v'⟩ := e
    by_cases hk : k < k'
    · simp [kins, hk]
    · simp only [kins, hk, if_false, List.mem_cons]
      rintro e (rfl | he)
      · exact .inr (.inl rfl)
      · exact (ih e he).imp id .inr

/-- A read after a write of the same key gives the value written. -/
@[simp] theorem kget_kset_same [DecidableEq α] (d : α) (m : KMap α) (k : Nat) (v : α) : kget d (kset d m k v) k = v := by
  unfold kset
  split
  · rename_i h; rw [h]; exact kget_kdel_same d m k
  · exact kget_kins_same d _ k v (kdel_keys m k)

/-- A write leaves every other key alone. -/
theorem kget_kset_other [DecidableEq α] (d c : α) (m : KMap α) {k j : Nat} (v : α) (h : j ≠ k) :
    kget c (kset d m k v) j = kget c m j := by
  unfold kset
  split
  · exact kget_kdel_other c m h
  · rw [kget_kins_other c _ v h, kget_kdel_other c m h]

theorem kget_kset [DecidableEq α] (d : α) (m : KMap α) (k j : Nat) (v : α) :
    kget d (kset d m k v) j = if j = k then v else kget d m j := by
  split
  · rename_i h; rw [h]; exact kget_kset_same d m k v
  · rename_i h; exact kget_kset_other d d m v h

theorem kasc_cons (k : Nat) (v : α) (r : KMap α) : kasc ((k, v) :: r) = true ↔ (∀ e ∈ r, k < e.1) ∧ kasc r = true := by
  simp [kasc]

theorem kasc_kdel (m : KMap α) (k : Nat) (h : kasc m = true) : kasc (kdel m k) = true := by
  induction m with
  | nil => rfl
  | cons e r ih =>
    obtain ⟨k', v⟩ := e
    rw [kasc_cons] at h
    by_cases hk : k' = k
    · simp only [kdel, hk, if_true]; exact ih h.2
    · simp only [kdel, hk, if_false]
      rw [kasc_cons]
      exact ⟨fun e he => h.1 e (kdel_sub r k e he), ih h.2⟩

theorem kasc_kins (m : KMap α) (k : Nat) (v : α) (h : kasc m = true) (hn : ∀ e ∈ m, e.1 ≠ k) : kasc (kins m k v) = true := by
  induction m with
  | nil => simp [kins, kasc]
  | cons e r ih =>
    obtain ⟨k', v'⟩ := e
    have h1 := (kasc_cons k' v' r).1 h
    by_cases hk : k < k'
    · simp only [kins, hk, if_true]
      rw [kasc_cons]
      refine ⟨?_, h⟩
      rintro e he
      rcases List.mem_cons.1 he with rfl | he
      · exact hk
      · exact Nat.lt_trans hk (h1.1 e he)
    · simp only [kins, hk, if_false]
      rw [kasc_cons]
      refine ⟨?_, ih h1.2 (fun e he => hn e (List.mem_cons_of_mem _ he))⟩
      rintro e he
      rcases kins_mem r k v e he with rfl | he
      · have := hn (k', v') (by simp)
        simp only at this ⊢
        omega
      · exact h1.1 e he

/-- A write keeps the canonical form, for a map read with `d k` at key `k`. -/
theorem kwf_kset [DecidableEq α] (d : Nat → α) (m : KMap α) (k : Nat) (v : α) (h : kwf d m = true) : kwf d (kset (d k) m k v) = true := by
  simp only [kwf, Bool.and_eq_true, List.all_eq_true, decide_eq_true_eq] at h ⊢
  unfold kset
  split
  · exact ⟨kasc_kdel m k h.1, fun e he => h.2 e (kdel_sub m k e he)⟩
  · rename_i hv
    refine ⟨kasc_kins _ k v (kasc_kdel m k h.1) (kdel_keys m k), fun e he => ?_⟩
    rcases kins_mem _ k v e he with rfl | he
    · exact hv
    · exact h.2 e (kdel_sub m k e he)

/-- A list with entries taken away keeps the canonical form. -/
theorem kwf_filter [DecidableEq α] (d : Nat → α) (m : KMap α) (p : Nat × α → Bool) (h : kwf d m = true) : kwf d (m.filter p) = true := by
  simp only [kwf, Bool.and_eq_true, List.all_eq_true, decide_eq_true_eq] at h ⊢
  refine ⟨?_, fun e he => h.2 e (List.mem_filter.1 he).1⟩
  have h1 := h.1
  clear h
  induction m with
  | nil => rfl
  | cons e r ih =>
    obtain ⟨k', v⟩ := e
    rw [kasc_cons] at h1
    by_cases hp : p (k', v) = true
    · rw [List.filter_cons_of_pos hp, kasc_cons]
      exact ⟨fun e he => h1.1 e (List.mem_filter.1 he).1, ih h1.2⟩
    · rw [List.filter_cons_of_neg hp]
      exact ih h1.2

/-- The empty map is canonical. -/
@[simp] theorem kwf_nil [DecidableEq α] (d : Nat → α) : kwf d ([] : KMap α) = true := rfl

end Sys2Proof.Machine
end

