-- ==== Sys2Proof/Laws/Frame.lean ====
section
/-! SUPPORT. Which parts of the block an operation may change, said by a mask: bit i stands for field i of State in the order of its
declaration; bits 33 to 37 for the parts of prot, pmu, mem, beat and regions that the protection lock leaves open. An operation with mask
w keeps everything outside w. -/

namespace Sys2Proof.Machine

/-- The region register groups as a table, without the latched lists. -/
def State.regionTable (s : State) : KMap MemRegion := (List.range 64).map (fun k => (k, (s.region k).fixed))

/-- The state with what mask `w` names replaced by its reset value. -/
def State.mask (w : BitVec 38) (s : State) : State where
  pending := if w.getLsbD 0 then [] else s.pending
  free := if w.getLsbD 1 then 0 else s.free
  cfg := if w.getLsbD 2 then Design.c16 else s.cfg
  beat := if w.getLsbD 3 then BeatUnit.reset else if w.getLsbD 36 then s.beat.fixed else s.beat
  parts := if w.getLsbD 4 then [] else s.parts
  cores := if w.getLsbD 5 then [] else s.cores
  sets := if w.getLsbD 6 then [] else s.sets
  clms := if w.getLsbD 7 then [] else s.clms
  streams := if w.getLsbD 8 then [] else s.streams
  utlbs := if w.getLsbD 9 then [] else s.utlbs
  faults := if w.getLsbD 10 then State.reset.faults else s.faults
  seqs := if w.getLsbD 11 then [] else s.seqs
  regions := if w.getLsbD 12 then [] else if w.getLsbD 37 then s.regionTable else s.regions
  channels := if w.getLsbD 13 then [] else s.channels
  stackSt := if w.getLsbD 14 then [] else s.stackSt
  far := if w.getLsbD 15 then [] else s.far
  mem := if w.getLsbD 16 then State.reset.mem else if w.getLsbD 35 then s.mem.fixed else s.mem
  ports := if w.getLsbD 17 then [] else s.ports
  lbs := if w.getLsbD 18 then [] else s.lbs
  ce := if w.getLsbD 19 then State.reset.ce else s.ce
  rings := if w.getLsbD 20 then [] else s.rings
  ringMem := if w.getLsbD 21 then [] else s.ringMem
  fw := if w.getLsbD 22 then Fremund.reset else s.fw
  prot := if w.getLsbD 23 then Prot.reset else if w.getLsbD 33 then s.prot.fixed else s.prot
  pmu := if w.getLsbD 24 then Pmu.reset Design.c16 else if w.getLsbD 34 then s.pmu.fixed else s.pmu
  health := if w.getLsbD 25 then State.reset.health else s.health
  blk := if w.getLsbD 26 then State.reset.blk else s.blk
  fatal := if w.getLsbD 27 then State.reset.fatal else s.fatal
  dbg := if w.getLsbD 28 then Debug.reset else s.dbg
  pins := if w.getLsbD 29 then State.reset.pins else s.pins
  nvm := if w.getLsbD 30 then [] else s.nvm
  nvmReqs := if w.getLsbD 31 then [] else s.nvmReqs
  latches := if w.getLsbD 32 then [] else s.latches

variable {s t : State} {w W : BitVec 38}

theorem bit_mono (h : W &&& w = W) (i : Nat) (hi : W.getLsbD i = true) : w.getLsbD i = true := by
  have := congrArg (fun x => x.getLsbD i) h
  simp [hi] at this
  exact this
theorem Prot.fixed_fixed (p : Prot) : p.fixed.fixed = p.fixed := rfl
theorem Pmu.fixed_fixed (p : Pmu) : p.fixed.fixed = p.fixed := rfl
theorem MemBlock.fixed_fixed (p : MemBlock) : p.fixed.fixed = p.fixed := rfl
theorem BeatUnit.fixed_fixed (p : BeatUnit) : p.fixed.fixed = p.fixed := rfl
@[simp] theorem MemRegion.fixed_fixed (p : MemRegion) : p.fixed.fixed = p.fixed := rfl

@[simp] theorem Prot.fixed_iff (p q : Prot) : p.fixed = q.fixed ↔ p.lock = q.lock ∧ p.setPart = q.setPart ∧ p.setEn = q.setEn ∧ p.portPart = q.portPart ∧ p.portEn = q.portEn ∧ p.ringCfg = q.ringCfg ∧ p.hostReq = q.hostReq ∧ p.dbgPart = q.dbgPart ∧ p.dbgJtag = q.dbgJtag ∧ p.dbgSpm = q.dbgSpm ∧ p.dbgHalt = q.dbgHalt ∧ p.dbgAcm = q.dbgAcm ∧ p.protMeasure = q.protMeasure ∧ p.svnMin = q.svnMin := by
  simp [Prot.fixed]

@[simp] theorem Pmu.fixed_iff (p q : Pmu) : p.fixed = q.fixed ↔ p.vnom = q.vnom ∧ p.resetMv = q.resetMv ∧ p.warnMv = q.warnMv ∧ p.monEn = q.monEn ∧ p.dieTripC = q.dieTripC ∧ p.dieHotC = q.dieHotC := by
  simp [Pmu.fixed]

@[simp] theorem MemBlock.fixed_iff (p q : MemBlock) : p.fixed = q.fixed ↔ p.farShare = q.farShare ∧ p.bwShare = q.bwShare := by
  simp [MemBlock.fixed]

@[simp] theorem BeatUnit.fixed_iff (p q : BeatUnit) : p.fixed = q.fixed ↔ p.standalone = q.standalone := by
  simp [BeatUnit.fixed]

theorem kget_range_map {α : Type} (d : α) (f : Nat → α) (n k b : Nat) :
    kget d ((List.range' b n).map (fun i => (i, f i))) k = if b ≤ k ∧ k < b + n then f k else d := by
  induction n generalizing b with
  | zero => simp [kget]
  | succ n ih =>
    rw [List.range'_succ]
    simp only [List.map_cons, kget]
    split
    · subst_vars; simp
    · rw [ih]; split <;> split <;> first | rfl | omega

theorem State.regionTable_eq (h : ∀ k, k < 64 → (s.region k).fixed = (t.region k).fixed) : s.regionTable = t.regionTable := by
  unfold State.regionTable
  apply List.map_congr_left
  intro k hk
  rw [h k (by simpa using hk)]

theorem regionTable_of_table {s t : State} (ht : t.regions = s.regionTable) : t.regionTable = s.regionTable := by
  apply State.regionTable_eq
  intro k hk
  have : t.region k = (s.region k).fixed := by
    unfold State.region at *
    rw [ht]
    unfold State.regionTable
    rw [List.range_eq_range', kget_range_map]
    simp [hk, State.region]
  rw [this]; simp

theorem ite_mono {α : Type} {b c : Bool} (hb : b = true → c = true) {r x y : α}
    (h : (if b then r else x) = (if b then r else y)) : (if c then r else x) = (if c then r else y) := by
  cases b <;> cases c <;> simp_all

theorem ite_mono2 {α : Type} {b c b' c' : Bool} (hb : b = true → c = true) (hb' : b' = true → c' = true) {r fx fy x y : α}
    (g : x = y → fx = fy) (h : (if b then r else if b' then fx else x) = (if b then r else if b' then fy else y)) :
    (if c then r else if c' then fx else x) = (if c then r else if c' then fy else y) := by
  cases b <;> cases c <;> cases b' <;> cases c' <;> simp_all

/-- A wider mask hides more. -/
theorem mask_mono (h : s.mask W = t.mask W) (hw : W &&& w = W) : s.mask w = t.mask w := by
  have b := fun i => bit_mono hw i
  unfold State.mask at h
  injection h
  unfold State.mask
  congr 1
  · exact ite_mono (b 0) ‹_›
  · exact ite_mono (b 1) ‹_›
  · exact ite_mono (b 2) ‹_›
  · exact ite_mono2 (b 3) (b 36) (fun e => congrArg BeatUnit.fixed e) ‹_›
  · exact ite_mono (b 4) ‹_›
  · exact ite_mono (b 5) ‹_›
  · exact ite_mono (b 6) ‹_›
  · exact ite_mono (b 7) ‹_›
  · exact ite_mono (b 8) ‹_›
  · exact ite_mono (b 9) ‹_›
  · exact ite_mono (b 10) ‹_›
  · exact ite_mono (b 11) ‹_›
  · exact ite_mono2 (b 12) (b 37) (fun e => State.regionTable_eq (fun k _ => by unfold State.region; rw [e])) ‹_›
  · exact ite_mono (b 13) ‹_›
  · exact ite_mono (b 14) ‹_›
  · exact ite_mono (b 15) ‹_›
  · exact ite_mono2 (b 16) (b 35) (fun e => congrArg MemBlock.fixed e) ‹_›
  · exact ite_mono (b 17) ‹_›
  · exact ite_mono (b 18) ‹_›
  · exact ite_mono (b 19) ‹_›
  · exact ite_mono (b 20) ‹_›
  · exact ite_mono (b 21) ‹_›
  · exact ite_mono (b 22) ‹_›
  · exact ite_mono2 (b 23) (b 33) (fun e => congrArg Prot.fixed e) ‹_›
  · exact ite_mono2 (b 24) (b 34) (fun e => congrArg Pmu.fixed e) ‹_›
  · exact ite_mono (b 25) ‹_›
  · exact ite_mono (b 26) ‹_›
  · exact ite_mono (b 27) ‹_›
  · exact ite_mono (b 28) ‹_›
  · exact ite_mono (b 29) ‹_›
  · exact ite_mono (b 30) ‹_›
  · exact ite_mono (b 31) ‹_›
  · exact ite_mono (b 32) ‹_›

@[simp] theorem mask_pending (x : List Instr) (h : w.getLsbD 0 = true) : ({ s with pending := x } : State).mask w = s.mask w := by
  simp [State.mask, State.regionTable, State.region, h]

@[simp] theorem mask_free (x : Nat) (h : w.getLsbD 1 = true) : ({ s with free := x } : State).mask w = s.mask w := by
  simp [State.mask, State.regionTable, State.region, h]

@[simp] theorem mask_cfg (x : Design) (h : w.getLsbD 2 = true) : ({ s with cfg := x } : State).mask w = s.mask w := by
  simp [State.mask, State.regionTable, State.region, h]

@[simp] theorem mask_beat (x : BeatUnit) (h : w.getLsbD 3 = true) : ({ s with beat := x } : State).mask w = s.mask w := by
  simp [State.mask, State.regionTable, State.region, h]

@[simp] theorem mask_beat_open (x : BeatUnit) (h : w.getLsbD 36 = true) (hx : x.fixed = s.beat.fixed) :
    ({ s with beat := x } : State).mask w = s.mask w := by
  simp [State.mask, State.regionTable, State.region, h, hx]

@[simp] theorem mask_parts (x : KMap Part) (h : w.getLsbD 4 = true) : ({ s with parts := x } : State).mask w = s.mask w := by
  simp [State.mask, State.regionTable, State.region, h]

@[simp] theorem mask_cores (x : KMap Core) (h : w.getLsbD 5 = true) : ({ s with cores := x } : State).mask w = s.mask w := by
  simp [State.mask, State.regionTable, State.region, h]

@[simp] theorem mask_sets (x : KMap SetUnits) (h : w.getLsbD 6 = true) : ({ s with sets := x } : State).mask w = s.mask w := by
  simp [State.mask, State.regionTable, State.region, h]

@[simp] theorem mask_clms (x : KMap Clm) (h : w.getLsbD 7 = true) : ({ s with clms := x } : State).mask w = s.mask w := by
  simp [State.mask, State.regionTable, State.region, h]

@[simp] theorem mask_streams (x : KMap Stream) (h : w.getLsbD 8 = true) : ({ s with streams := x } : State).mask w = s.mask w := by
  simp [State.mask, State.regionTable, State.region, h]

@[simp] theorem mask_utlbs (x : KMap (List TlbEntry)) (h : w.getLsbD 9 = true) : ({ s with utlbs := x } : State).mask w = s.mask w := by
  simp [State.mask, State.regionTable, State.region, h]

@[simp] theorem mask_faults (x : FaultQueue) (h : w.getLsbD 10 = true) : ({ s with faults := x } : State).mask w = s.mask w := by
  simp [State.mask, State.regionTable, State.region, h]

@[simp] theorem mask_seqs (x : KMap Seq) (h : w.getLsbD 11 = true) : ({ s with seqs := x } : State).mask w = s.mask w := by
  simp [State.mask, State.regionTable, State.region, h]

@[simp] theorem mask_regions (x : KMap MemRegion) (h : w.getLsbD 12 = true) : ({ s with regions := x } : State).mask w = s.mask w := by
  simp [State.mask, h]

@[simp] theorem mask_channels (x : KMap Channel) (h : w.getLsbD 13 = true) : ({ s with channels := x } : State).mask w = s.mask w := by
  simp [State.mask, State.regionTable, State.region, h]

@[simp] theorem mask_stackSt (x : KMap Stack) (h : w.getLsbD 14 = true) : ({ s with stackSt := x } : State).mask w = s.mask w := by
  simp [State.mask, State.regionTable, State.region, h]

@[simp] theorem mask_far (x : KMap FarPort) (h : w.getLsbD 15 = true) : ({ s with far := x } : State).mask w = s.mask w := by
  simp [State.mask, State.regionTable, State.region, h]

@[simp] theorem mask_mem (x : MemBlock) (h : w.getLsbD 16 = true) : ({ s with mem := x } : State).mask w = s.mask w := by
  simp [State.mask, State.regionTable, State.region, h]

@[simp] theorem mask_mem_open (x : MemBlock) (h : w.getLsbD 35 = true) (hx : x.fixed = s.mem.fixed) :
    ({ s with mem := x } : State).mask w = s.mask w := by
  simp [State.mask, State.regionTable, State.region, h, hx]

@[simp] theorem mask_ports (x : KMap Port) (h : w.getLsbD 17 = true) : ({ s with ports := x } : State).mask w = s.mask w := by
  simp [State.mask, State.regionTable, State.region, h]

@[simp] theorem mask_lbs (x : KMap LandBuf) (h : w.getLsbD 18 = true) : ({ s with lbs := x } : State).mask w = s.mask w := by
  simp [State.mask, State.regionTable, State.region, h]

@[simp] theorem mask_ce (x : CeCounters) (h : w.getLsbD 19 = true) : ({ s with ce := x } : State).mask w = s.mask w := by
  simp [State.mask, State.regionTable, State.region, h]

@[simp] theorem mask_rings (x : KMap Ring) (h : w.getLsbD 20 = true) : ({ s with rings := x } : State).mask w = s.mask w := by
  simp [State.mask, State.regionTable, State.region, h]

@[simp] theorem mask_ringMem (x : KMap Byte) (h : w.getLsbD 21 = true) : ({ s with ringMem := x } : State).mask w = s.mask w := by
  simp [State.mask, State.regionTable, State.region, h]

@[simp] theorem mask_fw (x : Fremund) (h : w.getLsbD 22 = true) : ({ s with fw := x } : State).mask w = s.mask w := by
  simp [State.mask, State.regionTable, State.region, h]

@[simp] theorem mask_prot (x : Prot) (h : w.getLsbD 23 = true) : ({ s with prot := x } : State).mask w = s.mask w := by
  simp [State.mask, State.regionTable, State.region, h]

@[simp] theorem mask_prot_open (x : Prot) (h : w.getLsbD 33 = true) (hx : x.fixed = s.prot.fixed) :
    ({ s with prot := x } : State).mask w = s.mask w := by
  simp [State.mask, State.regionTable, State.region, h, hx]

@[simp] theorem mask_pmu (x : Pmu) (h : w.getLsbD 24 = true) : ({ s with pmu := x } : State).mask w = s.mask w := by
  simp [State.mask, State.regionTable, State.region, h]

@[simp] theorem mask_pmu_open (x : Pmu) (h : w.getLsbD 34 = true) (hx : x.fixed = s.pmu.fixed) :
    ({ s with pmu := x } : State).mask w = s.mask w := by
  simp [State.mask, State.regionTable, State.region, h, hx]

@[simp] theorem mask_health (x : Health) (h : w.getLsbD 25 = true) : ({ s with health := x } : State).mask w = s.mask w := by
  simp [State.mask, State.regionTable, State.region, h]

@[simp] theorem mask_blk (x : BlkCounters) (h : w.getLsbD 26 = true) : ({ s with blk := x } : State).mask w = s.mask w := by
  simp [State.mask, State.regionTable, State.region, h]

@[simp] theorem mask_fatal (x : Fatal) (h : w.getLsbD 27 = true) : ({ s with fatal := x } : State).mask w = s.mask w := by
  simp [State.mask, State.regionTable, State.region, h]

@[simp] theorem mask_dbg (x : Debug) (h : w.getLsbD 28 = true) : ({ s with dbg := x } : State).mask w = s.mask w := by
  simp [State.mask, State.regionTable, State.region, h]

@[simp] theorem mask_pins (x : Pins) (h : w.getLsbD 29 = true) : ({ s with pins := x } : State).mask w = s.mask w := by
  simp [State.mask, State.regionTable, State.region, h]

@[simp] theorem mask_nvm (x : KMap Byte) (h : w.getLsbD 30 = true) : ({ s with nvm := x } : State).mask w = s.mask w := by
  simp [State.mask, State.regionTable, State.region, h]

@[simp] theorem mask_nvmReqs (x : List NvmReq) (h : w.getLsbD 31 = true) : ({ s with nvmReqs := x } : State).mask w = s.mask w := by
  simp [State.mask, State.regionTable, State.region, h]

@[simp] theorem mask_latches (x : KMap (BitVec 32)) (h : w.getLsbD 32 = true) : ({ s with latches := x } : State).mask w = s.mask w := by
  simp [State.mask, State.regionTable, State.region, h]

@[simp] theorem mask_channels_stackSt_pmu_fatal_pins (x0 : KMap Channel) (x1 : KMap Stack) (x2 : Pmu) (x3 : Fatal) (x4 : Pins)
    (h0 : w.getLsbD 13 = true) (h1 : w.getLsbD 14 = true) (h2 : w.getLsbD 34 = true) (e2 : x2.fixed = s.pmu.fixed) (h3 : w.getLsbD 27 = true) (h4 : w.getLsbD 29 = true) :
    ({ s with channels := x0, stackSt := x1, pmu := x2, fatal := x3, pins := x4 } : State).mask w = s.mask w := by
  simp [State.mask, State.regionTable, State.region, h0, h1, h2, h3, h4, e2]

@[simp] theorem mask_cores_channels_ports_pmu (x0 : KMap Core) (x1 : KMap Channel) (x2 : KMap Port) (x3 : Pmu)
    (h0 : w.getLsbD 5 = true) (h1 : w.getLsbD 13 = true) (h2 : w.getLsbD 17 = true) (h3 : w.getLsbD 34 = true) (e3 : x3.fixed = s.pmu.fixed) :
    ({ s with cores := x0, channels := x1, ports := x2, pmu := x3 } : State).mask w = s.mask w := by
  simp [State.mask, State.regionTable, State.region, h0, h1, h2, h3, e3]

@[simp] theorem mask_cores_ringMem_pins (x0 : KMap Core) (x1 : KMap Byte) (x2 : Pins)
    (h0 : w.getLsbD 5 = true) (h1 : w.getLsbD 21 = true) (h2 : w.getLsbD 29 = true) :
    ({ s with cores := x0, ringMem := x1, pins := x2 } : State).mask w = s.mask w := by
  simp [State.mask, State.regionTable, State.region, h0, h1, h2]

@[simp] theorem mask_fatal_pins (x0 : Fatal) (x1 : Pins)
    (h0 : w.getLsbD 27 = true) (h1 : w.getLsbD 29 = true) :
    ({ s with fatal := x0, pins := x1 } : State).mask w = s.mask w := by
  simp [State.mask, State.regionTable, State.region, h0, h1]

@[simp] theorem mask_free_dbg (x0 : Nat) (x1 : Debug)
    (h0 : w.getLsbD 1 = true) (h1 : w.getLsbD 28 = true) :
    ({ s with free := x0, dbg := x1 } : State).mask w = s.mask w := by
  simp [State.mask, State.regionTable, State.region, h0, h1]

@[simp] theorem mask_fw_prot_fatal (x0 : Fremund) (x1 : Prot) (x2 : Fatal)
    (h0 : w.getLsbD 22 = true) (h1 : w.getLsbD 33 = true) (e1 : x1.fixed = s.prot.fixed) (h2 : w.getLsbD 27 = true) :
    ({ s with fw := x0, prot := x1, fatal := x2 } : State).mask w = s.mask w := by
  simp [State.mask, State.regionTable, State.region, h0, h1, h2, e1]

@[simp] theorem mask_mem_fw (x0 : MemBlock) (x1 : Fremund)
    (h0 : w.getLsbD 35 = true) (e0 : x0.fixed = s.mem.fixed) (h1 : w.getLsbD 22 = true) :
    ({ s with mem := x0, fw := x1 } : State).mask w = s.mask w := by
  simp [State.mask, State.regionTable, State.region, h0, h1, e0]

@[simp] theorem mask_parts_sets_clms_utlbs_faults_seqs_lbs_fw_nvmReqs (x0 : KMap Part) (x1 : KMap SetUnits) (x2 : KMap Clm) (x3 : KMap (List TlbEntry)) (x4 : FaultQueue) (x5 : KMap Seq) (x6 : KMap LandBuf) (x7 : Fremund) (x8 : List NvmReq)
    (h0 : w.getLsbD 4 = true) (h1 : w.getLsbD 6 = true) (h2 : w.getLsbD 7 = true) (h3 : w.getLsbD 9 = true) (h4 : w.getLsbD 10 = true) (h5 : w.getLsbD 11 = true) (h6 : w.getLsbD 18 = true) (h7 : w.getLsbD 22 = true) (h8 : w.getLsbD 31 = true) :
    ({ s with parts := x0, sets := x1, clms := x2, utlbs := x3, faults := x4, seqs := x5, lbs := x6, fw := x7, nvmReqs := x8 } : State).mask w = s.mask w := by
  simp [State.mask, State.regionTable, State.region, h0, h1, h2, h3, h4, h5, h6, h7, h8]

@[simp] theorem mask_pmu_fatal_pins (x0 : Pmu) (x1 : Fatal) (x2 : Pins)
    (h0 : w.getLsbD 34 = true) (e0 : x0.fixed = s.pmu.fixed) (h1 : w.getLsbD 27 = true) (h2 : w.getLsbD 29 = true) :
    ({ s with pmu := x0, fatal := x1, pins := x2 } : State).mask w = s.mask w := by
  simp [State.mask, State.regionTable, State.region, h0, h1, h2, e0]

@[simp] theorem mask_prot_fatal (x0 : Prot) (x1 : Fatal)
    (h0 : w.getLsbD 33 = true) (e0 : x0.fixed = s.prot.fixed) (h1 : w.getLsbD 27 = true) :
    ({ s with prot := x0, fatal := x1 } : State).mask w = s.mask w := by
  simp [State.mask, State.regionTable, State.region, h0, h1, e0]

@[simp] theorem mask_ite {c : Prop} [Decidable c] {a b : State} : (if c then a else b).mask w = if c then a.mask w else b.mask w := by
  split <;> rfl

@[simp] theorem mask_foldl {α : Type} {f : State → α → State} (h : ∀ t x, (f t x).mask w = t.mask w) (l : List α) (s : State) :
    (l.foldl f s).mask w = s.mask w := by
  induction l generalizing s with
  | nil => rfl
  | cons x l ih => rw [List.foldl_cons, ih, h]

theorem mask_setRegion_list (n : Nat) (v : MemRegion) (h : w.getLsbD 37 = true) (hv : v.fixed = (s.region n).fixed) :
    (s.setRegion n v).mask w = s.mask w := by
  have e : (s.setRegion n v).regionTable = s.regionTable := by
    apply State.regionTable_eq
    intro k _
    unfold State.setRegion State.region at *
    simp only
    rw [kget_kset]
    split
    · subst_vars; exact hv
    · rfl
  unfold State.mask
  rw [e]
  unfold State.setRegion
  simp [h]

theorem foldl_fst_mask {α β : Type} {f : State × β → α → State × β} (h : ∀ x a, (f x a).1.mask w = x.1.mask w) (l : List α)
    (x : State × β) : (l.foldl f x).1.mask w = x.1.mask w := by
  induction l generalizing x with
  | nil => rfl
  | cons a l ih => rw [List.foldl_cons, ih, h]

theorem foldl_snd_mask {α β : Type} {f : β × State → α → β × State} (h : ∀ x a, (f x a).2.mask w = x.2.mask w) (l : List α)
    (x : β × State) : (l.foldl f x).2.mask w = x.2.mask w := by
  induction l generalizing x with
  | nil => rfl
  | cons a l ih => rw [List.foldl_cons, ih, h]

/-- A command runs, and changes nothing outside mask `w`. -/
def Keeps (w : BitVec 38) (s : State) (r : Res) : Prop := ∃ t, r = .next t ∧ t.mask w = s.mask w

theorem keeps_mono {r : Res} (h : Keeps W s r) (hw : W &&& w = W) : Keeps w s r := by
  obtain ⟨t, e, m⟩ := h
  exact ⟨t, e, mask_mono m hw⟩

/-- The bits of a mask that cover a part of the block. -/
def Field.bits (f : Field) : BitVec 38 :=
  match f with
  | .pending => 0x1#38
  | .free => 0x2#38
  | .cfg => 0x4#38
  | .beat => 0x1000000008#38
  | .parts => 0x10#38
  | .cores => 0x20#38
  | .sets => 0x40#38
  | .clms => 0x80#38
  | .streams => 0x100#38
  | .utlbs => 0x200#38
  | .faults => 0x400#38
  | .seqs => 0x800#38
  | .regions => 0x2000001000#38
  | .channels => 0x2000#38
  | .stackSt => 0x4000#38
  | .far => 0x8000#38
  | .mem => 0x800010000#38
  | .ports => 0x20000#38
  | .lbs => 0x40000#38
  | .ce => 0x80000#38
  | .rings => 0x100000#38
  | .ringMem => 0x200000#38
  | .fw => 0x400000#38
  | .prot => 0x200800000#38
  | .pmu => 0x401000000#38
  | .health => 0x2000000#38
  | .blk => 0x4000000#38
  | .fatal => 0x8000000#38
  | .dbg => 0x10000000#38
  | .pins => 0x20000000#38
  | .nvm => 0x40000000#38
  | .nvmReqs => 0x80000000#38
  | .latches => 0x100000000#38
  | .regionRegs => 0x1000#38
  | .protFixed => 0x800000#38
  | .pmuFixed => 0x1000000#38
  | .memFixed => 0x10000#38
  | .beatFixed => 0x8#38

theorem bit_clear {a : BitVec 38} (h : w &&& a = 0#38) (i : Nat) (hi : a.getLsbD i = true) : w.getLsbD i = false := by
  have := congrArg (fun x => x.getLsbD i) h
  simp [hi] at this
  exact this

theorem ite_clear {α : Type} {b : Bool} (hb : b = false) {r x y : α} (h : (if b then r else x) = (if b then r else y)) : x = y := by
  subst hb; simpa using h

theorem ite_clear2 {α : Type} {b b' : Bool} (hb : b = false) (hb' : b' = false) {r fx fy x y : α}
    (h : (if b then r else if b' then fx else x) = (if b then r else if b' then fy else y)) : x = y := by
  subst hb hb'; simpa using h

theorem ite_fixed {α : Type} {b b' : Bool} (hb : b = false) {r fx fy x y : α} (g : x = y → fx = fy)
    (h : (if b then r else if b' then fx else x) = (if b then r else if b' then fy else y)) : fx = fy := by
  subst hb
  cases b'
  · exact g (by simpa using h)
  · simpa using h

/-- What a mask does not cover is the same. -/
theorem same_of_mask (h : t.mask w = s.mask w) (f : Field) (hf : w &&& f.bits = 0#38) : f.same s t := by
  unfold State.mask at h
  injection h
  cases f
  · show t.pending = s.pending
    exact ite_clear (bit_clear hf 0 (by decide)) ‹_›
  · show t.free = s.free
    exact ite_clear (bit_clear hf 1 (by decide)) ‹_›
  · show t.cfg = s.cfg
    exact ite_clear (bit_clear hf 2 (by decide)) ‹_›
  · show t.beat = s.beat
    exact ite_clear2 (bit_clear hf 3 (by decide)) (bit_clear hf 36 (by decide)) ‹_›
  · show t.parts = s.parts
    exact ite_clear (bit_clear hf 4 (by decide)) ‹_›
  · show t.cores = s.cores
    exact ite_clear (bit_clear hf 5 (by decide)) ‹_›
  · show t.sets = s.sets
    exact ite_clear (bit_clear hf 6 (by decide)) ‹_›
  · show t.clms = s.clms
    exact ite_clear (bit_clear hf 7 (by decide)) ‹_›
  · show t.streams = s.streams
    exact ite_clear (bit_clear hf 8 (by decide)) ‹_›
  · show t.utlbs = s.utlbs
    exact ite_clear (bit_clear hf 9 (by decide)) ‹_›
  · show t.faults = s.faults
    exact ite_clear (bit_clear hf 10 (by decide)) ‹_›
  · show t.seqs = s.seqs
    exact ite_clear (bit_clear hf 11 (by decide)) ‹_›
  · show t.regions = s.regions
    exact ite_clear2 (bit_clear hf 12 (by decide)) (bit_clear hf 37 (by decide)) ‹_›
  · show t.channels = s.channels
    exact ite_clear (bit_clear hf 13 (by decide)) ‹_›
  · show t.stackSt = s.stackSt
    exact ite_clear (bit_clear hf 14 (by decide)) ‹_›
  · show t.far = s.far
    exact ite_clear (bit_clear hf 15 (by decide)) ‹_›
  · show t.mem = s.mem
    exact ite_clear2 (bit_clear hf 16 (by decide)) (bit_clear hf 35 (by decide)) ‹_›
  · show t.ports = s.ports
    exact ite_clear (bit_clear hf 17 (by decide)) ‹_›
  · show t.lbs = s.lbs
    exact ite_clear (bit_clear hf 18 (by decide)) ‹_›
  · show t.ce = s.ce
    exact ite_clear (bit_clear hf 19 (by decide)) ‹_›
  · show t.rings = s.rings
    exact ite_clear (bit_clear hf 20 (by decide)) ‹_›
  · show t.ringMem = s.ringMem
    exact ite_clear (bit_clear hf 21 (by decide)) ‹_›
  · show t.fw = s.fw
    exact ite_clear (bit_clear hf 22 (by decide)) ‹_›
  · show t.prot = s.prot
    exact ite_clear2 (bit_clear hf 23 (by decide)) (bit_clear hf 33 (by decide)) ‹_›
  · show t.pmu = s.pmu
    exact ite_clear2 (bit_clear hf 24 (by decide)) (bit_clear hf 34 (by decide)) ‹_›
  · show t.health = s.health
    exact ite_clear (bit_clear hf 25 (by decide)) ‹_›
  · show t.blk = s.blk
    exact ite_clear (bit_clear hf 26 (by decide)) ‹_›
  · show t.fatal = s.fatal
    exact ite_clear (bit_clear hf 27 (by decide)) ‹_›
  · show t.dbg = s.dbg
    exact ite_clear (bit_clear hf 28 (by decide)) ‹_›
  · show t.pins = s.pins
    exact ite_clear (bit_clear hf 29 (by decide)) ‹_›
  · show t.nvm = s.nvm
    exact ite_clear (bit_clear hf 30 (by decide)) ‹_›
  · show t.nvmReqs = s.nvmReqs
    exact ite_clear (bit_clear hf 31 (by decide)) ‹_›
  · show t.latches = s.latches
    exact ite_clear (bit_clear hf 32 (by decide)) ‹_›
  · have g : t.regionTable = s.regionTable :=
      ite_fixed (x := t.regions) (y := s.regions) (r := []) (b := w.getLsbD 12) (b' := w.getLsbD 37) (bit_clear hf 12 (by decide)) (fun e => State.regionTable_eq (fun k _ => by unfold State.region; rw [e]))
        (by assumption)
    have := congrArg (List.map Prod.snd) g
    simpa [Field.same, State.regionRegs, State.regionTable, List.map_map, Function.comp_def] using this
  · show t.prot.fixed = s.prot.fixed
    exact ite_fixed (bit_clear hf 23 (by decide)) (fun e => congrArg Prot.fixed e) ‹_›
  · show t.pmu.fixed = s.pmu.fixed
    exact ite_fixed (bit_clear hf 24 (by decide)) (fun e => congrArg Pmu.fixed e) ‹_›
  · show t.mem.fixed = s.mem.fixed
    exact ite_fixed (bit_clear hf 16 (by decide)) (fun e => congrArg MemBlock.fixed e) ‹_›
  · show t.beat.fixed = s.beat.fixed
    exact ite_fixed (bit_clear hf 3 (by decide)) (fun e => congrArg BeatUnit.fixed e) ‹_›

/-- Every part of the block is listed in `fs` or outside mask `w`. -/
def maskCovers (w : BitVec 38) (fs : List Field) : Bool :=
  [.pending, .free, .cfg, .beat, .parts, .cores, .sets, .clms, .streams, .utlbs, .faults, .seqs, .regions, .channels, .stackSt, .far, .mem, .ports, .lbs, .ce, .rings, .ringMem, .fw, .prot, .pmu, .health, .blk, .fatal, .dbg, .pins, .nvm, .nvmReqs, .latches, .regionRegs, .protFixed, .pmuFixed, .memFixed, .beatFixed].all (fun f => fs.contains f || decide (w &&& Field.bits f = 0#38))

/-- A command changes only what its mask covers. -/
theorem onlyChanges_of_keeps {r : Res} (h : Keeps w s r) (e : r = .next t) (fs : List Field) (hf : maskCovers w fs = true) :
    onlyChanges fs s t := by
  obtain ⟨u, e1, m⟩ := h
  rw [e1] at e
  injection e with e
  subst e
  intro f hn
  refine same_of_mask m f ?_
  simp only [maskCovers, List.all_cons, List.all_nil, Bool.and_true, Bool.and_eq_true, Bool.or_eq_true, decide_eq_true_eq] at hf
  have g : ∀ k : Field, (fs.contains k = true ∨ w &&& k.bits = 0#38) := by
    intro k
    cases k <;> simp only [hf]
  exact (g f).resolve_left (by simpa using hn)

theorem withHealth_eq (f : State → State) (s : State) :
    withHealth f s = f s ∨ withHealth f s = postAll 0xB0 (payloadOf noFig 0 ((f s).healthWord * 2 ^ 32)) (f s) := by
  unfold withHealth
  dsimp only
  split
  · exact .inl rfl
  · exact .inr rfl

end Sys2Proof.Machine
end

