-- ==== Sys2Proof/Laws/Keeps.lean ====
section
/-! SUPPORT. What each shared operation may change (see Laws/Frame): one lemma per operation. -/

namespace Sys2Proof.Machine

@[simp] theorem State.setPart_mask {w : BitVec 38} (h : 0x10#38 &&& w = 0x10#38) (s : State) (a1 : Nat) (a2 : Part) :
    (State.setPart s a1 a2).mask w = s.mask w := by
  refine mask_mono (W := 0x10#38) ?_ h
  unfold State.setPart
  repeat' (first | (simp; done) | with_reducible rfl | (refine (mask_foldl (fun t x => ?_) _ _).trans ?_) | split | (dsimp only; split) | (simp; split))

@[simp] theorem State.modPart_mask {w : BitVec 38} (h : 0x10#38 &&& w = 0x10#38) (s : State) (a1 : Nat) (a2 : Part → Part) :
    (State.modPart s a1 a2).mask w = s.mask w := by
  refine mask_mono (W := 0x10#38) ?_ h
  unfold State.modPart
  repeat' (first | (simp; done) | with_reducible rfl | (refine (mask_foldl (fun t x => ?_) _ _).trans ?_) | split | (dsimp only; split) | (simp; split))

@[simp] theorem State.setCore_mask {w : BitVec 38} (h : 0x20#38 &&& w = 0x20#38) (s : State) (a1 : Nat) (a2 : Core) :
    (State.setCore s a1 a2).mask w = s.mask w := by
  refine mask_mono (W := 0x20#38) ?_ h
  unfold State.setCore
  repeat' (first | (simp; done) | with_reducible rfl | (refine (mask_foldl (fun t x => ?_) _ _).trans ?_) | split | (dsimp only; split) | (simp; split))

@[simp] theorem State.modCore_mask {w : BitVec 38} (h : 0x20#38 &&& w = 0x20#38) (s : State) (a1 : Nat) (a2 : Core → Core) :
    (State.modCore s a1 a2).mask w = s.mask w := by
  refine mask_mono (W := 0x20#38) ?_ h
  unfold State.modCore
  repeat' (first | (simp; done) | with_reducible rfl | (refine (mask_foldl (fun t x => ?_) _ _).trans ?_) | split | (dsimp only; split) | (simp; split))

@[simp] theorem State.setUnit_mask {w : BitVec 38} (h : 0x40#38 &&& w = 0x40#38) (s : State) (a1 : Nat) (a2 : SetUnits) :
    (State.setUnit s a1 a2).mask w = s.mask w := by
  refine mask_mono (W := 0x40#38) ?_ h
  unfold State.setUnit
  repeat' (first | (simp; done) | with_reducible rfl | (refine (mask_foldl (fun t x => ?_) _ _).trans ?_) | split | (dsimp only; split) | (simp; split))

@[simp] theorem State.modUnit_mask {w : BitVec 38} (h : 0x40#38 &&& w = 0x40#38) (s : State) (a1 : Nat) (a2 : SetUnits → SetUnits) :
    (State.modUnit s a1 a2).mask w = s.mask w := by
  refine mask_mono (W := 0x40#38) ?_ h
  unfold State.modUnit
  repeat' (first | (simp; done) | with_reducible rfl | (refine (mask_foldl (fun t x => ?_) _ _).trans ?_) | split | (dsimp only; split) | (simp; split))

@[simp] theorem State.setClm_mask {w : BitVec 38} (h : 0x80#38 &&& w = 0x80#38) (s : State) (a1 : Nat) (a2 : Clm) :
    (State.setClm s a1 a2).mask w = s.mask w := by
  refine mask_mono (W := 0x80#38) ?_ h
  unfold State.setClm
  repeat' (first | (simp; done) | with_reducible rfl | (refine (mask_foldl (fun t x => ?_) _ _).trans ?_) | split | (dsimp only; split) | (simp; split))

@[simp] theorem State.modClm_mask {w : BitVec 38} (h : 0x80#38 &&& w = 0x80#38) (s : State) (a1 : Nat) (a2 : Clm → Clm) :
    (State.modClm s a1 a2).mask w = s.mask w := by
  refine mask_mono (W := 0x80#38) ?_ h
  unfold State.modClm
  repeat' (first | (simp; done) | with_reducible rfl | (refine (mask_foldl (fun t x => ?_) _ _).trans ?_) | split | (dsimp only; split) | (simp; split))

@[simp] theorem State.setStream_mask {w : BitVec 38} (h : 0x100#38 &&& w = 0x100#38) (s : State) (a1 : Nat) (a2 : Stream) :
    (State.setStream s a1 a2).mask w = s.mask w := by
  refine mask_mono (W := 0x100#38) ?_ h
  unfold State.setStream
  repeat' (first | (simp; done) | with_reducible rfl | (refine (mask_foldl (fun t x => ?_) _ _).trans ?_) | split | (dsimp only; split) | (simp; split))

@[simp] theorem State.modStream_mask {w : BitVec 38} (h : 0x100#38 &&& w = 0x100#38) (s : State) (a1 : Nat) (a2 : Stream → Stream) :
    (State.modStream s a1 a2).mask w = s.mask w := by
  refine mask_mono (W := 0x100#38) ?_ h
  unfold State.modStream
  repeat' (first | (simp; done) | with_reducible rfl | (refine (mask_foldl (fun t x => ?_) _ _).trans ?_) | split | (dsimp only; split) | (simp; split))

@[simp] theorem State.setSeq_mask {w : BitVec 38} (h : 0x800#38 &&& w = 0x800#38) (s : State) (a1 : Nat) (a2 : Seq) :
    (State.setSeq s a1 a2).mask w = s.mask w := by
  refine mask_mono (W := 0x800#38) ?_ h
  unfold State.setSeq
  repeat' (first | (simp; done) | with_reducible rfl | (refine (mask_foldl (fun t x => ?_) _ _).trans ?_) | split | (dsimp only; split) | (simp; split))

@[simp] theorem State.modSeq_mask {w : BitVec 38} (h : 0x800#38 &&& w = 0x800#38) (s : State) (a1 : Nat) (a2 : Seq → Seq) :
    (State.modSeq s a1 a2).mask w = s.mask w := by
  refine mask_mono (W := 0x800#38) ?_ h
  unfold State.modSeq
  repeat' (first | (simp; done) | with_reducible rfl | (refine (mask_foldl (fun t x => ?_) _ _).trans ?_) | split | (dsimp only; split) | (simp; split))

@[simp] theorem State.setRegion_mask {w : BitVec 38} (h : 0x1000#38 &&& w = 0x1000#38) (s : State) (a1 : Nat) (a2 : MemRegion) :
    (State.setRegion s a1 a2).mask w = s.mask w := by
  refine mask_mono (W := 0x1000#38) ?_ h
  unfold State.setRegion
  repeat' (first | (simp; done) | with_reducible rfl | (refine (mask_foldl (fun t x => ?_) _ _).trans ?_) | split | (dsimp only; split) | (simp; split))

@[simp] theorem State.setChannel_mask {w : BitVec 38} (h : 0x2000#38 &&& w = 0x2000#38) (s : State) (a1 : Nat) (a2 : Channel) :
    (State.setChannel s a1 a2).mask w = s.mask w := by
  refine mask_mono (W := 0x2000#38) ?_ h
  unfold State.setChannel
  repeat' (first | (simp; done) | with_reducible rfl | (refine (mask_foldl (fun t x => ?_) _ _).trans ?_) | split | (dsimp only; split) | (simp; split))

@[simp] theorem State.modChannel_mask {w : BitVec 38} (h : 0x2000#38 &&& w = 0x2000#38) (s : State) (a1 : Nat) (a2 : Channel → Channel) :
    (State.modChannel s a1 a2).mask w = s.mask w := by
  refine mask_mono (W := 0x2000#38) ?_ h
  unfold State.modChannel
  repeat' (first | (simp; done) | with_reducible rfl | (refine (mask_foldl (fun t x => ?_) _ _).trans ?_) | split | (dsimp only; split) | (simp; split))

@[simp] theorem State.setStack_mask {w : BitVec 38} (h : 0x4000#38 &&& w = 0x4000#38) (s : State) (a1 : Nat) (a2 : Stack) :
    (State.setStack s a1 a2).mask w = s.mask w := by
  refine mask_mono (W := 0x4000#38) ?_ h
  unfold State.setStack
  repeat' (first | (simp; done) | with_reducible rfl | (refine (mask_foldl (fun t x => ?_) _ _).trans ?_) | split | (dsimp only; split) | (simp; split))

@[simp] theorem State.modStack_mask {w : BitVec 38} (h : 0x4000#38 &&& w = 0x4000#38) (s : State) (a1 : Nat) (a2 : Stack → Stack) :
    (State.modStack s a1 a2).mask w = s.mask w := by
  refine mask_mono (W := 0x4000#38) ?_ h
  unfold State.modStack
  repeat' (first | (simp; done) | with_reducible rfl | (refine (mask_foldl (fun t x => ?_) _ _).trans ?_) | split | (dsimp only; split) | (simp; split))

@[simp] theorem State.setFar_mask {w : BitVec 38} (h : 0x8000#38 &&& w = 0x8000#38) (s : State) (a1 : Nat) (a2 : FarPort) :
    (State.setFar s a1 a2).mask w = s.mask w := by
  refine mask_mono (W := 0x8000#38) ?_ h
  unfold State.setFar
  repeat' (first | (simp; done) | with_reducible rfl | (refine (mask_foldl (fun t x => ?_) _ _).trans ?_) | split | (dsimp only; split) | (simp; split))

@[simp] theorem State.modFar_mask {w : BitVec 38} (h : 0x8000#38 &&& w = 0x8000#38) (s : State) (a1 : Nat) (a2 : FarPort → FarPort) :
    (State.modFar s a1 a2).mask w = s.mask w := by
  refine mask_mono (W := 0x8000#38) ?_ h
  unfold State.modFar
  repeat' (first | (simp; done) | with_reducible rfl | (refine (mask_foldl (fun t x => ?_) _ _).trans ?_) | split | (dsimp only; split) | (simp; split))

@[simp] theorem State.setPort_mask {w : BitVec 38} (h : 0x20000#38 &&& w = 0x20000#38) (s : State) (a1 : Nat) (a2 : Port) :
    (State.setPort s a1 a2).mask w = s.mask w := by
  refine mask_mono (W := 0x20000#38) ?_ h
  unfold State.setPort
  repeat' (first | (simp; done) | with_reducible rfl | (refine (mask_foldl (fun t x => ?_) _ _).trans ?_) | split | (dsimp only; split) | (simp; split))

@[simp] theorem State.modPort_mask {w : BitVec 38} (h : 0x20000#38 &&& w = 0x20000#38) (s : State) (a1 : Nat) (a2 : Port → Port) :
    (State.modPort s a1 a2).mask w = s.mask w := by
  refine mask_mono (W := 0x20000#38) ?_ h
  unfold State.modPort
  repeat' (first | (simp; done) | with_reducible rfl | (refine (mask_foldl (fun t x => ?_) _ _).trans ?_) | split | (dsimp only; split) | (simp; split))

@[simp] theorem State.setLb_mask {w : BitVec 38} (h : 0x40000#38 &&& w = 0x40000#38) (s : State) (a1 : Nat) (a2 : LandBuf) :
    (State.setLb s a1 a2).mask w = s.mask w := by
  refine mask_mono (W := 0x40000#38) ?_ h
  unfold State.setLb
  repeat' (first | (simp; done) | with_reducible rfl | (refine (mask_foldl (fun t x => ?_) _ _).trans ?_) | split | (dsimp only; split) | (simp; split))

@[simp] theorem State.setRing_mask {w : BitVec 38} (h : 0x100000#38 &&& w = 0x100000#38) (s : State) (a1 : Nat) (a2 : Ring) :
    (State.setRing s a1 a2).mask w = s.mask w := by
  refine mask_mono (W := 0x100000#38) ?_ h
  unfold State.setRing
  repeat' (first | (simp; done) | with_reducible rfl | (refine (mask_foldl (fun t x => ?_) _ _).trans ?_) | split | (dsimp only; split) | (simp; split))

@[simp] theorem State.modRing_mask {w : BitVec 38} (h : 0x100000#38 &&& w = 0x100000#38) (s : State) (a1 : Nat) (a2 : Ring → Ring) :
    (State.modRing s a1 a2).mask w = s.mask w := by
  refine mask_mono (W := 0x100000#38) ?_ h
  unfold State.modRing
  repeat' (first | (simp; done) | with_reducible rfl | (refine (mask_foldl (fun t x => ?_) _ _).trans ?_) | split | (dsimp only; split) | (simp; split))

@[simp] theorem State.setUtlb_mask {w : BitVec 38} (h : 0x200#38 &&& w = 0x200#38) (s : State) (a1 : Nat) (a2 : Nat) (a3 : List TlbEntry) :
    (State.setUtlb s a1 a2 a3).mask w = s.mask w := by
  refine mask_mono (W := 0x200#38) ?_ h
  unfold State.setUtlb
  repeat' (first | (simp; done) | with_reducible rfl | (refine (mask_foldl (fun t x => ?_) _ _).trans ?_) | split | (dsimp only; split) | (simp; split))

@[simp] theorem putEvent_mask {w : BitVec 38} (h : 0x300000#38 &&& w = 0x300000#38) (a0 : Nat) (a1 : Nat) (a2 : Nat) (a3 : BitVec 16) (s : State) :
    (putEvent a0 a1 a2 a3 s).mask w = s.mask w := by
  refine mask_mono (W := 0x300000#38) ?_ h
  unfold putEvent
  repeat' (first | (simp; done) | with_reducible rfl | (refine (mask_foldl (fun t x => ?_) _ _).trans ?_) | split | (dsimp only; split) | (simp; split))

@[simp] theorem postEvent_mask {w : BitVec 38} (h : 0x700000#38 &&& w = 0x700000#38) (a0 : Nat) (a1 : Nat) (a2 : Nat) (s : State) :
    (postEvent a0 a1 a2 s).mask w = s.mask w := by
  refine mask_mono (W := 0x700000#38) ?_ h
  unfold postEvent
  repeat' (first | (simp; done) | with_reducible rfl | (refine (mask_foldl (fun t x => ?_) _ _).trans ?_) | split | (dsimp only; split) | (simp; split))

@[simp] theorem postEach_mask {w : BitVec 38} (h : 0x700000#38 &&& w = 0x700000#38) (a0 : List Nat) (a1 : Nat) (a2 : Nat) (s : State) :
    (postEach a0 a1 a2 s).mask w = s.mask w := by
  refine mask_mono (W := 0x700000#38) ?_ h
  unfold postEach
  repeat' (first | (simp; done) | with_reducible rfl | (refine (mask_foldl (fun t x => ?_) _ _).trans ?_) | split | (dsimp only; split) | (simp; split))

@[simp] theorem postAll_mask {w : BitVec 38} (h : 0x700000#38 &&& w = 0x700000#38) (a0 : Nat) (a1 : Nat) (s : State) :
    (postAll a0 a1 s).mask w = s.mask w := by
  refine mask_mono (W := 0x700000#38) ?_ h
  unfold postAll
  repeat' (first | (simp; done) | with_reducible rfl | (refine (mask_foldl (fun t x => ?_) _ _).trans ?_) | split | (dsimp only; split) | (simp; split))

@[simp] theorem drainBacklog_mask {w : BitVec 38} (h : 0x700000#38 &&& w = 0x700000#38) (a0 a1 : Nat) (s : State) :
    (drainBacklog a0 a1 s).mask w = s.mask w := by
  refine mask_mono (W := 0x700000#38) ?_ h
  induction a1 generalizing s with
  | zero => rfl
  | succ k ih =>
    unfold drainBacklog
    split
    · split
      · rw [ih]; simp
      · rfl
    · rfl

@[simp] theorem withHealth_mask {w : BitVec 38} (f : State → State) (hf : ∀ t, (f t).mask w = t.mask w) (h : 0x700000#38 &&& w = 0x700000#38)
    (s : State) : (withHealth f s).mask w = s.mask w := by
  rcases withHealth_eq f s with e | e <;> rw [e]
  · exact hf s
  · rw [postAll_mask h]; exact hf s

@[simp] theorem replaceCause_mask {w : BitVec 38} (h : 0x2000000#38 &&& w = 0x2000000#38) (a0 : Nat) (s : State) :
    (replaceCause a0 s).mask w = s.mask w := by
  refine mask_mono (W := 0x2000000#38) ?_ h
  unfold replaceCause
  repeat' (first | (simp; done) | with_reducible rfl | (refine (mask_foldl (fun t x => ?_) _ _).trans ?_) | split | (dsimp only; split) | (simp; split))

@[simp] theorem satPart_mask {w : BitVec 38} (h : 0x700010#38 &&& w = 0x700010#38) (a0 : Nat) (a1 : Nat) (s : State) :
    (satPart a0 a1 s).mask w = s.mask w := by
  refine mask_mono (W := 0x700010#38) ?_ h
  unfold satPart
  repeat' (first | (simp; done) | with_reducible rfl | (refine (mask_foldl (fun t x => ?_) _ _).trans ?_) | split | (dsimp only; split) | (simp; split))

@[simp] theorem satAll_mask {w : BitVec 38} (h : 0x700010#38 &&& w = 0x700010#38) (a0 : Nat) (s : State) :
    (satAll a0 s).mask w = s.mask w := by
  refine mask_mono (W := 0x700010#38) ?_ h
  unfold satAll
  repeat' (first | (simp; done) | with_reducible rfl | (refine (mask_foldl (fun t x => ?_) _ _).trans ?_) | split | (dsimp only; split) | (simp; split))

@[simp] theorem satOwned_mask {w : BitVec 38} (h : 0x700010#38 &&& w = 0x700010#38) (a0 : Option Nat) (a1 : Nat) (s : State) :
    (satOwned a0 a1 s).mask w = s.mask w := by
  refine mask_mono (W := 0x700010#38) ?_ h
  unfold satOwned
  repeat' (first | (simp; done) | with_reducible rfl | (refine (mask_foldl (fun t x => ?_) _ _).trans ?_) | split | (dsimp only; split) | (simp; split))

@[simp] theorem acctAdd_mask {w : BitVec 38} (h : 0x700010#38 &&& w = 0x700010#38) (a0 : Nat) (a1 : Nat) (a2 : Nat) (s : State) :
    (acctAdd a0 a1 a2 s).mask w = s.mask w := by
  refine mask_mono (W := 0x700010#38) ?_ h
  unfold acctAdd
  repeat' (first | (simp; done) | with_reducible rfl | (refine (mask_foldl (fun t x => ?_) _ _).trans ?_) | split | (dsimp only; split) | (simp; split))

@[simp] theorem partCount_mask {w : BitVec 38} (h : 0x700010#38 &&& w = 0x700010#38) (a0 : Nat) (a1 : Nat) (a2 : Nat) (s : State) :
    (partCount a0 a1 a2 s).mask w = s.mask w := by
  refine mask_mono (W := 0x700010#38) ?_ h
  unfold partCount
  repeat' (first | (simp; done) | with_reducible rfl | (refine (mask_foldl (fun t x => ?_) _ _).trans ?_) | split | (dsimp only; split) | (simp; split))

@[simp] theorem blkCount_mask {w : BitVec 38} (h : 0x4700010#38 &&& w = 0x4700010#38) (a0 : Nat) (s : State) :
    (blkCount a0 s).mask w = s.mask w := by
  refine mask_mono (W := 0x4700010#38) ?_ h
  unfold blkCount
  repeat' (first | (simp; done) | with_reducible rfl | (refine (mask_foldl (fun t x => ?_) _ _).trans ?_) | split | (dsimp only; split) | (simp; split))

@[simp] theorem mcCount_mask {w : BitVec 38} (h : 0x702010#38 &&& w = 0x702010#38) (a0 : Nat) (a1 : Nat) (a2 : Nat) (s : State) :
    (mcCount a0 a1 a2 s).mask w = s.mask w := by
  refine mask_mono (W := 0x702010#38) ?_ h
  unfold mcCount
  repeat' (first | (simp; done) | with_reducible rfl | (refine (mask_foldl (fun t x => ?_) _ _).trans ?_) | split | (dsimp only; split) | (simp; split))

@[simp] theorem trCount_mask {w : BitVec 38} (h : 0x700050#38 &&& w = 0x700050#38) (a0 : Nat) (a1 : Nat) (s : State) :
    (trCount a0 a1 s).mask w = s.mask w := by
  refine mask_mono (W := 0x700050#38) ?_ h
  unfold trCount
  repeat' (first | (simp; done) | with_reducible rfl | (refine (mask_foldl (fun t x => ?_) _ _).trans ?_) | split | (dsimp only; split) | (simp; split))

@[simp] theorem fqCount_mask {w : BitVec 38} (h : 0x700410#38 &&& w = 0x700410#38) (a0 : Nat) (s : State) :
    (fqCount a0 s).mask w = s.mask w := by
  refine mask_mono (W := 0x700410#38) ?_ h
  unfold fqCount
  repeat' (first | (simp; done) | with_reducible rfl | (refine (mask_foldl (fun t x => ?_) _ _).trans ?_) | split | (dsimp only; split) | (simp; split))

@[simp] theorem lkCount_mask {w : BitVec 38} (h : 0x720010#38 &&& w = 0x720010#38) (a0 : Nat) (a1 : Nat) (a2 : Nat) (a3 : Nat) (s : State) :
    (lkCount a0 a1 a2 a3 s).mask w = s.mask w := by
  refine mask_mono (W := 0x720010#38) ?_ h
  unfold lkCount
  repeat' (first | (simp; done) | with_reducible rfl | (refine (mask_foldl (fun t x => ?_) _ _).trans ?_) | split | (dsimp only; split) | (simp; split))

@[simp] theorem ceCount_mask {w : BitVec 38} (h : 0x780010#38 &&& w = 0x780010#38) (a0 : Nat) (s : State) :
    (ceCount a0 s).mask w = s.mask w := by
  refine mask_mono (W := 0x780010#38) ?_ h
  unfold ceCount
  repeat' (first | (simp; done) | with_reducible rfl | (refine (mask_foldl (fun t x => ?_) _ _).trans ?_) | split | (dsimp only; split) | (simp; split))

@[simp] theorem State.draw_mask {w : BitVec 38} (h : 0x2#38 &&& w = 0x2#38) (s : State) :
    (State.draw s).mask w = s.mask w := by
  refine mask_mono (W := 0x2#38) ?_ h
  unfold State.draw
  repeat' (first | (simp; done) | with_reducible rfl | (refine (mask_foldl (fun t x => ?_) _ _).trans ?_) | split | (dsimp only; split) | (simp; split))

@[simp] theorem complete_mask {w : BitVec 38} (h : 0x300000#38 &&& w = 0x300000#38) (a0 : Nat) (a1 : BitVec 16) (a2 : Nat) (a3 : Nat) (a4 : Nat) (s : State) :
    (complete a0 a1 a2 a3 a4 s).mask w = s.mask w := by
  refine mask_mono (W := 0x300000#38) ?_ h
  unfold complete
  repeat' (first | (simp; done) | with_reducible rfl | (refine (mask_foldl (fun t x => ?_) _ _).trans ?_) | split | (dsimp only; split) | (simp; split))

@[simp] theorem markStarted_mask {w : BitVec 38} (h : 0x100000#38 &&& w = 0x100000#38) (a0 : Nat) (a1 : BitVec 16) (s : State) :
    (markStarted a0 a1 s).mask w = s.mask w := by
  refine mask_mono (W := 0x100000#38) ?_ h
  unfold markStarted
  repeat' (first | (simp; done) | with_reducible rfl | (refine (mask_foldl (fun t x => ?_) _ _).trans ?_) | split | (dsimp only; split) | (simp; split))

@[simp] theorem addWait_mask {w : BitVec 38} (h : 0x10#38 &&& w = 0x10#38) (a0 : Nat) (a1 : Nat) (a2 : BitVec 16) (a3 : Wait) (s : State) :
    (addWait a0 a1 a2 a3 s).mask w = s.mask w := by
  refine mask_mono (W := 0x10#38) ?_ h
  unfold addWait
  repeat' (first | (simp; done) | with_reducible rfl | (refine (mask_foldl (fun t x => ?_) _ _).trans ?_) | split | (dsimp only; split) | (simp; split))

@[simp] theorem takeWaits_mask {w : BitVec 38} (h : 0x10#38 &&& w = 0x10#38) (a0 : Nat) (a1 : Wait → Bool) (s : State) :
    (takeWaits a0 a1 s).2.mask w = s.mask w := by
  refine mask_mono (W := 0x10#38) ?_ h
  unfold takeWaits
  repeat' (first | (simp; done) | with_reducible rfl | (refine (mask_foldl (fun t x => ?_) _ _).trans ?_) | split | (dsimp only; split) | (simp; split))

@[simp] theorem modActive_mask {w : BitVec 38} (h : 0x10#38 &&& w = 0x10#38) (a0 : Nat) (a1 : Nat) (a2 : RunFig → RunFig) (s : State) :
    (modActive a0 a1 a2 s).mask w = s.mask w := by
  refine mask_mono (W := 0x10#38) ?_ h
  unfold modActive
  repeat' (first | (simp; done) | with_reducible rfl | (refine (mask_foldl (fun t x => ?_) _ _).trans ?_) | split | (dsimp only; split) | (simp; split))

@[simp] theorem askAbort_mask {w : BitVec 38} (h : 0x10#38 &&& w = 0x10#38) (a0 : Nat) (a1 : Nat) (a2 : AbortCause) (s : State) :
    (askAbort a0 a1 a2 s).mask w = s.mask w := by
  refine mask_mono (W := 0x10#38) ?_ h
  unfold askAbort
  repeat' (first | (simp; done) | with_reducible rfl | (refine (mask_foldl (fun t x => ?_) _ _).trans ?_) | split | (dsimp only; split) | (simp; split))

@[simp] theorem stopChor_mask {w : BitVec 38} (h : 0x10#38 &&& w = 0x10#38) (a0 : Nat) (a1 : Nat) (s : State) :
    (stopChor a0 a1 s).mask w = s.mask w := by
  refine mask_mono (W := 0x10#38) ?_ h
  unfold stopChor
  repeat' (first | (simp; done) | with_reducible rfl | (refine (mask_foldl (fun t x => ?_) _ _).trans ?_) | split | (dsimp only; split) | (simp; split))

@[simp] theorem softRepair_mask {w : BitVec 38} (h : 0x2702000#38 &&& w = 0x2702000#38) (a0 : Nat) (a1 : Nat) (s : State) :
    (softRepair a0 a1 s).mask w = s.mask w := by
  refine mask_mono (W := 0x2702000#38) ?_ h
  unfold softRepair
  repeat' (first | (simp; done) | with_reducible rfl | (refine (mask_foldl (fun t x => ?_) _ _).trans ?_) | split | (dsimp only; split) | (simp; split))

@[simp] theorem corrected_mask {w : BitVec 38} (h : 0x2702010#38 &&& w = 0x2702010#38) (a0 : Nat) (a1 : Nat) (s : State) :
    (corrected a0 a1 s).mask w = s.mask w := by
  refine mask_mono (W := 0x2702010#38) ?_ h
  unfold corrected
  repeat' (first | (simp; done) | with_reducible rfl | (refine (mask_foldl (fun t x => ?_) _ _).trans ?_) | split | (dsimp only; split) | (simp; split))

@[simp] theorem uncorrectableAt_mask {w : BitVec 38} (h : 0x802702012#38 &&& w = 0x802702012#38) (a0 : Bool) (a1 : Nat) (a2 : Nat) (a3 : Nat) (a4 : List Nat) (s : State) :
    (uncorrectableAt a0 a1 a2 a3 a4 s).mask w = s.mask w := by
  refine mask_mono (W := 0x802702012#38) ?_ h
  unfold uncorrectableAt
  repeat' (first | (simp; done) | with_reducible rfl | (refine (mask_foldl (fun t x => ?_) _ _).trans ?_) | split | (dsimp only; split) | (simp; split))

@[simp] theorem uncorrectable_mask {w : BitVec 38} (h : 0x802702012#38 &&& w = 0x802702012#38) (a0 : Nat) (a1 : Nat) (a2 : Nat) (a3 : List Nat) (s : State) :
    (uncorrectable a0 a1 a2 a3 s).mask w = s.mask w := by
  refine mask_mono (W := 0x802702012#38) ?_ h
  unfold uncorrectable
  repeat' (first | (simp; done) | with_reducible rfl | (refine (mask_foldl (fun t x => ?_) _ _).trans ?_) | split | (dsimp only; split) | (simp; split))

@[simp] theorem lostWrite_mask {w : BitVec 38} (h : 0x700002#38 &&& w = 0x700002#38) (a0 : Nat) (a1 : Nat) (a2 : Nat) (a3 : List Nat) (s : State) :
    (lostWrite a0 a1 a2 a3 s).mask w = s.mask w := by
  refine mask_mono (W := 0x700002#38) ?_ h
  unfold lostWrite
  repeat' (first | (simp; done) | with_reducible rfl | (refine (mask_foldl (fun t x => ?_) _ _).trans ?_) | split | (dsimp only; split) | (simp; split))

@[simp] theorem chargeSlots_mask {w : BitVec 38} (h : 0x2000#38 &&& w = 0x2000#38) (a0 : Nat) (a1 : Nat) (a2 : Nat) (s : State) :
    (chargeSlots a0 a1 a2 s).mask w = s.mask w := by
  refine mask_mono (W := 0x2000#38) ?_ h
  unfold chargeSlots
  repeat' (first | (simp; done) | with_reducible rfl | (refine (mask_foldl (fun t x => ?_) _ _).trans ?_) | split | (dsimp only; split) | (simp; split))

@[simp] theorem chargeFar_mask {w : BitVec 38} (h : 0x8000#38 &&& w = 0x8000#38) (a0 : Nat) (a1 : Nat) (a2 : Nat) (s : State) :
    (chargeFar a0 a1 a2 s).mask w = s.mask w := by
  refine mask_mono (W := 0x8000#38) ?_ h
  unfold chargeFar
  repeat' (first | (simp; done) | with_reducible rfl | (refine (mask_foldl (fun t x => ?_) _ _).trans ?_) | split | (dsimp only; split) | (simp; split))

@[simp] theorem evictEntry_mask {w : BitVec 38} (h : 0x802702012#38 &&& w = 0x802702012#38) (a0 : Nat) (a1 : WcbEntry) (a2 : Ecc) (s : State) :
    (evictEntry a0 a1 a2 s).mask w = s.mask w := by
  refine mask_mono (W := 0x802702012#38) ?_ h
  unfold evictEntry
  repeat' (first | (simp; done) | with_reducible rfl | (refine (mask_foldl (fun t x => ?_) _ _).trans ?_) | split | (dsimp only; split) | (simp; split))

@[simp] theorem evictForced_mask {w : BitVec 38} (h : 0x802702012#38 &&& w = 0x802702012#38) (a0 : Nat) (a1 : WcbEntry) (s : State) :
    (evictForced a0 a1 s).mask w = s.mask w := by
  refine mask_mono (W := 0x802702012#38) ?_ h
  unfold evictForced
  repeat' (first | (simp; done) | with_reducible rfl | (refine (mask_foldl (fun t x => ?_) _ _).trans ?_) | split | (dsimp only; split) | (simp; split))

@[simp] theorem wcbAccept_mask {w : BitVec 38} (h : 0x802702012#38 &&& w = 0x802702012#38) (a0 : Nat) (a1 : Nat) (a2 : Nat) (a3 : Bool) (a4 : List (Nat × Byte)) (s : State) :
    (wcbAccept a0 a1 a2 a3 a4 s).mask w = s.mask w := by
  refine mask_mono (W := 0x802702012#38) ?_ h
  unfold wcbAccept
  repeat' (first | (simp; done) | with_reducible rfl | (refine (mask_foldl (fun t x => ?_) _ _).trans ?_) | split | (dsimp only; split) | (simp; split))

@[simp] theorem flushChannel_mask {w : BitVec 38} (h : 0x802702012#38 &&& w = 0x802702012#38) (a0 : Nat) (a1 : WcbEntry → Bool) (s : State) :
    (flushChannel a0 a1 s).mask w = s.mask w := by
  refine mask_mono (W := 0x802702012#38) ?_ h
  unfold flushChannel
  repeat' (first | (simp; done) | with_reducible rfl | (refine (mask_foldl (fun t x => ?_) _ _).trans ?_) | split | (dsimp only; split) | (simp; split))

@[simp] theorem flushPart_mask {w : BitVec 38} (h : 0x802702012#38 &&& w = 0x802702012#38) (a0 : Nat) (s : State) :
    (flushPart a0 s).mask w = s.mask w := by
  refine mask_mono (W := 0x802702012#38) ?_ h
  unfold flushPart
  repeat' (first | (simp; done) | with_reducible rfl | (refine (mask_foldl (fun t x => ?_) _ _).trans ?_) | split | (dsimp only; split) | (simp; split))

@[simp] theorem flushAll_mask {w : BitVec 38} (h : 0x802702012#38 &&& w = 0x802702012#38) (s : State) :
    (flushAll s).mask w = s.mask w := by
  refine mask_mono (W := 0x802702012#38) ?_ h
  unfold flushAll
  repeat' (first | (simp; done) | with_reducible rfl | (refine (mask_foldl (fun t x => ?_) _ _).trans ?_) | split | (dsimp only; split) | (simp; split))

theorem farSlot_mask {w : BitVec 38} (h : 0x8000#38 &&& w = 0x8000#38) (a0 : Nat) (a1 : Nat) (a2 : Nat) (s : State) :
    ∀ t, farSlot a0 a1 a2 s = some t → t.mask w = s.mask w := by
  intro t ht
  refine mask_mono (W := 0x8000#38) ?_ h
  unfold farSlot at ht
  repeat' (first | split at ht | (dsimp only at ht; split at ht))
  all_goals (first | (simp only [reduceCtorEq] at ht; done) | (injection ht with ht; subst ht; repeat' (first | (simp; done) | with_reducible rfl | (refine (mask_foldl (fun t x => ?_) _ _).trans ?_) | split | (dsimp only; split) | (simp; split))))

@[simp] theorem farPut_mask {w : BitVec 38} (h : 0x8000#38 &&& w = 0x8000#38) (a0 : Nat) (a1 : Nat) (a2 : List Byte) (s : State) :
    (farPut a0 a1 a2 s).mask w = s.mask w := by
  refine mask_mono (W := 0x8000#38) ?_ h
  unfold farPut
  repeat' (first | (simp; done) | with_reducible rfl | (refine (mask_foldl (fun t x => ?_) _ _).trans ?_) | split | (dsimp only; split) | (simp; split))

@[simp] theorem fwUncorrectable_mask {w : BitVec 38} (h : 0x802702012#38 &&& w = 0x802702012#38) (a0 : Nat) (a1 : Nat) (a2 : Loc) (s : State) :
    (fwUncorrectable a0 a1 a2 s).mask w = s.mask w := by
  refine mask_mono (W := 0x802702012#38) ?_ h
  unfold fwUncorrectable
  repeat' (first | (simp; done) | with_reducible rfl | (refine (mask_foldl (fun t x => ?_) _ _).trans ?_) | split | (dsimp only; split) | (simp; split))

@[simp] theorem writePiece_mask {w : BitVec 38} (h : 0x80270a012#38 &&& w = 0x80270a012#38) (a0 : Nat) (a1 : Bool) (a2 : Nat) (a3 : List Byte) (s : State) :
    (writePiece a0 a1 a2 a3 s).mask w = s.mask w := by
  refine mask_mono (W := 0x80270a012#38) ?_ h
  unfold writePiece
  repeat' (first | (simp; done) | with_reducible rfl | (refine (mask_foldl (fun t x => ?_) _ _).trans ?_) | split | (dsimp only; split) | (simp; split))

@[simp] theorem writeVa_mask {w : BitVec 38} (h : 0x80270a012#38 &&& w = 0x80270a012#38) (a0 : Nat) (a1 : Bool) (a2 : Nat) (a3 : List Byte) (s : State) :
    (writeVa a0 a1 a2 a3 s).mask w = s.mask w := by
  refine mask_mono (W := 0x80270a012#38) ?_ h
  unfold writeVa
  repeat' (first | (simp; done) | with_reducible rfl | (refine (mask_foldl (fun t x => ?_) _ _).trans ?_) | split | (dsimp only; split) | (simp; split))

@[simp] theorem completeWith_mask {w : BitVec 38} (h : 0x80270a012#38 &&& w = 0x80270a012#38) (a0 : Nat) (a1 : Nat) (a2 : BitVec 16) (a3 : BitVec 512) (a4 : Nat) (a5 : List Byte) (s : State) :
    (completeWith a0 a1 a2 a3 a4 a5 s).mask w = s.mask w := by
  refine mask_mono (W := 0x80270a012#38) ?_ h
  unfold completeWith
  repeat' (first | (simp; done) | with_reducible rfl | (refine (mask_foldl (fun t x => ?_) _ _).trans ?_) | split | (dsimp only; split) | (simp; split))

@[simp] theorem runCommand_mask {w : BitVec 38} (h : 0x400300000#38 &&& w = 0x400300000#38) (a0 : CmdRule) (a1 : Nat) (a2 : BitVec 16)
    (body : Nat → BitVec 512 → State → State) (s : State)
    (hb : ∀ p img t, t.mask w = s.mask w → (body p img t).mask w = s.mask w) : (runCommand a0 a1 a2 body s).mask w = s.mask w := by
  have g : ∀ t u : State, t.mask 0x400300000#38 = u.mask 0x400300000#38 → t.mask w = u.mask w := fun t u e => mask_mono e h
  unfold runCommand
  dsimp only
  repeat' split
  all_goals first
    | rfl
    | exact hb _ _ _ (g _ _ (by simp))
    | exact g _ _ (by simp)

@[simp] theorem spmWrite_mask {w : BitVec 38} (h : 0x20#38 &&& w = 0x20#38) (a0 : Nat) (a1 : Nat) (a2 : List Byte) (s : State) :
    (spmWrite a0 a1 a2 s).mask w = s.mask w := by
  refine mask_mono (W := 0x20#38) ?_ h
  unfold spmWrite
  repeat' (first | (simp; done) | with_reducible rfl | (refine (mask_foldl (fun t x => ?_) _ _).trans ?_) | split | (dsimp only; split) | (simp; split))

@[simp] theorem raise_mask {w : BitVec 38} (h : 0x20#38 &&& w = 0x20#38) (a0 : Nat) (a1 : Nat) (a2 : Flags) (s : State) :
    (raise a0 a1 a2 s).mask w = s.mask w := by
  refine mask_mono (W := 0x20#38) ?_ h
  unfold raise
  repeat' (first | (simp; done) | with_reducible rfl | (refine (mask_foldl (fun t x => ?_) _ _).trans ?_) | split | (dsimp only; split) | (simp; split))

@[simp] theorem countPerr_mask {w : BitVec 38} (h : 0x700030#38 &&& w = 0x700030#38) (a0 : Nat) (s : State) :
    (countPerr a0 s).mask w = s.mask w := by
  refine mask_mono (W := 0x700030#38) ?_ h
  unfold countPerr
  repeat' (first | (simp; done) | with_reducible rfl | (refine (mask_foldl (fun t x => ?_) _ _).trans ?_) | split | (dsimp only; split) | (simp; split))

@[simp] theorem spoilRegions_mask {w : BitVec 38} (h : 0x10#38 &&& w = 0x10#38) (a0 : Nat) (a1 : Nat) (s : State) :
    (spoilRegions a0 a1 s).mask w = s.mask w := by
  refine mask_mono (W := 0x10#38) ?_ h
  unfold spoilRegions
  repeat' (first | (simp; done) | with_reducible rfl | (refine (mask_foldl (fun t x => ?_) _ _).trans ?_) | split | (dsimp only; split) | (simp; split))

@[simp] theorem parityDetect_mask {w : BitVec 38} (h : 0x700030#38 &&& w = 0x700030#38) (a0 : Nat) (a1 : Nat) (a2 : Nat) (a3 : Nat) (a4 : Option Nat) (s : State) :
    (parityDetect a0 a1 a2 a3 a4 s).mask w = s.mask w := by
  refine mask_mono (W := 0x700030#38) ?_ h
  unfold parityDetect
  repeat' (first | (simp; done) | with_reducible rfl | (refine (mask_foldl (fun t x => ?_) _ _).trans ?_) | split | (dsimp only; split) | (simp; split))

@[simp] theorem touchRows_mask {w : BitVec 38} (h : 0x700030#38 &&& w = 0x700030#38) (a0 : Nat) (a1 : Nat) (a2 : Nat) (a3 : Nat) (a4 : List Nat) (a5 : List Nat) (s : State) :
    (touchRows a0 a1 a2 a3 a4 a5 s).mask w = s.mask w := by
  refine mask_mono (W := 0x700030#38) ?_ h
  unfold touchRows
  repeat' (first | (simp; done) | with_reducible rfl | (refine (mask_foldl (fun t x => ?_) _ _).trans ?_) | split | (dsimp only; split) | (simp; split))

@[simp] theorem detectBank_mask {w : BitVec 38} (h : 0x700030#38 &&& w = 0x700030#38) (a0 : Nat) (a1 : Nat) (a2 : Nat) (a3 : Nat) (a4 : List Nat) (s : State) :
    (detectBank a0 a1 a2 a3 a4 s).mask w = s.mask w := by
  refine mask_mono (W := 0x700030#38) ?_ h
  unfold detectBank
  repeat' (first | (simp; done) | with_reducible rfl | (refine (mask_foldl (fun t x => ?_) _ _).trans ?_) | split | (dsimp only; split) | (simp; split))

@[simp] theorem countFrameBytes_mask {w : BitVec 38} (h : 0x720010#38 &&& w = 0x720010#38) (a0 : Nat) (a1 : Nat) (a2 : Nat) (s : State) :
    (countFrameBytes a0 a1 a2 s).mask w = s.mask w := by
  refine mask_mono (W := 0x720010#38) ?_ h
  unfold countFrameBytes
  repeat' (first | (simp; done) | with_reducible rfl | (refine (mask_foldl (fun t x => ?_) _ _).trans ?_) | split | (dsimp only; split) | (simp; split))

@[simp] theorem pump_mask {w : BitVec 38} (h : 0x720010#38 &&& w = 0x720010#38) (a0 a1 : Nat) (s : State) :
    (pump a0 a1 s).mask w = s.mask w := by
  refine mask_mono (W := 0x720010#38) ?_ h
  induction a1 generalizing s with
  | zero => rfl
  | succ k ih =>
    unfold pump
    dsimp only
    split
    · rfl
    · split
      · rw [ih]; simp
      · rfl

@[simp] theorem queueFrame_mask {w : BitVec 38} (h : 0x720010#38 &&& w = 0x720010#38) (a0 : Nat) (a1 : Nat) (a2 : Frame) (s : State) :
    (queueFrame a0 a1 a2 s).mask w = s.mask w := by
  refine mask_mono (W := 0x720010#38) ?_ h
  unfold queueFrame
  repeat' (first | (simp; done) | with_reducible rfl | (refine (mask_foldl (fun t x => ?_) _ _).trans ?_) | split | (dsimp only; split) | (simp; split))

@[simp] theorem reportRoute_mask {w : BitVec 38} (h : 0x700010#38 &&& w = 0x700010#38) (a0 : Nat) (a1 : Nat) (a2 : Nat) (s : State) :
    (reportRoute a0 a1 a2 s).mask w = s.mask w := by
  refine mask_mono (W := 0x700010#38) ?_ h
  unfold reportRoute
  repeat' (first | (simp; done) | with_reducible rfl | (refine (mask_foldl (fun t x => ?_) _ _).trans ?_) | split | (dsimp only; split) | (simp; split))

@[simp] theorem sendToward_mask {w : BitVec 38} (h : 0x720010#38 &&& w = 0x720010#38) (a0 : Nat) (a1 : Nat) (a2 : Frame) (s : State) :
    (sendToward a0 a1 a2 s).mask w = s.mask w := by
  refine mask_mono (W := 0x720010#38) ?_ h
  unfold sendToward
  repeat' (first | (simp; done) | with_reducible rfl | (refine (mask_foldl (fun t x => ?_) _ _).trans ?_) | split | (dsimp only; split) | (simp; split))

@[simp] theorem retryFrames_mask {w : BitVec 38} (h : 0x720010#38 &&& w = 0x720010#38) (a0 : Nat) (s : State) :
    (retryFrames a0 s).mask w = s.mask w := by
  refine mask_mono (W := 0x720010#38) ?_ h
  unfold retryFrames
  repeat' (first | (simp; done) | with_reducible rfl | (refine (mask_foldl (fun t x => ?_) _ _).trans ?_) | split | (dsimp only; split) | (simp; split))

@[simp] theorem flood_mask {w : BitVec 38} (h : 0x720010#38 &&& w = 0x720010#38) (a0 : Nat) (a1 : Nat) (a2 : List Nat) (a3 : Frame) (s : State) :
    (flood a0 a1 a2 a3 s).mask w = s.mask w := by
  refine mask_mono (W := 0x720010#38) ?_ h
  unfold flood
  repeat' (first | (simp; done) | with_reducible rfl | (refine (mask_foldl (fun t x => ?_) _ _).trans ?_) | split | (dsimp only; split) | (simp; split))

@[simp] theorem resend_mask {w : BitVec 38} (h : 0x720010#38 &&& w = 0x720010#38) (a0 : Nat) (a1 : Nat) (s : State) :
    (resend a0 a1 s).mask w = s.mask w := by
  refine mask_mono (W := 0x720010#38) ?_ h
  unfold resend
  repeat' (first | (simp; done) | with_reducible rfl | (refine (mask_foldl (fun t x => ?_) _ _).trans ?_) | split | (dsimp only; split) | (simp; split))

@[simp] theorem haltRun_mask {w : BitVec 38} (h : 0x700010#38 &&& w = 0x700010#38) (a0 : Nat) (s : State) :
    (haltRun a0 s).mask w = s.mask w := by
  refine mask_mono (W := 0x700010#38) ?_ h
  unfold haltRun
  repeat' (first | (simp; done) | with_reducible rfl | (refine (mask_foldl (fun t x => ?_) _ _).trans ?_) | split | (dsimp only; split) | (simp; split))

@[simp] theorem settle_mask {w : BitVec 38} (h : 0x700010#38 &&& w = 0x700010#38) (a0 : Nat) (s : State) :
    (settle a0 s).mask w = s.mask w := by
  refine mask_mono (W := 0x700010#38) ?_ h
  unfold settle
  repeat' (first | (simp; done) | with_reducible rfl | (refine (mask_foldl (fun t x => ?_) _ _).trans ?_) | split | (dsimp only; split) | (simp; split))

@[simp] theorem fremundStop_mask {w : BitVec 38} (h : 0x700010#38 &&& w = 0x700010#38) (a0 : Nat) (a1 : Nat) (s : State) :
    (fremundStop a0 a1 s).mask w = s.mask w := by
  refine mask_mono (W := 0x700010#38) ?_ h
  unfold fremundStop
  repeat' (first | (simp; done) | with_reducible rfl | (refine (mask_foldl (fun t x => ?_) _ _).trans ?_) | split | (dsimp only; split) | (simp; split))

@[simp] theorem finishRun_mask {w : BitVec 38} (h : 0x700010#38 &&& w = 0x700010#38) (a0 : Nat) (s : State) :
    (finishRun a0 s).mask w = s.mask w := by
  refine mask_mono (W := 0x700010#38) ?_ h
  unfold finishRun
  repeat' (first | (simp; done) | with_reducible rfl | (refine (mask_foldl (fun t x => ?_) _ _).trans ?_) | split | (dsimp only; split) | (simp; split))

@[simp] theorem reportSplit_mask {w : BitVec 38} (h : 0x4700010#38 &&& w = 0x4700010#38) (a0 : Nat) (a1 : Nat) (s : State) :
    (reportSplit a0 a1 s).mask w = s.mask w := by
  refine mask_mono (W := 0x4700010#38) ?_ h
  unfold reportSplit
  repeat' (first | (simp; done) | with_reducible rfl | (refine (mask_foldl (fun t x => ?_) _ _).trans ?_) | split | (dsimp only; split) | (simp; split))

@[simp] theorem tempoSplit_mask {w : BitVec 38} (h : 0x1004700010#38 &&& w = 0x1004700010#38) (a0 : Nat) (a1 : List Nat) (s : State) :
    (tempoSplit a0 a1 s).mask w = s.mask w := by
  refine mask_mono (W := 0x1004700010#38) ?_ h
  unfold tempoSplit
  repeat' (first | (simp; done) | with_reducible rfl | (refine (mask_foldl (fun t x => ?_) _ _).trans ?_) | split | (dsimp only; split) | (simp; split))

@[simp] theorem primeItem_mask {w : BitVec 38} (h : 0x20#38 &&& w = 0x20#38) (a0 : Nat) (s : State) :
    (primeItem a0 s).mask w = s.mask w := by
  refine mask_mono (W := 0x20#38) ?_ h
  unfold primeItem
  repeat' (first | (simp; done) | with_reducible rfl | (refine (mask_foldl (fun t x => ?_) _ _).trans ?_) | split | (dsimp only; split) | (simp; split))

@[simp] theorem leaveWork_mask {w : BitVec 38} (h : 0x20#38 &&& w = 0x20#38) (a0 : Nat) (s : State) :
    (leaveWork a0 s).mask w = s.mask w := by
  refine mask_mono (W := 0x20#38) ?_ h
  unfold leaveWork
  repeat' (first | (simp; done) | with_reducible rfl | (refine (mask_foldl (fun t x => ?_) _ _).trans ?_) | split | (dsimp only; split) | (simp; split))

theorem admit_mask {w : BitVec 38} (h : 0x20#38 &&& w = 0x20#38) {s u : State} {c i bank : Nat} {got : Step → Act} {rows : List Nat}
    {t : Step} (e : s.admission c i bank got rows = .step t u) : u.mask w = s.mask w := by
  unfold State.admission at e
  split at e
  · cases e
  · split at e
    · cases e
    · split at e
      · cases e
      · dsimp only at e
        split at e
        · cases e
        · split at e
          · split at e
            · injection e with _ e
              rw [← e, State.modCore_mask h, primeItem_mask h]
            · cases e
          · cases e

@[simp] theorem raiseLate_mask {w : BitVec 38} (h : 0x720010#38 &&& w = 0x720010#38) (a0 : Nat) (a1 : Nat) (s : State) :
    (raiseLate a0 a1 s).mask w = s.mask w := by
  refine mask_mono (W := 0x720010#38) ?_ h
  unfold raiseLate
  repeat' (first | (simp; done) | with_reducible rfl | (refine (mask_foldl (fun t x => ?_) _ _).trans ?_) | split | (dsimp only; split) | (simp; split))

@[simp] theorem callerCheck_mask {w : BitVec 38} (h : 0x720010#38 &&& w = 0x720010#38) (a0 : Nat) (s : State) :
    (callerCheck a0 s).mask w = s.mask w := by
  refine mask_mono (W := 0x720010#38) ?_ h
  unfold callerCheck
  repeat' (first | (simp; done) | with_reducible rfl | (refine (mask_foldl (fun t x => ?_) _ _).trans ?_) | split | (dsimp only; split) | (simp; split))

@[simp] theorem holdEnded_mask {w : BitVec 38} (h : 0x10#38 &&& w = 0x10#38) (a0 : Nat) (s : State) :
    (holdEnded a0 s).mask w = s.mask w := by
  refine mask_mono (W := 0x10#38) ?_ h
  unfold holdEnded
  repeat' (first | (simp; done) | with_reducible rfl | (refine (mask_foldl (fun t x => ?_) _ _).trans ?_) | split | (dsimp only; split) | (simp; split))

@[simp] theorem countCreditWaits_mask {w : BitVec 38} (h : 0x720010#38 &&& w = 0x720010#38) (a0 : Nat) (s : State) :
    (countCreditWaits a0 s).mask w = s.mask w := by
  refine mask_mono (W := 0x720010#38) ?_ h
  unfold countCreditWaits
  repeat' (first | (simp; done) | with_reducible rfl | (refine (mask_foldl (fun t x => ?_) _ _).trans ?_) | split | (dsimp only; split) | (simp; split))

@[simp] theorem beatPart_mask {w : BitVec 38} (h : 0x720010#38 &&& w = 0x720010#38) (a0 : Nat) (s : State) :
    (beatPart a0 s).mask w = s.mask w := by
  refine mask_mono (W := 0x720010#38) ?_ h
  unfold beatPart
  repeat' (first | (simp; done) | with_reducible rfl | (refine (mask_foldl (fun t x => ?_) _ _).trans ?_) | split | (dsimp only; split) | (simp; split))

@[simp] theorem closeBar_mask {w : BitVec 38} (h : 0x10#38 &&& w = 0x10#38) (a0 : Nat) (s : State) :
    (closeBar a0 s).mask w = s.mask w := by
  refine mask_mono (W := 0x10#38) ?_ h
  unfold closeBar
  repeat' (first | (simp; done) | with_reducible rfl | (refine (mask_foldl (fun t x => ?_) _ _).trans ?_) | split | (dsimp only; split) | (simp; split))

@[simp] theorem fallBeat_mask {w : BitVec 38} (h : 0x1000720010#38 &&& w = 0x1000720010#38) (a0 : BitVec 64) (s : State) :
    (fallBeat a0 s).mask w = s.mask w := by
  refine mask_mono (W := 0x1000720010#38) ?_ h
  unfold fallBeat
  repeat' (first | (simp; done) | with_reducible rfl | (refine (mask_foldl (fun t x => ?_) _ _).trans ?_) | split | (dsimp only; split) | (simp; split))

@[simp] theorem checkFrames_mask {w : BitVec 38} (h : 0x1004700010#38 &&& w = 0x1004700010#38) (s : State) :
    (checkFrames s).mask w = s.mask w := by
  refine mask_mono (W := 0x1004700010#38) ?_ h
  unfold checkFrames
  repeat' (first | (simp; done) | with_reducible rfl | (refine (mask_foldl (fun t x => ?_) _ _).trans ?_) | split | (dsimp only; split) | (simp; split))

@[simp] theorem loseTempo_mask {w : BitVec 38} (h : 0x700010#38 &&& w = 0x700010#38) (a0 : Nat) (s : State) :
    (loseTempo a0 s).mask w = s.mask w := by
  refine mask_mono (W := 0x700010#38) ?_ h
  unfold loseTempo
  repeat' (first | (simp; done) | with_reducible rfl | (refine (mask_foldl (fun t x => ?_) _ _).trans ?_) | split | (dsimp only; split) | (simp; split))

@[simp] theorem writeSplit_mask {w : BitVec 38} (h : 0x20#38 &&& w = 0x20#38) (a0 : Nat) (a1 : Nat) (a2 : Nat) (a3 : List (List Aligned)) (s : State) :
    (writeSplit a0 a1 a2 a3 s).mask w = s.mask w := by
  refine mask_mono (W := 0x20#38) ?_ h
  unfold writeSplit
  repeat' (first | (simp; done) | with_reducible rfl | (refine (mask_foldl (fun t x => ?_) _ _).trans ?_) | split | (dsimp only; split) | (simp; split))

@[simp] theorem skipShift_mask {w : BitVec 38} (h : 0x20#38 &&& w = 0x20#38) (a0 : Nat) (a1 : Bool) (s : State) :
    (skipShift a0 a1 s).mask w = s.mask w := by
  refine mask_mono (W := 0x20#38) ?_ h
  unfold skipShift
  repeat' (first | (simp; done) | with_reducible rfl | (refine (mask_foldl (fun t x => ?_) _ _).trans ?_) | split | (dsimp only; split) | (simp; split))

@[simp] theorem writeBoth_mask {w : BitVec 38} (h : 0x20#38 &&& w = 0x20#38) (a0 : Nat) (a1 : Nat) (a2 : Bool) (a3 : FloatFmt) (a4 : Nat → Nat → Num) (s : State) :
    (writeBoth a0 a1 a2 a3 a4 s).mask w = s.mask w := by
  refine mask_mono (W := 0x20#38) ?_ h
  unfold writeBoth
  repeat' (first | (simp; done) | with_reducible rfl | (refine (mask_foldl (fun t x => ?_) _ _).trans ?_) | split | (dsimp only; split) | (simp; split))

@[simp] theorem nvmWrite_mask {w : BitVec 38} (h : 0x40000000#38 &&& w = 0x40000000#38) (a0 : Nat) (a1 : List Byte) (s : State) :
    (nvmWrite a0 a1 s).mask w = s.mask w := by
  refine mask_mono (W := 0x40000000#38) ?_ h
  unfold nvmWrite
  repeat' (first | (simp; done) | with_reducible rfl | (refine (mask_foldl (fun t x => ?_) _ _).trans ?_) | split | (dsimp only; split) | (simp; split))

@[simp] theorem nvmAsk_mask {w : BitVec 38} (h : 0x80000000#38 &&& w = 0x80000000#38) (a0 : Nat) (a1 : Nat) (a2 : Nat) (a3 : BitVec 512) (a4 : Nat) (s : State) :
    (nvmAsk a0 a1 a2 a3 a4 s).mask w = s.mask w := by
  refine mask_mono (W := 0x80000000#38) ?_ h
  unfold nvmAsk
  repeat' (first | (simp; done) | with_reducible rfl | (refine (mask_foldl (fun t x => ?_) _ _).trans ?_) | split | (dsimp only; split) | (simp; split))

@[simp] theorem snapFail_mask {w : BitVec 38} (h : 0x700010#38 &&& w = 0x700010#38) (a0 : Nat) (a1 : Nat) (a2 : Nat) (a3 : Nat) (s : State) :
    (snapFail a0 a1 a2 a3 s).mask w = s.mask w := by
  refine mask_mono (W := 0x700010#38) ?_ h
  unfold snapFail
  repeat' (first | (simp; done) | with_reducible rfl | (refine (mask_foldl (fun t x => ?_) _ _).trans ?_) | split | (dsimp only; split) | (simp; split))

@[simp] theorem snapCapture_mask {w : BitVec 38} (h : 0x802702012#38 &&& w = 0x802702012#38) (a0 : Nat) (a1 : Nat) (a2 : Nat) (a3 : Manifest) (s : State) :
    (snapCapture a0 a1 a2 a3 s).mask w = s.mask w := by
  refine mask_mono (W := 0x802702012#38) ?_ h
  unfold snapCapture
  repeat' (first | (simp; done) | with_reducible rfl | (refine (mask_foldl (fun t x => ?_) _ _).trans ?_) | split | (dsimp only; split) | (simp; split))

@[simp] theorem withdrawFault_mask {w : BitVec 38} (h : 0x400#38 &&& w = 0x400#38) (a0 : Nat) (s : State) :
    (withdrawFault a0 s).mask w = s.mask w := by
  refine mask_mono (W := 0x400#38) ?_ h
  unfold withdrawFault
  repeat' (first | (simp; done) | with_reducible rfl | (refine (mask_foldl (fun t x => ?_) _ _).trans ?_) | split | (dsimp only; split) | (simp; split))

@[simp] theorem enqueueFault_mask {w : BitVec 38} (h : 0x700510#38 &&& w = 0x700510#38) (a0 : Nat) (s : State) :
    (enqueueFault a0 s).mask w = s.mask w := by
  refine mask_mono (W := 0x700510#38) ?_ h
  unfold enqueueFault
  repeat' (first | (simp; done) | with_reducible rfl | (refine (mask_foldl (fun t x => ?_) _ _).trans ?_) | split | (dsimp only; split) | (simp; split))

@[simp] theorem resumeStream_mask {w : BitVec 38} (h : 0x500#38 &&& w = 0x500#38) (a0 : Nat) (s : State) :
    (resumeStream a0 s).mask w = s.mask w := by
  refine mask_mono (W := 0x500#38) ?_ h
  unfold resumeStream
  repeat' (first | (simp; done) | with_reducible rfl | (refine (mask_foldl (fun t x => ?_) _ _).trans ?_) | split | (dsimp only; split) | (simp; split))

@[simp] theorem retryParked_mask {w : BitVec 38} (h : 0x700510#38 &&& w = 0x700510#38) (a0 : List Nat) (s : State) :
    (retryParked a0 s).mask w = s.mask w := by
  induction a0 generalizing s with
  | nil => rfl
  | cons i more ih =>
    unfold retryParked
    split
    · rfl
    · rw [ih]
      refine mask_mono (W := 0x700510#38) ?_ h
      split <;> simp

@[simp] theorem unpark_mask {w : BitVec 38} (h : 0x700510#38 &&& w = 0x700510#38) (s : State) :
    (unpark s).mask w = s.mask w := by
  refine mask_mono (W := 0x700510#38) ?_ h
  unfold unpark
  repeat' (first | (simp; done) | with_reducible rfl | (refine (mask_foldl (fun t x => ?_) _ _).trans ?_) | split | (dsimp only; split) | (simp; split))

@[simp] theorem unbindStream_mask {w : BitVec 38} (h : 0x500#38 &&& w = 0x500#38) (a0 : Nat) (s : State) :
    (unbindStream a0 s).mask w = s.mask w := by
  refine mask_mono (W := 0x500#38) ?_ h
  unfold unbindStream
  repeat' (first | (simp; done) | with_reducible rfl | (refine (mask_foldl (fun t x => ?_) _ _).trans ?_) | split | (dsimp only; split) | (simp; split))

@[simp] theorem unbindWhere_mask {w : BitVec 38} (h : 0x700510#38 &&& w = 0x700510#38) (a0 : Stream → Bool) (s : State) :
    (unbindWhere a0 s).mask w = s.mask w := by
  refine mask_mono (W := 0x700510#38) ?_ h
  unfold unbindWhere
  repeat' (first | (simp; done) | with_reducible rfl | (refine (mask_foldl (fun t x => ?_) _ _).trans ?_) | split | (dsimp only; split) | (simp; split))

@[simp] theorem bindStreams_mask {w : BitVec 38} (h : 0x100#38 &&& w = 0x100#38) (a0 : Nat) (a1 : Nat) (a2 : List StreamDecl) (s : State) :
    (bindStreams a0 a1 a2 s).mask w = s.mask w := by
  refine mask_mono (W := 0x100#38) ?_ h
  unfold bindStreams
  repeat' (first | (simp; done) | with_reducible rfl | (refine (mask_foldl (fun t x => ?_) _ _).trans ?_) | split | (dsimp only; split) | (simp; split))

@[simp] theorem openWindows_mask {w : BitVec 38} (h : 0x20#38 &&& w = 0x20#38) (a0 : Nat) (a1 : Nat) (a2 : List WinDecl) (s : State) :
    (openWindows a0 a1 a2 s).mask w = s.mask w := by
  refine mask_mono (W := 0x20#38) ?_ h
  unfold openWindows
  repeat' (first | (simp; done) | with_reducible rfl | (refine (mask_foldl (fun t x => ?_) _ _).trans ?_) | split | (dsimp only; split) | (simp; split))

@[simp] theorem closeWindows_mask {w : BitVec 38} (h : 0x20#38 &&& w = 0x20#38) (a0 : Nat) (a1 : Nat) (s : State) :
    (closeWindows a0 a1 s).mask w = s.mask w := by
  refine mask_mono (W := 0x20#38) ?_ h
  unfold closeWindows
  repeat' (first | (simp; done) | with_reducible rfl | (refine (mask_foldl (fun t x => ?_) _ _).trans ?_) | split | (dsimp only; split) | (simp; split))

@[simp] theorem takeSlots_mask {w : BitVec 38} (h : 0x20#38 &&& w = 0x20#38) (a0 : List Nat) (a1 : Nat) (a2 : Nat) (a3 : Nat) (a4 : Nat) (s : State) :
    (takeSlots a0 a1 a2 a3 a4 s).mask w = s.mask w := by
  refine mask_mono (W := 0x20#38) ?_ h
  unfold takeSlots
  repeat' (first | (simp; done) | with_reducible rfl | (refine (mask_foldl (fun t x => ?_) _ _).trans ?_) | split | (dsimp only; split) | (simp; split))

@[simp] theorem leaveSlots_mask {w : BitVec 38} (h : 0x20#38 &&& w = 0x20#38) (a0 : Nat) (a1 : Nat) (a2 : List Nat) (s : State) :
    (leaveSlots a0 a1 a2 s).mask w = s.mask w := by
  refine mask_mono (W := 0x20#38) ?_ h
  unfold leaveSlots
  repeat' (first | (simp; done) | with_reducible rfl | (refine (mask_foldl (fun t x => ?_) _ _).trans ?_) | split | (dsimp only; split) | (simp; split))

@[simp] theorem clearClms_mask {w : BitVec 38} (h : 0x80#38 &&& w = 0x80#38) (a0 : List Nat) (s : State) :
    (clearClms a0 s).mask w = s.mask w := by
  refine mask_mono (W := 0x80#38) ?_ h
  unfold clearClms
  repeat' (first | (simp; done) | with_reducible rfl | (refine (mask_foldl (fun t x => ?_) _ _).trans ?_) | split | (dsimp only; split) | (simp; split))

@[simp] theorem endAttempt_mask {w : BitVec 38} (h : 0x7005b0#38 &&& w = 0x7005b0#38) (a0 : Nat) (a1 : Nat) (a2 : List Nat) (s : State) :
    (endAttempt a0 a1 a2 s).mask w = s.mask w := by
  refine mask_mono (W := 0x7005b0#38) ?_ h
  unfold endAttempt
  repeat' (first | (simp; done) | with_reducible rfl | (refine (mask_foldl (fun t x => ?_) _ _).trans ?_) | split | (dsimp only; split) | (simp; split))

@[simp] theorem countCoreBeats_mask {w : BitVec 38} (h : 0x700010#38 &&& w = 0x700010#38) (a0 : Nat) (a1 : Figure) (s : State) :
    (countCoreBeats a0 a1 s).mask w = s.mask w := by
  refine mask_mono (W := 0x700010#38) ?_ h
  unfold countCoreBeats
  repeat' (first | (simp; done) | with_reducible rfl | (refine (mask_foldl (fun t x => ?_) _ _).trans ?_) | split | (dsimp only; split) | (simp; split))

@[simp] theorem beginAttempt_mask {w : BitVec 38} (h : 0x700130#38 &&& w = 0x700130#38) (a0 : Nat) (a1 : Figure) (a2 : Nat) (s : State) :
    (beginAttempt a0 a1 a2 s).mask w = s.mask w := by
  refine mask_mono (W := 0x700130#38) ?_ h
  unfold beginAttempt
  repeat' (first | (simp; done) | with_reducible rfl | (refine (mask_foldl (fun t x => ?_) _ _).trans ?_) | split | (dsimp only; split) | (simp; split))

@[simp] theorem loadRegion_mask {w : BitVec 38} (h : 0x30#38 &&& w = 0x30#38) (a0 : Nat) (a1 : Region) (s : State) :
    (loadRegion a0 a1 s).mask w = s.mask w := by
  refine mask_mono (W := 0x30#38) ?_ h
  unfold loadRegion
  repeat' (first | (simp; done) | with_reducible rfl | (refine (mask_foldl (fun t x => ?_) _ _).trans ?_) | split | (dsimp only; split) | (simp; split))

@[simp] theorem loadRegions_mask {w : BitVec 38} (h : 0x30#38 &&& w = 0x30#38) (a0 : Nat) (a1 : TileProg) (s : State) :
    (loadRegions a0 a1 s).mask w = s.mask w := by
  refine mask_mono (W := 0x30#38) ?_ h
  unfold loadRegions
  repeat' (first | (simp; done) | with_reducible rfl | (refine (mask_foldl (fun t x => ?_) _ _).trans ?_) | split | (dsimp only; split) | (simp; split))

@[simp] theorem enterFigure_mask {w : BitVec 38} (h : 0x10#38 &&& w = 0x10#38) (a0 : Nat) (a1 : RunFig) (s : State) :
    (enterFigure a0 a1 s).mask w = s.mask w := by
  refine mask_mono (W := 0x10#38) ?_ h
  unfold enterFigure
  repeat' (first | (simp; done) | with_reducible rfl | (refine (mask_foldl (fun t x => ?_) _ _).trans ?_) | split | (dsimp only; split) | (simp; split))

@[simp] theorem leaveIdle_mask {w : BitVec 38} (h : 0x400000000#38 &&& w = 0x400000000#38) (s : State) :
    (leaveIdle s).mask w = s.mask w := by
  refine mask_mono (W := 0x400000000#38) ?_ h
  unfold leaveIdle
  repeat' (first | (simp; done) | with_reducible rfl | (refine (mask_foldl (fun t x => ?_) _ _).trans ?_) | split | (dsimp only; split) | (simp; split))

@[simp] theorem startNoWrite_mask {w : BitVec 38} (h : 0x10#38 &&& w = 0x10#38) (a0 : Nat) (a1 : Nat) (a2 : Nat) (s : State) :
    (startNoWrite a0 a1 a2 s).mask w = s.mask w := by
  refine mask_mono (W := 0x10#38) ?_ h
  unfold startNoWrite
  repeat' (first | (simp; done) | with_reducible rfl | (refine (mask_foldl (fun t x => ?_) _ _).trans ?_) | split | (dsimp only; split) | (simp; split))

@[simp] theorem startWork_mask {w : BitVec 38} (h : 0x802702132#38 &&& w = 0x802702132#38) (a0 : Nat) (a1 : Nat) (a2 : Figure) (a3 : Plan) (s : State) :
    (startWork a0 a1 a2 a3 s).mask w = s.mask w := by
  refine mask_mono (W := 0x802702132#38) ?_ h
  unfold startWork
  repeat' (first | (simp; done) | with_reducible rfl | (refine (mask_foldl (fun t x => ?_) _ _).trans ?_) | split | (dsimp only; split) | (simp; split))

@[simp] theorem startBadState_mask {w : BitVec 38} (h : 0x700010#38 &&& w = 0x700010#38) (a0 : Nat) (a1 : Nat) (a2 : Nat) (a3 : Nat) (s : State) :
    (startBadState a0 a1 a2 a3 s).mask w = s.mask w := by
  refine mask_mono (W := 0x700010#38) ?_ h
  unfold startBadState
  repeat' (first | (simp; done) | with_reducible rfl | (refine (mask_foldl (fun t x => ?_) _ _).trans ?_) | split | (dsimp only; split) | (simp; split))

@[simp] theorem returnCredits_mask {w : BitVec 38} (h : 0x720010#38 &&& w = 0x720010#38) (a0 : Nat) (a1 : Nat) (s : State) :
    (returnCredits a0 a1 s).mask w = s.mask w := by
  refine mask_mono (W := 0x720010#38) ?_ h
  unfold returnCredits
  repeat' (first | (simp; done) | with_reducible rfl | (refine (mask_foldl (fun t x => ?_) _ _).trans ?_) | split | (dsimp only; split) | (simp; split))

@[simp] theorem writeTrace_mask {w : BitVec 38} (h : 0x80270a012#38 &&& w = 0x80270a012#38) (a0 : Nat) (a1 : List Byte) (s : State) :
    (writeTrace a0 a1 s).mask w = s.mask w := by
  refine mask_mono (W := 0x80270a012#38) ?_ h
  unfold writeTrace
  repeat' (first | (simp; done) | with_reducible rfl | (refine (mask_foldl (fun t x => ?_) _ _).trans ?_) | split | (dsimp only; split) | (simp; split))

@[simp] theorem endIteration_mask {w : BitVec 38} (h : 0x700010#38 &&& w = 0x700010#38) (a0 : Nat) (s : State) :
    (endIteration a0 s).mask w = s.mask w := by
  refine mask_mono (W := 0x700010#38) ?_ h
  unfold endIteration
  repeat' (first | (simp; done) | with_reducible rfl | (refine (mask_foldl (fun t x => ?_) _ _).trans ?_) | split | (dsimp only; split) | (simp; split))

@[simp] theorem countRetired_mask {w : BitVec 38} (h : 0x10#38 &&& w = 0x10#38) (a0 : Nat) (a1 : RunFig × Figure) (s : State) :
    (countRetired a0 a1 s).mask w = s.mask w := by
  refine mask_mono (W := 0x10#38) ?_ h
  unfold countRetired
  repeat' (first | (simp; done) | with_reducible rfl | (refine (mask_foldl (fun t x => ?_) _ _).trans ?_) | split | (dsimp only; split) | (simp; split))

@[simp] theorem returnItem_mask {w : BitVec 38} (h : 0x80#38 &&& w = 0x80#38) (a0 : Nat) (a1 : Nat) (s : State) :
    (returnItem a0 a1 s).mask w = s.mask w := by
  refine mask_mono (W := 0x80#38) ?_ h
  unfold returnItem
  repeat' (first | (simp; done) | with_reducible rfl | (refine (mask_foldl (fun t x => ?_) _ _).trans ?_) | split | (dsimp only; split) | (simp; split))

@[simp] theorem retireItem_mask {w : BitVec 38} (h : 0x90#38 &&& w = 0x90#38) (a0 : Nat) (a1 : RunFig) (s : State) :
    (retireItem a0 a1 s).mask w = s.mask w := by
  refine mask_mono (W := 0x90#38) ?_ h
  unfold retireItem
  repeat' (first | (simp; done) | with_reducible rfl | (refine (mask_foldl (fun t x => ?_) _ _).trans ?_) | split | (dsimp only; split) | (simp; split))

@[simp] theorem giveBack_mask {w : BitVec 38} (h : 0x90#38 &&& w = 0x90#38) (a0 : Nat) (a1 : Nat) (s : State) :
    (giveBack a0 a1 s).mask w = s.mask w := by
  refine mask_mono (W := 0x90#38) ?_ h
  unfold giveBack
  repeat' (first | (simp; done) | with_reducible rfl | (refine (mask_foldl (fun t x => ?_) _ _).trans ?_) | split | (dsimp only; split) | (simp; split))

@[simp] theorem zeroiseCore_mask {w : BitVec 38} (h : 0x30#38 &&& w = 0x30#38) (a0 : Nat) (s : State) :
    (zeroiseCore a0 s).mask w = s.mask w := by
  refine mask_mono (W := 0x30#38) ?_ h
  unfold zeroiseCore
  repeat' (first | (simp; done) | with_reducible rfl | (refine (mask_foldl (fun t x => ?_) _ _).trans ?_) | split | (dsimp only; split) | (simp; split))

@[simp] theorem leaveFigures_mask {w : BitVec 38} (h : 0x10#38 &&& w = 0x10#38) (a0 : Nat) (a1 : Nat) (s : State) :
    (leaveFigures a0 a1 s).mask w = s.mask w := by
  refine mask_mono (W := 0x10#38) ?_ h
  unfold leaveFigures
  repeat' (first | (simp; done) | with_reducible rfl | (refine (mask_foldl (fun t x => ?_) _ _).trans ?_) | split | (dsimp only; split) | (simp; split))

@[simp] theorem dropShared_mask {w : BitVec 38} (h : 0x20#38 &&& w = 0x20#38) (a0 : Nat) (s : State) :
    (dropShared a0 s).mask w = s.mask w := by
  refine mask_mono (W := 0x20#38) ?_ h
  unfold dropShared
  repeat' (first | (simp; done) | with_reducible rfl | (refine (mask_foldl (fun t x => ?_) _ _).trans ?_) | split | (dsimp only; split) | (simp; split))

@[simp] theorem fenceCore_mask {w : BitVec 38} (h : 0x7005b0#38 &&& w = 0x7005b0#38) (a0 : Nat) (s : State) :
    (fenceCore a0 s).mask w = s.mask w := by
  refine mask_mono (W := 0x7005b0#38) ?_ h
  unfold fenceCore
  repeat' (first | (simp; done) | with_reducible rfl | (refine (mask_foldl (fun t x => ?_) _ _).trans ?_) | split | (dsimp only; split) | (simp; split))

@[simp] theorem rerunFigure_mask {w : BitVec 38} (h : 0x700130#38 &&& w = 0x700130#38) (a0 : Nat) (a1 : Bool) (a2 : RunFig × Figure) (s : State) :
    (rerunFigure a0 a1 a2 s).mask w = s.mask w := by
  refine mask_mono (W := 0x700130#38) ?_ h
  unfold rerunFigure
  repeat' (first | (simp; done) | with_reducible rfl | (refine (mask_foldl (fun t x => ?_) _ _).trans ?_) | split | (dsimp only; split) | (simp; split))

@[simp] theorem dropFigure_mask {w : BitVec 38} (h : 0x700010#38 &&& w = 0x700010#38) (a0 : Nat) (a1 : Nat) (s : State) :
    (dropFigure a0 a1 s).mask w = s.mask w := by
  refine mask_mono (W := 0x700010#38) ?_ h
  unfold dropFigure
  repeat' (first | (simp; done) | with_reducible rfl | (refine (mask_foldl (fun t x => ?_) _ _).trans ?_) | split | (dsimp only; split) | (simp; split))

@[simp] theorem fenceForParity_mask {w : BitVec 38} (h : 0x27005b0#38 &&& w = 0x27005b0#38) (a0 : Nat) (s : State) :
    (fenceForParity a0 s).mask w = s.mask w := by
  refine mask_mono (W := 0x27005b0#38) ?_ h
  unfold fenceForParity
  exact withHealth_mask _ (fun t => by rw [replaceCause_mask (by decide), fenceCore_mask (by decide)]) (by decide) _

@[simp] theorem refuseClaim_mask {w : BitVec 38} (h : 0x200700010#38 &&& w = 0x200700010#38) (a0 : Nat) (a1 : Nat) (s : State) :
    (refuseClaim a0 a1 s).mask w = s.mask w := by
  refine mask_mono (W := 0x200700010#38) ?_ h
  unfold refuseClaim
  repeat' (first | (simp; done) | with_reducible rfl | (refine (mask_foldl (fun t x => ?_) _ _).trans ?_) | split | (dsimp only; split) | (simp; split))

@[simp] theorem answerClaim_mask {w : BitVec 38} (h : 0x20#38 &&& w = 0x20#38) (a0 : Nat) (a1 : ClaimAnswer) (s : State) :
    (answerClaim a0 a1 s).mask w = s.mask w := by
  refine mask_mono (W := 0x20#38) ?_ h
  unfold answerClaim
  repeat' (first | (simp; done) | with_reducible rfl | (refine (mask_foldl (fun t x => ?_) _ _).trans ?_) | split | (dsimp only; split) | (simp; split))

@[simp] theorem giveItems_mask {w : BitVec 38} (h : 0x20#38 &&& w = 0x20#38) (a0 : Bool) (a1 : Nat) (a2 : List Nat) (a3 : List Nat) (s : State) :
    (giveItems a0 a1 a2 a3 s).mask w = s.mask w := by
  refine mask_mono (W := 0x20#38) ?_ h
  unfold giveItems
  repeat' (first | (simp; done) | with_reducible rfl | (refine (mask_foldl (fun t x => ?_) _ _).trans ?_) | split | (dsimp only; split) | (simp; split))

@[simp] theorem commitFor_mask {w : BitVec 38} (h : 0x130#38 &&& w = 0x130#38) (a0 : Nat) (a1 : Nat) (a2 : Nat) (a3 : Nat) (a4 : Bool) (a5 : RunFig × Figure) (s : State) :
    (commitFor a0 a1 a2 a3 a4 a5 s).mask w = s.mask w := by
  refine mask_mono (W := 0x130#38) ?_ h
  unfold commitFor
  repeat' (first | (simp; done) | with_reducible rfl | (refine (mask_foldl (fun t x => ?_) _ _).trans ?_) | split | (dsimp only; split) | (simp; split))

@[simp] theorem endItem_mask {w : BitVec 38} (h : 0x700120#38 &&& w = 0x700120#38) (a0 : Nat) (s : State) :
    (endItem a0 s).mask w = s.mask w := by
  refine mask_mono (W := 0x700120#38) ?_ h
  unfold endItem
  repeat' (first | (simp; done) | with_reducible rfl | (refine (mask_foldl (fun t x => ?_) _ _).trans ?_) | split | (dsimp only; split) | (simp; split))

@[simp] theorem commitBucket_mask {w : BitVec 38} (h : 0x700130#38 &&& w = 0x700130#38) (a0 : Nat) (a1 : Nat) (a2 : Nat) (a3 : RunFig) (a4 : Figure) (s : State) :
    (commitBucket a0 a1 a2 a3 a4 s).mask w = s.mask w := by
  refine mask_mono (W := 0x700130#38) ?_ h
  unfold commitBucket
  repeat' (first | (simp; done) | with_reducible rfl | (refine (mask_foldl (fun t x => ?_) _ _).trans ?_) | split | (dsimp only; split) | (simp; split))

@[simp] theorem rangeAbort_mask {w : BitVec 38} (h : 0x700030#38 &&& w = 0x700030#38) (a0 : Nat) (a1 : Nat) (a2 : Nat) (a3 : Nat) (a4 : List Nat) (s : State) :
    (rangeAbort a0 a1 a2 a3 a4 s).mask w = s.mask w := by
  refine mask_mono (W := 0x700030#38) ?_ h
  unfold rangeAbort
  repeat' (first | (simp; done) | with_reducible rfl | (refine (mask_foldl (fun t x => ?_) _ _).trans ?_) | split | (dsimp only; split) | (simp; split))

@[simp] theorem setWindow_mask {w : BitVec 38} (h : 0x20#38 &&& w = 0x20#38) (a0 : Nat) (a1 : Nat) (a2 : Window) (s : State) :
    (setWindow a0 a1 a2 s).mask w = s.mask w := by
  refine mask_mono (W := 0x20#38) ?_ h
  unfold setWindow
  repeat' (first | (simp; done) | with_reducible rfl | (refine (mask_foldl (fun t x => ?_) _ _).trans ?_) | split | (dsimp only; split) | (simp; split))

@[simp] theorem countLine_mask {w : BitVec 38} (h : 0x70a010#38 &&& w = 0x70a010#38) (a0 : Nat) (a1 : Loc) (s : State) :
    (countLine a0 a1 s).mask w = s.mask w := by
  refine mask_mono (W := 0x70a010#38) ?_ h
  unfold countLine
  repeat' (first | (simp; done) | with_reducible rfl | (refine (mask_foldl (fun t x => ?_) _ _).trans ?_) | split | (dsimp only; split) | (simp; split))

@[simp] theorem poisonAt_mask {w : BitVec 38} (h : 0xa000#38 &&& w = 0xa000#38) (a0 : Loc) (s : State) :
    (poisonAt a0 s).mask w = s.mask w := by
  refine mask_mono (W := 0xa000#38) ?_ h
  unfold poisonAt
  repeat' (first | (simp; done) | with_reducible rfl | (refine (mask_foldl (fun t x => ?_) _ _).trans ?_) | split | (dsimp only; split) | (simp; split))

@[simp] theorem putLine_mask {w : BitVec 38} (h : 0x80270a012#38 &&& w = 0x80270a012#38) (a0 : Nat) (a1 : Loc) (a2 : List Byte) (s : State) :
    (putLine a0 a1 a2 s).mask w = s.mask w := by
  refine mask_mono (W := 0x80270a012#38) ?_ h
  unfold putLine
  repeat' (first | (simp; done) | with_reducible rfl | (refine (mask_foldl (fun t x => ?_) _ _).trans ?_) | split | (dsimp only; split) | (simp; split))

@[simp] theorem copyLine_mask {w : BitVec 38} (h : 0x80270a012#38 &&& w = 0x80270a012#38) (a0 : Nat) (a1 : Loc) (a2 : Loc) (s : State) :
    (copyLine a0 a1 a2 s).mask w = s.mask w := by
  refine mask_mono (W := 0x80270a012#38) ?_ h
  unfold copyLine
  repeat' (first | (simp; done) | with_reducible rfl | (refine (mask_foldl (fun t x => ?_) _ _).trans ?_) | split | (dsimp only; split) | (simp; split))

@[simp] theorem copyVas_mask {w : BitVec 38} (h : 0x80270a012#38 &&& w = 0x80270a012#38) (a0 : Nat) (a1 : Nat) (a2 : Nat) (a3 : Nat) (s : State) :
    (copyVas a0 a1 a2 a3 s).mask w = s.mask w := by
  refine mask_mono (W := 0x80270a012#38) ?_ h
  unfold copyVas
  repeat' (first | (simp; done) | with_reducible rfl | (refine (mask_foldl (fun t x => ?_) _ _).trans ?_) | split | (dsimp only; split) | (simp; split))

@[simp] theorem modKv_mask {w : BitVec 38} (h : 0x10#38 &&& w = 0x10#38) (a0 : Nat) (a1 : KvPart → KvPart) (s : State) :
    (modKv a0 a1 s).mask w = s.mask w := by
  refine mask_mono (W := 0x10#38) ?_ h
  unfold modKv
  repeat' (first | (simp; done) | with_reducible rfl | (refine (mask_foldl (fun t x => ?_) _ _).trans ?_) | split | (dsimp only; split) | (simp; split))

@[simp] theorem dropSeqCaches_mask {w : BitVec 38} (h : 0x40#38 &&& w = 0x40#38) (a0 : Nat) (s : State) :
    (dropSeqCaches a0 s).mask w = s.mask w := by
  refine mask_mono (W := 0x40#38) ?_ h
  unfold dropSeqCaches
  repeat' (first | (simp; done) | with_reducible rfl | (refine (mask_foldl (fun t x => ?_) _ _).trans ?_) | split | (dsimp only; split) | (simp; split))

@[simp] theorem closeSeq_mask {w : BitVec 38} (h : 0x400850#38 &&& w = 0x400850#38) (a0 : Nat) (s : State) :
    (closeSeq a0 s).mask w = s.mask w := by
  refine mask_mono (W := 0x400850#38) ?_ h
  unfold closeSeq
  repeat' (first | (simp; done) | with_reducible rfl | (refine (mask_foldl (fun t x => ?_) _ _).trans ?_) | split | (dsimp only; split) | (simp; split))

@[simp] theorem walkResult_mask {w : BitVec 38} (h : 0x700120#38 &&& w = 0x700120#38) (a0 : Nat) (a1 : Nat × Nat) (a2 : BitVec 20) (a3 : Nat) (a4 : KvFound) (s : State) :
    (walkResult a0 a1 a2 a3 a4 s).mask w = s.mask w := by
  refine mask_mono (W := 0x700120#38) ?_ h
  unfold walkResult
  repeat' (first | (simp; done) | with_reducible rfl | (refine (mask_foldl (fun t x => ?_) _ _).trans ?_) | split | (dsimp only; split) | (simp; split))

@[simp] theorem readDescriptor_mask {w : BitVec 38} (h : 0x4700050#38 &&& w = 0x4700050#38) (a0 : Nat) (a1 : Nat) (a2 : Bool) (s : State) :
    (readDescriptor a0 a1 a2 s).mask w = s.mask w := by
  refine mask_mono (W := 0x4700050#38) ?_ h
  unfold readDescriptor
  repeat' (first | (simp; done) | with_reducible rfl | (refine (mask_foldl (fun t x => ?_) _ _).trans ?_) | split | (dsimp only; split) | (simp; split))

@[simp] theorem walkPages_mask {w : BitVec 38} (h : 0x700050#38 &&& w = 0x700050#38) (a0 : Nat) (a1 : Nat) (a2 : BitVec 20) (a3 : Nat) (a4 : Option Nat) (a5 : Option Nat) (s : State) :
    (walkPages a0 a1 a2 a3 a4 a5 s).2.mask w = s.mask w := by
  refine mask_mono (W := 0x700050#38) ?_ h
  unfold walkPages
  repeat' (first | (simp; done) | with_reducible rfl | (refine (mask_foldl (fun t x => ?_) _ _).trans ?_) | split | (dsimp only; split) | (simp; split))

@[simp] theorem appendK_mask {w : BitVec 38} (h : 0x80270a012#38 &&& w = 0x80270a012#38) (a0 : Nat) (a1 : Nat) (a2 : AppendOp) (a3 : Seq) (a4 : Page) (a5 : Nat) (a6 : Nat) (a7 : List Num) (s : State) :
    (appendK a0 a1 a2 a3 a4 a5 a6 a7 s).1.mask w = s.mask w := by
  refine mask_mono (W := 0x80270a012#38) ?_ h
  unfold appendK
  repeat' (first | (simp; done) | with_reducible rfl | (refine (mask_foldl (fun t x => ?_) _ _).trans ?_) | split | (dsimp only; split) | (simp; split))

@[simp] theorem sealGroup_mask {w : BitVec 38} (h : 0x80270a812#38 &&& w = 0x80270a812#38) (a0 : Nat) (a1 : AppendOp) (a2 : Nat) (a3 : Nat) (a4 : Nat) (a5 : Seq) (a6 : Page) (a7 : Fmt) (s : State) :
    (sealGroup a0 a1 a2 a3 a4 a5 a6 a7 s).1.mask w = s.mask w := by
  refine mask_mono (W := 0x80270a812#38) ?_ h
  unfold sealGroup
  repeat' (first | (simp; done) | with_reducible rfl | (refine (mask_foldl (fun t x => ?_) _ _).trans ?_) | split | (dsimp only; split) | (simp; split))

@[simp] theorem appendV_mask {w : BitVec 38} (h : 0x80270a812#38 &&& w = 0x80270a812#38) (a0 : Nat) (a1 : Nat) (a2 : AppendOp) (a3 : Nat) (a4 : Seq) (a5 : Page) (a6 : Nat) (a7 : Nat) (a8 : List Num) (s : State) :
    (appendV a0 a1 a2 a3 a4 a5 a6 a7 a8 s).1.mask w = s.mask w := by
  refine mask_mono (W := 0x80270a812#38) ?_ h
  unfold appendV
  repeat' (first | (simp; done) | with_reducible rfl | (refine (mask_foldl (fun t x => ?_) _ _).trans ?_) | split | (dsimp only; split) | (simp; split))

@[simp] theorem appendToken_mask {w : BitVec 38} (h : 0x80270a812#38 &&& w = 0x80270a812#38) (a0 : Nat) (a1 : Nat) (a2 : AppendOp) (a3 : Nat) (a4 : Nat) (a5 : Nat) (a6 : Nat) (a7 : Page) (s : State) :
    (appendToken a0 a1 a2 a3 a4 a5 a6 a7 s).1.mask w = s.mask w := by
  refine mask_mono (W := 0x80270a812#38) ?_ h
  unfold appendToken
  repeat' (first | (simp; done) | with_reducible rfl | (refine (mask_foldl (fun t x => ?_) _ _).trans ?_) | split | (dsimp only; split) | (simp; split))

@[simp] theorem appendPages_mask {w : BitVec 38} (h : 0x4700050#38 &&& w = 0x4700050#38) (a0 : Nat) (a1 : Nat) (a2 : BitVec 20) (a3 : List Nat) (s : State) :
    (appendPages a0 a1 a2 a3 s).2.mask w = s.mask w := by
  refine mask_mono (W := 0x4700050#38) ?_ h
  unfold appendPages
  refine foldl_snd_mask (fun x t => ?_) _ _
  dsimp only
  split
  · rw [State.setUnit_mask (by decide)]
  · rw [walkPages_mask (by decide), readDescriptor_mask (by decide)]

@[simp] theorem appendReports_mask {w : BitVec 38} (h : 0x700000#38 &&& w = 0x700000#38) (a0 : Nat) (a1 : Nat) (a2 : Nat) (a3 : Nat) (s : State) :
    (appendReports a0 a1 a2 a3 s).mask w = s.mask w := by
  refine mask_mono (W := 0x700000#38) ?_ h
  unfold appendReports
  repeat' (first | (simp; done) | with_reducible rfl | (refine (mask_foldl (fun t x => ?_) _ _).trans ?_) | split | (dsimp only; split) | (simp; split))

@[simp] theorem endAppend_mask {w : BitVec 38} (h : 0x30#38 &&& w = 0x30#38) (a0 : Nat) (a1 : Nat) (a2 : AppendOp) (s : State) :
    (endAppend a0 a1 a2 s).mask w = s.mask w := by
  refine mask_mono (W := 0x30#38) ?_ h
  unfold endAppend
  repeat' (first | (simp; done) | with_reducible rfl | (refine (mask_foldl (fun t x => ?_) _ _).trans ?_) | split | (dsimp only; split) | (simp; split))

@[simp] theorem runAppend_mask {w : BitVec 38} (h : 0x80670a872#38 &&& w = 0x80670a872#38) (a0 : Nat) (a1 : Nat) (a2 : AppendOp) (s : State) :
    (runAppend a0 a1 a2 s).mask w = s.mask w := by
  refine mask_mono (W := 0x80670a872#38) ?_ h
  unfold runAppend
  dsimp only
  have start : ∀ ts rs, (appendPages a0 a2.core a2.seqId ts (touchRows a0 a1 a2.core a2.slot rs [] s)).2.mask 0x80670a872#38
      = s.mask 0x80670a872#38 := fun ts rs => by rw [appendPages_mask (by decide), touchRows_mask (by decide)]
  split
  · refine (mask_foldl (fun t x => ?_) _ _).trans ?_
    · exact appendReports_mask (by decide) ..
    · rw [raise_mask (by decide)]
      refine (foldl_fst_mask (fun x g => foldl_fst_mask (fun y t => ?_) _ _) _ _).trans (start _ _)
      split
      · rfl
      · exact appendToken_mask (by decide) ..
  · rw [appendReports_mask (by decide)]
    refine (mask_foldl (fun t x => ?_) _ _).trans ?_
    · exact appendReports_mask (by decide) ..
    · rw [raise_mask (by decide)]
      refine (foldl_fst_mask (fun x g => foldl_fst_mask (fun y t => ?_) _ _) _ _).trans (start _ _)
      split
      · rfl
      · exact appendToken_mask (by decide) ..

@[simp] theorem reserveOne_mask {w : BitVec 38} (h : 0x810#38 &&& w = 0x810#38) (a0 : Nat) (a1 : BitVec 20) (a2 : Nat) (s : State) :
    (reserveOne a0 a1 a2 s).2.2.mask w = s.mask w := by
  refine mask_mono (W := 0x810#38) ?_ h
  unfold reserveOne
  repeat' (first | (simp; done) | with_reducible rfl | (refine (mask_foldl (fun t x => ?_) _ _).trans ?_) | split | (dsimp only; split) | (simp; split))

@[simp] theorem reserveAll_mask {w : BitVec 38} (h : 0x810#38 &&& w = 0x810#38) (a0 : Nat) (a1 : Bool) (a2 : List (Nat × Nat × Nat))
    (a3 : List Nat) (a4 : Nat) (s : State) : (reserveAll a0 a1 a2 a3 a4 s).2.2.2.mask w = s.mask w := by
  induction a2 generalizing a3 a4 s with
  | nil => rfl
  | cons e more ih =>
    unfold reserveAll
    dsimp only
    split
    · rfl
    · rw [ih, reserveOne_mask h]

@[simp] theorem withdraw_mask {w : BitVec 38} (h : 0x80270a012#38 &&& w = 0x80270a012#38) (a0 : Nat) (a1 : BitVec 512) (a2 : List Nat) (s : State) :
    (withdraw a0 a1 a2 s).mask w = s.mask w := by
  refine mask_mono (W := 0x80270a012#38) ?_ h
  unfold withdraw
  repeat' (first | (simp; done) | with_reducible rfl | (refine (mask_foldl (fun t x => ?_) _ _).trans ?_) | split | (dsimp only; split) | (simp; split))

@[simp] theorem finishReserve_mask {w : BitVec 38} (h : 0x80270a012#38 &&& w = 0x80270a012#38) (a0 : Nat) (a1 : Nat) (a2 : BitVec 16) (a3 : BitVec 512) (a4 : List (Nat × Nat × Nat)) (a5 : List Nat) (a6 : Nat) (s : State) :
    (finishReserve a0 a1 a2 a3 a4 a5 a6 s).mask w = s.mask w := by
  refine mask_mono (W := 0x80270a012#38) ?_ h
  unfold finishReserve
  repeat' (first | (simp; done) | with_reducible rfl | (refine (mask_foldl (fun t x => ?_) _ _).trans ?_) | split | (dsimp only; split) | (simp; split))

@[simp] theorem goReserve_mask {w : BitVec 38} (h : 0x80270a812#38 &&& w = 0x80270a812#38) (a0 : Nat) (a1 : Nat) (a2 : BitVec 16) (a3 : BitVec 512) (a4 : Bool) (a5 : List (Nat × Nat × Nat)) (a6 : List Nat) (a7 : Nat) (s : State) :
    (goReserve a0 a1 a2 a3 a4 a5 a6 a7 s).mask w = s.mask w := by
  refine mask_mono (W := 0x80270a812#38) ?_ h
  unfold goReserve
  repeat' (first | (simp; done) | with_reducible rfl | (refine (mask_foldl (fun t x => ?_) _ _).trans ?_) | split | (dsimp only; split) | (simp; split))

@[simp] theorem resumeReserve_mask {w : BitVec 38} (h : 0x80270a812#38 &&& w = 0x80270a812#38) (a0 : Nat) (a1 : Bool) (a2 : Waiting) (s : State) :
    (resumeReserve a0 a1 a2 s).mask w = s.mask w := by
  refine mask_mono (W := 0x80270a812#38) ?_ h
  unfold resumeReserve
  repeat' (first | (simp; done) | with_reducible rfl | (refine (mask_foldl (fun t x => ?_) _ _).trans ?_) | split | (dsimp only; split) | (simp; split))

@[simp] theorem trimSeq_mask {w : BitVec 38} (h : 0x850#38 &&& w = 0x850#38) (a0 : Nat) (a1 : Nat) (s : State) :
    (trimSeq a0 a1 s).mask w = s.mask w := by
  refine mask_mono (W := 0x850#38) ?_ h
  unfold trimSeq
  repeat' (first | (simp; done) | with_reducible rfl | (refine (mask_foldl (fun t x => ?_) _ _).trans ?_) | split | (dsimp only; split) | (simp; split))

@[simp] theorem switchSeq_mask {w : BitVec 38} (h : 0x850#38 &&& w = 0x850#38) (a0 : Nat) (s : State) :
    (switchSeq a0 s).mask w = s.mask w := by
  refine mask_mono (W := 0x850#38) ?_ h
  unfold switchSeq
  repeat' (first | (simp; done) | with_reducible rfl | (refine (mask_foldl (fun t x => ?_) _ _).trans ?_) | split | (dsimp only; split) | (simp; split))

@[simp] theorem startRestore_mask {w : BitVec 38} (h : 0x300810#38 &&& w = 0x300810#38) (a0 : Nat) (a1 : Nat) (a2 : BitVec 16) (a3 : Nat) (s : State) :
    (startRestore a0 a1 a2 a3 s).mask w = s.mask w := by
  refine mask_mono (W := 0x300810#38) ?_ h
  unfold startRestore
  repeat' (first | (simp; done) | with_reducible rfl | (refine (mask_foldl (fun t x => ?_) _ _).trans ?_) | split | (dsimp only; split) | (simp; split))

@[simp] theorem finishWaits_mask {w : BitVec 38} (h : 0x300010#38 &&& w = 0x300010#38) (a0 : Nat) (a1 : Wait → Bool) (a2 : Nat) (a3 : Nat) (s : State) :
    (finishWaits a0 a1 a2 a3 s).mask w = s.mask w := by
  refine mask_mono (W := 0x300010#38) ?_ h
  unfold finishWaits
  repeat' (first | (simp; done) | with_reducible rfl | (refine (mask_foldl (fun t x => ?_) _ _).trans ?_) | split | (dsimp only; split) | (simp; split))

theorem quietChange_mask {w : BitVec 38} (h : 0x700850#38 &&& w = 0x700850#38) (a0 : ℕ) (a1 : Waiting) (s : State) :
    ∀ t, quietChange a0 a1 s = some t → t.mask w = s.mask w := by
  intro t ht
  refine mask_mono (W := 0x700850#38) ?_ h
  unfold quietChange at ht
  repeat' (first | split at ht | (dsimp only at ht; split at ht))
  all_goals (first | (simp only [reduceCtorEq] at ht; done) | (injection ht with ht; subst ht; repeat' (first | (simp; done) | with_reducible rfl | (refine (mask_foldl (fun t x => ?_) _ _).trans ?_) | split | (dsimp only; split) | (simp; split))))

@[simp] theorem addAccess_mask {w : BitVec 38} (h : 0x10#38 &&& w = 0x10#38) (a0 : Nat) (a1 : Nat) (a2 : Nat) (s : State) :
    (addAccess a0 a1 a2 s).mask w = s.mask w := by
  refine mask_mono (W := 0x10#38) ?_ h
  unfold addAccess
  repeat' (first | (simp; done) | with_reducible rfl | (refine (mask_foldl (fun t x => ?_) _ _).trans ?_) | split | (dsimp only; split) | (simp; split))

@[simp] theorem dropEntries_mask {w : BitVec 38} (h : 0x10#38 &&& w = 0x10#38) (a0 : List TlbEntry) (s : State) :
    (dropEntries a0 s).mask w = s.mask w := by
  refine mask_mono (W := 0x10#38) ?_ h
  unfold dropEntries
  repeat' (first | (simp; done) | with_reducible rfl | (refine (mask_foldl (fun t x => ?_) _ _).trans ?_) | split | (dsimp only; split) | (simp; split))

@[simp] theorem fillStb_mask {w : BitVec 38} (h : 0x50#38 &&& w = 0x50#38) (a0 : Nat) (a1 : Nat) (a2 : Nat) (a3 : Leaf) (s : State) :
    (fillStb a0 a1 a2 a3 s).mask w = s.mask w := by
  refine mask_mono (W := 0x50#38) ?_ h
  unfold fillStb
  repeat' (first | (simp; done) | with_reducible rfl | (refine (mask_foldl (fun t x => ?_) _ _).trans ?_) | split | (dsimp only; split) | (simp; split))

@[simp] theorem fillUtlb_mask {w : BitVec 38} (h : 0x200#38 &&& w = 0x200#38) (a0 : Nat) (a1 : Nat) (a2 : Nat) (a3 : Nat) (a4 : Leaf) (s : State) :
    (fillUtlb a0 a1 a2 a3 a4 s).mask w = s.mask w := by
  refine mask_mono (W := 0x200#38) ?_ h
  unfold fillUtlb
  repeat' (first | (simp; done) | with_reducible rfl | (refine (mask_foldl (fun t x => ?_) _ _).trans ?_) | split | (dsimp only; split) | (simp; split))

@[simp] theorem countAccess_mask {w : BitVec 38} (h : 0x40#38 &&& w = 0x40#38) (a0 : Nat) (a1 : Nat) (a2 : Nat) (s : State) :
    (countAccess a0 a1 a2 s).mask w = s.mask w := by
  refine mask_mono (W := 0x40#38) ?_ h
  unfold countAccess
  repeat' (first | (simp; done) | with_reducible rfl | (refine (mask_foldl (fun t x => ?_) _ _).trans ?_) | split | (dsimp only; split) | (simp; split))

@[simp] theorem setLine_mask {w : BitVec 38} (h : 0x100#38 &&& w = 0x100#38) (a0 : Nat) (a1 : Nat) (a2 : LineReq) (s : State) :
    (setLine a0 a1 a2 s).mask w = s.mask w := by
  refine mask_mono (W := 0x100#38) ?_ h
  unfold setLine
  repeat' (first | (simp; done) | with_reducible rfl | (refine (mask_foldl (fun t x => ?_) _ _).trans ?_) | split | (dsimp only; split) | (simp; split))

@[simp] theorem dropLine_mask {w : BitVec 38} (h : 0x100#38 &&& w = 0x100#38) (a0 : Nat) (a1 : Nat) (s : State) :
    (dropLine a0 a1 s).mask w = s.mask w := by
  refine mask_mono (W := 0x100#38) ?_ h
  unfold dropLine
  repeat' (first | (simp; done) | with_reducible rfl | (refine (mask_foldl (fun t x => ?_) _ _).trans ?_) | split | (dsimp only; split) | (simp; split))

theorem farAsk_mask {w : BitVec 38} (h : 0x8000#38 &&& w = 0x8000#38) (a0 a1 a2 a3 : Nat) (a4 : Option (KMap (Option Byte))) (s : State) :
    ∀ t, farAsk a0 a1 a2 a3 a4 s = some t → t.mask w = s.mask w := by
  intro t ht
  refine mask_mono (W := 0x8000#38) ?_ h
  unfold farAsk at ht
  dsimp only at ht
  split at ht
  · cases ht
  · obtain ⟨u, hu, rfl⟩ := Option.map_eq_some_iff.mp ht
    rw [State.modFar_mask (by decide)]
    exact farSlot_mask (by decide) _ _ _ _ _ hu

@[simp] theorem violate_mask {w : BitVec 38} (h : 0x700510#38 &&& w = 0x700510#38) (a0 : Nat) (a1 : Nat) (a2 : LineReq) (s : State) :
    (violate a0 a1 a2 s).mask w = s.mask w := by
  refine mask_mono (W := 0x700510#38) ?_ h
  unfold violate
  repeat' (first | (simp; done) | with_reducible rfl | (refine (mask_foldl (fun t x => ?_) _ _).trans ?_) | split | (dsimp only; split) | (simp; split))

@[simp] theorem dropCopied_mask {w : BitVec 38} (h : 0x100#38 &&& w = 0x100#38) (a0 : Nat) (a1 : LineReq) (s : State) :
    (dropCopied a0 a1 s).mask w = s.mask w := by
  refine mask_mono (W := 0x100#38) ?_ h
  unfold dropCopied
  repeat' (first | (simp; done) | with_reducible rfl | (refine (mask_foldl (fun t x => ?_) _ _).trans ?_) | split | (dsimp only; split) | (simp; split))

@[simp] theorem issueAt_mask {w : BitVec 38} (h : 0x708130#38 &&& w = 0x708130#38) (a0 a1 : Nat) (a2 : LineReq) (a3 : Loc) (s : State) :
    (issueAt a0 a1 a2 a3 s).mask w = s.mask w := by
  refine mask_mono (W := 0x708130#38) ?_ h
  unfold issueAt
  dsimp only
  split
  · rfl
  · split
    · split
      · rw [dropCopied_mask (by simp), setLine_mask (by simp)]; simp
      · rw [setLine_mask (by simp)]; try simp
    · split
      · rfl
      · rename_i u hu
        split
        · rw [dropCopied_mask (by simp), setLine_mask (by simp), farAsk_mask (by simp) _ _ _ _ _ _ u hu]; simp
        · rw [setLine_mask (by simp), farAsk_mask (by simp) _ _ _ _ _ _ u hu]; try simp

@[simp] theorem performLine_mask {w : BitVec 38} (h : 0x708570#38 &&& w = 0x708570#38) (a0 : Nat) (a1 : Nat) (a2 : Nat) (a3 : Leaf) (s : State) :
    (performLine a0 a1 a2 a3 s).mask w = s.mask w := by
  refine mask_mono (W := 0x708570#38) ?_ h
  unfold performLine
  repeat' (first | (simp; done) | with_reducible rfl | (refine (mask_foldl (fun t x => ?_) _ _).trans ?_) | split | (dsimp only; split) | (simp; split))

@[simp] theorem readIndex_mask {w : BitVec 38} (h : 0x700030#38 &&& w = 0x700030#38) (a0 : Stream) (a1 : Nat) (s : State) :
    (readIndex a0 a1 s).mask w = s.mask w := by
  refine mask_mono (W := 0x700030#38) ?_ h
  unfold readIndex
  repeat' (first | (simp; done) | with_reducible rfl | (refine (mask_foldl (fun t x => ?_) _ _).trans ?_) | split | (dsimp only; split) | (simp; split))

theorem joinWalk_mask {w : BitVec 38} (h : 0x40#38 &&& w = 0x40#38) (a0 a1 a2 a3 : Nat) (a4 : Bool) (s : State) :
    ∀ t, joinWalk a0 a1 a2 a3 a4 s = some t → t.mask w = s.mask w := by
  intro t ht
  refine mask_mono (W := 0x40#38) ?_ h
  unfold joinWalk at ht
  dsimp only at ht
  repeat' split at ht
  all_goals (cases ht; try exact State.setUnit_mask (by simp) s _ _)

@[simp] theorem joinWalk_getD_mask {w : BitVec 38} (h : 0x40#38 &&& w = 0x40#38) (a0 a1 a2 a3 : Nat) (a4 : Bool) (s t : State) :
    ((joinWalk a0 a1 a2 a3 a4 s).getD t).mask w = if (joinWalk a0 a1 a2 a3 a4 s).isSome then s.mask w else t.mask w := by
  cases e : joinWalk a0 a1 a2 a3 a4 s with
  | none => simp
  | some u => simp [joinWalk_mask h _ _ _ _ _ _ u e]

@[simp] theorem dropStb_mask {w : BitVec 38} (h : 0x4700050#38 &&& w = 0x4700050#38) (a0 : Nat) (a1 : TlbEntry) (s : State) :
    (dropStb a0 a1 s).mask w = s.mask w := by
  refine mask_mono (W := 0x4700050#38) ?_ h
  unfold dropStb
  repeat' (first | (simp; done) | with_reducible rfl | (refine (mask_foldl (fun t x => ?_) _ _).trans ?_) | split | (dsimp only; split) | (simp; split))

@[simp] theorem faultStream_mask {w : BitVec 38} (h : 0x700510#38 &&& w = 0x700510#38) (a0 : Nat) (a1 : LineReq) (a2 : FaultCause) (s : State) :
    (faultStream a0 a1 a2 s).mask w = s.mask w := by
  refine mask_mono (W := 0x700510#38) ?_ h
  unfold faultStream
  repeat' (first | (simp; done) | with_reducible rfl | (refine (mask_foldl (fun t x => ?_) _ _).trans ?_) | split | (dsimp only; split) | (simp; split))

@[simp] theorem resumeLegal_mask {w : BitVec 38} (h : 0x700510#38 &&& w = 0x700510#38) (a0 : Nat) (s : State) :
    (resumeLegal a0 s).mask w = s.mask w := by
  refine mask_mono (W := 0x700510#38) ?_ h
  unfold resumeLegal
  repeat' (first | (simp; done) | with_reducible rfl | (refine (mask_foldl (fun t x => ?_) _ _).trans ?_) | split | (dsimp only; split) | (simp; split))

@[simp] theorem reportCorrupt_mask {w : BitVec 38} (h : 0x700000#38 &&& w = 0x700000#38) (a0 : Nat) (a1 : Nat) (s : State) :
    (reportCorrupt a0 a1 s).mask w = s.mask w := by
  refine mask_mono (W := 0x700000#38) ?_ h
  unfold reportCorrupt
  repeat' (first | (simp; done) | with_reducible rfl | (refine (mask_foldl (fun t x => ?_) _ _).trans ?_) | split | (dsimp only; split) | (simp; split))

@[simp] theorem walkFor_mask {w : BitVec 38} (h : 0x708770#38 &&& w = 0x708770#38) (a0 : Nat) (a1 : Bool) (a2 : Nat) (s : State) :
    (walkFor a0 a1 a2 s).mask w = s.mask w := by
  refine mask_mono (W := 0x708770#38) ?_ h
  unfold walkFor
  repeat' (first | (simp; done) | with_reducible rfl | (refine (mask_foldl (fun t x => ?_) _ _).trans ?_) | split | (dsimp only; split) | (simp; split))

@[simp] theorem readNonLeaf_mask {w : BitVec 38} (h : 0x4700050#38 &&& w = 0x4700050#38) (a0 : Nat) (a1 : Nat) (a2 : Nat) (a3 : Bool) (s : State) :
    (readNonLeaf a0 a1 a2 a3 s).mask w = s.mask w := by
  refine mask_mono (W := 0x4700050#38) ?_ h
  unfold readNonLeaf
  repeat' (first | (simp; done) | with_reducible rfl | (refine (mask_foldl (fun t x => ?_) _ _).trans ?_) | split | (dsimp only; split) | (simp; split))

@[simp] theorem landTile_mask {w : BitVec 38} (h : 0x700030#38 &&& w = 0x700030#38) (a0 : Nat) (a1 : List LineReq) (a2 : Nat) (a3 : Nat) (a4 : List Nat) (s : State) :
    (landTile a0 a1 a2 a3 a4 s).mask w = s.mask w := by
  refine mask_mono (W := 0x700030#38) ?_ h
  unfold landTile
  repeat' (first | (simp; done) | with_reducible rfl | (refine (mask_foldl (fun t x => ?_) _ _).trans ?_) | split | (dsimp only; split) | (simp; split))

@[simp] theorem tileReady_mask {w : BitVec 38} (h : 0x100#38 &&& w = 0x100#38) (a0 : Nat) (a1 : Nat) (s : State) :
    (tileReady a0 a1 s).mask w = s.mask w := by
  refine mask_mono (W := 0x100#38) ?_ h
  unfold tileReady
  repeat' (first | (simp; done) | with_reducible rfl | (refine (mask_foldl (fun t x => ?_) _ _).trans ?_) | split | (dsimp only; split) | (simp; split))

@[simp] theorem invalidate_mask {w : BitVec 38} (h : 0x250#38 &&& w = 0x250#38) (a0 : Nat) (a1 : Nat) (a2 : Nat) (s : State) :
    (invalidate a0 a1 a2 s).mask w = s.mask w := by
  refine mask_mono (W := 0x250#38) ?_ h
  unfold invalidate
  repeat' (first | (simp; done) | with_reducible rfl | (refine (mask_foldl (fun t x => ?_) _ _).trans ?_) | split | (dsimp only; split) | (simp; split))

@[simp] theorem modSpace_mask {w : BitVec 38} (h : 0x10#38 &&& w = 0x10#38) (a0 : Nat) (a1 : Space → Space) (s : State) :
    (modSpace a0 a1 s).mask w = s.mask w := by
  refine mask_mono (W := 0x10#38) ?_ h
  unfold modSpace
  repeat' (first | (simp; done) | with_reducible rfl | (refine (mask_foldl (fun t x => ?_) _ _).trans ?_) | split | (dsimp only; split) | (simp; split))

@[simp] theorem afterInvalidation_mask {w : BitVec 38} (h : 0x250#38 &&& w = 0x250#38) (a0 : Nat) (a1 : Nat) (a2 : BitVec 16) (a3 : MapCmd) (a4 : Nat) (s : State) :
    (afterInvalidation a0 a1 a2 a3 a4 s).mask w = s.mask w := by
  refine mask_mono (W := 0x250#38) ?_ h
  unfold afterInvalidation
  repeat' (first | (simp; done) | with_reducible rfl | (refine (mask_foldl (fun t x => ?_) _ _).trans ?_) | split | (dsimp only; split) | (simp; split))

@[simp] theorem copyPage_mask {w : BitVec 38} (h : 0x80270a012#38 &&& w = 0x80270a012#38) (a0 : Nat) (a1 : Nat) (a2 : Leaf) (a3 : Leaf) (s : State) :
    (copyPage a0 a1 a2 a3 s).mask w = s.mask w := by
  refine mask_mono (W := 0x80270a012#38) ?_ h
  unfold copyPage
  repeat' (first | (simp; done) | with_reducible rfl | (refine (mask_foldl (fun t x => ?_) _ _).trans ?_) | split | (dsimp only; split) | (simp; split))

@[simp] theorem markQueued_mask {w : BitVec 38} (h : 0x22000#38 &&& w = 0x22000#38) (a0 : Intrusive) (a1 : Bool) (s : State) :
    (markQueued a0 a1 s).mask w = s.mask w := by
  refine mask_mono (W := 0x22000#38) ?_ h
  unfold markQueued
  repeat' (first | (simp; done) | with_reducible rfl | (refine (mask_foldl (fun t x => ?_) _ _).trans ?_) | split | (dsimp only; split) | (simp; split))

@[simp] theorem queueItem_mask {w : BitVec 38} (h : 0x22010#38 &&& w = 0x22010#38) (a0 : Intrusive) (s : State) :
    (queueItem a0 s).mask w = s.mask w := by
  refine mask_mono (W := 0x22010#38) ?_ h
  unfold queueItem
  repeat' (first | (simp; done) | with_reducible rfl | (refine (mask_foldl (fun t x => ?_) _ _).trans ?_) | split | (dsimp only; split) | (simp; split))

@[simp] theorem finishItem_mask {w : BitVec 38} (h : 0x300010#38 &&& w = 0x300010#38) (a0 : Intrusive) (a1 : Bool) (a2 : Nat) (s : State) :
    (finishItem a0 a1 a2 s).mask w = s.mask w := by
  refine mask_mono (W := 0x300010#38) ?_ h
  unfold finishItem
  repeat' (first | (simp; done) | with_reducible rfl | (refine (mask_foldl (fun t x => ?_) _ _).trans ?_) | split | (dsimp only; split) | (simp; split))

@[simp] theorem poisonStream_mask {w : BitVec 38} (h : 0x110#38 &&& w = 0x110#38) (a0 : Nat) (a1 : AbortCause) (s : State) :
    (poisonStream a0 a1 s).mask w = s.mask w := by
  refine mask_mono (W := 0x110#38) ?_ h
  unfold poisonStream
  repeat' (first | (simp; done) | with_reducible rfl | (refine (mask_foldl (fun t x => ?_) _ _).trans ?_) | split | (dsimp only; split) | (simp; split))

@[simp] theorem deliverLine_mask {w : BitVec 38} (h : 0x100#38 &&& w = 0x100#38) (a0 : Nat) (a1 : Nat) (a2 : LineReq) (a3 : List Byte) (a4 : Bool) (s : State) :
    (deliverLine a0 a1 a2 a3 a4 s).mask w = s.mask w := by
  refine mask_mono (W := 0x100#38) ?_ h
  unfold deliverLine
  repeat' (first | (simp; done) | with_reducible rfl | (refine (mask_foldl (fun t x => ?_) _ _).trans ?_) | split | (dsimp only; split) | (simp; split))

@[simp] theorem readLost_mask {w : BitVec 38} (h : 0x802702172#38 &&& w = 0x802702172#38) (a0 : Reader) (a1 : Bool) (a2 : Nat) (a3 : Nat) (a4 : Nat) (s : State) :
    (readLost a0 a1 a2 a3 a4 s).mask w = s.mask w := by
  refine mask_mono (W := 0x802702172#38) ?_ h
  unfold readLost
  repeat' (first | (simp; done) | with_reducible rfl | (refine (mask_foldl (fun t x => ?_) _ _).trans ?_) | split | (dsimp only; split) | (simp; split))

@[simp] theorem takeRead_mask {w : BitVec 38} (h : 0x2000#38 &&& w = 0x2000#38) (a0 : Nat) (a1 : Nat) (a2 : Reader) (s : State) :
    (takeRead a0 a1 a2 s).mask w = s.mask w := by
  refine mask_mono (W := 0x2000#38) ?_ h
  unfold takeRead
  repeat' (first | (simp; done) | with_reducible rfl | (refine (mask_foldl (fun t x => ?_) _ _).trans ?_) | split | (dsimp only; split) | (simp; split))

@[simp] theorem fwLoss_mask {w : BitVec 38} (h : 0x2700010#38 &&& w = 0x2700010#38) (s : State) :
    (fwLoss s).mask w = s.mask w := by
  refine mask_mono (W := 0x2700010#38) ?_ h
  unfold fwLoss
  repeat' (first | (simp; done) | with_reducible rfl | (refine (mask_foldl (fun t x => ?_) _ _).trans ?_) | split | (dsimp only; split) | (simp; split))

@[simp] theorem channelDown_mask {w : BitVec 38} (h : 0x2722010#38 &&& w = 0x2722010#38) (a0 : Nat) (s : State) :
    (channelDown a0 s).mask w = s.mask w := by
  refine mask_mono (W := 0x2722010#38) ?_ h
  unfold channelDown
  repeat' (first | (simp; done) | with_reducible rfl | (refine (mask_foldl (fun t x => ?_) _ _).trans ?_) | split | (dsimp only; split) | (simp; split))

@[simp] theorem channelFailed_mask {w : BitVec 38} (h : 0x2702000#38 &&& w = 0x2702000#38) (a0 : Nat) (s : State) :
    (channelFailed a0 s).mask w = s.mask w := by
  refine mask_mono (W := 0x2702000#38) ?_ h
  unfold channelFailed
  repeat' (first | (simp; done) | with_reducible rfl | (refine (mask_foldl (fun t x => ?_) _ _).trans ?_) | split | (dsimp only; split) | (simp; split))

@[simp] theorem tripAlarm_mask {w : BitVec 38} (h : 0x2a700000#38 &&& w = 0x2a700000#38) (s : State) :
    (tripAlarm s).mask w = s.mask w := by
  refine mask_mono (W := 0x2a700000#38) ?_ h
  unfold tripAlarm
  repeat' (first | (simp; done) | with_reducible rfl | (refine (mask_foldl (fun t x => ?_) _ _).trans ?_) | split | (dsimp only; split) | (simp; split))

@[simp] theorem dropReq_mask {w : BitVec 38} (h : 0x8000#38 &&& w = 0x8000#38) (a0 : Nat) (a1 : Nat) (s : State) :
    (dropReq a0 a1 s).mask w = s.mask w := by
  refine mask_mono (W := 0x8000#38) ?_ h
  unfold dropReq
  repeat' (first | (simp; done) | with_reducible rfl | (refine (mask_foldl (fun t x => ?_) _ _).trans ?_) | split | (dsimp only; split) | (simp; split))

@[simp] theorem farDeliver_mask {w : BitVec 38} (h : 0x100#38 &&& w = 0x100#38) (a0 : Nat) (a1 : FarReq) (a2 : List Byte) (a3 : Bool) (s : State) :
    (farDeliver a0 a1 a2 a3 s).mask w = s.mask w := by
  refine mask_mono (W := 0x100#38) ?_ h
  unfold farDeliver
  repeat' (first | (simp; done) | with_reducible rfl | (refine (mask_foldl (fun t x => ?_) _ _).trans ?_) | split | (dsimp only; split) | (simp; split))

@[simp] theorem farError_mask {w : BitVec 38} (h : 0x700000#38 &&& w = 0x700000#38) (a0 : Nat) (a1 : Nat) (a2 : Nat) (a3 : Nat) (s : State) :
    (farError a0 a1 a2 a3 s).mask w = s.mask w := by
  refine mask_mono (W := 0x700000#38) ?_ h
  unfold farError
  repeat' (first | (simp; done) | with_reducible rfl | (refine (mask_foldl (fun t x => ?_) _ _).trans ?_) | split | (dsimp only; split) | (simp; split))

@[simp] theorem farGiveUp_mask {w : BitVec 38} (h : 0x110#38 &&& w = 0x110#38) (a0 : Nat) (a1 : FarReq) (s : State) :
    (farGiveUp a0 a1 s).mask w = s.mask w := by
  refine mask_mono (W := 0x110#38) ?_ h
  unfold farGiveUp
  repeat' (first | (simp; done) | with_reducible rfl | (refine (mask_foldl (fun t x => ?_) _ _).trans ?_) | split | (dsimp only; split) | (simp; split))

@[simp] theorem portFlow_mask {w : BitVec 38} (h : 0x720010#38 &&& w = 0x720010#38) (a0 : Nat) (s : State) :
    (portFlow a0 s).mask w = s.mask w := by
  refine mask_mono (W := 0x720010#38) ?_ h
  unfold portFlow
  repeat' (first | (simp; done) | with_reducible rfl | (refine (mask_foldl (fun t x => ?_) _ _).trans ?_) | split | (dsimp only; split) | (simp; split))

@[simp] theorem portUp_mask {w : BitVec 38} (h : 0x720010#38 &&& w = 0x720010#38) (a0 : Nat) (a1 : BitVec 8) (s : State) :
    (portUp a0 a1 s).mask w = s.mask w := by
  refine mask_mono (W := 0x720010#38) ?_ h
  unfold portUp
  rw [portFlow_mask (by decide), withHealth_mask _ (fun t => State.modPort_mask (by decide) ..) (by decide)]

@[simp] theorem tellFailed_mask {w : BitVec 38} (h : 0x700000#38 &&& w = 0x700000#38) (a0 : Nat) (s : State) :
    (tellFailed a0 s).mask w = s.mask w := by
  refine mask_mono (W := 0x700000#38) ?_ h
  unfold tellFailed
  repeat' (first | (simp; done) | with_reducible rfl | (refine (mask_foldl (fun t x => ?_) _ _).trans ?_) | split | (dsimp only; split) | (simp; split))

@[simp] theorem portFailed_mask {w : BitVec 38} (h : 0x2720000#38 &&& w = 0x2720000#38) (a0 : Nat) (s : State) :
    (portFailed a0 s).mask w = s.mask w := by
  refine mask_mono (W := 0x2720000#38) ?_ h
  unfold portFailed
  rw [tellFailed_mask (by decide), withHealth_mask _ (fun t => by rw [replaceCause_mask (by decide), State.modPort_mask (by decide)]) (by decide)]

@[simp] theorem fencePort_mask {w : BitVec 38} (h : 0x722010#38 &&& w = 0x722010#38) (a0 : Nat) (a1 : Nat) (a2 : Nat) (s : State) :
    (fencePort a0 a1 a2 s).mask w = s.mask w := by
  refine mask_mono (W := 0x722010#38) ?_ h
  unfold fencePort
  repeat' (first | (simp; done) | with_reducible rfl | (refine (mask_foldl (fun t x => ?_) _ _).trans ?_) | split | (dsimp only; split) | (simp; split))

@[simp] theorem trainResult_mask {w : BitVec 38} (h : 0x2722010#38 &&& w = 0x2722010#38) (a0 : Nat) (a1 : BitVec 8) (s : State) :
    (trainResult a0 a1 s).mask w = s.mask w := by
  refine mask_mono (W := 0x2722010#38) ?_ h
  unfold trainResult
  repeat' (first | (simp; done) | with_reducible rfl | (refine (mask_foldl (fun t x => ?_) _ _).trans ?_) | split | (dsimp only; split) | (simp; split))

@[simp] theorem startPortItem_mask {w : BitVec 38} (h : 0x720010#38 &&& w = 0x720010#38) (a0 : Nat) (a1 : Intrusive) (s : State) :
    (startPortItem a0 a1 s).mask w = s.mask w := by
  refine mask_mono (W := 0x720010#38) ?_ h
  unfold startPortItem
  repeat' (first | (simp; done) | with_reducible rfl | (refine (mask_foldl (fun t x => ?_) _ _).trans ?_) | split | (dsimp only; split) | (simp; split))

@[simp] theorem beginItem_mask {w : BitVec 38} (h : 0x802722012#38 &&& w = 0x802722012#38) (a0 : Intrusive) (s : State) :
    (beginItem a0 s).mask w = s.mask w := by
  refine mask_mono (W := 0x802722012#38) ?_ h
  unfold beginItem
  repeat' (first | (simp; done) | with_reducible rfl | (refine (mask_foldl (fun t x => ?_) _ _).trans ?_) | split | (dsimp only; split) | (simp; split))

@[simp] theorem joinItem_mask {w : BitVec 38} (h : 0x10#38 &&& w = 0x10#38) (a0 : Intrusive) (a1 : Nat × BitVec 16) (s : State) :
    (joinItem a0 a1 s).mask w = s.mask w := by
  refine mask_mono (W := 0x10#38) ?_ h
  unfold joinItem
  repeat' (first | (simp; done) | with_reducible rfl | (refine (mask_foldl (fun t x => ?_) _ _).trans ?_) | split | (dsimp only; split) | (simp; split))

@[simp] theorem takeAck_mask {w : BitVec 38} (h : 0x720010#38 &&& w = 0x720010#38) (a0 : Nat) (a1 : BitVec 12) (a2 : Bool) (s : State) :
    (takeAck a0 a1 a2 s).mask w = s.mask w := by
  refine mask_mono (W := 0x720010#38) ?_ h
  unfold takeAck
  repeat' (first | (simp; done) | with_reducible rfl | (refine (mask_foldl (fun t x => ?_) _ _).trans ?_) | split | (dsimp only; split) | (simp; split))

@[simp] theorem takeContent_mask {w : BitVec 38} (h : 0x720010#38 &&& w = 0x720010#38) (a0 : Nat) (a1 : Flit) (s : State) :
    (takeContent a0 a1 s).mask w = s.mask w := by
  refine mask_mono (W := 0x720010#38) ?_ h
  unfold takeContent
  repeat' (first | (simp; done) | with_reducible rfl | (refine (mask_foldl (fun t x => ?_) _ _).trans ?_) | split | (dsimp only; split) | (simp; split))

@[simp] theorem setGroups_mask {w : BitVec 38} (h : 0x10#38 &&& w = 0x10#38) (a0 : Nat) (a1 : List (Nat × Group)) (s : State) :
    (setGroups a0 a1 s).mask w = s.mask w := by
  refine mask_mono (W := 0x10#38) ?_ h
  unfold setGroups
  repeat' (first | (simp; done) | with_reducible rfl | (refine (mask_foldl (fun t x => ?_) _ _).trans ?_) | split | (dsimp only; split) | (simp; split))

@[simp] theorem probeBack_mask {w : BitVec 38} (h : 0x300010#38 &&& w = 0x300010#38) (a0 : Nat) (a1 : Nat) (a2 : Nat) (s : State) :
    (probeBack a0 a1 a2 s).mask w = s.mask w := by
  refine mask_mono (W := 0x300010#38) ?_ h
  unfold probeBack
  repeat' (first | (simp; done) | with_reducible rfl | (refine (mask_foldl (fun t x => ?_) _ _).trans ?_) | split | (dsimp only; split) | (simp; split))

@[simp] theorem setEchoes_mask {w : BitVec 38} (h : 0x10#38 &&& w = 0x10#38) (a0 : Nat) (a1 : Nat) (a2 : Nat) (s : State) :
    (setEchoes a0 a1 a2 s).mask w = s.mask w := by
  refine mask_mono (W := 0x10#38) ?_ h
  unfold setEchoes
  repeat' (first | (simp; done) | with_reducible rfl | (refine (mask_foldl (fun t x => ?_) _ _).trans ?_) | split | (dsimp only; split) | (simp; split))

@[simp] theorem imageLost_mask {w : BitVec 38} (h : 0x802702012#38 &&& w = 0x802702012#38) (a0 : Nat) (a1 : Nat) (a2 : Nat) (s : State) :
    (imageLost a0 a1 a2 s).mask w = s.mask w := by
  refine mask_mono (W := 0x802702012#38) ?_ h
  unfold imageLost
  repeat' (first | (simp; done) | with_reducible rfl | (refine (mask_foldl (fun t x => ?_) _ _).trans ?_) | split | (dsimp only; split) | (simp; split))

@[simp] theorem setRoutes_mask {w : BitVec 38} (h : 0x10#38 &&& w = 0x10#38) (a0 : Nat) (a1 : Nat) (a2 : List Nat) (s : State) :
    (setRoutes a0 a1 a2 s).mask w = s.mask w := by
  refine mask_mono (W := 0x10#38) ?_ h
  unfold setRoutes
  repeat' (first | (simp; done) | with_reducible rfl | (refine (mask_foldl (fun t x => ?_) _ _).trans ?_) | split | (dsimp only; split) | (simp; split))

@[simp] theorem landPiece_mask {w : BitVec 38} (h : 0x802702012#38 &&& w = 0x802702012#38) (a0 : Nat) (a1 : Nat) (a2 : List Byte) (s : State) :
    (landPiece a0 a1 a2 s).mask w = s.mask w := by
  refine mask_mono (W := 0x802702012#38) ?_ h
  unfold landPiece
  repeat' (first | (simp; done) | with_reducible rfl | (refine (mask_foldl (fun t x => ?_) _ _).trans ?_) | split | (dsimp only; split) | (simp; split))

@[simp] theorem landBytes_mask {w : BitVec 38} (h : 0x802702012#38 &&& w = 0x802702012#38) (a0 : Nat) (a1 : Nat) (a2 : Nat) (a3 : List Byte) (s : State) :
    (landBytes a0 a1 a2 a3 s).mask w = s.mask w := by
  refine mask_mono (W := 0x802702012#38) ?_ h
  unfold landBytes
  repeat' (first | (simp; done) | with_reducible rfl | (refine (mask_foldl (fun t x => ?_) _ _).trans ?_) | split | (dsimp only; split) | (simp; split))

@[simp] theorem sendData_mask {w : BitVec 38} (h : 0x720010#38 &&& w = 0x720010#38) (a0 : Nat) (a1 : Nat) (a2 : BitVec 256) (a3 : List Byte) (s : State) :
    (sendData a0 a1 a2 a3 s).mask w = s.mask w := by
  refine mask_mono (W := 0x720010#38) ?_ h
  unfold sendData
  repeat' (first | (simp; done) | with_reducible rfl | (refine (mask_foldl (fun t x => ?_) _ _).trans ?_) | split | (dsimp only; split) | (simp; split))

@[simp] theorem floodData_mask {w : BitVec 38} (h : 0x720010#38 &&& w = 0x720010#38) (a0 : Nat) (a1 : Nat) (a2 : List Nat) (a3 : BitVec 256) (a4 : List Byte) (s : State) :
    (floodData a0 a1 a2 a3 a4 s).mask w = s.mask w := by
  refine mask_mono (W := 0x720010#38) ?_ h
  unfold floodData
  repeat' (first | (simp; done) | with_reducible rfl | (refine (mask_foldl (fun t x => ?_) _ _).trans ?_) | split | (dsimp only; split) | (simp; split))

@[simp] theorem sendAll_mask {w : BitVec 38} (h : 0x720010#38 &&& w = 0x720010#38) (a0 : Nat) (a1 : Nat) (a2 : Nat) (a3 : Nat) (a4 : Nat) (a5 : Bool) (a6 : Nat) (a7 : List Byte) (s : State) :
    (sendAll a0 a1 a2 a3 a4 a5 a6 a7 s).mask w = s.mask w := by
  refine mask_mono (W := 0x720010#38) ?_ h
  unfold sendAll
  repeat' (first | (simp; done) | with_reducible rfl | (refine (mask_foldl (fun t x => ?_) _ _).trans ?_) | split | (dsimp only; split) | (simp; split))

@[simp] theorem takeCredits_mask {w : BitVec 38} (h : 0x10#38 &&& w = 0x10#38) (a0 : Nat) (a1 : List Nat) (a2 : Nat) (a3 : Nat) (s : State) :
    (takeCredits a0 a1 a2 a3 s).mask w = s.mask w := by
  refine mask_mono (W := 0x10#38) ?_ h
  unfold takeCredits
  repeat' (first | (simp; done) | with_reducible rfl | (refine (mask_foldl (fun t x => ?_) _ _).trans ?_) | split | (dsimp only; split) | (simp; split))

@[simp] theorem markIssued_mask {w : BitVec 38} (h : 0x10#38 &&& w = 0x10#38) (a0 : Nat) (a1 : Nat) (s : State) :
    (markIssued a0 a1 s).mask w = s.mask w := by
  refine mask_mono (W := 0x10#38) ?_ h
  unfold markIssued
  repeat' (first | (simp; done) | with_reducible rfl | (refine (mask_foldl (fun t x => ?_) _ _).trans ?_) | split | (dsimp only; split) | (simp; split))

@[simp] theorem unbound_mask {w : BitVec 38} (h : 0x780010#38 &&& w = 0x780010#38) (a0 : Nat) (a1 : Nat) (a2 : Nat) (s : State) :
    (unbound a0 a1 a2 s).mask w = s.mask w := by
  refine mask_mono (W := 0x780010#38) ?_ h
  unfold unbound
  repeat' (first | (simp; done) | with_reducible rfl | (refine (mask_foldl (fun t x => ?_) _ _).trans ?_) | split | (dsimp only; split) | (simp; split))

@[simp] theorem modBinding_mask {w : BitVec 38} (h : 0x10#38 &&& w = 0x10#38) (a0 : Nat) (a1 : Nat) (a2 : Nat) (a3 : Binding → Binding) (s : State) :
    (modBinding a0 a1 a2 a3 s).mask w = s.mask w := by
  refine mask_mono (W := 0x10#38) ?_ h
  unfold modBinding
  repeat' (first | (simp; done) | with_reducible rfl | (refine (mask_foldl (fun t x => ?_) _ _).trans ?_) | split | (dsimp only; split) | (simp; split))

@[simp] theorem dataError_mask {w : BitVec 38} (h : 0x780010#38 &&& w = 0x780010#38) (a0 : Nat) (a1 : Binding) (s : State) :
    (dataError a0 a1 s).mask w = s.mask w := by
  refine mask_mono (W := 0x780010#38) ?_ h
  unfold dataError
  repeat' (first | (simp; done) | with_reducible rfl | (refine (mask_foldl (fun t x => ?_) _ _).trans ?_) | split | (dsimp only; split) | (simp; split))

@[simp] theorem landMirror_mask {w : BitVec 38} (h : 0x802782012#38 &&& w = 0x802782012#38) (a0 : Nat) (a1 : Nat) (a2 : Nat) (a3 : Nat) (a4 : Nat) (a5 : List Byte) (s : State) :
    (landMirror a0 a1 a2 a3 a4 a5 s).mask w = s.mask w := by
  refine mask_mono (W := 0x802782012#38) ?_ h
  unfold landMirror
  repeat' (first | (simp; done) | with_reducible rfl | (refine (mask_foldl (fun t x => ?_) _ _).trans ?_) | split | (dsimp only; split) | (simp; split))

@[simp] theorem landDelivery_mask {w : BitVec 38} (h : 0x802782012#38 &&& w = 0x802782012#38) (a0 : Nat) (a1 : Nat) (a2 : List Byte) (s : State) :
    (landDelivery a0 a1 a2 s).mask w = s.mask w := by
  refine mask_mono (W := 0x802782012#38) ?_ h
  unfold landDelivery
  repeat' (first | (simp; done) | with_reducible rfl | (refine (mask_foldl (fun t x => ?_) _ _).trans ?_) | split | (dsimp only; split) | (simp; split))

@[simp] theorem modVote_mask {w : BitVec 38} (h : 0x10#38 &&& w = 0x10#38) (a0 : Nat) (a1 : Nat) (a2 : Vote → Vote) (s : State) :
    (modVote a0 a1 a2 s).mask w = s.mask w := by
  refine mask_mono (W := 0x10#38) ?_ h
  unfold modVote
  repeat' (first | (simp; done) | with_reducible rfl | (refine (mask_foldl (fun t x => ?_) _ _).trans ?_) | split | (dsimp only; split) | (simp; split))

@[simp] theorem writeResult_mask {w : BitVec 38} (h : 0x80270a012#38 &&& w = 0x80270a012#38) (a0 : Nat) (a1 : Chor) (a2 : Chain) (a3 : Nat) (a4 : List Byte) (s : State) :
    (writeResult a0 a1 a2 a3 a4 s).mask w = s.mask w := by
  refine mask_mono (W := 0x80270a012#38) ?_ h
  unfold writeResult
  repeat' (first | (simp; done) | with_reducible rfl | (refine (mask_foldl (fun t x => ?_) _ _).trans ?_) | split | (dsimp only; split) | (simp; split))

@[simp] theorem finishSegment_mask {w : BitVec 38} (h : 0x80270a012#38 &&& w = 0x80270a012#38) (a0 : Nat) (a1 : Chor) (a2 : Chain) (a3 : Nat) (a4 : List ChainRow) (s : State) :
    (finishSegment a0 a1 a2 a3 a4 s).2.mask w = s.mask w := by
  refine mask_mono (W := 0x80270a012#38) ?_ h
  unfold finishSegment
  repeat' (first | (simp; done) | with_reducible rfl | (refine (mask_foldl (fun t x => ?_) _ _).trans ?_) | split | (dsimp only; split) | (simp; split))

@[simp] theorem markSegment_mask {w : BitVec 38} (h : 0x10#38 &&& w = 0x10#38) (a0 : Nat) (a1 : Nat) (a2 : Option Nat) (a3 : Flags) (s : State) :
    (markSegment a0 a1 a2 a3 s).mask w = s.mask w := by
  refine mask_mono (W := 0x10#38) ?_ h
  unfold markSegment
  repeat' (first | (simp; done) | with_reducible rfl | (refine (mask_foldl (fun t x => ?_) _ _).trans ?_) | split | (dsimp only; split) | (simp; split))

@[simp] theorem refuseAccess_mask {w : BitVec 38} (h : 0x200700010#38 &&& w = 0x200700010#38) (a0 : Nat) (a1 : Nat) (a2 : Bool) (s : State) :
    (refuseAccess a0 a1 a2 s).mask w = s.mask w := by
  refine mask_mono (W := 0x200700010#38) ?_ h
  unfold refuseAccess
  repeat' (first | (simp; done) | with_reducible rfl | (refine (mask_foldl (fun t x => ?_) _ _).trans ?_) | split | (dsimp only; split) | (simp; split))

@[simp] theorem hostAccess_mask {w : BitVec 38} (h : 0x200700010#38 &&& w = 0x200700010#38) (a0 a1 : Nat) (a2 : Bool) (f : State → State)
    (hf : ∀ t, (f t).mask w = t.mask w) (s : State) : (hostAccess a0 a1 a2 f s).mask w = s.mask w := by
  unfold hostAccess
  split
  · rfl
  · split
    · exact hf s
    · exact refuseAccess_mask h ..

@[simp] theorem doorbell_mask {w : BitVec 38} (h : 0x100000#38 &&& w = 0x100000#38) (a0 : Nat) (f : Ring → State → State)
    (hf : ∀ g t, (f g t).mask w = t.mask w) (s : State) : (doorbell a0 f s).mask w = s.mask w := by
  have g : ∀ t u : State, t.mask 0x100000#38 = u.mask 0x100000#38 → t.mask w = u.mask w := fun t u e => mask_mono e h
  unfold doorbell
  dsimp only
  split
  · exact hf _ _
  · exact g _ _ (State.setRing_mask (by simp) ..)
  · rfl

@[simp] theorem readSlot_mask {w : BitVec 38} (h : 0x700000#38 &&& w = 0x700000#38) (a0 : Nat) (a1 : BitVec 16) (s : State) :
    (readSlot a0 a1 s).mask w = s.mask w := by
  refine mask_mono (W := 0x700000#38) ?_ h
  unfold readSlot
  repeat' (first | (simp; done) | with_reducible rfl | (refine (mask_foldl (fun t x => ?_) _ _).trans ?_) | split | (dsimp only; split) | (simp; split))

@[simp] theorem writeProd_mask {w : BitVec 38} (h : 0x700000#38 &&& w = 0x700000#38) (a0 a1 : Nat) (s : State) :
    (writeProd a0 a1 s).mask w = s.mask w := by
  refine mask_mono (W := 0x700000#38) ?_ h
  unfold writeProd
  refine doorbell_mask (by simp) _ _ (fun g t => ?_) _
  split
  · simp
  · refine (mask_foldl (fun t x => ?_) _ _).trans ?_
    · simp
    · simp

@[simp] theorem writeCpl_mask {w : BitVec 38} (h : 0x100000#38 &&& w = 0x100000#38) (a0 : Nat) (a1 : Nat) (s : State) :
    (writeCpl a0 a1 s).mask w = s.mask w := by
  refine mask_mono (W := 0x100000#38) ?_ h
  unfold writeCpl
  repeat' (first | (simp; done) | with_reducible rfl | (refine (mask_foldl (fun t x => ?_) _ _).trans ?_) | split | (dsimp only; split) | (simp; split))

@[simp] theorem drainFaults_mask {w : BitVec 38} (h : 0x700000#38 &&& w = 0x700000#38) (a0 : Option Nat) (s : State) :
    (drainFaults a0 s).mask w = s.mask w := by
  refine mask_mono (W := 0x700000#38) ?_ h
  unfold drainFaults
  repeat' (first | (simp; done) | with_reducible rfl | (refine (mask_foldl (fun t x => ?_) _ _).trans ?_) | split | (dsimp only; split) | (simp; split))

@[simp] theorem writeEvcons_mask {w : BitVec 38} (h : 0x700000#38 &&& w = 0x700000#38) (a0 : Nat) (a1 : Nat) (s : State) :
    (writeEvcons a0 a1 s).mask w = s.mask w := by
  refine mask_mono (W := 0x700000#38) ?_ h
  unfold writeEvcons
  repeat' (first | (simp; done) | with_reducible rfl | (refine (mask_foldl (fun t x => ?_) _ _).trans ?_) | split | (dsimp only; split) | (simp; split))

@[simp] theorem writeCtrl_mask {w : BitVec 38} (h : 0x100000#38 &&& w = 0x100000#38) (a0 : Nat) (a1 : Nat) (s : State) :
    (writeCtrl a0 a1 s).mask w = s.mask w := by
  refine mask_mono (W := 0x100000#38) ?_ h
  unfold writeCtrl
  repeat' (first | (simp; done) | with_reducible rfl | (refine (mask_foldl (fun t x => ?_) _ _).trans ?_) | split | (dsimp only; split) | (simp; split))

@[simp] theorem writeDbStat_mask {w : BitVec 38} (h : 0x100000#38 &&& w = 0x100000#38) (a0 : Nat) (a1 : Nat) (s : State) :
    (writeDbStat a0 a1 s).mask w = s.mask w := by
  refine mask_mono (W := 0x100000#38) ?_ h
  unfold writeDbStat
  repeat' (first | (simp; done) | with_reducible rfl | (refine (mask_foldl (fun t x => ?_) _ _).trans ?_) | split | (dsimp only; split) | (simp; split))

@[simp] theorem writeDoorbell_mask {w : BitVec 38} (h : 0x700000#38 &&& w = 0x700000#38) (a0 : Nat) (a1 : Nat) (a2 : Nat) (s : State) :
    (writeDoorbell a0 a1 a2 s).mask w = s.mask w := by
  refine mask_mono (W := 0x700000#38) ?_ h
  unfold writeDoorbell
  repeat' (first | (simp; done) | with_reducible rfl | (refine (mask_foldl (fun t x => ?_) _ _).trans ?_) | split | (dsimp only; split) | (simp; split))

@[simp] theorem haltRings_mask {w : BitVec 38} (h : 0x100000#38 &&& w = 0x100000#38) (s : State) :
    (haltRings s).mask w = s.mask w := by
  refine mask_mono (W := 0x100000#38) ?_ h
  unfold haltRings
  repeat' (first | (simp; done) | with_reducible rfl | (refine (mask_foldl (fun t x => ?_) _ _).trans ?_) | split | (dsimp only; split) | (simp; split))

@[simp] theorem enterPanic_mask {w : BitVec 38} (h : 0x500000#38 &&& w = 0x500000#38) (s : State) :
    (enterPanic s).mask w = s.mask w := by
  refine mask_mono (W := 0x500000#38) ?_ h
  unfold enterPanic
  repeat' (first | (simp; done) | with_reducible rfl | (refine (mask_foldl (fun t x => ?_) _ _).trans ?_) | split | (dsimp only; split) | (simp; split))

@[simp] theorem latchLists_mask {w : BitVec 38} (h : 0x2000000000#38 &&& w = 0x2000000000#38) (a0 : Nat) (s : State) :
    (latchLists a0 s).mask w = s.mask w := by
  refine mask_mono (W := 0x2000000000#38) ?_ h
  unfold latchLists
  refine mask_foldl (fun t n => ?_) _ _
  dsimp only
  split
  · exact mask_setRegion_list _ _ (by simp) rfl
  · rfl

@[simp] theorem setServed_mask {w : BitVec 38} (h : 0x2000#38 &&& w = 0x2000#38) (a0 : Nat) (s : State) :
    (setServed a0 s).mask w = s.mask w := by
  refine mask_mono (W := 0x2000#38) ?_ h
  unfold setServed
  repeat' (first | (simp; done) | with_reducible rfl | (refine (mask_foldl (fun t x => ?_) _ _).trans ?_) | split | (dsimp only; split) | (simp; split))

@[simp] theorem removePages_mask {w : BitVec 38} (h : 0x250#38 &&& w = 0x250#38) (a0 : Nat) (a1 : List (Nat × Leaf)) (s : State) :
    (removePages a0 a1 s).mask w = s.mask w := by
  refine mask_mono (W := 0x250#38) ?_ h
  unfold removePages
  repeat' (first | (simp; done) | with_reducible rfl | (refine (mask_foldl (fun t x => ?_) _ _).trans ?_) | split | (dsimp only; split) | (simp; split))

@[simp] theorem jobLoad_mask {w : BitVec 38} (h : 0x2000002250#38 &&& w = 0x2000002250#38) (a0 : Nat) (s : State) :
    (jobLoad a0 s).1.mask w = s.mask w := by
  refine mask_mono (W := 0x2000002250#38) ?_ h
  unfold jobLoad
  repeat' (first | (simp; done) | with_reducible rfl | (refine (mask_foldl (fun t x => ?_) _ _).trans ?_) | split | (dsimp only; split) | (simp; split))

@[simp] theorem zeroiseBut_mask {w : BitVec 38} (h : 0x20#38 &&& w = 0x20#38) (a0 : Nat) (a1 : List (Nat × Nat)) (s : State) :
    (zeroiseBut a0 a1 s).mask w = s.mask w := by
  refine mask_mono (W := 0x20#38) ?_ h
  unfold zeroiseBut
  repeat' (first | (simp; done) | with_reducible rfl | (refine (mask_foldl (fun t x => ?_) _ _).trans ?_) | split | (dsimp only; split) | (simp; split))

@[simp] theorem zeroiseForLoad_mask {w : BitVec 38} (h : 0x20#38 &&& w = 0x20#38) (a0 : Nat) (a1 : List Region) (s : State) :
    (zeroiseForLoad a0 a1 s).mask w = s.mask w := by
  refine mask_mono (W := 0x20#38) ?_ h
  unfold zeroiseForLoad
  repeat' (first | (simp; done) | with_reducible rfl | (refine (mask_foldl (fun t x => ?_) _ _).trans ?_) | split | (dsimp only; split) | (simp; split))

@[simp] theorem installChor_mask {w : BitVec 38} (h : 0x30#38 &&& w = 0x30#38) (a0 : Nat) (a1 : Loaded) (s : State) :
    (installChor a0 a1 s).mask w = s.mask w := by
  refine mask_mono (W := 0x30#38) ?_ h
  unfold installChor
  repeat' (first | (simp; done) | with_reducible rfl | (refine (mask_foldl (fun t x => ?_) _ _).trans ?_) | split | (dsimp only; split) | (simp; split))

@[simp] theorem loadChor_mask {w : BitVec 38} (h : 0x2000302270#38 &&& w = 0x2000302270#38) (a0 a1 : Nat) (a2 : BitVec 16) (a3 : Loaded) (s : State) :
    (loadChor a0 a1 a2 a3 s).mask w = s.mask w := by
  refine mask_mono (W := 0x2000302270#38) ?_ h
  unfold loadChor
  dsimp only
  split
  · rw [complete_mask (by simp), installChor_mask (by simp)]
  · rw [complete_mask (by simp), installChor_mask (by simp), jobLoad_mask (by simp)]

@[simp] theorem stopFigures_mask {w : BitVec 38} (h : 0x7005b0#38 &&& w = 0x7005b0#38) (a0 : Nat) (a1 : Bool) (s : State) :
    (stopFigures a0 a1 s).1.mask w = s.mask w := by
  refine mask_mono (W := 0x7005b0#38) ?_ h
  unfold stopFigures
  repeat' (first | (simp; done) | with_reducible rfl | (refine (mask_foldl (fun t x => ?_) _ _).trans ?_) | split | (dsimp only; split) | (simp; split))

@[simp] theorem drainWrites_mask {w : BitVec 38} (h : 0x802702012#38 &&& w = 0x802702012#38) (a0 : Nat) (s : State) :
    (drainWrites a0 s).mask w = s.mask w := by
  refine mask_mono (W := 0x802702012#38) ?_ h
  unfold drainWrites
  repeat' (first | (simp; done) | with_reducible rfl | (refine (mask_foldl (fun t x => ?_) _ _).trans ?_) | split | (dsimp only; split) | (simp; split))

@[simp] theorem idleCore_mask {w : BitVec 38} (h : 0x20#38 &&& w = 0x20#38) (a0 : Nat) (s : State) :
    (idleCore a0 s).mask w = s.mask w := by
  refine mask_mono (W := 0x20#38) ?_ h
  unfold idleCore
  repeat' (first | (simp; done) | with_reducible rfl | (refine (mask_foldl (fun t x => ?_) _ _).trans ?_) | split | (dsimp only; split) | (simp; split))

@[simp] theorem abandonSnapshot_mask {w : BitVec 38} (h : 0x700010#38 &&& w = 0x700010#38) (a0 : Nat) (s : State) :
    (abandonSnapshot a0 s).mask w = s.mask w := by
  refine mask_mono (W := 0x700010#38) ?_ h
  unfold abandonSnapshot
  repeat' (first | (simp; done) | with_reducible rfl | (refine (mask_foldl (fun t x => ?_) _ _).trans ?_) | split | (dsimp only; split) | (simp; split))

@[simp] theorem closeTagSeq_mask {w : BitVec 38} (h : 0x700850#38 &&& w = 0x700850#38) (a0 : Nat) (a1 : Nat) (s : State) :
    (closeTagSeq a0 a1 s).mask w = s.mask w := by
  refine mask_mono (W := 0x700850#38) ?_ h
  unfold closeTagSeq
  repeat' (first | (simp; done) | with_reducible rfl | (refine (mask_foldl (fun t x => ?_) _ _).trans ?_) | split | (dsimp only; split) | (simp; split))

@[simp] theorem endJob_mask {w : BitVec 38} (h : 0x80270adf2#38 &&& w = 0x80270adf2#38) (a0 : Nat) (a1 : Nat) (a2 : BitVec 16) (a3 : Bool) (s : State) :
    (endJob a0 a1 a2 a3 s).mask w = s.mask w := by
  refine mask_mono (W := 0x80270adf2#38) ?_ h
  unfold endJob
  repeat' (first | (simp; done) | with_reducible rfl | (refine (mask_foldl (fun t x => ?_) _ _).trans ?_) | split | (dsimp only; split) | (simp; split))

theorem quietEffect_mask {w : BitVec 38} (h : 0x80270adf2#38 &&& w = 0x80270adf2#38) (a0 : Nat) (a1 : Waiting) (s : State) :
    ∀ t, quietEffect a0 a1 s = some t → t.mask w = s.mask w := by
  intro t ht
  refine mask_mono (W := 0x80270adf2#38) ?_ h
  unfold quietEffect at ht
  split at ht
  · rw [← Option.some.inj ht]; exact endJob_mask (by simp) ..
  · exact quietChange_mask (by simp) _ _ _ t ht

@[simp] theorem quietChanges_mask {w : BitVec 38} (h : 0x80270adf2#38 &&& w = 0x80270adf2#38) (a0 : Nat) (a1 : List Waiting) (s : State) :
    (quietChanges a0 a1 s).mask w = s.mask w := by
  refine mask_mono (W := 0x80270adf2#38) ?_ h
  unfold quietChanges
  refine mask_foldl (fun t x => ?_) _ _
  split
  · rfl
  · split
    · rename_i u hu
      rw [quietEffect_mask (by simp) _ _ _ u hu]; simp
    · rfl

@[simp] theorem setQuarters_mask {w : BitVec 38} (h : 0x30#38 &&& w = 0x30#38) (a0 : Nat) (a1 : BitVec 4) (s : State) :
    (setQuarters a0 a1 s).mask w = s.mask w := by
  refine mask_mono (W := 0x30#38) ?_ h
  unfold setQuarters
  repeat' (first | (simp; done) | with_reducible rfl | (refine (mask_foldl (fun t x => ?_) _ _).trans ?_) | split | (dsimp only; split) | (simp; split))

@[simp] theorem powerQuarters_mask {w : BitVec 38} (h : 0x30#38 &&& w = 0x30#38) (a0 : Nat) (a1 : Nat) (s : State) :
    (powerQuarters a0 a1 s).mask w = s.mask w := by
  refine mask_mono (W := 0x30#38) ?_ h
  unfold powerQuarters
  repeat' (first | (simp; done) | with_reducible rfl | (refine (mask_foldl (fun t x => ?_) _ _).trans ?_) | split | (dsimp only; split) | (simp; split))

@[simp] theorem grantCredits_mask {w : BitVec 38} (h : 0x720010#38 &&& w = 0x720010#38) (a0 : Nat) (a1 : Chor) (s : State) :
    (grantCredits a0 a1 s).mask w = s.mask w := by
  refine mask_mono (W := 0x720010#38) ?_ h
  unfold grantCredits
  repeat' (first | (simp; done) | with_reducible rfl | (refine (mask_foldl (fun t x => ?_) _ _).trans ?_) | split | (dsimp only; split) | (simp; split))

@[simp] theorem beginRun_mask {w : BitVec 38} (h : 0x720030#38 &&& w = 0x720030#38) (a0 : Nat) (a1 : Chor) (a2 : Nat) (a3 : Nat) (a4 : Nat) (a5 : Nat) (s : State) :
    (beginRun a0 a1 a2 a3 a4 a5 s).mask w = s.mask w := by
  refine mask_mono (W := 0x720030#38) ?_ h
  unfold beginRun
  repeat' (first | (simp; done) | with_reducible rfl | (refine (mask_foldl (fun t x => ?_) _ _).trans ?_) | split | (dsimp only; split) | (simp; split))

@[simp] theorem countStalls_mask {w : BitVec 38} (h : 0x700030#38 &&& w = 0x700030#38) (a0 : Nat) (a1 : List Nat) (s : State) :
    (countStalls a0 a1 s).mask w = s.mask w := by
  refine mask_mono (W := 0x700030#38) ?_ h
  unfold countStalls
  repeat' (first | (simp; done) | with_reducible rfl | (refine (mask_foldl (fun t x => ?_) _ _).trans ?_) | split | (dsimp only; split) | (simp; split))

@[simp] theorem countSpm_mask {w : BitVec 38} (h : 0x700030#38 &&& w = 0x700030#38) (a0 : Nat) (a1 : List Nat) (a2 : Nat) (a3 : Nat) (s : State) :
    (countSpm a0 a1 a2 a3 s).mask w = s.mask w := by
  refine mask_mono (W := 0x700030#38) ?_ h
  unfold countSpm
  repeat' (first | (simp; done) | with_reducible rfl | (refine (mask_foldl (fun t x => ?_) _ _).trans ?_) | split | (dsimp only; split) | (simp; split))

@[simp] theorem countBar_mask {w : BitVec 38} (h : 0x722030#38 &&& w = 0x722030#38) (a0 : BarActivity) (s : State) :
    (countBar a0 s).mask w = s.mask w := by
  refine mask_mono (W := 0x722030#38) ?_ h
  unfold countBar
  repeat' (first | (simp; done) | with_reducible rfl | (refine (mask_foldl (fun t x => ?_) _ _).trans ?_) | split | (dsimp only; split) | (simp; split))

@[simp] theorem addEnergy_mask {w : BitVec 38} (h : 0x700012#38 &&& w = 0x700012#38) (a0 : Nat) (s : State) :
    (addEnergy a0 s).mask w = s.mask w := by
  refine mask_mono (W := 0x700012#38) ?_ h
  unfold addEnergy
  repeat' (first | (simp; done) | with_reducible rfl | (refine (mask_foldl (fun t x => ?_) _ _).trans ?_) | split | (dsimp only; split) | (simp; split))

@[simp] theorem barCopy_mask {w : BitVec 38} (h : 0x10#38 &&& w = 0x10#38) (a0 : Nat) (s : State) :
    (barCopy a0 s).mask w = s.mask w := by
  refine mask_mono (W := 0x10#38) ?_ h
  unfold barCopy
  repeat' (first | (simp; done) | with_reducible rfl | (refine (mask_foldl (fun t x => ?_) _ _).trans ?_) | split | (dsimp only; split) | (simp; split))

@[simp] theorem telemDrop_mask {w : BitVec 38} (h : 0x700010#38 &&& w = 0x700010#38) (a0 : Nat) (s : State) :
    (telemDrop a0 s).mask w = s.mask w := by
  refine mask_mono (W := 0x700010#38) ?_ h
  unfold telemDrop
  repeat' (first | (simp; done) | with_reducible rfl | (refine (mask_foldl (fun t x => ?_) _ _).trans ?_) | split | (dsimp only; split) | (simp; split))

@[simp] theorem telemPut_mask {w : BitVec 38} (h : 0x80270a012#38 &&& w = 0x80270a012#38) (a0 : Nat) (a1 : List Byte) (s : State) :
    (telemPut a0 a1 s).mask w = s.mask w := by
  refine mask_mono (W := 0x80270a012#38) ?_ h
  unfold telemPut
  repeat' (first | (simp; done) | with_reducible rfl | (refine (mask_foldl (fun t x => ?_) _ _).trans ?_) | split | (dsimp only; split) | (simp; split))

@[simp] theorem telemBar_mask {w : BitVec 38} (h : 0x80270a012#38 &&& w = 0x80270a012#38) (a0 : Nat) (a1 : BarActivity) (s : State) :
    (telemBar a0 a1 s).mask w = s.mask w := by
  refine mask_mono (W := 0x80270a012#38) ?_ h
  unfold telemBar
  repeat' (first | (simp; done) | with_reducible rfl | (refine (mask_foldl (fun t x => ?_) _ _).trans ?_) | split | (dsimp only; split) | (simp; split))

@[simp] theorem telemFlush_mask {w : BitVec 38} (h : 0x80270a012#38 &&& w = 0x80270a012#38) (a0 : Nat) (s : State) :
    (telemFlush a0 s).mask w = s.mask w := by
  refine mask_mono (W := 0x80270a012#38) ?_ h
  unfold telemFlush
  repeat' (first | (simp; done) | with_reducible rfl | (refine (mask_foldl (fun t x => ?_) _ _).trans ?_) | split | (dsimp only; split) | (simp; split))

@[simp] theorem drainAccess_mask {w : BitVec 38} (h : 0x50#38 &&& w = 0x50#38) (s : State) :
    (drainAccess s).mask w = s.mask w := by
  refine mask_mono (W := 0x50#38) ?_ h
  unfold drainAccess
  repeat' (first | (simp; done) | with_reducible rfl | (refine (mask_foldl (fun t x => ?_) _ _).trans ?_) | split | (dsimp only; split) | (simp; split))

@[simp] theorem hotBar_mask {w : BitVec 38} (h : 0x10#38 &&& w = 0x10#38) (a0 : Nat) (s : State) :
    (hotBar a0 s).mask w = s.mask w := by
  refine mask_mono (W := 0x10#38) ?_ h
  unfold hotBar
  repeat' (first | (simp; done) | with_reducible rfl | (refine (mask_foldl (fun t x => ?_) _ _).trans ?_) | split | (dsimp only; split) | (simp; split))

@[simp] theorem newBar_mask {w : BitVec 38} (h : 0x400022020#38 &&& w = 0x400022020#38) (s : State) :
    (newBar s).mask w = s.mask w := by
  refine mask_mono (W := 0x400022020#38) ?_ h
  unfold newBar
  repeat' (first | (simp; done) | with_reducible rfl | (refine (mask_foldl (fun t x => ?_) _ _).trans ?_) | split | (dsimp only; split) | (simp; split))

@[simp] theorem barPart_mask {w : BitVec 38} (h : 0x80270a012#38 &&& w = 0x80270a012#38) (a0 : BarActivity) (a1 : Nat) (s : State) :
    (barPart a0 a1 s).mask w = s.mask w := by
  refine mask_mono (W := 0x80270a012#38) ?_ h
  unfold barPart
  repeat' (first | (simp; done) | with_reducible rfl | (refine (mask_foldl (fun t x => ?_) _ _).trans ?_) | split | (dsimp only; split) | (simp; split))

@[simp] theorem powerTo_mask {w : BitVec 38} (h : 0x400000000#38 &&& w = 0x400000000#38) (a0 : Nat) (s : State) :
    (powerTo a0 s).mask w = s.mask w := by
  refine mask_mono (W := 0x400000000#38) ?_ h
  unfold powerTo
  repeat' (first | (simp; done) | with_reducible rfl | (refine (mask_foldl (fun t x => ?_) _ _).trans ?_) | split | (dsimp only; split) | (simp; split))

@[simp] theorem powerToward_mask {w : BitVec 38} (h : 0x400000000#38 &&& w = 0x400000000#38) (a0 : Nat) (s : State) :
    (powerToward a0 s).mask w = s.mask w := by
  refine mask_mono (W := 0x400000000#38) ?_ h
  unfold powerToward
  repeat' (first | (simp; done) | with_reducible rfl | (refine (mask_foldl (fun t x => ?_) _ _).trans ?_) | split | (dsimp only; split) | (simp; split))

@[simp] theorem sleepQuarters_mask {w : BitVec 38} (h : 0x30#38 &&& w = 0x30#38) (a0 : Nat) (s : State) :
    (sleepQuarters a0 s).mask w = s.mask w := by
  refine mask_mono (W := 0x30#38) ?_ h
  unfold sleepQuarters
  repeat' (first | (simp; done) | with_reducible rfl | (refine (mask_foldl (fun t x => ?_) _ _).trans ?_) | split | (dsimp only; split) | (simp; split))

@[simp] theorem keepalivePorts_mask {w : BitVec 38} (h : 0x20000#38 &&& w = 0x20000#38) (s : State) :
    (keepalivePorts s).mask w = s.mask w := by
  refine mask_mono (W := 0x20000#38) ?_ h
  unfold keepalivePorts
  repeat' (first | (simp; done) | with_reducible rfl | (refine (mask_foldl (fun t x => ?_) _ _).trans ?_) | split | (dsimp only; split) | (simp; split))

@[simp] theorem wakePorts_mask {w : BitVec 38} (h : 0x20000#38 &&& w = 0x20000#38) (s : State) :
    (wakePorts s).mask w = s.mask w := by
  refine mask_mono (W := 0x20000#38) ?_ h
  unfold wakePorts
  repeat' (first | (simp; done) | with_reducible rfl | (refine (mask_foldl (fun t x => ?_) _ _).trans ?_) | split | (dsimp only; split) | (simp; split))

@[simp] theorem clearAcm_mask {w : BitVec 38} (h : 0x20#38 &&& w = 0x20#38) (s : State) :
    (clearAcm s).mask w = s.mask w := by
  refine mask_mono (W := 0x20#38) ?_ h
  unfold clearAcm
  repeat' (first | (simp; done) | with_reducible rfl | (refine (mask_foldl (fun t x => ?_) _ _).trans ?_) | split | (dsimp only; split) | (simp; split))

@[simp] theorem sleepDeep_mask {w : BitVec 38} (h : 0x4030#38 &&& w = 0x4030#38) (s : State) :
    (sleepDeep s).mask w = s.mask w := by
  refine mask_mono (W := 0x4030#38) ?_ h
  unfold sleepDeep
  repeat' (first | (simp; done) | with_reducible rfl | (refine (mask_foldl (fun t x => ?_) _ _).trans ?_) | split | (dsimp only; split) | (simp; split))

@[simp] theorem wakeDeep_mask {w : BitVec 38} (h : 0x80270e032#38 &&& w = 0x80270e032#38) (s : State) :
    (wakeDeep s).mask w = s.mask w := by
  refine mask_mono (W := 0x80270e032#38) ?_ h
  unfold wakeDeep
  repeat' (first | (simp; done) | with_reducible rfl | (refine (mask_foldl (fun t x => ?_) _ _).trans ?_) | split | (dsimp only; split) | (simp; split))

@[simp] theorem finishPower_mask {w : BitVec 38} (h : 0x300010#38 &&& w = 0x300010#38) (a0 : Nat) (s : State) :
    (finishPower a0 s).mask w = s.mask w := by
  refine mask_mono (W := 0x300010#38) ?_ h
  unfold finishPower
  repeat' (first | (simp; done) | with_reducible rfl | (refine (mask_foldl (fun t x => ?_) _ _).trans ?_) | split | (dsimp only; split) | (simp; split))

@[simp] theorem dieTripped_mask {w : BitVec 38} (h : 0x700010#38 &&& w = 0x700010#38) (s : State) :
    (dieTripped s).mask w = s.mask w := by
  refine mask_mono (W := 0x700010#38) ?_ h
  unfold dieTripped
  repeat' (first | (simp; done) | with_reducible rfl | (refine (mask_foldl (fun t x => ?_) _ _).trans ?_) | split | (dsimp only; split) | (simp; split))

@[simp] theorem modSnap_mask {w : BitVec 38} (h : 0x10#38 &&& w = 0x10#38) (a0 : Nat) (a1 : Snap → Snap) (s : State) :
    (modSnap a0 a1 s).mask w = s.mask w := by
  refine mask_mono (W := 0x10#38) ?_ h
  unfold modSnap
  repeat' (first | (simp; done) | with_reducible rfl | (refine (mask_foldl (fun t x => ?_) _ _).trans ?_) | split | (dsimp only; split) | (simp; split))

@[simp] theorem placeSlots_mask {w : BitVec 38} (h : 0x10#38 &&& w = 0x10#38) (a0 : Nat) (a1 : Nat) (a2 : Nat) (a3 : Nat) (s : State) :
    (placeSlots a0 a1 a2 a3 s).mask w = s.mask w := by
  refine mask_mono (W := 0x10#38) ?_ h
  unfold placeSlots
  repeat' (first | (simp; done) | with_reducible rfl | (refine (mask_foldl (fun t x => ?_) _ _).trans ?_) | split | (dsimp only; split) | (simp; split))

@[simp] theorem countRange_mask {w : BitVec 38} (h : 0x700010#38 &&& w = 0x700010#38) (a0 : Nat) (a1 : SnapRange) (s : State) :
    (countRange a0 a1 s).mask w = s.mask w := by
  refine mask_mono (W := 0x700010#38) ?_ h
  unfold countRange
  repeat' (first | (simp; done) | with_reducible rfl | (refine (mask_foldl (fun t x => ?_) _ _).trans ?_) | split | (dsimp only; split) | (simp; split))

@[simp] theorem askHeader_mask {w : BitVec 38} (h : 0xc0000000#38 &&& w = 0xc0000000#38) (a0 : Nat) (a1 : Nat) (a2 : List Byte) (s : State) :
    (askHeader a0 a1 a2 s).mask w = s.mask w := by
  refine mask_mono (W := 0xc0000000#38) ?_ h
  unfold askHeader
  repeat' (first | (simp; done) | with_reducible rfl | (refine (mask_foldl (fun t x => ?_) _ _).trans ?_) | split | (dsimp only; split) | (simp; split))

@[simp] theorem pushMirror_mask {w : BitVec 38} (h : 0x720010#38 &&& w = 0x720010#38) (a0 : Nat) (s : State) :
    (pushMirror a0 s).mask w = s.mask w := by
  refine mask_mono (W := 0x720010#38) ?_ h
  unfold pushMirror
  repeat' (first | (simp; done) | with_reducible rfl | (refine (mask_foldl (fun t x => ?_) _ _).trans ?_) | split | (dsimp only; split) | (simp; split))

@[simp] theorem tellPartner_mask {w : BitVec 38} (h : 0x720010#38 &&& w = 0x720010#38) (a0 : Nat) (a1 : Nat) (a2 : Nat) (s : State) :
    (tellPartner a0 a1 a2 s).mask w = s.mask w := by
  refine mask_mono (W := 0x720010#38) ?_ h
  unfold tellPartner
  repeat' (first | (simp; done) | with_reducible rfl | (refine (mask_foldl (fun t x => ?_) _ _).trans ?_) | split | (dsimp only; split) | (simp; split))

@[simp] theorem stageBody_mask {w : BitVec 38} (h : 0x8c272a012#38 &&& w = 0x8c272a012#38) (a0 : Nat) (a1 : Nat) (a2 : Manifest) (a3 : List Byte) (s : State) :
    (stageBody a0 a1 a2 a3 s).mask w = s.mask w := by
  refine mask_mono (W := 0x8c272a012#38) ?_ h
  unfold stageBody
  repeat' (first | (simp; done) | with_reducible rfl | (refine (mask_foldl (fun t x => ?_) _ _).trans ?_) | split | (dsimp only; split) | (simp; split))

@[simp] theorem copyFailed_mask {w : BitVec 38} (h : 0x700010#38 &&& w = 0x700010#38) (a0 : Nat) (a1 : Nat) (s : State) :
    (copyFailed a0 a1 s).mask w = s.mask w := by
  refine mask_mono (W := 0x700010#38) ?_ h
  unfold copyFailed
  repeat' (first | (simp; done) | with_reducible rfl | (refine (mask_foldl (fun t x => ?_) _ _).trans ?_) | split | (dsimp only; split) | (simp; split))

@[simp] theorem freeStaging_mask {w : BitVec 38} (h : 0x10#38 &&& w = 0x10#38) (a0 : Nat) (s : State) :
    (freeStaging a0 s).mask w = s.mask w := by
  refine mask_mono (W := 0x10#38) ?_ h
  unfold freeStaging
  repeat' (first | (simp; done) | with_reducible rfl | (refine (mask_foldl (fun t x => ?_) _ _).trans ?_) | split | (dsimp only; split) | (simp; split))

@[simp] theorem slotFailed_mask {w : BitVec 38} (h : 0x40700010#38 &&& w = 0x40700010#38) (a0 : Nat) (s : State) :
    (slotFailed a0 s).mask w = s.mask w := by
  refine mask_mono (W := 0x40700010#38) ?_ h
  unfold slotFailed
  repeat' (first | (simp; done) | with_reducible rfl | (refine (mask_foldl (fun t x => ?_) _ _).trans ?_) | split | (dsimp only; split) | (simp; split))

@[simp] theorem slotComplete_mask {w : BitVec 38} (h : 0x40700010#38 &&& w = 0x40700010#38) (a0 : Nat) (a1 : Nat) (a2 : List Byte) (s : State) :
    (slotComplete a0 a1 a2 s).mask w = s.mask w := by
  refine mask_mono (W := 0x40700010#38) ?_ h
  unfold slotComplete
  repeat' (first | (simp; done) | with_reducible rfl | (refine (mask_foldl (fun t x => ?_) _ _).trans ?_) | split | (dsimp only; split) | (simp; split))

@[simp] theorem nvmDone_mask {w : BitVec 38} (h : 0x40000000#38 &&& w = 0x40000000#38) (a0 : NvmReq) (s : State) :
    (nvmDone a0 s).mask w = s.mask w := by
  refine mask_mono (W := 0x40000000#38) ?_ h
  unfold nvmDone
  repeat' (first | (simp; done) | with_reducible rfl | (refine (mask_foldl (fun t x => ?_) _ _).trans ?_) | split | (dsimp only; split) | (simp; split))

@[simp] theorem writeRange_mask {w : BitVec 38} (h : 0x80270a032#38 &&& w = 0x80270a032#38) (a0 : Nat) (a1 : SnapRange) (a2 : List Byte) (s : State) :
    (writeRange a0 a1 a2 s).mask w = s.mask w := by
  refine mask_mono (W := 0x80270a032#38) ?_ h
  unfold writeRange
  repeat' (first | (simp; done) | with_reducible rfl | (refine (mask_foldl (fun t x => ?_) _ _).trans ?_) | split | (dsimp only; split) | (simp; split))

@[simp] theorem writeRanges_mask {w : BitVec 38} (h : 0x80270a032#38 &&& w = 0x80270a032#38) (a0 : Nat) (a1 : List SnapRange)
    (a2 : List Byte) (s : State) : (writeRanges a0 a1 a2 s).mask w = s.mask w := by
  induction a1 generalizing a2 s with
  | nil => rfl
  | cons r rest ih =>
    unfold writeRanges
    rw [ih, writeRange_mask h]

@[simp] theorem spoilRanges_mask {w : BitVec 38} (h : 0x80270a032#38 &&& w = 0x80270a032#38) (a0 : Nat) (a1 : List SnapRange) (s : State) :
    (spoilRanges a0 a1 s).mask w = s.mask w := by
  refine mask_mono (W := 0x80270a032#38) ?_ h
  unfold spoilRanges
  repeat' (first | (simp; done) | with_reducible rfl | (refine (mask_foldl (fun t x => ?_) _ _).trans ?_) | split | (dsimp only; split) | (simp; split))

@[simp] theorem restoreFrom_mask {w : BitVec 38} (h : 0x80270a032#38 &&& w = 0x80270a032#38) (a0 : Nat) (a1 : Nat) (a2 : BitVec 16) (a3 : BitVec 512) (a4 : List Byte) (s : State) :
    (restoreFrom a0 a1 a2 a3 a4 s).mask w = s.mask w := by
  refine mask_mono (W := 0x80270a032#38) ?_ h
  unfold restoreFrom
  repeat' (first | (simp; done) | with_reducible rfl | (refine (mask_foldl (fun t x => ?_) _ _).trans ?_) | split | (dsimp only; split) | (simp; split))

@[simp] theorem dropWait_mask {w : BitVec 38} (h : 0x10#38 &&& w = 0x10#38) (a0 : Nat) (a1 : Waiting) (s : State) :
    (dropWait a0 a1 s).mask w = s.mask w := by
  refine mask_mono (W := 0x10#38) ?_ h
  unfold dropWait
  repeat' (first | (simp; done) | with_reducible rfl | (refine (mask_foldl (fun t x => ?_) _ _).trans ?_) | split | (dsimp only; split) | (simp; split))

@[simp] theorem acceptPartner_mask {w : BitVec 38} (h : 0x720010#38 &&& w = 0x720010#38) (a0 : Nat) (a1 : Waiting) (a2 : Nat) (a3 : BitVec 16) (a4 : Nat) (a5 : Nat) (a6 : Nat) (s : State) :
    (acceptPartner a0 a1 a2 a3 a4 a5 a6 s).mask w = s.mask w := by
  refine mask_mono (W := 0x720010#38) ?_ h
  unfold acceptPartner
  repeat' (first | (simp; done) | with_reducible rfl | (refine (mask_foldl (fun t x => ?_) _ _).trans ?_) | split | (dsimp only; split) | (simp; split))

@[simp] theorem mirrorSentDone_mask {w : BitVec 38} (h : 0x700010#38 &&& w = 0x700010#38) (a0 : Nat) (s : State) :
    (mirrorSentDone a0 s).mask w = s.mask w := by
  refine mask_mono (W := 0x700010#38) ?_ h
  unfold mirrorSentDone
  repeat' (first | (simp; done) | with_reducible rfl | (refine (mask_foldl (fun t x => ?_) _ _).trans ?_) | split | (dsimp only; split) | (simp; split))

theorem writeRwl_mask {w : BitVec 38} (h : 0x1811008#38 &&& w = 0x1811008#38) (a0 : ℕ) (a1 : ℕ) (s : State) :
    ∀ t, writeRwl a0 a1 s = some t → t.mask w = s.mask w := by
  intro t ht
  refine mask_mono (W := 0x1811008#38) ?_ h
  unfold writeRwl at ht
  repeat' (first | split at ht | (dsimp only at ht; split at ht))
  all_goals (first | (simp only [reduceCtorEq] at ht; done) | (injection ht with ht; subst ht; repeat' (first | (simp; done) | with_reducible rfl | (refine (mask_foldl (fun t x => ?_) _ _).trans ?_) | split | (dsimp only; split) | (simp; split))))

theorem writeRecords_mask {w : BitVec 38} (h : 0x1811008#38 &&& w = 0x1811008#38) (a0 : List (Nat × Nat)) (s : State) :
    ∀ t, writeRecords a0 s = some t → t.mask w = s.mask w := by
  induction a0 generalizing s with
  | nil => intro t ht; cases ht; rfl
  | cons r rest ih =>
    intro t ht
    unfold writeRecords at ht
    split at ht
    · rename_i u hu
      rw [ih u t ht, writeRwl_mask h _ _ _ u hu]
    · cases ht

@[simp] theorem putBootRec_mask {w : BitVec 38} (h : 0x40000000#38 &&& w = 0x40000000#38) (a0 : Nat) (a1 : BootRec) (s : State) :
    (putBootRec a0 a1 s).mask w = s.mask w := nvmWrite_mask h ..

@[simp] theorem modBootRec_mask {w : BitVec 38} (h : 0x40000000#38 &&& w = 0x40000000#38) (a0 : BootRec → BootRec) (s : State) :
    (modBootRec a0 s).mask w = s.mask w := by
  refine mask_mono (W := 0x40000000#38) ?_ h
  unfold modBootRec
  repeat' (first | (simp; done) | with_reducible rfl | (refine (mask_foldl (fun t x => ?_) _ _).trans ?_) | split | (dsimp only; split) | (simp; split))

theorem runActive_mask {w : BitVec 38} (h : 0x40000000#38 &&& w = 0x40000000#38) (s : State) (r : BootRec) (last : Nat) (f : BootRec → BootRec)
    (i : Nat) (tr : Bool) (l : Nat) (t : State) (e : s.runActive r last f = .run i tr l t) : t.mask w = s.mask w := by
  refine mask_mono (W := 0x40000000#38) ?_ h
  unfold State.runActive at e
  split at e
  · cases e
  · split at e
    · cases e
    · injection e with e1 e2 e3 e4
      rw [← e4]
      split
      · rfl
      · exact modBootRec_mask (by simp) ..

theorem runFirst_mask {w : BitVec 38} (h : 0x40000000#38 &&& w = 0x40000000#38) (s : State) (i : Nat) (tr : Bool) (l : Nat) (t : State)
    (e : s.runFirst = .run i tr l t) : t.mask w = s.mask w := by
  refine mask_mono (W := 0x40000000#38) ?_ h
  unfold State.runFirst at e
  dsimp only at e
  split at e
  · injection e with e1 e2 e3 e4; rw [← e4]; exact putBootRec_mask (by simp) ..
  · injection e with e1 e2 e3 e4; rw [← e4]; exact putBootRec_mask (by simp) ..
  · cases e

theorem chooseImage_mask {w : BitVec 38} (h : 0x40000000#38 &&& w = 0x40000000#38) (s : State) (i : Nat) (tr : Bool) (l : Nat) (t : State)
    (e : s.chooseImage = .run i tr l t) : t.mask w = s.mask w := by
  unfold State.chooseImage at e
  split at e
  · exact runFirst_mask h s i tr l t e
  · split at e
    · exact runActive_mask h _ _ _ _ _ _ _ _ e
    · split at e
      · injection e with e1 e2 e3 e4; rw [← e4]; exact modBootRec_mask h ..
      · exact runActive_mask h _ _ _ _ _ _ _ _ e
    · exact runActive_mask h _ _ _ _ _ _ _ _ e

@[simp] theorem bootStop_mask {w : BitVec 38} (h : 0x208000000#38 &&& w = 0x208000000#38) (a0 : Nat) (s : State) :
    (bootStop a0 s).mask w = s.mask w := by
  refine mask_mono (W := 0x208000000#38) ?_ h
  unfold bootStop
  repeat' (first | (simp; done) | with_reducible rfl | (refine (mask_foldl (fun t x => ?_) _ _).trans ?_) | split | (dsimp only; split) | (simp; split))

@[simp] theorem loadFremund_mask {w : BitVec 38} (h : 0x208400000#38 &&& w = 0x208400000#38) (a0 : Nat) (a1 : Bool) (a2 : Nat) (s : State) :
    (loadFremund a0 a1 a2 s).mask w = s.mask w := by
  refine mask_mono (W := 0x208400000#38) ?_ h
  unfold loadFremund
  repeat' (first | (simp; done) | with_reducible rfl | (refine (mask_foldl (fun t x => ?_) _ _).trans ?_) | split | (dsimp only; split) | (simp; split))

@[simp] theorem bootFremund_mask {w : BitVec 38} (h : 0x248400000#38 &&& w = 0x248400000#38) (s : State) : (bootFremund s).mask w = s.mask w := by
  refine mask_mono (W := 0x248400000#38) ?_ h
  unfold bootFremund
  split
  · rename_i e
    rw [loadFremund_mask (by simp), chooseImage_mask (by simp) _ _ _ _ _ e]
  · simp

@[simp] theorem tryLock_mask {w : BitVec 38} (h : 0x200800000#38 &&& w = 0x200800000#38) (s : State) :
    (tryLock s).1.mask w = s.mask w := by
  refine mask_mono (W := 0x200800000#38) ?_ h
  unfold tryLock
  repeat' (first | (simp; done) | with_reducible rfl | (refine (mask_foldl (fun t x => ?_) _ _).trans ?_) | split | (dsimp only; split) | (simp; split))

@[simp] theorem bootStep_mask {w : BitVec 38} (h : 0x200000000#38 &&& w = 0x200000000#38) (a0 : Nat) (s : State) :
    (bootStep a0 s).mask w = s.mask w := by
  refine mask_mono (W := 0x200000000#38) ?_ h
  unfold bootStep
  repeat' (first | (simp; done) | with_reducible rfl | (refine (mask_foldl (fun t x => ?_) _ _).trans ?_) | split | (dsimp only; split) | (simp; split))

@[simp] theorem runBoot_mask {w : BitVec 38} (h : 0x249c11008#38 &&& w = 0x249c11008#38) (s : State) : (runBoot s).mask w = s.mask w := by
  refine mask_mono (W := 0x249c11008#38) ?_ h
  unfold runBoot
  split
  · rfl
  · dsimp only
    split
    · simp
    · split
      · simp
      · rename_i u hu
        have e := writeRecords_mask (w := 0x249c11008#38) (by simp) _ _ u hu
        split
        · rename_i v hv
          have := tryLock_mask (w := 0x249c11008#38) (by simp) (bootStep 2 { u with prot := { u.prot with protMeasure := measureOf (State.nvmRead (bootStep 1 { s with prot := { s.prot with svnMin := s.minSvn } }) 0x10010 48) } })
          rw [hv] at this
          simp at this e
          simp [this, e]
        · rename_i v hv
          have := tryLock_mask (w := 0x249c11008#38) (by simp) (bootStep 2 { u with prot := { u.prot with protMeasure := measureOf (State.nvmRead (bootStep 1 { s with prot := { s.prot with svnMin := s.minSvn } }) 0x10010 48) } })
          rw [hv] at this
          simp at this e
          simp [this, e]

@[simp] theorem spoilNvm_mask {w : BitVec 38} (h : 0x40000002#38 &&& w = 0x40000002#38) (a0 : NvmReq) (s : State) :
    (spoilNvm a0 s).mask w = s.mask w := by
  refine mask_mono (W := 0x40000002#38) ?_ h
  unfold spoilNvm
  repeat' (first | (simp; done) | with_reducible rfl | (refine (mask_foldl (fun t x => ?_) _ _).trans ?_) | split | (dsimp only; split) | (simp; split))

@[simp] theorem spoilFar_mask {w : BitVec 38} (h : 0x8002#38 &&& w = 0x8002#38) (a0 : Nat) (a1 : FarReq) (s : State) :
    (spoilFar a0 a1 s).mask w = s.mask w := by
  refine mask_mono (W := 0x8002#38) ?_ h
  unfold spoilFar
  repeat' (first | (simp; done) | with_reducible rfl | (refine (mask_foldl (fun t x => ?_) _ _).trans ?_) | split | (dsimp only; split) | (simp; split))

@[simp] theorem endFar_mask {w : BitVec 38} (h : 0x8002#38 &&& w = 0x8002#38) (s : State) :
    (endFar s).mask w = s.mask w := by
  refine mask_mono (W := 0x8002#38) ?_ h
  unfold endFar
  repeat' (first | (simp; done) | with_reducible rfl | (refine (mask_foldl (fun t x => ?_) _ _).trans ?_) | split | (dsimp only; split) | (simp; split))

@[simp] theorem tearEntry_mask {w : BitVec 38} (h : 0x2002#38 &&& w = 0x2002#38) (a0 : Nat) (a1 : WcbEntry) (s : State) :
    (tearEntry a0 a1 s).mask w = s.mask w := by
  refine mask_mono (W := 0x2002#38) ?_ h
  unfold tearEntry
  repeat' (first | (simp; done) | with_reducible rfl | (refine (mask_foldl (fun t x => ?_) _ _).trans ?_) | split | (dsimp only; split) | (simp; split))

@[simp] theorem tearAll_mask {w : BitVec 38} (h : 0x2002#38 &&& w = 0x2002#38) (s : State) :
    (tearAll s).mask w = s.mask w := by
  refine mask_mono (W := 0x2002#38) ?_ h
  unfold tearAll
  repeat' (first | (simp; done) | with_reducible rfl | (refine (mask_foldl (fun t x => ?_) _ _).trans ?_) | split | (dsimp only; split) | (simp; split))

@[simp] theorem loseStacks_mask {w : BitVec 38} (h : 0x2002#38 &&& w = 0x2002#38) (a0 : Nat → Bool) (s : State) :
    (loseStacks a0 s).mask w = s.mask w := by
  refine mask_mono (W := 0x2002#38) ?_ h
  unfold loseStacks
  repeat' (first | (simp; done) | with_reducible rfl | (refine (mask_foldl (fun t x => ?_) _ _).trans ?_) | split | (dsimp only; split) | (simp; split))

@[simp] theorem afterReset_mask {w : BitVec 38} (h : 0x1bfff7ff8#38 &&& w = 0x1bfff7ff8#38) (a0 : Phase) (s : State) :
    (afterReset a0 s).mask w = s.mask w := by
  refine mask_mono (W := 0x1bfff7ff8#38) ?_ h
  unfold afterReset State.mask State.resetOf
  simp

@[simp] theorem cutRequests_mask {w : BitVec 38} (h : 0x40008002#38 &&& w = 0x40008002#38) (s : State) :
    (cutRequests s).mask w = s.mask w := by
  refine mask_mono (W := 0x40008002#38) ?_ h
  unfold cutRequests
  repeat' (first | (simp; done) | with_reducible rfl | (refine (mask_foldl (fun t x => ?_) _ _).trans ?_) | split | (dsimp only; split) | (simp; split))

@[simp] theorem enterTest_mask {w : BitVec 38} (h : 0x20202022#38 &&& w = 0x20202022#38) (s : State) :
    (enterTest s).mask w = s.mask w := by
  refine mask_mono (W := 0x20202022#38) ?_ h
  unfold enterTest
  repeat' (first | (simp; done) | with_reducible rfl | (refine (mask_foldl (fun t x => ?_) _ _).trans ?_) | split | (dsimp only; split) | (simp; split))

@[simp] theorem panicNow_mask {w : BitVec 38} (h : 0x8500000#38 &&& w = 0x8500000#38) (s : State) :
    (panicNow s).mask w = s.mask w := by
  refine mask_mono (W := 0x8500000#38) ?_ h
  unfold panicNow
  repeat' (first | (simp; done) | with_reducible rfl | (refine (mask_foldl (fun t x => ?_) _ _).trans ?_) | split | (dsimp only; split) | (simp; split))

@[simp] theorem fenceFailed_mask {w : BitVec 38} (h : 0x27005f0#38 &&& w = 0x27005f0#38) (a0 : SelfTestResult) (s : State) :
    (fenceFailed a0 s).mask w = s.mask w := by
  refine mask_mono (W := 0x27005f0#38) ?_ h
  unfold fenceFailed
  repeat' (first | (simp; done) | with_reducible rfl | (refine (mask_foldl (fun t x => ?_) _ _).trans ?_) | split | (dsimp only; split) | (simp; split))

@[simp] theorem zeroiseAll_mask {w : BitVec 38} (h : 0x30#38 &&& w = 0x30#38) (s : State) :
    (zeroiseAll s).mask w = s.mask w := by
  refine mask_mono (W := 0x30#38) ?_ h
  unfold zeroiseAll
  repeat' (first | (simp; done) | with_reducible rfl | (refine (mask_foldl (fun t x => ?_) _ _).trans ?_) | split | (dsimp only; split) | (simp; split))

@[simp] theorem trainChannel_mask {w : BitVec 38} (h : 0x2702000#38 &&& w = 0x2702000#38) (a0 : Nat) (a1 : Option Nat) (s : State) :
    (trainChannel a0 a1 s).mask w = s.mask w := by
  refine mask_mono (W := 0x2702000#38) ?_ h
  unfold trainChannel
  repeat' (first | (simp; done) | with_reducible rfl | (refine (mask_foldl (fun t x => ?_) _ _).trans ?_) | split | (dsimp only; split) | (simp; split))

@[simp] theorem trainStack_mask {w : BitVec 38} (h : 0x402706000#38 &&& w = 0x402706000#38) (a0 : Nat) (a1 : StackTraining) (s : State) :
    (trainStack a0 a1 s).mask w = s.mask w := by
  refine mask_mono (W := 0x402706000#38) ?_ h
  unfold trainStack
  repeat' (first | (simp; done) | with_reducible rfl | (refine (mask_foldl (fun t x => ?_) _ _).trans ?_) | split | (dsimp only; split) | (simp; split))

@[simp] theorem tripTrained_mask {w : BitVec 38} (h : 0x2a722010#38 &&& w = 0x2a722010#38) (s : State) :
    (tripTrained s).mask w = s.mask w := by
  refine mask_mono (W := 0x2a722010#38) ?_ h
  unfold tripTrained
  repeat' (first | (simp; done) | with_reducible rfl | (refine (mask_foldl (fun t x => ?_) _ _).trans ?_) | split | (dsimp only; split) | (simp; split))

@[simp] theorem latchFw_mask {w : BitVec 38} (h : 0x2000000000#38 &&& w = 0x2000000000#38) (s : State) : (latchFw s).mask w = s.mask w := by
  refine mask_mono (W := 0x2000000000#38) ?_ h
  unfold latchFw
  refine mask_foldl (fun t n => ?_) _ _
  dsimp only
  split
  · exact mask_setRegion_list _ _ (by simp) rfl
  · rfl

@[simp] theorem openRings_mask {w : BitVec 38} (h : 0x100000#38 &&& w = 0x100000#38) (s : State) :
    (openRings s).mask w = s.mask w := by
  refine mask_mono (W := 0x100000#38) ?_ h
  unfold openRings
  repeat' (first | (simp; done) | with_reducible rfl | (refine (mask_foldl (fun t x => ?_) _ _).trans ?_) | split | (dsimp only; split) | (simp; split))

@[simp] theorem postEarly_mask {w : BitVec 38} (h : 0x700000#38 &&& w = 0x700000#38) (s : State) :
    (postEarly s).mask w = s.mask w := by
  refine mask_mono (W := 0x700000#38) ?_ h
  unfold postEarly
  repeat' (first | (simp; done) | with_reducible rfl | (refine (mask_foldl (fun t x => ?_) _ _).trans ?_) | split | (dsimp only; split) | (simp; split))

@[simp] theorem eraseSlot_mask {w : BitVec 38} (h : 0x40000000#38 &&& w = 0x40000000#38) (a0 : Nat) (s : State) :
    (eraseSlot a0 s).mask w = s.mask w := by
  refine mask_mono (W := 0x40000000#38) ?_ h
  unfold eraseSlot
  repeat' (first | (simp; done) | with_reducible rfl | (refine (mask_foldl (fun t x => ?_) _ _).trans ?_) | split | (dsimp only; split) | (simp; split))

@[simp] theorem stageBytes_mask {w : BitVec 38} (h : 0x40000000#38 &&& w = 0x40000000#38) (a0 : Nat) (a1 : Nat) (a2 : List Byte) (s : State) :
    (stageBytes a0 a1 a2 s).mask w = s.mask w := by
  refine mask_mono (W := 0x40000000#38) ?_ h
  unfold stageBytes
  repeat' (first | (simp; done) | with_reducible rfl | (refine (mask_foldl (fun t x => ?_) _ _).trans ?_) | split | (dsimp only; split) | (simp; split))

@[simp] theorem clearFremund_mask {w : BitVec 38} (h : 0x80440ed0#38 &&& w = 0x80440ed0#38) (s : State) :
    (clearFremund s).mask w = s.mask w := by
  refine mask_mono (W := 0x80440ed0#38) ?_ h
  unfold clearFremund
  repeat' (first | (simp; done) | with_reducible rfl | (refine (mask_foldl (fun t x => ?_) _ _).trans ?_) | split | (dsimp only; split) | (simp; split))

@[simp] theorem restartCluster_mask {w : BitVec 38} (h : 0x2c8540ed0#38 &&& w = 0x2c8540ed0#38) (s : State) :
    (restartCluster s).mask w = s.mask w := by
  refine mask_mono (W := 0x2c8540ed0#38) ?_ h
  unfold restartCluster
  repeat' (first | (simp; done) | with_reducible rfl | (refine (mask_foldl (fun t x => ?_) _ _).trans ?_) | split | (dsimp only; split) | (simp; split))

@[simp] theorem resumeCore_mask {w : BitVec 38} (h : 0x20#38 &&& w = 0x20#38) (a0 : Nat) (s : State) :
    (resumeCore a0 s).mask w = s.mask w := by
  refine mask_mono (W := 0x20#38) ?_ h
  unfold resumeCore
  repeat' (first | (simp; done) | with_reducible rfl | (refine (mask_foldl (fun t x => ?_) _ _).trans ?_) | split | (dsimp only; split) | (simp; split))

@[simp] theorem wakeResumes_mask {w : BitVec 38} (h : 0x300030#38 &&& w = 0x300030#38) (a0 : Nat) (s : State) :
    (wakeResumes a0 s).mask w = s.mask w := by
  refine mask_mono (W := 0x300030#38) ?_ h
  unfold wakeResumes
  repeat' (first | (simp; done) | with_reducible rfl | (refine (mask_foldl (fun t x => ?_) _ _).trans ?_) | split | (dsimp only; split) | (simp; split))

@[simp] theorem writeAcmCtrl_mask {w : BitVec 38} (h : 0x410000000#38 &&& w = 0x410000000#38) (a0 : Nat) (s : State) :
    (writeAcmCtrl a0 s).mask w = s.mask w := by
  refine mask_mono (W := 0x410000000#38) ?_ h
  unfold writeAcmCtrl
  repeat' (first | (simp; done) | with_reducible rfl | (refine (mask_foldl (fun t x => ?_) _ _).trans ?_) | split | (dsimp only; split) | (simp; split))

@[simp] theorem writeSpmCtrl_mask {w : BitVec 38} (h : 0x410000000#38 &&& w = 0x410000000#38) (a0 : Nat) (s : State) :
    (writeSpmCtrl a0 s).mask w = s.mask w := by
  refine mask_mono (W := 0x410000000#38) ?_ h
  unfold writeSpmCtrl
  repeat' (first | (simp; done) | with_reducible rfl | (refine (mask_foldl (fun t x => ?_) _ _).trans ?_) | split | (dsimp only; split) | (simp; split))

@[simp] theorem debugParity_mask {w : BitVec 38} (h : 0x700030#38 &&& w = 0x700030#38) (a0 : Nat) (a1 : Nat) (a2 : Option Nat) (s : State) :
    (debugParity a0 a1 a2 s).mask w = s.mask w := by
  refine mask_mono (W := 0x700030#38) ?_ h
  unfold debugParity
  repeat' (first | (simp; done) | with_reducible rfl | (refine (mask_foldl (fun t x => ?_) _ _).trans ?_) | split | (dsimp only; split) | (simp; split))

@[simp] theorem latchRead_mask {w : BitVec 38} (h : 0x100000000#38 &&& w = 0x100000000#38) (a0 : Nat) (a1 : Nat) (s : State) :
    (latchRead a0 a1 s).mask w = s.mask w := by
  refine mask_mono (W := 0x100000000#38) ?_ h
  unfold latchRead
  repeat' (first | (simp; done) | with_reducible rfl | (refine (mask_foldl (fun t x => ?_) _ _).trans ?_) | split | (dsimp only; split) | (simp; split))

@[simp] theorem writeSpmCstat_mask {w : BitVec 38} (h : 0x20#38 &&& w = 0x20#38) (a0 : Nat) (a1 : Nat) (s : State) :
    (writeSpmCstat a0 a1 s).mask w = s.mask w := by
  refine mask_mono (W := 0x20#38) ?_ h
  unfold writeSpmCstat
  repeat' (first | (simp; done) | with_reducible rfl | (refine (mask_foldl (fun t x => ?_) _ _).trans ?_) | split | (dsimp only; split) | (simp; split))

@[simp] theorem writeSpmCsat_mask {w : BitVec 38} (h : 0x20#38 &&& w = 0x20#38) (a0 : Nat) (a1 : Nat) (s : State) :
    (writeSpmCsat a0 a1 s).mask w = s.mask w := by
  refine mask_mono (W := 0x20#38) ?_ h
  unfold writeSpmCsat
  repeat' (first | (simp; done) | with_reducible rfl | (refine (mask_foldl (fun t x => ?_) _ _).trans ?_) | split | (dsimp only; split) | (simp; split))

@[simp] theorem writeStallCstat_mask {w : BitVec 38} (h : 0x20#38 &&& w = 0x20#38) (a0 : Nat) (a1 : Nat) (s : State) :
    (writeStallCstat a0 a1 s).mask w = s.mask w := by
  refine mask_mono (W := 0x20#38) ?_ h
  unfold writeStallCstat
  repeat' (first | (simp; done) | with_reducible rfl | (refine (mask_foldl (fun t x => ?_) _ _).trans ?_) | split | (dsimp only; split) | (simp; split))

@[simp] theorem writeMcCstat_mask {w : BitVec 38} (h : 0x2000#38 &&& w = 0x2000#38) (a0 : Nat) (a1 : Nat) (s : State) :
    (writeMcCstat a0 a1 s).mask w = s.mask w := by
  refine mask_mono (W := 0x2000#38) ?_ h
  unfold writeMcCstat
  repeat' (first | (simp; done) | with_reducible rfl | (refine (mask_foldl (fun t x => ?_) _ _).trans ?_) | split | (dsimp only; split) | (simp; split))

@[simp] theorem writeTrCstat_mask {w : BitVec 38} (h : 0x40#38 &&& w = 0x40#38) (a0 : Nat) (a1 : Nat) (s : State) :
    (writeTrCstat a0 a1 s).mask w = s.mask w := by
  refine mask_mono (W := 0x40#38) ?_ h
  unfold writeTrCstat
  repeat' (first | (simp; done) | with_reducible rfl | (refine (mask_foldl (fun t x => ?_) _ _).trans ?_) | split | (dsimp only; split) | (simp; split))

@[simp] theorem writeFqCstat_mask {w : BitVec 38} (h : 0x400#38 &&& w = 0x400#38) (a0 : Nat) (s : State) :
    (writeFqCstat a0 s).mask w = s.mask w := by
  refine mask_mono (W := 0x400#38) ?_ h
  unfold writeFqCstat
  repeat' (first | (simp; done) | with_reducible rfl | (refine (mask_foldl (fun t x => ?_) _ _).trans ?_) | split | (dsimp only; split) | (simp; split))

@[simp] theorem writeLkCstat_mask {w : BitVec 38} (h : 0x20000#38 &&& w = 0x20000#38) (a0 : Nat) (a1 : Nat) (s : State) :
    (writeLkCstat a0 a1 s).mask w = s.mask w := by
  refine mask_mono (W := 0x20000#38) ?_ h
  unfold writeLkCstat
  repeat' (first | (simp; done) | with_reducible rfl | (refine (mask_foldl (fun t x => ?_) _ _).trans ?_) | split | (dsimp only; split) | (simp; split))

@[simp] theorem writeCeCstat_mask {w : BitVec 38} (h : 0x80000#38 &&& w = 0x80000#38) (a0 : Nat) (s : State) :
    (writeCeCstat a0 s).mask w = s.mask w := by
  refine mask_mono (W := 0x80000#38) ?_ h
  unfold writeCeCstat
  repeat' (first | (simp; done) | with_reducible rfl | (refine (mask_foldl (fun t x => ?_) _ _).trans ?_) | split | (dsimp only; split) | (simp; split))

@[simp] theorem writePcntCstat_mask {w : BitVec 38} (h : 0x10#38 &&& w = 0x10#38) (a0 : Nat) (a1 : Nat) (s : State) :
    (writePcntCstat a0 a1 s).mask w = s.mask w := by
  refine mask_mono (W := 0x10#38) ?_ h
  unfold writePcntCstat
  repeat' (first | (simp; done) | with_reducible rfl | (refine (mask_foldl (fun t x => ?_) _ _).trans ?_) | split | (dsimp only; split) | (simp; split))

@[simp] theorem writeBlkCstat_mask {w : BitVec 38} (h : 0x4000000#38 &&& w = 0x4000000#38) (a0 : Nat) (s : State) :
    (writeBlkCstat a0 s).mask w = s.mask w := by
  refine mask_mono (W := 0x4000000#38) ?_ h
  unfold writeBlkCstat
  repeat' (first | (simp; done) | with_reducible rfl | (refine (mask_foldl (fun t x => ?_) _ _).trans ?_) | split | (dsimp only; split) | (simp; split))

@[simp] theorem writeHpfStat_mask {w : BitVec 38} (h : 0x200000000#38 &&& w = 0x200000000#38) (a0 : Nat) (s : State) :
    (writeHpfStat a0 s).mask w = s.mask w := by
  refine mask_mono (W := 0x200000000#38) ?_ h
  unfold writeHpfStat
  repeat' (first | (simp; done) | with_reducible rfl | (refine (mask_foldl (fun t x => ?_) _ _).trans ?_) | split | (dsimp only; split) | (simp; split))

@[simp] theorem writeProtViol_mask {w : BitVec 38} (h : 0x200000000#38 &&& w = 0x200000000#38) (a0 : Nat) (s : State) :
    (writeProtViol a0 s).mask w = s.mask w := by
  refine mask_mono (W := 0x200000000#38) ?_ h
  unfold writeProtViol
  repeat' (first | (simp; done) | with_reducible rfl | (refine (mask_foldl (fun t x => ?_) _ _).trans ?_) | split | (dsimp only; split) | (simp; split))

@[simp] theorem modTelem_mask {w : BitVec 38} (h : 0x10#38 &&& w = 0x10#38) (a0 : Nat) (a1 : Telem → Telem) (s : State) :
    (modTelem a0 a1 s).mask w = s.mask w := by
  refine mask_mono (W := 0x10#38) ?_ h
  unfold modTelem
  repeat' (first | (simp; done) | with_reducible rfl | (refine (mask_foldl (fun t x => ?_) _ _).trans ?_) | split | (dsimp only; split) | (simp; split))

@[simp] theorem writeTelemCtrl_mask {w : BitVec 38} (h : 0x10#38 &&& w = 0x10#38) (a0 : Nat) (a1 : Nat) (s : State) :
    (writeTelemCtrl a0 a1 s).mask w = s.mask w := by
  refine mask_mono (W := 0x10#38) ?_ h
  unfold writeTelemCtrl
  repeat' (first | (simp; done) | with_reducible rfl | (refine (mask_foldl (fun t x => ?_) _ _).trans ?_) | split | (dsimp only; split) | (simp; split))

@[simp] theorem writeTelemBase_mask {w : BitVec 38} (h : 0x10#38 &&& w = 0x10#38) (a0 : Nat) (a1 : Bool) (a2 : Nat) (s : State) :
    (writeTelemBase a0 a1 a2 s).mask w = s.mask w := by
  refine mask_mono (W := 0x10#38) ?_ h
  unfold writeTelemBase
  repeat' (first | (simp; done) | with_reducible rfl | (refine (mask_foldl (fun t x => ?_) _ _).trans ?_) | split | (dsimp only; split) | (simp; split))

@[simp] theorem writeTelemTail_mask {w : BitVec 38} (h : 0x10#38 &&& w = 0x10#38) (a0 : Nat) (a1 : Nat) (s : State) :
    (writeTelemTail a0 a1 s).mask w = s.mask w := by
  refine mask_mono (W := 0x10#38) ?_ h
  unfold writeTelemTail
  repeat' (first | (simp; done) | with_reducible rfl | (refine (mask_foldl (fun t x => ?_) _ _).trans ?_) | split | (dsimp only; split) | (simp; split))

@[simp] theorem writeTelemStat_mask {w : BitVec 38} (h : 0x10#38 &&& w = 0x10#38) (a0 : Nat) (a1 : Nat) (s : State) :
    (writeTelemStat a0 a1 s).mask w = s.mask w := by
  refine mask_mono (W := 0x10#38) ?_ h
  unfold writeTelemStat
  repeat' (first | (simp; done) | with_reducible rfl | (refine (mask_foldl (fun t x => ?_) _ _).trans ?_) | split | (dsimp only; split) | (simp; split))

@[simp] theorem writePartReg_mask {w : BitVec 38} (h : 0x10#38 &&& w = 0x10#38) (a0 : Nat) (a1 : Nat) (a2 : Nat) (s : State) :
    (writePartReg a0 a1 a2 s).mask w = s.mask w := by
  refine mask_mono (W := 0x10#38) ?_ h
  unfold writePartReg
  repeat' (first | (simp; done) | with_reducible rfl | (refine (mask_foldl (fun t x => ?_) _ _).trans ?_) | split | (dsimp only; split) | (simp; split))

@[simp] theorem writeBlockReg_mask {w : BitVec 38} (h : 0x1800400000#38 &&& w = 0x1800400000#38) (a0 : Nat) (a1 : Nat) (s : State) :
    (writeBlockReg a0 a1 s).mask w = s.mask w := by
  refine mask_mono (W := 0x1800400000#38) ?_ h
  unfold writeBlockReg
  repeat' (first | (simp; done) | with_reducible rfl | (refine (mask_foldl (fun t x => ?_) _ _).trans ?_) | split | (dsimp only; split) | (simp; split))

@[simp] theorem writeAcmStat_mask {w : BitVec 38} (h : 0x10000000#38 &&& w = 0x10000000#38) (a0 : Nat) (s : State) :
    (writeAcmStat a0 s).mask w = s.mask w := by
  refine mask_mono (W := 0x10000000#38) ?_ h
  unfold writeAcmStat
  repeat' (first | (simp; done) | with_reducible rfl | (refine (mask_foldl (fun t x => ?_) _ _).trans ?_) | split | (dsimp only; split) | (simp; split))

@[simp] theorem writeSpmStat_mask {w : BitVec 38} (h : 0x10000000#38 &&& w = 0x10000000#38) (a0 : Nat) (s : State) :
    (writeSpmStat a0 s).mask w = s.mask w := by
  refine mask_mono (W := 0x10000000#38) ?_ h
  unfold writeSpmStat
  repeat' (first | (simp; done) | with_reducible rfl | (refine (mask_foldl (fun t x => ?_) _ _).trans ?_) | split | (dsimp only; split) | (simp; split))

@[simp] theorem writeDebugReg_mask {w : BitVec 38} (h : 0x410000000#38 &&& w = 0x410000000#38) (a0 : Nat) (a1 : Nat) (s : State) :
    (writeDebugReg a0 a1 s).mask w = s.mask w := by
  refine mask_mono (W := 0x410000000#38) ?_ h
  unfold writeDebugReg
  repeat' (first | (simp; done) | with_reducible rfl | (refine (mask_foldl (fun t x => ?_) _ _).trans ?_) | split | (dsimp only; split) | (simp; split))

@[simp] theorem writeReg_mask {w : BitVec 38} (h : 0x1e147a2470#38 &&& w = 0x1e147a2470#38) (a0 : Nat) (a1 : Nat) (s : State) :
    (writeReg a0 a1 s).mask w = s.mask w := by
  refine mask_mono (W := 0x1e147a2470#38) ?_ h
  unfold writeReg
  repeat' (first | (simp; done) | with_reducible rfl | (refine (mask_foldl (fun t x => ?_) _ _).trans ?_) | split | (dsimp only; split) | (simp; split))

@[simp] theorem writeRingBytes_mask {w : BitVec 38} (h : 0x200000#38 &&& w = 0x200000#38) (a0 : Nat) (a1 : BitVec 64) (a2 : BitVec 512) (s : State) :
    (writeRingBytes a0 a1 a2 s).mask w = s.mask w := by
  refine mask_mono (W := 0x200000#38) ?_ h
  unfold writeRingBytes
  repeat' (first | (simp; done) | with_reducible rfl | (refine (mask_foldl (fun t x => ?_) _ _).trans ?_) | split | (dsimp only; split) | (simp; split))

end Sys2Proof.Machine
end

