-- ==== Sys2Proof/Laws/Cmds.lean ====
section
/-! SUPPORT. The operations that leave every ring's commands as they are: the open list, the place of the next completion, the state and
whether CIF_VERSION has been read (R458 to R471). -/

namespace Sys2Proof.Machine

/-- What starting and completing commands depends on, by ring. -/
def cmdsOf (m : KMap Ring) : Nat → List OpenCmd × BitVec 16 × RingState × Bool :=
  fun r => let g := kget Ring.reset m r; (g.opened, g.ctail, g.state, g.versionRead)

theorem cmds_of_mask {s t : State} (h : t.mask 0x3fffefffff#38 = s.mask 0x3fffefffff#38) : cmdsOf t.rings = cmdsOf s.rings :=
  congrArg cmdsOf (same_of_mask h .rings (by decide))

theorem cmds_foldl {β : Type} {f : State → β → State} (h : ∀ t x, cmdsOf (f t x).rings = cmdsOf t.rings) (l : List β) (s : State) :
    cmdsOf (l.foldl f s).rings = cmdsOf s.rings := by
  induction l generalizing s with
  | nil => rfl
  | cons a l ih => rw [List.foldl_cons, ih, h]

theorem cmdsOf_kset (m : KMap Ring) (r : Nat) (g : Ring) (h : (g.opened, g.ctail, g.state, g.versionRead) = cmdsOf m r) :
    cmdsOf (kset Ring.reset m r g) = cmdsOf m := by
  funext k
  by_cases e : k = r
  · subst e; rw [← h]; simp [cmdsOf]
  · simp [cmdsOf, kget_kset, e]

@[simp] theorem setRing_cmds (s : State) (r : Nat) (g : Ring) (h : (g.opened, g.ctail, g.state, g.versionRead) = cmdsOf s.rings r) :
    cmdsOf (s.setRing r g).rings = cmdsOf s.rings := cmdsOf_kset s.rings r g h

@[simp] theorem State.setPart_cmds (s : State) (a0 : ℕ) (a1 : Part) : cmdsOf (State.setPart s a0 a1).rings = cmdsOf s.rings :=
  cmds_of_mask (State.setPart_mask (by decide) s a0 a1)

@[simp] theorem State.modPart_cmds (s : State) (a0 : ℕ) (a1 : Part → Part) : cmdsOf (State.modPart s a0 a1).rings = cmdsOf s.rings :=
  cmds_of_mask (State.modPart_mask (by decide) s a0 a1)

@[simp] theorem State.setCore_cmds (s : State) (a0 : ℕ) (a1 : Core) : cmdsOf (State.setCore s a0 a1).rings = cmdsOf s.rings :=
  cmds_of_mask (State.setCore_mask (by decide) s a0 a1)

@[simp] theorem State.modCore_cmds (s : State) (a0 : ℕ) (a1 : Core → Core) : cmdsOf (State.modCore s a0 a1).rings = cmdsOf s.rings :=
  cmds_of_mask (State.modCore_mask (by decide) s a0 a1)

@[simp] theorem State.setUnit_cmds (s : State) (a0 : ℕ) (a1 : SetUnits) : cmdsOf (State.setUnit s a0 a1).rings = cmdsOf s.rings :=
  cmds_of_mask (State.setUnit_mask (by decide) s a0 a1)

@[simp] theorem State.modUnit_cmds (s : State) (a0 : ℕ) (a1 : SetUnits → SetUnits) : cmdsOf (State.modUnit s a0 a1).rings = cmdsOf s.rings :=
  cmds_of_mask (State.modUnit_mask (by decide) s a0 a1)

@[simp] theorem State.setClm_cmds (s : State) (a0 : ℕ) (a1 : Clm) : cmdsOf (State.setClm s a0 a1).rings = cmdsOf s.rings :=
  cmds_of_mask (State.setClm_mask (by decide) s a0 a1)

@[simp] theorem State.setStream_cmds (s : State) (a0 : ℕ) (a1 : Stream) : cmdsOf (State.setStream s a0 a1).rings = cmdsOf s.rings :=
  cmds_of_mask (State.setStream_mask (by decide) s a0 a1)

@[simp] theorem State.modStream_cmds (s : State) (a0 : ℕ) (a1 : Stream → Stream) : cmdsOf (State.modStream s a0 a1).rings = cmdsOf s.rings :=
  cmds_of_mask (State.modStream_mask (by decide) s a0 a1)

@[simp] theorem State.setSeq_cmds (s : State) (a0 : ℕ) (a1 : Seq) : cmdsOf (State.setSeq s a0 a1).rings = cmdsOf s.rings :=
  cmds_of_mask (State.setSeq_mask (by decide) s a0 a1)

@[simp] theorem State.setRegion_cmds (s : State) (a0 : ℕ) (a1 : MemRegion) : cmdsOf (State.setRegion s a0 a1).rings = cmdsOf s.rings :=
  cmds_of_mask (State.setRegion_mask (by decide) s a0 a1)

@[simp] theorem State.setChannel_cmds (s : State) (a0 : ℕ) (a1 : Channel) : cmdsOf (State.setChannel s a0 a1).rings = cmdsOf s.rings :=
  cmds_of_mask (State.setChannel_mask (by decide) s a0 a1)

@[simp] theorem State.modChannel_cmds (s : State) (a0 : ℕ) (a1 : Channel → Channel) : cmdsOf (State.modChannel s a0 a1).rings = cmdsOf s.rings :=
  cmds_of_mask (State.modChannel_mask (by decide) s a0 a1)

@[simp] theorem State.setStack_cmds (s : State) (a0 : ℕ) (a1 : Stack) : cmdsOf (State.setStack s a0 a1).rings = cmdsOf s.rings :=
  cmds_of_mask (State.setStack_mask (by decide) s a0 a1)

@[simp] theorem State.modStack_cmds (s : State) (a0 : ℕ) (a1 : Stack → Stack) : cmdsOf (State.modStack s a0 a1).rings = cmdsOf s.rings :=
  cmds_of_mask (State.modStack_mask (by decide) s a0 a1)

@[simp] theorem State.setFar_cmds (s : State) (a0 : ℕ) (a1 : FarPort) : cmdsOf (State.setFar s a0 a1).rings = cmdsOf s.rings :=
  cmds_of_mask (State.setFar_mask (by decide) s a0 a1)

@[simp] theorem State.modFar_cmds (s : State) (a0 : ℕ) (a1 : FarPort → FarPort) : cmdsOf (State.modFar s a0 a1).rings = cmdsOf s.rings :=
  cmds_of_mask (State.modFar_mask (by decide) s a0 a1)

@[simp] theorem State.setPort_cmds (s : State) (a0 : ℕ) (a1 : Port) : cmdsOf (State.setPort s a0 a1).rings = cmdsOf s.rings :=
  cmds_of_mask (State.setPort_mask (by decide) s a0 a1)

@[simp] theorem State.modPort_cmds (s : State) (a0 : ℕ) (a1 : Port → Port) : cmdsOf (State.modPort s a0 a1).rings = cmdsOf s.rings :=
  cmds_of_mask (State.modPort_mask (by decide) s a0 a1)

@[simp] theorem putEvent_cmds (r code payload : Nat) (tag : BitVec 16) (s : State) :
    cmdsOf (putEvent r code payload tag s).rings = cmdsOf s.rings := cmdsOf_kset s.rings r _ rfl

@[simp] theorem postEvent_cmds (p code payload : Nat) (s : State) : cmdsOf (postEvent p code payload s).rings = cmdsOf s.rings := by
  unfold postEvent
  dsimp only
  repeat' split
  all_goals first | rfl | (simp; done) | exact cmdsOf_kset s.rings _ _ rfl

@[simp] theorem postEach_cmds (a0 : List ℕ) (a1 : ℕ) (a2 : ℕ) (s : State) : cmdsOf (postEach a0 a1 a2 s).rings = cmdsOf s.rings := by
  unfold postEach
  repeat' (first | (simp; done) | with_reducible rfl | (refine (cmds_foldl (fun t x => ?_) _ _).trans ?_) | split | (dsimp only; split) | (simp; split))

@[simp] theorem postAll_cmds (a0 : ℕ) (a1 : ℕ) (s : State) : cmdsOf (postAll a0 a1 s).rings = cmdsOf s.rings := by
  unfold postAll
  repeat' (first | (simp; done) | with_reducible rfl | (refine (cmds_foldl (fun t x => ?_) _ _).trans ?_) | split | (dsimp only; split) | (simp; split))

@[simp] theorem withHealth_cmds (f : State → State) (s : State) (h : cmdsOf (f s).rings = cmdsOf s.rings) :
    cmdsOf (withHealth f s).rings = cmdsOf s.rings := by
  unfold withHealth
  by_cases e : (f s).healthWord = s.healthWord
  · simp only [e, if_true]; exact h
  · simp only [e, if_false]; rw [postAll_cmds, h]

@[simp] theorem drainBacklog_cmds (p n : Nat) (s : State) : cmdsOf (drainBacklog p n s).rings = cmdsOf s.rings := by
  induction n generalizing s with
  | zero => rfl
  | succ n ih =>
    unfold drainBacklog
    dsimp only
    repeat' split
    all_goals first | rfl | simp [ih]

@[simp] theorem replaceCause_cmds (a0 : ℕ) (s : State) : cmdsOf (replaceCause a0 s).rings = cmdsOf s.rings :=
  cmds_of_mask (replaceCause_mask (by decide) a0 s)

@[simp] theorem satPart_cmds (a0 : ℕ) (a1 : ℕ) (s : State) : cmdsOf (satPart a0 a1 s).rings = cmdsOf s.rings := by
  unfold satPart
  repeat' (first | (simp; done) | with_reducible rfl | (refine (cmds_foldl (fun t x => ?_) _ _).trans ?_) | split | (dsimp only; split) | (simp; split))

@[simp] theorem satAll_cmds (a0 : ℕ) (s : State) : cmdsOf (satAll a0 s).rings = cmdsOf s.rings := by
  unfold satAll
  repeat' (first | (simp; done) | with_reducible rfl | (refine (cmds_foldl (fun t x => ?_) _ _).trans ?_) | split | (dsimp only; split) | (simp; split))

@[simp] theorem satOwned_cmds (a0 : Option ℕ) (a1 : ℕ) (s : State) : cmdsOf (satOwned a0 a1 s).rings = cmdsOf s.rings := by
  unfold satOwned
  repeat' (first | (simp; done) | with_reducible rfl | (refine (cmds_foldl (fun t x => ?_) _ _).trans ?_) | split | (dsimp only; split) | (simp; split))

@[simp] theorem acctAdd_cmds (a0 : ℕ) (a1 : ℕ) (a2 : ℕ) (s : State) : cmdsOf (acctAdd a0 a1 a2 s).rings = cmdsOf s.rings := by
  unfold acctAdd
  repeat' (first | (simp; done) | with_reducible rfl | (refine (cmds_foldl (fun t x => ?_) _ _).trans ?_) | split | (dsimp only; split) | (simp; split))

@[simp] theorem partCount_cmds (a0 : ℕ) (a1 : ℕ) (a2 : ℕ) (s : State) : cmdsOf (partCount a0 a1 a2 s).rings = cmdsOf s.rings := by
  unfold partCount
  repeat' (first | (simp; done) | with_reducible rfl | (refine (cmds_foldl (fun t x => ?_) _ _).trans ?_) | split | (dsimp only; split) | (simp; split))

@[simp] theorem mcCount_cmds (a0 : ℕ) (a1 : ℕ) (a2 : ℕ) (s : State) : cmdsOf (mcCount a0 a1 a2 s).rings = cmdsOf s.rings := by
  unfold mcCount
  repeat' (first | (simp; done) | with_reducible rfl | (refine (cmds_foldl (fun t x => ?_) _ _).trans ?_) | split | (dsimp only; split) | (simp; split))

@[simp] theorem lkCount_cmds (a0 : ℕ) (a1 : ℕ) (a2 : ℕ) (a3 : ℕ) (s : State) : cmdsOf (lkCount a0 a1 a2 a3 s).rings = cmdsOf s.rings := by
  unfold lkCount
  repeat' (first | (simp; done) | with_reducible rfl | (refine (cmds_foldl (fun t x => ?_) _ _).trans ?_) | split | (dsimp only; split) | (simp; split))

@[simp] theorem State.draw_cmds (s : State) : cmdsOf (State.draw s).rings = cmdsOf s.rings :=
  cmds_of_mask (State.draw_mask (by decide) s)

@[simp] theorem addWait_cmds (a0 : ℕ) (a1 : ℕ) (a2 : BitVec 16) (a3 : Wait) (s : State) : cmdsOf (addWait a0 a1 a2 a3 s).rings = cmdsOf s.rings :=
  cmds_of_mask (addWait_mask (by decide) a0 a1 a2 a3 s)

@[simp] theorem modActive_cmds (a0 : ℕ) (a1 : ℕ) (a2 : RunFig → RunFig) (s : State) : cmdsOf (modActive a0 a1 a2 s).rings = cmdsOf s.rings :=
  cmds_of_mask (modActive_mask (by decide) a0 a1 a2 s)

@[simp] theorem askAbort_cmds (a0 : ℕ) (a1 : ℕ) (a2 : AbortCause) (s : State) : cmdsOf (askAbort a0 a1 a2 s).rings = cmdsOf s.rings :=
  cmds_of_mask (askAbort_mask (by decide) a0 a1 a2 s)

@[simp] theorem softRepair_cmds (a0 : ℕ) (a1 : ℕ) (s : State) : cmdsOf (softRepair a0 a1 s).rings = cmdsOf s.rings := by
  unfold softRepair
  repeat' (first | (simp; done) | with_reducible rfl | (refine (cmds_foldl (fun t x => ?_) _ _).trans ?_) | split | (dsimp only; split) | (simp; split))

@[simp] theorem corrected_cmds (a0 : ℕ) (a1 : ℕ) (s : State) : cmdsOf (corrected a0 a1 s).rings = cmdsOf s.rings := by
  simp only [corrected, apply_ite, softRepair_cmds, mcCount_cmds, ite_self]
  rfl

@[simp] theorem uncorrectableAt_cmds (a0 : Bool) (a1 a2 a3 : ℕ) (a4 : List ℕ) (s : State) : cmdsOf (uncorrectableAt a0 a1 a2 a3 a4 s).rings = cmdsOf s.rings := by
  unfold uncorrectableAt
  repeat' (first | (simp; done) | with_reducible rfl | (refine (cmds_foldl (fun t x => ?_) _ _).trans ?_) | split | (dsimp only; split) | (simp; split))

@[simp] theorem uncorrectable_cmds (a0 : ℕ) (a1 : ℕ) (a2 : ℕ) (a3 : List ℕ) (s : State) : cmdsOf (uncorrectable a0 a1 a2 a3 s).rings = cmdsOf s.rings := by
  unfold uncorrectable
  repeat' (first | (simp; done) | with_reducible rfl | (refine (cmds_foldl (fun t x => ?_) _ _).trans ?_) | split | (dsimp only; split) | (simp; split))

@[simp] theorem lostWrite_cmds (a0 : ℕ) (a1 : ℕ) (a2 : ℕ) (a3 : List ℕ) (s : State) : cmdsOf (lostWrite a0 a1 a2 a3 s).rings = cmdsOf s.rings := by
  unfold lostWrite
  repeat' (first | (simp; done) | with_reducible rfl | (refine (cmds_foldl (fun t x => ?_) _ _).trans ?_) | split | (dsimp only; split) | (simp; split))

@[simp] theorem chargeSlots_cmds (ch p n : Nat) (s : State) : cmdsOf (chargeSlots ch p n s).rings = cmdsOf s.rings :=
  cmds_of_mask (chargeSlots_mask (by decide) ch p n s)

@[simp] theorem draw_cmds (s : State) : cmdsOf s.draw.rings = cmdsOf s.rings := rfl

@[simp] theorem evictEntry_cmds (a0 : ℕ) (a1 : WcbEntry) (a2 : Ecc) (s : State) : cmdsOf (evictEntry a0 a1 a2 s).rings = cmdsOf s.rings := by
  unfold evictEntry
  repeat' (first | (simp; done) | with_reducible rfl | (refine (cmds_foldl (fun t x => ?_) _ _).trans ?_) | split | (dsimp only; split) | (simp; split))

@[simp] theorem evictForced_cmds (ch : Nat) (e : WcbEntry) (s : State) : cmdsOf (evictForced ch e s).rings = cmdsOf s.rings := by
  unfold evictForced
  split <;> simp

@[simp] theorem wcbAccept_cmds (a0 : ℕ) (a1 : ℕ) (a2 : ℕ) (a3 : Bool) (a4 : List (ℕ × Byte)) (s : State) : cmdsOf (wcbAccept a0 a1 a2 a3 a4 s).rings = cmdsOf s.rings := by
  unfold wcbAccept
  repeat' (first | (simp; done) | with_reducible rfl | (refine (cmds_foldl (fun t x => ?_) _ _).trans ?_) | split | (dsimp only; split) | (simp; split))

@[simp] theorem flushChannel_cmds (a0 : ℕ) (a1 : WcbEntry → Bool) (s : State) : cmdsOf (flushChannel a0 a1 s).rings = cmdsOf s.rings := by
  unfold flushChannel
  repeat' (first | (simp; done) | with_reducible rfl | (refine (cmds_foldl (fun t x => ?_) _ _).trans ?_) | split | (dsimp only; split) | (simp; split))

@[simp] theorem flushPart_cmds (a0 : ℕ) (s : State) : cmdsOf (flushPart a0 s).rings = cmdsOf s.rings := by
  unfold flushPart
  repeat' (first | (simp; done) | with_reducible rfl | (refine (cmds_foldl (fun t x => ?_) _ _).trans ?_) | split | (dsimp only; split) | (simp; split))

@[simp] theorem flushAll_cmds (s : State) : cmdsOf (flushAll s).rings = cmdsOf s.rings := by
  unfold flushAll
  repeat' (first | (simp; done) | with_reducible rfl | (refine (cmds_foldl (fun t x => ?_) _ _).trans ?_) | split | (dsimp only; split) | (simp; split))

@[simp] theorem chargeFar_cmds (a0 a1 a2 : ℕ) (s : State) : cmdsOf (chargeFar a0 a1 a2 s).rings = cmdsOf s.rings :=
  cmds_of_mask (chargeFar_mask (by decide) a0 a1 a2 s)

@[simp] theorem farPut_cmds (a0 : ℕ) (a1 : ℕ) (a2 : List Byte) (s : State) : cmdsOf (farPut a0 a1 a2 s).rings = cmdsOf s.rings :=
  cmds_of_mask (farPut_mask (by decide) a0 a1 a2 s)

@[simp] theorem fwUncorrectable_cmds (a0 : ℕ) (a1 : ℕ) (a2 : Loc) (s : State) : cmdsOf (fwUncorrectable a0 a1 a2 s).rings = cmdsOf s.rings := by
  unfold fwUncorrectable
  repeat' (first | (simp; done) | with_reducible rfl | (refine (cmds_foldl (fun t x => ?_) _ _).trans ?_) | split | (dsimp only; split) | (simp; split))

@[simp] theorem writePiece_cmds (a0 : ℕ) (a1 : Bool) (a2 : ℕ) (a3 : List Byte) (s : State) : cmdsOf (writePiece a0 a1 a2 a3 s).rings = cmdsOf s.rings := by
  unfold writePiece
  repeat' (first | (simp; done) | with_reducible rfl | (refine (cmds_foldl (fun t x => ?_) _ _).trans ?_) | split | (dsimp only; split) | (simp; split))

@[simp] theorem writeVa_cmds (a0 : ℕ) (a1 : Bool) (a2 : ℕ) (a3 : List Byte) (s : State) : cmdsOf (writeVa a0 a1 a2 a3 s).rings = cmdsOf s.rings := by
  unfold writeVa
  repeat' (first | (simp; done) | with_reducible rfl | (refine (cmds_foldl (fun t x => ?_) _ _).trans ?_) | split | (dsimp only; split) | (simp; split))

@[simp] theorem spmWrite_cmds (a0 : ℕ) (a1 : ℕ) (a2 : List Byte) (s : State) : cmdsOf (spmWrite a0 a1 a2 s).rings = cmdsOf s.rings :=
  cmds_of_mask (spmWrite_mask (by decide) a0 a1 a2 s)

@[simp] theorem countFrameBytes_cmds (a0 : ℕ) (a1 : ℕ) (a2 : ℕ) (s : State) : cmdsOf (countFrameBytes a0 a1 a2 s).rings = cmdsOf s.rings := by
  unfold countFrameBytes
  repeat' (first | (simp; done) | with_reducible rfl | (refine (cmds_foldl (fun t x => ?_) _ _).trans ?_) | split | (dsimp only; split) | (simp; split))

@[simp] theorem pump_cmds (n k : Nat) (s : State) : cmdsOf (pump n k s).rings = cmdsOf s.rings := by
  induction k generalizing s with
  | zero => rfl
  | succ k ih =>
    unfold pump
    dsimp only
    repeat' split
    all_goals first | rfl | simp [ih]

@[simp] theorem queueFrame_cmds (a0 : ℕ) (a1 : ℕ) (a2 : Frame) (s : State) : cmdsOf (queueFrame a0 a1 a2 s).rings = cmdsOf s.rings := by
  unfold queueFrame
  repeat' (first | (simp; done) | with_reducible rfl | (refine (cmds_foldl (fun t x => ?_) _ _).trans ?_) | split | (dsimp only; split) | (simp; split))

@[simp] theorem reportRoute_cmds (a0 : ℕ) (a1 : ℕ) (a2 : ℕ) (s : State) : cmdsOf (reportRoute a0 a1 a2 s).rings = cmdsOf s.rings := by
  unfold reportRoute
  repeat' (first | (simp; done) | with_reducible rfl | (refine (cmds_foldl (fun t x => ?_) _ _).trans ?_) | split | (dsimp only; split) | (simp; split))

@[simp] theorem sendToward_cmds (a0 : ℕ) (a1 : ℕ) (a2 : Frame) (s : State) : cmdsOf (sendToward a0 a1 a2 s).rings = cmdsOf s.rings := by
  unfold sendToward
  repeat' (first | (simp; done) | with_reducible rfl | (refine (cmds_foldl (fun t x => ?_) _ _).trans ?_) | split | (dsimp only; split) | (simp; split))

@[simp] theorem retryFrames_cmds (a0 : ℕ) (s : State) : cmdsOf (retryFrames a0 s).rings = cmdsOf s.rings := by
  unfold retryFrames
  repeat' (first | (simp; done) | with_reducible rfl | (refine (cmds_foldl (fun t x => ?_) _ _).trans ?_) | split | (dsimp only; split) | (simp; split))

@[simp] theorem flood_cmds (a0 : ℕ) (a1 : ℕ) (a2 : List ℕ) (a3 : Frame) (s : State) : cmdsOf (flood a0 a1 a2 a3 s).rings = cmdsOf s.rings := by
  unfold flood
  repeat' (first | (simp; done) | with_reducible rfl | (refine (cmds_foldl (fun t x => ?_) _ _).trans ?_) | split | (dsimp only; split) | (simp; split))

@[simp] theorem nvmWrite_cmds (a0 : ℕ) (a1 : List Byte) (s : State) : cmdsOf (nvmWrite a0 a1 s).rings = cmdsOf s.rings :=
  cmds_of_mask (nvmWrite_mask (by decide) a0 a1 s)

@[simp] theorem snapFail_cmds (a0 : ℕ) (a1 : ℕ) (a2 : ℕ) (a3 : ℕ) (s : State) : cmdsOf (snapFail a0 a1 a2 a3 s).rings = cmdsOf s.rings := by
  unfold snapFail
  repeat' (first | (simp; done) | with_reducible rfl | (refine (cmds_foldl (fun t x => ?_) _ _).trans ?_) | split | (dsimp only; split) | (simp; split))

@[simp] theorem withdrawFault_cmds (a0 : ℕ) (s : State) : cmdsOf (withdrawFault a0 s).rings = cmdsOf s.rings :=
  cmds_of_mask (withdrawFault_mask (by decide) a0 s)

@[simp] theorem unbindStream_cmds (a0 : ℕ) (s : State) : cmdsOf (unbindStream a0 s).rings = cmdsOf s.rings :=
  cmds_of_mask (unbindStream_mask (by decide) a0 s)

@[simp] theorem resumeStream_cmds (a0 : ℕ) (s : State) : cmdsOf (resumeStream a0 s).rings = cmdsOf s.rings :=
  cmds_of_mask (resumeStream_mask (by decide) a0 s)

@[simp] theorem fqCount_cmds (a0 : ℕ) (s : State) : cmdsOf (fqCount a0 s).rings = cmdsOf s.rings := by
  unfold fqCount
  repeat' (first | (simp; done) | with_reducible rfl | (refine (cmds_foldl (fun t x => ?_) _ _).trans ?_) | split | (dsimp only; split) | (simp; split))

@[simp] theorem enqueueFault_cmds (a0 : ℕ) (s : State) : cmdsOf (enqueueFault a0 s).rings = cmdsOf s.rings := by
  unfold enqueueFault
  repeat' (first | (simp; done) | with_reducible rfl | (refine (cmds_foldl (fun t x => ?_) _ _).trans ?_) | split | (dsimp only; split) | (simp; split))

@[simp] theorem retryParked_cmds (a0 : List ℕ) (s : State) : cmdsOf (retryParked a0 s).rings = cmdsOf s.rings := by
  induction a0 generalizing s with
  | nil => rfl
  | cons i more ih =>
    unfold retryParked
    split
    · rfl
    · rw [ih]
      split <;> simp

@[simp] theorem unpark_cmds (s : State) : cmdsOf (unpark  s).rings = cmdsOf s.rings := by
  unfold unpark
  repeat' (first | (simp; done) | with_reducible rfl | (refine (cmds_foldl (fun t x => ?_) _ _).trans ?_) | split | (dsimp only; split) | (simp; split))

@[simp] theorem unbindWhere_cmds (a0 : Stream → Bool) (s : State) : cmdsOf (unbindWhere a0 s).rings = cmdsOf s.rings := by
  unfold unbindWhere
  rw [unpark_cmds]
  repeat' (first | (simp; done) | with_reducible rfl | (refine (cmds_foldl (fun t x => ?_) _ _).trans ?_) | split | (dsimp only; split) | (simp; split))

@[simp] theorem closeWindows_cmds (a0 : ℕ) (a1 : ℕ) (s : State) : cmdsOf (closeWindows a0 a1 s).rings = cmdsOf s.rings :=
  cmds_of_mask (closeWindows_mask (by decide) a0 a1 s)

@[simp] theorem leaveSlots_cmds (a0 : ℕ) (a1 : ℕ) (a2 : List ℕ) (s : State) : cmdsOf (leaveSlots a0 a1 a2 s).rings = cmdsOf s.rings :=
  cmds_of_mask (leaveSlots_mask (by decide) a0 a1 a2 s)

@[simp] theorem clearClms_cmds (a0 : List ℕ) (s : State) : cmdsOf (clearClms a0 s).rings = cmdsOf s.rings :=
  cmds_of_mask (clearClms_mask (by decide) a0 s)

@[simp] theorem endAttempt_cmds (a0 : ℕ) (a1 : ℕ) (a2 : List ℕ) (s : State) : cmdsOf (endAttempt a0 a1 a2 s).rings = cmdsOf s.rings := by
  unfold endAttempt
  repeat' (first | (simp; done) | with_reducible rfl | (refine (cmds_foldl (fun t x => ?_) _ _).trans ?_) | split | (dsimp only; split) | (simp; split))

@[simp] theorem leaveIdle_cmds (s : State) : cmdsOf (leaveIdle s).rings = cmdsOf s.rings :=
  cmds_of_mask (leaveIdle_mask (by decide) s)

@[simp] theorem zeroiseCore_cmds (a0 : ℕ) (s : State) : cmdsOf (zeroiseCore a0 s).rings = cmdsOf s.rings :=
  cmds_of_mask (zeroiseCore_mask (by decide) a0 s)

@[simp] theorem dropFigure_cmds (a0 : ℕ) (a1 : ℕ) (s : State) : cmdsOf (dropFigure a0 a1 s).rings = cmdsOf s.rings := by
  unfold dropFigure
  repeat' (first | (simp; done) | with_reducible rfl | (refine (cmds_foldl (fun t x => ?_) _ _).trans ?_) | split | (dsimp only; split) | (simp; split))

@[simp] theorem countLine_cmds (a0 : ℕ) (a1 : Loc) (s : State) : cmdsOf (countLine a0 a1 s).rings = cmdsOf s.rings := by
  unfold countLine
  repeat' (first | (simp; done) | with_reducible rfl | (refine (cmds_foldl (fun t x => ?_) _ _).trans ?_) | split | (dsimp only; split) | (simp; split))

@[simp] theorem poisonAt_cmds (a0 : Loc) (s : State) : cmdsOf (poisonAt a0 s).rings = cmdsOf s.rings :=
  cmds_of_mask (poisonAt_mask (by decide) a0 s)

@[simp] theorem putLine_cmds (a0 : ℕ) (a1 : Loc) (a2 : List Byte) (s : State) : cmdsOf (putLine a0 a1 a2 s).rings = cmdsOf s.rings := by
  unfold putLine
  repeat' (first | (simp; done) | with_reducible rfl | (refine (cmds_foldl (fun t x => ?_) _ _).trans ?_) | split | (dsimp only; split) | (simp; split))

@[simp] theorem copyLine_cmds (a0 : ℕ) (a1 : Loc) (a2 : Loc) (s : State) : cmdsOf (copyLine a0 a1 a2 s).rings = cmdsOf s.rings := by
  unfold copyLine
  repeat' (first | (simp; done) | with_reducible rfl | (refine (cmds_foldl (fun t x => ?_) _ _).trans ?_) | split | (dsimp only; split) | (simp; split))

@[simp] theorem copyVas_cmds (a0 : ℕ) (a1 : ℕ) (a2 : ℕ) (a3 : ℕ) (s : State) : cmdsOf (copyVas a0 a1 a2 a3 s).rings = cmdsOf s.rings := by
  unfold copyVas
  repeat' (first | (simp; done) | with_reducible rfl | (refine (cmds_foldl (fun t x => ?_) _ _).trans ?_) | split | (dsimp only; split) | (simp; split))

@[simp] theorem modKv_cmds (a0 : ℕ) (a1 : KvPart → KvPart) (s : State) : cmdsOf (modKv a0 a1 s).rings = cmdsOf s.rings :=
  cmds_of_mask (modKv_mask (by decide) a0 a1 s)

@[simp] theorem dropSeqCaches_cmds (a0 : ℕ) (s : State) : cmdsOf (dropSeqCaches a0 s).rings = cmdsOf s.rings :=
  cmds_of_mask (dropSeqCaches_mask (by decide) a0 s)

@[simp] theorem closeSeq_cmds (a0 : ℕ) (s : State) : cmdsOf (closeSeq a0 s).rings = cmdsOf s.rings :=
  cmds_of_mask (closeSeq_mask (by decide) a0 s)

@[simp] theorem withdraw_cmds (a0 : ℕ) (a1 : BitVec 512) (a2 : List ℕ) (s : State) : cmdsOf (withdraw a0 a1 a2 s).rings = cmdsOf s.rings := by
  unfold withdraw
  repeat' (first | (simp; done) | with_reducible rfl | (refine (cmds_foldl (fun t x => ?_) _ _).trans ?_) | split | (dsimp only; split) | (simp; split))

@[simp] theorem trimSeq_cmds (a0 : ℕ) (a1 : ℕ) (s : State) : cmdsOf (trimSeq a0 a1 s).rings = cmdsOf s.rings :=
  cmds_of_mask (trimSeq_mask (by decide) a0 a1 s)

@[simp] theorem switchSeq_cmds (a0 : ℕ) (s : State) : cmdsOf (switchSeq a0 s).rings = cmdsOf s.rings :=
  cmds_of_mask (switchSeq_mask (by decide) a0 s)

@[simp] theorem addAccess_cmds (a0 : ℕ) (a1 : ℕ) (a2 : ℕ) (s : State) : cmdsOf (addAccess a0 a1 a2 s).rings = cmdsOf s.rings :=
  cmds_of_mask (addAccess_mask (by decide) a0 a1 a2 s)

@[simp] theorem dropEntries_cmds (a0 : List TlbEntry) (s : State) : cmdsOf (dropEntries a0 s).rings = cmdsOf s.rings :=
  cmds_of_mask (dropEntries_mask (by decide) a0 s)

@[simp] theorem resumeLegal_cmds (a0 : ℕ) (s : State) : cmdsOf (resumeLegal a0 s).rings = cmdsOf s.rings := by
  unfold resumeLegal
  rw [unpark_cmds]
  repeat' (first | (simp; done) | with_reducible rfl | (refine (cmds_foldl (fun t x => ?_) _ _).trans ?_) | split | (dsimp only; split) | (simp; split))

@[simp] theorem invalidate_cmds (a0 : ℕ) (a1 : ℕ) (a2 : ℕ) (s : State) : cmdsOf (invalidate a0 a1 a2 s).rings = cmdsOf s.rings :=
  cmds_of_mask (invalidate_mask (by decide) a0 a1 a2 s)

@[simp] theorem modSpace_cmds (a0 : ℕ) (a1 : Space → Space) (s : State) : cmdsOf (modSpace a0 a1 s).rings = cmdsOf s.rings :=
  cmds_of_mask (modSpace_mask (by decide) a0 a1 s)

@[simp] theorem copyPage_cmds (a0 : ℕ) (a1 : ℕ) (a2 : Leaf) (a3 : Leaf) (s : State) : cmdsOf (copyPage a0 a1 a2 a3 s).rings = cmdsOf s.rings := by
  unfold copyPage
  repeat' (first | (simp; done) | with_reducible rfl | (refine (cmds_foldl (fun t x => ?_) _ _).trans ?_) | split | (dsimp only; split) | (simp; split))

@[simp] theorem markQueued_cmds (a0 : Intrusive) (a1 : Bool) (s : State) : cmdsOf (markQueued a0 a1 s).rings = cmdsOf s.rings :=
  cmds_of_mask (markQueued_mask (by decide) a0 a1 s)

@[simp] theorem channelFailed_cmds (a0 : ℕ) (s : State) : cmdsOf (channelFailed a0 s).rings = cmdsOf s.rings := by
  unfold channelFailed
  repeat' (first | (simp; done) | with_reducible rfl | (refine (cmds_foldl (fun t x => ?_) _ _).trans ?_) | split | (dsimp only; split) | (simp; split))

@[simp] theorem tripAlarm_cmds (s : State) : cmdsOf (tripAlarm s).rings = cmdsOf s.rings := by
  unfold tripAlarm
  repeat' (first | (simp; done) | with_reducible rfl | (refine (cmds_foldl (fun t x => ?_) _ _).trans ?_) | split | (dsimp only; split) | (simp; split))

@[simp] theorem portFlow_cmds (a0 : ℕ) (s : State) : cmdsOf (portFlow a0 s).rings = cmdsOf s.rings := by
  unfold portFlow
  repeat' (first | (simp; done) | with_reducible rfl | (refine (cmds_foldl (fun t x => ?_) _ _).trans ?_) | split | (dsimp only; split) | (simp; split))

@[simp] theorem portUp_cmds (a0 : Nat) (a1 : BitVec 8) (s : State) : cmdsOf (portUp a0 a1 s).rings = cmdsOf s.rings := by
  unfold portUp
  repeat' (first | (simp; done) | with_reducible rfl | (refine (cmds_foldl (fun t x => ?_) _ _).trans ?_) | split | (dsimp only; split) | (simp; split))

@[simp] theorem tellFailed_cmds (a0 : ℕ) (s : State) : cmdsOf (tellFailed a0 s).rings = cmdsOf s.rings := by
  unfold tellFailed
  repeat' (first | (simp; done) | with_reducible rfl | (refine (cmds_foldl (fun t x => ?_) _ _).trans ?_) | split | (dsimp only; split) | (simp; split))

@[simp] theorem portFailed_cmds (a0 : Nat) (s : State) : cmdsOf (portFailed a0 s).rings = cmdsOf s.rings := by
  unfold portFailed
  repeat' (first | (simp; done) | with_reducible rfl | (refine (cmds_foldl (fun t x => ?_) _ _).trans ?_) | split | (dsimp only; split) | (simp; split))

@[simp] theorem joinItem_cmds (a0 : Intrusive) (a1 : ℕ × BitVec 16) (s : State) : cmdsOf (joinItem a0 a1 s).rings = cmdsOf s.rings :=
  cmds_of_mask (joinItem_mask (by decide) a0 a1 s)

@[simp] theorem setGroups_cmds (a0 : ℕ) (a1 : List (ℕ × Group)) (s : State) : cmdsOf (setGroups a0 a1 s).rings = cmdsOf s.rings :=
  cmds_of_mask (setGroups_mask (by decide) a0 a1 s)

@[simp] theorem imageLost_cmds (a0 : ℕ) (a1 : ℕ) (a2 : ℕ) (s : State) : cmdsOf (imageLost a0 a1 a2 s).rings = cmdsOf s.rings := by
  unfold imageLost
  repeat' (first | (simp; done) | with_reducible rfl | (refine (cmds_foldl (fun t x => ?_) _ _).trans ?_) | split | (dsimp only; split) | (simp; split))

@[simp] theorem setRoutes_cmds (a0 : ℕ) (a1 : ℕ) (a2 : List ℕ) (s : State) : cmdsOf (setRoutes a0 a1 a2 s).rings = cmdsOf s.rings :=
  cmds_of_mask (setRoutes_mask (by decide) a0 a1 a2 s)

@[simp] theorem landPiece_cmds (a0 : ℕ) (a1 : ℕ) (a2 : List Byte) (s : State) : cmdsOf (landPiece a0 a1 a2 s).rings = cmdsOf s.rings := by
  unfold landPiece
  repeat' (first | (simp; done) | with_reducible rfl | (refine (cmds_foldl (fun t x => ?_) _ _).trans ?_) | split | (dsimp only; split) | (simp; split))

@[simp] theorem landBytes_cmds (a0 : ℕ) (a1 : ℕ) (a2 : ℕ) (a3 : List Byte) (s : State) : cmdsOf (landBytes a0 a1 a2 a3 s).rings = cmdsOf s.rings := by
  unfold landBytes
  repeat' (first | (simp; done) | with_reducible rfl | (refine (cmds_foldl (fun t x => ?_) _ _).trans ?_) | split | (dsimp only; split) | (simp; split))

@[simp] theorem drainFaults_cmds (a0 : Option ℕ) (s : State) : cmdsOf (drainFaults a0 s).rings = cmdsOf s.rings := by
  unfold drainFaults
  repeat' (first | (simp; done) | with_reducible rfl | (refine (cmds_foldl (fun t x => ?_) _ _).trans ?_) | split | (dsimp only; split) | (simp; split))

@[simp] theorem latchLists_cmds (a0 : Nat) (s : State) : cmdsOf (latchLists a0 s).rings = cmdsOf s.rings :=
  cmds_of_mask (latchLists_mask (by decide) a0 s)

@[simp] theorem setServed_cmds (a0 : ℕ) (s : State) : cmdsOf (setServed a0 s).rings = cmdsOf s.rings :=
  cmds_of_mask (setServed_mask (by decide) a0 s)

@[simp] theorem removePages_cmds (a0 : ℕ) (a1 : List (ℕ × Leaf)) (s : State) : cmdsOf (removePages a0 a1 s).rings = cmdsOf s.rings :=
  cmds_of_mask (removePages_mask (by decide) a0 a1 s)

@[simp] theorem zeroiseBut_cmds (a0 : ℕ) (a1 : List (ℕ × ℕ)) (s : State) : cmdsOf (zeroiseBut a0 a1 s).rings = cmdsOf s.rings :=
  cmds_of_mask (zeroiseBut_mask (by decide) a0 a1 s)

@[simp] theorem zeroiseForLoad_cmds (a0 : ℕ) (a1 : List Region) (s : State) : cmdsOf (zeroiseForLoad a0 a1 s).rings = cmdsOf s.rings :=
  cmds_of_mask (zeroiseForLoad_mask (by decide) a0 a1 s)

@[simp] theorem installChor_cmds (a0 : ℕ) (a1 : Loaded) (s : State) : cmdsOf (installChor a0 a1 s).rings = cmdsOf s.rings :=
  cmds_of_mask (installChor_mask (by decide) a0 a1 s)

@[simp] theorem drainWrites_cmds (a0 : ℕ) (s : State) : cmdsOf (drainWrites a0 s).rings = cmdsOf s.rings := by
  unfold drainWrites
  repeat' (first | (simp; done) | with_reducible rfl | (refine (cmds_foldl (fun t x => ?_) _ _).trans ?_) | split | (dsimp only; split) | (simp; split))

@[simp] theorem idleCore_cmds (a0 : ℕ) (s : State) : cmdsOf (idleCore a0 s).rings = cmdsOf s.rings :=
  cmds_of_mask (idleCore_mask (by decide) a0 s)

@[simp] theorem abandonSnapshot_cmds (a0 : ℕ) (s : State) : cmdsOf (abandonSnapshot a0 s).rings = cmdsOf s.rings := by
  unfold abandonSnapshot
  repeat' (first | (simp; done) | with_reducible rfl | (refine (cmds_foldl (fun t x => ?_) _ _).trans ?_) | split | (dsimp only; split) | (simp; split))

@[simp] theorem setQuarters_cmds (a0 : ℕ) (a1 : BitVec 4) (s : State) : cmdsOf (setQuarters a0 a1 s).rings = cmdsOf s.rings :=
  cmds_of_mask (setQuarters_mask (by decide) a0 a1 s)

@[simp] theorem powerQuarters_cmds (a0 : ℕ) (a1 : ℕ) (s : State) : cmdsOf (powerQuarters a0 a1 s).rings = cmdsOf s.rings :=
  cmds_of_mask (powerQuarters_mask (by decide) a0 a1 s)

@[simp] theorem grantCredits_cmds (a0 : ℕ) (a1 : Chor) (s : State) : cmdsOf (grantCredits a0 a1 s).rings = cmdsOf s.rings := by
  unfold grantCredits
  repeat' (first | (simp; done) | with_reducible rfl | (refine (cmds_foldl (fun t x => ?_) _ _).trans ?_) | split | (dsimp only; split) | (simp; split))

@[simp] theorem telemDrop_cmds (a0 : ℕ) (s : State) : cmdsOf (telemDrop a0 s).rings = cmdsOf s.rings := by
  unfold telemDrop
  repeat' (first | (simp; done) | with_reducible rfl | (refine (cmds_foldl (fun t x => ?_) _ _).trans ?_) | split | (dsimp only; split) | (simp; split))

@[simp] theorem telemPut_cmds (a0 : ℕ) (a1 : List Byte) (s : State) : cmdsOf (telemPut a0 a1 s).rings = cmdsOf s.rings := by
  unfold telemPut
  repeat' (first | (simp; done) | with_reducible rfl | (refine (cmds_foldl (fun t x => ?_) _ _).trans ?_) | split | (dsimp only; split) | (simp; split))

@[simp] theorem telemFlush_cmds (a0 : ℕ) (s : State) : cmdsOf (telemFlush a0 s).rings = cmdsOf s.rings := by
  unfold telemFlush
  repeat' (first | (simp; done) | with_reducible rfl | (refine (cmds_foldl (fun t x => ?_) _ _).trans ?_) | split | (dsimp only; split) | (simp; split))

@[simp] theorem powerTo_cmds (a0 : ℕ) (s : State) : cmdsOf (powerTo a0 s).rings = cmdsOf s.rings :=
  cmds_of_mask (powerTo_mask (by decide) a0 s)

@[simp] theorem powerToward_cmds (a0 : ℕ) (s : State) : cmdsOf (powerToward a0 s).rings = cmdsOf s.rings :=
  cmds_of_mask (powerToward_mask (by decide) a0 s)

@[simp] theorem keepalivePorts_cmds (s : State) : cmdsOf (keepalivePorts s).rings = cmdsOf s.rings :=
  cmds_of_mask (keepalivePorts_mask (by decide) s)

@[simp] theorem wakePorts_cmds (s : State) : cmdsOf (wakePorts s).rings = cmdsOf s.rings :=
  cmds_of_mask (wakePorts_mask (by decide) s)

@[simp] theorem clearAcm_cmds (s : State) : cmdsOf (clearAcm s).rings = cmdsOf s.rings :=
  cmds_of_mask (clearAcm_mask (by decide) s)

@[simp] theorem sleepDeep_cmds (s : State) : cmdsOf (sleepDeep s).rings = cmdsOf s.rings :=
  cmds_of_mask (sleepDeep_mask (by decide) s)

@[simp] theorem wakeDeep_cmds (s : State) : cmdsOf (wakeDeep s).rings = cmdsOf s.rings := by
  unfold wakeDeep
  repeat' (first | (simp; done) | with_reducible rfl | (refine (cmds_foldl (fun t x => ?_) _ _).trans ?_) | split | (dsimp only; split) | (simp; split))

@[simp] theorem modSnap_cmds (a0 : ℕ) (a1 : Snap → Snap) (s : State) : cmdsOf (modSnap a0 a1 s).rings = cmdsOf s.rings :=
  cmds_of_mask (modSnap_mask (by decide) a0 a1 s)

@[simp] theorem placeSlots_cmds (a0 : ℕ) (a1 : ℕ) (a2 : ℕ) (a3 : ℕ) (s : State) : cmdsOf (placeSlots a0 a1 a2 a3 s).rings = cmdsOf s.rings :=
  cmds_of_mask (placeSlots_mask (by decide) a0 a1 a2 a3 s)

@[simp] theorem countRange_cmds (a0 : ℕ) (a1 : SnapRange) (s : State) : cmdsOf (countRange a0 a1 s).rings = cmdsOf s.rings := by
  unfold countRange
  repeat' (first | (simp; done) | with_reducible rfl | (refine (cmds_foldl (fun t x => ?_) _ _).trans ?_) | split | (dsimp only; split) | (simp; split))

@[simp] theorem tellPartner_cmds (a0 : ℕ) (a1 : ℕ) (a2 : ℕ) (s : State) : cmdsOf (tellPartner a0 a1 a2 s).rings = cmdsOf s.rings := by
  unfold tellPartner
  repeat' (first | (simp; done) | with_reducible rfl | (refine (cmds_foldl (fun t x => ?_) _ _).trans ?_) | split | (dsimp only; split) | (simp; split))

@[simp] theorem copyFailed_cmds (a0 : ℕ) (a1 : ℕ) (s : State) : cmdsOf (copyFailed a0 a1 s).rings = cmdsOf s.rings := by
  unfold copyFailed
  repeat' (first | (simp; done) | with_reducible rfl | (refine (cmds_foldl (fun t x => ?_) _ _).trans ?_) | split | (dsimp only; split) | (simp; split))

@[simp] theorem freeStaging_cmds (a0 : ℕ) (s : State) : cmdsOf (freeStaging a0 s).rings = cmdsOf s.rings :=
  cmds_of_mask (freeStaging_mask (by decide) a0 s)

@[simp] theorem slotFailed_cmds (a0 : ℕ) (s : State) : cmdsOf (slotFailed a0 s).rings = cmdsOf s.rings := by
  unfold slotFailed
  repeat' (first | (simp; done) | with_reducible rfl | (refine (cmds_foldl (fun t x => ?_) _ _).trans ?_) | split | (dsimp only; split) | (simp; split))

@[simp] theorem slotComplete_cmds (a0 : ℕ) (a1 : ℕ) (a2 : List Byte) (s : State) : cmdsOf (slotComplete a0 a1 a2 s).rings = cmdsOf s.rings := by
  unfold slotComplete
  repeat' (first | (simp; done) | with_reducible rfl | (refine (cmds_foldl (fun t x => ?_) _ _).trans ?_) | split | (dsimp only; split) | (simp; split))

@[simp] theorem writeRange_cmds (a0 : ℕ) (a1 : SnapRange) (a2 : List Byte) (s : State) : cmdsOf (writeRange a0 a1 a2 s).rings = cmdsOf s.rings := by
  unfold writeRange
  repeat' (first | (simp; done) | with_reducible rfl | (refine (cmds_foldl (fun t x => ?_) _ _).trans ?_) | split | (dsimp only; split) | (simp; split))

@[simp] theorem spoilRanges_cmds (a0 : ℕ) (a1 : List SnapRange) (s : State) : cmdsOf (spoilRanges a0 a1 s).rings = cmdsOf s.rings := by
  unfold spoilRanges
  repeat' (first | (simp; done) | with_reducible rfl | (refine (cmds_foldl (fun t x => ?_) _ _).trans ?_) | split | (dsimp only; split) | (simp; split))

@[simp] theorem dropWait_cmds (a0 : ℕ) (a1 : Waiting) (s : State) : cmdsOf (dropWait a0 a1 s).rings = cmdsOf s.rings :=
  cmds_of_mask (dropWait_mask (by decide) a0 a1 s)

@[simp] theorem mirrorSentDone_cmds (a0 : ℕ) (s : State) : cmdsOf (mirrorSentDone a0 s).rings = cmdsOf s.rings := by
  unfold mirrorSentDone
  repeat' (first | (simp; done) | with_reducible rfl | (refine (cmds_foldl (fun t x => ?_) _ _).trans ?_) | split | (dsimp only; split) | (simp; split))

@[simp] theorem modBootRec_cmds (a0 : BootRec → BootRec) (s : State) : cmdsOf (modBootRec a0 s).rings = cmdsOf s.rings :=
  cmds_of_mask (modBootRec_mask (by decide) a0 s)

@[simp] theorem eraseSlot_cmds (a0 : ℕ) (s : State) : cmdsOf (eraseSlot a0 s).rings = cmdsOf s.rings :=
  cmds_of_mask (eraseSlot_mask (by decide) a0 s)

@[simp] theorem stageBytes_cmds (a0 : ℕ) (a1 : ℕ) (a2 : List Byte) (s : State) : cmdsOf (stageBytes a0 a1 a2 s).rings = cmdsOf s.rings :=
  cmds_of_mask (stageBytes_mask (by decide) a0 a1 a2 s)

@[simp] theorem resumeCore_cmds (a0 : ℕ) (s : State) : cmdsOf (resumeCore a0 s).rings = cmdsOf s.rings :=
  cmds_of_mask (resumeCore_mask (by decide) a0 s)

@[simp] theorem jobLoad_cmds (p : Nat) (s : State) : cmdsOf (jobLoad p s).1.rings = cmdsOf s.rings := by simp [jobLoad]

@[simp] theorem stopFigures_cmds (p : Nat) (kill : Bool) (s : State) : cmdsOf (stopFigures p kill s).1.rings = cmdsOf s.rings := by
  unfold stopFigures
  refine cmds_foldl (fun t x => ?_) _ _
  dsimp only
  split <;> simp

@[simp] theorem writeRanges_cmds (p : Nat) (rs : List SnapRange) (bs : List Byte) (s : State) :
    cmdsOf (writeRanges p rs bs s).rings = cmdsOf s.rings := by
  induction rs generalizing bs s with
  | nil => rfl
  | cons r l ih => rw [writeRanges, ih, writeRange_cmds]

end Sys2Proof.Machine
end

