-- ==== Sys2Proof/Laws/Commands.lean ====
section
/-! SUPPORT. What each command may change: every meaning answers a next state and keeps what its mask does not name (see Laws/Frame). -/

namespace Sys2Proof.Machine

theorem ordered_keeps {w : BitVec 38} (x : Admit) (f : Option Step → State → Res) (s : State) (hx : ∀ t u, x = .step t u → u.mask w = s.mask w)
    (hf : ∀ t u, Keeps w u (f t u)) : Keeps w s (ordered x f s) := by
  unfold ordered Admit.runs
  cases x with
  | no => exact ⟨_, rfl, rfl⟩
  | free => exact hf _ _
  | step t u =>
    obtain ⟨v, g, m⟩ := hf (some t) u
    exact ⟨v, g, m.trans (hx t u rfl)⟩

theorem orderedOrFree_keeps {w : BitVec 38} (x : Admit) (f : Option Step → State → Res) (s : State)
    (hx : ∀ t u, x = .step t u → u.mask w = s.mask w) (hf : ∀ t u, Keeps w u (f t u)) : Keeps w s (orderedOrFree x f s) := by
  unfold orderedOrFree Admit.runs
  cases x with
  | no => exact hf _ _
  | free => exact hf _ _
  | step t u =>
    obtain ⟨v, g, m⟩ := hf (some t) u
    exact ⟨v, g, m.trans (hx t u rfl)⟩

theorem mxaRun_keeps {w : BitVec 38} (h : 0x700030#38 &&& w = 0x700030#38) (a0 : Nat) (a1 : Nat) (a2 : Nat) (a3 : Nat) (a4 : ArrayOp) (a5 : MxaMeet) (a6 : Option Step) (s : State) :
    Keeps w s (mxaRun a0 a1 a2 a3 a4 a5 a6 s) := by
  refine keeps_mono (W := 0x700030#38) ?_ h
  unfold mxaRun
  repeat' (first | split | (dsimp only; split))
  all_goals (first  | (refine ⟨_, rfl, ?_⟩; repeat' (first | (simp; done) | with_reducible rfl | (refine (mask_foldl (fun t x => ?_) _ _).trans ?_) | (refine runCommand_mask (by decide) _ _ _ _ _ (fun p img t ht => ?_)) | (simp [ht]; done) | exact ht | (refine (hostAccess_mask (by decide) _ _ _ _ (fun t => ?_) _)) | (refine (withHealth_mask _ (fun t => ?_) (by decide) _).trans ?_) | split | (dsimp only; split) | (simp; split))))

theorem execMxaOp_keeps {w : BitVec 38} (h : 0x700030#38 &&& w = 0x700030#38) (a0 : Nat) (a1 : Nat) (a2 : BitVec 64) (a3 : BitVec 64) (a4 : MxaMeet) (s : State) :
    Keeps w s (execMxaOp a0 a1 a2 a3 a4 s) := by
  refine keeps_mono (W := 0x700030#38) ?_ h
  unfold execMxaOp
  repeat' (first | split | (dsimp only; split))
  all_goals (first | exact mxaRun_keeps (by decide) .. | (refine ordered_keeps _ _ _ (fun _ _ e => admit_mask (by decide) e) (fun t u => ?_); (repeat' (first | split | (dsimp only; split))); all_goals (first | exact mxaRun_keeps (by decide) ..)) | (refine ⟨_, rfl, ?_⟩; repeat' (first | (simp; done) | with_reducible rfl | (refine (mask_foldl (fun t x => ?_) _ _).trans ?_) | (refine runCommand_mask (by decide) _ _ _ _ _ (fun p img t ht => ?_)) | (simp [ht]; done) | exact ht | (refine (hostAccess_mask (by decide) _ _ _ _ (fun t => ?_) _)) | (refine (withHealth_mask _ (fun t => ?_) (by decide) _).trans ?_) | split | (dsimp only; split) | (simp; split))))

theorem drainRun_keeps {w : BitVec 38} (h : 0x700030#38 &&& w = 0x700030#38) (a0 : Nat) (a1 : Nat) (a2 : DrainOp) (a3 : Option Step) (s : State) :
    Keeps w s (drainRun a0 a1 a2 a3 s) := by
  refine keeps_mono (W := 0x700030#38) ?_ h
  unfold drainRun
  repeat' (first | split | (dsimp only; split))
  all_goals (first  | (refine ⟨_, rfl, ?_⟩; repeat' (first | (simp; done) | with_reducible rfl | (refine (mask_foldl (fun t x => ?_) _ _).trans ?_) | (refine runCommand_mask (by decide) _ _ _ _ _ (fun p img t ht => ?_)) | (simp [ht]; done) | exact ht | (refine (hostAccess_mask (by decide) _ _ _ _ (fun t => ?_) _)) | (refine (withHealth_mask _ (fun t => ?_) (by decide) _).trans ?_) | split | (dsimp only; split) | (simp; split))))

theorem execAcmDrain_keeps {w : BitVec 38} (h : 0x700030#38 &&& w = 0x700030#38) (a0 : DrainOp) (s : State) :
    Keeps w s (execAcmDrain a0 s) := by
  refine keeps_mono (W := 0x700030#38) ?_ h
  unfold execAcmDrain
  repeat' (first | split | (dsimp only; split))
  all_goals (first | exact drainRun_keeps (by decide) .. | (refine ordered_keeps _ _ _ (fun _ _ e => admit_mask (by decide) e) (fun t u => ?_); (repeat' (first | split | (dsimp only; split))); all_goals (first | exact drainRun_keeps (by decide) ..)) | (refine ⟨_, rfl, ?_⟩; repeat' (first | (simp; done) | with_reducible rfl | (refine (mask_foldl (fun t x => ?_) _ _).trans ?_) | (refine runCommand_mask (by decide) _ _ _ _ _ (fun p img t ht => ?_)) | (simp [ht]; done) | exact ht | (refine (hostAccess_mask (by decide) _ _ _ _ (fun t => ?_) _)) | (refine (withHealth_mask _ (fun t => ?_) (by decide) _).trans ?_) | split | (dsimp only; split) | (simp; split))))

theorem fillRun_keeps {w : BitVec 38} (h : 0x700030#38 &&& w = 0x700030#38) (a0 : Nat) (a1 : Nat) (a2 : FillOp) (a3 : Option Step) (s : State) :
    Keeps w s (fillRun a0 a1 a2 a3 s) := by
  refine keeps_mono (W := 0x700030#38) ?_ h
  unfold fillRun
  repeat' (first | split | (dsimp only; split))
  all_goals (first  | (refine ⟨_, rfl, ?_⟩; repeat' (first | (simp; done) | with_reducible rfl | (refine (mask_foldl (fun t x => ?_) _ _).trans ?_) | (refine runCommand_mask (by decide) _ _ _ _ _ (fun p img t ht => ?_)) | (simp [ht]; done) | exact ht | (refine (hostAccess_mask (by decide) _ _ _ _ (fun t => ?_) _)) | (refine (withHealth_mask _ (fun t => ?_) (by decide) _).trans ?_) | split | (dsimp only; split) | (simp; split))))

theorem execAcmFill_keeps {w : BitVec 38} (h : 0x700030#38 &&& w = 0x700030#38) (a0 : FillOp) (s : State) :
    Keeps w s (execAcmFill a0 s) := by
  refine keeps_mono (W := 0x700030#38) ?_ h
  unfold execAcmFill
  repeat' (first | split | (dsimp only; split))
  all_goals (first | exact fillRun_keeps (by decide) .. | (refine ordered_keeps _ _ _ (fun _ _ e => admit_mask (by decide) e) (fun t u => ?_); (repeat' (first | split | (dsimp only; split))); all_goals (first | exact fillRun_keeps (by decide) ..)) | (refine ⟨_, rfl, ?_⟩; repeat' (first | (simp; done) | with_reducible rfl | (refine (mask_foldl (fun t x => ?_) _ _).trans ?_) | (refine runCommand_mask (by decide) _ _ _ _ _ (fun p img t ht => ?_)) | (simp [ht]; done) | exact ht | (refine (hostAccess_mask (by decide) _ _ _ _ (fun t => ?_) _)) | (refine (withHealth_mask _ (fun t => ?_) (by decide) _).trans ?_) | split | (dsimp only; split) | (simp; split))))

theorem shiftRun_keeps {w : BitVec 38} (h : 0x700030#38 &&& w = 0x700030#38) (a0 : Nat) (a1 : Nat) (a2 : Nat) (a3 : Nat) (a4 : Nat) (a5 : Nat) (a6 : Option Step) (s : State) :
    Keeps w s (shiftRun a0 a1 a2 a3 a4 a5 a6 s) := by
  refine keeps_mono (W := 0x700030#38) ?_ h
  unfold shiftRun
  repeat' (first | split | (dsimp only; split))
  all_goals (first  | (refine ⟨_, rfl, ?_⟩; repeat' (first | (simp; done) | with_reducible rfl | (refine (mask_foldl (fun t x => ?_) _ _).trans ?_) | (refine runCommand_mask (by decide) _ _ _ _ _ (fun p img t ht => ?_)) | (simp [ht]; done) | exact ht | (refine (hostAccess_mask (by decide) _ _ _ _ (fun t => ?_) _)) | (refine (withHealth_mask _ (fun t => ?_) (by decide) _).trans ?_) | split | (dsimp only; split) | (simp; split))))

theorem execAcmShift_keeps {w : BitVec 38} (h : 0x700030#38 &&& w = 0x700030#38) (a0 : Nat) (a1 : Nat) (a2 : Nat) (a3 : Nat) (s : State) :
    Keeps w s (execAcmShift a0 a1 a2 a3 s) := by
  refine keeps_mono (W := 0x700030#38) ?_ h
  unfold execAcmShift
  repeat' (first | split | (dsimp only; split))
  all_goals (first | exact shiftRun_keeps (by decide) .. | (refine ordered_keeps _ _ _ (fun _ _ e => admit_mask (by decide) e) (fun t u => ?_); (repeat' (first | split | (dsimp only; split))); all_goals (first | exact shiftRun_keeps (by decide) ..)) | (refine ⟨_, rfl, ?_⟩; repeat' (first | (simp; done) | with_reducible rfl | (refine (mask_foldl (fun t x => ?_) _ _).trans ?_) | (refine runCommand_mask (by decide) _ _ _ _ _ (fun p img t ht => ?_)) | (simp [ht]; done) | exact ht | (refine (hostAccess_mask (by decide) _ _ _ _ (fun t => ?_) _)) | (refine (withHealth_mask _ (fun t => ?_) (by decide) _).trans ?_) | split | (dsimp only; split) | (simp; split))))

theorem execAcmClear_keeps {w : BitVec 38} (h : 0x20#38 &&& w = 0x20#38) (a0 : Nat) (a1 : Nat) (s : State) :
    Keeps w s (execAcmClear a0 a1 s) := by
  refine keeps_mono (W := 0x20#38) ?_ h
  unfold execAcmClear
  repeat' (first | split | (dsimp only; split))
  all_goals (first  | (refine ⟨_, rfl, ?_⟩; repeat' (first | (simp; done) | with_reducible rfl | (refine (mask_foldl (fun t x => ?_) _ _).trans ?_) | (refine runCommand_mask (by decide) _ _ _ _ _ (fun p img t ht => ?_)) | (simp [ht]; done) | exact ht | (refine (hostAccess_mask (by decide) _ _ _ _ (fun t => ?_) _)) | (refine (withHealth_mask _ (fun t => ?_) (by decide) _).trans ?_) | split | (dsimp only; split) | (simp; split))))

theorem execAcmStatus_keeps {w : BitVec 38} (h : 0x20#38 &&& w = 0x20#38) (a0 : Nat) (a1 : Nat) (a2 : Nat) (s : State) :
    Keeps w s (execAcmStatus a0 a1 a2 s) := by
  refine keeps_mono (W := 0x20#38) ?_ h
  unfold execAcmStatus
  repeat' (first | split | (dsimp only; split))
  all_goals (first  | (refine ⟨_, rfl, ?_⟩; repeat' (first | (simp; done) | with_reducible rfl | (refine (mask_foldl (fun t x => ?_) _ _).trans ?_) | (refine runCommand_mask (by decide) _ _ _ _ _ (fun p img t ht => ?_)) | (simp [ht]; done) | exact ht | (refine (hostAccess_mask (by decide) _ _ _ _ (fun t => ?_) _)) | (refine (withHealth_mask _ (fun t => ?_) (by decide) _).trans ?_) | split | (dsimp only; split) | (simp; split))))

theorem execBeatEdge_keeps {w : BitVec 38} (h : 0x1004720010#38 &&& w = 0x1004720010#38) (a0 : Nat) (s : State) :
    Keeps w s (execBeatEdge a0 s) := by
  refine keeps_mono (W := 0x1004720010#38) ?_ h
  unfold execBeatEdge
  repeat' (first | split | (dsimp only; split))
  all_goals (first  | (refine ⟨_, rfl, ?_⟩; repeat' (first | (simp; done) | with_reducible rfl | (refine (mask_foldl (fun t x => ?_) _ _).trans ?_) | (refine runCommand_mask (by decide) _ _ _ _ _ (fun p img t ht => ?_)) | (simp [ht]; done) | exact ht | (refine (hostAccess_mask (by decide) _ _ _ _ (fun t => ?_) _)) | (refine (withHealth_mask _ (fun t => ?_) (by decide) _).trans ?_) | split | (dsimp only; split) | (simp; split))))

theorem execBeatInsert_keeps {w : BitVec 38} (h : 0x1004720010#38 &&& w = 0x1004720010#38) (s : State) :
    Keeps w s (execBeatInsert s) := by
  refine keeps_mono (W := 0x1004720010#38) ?_ h
  unfold execBeatInsert
  repeat' (first | split | (dsimp only; split))
  all_goals (first  | (refine ⟨_, rfl, ?_⟩; repeat' (first | (simp; done) | with_reducible rfl | (refine (mask_foldl (fun t x => ?_) _ _).trans ?_) | (refine runCommand_mask (by decide) _ _ _ _ _ (fun p img t ht => ?_)) | (simp [ht]; done) | exact ht | (refine (hostAccess_mask (by decide) _ _ _ _ (fun t => ?_) _)) | (refine (withHealth_mask _ (fun t => ?_) (by decide) _).trans ?_) | split | (dsimp only; split) | (simp; split))))

theorem execHoldoverExpiry_keeps {w : BitVec 38} (h : 0x1000700010#38 &&& w = 0x1000700010#38) (s : State) :
    Keeps w s (execHoldoverExpiry s) := by
  refine keeps_mono (W := 0x1000700010#38) ?_ h
  unfold execHoldoverExpiry
  repeat' (first | split | (dsimp only; split))
  all_goals (first  | (refine ⟨_, rfl, ?_⟩; repeat' (first | (simp; done) | with_reducible rfl | (refine (mask_foldl (fun t x => ?_) _ _).trans ?_) | (refine runCommand_mask (by decide) _ _ _ _ _ (fun p img t ht => ?_)) | (simp [ht]; done) | exact ht | (refine (hostAccess_mask (by decide) _ _ _ _ (fun t => ?_) _)) | (refine (withHealth_mask _ (fun t => ?_) (by decide) _).trans ?_) | split | (dsimp only; split) | (simp; split))))

theorem execBeatCountFrame_keeps {w : BitVec 38} (h : 0x1000720010#38 &&& w = 0x1000720010#38) (a0 : Nat) (a1 : BitVec 256) (s : State) :
    Keeps w s (execBeatCountFrame a0 a1 s) := by
  refine keeps_mono (W := 0x1000720010#38) ?_ h
  unfold execBeatCountFrame
  repeat' (first | split | (dsimp only; split))
  all_goals (first  | (refine ⟨_, rfl, ?_⟩; repeat' (first | (simp; done) | with_reducible rfl | (refine (mask_foldl (fun t x => ?_) _ _).trans ?_) | (refine runCommand_mask (by decide) _ _ _ _ _ (fun p img t ht => ?_)) | (simp [ht]; done) | exact ht | (refine (hostAccess_mask (by decide) _ _ _ _ (fun t => ?_) _)) | (refine (withHealth_mask _ (fun t => ?_) (by decide) _).trans ?_) | split | (dsimp only; split) | (simp; split))))

theorem execLateFrame_keeps {w : BitVec 38} (h : 0x1004720010#38 &&& w = 0x1004720010#38) (a0 : Nat) (a1 : Nat) (a2 : Nat) (a3 : Nat) (a4 : Nat) (s : State) :
    Keeps w s (execLateFrame a0 a1 a2 a3 a4 s) := by
  refine keeps_mono (W := 0x1004720010#38) ?_ h
  unfold execLateFrame
  repeat' (first | split | (dsimp only; split))
  all_goals (first  | (refine ⟨_, rfl, ?_⟩; repeat' (first | (simp; done) | with_reducible rfl | (refine (mask_foldl (fun t x => ?_) _ _).trans ?_) | (refine runCommand_mask (by decide) _ _ _ _ _ (fun p img t ht => ?_)) | (simp [ht]; done) | exact ht | (refine (hostAccess_mask (by decide) _ _ _ _ (fun t => ?_) _)) | (refine (withHealth_mask _ (fun t => ?_) (by decide) _).trans ?_) | split | (dsimp only; split) | (simp; split))))

theorem execFigureStalled_keeps {w : BitVec 38} (h : 0x700010#38 &&& w = 0x700010#38) (a0 : Nat) (a1 : Nat) (s : State) :
    Keeps w s (execFigureStalled a0 a1 s) := by
  refine keeps_mono (W := 0x700010#38) ?_ h
  unfold execFigureStalled
  repeat' (first | split | (dsimp only; split))
  all_goals (first  | (refine ⟨_, rfl, ?_⟩; repeat' (first | (simp; done) | with_reducible rfl | (refine (mask_foldl (fun t x => ?_) _ _).trans ?_) | (refine runCommand_mask (by decide) _ _ _ _ _ (fun p img t ht => ?_)) | (simp [ht]; done) | exact ht | (refine (hostAccess_mask (by decide) _ _ _ _ (fun t => ?_) _)) | (refine (withHealth_mask _ (fun t => ?_) (by decide) _).trans ?_) | split | (dsimp only; split) | (simp; split))))

theorem vuApply_keeps {w : BitVec 38} (h : 0x700030#38 &&& w = 0x700030#38) (a0 : Nat) (a1 : Nat) (a2 : List Nat) (a3 : List (Nat × List Byte)) (a4 : Flags) (s : State) :
    Keeps w s (vuApply a0 a1 a2 a3 a4 s) := by
  refine keeps_mono (W := 0x700030#38) ?_ h
  unfold vuApply
  repeat' (first | split | (dsimp only; split))
  all_goals (first  | (refine ⟨_, rfl, ?_⟩; repeat' (first | (simp; done) | with_reducible rfl | (refine (mask_foldl (fun t x => ?_) _ _).trans ?_) | (refine runCommand_mask (by decide) _ _ _ _ _ (fun p img t ht => ?_)) | (simp [ht]; done) | exact ht | (refine (hostAccess_mask (by decide) _ _ _ _ (fun t => ?_) _)) | (refine (withHealth_mask _ (fun t => ?_) (by decide) _).trans ?_) | split | (dsimp only; split) | (simp; split))))

theorem vuArith_keeps {w : BitVec 38} (h : 0x700030#38 &&& w = 0x700030#38) (a0 : ArithOp) (s : State) :
    Keeps w s (vuArith a0 s) := by
  refine keeps_mono (W := 0x700030#38) ?_ h
  unfold vuArith
  repeat' (first | split | (dsimp only; split))
  all_goals (first | exact vuApply_keeps (by decide) .. | (refine ⟨_, rfl, ?_⟩; repeat' (first | (simp; done) | with_reducible rfl | (refine (mask_foldl (fun t x => ?_) _ _).trans ?_) | (refine runCommand_mask (by decide) _ _ _ _ _ (fun p img t ht => ?_)) | (simp [ht]; done) | exact ht | (refine (hostAccess_mask (by decide) _ _ _ _ (fun t => ?_) _)) | (refine (withHealth_mask _ (fun t => ?_) (by decide) _).trans ?_) | split | (dsimp only; split) | (simp; split))))

theorem vuConvert_keeps {w : BitVec 38} (h : 0x700030#38 &&& w = 0x700030#38) (a0 : CvtOp) (s : State) :
    Keeps w s (vuConvert a0 s) := by
  refine keeps_mono (W := 0x700030#38) ?_ h
  unfold vuConvert
  repeat' (first | split | (dsimp only; split))
  all_goals (first | exact vuApply_keeps (by decide) .. | (refine orderedOrFree_keeps _ _ _ (fun _ _ e => admit_mask (by decide) e) (fun t u => ?_); (repeat' (first | split | (dsimp only; split))); all_goals (first | exact vuApply_keeps (by decide) ..)) | (refine ⟨_, rfl, ?_⟩; repeat' (first | (simp; done) | with_reducible rfl | (refine (mask_foldl (fun t x => ?_) _ _).trans ?_) | (refine runCommand_mask (by decide) _ _ _ _ _ (fun p img t ht => ?_)) | (simp [ht]; done) | exact ht | (refine (hostAccess_mask (by decide) _ _ _ _ (fun t => ?_) _)) | (refine (withHealth_mask _ (fun t => ?_) (by decide) _).trans ?_) | split | (dsimp only; split) | (simp; split))))

theorem mapCodes_keeps {w : BitVec 38} (h : 0x700030#38 &&& w = 0x700030#38) (a0 : Nat → Nat × Flags) (a1 : Nat) (a2 : Nat) (a3 : Nat) (a4 : Nat) (a5 : Nat) (s : State) :
    Keeps w s (mapCodes a0 a1 a2 a3 a4 a5 s) := by
  refine keeps_mono (W := 0x700030#38) ?_ h
  unfold mapCodes
  repeat' (first | split | (dsimp only; split))
  all_goals (first | exact vuApply_keeps (by decide) .. | (refine ⟨_, rfl, ?_⟩; repeat' (first | (simp; done) | with_reducible rfl | (refine (mask_foldl (fun t x => ?_) _ _).trans ?_) | (refine runCommand_mask (by decide) _ _ _ _ _ (fun p img t ht => ?_)) | (simp [ht]; done) | exact ht | (refine (hostAccess_mask (by decide) _ _ _ _ (fun t => ?_) _)) | (refine (withHealth_mask _ (fun t => ?_) (by decide) _).trans ?_) | split | (dsimp only; split) | (simp; split))))

theorem execCvtFromE4m3x_keeps {w : BitVec 38} (h : 0x700030#38 &&& w = 0x700030#38) (a0 : Nat) (a1 : Nat) (a2 : Bool) (a3 : Nat) (a4 : Nat) (a5 : Nat) (s : State) :
    Keeps w s (execCvtFromE4m3x a0 a1 a2 a3 a4 a5 s) := by
  refine keeps_mono (W := 0x700030#38) ?_ h
  unfold execCvtFromE4m3x
  repeat' (first | split | (dsimp only; split))
  all_goals (first | exact mapCodes_keeps (by decide) .. | (refine ⟨_, rfl, ?_⟩; repeat' (first | (simp; done) | with_reducible rfl | (refine (mask_foldl (fun t x => ?_) _ _).trans ?_) | (refine runCommand_mask (by decide) _ _ _ _ _ (fun p img t ht => ?_)) | (simp [ht]; done) | exact ht | (refine (hostAccess_mask (by decide) _ _ _ _ (fun t => ?_) _)) | (refine (withHealth_mask _ (fun t => ?_) (by decide) _).trans ?_) | split | (dsimp only; split) | (simp; split))))

theorem execCvtToE4m3x_keeps {w : BitVec 38} (h : 0x700030#38 &&& w = 0x700030#38) (a0 : Nat) (a1 : Nat) (a2 : Bool) (a3 : Nat) (a4 : Nat) (a5 : Nat) (s : State) :
    Keeps w s (execCvtToE4m3x a0 a1 a2 a3 a4 a5 s) := by
  refine keeps_mono (W := 0x700030#38) ?_ h
  unfold execCvtToE4m3x
  repeat' (first | split | (dsimp only; split))
  all_goals (first | exact mapCodes_keeps (by decide) .. | (refine ⟨_, rfl, ?_⟩; repeat' (first | (simp; done) | with_reducible rfl | (refine (mask_foldl (fun t x => ?_) _ _).trans ?_) | (refine runCommand_mask (by decide) _ _ _ _ _ (fun p img t ht => ?_)) | (simp [ht]; done) | exact ht | (refine (hostAccess_mask (by decide) _ _ _ _ (fun t => ?_) _)) | (refine (withHealth_mask _ (fun t => ?_) (by decide) _).trans ?_) | split | (dsimp only; split) | (simp; split))))

theorem execVuSplit_keeps {w : BitVec 38} (h : 0x700030#38 &&& w = 0x700030#38) (a0 : SplitOp) (s : State) :
    Keeps w s (execVuSplit a0 s) := by
  refine keeps_mono (W := 0x700030#38) ?_ h
  unfold execVuSplit
  repeat' (first | split | (dsimp only; split))
  all_goals (first  | (refine ⟨_, rfl, ?_⟩; repeat' (first | (simp; done) | with_reducible rfl | (refine (mask_foldl (fun t x => ?_) _ _).trans ?_) | (refine runCommand_mask (by decide) _ _ _ _ _ (fun p img t ht => ?_)) | (simp [ht]; done) | exact ht | (refine (hostAccess_mask (by decide) _ _ _ _ (fun t => ?_) _)) | (refine (withHealth_mask _ (fun t => ?_) (by decide) _).trans ?_) | split | (dsimp only; split) | (simp; split))))

theorem softRun_keeps {w : BitVec 38} (h : 0x700030#38 &&& w = 0x700030#38) (a0 : Nat) (a1 : Nat) (a2 : SoftOp) (s : State) :
    Keeps w s (softRun a0 a1 a2 s) := by
  refine keeps_mono (W := 0x700030#38) ?_ h
  unfold softRun
  repeat' (first | split | (dsimp only; split))
  all_goals (first  | (refine ⟨_, rfl, ?_⟩; repeat' (first | (simp; done) | with_reducible rfl | (refine (mask_foldl (fun t x => ?_) _ _).trans ?_) | (refine runCommand_mask (by decide) _ _ _ _ _ (fun p img t ht => ?_)) | (simp [ht]; done) | exact ht | (refine (hostAccess_mask (by decide) _ _ _ _ (fun t => ?_) _)) | (refine (withHealth_mask _ (fun t => ?_) (by decide) _).trans ?_) | split | (dsimp only; split) | (simp; split))))

theorem vuSoftmax_keeps {w : BitVec 38} (h : 0x700030#38 &&& w = 0x700030#38) (a0 : SoftOp) (s : State) :
    Keeps w s (vuSoftmax a0 s) := by
  refine keeps_mono (W := 0x700030#38) ?_ h
  unfold vuSoftmax
  repeat' (first | split | (dsimp only; split))
  all_goals (first | exact softRun_keeps (by decide) .. | (refine ordered_keeps _ _ _ (fun _ _ e => admit_mask (by decide) e) (fun t u => ?_); (repeat' (first | split | (dsimp only; split))); all_goals (first | exact softRun_keeps (by decide) ..)) | (refine ⟨_, rfl, ?_⟩; repeat' (first | (simp; done) | with_reducible rfl | (refine (mask_foldl (fun t x => ?_) _ _).trans ?_) | (refine runCommand_mask (by decide) _ _ _ _ _ (fun p img t ht => ?_)) | (simp [ht]; done) | exact ht | (refine (hostAccess_mask (by decide) _ _ _ _ (fun t => ?_) _)) | (refine (withHealth_mask _ (fun t => ?_) (by decide) _).trans ?_) | split | (dsimp only; split) | (simp; split))))

theorem vuResetRows_keeps {w : BitVec 38} (h : 0x20#38 &&& w = 0x20#38) (a0 : Nat) (a1 : Bool) (s : State) :
    Keeps w s (vuResetRows a0 a1 s) := by
  refine keeps_mono (W := 0x20#38) ?_ h
  unfold vuResetRows
  split
  · exact ⟨_, rfl, rfl⟩
  · exact ordered_keeps _ _ _ (fun _ _ e => admit_mask (by decide) e) (fun t u => ⟨_, rfl, State.modCore_mask (by decide) ..⟩)

theorem vuFinish_keeps {w : BitVec 38} (h : 0x700030#38 &&& w = 0x700030#38) (a0 : FinishOp) (s : State) :
    Keeps w s (vuFinish a0 s) := by
  refine keeps_mono (W := 0x700030#38) ?_ h
  unfold vuFinish
  repeat' (first | split | (dsimp only; split))
  all_goals (first | exact vuApply_keeps (by decide) .. | (refine ordered_keeps _ _ _ (fun _ _ e => admit_mask (by decide) e) (fun t u => ?_); (repeat' (first | split | (dsimp only; split))); all_goals (first | exact vuApply_keeps (by decide) ..)) | (refine ⟨_, rfl, ?_⟩; repeat' (first | (simp; done) | with_reducible rfl | (refine (mask_foldl (fun t x => ?_) _ _).trans ?_) | (refine runCommand_mask (by decide) _ _ _ _ _ (fun p img t ht => ?_)) | (simp [ht]; done) | exact ht | (refine (hostAccess_mask (by decide) _ _ _ _ (fun t => ?_) _)) | (refine (withHealth_mask _ (fun t => ?_) (by decide) _).trans ?_) | split | (dsimp only; split) | (simp; split))))

theorem vuOutput_keeps {w : BitVec 38} (h : 0x700030#38 &&& w = 0x700030#38) (a0 : OutOp) (s : State) :
    Keeps w s (vuOutput a0 s) := by
  refine keeps_mono (W := 0x700030#38) ?_ h
  unfold vuOutput
  repeat' (first | split | (dsimp only; split))
  all_goals (first | exact vuApply_keeps (by decide) .. | (refine ordered_keeps _ _ _ (fun _ _ e => admit_mask (by decide) e) (fun t u => ?_); (repeat' (first | split | (dsimp only; split))); all_goals (first | exact vuApply_keeps (by decide) ..)) | (refine ⟨_, rfl, ?_⟩; repeat' (first | (simp; done) | with_reducible rfl | (refine (mask_foldl (fun t x => ?_) _ _).trans ?_) | (refine runCommand_mask (by decide) _ _ _ _ _ (fun p img t ht => ?_)) | (simp [ht]; done) | exact ht | (refine (hostAccess_mask (by decide) _ _ _ _ (fun t => ?_) _)) | (refine (withHealth_mask _ (fun t => ?_) (by decide) _).trans ?_) | split | (dsimp only; split) | (simp; split))))

theorem vuRecords_keeps {w : BitVec 38} (h : 0x700030#38 &&& w = 0x700030#38) (a0 : Nat) (a1 : Nat) (a2 : PairOp) (a3 : Nat) (s : State) :
    Keeps w s (vuRecords a0 a1 a2 a3 s) := by
  refine keeps_mono (W := 0x700030#38) ?_ h
  unfold vuRecords
  repeat' (first | split | (dsimp only; split))
  all_goals (first | exact vuApply_keeps (by decide) .. | (refine ordered_keeps _ _ _ (fun _ _ e => admit_mask (by decide) e) (fun t u => ?_); (repeat' (first | split | (dsimp only; split))); all_goals (first | exact vuApply_keeps (by decide) ..)) | (refine ⟨_, rfl, ?_⟩; repeat' (first | (simp; done) | with_reducible rfl | (refine (mask_foldl (fun t x => ?_) _ _).trans ?_) | (refine runCommand_mask (by decide) _ _ _ _ _ (fun p img t ht => ?_)) | (simp [ht]; done) | exact ht | (refine (hostAccess_mask (by decide) _ _ _ _ (fun t => ?_) _)) | (refine (withHealth_mask _ (fun t => ?_) (by decide) _).trans ?_) | split | (dsimp only; split) | (simp; split))))

theorem mergeRun_keeps {w : BitVec 38} (h : 0x700030#38 &&& w = 0x700030#38) (o : MergeOp) (s : State) : Keeps w s (mergeRun o s) := by
  refine keeps_mono (W := 0x700030#38) ?_ h
  unfold mergeRun
  dsimp only
  split
  · rename_i t ht
    obtain ⟨u, e, m⟩ := vuApply_keeps (w := 0x700030#38) (by decide) o.core o.slot _ _ _ s
    rw [e] at ht
    injection ht with ht
    subst ht
    split
    · exact ⟨_, rfl, m⟩
    · exact ⟨_, rfl, by rw [State.modCore_mask (by decide), m]⟩
  · exact vuApply_keeps (by decide) ..

theorem vuMerge_keeps {w : BitVec 38} (h : 0x700030#38 &&& w = 0x700030#38) (a0 : MergeOp) (s : State) :
    Keeps w s (vuMerge a0 s) := by
  refine keeps_mono (W := 0x700030#38) ?_ h
  unfold vuMerge
  repeat' (first | split | (dsimp only; split))
  all_goals (first | exact mergeRun_keeps (by decide) .. | (refine ordered_keeps _ _ _ (fun _ _ e => admit_mask (by decide) e) (fun t u => ?_); (repeat' (first | split | (dsimp only; split))); all_goals (first | exact mergeRun_keeps (by decide) ..)) | (refine ⟨_, rfl, ?_⟩; repeat' (first | (simp; done) | with_reducible rfl | (refine (mask_foldl (fun t x => ?_) _ _).trans ?_) | (refine runCommand_mask (by decide) _ _ _ _ _ (fun p img t ht => ?_)) | (simp [ht]; done) | exact ht | (refine (hostAccess_mask (by decide) _ _ _ _ (fun t => ?_) _)) | (refine (withHealth_mask _ (fun t => ?_) (by decide) _).trans ?_) | split | (dsimp only; split) | (simp; split))))

theorem vuRowTerm_keeps {w : BitVec 38} (h : 0x700030#38 &&& w = 0x700030#38) (a0 : BwdOp) (a1 : Fmt) (a2 : Fmt) (a3 : Nat) (a4 : Nat) (a5 : Nat) (s : State) :
    Keeps w s (vuRowTerm a0 a1 a2 a3 a4 a5 s) := by
  refine keeps_mono (W := 0x700030#38) ?_ h
  unfold vuRowTerm
  repeat' (first | split | (dsimp only; split))
  all_goals (first | exact vuApply_keeps (by decide) .. | (refine ordered_keeps _ _ _ (fun _ _ e => admit_mask (by decide) e) (fun t u => ?_); (repeat' (first | split | (dsimp only; split))); all_goals (first | exact vuApply_keeps (by decide) ..)) | (refine ⟨_, rfl, ?_⟩; repeat' (first | (simp; done) | with_reducible rfl | (refine (mask_foldl (fun t x => ?_) _ _).trans ?_) | (refine runCommand_mask (by decide) _ _ _ _ _ (fun p img t ht => ?_)) | (simp [ht]; done) | exact ht | (refine (hostAccess_mask (by decide) _ _ _ _ (fun t => ?_) _)) | (refine (withHealth_mask _ (fun t => ?_) (by decide) _).trans ?_) | split | (dsimp only; split) | (simp; split))))

theorem probsRun_keeps {w : BitVec 38} (h : 0x700030#38 &&& w = 0x700030#38) (a0 : Nat) (a1 : Nat) (a2 : BwdOp) (s : State) :
    Keeps w s (probsRun a0 a1 a2 s) := by
  refine keeps_mono (W := 0x700030#38) ?_ h
  unfold probsRun
  repeat' (first | split | (dsimp only; split))
  all_goals (first  | (refine ⟨_, rfl, ?_⟩; repeat' (first | (simp; done) | with_reducible rfl | (refine (mask_foldl (fun t x => ?_) _ _).trans ?_) | (refine runCommand_mask (by decide) _ _ _ _ _ (fun p img t ht => ?_)) | (simp [ht]; done) | exact ht | (refine (hostAccess_mask (by decide) _ _ _ _ (fun t => ?_) _)) | (refine (withHealth_mask _ (fun t => ?_) (by decide) _).trans ?_) | split | (dsimp only; split) | (simp; split))))

theorem vuProbs_keeps {w : BitVec 38} (h : 0x700030#38 &&& w = 0x700030#38) (a0 : BwdOp) (s : State) :
    Keeps w s (vuProbs a0 s) := by
  refine keeps_mono (W := 0x700030#38) ?_ h
  unfold vuProbs
  repeat' (first | split | (dsimp only; split))
  all_goals (first | exact probsRun_keeps (by decide) .. | (refine ordered_keeps _ _ _ (fun _ _ e => admit_mask (by decide) e) (fun t u => ?_); (repeat' (first | split | (dsimp only; split))); all_goals (first | exact probsRun_keeps (by decide) ..)) | (refine ⟨_, rfl, ?_⟩; repeat' (first | (simp; done) | with_reducible rfl | (refine (mask_foldl (fun t x => ?_) _ _).trans ?_) | (refine runCommand_mask (by decide) _ _ _ _ _ (fun p img t ht => ?_)) | (simp [ht]; done) | exact ht | (refine (hostAccess_mask (by decide) _ _ _ _ (fun t => ?_) _)) | (refine (withHealth_mask _ (fun t => ?_) (by decide) _).trans ?_) | split | (dsimp only; split) | (simp; split))))

theorem dsRun_keeps {w : BitVec 38} (h : 0x700030#38 &&& w = 0x700030#38) (a0 : Nat) (a1 : Nat) (a2 : FloatFmt) (a3 : BwdOp) (s : State) :
    Keeps w s (dsRun a0 a1 a2 a3 s) := by
  refine keeps_mono (W := 0x700030#38) ?_ h
  unfold dsRun
  repeat' (first | split | (dsimp only; split))
  all_goals (first  | (refine ⟨_, rfl, ?_⟩; repeat' (first | (simp; done) | with_reducible rfl | (refine (mask_foldl (fun t x => ?_) _ _).trans ?_) | (refine runCommand_mask (by decide) _ _ _ _ _ (fun p img t ht => ?_)) | (simp [ht]; done) | exact ht | (refine (hostAccess_mask (by decide) _ _ _ _ (fun t => ?_) _)) | (refine (withHealth_mask _ (fun t => ?_) (by decide) _).trans ?_) | split | (dsimp only; split) | (simp; split))))

theorem vuDs_keeps {w : BitVec 38} (h : 0x700030#38 &&& w = 0x700030#38) (a0 : BwdOp) (s : State) :
    Keeps w s (vuDs a0 s) := by
  refine keeps_mono (W := 0x700030#38) ?_ h
  unfold vuDs
  repeat' (first | split | (dsimp only; split))
  all_goals (first | exact dsRun_keeps (by decide) .. | (refine ordered_keeps _ _ _ (fun _ _ e => admit_mask (by decide) e) (fun t u => ?_); (repeat' (first | split | (dsimp only; split))); all_goals (first | exact dsRun_keeps (by decide) ..)) | (refine ⟨_, rfl, ?_⟩; repeat' (first | (simp; done) | with_reducible rfl | (refine (mask_foldl (fun t x => ?_) _ _).trans ?_) | (refine runCommand_mask (by decide) _ _ _ _ _ (fun p img t ht => ?_)) | (simp [ht]; done) | exact ht | (refine (hostAccess_mask (by decide) _ _ _ _ (fun t => ?_) _)) | (refine (withHealth_mask _ (fun t => ?_) (by decide) _).trans ?_) | split | (dsimp only; split) | (simp; split))))

theorem vuScalarWrite_keeps {w : BitVec 38} (h : 0x700030#38 &&& w = 0x700030#38) (a0 : Nat) (a1 : Nat) (a2 : Nat) (a3 : List Byte) (s : State) :
    Keeps w s (vuScalarWrite a0 a1 a2 a3 s) := by
  refine keeps_mono (W := 0x700030#38) ?_ h
  unfold vuScalarWrite
  repeat' (first | split | (dsimp only; split))
  all_goals (first | exact vuApply_keeps (by decide) .. | (refine ⟨_, rfl, ?_⟩; repeat' (first | (simp; done) | with_reducible rfl | (refine (mask_foldl (fun t x => ?_) _ _).trans ?_) | (refine runCommand_mask (by decide) _ _ _ _ _ (fun p img t ht => ?_)) | (simp [ht]; done) | exact ht | (refine (hostAccess_mask (by decide) _ _ _ _ (fun t => ?_) _)) | (refine (withHealth_mask _ (fun t => ?_) (by decide) _).trans ?_) | split | (dsimp only; split) | (simp; split))))

theorem execVuOperation_keeps {w : BitVec 38} (h : 0x700030#38 &&& w = 0x700030#38) (o : VuOp) (s : State) :
    Keeps w s (execVuOperation o s) := by
  refine keeps_mono (W := 0x700030#38) ?_ h
  cases o <;> unfold execVuOperation
  · exact vuArith_keeps (by decide) ..
  · exact vuConvert_keeps (by decide) ..
  · exact vuResetRows_keeps (by decide) ..
  · exact vuSoftmax_keeps (by decide) ..
  · exact vuFinish_keeps (by decide) ..
  · exact vuOutput_keeps (by decide) ..
  · exact vuRecords_keeps (by decide) ..
  · exact vuMerge_keeps (by decide) ..
  · exact vuRowTerm_keeps (by decide) ..
  · exact vuProbs_keeps (by decide) ..
  · exact vuDs_keeps (by decide) ..
  · exact vuScalarWrite_keeps (by decide) ..

theorem execRope_keeps {w : BitVec 38} (h : 0x700030#38 &&& w = 0x700030#38) (a0 : RopeOp) (s : State) :
    Keeps w s (execRope a0 s) := by
  refine keeps_mono (W := 0x700030#38) ?_ h
  unfold execRope
  repeat' (first | split | (dsimp only; split))
  all_goals (first | exact vuApply_keeps (by decide) .. | (refine ⟨_, rfl, ?_⟩; repeat' (first | (simp; done) | with_reducible rfl | (refine (mask_foldl (fun t x => ?_) _ _).trans ?_) | (refine runCommand_mask (by decide) _ _ _ _ _ (fun p img t ht => ?_)) | (simp [ht]; done) | exact ht | (refine (hostAccess_mask (by decide) _ _ _ _ (fun t => ?_) _)) | (refine (withHealth_mask _ (fun t => ?_) (by decide) _).trans ?_) | split | (dsimp only; split) | (simp; split))))

theorem execOptAdam_keeps {w : BitVec 38} (h : 0x700030#38 &&& w = 0x700030#38) (a0 : AdamOp) (s : State) :
    Keeps w s (execOptAdam a0 s) := by
  refine keeps_mono (W := 0x700030#38) ?_ h
  unfold execOptAdam
  repeat' (first | split | (dsimp only; split))
  all_goals (first | exact vuApply_keeps (by decide) .. | (refine ⟨_, rfl, ?_⟩; repeat' (first | (simp; done) | with_reducible rfl | (refine (mask_foldl (fun t x => ?_) _ _).trans ?_) | (refine runCommand_mask (by decide) _ _ _ _ _ (fun p img t ht => ?_)) | (simp [ht]; done) | exact ht | (refine (hostAccess_mask (by decide) _ _ _ _ (fun t => ?_) _)) | (refine (withHealth_mask _ (fun t => ?_) (by decide) _).trans ?_) | split | (dsimp only; split) | (simp; split))))

theorem execFigureStart_keeps {w : BitVec 38} (h : 0xc02702132#38 &&& w = 0xc02702132#38) (a0 : Nat) (a1 : Nat) (s : State) :
    Keeps w s (execFigureStart a0 a1 s) := by
  refine keeps_mono (W := 0xc02702132#38) ?_ h
  unfold execFigureStart
  repeat' (first | split | (dsimp only; split))
  all_goals (first  | (refine ⟨_, rfl, ?_⟩; repeat' (first | (simp; done) | with_reducible rfl | (refine (mask_foldl (fun t x => ?_) _ _).trans ?_) | (refine runCommand_mask (by decide) _ _ _ _ _ (fun p img t ht => ?_)) | (simp [ht]; done) | exact ht | (refine (hostAccess_mask (by decide) _ _ _ _ (fun t => ?_) _)) | (refine (withHealth_mask _ (fun t => ?_) (by decide) _).trans ?_) | split | (dsimp only; split) | (simp; split))))

theorem execBackwardPhaseStart_keeps {w : BitVec 38} (h : 0x90#38 &&& w = 0x90#38) (a0 : Nat) (a1 : Nat) (s : State) :
    Keeps w s (execBackwardPhaseStart a0 a1 s) := by
  refine keeps_mono (W := 0x90#38) ?_ h
  unfold execBackwardPhaseStart
  repeat' (first | split | (dsimp only; split))
  all_goals (first  | (refine ⟨_, rfl, ?_⟩; repeat' (first | (simp; done) | with_reducible rfl | (refine (mask_foldl (fun t x => ?_) _ _).trans ?_) | (refine runCommand_mask (by decide) _ _ _ _ _ (fun p img t ht => ?_)) | (simp [ht]; done) | exact ht | (refine (hostAccess_mask (by decide) _ _ _ _ (fun t => ?_) _)) | (refine (withHealth_mask _ (fun t => ?_) (by decide) _).trans ?_) | split | (dsimp only; split) | (simp; split))))

theorem execMergePhaseStart_keeps {w : BitVec 38} (h : 0x10#38 &&& w = 0x10#38) (a0 : Nat) (a1 : Nat) (s : State) :
    Keeps w s (execMergePhaseStart a0 a1 s) := by
  refine keeps_mono (W := 0x10#38) ?_ h
  unfold execMergePhaseStart
  repeat' (first | split | (dsimp only; split))
  all_goals (first  | (refine ⟨_, rfl, ?_⟩; repeat' (first | (simp; done) | with_reducible rfl | (refine (mask_foldl (fun t x => ?_) _ _).trans ?_) | (refine runCommand_mask (by decide) _ _ _ _ _ (fun p img t ht => ?_)) | (simp [ht]; done) | exact ht | (refine (hostAccess_mask (by decide) _ _ _ _ (fun t => ?_) _)) | (refine (withHealth_mask _ (fun t => ?_) (by decide) _).trans ?_) | split | (dsimp only; split) | (simp; split))))

theorem execBucketStart_keeps {w : BitVec 38} (h : 0x12#38 &&& w = 0x12#38) (a0 : Nat) (a1 : Nat) (s : State) :
    Keeps w s (execBucketStart a0 a1 s) := by
  refine keeps_mono (W := 0x12#38) ?_ h
  unfold execBucketStart
  repeat' (first | split | (dsimp only; split))
  all_goals (first  | (refine ⟨_, rfl, ?_⟩; repeat' (first | (simp; done) | with_reducible rfl | (refine (mask_foldl (fun t x => ?_) _ _).trans ?_) | (refine runCommand_mask (by decide) _ _ _ _ _ (fun p img t ht => ?_)) | (simp [ht]; done) | exact ht | (refine (hostAccess_mask (by decide) _ _ _ _ (fun t => ?_) _)) | (refine (withHealth_mask _ (fun t => ?_) (by decide) _).trans ?_) | split | (dsimp only; split) | (simp; split))))

theorem execAppendPhase_keeps {w : BitVec 38} (h : 0x10#38 &&& w = 0x10#38) (a0 : Nat) (a1 : Nat) (s : State) :
    Keeps w s (execAppendPhase a0 a1 s) := by
  refine keeps_mono (W := 0x10#38) ?_ h
  unfold execAppendPhase
  repeat' (first | split | (dsimp only; split))
  all_goals (first  | (refine ⟨_, rfl, ?_⟩; repeat' (first | (simp; done) | with_reducible rfl | (refine (mask_foldl (fun t x => ?_) _ _).trans ?_) | (refine runCommand_mask (by decide) _ _ _ _ _ (fun p img t ht => ?_)) | (simp [ht]; done) | exact ht | (refine (hostAccess_mask (by decide) _ _ _ _ (fun t => ?_) _)) | (refine (withHealth_mask _ (fun t => ?_) (by decide) _).trans ?_) | split | (dsimp only; split) | (simp; split))))

theorem execScaleStep_keeps {w : BitVec 38} (h : 0x80270a012#38 &&& w = 0x80270a012#38) (a0 : Nat) (a1 : Nat) (s : State) :
    Keeps w s (execScaleStep a0 a1 s) := by
  refine keeps_mono (W := 0x80270a012#38) ?_ h
  unfold execScaleStep
  repeat' (first | split | (dsimp only; split))
  all_goals (first  | (refine ⟨_, rfl, ?_⟩; repeat' (first | (simp; done) | with_reducible rfl | (refine (mask_foldl (fun t x => ?_) _ _).trans ?_) | (refine runCommand_mask (by decide) _ _ _ _ _ (fun p img t ht => ?_)) | (simp [ht]; done) | exact ht | (refine (hostAccess_mask (by decide) _ _ _ _ (fun t => ?_) _)) | (refine (withHealth_mask _ (fun t => ?_) (by decide) _).trans ?_) | split | (dsimp only; split) | (simp; split))))

theorem execKvCommit_keeps {w : BitVec 38} (h : 0x810#38 &&& w = 0x810#38) (a0 : Nat) (a1 : Nat) (s : State) :
    Keeps w s (execKvCommit a0 a1 s) := by
  refine keeps_mono (W := 0x810#38) ?_ h
  unfold execKvCommit
  repeat' (first | split | (dsimp only; split))
  all_goals (first  | (refine ⟨_, rfl, ?_⟩; repeat' (first | (simp; done) | with_reducible rfl | (refine (mask_foldl (fun t x => ?_) _ _).trans ?_) | (refine runCommand_mask (by decide) _ _ _ _ _ (fun p img t ht => ?_)) | (simp [ht]; done) | exact ht | (refine (hostAccess_mask (by decide) _ _ _ _ (fun t => ?_) _)) | (refine (withHealth_mask _ (fun t => ?_) (by decide) _).trans ?_) | split | (dsimp only; split) | (simp; split))))

theorem execResReload_keeps {w : BitVec 38} (h : 0x10#38 &&& w = 0x10#38) (a0 : Nat) (a1 : Nat) (s : State) :
    Keeps w s (execResReload a0 a1 s) := by
  refine keeps_mono (W := 0x10#38) ?_ h
  unfold execResReload
  repeat' (first | split | (dsimp only; split))
  all_goals (first  | (refine ⟨_, rfl, ?_⟩; repeat' (first | (simp; done) | with_reducible rfl | (refine (mask_foldl (fun t x => ?_) _ _).trans ?_) | (refine runCommand_mask (by decide) _ _ _ _ _ (fun p img t ht => ?_)) | (simp [ht]; done) | exact ht | (refine (hostAccess_mask (by decide) _ _ _ _ (fun t => ?_) _)) | (refine (withHealth_mask _ (fun t => ?_) (by decide) _).trans ?_) | split | (dsimp only; split) | (simp; split))))

theorem execFigureComplete_keeps {w : BitVec 38} (h : 0x80272a5b2#38 &&& w = 0x80272a5b2#38) (a0 : Nat) (a1 : Nat) (s : State) :
    Keeps w s (execFigureComplete a0 a1 s) := by
  refine keeps_mono (W := 0x80272a5b2#38) ?_ h
  unfold execFigureComplete
  repeat' (first | split | (dsimp only; split))
  all_goals (first  | (refine ⟨_, rfl, ?_⟩; repeat' (first | (simp; done) | with_reducible rfl | (refine (mask_foldl (fun t x => ?_) _ _).trans ?_) | (refine runCommand_mask (by decide) _ _ _ _ _ (fun p img t ht => ?_)) | (simp [ht]; done) | exact ht | (refine (hostAccess_mask (by decide) _ _ _ _ (fun t => ?_) _)) | (refine (withHealth_mask _ (fun t => ?_) (by decide) _).trans ?_) | split | (dsimp only; split) | (simp; split))))

theorem execFigureAbort_keeps {w : BitVec 38} (h : 0x27005b0#38 &&& w = 0x27005b0#38) (a0 : Nat) (a1 : Nat) (s : State) :
    Keeps w s (execFigureAbort a0 a1 s) := by
  refine keeps_mono (W := 0x27005b0#38) ?_ h
  unfold execFigureAbort
  repeat' (first | split | (dsimp only; split))
  all_goals (first  | (refine ⟨_, rfl, ?_⟩; repeat' (first | (simp; done) | with_reducible rfl | (refine (mask_foldl (fun t x => ?_) _ _).trans ?_) | (refine runCommand_mask (by decide) _ _ _ _ _ (fun p img t ht => ?_)) | (simp [ht]; done) | exact ht | (refine (hostAccess_mask (by decide) _ _ _ _ (fun t => ?_) _)) | (refine (withHealth_mask _ (fun t => ?_) (by decide) _).trans ?_) | split | (dsimp only; split) | (simp; split))))

theorem execClmLoad_keeps {w : BitVec 38} (h : 0x80#38 &&& w = 0x80#38) (a0 : Nat) (a1 : Nat) (a2 : Nat) (a3 : Nat) (s : State) :
    Keeps w s (execClmLoad a0 a1 a2 a3 s) := by
  refine keeps_mono (W := 0x80#38) ?_ h
  unfold execClmLoad
  repeat' (first | split | (dsimp only; split))
  all_goals (first  | (refine ⟨_, rfl, ?_⟩; repeat' (first | (simp; done) | with_reducible rfl | (refine (mask_foldl (fun t x => ?_) _ _).trans ?_) | (refine runCommand_mask (by decide) _ _ _ _ _ (fun p img t ht => ?_)) | (simp [ht]; done) | exact ht | (refine (hostAccess_mask (by decide) _ _ _ _ (fun t => ?_) _)) | (refine (withHealth_mask _ (fun t => ?_) (by decide) _).trans ?_) | split | (dsimp only; split) | (simp; split))))

theorem execClmClaim_keeps {w : BitVec 38} (h : 0x2007000b0#38 &&& w = 0x2007000b0#38) (a0 : Nat) (a1 : Nat) (a2 : Nat) (s : State) :
    Keeps w s (execClmClaim a0 a1 a2 s) := by
  refine keeps_mono (W := 0x2007000b0#38) ?_ h
  unfold execClmClaim
  repeat' (first | split | (dsimp only; split))
  all_goals (first  | (refine ⟨_, rfl, ?_⟩; repeat' (first | (simp; done) | with_reducible rfl | (refine (mask_foldl (fun t x => ?_) _ _).trans ?_) | (refine runCommand_mask (by decide) _ _ _ _ _ (fun p img t ht => ?_)) | (simp [ht]; done) | exact ht | (refine (hostAccess_mask (by decide) _ _ _ _ (fun t => ?_) _)) | (refine (withHealth_mask _ (fun t => ?_) (by decide) _).trans ?_) | split | (dsimp only; split) | (simp; split))))

theorem execItemCommit_keeps {w : BitVec 38} (h : 0x700130#38 &&& w = 0x700130#38) (a0 : Nat) (a1 : Nat) (a2 : Nat) (a3 : Nat) (s : State) :
    Keeps w s (execItemCommit a0 a1 a2 a3 s) := by
  refine keeps_mono (W := 0x700130#38) ?_ h
  unfold execItemCommit
  repeat' (first | split | (dsimp only; split))
  all_goals (first  | (refine ⟨_, rfl, ?_⟩; repeat' (first | (simp; done) | with_reducible rfl | (refine (mask_foldl (fun t x => ?_) _ _).trans ?_) | (refine runCommand_mask (by decide) _ _ _ _ _ (fun p img t ht => ?_)) | (simp [ht]; done) | exact ht | (refine (hostAccess_mask (by decide) _ _ _ _ (fun t => ?_) _)) | (refine (withHealth_mask _ (fun t => ?_) (by decide) _).trans ?_) | split | (dsimp only; split) | (simp; split))))

theorem execClmRetire_keeps {w : BitVec 38} (h : 0xb0#38 &&& w = 0xb0#38) (a0 : Nat) (a1 : Nat) (a2 : Nat) (s : State) :
    Keeps w s (execClmRetire a0 a1 a2 s) := by
  refine keeps_mono (W := 0xb0#38) ?_ h
  unfold execClmRetire
  repeat' (first | split | (dsimp only; split))
  all_goals (first  | (refine ⟨_, rfl, ?_⟩; repeat' (first | (simp; done) | with_reducible rfl | (refine (mask_foldl (fun t x => ?_) _ _).trans ?_) | (refine runCommand_mask (by decide) _ _ _ _ _ (fun p img t ht => ?_)) | (simp [ht]; done) | exact ht | (refine (hostAccess_mask (by decide) _ _ _ _ (fun t => ?_) _)) | (refine (withHealth_mask _ (fun t => ?_) (by decide) _).trans ?_) | split | (dsimp only; split) | (simp; split))))

theorem execClmReturn_keeps {w : BitVec 38} (h : 0x80#38 &&& w = 0x80#38) (a0 : Nat) (a1 : Nat) (s : State) :
    Keeps w s (execClmReturn a0 a1 s) := by
  refine keeps_mono (W := 0x80#38) ?_ h
  unfold execClmReturn
  repeat' (first | split | (dsimp only; split))
  all_goals (first  | (refine ⟨_, rfl, ?_⟩; repeat' (first | (simp; done) | with_reducible rfl | (refine (mask_foldl (fun t x => ?_) _ _).trans ?_) | (refine runCommand_mask (by decide) _ _ _ _ _ (fun p img t ht => ?_)) | (simp [ht]; done) | exact ht | (refine (hostAccess_mask (by decide) _ _ _ _ (fun t => ?_) _)) | (refine (withHealth_mask _ (fun t => ?_) (by decide) _).trans ?_) | split | (dsimp only; split) | (simp; split))))

theorem execClmRelease_keeps {w : BitVec 38} (h : 0x80#38 &&& w = 0x80#38) (a0 : Nat) (s : State) :
    Keeps w s (execClmRelease a0 s) := by
  refine keeps_mono (W := 0x80#38) ?_ h
  unfold execClmRelease
  repeat' (first | split | (dsimp only; split))
  all_goals (first  | (refine ⟨_, rfl, ?_⟩; repeat' (first | (simp; done) | with_reducible rfl | (refine (mask_foldl (fun t x => ?_) _ _).trans ?_) | (refine runCommand_mask (by decide) _ _ _ _ _ (fun p img t ht => ?_)) | (simp [ht]; done) | exact ht | (refine (hostAccess_mask (by decide) _ _ _ _ (fun t => ?_) _)) | (refine (withHealth_mask _ (fun t => ?_) (by decide) _).trans ?_) | split | (dsimp only; split) | (simp; split))))

theorem execSpmFill_keeps {w : BitVec 38} (h : 0x700030#38 &&& w = 0x700030#38) (a0 : Nat) (a1 : Nat) (a2 : Nat) (a3 : Nat) (a4 : Nat) (a5 : BitVec 32) (s : State) :
    Keeps w s (execSpmFill a0 a1 a2 a3 a4 a5 s) := by
  refine keeps_mono (W := 0x700030#38) ?_ h
  unfold execSpmFill
  repeat' (first | split | (dsimp only; split))
  all_goals (first  | (refine ⟨_, rfl, ?_⟩; repeat' (first | (simp; done) | with_reducible rfl | (refine (mask_foldl (fun t x => ?_) _ _).trans ?_) | (refine runCommand_mask (by decide) _ _ _ _ _ (fun p img t ht => ?_)) | (simp [ht]; done) | exact ht | (refine (hostAccess_mask (by decide) _ _ _ _ (fun t => ?_) _)) | (refine (withHealth_mask _ (fun t => ?_) (by decide) _).trans ?_) | split | (dsimp only; split) | (simp; split))))

theorem execSpmCopy_keeps {w : BitVec 38} (h : 0x700030#38 &&& w = 0x700030#38) (a0 : Nat) (a1 : Nat) (a2 : Nat) (a3 : Nat) (a4 : Nat) (a5 : Nat) (s : State) :
    Keeps w s (execSpmCopy a0 a1 a2 a3 a4 a5 s) := by
  refine keeps_mono (W := 0x700030#38) ?_ h
  unfold execSpmCopy
  repeat' (first | split | (dsimp only; split))
  all_goals (first  | (refine ⟨_, rfl, ?_⟩; repeat' (first | (simp; done) | with_reducible rfl | (refine (mask_foldl (fun t x => ?_) _ _).trans ?_) | (refine runCommand_mask (by decide) _ _ _ _ _ (fun p img t ht => ?_)) | (simp [ht]; done) | exact ht | (refine (hostAccess_mask (by decide) _ _ _ _ (fun t => ?_) _)) | (refine (withHealth_mask _ (fun t => ?_) (by decide) _).trans ?_) | split | (dsimp only; split) | (simp; split))))

theorem execCredTake_keeps {w : BitVec 38} (h : 0x20#38 &&& w = 0x20#38) (a0 : Nat) (a1 : Nat) (a2 : Nat) (a3 : Nat) (a4 : Nat) (s : State) :
    Keeps w s (execCredTake a0 a1 a2 a3 a4 s) := by
  refine keeps_mono (W := 0x20#38) ?_ h
  unfold execCredTake
  repeat' (first | split | (dsimp only; split))
  all_goals (first  | (refine ⟨_, rfl, ?_⟩; repeat' (first | (simp; done) | with_reducible rfl | (refine (mask_foldl (fun t x => ?_) _ _).trans ?_) | (refine runCommand_mask (by decide) _ _ _ _ _ (fun p img t ht => ?_)) | (simp [ht]; done) | exact ht | (refine (hostAccess_mask (by decide) _ _ _ _ (fun t => ?_) _)) | (refine (withHealth_mask _ (fun t => ?_) (by decide) _).trans ?_) | split | (dsimp only; split) | (simp; split))))

theorem execCredTakeGrant_keeps {w : BitVec 38} (h : 0x20#38 &&& w = 0x20#38) (a0 : Nat) (a1 : Nat) (s : State) :
    Keeps w s (execCredTakeGrant a0 a1 s) := by
  refine keeps_mono (W := 0x20#38) ?_ h
  unfold execCredTakeGrant
  repeat' (first | split | (dsimp only; split))
  all_goals (first  | (refine ⟨_, rfl, ?_⟩; repeat' (first | (simp; done) | with_reducible rfl | (refine (mask_foldl (fun t x => ?_) _ _).trans ?_) | (refine runCommand_mask (by decide) _ _ _ _ _ (fun p img t ht => ?_)) | (simp [ht]; done) | exact ht | (refine (hostAccess_mask (by decide) _ _ _ _ (fun t => ?_) _)) | (refine (withHealth_mask _ (fun t => ?_) (by decide) _).trans ?_) | split | (dsimp only; split) | (simp; split))))

theorem execCredReturn_keeps {w : BitVec 38} (h : 0x700020#38 &&& w = 0x700020#38) (a0 : Nat) (a1 : Nat) (a2 : Nat) (a3 : Nat) (s : State) :
    Keeps w s (execCredReturn a0 a1 a2 a3 s) := by
  refine keeps_mono (W := 0x700020#38) ?_ h
  unfold execCredReturn
  repeat' (first | split | (dsimp only; split))
  all_goals (first  | (refine ⟨_, rfl, ?_⟩; repeat' (first | (simp; done) | with_reducible rfl | (refine (mask_foldl (fun t x => ?_) _ _).trans ?_) | (refine runCommand_mask (by decide) _ _ _ _ _ (fun p img t ht => ?_)) | (simp [ht]; done) | exact ht | (refine (hostAccess_mask (by decide) _ _ _ _ (fun t => ?_) _)) | (refine (withHealth_mask _ (fun t => ?_) (by decide) _).trans ?_) | split | (dsimp only; split) | (simp; split))))

theorem execRemoteRowWrite_keeps {w : BitVec 38} (h : 0x700030#38 &&& w = 0x700030#38) (a0 : Nat) (a1 : Nat) (a2 : Nat) (a3 : Nat) (a4 : Nat) (a5 : List Byte) (s : State) :
    Keeps w s (execRemoteRowWrite a0 a1 a2 a3 a4 a5 s) := by
  refine keeps_mono (W := 0x700030#38) ?_ h
  unfold execRemoteRowWrite
  repeat' (first | split | (dsimp only; split))
  all_goals (first  | (refine ⟨_, rfl, ?_⟩; repeat' (first | (simp; done) | with_reducible rfl | (refine (mask_foldl (fun t x => ?_) _ _).trans ?_) | (refine runCommand_mask (by decide) _ _ _ _ _ (fun p img t ht => ?_)) | (simp [ht]; done) | exact ht | (refine (hostAccess_mask (by decide) _ _ _ _ (fun t => ?_) _)) | (refine (withHealth_mask _ (fun t => ?_) (by decide) _).trans ?_) | split | (dsimp only; split) | (simp; split))))

theorem execPwuLookup_keeps {w : BitVec 38} (h : 0x4700170#38 &&& w = 0x4700170#38) (a0 : Nat) (a1 : TagRead) (a2 : BitVec 20) (a3 : Nat) (a4 : PageAsk) (s : State) :
    Keeps w s (execPwuLookup a0 a1 a2 a3 a4 s) := by
  refine keeps_mono (W := 0x4700170#38) ?_ h
  unfold execPwuLookup
  repeat' (first | split | (dsimp only; split))
  all_goals (first  | (refine ⟨_, rfl, ?_⟩; repeat' (first | (simp; done) | with_reducible rfl | (refine (mask_foldl (fun t x => ?_) _ _).trans ?_) | (refine runCommand_mask (by decide) _ _ _ _ _ (fun p img t ht => ?_)) | (simp [ht]; done) | exact ht | (refine (hostAccess_mask (by decide) _ _ _ _ (fun t => ?_) _)) | (refine (withHealth_mask _ (fun t => ?_) (by decide) _).trans ?_) | split | (dsimp only; split) | (simp; split))))

theorem execPwuWalkDone_keeps {w : BitVec 38} (h : 0x4700170#38 &&& w = 0x4700170#38) (a0 : Nat) (a1 : TagRead) (s : State) :
    Keeps w s (execPwuWalkDone a0 a1 s) := by
  refine keeps_mono (W := 0x4700170#38) ?_ h
  unfold execPwuWalkDone
  repeat' (first | split | (dsimp only; split))
  all_goals (first  | (refine ⟨_, rfl, ?_⟩; repeat' (first | (simp; done) | with_reducible rfl | (refine (mask_foldl (fun t x => ?_) _ _).trans ?_) | (refine runCommand_mask (by decide) _ _ _ _ _ (fun p img t ht => ?_)) | (simp [ht]; done) | exact ht | (refine (hostAccess_mask (by decide) _ _ _ _ (fun t => ?_) _)) | (refine (withHealth_mask _ (fun t => ?_) (by decide) _).trans ?_) | split | (dsimp only; split) | (simp; split))))

theorem execKvAppend_keeps {w : BitVec 38} (h : 0x80670a872#38 &&& w = 0x80670a872#38) (a0 : AppendOp) (s : State) :
    Keeps w s (execKvAppend a0 s) := by
  refine keeps_mono (W := 0x80670a872#38) ?_ h
  unfold execKvAppend
  repeat' (first | split | (dsimp only; split))
  all_goals (first  | (refine ⟨_, rfl, ?_⟩; repeat' (first | (simp; done) | with_reducible rfl | (refine (mask_foldl (fun t x => ?_) _ _).trans ?_) | (refine runCommand_mask (by decide) _ _ _ _ _ (fun p img t ht => ?_)) | (simp [ht]; done) | exact ht | (refine (hostAccess_mask (by decide) _ _ _ _ (fun t => ?_) _)) | (refine (withHealth_mask _ (fun t => ?_) (by decide) _).trans ?_) | split | (dsimp only; split) | (simp; split))))

theorem execKvArenaSet_keeps {w : BitVec 38} (h : 0x400300010#38 &&& w = 0x400300010#38) (a0 : Nat) (a1 : BitVec 16) (s : State) :
    Keeps w s (execKvArenaSet a0 a1 s) := by
  refine keeps_mono (W := 0x400300010#38) ?_ h
  unfold execKvArenaSet
  repeat' (first | split | (dsimp only; split))
  all_goals (first  | (refine ⟨_, rfl, ?_⟩; repeat' (first | (simp; done) | with_reducible rfl | (refine (mask_foldl (fun t x => ?_) _ _).trans ?_) | (refine runCommand_mask (by decide) _ _ _ _ _ (fun p img t ht => ?_)) | (simp [ht]; done) | exact ht | (refine (hostAccess_mask (by decide) _ _ _ _ (fun t => ?_) _)) | (refine (withHealth_mask _ (fun t => ?_) (by decide) _).trans ?_) | split | (dsimp only; split) | (simp; split))))

theorem execKvStat_keeps {w : BitVec 38} (h : 0xc0270a012#38 &&& w = 0xc0270a012#38) (a0 : Nat) (a1 : BitVec 16) (s : State) :
    Keeps w s (execKvStat a0 a1 s) := by
  refine keeps_mono (W := 0xc0270a012#38) ?_ h
  unfold execKvStat
  repeat' (first | split | (dsimp only; split))
  all_goals (first  | (refine ⟨_, rfl, ?_⟩; repeat' (first | (simp; done) | with_reducible rfl | (refine (mask_foldl (fun t x => ?_) _ _).trans ?_) | (refine runCommand_mask (by decide) _ _ _ _ _ (fun p img t ht => ?_)) | (simp [ht]; done) | exact ht | (refine (hostAccess_mask (by decide) _ _ _ _ (fun t => ?_) _)) | (refine (withHealth_mask _ (fun t => ?_) (by decide) _).trans ?_) | split | (dsimp only; split) | (simp; split))))

theorem execSeqOpen_keeps {w : BitVec 38} (h : 0x400700812#38 &&& w = 0x400700812#38) (a0 : Nat) (a1 : BitVec 16) (s : State) :
    Keeps w s (execSeqOpen a0 a1 s) := by
  refine keeps_mono (W := 0x400700812#38) ?_ h
  unfold execSeqOpen
  repeat' (first | split | (dsimp only; split))
  all_goals (first  | (refine ⟨_, rfl, ?_⟩; repeat' (first | (simp; done) | with_reducible rfl | (refine (mask_foldl (fun t x => ?_) _ _).trans ?_) | (refine runCommand_mask (by decide) _ _ _ _ _ (fun p img t ht => ?_)) | (simp [ht]; done) | exact ht | (refine (hostAccess_mask (by decide) _ _ _ _ (fun t => ?_) _)) | (refine (withHealth_mask _ (fun t => ?_) (by decide) _).trans ?_) | split | (dsimp only; split) | (simp; split))))

theorem execSeqQuery_keeps {w : BitVec 38} (h : 0xc0270a012#38 &&& w = 0xc0270a012#38) (a0 : Nat) (a1 : BitVec 16) (s : State) :
    Keeps w s (execSeqQuery a0 a1 s) := by
  refine keeps_mono (W := 0xc0270a012#38) ?_ h
  unfold execSeqQuery
  repeat' (first | split | (dsimp only; split))
  all_goals (first  | (refine ⟨_, rfl, ?_⟩; repeat' (first | (simp; done) | with_reducible rfl | (refine (mask_foldl (fun t x => ?_) _ _).trans ?_) | (refine runCommand_mask (by decide) _ _ _ _ _ (fun p img t ht => ?_)) | (simp [ht]; done) | exact ht | (refine (hostAccess_mask (by decide) _ _ _ _ (fun t => ?_) _)) | (refine (withHealth_mask _ (fun t => ?_) (by decide) _).trans ?_) | split | (dsimp only; split) | (simp; split))))

theorem execSeqReserve_keeps {w : BitVec 38} (h : 0xc0270a812#38 &&& w = 0xc0270a812#38) (a0 : Nat) (a1 : BitVec 16) (s : State) :
    Keeps w s (execSeqReserve a0 a1 s) := by
  refine keeps_mono (W := 0xc0270a812#38) ?_ h
  unfold execSeqReserve
  repeat' (first | split | (dsimp only; split))
  all_goals (first  | (refine ⟨_, rfl, ?_⟩; repeat' (first | (simp; done) | with_reducible rfl | (refine (mask_foldl (fun t x => ?_) _ _).trans ?_) | (refine runCommand_mask (by decide) _ _ _ _ _ (fun p img t ht => ?_)) | (simp [ht]; done) | exact ht | (refine (hostAccess_mask (by decide) _ _ _ _ (fun t => ?_) _)) | (refine (withHealth_mask _ (fun t => ?_) (by decide) _).trans ?_) | split | (dsimp only; split) | (simp; split))))

theorem execFrameZeroed_keeps {w : BitVec 38} (h : 0x80270a812#38 &&& w = 0x80270a812#38) (a0 : Nat) (a1 : Bool) (a2 : Nat) (s : State) :
    Keeps w s (execFrameZeroed a0 a1 a2 s) := by
  refine keeps_mono (W := 0x80270a812#38) ?_ h
  unfold execFrameZeroed
  cases a1 <;> simp only [Bool.false_eq_true, if_false, if_true] <;> split
  · exact ⟨_, rfl, rfl⟩
  · refine ⟨_, rfl, ?_⟩
    refine (mask_foldl (fun t x => resumeReserve_mask (by decide) ..) _ _).trans ?_
    rw [takeWaits_mask (by decide), modKv_mask (by decide), writeVa_mask (by decide)]
  · exact ⟨_, rfl, rfl⟩
  · refine ⟨_, rfl, ?_⟩
    rw [modKv_mask (by decide), writeVa_mask (by decide)]

theorem execReserveWaitTimeout_keeps {w : BitVec 38} (h : 0x80270a812#38 &&& w = 0x80270a812#38) (a0 : Nat) (a1 : BitVec 16) (s : State) :
    Keeps w s (execReserveWaitTimeout a0 a1 s) := by
  refine keeps_mono (W := 0x80270a812#38) ?_ h
  unfold execReserveWaitTimeout
  repeat' (first | split | (dsimp only; split))
  all_goals (first  | (refine ⟨_, rfl, ?_⟩; repeat' (first | (simp; done) | with_reducible rfl | (refine (mask_foldl (fun t x => ?_) _ _).trans ?_) | (refine runCommand_mask (by decide) _ _ _ _ _ (fun p img t ht => ?_)) | (simp [ht]; done) | exact ht | (refine (hostAccess_mask (by decide) _ _ _ _ (fun t => ?_) _)) | (refine (withHealth_mask _ (fun t => ?_) (by decide) _).trans ?_) | split | (dsimp only; split) | (simp; split))))

theorem execSeqTrim_keeps {w : BitVec 38} (h : 0x400300010#38 &&& w = 0x400300010#38) (a0 : Nat) (a1 : BitVec 16) (s : State) :
    Keeps w s (execSeqTrim a0 a1 s) := by
  refine keeps_mono (W := 0x400300010#38) ?_ h
  unfold execSeqTrim
  repeat' (first | split | (dsimp only; split))
  all_goals (first  | (refine ⟨_, rfl, ?_⟩; repeat' (first | (simp; done) | with_reducible rfl | (refine (mask_foldl (fun t x => ?_) _ _).trans ?_) | (refine runCommand_mask (by decide) _ _ _ _ _ (fun p img t ht => ?_)) | (simp [ht]; done) | exact ht | (refine (hostAccess_mask (by decide) _ _ _ _ (fun t => ?_) _)) | (refine (withHealth_mask _ (fun t => ?_) (by decide) _).trans ?_) | split | (dsimp only; split) | (simp; split))))

theorem execSeqClose_keeps {w : BitVec 38} (h : 0x400300010#38 &&& w = 0x400300010#38) (a0 : Nat) (a1 : BitVec 16) (s : State) :
    Keeps w s (execSeqClose a0 a1 s) := by
  refine keeps_mono (W := 0x400300010#38) ?_ h
  unfold execSeqClose
  repeat' (first | split | (dsimp only; split))
  all_goals (first  | (refine ⟨_, rfl, ?_⟩; repeat' (first | (simp; done) | with_reducible rfl | (refine (mask_foldl (fun t x => ?_) _ _).trans ?_) | (refine runCommand_mask (by decide) _ _ _ _ _ (fun p img t ht => ?_)) | (simp [ht]; done) | exact ht | (refine (hostAccess_mask (by decide) _ _ _ _ (fun t => ?_) _)) | (refine (withHealth_mask _ (fun t => ?_) (by decide) _).trans ?_) | split | (dsimp only; split) | (simp; split))))

theorem execSeqEvict_keeps {w : BitVec 38} (h : 0x400300810#38 &&& w = 0x400300810#38) (a0 : Nat) (a1 : BitVec 16) (s : State) :
    Keeps w s (execSeqEvict a0 a1 s) := by
  refine keeps_mono (W := 0x400300810#38) ?_ h
  unfold execSeqEvict
  repeat' (first | split | (dsimp only; split))
  all_goals (first  | (refine ⟨_, rfl, ?_⟩; repeat' (first | (simp; done) | with_reducible rfl | (refine (mask_foldl (fun t x => ?_) _ _).trans ?_) | (refine runCommand_mask (by decide) _ _ _ _ _ (fun p img t ht => ?_)) | (simp [ht]; done) | exact ht | (refine (hostAccess_mask (by decide) _ _ _ _ (fun t => ?_) _)) | (refine (withHealth_mask _ (fun t => ?_) (by decide) _).trans ?_) | split | (dsimp only; split) | (simp; split))))

theorem execSeqEvictCopyDone_keeps {w : BitVec 38} (h : 0x80270a812#38 &&& w = 0x80270a812#38) (a0 : Nat) (s : State) :
    Keeps w s (execSeqEvictCopyDone a0 s) := by
  refine keeps_mono (W := 0x80270a812#38) ?_ h
  unfold execSeqEvictCopyDone
  repeat' (first | split | (dsimp only; split))
  all_goals (first  | (refine ⟨_, rfl, ?_⟩; repeat' (first | (simp; done) | with_reducible rfl | (refine (mask_foldl (fun t x => ?_) _ _).trans ?_) | (refine runCommand_mask (by decide) _ _ _ _ _ (fun p img t ht => ?_)) | (simp [ht]; done) | exact ht | (refine (hostAccess_mask (by decide) _ _ _ _ (fun t => ?_) _)) | (refine (withHealth_mask _ (fun t => ?_) (by decide) _).trans ?_) | split | (dsimp only; split) | (simp; split))))

theorem execSeqRestore_keeps {w : BitVec 38} (h : 0x400300810#38 &&& w = 0x400300810#38) (a0 : Nat) (a1 : BitVec 16) (s : State) :
    Keeps w s (execSeqRestore a0 a1 s) := by
  refine keeps_mono (W := 0x400300810#38) ?_ h
  unfold execSeqRestore
  repeat' (first | split | (dsimp only; split))
  all_goals (first  | (refine ⟨_, rfl, ?_⟩; repeat' (first | (simp; done) | with_reducible rfl | (refine (mask_foldl (fun t x => ?_) _ _).trans ?_) | (refine runCommand_mask (by decide) _ _ _ _ _ (fun p img t ht => ?_)) | (simp [ht]; done) | exact ht | (refine (hostAccess_mask (by decide) _ _ _ _ (fun t => ?_) _)) | (refine (withHealth_mask _ (fun t => ?_) (by decide) _).trans ?_) | split | (dsimp only; split) | (simp; split))))

theorem execSeqRestoreCopyDone_keeps {w : BitVec 38} (h : 0x80270a852#38 &&& w = 0x80270a852#38) (a0 : Nat) (s : State) :
    Keeps w s (execSeqRestoreCopyDone a0 s) := by
  refine keeps_mono (W := 0x80270a852#38) ?_ h
  unfold execSeqRestoreCopyDone
  repeat' (first | split | (dsimp only; split))
  all_goals (first  | (refine ⟨_, rfl, ?_⟩; repeat' (first | (simp; done) | with_reducible rfl | (refine (mask_foldl (fun t x => ?_) _ _).trans ?_) | (refine runCommand_mask (by decide) _ _ _ _ _ (fun p img t ht => ?_)) | (simp [ht]; done) | exact ht | (refine (hostAccess_mask (by decide) _ _ _ _ (fun t => ?_) _)) | (refine (withHealth_mask _ (fun t => ?_) (by decide) _).trans ?_) | split | (dsimp only; split) | (simp; split))))

theorem execStreamAccess_keeps {w : BitVec 38} (h : 0x708770#38 &&& w = 0x708770#38) (a0 : Nat) (a1 : VA) (a2 : Nat) (a3 : Bool) (a4 : Nat) (a5 : Nat) (a6 : Nat) (s : State) :
    Keeps w s (execStreamAccess a0 a1 a2 a3 a4 a5 a6 s) := by
  refine keeps_mono (W := 0x708770#38) ?_ h
  unfold execStreamAccess
  repeat' (first | split | (dsimp only; split))
  all_goals (first  | (refine ⟨_, rfl, ?_⟩; repeat' (first | (simp; done) | with_reducible rfl | (refine (mask_foldl (fun t x => ?_) _ _).trans ?_) | (refine runCommand_mask (by decide) _ _ _ _ _ (fun p img t ht => ?_)) | (simp [ht]; done) | exact ht | (refine (hostAccess_mask (by decide) _ _ _ _ (fun t => ?_) _)) | (refine (withHealth_mask _ (fun t => ?_) (by decide) _).trans ?_) | split | (dsimp only; split) | (simp; split))))

theorem execStbLookup_keeps {w : BitVec 38} (h : 0x4708770#38 &&& w = 0x4708770#38) (a0 : Nat) (a1 : TagRead) (s : State) :
    Keeps w s (execStbLookup a0 a1 s) := by
  refine keeps_mono (W := 0x4708770#38) ?_ h
  unfold execStbLookup
  dsimp only
  split
  · exact ⟨_, rfl, rfl⟩
  · split
    · exact ⟨_, rfl, rfl⟩
    · split
      · split
        · exact ⟨_, rfl, by simp⟩
        · split
          · rename_i t ht
            exact ⟨_, rfl, by rw [joinWalk_mask (by decide) _ _ _ _ _ _ t ht]; simp⟩
          · exact ⟨_, rfl, rfl⟩
      · split
        · rename_i t ht
          refine ⟨_, rfl, ?_⟩
          rw [joinWalk_mask (by decide) _ _ _ _ _ _ t ht, trCount_mask (by decide)]
          repeat' (first | (simp; done) | rfl | split)
        · refine ⟨_, rfl, ?_⟩
          repeat' (first | (simp; done) | rfl | split)


theorem execStbWalkDone_keeps {w : BitVec 38} (h : 0x4708770#38 &&& w = 0x4708770#38) (a0 : Nat) (a1 : TagRead) (s : State) :
    Keeps w s (execStbWalkDone a0 a1 s) := by
  refine keeps_mono (W := 0x4708770#38) ?_ h
  unfold execStbWalkDone
  repeat' (first | split | (dsimp only; split))
  all_goals (first  | (refine ⟨_, rfl, ?_⟩; repeat' (first | (simp; done) | with_reducible rfl | (refine (mask_foldl (fun t x => ?_) _ _).trans ?_) | (refine runCommand_mask (by decide) _ _ _ _ _ (fun p img t ht => ?_)) | (simp [ht]; done) | exact ht | (refine (hostAccess_mask (by decide) _ _ _ _ (fun t => ?_) _)) | (refine (withHealth_mask _ (fun t => ?_) (by decide) _).trans ?_) | split | (dsimp only; split) | (simp; split))))

theorem execFaultService_keeps {w : BitVec 38} (h : 0x700510#38 &&& w = 0x700510#38) (s : State) :
    Keeps w s (execFaultService s) := by
  refine keeps_mono (W := 0x700510#38) ?_ h
  unfold execFaultService
  repeat' (first | split | (dsimp only; split))
  all_goals (first  | (refine ⟨_, rfl, ?_⟩; repeat' (first | (simp; done) | with_reducible rfl | (refine (mask_foldl (fun t x => ?_) _ _).trans ?_) | (refine runCommand_mask (by decide) _ _ _ _ _ (fun p img t ht => ?_)) | (simp [ht]; done) | exact ht | (refine (hostAccess_mask (by decide) _ _ _ _ (fun t => ?_) _)) | (refine (withHealth_mask _ (fun t => ?_) (by decide) _).trans ?_) | split | (dsimp only; split) | (simp; split))))

theorem execTranslationPrefetch_keeps {w : BitVec 38} (h : 0x250#38 &&& w = 0x250#38) (a0 : Nat) (a1 : Nat) (a2 : Nat) (a3 : VA) (a4 : Nat) (s : State) :
    Keeps w s (execTranslationPrefetch a0 a1 a2 a3 a4 s) := by
  refine keeps_mono (W := 0x250#38) ?_ h
  unfold execTranslationPrefetch
  repeat' (first | split | (dsimp only; split))
  all_goals (first  | (refine ⟨_, rfl, ?_⟩; repeat' (first | (simp; done) | with_reducible rfl | (refine (mask_foldl (fun t x => ?_) _ _).trans ?_) | (refine runCommand_mask (by decide) _ _ _ _ _ (fun p img t ht => ?_)) | (simp [ht]; done) | exact ht | (refine (hostAccess_mask (by decide) _ _ _ _ (fun t => ?_) _)) | (refine (withHealth_mask _ (fun t => ?_) (by decide) _).trans ?_) | split | (dsimp only; split) | (simp; split))))

theorem execLineDataValid_keeps {w : BitVec 38} (h : 0x700130#38 &&& w = 0x700130#38) (a0 : Nat) (a1 : Nat) (a2 : RowSpan) (s : State) :
    Keeps w s (execLineDataValid a0 a1 a2 s) := by
  refine keeps_mono (W := 0x700130#38) ?_ h
  unfold execLineDataValid
  repeat' (first | split | (dsimp only; split))
  all_goals (first  | (refine ⟨_, rfl, ?_⟩; repeat' (first | (simp; done) | with_reducible rfl | (refine (mask_foldl (fun t x => ?_) _ _).trans ?_) | (refine runCommand_mask (by decide) _ _ _ _ _ (fun p img t ht => ?_)) | (simp [ht]; done) | exact ht | (refine (hostAccess_mask (by decide) _ _ _ _ (fun t => ?_) _)) | (refine (withHealth_mask _ (fun t => ?_) (by decide) _).trans ?_) | split | (dsimp only; split) | (simp; split))))

theorem execMulticastStageIssue_keeps {w : BitVec 38} (h : 0x700130#38 &&& w = 0x700130#38) (a0 : Nat) (a1 : Nat) (a2 : Nat) (a3 : Nat) (a4 : RowSpan) (s : State) :
    Keeps w s (execMulticastStageIssue a0 a1 a2 a3 a4 s) := by
  refine keeps_mono (W := 0x700130#38) ?_ h
  unfold execMulticastStageIssue
  repeat' (first | split | (dsimp only; split))
  all_goals (first  | (refine ⟨_, rfl, ?_⟩; repeat' (first | (simp; done) | with_reducible rfl | (refine (mask_foldl (fun t x => ?_) _ _).trans ?_) | (refine runCommand_mask (by decide) _ _ _ _ _ (fun p img t ht => ?_)) | (simp [ht]; done) | exact ht | (refine (hostAccess_mask (by decide) _ _ _ _ (fun t => ?_) _)) | (refine (withHealth_mask _ (fun t => ?_) (by decide) _).trans ?_) | split | (dsimp only; split) | (simp; split))))

theorem execInvalidationDone_keeps {w : BitVec 38} (h : 0x700550#38 &&& w = 0x700550#38) (a0 : Nat) (s : State) :
    Keeps w s (execInvalidationDone a0 s) := by
  refine keeps_mono (W := 0x700550#38) ?_ h
  unfold execInvalidationDone
  repeat' (first | split | (dsimp only; split))
  all_goals (first  | (refine ⟨_, rfl, ?_⟩; repeat' (first | (simp; done) | with_reducible rfl | (refine (mask_foldl (fun t x => ?_) _ _).trans ?_) | (refine runCommand_mask (by decide) _ _ _ _ _ (fun p img t ht => ?_)) | (simp [ht]; done) | exact ht | (refine (hostAccess_mask (by decide) _ _ _ _ (fun t => ?_) _)) | (refine (withHealth_mask _ (fun t => ?_) (by decide) _).trans ?_) | split | (dsimp only; split) | (simp; split))))

theorem execMap_keeps {w : BitVec 38} (h : 0x400700750#38 &&& w = 0x400700750#38) (a0 : Nat) (a1 : BitVec 16) (s : State) :
    Keeps w s (execMap a0 a1 s) := by
  refine keeps_mono (W := 0x400700750#38) ?_ h
  unfold execMap
  repeat' (first | split | (dsimp only; split))
  all_goals (first  | (refine ⟨_, rfl, ?_⟩; repeat' (first | (simp; done) | with_reducible rfl | (refine (mask_foldl (fun t x => ?_) _ _).trans ?_) | (refine runCommand_mask (by decide) _ _ _ _ _ (fun p img t ht => ?_)) | (simp [ht]; done) | exact ht | (refine (hostAccess_mask (by decide) _ _ _ _ (fun t => ?_) _)) | (refine (withHealth_mask _ (fun t => ?_) (by decide) _).trans ?_) | split | (dsimp only; split) | (simp; split))))

theorem execUnmap_keeps {w : BitVec 38} (h : 0x400300250#38 &&& w = 0x400300250#38) (a0 : Nat) (a1 : BitVec 16) (s : State) :
    Keeps w s (execUnmap a0 a1 s) := by
  refine keeps_mono (W := 0x400300250#38) ?_ h
  unfold execUnmap
  repeat' (first | split | (dsimp only; split))
  all_goals (first  | (refine ⟨_, rfl, ?_⟩; repeat' (first | (simp; done) | with_reducible rfl | (refine (mask_foldl (fun t x => ?_) _ _).trans ?_) | (refine runCommand_mask (by decide) _ _ _ _ _ (fun p img t ht => ?_)) | (simp [ht]; done) | exact ht | (refine (hostAccess_mask (by decide) _ _ _ _ (fun t => ?_) _)) | (refine (withHealth_mask _ (fun t => ?_) (by decide) _).trans ?_) | split | (dsimp only; split) | (simp; split))))

theorem execProtect_keeps {w : BitVec 38} (h : 0x400700750#38 &&& w = 0x400700750#38) (a0 : Nat) (a1 : BitVec 16) (s : State) :
    Keeps w s (execProtect a0 a1 s) := by
  refine keeps_mono (W := 0x400700750#38) ?_ h
  unfold execProtect
  repeat' (first | split | (dsimp only; split))
  all_goals (first  | (refine ⟨_, rfl, ?_⟩; repeat' (first | (simp; done) | with_reducible rfl | (refine (mask_foldl (fun t x => ?_) _ _).trans ?_) | (refine runCommand_mask (by decide) _ _ _ _ _ (fun p img t ht => ?_)) | (simp [ht]; done) | exact ht | (refine (hostAccess_mask (by decide) _ _ _ _ (fun t => ?_) _)) | (refine (withHealth_mask _ (fun t => ?_) (by decide) _).trans ?_) | split | (dsimp only; split) | (simp; split))))

theorem execMigrate_keeps {w : BitVec 38} (h : 0x400300250#38 &&& w = 0x400300250#38) (a0 : Nat) (a1 : BitVec 16) (s : State) :
    Keeps w s (execMigrate a0 a1 s) := by
  refine keeps_mono (W := 0x400300250#38) ?_ h
  unfold execMigrate
  repeat' (first | split | (dsimp only; split))
  all_goals (first  | (refine ⟨_, rfl, ?_⟩; repeat' (first | (simp; done) | with_reducible rfl | (refine (mask_foldl (fun t x => ?_) _ _).trans ?_) | (refine runCommand_mask (by decide) _ _ _ _ _ (fun p img t ht => ?_)) | (simp [ht]; done) | exact ht | (refine (hostAccess_mask (by decide) _ _ _ _ (fun t => ?_) _)) | (refine (withHealth_mask _ (fun t => ?_) (by decide) _).trans ?_) | split | (dsimp only; split) | (simp; split))))

theorem execMigrateCopyDone_keeps {w : BitVec 38} (h : 0x80270a752#38 &&& w = 0x80270a752#38) (a0 : Nat) (a1 : VA) (s : State) :
    Keeps w s (execMigrateCopyDone a0 a1 s) := by
  refine keeps_mono (W := 0x80270a752#38) ?_ h
  unfold execMigrateCopyDone
  repeat' (first | split | (dsimp only; split))
  all_goals (first  | (refine ⟨_, rfl, ?_⟩; repeat' (first | (simp; done) | with_reducible rfl | (refine (mask_foldl (fun t x => ?_) _ _).trans ?_) | (refine runCommand_mask (by decide) _ _ _ _ _ (fun p img t ht => ?_)) | (simp [ht]; done) | exact ht | (refine (hostAccess_mask (by decide) _ _ _ _ (fun t => ?_) _)) | (refine (withHealth_mask _ (fun t => ?_) (by decide) _).trans ?_) | split | (dsimp only; split) | (simp; split))))

theorem execFaultAbort_keeps {w : BitVec 38} (h : 0x400700510#38 &&& w = 0x400700510#38) (a0 : Nat) (a1 : BitVec 16) (s : State) :
    Keeps w s (execFaultAbort a0 a1 s) := by
  refine keeps_mono (W := 0x400700510#38) ?_ h
  unfold execFaultAbort
  repeat' (first | split | (dsimp only; split))
  all_goals (first  | (refine ⟨_, rfl, ?_⟩; repeat' (first | (simp; done) | with_reducible rfl | (refine (mask_foldl (fun t x => ?_) _ _).trans ?_) | (refine runCommand_mask (by decide) _ _ _ _ _ (fun p img t ht => ?_)) | (simp [ht]; done) | exact ht | (refine (hostAccess_mask (by decide) _ _ _ _ (fun t => ?_) _)) | (refine (withHealth_mask _ (fun t => ?_) (by decide) _).trans ?_) | split | (dsimp only; split) | (simp; split))))

theorem execHotSet_keeps {w : BitVec 38} (h : 0x400300010#38 &&& w = 0x400300010#38) (a0 : Nat) (a1 : BitVec 16) (s : State) :
    Keeps w s (execHotSet a0 a1 s) := by
  refine keeps_mono (W := 0x400300010#38) ?_ h
  unfold execHotSet
  repeat' (first | split | (dsimp only; split))
  all_goals (first  | (refine ⟨_, rfl, ?_⟩; repeat' (first | (simp; done) | with_reducible rfl | (refine (mask_foldl (fun t x => ?_) _ _).trans ?_) | (refine runCommand_mask (by decide) _ _ _ _ _ (fun p img t ht => ?_)) | (simp [ht]; done) | exact ht | (refine (hostAccess_mask (by decide) _ _ _ _ (fun t => ?_) _)) | (refine (withHealth_mask _ (fun t => ?_) (by decide) _).trans ?_) | split | (dsimp only; split) | (simp; split))))

theorem execHotRead_keeps {w : BitVec 38} (h : 0xc0270a012#38 &&& w = 0xc0270a012#38) (a0 : Nat) (a1 : BitVec 16) (s : State) :
    Keeps w s (execHotRead a0 a1 s) := by
  refine keeps_mono (W := 0xc0270a012#38) ?_ h
  unfold execHotRead
  repeat' (first | split | (dsimp only; split))
  all_goals (first  | (refine ⟨_, rfl, ?_⟩; repeat' (first | (simp; done) | with_reducible rfl | (refine (mask_foldl (fun t x => ?_) _ _).trans ?_) | (refine runCommand_mask (by decide) _ _ _ _ _ (fun p img t ht => ?_)) | (simp [ht]; done) | exact ht | (refine (hostAccess_mask (by decide) _ _ _ _ (fun t => ?_) _)) | (refine (withHealth_mask _ (fun t => ?_) (by decide) _).trans ?_) | split | (dsimp only; split) | (simp; split))))

theorem execTableDigest_keeps {w : BitVec 38} (h : 0x400300000#38 &&& w = 0x400300000#38) (a0 : Nat) (a1 : BitVec 16) (s : State) :
    Keeps w s (execTableDigest a0 a1 s) := by
  refine keeps_mono (W := 0x400300000#38) ?_ h
  unfold execTableDigest
  repeat' (first | split | (dsimp only; split))
  all_goals (first  | (refine ⟨_, rfl, ?_⟩; repeat' (first | (simp; done) | with_reducible rfl | (refine (mask_foldl (fun t x => ?_) _ _).trans ?_) | (refine runCommand_mask (by decide) _ _ _ _ _ (fun p img t ht => ?_)) | (simp [ht]; done) | exact ht | (refine (hostAccess_mask (by decide) _ _ _ _ (fun t => ?_) _)) | (refine (withHealth_mask _ (fun t => ?_) (by decide) _).trans ?_) | split | (dsimp only; split) | (simp; split))))

theorem execMcReadRequest_keeps {w : BitVec 38} (h : 0x802702172#38 &&& w = 0x802702172#38) (a0 : Nat) (a1 : Nat) (a2 : Nat) (a3 : Reader) (a4 : Ecc) (s : State) :
    Keeps w s (execMcReadRequest a0 a1 a2 a3 a4 s) := by
  refine keeps_mono (W := 0x802702172#38) ?_ h
  unfold execMcReadRequest
  repeat' (first | split | (dsimp only; split))
  all_goals (first  | (refine ⟨_, rfl, ?_⟩; repeat' (first | (simp; done) | with_reducible rfl | (refine (mask_foldl (fun t x => ?_) _ _).trans ?_) | (refine runCommand_mask (by decide) _ _ _ _ _ (fun p img t ht => ?_)) | (simp [ht]; done) | exact ht | (refine (hostAccess_mask (by decide) _ _ _ _ (fun t => ?_) _)) | (refine (withHealth_mask _ (fun t => ?_) (by decide) _).trans ?_) | split | (dsimp only; split) | (simp; split))))

theorem execMcWriteRequest_keeps {w : BitVec 38} (h : 0x802702112#38 &&& w = 0x802702112#38) (a0 : Nat) (a1 : Nat) (a2 : Nat) (a3 : BitVec 64) (a4 : BitVec 512) (s : State) :
    Keeps w s (execMcWriteRequest a0 a1 a2 a3 a4 s) := by
  refine keeps_mono (W := 0x802702112#38) ?_ h
  unfold execMcWriteRequest
  repeat' (first | split | (dsimp only; split))
  all_goals (first  | (refine ⟨_, rfl, ?_⟩; repeat' (first | (simp; done) | with_reducible rfl | (refine (mask_foldl (fun t x => ?_) _ _).trans ?_) | (refine runCommand_mask (by decide) _ _ _ _ _ (fun p img t ht => ?_)) | (simp [ht]; done) | exact ht | (refine (hostAccess_mask (by decide) _ _ _ _ (fun t => ?_) _)) | (refine (withHealth_mask _ (fun t => ?_) (by decide) _).trans ?_) | split | (dsimp only; split) | (simp; split))))

theorem execWcbEvict_keeps {w : BitVec 38} (h : 0x802702012#38 &&& w = 0x802702012#38) (a0 : Nat) (a1 : Nat) (a2 : Ecc) (s : State) :
    Keeps w s (execWcbEvict a0 a1 a2 s) := by
  refine keeps_mono (W := 0x802702012#38) ?_ h
  unfold execWcbEvict
  repeat' (first | split | (dsimp only; split))
  all_goals (first  | (refine ⟨_, rfl, ?_⟩; repeat' (first | (simp; done) | with_reducible rfl | (refine (mask_foldl (fun t x => ?_) _ _).trans ?_) | (refine runCommand_mask (by decide) _ _ _ _ _ (fun p img t ht => ?_)) | (simp [ht]; done) | exact ht | (refine (hostAccess_mask (by decide) _ _ _ _ (fun t => ?_) _)) | (refine (withHealth_mask _ (fun t => ?_) (by decide) _).trans ?_) | split | (dsimp only; split) | (simp; split))))

theorem execSoftRepairDone_keeps {w : BitVec 38} (h : 0x22010#38 &&& w = 0x22010#38) (a0 : Nat) (s : State) :
    Keeps w s (execSoftRepairDone a0 s) := by
  refine keeps_mono (W := 0x22010#38) ?_ h
  unfold execSoftRepairDone
  repeat' (first | split | (dsimp only; split))
  all_goals (first  | (refine ⟨_, rfl, ?_⟩; repeat' (first | (simp; done) | with_reducible rfl | (refine (mask_foldl (fun t x => ?_) _ _).trans ?_) | (refine runCommand_mask (by decide) _ _ _ _ _ (fun p img t ht => ?_)) | (simp [ht]; done) | exact ht | (refine (hostAccess_mask (by decide) _ _ _ _ (fun t => ?_) _)) | (refine (withHealth_mask _ (fun t => ?_) (by decide) _).trans ?_) | split | (dsimp only; split) | (simp; split))))

theorem execRefresh_keeps {w : BitVec 38} (h : 0x2000#38 &&& w = 0x2000#38) (a0 : Nat) (s : State) :
    Keeps w s (execRefresh a0 s) := by
  refine keeps_mono (W := 0x2000#38) ?_ h
  unfold execRefresh
  repeat' (first | split | (dsimp only; split))
  all_goals (first  | (refine ⟨_, rfl, ?_⟩; repeat' (first | (simp; done) | with_reducible rfl | (refine (mask_foldl (fun t x => ?_) _ _).trans ?_) | (refine runCommand_mask (by decide) _ _ _ _ _ (fun p img t ht => ?_)) | (simp [ht]; done) | exact ht | (refine (hostAccess_mask (by decide) _ _ _ _ (fun t => ?_) _)) | (refine (withHealth_mask _ (fun t => ?_) (by decide) _).trans ?_) | split | (dsimp only; split) | (simp; split))))

theorem execPatrolScrub_keeps {w : BitVec 38} (h : 0x802702012#38 &&& w = 0x802702012#38) (a0 : Nat) (a1 : Ecc) (s : State) :
    Keeps w s (execPatrolScrub a0 a1 s) := by
  refine keeps_mono (W := 0x802702012#38) ?_ h
  unfold execPatrolScrub
  repeat' (first | split | (dsimp only; split))
  all_goals (first  | (refine ⟨_, rfl, ?_⟩; repeat' (first | (simp; done) | with_reducible rfl | (refine (mask_foldl (fun t x => ?_) _ _).trans ?_) | (refine runCommand_mask (by decide) _ _ _ _ _ (fun p img t ht => ?_)) | (simp [ht]; done) | exact ht | (refine (hostAccess_mask (by decide) _ _ _ _ (fun t => ?_) _)) | (refine (withHealth_mask _ (fun t => ?_) (by decide) _).trans ?_) | split | (dsimp only; split) | (simp; split))))

theorem execScrubAged_keeps {w : BitVec 38} (h : 0x2000#38 &&& w = 0x2000#38) (a0 : Nat) (s : State) :
    Keeps w s (execScrubAged a0 s) := by
  refine keeps_mono (W := 0x2000#38) ?_ h
  unfold execScrubAged
  repeat' (first | split | (dsimp only; split))
  all_goals (first  | (refine ⟨_, rfl, ?_⟩; repeat' (first | (simp; done) | with_reducible rfl | (refine (mask_foldl (fun t x => ?_) _ _).trans ?_) | (refine runCommand_mask (by decide) _ _ _ _ _ (fun p img t ht => ?_)) | (simp [ht]; done) | exact ht | (refine (hostAccess_mask (by decide) _ _ _ _ (fun t => ?_) _)) | (refine (withHealth_mask _ (fun t => ?_) (by decide) _).trans ?_) | split | (dsimp only; split) | (simp; split))))

theorem execChannelLockLoss_keeps {w : BitVec 38} (h : 0x702000#38 &&& w = 0x702000#38) (a0 : Nat) (s : State) :
    Keeps w s (execChannelLockLoss a0 s) := by
  refine keeps_mono (W := 0x702000#38) ?_ h
  unfold execChannelLockLoss
  repeat' (first | split | (dsimp only; split))
  all_goals (first  | (refine ⟨_, rfl, ?_⟩; repeat' (first | (simp; done) | with_reducible rfl | (refine (mask_foldl (fun t x => ?_) _ _).trans ?_) | (refine runCommand_mask (by decide) _ _ _ _ _ (fun p img t ht => ?_)) | (simp [ht]; done) | exact ht | (refine (hostAccess_mask (by decide) _ _ _ _ (fun t => ?_) _)) | (refine (withHealth_mask _ (fun t => ?_) (by decide) _).trans ?_) | split | (dsimp only; split) | (simp; split))))

theorem execChannelRelock_keeps {w : BitVec 38} (h : 0x702000#38 &&& w = 0x702000#38) (a0 : Nat) (s : State) :
    Keeps w s (execChannelRelock a0 s) := by
  refine keeps_mono (W := 0x702000#38) ?_ h
  unfold execChannelRelock
  repeat' (first | split | (dsimp only; split))
  all_goals (first  | (refine ⟨_, rfl, ?_⟩; repeat' (first | (simp; done) | with_reducible rfl | (refine (mask_foldl (fun t x => ?_) _ _).trans ?_) | (refine runCommand_mask (by decide) _ _ _ _ _ (fun p img t ht => ?_)) | (simp [ht]; done) | exact ht | (refine (hostAccess_mask (by decide) _ _ _ _ (fun t => ?_) _)) | (refine (withHealth_mask _ (fun t => ?_) (by decide) _).trans ?_) | split | (dsimp only; split) | (simp; split))))

theorem execChannelFenceExpiry_keeps {w : BitVec 38} (h : 0x2722010#38 &&& w = 0x2722010#38) (a0 : Nat) (s : State) :
    Keeps w s (execChannelFenceExpiry a0 s) := by
  refine keeps_mono (W := 0x2722010#38) ?_ h
  unfold execChannelFenceExpiry
  repeat' (first | split | (dsimp only; split))
  all_goals (first  | (refine ⟨_, rfl, ?_⟩; repeat' (first | (simp; done) | with_reducible rfl | (refine (mask_foldl (fun t x => ?_) _ _).trans ?_) | (refine runCommand_mask (by decide) _ _ _ _ _ (fun p img t ht => ?_)) | (simp [ht]; done) | exact ht | (refine (hostAccess_mask (by decide) _ _ _ _ (fun t => ?_) _)) | (refine (withHealth_mask _ (fun t => ?_) (by decide) _).trans ?_) | split | (dsimp only; split) | (simp; split))))

theorem execChannelUeLimit_keeps {w : BitVec 38} (h : 0x2722010#38 &&& w = 0x2722010#38) (a0 : Nat) (s : State) :
    Keeps w s (execChannelUeLimit a0 s) := by
  refine keeps_mono (W := 0x2722010#38) ?_ h
  unfold execChannelUeLimit
  repeat' (first | split | (dsimp only; split))
  all_goals (first  | (refine ⟨_, rfl, ?_⟩; repeat' (first | (simp; done) | with_reducible rfl | (refine (mask_foldl (fun t x => ?_) _ _).trans ?_) | (refine runCommand_mask (by decide) _ _ _ _ _ (fun p img t ht => ?_)) | (simp [ht]; done) | exact ht | (refine (hostAccess_mask (by decide) _ _ _ _ (fun t => ?_) _)) | (refine (withHealth_mask _ (fun t => ?_) (by decide) _).trans ?_) | split | (dsimp only; split) | (simp; split))))

theorem execChannelRetrainDone_keeps {w : BitVec 38} (h : 0x2702012#38 &&& w = 0x2702012#38) (a0 : Nat) (a1 : Option Nat) (s : State) :
    Keeps w s (execChannelRetrainDone a0 a1 s) := by
  refine keeps_mono (W := 0x2702012#38) ?_ h
  unfold execChannelRetrainDone
  repeat' (first | split | (dsimp only; split))
  all_goals (first  | (refine ⟨_, rfl, ?_⟩; repeat' (first | (simp; done) | with_reducible rfl | (refine (mask_foldl (fun t x => ?_) _ _).trans ?_) | (refine runCommand_mask (by decide) _ _ _ _ _ (fun p img t ht => ?_)) | (simp [ht]; done) | exact ht | (refine (hostAccess_mask (by decide) _ _ _ _ (fun t => ?_) _)) | (refine (withHealth_mask _ (fun t => ?_) (by decide) _).trans ?_) | split | (dsimp only; split) | (simp; split))))

theorem execStackTempRead_keeps {w : BitVec 38} (h : 0x42a726010#38 &&& w = 0x42a726010#38) (a0 a1 : Nat) (s : State) :
    Keeps w s (execStackTempRead a0 a1 s) := by
  refine keeps_mono (W := 0x42a726010#38) ?_ h
  have e : ∀ v, (State.mask 0x42a726010#38 { s.modStack a0 (fun x => { x with temp := a1, level := v }) with
      pmu := { s.pmu with stackTempMax := max s.pmu.stackTempMax a1 } }) = s.mask 0x42a726010#38 := fun v =>
    (mask_pmu_open _ (by decide) (by simp [State.modStack, State.setStack])).trans (State.modStack_mask (by decide) ..)
  unfold execStackTempRead
  dsimp only
  split
  · exact ⟨_, rfl, rfl⟩
  · split
    · refine ⟨_, rfl, ?_⟩
      rw [postAll_mask (by decide), tripAlarm_mask (by decide)]
      refine (mask_foldl (fun t x => ?_) _ _).trans ?_
      · split
        · rfl
        · exact channelDown_mask (by decide) ..
      · exact e _
    · refine ⟨_, rfl, e _⟩

theorem execRepairStagingDone_keeps {w : BitVec 38} (h : 0x304010#38 &&& w = 0x304010#38) (a0 : Nat) (s : State) :
    Keeps w s (execRepairStagingDone a0 s) := by
  refine keeps_mono (W := 0x304010#38) ?_ h
  unfold execRepairStagingDone
  repeat' (first | split | (dsimp only; split))
  all_goals (first  | (refine ⟨_, rfl, ?_⟩; repeat' (first | (simp; done) | with_reducible rfl | (refine (mask_foldl (fun t x => ?_) _ _).trans ?_) | (refine runCommand_mask (by decide) _ _ _ _ _ (fun p img t ht => ?_)) | (simp [ht]; done) | exact ht | (refine (hostAccess_mask (by decide) _ _ _ _ (fun t => ?_) _)) | (refine (withHealth_mask _ (fun t => ?_) (by decide) _).trans ?_) | split | (dsimp only; split) | (simp; split))))

theorem execFarDrsResponse_keeps {w : BitVec 38} (h : 0x708110#38 &&& w = 0x708110#38) (a0 : Nat) (a1 : Nat) (a2 : BitVec 512) (a3 : Bool) (s : State) :
    Keeps w s (execFarDrsResponse a0 a1 a2 a3 s) := by
  refine keeps_mono (W := 0x708110#38) ?_ h
  unfold execFarDrsResponse
  repeat' (first | split | (dsimp only; split))
  all_goals (first  | (refine ⟨_, rfl, ?_⟩; repeat' (first | (simp; done) | with_reducible rfl | (refine (mask_foldl (fun t x => ?_) _ _).trans ?_) | (refine runCommand_mask (by decide) _ _ _ _ _ (fun p img t ht => ?_)) | (simp [ht]; done) | exact ht | (refine (hostAccess_mask (by decide) _ _ _ _ (fun t => ?_) _)) | (refine (withHealth_mask _ (fun t => ?_) (by decide) _).trans ?_) | split | (dsimp only; split) | (simp; split))))

theorem execFarNdrCmp_keeps {w : BitVec 38} (h : 0x708110#38 &&& w = 0x708110#38) (a0 : Nat) (a1 : Nat) (s : State) :
    Keeps w s (execFarNdrCmp a0 a1 s) := by
  refine keeps_mono (W := 0x708110#38) ?_ h
  unfold execFarNdrCmp
  repeat' (first | split | (dsimp only; split))
  all_goals (first  | (refine ⟨_, rfl, ?_⟩; repeat' (first | (simp; done) | with_reducible rfl | (refine (mask_foldl (fun t x => ?_) _ _).trans ?_) | (refine runCommand_mask (by decide) _ _ _ _ _ (fun p img t ht => ?_)) | (simp [ht]; done) | exact ht | (refine (hostAccess_mask (by decide) _ _ _ _ (fun t => ?_) _)) | (refine (withHealth_mask _ (fun t => ?_) (by decide) _).trans ?_) | split | (dsimp only; split) | (simp; split))))

theorem execFarLinkDown_keeps {w : BitVec 38} (h : 0x8000#38 &&& w = 0x8000#38) (a0 : Nat) (s : State) :
    Keeps w s (execFarLinkDown a0 s) := by
  refine keeps_mono (W := 0x8000#38) ?_ h
  unfold execFarLinkDown
  repeat' (first | split | (dsimp only; split))
  all_goals (first  | (refine ⟨_, rfl, ?_⟩; repeat' (first | (simp; done) | with_reducible rfl | (refine (mask_foldl (fun t x => ?_) _ _).trans ?_) | (refine runCommand_mask (by decide) _ _ _ _ _ (fun p img t ht => ?_)) | (simp [ht]; done) | exact ht | (refine (hostAccess_mask (by decide) _ _ _ _ (fun t => ?_) _)) | (refine (withHealth_mask _ (fun t => ?_) (by decide) _).trans ?_) | split | (dsimp only; split) | (simp; split))))

theorem execFarLinkUp_keeps {w : BitVec 38} (h : 0x8000#38 &&& w = 0x8000#38) (a0 : Nat) (s : State) :
    Keeps w s (execFarLinkUp a0 s) := by
  refine keeps_mono (W := 0x8000#38) ?_ h
  unfold execFarLinkUp
  repeat' (first | split | (dsimp only; split))
  all_goals (first  | (refine ⟨_, rfl, ?_⟩; repeat' (first | (simp; done) | with_reducible rfl | (refine (mask_foldl (fun t x => ?_) _ _).trans ?_) | (refine runCommand_mask (by decide) _ _ _ _ _ (fun p img t ht => ?_)) | (simp [ht]; done) | exact ht | (refine (hostAccess_mask (by decide) _ _ _ _ (fun t => ?_) _)) | (refine (withHealth_mask _ (fun t => ?_) (by decide) _).trans ?_) | split | (dsimp only; split) | (simp; split))))

theorem execFarLinkTimeout_keeps {w : BitVec 38} (h : 0x708110#38 &&& w = 0x708110#38) (a0 : Nat) (s : State) :
    Keeps w s (execFarLinkTimeout a0 s) := by
  refine keeps_mono (W := 0x708110#38) ?_ h
  unfold execFarLinkTimeout
  repeat' (first | split | (dsimp only; split))
  all_goals (first  | (refine ⟨_, rfl, ?_⟩; repeat' (first | (simp; done) | with_reducible rfl | (refine (mask_foldl (fun t x => ?_) _ _).trans ?_) | (refine runCommand_mask (by decide) _ _ _ _ _ (fun p img t ht => ?_)) | (simp [ht]; done) | exact ht | (refine (hostAccess_mask (by decide) _ _ _ _ (fun t => ?_) _)) | (refine (withHealth_mask _ (fun t => ?_) (by decide) _).trans ?_) | split | (dsimp only; split) | (simp; split))))

theorem execPortRetryLimit_keeps {w : BitVec 38} (h : 0x722010#38 &&& w = 0x722010#38) (a0 : Nat) (a1 : Nat) (s : State) :
    Keeps w s (execPortRetryLimit a0 a1 s) := by
  refine keeps_mono (W := 0x722010#38) ?_ h
  unfold execPortRetryLimit
  repeat' (first | split | (dsimp only; split))
  all_goals (first  | (refine ⟨_, rfl, ?_⟩; repeat' (first | (simp; done) | with_reducible rfl | (refine (mask_foldl (fun t x => ?_) _ _).trans ?_) | (refine runCommand_mask (by decide) _ _ _ _ _ (fun p img t ht => ?_)) | (simp [ht]; done) | exact ht | (refine (hostAccess_mask (by decide) _ _ _ _ (fun t => ?_) _)) | (refine (withHealth_mask _ (fun t => ?_) (by decide) _).trans ?_) | split | (dsimp only; split) | (simp; split))))

theorem execPortFecLimit_keeps {w : BitVec 38} (h : 0x722010#38 &&& w = 0x722010#38) (a0 : Nat) (a1 : Nat) (s : State) :
    Keeps w s (execPortFecLimit a0 a1 s) := by
  refine keeps_mono (W := 0x722010#38) ?_ h
  unfold execPortFecLimit
  repeat' (first | split | (dsimp only; split))
  all_goals (first  | (refine ⟨_, rfl, ?_⟩; repeat' (first | (simp; done) | with_reducible rfl | (refine (mask_foldl (fun t x => ?_) _ _).trans ?_) | (refine runCommand_mask (by decide) _ _ _ _ _ (fun p img t ht => ?_)) | (simp [ht]; done) | exact ht | (refine (hostAccess_mask (by decide) _ _ _ _ (fun t => ?_) _)) | (refine (withHealth_mask _ (fun t => ?_) (by decide) _).trans ?_) | split | (dsimp only; split) | (simp; split))))

theorem execPortLockLoss_keeps {w : BitVec 38} (h : 0x722010#38 &&& w = 0x722010#38) (a0 : Nat) (a1 : LockWatch) (s : State) :
    Keeps w s (execPortLockLoss a0 a1 s) := by
  refine keeps_mono (W := 0x722010#38) ?_ h
  unfold execPortLockLoss
  repeat' (first | split | (dsimp only; split))
  all_goals (first  | (refine ⟨_, rfl, ?_⟩; repeat' (first | (simp; done) | with_reducible rfl | (refine (mask_foldl (fun t x => ?_) _ _).trans ?_) | (refine runCommand_mask (by decide) _ _ _ _ _ (fun p img t ht => ?_)) | (simp [ht]; done) | exact ht | (refine (hostAccess_mask (by decide) _ _ _ _ (fun t => ?_) _)) | (refine (withHealth_mask _ (fun t => ?_) (by decide) _).trans ?_) | split | (dsimp only; split) | (simp; split))))

theorem execPortPeerFence_keeps {w : BitVec 38} (h : 0x722010#38 &&& w = 0x722010#38) (a0 : Nat) (a1 : Nat) (s : State) :
    Keeps w s (execPortPeerFence a0 a1 s) := by
  refine keeps_mono (W := 0x722010#38) ?_ h
  unfold execPortPeerFence
  repeat' (first | split | (dsimp only; split))
  all_goals (first  | (refine ⟨_, rfl, ?_⟩; repeat' (first | (simp; done) | with_reducible rfl | (refine (mask_foldl (fun t x => ?_) _ _).trans ?_) | (refine runCommand_mask (by decide) _ _ _ _ _ (fun p img t ht => ?_)) | (simp [ht]; done) | exact ht | (refine (hostAccess_mask (by decide) _ _ _ _ (fun t => ?_) _)) | (refine (withHealth_mask _ (fun t => ?_) (by decide) _).trans ?_) | split | (dsimp only; split) | (simp; split))))

theorem execPortRelock_keeps {w : BitVec 38} (h : 0x720010#38 &&& w = 0x720010#38) (a0 : Nat) (s : State) :
    Keeps w s (execPortRelock a0 s) := by
  refine keeps_mono (W := 0x720010#38) ?_ h
  unfold execPortRelock
  repeat' (first | split | (dsimp only; split))
  all_goals (first  | (refine ⟨_, rfl, ?_⟩; repeat' (first | (simp; done) | with_reducible rfl | (refine (mask_foldl (fun t x => ?_) _ _).trans ?_) | (refine runCommand_mask (by decide) _ _ _ _ _ (fun p img t ht => ?_)) | (simp [ht]; done) | exact ht | (refine (hostAccess_mask (by decide) _ _ _ _ (fun t => ?_) _)) | (refine (withHealth_mask _ (fun t => ?_) (by decide) _).trans ?_) | split | (dsimp only; split) | (simp; split))))

theorem execPortRelockTimeout_keeps {w : BitVec 38} (h : 0x22010#38 &&& w = 0x22010#38) (a0 : Nat) (s : State) :
    Keeps w s (execPortRelockTimeout a0 s) := by
  refine keeps_mono (W := 0x22010#38) ?_ h
  unfold execPortRelockTimeout
  repeat' (first | split | (dsimp only; split))
  all_goals (first  | (refine ⟨_, rfl, ?_⟩; repeat' (first | (simp; done) | with_reducible rfl | (refine (mask_foldl (fun t x => ?_) _ _).trans ?_) | (refine runCommand_mask (by decide) _ _ _ _ _ (fun p img t ht => ?_)) | (simp [ht]; done) | exact ht | (refine (hostAccess_mask (by decide) _ _ _ _ (fun t => ?_) _)) | (refine (withHealth_mask _ (fun t => ?_) (by decide) _).trans ?_) | split | (dsimp only; split) | (simp; split))))

theorem execLinkCalibration_keeps {w : BitVec 38} (h : 0x722010#38 &&& w = 0x722010#38) (a0 : Nat) (a1 : BitVec 8) (a2 : Nat) (s : State) :
    Keeps w s (execLinkCalibration a0 a1 a2 s) := by
  refine keeps_mono (W := 0x722010#38) ?_ h
  unfold execLinkCalibration
  repeat' (first | split | (dsimp only; split))
  all_goals (first  | (refine ⟨_, rfl, ?_⟩; repeat' (first | (simp; done) | with_reducible rfl | (refine (mask_foldl (fun t x => ?_) _ _).trans ?_) | (refine runCommand_mask (by decide) _ _ _ _ _ (fun p img t ht => ?_)) | (simp [ht]; done) | exact ht | (refine (hostAccess_mask (by decide) _ _ _ _ (fun t => ?_) _)) | (refine (withHealth_mask _ (fun t => ?_) (by decide) _).trans ?_) | split | (dsimp only; split) | (simp; split))))

theorem execPortTrainRetry_keeps {w : BitVec 38} (h : 0x2722010#38 &&& w = 0x2722010#38) (a0 : Nat) (a1 : List LaneWatch) (s : State) :
    Keeps w s (execPortTrainRetry a0 a1 s) := by
  refine keeps_mono (W := 0x2722010#38) ?_ h
  unfold execPortTrainRetry
  repeat' (first | split | (dsimp only; split))
  all_goals (first  | (refine ⟨_, rfl, ?_⟩; repeat' (first | (simp; done) | with_reducible rfl | (refine (mask_foldl (fun t x => ?_) _ _).trans ?_) | (refine runCommand_mask (by decide) _ _ _ _ _ (fun p img t ht => ?_)) | (simp [ht]; done) | exact ht | (refine (hostAccess_mask (by decide) _ _ _ _ (fun t => ?_) _)) | (refine (withHealth_mask _ (fun t => ?_) (by decide) _).trans ?_) | split | (dsimp only; split) | (simp; split))))

theorem execTrainingFrame_keeps {w : BitVec 38} (h : 0x20000#38 &&& w = 0x20000#38) (a0 : Nat) (a1 : Nat) (a2 : Bool) (s : State) :
    Keeps w s (execTrainingFrame a0 a1 a2 s) := by
  refine keeps_mono (W := 0x20000#38) ?_ h
  unfold execTrainingFrame
  repeat' (first | split | (dsimp only; split))
  all_goals (first  | (refine ⟨_, rfl, ?_⟩; repeat' (first | (simp; done) | with_reducible rfl | (refine (mask_foldl (fun t x => ?_) _ _).trans ?_) | (refine runCommand_mask (by decide) _ _ _ _ _ (fun p img t ht => ?_)) | (simp [ht]; done) | exact ht | (refine (hostAccess_mask (by decide) _ _ _ _ (fun t => ?_) _)) | (refine (withHealth_mask _ (fun t => ?_) (by decide) _).trans ?_) | split | (dsimp only; split) | (simp; split))))

theorem execIntermissionItemStart_keeps {w : BitVec 38} (h : 0x802722012#38 &&& w = 0x802722012#38) (a0 : Nat) (s : State) :
    Keeps w s (execIntermissionItemStart a0 s) := by
  refine keeps_mono (W := 0x802722012#38) ?_ h
  unfold execIntermissionItemStart
  repeat' (first | split | (dsimp only; split))
  all_goals (first  | (refine ⟨_, rfl, ?_⟩; repeat' (first | (simp; done) | with_reducible rfl | (refine (mask_foldl (fun t x => ?_) _ _).trans ?_) | (refine runCommand_mask (by decide) _ _ _ _ _ (fun p img t ht => ?_)) | (simp [ht]; done) | exact ht | (refine (hostAccess_mask (by decide) _ _ _ _ (fun t => ?_) _)) | (refine (withHealth_mask _ (fun t => ?_) (by decide) _).trans ?_) | split | (dsimp only; split) | (simp; split))))

theorem execPortRetrainDone_keeps {w : BitVec 38} (h : 0x2720010#38 &&& w = 0x2720010#38) (a0 : Nat) (a1 : Bool) (s : State) :
    Keeps w s (execPortRetrainDone a0 a1 s) := by
  refine keeps_mono (W := 0x2720010#38) ?_ h
  unfold execPortRetrainDone
  repeat' (first | split | (dsimp only; split))
  all_goals (first  | (refine ⟨_, rfl, ?_⟩; repeat' (first | (simp; done) | with_reducible rfl | (refine (mask_foldl (fun t x => ?_) _ _).trans ?_) | (refine runCommand_mask (by decide) _ _ _ _ _ (fun p img t ht => ?_)) | (simp [ht]; done) | exact ht | (refine (hostAccess_mask (by decide) _ _ _ _ (fun t => ?_) _)) | (refine (withHealth_mask _ (fun t => ?_) (by decide) _).trans ?_) | split | (dsimp only; split) | (simp; split))))

theorem execLaneRemapDone_keeps {w : BitVec 38} (h : 0x2720010#38 &&& w = 0x2720010#38) (a0 : Nat) (a1 : Bool) (a2 : Bool) (s : State) :
    Keeps w s (execLaneRemapDone a0 a1 a2 s) := by
  refine keeps_mono (W := 0x2720010#38) ?_ h
  unfold execLaneRemapDone
  repeat' (first | split | (dsimp only; split))
  all_goals (first  | (refine ⟨_, rfl, ?_⟩; repeat' (first | (simp; done) | with_reducible rfl | (refine (mask_foldl (fun t x => ?_) _ _).trans ?_) | (refine runCommand_mask (by decide) _ _ _ _ _ (fun p img t ht => ?_)) | (simp [ht]; done) | exact ht | (refine (hostAccess_mask (by decide) _ _ _ _ (fun t => ?_) _)) | (refine (withHealth_mask _ (fun t => ?_) (by decide) _).trans ?_) | split | (dsimp only; split) | (simp; split))))

theorem execIntermissionReq_keeps {w : BitVec 38} (h : 0x400322010#38 &&& w = 0x400322010#38) (a0 : Nat) (a1 : BitVec 16) (s : State) :
    Keeps w s (execIntermissionReq a0 a1 s) := by
  refine keeps_mono (W := 0x400322010#38) ?_ h
  unfold execIntermissionReq
  repeat' (first | split | (dsimp only; split))
  all_goals (first  | (refine ⟨_, rfl, ?_⟩; repeat' (first | (simp; done) | with_reducible rfl | (refine (mask_foldl (fun t x => ?_) _ _).trans ?_) | (refine runCommand_mask (by decide) _ _ _ _ _ (fun p img t ht => ?_)) | (simp [ht]; done) | exact ht | (refine (hostAccess_mask (by decide) _ _ _ _ (fun t => ?_) _)) | (refine (withHealth_mask _ (fun t => ?_) (by decide) _).trans ?_) | split | (dsimp only; split) | (simp; split))))

theorem execFlitReceive_keeps {w : BitVec 38} (h : 0x720010#38 &&& w = 0x720010#38) (a0 : Nat) (a1 : Flit) (s : State) :
    Keeps w s (execFlitReceive a0 a1 s) := by
  refine keeps_mono (W := 0x720010#38) ?_ h
  unfold execFlitReceive
  repeat' (first | split | (dsimp only; split))
  all_goals (first  | (refine ⟨_, rfl, ?_⟩; repeat' (first | (simp; done) | with_reducible rfl | (refine (mask_foldl (fun t x => ?_) _ _).trans ?_) | (refine runCommand_mask (by decide) _ _ _ _ _ (fun p img t ht => ?_)) | (simp [ht]; done) | exact ht | (refine (hostAccess_mask (by decide) _ _ _ _ (fun t => ?_) _)) | (refine (withHealth_mask _ (fun t => ?_) (by decide) _).trans ?_) | split | (dsimp only; split) | (simp; split))))

theorem execProbeFrame_keeps {w : BitVec 38} (h : 0x720010#38 &&& w = 0x720010#38) (a0 : Nat) (a1 : Nat) (a2 : Nat) (s : State) :
    Keeps w s (execProbeFrame a0 a1 a2 s) := by
  refine keeps_mono (W := 0x720010#38) ?_ h
  unfold execProbeFrame
  repeat' (first | split | (dsimp only; split))
  all_goals (first  | (refine ⟨_, rfl, ?_⟩; repeat' (first | (simp; done) | with_reducible rfl | (refine (mask_foldl (fun t x => ?_) _ _).trans ?_) | (refine runCommand_mask (by decide) _ _ _ _ _ (fun p img t ht => ?_)) | (simp [ht]; done) | exact ht | (refine (hostAccess_mask (by decide) _ _ _ _ (fun t => ?_) _)) | (refine (withHealth_mask _ (fun t => ?_) (by decide) _).trans ?_) | split | (dsimp only; split) | (simp; split))))

theorem execFabricSet_keeps {w : BitVec 38} (h : 0xc02722012#38 &&& w = 0xc02722012#38) (a0 : Nat) (a1 : BitVec 16) (s : State) :
    Keeps w s (execFabricSet a0 a1 s) := by
  refine keeps_mono (W := 0xc02722012#38) ?_ h
  unfold execFabricSet
  repeat' (first | split | (dsimp only; split))
  all_goals (first  | (refine ⟨_, rfl, ?_⟩; repeat' (first | (simp; done) | with_reducible rfl | (refine (mask_foldl (fun t x => ?_) _ _).trans ?_) | (refine runCommand_mask (by decide) _ _ _ _ _ (fun p img t ht => ?_)) | (simp [ht]; done) | exact ht | (refine (hostAccess_mask (by decide) _ _ _ _ (fun t => ?_) _)) | (refine (withHealth_mask _ (fun t => ?_) (by decide) _).trans ?_) | split | (dsimp only; split) | (simp; split))))

theorem execRouteSet_keeps {w : BitVec 38} (h : 0xc02722012#38 &&& w = 0xc02722012#38) (a0 : Nat) (a1 : BitVec 16) (s : State) :
    Keeps w s (execRouteSet a0 a1 s) := by
  refine keeps_mono (W := 0xc02722012#38) ?_ h
  unfold execRouteSet
  repeat' (first | split | (dsimp only; split))
  all_goals (first  | (refine ⟨_, rfl, ?_⟩; repeat' (first | (simp; done) | with_reducible rfl | (refine (mask_foldl (fun t x => ?_) _ _).trans ?_) | (refine runCommand_mask (by decide) _ _ _ _ _ (fun p img t ht => ?_)) | (simp [ht]; done) | exact ht | (refine (hostAccess_mask (by decide) _ _ _ _ (fun t => ?_) _)) | (refine (withHealth_mask _ (fun t => ?_) (by decide) _).trans ?_) | split | (dsimp only; split) | (simp; split))))

theorem execGroupSet_keeps {w : BitVec 38} (h : 0xc02722012#38 &&& w = 0xc02722012#38) (a0 : Nat) (a1 : BitVec 16) (s : State) :
    Keeps w s (execGroupSet a0 a1 s) := by
  refine keeps_mono (W := 0xc02722012#38) ?_ h
  unfold execGroupSet
  repeat' (first | split | (dsimp only; split))
  all_goals (first  | (refine ⟨_, rfl, ?_⟩; repeat' (first | (simp; done) | with_reducible rfl | (refine (mask_foldl (fun t x => ?_) _ _).trans ?_) | (refine runCommand_mask (by decide) _ _ _ _ _ (fun p img t ht => ?_)) | (simp [ht]; done) | exact ht | (refine (hostAccess_mask (by decide) _ _ _ _ (fun t => ?_) _)) | (refine (withHealth_mask _ (fun t => ?_) (by decide) _).trans ?_) | split | (dsimp only; split) | (simp; split))))

theorem execLbSet_keeps {w : BitVec 38} (h : 0x400340000#38 &&& w = 0x400340000#38) (a0 : Nat) (a1 : BitVec 16) (s : State) :
    Keeps w s (execLbSet a0 a1 s) := by
  refine keeps_mono (W := 0x400340000#38) ?_ h
  unfold execLbSet
  repeat' (first | split | (dsimp only; split))
  all_goals (first  | (refine ⟨_, rfl, ?_⟩; repeat' (first | (simp; done) | with_reducible rfl | (refine (mask_foldl (fun t x => ?_) _ _).trans ?_) | (refine runCommand_mask (by decide) _ _ _ _ _ (fun p img t ht => ?_)) | (simp [ht]; done) | exact ht | (refine (hostAccess_mask (by decide) _ _ _ _ (fun t => ?_) _)) | (refine (withHealth_mask _ (fun t => ?_) (by decide) _).trans ?_) | split | (dsimp only; split) | (simp; split))))

theorem execLbClear_keeps {w : BitVec 38} (h : 0x400340010#38 &&& w = 0x400340010#38) (a0 : Nat) (a1 : BitVec 16) (s : State) :
    Keeps w s (execLbClear a0 a1 s) := by
  refine keeps_mono (W := 0x400340010#38) ?_ h
  unfold execLbClear
  repeat' (first | split | (dsimp only; split))
  all_goals (first  | (refine ⟨_, rfl, ?_⟩; repeat' (first | (simp; done) | with_reducible rfl | (refine (mask_foldl (fun t x => ?_) _ _).trans ?_) | (refine runCommand_mask (by decide) _ _ _ _ _ (fun p img t ht => ?_)) | (simp [ht]; done) | exact ht | (refine (hostAccess_mask (by decide) _ _ _ _ (fun t => ?_) _)) | (refine (withHealth_mask _ (fun t => ?_) (by decide) _).trans ?_) | split | (dsimp only; split) | (simp; split))))

theorem execTableRead_keeps {w : BitVec 38} (h : 0xc0270a012#38 &&& w = 0xc0270a012#38) (a0 : Nat) (a1 : BitVec 16) (s : State) :
    Keeps w s (execTableRead a0 a1 s) := by
  refine keeps_mono (W := 0xc0270a012#38) ?_ h
  unfold execTableRead
  repeat' (first | split | (dsimp only; split))
  all_goals (first  | (refine ⟨_, rfl, ?_⟩; repeat' (first | (simp; done) | with_reducible rfl | (refine (mask_foldl (fun t x => ?_) _ _).trans ?_) | (refine runCommand_mask (by decide) _ _ _ _ _ (fun p img t ht => ?_)) | (simp [ht]; done) | exact ht | (refine (hostAccess_mask (by decide) _ _ _ _ (fun t => ?_) _)) | (refine (withHealth_mask _ (fun t => ?_) (by decide) _).trans ?_) | split | (dsimp only; split) | (simp; split))))

theorem execLinkQuery_keeps {w : BitVec 38} (h : 0xc0270a012#38 &&& w = 0xc0270a012#38) (a0 : Nat) (a1 : BitVec 16) (s : State) :
    Keeps w s (execLinkQuery a0 a1 s) := by
  refine keeps_mono (W := 0xc0270a012#38) ?_ h
  unfold execLinkQuery
  repeat' (first | split | (dsimp only; split))
  all_goals (first  | (refine ⟨_, rfl, ?_⟩; repeat' (first | (simp; done) | with_reducible rfl | (refine (mask_foldl (fun t x => ?_) _ _).trans ?_) | (refine runCommand_mask (by decide) _ _ _ _ _ (fun p img t ht => ?_)) | (simp [ht]; done) | exact ht | (refine (hostAccess_mask (by decide) _ _ _ _ (fun t => ?_) _)) | (refine (withHealth_mask _ (fun t => ?_) (by decide) _).trans ?_) | split | (dsimp only; split) | (simp; split))))

theorem execTransferIssue_keeps {w : BitVec 38} (h : 0x802722012#38 &&& w = 0x802722012#38) (a0 : Nat) (a1 : Nat) (s : State) :
    Keeps w s (execTransferIssue a0 a1 s) := by
  refine keeps_mono (W := 0x802722012#38) ?_ h
  unfold execTransferIssue
  repeat' (first | split | (dsimp only; split))
  all_goals (first  | (refine ⟨_, rfl, ?_⟩; repeat' (first | (simp; done) | with_reducible rfl | (refine (mask_foldl (fun t x => ?_) _ _).trans ?_) | (refine runCommand_mask (by decide) _ _ _ _ _ (fun p img t ht => ?_)) | (simp [ht]; done) | exact ht | (refine (hostAccess_mask (by decide) _ _ _ _ (fun t => ?_) _)) | (refine (withHealth_mask _ (fun t => ?_) (by decide) _).trans ?_) | split | (dsimp only; split) | (simp; split))))

theorem execDeliveryReceive_keeps {w : BitVec 38} (h : 0x8027a2012#38 &&& w = 0x8027a2012#38) (a0 : Nat) (a1 : BitVec 256) (a2 : List Byte) (s : State) :
    Keeps w s (execDeliveryReceive a0 a1 a2 s) := by
  refine keeps_mono (W := 0x8027a2012#38) ?_ h
  unfold execDeliveryReceive
  repeat' (first | split | (dsimp only; split))
  all_goals (first  | (refine ⟨_, rfl, ?_⟩; repeat' (first | (simp; done) | with_reducible rfl | (refine (mask_foldl (fun t x => ?_) _ _).trans ?_) | (refine runCommand_mask (by decide) _ _ _ _ _ (fun p img t ht => ?_)) | (simp [ht]; done) | exact ht | (refine (hostAccess_mask (by decide) _ _ _ _ (fun t => ?_) _)) | (refine (withHealth_mask _ (fun t => ?_) (by decide) _).trans ?_) | split | (dsimp only; split) | (simp; split))))

theorem execVoteContribute_keeps {w : BitVec 38} (h : 0x720010#38 &&& w = 0x720010#38) (a0 : Nat) (a1 : Nat) (s : State) :
    Keeps w s (execVoteContribute a0 a1 s) := by
  refine keeps_mono (W := 0x720010#38) ?_ h
  unfold execVoteContribute
  repeat' (first | split | (dsimp only; split))
  all_goals (first  | (refine ⟨_, rfl, ?_⟩; repeat' (first | (simp; done) | with_reducible rfl | (refine (mask_foldl (fun t x => ?_) _ _).trans ?_) | (refine runCommand_mask (by decide) _ _ _ _ _ (fun p img t ht => ?_)) | (simp [ht]; done) | exact ht | (refine (hostAccess_mask (by decide) _ _ _ _ (fun t => ?_) _)) | (refine (withHealth_mask _ (fun t => ?_) (by decide) _).trans ?_) | split | (dsimp only; split) | (simp; split))))

theorem execVoteFrame_keeps {w : BitVec 38} (h : 0x1004720010#38 &&& w = 0x1004720010#38) (a0 : Nat) (a1 : Nat) (a2 : Nat) (a3 : BitVec 32) (a4 : BitVec 4) (a5 : Nat) (s : State) :
    Keeps w s (execVoteFrame a0 a1 a2 a3 a4 a5 s) := by
  refine keeps_mono (W := 0x1004720010#38) ?_ h
  unfold execVoteFrame
  repeat' (first | split | (dsimp only; split))
  all_goals (first  | (refine ⟨_, rfl, ?_⟩; repeat' (first | (simp; done) | with_reducible rfl | (refine (mask_foldl (fun t x => ?_) _ _).trans ?_) | (refine runCommand_mask (by decide) _ _ _ _ _ (fun p img t ht => ?_)) | (simp [ht]; done) | exact ht | (refine (hostAccess_mask (by decide) _ _ _ _ (fun t => ?_) _)) | (refine (withHealth_mask _ (fun t => ?_) (by decide) _).trans ?_) | split | (dsimp only; split) | (simp; split))))

theorem execVoteLatch_keeps {w : BitVec 38} (h : 0x10#38 &&& w = 0x10#38) (a0 : Nat) (a1 : Nat) (s : State) :
    Keeps w s (execVoteLatch a0 a1 s) := by
  refine keeps_mono (W := 0x10#38) ?_ h
  unfold execVoteLatch
  repeat' (first | split | (dsimp only; split))
  all_goals (first  | (refine ⟨_, rfl, ?_⟩; repeat' (first | (simp; done) | with_reducible rfl | (refine (mask_foldl (fun t x => ?_) _ _).trans ?_) | (refine runCommand_mask (by decide) _ _ _ _ _ (fun p img t ht => ?_)) | (simp [ht]; done) | exact ht | (refine (hostAccess_mask (by decide) _ _ _ _ (fun t => ?_) _)) | (refine (withHealth_mask _ (fun t => ?_) (by decide) _).trans ?_) | split | (dsimp only; split) | (simp; split))))

theorem execChainSegment_keeps {w : BitVec 38} (h : 0x8027aa012#38 &&& w = 0x8027aa012#38) (a0 : Nat) (a1 : Nat) (a2 : Nat) (s : State) :
    Keeps w s (execChainSegment a0 a1 a2 s) := by
  refine keeps_mono (W := 0x8027aa012#38) ?_ h
  unfold execChainSegment
  repeat' (first | split | (dsimp only; split))
  all_goals (first  | (refine ⟨_, rfl, ?_⟩; repeat' (first | (simp; done) | with_reducible rfl | (refine (mask_foldl (fun t x => ?_) _ _).trans ?_) | (refine runCommand_mask (by decide) _ _ _ _ _ (fun p img t ht => ?_)) | (simp [ht]; done) | exact ht | (refine (hostAccess_mask (by decide) _ _ _ _ (fun t => ?_) _)) | (refine (withHealth_mask _ (fun t => ?_) (by decide) _).trans ?_) | split | (dsimp only; split) | (simp; split))))

theorem execDbProdWrite_keeps {w : BitVec 38} (h : 0x200700010#38 &&& w = 0x200700010#38) (a0 : Nat) (a1 : Nat) (a2 : BitVec 32) (s : State) :
    Keeps w s (execDbProdWrite a0 a1 a2 s) := by
  refine keeps_mono (W := 0x200700010#38) ?_ h
  unfold execDbProdWrite
  repeat' (first | split | (dsimp only; split))
  all_goals (first  | (refine ⟨_, rfl, ?_⟩; repeat' (first | (simp; done) | with_reducible rfl | (refine (mask_foldl (fun t x => ?_) _ _).trans ?_) | (refine runCommand_mask (by decide) _ _ _ _ _ (fun p img t ht => ?_)) | (simp [ht]; done) | exact ht | (refine (hostAccess_mask (by decide) _ _ _ _ (fun t => ?_) _)) | (refine (withHealth_mask _ (fun t => ?_) (by decide) _).trans ?_) | split | (dsimp only; split) | (simp; split))))

theorem execDbCplWrite_keeps {w : BitVec 38} (h : 0x200700010#38 &&& w = 0x200700010#38) (a0 : Nat) (a1 : Nat) (a2 : BitVec 32) (s : State) :
    Keeps w s (execDbCplWrite a0 a1 a2 s) := by
  refine keeps_mono (W := 0x200700010#38) ?_ h
  unfold execDbCplWrite
  repeat' (first | split | (dsimp only; split))
  all_goals (first  | (refine ⟨_, rfl, ?_⟩; repeat' (first | (simp; done) | with_reducible rfl | (refine (mask_foldl (fun t x => ?_) _ _).trans ?_) | (refine runCommand_mask (by decide) _ _ _ _ _ (fun p img t ht => ?_)) | (simp [ht]; done) | exact ht | (refine (hostAccess_mask (by decide) _ _ _ _ (fun t => ?_) _)) | (refine (withHealth_mask _ (fun t => ?_) (by decide) _).trans ?_) | split | (dsimp only; split) | (simp; split))))

theorem execDbEvconsWrite_keeps {w : BitVec 38} (h : 0x200700010#38 &&& w = 0x200700010#38) (a0 : Nat) (a1 : Nat) (a2 : BitVec 32) (s : State) :
    Keeps w s (execDbEvconsWrite a0 a1 a2 s) := by
  refine keeps_mono (W := 0x200700010#38) ?_ h
  unfold execDbEvconsWrite
  repeat' (first | split | (dsimp only; split))
  all_goals (first  | (refine ⟨_, rfl, ?_⟩; repeat' (first | (simp; done) | with_reducible rfl | (refine (mask_foldl (fun t x => ?_) _ _).trans ?_) | (refine runCommand_mask (by decide) _ _ _ _ _ (fun p img t ht => ?_)) | (simp [ht]; done) | exact ht | (refine (hostAccess_mask (by decide) _ _ _ _ (fun t => ?_) _)) | (refine (withHealth_mask _ (fun t => ?_) (by decide) _).trans ?_) | split | (dsimp only; split) | (simp; split))))

theorem execRingReset_keeps {w : BitVec 38} (h : 0x200700010#38 &&& w = 0x200700010#38) (a0 : Nat) (a1 : Nat) (a2 : BitVec 32) (s : State) :
    Keeps w s (execRingReset a0 a1 a2 s) := by
  refine keeps_mono (W := 0x200700010#38) ?_ h
  unfold execRingReset
  repeat' (first | split | (dsimp only; split))
  all_goals (first  | (refine ⟨_, rfl, ?_⟩; repeat' (first | (simp; done) | with_reducible rfl | (refine (mask_foldl (fun t x => ?_) _ _).trans ?_) | (refine runCommand_mask (by decide) _ _ _ _ _ (fun p img t ht => ?_)) | (simp [ht]; done) | exact ht | (refine (hostAccess_mask (by decide) _ _ _ _ (fun t => ?_) _)) | (refine (withHealth_mask _ (fun t => ?_) (by decide) _).trans ?_) | split | (dsimp only; split) | (simp; split))))

theorem execRingResetDone_keeps {w : BitVec 38} (h : 0x700000#38 &&& w = 0x700000#38) (a0 : Nat) (s : State) :
    Keeps w s (execRingResetDone a0 s) := by
  refine keeps_mono (W := 0x700000#38) ?_ h
  unfold execRingResetDone
  repeat' (first | split | (dsimp only; split))
  all_goals (first  | (refine ⟨_, rfl, ?_⟩; repeat' (first | (simp; done) | with_reducible rfl | (refine (mask_foldl (fun t x => ?_) _ _).trans ?_) | (refine runCommand_mask (by decide) _ _ _ _ _ (fun p img t ht => ?_)) | (simp [ht]; done) | exact ht | (refine (hostAccess_mask (by decide) _ _ _ _ (fun t => ?_) _)) | (refine (withHealth_mask _ (fun t => ?_) (by decide) _).trans ?_) | split | (dsimp only; split) | (simp; split))))

theorem execHeartbeatTick_keeps {w : BitVec 38} (h : 0x400000#38 &&& w = 0x400000#38) (a0 : BitVec 3) (s : State) :
    Keeps w s (execHeartbeatTick a0 s) := by
  refine keeps_mono (W := 0x400000#38) ?_ h
  unfold execHeartbeatTick
  repeat' (first | split | (dsimp only; split))
  all_goals (first  | (refine ⟨_, rfl, ?_⟩; repeat' (first | (simp; done) | with_reducible rfl | (refine (mask_foldl (fun t x => ?_) _ _).trans ?_) | (refine runCommand_mask (by decide) _ _ _ _ _ (fun p img t ht => ?_)) | (simp [ht]; done) | exact ht | (refine (hostAccess_mask (by decide) _ _ _ _ (fun t => ?_) _)) | (refine (withHealth_mask _ (fun t => ?_) (by decide) _).trans ?_) | split | (dsimp only; split) | (simp; split))))

theorem execCoreProgressFail_keeps {w : BitVec 38} (h : 0x8500000#38 &&& w = 0x8500000#38) (a0 : Nat) (s : State) :
    Keeps w s (execCoreProgressFail a0 s) := by
  refine keeps_mono (W := 0x8500000#38) ?_ h
  unfold execCoreProgressFail
  repeat' (first | split | (dsimp only; split))
  all_goals (first  | (refine ⟨_, rfl, ?_⟩; repeat' (first | (simp; done) | with_reducible rfl | (refine (mask_foldl (fun t x => ?_) _ _).trans ?_) | (refine runCommand_mask (by decide) _ _ _ _ _ (fun p img t ht => ?_)) | (simp [ht]; done) | exact ht | (refine (hostAccess_mask (by decide) _ _ _ _ (fun t => ?_) _)) | (refine (withHealth_mask _ (fun t => ?_) (by decide) _).trans ?_) | split | (dsimp only; split) | (simp; split))))

theorem execWatchdogExpiry_keeps {w : BitVec 38} (h : 0x8500000#38 &&& w = 0x8500000#38) (s : State) :
    Keeps w s (execWatchdogExpiry s) := by
  refine keeps_mono (W := 0x8500000#38) ?_ h
  unfold execWatchdogExpiry
  repeat' (first | split | (dsimp only; split))
  all_goals (first  | (refine ⟨_, rfl, ?_⟩; repeat' (first | (simp; done) | with_reducible rfl | (refine (mask_foldl (fun t x => ?_) _ _).trans ?_) | (refine runCommand_mask (by decide) _ _ _ _ _ (fun p img t ht => ?_)) | (simp [ht]; done) | exact ht | (refine (hostAccess_mask (by decide) _ _ _ _ (fun t => ?_) _)) | (refine (withHealth_mask _ (fun t => ?_) (by decide) _).trans ?_) | split | (dsimp only; split) | (simp; split))))

theorem execCcSramError_keeps {w : BitVec 38} (h : 0xc700010#38 &&& w = 0xc700010#38) (a0 : Bool) (s : State) :
    Keeps w s (execCcSramError a0 s) := by
  refine keeps_mono (W := 0xc700010#38) ?_ h
  unfold execCcSramError
  repeat' (first | split | (dsimp only; split))
  all_goals (first  | (refine ⟨_, rfl, ?_⟩; repeat' (first | (simp; done) | with_reducible rfl | (refine (mask_foldl (fun t x => ?_) _ _).trans ?_) | (refine runCommand_mask (by decide) _ _ _ _ _ (fun p img t ht => ?_)) | (simp [ht]; done) | exact ht | (refine (hostAccess_mask (by decide) _ _ _ _ (fun t => ?_) _)) | (refine (withHealth_mask _ (fun t => ?_) (by decide) _).trans ?_) | split | (dsimp only; split) | (simp; split))))

theorem execCifVersion_keeps {w : BitVec 38} (h : 0xc0270a012#38 &&& w = 0xc0270a012#38) (a0 : Nat) (a1 : BitVec 16) (s : State) :
    Keeps w s (execCifVersion a0 a1 s) := by
  refine keeps_mono (W := 0xc0270a012#38) ?_ h
  unfold execCifVersion
  repeat' (first | split | (dsimp only; split))
  all_goals (first  | (refine ⟨_, rfl, ?_⟩; repeat' (first | (simp; done) | with_reducible rfl | (refine (mask_foldl (fun t x => ?_) _ _).trans ?_) | (refine runCommand_mask (by decide) _ _ _ _ _ (fun p img t ht => ?_)) | (simp [ht]; done) | exact ht | (refine (hostAccess_mask (by decide) _ _ _ _ (fun t => ?_) _)) | (refine (withHealth_mask _ (fun t => ?_) (by decide) _).trans ?_) | split | (dsimp only; split) | (simp; split))))

theorem execCommandUnknownOpcode_keeps {w : BitVec 38} (h : 0x300000#38 &&& w = 0x300000#38) (a0 : Nat) (a1 : BitVec 16) (s : State) :
    Keeps w s (execCommandUnknownOpcode a0 a1 s) := by
  refine keeps_mono (W := 0x300000#38) ?_ h
  unfold execCommandUnknownOpcode
  repeat' (first | split | (dsimp only; split))
  all_goals (first  | (refine ⟨_, rfl, ?_⟩; repeat' (first | (simp; done) | with_reducible rfl | (refine (mask_foldl (fun t x => ?_) _ _).trans ?_) | (refine runCommand_mask (by decide) _ _ _ _ _ (fun p img t ht => ?_)) | (simp [ht]; done) | exact ht | (refine (hostAccess_mask (by decide) _ _ _ _ (fun t => ?_) _)) | (refine (withHealth_mask _ (fun t => ?_) (by decide) _).trans ?_) | split | (dsimp only; split) | (simp; split))))

theorem execEventRingSet_keeps {w : BitVec 38} (h : 0x400700010#38 &&& w = 0x400700010#38) (a0 : Nat) (a1 : BitVec 16) (s : State) :
    Keeps w s (execEventRingSet a0 a1 s) := by
  refine keeps_mono (W := 0x400700010#38) ?_ h
  unfold execEventRingSet
  repeat' (first | split | (dsimp only; split))
  all_goals (first  | (refine ⟨_, rfl, ?_⟩; repeat' (first | (simp; done) | with_reducible rfl | (refine (mask_foldl (fun t x => ?_) _ _).trans ?_) | (refine runCommand_mask (by decide) _ _ _ _ _ (fun p img t ht => ?_)) | (simp [ht]; done) | exact ht | (refine (hostAccess_mask (by decide) _ _ _ _ (fun t => ?_) _)) | (refine (withHealth_mask _ (fun t => ?_) (by decide) _).trans ?_) | split | (dsimp only; split) | (simp; split))))

theorem execChorLoad_keeps {w : BitVec 38} (h : 0x2c02702272#38 &&& w = 0x2c02702272#38) (a0 : Nat) (a1 : BitVec 16) (a2 : List TileProg) (s : State) :
    Keeps w s (execChorLoad a0 a1 a2 s) := by
  refine keeps_mono (W := 0x2c02702272#38) ?_ h
  unfold execChorLoad
  repeat' (first | split | (dsimp only; split))
  all_goals (first  | (refine ⟨_, rfl, ?_⟩; repeat' (first | (simp; done) | with_reducible rfl | (refine (mask_foldl (fun t x => ?_) _ _).trans ?_) | (refine runCommand_mask (by decide) _ _ _ _ _ (fun p img t ht => ?_)) | (simp [ht]; done) | exact ht | (refine (hostAccess_mask (by decide) _ _ _ _ (fun t => ?_) _)) | (refine (withHealth_mask _ (fun t => ?_) (by decide) _).trans ?_) | split | (dsimp only; split) | (simp; split))))

theorem execJobOpen_keeps {w : BitVec 38} (h : 0x400300010#38 &&& w = 0x400300010#38) (a0 : Nat) (a1 : BitVec 16) (s : State) :
    Keeps w s (execJobOpen a0 a1 s) := by
  refine keeps_mono (W := 0x400300010#38) ?_ h
  unfold execJobOpen
  repeat' (first | split | (dsimp only; split))
  all_goals (first  | (refine ⟨_, rfl, ?_⟩; repeat' (first | (simp; done) | with_reducible rfl | (refine (mask_foldl (fun t x => ?_) _ _).trans ?_) | (refine runCommand_mask (by decide) _ _ _ _ _ (fun p img t ht => ?_)) | (simp [ht]; done) | exact ht | (refine (hostAccess_mask (by decide) _ _ _ _ (fun t => ?_) _)) | (refine (withHealth_mask _ (fun t => ?_) (by decide) _).trans ?_) | split | (dsimp only; split) | (simp; split))))

theorem execJobEnd_keeps {w : BitVec 38} (h : 0xc0270adf2#38 &&& w = 0xc0270adf2#38) (a0 : Nat) (a1 : BitVec 16) (s : State) :
    Keeps w s (execJobEnd a0 a1 s) := by
  refine keeps_mono (W := 0xc0270adf2#38) ?_ h
  unfold execJobEnd
  repeat' (first | split | (dsimp only; split))
  all_goals (first  | (refine ⟨_, rfl, ?_⟩; repeat' (first | (simp; done) | with_reducible rfl | (refine (mask_foldl (fun t x => ?_) _ _).trans ?_) | (refine runCommand_mask (by decide) _ _ _ _ _ (fun p img t ht => ?_)) | (simp [ht]; done) | exact ht | (refine (hostAccess_mask (by decide) _ _ _ _ (fun t => ?_) _)) | (refine (withHealth_mask _ (fun t => ?_) (by decide) _).trans ?_) | split | (dsimp only; split) | (simp; split))))

theorem execQuietPoint_keeps {w : BitVec 38} (h : 0x80270adf2#38 &&& w = 0x80270adf2#38) (a0 : Nat) (s : State) :
    Keeps w s (execQuietPoint a0 s) := by
  refine keeps_mono (W := 0x80270adf2#38) ?_ h
  unfold execQuietPoint
  repeat' (first | split | (dsimp only; split))
  all_goals (first  | (refine ⟨_, rfl, ?_⟩; repeat' (first | (simp; done) | with_reducible rfl | (refine (mask_foldl (fun t x => ?_) _ _).trans ?_) | (refine runCommand_mask (by decide) _ _ _ _ _ (fun p img t ht => ?_)) | (simp [ht]; done) | exact ht | (refine (hostAccess_mask (by decide) _ _ _ _ (fun t => ?_) _)) | (refine (withHealth_mask _ (fun t => ?_) (by decide) _).trans ?_) | split | (dsimp only; split) | (simp; split))))

theorem execChorRun_keeps {w : BitVec 38} (h : 0x400720030#38 &&& w = 0x400720030#38) (a0 : Nat) (a1 : BitVec 16) (s : State) :
    Keeps w s (execChorRun a0 a1 s) := by
  refine keeps_mono (W := 0x400720030#38) ?_ h
  unfold execChorRun
  repeat' (first | split | (dsimp only; split))
  all_goals (first  | (refine ⟨_, rfl, ?_⟩; repeat' (first | (simp; done) | with_reducible rfl | (refine (mask_foldl (fun t x => ?_) _ _).trans ?_) | (refine runCommand_mask (by decide) _ _ _ _ _ (fun p img t ht => ?_)) | (simp [ht]; done) | exact ht | (refine (hostAccess_mask (by decide) _ _ _ _ (fun t => ?_) _)) | (refine (withHealth_mask _ (fun t => ?_) (by decide) _).trans ?_) | split | (dsimp only; split) | (simp; split))))

theorem execChorStop_keeps {w : BitVec 38} (h : 0x400700010#38 &&& w = 0x400700010#38) (a0 : Nat) (a1 : BitVec 16) (s : State) :
    Keeps w s (execChorStop a0 a1 s) := by
  refine keeps_mono (W := 0x400700010#38) ?_ h
  unfold execChorStop
  repeat' (first | split | (dsimp only; split))
  all_goals (first  | (refine ⟨_, rfl, ?_⟩; repeat' (first | (simp; done) | with_reducible rfl | (refine (mask_foldl (fun t x => ?_) _ _).trans ?_) | (refine runCommand_mask (by decide) _ _ _ _ _ (fun p img t ht => ?_)) | (simp [ht]; done) | exact ht | (refine (hostAccess_mask (by decide) _ _ _ _ (fun t => ?_) _)) | (refine (withHealth_mask _ (fun t => ?_) (by decide) _).trans ?_) | split | (dsimp only; split) | (simp; split))))

theorem execHoldRequest_keeps {w : BitVec 38} (h : 0x400300010#38 &&& w = 0x400300010#38) (a0 : Nat) (a1 : BitVec 16) (s : State) :
    Keeps w s (execHoldRequest a0 a1 s) := by
  refine keeps_mono (W := 0x400300010#38) ?_ h
  unfold execHoldRequest
  repeat' (first | split | (dsimp only; split))
  all_goals (first  | (refine ⟨_, rfl, ?_⟩; repeat' (first | (simp; done) | with_reducible rfl | (refine (mask_foldl (fun t x => ?_) _ _).trans ?_) | (refine runCommand_mask (by decide) _ _ _ _ _ (fun p img t ht => ?_)) | (simp [ht]; done) | exact ht | (refine (hostAccess_mask (by decide) _ _ _ _ (fun t => ?_) _)) | (refine (withHealth_mask _ (fun t => ?_) (by decide) _).trans ?_) | split | (dsimp only; split) | (simp; split))))

theorem execBarBoundary_keeps {w : BitVec 38} (h : 0xc0272a072#38 &&& w = 0xc0272a072#38) (a0 : BarActivity) (s : State) :
    Keeps w s (execBarBoundary a0 s) := by
  refine keeps_mono (W := 0xc0272a072#38) ?_ h
  unfold execBarBoundary
  repeat' (first | split | (dsimp only; split))
  all_goals (first  | (refine ⟨_, rfl, ?_⟩; repeat' (first | (simp; done) | with_reducible rfl | (refine (mask_foldl (fun t x => ?_) _ _).trans ?_) | (refine runCommand_mask (by decide) _ _ _ _ _ (fun p img t ht => ?_)) | (simp [ht]; done) | exact ht | (refine (hostAccess_mask (by decide) _ _ _ _ (fun t => ?_) _)) | (refine (withHealth_mask _ (fun t => ?_) (by decide) _).trans ?_) | split | (dsimp only; split) | (simp; split))))

theorem execCounterRead_keeps {w : BitVec 38} (h : 0xc0270a012#38 &&& w = 0xc0270a012#38) (a0 : Nat) (a1 : BitVec 16) (s : State) :
    Keeps w s (execCounterRead a0 a1 s) := by
  refine keeps_mono (W := 0xc0270a012#38) ?_ h
  unfold execCounterRead
  repeat' (first | split | (dsimp only; split))
  all_goals (first  | (refine ⟨_, rfl, ?_⟩; repeat' (first | (simp; done) | with_reducible rfl | (refine (mask_foldl (fun t x => ?_) _ _).trans ?_) | (refine runCommand_mask (by decide) _ _ _ _ _ (fun p img t ht => ?_)) | (simp [ht]; done) | exact ht | (refine (hostAccess_mask (by decide) _ _ _ _ (fun t => ?_) _)) | (refine (withHealth_mask _ (fun t => ?_) (by decide) _).trans ?_) | split | (dsimp only; split) | (simp; split))))

theorem execPowerTransitionDone_keeps {w : BitVec 38} (h : 0xc0272e032#38 &&& w = 0xc0272e032#38) (s : State) :
    Keeps w s (execPowerTransitionDone s) := by
  refine keeps_mono (W := 0xc0272e032#38) ?_ h
  unfold execPowerTransitionDone
  repeat' (first | split | (dsimp only; split))
  all_goals (first  | (refine ⟨_, rfl, ?_⟩; repeat' (first | (simp; done) | with_reducible rfl | (refine (mask_foldl (fun t x => ?_) _ _).trans ?_) | (refine runCommand_mask (by decide) _ _ _ _ _ (fun p img t ht => ?_)) | (simp [ht]; done) | exact ht | (refine (hostAccess_mask (by decide) _ _ _ _ (fun t => ?_) _)) | (refine (withHealth_mask _ (fun t => ?_) (by decide) _).trans ?_) | split | (dsimp only; split) | (simp; split))))

theorem execPowerState_keeps {w : BitVec 38} (h : 0x400300010#38 &&& w = 0x400300010#38) (a0 : Nat) (a1 : BitVec 16) (s : State) :
    Keeps w s (execPowerState a0 a1 s) := by
  refine keeps_mono (W := 0x400300010#38) ?_ h
  unfold execPowerState
  repeat' (first | split | (dsimp only; split))
  all_goals (first  | (refine ⟨_, rfl, ?_⟩; repeat' (first | (simp; done) | with_reducible rfl | (refine (mask_foldl (fun t x => ?_) _ _).trans ?_) | (refine runCommand_mask (by decide) _ _ _ _ _ (fun p img t ht => ?_)) | (simp [ht]; done) | exact ht | (refine (hostAccess_mask (by decide) _ _ _ _ (fun t => ?_) _)) | (refine (withHealth_mask _ (fun t => ?_) (by decide) _).trans ?_) | split | (dsimp only; split) | (simp; split))))

theorem execP1IdleEntry_keeps {w : BitVec 38} (h : 0x400000000#38 &&& w = 0x400000000#38) (s : State) :
    Keeps w s (execP1IdleEntry s) := by
  refine keeps_mono (W := 0x400000000#38) ?_ h
  unfold execP1IdleEntry
  repeat' (first | split | (dsimp only; split))
  all_goals (first  | (refine ⟨_, rfl, ?_⟩; repeat' (first | (simp; done) | with_reducible rfl | (refine (mask_foldl (fun t x => ?_) _ _).trans ?_) | (refine runCommand_mask (by decide) _ _ _ _ _ (fun p img t ht => ?_)) | (simp [ht]; done) | exact ht | (refine (hostAccess_mask (by decide) _ _ _ _ (fun t => ?_) _)) | (refine (withHealth_mask _ (fun t => ?_) (by decide) _).trans ?_) | split | (dsimp only; split) | (simp; split))))

theorem execPowerCap_keeps {w : BitVec 38} (h : 0x400300000#38 &&& w = 0x400300000#38) (a0 : Nat) (a1 : BitVec 16) (s : State) :
    Keeps w s (execPowerCap a0 a1 s) := by
  refine keeps_mono (W := 0x400300000#38) ?_ h
  unfold execPowerCap
  repeat' (first | split | (dsimp only; split))
  all_goals (first  | (refine ⟨_, rfl, ?_⟩; repeat' (first | (simp; done) | with_reducible rfl | (refine (mask_foldl (fun t x => ?_) _ _).trans ?_) | (refine runCommand_mask (by decide) _ _ _ _ _ (fun p img t ht => ?_)) | (simp [ht]; done) | exact ht | (refine (hostAccess_mask (by decide) _ _ _ _ (fun t => ?_) _)) | (refine (withHealth_mask _ (fun t => ?_) (by decide) _).trans ?_) | split | (dsimp only; split) | (simp; split))))

theorem execDutyAdjust_keeps {w : BitVec 38} (h : 0x400000000#38 &&& w = 0x400000000#38) (a0 : Nat) (s : State) : Keeps w s (execDutyAdjust a0 s) := by
  unfold execDutyAdjust
  (try split) <;> refine ⟨_, rfl, ?_⟩
  all_goals first
    | rfl
    | exact mask_mono (mask_pmu_open _ (by decide) rfl) h
    | (split <;> first | rfl | exact mask_mono (mask_pmu_open _ (by decide) rfl) h)

theorem execCapWindowEnd_keeps {w : BitVec 38} (h : 0x400700000#38 &&& w = 0x400700000#38) (a0 : Nat) (s : State) :
    Keeps w s (execCapWindowEnd a0 s) := by
  refine keeps_mono (W := 0x400700000#38) ?_ h
  unfold execCapWindowEnd
  repeat' (first | split | (dsimp only; split))
  all_goals (first  | (refine ⟨_, rfl, ?_⟩; repeat' (first | (simp; done) | with_reducible rfl | (refine (mask_foldl (fun t x => ?_) _ _).trans ?_) | (refine runCommand_mask (by decide) _ _ _ _ _ (fun p img t ht => ?_)) | (simp [ht]; done) | exact ht | (refine (hostAccess_mask (by decide) _ _ _ _ (fun t => ?_) _)) | (refine (withHealth_mask _ (fun t => ?_) (by decide) _).trans ?_) | split | (dsimp only; split) | (simp; split))))

theorem execDroopWarnStart_keeps {w : BitVec 38} (h : 0x400000000#38 &&& w = 0x400000000#38) (a0 : Nat) (s : State) : Keeps w s (execDroopWarnStart a0 s) := by
  unfold execDroopWarnStart
  (try split) <;> refine ⟨_, rfl, ?_⟩
  all_goals first
    | rfl
    | exact mask_mono (mask_pmu_open _ (by decide) rfl) h
    | (split <;> first | rfl | exact mask_mono (mask_pmu_open _ (by decide) rfl) h)

theorem execDroopWarnEnd_keeps {w : BitVec 38} (h : 0x400700010#38 &&& w = 0x400700010#38) (a0 : Nat) (s : State) :
    Keeps w s (execDroopWarnEnd a0 s) := by
  refine keeps_mono (W := 0x400700010#38) ?_ h
  unfold execDroopWarnEnd
  repeat' (first | split | (dsimp only; split))
  all_goals (first  | (refine ⟨_, rfl, ?_⟩; repeat' (first | (simp; done) | with_reducible rfl | (refine (mask_foldl (fun t x => ?_) _ _).trans ?_) | (refine runCommand_mask (by decide) _ _ _ _ _ (fun p img t ht => ?_)) | (simp [ht]; done) | exact ht | (refine (hostAccess_mask (by decide) _ _ _ _ (fun t => ?_) _)) | (refine (withHealth_mask _ (fun t => ?_) (by decide) _).trans ?_) | split | (dsimp only; split) | (simp; split))))

theorem execDieTempRead_keeps {w : BitVec 38} (h : 0x42a700010#38 &&& w = 0x42a700010#38) (a0 : Nat) (s : State) : Keeps w s (execDieTempRead a0 s) := by
  refine keeps_mono (W := 0x42a700010#38) ?_ h
  unfold execDieTempRead
  split
  · exact ⟨_, rfl, rfl⟩
  · refine ⟨_, rfl, ?_⟩
    split
    · rw [tripAlarm_mask (by decide), dieTripped_mask (by decide)]
      exact mask_pmu_open _ (by decide) rfl
    · exact mask_pmu_open _ (by decide) rfl

theorem execThermThrottleChange_keeps {w : BitVec 38} (h : 0x400000000#38 &&& w = 0x400000000#38) (a0 : Bool) (s : State) : Keeps w s (execThermThrottleChange a0 s) := by
  unfold execThermThrottleChange
  (try split) <;> refine ⟨_, rfl, ?_⟩
  all_goals first
    | rfl
    | exact mask_mono (mask_pmu_open _ (by decide) rfl) h
    | (split <;> first | rfl | exact mask_mono (mask_pmu_open _ (by decide) rfl) h)

theorem execSnapSet_keeps {w : BitVec 38} (h : 0x400700010#38 &&& w = 0x400700010#38) (a0 : Nat) (a1 : BitVec 16) (s : State) :
    Keeps w s (execSnapSet a0 a1 s) := by
  refine keeps_mono (W := 0x400700010#38) ?_ h
  unfold execSnapSet
  repeat' (first | split | (dsimp only; split))
  all_goals (first  | (refine ⟨_, rfl, ?_⟩; repeat' (first | (simp; done) | with_reducible rfl | (refine (mask_foldl (fun t x => ?_) _ _).trans ?_) | (refine runCommand_mask (by decide) _ _ _ _ _ (fun p img t ht => ?_)) | (simp [ht]; done) | exact ht | (refine (hostAccess_mask (by decide) _ _ _ _ (fun t => ?_) _)) | (refine (withHealth_mask _ (fun t => ?_) (by decide) _).trans ?_) | split | (dsimp only; split) | (simp; split))))

theorem execSnapQuery_keeps {w : BitVec 38} (h : 0xc0270a012#38 &&& w = 0xc0270a012#38) (a0 : Nat) (a1 : BitVec 16) (s : State) :
    Keeps w s (execSnapQuery a0 a1 s) := by
  refine keeps_mono (W := 0xc0270a012#38) ?_ h
  unfold execSnapQuery
  repeat' (first | split | (dsimp only; split))
  all_goals (first  | (refine ⟨_, rfl, ?_⟩; repeat' (first | (simp; done) | with_reducible rfl | (refine (mask_foldl (fun t x => ?_) _ _).trans ?_) | (refine runCommand_mask (by decide) _ _ _ _ _ (fun p img t ht => ?_)) | (simp [ht]; done) | exact ht | (refine (hostAccess_mask (by decide) _ _ _ _ (fun t => ?_) _)) | (refine (withHealth_mask _ (fun t => ?_) (by decide) _).trans ?_) | split | (dsimp only; split) | (simp; split))))

theorem execCreditFrame_keeps {w : BitVec 38} (h : 0x720010#38 &&& w = 0x720010#38) (a0 : Nat) (a1 : Nat) (a2 : Nat) (a3 : Nat) (a4 : Nat) (s : State) :
    Keeps w s (execCreditFrame a0 a1 a2 a3 a4 s) := by
  refine keeps_mono (W := 0x720010#38) ?_ h
  unfold execCreditFrame
  repeat' (first | split | (dsimp only; split))
  all_goals (first  | (refine ⟨_, rfl, ?_⟩; repeat' (first | (simp; done) | with_reducible rfl | (refine (mask_foldl (fun t x => ?_) _ _).trans ?_) | (refine runCommand_mask (by decide) _ _ _ _ _ (fun p img t ht => ?_)) | (simp [ht]; done) | exact ht | (refine (hostAccess_mask (by decide) _ _ _ _ (fun t => ?_) _)) | (refine (withHealth_mask _ (fun t => ?_) (by decide) _).trans ?_) | split | (dsimp only; split) | (simp; split))))

theorem execSnapStagingDone_keeps {w : BitVec 38} (h : 0x8c272a032#38 &&& w = 0x8c272a032#38) (a0 : Nat) (a1 : List (Nat × Nat)) (s : State) :
    Keeps w s (execSnapStagingDone a0 a1 s) := by
  refine keeps_mono (W := 0x8c272a032#38) ?_ h
  unfold execSnapStagingDone
  repeat' (first | split | (dsimp only; split))
  all_goals (first  | (refine ⟨_, rfl, ?_⟩; repeat' (first | (simp; done) | with_reducible rfl | (refine (mask_foldl (fun t x => ?_) _ _).trans ?_) | (refine runCommand_mask (by decide) _ _ _ _ _ (fun p img t ht => ?_)) | (simp [ht]; done) | exact ht | (refine (hostAccess_mask (by decide) _ _ _ _ (fun t => ?_) _)) | (refine (withHealth_mask _ (fun t => ?_) (by decide) _).trans ?_) | split | (dsimp only; split) | (simp; split))))

theorem execSnapSlotWritten_keeps {w : BitVec 38} (h : 0x40700010#38 &&& w = 0x40700010#38) (a0 : Nat) (a1 : Bool) (s : State) :
    Keeps w s (execSnapSlotWritten a0 a1 s) := by
  refine keeps_mono (W := 0x40700010#38) ?_ h
  unfold execSnapSlotWritten
  repeat' (first | split | (dsimp only; split))
  all_goals (first  | (refine ⟨_, rfl, ?_⟩; repeat' (first | (simp; done) | with_reducible rfl | (refine (mask_foldl (fun t x => ?_) _ _).trans ?_) | (refine runCommand_mask (by decide) _ _ _ _ _ (fun p img t ht => ?_)) | (simp [ht]; done) | exact ht | (refine (hostAccess_mask (by decide) _ _ _ _ (fun t => ?_) _)) | (refine (withHealth_mask _ (fun t => ?_) (by decide) _).trans ?_) | split | (dsimp only; split) | (simp; split))))

theorem execSnapSlotErase_keeps {w : BitVec 38} (h : 0x80000010#38 &&& w = 0x80000010#38) (a0 : Nat) (s : State) :
    Keeps w s (execSnapSlotErase a0 s) := by
  refine keeps_mono (W := 0x80000010#38) ?_ h
  unfold execSnapSlotErase
  repeat' (first | split | (dsimp only; split))
  all_goals (first  | (refine ⟨_, rfl, ?_⟩; repeat' (first | (simp; done) | with_reducible rfl | (refine (mask_foldl (fun t x => ?_) _ _).trans ?_) | (refine runCommand_mask (by decide) _ _ _ _ _ (fun p img t ht => ?_)) | (simp [ht]; done) | exact ht | (refine (hostAccess_mask (by decide) _ _ _ _ (fun t => ?_) _)) | (refine (withHealth_mask _ (fun t => ?_) (by decide) _).trans ?_) | split | (dsimp only; split) | (simp; split))))

theorem execNvmResponse_keeps {w : BitVec 38} (h : 0xc0700010#38 &&& w = 0xc0700010#38) (a0 : Nat) (a1 : Bool) (a2 : BitVec 512) (s : State) :
    Keeps w s (execNvmResponse a0 a1 a2 s) := by
  refine keeps_mono (W := 0xc0700010#38) ?_ h
  unfold execNvmResponse
  repeat' (first | split | (dsimp only; split))
  all_goals (first  | (refine ⟨_, rfl, ?_⟩; repeat' (first | (simp; done) | with_reducible rfl | (refine (mask_foldl (fun t x => ?_) _ _).trans ?_) | (refine runCommand_mask (by decide) _ _ _ _ _ (fun p img t ht => ?_)) | (simp [ht]; done) | exact ht | (refine (hostAccess_mask (by decide) _ _ _ _ (fun t => ?_) _)) | (refine (withHealth_mask _ (fun t => ?_) (by decide) _).trans ?_) | split | (dsimp only; split) | (simp; split))))

theorem execSnapRestore_keeps {w : BitVec 38} (h : 0xc0270a032#38 &&& w = 0xc0270a032#38) (a0 : Nat) (a1 : BitVec 16) (a2 : List Byte) (s : State) :
    Keeps w s (execSnapRestore a0 a1 a2 s) := by
  refine keeps_mono (W := 0xc0270a032#38) ?_ h
  unfold execSnapRestore
  repeat' (first | split | (dsimp only; split))
  all_goals (first  | (refine ⟨_, rfl, ?_⟩; repeat' (first | (simp; done) | with_reducible rfl | (refine (mask_foldl (fun t x => ?_) _ _).trans ?_) | (refine runCommand_mask (by decide) _ _ _ _ _ (fun p img t ht => ?_)) | (simp [ht]; done) | exact ht | (refine (hostAccess_mask (by decide) _ _ _ _ (fun t => ?_) _)) | (refine (withHealth_mask _ (fun t => ?_) (by decide) _).trans ?_) | split | (dsimp only; split) | (simp; split))))

theorem execSetPartner_keeps {w : BitVec 38} (h : 0x400720010#38 &&& w = 0x400720010#38) (a0 : Nat) (a1 : BitVec 16) (s : State) :
    Keeps w s (execSetPartner a0 a1 s) := by
  refine keeps_mono (W := 0x400720010#38) ?_ h
  unfold execSetPartner
  repeat' (first | split | (dsimp only; split))
  all_goals (first  | (refine ⟨_, rfl, ?_⟩; repeat' (first | (simp; done) | with_reducible rfl | (refine (mask_foldl (fun t x => ?_) _ _).trans ?_) | (refine runCommand_mask (by decide) _ _ _ _ _ (fun p img t ht => ?_)) | (simp [ht]; done) | exact ht | (refine (hostAccess_mask (by decide) _ _ _ _ (fun t => ?_) _)) | (refine (withHealth_mask _ (fun t => ?_) (by decide) _).trans ?_) | split | (dsimp only; split) | (simp; split))))

theorem execPartnerReply_keeps {w : BitVec 38} (h : 0x720010#38 &&& w = 0x720010#38) (a0 : Nat) (a1 : BitVec 16) (a2 : Nat) (a3 : Nat) (a4 : Nat) (s : State) :
    Keeps w s (execPartnerReply a0 a1 a2 a3 a4 s) := by
  refine keeps_mono (W := 0x720010#38) ?_ h
  unfold execPartnerReply
  repeat' (first | split | (dsimp only; split))
  all_goals (first  | (refine ⟨_, rfl, ?_⟩; repeat' (first | (simp; done) | with_reducible rfl | (refine (mask_foldl (fun t x => ?_) _ _).trans ?_) | (refine runCommand_mask (by decide) _ _ _ _ _ (fun p img t ht => ?_)) | (simp [ht]; done) | exact ht | (refine (hostAccess_mask (by decide) _ _ _ _ (fun t => ?_) _)) | (refine (withHealth_mask _ (fun t => ?_) (by decide) _).trans ?_) | split | (dsimp only; split) | (simp; split))))

theorem execPartnerTimeout_keeps {w : BitVec 38} (h : 0x300010#38 &&& w = 0x300010#38) (a0 : Nat) (s : State) :
    Keeps w s (execPartnerTimeout a0 s) := by
  refine keeps_mono (W := 0x300010#38) ?_ h
  unfold execPartnerTimeout
  repeat' (first | split | (dsimp only; split))
  all_goals (first  | (refine ⟨_, rfl, ?_⟩; repeat' (first | (simp; done) | with_reducible rfl | (refine (mask_foldl (fun t x => ?_) _ _).trans ?_) | (refine runCommand_mask (by decide) _ _ _ _ _ (fun p img t ht => ?_)) | (simp [ht]; done) | exact ht | (refine (hostAccess_mask (by decide) _ _ _ _ (fun t => ?_) _)) | (refine (withHealth_mask _ (fun t => ?_) (by decide) _).trans ?_) | split | (dsimp only; split) | (simp; split))))

theorem execPartnerRequest_keeps {w : BitVec 38} (h : 0x720010#38 &&& w = 0x720010#38) (a0 : Nat) (a1 : Nat) (a2 : Nat) (s : State) :
    Keeps w s (execPartnerRequest a0 a1 a2 s) := by
  refine keeps_mono (W := 0x720010#38) ?_ h
  unfold execPartnerRequest
  repeat' (first | split | (dsimp only; split))
  all_goals (first  | (refine ⟨_, rfl, ?_⟩; repeat' (first | (simp; done) | with_reducible rfl | (refine (mask_foldl (fun t x => ?_) _ _).trans ?_) | (refine runCommand_mask (by decide) _ _ _ _ _ (fun p img t ht => ?_)) | (simp [ht]; done) | exact ht | (refine (hostAccess_mask (by decide) _ _ _ _ (fun t => ?_) _)) | (refine (withHealth_mask _ (fun t => ?_) (by decide) _).trans ?_) | split | (dsimp only; split) | (simp; split))))

theorem execMirrorDone_keeps {w : BitVec 38} (h : 0x700010#38 &&& w = 0x700010#38) (a0 : Nat) (a1 : Bool) (s : State) :
    Keeps w s (execMirrorDone a0 a1 s) := by
  refine keeps_mono (W := 0x700010#38) ?_ h
  unfold execMirrorDone
  repeat' (first | split | (dsimp only; split))
  all_goals (first  | (refine ⟨_, rfl, ?_⟩; repeat' (first | (simp; done) | with_reducible rfl | (refine (mask_foldl (fun t x => ?_) _ _).trans ?_) | (refine runCommand_mask (by decide) _ _ _ _ _ (fun p img t ht => ?_)) | (simp [ht]; done) | exact ht | (refine (hostAccess_mask (by decide) _ _ _ _ (fun t => ?_) _)) | (refine (withHealth_mask _ (fun t => ?_) (by decide) _).trans ?_) | split | (dsimp only; split) | (simp; split))))

theorem execMirrorTimeout_keeps {w : BitVec 38} (h : 0x700010#38 &&& w = 0x700010#38) (a0 : Nat) (s : State) :
    Keeps w s (execMirrorTimeout a0 s) := by
  refine keeps_mono (W := 0x700010#38) ?_ h
  unfold execMirrorTimeout
  repeat' (first | split | (dsimp only; split))
  all_goals (first  | (refine ⟨_, rfl, ?_⟩; repeat' (first | (simp; done) | with_reducible rfl | (refine (mask_foldl (fun t x => ?_) _ _).trans ?_) | (refine runCommand_mask (by decide) _ _ _ _ _ (fun p img t ht => ?_)) | (simp [ht]; done) | exact ht | (refine (hostAccess_mask (by decide) _ _ _ _ (fun t => ?_) _)) | (refine (withHealth_mask _ (fun t => ?_) (by decide) _).trans ?_) | split | (dsimp only; split) | (simp; split))))

theorem execFuseAck_keeps {w : BitVec 38} (h : 0x269c11008#38 &&& w = 0x269c11008#38) (a0 : BitVec 32) (s : State) :
    Keeps w s (execFuseAck a0 s) := by
  refine keeps_mono (W := 0x269c11008#38) ?_ h
  unfold execFuseAck
  repeat' (first | split | (dsimp only; split))
  all_goals (first  | (refine ⟨_, rfl, ?_⟩; repeat' (first | (simp; done) | with_reducible rfl | (refine (mask_foldl (fun t x => ?_) _ _).trans ?_) | (refine runCommand_mask (by decide) _ _ _ _ _ (fun p img t ht => ?_)) | (simp [ht]; done) | exact ht | (refine (hostAccess_mask (by decide) _ _ _ _ (fun t => ?_) _)) | (refine (withHealth_mask _ (fun t => ?_) (by decide) _).trans ?_) | split | (dsimp only; split) | (simp; split))))

theorem execResetEntry_keeps {w : BitVec 38} (h : 0x9fffffffa#38 &&& w = 0x9fffffffa#38) (s : State) :
    Keeps w s (execResetEntry s) := by
  refine keeps_mono (W := 0x9fffffffa#38) ?_ h
  unfold execResetEntry
  repeat' (first | split | (dsimp only; split))
  all_goals (first  | (refine ⟨_, rfl, ?_⟩; repeat' (first | (simp; done) | with_reducible rfl | (refine (mask_foldl (fun t x => ?_) _ _).trans ?_) | (refine runCommand_mask (by decide) _ _ _ _ _ (fun p img t ht => ?_)) | (simp [ht]; done) | exact ht | (refine (hostAccess_mask (by decide) _ _ _ _ (fun t => ?_) _)) | (refine (withHealth_mask _ (fun t => ?_) (by decide) _).trans ?_) | split | (dsimp only; split) | (simp; split))))

theorem execResetEntryDone_keeps {w : BitVec 38} (h : 0x20000000#38 &&& w = 0x20000000#38) (s : State) :
    Keeps w s (execResetEntryDone s) := by
  refine keeps_mono (W := 0x20000000#38) ?_ h
  unfold execResetEntryDone
  repeat' (first | split | (dsimp only; split))
  all_goals (first  | (refine ⟨_, rfl, ?_⟩; repeat' (first | (simp; done) | with_reducible rfl | (refine (mask_foldl (fun t x => ?_) _ _).trans ?_) | (refine runCommand_mask (by decide) _ _ _ _ _ (fun p img t ht => ?_)) | (simp [ht]; done) | exact ht | (refine (hostAccess_mask (by decide) _ _ _ _ (fun t => ?_) _)) | (refine (withHealth_mask _ (fun t => ?_) (by decide) _).trans ?_) | split | (dsimp only; split) | (simp; split))))

theorem execSupplyFailure_keeps {w : BitVec 38} (h : 0x5fffffffa#38 &&& w = 0x5fffffffa#38) (a0 : Nat) (s : State) :
    Keeps w s (execSupplyFailure a0 s) := by
  refine keeps_mono (W := 0x5fffffffa#38) ?_ h
  unfold execSupplyFailure
  repeat' (first | split | (dsimp only; split))
  all_goals (first  | (refine ⟨_, rfl, ?_⟩; repeat' (first | (simp; done) | with_reducible rfl | (refine (mask_foldl (fun t x => ?_) _ _).trans ?_) | (refine runCommand_mask (by decide) _ _ _ _ _ (fun p img t ht => ?_)) | (simp [ht]; done) | exact ht | (refine (hostAccess_mask (by decide) _ _ _ _ (fun t => ?_) _)) | (refine (withHealth_mask _ (fun t => ?_) (by decide) _).trans ?_) | split | (dsimp only; split) | (simp; split))))

theorem execPorAssert_keeps {w : BitVec 38} (h : 0x1fffffffa#38 &&& w = 0x1fffffffa#38) (s : State) :
    Keeps w s (execPorAssert s) := by
  refine keeps_mono (W := 0x1fffffffa#38) ?_ h
  unfold execPorAssert
  repeat' (first | split | (dsimp only; split))
  all_goals (first  | (refine ⟨_, rfl, ?_⟩; repeat' (first | (simp; done) | with_reducible rfl | (refine (mask_foldl (fun t x => ?_) _ _).trans ?_) | (refine runCommand_mask (by decide) _ _ _ _ _ (fun p img t ht => ?_)) | (simp [ht]; done) | exact ht | (refine (hostAccess_mask (by decide) _ _ _ _ (fun t => ?_) _)) | (refine (withHealth_mask _ (fun t => ?_) (by decide) _).trans ?_) | split | (dsimp only; split) | (simp; split))))

theorem execPorRelease_keeps {w : BitVec 38} (h : 0x428000000#38 &&& w = 0x428000000#38) (s : State) :
    Keeps w s (execPorRelease s) := by
  refine keeps_mono (W := 0x428000000#38) ?_ h
  unfold execPorRelease
  repeat' (first | split | (dsimp only; split))
  all_goals (first  | (refine ⟨_, rfl, ?_⟩; repeat' (first | (simp; done) | with_reducible rfl | (refine (mask_foldl (fun t x => ?_) _ _).trans ?_) | (refine runCommand_mask (by decide) _ _ _ _ _ (fun p img t ht => ?_)) | (simp [ht]; done) | exact ht | (refine (hostAccess_mask (by decide) _ _ _ _ (fun t => ?_) _)) | (refine (withHealth_mask _ (fun t => ?_) (by decide) _).trans ?_) | split | (dsimp only; split) | (simp; split))))

theorem execResetRelease_keeps {w : BitVec 38} (h : 0x20202022#38 &&& w = 0x20202022#38) (a0 : BootInput) (s : State) :
    Keeps w s (execResetRelease a0 s) := by
  refine keeps_mono (W := 0x20202022#38) ?_ h
  unfold execResetRelease
  repeat' (first | split | (dsimp only; split))
  all_goals (first  | (refine ⟨_, rfl, ?_⟩; repeat' (first | (simp; done) | with_reducible rfl | (refine (mask_foldl (fun t x => ?_) _ _).trans ?_) | (refine runCommand_mask (by decide) _ _ _ _ _ (fun p img t ht => ?_)) | (simp [ht]; done) | exact ht | (refine (hostAccess_mask (by decide) _ _ _ _ (fun t => ?_) _)) | (refine (withHealth_mask _ (fun t => ?_) (by decide) _).trans ?_) | split | (dsimp only; split) | (simp; split))))

theorem execSelfTests_keeps {w : BitVec 38} (h : 0xa7005f0#38 &&& w = 0xa7005f0#38) (a0 : SelfTestResult) (s : State) :
    Keeps w s (execSelfTests a0 s) := by
  refine keeps_mono (W := 0xa7005f0#38) ?_ h
  unfold execSelfTests
  repeat' (first | split | (dsimp only; split))
  all_goals (first  | (refine ⟨_, rfl, ?_⟩; repeat' (first | (simp; done) | with_reducible rfl | (refine (mask_foldl (fun t x => ?_) _ _).trans ?_) | (refine runCommand_mask (by decide) _ _ _ _ _ (fun p img t ht => ?_)) | (simp [ht]; done) | exact ht | (refine (hostAccess_mask (by decide) _ _ _ _ (fun t => ?_) _)) | (refine (withHealth_mask _ (fun t => ?_) (by decide) _).trans ?_) | split | (dsimp only; split) | (simp; split))))

theorem execHbmTraining_keeps {w : BitVec 38} (h : 0xc2a726010#38 &&& w = 0xc2a726010#38) (a0 : List StackTraining) (s : State) :
    Keeps w s (execHbmTraining a0 s) := by
  refine keeps_mono (W := 0xc2a726010#38) ?_ h
  unfold execHbmTraining
  repeat' (first | split | (dsimp only; split))
  all_goals (first  | (refine ⟨_, rfl, ?_⟩; repeat' (first | (simp; done) | with_reducible rfl | (refine (mask_foldl (fun t x => ?_) _ _).trans ?_) | (refine runCommand_mask (by decide) _ _ _ _ _ (fun p img t ht => ?_)) | (simp [ht]; done) | exact ht | (refine (hostAccess_mask (by decide) _ _ _ _ (fun t => ?_) _)) | (refine (withHealth_mask _ (fun t => ?_) (by decide) _).trans ?_) | split | (dsimp only; split) | (simp; split))))

theorem execLinkTraining_keeps {w : BitVec 38} (h : 0x2722010#38 &&& w = 0x2722010#38) (a0 : KMap (List LaneWatch)) (s : State) :
    Keeps w s (execLinkTraining a0 s) := by
  refine keeps_mono (W := 0x2722010#38) ?_ h
  unfold execLinkTraining
  repeat' (first | split | (dsimp only; split))
  all_goals (first  | (refine ⟨_, rfl, ?_⟩; repeat' (first | (simp; done) | with_reducible rfl | (refine (mask_foldl (fun t x => ?_) _ _).trans ?_) | (refine runCommand_mask (by decide) _ _ _ _ _ (fun p img t ht => ?_)) | (simp [ht]; done) | exact ht | (refine (hostAccess_mask (by decide) _ _ _ _ (fun t => ?_) _)) | (refine (withHealth_mask _ (fun t => ?_) (by decide) _).trans ?_) | split | (dsimp only; split) | (simp; split))))

theorem execHbmZeroInit_keeps {w : BitVec 38} (h : 0x2702000#38 &&& w = 0x2702000#38) (a0 : List Nat) (s : State) :
    Keeps w s (execHbmZeroInit a0 s) := by
  refine keeps_mono (W := 0x2702000#38) ?_ h
  unfold execHbmZeroInit
  repeat' (first | split | (dsimp only; split))
  all_goals (first  | (refine ⟨_, rfl, ?_⟩; repeat' (first | (simp; done) | with_reducible rfl | (refine (mask_foldl (fun t x => ?_) _ _).trans ?_) | (refine runCommand_mask (by decide) _ _ _ _ _ (fun p img t ht => ?_)) | (simp [ht]; done) | exact ht | (refine (hostAccess_mask (by decide) _ _ _ _ (fun t => ?_) _)) | (refine (withHealth_mask _ (fun t => ?_) (by decide) _).trans ?_) | split | (dsimp only; split) | (simp; split))))

theorem execFwRegionBuild_keeps {w : BitVec 38} (h : 0x2008700000#38 &&& w = 0x2008700000#38) (a0 : Bool) (s : State) :
    Keeps w s (execFwRegionBuild a0 s) := by
  refine keeps_mono (W := 0x2008700000#38) ?_ h
  unfold execFwRegionBuild
  repeat' (first | split | (dsimp only; split))
  all_goals (first  | (refine ⟨_, rfl, ?_⟩; repeat' (first | (simp; done) | with_reducible rfl | (refine (mask_foldl (fun t x => ?_) _ _).trans ?_) | (refine runCommand_mask (by decide) _ _ _ _ _ (fun p img t ht => ?_)) | (simp [ht]; done) | exact ht | (refine (hostAccess_mask (by decide) _ _ _ _ (fun t => ?_) _)) | (refine (withHealth_mask _ (fun t => ?_) (by decide) _).trans ?_) | split | (dsimp only; split) | (simp; split))))

theorem execJtagIrUpdate_keeps {w : BitVec 38} (h : 0x20000000#38 &&& w = 0x20000000#38) (a0 : BitVec 8) (s : State) :
    Keeps w s (execJtagIrUpdate a0 s) := by
  refine keeps_mono (W := 0x20000000#38) ?_ h
  unfold execJtagIrUpdate
  repeat' (first | split | (dsimp only; split))
  all_goals (first  | (refine ⟨_, rfl, ?_⟩; repeat' (first | (simp; done) | with_reducible rfl | (refine (mask_foldl (fun t x => ?_) _ _).trans ?_) | (refine runCommand_mask (by decide) _ _ _ _ _ (fun p img t ht => ?_)) | (simp [ht]; done) | exact ht | (refine (hostAccess_mask (by decide) _ _ _ _ (fun t => ?_) _)) | (refine (withHealth_mask _ (fun t => ?_) (by decide) _).trans ?_) | split | (dsimp only; split) | (simp; split))))

theorem execScanPattern_keeps {w : BitVec 38} (h : 0x20000002#38 &&& w = 0x20000002#38) (a0 : ScanDrive) (s : State) :
    Keeps w s (execScanPattern a0 s) := by
  refine keeps_mono (W := 0x20000002#38) ?_ h
  unfold execScanPattern
  repeat' (first | split | (dsimp only; split))
  all_goals (first  | (refine ⟨_, rfl, ?_⟩; repeat' (first | (simp; done) | with_reducible rfl | (refine (mask_foldl (fun t x => ?_) _ _).trans ?_) | (refine runCommand_mask (by decide) _ _ _ _ _ (fun p img t ht => ?_)) | (simp [ht]; done) | exact ht | (refine (hostAccess_mask (by decide) _ _ _ _ (fun t => ?_) _)) | (refine (withHealth_mask _ (fun t => ?_) (by decide) _).trans ?_) | split | (dsimp only; split) | (simp; split))))

theorem execFwStage_keeps {w : BitVec 38} (h : 0xc42702012#38 &&& w = 0xc42702012#38) (a0 : Nat) (a1 : BitVec 16) (s : State) :
    Keeps w s (execFwStage a0 a1 s) := by
  refine keeps_mono (W := 0xc42702012#38) ?_ h
  unfold execFwStage
  repeat' (first | split | (dsimp only; split))
  all_goals (first  | (refine ⟨_, rfl, ?_⟩; repeat' (first | (simp; done) | with_reducible rfl | (refine (mask_foldl (fun t x => ?_) _ _).trans ?_) | (refine runCommand_mask (by decide) _ _ _ _ _ (fun p img t ht => ?_)) | (simp [ht]; done) | exact ht | (refine (hostAccess_mask (by decide) _ _ _ _ (fun t => ?_) _)) | (refine (withHealth_mask _ (fun t => ?_) (by decide) _).trans ?_) | split | (dsimp only; split) | (simp; split))))

theorem execFwCommit_keeps {w : BitVec 38} (h : 0x440300000#38 &&& w = 0x440300000#38) (a0 : Nat) (a1 : BitVec 16) (s : State) :
    Keeps w s (execFwCommit a0 a1 s) := by
  refine keeps_mono (W := 0x440300000#38) ?_ h
  unfold execFwCommit
  repeat' (first | split | (dsimp only; split))
  all_goals (first  | (refine ⟨_, rfl, ?_⟩; repeat' (first | (simp; done) | with_reducible rfl | (refine (mask_foldl (fun t x => ?_) _ _).trans ?_) | (refine runCommand_mask (by decide) _ _ _ _ _ (fun p img t ht => ?_)) | (simp [ht]; done) | exact ht | (refine (hostAccess_mask (by decide) _ _ _ _ (fun t => ?_) _)) | (refine (withHealth_mask _ (fun t => ?_) (by decide) _).trans ?_) | split | (dsimp only; split) | (simp; split))))

theorem execFwConfirm_keeps {w : BitVec 38} (h : 0x440700000#38 &&& w = 0x440700000#38) (a0 : Nat) (a1 : BitVec 16) (s : State) :
    Keeps w s (execFwConfirm a0 a1 s) := by
  refine keeps_mono (W := 0x440700000#38) ?_ h
  unfold execFwConfirm
  refine ⟨_, rfl, ?_⟩
  refine runCommand_mask (by decide) _ _ _ _ _ (fun p img t ht => ?_)
  split
  · rw [complete_mask (by decide), ht]
  · split
    · rw [complete_mask (by decide), ht]
    · rw [complete_mask (by decide), mask_fw _ (by decide), modBootRec_mask (by decide), ht]

theorem execFwActivate_keeps {w : BitVec 38} (h : 0x6c8740ed0#38 &&& w = 0x6c8740ed0#38) (a0 : Nat) (a1 : BitVec 16) (s : State) :
    Keeps w s (execFwActivate a0 a1 s) := by
  refine keeps_mono (W := 0x6c8740ed0#38) ?_ h
  unfold execFwActivate
  repeat' (first | split | (dsimp only; split))
  all_goals (first  | (refine ⟨_, rfl, ?_⟩; repeat' (first | (simp; done) | with_reducible rfl | (refine (mask_foldl (fun t x => ?_) _ _).trans ?_) | (refine runCommand_mask (by decide) _ _ _ _ _ (fun p img t ht => ?_)) | (simp [ht]; done) | exact ht | (refine (hostAccess_mask (by decide) _ _ _ _ (fun t => ?_) _)) | (refine (withHealth_mask _ (fun t => ?_) (by decide) _).trans ?_) | split | (dsimp only; split) | (simp; split))))

theorem execDebugHalt_keeps {w : BitVec 38} (h : 0x400300020#38 &&& w = 0x400300020#38) (a0 : Nat) (a1 : BitVec 16) (s : State) :
    Keeps w s (execDebugHalt a0 a1 s) := by
  refine keeps_mono (W := 0x400300020#38) ?_ h
  unfold execDebugHalt
  repeat' (first | split | (dsimp only; split))
  all_goals (first  | (refine ⟨_, rfl, ?_⟩; repeat' (first | (simp; done) | with_reducible rfl | (refine (mask_foldl (fun t x => ?_) _ _).trans ?_) | (refine runCommand_mask (by decide) _ _ _ _ _ (fun p img t ht => ?_)) | (simp [ht]; done) | exact ht | (refine (hostAccess_mask (by decide) _ _ _ _ (fun t => ?_) _)) | (refine (withHealth_mask _ (fun t => ?_) (by decide) _).trans ?_) | split | (dsimp only; split) | (simp; split))))

theorem execDebugResume_keeps {w : BitVec 38} (h : 0x400300030#38 &&& w = 0x400300030#38) (a0 : Nat) (a1 : BitVec 16) (s : State) :
    Keeps w s (execDebugResume a0 a1 s) := by
  refine keeps_mono (W := 0x400300030#38) ?_ h
  unfold execDebugResume
  repeat' (first | split | (dsimp only; split))
  all_goals (first  | (refine ⟨_, rfl, ?_⟩; repeat' (first | (simp; done) | with_reducible rfl | (refine (mask_foldl (fun t x => ?_) _ _).trans ?_) | (refine runCommand_mask (by decide) _ _ _ _ _ (fun p img t ht => ?_)) | (simp [ht]; done) | exact ht | (refine (hostAccess_mask (by decide) _ _ _ _ (fun t => ?_) _)) | (refine (withHealth_mask _ (fun t => ?_) (by decide) _).trans ?_) | split | (dsimp only; split) | (simp; split))))

theorem execAcmDbgCopyDone_keeps {w : BitVec 38} (h : 0x10700032#38 &&& w = 0x10700032#38) (a0 : Bool) (s : State) :
    Keeps w s (execAcmDbgCopyDone a0 s) := by
  refine keeps_mono (W := 0x10700032#38) ?_ h
  unfold execAcmDbgCopyDone
  repeat' (first | split | (dsimp only; split))
  all_goals (first  | (refine ⟨_, rfl, ?_⟩; repeat' (first | (simp; done) | with_reducible rfl | (refine (mask_foldl (fun t x => ?_) _ _).trans ?_) | (refine runCommand_mask (by decide) _ _ _ _ _ (fun p img t ht => ?_)) | (simp [ht]; done) | exact ht | (refine (hostAccess_mask (by decide) _ _ _ _ (fun t => ?_) _)) | (refine (withHealth_mask _ (fun t => ?_) (by decide) _).trans ?_) | split | (dsimp only; split) | (simp; split))))

theorem execSpmDbgCopyDone_keeps {w : BitVec 38} (h : 0x10700030#38 &&& w = 0x10700030#38) (a0 : Bool) (s : State) :
    Keeps w s (execSpmDbgCopyDone a0 s) := by
  refine keeps_mono (W := 0x10700030#38) ?_ h
  unfold execSpmDbgCopyDone
  repeat' (first | split | (dsimp only; split))
  all_goals (first  | (refine ⟨_, rfl, ?_⟩; repeat' (first | (simp; done) | with_reducible rfl | (refine (mask_foldl (fun t x => ?_) _ _).trans ?_) | (refine runCommand_mask (by decide) _ _ _ _ _ (fun p img t ht => ?_)) | (simp [ht]; done) | exact ht | (refine (hostAccess_mask (by decide) _ _ _ _ (fun t => ?_) _)) | (refine (withHealth_mask _ (fun t => ?_) (by decide) _).trans ?_) | split | (dsimp only; split) | (simp; split))))

theorem execHealthRead_keeps {w : BitVec 38} (h : 0xc0270a012#38 &&& w = 0xc0270a012#38) (a0 : Nat) (a1 : BitVec 16) (s : State) :
    Keeps w s (execHealthRead a0 a1 s) := by
  refine keeps_mono (W := 0xc0270a012#38) ?_ h
  unfold execHealthRead
  repeat' (first | split | (dsimp only; split))
  all_goals (first  | (refine ⟨_, rfl, ?_⟩; repeat' (first | (simp; done) | with_reducible rfl | (refine (mask_foldl (fun t x => ?_) _ _).trans ?_) | (refine runCommand_mask (by decide) _ _ _ _ _ (fun p img t ht => ?_)) | (simp [ht]; done) | exact ht | (refine (hostAccess_mask (by decide) _ _ _ _ (fun t => ?_) _)) | (refine (withHealth_mask _ (fun t => ?_) (by decide) _).trans ?_) | split | (dsimp only; split) | (simp; split))))

theorem execLatchedLoRead_keeps {w : BitVec 38} (h : 0x300700010#38 &&& w = 0x300700010#38) (a0 : Nat) (a1 : BitVec 26) (s : State) :
    Keeps w s (execLatchedLoRead a0 a1 s) := by
  refine keeps_mono (W := 0x300700010#38) ?_ h
  unfold execLatchedLoRead
  repeat' (first | split | (dsimp only; split))
  all_goals (first  | (refine ⟨_, rfl, ?_⟩; repeat' (first | (simp; done) | with_reducible rfl | (refine (mask_foldl (fun t x => ?_) _ _).trans ?_) | (refine runCommand_mask (by decide) _ _ _ _ _ (fun p img t ht => ?_)) | (simp [ht]; done) | exact ht | (refine (hostAccess_mask (by decide) _ _ _ _ (fun t => ?_) _)) | (refine (withHealth_mask _ (fun t => ?_) (by decide) _).trans ?_) | split | (dsimp only; split) | (simp; split))))

theorem hostWrite_keeps {w : BitVec 38} (h : 0x1e147a2470#38 &&& w = 0x1e147a2470#38) (a0 : Nat) (a1 : Nat) (a2 : BitVec 32) (s : State) :
    Keeps w s (hostWrite a0 a1 a2 s) := by
  refine keeps_mono (W := 0x1e147a2470#38) ?_ h
  unfold hostWrite
  repeat' (first | split | (dsimp only; split))
  all_goals (first  | (refine ⟨_, rfl, ?_⟩; repeat' (first | (simp; done) | with_reducible rfl | (refine (mask_foldl (fun t x => ?_) _ _).trans ?_) | (refine runCommand_mask (by decide) _ _ _ _ _ (fun p img t ht => ?_)) | (simp [ht]; done) | exact ht | (refine (hostAccess_mask (by decide) _ _ _ _ (fun t => ?_) _)) | (refine (withHealth_mask _ (fun t => ?_) (by decide) _).trans ?_) | split | (dsimp only; split) | (simp; split))))

theorem execAcmDbgGo_keeps {w : BitVec 38} (h : 0x1e147a2470#38 &&& w = 0x1e147a2470#38) (a0 : Nat) (a1 : BitVec 32) (s : State) :
    Keeps w s (execAcmDbgGo a0 a1 s) := by
  refine keeps_mono (W := 0x1e147a2470#38) ?_ h
  unfold execAcmDbgGo
  repeat' (first | split | (dsimp only; split))
  all_goals (first | exact hostWrite_keeps (by decide) .. | (refine ⟨_, rfl, ?_⟩; repeat' (first | (simp; done) | with_reducible rfl | (refine (mask_foldl (fun t x => ?_) _ _).trans ?_) | (refine runCommand_mask (by decide) _ _ _ _ _ (fun p img t ht => ?_)) | (simp [ht]; done) | exact ht | (refine (hostAccess_mask (by decide) _ _ _ _ (fun t => ?_) _)) | (refine (withHealth_mask _ (fun t => ?_) (by decide) _).trans ?_) | split | (dsimp only; split) | (simp; split))))

theorem execSpmDbgGo_keeps {w : BitVec 38} (h : 0x1e147a2470#38 &&& w = 0x1e147a2470#38) (a0 : Nat) (a1 : BitVec 32) (s : State) :
    Keeps w s (execSpmDbgGo a0 a1 s) := by
  refine keeps_mono (W := 0x1e147a2470#38) ?_ h
  unfold execSpmDbgGo
  repeat' (first | split | (dsimp only; split))
  all_goals (first | exact hostWrite_keeps (by decide) .. | (refine ⟨_, rfl, ?_⟩; repeat' (first | (simp; done) | with_reducible rfl | (refine (mask_foldl (fun t x => ?_) _ _).trans ?_) | (refine runCommand_mask (by decide) _ _ _ _ _ (fun p img t ht => ?_)) | (simp [ht]; done) | exact ht | (refine (hostAccess_mask (by decide) _ _ _ _ (fun t => ?_) _)) | (refine (withHealth_mask _ (fun t => ?_) (by decide) _).trans ?_) | split | (dsimp only; split) | (simp; split))))

theorem execTelemEnable_keeps {w : BitVec 38} (h : 0x1e147a2470#38 &&& w = 0x1e147a2470#38) (a0 : Nat) (a1 : Nat) (a2 : BitVec 32) (s : State) :
    Keeps w s (execTelemEnable a0 a1 a2 s) := by
  refine keeps_mono (W := 0x1e147a2470#38) ?_ h
  unfold execTelemEnable
  repeat' (first | split | (dsimp only; split))
  all_goals (first | exact hostWrite_keeps (by decide) .. | (refine ⟨_, rfl, ?_⟩; repeat' (first | (simp; done) | with_reducible rfl | (refine (mask_foldl (fun t x => ?_) _ _).trans ?_) | (refine runCommand_mask (by decide) _ _ _ _ _ (fun p img t ht => ?_)) | (simp [ht]; done) | exact ht | (refine (hostAccess_mask (by decide) _ _ _ _ (fun t => ?_) _)) | (refine (withHealth_mask _ (fun t => ?_) (by decide) _).trans ?_) | split | (dsimp only; split) | (simp; split))))

theorem execTelemTailWrite_keeps {w : BitVec 38} (h : 0x1e147a2470#38 &&& w = 0x1e147a2470#38) (a0 : Nat) (a1 : Nat) (a2 : BitVec 32) (s : State) :
    Keeps w s (execTelemTailWrite a0 a1 a2 s) := by
  refine keeps_mono (W := 0x1e147a2470#38) ?_ h
  unfold execTelemTailWrite
  repeat' (first | split | (dsimp only; split))
  all_goals (first | exact hostWrite_keeps (by decide) .. | (refine ⟨_, rfl, ?_⟩; repeat' (first | (simp; done) | with_reducible rfl | (refine (mask_foldl (fun t x => ?_) _ _).trans ?_) | (refine runCommand_mask (by decide) _ _ _ _ _ (fun p img t ht => ?_)) | (simp [ht]; done) | exact ht | (refine (hostAccess_mask (by decide) _ _ _ _ (fun t => ?_) _)) | (refine (withHealth_mask _ (fun t => ?_) (by decide) _).trans ?_) | split | (dsimp only; split) | (simp; split))))

theorem execTelemStatClear_keeps {w : BitVec 38} (h : 0x1e147a2470#38 &&& w = 0x1e147a2470#38) (a0 : Nat) (a1 : Nat) (a2 : BitVec 32) (s : State) :
    Keeps w s (execTelemStatClear a0 a1 a2 s) := by
  refine keeps_mono (W := 0x1e147a2470#38) ?_ h
  unfold execTelemStatClear
  repeat' (first | split | (dsimp only; split))
  all_goals (first | exact hostWrite_keeps (by decide) .. | (refine ⟨_, rfl, ?_⟩; repeat' (first | (simp; done) | with_reducible rfl | (refine (mask_foldl (fun t x => ?_) _ _).trans ?_) | (refine runCommand_mask (by decide) _ _ _ _ _ (fun p img t ht => ?_)) | (simp [ht]; done) | exact ht | (refine (hostAccess_mask (by decide) _ _ _ _ (fun t => ?_) _)) | (refine (withHealth_mask _ (fun t => ?_) (by decide) _).trans ?_) | split | (dsimp only; split) | (simp; split))))

theorem execSpmCstatClear_keeps {w : BitVec 38} (h : 0x1e147a2470#38 &&& w = 0x1e147a2470#38) (a0 : Nat) (a1 : Nat) (a2 : BitVec 32) (s : State) :
    Keeps w s (execSpmCstatClear a0 a1 a2 s) := by
  refine keeps_mono (W := 0x1e147a2470#38) ?_ h
  unfold execSpmCstatClear
  repeat' (first | split | (dsimp only; split))
  all_goals (first | exact hostWrite_keeps (by decide) .. | (refine ⟨_, rfl, ?_⟩; repeat' (first | (simp; done) | with_reducible rfl | (refine (mask_foldl (fun t x => ?_) _ _).trans ?_) | (refine runCommand_mask (by decide) _ _ _ _ _ (fun p img t ht => ?_)) | (simp [ht]; done) | exact ht | (refine (hostAccess_mask (by decide) _ _ _ _ (fun t => ?_) _)) | (refine (withHealth_mask _ (fun t => ?_) (by decide) _).trans ?_) | split | (dsimp only; split) | (simp; split))))

theorem execMcCstatClear_keeps {w : BitVec 38} (h : 0x1e147a2470#38 &&& w = 0x1e147a2470#38) (a0 : Nat) (a1 : Nat) (a2 : BitVec 32) (s : State) :
    Keeps w s (execMcCstatClear a0 a1 a2 s) := by
  refine keeps_mono (W := 0x1e147a2470#38) ?_ h
  unfold execMcCstatClear
  repeat' (first | split | (dsimp only; split))
  all_goals (first | exact hostWrite_keeps (by decide) .. | (refine ⟨_, rfl, ?_⟩; repeat' (first | (simp; done) | with_reducible rfl | (refine (mask_foldl (fun t x => ?_) _ _).trans ?_) | (refine runCommand_mask (by decide) _ _ _ _ _ (fun p img t ht => ?_)) | (simp [ht]; done) | exact ht | (refine (hostAccess_mask (by decide) _ _ _ _ (fun t => ?_) _)) | (refine (withHealth_mask _ (fun t => ?_) (by decide) _).trans ?_) | split | (dsimp only; split) | (simp; split))))

theorem execTrCstatClear_keeps {w : BitVec 38} (h : 0x1e147a2470#38 &&& w = 0x1e147a2470#38) (a0 : Nat) (a1 : Nat) (a2 : BitVec 32) (s : State) :
    Keeps w s (execTrCstatClear a0 a1 a2 s) := by
  refine keeps_mono (W := 0x1e147a2470#38) ?_ h
  unfold execTrCstatClear
  repeat' (first | split | (dsimp only; split))
  all_goals (first | exact hostWrite_keeps (by decide) .. | (refine ⟨_, rfl, ?_⟩; repeat' (first | (simp; done) | with_reducible rfl | (refine (mask_foldl (fun t x => ?_) _ _).trans ?_) | (refine runCommand_mask (by decide) _ _ _ _ _ (fun p img t ht => ?_)) | (simp [ht]; done) | exact ht | (refine (hostAccess_mask (by decide) _ _ _ _ (fun t => ?_) _)) | (refine (withHealth_mask _ (fun t => ?_) (by decide) _).trans ?_) | split | (dsimp only; split) | (simp; split))))

theorem execFqCstatClear_keeps {w : BitVec 38} (h : 0x1e147a2470#38 &&& w = 0x1e147a2470#38) (a0 : Nat) (a1 : BitVec 32) (s : State) :
    Keeps w s (execFqCstatClear a0 a1 s) := by
  refine keeps_mono (W := 0x1e147a2470#38) ?_ h
  unfold execFqCstatClear
  repeat' (first | split | (dsimp only; split))
  all_goals (first | exact hostWrite_keeps (by decide) .. | (refine ⟨_, rfl, ?_⟩; repeat' (first | (simp; done) | with_reducible rfl | (refine (mask_foldl (fun t x => ?_) _ _).trans ?_) | (refine runCommand_mask (by decide) _ _ _ _ _ (fun p img t ht => ?_)) | (simp [ht]; done) | exact ht | (refine (hostAccess_mask (by decide) _ _ _ _ (fun t => ?_) _)) | (refine (withHealth_mask _ (fun t => ?_) (by decide) _).trans ?_) | split | (dsimp only; split) | (simp; split))))

theorem execLkCstatClear_keeps {w : BitVec 38} (h : 0x1e147a2470#38 &&& w = 0x1e147a2470#38) (a0 : Nat) (a1 : Nat) (a2 : BitVec 32) (s : State) :
    Keeps w s (execLkCstatClear a0 a1 a2 s) := by
  refine keeps_mono (W := 0x1e147a2470#38) ?_ h
  unfold execLkCstatClear
  repeat' (first | split | (dsimp only; split))
  all_goals (first | exact hostWrite_keeps (by decide) .. | (refine ⟨_, rfl, ?_⟩; repeat' (first | (simp; done) | with_reducible rfl | (refine (mask_foldl (fun t x => ?_) _ _).trans ?_) | (refine runCommand_mask (by decide) _ _ _ _ _ (fun p img t ht => ?_)) | (simp [ht]; done) | exact ht | (refine (hostAccess_mask (by decide) _ _ _ _ (fun t => ?_) _)) | (refine (withHealth_mask _ (fun t => ?_) (by decide) _).trans ?_) | split | (dsimp only; split) | (simp; split))))

theorem execCeCstatClear_keeps {w : BitVec 38} (h : 0x1e147a2470#38 &&& w = 0x1e147a2470#38) (a0 : Nat) (a1 : BitVec 32) (s : State) :
    Keeps w s (execCeCstatClear a0 a1 s) := by
  refine keeps_mono (W := 0x1e147a2470#38) ?_ h
  unfold execCeCstatClear
  repeat' (first | split | (dsimp only; split))
  all_goals (first | exact hostWrite_keeps (by decide) .. | (refine ⟨_, rfl, ?_⟩; repeat' (first | (simp; done) | with_reducible rfl | (refine (mask_foldl (fun t x => ?_) _ _).trans ?_) | (refine runCommand_mask (by decide) _ _ _ _ _ (fun p img t ht => ?_)) | (simp [ht]; done) | exact ht | (refine (hostAccess_mask (by decide) _ _ _ _ (fun t => ?_) _)) | (refine (withHealth_mask _ (fun t => ?_) (by decide) _).trans ?_) | split | (dsimp only; split) | (simp; split))))

theorem execStallCstatClear_keeps {w : BitVec 38} (h : 0x1e147a2470#38 &&& w = 0x1e147a2470#38) (a0 : Nat) (a1 : Nat) (a2 : BitVec 32) (s : State) :
    Keeps w s (execStallCstatClear a0 a1 a2 s) := by
  refine keeps_mono (W := 0x1e147a2470#38) ?_ h
  unfold execStallCstatClear
  repeat' (first | split | (dsimp only; split))
  all_goals (first | exact hostWrite_keeps (by decide) .. | (refine ⟨_, rfl, ?_⟩; repeat' (first | (simp; done) | with_reducible rfl | (refine (mask_foldl (fun t x => ?_) _ _).trans ?_) | (refine runCommand_mask (by decide) _ _ _ _ _ (fun p img t ht => ?_)) | (simp [ht]; done) | exact ht | (refine (hostAccess_mask (by decide) _ _ _ _ (fun t => ?_) _)) | (refine (withHealth_mask _ (fun t => ?_) (by decide) _).trans ?_) | split | (dsimp only; split) | (simp; split))))

theorem execPcntCstatClear_keeps {w : BitVec 38} (h : 0x1e147a2470#38 &&& w = 0x1e147a2470#38) (a0 : Nat) (a1 : Nat) (a2 : BitVec 32) (s : State) :
    Keeps w s (execPcntCstatClear a0 a1 a2 s) := by
  refine keeps_mono (W := 0x1e147a2470#38) ?_ h
  unfold execPcntCstatClear
  repeat' (first | split | (dsimp only; split))
  all_goals (first | exact hostWrite_keeps (by decide) .. | (refine ⟨_, rfl, ?_⟩; repeat' (first | (simp; done) | with_reducible rfl | (refine (mask_foldl (fun t x => ?_) _ _).trans ?_) | (refine runCommand_mask (by decide) _ _ _ _ _ (fun p img t ht => ?_)) | (simp [ht]; done) | exact ht | (refine (hostAccess_mask (by decide) _ _ _ _ (fun t => ?_) _)) | (refine (withHealth_mask _ (fun t => ?_) (by decide) _).trans ?_) | split | (dsimp only; split) | (simp; split))))

theorem execBlkCstatClear_keeps {w : BitVec 38} (h : 0x1e147a2470#38 &&& w = 0x1e147a2470#38) (a0 : Nat) (a1 : BitVec 32) (s : State) :
    Keeps w s (execBlkCstatClear a0 a1 s) := by
  refine keeps_mono (W := 0x1e147a2470#38) ?_ h
  unfold execBlkCstatClear
  repeat' (first | split | (dsimp only; split))
  all_goals (first | exact hostWrite_keeps (by decide) .. | (refine ⟨_, rfl, ?_⟩; repeat' (first | (simp; done) | with_reducible rfl | (refine (mask_foldl (fun t x => ?_) _ _).trans ?_) | (refine runCommand_mask (by decide) _ _ _ _ _ (fun p img t ht => ?_)) | (simp [ht]; done) | exact ht | (refine (hostAccess_mask (by decide) _ _ _ _ (fun t => ?_) _)) | (refine (withHealth_mask _ (fun t => ?_) (by decide) _).trans ?_) | split | (dsimp only; split) | (simp; split))))

theorem execHpfStatClear_keeps {w : BitVec 38} (h : 0x1e147a2470#38 &&& w = 0x1e147a2470#38) (a0 : Nat) (a1 : BitVec 32) (s : State) :
    Keeps w s (execHpfStatClear a0 a1 s) := by
  refine keeps_mono (W := 0x1e147a2470#38) ?_ h
  unfold execHpfStatClear
  repeat' (first | split | (dsimp only; split))
  all_goals (first | exact hostWrite_keeps (by decide) .. | (refine ⟨_, rfl, ?_⟩; repeat' (first | (simp; done) | with_reducible rfl | (refine (mask_foldl (fun t x => ?_) _ _).trans ?_) | (refine runCommand_mask (by decide) _ _ _ _ _ (fun p img t ht => ?_)) | (simp [ht]; done) | exact ht | (refine (hostAccess_mask (by decide) _ _ _ _ (fun t => ?_) _)) | (refine (withHealth_mask _ (fun t => ?_) (by decide) _).trans ?_) | split | (dsimp only; split) | (simp; split))))

theorem execProtViolClear_keeps {w : BitVec 38} (h : 0x1e147a2470#38 &&& w = 0x1e147a2470#38) (a0 : Nat) (a1 : BitVec 32) (s : State) :
    Keeps w s (execProtViolClear a0 a1 s) := by
  refine keeps_mono (W := 0x1e147a2470#38) ?_ h
  unfold execProtViolClear
  repeat' (first | split | (dsimp only; split))
  all_goals (first | exact hostWrite_keeps (by decide) .. | (refine ⟨_, rfl, ?_⟩; repeat' (first | (simp; done) | with_reducible rfl | (refine (mask_foldl (fun t x => ?_) _ _).trans ?_) | (refine runCommand_mask (by decide) _ _ _ _ _ (fun p img t ht => ?_)) | (simp [ht]; done) | exact ht | (refine (hostAccess_mask (by decide) _ _ _ _ (fun t => ?_) _)) | (refine (withHealth_mask _ (fun t => ?_) (by decide) _).trans ?_) | split | (dsimp only; split) | (simp; split))))

theorem execRegisterWrite_keeps {w : BitVec 38} (h : 0x1e147a2470#38 &&& w = 0x1e147a2470#38) (a0 : Nat) (a1 : BitVec 64) (a2 : BitVec 64) (a3 : BitVec 512) (a4 : BitVec 64) (s : State) :
    Keeps w s (execRegisterWrite a0 a1 a2 a3 a4 s) := by
  refine keeps_mono (W := 0x1e147a2470#38) ?_ h
  unfold execRegisterWrite
  repeat' (first | split | (dsimp only; split))
  all_goals (first  | (refine ⟨_, rfl, ?_⟩; repeat' (first | (simp; done) | with_reducible rfl | (refine (mask_foldl (fun t x => ?_) _ _).trans ?_) | (refine runCommand_mask (by decide) _ _ _ _ _ (fun p img t ht => ?_)) | (simp [ht]; done) | exact ht | (refine (hostAccess_mask (by decide) _ _ _ _ (fun t => ?_) _)) | (refine (withHealth_mask _ (fun t => ?_) (by decide) _).trans ?_) | split | (dsimp only; split) | (simp; split))))

theorem execJtagDebugAccess_keeps {w : BitVec 38} (h : 0x530000000#38 &&& w = 0x530000000#38) (a0 : BitVec 57) (s : State) :
    Keeps w s (execJtagDebugAccess a0 s) := by
  refine keeps_mono (W := 0x530000000#38) ?_ h
  unfold execJtagDebugAccess
  repeat' (first | split | (dsimp only; split))
  all_goals (first  | (refine ⟨_, rfl, ?_⟩; repeat' (first | (simp; done) | with_reducible rfl | (refine (mask_foldl (fun t x => ?_) _ _).trans ?_) | (refine runCommand_mask (by decide) _ _ _ _ _ (fun p img t ht => ?_)) | (simp [ht]; done) | exact ht | (refine (hostAccess_mask (by decide) _ _ _ _ (fun t => ?_) _)) | (refine (withHealth_mask _ (fun t => ?_) (by decide) _).trans ?_) | split | (dsimp only; split) | (simp; split))))

end Sys2Proof.Machine
end

