-- ==== Sys2Proof/Laws/Memory.lean ====
section
/-! SUPPORT. Memories: a read after a write, and the canonical form that every memory operation keeps: the rings' SRAM, board NVM, the
channels, the far ports and the Scratchpads. -/

namespace Sys2Proof.Machine

/-! ### Byte maps -/

theorem kwf_bwrite (m : KMap Byte) (a : Nat) (bs : List Byte) (h : kwf (fun _ => 0) m = true) : kwf (fun _ => 0) (bwrite m a bs) = true := by
  induction bs generalizing m a with
  | nil => exact h
  | cons b r ih => exact ih _ _ (kwf_kset (fun _ => 0) m a b h)

/-- A byte outside the bytes written reads as before. -/
theorem kget_bwrite_out (m : KMap Byte) (a : Nat) (bs : List Byte) (x : Nat) (h : x < a ∨ a + bs.length ≤ x) :
    kget 0 (bwrite m a bs) x = kget 0 m x := by
  induction bs generalizing m a with
  | nil => rfl
  | cons b r ih =>
    simp only [List.length_cons] at h
    rw [bwrite, ih _ _ (by omega), kget_kset_other _ _ _ _ (by omega)]

/-- A byte written reads as written. -/
theorem kget_bwrite_in (m : KMap Byte) (a : Nat) (bs : List Byte) (k : Nat) (b : Byte) (h : bs[k]? = some b) :
    kget 0 (bwrite m a bs) (a + k) = b := by
  induction bs generalizing m a k with
  | nil => simp at h
  | cons c r ih =>
    cases k with
    | zero =>
      simp only [List.getElem?_cons_zero, Option.some.injEq] at h
      rw [bwrite, kget_bwrite_out _ _ _ _ (by omega)]
      simp [h]
    | succ k =>
      simp only [List.getElem?_cons_succ] at h
      rw [bwrite, show a + (k + 1) = a + 1 + k by omega]
      exact ih _ _ _ h

/-- Reading the bytes just written gives them. -/
theorem bread_bwrite (m : KMap Byte) (a : Nat) (bs : List Byte) : bread (bwrite m a bs) a bs.length = bs := by
  apply List.ext_getElem?
  intro k
  by_cases hk : k < bs.length
  · have : bs[k]? = some bs[k] := List.getElem?_eq_getElem hk
    rw [this]
    simp only [bread, List.getElem?_map, List.getElem?_range hk, Option.map_some]
    rw [kget_bwrite_in m a bs k _ this]
  · rw [List.getElem?_eq_none (Nat.le_of_not_lt hk), List.getElem?_eq_none (by simpa [bread] using hk)]

/-- Bytes apart from those written read as before. -/
theorem bread_bwrite_out (m : KMap Byte) (a : Nat) (bs : List Byte) (x n : Nat) (h : x + n ≤ a ∨ a + bs.length ≤ x) :
    bread (bwrite m a bs) x n = bread m x n := by
  apply List.map_congr_left
  intro k hk
  have := List.mem_range.1 hk
  exact kget_bwrite_out m a bs (x + k) (by omega)

@[simp] theorem leBytes_length (n w : Nat) : (leBytes n w).length = n := by
  induction n generalizing w with
  | zero => rfl
  | succ n ih => simp [leBytes, ih]

/-- The number that the bytes of a number spell. -/
theorem ofLe_leBytes (n w : Nat) : ofLe (leBytes n w) = w % 256 ^ n := by
  induction n generalizing w with
  | zero => simp [leBytes, ofLe, Nat.mod_one]
  | succ n ih =>
    have e : 256 ^ (n + 1) = 256 * 256 ^ n := Nat.pow_succ'
    simp only [leBytes, ofLe, ih, BitVec.toNat_ofNat]
    rw [e, Nat.mod_mul]

/-- The bytes of the number that bytes spell. -/
theorem leBytes_ofLe (bs : List Byte) : leBytes bs.length (ofLe bs) = bs := by
  induction bs with
  | nil => rfl
  | cons b r ih =>
    have hb := b.isLt
    have h1 : (b.toNat + 256 * ofLe r) / 256 = ofLe r := by omega
    have h2 : BitVec.ofNat 8 (b.toNat + 256 * ofLe r) = b := by
      apply BitVec.eq_of_toNat_eq
      rw [BitVec.toNat_ofNat]
      omega
    rw [List.length_cons, ofLe, leBytes, h1, h2, ih]

/-! ### Channels -/

@[simp] theorem setChByte_undef (c : Channel) (a : Nat) (b : Byte) : (setChByte c a b).undef = c.undef := rfl

theorem chDefault_eq {c d : Channel} (h : c.undef = d.undef) : chDefault c = chDefault d := by
  funext a
  simp [chDefault, h]

/-- The channel's bytes are in canonical form. -/
def Channel.memWf (c : Channel) : Bool := kwf (chDefault c) c.mem

theorem setChByte_wf (c : Channel) (a : Nat) (b : Byte) (h : c.memWf = true) : (setChByte c a b).memWf = true := by
  unfold Channel.memWf
  rw [chDefault_eq (setChByte_undef c a b)]
  exact kwf_kset (chDefault c) c.mem a b h

/-- A stored byte reads as stored, and every other byte as before (R351). -/
theorem chByte_setChByte (c : Channel) (a x : Nat) (b : Byte) :
    chByte (setChByte c a b) x = if x = a then b else chByte c x := by
  unfold chByte
  rw [chDefault_eq (setChByte_undef c a b)]
  split
  · rename_i h; subst h; exact kget_kset_same _ _ _ _
  · rename_i h; exact kget_kset_other _ _ _ _ h

theorem mergeLine_wf (c : Channel) (e : WcbEntry) (h : c.memWf = true) : (mergeLine c e).memWf = true := by
  unfold mergeLine
  generalize List.range 64 = l
  induction l generalizing c with
  | nil => exact h
  | cons i l ih =>
    rw [List.foldl_cons]
    apply ih
    split
    · exact setChByte_wf _ _ _ h
    · exact h

/-! ### Scratchpads, far memory, NVM and the rings -/

theorem spmWrite_wf (c a : Nat) (bs : List Byte) (s : State) (h : kwf (fun _ => 0) (s.core c).spm = true) :
    kwf (fun _ => 0) ((spmWrite c a bs s).core c).spm = true := by
  have e : ∀ (l : List (Byte × Nat)) (m : KMap Byte), kwf (fun _ => 0) m = true →
      kwf (fun _ => 0) (l.foldl (fun m x => if s.rowOn c ((a + x.2) / 512) then kset 0 m (a + x.2) x.1 else m) m) = true := by
    intro l
    induction l with
    | nil => exact fun m h => h
    | cons x l ih =>
      intro m hm
      rw [List.foldl_cons]
      apply ih
      split
      · exact kwf_kset (fun _ => 0) m _ _ hm
      · exact hm
  simpa [spmWrite, State.core, State.modCore, State.setCore] using e _ _ h

theorem farPut_wf (port addr : Nat) (bs : List Byte) (s : State) (h : kwf (fun _ => 0) (s.farPort port).mem = true) :
    kwf (fun _ => 0) ((farPut port addr bs s).farPort port).mem = true := by
  simpa [farPut, State.farPort, State.modFar, State.setFar] using kwf_bwrite _ addr bs h

theorem nvmPut_cons (m : KMap Byte) (a : Nat) (bs : List Byte) (n : Nat) :
    (bs.zipIdx n).foldl (fun m x => kset 0xFF m (a + x.2) x.1) m = nvmPut m (a + n) bs := by
  induction bs generalizing m n a with
  | nil => rfl
  | cons b r ih =>
    simp only [nvmPut, List.zipIdx_cons, List.foldl_cons, Nat.add_zero, Nat.zero_add]
    rw [ih, ih]
    simp [Nat.add_assoc]

theorem nvmWrite_wf (a : Nat) (bs : List Byte) (s : State) (h : kwf (fun _ => 0xFF) s.nvm = true) :
    kwf (fun _ => 0xFF) (nvmWrite a bs s).nvm = true := by
  unfold nvmWrite nvmPut
  generalize bs.zipIdx = l
  generalize s.nvm = m at h
  induction l generalizing m with
  | nil => exact h
  | cons x l ih => exact ih _ (kwf_kset (fun _ => 0xFF) m _ _ h)

/-- NVM outside the bytes written reads as before (R626). -/
theorem kget_nvmPut_out (m : KMap Byte) (a : Nat) (bs : List Byte) (x : Nat) (h : x < a ∨ a + bs.length ≤ x) :
    kget 0xFF (nvmPut m a bs) x = kget 0xFF m x := by
  induction bs generalizing m a with
  | nil => rfl
  | cons b r ih =>
    simp only [List.length_cons] at h
    rw [nvmPut, List.zipIdx_cons, List.foldl_cons, nvmPut_cons, ih _ _ (by omega), kget_kset_other _ _ _ _ (by omega)]

/-- NVM written reads as written (R626). -/
theorem kget_nvmPut_in (m : KMap Byte) (a : Nat) (bs : List Byte) (k : Nat) (b : Byte) (h : bs[k]? = some b) :
    kget 0xFF (nvmPut m a bs) (a + k) = b := by
  induction bs generalizing m a k with
  | nil => simp at h
  | cons c r ih =>
    rw [nvmPut, List.zipIdx_cons, List.foldl_cons, nvmPut_cons]
    cases k with
    | zero =>
      simp only [List.getElem?_cons_zero, Option.some.injEq] at h
      rw [kget_nvmPut_out _ _ _ _ (by omega)]
      simp [h]
    | succ k =>
      simp only [List.getElem?_cons_succ] at h
      rw [show a + (k + 1) = a + (0 + 1) + k by omega]
      exact ih _ _ _ h

theorem complete_ringMem_wf (r : Nat) (q : BitVec 16) (st d b : Nat) (s : State) (h : kwf (fun _ => 0) s.ringMem = true) :
    kwf (fun _ => 0) (complete r q st d b s).ringMem = true := by
  unfold complete
  dsimp only
  split
  · exact h
  · split
    · exact kwf_bwrite _ _ _ h
    · exact h

theorem putEvent_ringMem_wf (r code payload : Nat) (tag : BitVec 16) (s : State) (h : kwf (fun _ => 0) s.ringMem = true) :
    kwf (fun _ => 0) (putEvent r code payload tag s).ringMem = true := kwf_bwrite _ _ _ h

theorem writeRingBytes_wf (a : Nat) (be : BitVec 64) (data : BitVec 512) (s : State) (h : kwf (fun _ => 0) s.ringMem = true) :
    kwf (fun _ => 0) (writeRingBytes a be data s).ringMem = true := by
  unfold writeRingBytes
  generalize List.range 64 = l
  induction l generalizing s with
  | nil => exact h
  | cons i l ih =>
    rw [List.foldl_cons]
    apply ih
    split
    · exact kwf_kset (fun _ => 0) s.ringMem _ _ h
    · exact h

/-- The state after reset has every memory in canonical form. -/
theorem reset_memWf : State.reset.memWf = true := rfl

end Sys2Proof.Machine
end

