-- ==== Sys2Proof/Laws/Ops.lean ====
section
/-! SUPPORT. What the shared operations of the mailbox and the Host Port do: completing a command (R460, R467), the checks of a command
that may start (R488), its waits (R490), and an access through the firewall (R522 to R524). -/

namespace Sys2Proof.Machine

variable {s u : State} {r : Nat} {q : BitVec 16}

/-! ### Checksums -/

@[simp] theorem forced_eq {α : Type} (n : Nat) (f : Nat → α) : forced n f = f n := by cases n <;> rfl

theorem crcFrom_eq (c : BitVec 32) (bs : List Byte) : crcFrom c bs = bs.foldl crcByte c := by
  induction bs generalizing c with
  | nil => rfl
  | cons b l ih => simp [crcFrom, ih]

theorem crc32_eq (bs : List Byte) : crc32 bs = ~~~ (bs.foldl crcByte 0xFFFFFFFF) := by rw [crc32, crcFrom_eq]

/-! ### Completing -/

theorem cmdsOf_ring (h : cmdsOf u.rings = cmdsOf s.rings) (r : Nat) :
    (u.ring r).opened = (s.ring r).opened ∧ (u.ring r).ctail = (s.ring r).ctail ∧ (u.ring r).state = (s.ring r).state := by
  have := congrFun h r
  simp only [cmdsOf, Prod.mk.injEq] at this
  exact ⟨this.1, this.2.1, this.2.2.1⟩

@[simp] theorem ring_setRing (s : State) (r k : Nat) (g : Ring) : (s.setRing r g).ring k = if k = r then g else s.ring k := by
  simp [State.ring, State.setRing, kget_kset]

/-- Filtering out a number leaves no open command of it. -/
theorem find_filter (l : List OpenCmd) (q : BitVec 16) :
    (l.filter (fun x => !decide (x.seq = q))).find? (fun o => decide (o.seq = q)) = none := by
  simp [List.find?_eq_none]

/-- A completion of command `q` from a state in which it is open is the answer of that command. -/
theorem complete_answers (s : State) (r : Nat) (q : BitVec 16) (st d b : Nat) (h : ((s.ring r).find q).isSome = true) :
    answered r q st d b s (complete r q st d b s) := by
  obtain ⟨o, ho⟩ := Option.isSome_iff_exists.1 h
  unfold answered complete
  simp only [ho]
  by_cases e : (s.ring r).state = .ready
  · simp only [e, if_true, ring_setRing, Ring.find, find_filter, true_and, forall_const, Option.some.injEq]
    rintro x rfl
    show bread (bwrite _ _ _) _ 32 = _
    have hl := leBytes_length 32 (cmdOpcode o.image * 2 ^ 16 + arg o.image 0 0 16 + st * 2 ^ 32 + (s.ring r).ctail.toNat * 2 ^ 48
        + cmdVer o.image * 2 ^ 64 + b % 2 ^ 32 * 2 ^ 96 + d % 2 ^ 128 * 2 ^ 128)
    have := bread_bwrite s.ringMem (0x10000 * r + 0x4000 + 32 * ((s.ring r).ctail.toNat % 256)) (leBytes 32 (cmdOpcode o.image * 2 ^ 16
        + arg o.image 0 0 16 + st * 2 ^ 32 + (s.ring r).ctail.toNat * 2 ^ 48 + cmdVer o.image * 2 ^ 64 + b % 2 ^ 32 * 2 ^ 96
        + d % 2 ^ 128 * 2 ^ 128))
    rw [hl] at this
    rw [this]
    simp only [completionWord, Nat.add_comm (arg o.image 0 0 16)]
  · simp only [e, if_false, ring_setRing, if_true, Ring.find, find_filter, true_and]
    exact fun h => absurd h (by simp)

/-- An answer counts from any earlier state with the same open commands and completion index. -/
theorem answered_of_cmds {t : State} {st d b : Nat} (h : answered r q st d b u t) (e : cmdsOf u.rings = cmdsOf s.rings) :
    answered r q st d b s t := by
  obtain ⟨e1, e2, e3⟩ := cmdsOf_ring e r
  refine ⟨h.1, fun hr => ?_⟩
  have := h.2 (e3.trans hr)
  rw [← e2]
  exact ⟨this.1, this.2.1, fun o ho => this.2.2 o (by rw [Ring.find, e1]; exact ho)⟩

/-- Marking a command as started keeps every open command's number, image and place. -/
theorem find_started (g : Ring) (q x : BitVec 16) :
    (({ g with opened := g.opened.map (fun o => if o.seq = q then { o with started := true } else o) } : Ring).find x).map (·.image)
      = (g.find x).map (·.image) := by
  simp only [Ring.find]
  induction g.opened with
  | nil => rfl
  | cons o l ih =>
    simp only [List.map_cons, List.find?_cons]
    by_cases h : o.seq = q <;> by_cases h2 : o.seq = x <;> simp_all

/-- The answer of a command that has been marked as started. -/
theorem answered_markStarted {t : State} {st d b : Nat} (h : answered r q st d b (markStarted r q s) t) : answered r q st d b s t := by
  have hs : ((markStarted r q s).ring r).state = (s.ring r).state ∧ ((markStarted r q s).ring r).ctail = (s.ring r).ctail := by
    simp [markStarted, State.modRing]
  have hf := find_started (s.ring r) q q
  refine ⟨h.1, fun hr => ?_⟩
  have := h.2 (hs.1.trans hr)
  rw [hs.2] at this
  refine ⟨this.1, this.2.1, fun o ho => ?_⟩
  rw [ho] at hf
  obtain ⟨o', ho', e⟩ := Option.map_eq_some_iff.1 hf
  have h2 := this.2.2 o' (by simpa [markStarted, State.modRing] using ho')
  simpa [completionWord, cmdOpcode, cmdVer, e] using h2

/-- A completion that ends the work of a started command, whatever that work did besides, answers the command. -/
theorem complete_started (s : State) (f : State) (r : Nat) (q : BitVec 16) (st d b : Nat) (h : ((s.ring r).find q).isSome = true)
    (e : cmdsOf f.rings = cmdsOf (markStarted r q s).rings) : answered r q st d b s (complete r q st d b f) := by
  refine answered_markStarted (answered_of_cmds (complete_answers f r q st d b ?_) e)
  obtain ⟨o, ho⟩ := Option.isSome_iff_exists.1 h
  have hf := find_started (s.ring r) q q
  rw [ho] at hf
  obtain ⟨o', ho', -⟩ := Option.map_eq_some_iff.1 hf
  have e1 := (cmdsOf_ring e r).1
  rw [Ring.find, e1]
  have : ((markStarted r q s).ring r).find q = some o' := by simpa [markStarted, State.modRing] using ho'
  rw [Ring.find] at this
  rw [this]
  rfl

/-- Completing with a result answers with `resultAnswer` (R467). -/
theorem completeWith_started (s f : State) (p r : Nat) (q : BitVec 16) (img : BitVec 512) (d : Nat) (bs : List Byte)
    (h : ((s.ring r).find q).isSome = true) (e : cmdsOf f.rings = cmdsOf (markStarted r q s).rings) :
    answered r q (resultAnswer img d bs).1 (resultAnswer img d bs).2.1 (resultAnswer img d bs).2.2 s (completeWith p r q img d bs f) := by
  unfold completeWith resultAnswer
  by_cases h1 : resultVa img = 0
  · simp only [h1, if_true]
    exact complete_started s f r q _ _ _ h e
  · simp only [h1, if_false]
    by_cases h2 : resultLen img < bs.length
    · simp only [h2, if_true, Nat.min_eq_right (Nat.le_of_lt h2)]
      exact complete_started s _ r q _ _ _ h (by simpa using e)
    · simp only [h2, if_false, Nat.min_eq_left (Nat.le_of_not_lt h2)]
      exact complete_started s _ r q _ _ _ h (by simpa using e)

/-! ### Starting -/

/-- A command that may start runs its body. -/
theorem runCommand_admitted {k : CmdRule} {p : Nat} {img : BitVec 512} (h : admitted k r q p img s = true)
    (body : Nat → BitVec 512 → State → State) : runCommand k r q body s = body p img (markStarted r q s) := by
  simp only [admitted, Bool.and_eq_true, Bool.or_eq_true, Bool.not_eq_true', decide_eq_true_eq, beq_iff_eq, Bool.and_eq_false_imp] at h
  obtain ⟨⟨⟨⟨⟨⟨⟨⟨⟨⟨⟨⟨⟨⟨h1, h2⟩, h3⟩, h4⟩, h5⟩, h6⟩, h7⟩, h8⟩, h9⟩, h10⟩, h11⟩, h12⟩, h13⟩, h14⟩, h15⟩ := h
  obtain ⟨o, ho, rfl⟩ := Option.map_eq_some_iff.1 h1
  have hj : (if k.job then jobCheck (s.part p) (cmdTag o.image) else none) = none := by
    by_cases e : k.job = true <;> simp_all
  unfold runCommand
  simp only [ho, h3]
  rw [if_neg (by simp [h4, h5]), if_neg (by rcases h6 with h6 | h6 <;> simp [h6]), if_neg (by simp [h7])]
  rw [if_neg (by rcases h8 with h8 | h8 <;> simp [h8]), if_neg (by by_cases e : k.lost = true <;> simp_all), hj]
  simp [h11, h13, h14, h15]
  intro e1 e2
  simp [h12 e1] at e2

/-- A command that may start is open, with its bytes. -/
theorem admitted_find {k : CmdRule} {p : Nat} {img : BitVec 512} (h : admitted k r q p img s = true) :
    ((s.ring r).find q).isSome = true := by
  simp only [admitted, Bool.and_eq_true, decide_eq_true_eq] at h
  obtain ⟨o, ho, -⟩ := Option.map_eq_some_iff.1 h.1.1.1.1.1.1.1.1.1.1.1.1.1.2
  rw [ho]
  rfl

/-- A command that has started and waits for `w`, its work having left the commands and the waits alone. -/
theorem addWait_waits (s f : State) (p r : Nat) (q : BitVec 16) (w : Wait) (e : cmdsOf f.rings = cmdsOf (markStarted r q s).rings)
    (hw : (f.part p).waiting = (s.part p).waiting) : nowWaits p r q w s (addWait p r q w f) := by
  obtain ⟨e1, e2, -⟩ := cmdsOf_ring e r
  refine ⟨?_, ?_, ?_⟩
  · simp [addWait, State.part, State.modPart, State.setPart] at hw ⊢
    exact hw
  · show ((f.ring r).opened).map _ = _
    rw [e1]
    simp only [markStarted, State.modRing, ring_setRing, if_true, List.map_map]
    apply List.map_congr_left
    intro o _
    simp only [Function.comp_apply]
    split <;> rfl
  · show (f.ring r).ctail = _
    rw [e2]
    simp [markStarted, State.modRing]

/-! ### The Host Port -/

/-- An access that the firewall admits takes its effect (R522). -/
theorem hostAccess_admitted {req off : Nat} {w : Bool} (h : s.hostOpen = true) (a : s.admits req off w = true) (f : State → State) :
    hostAccess req off w f s = f s := by simp [hostAccess, h, a]

/-- An access that the firewall refuses is recorded, and has no effect (R523, R524). -/
theorem hostAccess_refused {req off : Nat} {w : Bool} (h : s.hostOpen = true) (a : s.admits req off w = false) (f : State → State) :
    hostAccess req off w f s = refuseAccess req off w s := by simp [hostAccess, h, a]

end Sys2Proof.Machine
end

