-- ==== Sys2Proof/Laws/State.lean ====
section
/-! SUPPORT. What every update of indexed state leaves in every field, and what a read of the index gives after it. -/

namespace Sys2Proof.Machine

section
variable (s : State)

@[simp] theorem State.setPart_pending (p : Nat) (v : Part) : (s.setPart p v).pending = s.pending := rfl
@[simp] theorem State.setPart_free (p : Nat) (v : Part) : (s.setPart p v).free = s.free := rfl
@[simp] theorem State.setPart_cfg (p : Nat) (v : Part) : (s.setPart p v).cfg = s.cfg := rfl
@[simp] theorem State.setPart_beat (p : Nat) (v : Part) : (s.setPart p v).beat = s.beat := rfl
@[simp] theorem State.setPart_cores (p : Nat) (v : Part) : (s.setPart p v).cores = s.cores := rfl
@[simp] theorem State.setPart_sets (p : Nat) (v : Part) : (s.setPart p v).sets = s.sets := rfl
@[simp] theorem State.setPart_clms (p : Nat) (v : Part) : (s.setPart p v).clms = s.clms := rfl
@[simp] theorem State.setPart_streams (p : Nat) (v : Part) : (s.setPart p v).streams = s.streams := rfl
@[simp] theorem State.setPart_utlbs (p : Nat) (v : Part) : (s.setPart p v).utlbs = s.utlbs := rfl
@[simp] theorem State.setPart_faults (p : Nat) (v : Part) : (s.setPart p v).faults = s.faults := rfl
@[simp] theorem State.setPart_seqs (p : Nat) (v : Part) : (s.setPart p v).seqs = s.seqs := rfl
@[simp] theorem State.setPart_regions (p : Nat) (v : Part) : (s.setPart p v).regions = s.regions := rfl
@[simp] theorem State.setPart_channels (p : Nat) (v : Part) : (s.setPart p v).channels = s.channels := rfl
@[simp] theorem State.setPart_stackSt (p : Nat) (v : Part) : (s.setPart p v).stackSt = s.stackSt := rfl
@[simp] theorem State.setPart_far (p : Nat) (v : Part) : (s.setPart p v).far = s.far := rfl
@[simp] theorem State.setPart_mem (p : Nat) (v : Part) : (s.setPart p v).mem = s.mem := rfl
@[simp] theorem State.setPart_ports (p : Nat) (v : Part) : (s.setPart p v).ports = s.ports := rfl
@[simp] theorem State.setPart_lbs (p : Nat) (v : Part) : (s.setPart p v).lbs = s.lbs := rfl
@[simp] theorem State.setPart_ce (p : Nat) (v : Part) : (s.setPart p v).ce = s.ce := rfl
@[simp] theorem State.setPart_rings (p : Nat) (v : Part) : (s.setPart p v).rings = s.rings := rfl
@[simp] theorem State.setPart_ringMem (p : Nat) (v : Part) : (s.setPart p v).ringMem = s.ringMem := rfl
@[simp] theorem State.setPart_fw (p : Nat) (v : Part) : (s.setPart p v).fw = s.fw := rfl
@[simp] theorem State.setPart_prot (p : Nat) (v : Part) : (s.setPart p v).prot = s.prot := rfl
@[simp] theorem State.setPart_pmu (p : Nat) (v : Part) : (s.setPart p v).pmu = s.pmu := rfl
@[simp] theorem State.setPart_health (p : Nat) (v : Part) : (s.setPart p v).health = s.health := rfl
@[simp] theorem State.setPart_blk (p : Nat) (v : Part) : (s.setPart p v).blk = s.blk := rfl
@[simp] theorem State.setPart_fatal (p : Nat) (v : Part) : (s.setPart p v).fatal = s.fatal := rfl
@[simp] theorem State.setPart_dbg (p : Nat) (v : Part) : (s.setPart p v).dbg = s.dbg := rfl
@[simp] theorem State.setPart_pins (p : Nat) (v : Part) : (s.setPart p v).pins = s.pins := rfl
@[simp] theorem State.setPart_nvm (p : Nat) (v : Part) : (s.setPart p v).nvm = s.nvm := rfl
@[simp] theorem State.setPart_nvmReqs (p : Nat) (v : Part) : (s.setPart p v).nvmReqs = s.nvmReqs := rfl
@[simp] theorem State.setPart_latches (p : Nat) (v : Part) : (s.setPart p v).latches = s.latches := rfl

@[simp] theorem State.setCore_pending (c : Nat) (v : Core) : (s.setCore c v).pending = s.pending := rfl
@[simp] theorem State.setCore_free (c : Nat) (v : Core) : (s.setCore c v).free = s.free := rfl
@[simp] theorem State.setCore_cfg (c : Nat) (v : Core) : (s.setCore c v).cfg = s.cfg := rfl
@[simp] theorem State.setCore_beat (c : Nat) (v : Core) : (s.setCore c v).beat = s.beat := rfl
@[simp] theorem State.setCore_parts (c : Nat) (v : Core) : (s.setCore c v).parts = s.parts := rfl
@[simp] theorem State.setCore_sets (c : Nat) (v : Core) : (s.setCore c v).sets = s.sets := rfl
@[simp] theorem State.setCore_clms (c : Nat) (v : Core) : (s.setCore c v).clms = s.clms := rfl
@[simp] theorem State.setCore_streams (c : Nat) (v : Core) : (s.setCore c v).streams = s.streams := rfl
@[simp] theorem State.setCore_utlbs (c : Nat) (v : Core) : (s.setCore c v).utlbs = s.utlbs := rfl
@[simp] theorem State.setCore_faults (c : Nat) (v : Core) : (s.setCore c v).faults = s.faults := rfl
@[simp] theorem State.setCore_seqs (c : Nat) (v : Core) : (s.setCore c v).seqs = s.seqs := rfl
@[simp] theorem State.setCore_regions (c : Nat) (v : Core) : (s.setCore c v).regions = s.regions := rfl
@[simp] theorem State.setCore_channels (c : Nat) (v : Core) : (s.setCore c v).channels = s.channels := rfl
@[simp] theorem State.setCore_stackSt (c : Nat) (v : Core) : (s.setCore c v).stackSt = s.stackSt := rfl
@[simp] theorem State.setCore_far (c : Nat) (v : Core) : (s.setCore c v).far = s.far := rfl
@[simp] theorem State.setCore_mem (c : Nat) (v : Core) : (s.setCore c v).mem = s.mem := rfl
@[simp] theorem State.setCore_ports (c : Nat) (v : Core) : (s.setCore c v).ports = s.ports := rfl
@[simp] theorem State.setCore_lbs (c : Nat) (v : Core) : (s.setCore c v).lbs = s.lbs := rfl
@[simp] theorem State.setCore_ce (c : Nat) (v : Core) : (s.setCore c v).ce = s.ce := rfl
@[simp] theorem State.setCore_rings (c : Nat) (v : Core) : (s.setCore c v).rings = s.rings := rfl
@[simp] theorem State.setCore_ringMem (c : Nat) (v : Core) : (s.setCore c v).ringMem = s.ringMem := rfl
@[simp] theorem State.setCore_fw (c : Nat) (v : Core) : (s.setCore c v).fw = s.fw := rfl
@[simp] theorem State.setCore_prot (c : Nat) (v : Core) : (s.setCore c v).prot = s.prot := rfl
@[simp] theorem State.setCore_pmu (c : Nat) (v : Core) : (s.setCore c v).pmu = s.pmu := rfl
@[simp] theorem State.setCore_health (c : Nat) (v : Core) : (s.setCore c v).health = s.health := rfl
@[simp] theorem State.setCore_blk (c : Nat) (v : Core) : (s.setCore c v).blk = s.blk := rfl
@[simp] theorem State.setCore_fatal (c : Nat) (v : Core) : (s.setCore c v).fatal = s.fatal := rfl
@[simp] theorem State.setCore_dbg (c : Nat) (v : Core) : (s.setCore c v).dbg = s.dbg := rfl
@[simp] theorem State.setCore_pins (c : Nat) (v : Core) : (s.setCore c v).pins = s.pins := rfl
@[simp] theorem State.setCore_nvm (c : Nat) (v : Core) : (s.setCore c v).nvm = s.nvm := rfl
@[simp] theorem State.setCore_nvmReqs (c : Nat) (v : Core) : (s.setCore c v).nvmReqs = s.nvmReqs := rfl
@[simp] theorem State.setCore_latches (c : Nat) (v : Core) : (s.setCore c v).latches = s.latches := rfl

@[simp] theorem State.setUnit_pending (k : Nat) (v : SetUnits) : (s.setUnit k v).pending = s.pending := rfl
@[simp] theorem State.setUnit_free (k : Nat) (v : SetUnits) : (s.setUnit k v).free = s.free := rfl
@[simp] theorem State.setUnit_cfg (k : Nat) (v : SetUnits) : (s.setUnit k v).cfg = s.cfg := rfl
@[simp] theorem State.setUnit_beat (k : Nat) (v : SetUnits) : (s.setUnit k v).beat = s.beat := rfl
@[simp] theorem State.setUnit_parts (k : Nat) (v : SetUnits) : (s.setUnit k v).parts = s.parts := rfl
@[simp] theorem State.setUnit_cores (k : Nat) (v : SetUnits) : (s.setUnit k v).cores = s.cores := rfl
@[simp] theorem State.setUnit_clms (k : Nat) (v : SetUnits) : (s.setUnit k v).clms = s.clms := rfl
@[simp] theorem State.setUnit_streams (k : Nat) (v : SetUnits) : (s.setUnit k v).streams = s.streams := rfl
@[simp] theorem State.setUnit_utlbs (k : Nat) (v : SetUnits) : (s.setUnit k v).utlbs = s.utlbs := rfl
@[simp] theorem State.setUnit_faults (k : Nat) (v : SetUnits) : (s.setUnit k v).faults = s.faults := rfl
@[simp] theorem State.setUnit_seqs (k : Nat) (v : SetUnits) : (s.setUnit k v).seqs = s.seqs := rfl
@[simp] theorem State.setUnit_regions (k : Nat) (v : SetUnits) : (s.setUnit k v).regions = s.regions := rfl
@[simp] theorem State.setUnit_channels (k : Nat) (v : SetUnits) : (s.setUnit k v).channels = s.channels := rfl
@[simp] theorem State.setUnit_stackSt (k : Nat) (v : SetUnits) : (s.setUnit k v).stackSt = s.stackSt := rfl
@[simp] theorem State.setUnit_far (k : Nat) (v : SetUnits) : (s.setUnit k v).far = s.far := rfl
@[simp] theorem State.setUnit_mem (k : Nat) (v : SetUnits) : (s.setUnit k v).mem = s.mem := rfl
@[simp] theorem State.setUnit_ports (k : Nat) (v : SetUnits) : (s.setUnit k v).ports = s.ports := rfl
@[simp] theorem State.setUnit_lbs (k : Nat) (v : SetUnits) : (s.setUnit k v).lbs = s.lbs := rfl
@[simp] theorem State.setUnit_ce (k : Nat) (v : SetUnits) : (s.setUnit k v).ce = s.ce := rfl
@[simp] theorem State.setUnit_rings (k : Nat) (v : SetUnits) : (s.setUnit k v).rings = s.rings := rfl
@[simp] theorem State.setUnit_ringMem (k : Nat) (v : SetUnits) : (s.setUnit k v).ringMem = s.ringMem := rfl
@[simp] theorem State.setUnit_fw (k : Nat) (v : SetUnits) : (s.setUnit k v).fw = s.fw := rfl
@[simp] theorem State.setUnit_prot (k : Nat) (v : SetUnits) : (s.setUnit k v).prot = s.prot := rfl
@[simp] theorem State.setUnit_pmu (k : Nat) (v : SetUnits) : (s.setUnit k v).pmu = s.pmu := rfl
@[simp] theorem State.setUnit_health (k : Nat) (v : SetUnits) : (s.setUnit k v).health = s.health := rfl
@[simp] theorem State.setUnit_blk (k : Nat) (v : SetUnits) : (s.setUnit k v).blk = s.blk := rfl
@[simp] theorem State.setUnit_fatal (k : Nat) (v : SetUnits) : (s.setUnit k v).fatal = s.fatal := rfl
@[simp] theorem State.setUnit_dbg (k : Nat) (v : SetUnits) : (s.setUnit k v).dbg = s.dbg := rfl
@[simp] theorem State.setUnit_pins (k : Nat) (v : SetUnits) : (s.setUnit k v).pins = s.pins := rfl
@[simp] theorem State.setUnit_nvm (k : Nat) (v : SetUnits) : (s.setUnit k v).nvm = s.nvm := rfl
@[simp] theorem State.setUnit_nvmReqs (k : Nat) (v : SetUnits) : (s.setUnit k v).nvmReqs = s.nvmReqs := rfl
@[simp] theorem State.setUnit_latches (k : Nat) (v : SetUnits) : (s.setUnit k v).latches = s.latches := rfl

@[simp] theorem State.setClm_pending (k : Nat) (v : Clm) : (s.setClm k v).pending = s.pending := rfl
@[simp] theorem State.setClm_free (k : Nat) (v : Clm) : (s.setClm k v).free = s.free := rfl
@[simp] theorem State.setClm_cfg (k : Nat) (v : Clm) : (s.setClm k v).cfg = s.cfg := rfl
@[simp] theorem State.setClm_beat (k : Nat) (v : Clm) : (s.setClm k v).beat = s.beat := rfl
@[simp] theorem State.setClm_parts (k : Nat) (v : Clm) : (s.setClm k v).parts = s.parts := rfl
@[simp] theorem State.setClm_cores (k : Nat) (v : Clm) : (s.setClm k v).cores = s.cores := rfl
@[simp] theorem State.setClm_sets (k : Nat) (v : Clm) : (s.setClm k v).sets = s.sets := rfl
@[simp] theorem State.setClm_streams (k : Nat) (v : Clm) : (s.setClm k v).streams = s.streams := rfl
@[simp] theorem State.setClm_utlbs (k : Nat) (v : Clm) : (s.setClm k v).utlbs = s.utlbs := rfl
@[simp] theorem State.setClm_faults (k : Nat) (v : Clm) : (s.setClm k v).faults = s.faults := rfl
@[simp] theorem State.setClm_seqs (k : Nat) (v : Clm) : (s.setClm k v).seqs = s.seqs := rfl
@[simp] theorem State.setClm_regions (k : Nat) (v : Clm) : (s.setClm k v).regions = s.regions := rfl
@[simp] theorem State.setClm_channels (k : Nat) (v : Clm) : (s.setClm k v).channels = s.channels := rfl
@[simp] theorem State.setClm_stackSt (k : Nat) (v : Clm) : (s.setClm k v).stackSt = s.stackSt := rfl
@[simp] theorem State.setClm_far (k : Nat) (v : Clm) : (s.setClm k v).far = s.far := rfl
@[simp] theorem State.setClm_mem (k : Nat) (v : Clm) : (s.setClm k v).mem = s.mem := rfl
@[simp] theorem State.setClm_ports (k : Nat) (v : Clm) : (s.setClm k v).ports = s.ports := rfl
@[simp] theorem State.setClm_lbs (k : Nat) (v : Clm) : (s.setClm k v).lbs = s.lbs := rfl
@[simp] theorem State.setClm_ce (k : Nat) (v : Clm) : (s.setClm k v).ce = s.ce := rfl
@[simp] theorem State.setClm_rings (k : Nat) (v : Clm) : (s.setClm k v).rings = s.rings := rfl
@[simp] theorem State.setClm_ringMem (k : Nat) (v : Clm) : (s.setClm k v).ringMem = s.ringMem := rfl
@[simp] theorem State.setClm_fw (k : Nat) (v : Clm) : (s.setClm k v).fw = s.fw := rfl
@[simp] theorem State.setClm_prot (k : Nat) (v : Clm) : (s.setClm k v).prot = s.prot := rfl
@[simp] theorem State.setClm_pmu (k : Nat) (v : Clm) : (s.setClm k v).pmu = s.pmu := rfl
@[simp] theorem State.setClm_health (k : Nat) (v : Clm) : (s.setClm k v).health = s.health := rfl
@[simp] theorem State.setClm_blk (k : Nat) (v : Clm) : (s.setClm k v).blk = s.blk := rfl
@[simp] theorem State.setClm_fatal (k : Nat) (v : Clm) : (s.setClm k v).fatal = s.fatal := rfl
@[simp] theorem State.setClm_dbg (k : Nat) (v : Clm) : (s.setClm k v).dbg = s.dbg := rfl
@[simp] theorem State.setClm_pins (k : Nat) (v : Clm) : (s.setClm k v).pins = s.pins := rfl
@[simp] theorem State.setClm_nvm (k : Nat) (v : Clm) : (s.setClm k v).nvm = s.nvm := rfl
@[simp] theorem State.setClm_nvmReqs (k : Nat) (v : Clm) : (s.setClm k v).nvmReqs = s.nvmReqs := rfl
@[simp] theorem State.setClm_latches (k : Nat) (v : Clm) : (s.setClm k v).latches = s.latches := rfl

@[simp] theorem State.setStream_pending (k : Nat) (v : Stream) : (s.setStream k v).pending = s.pending := rfl
@[simp] theorem State.setStream_free (k : Nat) (v : Stream) : (s.setStream k v).free = s.free := rfl
@[simp] theorem State.setStream_cfg (k : Nat) (v : Stream) : (s.setStream k v).cfg = s.cfg := rfl
@[simp] theorem State.setStream_beat (k : Nat) (v : Stream) : (s.setStream k v).beat = s.beat := rfl
@[simp] theorem State.setStream_parts (k : Nat) (v : Stream) : (s.setStream k v).parts = s.parts := rfl
@[simp] theorem State.setStream_cores (k : Nat) (v : Stream) : (s.setStream k v).cores = s.cores := rfl
@[simp] theorem State.setStream_sets (k : Nat) (v : Stream) : (s.setStream k v).sets = s.sets := rfl
@[simp] theorem State.setStream_clms (k : Nat) (v : Stream) : (s.setStream k v).clms = s.clms := rfl
@[simp] theorem State.setStream_utlbs (k : Nat) (v : Stream) : (s.setStream k v).utlbs = s.utlbs := rfl
@[simp] theorem State.setStream_faults (k : Nat) (v : Stream) : (s.setStream k v).faults = s.faults := rfl
@[simp] theorem State.setStream_seqs (k : Nat) (v : Stream) : (s.setStream k v).seqs = s.seqs := rfl
@[simp] theorem State.setStream_regions (k : Nat) (v : Stream) : (s.setStream k v).regions = s.regions := rfl
@[simp] theorem State.setStream_channels (k : Nat) (v : Stream) : (s.setStream k v).channels = s.channels := rfl
@[simp] theorem State.setStream_stackSt (k : Nat) (v : Stream) : (s.setStream k v).stackSt = s.stackSt := rfl
@[simp] theorem State.setStream_far (k : Nat) (v : Stream) : (s.setStream k v).far = s.far := rfl
@[simp] theorem State.setStream_mem (k : Nat) (v : Stream) : (s.setStream k v).mem = s.mem := rfl
@[simp] theorem State.setStream_ports (k : Nat) (v : Stream) : (s.setStream k v).ports = s.ports := rfl
@[simp] theorem State.setStream_lbs (k : Nat) (v : Stream) : (s.setStream k v).lbs = s.lbs := rfl
@[simp] theorem State.setStream_ce (k : Nat) (v : Stream) : (s.setStream k v).ce = s.ce := rfl
@[simp] theorem State.setStream_rings (k : Nat) (v : Stream) : (s.setStream k v).rings = s.rings := rfl
@[simp] theorem State.setStream_ringMem (k : Nat) (v : Stream) : (s.setStream k v).ringMem = s.ringMem := rfl
@[simp] theorem State.setStream_fw (k : Nat) (v : Stream) : (s.setStream k v).fw = s.fw := rfl
@[simp] theorem State.setStream_prot (k : Nat) (v : Stream) : (s.setStream k v).prot = s.prot := rfl
@[simp] theorem State.setStream_pmu (k : Nat) (v : Stream) : (s.setStream k v).pmu = s.pmu := rfl
@[simp] theorem State.setStream_health (k : Nat) (v : Stream) : (s.setStream k v).health = s.health := rfl
@[simp] theorem State.setStream_blk (k : Nat) (v : Stream) : (s.setStream k v).blk = s.blk := rfl
@[simp] theorem State.setStream_fatal (k : Nat) (v : Stream) : (s.setStream k v).fatal = s.fatal := rfl
@[simp] theorem State.setStream_dbg (k : Nat) (v : Stream) : (s.setStream k v).dbg = s.dbg := rfl
@[simp] theorem State.setStream_pins (k : Nat) (v : Stream) : (s.setStream k v).pins = s.pins := rfl
@[simp] theorem State.setStream_nvm (k : Nat) (v : Stream) : (s.setStream k v).nvm = s.nvm := rfl
@[simp] theorem State.setStream_nvmReqs (k : Nat) (v : Stream) : (s.setStream k v).nvmReqs = s.nvmReqs := rfl
@[simp] theorem State.setStream_latches (k : Nat) (v : Stream) : (s.setStream k v).latches = s.latches := rfl

@[simp] theorem State.setSeq_pending (k : Nat) (v : Seq) : (s.setSeq k v).pending = s.pending := rfl
@[simp] theorem State.setSeq_free (k : Nat) (v : Seq) : (s.setSeq k v).free = s.free := rfl
@[simp] theorem State.setSeq_cfg (k : Nat) (v : Seq) : (s.setSeq k v).cfg = s.cfg := rfl
@[simp] theorem State.setSeq_beat (k : Nat) (v : Seq) : (s.setSeq k v).beat = s.beat := rfl
@[simp] theorem State.setSeq_parts (k : Nat) (v : Seq) : (s.setSeq k v).parts = s.parts := rfl
@[simp] theorem State.setSeq_cores (k : Nat) (v : Seq) : (s.setSeq k v).cores = s.cores := rfl
@[simp] theorem State.setSeq_sets (k : Nat) (v : Seq) : (s.setSeq k v).sets = s.sets := rfl
@[simp] theorem State.setSeq_clms (k : Nat) (v : Seq) : (s.setSeq k v).clms = s.clms := rfl
@[simp] theorem State.setSeq_streams (k : Nat) (v : Seq) : (s.setSeq k v).streams = s.streams := rfl
@[simp] theorem State.setSeq_utlbs (k : Nat) (v : Seq) : (s.setSeq k v).utlbs = s.utlbs := rfl
@[simp] theorem State.setSeq_faults (k : Nat) (v : Seq) : (s.setSeq k v).faults = s.faults := rfl
@[simp] theorem State.setSeq_regions (k : Nat) (v : Seq) : (s.setSeq k v).regions = s.regions := rfl
@[simp] theorem State.setSeq_channels (k : Nat) (v : Seq) : (s.setSeq k v).channels = s.channels := rfl
@[simp] theorem State.setSeq_stackSt (k : Nat) (v : Seq) : (s.setSeq k v).stackSt = s.stackSt := rfl
@[simp] theorem State.setSeq_far (k : Nat) (v : Seq) : (s.setSeq k v).far = s.far := rfl
@[simp] theorem State.setSeq_mem (k : Nat) (v : Seq) : (s.setSeq k v).mem = s.mem := rfl
@[simp] theorem State.setSeq_ports (k : Nat) (v : Seq) : (s.setSeq k v).ports = s.ports := rfl
@[simp] theorem State.setSeq_lbs (k : Nat) (v : Seq) : (s.setSeq k v).lbs = s.lbs := rfl
@[simp] theorem State.setSeq_ce (k : Nat) (v : Seq) : (s.setSeq k v).ce = s.ce := rfl
@[simp] theorem State.setSeq_rings (k : Nat) (v : Seq) : (s.setSeq k v).rings = s.rings := rfl
@[simp] theorem State.setSeq_ringMem (k : Nat) (v : Seq) : (s.setSeq k v).ringMem = s.ringMem := rfl
@[simp] theorem State.setSeq_fw (k : Nat) (v : Seq) : (s.setSeq k v).fw = s.fw := rfl
@[simp] theorem State.setSeq_prot (k : Nat) (v : Seq) : (s.setSeq k v).prot = s.prot := rfl
@[simp] theorem State.setSeq_pmu (k : Nat) (v : Seq) : (s.setSeq k v).pmu = s.pmu := rfl
@[simp] theorem State.setSeq_health (k : Nat) (v : Seq) : (s.setSeq k v).health = s.health := rfl
@[simp] theorem State.setSeq_blk (k : Nat) (v : Seq) : (s.setSeq k v).blk = s.blk := rfl
@[simp] theorem State.setSeq_fatal (k : Nat) (v : Seq) : (s.setSeq k v).fatal = s.fatal := rfl
@[simp] theorem State.setSeq_dbg (k : Nat) (v : Seq) : (s.setSeq k v).dbg = s.dbg := rfl
@[simp] theorem State.setSeq_pins (k : Nat) (v : Seq) : (s.setSeq k v).pins = s.pins := rfl
@[simp] theorem State.setSeq_nvm (k : Nat) (v : Seq) : (s.setSeq k v).nvm = s.nvm := rfl
@[simp] theorem State.setSeq_nvmReqs (k : Nat) (v : Seq) : (s.setSeq k v).nvmReqs = s.nvmReqs := rfl
@[simp] theorem State.setSeq_latches (k : Nat) (v : Seq) : (s.setSeq k v).latches = s.latches := rfl

@[simp] theorem State.setRegion_pending (k : Nat) (v : MemRegion) : (s.setRegion k v).pending = s.pending := rfl
@[simp] theorem State.setRegion_free (k : Nat) (v : MemRegion) : (s.setRegion k v).free = s.free := rfl
@[simp] theorem State.setRegion_cfg (k : Nat) (v : MemRegion) : (s.setRegion k v).cfg = s.cfg := rfl
@[simp] theorem State.setRegion_beat (k : Nat) (v : MemRegion) : (s.setRegion k v).beat = s.beat := rfl
@[simp] theorem State.setRegion_parts (k : Nat) (v : MemRegion) : (s.setRegion k v).parts = s.parts := rfl
@[simp] theorem State.setRegion_cores (k : Nat) (v : MemRegion) : (s.setRegion k v).cores = s.cores := rfl
@[simp] theorem State.setRegion_sets (k : Nat) (v : MemRegion) : (s.setRegion k v).sets = s.sets := rfl
@[simp] theorem State.setRegion_clms (k : Nat) (v : MemRegion) : (s.setRegion k v).clms = s.clms := rfl
@[simp] theorem State.setRegion_streams (k : Nat) (v : MemRegion) : (s.setRegion k v).streams = s.streams := rfl
@[simp] theorem State.setRegion_utlbs (k : Nat) (v : MemRegion) : (s.setRegion k v).utlbs = s.utlbs := rfl
@[simp] theorem State.setRegion_faults (k : Nat) (v : MemRegion) : (s.setRegion k v).faults = s.faults := rfl
@[simp] theorem State.setRegion_seqs (k : Nat) (v : MemRegion) : (s.setRegion k v).seqs = s.seqs := rfl
@[simp] theorem State.setRegion_channels (k : Nat) (v : MemRegion) : (s.setRegion k v).channels = s.channels := rfl
@[simp] theorem State.setRegion_stackSt (k : Nat) (v : MemRegion) : (s.setRegion k v).stackSt = s.stackSt := rfl
@[simp] theorem State.setRegion_far (k : Nat) (v : MemRegion) : (s.setRegion k v).far = s.far := rfl
@[simp] theorem State.setRegion_mem (k : Nat) (v : MemRegion) : (s.setRegion k v).mem = s.mem := rfl
@[simp] theorem State.setRegion_ports (k : Nat) (v : MemRegion) : (s.setRegion k v).ports = s.ports := rfl
@[simp] theorem State.setRegion_lbs (k : Nat) (v : MemRegion) : (s.setRegion k v).lbs = s.lbs := rfl
@[simp] theorem State.setRegion_ce (k : Nat) (v : MemRegion) : (s.setRegion k v).ce = s.ce := rfl
@[simp] theorem State.setRegion_rings (k : Nat) (v : MemRegion) : (s.setRegion k v).rings = s.rings := rfl
@[simp] theorem State.setRegion_ringMem (k : Nat) (v : MemRegion) : (s.setRegion k v).ringMem = s.ringMem := rfl
@[simp] theorem State.setRegion_fw (k : Nat) (v : MemRegion) : (s.setRegion k v).fw = s.fw := rfl
@[simp] theorem State.setRegion_prot (k : Nat) (v : MemRegion) : (s.setRegion k v).prot = s.prot := rfl
@[simp] theorem State.setRegion_pmu (k : Nat) (v : MemRegion) : (s.setRegion k v).pmu = s.pmu := rfl
@[simp] theorem State.setRegion_health (k : Nat) (v : MemRegion) : (s.setRegion k v).health = s.health := rfl
@[simp] theorem State.setRegion_blk (k : Nat) (v : MemRegion) : (s.setRegion k v).blk = s.blk := rfl
@[simp] theorem State.setRegion_fatal (k : Nat) (v : MemRegion) : (s.setRegion k v).fatal = s.fatal := rfl
@[simp] theorem State.setRegion_dbg (k : Nat) (v : MemRegion) : (s.setRegion k v).dbg = s.dbg := rfl
@[simp] theorem State.setRegion_pins (k : Nat) (v : MemRegion) : (s.setRegion k v).pins = s.pins := rfl
@[simp] theorem State.setRegion_nvm (k : Nat) (v : MemRegion) : (s.setRegion k v).nvm = s.nvm := rfl
@[simp] theorem State.setRegion_nvmReqs (k : Nat) (v : MemRegion) : (s.setRegion k v).nvmReqs = s.nvmReqs := rfl
@[simp] theorem State.setRegion_latches (k : Nat) (v : MemRegion) : (s.setRegion k v).latches = s.latches := rfl

@[simp] theorem State.setChannel_pending (k : Nat) (v : Channel) : (s.setChannel k v).pending = s.pending := rfl
@[simp] theorem State.setChannel_free (k : Nat) (v : Channel) : (s.setChannel k v).free = s.free := rfl
@[simp] theorem State.setChannel_cfg (k : Nat) (v : Channel) : (s.setChannel k v).cfg = s.cfg := rfl
@[simp] theorem State.setChannel_beat (k : Nat) (v : Channel) : (s.setChannel k v).beat = s.beat := rfl
@[simp] theorem State.setChannel_parts (k : Nat) (v : Channel) : (s.setChannel k v).parts = s.parts := rfl
@[simp] theorem State.setChannel_cores (k : Nat) (v : Channel) : (s.setChannel k v).cores = s.cores := rfl
@[simp] theorem State.setChannel_sets (k : Nat) (v : Channel) : (s.setChannel k v).sets = s.sets := rfl
@[simp] theorem State.setChannel_clms (k : Nat) (v : Channel) : (s.setChannel k v).clms = s.clms := rfl
@[simp] theorem State.setChannel_streams (k : Nat) (v : Channel) : (s.setChannel k v).streams = s.streams := rfl
@[simp] theorem State.setChannel_utlbs (k : Nat) (v : Channel) : (s.setChannel k v).utlbs = s.utlbs := rfl
@[simp] theorem State.setChannel_faults (k : Nat) (v : Channel) : (s.setChannel k v).faults = s.faults := rfl
@[simp] theorem State.setChannel_seqs (k : Nat) (v : Channel) : (s.setChannel k v).seqs = s.seqs := rfl
@[simp] theorem State.setChannel_regions (k : Nat) (v : Channel) : (s.setChannel k v).regions = s.regions := rfl
@[simp] theorem State.setChannel_stackSt (k : Nat) (v : Channel) : (s.setChannel k v).stackSt = s.stackSt := rfl
@[simp] theorem State.setChannel_far (k : Nat) (v : Channel) : (s.setChannel k v).far = s.far := rfl
@[simp] theorem State.setChannel_mem (k : Nat) (v : Channel) : (s.setChannel k v).mem = s.mem := rfl
@[simp] theorem State.setChannel_ports (k : Nat) (v : Channel) : (s.setChannel k v).ports = s.ports := rfl
@[simp] theorem State.setChannel_lbs (k : Nat) (v : Channel) : (s.setChannel k v).lbs = s.lbs := rfl
@[simp] theorem State.setChannel_ce (k : Nat) (v : Channel) : (s.setChannel k v).ce = s.ce := rfl
@[simp] theorem State.setChannel_rings (k : Nat) (v : Channel) : (s.setChannel k v).rings = s.rings := rfl
@[simp] theorem State.setChannel_ringMem (k : Nat) (v : Channel) : (s.setChannel k v).ringMem = s.ringMem := rfl
@[simp] theorem State.setChannel_fw (k : Nat) (v : Channel) : (s.setChannel k v).fw = s.fw := rfl
@[simp] theorem State.setChannel_prot (k : Nat) (v : Channel) : (s.setChannel k v).prot = s.prot := rfl
@[simp] theorem State.setChannel_pmu (k : Nat) (v : Channel) : (s.setChannel k v).pmu = s.pmu := rfl
@[simp] theorem State.setChannel_health (k : Nat) (v : Channel) : (s.setChannel k v).health = s.health := rfl
@[simp] theorem State.setChannel_blk (k : Nat) (v : Channel) : (s.setChannel k v).blk = s.blk := rfl
@[simp] theorem State.setChannel_fatal (k : Nat) (v : Channel) : (s.setChannel k v).fatal = s.fatal := rfl
@[simp] theorem State.setChannel_dbg (k : Nat) (v : Channel) : (s.setChannel k v).dbg = s.dbg := rfl
@[simp] theorem State.setChannel_pins (k : Nat) (v : Channel) : (s.setChannel k v).pins = s.pins := rfl
@[simp] theorem State.setChannel_nvm (k : Nat) (v : Channel) : (s.setChannel k v).nvm = s.nvm := rfl
@[simp] theorem State.setChannel_nvmReqs (k : Nat) (v : Channel) : (s.setChannel k v).nvmReqs = s.nvmReqs := rfl
@[simp] theorem State.setChannel_latches (k : Nat) (v : Channel) : (s.setChannel k v).latches = s.latches := rfl

@[simp] theorem State.setStack_pending (k : Nat) (v : Stack) : (s.setStack k v).pending = s.pending := rfl
@[simp] theorem State.setStack_free (k : Nat) (v : Stack) : (s.setStack k v).free = s.free := rfl
@[simp] theorem State.setStack_cfg (k : Nat) (v : Stack) : (s.setStack k v).cfg = s.cfg := rfl
@[simp] theorem State.setStack_beat (k : Nat) (v : Stack) : (s.setStack k v).beat = s.beat := rfl
@[simp] theorem State.setStack_parts (k : Nat) (v : Stack) : (s.setStack k v).parts = s.parts := rfl
@[simp] theorem State.setStack_cores (k : Nat) (v : Stack) : (s.setStack k v).cores = s.cores := rfl
@[simp] theorem State.setStack_sets (k : Nat) (v : Stack) : (s.setStack k v).sets = s.sets := rfl
@[simp] theorem State.setStack_clms (k : Nat) (v : Stack) : (s.setStack k v).clms = s.clms := rfl
@[simp] theorem State.setStack_streams (k : Nat) (v : Stack) : (s.setStack k v).streams = s.streams := rfl
@[simp] theorem State.setStack_utlbs (k : Nat) (v : Stack) : (s.setStack k v).utlbs = s.utlbs := rfl
@[simp] theorem State.setStack_faults (k : Nat) (v : Stack) : (s.setStack k v).faults = s.faults := rfl
@[simp] theorem State.setStack_seqs (k : Nat) (v : Stack) : (s.setStack k v).seqs = s.seqs := rfl
@[simp] theorem State.setStack_regions (k : Nat) (v : Stack) : (s.setStack k v).regions = s.regions := rfl
@[simp] theorem State.setStack_channels (k : Nat) (v : Stack) : (s.setStack k v).channels = s.channels := rfl
@[simp] theorem State.setStack_far (k : Nat) (v : Stack) : (s.setStack k v).far = s.far := rfl
@[simp] theorem State.setStack_mem (k : Nat) (v : Stack) : (s.setStack k v).mem = s.mem := rfl
@[simp] theorem State.setStack_ports (k : Nat) (v : Stack) : (s.setStack k v).ports = s.ports := rfl
@[simp] theorem State.setStack_lbs (k : Nat) (v : Stack) : (s.setStack k v).lbs = s.lbs := rfl
@[simp] theorem State.setStack_ce (k : Nat) (v : Stack) : (s.setStack k v).ce = s.ce := rfl
@[simp] theorem State.setStack_rings (k : Nat) (v : Stack) : (s.setStack k v).rings = s.rings := rfl
@[simp] theorem State.setStack_ringMem (k : Nat) (v : Stack) : (s.setStack k v).ringMem = s.ringMem := rfl
@[simp] theorem State.setStack_fw (k : Nat) (v : Stack) : (s.setStack k v).fw = s.fw := rfl
@[simp] theorem State.setStack_prot (k : Nat) (v : Stack) : (s.setStack k v).prot = s.prot := rfl
@[simp] theorem State.setStack_pmu (k : Nat) (v : Stack) : (s.setStack k v).pmu = s.pmu := rfl
@[simp] theorem State.setStack_health (k : Nat) (v : Stack) : (s.setStack k v).health = s.health := rfl
@[simp] theorem State.setStack_blk (k : Nat) (v : Stack) : (s.setStack k v).blk = s.blk := rfl
@[simp] theorem State.setStack_fatal (k : Nat) (v : Stack) : (s.setStack k v).fatal = s.fatal := rfl
@[simp] theorem State.setStack_dbg (k : Nat) (v : Stack) : (s.setStack k v).dbg = s.dbg := rfl
@[simp] theorem State.setStack_pins (k : Nat) (v : Stack) : (s.setStack k v).pins = s.pins := rfl
@[simp] theorem State.setStack_nvm (k : Nat) (v : Stack) : (s.setStack k v).nvm = s.nvm := rfl
@[simp] theorem State.setStack_nvmReqs (k : Nat) (v : Stack) : (s.setStack k v).nvmReqs = s.nvmReqs := rfl
@[simp] theorem State.setStack_latches (k : Nat) (v : Stack) : (s.setStack k v).latches = s.latches := rfl

@[simp] theorem State.setFar_pending (k : Nat) (v : FarPort) : (s.setFar k v).pending = s.pending := rfl
@[simp] theorem State.setFar_free (k : Nat) (v : FarPort) : (s.setFar k v).free = s.free := rfl
@[simp] theorem State.setFar_cfg (k : Nat) (v : FarPort) : (s.setFar k v).cfg = s.cfg := rfl
@[simp] theorem State.setFar_beat (k : Nat) (v : FarPort) : (s.setFar k v).beat = s.beat := rfl
@[simp] theorem State.setFar_parts (k : Nat) (v : FarPort) : (s.setFar k v).parts = s.parts := rfl
@[simp] theorem State.setFar_cores (k : Nat) (v : FarPort) : (s.setFar k v).cores = s.cores := rfl
@[simp] theorem State.setFar_sets (k : Nat) (v : FarPort) : (s.setFar k v).sets = s.sets := rfl
@[simp] theorem State.setFar_clms (k : Nat) (v : FarPort) : (s.setFar k v).clms = s.clms := rfl
@[simp] theorem State.setFar_streams (k : Nat) (v : FarPort) : (s.setFar k v).streams = s.streams := rfl
@[simp] theorem State.setFar_utlbs (k : Nat) (v : FarPort) : (s.setFar k v).utlbs = s.utlbs := rfl
@[simp] theorem State.setFar_faults (k : Nat) (v : FarPort) : (s.setFar k v).faults = s.faults := rfl
@[simp] theorem State.setFar_seqs (k : Nat) (v : FarPort) : (s.setFar k v).seqs = s.seqs := rfl
@[simp] theorem State.setFar_regions (k : Nat) (v : FarPort) : (s.setFar k v).regions = s.regions := rfl
@[simp] theorem State.setFar_channels (k : Nat) (v : FarPort) : (s.setFar k v).channels = s.channels := rfl
@[simp] theorem State.setFar_stackSt (k : Nat) (v : FarPort) : (s.setFar k v).stackSt = s.stackSt := rfl
@[simp] theorem State.setFar_mem (k : Nat) (v : FarPort) : (s.setFar k v).mem = s.mem := rfl
@[simp] theorem State.setFar_ports (k : Nat) (v : FarPort) : (s.setFar k v).ports = s.ports := rfl
@[simp] theorem State.setFar_lbs (k : Nat) (v : FarPort) : (s.setFar k v).lbs = s.lbs := rfl
@[simp] theorem State.setFar_ce (k : Nat) (v : FarPort) : (s.setFar k v).ce = s.ce := rfl
@[simp] theorem State.setFar_rings (k : Nat) (v : FarPort) : (s.setFar k v).rings = s.rings := rfl
@[simp] theorem State.setFar_ringMem (k : Nat) (v : FarPort) : (s.setFar k v).ringMem = s.ringMem := rfl
@[simp] theorem State.setFar_fw (k : Nat) (v : FarPort) : (s.setFar k v).fw = s.fw := rfl
@[simp] theorem State.setFar_prot (k : Nat) (v : FarPort) : (s.setFar k v).prot = s.prot := rfl
@[simp] theorem State.setFar_pmu (k : Nat) (v : FarPort) : (s.setFar k v).pmu = s.pmu := rfl
@[simp] theorem State.setFar_health (k : Nat) (v : FarPort) : (s.setFar k v).health = s.health := rfl
@[simp] theorem State.setFar_blk (k : Nat) (v : FarPort) : (s.setFar k v).blk = s.blk := rfl
@[simp] theorem State.setFar_fatal (k : Nat) (v : FarPort) : (s.setFar k v).fatal = s.fatal := rfl
@[simp] theorem State.setFar_dbg (k : Nat) (v : FarPort) : (s.setFar k v).dbg = s.dbg := rfl
@[simp] theorem State.setFar_pins (k : Nat) (v : FarPort) : (s.setFar k v).pins = s.pins := rfl
@[simp] theorem State.setFar_nvm (k : Nat) (v : FarPort) : (s.setFar k v).nvm = s.nvm := rfl
@[simp] theorem State.setFar_nvmReqs (k : Nat) (v : FarPort) : (s.setFar k v).nvmReqs = s.nvmReqs := rfl
@[simp] theorem State.setFar_latches (k : Nat) (v : FarPort) : (s.setFar k v).latches = s.latches := rfl

@[simp] theorem State.setPort_pending (k : Nat) (v : Port) : (s.setPort k v).pending = s.pending := rfl
@[simp] theorem State.setPort_free (k : Nat) (v : Port) : (s.setPort k v).free = s.free := rfl
@[simp] theorem State.setPort_cfg (k : Nat) (v : Port) : (s.setPort k v).cfg = s.cfg := rfl
@[simp] theorem State.setPort_beat (k : Nat) (v : Port) : (s.setPort k v).beat = s.beat := rfl
@[simp] theorem State.setPort_parts (k : Nat) (v : Port) : (s.setPort k v).parts = s.parts := rfl
@[simp] theorem State.setPort_cores (k : Nat) (v : Port) : (s.setPort k v).cores = s.cores := rfl
@[simp] theorem State.setPort_sets (k : Nat) (v : Port) : (s.setPort k v).sets = s.sets := rfl
@[simp] theorem State.setPort_clms (k : Nat) (v : Port) : (s.setPort k v).clms = s.clms := rfl
@[simp] theorem State.setPort_streams (k : Nat) (v : Port) : (s.setPort k v).streams = s.streams := rfl
@[simp] theorem State.setPort_utlbs (k : Nat) (v : Port) : (s.setPort k v).utlbs = s.utlbs := rfl
@[simp] theorem State.setPort_faults (k : Nat) (v : Port) : (s.setPort k v).faults = s.faults := rfl
@[simp] theorem State.setPort_seqs (k : Nat) (v : Port) : (s.setPort k v).seqs = s.seqs := rfl
@[simp] theorem State.setPort_regions (k : Nat) (v : Port) : (s.setPort k v).regions = s.regions := rfl
@[simp] theorem State.setPort_channels (k : Nat) (v : Port) : (s.setPort k v).channels = s.channels := rfl
@[simp] theorem State.setPort_stackSt (k : Nat) (v : Port) : (s.setPort k v).stackSt = s.stackSt := rfl
@[simp] theorem State.setPort_far (k : Nat) (v : Port) : (s.setPort k v).far = s.far := rfl
@[simp] theorem State.setPort_mem (k : Nat) (v : Port) : (s.setPort k v).mem = s.mem := rfl
@[simp] theorem State.setPort_lbs (k : Nat) (v : Port) : (s.setPort k v).lbs = s.lbs := rfl
@[simp] theorem State.setPort_ce (k : Nat) (v : Port) : (s.setPort k v).ce = s.ce := rfl
@[simp] theorem State.setPort_rings (k : Nat) (v : Port) : (s.setPort k v).rings = s.rings := rfl
@[simp] theorem State.setPort_ringMem (k : Nat) (v : Port) : (s.setPort k v).ringMem = s.ringMem := rfl
@[simp] theorem State.setPort_fw (k : Nat) (v : Port) : (s.setPort k v).fw = s.fw := rfl
@[simp] theorem State.setPort_prot (k : Nat) (v : Port) : (s.setPort k v).prot = s.prot := rfl
@[simp] theorem State.setPort_pmu (k : Nat) (v : Port) : (s.setPort k v).pmu = s.pmu := rfl
@[simp] theorem State.setPort_health (k : Nat) (v : Port) : (s.setPort k v).health = s.health := rfl
@[simp] theorem State.setPort_blk (k : Nat) (v : Port) : (s.setPort k v).blk = s.blk := rfl
@[simp] theorem State.setPort_fatal (k : Nat) (v : Port) : (s.setPort k v).fatal = s.fatal := rfl
@[simp] theorem State.setPort_dbg (k : Nat) (v : Port) : (s.setPort k v).dbg = s.dbg := rfl
@[simp] theorem State.setPort_pins (k : Nat) (v : Port) : (s.setPort k v).pins = s.pins := rfl
@[simp] theorem State.setPort_nvm (k : Nat) (v : Port) : (s.setPort k v).nvm = s.nvm := rfl
@[simp] theorem State.setPort_nvmReqs (k : Nat) (v : Port) : (s.setPort k v).nvmReqs = s.nvmReqs := rfl
@[simp] theorem State.setPort_latches (k : Nat) (v : Port) : (s.setPort k v).latches = s.latches := rfl

@[simp] theorem State.setLb_pending (k : Nat) (v : LandBuf) : (s.setLb k v).pending = s.pending := rfl
@[simp] theorem State.setLb_free (k : Nat) (v : LandBuf) : (s.setLb k v).free = s.free := rfl
@[simp] theorem State.setLb_cfg (k : Nat) (v : LandBuf) : (s.setLb k v).cfg = s.cfg := rfl
@[simp] theorem State.setLb_beat (k : Nat) (v : LandBuf) : (s.setLb k v).beat = s.beat := rfl
@[simp] theorem State.setLb_parts (k : Nat) (v : LandBuf) : (s.setLb k v).parts = s.parts := rfl
@[simp] theorem State.setLb_cores (k : Nat) (v : LandBuf) : (s.setLb k v).cores = s.cores := rfl
@[simp] theorem State.setLb_sets (k : Nat) (v : LandBuf) : (s.setLb k v).sets = s.sets := rfl
@[simp] theorem State.setLb_clms (k : Nat) (v : LandBuf) : (s.setLb k v).clms = s.clms := rfl
@[simp] theorem State.setLb_streams (k : Nat) (v : LandBuf) : (s.setLb k v).streams = s.streams := rfl
@[simp] theorem State.setLb_utlbs (k : Nat) (v : LandBuf) : (s.setLb k v).utlbs = s.utlbs := rfl
@[simp] theorem State.setLb_faults (k : Nat) (v : LandBuf) : (s.setLb k v).faults = s.faults := rfl
@[simp] theorem State.setLb_seqs (k : Nat) (v : LandBuf) : (s.setLb k v).seqs = s.seqs := rfl
@[simp] theorem State.setLb_regions (k : Nat) (v : LandBuf) : (s.setLb k v).regions = s.regions := rfl
@[simp] theorem State.setLb_channels (k : Nat) (v : LandBuf) : (s.setLb k v).channels = s.channels := rfl
@[simp] theorem State.setLb_stackSt (k : Nat) (v : LandBuf) : (s.setLb k v).stackSt = s.stackSt := rfl
@[simp] theorem State.setLb_far (k : Nat) (v : LandBuf) : (s.setLb k v).far = s.far := rfl
@[simp] theorem State.setLb_mem (k : Nat) (v : LandBuf) : (s.setLb k v).mem = s.mem := rfl
@[simp] theorem State.setLb_ports (k : Nat) (v : LandBuf) : (s.setLb k v).ports = s.ports := rfl
@[simp] theorem State.setLb_ce (k : Nat) (v : LandBuf) : (s.setLb k v).ce = s.ce := rfl
@[simp] theorem State.setLb_rings (k : Nat) (v : LandBuf) : (s.setLb k v).rings = s.rings := rfl
@[simp] theorem State.setLb_ringMem (k : Nat) (v : LandBuf) : (s.setLb k v).ringMem = s.ringMem := rfl
@[simp] theorem State.setLb_fw (k : Nat) (v : LandBuf) : (s.setLb k v).fw = s.fw := rfl
@[simp] theorem State.setLb_prot (k : Nat) (v : LandBuf) : (s.setLb k v).prot = s.prot := rfl
@[simp] theorem State.setLb_pmu (k : Nat) (v : LandBuf) : (s.setLb k v).pmu = s.pmu := rfl
@[simp] theorem State.setLb_health (k : Nat) (v : LandBuf) : (s.setLb k v).health = s.health := rfl
@[simp] theorem State.setLb_blk (k : Nat) (v : LandBuf) : (s.setLb k v).blk = s.blk := rfl
@[simp] theorem State.setLb_fatal (k : Nat) (v : LandBuf) : (s.setLb k v).fatal = s.fatal := rfl
@[simp] theorem State.setLb_dbg (k : Nat) (v : LandBuf) : (s.setLb k v).dbg = s.dbg := rfl
@[simp] theorem State.setLb_pins (k : Nat) (v : LandBuf) : (s.setLb k v).pins = s.pins := rfl
@[simp] theorem State.setLb_nvm (k : Nat) (v : LandBuf) : (s.setLb k v).nvm = s.nvm := rfl
@[simp] theorem State.setLb_nvmReqs (k : Nat) (v : LandBuf) : (s.setLb k v).nvmReqs = s.nvmReqs := rfl
@[simp] theorem State.setLb_latches (k : Nat) (v : LandBuf) : (s.setLb k v).latches = s.latches := rfl

@[simp] theorem State.setRing_pending (k : Nat) (v : Ring) : (s.setRing k v).pending = s.pending := rfl
@[simp] theorem State.setRing_free (k : Nat) (v : Ring) : (s.setRing k v).free = s.free := rfl
@[simp] theorem State.setRing_cfg (k : Nat) (v : Ring) : (s.setRing k v).cfg = s.cfg := rfl
@[simp] theorem State.setRing_beat (k : Nat) (v : Ring) : (s.setRing k v).beat = s.beat := rfl
@[simp] theorem State.setRing_parts (k : Nat) (v : Ring) : (s.setRing k v).parts = s.parts := rfl
@[simp] theorem State.setRing_cores (k : Nat) (v : Ring) : (s.setRing k v).cores = s.cores := rfl
@[simp] theorem State.setRing_sets (k : Nat) (v : Ring) : (s.setRing k v).sets = s.sets := rfl
@[simp] theorem State.setRing_clms (k : Nat) (v : Ring) : (s.setRing k v).clms = s.clms := rfl
@[simp] theorem State.setRing_streams (k : Nat) (v : Ring) : (s.setRing k v).streams = s.streams := rfl
@[simp] theorem State.setRing_utlbs (k : Nat) (v : Ring) : (s.setRing k v).utlbs = s.utlbs := rfl
@[simp] theorem State.setRing_faults (k : Nat) (v : Ring) : (s.setRing k v).faults = s.faults := rfl
@[simp] theorem State.setRing_seqs (k : Nat) (v : Ring) : (s.setRing k v).seqs = s.seqs := rfl
@[simp] theorem State.setRing_regions (k : Nat) (v : Ring) : (s.setRing k v).regions = s.regions := rfl
@[simp] theorem State.setRing_channels (k : Nat) (v : Ring) : (s.setRing k v).channels = s.channels := rfl
@[simp] theorem State.setRing_stackSt (k : Nat) (v : Ring) : (s.setRing k v).stackSt = s.stackSt := rfl
@[simp] theorem State.setRing_far (k : Nat) (v : Ring) : (s.setRing k v).far = s.far := rfl
@[simp] theorem State.setRing_mem (k : Nat) (v : Ring) : (s.setRing k v).mem = s.mem := rfl
@[simp] theorem State.setRing_ports (k : Nat) (v : Ring) : (s.setRing k v).ports = s.ports := rfl
@[simp] theorem State.setRing_lbs (k : Nat) (v : Ring) : (s.setRing k v).lbs = s.lbs := rfl
@[simp] theorem State.setRing_ce (k : Nat) (v : Ring) : (s.setRing k v).ce = s.ce := rfl
@[simp] theorem State.setRing_ringMem (k : Nat) (v : Ring) : (s.setRing k v).ringMem = s.ringMem := rfl
@[simp] theorem State.setRing_fw (k : Nat) (v : Ring) : (s.setRing k v).fw = s.fw := rfl
@[simp] theorem State.setRing_prot (k : Nat) (v : Ring) : (s.setRing k v).prot = s.prot := rfl
@[simp] theorem State.setRing_pmu (k : Nat) (v : Ring) : (s.setRing k v).pmu = s.pmu := rfl
@[simp] theorem State.setRing_health (k : Nat) (v : Ring) : (s.setRing k v).health = s.health := rfl
@[simp] theorem State.setRing_blk (k : Nat) (v : Ring) : (s.setRing k v).blk = s.blk := rfl
@[simp] theorem State.setRing_fatal (k : Nat) (v : Ring) : (s.setRing k v).fatal = s.fatal := rfl
@[simp] theorem State.setRing_dbg (k : Nat) (v : Ring) : (s.setRing k v).dbg = s.dbg := rfl
@[simp] theorem State.setRing_pins (k : Nat) (v : Ring) : (s.setRing k v).pins = s.pins := rfl
@[simp] theorem State.setRing_nvm (k : Nat) (v : Ring) : (s.setRing k v).nvm = s.nvm := rfl
@[simp] theorem State.setRing_nvmReqs (k : Nat) (v : Ring) : (s.setRing k v).nvmReqs = s.nvmReqs := rfl
@[simp] theorem State.setRing_latches (k : Nat) (v : Ring) : (s.setRing k v).latches = s.latches := rfl

@[simp] theorem State.setUtlb_pending (c e : Nat) (v : List TlbEntry) : (s.setUtlb c e v).pending = s.pending := rfl
@[simp] theorem State.setUtlb_free (c e : Nat) (v : List TlbEntry) : (s.setUtlb c e v).free = s.free := rfl
@[simp] theorem State.setUtlb_cfg (c e : Nat) (v : List TlbEntry) : (s.setUtlb c e v).cfg = s.cfg := rfl
@[simp] theorem State.setUtlb_beat (c e : Nat) (v : List TlbEntry) : (s.setUtlb c e v).beat = s.beat := rfl
@[simp] theorem State.setUtlb_parts (c e : Nat) (v : List TlbEntry) : (s.setUtlb c e v).parts = s.parts := rfl
@[simp] theorem State.setUtlb_cores (c e : Nat) (v : List TlbEntry) : (s.setUtlb c e v).cores = s.cores := rfl
@[simp] theorem State.setUtlb_sets (c e : Nat) (v : List TlbEntry) : (s.setUtlb c e v).sets = s.sets := rfl
@[simp] theorem State.setUtlb_clms (c e : Nat) (v : List TlbEntry) : (s.setUtlb c e v).clms = s.clms := rfl
@[simp] theorem State.setUtlb_streams (c e : Nat) (v : List TlbEntry) : (s.setUtlb c e v).streams = s.streams := rfl
@[simp] theorem State.setUtlb_faults (c e : Nat) (v : List TlbEntry) : (s.setUtlb c e v).faults = s.faults := rfl
@[simp] theorem State.setUtlb_seqs (c e : Nat) (v : List TlbEntry) : (s.setUtlb c e v).seqs = s.seqs := rfl
@[simp] theorem State.setUtlb_regions (c e : Nat) (v : List TlbEntry) : (s.setUtlb c e v).regions = s.regions := rfl
@[simp] theorem State.setUtlb_channels (c e : Nat) (v : List TlbEntry) : (s.setUtlb c e v).channels = s.channels := rfl
@[simp] theorem State.setUtlb_stackSt (c e : Nat) (v : List TlbEntry) : (s.setUtlb c e v).stackSt = s.stackSt := rfl
@[simp] theorem State.setUtlb_far (c e : Nat) (v : List TlbEntry) : (s.setUtlb c e v).far = s.far := rfl
@[simp] theorem State.setUtlb_mem (c e : Nat) (v : List TlbEntry) : (s.setUtlb c e v).mem = s.mem := rfl
@[simp] theorem State.setUtlb_ports (c e : Nat) (v : List TlbEntry) : (s.setUtlb c e v).ports = s.ports := rfl
@[simp] theorem State.setUtlb_lbs (c e : Nat) (v : List TlbEntry) : (s.setUtlb c e v).lbs = s.lbs := rfl
@[simp] theorem State.setUtlb_ce (c e : Nat) (v : List TlbEntry) : (s.setUtlb c e v).ce = s.ce := rfl
@[simp] theorem State.setUtlb_rings (c e : Nat) (v : List TlbEntry) : (s.setUtlb c e v).rings = s.rings := rfl
@[simp] theorem State.setUtlb_ringMem (c e : Nat) (v : List TlbEntry) : (s.setUtlb c e v).ringMem = s.ringMem := rfl
@[simp] theorem State.setUtlb_fw (c e : Nat) (v : List TlbEntry) : (s.setUtlb c e v).fw = s.fw := rfl
@[simp] theorem State.setUtlb_prot (c e : Nat) (v : List TlbEntry) : (s.setUtlb c e v).prot = s.prot := rfl
@[simp] theorem State.setUtlb_pmu (c e : Nat) (v : List TlbEntry) : (s.setUtlb c e v).pmu = s.pmu := rfl
@[simp] theorem State.setUtlb_health (c e : Nat) (v : List TlbEntry) : (s.setUtlb c e v).health = s.health := rfl
@[simp] theorem State.setUtlb_blk (c e : Nat) (v : List TlbEntry) : (s.setUtlb c e v).blk = s.blk := rfl
@[simp] theorem State.setUtlb_fatal (c e : Nat) (v : List TlbEntry) : (s.setUtlb c e v).fatal = s.fatal := rfl
@[simp] theorem State.setUtlb_dbg (c e : Nat) (v : List TlbEntry) : (s.setUtlb c e v).dbg = s.dbg := rfl
@[simp] theorem State.setUtlb_pins (c e : Nat) (v : List TlbEntry) : (s.setUtlb c e v).pins = s.pins := rfl
@[simp] theorem State.setUtlb_nvm (c e : Nat) (v : List TlbEntry) : (s.setUtlb c e v).nvm = s.nvm := rfl
@[simp] theorem State.setUtlb_nvmReqs (c e : Nat) (v : List TlbEntry) : (s.setUtlb c e v).nvmReqs = s.nvmReqs := rfl
@[simp] theorem State.setUtlb_latches (c e : Nat) (v : List TlbEntry) : (s.setUtlb c e v).latches = s.latches := rfl

@[simp] theorem State.draw_pending : (s.draw).pending = s.pending := rfl
@[simp] theorem State.draw_cfg : (s.draw).cfg = s.cfg := rfl
@[simp] theorem State.draw_beat : (s.draw).beat = s.beat := rfl
@[simp] theorem State.draw_parts : (s.draw).parts = s.parts := rfl
@[simp] theorem State.draw_cores : (s.draw).cores = s.cores := rfl
@[simp] theorem State.draw_sets : (s.draw).sets = s.sets := rfl
@[simp] theorem State.draw_clms : (s.draw).clms = s.clms := rfl
@[simp] theorem State.draw_streams : (s.draw).streams = s.streams := rfl
@[simp] theorem State.draw_utlbs : (s.draw).utlbs = s.utlbs := rfl
@[simp] theorem State.draw_faults : (s.draw).faults = s.faults := rfl
@[simp] theorem State.draw_seqs : (s.draw).seqs = s.seqs := rfl
@[simp] theorem State.draw_regions : (s.draw).regions = s.regions := rfl
@[simp] theorem State.draw_channels : (s.draw).channels = s.channels := rfl
@[simp] theorem State.draw_stackSt : (s.draw).stackSt = s.stackSt := rfl
@[simp] theorem State.draw_far : (s.draw).far = s.far := rfl
@[simp] theorem State.draw_mem : (s.draw).mem = s.mem := rfl
@[simp] theorem State.draw_ports : (s.draw).ports = s.ports := rfl
@[simp] theorem State.draw_lbs : (s.draw).lbs = s.lbs := rfl
@[simp] theorem State.draw_ce : (s.draw).ce = s.ce := rfl
@[simp] theorem State.draw_rings : (s.draw).rings = s.rings := rfl
@[simp] theorem State.draw_ringMem : (s.draw).ringMem = s.ringMem := rfl
@[simp] theorem State.draw_fw : (s.draw).fw = s.fw := rfl
@[simp] theorem State.draw_prot : (s.draw).prot = s.prot := rfl
@[simp] theorem State.draw_pmu : (s.draw).pmu = s.pmu := rfl
@[simp] theorem State.draw_health : (s.draw).health = s.health := rfl
@[simp] theorem State.draw_blk : (s.draw).blk = s.blk := rfl
@[simp] theorem State.draw_fatal : (s.draw).fatal = s.fatal := rfl
@[simp] theorem State.draw_dbg : (s.draw).dbg = s.dbg := rfl
@[simp] theorem State.draw_pins : (s.draw).pins = s.pins := rfl
@[simp] theorem State.draw_nvm : (s.draw).nvm = s.nvm := rfl
@[simp] theorem State.draw_nvmReqs : (s.draw).nvmReqs = s.nvmReqs := rfl
@[simp] theorem State.draw_latches : (s.draw).latches = s.latches := rfl

@[simp] theorem State.modPart_pending (p : Nat) (f : Part → Part) : (s.modPart p f).pending = s.pending := rfl
@[simp] theorem State.modPart_free (p : Nat) (f : Part → Part) : (s.modPart p f).free = s.free := rfl
@[simp] theorem State.modPart_cfg (p : Nat) (f : Part → Part) : (s.modPart p f).cfg = s.cfg := rfl
@[simp] theorem State.modPart_beat (p : Nat) (f : Part → Part) : (s.modPart p f).beat = s.beat := rfl
@[simp] theorem State.modPart_cores (p : Nat) (f : Part → Part) : (s.modPart p f).cores = s.cores := rfl
@[simp] theorem State.modPart_sets (p : Nat) (f : Part → Part) : (s.modPart p f).sets = s.sets := rfl
@[simp] theorem State.modPart_clms (p : Nat) (f : Part → Part) : (s.modPart p f).clms = s.clms := rfl
@[simp] theorem State.modPart_streams (p : Nat) (f : Part → Part) : (s.modPart p f).streams = s.streams := rfl
@[simp] theorem State.modPart_utlbs (p : Nat) (f : Part → Part) : (s.modPart p f).utlbs = s.utlbs := rfl
@[simp] theorem State.modPart_faults (p : Nat) (f : Part → Part) : (s.modPart p f).faults = s.faults := rfl
@[simp] theorem State.modPart_seqs (p : Nat) (f : Part → Part) : (s.modPart p f).seqs = s.seqs := rfl
@[simp] theorem State.modPart_regions (p : Nat) (f : Part → Part) : (s.modPart p f).regions = s.regions := rfl
@[simp] theorem State.modPart_channels (p : Nat) (f : Part → Part) : (s.modPart p f).channels = s.channels := rfl
@[simp] theorem State.modPart_stackSt (p : Nat) (f : Part → Part) : (s.modPart p f).stackSt = s.stackSt := rfl
@[simp] theorem State.modPart_far (p : Nat) (f : Part → Part) : (s.modPart p f).far = s.far := rfl
@[simp] theorem State.modPart_mem (p : Nat) (f : Part → Part) : (s.modPart p f).mem = s.mem := rfl
@[simp] theorem State.modPart_ports (p : Nat) (f : Part → Part) : (s.modPart p f).ports = s.ports := rfl
@[simp] theorem State.modPart_lbs (p : Nat) (f : Part → Part) : (s.modPart p f).lbs = s.lbs := rfl
@[simp] theorem State.modPart_ce (p : Nat) (f : Part → Part) : (s.modPart p f).ce = s.ce := rfl
@[simp] theorem State.modPart_rings (p : Nat) (f : Part → Part) : (s.modPart p f).rings = s.rings := rfl
@[simp] theorem State.modPart_ringMem (p : Nat) (f : Part → Part) : (s.modPart p f).ringMem = s.ringMem := rfl
@[simp] theorem State.modPart_fw (p : Nat) (f : Part → Part) : (s.modPart p f).fw = s.fw := rfl
@[simp] theorem State.modPart_prot (p : Nat) (f : Part → Part) : (s.modPart p f).prot = s.prot := rfl
@[simp] theorem State.modPart_pmu (p : Nat) (f : Part → Part) : (s.modPart p f).pmu = s.pmu := rfl
@[simp] theorem State.modPart_health (p : Nat) (f : Part → Part) : (s.modPart p f).health = s.health := rfl
@[simp] theorem State.modPart_blk (p : Nat) (f : Part → Part) : (s.modPart p f).blk = s.blk := rfl
@[simp] theorem State.modPart_fatal (p : Nat) (f : Part → Part) : (s.modPart p f).fatal = s.fatal := rfl
@[simp] theorem State.modPart_dbg (p : Nat) (f : Part → Part) : (s.modPart p f).dbg = s.dbg := rfl
@[simp] theorem State.modPart_pins (p : Nat) (f : Part → Part) : (s.modPart p f).pins = s.pins := rfl
@[simp] theorem State.modPart_nvm (p : Nat) (f : Part → Part) : (s.modPart p f).nvm = s.nvm := rfl
@[simp] theorem State.modPart_nvmReqs (p : Nat) (f : Part → Part) : (s.modPart p f).nvmReqs = s.nvmReqs := rfl
@[simp] theorem State.modPart_latches (p : Nat) (f : Part → Part) : (s.modPart p f).latches = s.latches := rfl

@[simp] theorem State.modCore_pending (c : Nat) (f : Core → Core) : (s.modCore c f).pending = s.pending := rfl
@[simp] theorem State.modCore_free (c : Nat) (f : Core → Core) : (s.modCore c f).free = s.free := rfl
@[simp] theorem State.modCore_cfg (c : Nat) (f : Core → Core) : (s.modCore c f).cfg = s.cfg := rfl
@[simp] theorem State.modCore_beat (c : Nat) (f : Core → Core) : (s.modCore c f).beat = s.beat := rfl
@[simp] theorem State.modCore_parts (c : Nat) (f : Core → Core) : (s.modCore c f).parts = s.parts := rfl
@[simp] theorem State.modCore_sets (c : Nat) (f : Core → Core) : (s.modCore c f).sets = s.sets := rfl
@[simp] theorem State.modCore_clms (c : Nat) (f : Core → Core) : (s.modCore c f).clms = s.clms := rfl
@[simp] theorem State.modCore_streams (c : Nat) (f : Core → Core) : (s.modCore c f).streams = s.streams := rfl
@[simp] theorem State.modCore_utlbs (c : Nat) (f : Core → Core) : (s.modCore c f).utlbs = s.utlbs := rfl
@[simp] theorem State.modCore_faults (c : Nat) (f : Core → Core) : (s.modCore c f).faults = s.faults := rfl
@[simp] theorem State.modCore_seqs (c : Nat) (f : Core → Core) : (s.modCore c f).seqs = s.seqs := rfl
@[simp] theorem State.modCore_regions (c : Nat) (f : Core → Core) : (s.modCore c f).regions = s.regions := rfl
@[simp] theorem State.modCore_channels (c : Nat) (f : Core → Core) : (s.modCore c f).channels = s.channels := rfl
@[simp] theorem State.modCore_stackSt (c : Nat) (f : Core → Core) : (s.modCore c f).stackSt = s.stackSt := rfl
@[simp] theorem State.modCore_far (c : Nat) (f : Core → Core) : (s.modCore c f).far = s.far := rfl
@[simp] theorem State.modCore_mem (c : Nat) (f : Core → Core) : (s.modCore c f).mem = s.mem := rfl
@[simp] theorem State.modCore_ports (c : Nat) (f : Core → Core) : (s.modCore c f).ports = s.ports := rfl
@[simp] theorem State.modCore_lbs (c : Nat) (f : Core → Core) : (s.modCore c f).lbs = s.lbs := rfl
@[simp] theorem State.modCore_ce (c : Nat) (f : Core → Core) : (s.modCore c f).ce = s.ce := rfl
@[simp] theorem State.modCore_rings (c : Nat) (f : Core → Core) : (s.modCore c f).rings = s.rings := rfl
@[simp] theorem State.modCore_ringMem (c : Nat) (f : Core → Core) : (s.modCore c f).ringMem = s.ringMem := rfl
@[simp] theorem State.modCore_fw (c : Nat) (f : Core → Core) : (s.modCore c f).fw = s.fw := rfl
@[simp] theorem State.modCore_prot (c : Nat) (f : Core → Core) : (s.modCore c f).prot = s.prot := rfl
@[simp] theorem State.modCore_pmu (c : Nat) (f : Core → Core) : (s.modCore c f).pmu = s.pmu := rfl
@[simp] theorem State.modCore_health (c : Nat) (f : Core → Core) : (s.modCore c f).health = s.health := rfl
@[simp] theorem State.modCore_blk (c : Nat) (f : Core → Core) : (s.modCore c f).blk = s.blk := rfl
@[simp] theorem State.modCore_fatal (c : Nat) (f : Core → Core) : (s.modCore c f).fatal = s.fatal := rfl
@[simp] theorem State.modCore_dbg (c : Nat) (f : Core → Core) : (s.modCore c f).dbg = s.dbg := rfl
@[simp] theorem State.modCore_pins (c : Nat) (f : Core → Core) : (s.modCore c f).pins = s.pins := rfl
@[simp] theorem State.modCore_nvm (c : Nat) (f : Core → Core) : (s.modCore c f).nvm = s.nvm := rfl
@[simp] theorem State.modCore_nvmReqs (c : Nat) (f : Core → Core) : (s.modCore c f).nvmReqs = s.nvmReqs := rfl
@[simp] theorem State.modCore_latches (c : Nat) (f : Core → Core) : (s.modCore c f).latches = s.latches := rfl

@[simp] theorem State.modUnit_pending (k : Nat) (f : SetUnits → SetUnits) : (s.modUnit k f).pending = s.pending := rfl
@[simp] theorem State.modUnit_free (k : Nat) (f : SetUnits → SetUnits) : (s.modUnit k f).free = s.free := rfl
@[simp] theorem State.modUnit_cfg (k : Nat) (f : SetUnits → SetUnits) : (s.modUnit k f).cfg = s.cfg := rfl
@[simp] theorem State.modUnit_beat (k : Nat) (f : SetUnits → SetUnits) : (s.modUnit k f).beat = s.beat := rfl
@[simp] theorem State.modUnit_parts (k : Nat) (f : SetUnits → SetUnits) : (s.modUnit k f).parts = s.parts := rfl
@[simp] theorem State.modUnit_cores (k : Nat) (f : SetUnits → SetUnits) : (s.modUnit k f).cores = s.cores := rfl
@[simp] theorem State.modUnit_clms (k : Nat) (f : SetUnits → SetUnits) : (s.modUnit k f).clms = s.clms := rfl
@[simp] theorem State.modUnit_streams (k : Nat) (f : SetUnits → SetUnits) : (s.modUnit k f).streams = s.streams := rfl
@[simp] theorem State.modUnit_utlbs (k : Nat) (f : SetUnits → SetUnits) : (s.modUnit k f).utlbs = s.utlbs := rfl
@[simp] theorem State.modUnit_faults (k : Nat) (f : SetUnits → SetUnits) : (s.modUnit k f).faults = s.faults := rfl
@[simp] theorem State.modUnit_seqs (k : Nat) (f : SetUnits → SetUnits) : (s.modUnit k f).seqs = s.seqs := rfl
@[simp] theorem State.modUnit_regions (k : Nat) (f : SetUnits → SetUnits) : (s.modUnit k f).regions = s.regions := rfl
@[simp] theorem State.modUnit_channels (k : Nat) (f : SetUnits → SetUnits) : (s.modUnit k f).channels = s.channels := rfl
@[simp] theorem State.modUnit_stackSt (k : Nat) (f : SetUnits → SetUnits) : (s.modUnit k f).stackSt = s.stackSt := rfl
@[simp] theorem State.modUnit_far (k : Nat) (f : SetUnits → SetUnits) : (s.modUnit k f).far = s.far := rfl
@[simp] theorem State.modUnit_mem (k : Nat) (f : SetUnits → SetUnits) : (s.modUnit k f).mem = s.mem := rfl
@[simp] theorem State.modUnit_ports (k : Nat) (f : SetUnits → SetUnits) : (s.modUnit k f).ports = s.ports := rfl
@[simp] theorem State.modUnit_lbs (k : Nat) (f : SetUnits → SetUnits) : (s.modUnit k f).lbs = s.lbs := rfl
@[simp] theorem State.modUnit_ce (k : Nat) (f : SetUnits → SetUnits) : (s.modUnit k f).ce = s.ce := rfl
@[simp] theorem State.modUnit_rings (k : Nat) (f : SetUnits → SetUnits) : (s.modUnit k f).rings = s.rings := rfl
@[simp] theorem State.modUnit_ringMem (k : Nat) (f : SetUnits → SetUnits) : (s.modUnit k f).ringMem = s.ringMem := rfl
@[simp] theorem State.modUnit_fw (k : Nat) (f : SetUnits → SetUnits) : (s.modUnit k f).fw = s.fw := rfl
@[simp] theorem State.modUnit_prot (k : Nat) (f : SetUnits → SetUnits) : (s.modUnit k f).prot = s.prot := rfl
@[simp] theorem State.modUnit_pmu (k : Nat) (f : SetUnits → SetUnits) : (s.modUnit k f).pmu = s.pmu := rfl
@[simp] theorem State.modUnit_health (k : Nat) (f : SetUnits → SetUnits) : (s.modUnit k f).health = s.health := rfl
@[simp] theorem State.modUnit_blk (k : Nat) (f : SetUnits → SetUnits) : (s.modUnit k f).blk = s.blk := rfl
@[simp] theorem State.modUnit_fatal (k : Nat) (f : SetUnits → SetUnits) : (s.modUnit k f).fatal = s.fatal := rfl
@[simp] theorem State.modUnit_dbg (k : Nat) (f : SetUnits → SetUnits) : (s.modUnit k f).dbg = s.dbg := rfl
@[simp] theorem State.modUnit_pins (k : Nat) (f : SetUnits → SetUnits) : (s.modUnit k f).pins = s.pins := rfl
@[simp] theorem State.modUnit_nvm (k : Nat) (f : SetUnits → SetUnits) : (s.modUnit k f).nvm = s.nvm := rfl
@[simp] theorem State.modUnit_nvmReqs (k : Nat) (f : SetUnits → SetUnits) : (s.modUnit k f).nvmReqs = s.nvmReqs := rfl
@[simp] theorem State.modUnit_latches (k : Nat) (f : SetUnits → SetUnits) : (s.modUnit k f).latches = s.latches := rfl

@[simp] theorem State.modClm_pending (k : Nat) (f : Clm → Clm) : (s.modClm k f).pending = s.pending := rfl
@[simp] theorem State.modClm_free (k : Nat) (f : Clm → Clm) : (s.modClm k f).free = s.free := rfl
@[simp] theorem State.modClm_cfg (k : Nat) (f : Clm → Clm) : (s.modClm k f).cfg = s.cfg := rfl
@[simp] theorem State.modClm_beat (k : Nat) (f : Clm → Clm) : (s.modClm k f).beat = s.beat := rfl
@[simp] theorem State.modClm_parts (k : Nat) (f : Clm → Clm) : (s.modClm k f).parts = s.parts := rfl
@[simp] theorem State.modClm_cores (k : Nat) (f : Clm → Clm) : (s.modClm k f).cores = s.cores := rfl
@[simp] theorem State.modClm_sets (k : Nat) (f : Clm → Clm) : (s.modClm k f).sets = s.sets := rfl
@[simp] theorem State.modClm_streams (k : Nat) (f : Clm → Clm) : (s.modClm k f).streams = s.streams := rfl
@[simp] theorem State.modClm_utlbs (k : Nat) (f : Clm → Clm) : (s.modClm k f).utlbs = s.utlbs := rfl
@[simp] theorem State.modClm_faults (k : Nat) (f : Clm → Clm) : (s.modClm k f).faults = s.faults := rfl
@[simp] theorem State.modClm_seqs (k : Nat) (f : Clm → Clm) : (s.modClm k f).seqs = s.seqs := rfl
@[simp] theorem State.modClm_regions (k : Nat) (f : Clm → Clm) : (s.modClm k f).regions = s.regions := rfl
@[simp] theorem State.modClm_channels (k : Nat) (f : Clm → Clm) : (s.modClm k f).channels = s.channels := rfl
@[simp] theorem State.modClm_stackSt (k : Nat) (f : Clm → Clm) : (s.modClm k f).stackSt = s.stackSt := rfl
@[simp] theorem State.modClm_far (k : Nat) (f : Clm → Clm) : (s.modClm k f).far = s.far := rfl
@[simp] theorem State.modClm_mem (k : Nat) (f : Clm → Clm) : (s.modClm k f).mem = s.mem := rfl
@[simp] theorem State.modClm_ports (k : Nat) (f : Clm → Clm) : (s.modClm k f).ports = s.ports := rfl
@[simp] theorem State.modClm_lbs (k : Nat) (f : Clm → Clm) : (s.modClm k f).lbs = s.lbs := rfl
@[simp] theorem State.modClm_ce (k : Nat) (f : Clm → Clm) : (s.modClm k f).ce = s.ce := rfl
@[simp] theorem State.modClm_rings (k : Nat) (f : Clm → Clm) : (s.modClm k f).rings = s.rings := rfl
@[simp] theorem State.modClm_ringMem (k : Nat) (f : Clm → Clm) : (s.modClm k f).ringMem = s.ringMem := rfl
@[simp] theorem State.modClm_fw (k : Nat) (f : Clm → Clm) : (s.modClm k f).fw = s.fw := rfl
@[simp] theorem State.modClm_prot (k : Nat) (f : Clm → Clm) : (s.modClm k f).prot = s.prot := rfl
@[simp] theorem State.modClm_pmu (k : Nat) (f : Clm → Clm) : (s.modClm k f).pmu = s.pmu := rfl
@[simp] theorem State.modClm_health (k : Nat) (f : Clm → Clm) : (s.modClm k f).health = s.health := rfl
@[simp] theorem State.modClm_blk (k : Nat) (f : Clm → Clm) : (s.modClm k f).blk = s.blk := rfl
@[simp] theorem State.modClm_fatal (k : Nat) (f : Clm → Clm) : (s.modClm k f).fatal = s.fatal := rfl
@[simp] theorem State.modClm_dbg (k : Nat) (f : Clm → Clm) : (s.modClm k f).dbg = s.dbg := rfl
@[simp] theorem State.modClm_pins (k : Nat) (f : Clm → Clm) : (s.modClm k f).pins = s.pins := rfl
@[simp] theorem State.modClm_nvm (k : Nat) (f : Clm → Clm) : (s.modClm k f).nvm = s.nvm := rfl
@[simp] theorem State.modClm_nvmReqs (k : Nat) (f : Clm → Clm) : (s.modClm k f).nvmReqs = s.nvmReqs := rfl
@[simp] theorem State.modClm_latches (k : Nat) (f : Clm → Clm) : (s.modClm k f).latches = s.latches := rfl

@[simp] theorem State.modStream_pending (k : Nat) (f : Stream → Stream) : (s.modStream k f).pending = s.pending := rfl
@[simp] theorem State.modStream_free (k : Nat) (f : Stream → Stream) : (s.modStream k f).free = s.free := rfl
@[simp] theorem State.modStream_cfg (k : Nat) (f : Stream → Stream) : (s.modStream k f).cfg = s.cfg := rfl
@[simp] theorem State.modStream_beat (k : Nat) (f : Stream → Stream) : (s.modStream k f).beat = s.beat := rfl
@[simp] theorem State.modStream_parts (k : Nat) (f : Stream → Stream) : (s.modStream k f).parts = s.parts := rfl
@[simp] theorem State.modStream_cores (k : Nat) (f : Stream → Stream) : (s.modStream k f).cores = s.cores := rfl
@[simp] theorem State.modStream_sets (k : Nat) (f : Stream → Stream) : (s.modStream k f).sets = s.sets := rfl
@[simp] theorem State.modStream_clms (k : Nat) (f : Stream → Stream) : (s.modStream k f).clms = s.clms := rfl
@[simp] theorem State.modStream_utlbs (k : Nat) (f : Stream → Stream) : (s.modStream k f).utlbs = s.utlbs := rfl
@[simp] theorem State.modStream_faults (k : Nat) (f : Stream → Stream) : (s.modStream k f).faults = s.faults := rfl
@[simp] theorem State.modStream_seqs (k : Nat) (f : Stream → Stream) : (s.modStream k f).seqs = s.seqs := rfl
@[simp] theorem State.modStream_regions (k : Nat) (f : Stream → Stream) : (s.modStream k f).regions = s.regions := rfl
@[simp] theorem State.modStream_channels (k : Nat) (f : Stream → Stream) : (s.modStream k f).channels = s.channels := rfl
@[simp] theorem State.modStream_stackSt (k : Nat) (f : Stream → Stream) : (s.modStream k f).stackSt = s.stackSt := rfl
@[simp] theorem State.modStream_far (k : Nat) (f : Stream → Stream) : (s.modStream k f).far = s.far := rfl
@[simp] theorem State.modStream_mem (k : Nat) (f : Stream → Stream) : (s.modStream k f).mem = s.mem := rfl
@[simp] theorem State.modStream_ports (k : Nat) (f : Stream → Stream) : (s.modStream k f).ports = s.ports := rfl
@[simp] theorem State.modStream_lbs (k : Nat) (f : Stream → Stream) : (s.modStream k f).lbs = s.lbs := rfl
@[simp] theorem State.modStream_ce (k : Nat) (f : Stream → Stream) : (s.modStream k f).ce = s.ce := rfl
@[simp] theorem State.modStream_rings (k : Nat) (f : Stream → Stream) : (s.modStream k f).rings = s.rings := rfl
@[simp] theorem State.modStream_ringMem (k : Nat) (f : Stream → Stream) : (s.modStream k f).ringMem = s.ringMem := rfl
@[simp] theorem State.modStream_fw (k : Nat) (f : Stream → Stream) : (s.modStream k f).fw = s.fw := rfl
@[simp] theorem State.modStream_prot (k : Nat) (f : Stream → Stream) : (s.modStream k f).prot = s.prot := rfl
@[simp] theorem State.modStream_pmu (k : Nat) (f : Stream → Stream) : (s.modStream k f).pmu = s.pmu := rfl
@[simp] theorem State.modStream_health (k : Nat) (f : Stream → Stream) : (s.modStream k f).health = s.health := rfl
@[simp] theorem State.modStream_blk (k : Nat) (f : Stream → Stream) : (s.modStream k f).blk = s.blk := rfl
@[simp] theorem State.modStream_fatal (k : Nat) (f : Stream → Stream) : (s.modStream k f).fatal = s.fatal := rfl
@[simp] theorem State.modStream_dbg (k : Nat) (f : Stream → Stream) : (s.modStream k f).dbg = s.dbg := rfl
@[simp] theorem State.modStream_pins (k : Nat) (f : Stream → Stream) : (s.modStream k f).pins = s.pins := rfl
@[simp] theorem State.modStream_nvm (k : Nat) (f : Stream → Stream) : (s.modStream k f).nvm = s.nvm := rfl
@[simp] theorem State.modStream_nvmReqs (k : Nat) (f : Stream → Stream) : (s.modStream k f).nvmReqs = s.nvmReqs := rfl
@[simp] theorem State.modStream_latches (k : Nat) (f : Stream → Stream) : (s.modStream k f).latches = s.latches := rfl

@[simp] theorem State.modSeq_pending (k : Nat) (f : Seq → Seq) : (s.modSeq k f).pending = s.pending := rfl
@[simp] theorem State.modSeq_free (k : Nat) (f : Seq → Seq) : (s.modSeq k f).free = s.free := rfl
@[simp] theorem State.modSeq_cfg (k : Nat) (f : Seq → Seq) : (s.modSeq k f).cfg = s.cfg := rfl
@[simp] theorem State.modSeq_beat (k : Nat) (f : Seq → Seq) : (s.modSeq k f).beat = s.beat := rfl
@[simp] theorem State.modSeq_parts (k : Nat) (f : Seq → Seq) : (s.modSeq k f).parts = s.parts := rfl
@[simp] theorem State.modSeq_cores (k : Nat) (f : Seq → Seq) : (s.modSeq k f).cores = s.cores := rfl
@[simp] theorem State.modSeq_sets (k : Nat) (f : Seq → Seq) : (s.modSeq k f).sets = s.sets := rfl
@[simp] theorem State.modSeq_clms (k : Nat) (f : Seq → Seq) : (s.modSeq k f).clms = s.clms := rfl
@[simp] theorem State.modSeq_streams (k : Nat) (f : Seq → Seq) : (s.modSeq k f).streams = s.streams := rfl
@[simp] theorem State.modSeq_utlbs (k : Nat) (f : Seq → Seq) : (s.modSeq k f).utlbs = s.utlbs := rfl
@[simp] theorem State.modSeq_faults (k : Nat) (f : Seq → Seq) : (s.modSeq k f).faults = s.faults := rfl
@[simp] theorem State.modSeq_regions (k : Nat) (f : Seq → Seq) : (s.modSeq k f).regions = s.regions := rfl
@[simp] theorem State.modSeq_channels (k : Nat) (f : Seq → Seq) : (s.modSeq k f).channels = s.channels := rfl
@[simp] theorem State.modSeq_stackSt (k : Nat) (f : Seq → Seq) : (s.modSeq k f).stackSt = s.stackSt := rfl
@[simp] theorem State.modSeq_far (k : Nat) (f : Seq → Seq) : (s.modSeq k f).far = s.far := rfl
@[simp] theorem State.modSeq_mem (k : Nat) (f : Seq → Seq) : (s.modSeq k f).mem = s.mem := rfl
@[simp] theorem State.modSeq_ports (k : Nat) (f : Seq → Seq) : (s.modSeq k f).ports = s.ports := rfl
@[simp] theorem State.modSeq_lbs (k : Nat) (f : Seq → Seq) : (s.modSeq k f).lbs = s.lbs := rfl
@[simp] theorem State.modSeq_ce (k : Nat) (f : Seq → Seq) : (s.modSeq k f).ce = s.ce := rfl
@[simp] theorem State.modSeq_rings (k : Nat) (f : Seq → Seq) : (s.modSeq k f).rings = s.rings := rfl
@[simp] theorem State.modSeq_ringMem (k : Nat) (f : Seq → Seq) : (s.modSeq k f).ringMem = s.ringMem := rfl
@[simp] theorem State.modSeq_fw (k : Nat) (f : Seq → Seq) : (s.modSeq k f).fw = s.fw := rfl
@[simp] theorem State.modSeq_prot (k : Nat) (f : Seq → Seq) : (s.modSeq k f).prot = s.prot := rfl
@[simp] theorem State.modSeq_pmu (k : Nat) (f : Seq → Seq) : (s.modSeq k f).pmu = s.pmu := rfl
@[simp] theorem State.modSeq_health (k : Nat) (f : Seq → Seq) : (s.modSeq k f).health = s.health := rfl
@[simp] theorem State.modSeq_blk (k : Nat) (f : Seq → Seq) : (s.modSeq k f).blk = s.blk := rfl
@[simp] theorem State.modSeq_fatal (k : Nat) (f : Seq → Seq) : (s.modSeq k f).fatal = s.fatal := rfl
@[simp] theorem State.modSeq_dbg (k : Nat) (f : Seq → Seq) : (s.modSeq k f).dbg = s.dbg := rfl
@[simp] theorem State.modSeq_pins (k : Nat) (f : Seq → Seq) : (s.modSeq k f).pins = s.pins := rfl
@[simp] theorem State.modSeq_nvm (k : Nat) (f : Seq → Seq) : (s.modSeq k f).nvm = s.nvm := rfl
@[simp] theorem State.modSeq_nvmReqs (k : Nat) (f : Seq → Seq) : (s.modSeq k f).nvmReqs = s.nvmReqs := rfl
@[simp] theorem State.modSeq_latches (k : Nat) (f : Seq → Seq) : (s.modSeq k f).latches = s.latches := rfl

@[simp] theorem State.modChannel_pending (k : Nat) (f : Channel → Channel) : (s.modChannel k f).pending = s.pending := rfl
@[simp] theorem State.modChannel_free (k : Nat) (f : Channel → Channel) : (s.modChannel k f).free = s.free := rfl
@[simp] theorem State.modChannel_cfg (k : Nat) (f : Channel → Channel) : (s.modChannel k f).cfg = s.cfg := rfl
@[simp] theorem State.modChannel_beat (k : Nat) (f : Channel → Channel) : (s.modChannel k f).beat = s.beat := rfl
@[simp] theorem State.modChannel_parts (k : Nat) (f : Channel → Channel) : (s.modChannel k f).parts = s.parts := rfl
@[simp] theorem State.modChannel_cores (k : Nat) (f : Channel → Channel) : (s.modChannel k f).cores = s.cores := rfl
@[simp] theorem State.modChannel_sets (k : Nat) (f : Channel → Channel) : (s.modChannel k f).sets = s.sets := rfl
@[simp] theorem State.modChannel_clms (k : Nat) (f : Channel → Channel) : (s.modChannel k f).clms = s.clms := rfl
@[simp] theorem State.modChannel_streams (k : Nat) (f : Channel → Channel) : (s.modChannel k f).streams = s.streams := rfl
@[simp] theorem State.modChannel_utlbs (k : Nat) (f : Channel → Channel) : (s.modChannel k f).utlbs = s.utlbs := rfl
@[simp] theorem State.modChannel_faults (k : Nat) (f : Channel → Channel) : (s.modChannel k f).faults = s.faults := rfl
@[simp] theorem State.modChannel_seqs (k : Nat) (f : Channel → Channel) : (s.modChannel k f).seqs = s.seqs := rfl
@[simp] theorem State.modChannel_regions (k : Nat) (f : Channel → Channel) : (s.modChannel k f).regions = s.regions := rfl
@[simp] theorem State.modChannel_stackSt (k : Nat) (f : Channel → Channel) : (s.modChannel k f).stackSt = s.stackSt := rfl
@[simp] theorem State.modChannel_far (k : Nat) (f : Channel → Channel) : (s.modChannel k f).far = s.far := rfl
@[simp] theorem State.modChannel_mem (k : Nat) (f : Channel → Channel) : (s.modChannel k f).mem = s.mem := rfl
@[simp] theorem State.modChannel_ports (k : Nat) (f : Channel → Channel) : (s.modChannel k f).ports = s.ports := rfl
@[simp] theorem State.modChannel_lbs (k : Nat) (f : Channel → Channel) : (s.modChannel k f).lbs = s.lbs := rfl
@[simp] theorem State.modChannel_ce (k : Nat) (f : Channel → Channel) : (s.modChannel k f).ce = s.ce := rfl
@[simp] theorem State.modChannel_rings (k : Nat) (f : Channel → Channel) : (s.modChannel k f).rings = s.rings := rfl
@[simp] theorem State.modChannel_ringMem (k : Nat) (f : Channel → Channel) : (s.modChannel k f).ringMem = s.ringMem := rfl
@[simp] theorem State.modChannel_fw (k : Nat) (f : Channel → Channel) : (s.modChannel k f).fw = s.fw := rfl
@[simp] theorem State.modChannel_prot (k : Nat) (f : Channel → Channel) : (s.modChannel k f).prot = s.prot := rfl
@[simp] theorem State.modChannel_pmu (k : Nat) (f : Channel → Channel) : (s.modChannel k f).pmu = s.pmu := rfl
@[simp] theorem State.modChannel_health (k : Nat) (f : Channel → Channel) : (s.modChannel k f).health = s.health := rfl
@[simp] theorem State.modChannel_blk (k : Nat) (f : Channel → Channel) : (s.modChannel k f).blk = s.blk := rfl
@[simp] theorem State.modChannel_fatal (k : Nat) (f : Channel → Channel) : (s.modChannel k f).fatal = s.fatal := rfl
@[simp] theorem State.modChannel_dbg (k : Nat) (f : Channel → Channel) : (s.modChannel k f).dbg = s.dbg := rfl
@[simp] theorem State.modChannel_pins (k : Nat) (f : Channel → Channel) : (s.modChannel k f).pins = s.pins := rfl
@[simp] theorem State.modChannel_nvm (k : Nat) (f : Channel → Channel) : (s.modChannel k f).nvm = s.nvm := rfl
@[simp] theorem State.modChannel_nvmReqs (k : Nat) (f : Channel → Channel) : (s.modChannel k f).nvmReqs = s.nvmReqs := rfl
@[simp] theorem State.modChannel_latches (k : Nat) (f : Channel → Channel) : (s.modChannel k f).latches = s.latches := rfl

@[simp] theorem State.modStack_pending (k : Nat) (f : Stack → Stack) : (s.modStack k f).pending = s.pending := rfl
@[simp] theorem State.modStack_free (k : Nat) (f : Stack → Stack) : (s.modStack k f).free = s.free := rfl
@[simp] theorem State.modStack_cfg (k : Nat) (f : Stack → Stack) : (s.modStack k f).cfg = s.cfg := rfl
@[simp] theorem State.modStack_beat (k : Nat) (f : Stack → Stack) : (s.modStack k f).beat = s.beat := rfl
@[simp] theorem State.modStack_parts (k : Nat) (f : Stack → Stack) : (s.modStack k f).parts = s.parts := rfl
@[simp] theorem State.modStack_cores (k : Nat) (f : Stack → Stack) : (s.modStack k f).cores = s.cores := rfl
@[simp] theorem State.modStack_sets (k : Nat) (f : Stack → Stack) : (s.modStack k f).sets = s.sets := rfl
@[simp] theorem State.modStack_clms (k : Nat) (f : Stack → Stack) : (s.modStack k f).clms = s.clms := rfl
@[simp] theorem State.modStack_streams (k : Nat) (f : Stack → Stack) : (s.modStack k f).streams = s.streams := rfl
@[simp] theorem State.modStack_utlbs (k : Nat) (f : Stack → Stack) : (s.modStack k f).utlbs = s.utlbs := rfl
@[simp] theorem State.modStack_faults (k : Nat) (f : Stack → Stack) : (s.modStack k f).faults = s.faults := rfl
@[simp] theorem State.modStack_seqs (k : Nat) (f : Stack → Stack) : (s.modStack k f).seqs = s.seqs := rfl
@[simp] theorem State.modStack_regions (k : Nat) (f : Stack → Stack) : (s.modStack k f).regions = s.regions := rfl
@[simp] theorem State.modStack_channels (k : Nat) (f : Stack → Stack) : (s.modStack k f).channels = s.channels := rfl
@[simp] theorem State.modStack_far (k : Nat) (f : Stack → Stack) : (s.modStack k f).far = s.far := rfl
@[simp] theorem State.modStack_mem (k : Nat) (f : Stack → Stack) : (s.modStack k f).mem = s.mem := rfl
@[simp] theorem State.modStack_ports (k : Nat) (f : Stack → Stack) : (s.modStack k f).ports = s.ports := rfl
@[simp] theorem State.modStack_lbs (k : Nat) (f : Stack → Stack) : (s.modStack k f).lbs = s.lbs := rfl
@[simp] theorem State.modStack_ce (k : Nat) (f : Stack → Stack) : (s.modStack k f).ce = s.ce := rfl
@[simp] theorem State.modStack_rings (k : Nat) (f : Stack → Stack) : (s.modStack k f).rings = s.rings := rfl
@[simp] theorem State.modStack_ringMem (k : Nat) (f : Stack → Stack) : (s.modStack k f).ringMem = s.ringMem := rfl
@[simp] theorem State.modStack_fw (k : Nat) (f : Stack → Stack) : (s.modStack k f).fw = s.fw := rfl
@[simp] theorem State.modStack_prot (k : Nat) (f : Stack → Stack) : (s.modStack k f).prot = s.prot := rfl
@[simp] theorem State.modStack_pmu (k : Nat) (f : Stack → Stack) : (s.modStack k f).pmu = s.pmu := rfl
@[simp] theorem State.modStack_health (k : Nat) (f : Stack → Stack) : (s.modStack k f).health = s.health := rfl
@[simp] theorem State.modStack_blk (k : Nat) (f : Stack → Stack) : (s.modStack k f).blk = s.blk := rfl
@[simp] theorem State.modStack_fatal (k : Nat) (f : Stack → Stack) : (s.modStack k f).fatal = s.fatal := rfl
@[simp] theorem State.modStack_dbg (k : Nat) (f : Stack → Stack) : (s.modStack k f).dbg = s.dbg := rfl
@[simp] theorem State.modStack_pins (k : Nat) (f : Stack → Stack) : (s.modStack k f).pins = s.pins := rfl
@[simp] theorem State.modStack_nvm (k : Nat) (f : Stack → Stack) : (s.modStack k f).nvm = s.nvm := rfl
@[simp] theorem State.modStack_nvmReqs (k : Nat) (f : Stack → Stack) : (s.modStack k f).nvmReqs = s.nvmReqs := rfl
@[simp] theorem State.modStack_latches (k : Nat) (f : Stack → Stack) : (s.modStack k f).latches = s.latches := rfl

@[simp] theorem State.modFar_pending (k : Nat) (f : FarPort → FarPort) : (s.modFar k f).pending = s.pending := rfl
@[simp] theorem State.modFar_free (k : Nat) (f : FarPort → FarPort) : (s.modFar k f).free = s.free := rfl
@[simp] theorem State.modFar_cfg (k : Nat) (f : FarPort → FarPort) : (s.modFar k f).cfg = s.cfg := rfl
@[simp] theorem State.modFar_beat (k : Nat) (f : FarPort → FarPort) : (s.modFar k f).beat = s.beat := rfl
@[simp] theorem State.modFar_parts (k : Nat) (f : FarPort → FarPort) : (s.modFar k f).parts = s.parts := rfl
@[simp] theorem State.modFar_cores (k : Nat) (f : FarPort → FarPort) : (s.modFar k f).cores = s.cores := rfl
@[simp] theorem State.modFar_sets (k : Nat) (f : FarPort → FarPort) : (s.modFar k f).sets = s.sets := rfl
@[simp] theorem State.modFar_clms (k : Nat) (f : FarPort → FarPort) : (s.modFar k f).clms = s.clms := rfl
@[simp] theorem State.modFar_streams (k : Nat) (f : FarPort → FarPort) : (s.modFar k f).streams = s.streams := rfl
@[simp] theorem State.modFar_utlbs (k : Nat) (f : FarPort → FarPort) : (s.modFar k f).utlbs = s.utlbs := rfl
@[simp] theorem State.modFar_faults (k : Nat) (f : FarPort → FarPort) : (s.modFar k f).faults = s.faults := rfl
@[simp] theorem State.modFar_seqs (k : Nat) (f : FarPort → FarPort) : (s.modFar k f).seqs = s.seqs := rfl
@[simp] theorem State.modFar_regions (k : Nat) (f : FarPort → FarPort) : (s.modFar k f).regions = s.regions := rfl
@[simp] theorem State.modFar_channels (k : Nat) (f : FarPort → FarPort) : (s.modFar k f).channels = s.channels := rfl
@[simp] theorem State.modFar_stackSt (k : Nat) (f : FarPort → FarPort) : (s.modFar k f).stackSt = s.stackSt := rfl
@[simp] theorem State.modFar_mem (k : Nat) (f : FarPort → FarPort) : (s.modFar k f).mem = s.mem := rfl
@[simp] theorem State.modFar_ports (k : Nat) (f : FarPort → FarPort) : (s.modFar k f).ports = s.ports := rfl
@[simp] theorem State.modFar_lbs (k : Nat) (f : FarPort → FarPort) : (s.modFar k f).lbs = s.lbs := rfl
@[simp] theorem State.modFar_ce (k : Nat) (f : FarPort → FarPort) : (s.modFar k f).ce = s.ce := rfl
@[simp] theorem State.modFar_rings (k : Nat) (f : FarPort → FarPort) : (s.modFar k f).rings = s.rings := rfl
@[simp] theorem State.modFar_ringMem (k : Nat) (f : FarPort → FarPort) : (s.modFar k f).ringMem = s.ringMem := rfl
@[simp] theorem State.modFar_fw (k : Nat) (f : FarPort → FarPort) : (s.modFar k f).fw = s.fw := rfl
@[simp] theorem State.modFar_prot (k : Nat) (f : FarPort → FarPort) : (s.modFar k f).prot = s.prot := rfl
@[simp] theorem State.modFar_pmu (k : Nat) (f : FarPort → FarPort) : (s.modFar k f).pmu = s.pmu := rfl
@[simp] theorem State.modFar_health (k : Nat) (f : FarPort → FarPort) : (s.modFar k f).health = s.health := rfl
@[simp] theorem State.modFar_blk (k : Nat) (f : FarPort → FarPort) : (s.modFar k f).blk = s.blk := rfl
@[simp] theorem State.modFar_fatal (k : Nat) (f : FarPort → FarPort) : (s.modFar k f).fatal = s.fatal := rfl
@[simp] theorem State.modFar_dbg (k : Nat) (f : FarPort → FarPort) : (s.modFar k f).dbg = s.dbg := rfl
@[simp] theorem State.modFar_pins (k : Nat) (f : FarPort → FarPort) : (s.modFar k f).pins = s.pins := rfl
@[simp] theorem State.modFar_nvm (k : Nat) (f : FarPort → FarPort) : (s.modFar k f).nvm = s.nvm := rfl
@[simp] theorem State.modFar_nvmReqs (k : Nat) (f : FarPort → FarPort) : (s.modFar k f).nvmReqs = s.nvmReqs := rfl
@[simp] theorem State.modFar_latches (k : Nat) (f : FarPort → FarPort) : (s.modFar k f).latches = s.latches := rfl

@[simp] theorem State.modPort_pending (k : Nat) (f : Port → Port) : (s.modPort k f).pending = s.pending := rfl
@[simp] theorem State.modPort_free (k : Nat) (f : Port → Port) : (s.modPort k f).free = s.free := rfl
@[simp] theorem State.modPort_cfg (k : Nat) (f : Port → Port) : (s.modPort k f).cfg = s.cfg := rfl
@[simp] theorem State.modPort_beat (k : Nat) (f : Port → Port) : (s.modPort k f).beat = s.beat := rfl
@[simp] theorem State.modPort_parts (k : Nat) (f : Port → Port) : (s.modPort k f).parts = s.parts := rfl
@[simp] theorem State.modPort_cores (k : Nat) (f : Port → Port) : (s.modPort k f).cores = s.cores := rfl
@[simp] theorem State.modPort_sets (k : Nat) (f : Port → Port) : (s.modPort k f).sets = s.sets := rfl
@[simp] theorem State.modPort_clms (k : Nat) (f : Port → Port) : (s.modPort k f).clms = s.clms := rfl
@[simp] theorem State.modPort_streams (k : Nat) (f : Port → Port) : (s.modPort k f).streams = s.streams := rfl
@[simp] theorem State.modPort_utlbs (k : Nat) (f : Port → Port) : (s.modPort k f).utlbs = s.utlbs := rfl
@[simp] theorem State.modPort_faults (k : Nat) (f : Port → Port) : (s.modPort k f).faults = s.faults := rfl
@[simp] theorem State.modPort_seqs (k : Nat) (f : Port → Port) : (s.modPort k f).seqs = s.seqs := rfl
@[simp] theorem State.modPort_regions (k : Nat) (f : Port → Port) : (s.modPort k f).regions = s.regions := rfl
@[simp] theorem State.modPort_channels (k : Nat) (f : Port → Port) : (s.modPort k f).channels = s.channels := rfl
@[simp] theorem State.modPort_stackSt (k : Nat) (f : Port → Port) : (s.modPort k f).stackSt = s.stackSt := rfl
@[simp] theorem State.modPort_far (k : Nat) (f : Port → Port) : (s.modPort k f).far = s.far := rfl
@[simp] theorem State.modPort_mem (k : Nat) (f : Port → Port) : (s.modPort k f).mem = s.mem := rfl
@[simp] theorem State.modPort_lbs (k : Nat) (f : Port → Port) : (s.modPort k f).lbs = s.lbs := rfl
@[simp] theorem State.modPort_ce (k : Nat) (f : Port → Port) : (s.modPort k f).ce = s.ce := rfl
@[simp] theorem State.modPort_rings (k : Nat) (f : Port → Port) : (s.modPort k f).rings = s.rings := rfl
@[simp] theorem State.modPort_ringMem (k : Nat) (f : Port → Port) : (s.modPort k f).ringMem = s.ringMem := rfl
@[simp] theorem State.modPort_fw (k : Nat) (f : Port → Port) : (s.modPort k f).fw = s.fw := rfl
@[simp] theorem State.modPort_prot (k : Nat) (f : Port → Port) : (s.modPort k f).prot = s.prot := rfl
@[simp] theorem State.modPort_pmu (k : Nat) (f : Port → Port) : (s.modPort k f).pmu = s.pmu := rfl
@[simp] theorem State.modPort_health (k : Nat) (f : Port → Port) : (s.modPort k f).health = s.health := rfl
@[simp] theorem State.modPort_blk (k : Nat) (f : Port → Port) : (s.modPort k f).blk = s.blk := rfl
@[simp] theorem State.modPort_fatal (k : Nat) (f : Port → Port) : (s.modPort k f).fatal = s.fatal := rfl
@[simp] theorem State.modPort_dbg (k : Nat) (f : Port → Port) : (s.modPort k f).dbg = s.dbg := rfl
@[simp] theorem State.modPort_pins (k : Nat) (f : Port → Port) : (s.modPort k f).pins = s.pins := rfl
@[simp] theorem State.modPort_nvm (k : Nat) (f : Port → Port) : (s.modPort k f).nvm = s.nvm := rfl
@[simp] theorem State.modPort_nvmReqs (k : Nat) (f : Port → Port) : (s.modPort k f).nvmReqs = s.nvmReqs := rfl
@[simp] theorem State.modPort_latches (k : Nat) (f : Port → Port) : (s.modPort k f).latches = s.latches := rfl

@[simp] theorem State.modRing_pending (k : Nat) (f : Ring → Ring) : (s.modRing k f).pending = s.pending := rfl
@[simp] theorem State.modRing_free (k : Nat) (f : Ring → Ring) : (s.modRing k f).free = s.free := rfl
@[simp] theorem State.modRing_cfg (k : Nat) (f : Ring → Ring) : (s.modRing k f).cfg = s.cfg := rfl
@[simp] theorem State.modRing_beat (k : Nat) (f : Ring → Ring) : (s.modRing k f).beat = s.beat := rfl
@[simp] theorem State.modRing_parts (k : Nat) (f : Ring → Ring) : (s.modRing k f).parts = s.parts := rfl
@[simp] theorem State.modRing_cores (k : Nat) (f : Ring → Ring) : (s.modRing k f).cores = s.cores := rfl
@[simp] theorem State.modRing_sets (k : Nat) (f : Ring → Ring) : (s.modRing k f).sets = s.sets := rfl
@[simp] theorem State.modRing_clms (k : Nat) (f : Ring → Ring) : (s.modRing k f).clms = s.clms := rfl
@[simp] theorem State.modRing_streams (k : Nat) (f : Ring → Ring) : (s.modRing k f).streams = s.streams := rfl
@[simp] theorem State.modRing_utlbs (k : Nat) (f : Ring → Ring) : (s.modRing k f).utlbs = s.utlbs := rfl
@[simp] theorem State.modRing_faults (k : Nat) (f : Ring → Ring) : (s.modRing k f).faults = s.faults := rfl
@[simp] theorem State.modRing_seqs (k : Nat) (f : Ring → Ring) : (s.modRing k f).seqs = s.seqs := rfl
@[simp] theorem State.modRing_regions (k : Nat) (f : Ring → Ring) : (s.modRing k f).regions = s.regions := rfl
@[simp] theorem State.modRing_channels (k : Nat) (f : Ring → Ring) : (s.modRing k f).channels = s.channels := rfl
@[simp] theorem State.modRing_stackSt (k : Nat) (f : Ring → Ring) : (s.modRing k f).stackSt = s.stackSt := rfl
@[simp] theorem State.modRing_far (k : Nat) (f : Ring → Ring) : (s.modRing k f).far = s.far := rfl
@[simp] theorem State.modRing_mem (k : Nat) (f : Ring → Ring) : (s.modRing k f).mem = s.mem := rfl
@[simp] theorem State.modRing_ports (k : Nat) (f : Ring → Ring) : (s.modRing k f).ports = s.ports := rfl
@[simp] theorem State.modRing_lbs (k : Nat) (f : Ring → Ring) : (s.modRing k f).lbs = s.lbs := rfl
@[simp] theorem State.modRing_ce (k : Nat) (f : Ring → Ring) : (s.modRing k f).ce = s.ce := rfl
@[simp] theorem State.modRing_ringMem (k : Nat) (f : Ring → Ring) : (s.modRing k f).ringMem = s.ringMem := rfl
@[simp] theorem State.modRing_fw (k : Nat) (f : Ring → Ring) : (s.modRing k f).fw = s.fw := rfl
@[simp] theorem State.modRing_prot (k : Nat) (f : Ring → Ring) : (s.modRing k f).prot = s.prot := rfl
@[simp] theorem State.modRing_pmu (k : Nat) (f : Ring → Ring) : (s.modRing k f).pmu = s.pmu := rfl
@[simp] theorem State.modRing_health (k : Nat) (f : Ring → Ring) : (s.modRing k f).health = s.health := rfl
@[simp] theorem State.modRing_blk (k : Nat) (f : Ring → Ring) : (s.modRing k f).blk = s.blk := rfl
@[simp] theorem State.modRing_fatal (k : Nat) (f : Ring → Ring) : (s.modRing k f).fatal = s.fatal := rfl
@[simp] theorem State.modRing_dbg (k : Nat) (f : Ring → Ring) : (s.modRing k f).dbg = s.dbg := rfl
@[simp] theorem State.modRing_pins (k : Nat) (f : Ring → Ring) : (s.modRing k f).pins = s.pins := rfl
@[simp] theorem State.modRing_nvm (k : Nat) (f : Ring → Ring) : (s.modRing k f).nvm = s.nvm := rfl
@[simp] theorem State.modRing_nvmReqs (k : Nat) (f : Ring → Ring) : (s.modRing k f).nvmReqs = s.nvmReqs := rfl
@[simp] theorem State.modRing_latches (k : Nat) (f : Ring → Ring) : (s.modRing k f).latches = s.latches := rfl

/-! Reads of an index after an update of the same kind of state. -/

@[simp] theorem State.part_setPart_same (k : Nat) (v : Part) : (s.setPart k v).part k = v := by simp [State.part, State.setPart]
theorem State.part_setPart_other (k : Nat) (v : Part) {j : Nat} (h : j ≠ k) : (s.setPart k v).part j = s.part j := by
  simp [State.part, State.setPart, kget_kset_other _ _ _ _ h]
@[simp] theorem State.part_modPart_same (k : Nat) (f : Part → Part) : (s.modPart k f).part k = f (s.part k) := by simp [State.modPart]
theorem State.part_modPart_other (k : Nat) (f : Part → Part) {j : Nat} (h : j ≠ k) : (s.modPart k f).part j = s.part j := by
  simp [State.modPart, State.part_setPart_other _ _ _ h]
@[simp] theorem State.core_setCore_same (k : Nat) (v : Core) : (s.setCore k v).core k = v := by simp [State.core, State.setCore]
theorem State.core_setCore_other (k : Nat) (v : Core) {j : Nat} (h : j ≠ k) : (s.setCore k v).core j = s.core j := by
  simp [State.core, State.setCore, kget_kset_other _ _ _ _ h]
@[simp] theorem State.core_modCore_same (k : Nat) (f : Core → Core) : (s.modCore k f).core k = f (s.core k) := by simp [State.modCore]
theorem State.core_modCore_other (k : Nat) (f : Core → Core) {j : Nat} (h : j ≠ k) : (s.modCore k f).core j = s.core j := by
  simp [State.modCore, State.core_setCore_other _ _ _ h]
@[simp] theorem State.unit_setUnit_same (k : Nat) (v : SetUnits) : (s.setUnit k v).unit k = v := by simp [State.unit, State.setUnit]
theorem State.unit_setUnit_other (k : Nat) (v : SetUnits) {j : Nat} (h : j ≠ k) : (s.setUnit k v).unit j = s.unit j := by
  simp [State.unit, State.setUnit, kget_kset_other _ _ _ _ h]
@[simp] theorem State.unit_modUnit_same (k : Nat) (f : SetUnits → SetUnits) : (s.modUnit k f).unit k = f (s.unit k) := by simp [State.modUnit]
theorem State.unit_modUnit_other (k : Nat) (f : SetUnits → SetUnits) {j : Nat} (h : j ≠ k) : (s.modUnit k f).unit j = s.unit j := by
  simp [State.modUnit, State.unit_setUnit_other _ _ _ h]
@[simp] theorem State.clm_setClm_same (k : Nat) (v : Clm) : (s.setClm k v).clm k = v := by simp [State.clm, State.setClm]
theorem State.clm_setClm_other (k : Nat) (v : Clm) {j : Nat} (h : j ≠ k) : (s.setClm k v).clm j = s.clm j := by
  simp [State.clm, State.setClm, kget_kset_other _ _ _ _ h]
@[simp] theorem State.clm_modClm_same (k : Nat) (f : Clm → Clm) : (s.modClm k f).clm k = f (s.clm k) := by simp [State.modClm]
theorem State.clm_modClm_other (k : Nat) (f : Clm → Clm) {j : Nat} (h : j ≠ k) : (s.modClm k f).clm j = s.clm j := by
  simp [State.modClm, State.clm_setClm_other _ _ _ h]
@[simp] theorem State.stream_setStream_same (k : Nat) (v : Stream) : (s.setStream k v).stream k = v := by simp [State.stream, State.setStream]
theorem State.stream_setStream_other (k : Nat) (v : Stream) {j : Nat} (h : j ≠ k) : (s.setStream k v).stream j = s.stream j := by
  simp [State.stream, State.setStream, kget_kset_other _ _ _ _ h]
@[simp] theorem State.stream_modStream_same (k : Nat) (f : Stream → Stream) : (s.modStream k f).stream k = f (s.stream k) := by simp [State.modStream]
theorem State.stream_modStream_other (k : Nat) (f : Stream → Stream) {j : Nat} (h : j ≠ k) : (s.modStream k f).stream j = s.stream j := by
  simp [State.modStream, State.stream_setStream_other _ _ _ h]
@[simp] theorem State.seq_setSeq_same (k : Nat) (v : Seq) : (s.setSeq k v).seq k = v := by simp [State.seq, State.setSeq]
theorem State.seq_setSeq_other (k : Nat) (v : Seq) {j : Nat} (h : j ≠ k) : (s.setSeq k v).seq j = s.seq j := by
  simp [State.seq, State.setSeq, kget_kset_other _ _ _ _ h]
@[simp] theorem State.seq_modSeq_same (k : Nat) (f : Seq → Seq) : (s.modSeq k f).seq k = f (s.seq k) := by simp [State.modSeq]
theorem State.seq_modSeq_other (k : Nat) (f : Seq → Seq) {j : Nat} (h : j ≠ k) : (s.modSeq k f).seq j = s.seq j := by
  simp [State.modSeq, State.seq_setSeq_other _ _ _ h]
@[simp] theorem State.region_setRegion_same (k : Nat) (v : MemRegion) : (s.setRegion k v).region k = v := by simp [State.region, State.setRegion]
theorem State.region_setRegion_other (k : Nat) (v : MemRegion) {j : Nat} (h : j ≠ k) : (s.setRegion k v).region j = s.region j := by
  simp [State.region, State.setRegion, kget_kset_other _ _ _ _ h]
@[simp] theorem State.channel_setChannel_same (k : Nat) (v : Channel) : (s.setChannel k v).channel k = v := by simp [State.channel, State.setChannel]
theorem State.channel_setChannel_other (k : Nat) (v : Channel) {j : Nat} (h : j ≠ k) : (s.setChannel k v).channel j = s.channel j := by
  simp [State.channel, State.setChannel, kget_kset_other _ _ _ _ h]
@[simp] theorem State.channel_modChannel_same (k : Nat) (f : Channel → Channel) : (s.modChannel k f).channel k = f (s.channel k) := by simp [State.modChannel]
theorem State.channel_modChannel_other (k : Nat) (f : Channel → Channel) {j : Nat} (h : j ≠ k) : (s.modChannel k f).channel j = s.channel j := by
  simp [State.modChannel, State.channel_setChannel_other _ _ _ h]
@[simp] theorem State.stackAt_setStack_same (k : Nat) (v : Stack) : (s.setStack k v).stackAt k = v := by simp [State.stackAt, State.setStack]
theorem State.stackAt_setStack_other (k : Nat) (v : Stack) {j : Nat} (h : j ≠ k) : (s.setStack k v).stackAt j = s.stackAt j := by
  simp [State.stackAt, State.setStack, kget_kset_other _ _ _ _ h]
@[simp] theorem State.stackAt_modStack_same (k : Nat) (f : Stack → Stack) : (s.modStack k f).stackAt k = f (s.stackAt k) := by simp [State.modStack]
theorem State.stackAt_modStack_other (k : Nat) (f : Stack → Stack) {j : Nat} (h : j ≠ k) : (s.modStack k f).stackAt j = s.stackAt j := by
  simp [State.modStack, State.stackAt_setStack_other _ _ _ h]
@[simp] theorem State.farPort_setFar_same (k : Nat) (v : FarPort) : (s.setFar k v).farPort k = v := by simp [State.farPort, State.setFar]
theorem State.farPort_setFar_other (k : Nat) (v : FarPort) {j : Nat} (h : j ≠ k) : (s.setFar k v).farPort j = s.farPort j := by
  simp [State.farPort, State.setFar, kget_kset_other _ _ _ _ h]
@[simp] theorem State.farPort_modFar_same (k : Nat) (f : FarPort → FarPort) : (s.modFar k f).farPort k = f (s.farPort k) := by simp [State.modFar]
theorem State.farPort_modFar_other (k : Nat) (f : FarPort → FarPort) {j : Nat} (h : j ≠ k) : (s.modFar k f).farPort j = s.farPort j := by
  simp [State.modFar, State.farPort_setFar_other _ _ _ h]
@[simp] theorem State.port_setPort_same (k : Nat) (v : Port) : (s.setPort k v).port k = v := by simp [State.port, State.setPort]
theorem State.port_setPort_other (k : Nat) (v : Port) {j : Nat} (h : j ≠ k) : (s.setPort k v).port j = s.port j := by
  simp [State.port, State.setPort, kget_kset_other _ _ _ _ h]
@[simp] theorem State.port_modPort_same (k : Nat) (f : Port → Port) : (s.modPort k f).port k = f (s.port k) := by simp [State.modPort]
theorem State.port_modPort_other (k : Nat) (f : Port → Port) {j : Nat} (h : j ≠ k) : (s.modPort k f).port j = s.port j := by
  simp [State.modPort, State.port_setPort_other _ _ _ h]
@[simp] theorem State.landBuf_setLb_same (k : Nat) (v : LandBuf) : (s.setLb k v).landBuf k = v := by simp [State.landBuf, State.setLb]
theorem State.landBuf_setLb_other (k : Nat) (v : LandBuf) {j : Nat} (h : j ≠ k) : (s.setLb k v).landBuf j = s.landBuf j := by
  simp [State.landBuf, State.setLb, kget_kset_other _ _ _ _ h]
@[simp] theorem State.ring_setRing_same (k : Nat) (v : Ring) : (s.setRing k v).ring k = v := by simp [State.ring, State.setRing]
theorem State.ring_setRing_other (k : Nat) (v : Ring) {j : Nat} (h : j ≠ k) : (s.setRing k v).ring j = s.ring j := by
  simp [State.ring, State.setRing, kget_kset_other _ _ _ _ h]
@[simp] theorem State.ring_modRing_same (k : Nat) (f : Ring → Ring) : (s.modRing k f).ring k = f (s.ring k) := by simp [State.modRing]
theorem State.ring_modRing_other (k : Nat) (f : Ring → Ring) {j : Nat} (h : j ≠ k) : (s.modRing k f).ring j = s.ring j := by
  simp [State.modRing, State.ring_setRing_other _ _ _ h]

/-! Reads of an index after an update of another kind of state. -/

@[simp] theorem State.part_setCore (c : Nat) (v : Core) (j : Nat) : (s.setCore c v).part j = s.part j := rfl
@[simp] theorem State.part_setUnit (k : Nat) (v : SetUnits) (j : Nat) : (s.setUnit k v).part j = s.part j := rfl
@[simp] theorem State.part_setClm (k : Nat) (v : Clm) (j : Nat) : (s.setClm k v).part j = s.part j := rfl
@[simp] theorem State.part_setStream (k : Nat) (v : Stream) (j : Nat) : (s.setStream k v).part j = s.part j := rfl
@[simp] theorem State.part_setSeq (k : Nat) (v : Seq) (j : Nat) : (s.setSeq k v).part j = s.part j := rfl
@[simp] theorem State.part_setRegion (k : Nat) (v : MemRegion) (j : Nat) : (s.setRegion k v).part j = s.part j := rfl
@[simp] theorem State.part_setChannel (k : Nat) (v : Channel) (j : Nat) : (s.setChannel k v).part j = s.part j := rfl
@[simp] theorem State.part_setStack (k : Nat) (v : Stack) (j : Nat) : (s.setStack k v).part j = s.part j := rfl
@[simp] theorem State.part_setFar (k : Nat) (v : FarPort) (j : Nat) : (s.setFar k v).part j = s.part j := rfl
@[simp] theorem State.part_setPort (k : Nat) (v : Port) (j : Nat) : (s.setPort k v).part j = s.part j := rfl
@[simp] theorem State.part_setLb (k : Nat) (v : LandBuf) (j : Nat) : (s.setLb k v).part j = s.part j := rfl
@[simp] theorem State.part_setRing (k : Nat) (v : Ring) (j : Nat) : (s.setRing k v).part j = s.part j := rfl
@[simp] theorem State.part_setUtlb (c e : Nat) (v : List TlbEntry) (j : Nat) : (s.setUtlb c e v).part j = s.part j := rfl
@[simp] theorem State.part_draw (j : Nat) : (s.draw).part j = s.part j := rfl
@[simp] theorem State.part_modCore (c : Nat) (f : Core → Core) (j : Nat) : (s.modCore c f).part j = s.part j := rfl
@[simp] theorem State.part_modUnit (k : Nat) (f : SetUnits → SetUnits) (j : Nat) : (s.modUnit k f).part j = s.part j := rfl
@[simp] theorem State.part_modClm (k : Nat) (f : Clm → Clm) (j : Nat) : (s.modClm k f).part j = s.part j := rfl
@[simp] theorem State.part_modStream (k : Nat) (f : Stream → Stream) (j : Nat) : (s.modStream k f).part j = s.part j := rfl
@[simp] theorem State.part_modSeq (k : Nat) (f : Seq → Seq) (j : Nat) : (s.modSeq k f).part j = s.part j := rfl
@[simp] theorem State.part_modChannel (k : Nat) (f : Channel → Channel) (j : Nat) : (s.modChannel k f).part j = s.part j := rfl
@[simp] theorem State.part_modStack (k : Nat) (f : Stack → Stack) (j : Nat) : (s.modStack k f).part j = s.part j := rfl
@[simp] theorem State.part_modFar (k : Nat) (f : FarPort → FarPort) (j : Nat) : (s.modFar k f).part j = s.part j := rfl
@[simp] theorem State.part_modPort (k : Nat) (f : Port → Port) (j : Nat) : (s.modPort k f).part j = s.part j := rfl
@[simp] theorem State.part_modRing (k : Nat) (f : Ring → Ring) (j : Nat) : (s.modRing k f).part j = s.part j := rfl
@[simp] theorem State.core_setPart (p : Nat) (v : Part) (j : Nat) : (s.setPart p v).core j = s.core j := rfl
@[simp] theorem State.core_setUnit (k : Nat) (v : SetUnits) (j : Nat) : (s.setUnit k v).core j = s.core j := rfl
@[simp] theorem State.core_setClm (k : Nat) (v : Clm) (j : Nat) : (s.setClm k v).core j = s.core j := rfl
@[simp] theorem State.core_setStream (k : Nat) (v : Stream) (j : Nat) : (s.setStream k v).core j = s.core j := rfl
@[simp] theorem State.core_setSeq (k : Nat) (v : Seq) (j : Nat) : (s.setSeq k v).core j = s.core j := rfl
@[simp] theorem State.core_setRegion (k : Nat) (v : MemRegion) (j : Nat) : (s.setRegion k v).core j = s.core j := rfl
@[simp] theorem State.core_setChannel (k : Nat) (v : Channel) (j : Nat) : (s.setChannel k v).core j = s.core j := rfl
@[simp] theorem State.core_setStack (k : Nat) (v : Stack) (j : Nat) : (s.setStack k v).core j = s.core j := rfl
@[simp] theorem State.core_setFar (k : Nat) (v : FarPort) (j : Nat) : (s.setFar k v).core j = s.core j := rfl
@[simp] theorem State.core_setPort (k : Nat) (v : Port) (j : Nat) : (s.setPort k v).core j = s.core j := rfl
@[simp] theorem State.core_setLb (k : Nat) (v : LandBuf) (j : Nat) : (s.setLb k v).core j = s.core j := rfl
@[simp] theorem State.core_setRing (k : Nat) (v : Ring) (j : Nat) : (s.setRing k v).core j = s.core j := rfl
@[simp] theorem State.core_setUtlb (c e : Nat) (v : List TlbEntry) (j : Nat) : (s.setUtlb c e v).core j = s.core j := rfl
@[simp] theorem State.core_draw (j : Nat) : (s.draw).core j = s.core j := rfl
@[simp] theorem State.core_modPart (p : Nat) (f : Part → Part) (j : Nat) : (s.modPart p f).core j = s.core j := rfl
@[simp] theorem State.core_modUnit (k : Nat) (f : SetUnits → SetUnits) (j : Nat) : (s.modUnit k f).core j = s.core j := rfl
@[simp] theorem State.core_modClm (k : Nat) (f : Clm → Clm) (j : Nat) : (s.modClm k f).core j = s.core j := rfl
@[simp] theorem State.core_modStream (k : Nat) (f : Stream → Stream) (j : Nat) : (s.modStream k f).core j = s.core j := rfl
@[simp] theorem State.core_modSeq (k : Nat) (f : Seq → Seq) (j : Nat) : (s.modSeq k f).core j = s.core j := rfl
@[simp] theorem State.core_modChannel (k : Nat) (f : Channel → Channel) (j : Nat) : (s.modChannel k f).core j = s.core j := rfl
@[simp] theorem State.core_modStack (k : Nat) (f : Stack → Stack) (j : Nat) : (s.modStack k f).core j = s.core j := rfl
@[simp] theorem State.core_modFar (k : Nat) (f : FarPort → FarPort) (j : Nat) : (s.modFar k f).core j = s.core j := rfl
@[simp] theorem State.core_modPort (k : Nat) (f : Port → Port) (j : Nat) : (s.modPort k f).core j = s.core j := rfl
@[simp] theorem State.core_modRing (k : Nat) (f : Ring → Ring) (j : Nat) : (s.modRing k f).core j = s.core j := rfl
@[simp] theorem State.unit_setPart (p : Nat) (v : Part) (j : Nat) : (s.setPart p v).unit j = s.unit j := rfl
@[simp] theorem State.unit_setCore (c : Nat) (v : Core) (j : Nat) : (s.setCore c v).unit j = s.unit j := rfl
@[simp] theorem State.unit_setClm (k : Nat) (v : Clm) (j : Nat) : (s.setClm k v).unit j = s.unit j := rfl
@[simp] theorem State.unit_setStream (k : Nat) (v : Stream) (j : Nat) : (s.setStream k v).unit j = s.unit j := rfl
@[simp] theorem State.unit_setSeq (k : Nat) (v : Seq) (j : Nat) : (s.setSeq k v).unit j = s.unit j := rfl
@[simp] theorem State.unit_setRegion (k : Nat) (v : MemRegion) (j : Nat) : (s.setRegion k v).unit j = s.unit j := rfl
@[simp] theorem State.unit_setChannel (k : Nat) (v : Channel) (j : Nat) : (s.setChannel k v).unit j = s.unit j := rfl
@[simp] theorem State.unit_setStack (k : Nat) (v : Stack) (j : Nat) : (s.setStack k v).unit j = s.unit j := rfl
@[simp] theorem State.unit_setFar (k : Nat) (v : FarPort) (j : Nat) : (s.setFar k v).unit j = s.unit j := rfl
@[simp] theorem State.unit_setPort (k : Nat) (v : Port) (j : Nat) : (s.setPort k v).unit j = s.unit j := rfl
@[simp] theorem State.unit_setLb (k : Nat) (v : LandBuf) (j : Nat) : (s.setLb k v).unit j = s.unit j := rfl
@[simp] theorem State.unit_setRing (k : Nat) (v : Ring) (j : Nat) : (s.setRing k v).unit j = s.unit j := rfl
@[simp] theorem State.unit_setUtlb (c e : Nat) (v : List TlbEntry) (j : Nat) : (s.setUtlb c e v).unit j = s.unit j := rfl
@[simp] theorem State.unit_draw (j : Nat) : (s.draw).unit j = s.unit j := rfl
@[simp] theorem State.unit_modPart (p : Nat) (f : Part → Part) (j : Nat) : (s.modPart p f).unit j = s.unit j := rfl
@[simp] theorem State.unit_modCore (c : Nat) (f : Core → Core) (j : Nat) : (s.modCore c f).unit j = s.unit j := rfl
@[simp] theorem State.unit_modClm (k : Nat) (f : Clm → Clm) (j : Nat) : (s.modClm k f).unit j = s.unit j := rfl
@[simp] theorem State.unit_modStream (k : Nat) (f : Stream → Stream) (j : Nat) : (s.modStream k f).unit j = s.unit j := rfl
@[simp] theorem State.unit_modSeq (k : Nat) (f : Seq → Seq) (j : Nat) : (s.modSeq k f).unit j = s.unit j := rfl
@[simp] theorem State.unit_modChannel (k : Nat) (f : Channel → Channel) (j : Nat) : (s.modChannel k f).unit j = s.unit j := rfl
@[simp] theorem State.unit_modStack (k : Nat) (f : Stack → Stack) (j : Nat) : (s.modStack k f).unit j = s.unit j := rfl
@[simp] theorem State.unit_modFar (k : Nat) (f : FarPort → FarPort) (j : Nat) : (s.modFar k f).unit j = s.unit j := rfl
@[simp] theorem State.unit_modPort (k : Nat) (f : Port → Port) (j : Nat) : (s.modPort k f).unit j = s.unit j := rfl
@[simp] theorem State.unit_modRing (k : Nat) (f : Ring → Ring) (j : Nat) : (s.modRing k f).unit j = s.unit j := rfl
@[simp] theorem State.clm_setPart (p : Nat) (v : Part) (j : Nat) : (s.setPart p v).clm j = s.clm j := rfl
@[simp] theorem State.clm_setCore (c : Nat) (v : Core) (j : Nat) : (s.setCore c v).clm j = s.clm j := rfl
@[simp] theorem State.clm_setUnit (k : Nat) (v : SetUnits) (j : Nat) : (s.setUnit k v).clm j = s.clm j := rfl
@[simp] theorem State.clm_setStream (k : Nat) (v : Stream) (j : Nat) : (s.setStream k v).clm j = s.clm j := rfl
@[simp] theorem State.clm_setSeq (k : Nat) (v : Seq) (j : Nat) : (s.setSeq k v).clm j = s.clm j := rfl
@[simp] theorem State.clm_setRegion (k : Nat) (v : MemRegion) (j : Nat) : (s.setRegion k v).clm j = s.clm j := rfl
@[simp] theorem State.clm_setChannel (k : Nat) (v : Channel) (j : Nat) : (s.setChannel k v).clm j = s.clm j := rfl
@[simp] theorem State.clm_setStack (k : Nat) (v : Stack) (j : Nat) : (s.setStack k v).clm j = s.clm j := rfl
@[simp] theorem State.clm_setFar (k : Nat) (v : FarPort) (j : Nat) : (s.setFar k v).clm j = s.clm j := rfl
@[simp] theorem State.clm_setPort (k : Nat) (v : Port) (j : Nat) : (s.setPort k v).clm j = s.clm j := rfl
@[simp] theorem State.clm_setLb (k : Nat) (v : LandBuf) (j : Nat) : (s.setLb k v).clm j = s.clm j := rfl
@[simp] theorem State.clm_setRing (k : Nat) (v : Ring) (j : Nat) : (s.setRing k v).clm j = s.clm j := rfl
@[simp] theorem State.clm_setUtlb (c e : Nat) (v : List TlbEntry) (j : Nat) : (s.setUtlb c e v).clm j = s.clm j := rfl
@[simp] theorem State.clm_draw (j : Nat) : (s.draw).clm j = s.clm j := rfl
@[simp] theorem State.clm_modPart (p : Nat) (f : Part → Part) (j : Nat) : (s.modPart p f).clm j = s.clm j := rfl
@[simp] theorem State.clm_modCore (c : Nat) (f : Core → Core) (j : Nat) : (s.modCore c f).clm j = s.clm j := rfl
@[simp] theorem State.clm_modUnit (k : Nat) (f : SetUnits → SetUnits) (j : Nat) : (s.modUnit k f).clm j = s.clm j := rfl
@[simp] theorem State.clm_modStream (k : Nat) (f : Stream → Stream) (j : Nat) : (s.modStream k f).clm j = s.clm j := rfl
@[simp] theorem State.clm_modSeq (k : Nat) (f : Seq → Seq) (j : Nat) : (s.modSeq k f).clm j = s.clm j := rfl
@[simp] theorem State.clm_modChannel (k : Nat) (f : Channel → Channel) (j : Nat) : (s.modChannel k f).clm j = s.clm j := rfl
@[simp] theorem State.clm_modStack (k : Nat) (f : Stack → Stack) (j : Nat) : (s.modStack k f).clm j = s.clm j := rfl
@[simp] theorem State.clm_modFar (k : Nat) (f : FarPort → FarPort) (j : Nat) : (s.modFar k f).clm j = s.clm j := rfl
@[simp] theorem State.clm_modPort (k : Nat) (f : Port → Port) (j : Nat) : (s.modPort k f).clm j = s.clm j := rfl
@[simp] theorem State.clm_modRing (k : Nat) (f : Ring → Ring) (j : Nat) : (s.modRing k f).clm j = s.clm j := rfl
@[simp] theorem State.stream_setPart (p : Nat) (v : Part) (j : Nat) : (s.setPart p v).stream j = s.stream j := rfl
@[simp] theorem State.stream_setCore (c : Nat) (v : Core) (j : Nat) : (s.setCore c v).stream j = s.stream j := rfl
@[simp] theorem State.stream_setUnit (k : Nat) (v : SetUnits) (j : Nat) : (s.setUnit k v).stream j = s.stream j := rfl
@[simp] theorem State.stream_setClm (k : Nat) (v : Clm) (j : Nat) : (s.setClm k v).stream j = s.stream j := rfl
@[simp] theorem State.stream_setSeq (k : Nat) (v : Seq) (j : Nat) : (s.setSeq k v).stream j = s.stream j := rfl
@[simp] theorem State.stream_setRegion (k : Nat) (v : MemRegion) (j : Nat) : (s.setRegion k v).stream j = s.stream j := rfl
@[simp] theorem State.stream_setChannel (k : Nat) (v : Channel) (j : Nat) : (s.setChannel k v).stream j = s.stream j := rfl
@[simp] theorem State.stream_setStack (k : Nat) (v : Stack) (j : Nat) : (s.setStack k v).stream j = s.stream j := rfl
@[simp] theorem State.stream_setFar (k : Nat) (v : FarPort) (j : Nat) : (s.setFar k v).stream j = s.stream j := rfl
@[simp] theorem State.stream_setPort (k : Nat) (v : Port) (j : Nat) : (s.setPort k v).stream j = s.stream j := rfl
@[simp] theorem State.stream_setLb (k : Nat) (v : LandBuf) (j : Nat) : (s.setLb k v).stream j = s.stream j := rfl
@[simp] theorem State.stream_setRing (k : Nat) (v : Ring) (j : Nat) : (s.setRing k v).stream j = s.stream j := rfl
@[simp] theorem State.stream_setUtlb (c e : Nat) (v : List TlbEntry) (j : Nat) : (s.setUtlb c e v).stream j = s.stream j := rfl
@[simp] theorem State.stream_draw (j : Nat) : (s.draw).stream j = s.stream j := rfl
@[simp] theorem State.stream_modPart (p : Nat) (f : Part → Part) (j : Nat) : (s.modPart p f).stream j = s.stream j := rfl
@[simp] theorem State.stream_modCore (c : Nat) (f : Core → Core) (j : Nat) : (s.modCore c f).stream j = s.stream j := rfl
@[simp] theorem State.stream_modUnit (k : Nat) (f : SetUnits → SetUnits) (j : Nat) : (s.modUnit k f).stream j = s.stream j := rfl
@[simp] theorem State.stream_modClm (k : Nat) (f : Clm → Clm) (j : Nat) : (s.modClm k f).stream j = s.stream j := rfl
@[simp] theorem State.stream_modSeq (k : Nat) (f : Seq → Seq) (j : Nat) : (s.modSeq k f).stream j = s.stream j := rfl
@[simp] theorem State.stream_modChannel (k : Nat) (f : Channel → Channel) (j : Nat) : (s.modChannel k f).stream j = s.stream j := rfl
@[simp] theorem State.stream_modStack (k : Nat) (f : Stack → Stack) (j : Nat) : (s.modStack k f).stream j = s.stream j := rfl
@[simp] theorem State.stream_modFar (k : Nat) (f : FarPort → FarPort) (j : Nat) : (s.modFar k f).stream j = s.stream j := rfl
@[simp] theorem State.stream_modPort (k : Nat) (f : Port → Port) (j : Nat) : (s.modPort k f).stream j = s.stream j := rfl
@[simp] theorem State.stream_modRing (k : Nat) (f : Ring → Ring) (j : Nat) : (s.modRing k f).stream j = s.stream j := rfl
@[simp] theorem State.seq_setPart (p : Nat) (v : Part) (j : Nat) : (s.setPart p v).seq j = s.seq j := rfl
@[simp] theorem State.seq_setCore (c : Nat) (v : Core) (j : Nat) : (s.setCore c v).seq j = s.seq j := rfl
@[simp] theorem State.seq_setUnit (k : Nat) (v : SetUnits) (j : Nat) : (s.setUnit k v).seq j = s.seq j := rfl
@[simp] theorem State.seq_setClm (k : Nat) (v : Clm) (j : Nat) : (s.setClm k v).seq j = s.seq j := rfl
@[simp] theorem State.seq_setStream (k : Nat) (v : Stream) (j : Nat) : (s.setStream k v).seq j = s.seq j := rfl
@[simp] theorem State.seq_setRegion (k : Nat) (v : MemRegion) (j : Nat) : (s.setRegion k v).seq j = s.seq j := rfl
@[simp] theorem State.seq_setChannel (k : Nat) (v : Channel) (j : Nat) : (s.setChannel k v).seq j = s.seq j := rfl
@[simp] theorem State.seq_setStack (k : Nat) (v : Stack) (j : Nat) : (s.setStack k v).seq j = s.seq j := rfl
@[simp] theorem State.seq_setFar (k : Nat) (v : FarPort) (j : Nat) : (s.setFar k v).seq j = s.seq j := rfl
@[simp] theorem State.seq_setPort (k : Nat) (v : Port) (j : Nat) : (s.setPort k v).seq j = s.seq j := rfl
@[simp] theorem State.seq_setLb (k : Nat) (v : LandBuf) (j : Nat) : (s.setLb k v).seq j = s.seq j := rfl
@[simp] theorem State.seq_setRing (k : Nat) (v : Ring) (j : Nat) : (s.setRing k v).seq j = s.seq j := rfl
@[simp] theorem State.seq_setUtlb (c e : Nat) (v : List TlbEntry) (j : Nat) : (s.setUtlb c e v).seq j = s.seq j := rfl
@[simp] theorem State.seq_draw (j : Nat) : (s.draw).seq j = s.seq j := rfl
@[simp] theorem State.seq_modPart (p : Nat) (f : Part → Part) (j : Nat) : (s.modPart p f).seq j = s.seq j := rfl
@[simp] theorem State.seq_modCore (c : Nat) (f : Core → Core) (j : Nat) : (s.modCore c f).seq j = s.seq j := rfl
@[simp] theorem State.seq_modUnit (k : Nat) (f : SetUnits → SetUnits) (j : Nat) : (s.modUnit k f).seq j = s.seq j := rfl
@[simp] theorem State.seq_modClm (k : Nat) (f : Clm → Clm) (j : Nat) : (s.modClm k f).seq j = s.seq j := rfl
@[simp] theorem State.seq_modStream (k : Nat) (f : Stream → Stream) (j : Nat) : (s.modStream k f).seq j = s.seq j := rfl
@[simp] theorem State.seq_modChannel (k : Nat) (f : Channel → Channel) (j : Nat) : (s.modChannel k f).seq j = s.seq j := rfl
@[simp] theorem State.seq_modStack (k : Nat) (f : Stack → Stack) (j : Nat) : (s.modStack k f).seq j = s.seq j := rfl
@[simp] theorem State.seq_modFar (k : Nat) (f : FarPort → FarPort) (j : Nat) : (s.modFar k f).seq j = s.seq j := rfl
@[simp] theorem State.seq_modPort (k : Nat) (f : Port → Port) (j : Nat) : (s.modPort k f).seq j = s.seq j := rfl
@[simp] theorem State.seq_modRing (k : Nat) (f : Ring → Ring) (j : Nat) : (s.modRing k f).seq j = s.seq j := rfl
@[simp] theorem State.region_setPart (p : Nat) (v : Part) (j : Nat) : (s.setPart p v).region j = s.region j := rfl
@[simp] theorem State.region_setCore (c : Nat) (v : Core) (j : Nat) : (s.setCore c v).region j = s.region j := rfl
@[simp] theorem State.region_setUnit (k : Nat) (v : SetUnits) (j : Nat) : (s.setUnit k v).region j = s.region j := rfl
@[simp] theorem State.region_setClm (k : Nat) (v : Clm) (j : Nat) : (s.setClm k v).region j = s.region j := rfl
@[simp] theorem State.region_setStream (k : Nat) (v : Stream) (j : Nat) : (s.setStream k v).region j = s.region j := rfl
@[simp] theorem State.region_setSeq (k : Nat) (v : Seq) (j : Nat) : (s.setSeq k v).region j = s.region j := rfl
@[simp] theorem State.region_setChannel (k : Nat) (v : Channel) (j : Nat) : (s.setChannel k v).region j = s.region j := rfl
@[simp] theorem State.region_setStack (k : Nat) (v : Stack) (j : Nat) : (s.setStack k v).region j = s.region j := rfl
@[simp] theorem State.region_setFar (k : Nat) (v : FarPort) (j : Nat) : (s.setFar k v).region j = s.region j := rfl
@[simp] theorem State.region_setPort (k : Nat) (v : Port) (j : Nat) : (s.setPort k v).region j = s.region j := rfl
@[simp] theorem State.region_setLb (k : Nat) (v : LandBuf) (j : Nat) : (s.setLb k v).region j = s.region j := rfl
@[simp] theorem State.region_setRing (k : Nat) (v : Ring) (j : Nat) : (s.setRing k v).region j = s.region j := rfl
@[simp] theorem State.region_setUtlb (c e : Nat) (v : List TlbEntry) (j : Nat) : (s.setUtlb c e v).region j = s.region j := rfl
@[simp] theorem State.region_draw (j : Nat) : (s.draw).region j = s.region j := rfl
@[simp] theorem State.region_modPart (p : Nat) (f : Part → Part) (j : Nat) : (s.modPart p f).region j = s.region j := rfl
@[simp] theorem State.region_modCore (c : Nat) (f : Core → Core) (j : Nat) : (s.modCore c f).region j = s.region j := rfl
@[simp] theorem State.region_modUnit (k : Nat) (f : SetUnits → SetUnits) (j : Nat) : (s.modUnit k f).region j = s.region j := rfl
@[simp] theorem State.region_modClm (k : Nat) (f : Clm → Clm) (j : Nat) : (s.modClm k f).region j = s.region j := rfl
@[simp] theorem State.region_modStream (k : Nat) (f : Stream → Stream) (j : Nat) : (s.modStream k f).region j = s.region j := rfl
@[simp] theorem State.region_modSeq (k : Nat) (f : Seq → Seq) (j : Nat) : (s.modSeq k f).region j = s.region j := rfl
@[simp] theorem State.region_modChannel (k : Nat) (f : Channel → Channel) (j : Nat) : (s.modChannel k f).region j = s.region j := rfl
@[simp] theorem State.region_modStack (k : Nat) (f : Stack → Stack) (j : Nat) : (s.modStack k f).region j = s.region j := rfl
@[simp] theorem State.region_modFar (k : Nat) (f : FarPort → FarPort) (j : Nat) : (s.modFar k f).region j = s.region j := rfl
@[simp] theorem State.region_modPort (k : Nat) (f : Port → Port) (j : Nat) : (s.modPort k f).region j = s.region j := rfl
@[simp] theorem State.region_modRing (k : Nat) (f : Ring → Ring) (j : Nat) : (s.modRing k f).region j = s.region j := rfl
@[simp] theorem State.channel_setPart (p : Nat) (v : Part) (j : Nat) : (s.setPart p v).channel j = s.channel j := rfl
@[simp] theorem State.channel_setCore (c : Nat) (v : Core) (j : Nat) : (s.setCore c v).channel j = s.channel j := rfl
@[simp] theorem State.channel_setUnit (k : Nat) (v : SetUnits) (j : Nat) : (s.setUnit k v).channel j = s.channel j := rfl
@[simp] theorem State.channel_setClm (k : Nat) (v : Clm) (j : Nat) : (s.setClm k v).channel j = s.channel j := rfl
@[simp] theorem State.channel_setStream (k : Nat) (v : Stream) (j : Nat) : (s.setStream k v).channel j = s.channel j := rfl
@[simp] theorem State.channel_setSeq (k : Nat) (v : Seq) (j : Nat) : (s.setSeq k v).channel j = s.channel j := rfl
@[simp] theorem State.channel_setRegion (k : Nat) (v : MemRegion) (j : Nat) : (s.setRegion k v).channel j = s.channel j := rfl
@[simp] theorem State.channel_setStack (k : Nat) (v : Stack) (j : Nat) : (s.setStack k v).channel j = s.channel j := rfl
@[simp] theorem State.channel_setFar (k : Nat) (v : FarPort) (j : Nat) : (s.setFar k v).channel j = s.channel j := rfl
@[simp] theorem State.channel_setPort (k : Nat) (v : Port) (j : Nat) : (s.setPort k v).channel j = s.channel j := rfl
@[simp] theorem State.channel_setLb (k : Nat) (v : LandBuf) (j : Nat) : (s.setLb k v).channel j = s.channel j := rfl
@[simp] theorem State.channel_setRing (k : Nat) (v : Ring) (j : Nat) : (s.setRing k v).channel j = s.channel j := rfl
@[simp] theorem State.channel_setUtlb (c e : Nat) (v : List TlbEntry) (j : Nat) : (s.setUtlb c e v).channel j = s.channel j := rfl
@[simp] theorem State.channel_draw (j : Nat) : (s.draw).channel j = s.channel j := rfl
@[simp] theorem State.channel_modPart (p : Nat) (f : Part → Part) (j : Nat) : (s.modPart p f).channel j = s.channel j := rfl
@[simp] theorem State.channel_modCore (c : Nat) (f : Core → Core) (j : Nat) : (s.modCore c f).channel j = s.channel j := rfl
@[simp] theorem State.channel_modUnit (k : Nat) (f : SetUnits → SetUnits) (j : Nat) : (s.modUnit k f).channel j = s.channel j := rfl
@[simp] theorem State.channel_modClm (k : Nat) (f : Clm → Clm) (j : Nat) : (s.modClm k f).channel j = s.channel j := rfl
@[simp] theorem State.channel_modStream (k : Nat) (f : Stream → Stream) (j : Nat) : (s.modStream k f).channel j = s.channel j := rfl
@[simp] theorem State.channel_modSeq (k : Nat) (f : Seq → Seq) (j : Nat) : (s.modSeq k f).channel j = s.channel j := rfl
@[simp] theorem State.channel_modStack (k : Nat) (f : Stack → Stack) (j : Nat) : (s.modStack k f).channel j = s.channel j := rfl
@[simp] theorem State.channel_modFar (k : Nat) (f : FarPort → FarPort) (j : Nat) : (s.modFar k f).channel j = s.channel j := rfl
@[simp] theorem State.channel_modPort (k : Nat) (f : Port → Port) (j : Nat) : (s.modPort k f).channel j = s.channel j := rfl
@[simp] theorem State.channel_modRing (k : Nat) (f : Ring → Ring) (j : Nat) : (s.modRing k f).channel j = s.channel j := rfl
@[simp] theorem State.stackAt_setPart (p : Nat) (v : Part) (j : Nat) : (s.setPart p v).stackAt j = s.stackAt j := rfl
@[simp] theorem State.stackAt_setCore (c : Nat) (v : Core) (j : Nat) : (s.setCore c v).stackAt j = s.stackAt j := rfl
@[simp] theorem State.stackAt_setUnit (k : Nat) (v : SetUnits) (j : Nat) : (s.setUnit k v).stackAt j = s.stackAt j := rfl
@[simp] theorem State.stackAt_setClm (k : Nat) (v : Clm) (j : Nat) : (s.setClm k v).stackAt j = s.stackAt j := rfl
@[simp] theorem State.stackAt_setStream (k : Nat) (v : Stream) (j : Nat) : (s.setStream k v).stackAt j = s.stackAt j := rfl
@[simp] theorem State.stackAt_setSeq (k : Nat) (v : Seq) (j : Nat) : (s.setSeq k v).stackAt j = s.stackAt j := rfl
@[simp] theorem State.stackAt_setRegion (k : Nat) (v : MemRegion) (j : Nat) : (s.setRegion k v).stackAt j = s.stackAt j := rfl
@[simp] theorem State.stackAt_setChannel (k : Nat) (v : Channel) (j : Nat) : (s.setChannel k v).stackAt j = s.stackAt j := rfl
@[simp] theorem State.stackAt_setFar (k : Nat) (v : FarPort) (j : Nat) : (s.setFar k v).stackAt j = s.stackAt j := rfl
@[simp] theorem State.stackAt_setPort (k : Nat) (v : Port) (j : Nat) : (s.setPort k v).stackAt j = s.stackAt j := rfl
@[simp] theorem State.stackAt_setLb (k : Nat) (v : LandBuf) (j : Nat) : (s.setLb k v).stackAt j = s.stackAt j := rfl
@[simp] theorem State.stackAt_setRing (k : Nat) (v : Ring) (j : Nat) : (s.setRing k v).stackAt j = s.stackAt j := rfl
@[simp] theorem State.stackAt_setUtlb (c e : Nat) (v : List TlbEntry) (j : Nat) : (s.setUtlb c e v).stackAt j = s.stackAt j := rfl
@[simp] theorem State.stackAt_draw (j : Nat) : (s.draw).stackAt j = s.stackAt j := rfl
@[simp] theorem State.stackAt_modPart (p : Nat) (f : Part → Part) (j : Nat) : (s.modPart p f).stackAt j = s.stackAt j := rfl
@[simp] theorem State.stackAt_modCore (c : Nat) (f : Core → Core) (j : Nat) : (s.modCore c f).stackAt j = s.stackAt j := rfl
@[simp] theorem State.stackAt_modUnit (k : Nat) (f : SetUnits → SetUnits) (j : Nat) : (s.modUnit k f).stackAt j = s.stackAt j := rfl
@[simp] theorem State.stackAt_modClm (k : Nat) (f : Clm → Clm) (j : Nat) : (s.modClm k f).stackAt j = s.stackAt j := rfl
@[simp] theorem State.stackAt_modStream (k : Nat) (f : Stream → Stream) (j : Nat) : (s.modStream k f).stackAt j = s.stackAt j := rfl
@[simp] theorem State.stackAt_modSeq (k : Nat) (f : Seq → Seq) (j : Nat) : (s.modSeq k f).stackAt j = s.stackAt j := rfl
@[simp] theorem State.stackAt_modChannel (k : Nat) (f : Channel → Channel) (j : Nat) : (s.modChannel k f).stackAt j = s.stackAt j := rfl
@[simp] theorem State.stackAt_modFar (k : Nat) (f : FarPort → FarPort) (j : Nat) : (s.modFar k f).stackAt j = s.stackAt j := rfl
@[simp] theorem State.stackAt_modPort (k : Nat) (f : Port → Port) (j : Nat) : (s.modPort k f).stackAt j = s.stackAt j := rfl
@[simp] theorem State.stackAt_modRing (k : Nat) (f : Ring → Ring) (j : Nat) : (s.modRing k f).stackAt j = s.stackAt j := rfl
@[simp] theorem State.farPort_setPart (p : Nat) (v : Part) (j : Nat) : (s.setPart p v).farPort j = s.farPort j := rfl
@[simp] theorem State.farPort_setCore (c : Nat) (v : Core) (j : Nat) : (s.setCore c v).farPort j = s.farPort j := rfl
@[simp] theorem State.farPort_setUnit (k : Nat) (v : SetUnits) (j : Nat) : (s.setUnit k v).farPort j = s.farPort j := rfl
@[simp] theorem State.farPort_setClm (k : Nat) (v : Clm) (j : Nat) : (s.setClm k v).farPort j = s.farPort j := rfl
@[simp] theorem State.farPort_setStream (k : Nat) (v : Stream) (j : Nat) : (s.setStream k v).farPort j = s.farPort j := rfl
@[simp] theorem State.farPort_setSeq (k : Nat) (v : Seq) (j : Nat) : (s.setSeq k v).farPort j = s.farPort j := rfl
@[simp] theorem State.farPort_setRegion (k : Nat) (v : MemRegion) (j : Nat) : (s.setRegion k v).farPort j = s.farPort j := rfl
@[simp] theorem State.farPort_setChannel (k : Nat) (v : Channel) (j : Nat) : (s.setChannel k v).farPort j = s.farPort j := rfl
@[simp] theorem State.farPort_setStack (k : Nat) (v : Stack) (j : Nat) : (s.setStack k v).farPort j = s.farPort j := rfl
@[simp] theorem State.farPort_setPort (k : Nat) (v : Port) (j : Nat) : (s.setPort k v).farPort j = s.farPort j := rfl
@[simp] theorem State.farPort_setLb (k : Nat) (v : LandBuf) (j : Nat) : (s.setLb k v).farPort j = s.farPort j := rfl
@[simp] theorem State.farPort_setRing (k : Nat) (v : Ring) (j : Nat) : (s.setRing k v).farPort j = s.farPort j := rfl
@[simp] theorem State.farPort_setUtlb (c e : Nat) (v : List TlbEntry) (j : Nat) : (s.setUtlb c e v).farPort j = s.farPort j := rfl
@[simp] theorem State.farPort_draw (j : Nat) : (s.draw).farPort j = s.farPort j := rfl
@[simp] theorem State.farPort_modPart (p : Nat) (f : Part → Part) (j : Nat) : (s.modPart p f).farPort j = s.farPort j := rfl
@[simp] theorem State.farPort_modCore (c : Nat) (f : Core → Core) (j : Nat) : (s.modCore c f).farPort j = s.farPort j := rfl
@[simp] theorem State.farPort_modUnit (k : Nat) (f : SetUnits → SetUnits) (j : Nat) : (s.modUnit k f).farPort j = s.farPort j := rfl
@[simp] theorem State.farPort_modClm (k : Nat) (f : Clm → Clm) (j : Nat) : (s.modClm k f).farPort j = s.farPort j := rfl
@[simp] theorem State.farPort_modStream (k : Nat) (f : Stream → Stream) (j : Nat) : (s.modStream k f).farPort j = s.farPort j := rfl
@[simp] theorem State.farPort_modSeq (k : Nat) (f : Seq → Seq) (j : Nat) : (s.modSeq k f).farPort j = s.farPort j := rfl
@[simp] theorem State.farPort_modChannel (k : Nat) (f : Channel → Channel) (j : Nat) : (s.modChannel k f).farPort j = s.farPort j := rfl
@[simp] theorem State.farPort_modStack (k : Nat) (f : Stack → Stack) (j : Nat) : (s.modStack k f).farPort j = s.farPort j := rfl
@[simp] theorem State.farPort_modPort (k : Nat) (f : Port → Port) (j : Nat) : (s.modPort k f).farPort j = s.farPort j := rfl
@[simp] theorem State.farPort_modRing (k : Nat) (f : Ring → Ring) (j : Nat) : (s.modRing k f).farPort j = s.farPort j := rfl
@[simp] theorem State.port_setPart (p : Nat) (v : Part) (j : Nat) : (s.setPart p v).port j = s.port j := rfl
@[simp] theorem State.port_setCore (c : Nat) (v : Core) (j : Nat) : (s.setCore c v).port j = s.port j := rfl
@[simp] theorem State.port_setUnit (k : Nat) (v : SetUnits) (j : Nat) : (s.setUnit k v).port j = s.port j := rfl
@[simp] theorem State.port_setClm (k : Nat) (v : Clm) (j : Nat) : (s.setClm k v).port j = s.port j := rfl
@[simp] theorem State.port_setStream (k : Nat) (v : Stream) (j : Nat) : (s.setStream k v).port j = s.port j := rfl
@[simp] theorem State.port_setSeq (k : Nat) (v : Seq) (j : Nat) : (s.setSeq k v).port j = s.port j := rfl
@[simp] theorem State.port_setRegion (k : Nat) (v : MemRegion) (j : Nat) : (s.setRegion k v).port j = s.port j := rfl
@[simp] theorem State.port_setChannel (k : Nat) (v : Channel) (j : Nat) : (s.setChannel k v).port j = s.port j := rfl
@[simp] theorem State.port_setStack (k : Nat) (v : Stack) (j : Nat) : (s.setStack k v).port j = s.port j := rfl
@[simp] theorem State.port_setFar (k : Nat) (v : FarPort) (j : Nat) : (s.setFar k v).port j = s.port j := rfl
@[simp] theorem State.port_setLb (k : Nat) (v : LandBuf) (j : Nat) : (s.setLb k v).port j = s.port j := rfl
@[simp] theorem State.port_setRing (k : Nat) (v : Ring) (j : Nat) : (s.setRing k v).port j = s.port j := rfl
@[simp] theorem State.port_setUtlb (c e : Nat) (v : List TlbEntry) (j : Nat) : (s.setUtlb c e v).port j = s.port j := rfl
@[simp] theorem State.port_draw (j : Nat) : (s.draw).port j = s.port j := rfl
@[simp] theorem State.port_modPart (p : Nat) (f : Part → Part) (j : Nat) : (s.modPart p f).port j = s.port j := rfl
@[simp] theorem State.port_modCore (c : Nat) (f : Core → Core) (j : Nat) : (s.modCore c f).port j = s.port j := rfl
@[simp] theorem State.port_modUnit (k : Nat) (f : SetUnits → SetUnits) (j : Nat) : (s.modUnit k f).port j = s.port j := rfl
@[simp] theorem State.port_modClm (k : Nat) (f : Clm → Clm) (j : Nat) : (s.modClm k f).port j = s.port j := rfl
@[simp] theorem State.port_modStream (k : Nat) (f : Stream → Stream) (j : Nat) : (s.modStream k f).port j = s.port j := rfl
@[simp] theorem State.port_modSeq (k : Nat) (f : Seq → Seq) (j : Nat) : (s.modSeq k f).port j = s.port j := rfl
@[simp] theorem State.port_modChannel (k : Nat) (f : Channel → Channel) (j : Nat) : (s.modChannel k f).port j = s.port j := rfl
@[simp] theorem State.port_modStack (k : Nat) (f : Stack → Stack) (j : Nat) : (s.modStack k f).port j = s.port j := rfl
@[simp] theorem State.port_modFar (k : Nat) (f : FarPort → FarPort) (j : Nat) : (s.modFar k f).port j = s.port j := rfl
@[simp] theorem State.port_modRing (k : Nat) (f : Ring → Ring) (j : Nat) : (s.modRing k f).port j = s.port j := rfl
@[simp] theorem State.landBuf_setPart (p : Nat) (v : Part) (j : Nat) : (s.setPart p v).landBuf j = s.landBuf j := rfl
@[simp] theorem State.landBuf_setCore (c : Nat) (v : Core) (j : Nat) : (s.setCore c v).landBuf j = s.landBuf j := rfl
@[simp] theorem State.landBuf_setUnit (k : Nat) (v : SetUnits) (j : Nat) : (s.setUnit k v).landBuf j = s.landBuf j := rfl
@[simp] theorem State.landBuf_setClm (k : Nat) (v : Clm) (j : Nat) : (s.setClm k v).landBuf j = s.landBuf j := rfl
@[simp] theorem State.landBuf_setStream (k : Nat) (v : Stream) (j : Nat) : (s.setStream k v).landBuf j = s.landBuf j := rfl
@[simp] theorem State.landBuf_setSeq (k : Nat) (v : Seq) (j : Nat) : (s.setSeq k v).landBuf j = s.landBuf j := rfl
@[simp] theorem State.landBuf_setRegion (k : Nat) (v : MemRegion) (j : Nat) : (s.setRegion k v).landBuf j = s.landBuf j := rfl
@[simp] theorem State.landBuf_setChannel (k : Nat) (v : Channel) (j : Nat) : (s.setChannel k v).landBuf j = s.landBuf j := rfl
@[simp] theorem State.landBuf_setStack (k : Nat) (v : Stack) (j : Nat) : (s.setStack k v).landBuf j = s.landBuf j := rfl
@[simp] theorem State.landBuf_setFar (k : Nat) (v : FarPort) (j : Nat) : (s.setFar k v).landBuf j = s.landBuf j := rfl
@[simp] theorem State.landBuf_setPort (k : Nat) (v : Port) (j : Nat) : (s.setPort k v).landBuf j = s.landBuf j := rfl
@[simp] theorem State.landBuf_setRing (k : Nat) (v : Ring) (j : Nat) : (s.setRing k v).landBuf j = s.landBuf j := rfl
@[simp] theorem State.landBuf_setUtlb (c e : Nat) (v : List TlbEntry) (j : Nat) : (s.setUtlb c e v).landBuf j = s.landBuf j := rfl
@[simp] theorem State.landBuf_draw (j : Nat) : (s.draw).landBuf j = s.landBuf j := rfl
@[simp] theorem State.landBuf_modPart (p : Nat) (f : Part → Part) (j : Nat) : (s.modPart p f).landBuf j = s.landBuf j := rfl
@[simp] theorem State.landBuf_modCore (c : Nat) (f : Core → Core) (j : Nat) : (s.modCore c f).landBuf j = s.landBuf j := rfl
@[simp] theorem State.landBuf_modUnit (k : Nat) (f : SetUnits → SetUnits) (j : Nat) : (s.modUnit k f).landBuf j = s.landBuf j := rfl
@[simp] theorem State.landBuf_modClm (k : Nat) (f : Clm → Clm) (j : Nat) : (s.modClm k f).landBuf j = s.landBuf j := rfl
@[simp] theorem State.landBuf_modStream (k : Nat) (f : Stream → Stream) (j : Nat) : (s.modStream k f).landBuf j = s.landBuf j := rfl
@[simp] theorem State.landBuf_modSeq (k : Nat) (f : Seq → Seq) (j : Nat) : (s.modSeq k f).landBuf j = s.landBuf j := rfl
@[simp] theorem State.landBuf_modChannel (k : Nat) (f : Channel → Channel) (j : Nat) : (s.modChannel k f).landBuf j = s.landBuf j := rfl
@[simp] theorem State.landBuf_modStack (k : Nat) (f : Stack → Stack) (j : Nat) : (s.modStack k f).landBuf j = s.landBuf j := rfl
@[simp] theorem State.landBuf_modFar (k : Nat) (f : FarPort → FarPort) (j : Nat) : (s.modFar k f).landBuf j = s.landBuf j := rfl
@[simp] theorem State.landBuf_modPort (k : Nat) (f : Port → Port) (j : Nat) : (s.modPort k f).landBuf j = s.landBuf j := rfl
@[simp] theorem State.landBuf_modRing (k : Nat) (f : Ring → Ring) (j : Nat) : (s.modRing k f).landBuf j = s.landBuf j := rfl
@[simp] theorem State.ring_setPart (p : Nat) (v : Part) (j : Nat) : (s.setPart p v).ring j = s.ring j := rfl
@[simp] theorem State.ring_setCore (c : Nat) (v : Core) (j : Nat) : (s.setCore c v).ring j = s.ring j := rfl
@[simp] theorem State.ring_setUnit (k : Nat) (v : SetUnits) (j : Nat) : (s.setUnit k v).ring j = s.ring j := rfl
@[simp] theorem State.ring_setClm (k : Nat) (v : Clm) (j : Nat) : (s.setClm k v).ring j = s.ring j := rfl
@[simp] theorem State.ring_setStream (k : Nat) (v : Stream) (j : Nat) : (s.setStream k v).ring j = s.ring j := rfl
@[simp] theorem State.ring_setSeq (k : Nat) (v : Seq) (j : Nat) : (s.setSeq k v).ring j = s.ring j := rfl
@[simp] theorem State.ring_setRegion (k : Nat) (v : MemRegion) (j : Nat) : (s.setRegion k v).ring j = s.ring j := rfl
@[simp] theorem State.ring_setChannel (k : Nat) (v : Channel) (j : Nat) : (s.setChannel k v).ring j = s.ring j := rfl
@[simp] theorem State.ring_setStack (k : Nat) (v : Stack) (j : Nat) : (s.setStack k v).ring j = s.ring j := rfl
@[simp] theorem State.ring_setFar (k : Nat) (v : FarPort) (j : Nat) : (s.setFar k v).ring j = s.ring j := rfl
@[simp] theorem State.ring_setPort (k : Nat) (v : Port) (j : Nat) : (s.setPort k v).ring j = s.ring j := rfl
@[simp] theorem State.ring_setLb (k : Nat) (v : LandBuf) (j : Nat) : (s.setLb k v).ring j = s.ring j := rfl
@[simp] theorem State.ring_setUtlb (c e : Nat) (v : List TlbEntry) (j : Nat) : (s.setUtlb c e v).ring j = s.ring j := rfl
@[simp] theorem State.ring_draw (j : Nat) : (s.draw).ring j = s.ring j := rfl
@[simp] theorem State.ring_modPart (p : Nat) (f : Part → Part) (j : Nat) : (s.modPart p f).ring j = s.ring j := rfl
@[simp] theorem State.ring_modCore (c : Nat) (f : Core → Core) (j : Nat) : (s.modCore c f).ring j = s.ring j := rfl
@[simp] theorem State.ring_modUnit (k : Nat) (f : SetUnits → SetUnits) (j : Nat) : (s.modUnit k f).ring j = s.ring j := rfl
@[simp] theorem State.ring_modClm (k : Nat) (f : Clm → Clm) (j : Nat) : (s.modClm k f).ring j = s.ring j := rfl
@[simp] theorem State.ring_modStream (k : Nat) (f : Stream → Stream) (j : Nat) : (s.modStream k f).ring j = s.ring j := rfl
@[simp] theorem State.ring_modSeq (k : Nat) (f : Seq → Seq) (j : Nat) : (s.modSeq k f).ring j = s.ring j := rfl
@[simp] theorem State.ring_modChannel (k : Nat) (f : Channel → Channel) (j : Nat) : (s.modChannel k f).ring j = s.ring j := rfl
@[simp] theorem State.ring_modStack (k : Nat) (f : Stack → Stack) (j : Nat) : (s.modStack k f).ring j = s.ring j := rfl
@[simp] theorem State.ring_modFar (k : Nat) (f : FarPort → FarPort) (j : Nat) : (s.modFar k f).ring j = s.ring j := rfl
@[simp] theorem State.ring_modPort (k : Nat) (f : Port → Port) (j : Nat) : (s.modPort k f).ring j = s.ring j := rfl

end

end Sys2Proof.Machine
end

