-- ==== Sys2Proof/WellFormed.lean ====
section
/-! DEFINITION. Which commands are well formed: every index an operand names lies in the range the spec numbers it in. Each check
has a name of its own. -/

namespace Sys2Proof

/-- Core numbers 0 to 63 (R23). -/
def okCore (c : Nat) : Bool := decide (c < 64)
/-- Sets 0 to 15 (R24). -/
def okSet (k : Nat) : Bool := decide (k < 16)
/-- Figure slots 0 and 1 (R115). -/
def okSlot (i : Nat) : Bool := decide (i < 2)
/-- ACM banks 0 and 1 (R134). -/
def okBank (b : Nat) : Bool := decide (b < 2)
/-- Scratchpad rows 0 to 32,767 (R304). -/
def okRow (r : Nat) : Bool := decide (r < 32768)
/-- Partitions 0 to 3 (R507). -/
def okPart (p : Nat) : Bool := decide (p < 4)
/-- FIG_ID is 24 bits (R55). -/
def okFig (f : Nat) : Bool := decide (f < 2 ^ 24)
/-- Rings 0 to 15 (R456). -/
def okRing (r : Nat) : Bool := decide (r < 16)
/-- Link ports 0 to 47 (R412). -/
def okPort (n : Nat) : Bool := decide (n < 48)
/-- Far ports 0 and 1 (R368). -/
def okFar (n : Nat) : Bool := decide (n < 2)
/-- Channels 0 to 255 (R339). -/
def okChannel (c : Nat) : Bool := decide (c < 256)
/-- Stacks 0 to 7 (R339). -/
def okStack (k : Nat) : Bool := decide (k < 8)
/-- Claim Counters 0 to 63 (R290). -/
def okClm (k : Nat) : Bool := decide (k < 64)
/-- Stream IDs 0 to 1,023 (R380). -/
def okStream (k : Nat) : Bool := decide (k < 1024)
/-- Windows 0 to 15 (R314). -/
def okWin (w : Nat) : Bool := decide (w < 16)
/-- DMA channels 0 to 3 (R379). -/
def okDma (c : Nat) : Bool := decide (c < 4)
/-- Node IDs 0 to 1,023 (R421). -/
def okNode (n : Nat) : Bool := decide (n < 1024)
/-- Requesters 0 to 15 (R514, R624). -/
def okReq (r : Nat) : Bool := decide (r < 16)
/-- An access stays inside one 64-byte line (R379). -/
def okLinePart (va n : Nat) : Bool := decide (1 ≤ n) && decide (va % 64 + n ≤ 64)
/-- A row of payload is 512 bytes (R304). -/
def okRowData (d : List Byte) : Bool := decide (d.length = 512)

/-- The well-formed commands. -/
def Instr.wellFormed (i : Instr) : Bool :=
  match i with
  | .beatEdge _ => true
  | .beatInsert => true
  | .holdoverExpiry => true
  | .beatCountFrame n _ => okPort n
  | .barBoundary _ => true
  | .lateFrame p n d _ _ => okPart p && okPort n && okNode d
  | .figureStalled p f => okPart p && okFig f
  | .figureStart p f => okPart p && okFig f
  | .figureComplete p f => okPart p && okFig f
  | .figureAbort p f => okPart p && okFig f
  | .backwardPhaseStart p f => okPart p && okFig f
  | .mergePhaseStart p f => okPart p && okFig f
  | .bucketStart p f => okPart p && okFig f
  | .appendPhase p f => okPart p && okFig f
  | .kvAppend o => okCore o.core && okSlot o.slot && okRow o.kRow && okRow o.vRow
  | .mxaOp c i _ _ _ => okCore c && okSlot i
  | .acmDrain o => okCore o.core && okSlot o.slot && okBank o.bank && okRow o.dstRow && decide (o.first + o.count ≤ 128)
  | .acmFill o => okCore o.core && okSlot o.slot && okBank o.bank && okRow o.srcRow
  | .acmShift c i b r => okCore c && okSlot i && okBank b && okRow r
  | .acmClear c b => okCore c && okBank b
  | .acmStatus c b _ => okCore c && okBank b
  | .rope o => okCore o.core && okSlot o.slot && okRow o.srcRow && okRow o.dstRow
  | .vuSplit o => okCore o.core && okSlot o.slot && okRow o.srcRow && okRow o.dstRow
  | .cvtFromE4m3x c i _ _ a b => okCore c && okSlot i && okRow a && okRow b
  | .cvtToE4m3x c i _ _ a b => okCore c && okSlot i && okRow a && okRow b
  | .optAdam o => okCore o.core && okSlot o.slot && okRow o.gRow && okRow o.thRow && okRow o.cRow && okRow o.mRow && okRow o.rRow
  | .scaleStep p f => okPart p && okFig f
  | .kvCommit p f => okPart p && okFig f
  | .resReload p f => okPart p && okFig f
  | .clmLoad k _ p f => okClm k && okPart p && okFig f
  | .clmClaim c k _ => okCore c && okClm k
  | .clmRetire c k _ => okCore c && okClm k
  | .clmReturn k _ => okClm k
  | .clmRelease k => okClm k
  | .itemCommit c k _ i => okCore c && okClm k && okSlot i
  | .multicastStageIssue p fig k _ z => okPart p && okFig fig && okStream k && okRow z.first && decide (z.rows ≤ 24576)
  | .spmFill c i ch r _ _ => okCore c && okSlot i && okDma ch && okRow r
  | .spmCopy c i ch a b _ => okCore c && okSlot i && okDma ch && okRow a && okRow b
  | .credTake w ch c win _ => okCore w && okDma ch && okCore c && okWin win
  | .credTakeGrant c win => okCore c && okWin win
  | .credReturn c i win _ => okCore c && okSlot i && okWin win
  | .remoteRowWrite w ch c win r d => okCore w && okDma ch && okCore c && okWin win && okRow r && okRowData d
  | .streamAccess k va n _ _ _ _ => okStream k && okLinePart va.toNat n
  | .stbLookup k r => okSet k && okStream r.stream
  | .stbWalkDone k r => okSet k && okStream r.stream
  | .faultService => true
  | .translationPrefetch c e k _ _ => okCore c && decide (e < 8) && okStream k
  | .lineDataValid k _ z => okStream k && okRow z.first && decide (z.rows ≤ 24576)
  | .invalidationDone p => okPart p
  | .migrateCopyDone p _ => okPart p
  | .pwuLookup k r _ _ _ => okSet k && okStream r.stream
  | .pwuWalkDone k r => okSet k && okStream r.stream
  | .quietPoint p => okPart p
  | .seqEvictCopyDone k => decide (k < 65536)
  | .seqRestoreCopyDone k => decide (k < 65536)
  | .frameZeroed p _ _ => okPart p
  | .reserveWaitTimeout r _ => okRing r
  | .mcReadRequest c _ p _ _ => okChannel c && okPart p
  | .mcWriteRequest c _ p _ _ => okChannel c && okPart p
  | .softRepairDone c => okChannel c
  | .wcbEvict c _ _ => okChannel c
  | .refresh c => okChannel c
  | .patrolScrub c _ => okChannel c
  | .scrubAged c => okChannel c
  | .stackTempRead k t => okStack k && decide (t < 256)
  | .channelLockLoss c => okChannel c
  | .channelRelock c => okChannel c
  | .channelFenceExpiry c => okChannel c
  | .channelUeLimit c => okChannel c
  | .intermissionItemStart p => okPart p
  | .channelRetrainDone c _ => okChannel c
  | .portRetrainDone n _ => okPort n
  | .laneRemapDone n _ _ => okPort n
  | .repairStagingDone k => okStack k
  | .farDrsResponse n _ _ _ => okFar n
  | .farNdrCmp n _ => okFar n
  | .farLinkDown n => okFar n
  | .farLinkUp n => okFar n
  | .farLinkTimeout n => okFar n
  | .flitReceive n f => okPort n && decide (f.content.length = 1016)
  | .portRetryLimit n _ => okPort n
  | .portFecLimit n _ => okPort n
  | .portLockLoss n w => okPort n && decide (w.lanes.length = 8)
  | .portRelock n => okPort n
  | .portRelockTimeout n => okPort n
  | .portPeerFence n _ => okPort n
  | .linkCalibration n _ _ => okPort n
  | .portTrainRetry n l => okPort n && decide (l.length = 8)
  | .trainingFrame n d _ => okPort n && okNode d
  | .transferIssue p _ => okPart p
  | .deliveryReceive n _ _ => okPort n
  | .creditFrame n d a lb _ => okPort n && okNode d && okNode a && decide (lb < 4096)
  | .probeFrame p g _ => okPart p && decide (g < 256)
  | .voteContribute p v => okPart p && decide (v < 256)
  | .voteFrame p _ v _ _ _ => okPart p && decide (v < 256)
  | .voteLatch p v => okPart p && decide (v < 256)
  | .chainSegment p _ _ => okPart p
  | .dbProdWrite q r _ => okReq q && okRing r
  | .dbCplWrite q r _ => okReq q && okRing r
  | .dbEvconsWrite q r _ => okReq q && okRing r
  | .ringReset q r _ => okReq q && okRing r
  | .ringResetDone r => okRing r
  | .heartbeatTick _ => true
  | .coreProgressFail c => decide (c < 4)
  | .watchdogExpiry => true
  | .ccSramError _ => true
  | .cifVersion r _ => okRing r
  | .commandUnknownOpcode r _ => okRing r
  | .eventRingSet r _ => okRing r
  | .jobOpen r _ => okRing r
  | .jobEnd r _ => okRing r
  | .chorLoad r _ _ => okRing r
  | .chorRun r _ => okRing r
  | .chorStop r _ => okRing r
  | .holdRequest r _ => okRing r
  | .intermissionReq r _ => okRing r
  | .kvArenaSet r _ => okRing r
  | .seqOpen r _ => okRing r
  | .seqQuery r _ => okRing r
  | .seqReserve r _ => okRing r
  | .seqTrim r _ => okRing r
  | .seqClose r _ => okRing r
  | .seqEvict r _ => okRing r
  | .seqRestore r _ => okRing r
  | .kvStat r _ => okRing r
  | .map r _ => okRing r
  | .unmap r _ => okRing r
  | .protect r _ => okRing r
  | .migrate r _ => okRing r
  | .faultAbort r _ => okRing r
  | .hotRead r _ => okRing r
  | .hotSet r _ => okRing r
  | .tableDigest r _ => okRing r
  | .fabricSet r _ => okRing r
  | .routeSet r _ => okRing r
  | .groupSet r _ => okRing r
  | .lbSet r _ => okRing r
  | .lbClear r _ => okRing r
  | .tableRead r _ => okRing r
  | .linkQuery r _ => okRing r
  | .snapSet r _ => okRing r
  | .snapRestore r _ _ => okRing r
  | .snapQuery r _ => okRing r
  | .setPartner r _ => okRing r
  | .partnerReply p _ _ lb half => okPart p && decide (lb < 4096) && decide (half < 2)
  | .partnerTimeout p => okPart p
  | .counterRead r _ => okRing r
  | .powerState r _ => okRing r
  | .powerCap r _ => okRing r
  | .healthRead r _ => okRing r
  | .debugHalt r _ => okRing r
  | .debugResume r _ => okRing r
  | .fwStage r _ => okRing r
  | .fwCommit r _ => okRing r
  | .fwActivate r _ => okRing r
  | .fwConfirm r _ => okRing r
  | .snapStagingDone p _ => okPart p
  | .snapSlotWritten p _ => okPart p
  | .snapSlotErase p => okPart p
  | .mirrorDone p _ => okPart p
  | .mirrorTimeout p => okPart p
  | .nvmResponse _ _ _ => true
  | .p1IdleEntry => true
  | .dutyAdjust _ => true
  | .capWindowEnd _ => true
  | .droopWarnStart k => decide (k < 16)
  | .droopWarnEnd _ => true
  | .supplyFailure k => decide (k < 16)
  | .dieTempRead t => decide (t < 256)
  | .thermThrottleChange _ => true
  | .porAssert => true
  | .porRelease => true
  | .resetEntry => true
  | .resetEntryDone => true
  | .resetRelease _ => true
  | .selfTests r => r.cores.all okCore && r.sets.all okSet
  | .hbmTraining l => decide (l.length ≤ 8)
  | .linkTraining l => l.all (fun x => okPort x.1 && decide (x.2.length = 8))
  | .hbmZeroInit l => l.all okChannel
  | .fwRegionBuild _ => true
  | .jtagIrUpdate _ => true
  | .jtagDebugAccess _ => true
  | .scanPattern d => decide (d.wrap.length ≤ 8)
  | .latchedLoRead q _ => okReq q
  | .acmDbgGo q _ => okReq q
  | .acmDbgCopyDone _ => true
  | .spmDbgGo q _ => okReq q
  | .spmDbgCopyDone _ => true
  | .telemEnable q p _ => okReq q && okPart p
  | .telemTailWrite q p _ => okReq q && okPart p
  | .telemStatClear q p _ => okReq q && okPart p
  | .spmCstatClear q c _ => okReq q && okCore c
  | .mcCstatClear q c _ => okReq q && okChannel c
  | .trCstatClear q k _ => okReq q && okSet k
  | .fqCstatClear q _ => okReq q
  | .lkCstatClear q n _ => okReq q && okPort n
  | .ceCstatClear q _ => okReq q
  | .stallCstatClear q c _ => okReq q && okCore c
  | .pcntCstatClear q p _ => okReq q && okPart p
  | .blkCstatClear q _ => okReq q
  | .hpfStatClear q _ => okReq q
  | .protViolClear q _ => okReq q
  | .registerWrite q _ _ _ _ => okReq q
  | .vuOperation _ => true
  | .powerTransitionDone => true
  | .fuseAck _ => true
  | .partnerRequest p d _ => okPart p && okNode d

end Sys2Proof
end

