-- ==== Sys2Proof/Tests/Slice0.lean ====
section
/-! SUPPORT. The model's own tests: an ill-formed command for each check, and for every statement with hypotheses a state and operands
that meet them. -/

namespace Sys2Proof.Tests

set_option maxRecDepth 8000
set_option Elab.async false

open Sys2Proof Sys2Proof.Machine

/-! ### States -/

/-- A running block with its lock set, in LOCKED at beat 640: Sets 0 to 7, every port, ring 0 (administrative) and requester 0 (an
administrator) are partition 0's; Sets 8 to 15, ring 1 and requester 1 partition 1's. -/
def up : State :=
  { State.reset with
    beat := { BeatUnit.reset with cnt := 640, lock := .locked, periodPs := 1000000, lastPs := 640000000, acquired := true }
    fw := { Fremund.reset with state := .running }
    pins := { State.reset.pins with phase := .running }
    prot := { Prot.reset with
      lock := true, setPart := 0x55550000, setEn := 0xFFFF, portEn := 0xFFFFFFFFFFFF, ringCfg := 0x5C, hostReq := 0x5C
      dbgPart := 0xF, dbgJtag := true, dbgSpm := true, dbgHalt := true, dbgAcm := true } }

/-- A Figure of type `par`, for beats 100 to 200 on every core. -/
def figOf (id : Nat) (par : FigParams) : Figure :=
  ⟨⟨id, 100, 200, 0, false, true, 0, 0, 0, 0, 0, 0, 0, 0⟩, none, par, ⟨id, [], [], []⟩⟩

/-- A loaded Choreography of job 7 with these Figures. -/
def chorOf (fs : List Figure) : Chor := ⟨0, 7, 64, 64, 4, 0, fs, [], [], [], [], []⟩

/-- A run in its first iteration, at place `next`, with these Figures in progress. -/
def runOf (next : Nat) (as : List RunFig) : Run :=
  ⟨1, 0, 0, next, [], [], [], [], as, [], 0, 0, 0, false, false, false, false, 0, false⟩

/-- The Figure at place `i`, in progress on its first attempt. -/
def inWork (i : Nat) : RunFig where
  fig := i
  startBeat := 640
  attempts := 1
  detections := 0
  phase := 0
  noWrite := false
  appended := false
  shape := 0
  clms := []
  items := []
  mergeItems := []
  buckets := []
  bucketNow := 0
  bucketRecs := []
  committed := []
  retired := 0
  total := 0
  recent := []
  beatDone := 0
  beats := 0
  flags := Flags.none
  opDone := false
  aborting := none
  detectedOn := []
  gangs := []
  assign := []
  appendLeft := []

/-- `up` with job 7 of partition 0 open and this Choreography running, its schedule beat 150. -/
def running (c : Chor) (r : Run) : State :=
  up.modPart 0 (fun q => { q with
    job := some 7, jobLoaded := true, chor := some c, run := some r, tempo := { q.tempo with running := true, base := 490, sched := 150 } })

/-- Core 0 issues for the Figure at place 0, from slot 0. -/
def issuing (par : FigParams) : State :=
  (running (chorOf [figOf 1 par]) (runOf 1 [inWork 0])).modCore 0 (fun c => { c with slot0 := ⟨some (0, 1), Flags.none, Flags.none, none, [], none, []⟩ })

/-- Partition 0's first page maps pinned HBM, in region 0 over channel 0 alone; its second page the first 32 MiB of far port 0. -/
def mapped (s : State) : State :=
  (({ s with regions := [(0, ⟨16, 0, 0, true, 1, false, 0, 0, 0, some [0]⟩), (1, ⟨1, 0, 64, true, 2, false, 0, 0, 0, none⟩)] }).modChannel 0
    (fun c => { c with state := .online, served := 1 })).modPart 0 (fun q => { q with space := { q.space with
      leaves := [(0, some ⟨false, false, false, true, true, true, 0⟩), (1, some ⟨false, true, false, true, true, false, 64⟩)] } })

/-- Sequence slot 5, OPEN, of partition 0 and job 7: 40 tokens of 64 reserved. -/
def seq5 : Seq := { Seq.free with state := .opened, part := 0, jobTag := 7, layers := 1, kvHeads := 1, headDim := 64, len := 40, resEnd := 64 }

/-- An attention parameter block of zeros, of groups of one entry. -/
def attn0 : AttnParams :=
  ⟨false, false, 1, 64, 0, 0, 0, 0, 0, 0, 0, 0, false, false, 0, 0, 0, 0, 0, 0, 0, 0, 0, 0, 0, 0, 0, 0, 0⟩

/-- A merge Figure of one entry, on the Figure's vote or not. -/
def mergeFig (vote : Bool) : Figure :=
  { figOf 2 (.merge attn0) with
    hdr := { (figOf 2 (.merge attn0)).hdr with condVote := vote }
    list := some ⟨1, 0, 0, [], []⟩ }

/-- A dense Figure of E4M3 operands and BF16 results. -/
def denFig : Figure :=
  { figOf 1 (.dense ⟨0, 0, 7, false, false, 0, false, 0, 0, 0, 0, false, 0, 0, 0, 0, 0, 0, 0, 4096⟩) with list := some ⟨1, 0, 0, [], []⟩ }

/-- Core 0 with some bytes in rows 0 to 16, at work for a Figure. -/
def working : State :=
  (issuing .transferOnly).modCore 0 (fun c => { c with spm := [(0, 0x38), (1, 0xB8), (33, 0x7F), (4096, 0x40), (4097, 0x3C), (8192, 3)] })

/-- A read of 16 bytes from `va` for tile 0, to Scratchpad byte 0. -/
def line0 (va : Nat) : LineReq := ⟨va, 16, false, 0, 0, 0, none, none, false⟩

/-- Stream 4, a raw tile load of core 0 for Figure 1 of partition 0, with these lines. -/
def load4 (ls : List LineReq) : Stream := { Stream.unbound with bound := true, fig := 1, lines := ls }

/-- Partition 0's leaf of its first page, and the uTLB entry of it. -/
def leaf0 : Leaf := ⟨false, false, false, true, true, true, 0⟩

/-- Core 0's stream 4 on mapped memory, with this uTLB, STB and walks of Set 0. -/
def streaming (m : Stream) (tlb stb : List TlbEntry) (ws : List Walk) : State :=
  ((({ mapped working with streams := [(4, m)] }).setUtlb 0 0 tlb).setUnit 0 { SetUnits.reset with stb := stb, walks := ws })

/-- A ring command that has started and waits. -/
def open3 (op : Nat) : OpenCmd := ⟨3, BitVec.ofNat 512 (3 + op * 2 ^ 16 + 2 ^ 32 + 2 ^ (8 * 0x20)), true, 0⟩

/-- Partition 0 with command 3 of ring 0 waiting for `w`. -/
def waitingFor (op : Nat) (w : Wait) (s : State) : State :=
  (s.modPart 0 (fun q => { q with waiting := [⟨0, 3, w⟩] })).modRing 0 (fun g => { g with state := .ready, versionRead := true, opened := [open3 op] })

/-- An extension of a decode Figure, in bucket mode or not. -/
def decode0 (bucket : Bool) : DecExt := ⟨false, bucket, false, 7, 1, 0, 0, 0, 0, 0, 0, 0⟩

/-- Command 3 with this opcode, job tag and fields: byte offset, low bit and value. -/
def cmd3 (op tag : Nat) (fs : List (Nat × Nat × Nat)) : BitVec 512 :=
  BitVec.ofNat 512 (3 + op * 2 ^ 16 + 2 ^ 32 + tag * 2 ^ 48 + (fs.map (fun f => f.2.2 * 2 ^ (8 * f.1 + f.2.1))).sum)

/-- Ring 0 READY, CIF_VERSION read, with this command acknowledged; Fremund's version and the ring's indices are those of reset. -/
def asked (op tag : Nat) (fs : List (Nat × Nat × Nat)) (s : State) : State :=
  s.modRing 0 (fun g => { g with state := .ready, versionRead := true, opened := [⟨3, cmd3 op tag fs, false, 0⟩] })


/-- `s` with node 5 as partition 0's, ports 0 and 1 UP and routes to node 6 over port 0 and to node 7 over port 1. -/
def linked (s : State) : State :=
  (((s.modPort 0 (fun q => { q with state := .up, width := 8, lanes := 0xFF })).modPort 1
    (fun q => { q with state := .up, width := 8, lanes := 0xFF })).modPart 0 (fun q => { q with plane := { q.plane with
      node := 5, valid := true, routes := [(6, 0x8000000000000001), (7, 0x8000000000000002)] } }))

/-- What the receiver watches on lanes of which these are aligned and the rest in lock without a marker. -/
def lanesSeen (al : BitVec 8) : List LaneWatch :=
  (List.range 8).map (fun l => ⟨true, if al.getLsbD l then [(0, markerOf l), (16384, markerOf l), (16384, markerOf l)] else [], 0⟩)

/-- Core `c` in debug halt, a copy from it under way or not. -/
def haltedAt (c : Nat) (copying : Bool) : State :=
  { up.modCore c (fun k => { k with halted := true }) with dbg := { up.dbg with spmCore := c, spmBusy := copying } }

/-! ### Stored images, read back without running the reads -/

/-- The cells of bytes stored from `a`, where an unlisted byte reads as `d`; the bytes are counted from `i`. -/
def cellsFrom (d : Byte) (a i : Nat) (bs : List Byte) : KMap Byte :=
  ((bs.zipIdx i).filter (fun x => decide (x.1 ≠ d))).map (fun x => (a + x.2, x.1))

theorem kget_cellsFrom_below (d : Byte) (a : Nat) (bs : List Byte) : ∀ i x, x < a + i → kget d (cellsFrom d a i bs) x = d := by
  induction bs with
  | nil => intro i x _; rfl
  | cons b r ih =>
    intro i x h
    have h1 := ih (i + 1) x (by omega)
    by_cases hb : b = d
    · simpa [cellsFrom, hb] using h1
    · have h2 : a + i ≠ x := by omega
      simpa [cellsFrom, hb, kget, h2] using h1

theorem kget_cellsFrom (d : Byte) (a : Nat) (bs : List Byte) : ∀ i k, kget d (cellsFrom d a i bs) (a + i + k) = bs.getD k d := by
  induction bs with
  | nil => intro i k; simp [cellsFrom, kget]
  | cons b r ih =>
    intro i k
    have h0 := kget_cellsFrom_below d a r (i + 1) (a + i) (by omega)
    cases k with
    | zero =>
      by_cases hb : b = d
      · simpa [cellsFrom, hb] using h0
      · simp [cellsFrom, hb, kget]
    | succ k =>
      have h1 := ih (i + 1) k
      rw [show a + (i + 1) + k = a + i + (k + 1) by omega] at h1
      by_cases hb : b = d
      · simpa [cellsFrom, hb] using h1
      · have h2 : a + i ≠ a + i + (k + 1) := by omega
        simpa [cellsFrom, hb, kget, h2] using h1

theorem kget_append_below {α : Type} (d : α) (m n : KMap α) (k : Nat) (h : ∀ x ∈ m, x.1 < k) : kget d (m ++ n) k = kget d n k := by
  induction m with
  | nil => rfl
  | cons x r ih =>
    have h1 : x.1 ≠ k := by have := h x (List.mem_cons_self ..); omega
    simpa [kget, h1] using ih (fun y hy => h y (List.mem_cons_of_mem _ hy))

/-- Bytes listed from `a` are what a read from there gives. -/
theorem take_drop_of_getD (bs : List Byte) (d : Byte) (k n : Nat) (h : k + n ≤ bs.length) :
    (List.range n).map (fun i => bs.getD (k + i) d) = (bs.drop k).take n := by
  apply List.ext_getElem?
  intro i
  by_cases hi : i < n
  · have h1 : k + i < bs.length := by omega
    simp [hi, h1]
  · simp [hi]

/-- Board NVM with an image at `a`, after cells below it, reads as the image. -/
theorem nvmRead_image (s : State) (m : KMap Byte) (a : Nat) (bs : List Byte) (hs : s.nvm = m ++ cellsFrom 0xFF a 0 bs)
    (hm : ∀ x ∈ m, x.1 < a) (k n : Nat) (h : k + n ≤ bs.length) : s.nvmRead (a + k) n = (bs.drop k).take n := by
  rw [State.nvmRead, ← take_drop_of_getD bs 0xFF k n h]
  refine List.map_congr_left (fun i _ => ?_)
  rw [hs, kget_append_below _ _ _ _ (fun x hx => by have := hm x hx; omega), ← kget_cellsFrom 0xFF a bs 0 (k + i)]
  congr 1
  omega

/-- A read whose bytes are known one by one. -/
theorem readVa_known (s : State) (p : Nat) (f : Nat → Byte) : ∀ n va, (∀ k, k < n → s.byteVa p (va + k) = .ok (f (va + k))) →
    s.readVa p va n = .ok ((List.range n).map (fun k => f (va + k))) := by
  intro n
  induction n with
  | zero => intro va _; rfl
  | succ n ih =>
    intro va h
    have h0 := h 0 (by omega)
    have h1 := ih (va + 1) (fun k hk => by have := h (k + 1) (by omega); rwa [show va + (k + 1) = va + 1 + k by omega] at this)
    rw [Nat.add_zero] at h0
    simp [State.readVa, h0, h1, List.range_succ_eq_map, Function.comp_def, Nat.add_assoc, Nat.add_comm 1]

/-! ### Smoke: one ill-formed command for each check, which the check refuses -/

theorem test_illFormed :
    [Instr.acmClear 64 0, .acmClear 0 2, .acmShift 0 2 0 0, .acmShift 0 0 0 32768, .stbLookup 16 ⟨0, false⟩, .stbLookup 0 ⟨1024, false⟩, .figureStart 4 0,
      .figureStart 0 (2 ^ 24), .jobOpen 16 0, .portRelock 48, .farLinkDown 2, .refresh 256, .repairStagingDone 8, .clmRelease 64,
      .credTakeGrant 0 16, .spmFill 0 0 4 0 0 0, .trainingFrame 0 1024 false, .latchedLoRead 16 0, .streamAccess 0 0 0 false 0 0 0,
      .streamAccess 0 60 5 false 0 0 0, .multicastStageIssue 0 1 1024 0 ⟨0, 0⟩, .lineDataValid 0 0 ⟨32768, 1⟩, .seqEvictCopyDone 65536, .coreProgressFail 4, .portLockLoss 0 ⟨0, []⟩, .linkTraining [(0, [])], .scanPattern ⟨[], (List.replicate 9 0), 0⟩,
      .creditFrame 0 0 0 4096 0, .probeFrame 0 256 0, .voteLatch 0 256, .partnerReply 0 0 0 4096 0, .partnerReply 0 0 0 0 2,
      .droopWarnStart 16, .dieTempRead 256, .stackTempRead 0 256, .hbmTraining (List.replicate 9 ⟨0, 0, []⟩),
      .selfTests ⟨[64], [], false⟩, .selfTests ⟨[], [16], false⟩, .hbmZeroInit [256], .flitReceive 0 ⟨[], 0, false, 0⟩,
      .acmDrain ⟨0, 0, 0, 100, 29, 0, .fp32, ⟨.rne, false, 0, 0⟩, ⟨0, 0, 0⟩, 0, none, none, []⟩, .translationPrefetch 0 8 0 0 0].all
        (fun i => !i.wellFormed) = true := by decide

/-- At the last value of each range the same commands pass. -/
theorem test_wellFormed :
    [Instr.acmClear 63 1, .acmShift 0 1 1 32767, .stbLookup 15 ⟨1023, false⟩, .figureStart 3 (2 ^ 24 - 1), .jobOpen 15 0, .portRelock 47,
      .farLinkDown 1, .refresh 255, .repairStagingDone 7, .clmRelease 63, .credTakeGrant 63 15, .spmFill 0 0 3 0 0 0,
      .trainingFrame 0 1023 false, .latchedLoRead 15 0, .streamAccess 0 60 4 false 0 0 0, .seqEvictCopyDone 65535, .coreProgressFail 3,
      .creditFrame 0 0 0 4095 0, .partnerReply 0 0 0 4095 1, .dieTempRead 255].all Instr.wellFormed = true := by decide

/-! ### The states of the witnesses -/

theorem test_up_sound : up.lockRefusal = none := by decide +kernel


/-! ### Witnesses: the whole machine and the tempo -/

theorem witness_StepRunsFront :
    { up with pending := [.beatInsert, .resetEntry] }.pending = Instr.beatInsert :: [.resetEntry] ∧ up.pending = [] := by decide +kernel

/-- A block whose front command is the heartbeat's. -/
def ticking : State := { up with pending := [.heartbeatTick 0] }

theorem witness_LockFreezes : ∃ t, ticking.prot.lock = true ∧ (∀ c, ticking.pending.head? = some c → resetting c = false)
    ∧ step ticking = .next t :=
  ⟨_, rfl, by intro c h; cases h; rfl, rfl⟩

theorem witness_LockedPassesChecks : ∃ t, ticking.prot.lock = true ∧ ticking.lockSound ∧ step ticking = .next t :=
  ⟨_, rfl, fun _ => by decide +kernel, rfl⟩

theorem witness_BeatCountRises : ∃ s t : State, s.beatSound ∧ s.countFits ∧ s.beat.frame = some (100, 7, 3)
    ∧ (∀ c, s.pending.head? = some c → resetting c = false) ∧ step s = .next t :=
  ⟨{ up with pending := [.beatInsert], beat := { up.beat with frame := some (100, 7, 3) } }, _, (by intro h; cases h),
    ⟨by decide +kernel, by intro f h; cases h; decide⟩, rfl, by intro c h; cases h; rfl, rfl⟩

theorem witness_BeatCountRises_first : ∃ s t : State, s.beat.acquired = false ∧ s.beatSound ∧ step s = .next t :=
  ⟨{ State.reset with pending := [.beatEdge 5] }, _, by decide +kernel, fun _ => by decide +kernel, rfl⟩

/-- ±50 ns of the predicted edge at 641,000 ns, and just outside; 1,024 inserted beats (R44, R45). -/
theorem witness_BeatUnitMoves :
    (up.pins.phase = .running ∧ { up.beat with lock := .unlocked }.lock = .unlocked)
    ∧ (up.beat.lock = .locked ∧ up.beat.lastPs + up.beat.periodPs ≤ 1000 * 640950 + 50000
        ∧ 1000 * 641050 ≤ up.beat.lastPs + up.beat.periodPs + 50000)
    ∧ (1000 * 640949 + 50000 < up.beat.lastPs + up.beat.periodPs ∧ up.beat.lastPs + up.beat.periodPs + 50000 < 1000 * 641051)
    ∧ { up.beat with inserted := 1023 }.inserted < 1024 ∧ 1024 ≤ { up.beat with lock := .holdover, inserted := 1024 }.inserted := by
  decide +kernel

/-- Partition 0 at schedule beat 150 with this Hold plan, in a Hold or not. -/
def tempoAt (hold : Bool) (pl : Option HoldPlan) : State :=
  (running (chorOf []) (runOf 0 [])).modPart 0 (fun q => { q with tempo := { q.tempo with hold := hold, plan := pl } })

/-- A schedule beat, the first Hold beat at a barrier and a later one (R65). -/
theorem witness_HoldArithmetic :
    (∀ h pl, ((tempoAt h pl).part 0).tempo.running = true ∧ ((tempoAt h pl).part 0).chor = some (chorOf []))
    ∧ ((tempoAt false none).part 0).tempo.base.toNat ≤ (tempoAt false none).beat.cnt.toNat
    ∧ (((tempoAt false none).part 0).tempo.advance 64 640).2 = .schedule
    ∧ (((tempoAt false (some ⟨150, 2, 0, 0⟩)).part 0).tempo.advance 64 640).2 = .holdFirst
    ∧ (((tempoAt true (some ⟨150, 2, 0, 1⟩)).part 0).tempo.advance 64 640).2 = .hold :=
  ⟨fun _ _ => ⟨rfl, rfl⟩, by decide +kernel⟩

/-- A beat-count frame of count 640 and period 1,000,000 ps with its CRC (R633). -/
def countFrame : BitVec 256 :=
  let w := 0x21 + 1000000 * 2 ^ 84 + 640 * 2 ^ 128
  BitVec.ofNat 256 (w + (crc32 (leBytes 28 w)).toNat * 2 ^ 224)

/-- `up` with port 0 UP. -/
def portUp : State := up.modPort 0 (fun q => { q with state := .up, width := 8, lanes := 0xFF, phyReset := false, peer := 3 })

/-- A LATE frame within its time, one of the beat before the last, and a Figure in its eighth fruitless Hold (R66, R67, R70). -/
theorem witness_TempoReports :
    let s := (running (chorOf [figOf 1 .transferOnly]) { runOf 1 [inWork 0] with lateHolds := [(0, 8)] }).modPort 0 (fun q => { q with state := .up })
    ((s.port 0).state.carries = true ∧ beatFrameOk countFrame = true)
    ∧ (s.beat.standalone = false ∧ s.portOwner 0 = some 0 ∧ (s.part 0).tempo.running = true ∧ (s.part 0).tempo.missedLate 149 = false
        ∧ (s.part 0).tempo.missedLate 148 = true)
    ∧ ∃ c r, (s.part 0).chor = some c ∧ (s.part 0).run = some r ∧ c.place 1 = some 0 ∧ 8 ≤ kget 0 r.lateHolds 0 := by
  refine ⟨?_, ?_, _, _, rfl, rfl, ?_, ?_⟩ <;> decide +kernel


/-! ### Witnesses: Figures -/

/-- Vote 1, latched at beat 90 with a result that is not clear. -/
def voted : Vote := ⟨1, 80, 90, 1, 1, 0xF, 0, 0, 0, true, some (1, 85), true⟩

/-- Partition 0 about to start the merge Figure, the first Figure of the list being done. -/
def starting (vote : Bool) : State :=
  running { chorOf [figOf 1 .transferOnly, mergeFig vote] with votes := [voted] } { runOf 1 [] with completed := [0] }

theorem witness_BarBoundary : up.beat.lock = .locked ∧ up.beat.cnt.toNat % 64 = 0 ∧ (up.part 0).acct.barBeat ≠ up.beat.cnt
    ∧ (up.part 3).acct.live.length = 7 := by decide +kernel

/-- A Figure that works, on one free Claim Counter, and one that its vote makes a no-write Figure. -/
theorem witness_FigureStarts : ∀ v : Bool, ∃ c r, ((starting v).part 0).chor = some c ∧ ((starting v).part 0).run = some r
    ∧ c.figures[r.next]? = some (mergeFig v) ∧ (mergeFig v).hdr.figId = 2 ∧ (starting v).mayStart 0 r (mergeFig v) = true
    ∧ earlierDone c r r.next (mergeFig v) = true ∧ (starting v).inputsValid 0 c r r.next (mergeFig v) = true
    ∧ (starting v).seqsReady 0 (mergeFig v) = true ∧ isNoWrite c (mergeFig v) = v
    ∧ (mergeFig v).works = true ∧ (starting v).figHealthy 0 (mergeFig v).hdr ≠ [] ∧ clmsOf (mergeFig v) ≤ ((starting v).freeClms 0).length
    ∧ ((starting v).plan 0 (mergeFig v) ((starting v).figHealthy 0 (mergeFig v).hdr).length none none).isSome = true
    ∧ (starting v).regionsReady 0 (mergeFig v).prog = true ∧ stateBaseOf (mergeFig v) = none := by
  intro v
  refine ⟨_, _, rfl, rfl, ?_⟩
  cases v <;> decide +kernel

/-- A finished merge Figure that has used counter 3, a Figure after it still to start. -/
def finishing : State :=
  (running (chorOf [figOf 1 .transferOnly, mergeFig false, figOf 3 .transferOnly])
    { runOf 2 [{ inWork 1 with clms := [3], total := 1, retired := 1 }] with completed := [0] }).setClm 3 ⟨true, 1, 1, [], [], 1, 2, 0, true, []⟩

theorem witness_FigureCompletes : ∃ c r a, (finishing.part 0).chor = some c ∧ (finishing.part 0).run = some r
    ∧ (finishing.part 0).active 2 = some a ∧ (finishing.part 0).figure a.fig = some (mergeFig false) ∧ a.aborting = none
    ∧ finishing.outputsDone 0 (mergeFig false) a = true ∧ a.bucketDone = true ∧ a.buckets.length ≤ a.bucketNow
    ∧ (∀ x ∈ c.xfers, x.srcFig = 2 → x.issued = true) ∧ c.chainsSent 2 = true
    ∧ (insAsc r.completed a.fig).length < c.figures.length ∧ r.stopNow = false := by
  refine ⟨_, _, _, rfl, rfl, rfl, ?_⟩
  decide +kernel

/-- The merge Figure to be aborted for this cause, another Figure being in progress. -/
def aborting (cause : AbortCause) : State :=
  running (chorOf [figOf 1 .transferOnly, mergeFig false]) (runOf 2 [inWork 0, { inWork 1 with aborting := some cause }])

theorem witness_FigureAborts : ∀ cause ∈ [AbortCause.spmParity 0 5, .faultAbort, .memUe], ∃ r a,
    ((aborting cause).part 0).run = some r ∧ ((aborting cause).part 0).active 2 = some a ∧ a.aborting = some cause
    ∧ abortGroup ((aborting cause).part 0) r a.fig = [(a, mergeFig false)] ∧ (mergeFig false).hdr.figId = 2
    ∧ causeReruns cause = decide (cause = .spmParity 0 5) ∧ causeStop cause = (if cause = .memUe then some 0x50 else none)
    ∧ r.stopNow = false ∧ r.active.any (fun x => !decide (x.fig = a.fig)) = true := by
  intro cause h
  simp only [List.mem_cons, List.not_mem_nil, or_false] at h
  obtain rfl | rfl | rfl := h <;> exact ⟨_, _, rfl, rfl, by decide +kernel⟩

/-- A Figure of this type in work, its first phase done. -/
def phased (par : FigParams) (a : RunFig) : State := running (chorOf [figOf 1 .transferOnly, figOf 2 par]) (runOf 2 [inWork 0, a])

def bwd0 : BwdExt := ⟨false, 0, 0, 0, 0, 0, 0, 0, 0, 0, false, 0, 0, 0, 0⟩

/-- A decode Figure that appends at its end, with everything retired. -/
def appending : State :=
  running (chorOf [{ figOf 2 (.decode attn0 (decode0 false)) with hdr := { (figOf 2 (.decode attn0 (decode0 false))).hdr with append := 2 } }])
    (runOf 1 [inWork 0])

theorem witness_FigurePhases :
    (∃ a f, ((phased (.backward attn0 bwd0) { inWork 1 with clms := [3, 4] }).part 0).active 2 = some a
      ∧ ((phased (.backward attn0 bwd0) { inWork 1 with clms := [3, 4] }).part 0).figure a.fig = some f ∧ f.par = .backward attn0 bwd0
      ∧ a.aborting = none ∧ a.phase = 0 ∧ a.noWrite = false ∧ a.firstDone = true)
    ∧ (∃ a f, ((phased (.decode attn0 (decode0 false)) (inWork 1)).part 0).active 2 = some a
      ∧ ((phased (.decode attn0 (decode0 false)) (inWork 1)).part 0).figure a.fig = some f ∧ f.par = .decode attn0 (decode0 false)
      ∧ (decode0 false).bucket = false ∧ a.aborting = none ∧ a.phase = 0 ∧ a.noWrite = false ∧ a.firstDone = true)
    ∧ (∃ a, ((phased (.decode attn0 (decode0 true)) { inWork 1 with buckets := [⟨0, 1, 1, [⟨0, 0, 0⟩]⟩] }).part 0).active 2 = some a
      ∧ a.buckets[a.bucketNow]? = some ⟨0, 1, 1, [⟨0, 0, 0⟩]⟩ ∧ a.bucketDone = true
      ∧ (phased (.decode attn0 (decode0 true)) { inWork 1 with buckets := [⟨0, 1, 1, [⟨0, 0, 0⟩]⟩] }).storing 0 2 = false
      ∧ appendsDone (figOf 2 (.decode attn0 (decode0 true))) a 1 = true)
    ∧ (∃ a f, (appending.part 0).active 2 = some a ∧ (appending.part 0).figure a.fig = some f ∧ f.hdr.append = 2
      ∧ a.total ≤ a.retired ∧ a.appended = false ∧ a.noWrite = false ∧ a.aborting = none) := by
  refine ⟨⟨_, _, rfl, rfl, rfl, ?_⟩, ⟨_, _, rfl, rfl, rfl, ?_⟩, ⟨_, rfl, ?_⟩, ⟨_, _, rfl, rfl, ?_⟩⟩ <;> decide +kernel

/-- A step state record whose growth falls due, and one whose does not (R221). -/
theorem witness_ControlOperations_scaleStep :
    let x (g : Nat) : StepState := { StepState.ofBytes [] with growth := g, good := 1 }
    ((x 2).growth ≠ 0 ∧ ((x 2).good + 1) % 2 ^ 32 = (x 2).growth)
    ∧ ¬ ((x 3).growth ≠ 0 ∧ ((x 3).good + 1) % 2 ^ 32 = (x 3).growth) := by decide +kernel

theorem witness_ControlOperations :
    (let s := mapped (running { chorOf [figOf 1 (.scaleStep 64)] with votes := [voted] } (runOf 1 [inWork 0]))
     ∃ a c f bs, (s.part 0).active 1 = some a ∧ (s.part 0).chor = some c ∧ (s.part 0).figure a.fig = some f ∧ a.aborting = none
      ∧ a.opDone = false ∧ f.par = .scaleStep 64 ∧ s.table 0 64 40 = some bs ∧ (governing c f.hdr).any (·.latched) = true)
    ∧ (let s := ((running (chorOf [figOf 1 (.kvCommit 64)]) (runOf 1 [inWork 0])).setSeq 5 seq5).modPart 0 (fun q => { q with
        reserved := [⟨64, [(5, 30, true)]⟩] })
      ∃ a c f, (s.part 0).active 1 = some a ∧ (s.part 0).chor = some c ∧ (s.part 0).figure a.fig = some f ∧ f.par = .kvCommit 64
      ∧ (s.part 0).reserved = [⟨64, [(5, 30, true)]⟩] ∧ s.seqLive 0 5 = true)
    ∧ (let s := running (chorOf [figOf 1 (.resReload 2)]) (runOf 1 [inWork 0])
      ∃ a c f, (s.part 0).active 1 = some a ∧ (s.part 0).chor = some c ∧ (s.part 0).figure a.fig = some f ∧ f.par = .resReload 2) := by
  refine ⟨⟨_, _, _, List.replicate 40 0, rfl, rfl, rfl, rfl, rfl, rfl, ?_⟩, ⟨_, _, _, rfl, rfl, rfl, rfl, rfl, ?_⟩, ⟨_, _, _, rfl, rfl, rfl, rfl⟩⟩
    <;> decide +kernel

/-! ### Witnesses: the array and the VU -/

/-- Where G ≤ E, where E < G with no remainder, and a tie (R135). -/
theorem witness_AccumulationExact_placement : (0 : Int) ≤ 3 ∧ (0 : Int) < 2 ∧ (4 ∣ (8 : Int))
    ∧ 2 * |(6 : Int) - (placeOn 6 0 2).1 * 2 ^ (2 - 0 : Int).toNat| = 2 ^ (2 - 0 : Int).toNat := by decide +kernel

/-- One-piece operands of one element each: a sum inside the range, one above and one below it (R137). -/
theorem witness_AccumulationExact :
    let a : Grp := ⟨[[5]], 0, [], [5]⟩
    let b : Grp := ⟨[[-2]], 0, [], [-2]⟩
    a.ps = [[5]] ∧ b.ps = [[-2]] ∧ (∀ k, k < 32 → nth a.tags k = 0) ∧ (-110 : Int) ≤ a.e + b.e
    ∧ accMin ≤ 0 + dot [5] [-2] * 2 ^ (a.e + b.e - -110).toNat ∧ 0 + dot [5] [-2] * 2 ^ (a.e + b.e - -110).toNat ≤ accMax
    ∧ accMin + dot [5] [-2] * 2 ^ (a.e + b.e - -110).toNat < accMin ∧ accMax < accMax + dot [5] [2] * 2 ^ (a.e + b.e - -110).toNat := by
  decide +kernel

/-- Core 0 holding the one item of this Figure, of shape 100 × 50 × 64, with nothing of it issued. -/
def denState : State :=
  ((writeVa 0 false 4096 (leBytes 4 100 ++ leBytes 4 50 ++ leBytes 4 64 ++ leBytes 4 0)
    (mapped (running (chorOf [denFig]) (runOf 1 [{ inWork 0 with clms := [3], items := [⟨0, 0, 0⟩], total := 1 }])))).modCore 0 (fun c =>
      { c with slot0 := ⟨some (0, 1), Flags.none, Flags.none, none, [], none, []⟩, held := [(3, 0)], spm := [(0, 0x38), (1, 0xB8)] })).setClm 3
        ⟨true, 1, 1, [], [], 0, 1, 0, true, []⟩

/-- Its product on two K-steps, as the item issues first, and on three, as it never does. -/
def denOp (steps : BitVec 64) : Option ArrayOp := arrayDecode denState.cfg.spmRows (steps * 2 ^ 16) 0x800000000

/-- Its drain as BF16 to row 40. -/
def denDrain : DrainOp := ⟨0, 0, 0, 0, 128, 40, .bf16, ⟨.rne, false, 0, 0⟩, ⟨0, 0, 0⟩, 0x3F800000, none, none, []⟩

/-- The same item with its product done. -/
def denDone : State := (primeItem 0 denState).modCore 0 (fun c => { c with slot0 := { c.slot0 with todo := c.slot0.todo.drop 1, sb := some 0 } })

/-- An operation on rows 0 and 8, one that sets K-steps to 0, and one whose slab passes the last row (R128, R130). -/
theorem witness_ArrayOperation : working.issuing 0 0 = some (0, 1)
    ∧ (arrayDecode working.cfg.spmRows 0x10000 0x800000000).isSome = true
    ∧ (arrayDecode working.cfg.spmRows 0x0050000000010000 0x800000000).isSome = true
    ∧ arrayDecode working.cfg.spmRows 0x0 0x800000000 = none
    ∧ (arrayDecode working.cfg.spmRows 0x10000 0x5FF800000000).isSome = true
    ∧ arrayDecode working.cfg.spmRows 0x10000 0x5FF900000000 = none
    ∧ (arrayDecode working.cfg.spmRows 0x10000 0x800000000).any (fun o => ((working.admitMxa 0 0 o).runs working).any (·.1.isNone)) = true
    ∧ denState.issuing 0 0 = some (0, 1)
    ∧ (denOp 2).any (fun o => ((denState.admitMxa 0 0 o).runs denState).any (·.1.isSome)) = true
    ∧ (denOp 3).any (fun o => ((denState.admitMxa 0 0 o).runs denState).isNone) = true := by decide +kernel

/-- A drain of every row of bank 1 as FP32. -/
def drain0 : DrainOp := ⟨0, 0, 1, 0, 128, 32, .fp32, ⟨.rne, false, 0, 0⟩, ⟨0, 0, 0⟩, 0x3F800000, none, none, []⟩

/-- The same as XS128 with row scales in row 200, its scalar 1.0 or not. -/
def drainRs (mul : BitVec 32) : DrainOp := { drain0 with count := 2, dst := .xs128, mul := mul, rsRow := some 200 }

theorem witness_AcmDrains : working.issuing 0 0 = some (0, 1) ∧ drainOk drain0 = true ∧ drain0.rsRow = none ∧ working.rsMulOk drain0 = true
    ∧ ((working.admitDrain drain0).runs working).isSome = true
    ∧ drainOk (drainRs 0x3F800000) = true ∧ working.rsMulOk (drainRs 0x3F800000) = true ∧ working.rsMulOk (drainRs 0x40000000) = false
    ∧ ¬ 200 ∈ rowsOf (512 * 32) (2 * 128 * 16) ∧ ((working.admitDrain (drainRs 0x3F800000)).runs working).isSome = true
    ∧ denDone.issuing 0 0 = some (0, 1) ∧ drainOk denDrain = true
    ∧ ((denDone.admitDrain denDrain).runs denDone).any (·.1.isSome) = true
    ∧ ((denDone.admitDrain { denDrain with dst := .fp32 }).runs denDone).isNone = true := by decide +kernel

/-- Fills on the least and the greatest grid (R142). -/
theorem witness_AcmBanks : working.issuing 0 0 = some (0, 1)
    ∧ ((working.admitFill ⟨0, 0, 1, 0, .fp32, none, -16432⟩).runs working).isSome = true
    ∧ ((denState.admitFill ⟨0, 0, 1, 0, .fp32, none, -16432⟩).runs denState).isNone = true
    ∧ ((working.admitShift 0 0 1 16).runs working).isSome = true ∧ ((denState.admitShift 0 0 1 16).runs denState).isNone = true ∧ (-16432 : Int) ≤ -16432 ∧ (16335 : Int) ≤ 16335
    ∧ (working.core 0).fenced = false ∧ (working.core 0).halted = false := by decide +kernel

theorem witness_E4m3Conventions : fld 0x77 3 4 ≠ 15 ∧ fld 0xF0 3 4 ≠ 15 ∧ working.issuing 0 0 = some (0, 1) := by decide +kernel

/-- Two rows of a Figure without a length table, from any position. -/
def rope0 : RopeOp := ⟨0, 0, .bf16, ⟨.rne, false, 0, 0⟩, ⟨0, 0, 0⟩, false, 2, 8, 0, 8, 9, false, 0, 12, .bf16⟩

theorem witness_RopeAndSplit : working.issuing 0 0 = some (0, 1) ∧ working.ropeOk rope0 = true ∧ piecesOf .bf16 = some 2 ∧ piecesOf .fp32 = some 3 := by decide +kernel

theorem witness_VuOperations : working.issuing 0 0 = some (0, 1)
    ∧ ((working.admission 0 0 0 (fun _ => .resetRows true) []).runs working).isSome = true ∧ vuFmt .fp16 = some fFP16 ∧ vuRndOk true .rup = true
    ∧ vuRndOk false .rtz = true := by decide +kernel

/-- An optimiser Figure on BF16 parameters, with compensation terms or not. -/
def optPar (comp : Bool) : OptParams := ⟨7, 8, comp, false, 0, 0, 0, 0x3C000000, 0x322BCC77, 0, 64⟩

def adam0 : AdamOp := ⟨0, 0, ⟨0, 0, 0⟩, 8, 0, 0, 40, 44, 48, 49, 52, 53⟩

theorem witness_OptAdamRuns : ∀ comp, ∃ a f, (mapped (issuing (.optimiser (optPar comp)))).issuing 0 0 = some (0, 1)
    ∧ ((mapped (issuing (.optimiser (optPar comp)))).part 0).active 1 = some a
    ∧ ((mapped (issuing (.optimiser (optPar comp)))).part 0).figure a.fig = some f ∧ f.par = .optimiser (optPar comp)
    ∧ (mapped (issuing (.optimiser (optPar comp)))).readVa 0 ((optPar comp).stateBase % 2 ^ 52) 40 = .ok (List.replicate 40 0)
    ∧ fmtOf (optPar comp).gFmt = some .fp32 ∧ fmtOf (optPar comp).thetaFmt = some .bf16 ∧ vuFmt .bf16 = some fBF16 := by
  intro comp
  refine ⟨_, _, ?_, rfl, rfl, rfl, ?_⟩ <;> cases comp <;> decide +kernel


/-! ### Witnesses: claims and Scratchpads -/

/-- A queue of returned items, and a counter with committed items ahead. -/
theorem witness_ClaimsTakeInOrder :
    let k : Clm := ⟨true, 9, 3, [1], [], 0, 1, 0, false, []⟩
    0 < 1 ∧ k.next ≤ k.limit ∧ k.queue ≠ [] ∧ (takeItems k [3, 5] 1).1 = [1] ∧ (takeItems k [3, 5] 3).1 = [4, 6, 7] := by decide +kernel

/-- The merge Figure in work on counter 3, which is in this state; core 0 holds `held` and has issued all of item 0. -/
def claiming (k : Clm) (held : List (Nat × Nat)) (committed : List (Nat × Nat)) : State :=
  ((running (chorOf [mergeFig false]) (runOf 1 [{ inWork 0 with clms := [3], total := 4, committed := committed }])).setClm 3 k).modCore 0
    (fun c => { c with held := held, slot0 := ⟨some (0, 2), ⟨false, false, true, false⟩, Flags.none, some (0, 0), [], none, []⟩ })

def loaded3 : Clm := ⟨true, 4, 1, [], [], 0, 2, 0, false, []⟩

theorem witness_ClaimCounters :
    (let s := claiming Clm.clear [] []
     ∃ a f, s.clmFig 3 = some (a, f) ∧ (s.clm 3).loaded = false ∧ a.aborting = none ∧ loadDue f a 3 = true)
    ∧ (let s := claiming loaded3 [(3, 0)] []
     ∃ a f, s.clmFig 3 = some (a, f) ∧ (s.core 0).fenced = false ∧ (s.core 0).halted = false ∧ s.pmu.dieLevel ≠ 2
      ∧ (s.figCores (3 / 16) f.hdr).contains 0 = true ∧ a.aborting = none ∧ (s.core 0).poisoned = false ∧ appendsDone f a 1 = true
      ∧ (s.clm 3).loaded = true ∧ a.claimants f 0 1 = some [0]
      ∧ (∀ d ∈ [0], ((s.core d).held.filter (fun h => decide (h.1 = 3))).length < 2)
      ∧ (s.core 32).fenced = false ∧ (s.core 32).halted = false ∧ (s.figCores (3 / 16) f.hdr).contains 32 = false) := by
  refine ⟨⟨_, _, rfl, ?_⟩, ⟨_, _, rfl, ?_⟩⟩ <;> decide +kernel

theorem witness_ItemsRetire :
    (let s := claiming loaded3 [(3, 0)] []
     ∃ a f, s.clmFig 3 = some (a, f) ∧ (∀ x, f.par ≠ .attn x) ∧ s.commitGroup (3 / 16) a = [(a, f)]
      ∧ (s.part (3 / 16)).active f.hdr.figId = some a ∧ (s.core 0).fenced = false ∧ (s.core 0).halted = false ∧ s.pmu.dieLevel ≠ 2
      ∧ (s.core 0).poisoned = false ∧ (s.core 0).held.contains (3, 0) = true ∧ a.committed.contains (itemKey f a 3, 0) = false
      ∧ (primeItem 0 s).itemFinished 0 (itemKey f a 3) 0 = true)
    ∧ (let s := claiming loaded3 [(3, 0)] [(0, 0)]
     ∃ a f, s.clmFig 3 = some (a, f) ∧ (s.core 0).held.contains (3, 0) = true ∧ a.committed.contains (itemKey f a 3, 0) = true
      ∧ s.storeWaits 0 (3 / 16) f.hdr.figId = false)
    ∧ (∀ n ∈ [0, 128], let s := claiming { loaded3 with limit := 200, next := 200, queue := (List.range n).map (· + 1) } [] []
     ∃ a f, s.clmFig 3 = some (a, f) ∧ (s.clm 3).loaded = true ∧ 0 < (s.clm 3).next ∧ a.committed.contains (itemKey f a 3, 0) = false
      ∧ (s.clm 3).queue.contains 0 = false ∧ (s.clm 3).kept.contains 0 = false ∧ (s.clm 3).queue.length = n
      ∧ (∀ c ∈ s.partCores (3 / 16), (s.core c).fenced = false → (s.core c).held.contains (3, 0) = false))
    ∧ (let s := claiming { loaded3 with signalled := true } [] []
     (s.clm 3).loaded = true ∧ (s.clm 3).signalled = true) := by
  refine ⟨⟨_, _, rfl, nofun, ?_⟩, ⟨_, _, rfl, ?_⟩, ?_, ?_⟩
  · decide +kernel
  · decide +kernel
  · intro n h
    simp only [List.mem_cons, List.not_mem_nil, or_false] at h
    obtain rfl | rfl := h <;> exact ⟨_, _, rfl, by decide +kernel⟩
  · decide +kernel

/-- Cores 0 and 1 at work on one row tile of a dense Figure, with stream 4 of core 0, which brings its A slab to both. -/
def casting (staged : List Nat) : State :=
  let holds (i : Nat) (c : Core) : Core := { c with held := [(3, i)], staged := staged }
  { ((running (chorOf [denFig]) (runOf 1 [{ inWork 0 with clms := [3], items := [⟨0, 0, 0⟩, ⟨0, 0, 1⟩], total := 2, gangs := [[0, 1]] }])).modCore 0
      (holds 0)).modCore 1 (holds 1) with
    streams := [(4, { Stream.unbound with
      bound := true, fig := 1, role := roleA, mcast := [0, 1]
      lines := [⟨64, 16, false, 0, 2048, 0, none, some (List.replicate 16 7), false⟩] })] }

/-- The last row of a 12 MiB Scratchpad, and one row past it. -/
theorem witness_ScratchpadWrites :
    (∀ g ∈ [[], [4]], (casting g).tileComes 4 0 2 = true ∧ (casting g).castsTiles 4 = true
      ∧ (casting g).tileLines 4 0 = [⟨64, 16, false, 0, 2048, 0, none, some (List.replicate 16 7), false⟩]
      ∧ ((casting g).stream 4).conv = .raw ∧ ((casting g).stream 4).mcast = [0, 1] ∧ ((casting g).core 1).staged = g
      ∧ rowsOf 2048 16 = [4] ∧ ((casting g).core 1).fenced = false) ∧ working.issuing 0 0 = some (0, 1) ∧ working.channelFree 0 3 = true ∧ rowCountOk 1 = true
    ∧ working.rowsOn 0 24575 1 = true ∧ working.rowsOn 0 24576 1 = false ∧ working.rowsOn 0 0 1 = true := by decide +kernel

/-- Core 0's window 2 over rows 8 to 15, `avail` rows free, for core 1. -/
def windowed (avail : Nat) (waiting : List (Nat × Nat × Nat)) : State :=
  working.modCore 1 (fun c => { c with slot0 := ⟨some (0, 1), Flags.none, Flags.none, none, [], none, []⟩ }) |>.modCore 0 (fun c => { c with
    windows := [(2, ⟨true, 0, 1, 8, 8, false, 1, avail, waiting, []⟩)] })

theorem witness_ReceiveWindows :
    (let s := windowed 8 []
     let x := kget Window.closed (s.core 0).windows 2
     x.isOpen = true ∧ (s.core 1).fenced = false ∧ (s.core 1).halted = false ∧ s.channelFree 1 0 = true ∧ x.waiting = [] ∧ 8 ≤ x.avail
      ∧ ¬ (x.waiting = [] ∧ 9 ≤ x.avail) ∧ s.issuing 0 0 = some (0, 1) ∧ x.rows < x.avail + 1
      ∧ s.writerFig 1 0 2 = some (0, 1) ∧ s.windowOk 1 0 2 15 = true ∧ s.windowOk 1 0 2 16 = false ∧ s.windowOk 1 0 2 7 = false)
    ∧ (let x := kget Window.closed ((windowed 3 [(1, 0, 3), (1, 2, 1)]).core 0).windows 2
     x.waiting = (1, 0, 3) :: [(1, 2, 1)] ∧ x.isOpen = true ∧ 3 ≤ x.avail) := by decide +kernel


/-! ### Witnesses: streams -/

/-- A uTLB miss, a hit that has a place and one that has none: a cached leaf of another page than region 0's (R379, R387). -/
theorem witness_StreamAccesses :
    let e : TlbEntry := ⟨0, 0, leaf0, 0⟩
    let far : TlbEntry := ⟨0, 0, { leaf0 with target := 9 }, 0⟩
    let s (l : List TlbEntry) := streaming (load4 []) l [] []
    let hit (l : List TlbEntry) := ((s l).utlb 0 0).find? (fun e => e.holds 0 (48 : VA).toNat && e.leaf.permits false)
    (s []).mayIssue 4 = true ∧ kindMay .tileLoad false = true ∧ kindTranslated .tileLoad = true ∧ ((s []).stream 4).lines = []
    ∧ (s []).accessOk (load4 []) 48 16 false = true ∧ (s []).gathers (load4 []) 48 0 = true ∧ (s []).storesOpen (load4 []) = true ∧ (s []).engineLines 0 0 < 512 ∧ (48 : VA).toNat % 64 + 16 ≤ 64 ∧ hit [] = none
    ∧ hit [e] = some e ∧ (s [e]).locOf e.base e.leaf (48 : VA).toNat = some (.hbm 0 48)
    ∧ hit [far] = some far ∧ (s [far]).locOf far.base far.leaf (48 : VA).toNat = none := by decide +kernel

theorem witness_WalksAndFaults :
    (let s := streaming (load4 [line0 48]) [] [⟨0, 0, leaf0, 0⟩] []
     s.waitingLine 4 = some (0, line0 48) ∧ (s.stream 4).bound = true ∧ s.mayIssue 4 = true ∧ (s.stream 4).core / 4 = 0
      ∧ (s.unit 0).walks = [] ∧ (s.unit 0).stb.find? (fun e => e.holds 0 48) = some ⟨0, 0, leaf0, 0⟩ ∧ leaf0.permits false = true
      ∧ s.locOf 0 leaf0 48 = some (.hbm 0 48))
    ∧ (let s := streaming (load4 [line0 48]) [] [] []
     s.waitingLine 4 = some (0, line0 48) ∧ (s.unit 0).stb.find? (fun e => e.holds 0 48) = none ∧ (s.unit 0).walks.length < 16)
    ∧ (∀ st : Bool, let s := streaming (load4 [line0 48]) [] [] [⟨0, 0, [4], false, st⟩]
     s.waitingLine 4 = some (0, line0 48) ∧ (s.unit 0).walks.find? (fun w => w.streams.contains 4) = some ⟨0, 0, [4], false, st⟩
      ∧ (s.part 0).space.walk 48 = .leaf 0 leaf0 ∧ s.leafOk 0 leaf0 = true ∧ leaf0.permits false = true)
    ∧ (∀ second : Bool, let s := streaming (load4 [line0 (2 ^ 26)]) [] [] [⟨0, 2, [4], second, false⟩]
     s.waitingLine 4 = some (0, line0 (2 ^ 26)) ∧ (s.unit 0).walks = [⟨0, 2, [4], second, false⟩]
      ∧ (s.part 0).space.walk (2 ^ 26) = .unmapped ∧ s.faults.entries.length < 512) := by
  refine ⟨?_, ?_, ?_, ?_⟩
  · decide +kernel
  · decide +kernel
  · intro st; cases st <;> decide +kernel
  · intro second; cases second <;> decide +kernel

/-- A store of a poisoned core and one of a Figure to abort, and a lookup whose STB entry fails its parity. -/
theorem witness_DetectionsHoldBack :
    (let s := (streaming { load4 [] with kind := .tileStore } [] [] []).modCore 0 (fun c => { c with poisoned := true })
     ∃ a, (s.part 0).active 1 = some a ∧ (s.core 0).poisoned = true ∧ s.storesOpen (s.stream 4) = false)
    ∧ (let s := (running (chorOf [figOf 1 .transferOnly]) (runOf 1 [{ inWork 0 with aborting := some .memUe }]))
     ∃ a, (s.part 0).active 1 = some a ∧ a.aborting.isSome = true ∧ s.storesOpen { load4 [] with kind := .tileStore } = false)
    ∧ (let s := streaming (load4 [line0 48]) [] [⟨0, 0, leaf0, 0⟩] []
     s.waitingLine 4 = some (0, line0 48) ∧ (s.stream 4).bound = true ∧ s.mayIssue 4 = true ∧ (s.stream 4).core / 4 = 0
      ∧ (s.unit 0).walks = [] ∧ kindTranslated (s.stream 4).kind = true ∧ (s.unit 0).walks.length < 16
      ∧ (s.unit 0).stb.find? (fun e => e.holds 0 48) = some ⟨0, 0, leaf0, 0⟩) := by
  refine ⟨⟨_, rfl, ?_⟩, ⟨_, rfl, ?_⟩, ?_⟩ <;> decide +kernel

/-- A queued fault of stream 4, with a parked stream 5 whose access is legal on mapped memory, a parked stream 6 whose access is not, or
none. -/
def faulted (parking : List Nat) : State :=
  ({ up with
    faults := { up.faults with entries := [⟨1, 4, 0, 0, 0, false, .notMapped, 2 ^ 26⟩], parking := parking }
    streams := [(4, { load4 [] with suspended := some (2 ^ 26, false, .notMapped), queued := true }),
      (5, { load4 [] with suspended := some (48, false, .notMapped), parked := true }),
      (6, { load4 [] with suspended := some (2 ^ 26, false, .notMapped), parked := true })] }).modRing 0 (fun g => { g with state := .ready })

theorem witness_FaultsServed :
    (∃ e, (faulted []).faults.entries = e :: [] ∧ (faulted []).fwRunning = true ∧ (faulted []).faults.parking = []
      ∧ (faulted []).eventRing e.part = some 0 ∧ (faulted []).eventRoom 0 = true ∧ (faulted []).faultsWait e.part = false)
    ∧ (mapped (faulted [5])).faults.parking = 5 :: [] ∧ (mapped (faulted [5])).legalNow 5 = true
    ∧ ((faulted [6]).faults.parking = [6] ∧ ((faulted [6]).stream 6).suspended = some (2 ^ 26, false, .notMapped) ∧ (faulted [6]).legalNow 6 = false)
    ∧ (let s := streaming (load4 []) [] [] []
      s.mayIssue 4 = true ∧ 0 < 2 ^ 25 ∧ (0 : VA).toNat % 2 ^ 25 + 2 ^ 25 ≤ 2 ^ 25 ∧ (s.part 0).space.walk 0 = .leaf 0 leaf0
        ∧ s.leafOk 0 leaf0 = true ∧ leaf0.rd = true ∧ leaf0.wr = true ∧ (s.part 0).space.walk (2 ^ 26) = .unmapped) := by
  refine ⟨⟨_, rfl, ?_⟩, ?_⟩ <;> decide +kernel

theorem witness_DataAndMappingsLand :
    (let s := streaming (load4 [{ line0 48 with data := some (List.replicate 16 9) }]) [] [] []
     ∃ x, (s.stream 4).lines.filter (fun y => !y.write && decide (y.tile = 0)) = [x] ∧ x.data = some (List.replicate 16 9)
      ∧ (s.stream 4).bound = true ∧ (s.stream 4).kind = .tileLoad ∧ (s.stream 4).conv = .raw ∧ (s.stream 4).ready.contains 0 = false
      ∧ s.castsTiles 4 = false ∧ s.rowOn 0 1 = true)
    ∧ (let s := waitingFor 0x301 (.invalidate 1) up
     (s.part 0).waiting = [] ++ ⟨0, 3, .invalidate 1⟩ :: [] ∧ (s.ring 0).find 3 = some (open3 0x301)
      ∧ s.inFlight 0 (mapRange (open3 0x301).image).1 (mapRange (open3 0x301).image).2 = false)
    ∧ (let s := (waitingFor 0x303 (.migrate 0) (mapped up)).modPart 0 (fun q => { q with
        space := { q.space with moving := [⟨0, { leaf0 with target := 1 }⟩] } })
     (s.part 0).space.moving.find? (fun m => decide (m.va = (0 : VA).toNat)) = some ⟨0, { leaf0 with target := 1 }⟩
      ∧ s.asleep = false ∧ s.inFlight 0 0 (2 ^ 25) = false ∧ kget none (s.part 0).space.leaves (pageKey 0) = some leaf0
      ∧ (s.part 0).waiting.filter (fun w => decide (w.what = .migrate (0 : VA).toNat)) = [⟨0, 3, .migrate 0⟩]
      ∧ ((s.ring 0).find 3).isSome = true) := by
  refine ⟨⟨_, rfl, ?_⟩, ?_, ?_⟩ <;> decide +kernel


/-! ### Witnesses: the key/value cache -/

/-- A page of 2^6 tokens at `first`, in frame `f`. -/
def page6 (first f : Nat) : Page := ⟨false, false, true, 0, 0, 6, first, f⟩

/-- Stream 4 as a KV stream of core 0 on sequence 5, which has two pages; this KVLB and these walks in Set 0. -/
def walking (lb : List KvlbEntry) (ws : List KvWalk) : State :=
  ((streaming { load4 [] with kind := .kv } [] [] []).setSeq 5 { seq5 with resEnd := 128, pages := [page6 0 0, page6 64 1] }).setUnit 0
    { SetUnits.reset with kvlb := lb, kvWalks := ws }

/-- Tokens 64 and 127 of the second page, token 128 past the end, a sequence that is not open, and the walk that finds a page. -/
theorem witness_PageWalks :
    (walking [] []).kvStream 0 4 = true ∧ ((walking [] []).unit 0).fenced = false ∧ ((walking [] []).unit 0).kvWalks = []
    ∧ (∀ tok ∈ [64, 127, 128], ∀ ahead, (walking [] []).looksFor 0 ((walking [] []).lookWork 0 ahead) 5 tok = true)
    ∧ (walking [] []).looksFor 0 ((walking [] []).lookWork 0 false) 6 0 = true
    ∧ (let e : KvlbEntry := ⟨5, page6 64 1⟩
      let hit (tok : Nat) := ((walking [e] []).unit 0).kvHit 5 tok
      hit 64 = some e ∧ hit 127 = some e ∧ hit 63 = none ∧ hit 128 = none ∧ (walking [e] []).walkDenied 0 5 64 = none)
    ∧ (walking [] []).walkDenied 0 5 128 = some 1 ∧ (walking [] []).walkDenied 0 6 0 = some 0 ∧ (walking [] []).walkDenied 0 5 127 = none
    ∧ (let s := walking [] [⟨4, 5, 64, false, (0, 0)⟩]
      (s.unit 0).kvWalks.find? (fun w => decide (w.stream = 4)) = some ⟨4, 5, 64, false, (0, 0)⟩ ∧ kget none (s.unit 0).cursors 4 = none
      ∧ s.walkDenied 0 5 64 = none ∧ (s.seq (seqSlot 5)).pages[1]? = some (page6 64 1) ∧ (s.seq (seqSlot 5)).pages.length ≤ 4096
      ∧ (page6 64 1).valid = true ∧ (page6 64 1).kFmt = (s.seq 5).kFmt ∧ (page6 64 1).far = false
      ∧ (s.seq 5).pages.map (fun g => decide (g.firstToken ≤ 64)) = [true, true]) := by decide +kernel

/-- The append of core 0 that its Figure asks for: 8 tokens at 40. -/
def appends0 (sid : BitVec 20) : AppendOp := ⟨0, 0, 0, sid, 0, none, 40, 8, .bf16, ⟨.rne, false, 0, 0⟩, 0, 1⟩

/-- A decode Figure of one entry, sequence `sid`, with 8 new BF16 tokens at 40, its append phase open, and sequence 5 live. -/
def appending5 (sid : BitVec 64) : State :=
  let f : Figure := { figOf 1 (.decode attn0 (decode0 false)) with
    list := some ⟨1, 0, 0, [⟨0, 0, 0, roleSeq, 0, 0, 0, false⟩, ⟨0, 0, 0, roleNew, 0, 0, 7, false⟩], [[sid, 0]]⟩ }
  (writeVa 0 false 0 (leBytes 4 8 ++ leBytes 4 48 ++ leBytes 4 40 ++ leBytes 4 0)
    (mapped (running (chorOf [f]) (runOf 1 [{ inWork 0 with appended := true, appendLeft := [(0, none)] }])))).modCore 0 (fun c => { c with
      slot0 := ⟨some (0, 1), Flags.none, Flags.none, none, [], none, []⟩ }) |>.setSeq 5 seq5

theorem witness_AppendsKeepLen : ∀ sid ∈ [5, 6],
    ∃ a f, (appending5 sid).issuing 0 0 = some (0, 1) ∧ ((appending5 sid).part 0).active 1 = some a
    ∧ ((appending5 sid).part 0).figure a.fig = some f ∧ (appending5 sid).appendDue 0 f (appends0 (sid.setWidth 20)) = true
    ∧ a.appended = true ∧ a.appendLeft.contains (0, none) = true ∧ appendSrcOk .bf16 = true
    ∧ (appending5 sid).seqLive 0 (sid.setWidth 20) = decide (sid = 5) := by
  intro sid h
  simp only [List.mem_cons, List.not_mem_nil, or_false] at h
  obtain rfl | rfl := h <;> exact ⟨_, _, by decide +kernel, rfl, rfl, by decide +kernel⟩

/-- Slot 5 with this state, command 3 of ring 0 waiting for `w`, no Figure in progress. -/
def quietAt (w : Wait) (d : Seq) : State := (waitingFor 0x204 w up).setSeq 5 d

theorem witness_QuietPointApplies :
    (running (chorOf [figOf 1 .transferOnly]) (runOf 1 [inWork 0])).quiet 0 = false
    ∧ (∀ w d, (quietAt w d).fwRunning = true ∧ ((quietAt w d).part 0).waiting = [⟨0, 3, w⟩])
    ∧ (let s := quietAt (.trim 5 40) seq5
      s.quiet 0 = true ∧ ((s.ring 0).find 3).isSome = true ∧ (s.seq 5).state = .opened ∧ 40 ≤ (s.seq 5).len
      ∧ (blockCode (s.seq 5).vFmt = true → 40 % 32 = 0))
    ∧ (let s := quietAt (.close 5) seq5
      s.quiet 0 = true ∧ (s.seq 5).state ≠ .free)
    ∧ (let s := quietAt (.evict 5) { seq5 with state := .evicting, copied := true }
      s.quiet 0 = true ∧ (s.seq 5).state = .evicting ∧ (s.seq 5).copied = true) := by
  refine ⟨?_, fun _ _ => ⟨rfl, rfl⟩, ?_⟩ <;> decide +kernel

/-- Slot 5 with one page in HBM frame 1 or far frame 0, to move to frame 0 of the other arena. -/
def moving5 (x : SeqState) : State :=
  (modKv 0 (fun _ => ⟨⟨0, 4096, [(0, .held 5), (1, .held 5)]⟩, ⟨2 ^ 25, 4096, [(0, .held 5)]⟩, 8⟩) (mapped up)).setSeq 5
    { seq5 with state := x, len := 64, pages := [{ page6 0 (if x = .evicting then 1 else 0) with far := decide (x = .restoring) }], target := [0] }

theorem witness_SequencesMove :
    ((moving5 .evicting).asleep = false ∧ (moving5 .restoring).asleep = false)
    ∧ (((moving5 .evicting).seq 5).state = .evicting ∧ ((moving5 .evicting).seq 5).copied = false)
    ∧ (let s := moving5 .restoring
      (s.seq 5).state = .restoring ∧ (∀ x ∈ copyRuns (s.seq 5), s.badLine 0 ((s.part 0).kv.far.va x.1) (128 * x.2.2) = none))
    ∧ (let s := (moving5 .restoring).modFar 0 (fun f => { f with poison := [2 ^ 25 * 64 / 64] })
      (0, 0, 1) ∈ copyRuns (s.seq 5) ∧ s.badLine 0 ((s.part 0).kv.far.va 0) (128 * 1) = some (.far 0 (2 ^ 31)))
    ∧ (let s := moving5 .evicting
      (∀ w ∈ (s.part 0).waiting, w.what.isReserve = false) ∧ s.demandOn 0 ((s.part 0).kv.hbm.va 4095) = false
      ∧ s.demandOn 0 ((s.part 0).kv.far.va 4095) = false ∧ 4095 < (s.part 0).kv.hbm.frames ∧ (s.part 0).kv.hbm.frame 4095 = .dirty
      ∧ 4095 < (s.part 0).kv.far.frames ∧ (s.part 0).kv.far.frame 4095 = .dirty)
    ∧ (let s := waitingFor 0x203 (.reserve [] [] 0) up
      s.ringOwner 0 = some 0 ∧ (s.part 0).waiting = [⟨0, 3, .reserve [] [] 0⟩] ∧ (Wait.reserve [] [] 0).isReserve = true
      ∧ ((s.ring 0).find 3).isSome = true) := by decide +kernel


/-! ### Witnesses: memory -/

/-- Stream 4 waiting for the line at channel 0, address 48; this channel state. -/
def reading (f : Channel → Channel) : State :=
  (streaming (load4 [{ line0 48 with place := some (false, 0, 48) }]) [] [] []).modChannel 0 f

theorem witness_LinesReadAndWrite :
    0 < up.cfg.channels
    ∧ (let s := reading id
      s.readWaiting 4 0 0 = some (0, { line0 48 with place := some (false, 0, 48) }, 48) ∧ s.serve (s.stream 4).part 0 = .now
      ∧ s.slotFor 0 0 (s.byCrossbar (.stream 4) 0) = true ∧ s.bankBusy 0 (64 * 0) = false ∧ (s.channel 0).poison.contains 0 = false)
    ∧ (reading (fun c => { c with poison := [0] })).serve 0 0 = .now
    ∧ ((reading (fun c => { c with poison := [0] })).channel 0).poison.contains 0 = true
    ∧ (1 : BitVec 64) ≠ 0 ∧ (0x8000000000000000 : BitVec 64) ≠ 0
    ∧ (reading (fun c => { c with state := .down })).serve 0 0 = .lost ∧ (reading (fun c => { c with state := .fenced })).serve 0 0 = .queued
    ∧ (let s := reading (fun c => { c with wcb := [⟨7, 0, true, [(3, some 9)]⟩] })
      (s.channel 0).wcb.find? (fun e => decide (e.line = 7)) = some ⟨7, 0, true, [(3, some 9)]⟩ ∧ (s.channel 0).reachable = true ∧ s.bankBusy 0 (64 * 7) = false ∧ s.slotFor 0 0 false = true)
    ∧ (reading (fun c => { c with scrubAge := true })).serve 0 0 = .now
    ∧ (reading (fun c => { c with scrubAge := true })).slotFor 0 0 false = false := by
  decide +kernel

/-- Stack 0's item of this kind running in partition 0's queue. -/
def itemRunning (it : Intrusive) (s : State) : State := s.modPart 0 (fun q => { q with items := [⟨it, [], true⟩] })

theorem witness_ScrubAndRepair :
    (up.waitingAt 0 = [] ∧ ((reading id).channel 0).scrubAge = false ∧ (reading id).waitingAt 0 ≠ []
      ∧ ((reading (fun c => { c with scrubAge := true })).channel 0).scrubAge = true) ∧
    ((reading id).channel 0).reachable = true ∧ ((reading id).stackAt (0 / 32)).level ≠ 3 ∧ ((reading id).stackAt (0 / 32)).selfRefresh = false
    ∧ ((reading (fun c => { c with copying := [5] })).channel 0).copying = 5 :: []
    ∧ (reading id).asleep = false ∧ (reading id).bankBusy 0 ((reading id).channel 0).scrubAt = false
    ∧ { up with pmu := { up.pmu with state := 3 } }.asleep = true
    ∧ (itemRunning (.staging 0) up).itemRuns (.staging 0) = true ∧ 255 < up.cfg.channels := by decide +kernel

/-- Of shares of 0x10 each: partition 0 has taken its 16 slots and partition 1 waits for 16 or for none; 31 of 32 crossbar slots are
taken. -/
theorem witness_Regulators :
    ((List.range 4).map (fun p => fld up.mem.bwShare.toNat (8 * p) 8)).sum ≤ 64
    ∧ (let t : Turns := ⟨[16, 0, 0, 0], 3, [0, 0, 0, 0], [0, 0, 0, 0]⟩
      t.owed up.shares 0 = 0 ∧ 0 < t.owed up.shares 1 ∧ t.grants up.shares [1] 0 = true ∧ t.slots.sum < 64)
    ∧ (let s := { (reading (fun c => { c with turns := ⟨[0, 0, 0, 0], 3, [40, 0, 0, 0], [31, 0, 0, 0]⟩ })) with
        streams := [(4, load4 [{ line0 48 with place := some (false, 0, 48) }]),
          (5, { load4 [{ line0 48 with place := some (false, 0, 48) }] with core := 4 })] }
      s.bothPaths 0 0 = true ∧ s.slotFor 0 0 true = true) := by decide +kernel

/-- The temperatures at which the stack's state changes, among them (R354); 16 and 15 uncorrectable lines (R363). -/
theorem witness_ChannelStates :
    (∀ x ∈ [ChState.online, .fenced, .retraining], ((reading (fun c => { c with state := x, uesInBar := 16 })).channel 0).state = x)
    ∧ 16 ≤ ((reading (fun c => { c with uesInBar := 16 })).channel 0).uesInBar
    ∧ ((reading (fun c => { c with state := .retraining, keep := true })).channel 0).keep = true
    ∧ ((reading (fun c => { c with state := .retraining })).channel 0).keep = false ∧ ((reading id).stackAt 0).level ≠ 3
    ∧ (((reading id).setStack 0 { (reading id).stackAt 0 with level := 3 }).stackAt 0).level = 3
    ∧ { up with mem := { up.mem with trained := true } }.mem.trained = true ∧ 7 < up.cfg.hbmStacks
    ∧ [104, 105, 94, 95, 91, 92, 84, 85, 81, 82].map (fun n => [stackLevel 0 n, stackLevel 1 n, stackLevel 2 n])
      = [[2, 2, 2], [3, 3, 3], [1, 1, 2], [2, 2, 2], [1, 1, 1], [1, 1, 2], [0, 1, 1], [1, 1, 1], [0, 0, 0], [0, 1, 1]] := by decide +kernel

/-- Partition 0's queue with this item first. -/
def queued (it : Intrusive) (s : State) : State := s.modPart 0 (fun q => { q with items := [⟨it, [], false⟩, ⟨.staging 3, [], false⟩] })

theorem witness_IntermissionItems :
    (∀ it ∈ [Intrusive.channel 0, .port 0, .laneRemap 0, .staging 1], let s := queued it (mapped up)
      s.fwRunning = true ∧ s.asleep = false ∧ (s.part 0).items = [⟨it, [], false⟩, ⟨.staging 3, [], false⟩] ∧ s.itemReady it = true
      ∧ (s.channel 0).state ≠ .failed ∧ (s.port 0).state ≠ .failed)
    ∧ (∀ it ∈ [Intrusive.port 0, .laneRemap 0], let s := (itemRunning it up).modPort 0 (fun q => { q with state := .retraining })
      (s.port 0).state = .retraining ∧ s.itemRuns it = true) := by decide +kernel

/-- Far port 0 with this request, stream 4 waiting for the line at 2^31 + 16. -/
def farReading (r : FarReq) (link : Bool) : State :=
  (streaming (load4 [{ line0 (2 ^ 25 + 16) with place := some (true, 0, 2 ^ 31 + 16) }]) [] [] []).modFar 0 (fun f => { f with reqs := [r], linkUp := link })

def farRead : FarReq := ⟨3, 2 ^ 31, 0, 4, none, false, false⟩

theorem witness_FarResponses :
    (((farReading farRead true).farPort 0).req 3 = some farRead ∧ ((farReading farRead true).farPort 0).linkUp = true
      ∧ ((farReading farRead true).farWaiting 4 0 (2 ^ 31) false).isSome = true ∧ farRead.write = none ∧ ((farReading farRead true).farPort 0).mayAnswer farRead (leBytes 64 0) = true)
    ∧ (let r : FarReq := ⟨3, 2 ^ 31, 0, 4, some [(5, some 9)], true, false⟩
      ((farReading r true).farPort 0).req 3 = some r ∧ r.rmw = true ∧ ((farReading r true).farPort 0).mayAnswer r (leBytes 64 0) = true)
    ∧ (let r : FarReq := ⟨3, 2 ^ 31, 0, 4, some (maskOf 0 (List.replicate 64 9)), false, false⟩
      ((farReading r true).farPort 0).req 3 = some r ∧ (List.replicate 64 (9 : Byte)).length = 64 ∧ r.rmw = false ∧ r.poison = false)
    ∧ 1 < up.cfg.farPorts ∧ ((farReading farRead false).farPort 0).linkUp = false := by decide +kernel


/-! ### Witnesses: fabric -/

/-- A flit of zeros with this SEQ in its trailer, bad or good. -/
def flitOf (q : Nat) (bad : Bool) : Flit :=
  let z := List.replicate 1016 (0 : Byte)
  ⟨z, BitVec.ofNat 64 ((crc32 (z ++ leBytes 4 (q * 2 ^ 20))).toNat + q * 2 ^ 52), bad, 0⟩

theorem witness_LinkPorts :
    (let s := linked (up.modPort 0 (fun q => { q with replays := 16, uncInBar := 17 }))
     (s.port 0).state.carries = true ∧ 16 ≤ (s.port 0).replays ∧ 16 < (s.port 0).uncInBar
      ∧ (0x0F &&& (s.port 0).lanes ≠ 0 ∧ 0x0F &&& (s.port 0).lanes ≠ (s.port 0).lanes) ∧ 0xFF &&& (s.port 0).lanes = (s.port 0).lanes)
    ∧ (let s := up.modPort 0 (fun q => { q with state := .fenced, relocking := true })
      (s.port 0).state = .fenced ∧ (s.port 0).relocking = true)
    ∧ (up.modPort 0 (fun q => { q with state := .training })).port 0 = { up.port 0 with state := .training }
    ∧ (∀ al ∈ [0, 0xFF, 0xF1, 0x71], alignedLanes (lanesSeen al) = al)
    ∧ laneLost ⟨false, [], 0⟩ = true ∧ (up.port 0).lanes.getLsbD 0 = false ∧ ((linked up).port 0).lanes.getLsbD 0 = true
    ∧ ((0xF1 : BitVec 8) &&& 0xF0 = 0xF0 ∧ (0x71 : BitVec 8) &&& 0x0F ≠ 0x0F ∧ (0x71 : BitVec 8) &&& 0xF0 ≠ 0xF0)
    ∧ flitOk (flitOf 0 true) = false ∧ flitOk (flitOf 1 false) = true ∧ fld (flitOf 1 false).trailer.toNat 52 12 = 1
    ∧ ((linked up).port 0).rxSeq = 0 := by decide +kernel

/-- A lane with three markers, one that has lost four, and lanes that have lost nothing. -/
theorem witness_AlignmentMarkers : laneAligned ⟨true, [(0, markerOf 7), (16384, markerOf 7), (16384, markerOf 7)], 0⟩ 7 = true
    ∧ laneLost ⟨true, [], 4⟩ = true ∧ laneLost ⟨true, [], 3⟩ = false ∧ (alignedLanes (lanesSeen 0x81)).getLsbD 7 = true
    ∧ (∀ l < 8, ∀ x, (lanesSeen 0xFF)[l]? = some x → ((linked up).port 0).lanes.getLsbD l = true → laneLost x = false)
    ∧ (markerOf 7)[6]? = some 0x3C7 ∧ (markerOf 7)[7]? = some 0x038 := by
  refine ⟨by decide +kernel, by decide +kernel, by decide +kernel, by decide +kernel, ?_, by decide +kernel, by decide +kernel⟩
  intro l hl x hx _
  interval_cases l <;> (cases hx; decide +kernel)

/-- Transfer 9 of 1 KiB from partition 0's first page to landing buffer 3 of node 6. -/
def xfer9 (null : Bool) : Xfer := ⟨9, false, 6, 3, 0, 1024, 1, false, 0, 100, 200, false, null⟩

/-- A run with Figure 1 completed, this transfer, and two units for landing buffer 3 of node 6. -/
def sending (null : Bool) : State :=
  linked (mapped ((running { chorOf [figOf 1 .transferOnly] with xfers := [xfer9 null] } { runOf 1 [] with completed := [0] }).modPart 0
    (fun q => { q with plane := { q.plane with credits := [(4096 * 6 + 3, some 2)] } })))

/-- The header of a delivery to node `dst` from node 6's transfer 9, at byte 64 of landing buffer 3. -/
def header9 (dst ttl crc : Nat) : BitVec 256 :=
  BitVec.ofNat 256 (dst * 2 ^ 88 + 6 * 2 ^ 98 + ttl * 2 ^ 117 + 2 ^ 124 + 9 * 2 ^ 132 + 3 * 2 ^ 148 + 64 * 2 ^ 160 + crc * 2 ^ 224)

/-- A run with this binding for node 6's transfer 9, its consumer in progress. -/
def binding (b : Binding) : State :=
  (linked (mapped (running { chorOf [figOf 1 .transferOnly] with bindings := [b] } (runOf 1 [inWork 0])))).setLb 3 ⟨true, 0, 4096⟩

def binding9 : Binding := ⟨6, 9, 3, 0, 1024, 1, 1, 0, [], false, false⟩

/-- A GROUP_SET that waits for the last echo of group 2's probe, and a leaf of group 2 below node 6. -/
def probing (root : Bool) : State :=
  if root then (waitingFor 0x402 (.groupSet [(2, ⟨true, true, 2, 2, 5, [6]⟩)] [2] 0) (linked up)).modPart 0
    (fun q => { q with plane := { q.plane with echoes := [(2, 1)] } })
  else (linked up).modPart 0 (fun q => { q with plane := { q.plane with groups := [(2, some ⟨true, false, 2, 1, 6, []⟩)] } })

theorem witness_Deliveries :
    (∀ null : Bool, let s := sending null
      ∃ c, (s.part 0).chor = some c ∧ c.xfers.find? (fun x => decide (x.xferId = 9)) = some (xfer9 null)
        ∧ s.xferReady 0 c (xfer9 null) = true ∧ s.nextPort 0 6 = some 0)
    ∧ (sending false).xferSource 0 (xfer9 false) = .ok (List.replicate 1024 0)
    ∧ (linked up).frameFrom 0 = some 0 ∧ (linked up).pmu.state ≠ 3
    ∧ (bit (header9 5 15 0).toNat 116 = false ∧ fld (header9 5 1 0).toNat 117 4 = 1 ∧ fld (header9 6 2 0).toNat 117 4 = 2
      ∧ fld (header9 5 2 0).toNat 88 10 = ((linked up).part 0).plane.node.toNat ∧ (linked up).nextPort 0 7 = some 1
      ∧ ((linked up).part 0).chor = none ∧ ((linked up).part 0).snap.held = none)
    ∧ (let s := binding binding9
      ∃ c, (s.part 0).chor = some c ∧ (s.part 0).run.isSome = true ∧ s.frameFrom 1 = some 0
        ∧ c.bindings.find? (fun (b : Binding) => decide (b.srcNode = 6) && decide (b.xferId = 9)) = some binding9
        ∧ s.fitsBinding binding9 3 64 64 = true ∧ ((s.part 0).active 1).isSome = true)
    ∧ (∃ w, ((probing true).part 0).waiting = [w] ∧ w.what = .groupSet [(2, ⟨true, true, 2, 2, 5, [6]⟩)] [2] 0
      ∧ ((probing true).ring w.ring).find w.seq = some (open3 0x402))
    ∧ ((probing true).tooSlow 1000 = true ∧ (probing true).tooSlow 500 = false)
    ∧ (((probing false).part 0).waiting = [] ∧ kget none ((probing false).part 0).plane.groups 2 = some ⟨true, false, 2, 1, 6, []⟩)
    ∧ (kget 0 ((probing true).part 0).plane.echoes 2 = 1 ∧ kget 0 ((probing false).part 0).plane.echoes 2 = 0
      ∧ kget 0 ((setEchoes 0 2 3 up).part 0).plane.echoes 2 = 1 + 2) := by
  refine ⟨?_, ?_⟩
  · intro null
    exact ⟨{ chorOf [figOf 1 .transferOnly] with xfers := [xfer9 null] }, by cases null <;> decide +kernel⟩
  · refine ⟨by decide +kernel, by decide +kernel, by decide +kernel, by decide +kernel, ?_, ?_, by decide +kernel, by decide +kernel, by decide +kernel⟩
    · exact ⟨{ chorOf [figOf 1 .transferOnly] with bindings := [binding9] }, by decide +kernel⟩
    · exact ⟨⟨0, 3, .groupSet [(2, ⟨true, true, 2, 2, 5, [6]⟩)] [2] 0⟩, by decide +kernel⟩

/-- Vote 4 over Figure 1, due at beat 120 and taken from beat 140. -/
def vote4 : Vote := ⟨4, 120, 140, 1, 1, 0xF, 0, 0, 0, false, none, false⟩

/-- A run with Figure 1 completed with INV and this vote; partition 0's tempo group is group 2. -/
def voting (v : Vote) (alone : Bool) (g : Machine.Group) : State :=
  let s := linked ((running { chorOf [figOf 1 .transferOnly] with votes := [v] }
    { runOf 1 [] with completed := [0], records := [(1, flInv)] }).modPart 0
      (fun q => { q with plane := { q.plane with tempoGroup := 2, groups := [(2, some g)] } }))
  { s with beat := { s.beat with standalone := alone } }

theorem witness_Votes :
    (∀ alone : Bool, ∀ g ∈ [Machine.Group.mk true false 2 1 6 [], Machine.Group.mk true true 1 1 5 []], let s := voting vote4 alone g
      ∃ c r, (s.part 0).chor = some c ∧ (s.part 0).vote 4 = some vote4 ∧ s.iterBeat 0 = some 150 ∧ (s.part 0).run = some r
        ∧ scopeDone c r vote4 = true ∧ s.beat.standalone = alone ∧ s.tempoTree 0 = (if alone then none else some g)
        ∧ g.children.length ≤ vote4.children ∧ s.nextPort 0 6 = some 0)
    ∧ (let g := Machine.Group.mk true true 2 2 5 [6]
      (voting vote4 false g).tempoTree 0 = some g ∧ vote4.children < g.children.length)
    ∧ (let v := { vote4 with sent := true }
      let g := Machine.Group.mk true false 2 1 6 []
      (voting v false g).tempoTree 0 = some g ∧ ((voting v false g).part 0).vote 4 = some v)
    ∧ (let v := { vote4 with result := some (1, 149) }
      ((voting v true ⟨true, true, 1, 1, 5, []⟩).part 0).vote 4 = some v
      ∧ ((voting v true ⟨true, true, 1, 1, 5, []⟩).part 0).tempo.hold = false) := by
  refine ⟨?_, by decide +kernel, by decide +kernel, by decide +kernel⟩
  intro alone g hg
  exact ⟨{ chorOf [figOf 1 .transferOnly] with votes := [vote4] }, { runOf 1 [] with completed := [0], records := [(1, flInv)] }, by
    simp only [List.mem_cons, List.not_mem_nil, or_false] at hg
    rcases hg with rfl | rfl <;> cases alone <;> decide +kernel⟩

/-- Chain 2 over nodes 5 and 6, one row of two XS128 values in one segment; the output of Figure 1 is its source. -/
def chain2 : Chain := ⟨2, 0xE, 2, 1, 1, 3, 0, [5, 6], [(1, 0)], 0⟩

/-- Figure 1 with one XS128 column, its entry at VA 0. -/
def sourceFig : Figure := { figOf 1 .transferOnly with list := some ⟨1, 0, 0, [⟨2, 1, 32, 4, 0, 0, 0xE, true⟩], [[0]]⟩ }

def chaining : State :=
  linked (mapped ((running { chorOf [sourceFig] with chains := [chain2] } { runOf 1 [] with completed := [0] }).modPart 0
    (fun q => { q with plane := { q.plane with credits := [(4096 * 6 + 3, some 2)] } })))

theorem witness_Chains :
    (((0 : Int), (2 ^ 127 - 1 : Int)).2 < 2 ^ 127 ∧ [(5 : Int), -(2 ^ 127), 3].Perm [3, 5, -(2 ^ 127)])
    ∧ (∃ q ∈ [Partial.mk [1] [] 3], q.rs ≠ (ChainRow.mk [(0, 1)] [] 4).rs)
    ∧ ∃ c, (chaining.part 0).chor = some c ∧ c.chains.find? (fun k => decide (k.chainId = 2)) = some chain2
      ∧ chain2.member (chaining.part 0).plane.node.toNat = some (0, none, some 6) ∧ chain2.done < ceilDiv chain2.rows chain2.segRows
      ∧ chain2.units chain2.done ≤ (chaining.part 0).plane.credit 6 chain2.lb ∧ chaining.sourcesReady 0 c chain2 0 = true
      ∧ chaining.incoming 0 c chain2 0 none = some (.ok [none])
      ∧ chaining.segment 0 c chain2 0 [none] = .ok ([⟨[(0, 0), (0, 0)], [], 0⟩], Flags.none, 0) := by
  exact ⟨by decide, ⟨_, List.mem_cons_self .., by decide⟩, { chorOf [sourceFig] with chains := [chain2] }, by decide +kernel⟩

/-! ### Witnesses: mailbox -/

/-- Ring 0 in this state, with nothing open. -/
def ringAt (x : RingState) (f : Machine.Ring → Machine.Ring) : State := up.modRing 0 (fun g => f { g with state := x })

/-- Requester 0 reaches ring 0's doorbells, requester 1 does not. The slot of SEQ 0 in zeros names SEQ 0, that of SEQ 1 does not name 1;
DB_CPL and DB_EVCONS meet their tails at the boundary values 0 and 1. -/
theorem witness_RingDoorbells :
    up.hostOpen = true ∧ (∀ k ∈ [0, 4, 8, 0xC], up.admits 0 (dbOffset 0 k) true = true) ∧ up.admits 1 (dbOffset 0 0) true = false
    ∧ (∀ x ∈ [RingState.ready, .resetting, .down, .halted], ((ringAt x id).ring 0).state = x)
    ∧ (let g := (ringAt .ready id).ring 0
      dist16 g.prod 1 = 1 ∧ dist16 g.cpl 256 = 256 ∧ dist16 g.cpl 257 = 257 ∧ dist16 g.prod 0x8000 = 32768 ∧ g.head + 1 = 1
      ∧ arg (BitVec.ofNat 512 (ofLe (bread (ringAt .ready id).ringMem (0x10000 * 0 + 64 * (g.head.toNat % 256)) 64))) 0 0 16 = g.head.toNat)
    ∧ (let s := ringAt .ready (fun g => { g with prod := 1, head := 1, cpl := 1, ctail := 2, etail := 1 })
      arg (BitVec.ofNat 512 (ofLe (bread s.ringMem (64 * ((s.ring 0).head.toNat % 256)) 64))) 0 0 16 ≠ (s.ring 0).head.toNat
      ∧ dist16 (s.ring 0).cpl 2 ≤ dist16 (s.ring 0).cpl (s.ring 0).ctail ∧ ¬ dist16 (s.ring 0).cpl 3 ≤ dist16 (s.ring 0).cpl (s.ring 0).ctail
      ∧ dist16 (s.ring 0).evcons 1 ≤ dist16 (s.ring 0).evcons (s.ring 0).etail
      ∧ ¬ dist16 (s.ring 0).evcons 2 ≤ dist16 (s.ring 0).evcons (s.ring 0).etail ∧ s.fw.backlog = [])
    ∧ (let s := ringAt .resetting id
      (s.ring 0).state = .resetting ∧ (s.ring 0).opened = [] ∧ s.fw.backlog = []) := by decide +kernel

/-- Core CC0 has missed four checks. -/
def missing : State := { up with fw := { up.fw with misses := [4, 0, 0] } }

theorem witness_EventsAndPanic :
    (∀ n ∈ [255, 256], let s := ringAt .ready (fun g => { g with etail := BitVec.ofNat 16 n })
      s.eventRing 0 = some 0 ∧ s.fwRunning = true ∧ (s.ring 0).state = .ready ∧ s.eventRoom 0 = decide (n = 255) ∧ s.faultsWait 0 = false)
    ∧ missing.fwRunning = true ∧ 4 ≤ nth missing.fw.misses 0 ∧ missing.pins.phase = .running ∧ missing.fw.state ≠ .boot := by
  refine ⟨?_, ?_⟩ <;> decide +kernel

/-- Commands of ring 0 that pass each check up to the one that fails: unread, of another version, administrative on ring 1, of an ended, a
missing and an open job, with a reserved bit set, and in order. -/
theorem witness_CommandChecks :
    (∀ tag ∈ [7, 8, 9], ∀ f ∈ [[], [(0x3F, 0, 1)]],
      let k : CmdRule := ⟨0x101, false, true, false, [(0x18, 0, 1)]⟩
      let s := asked 0x101 tag f (up.modPart 0 (fun q => { q with job := some 7, endedTags := [9] }))
      let img := cmd3 0x101 tag f
      s.mayBegin 0 3 = some ⟨3, img, false, 0⟩ ∧ s.ringOwner 0 = some 0 ∧ s.ringRuns 0 = true ∧ cmdOpcode img = k.op
      ∧ (s.ring 0).versionRead = true ∧ cmdVer img = 1 ∧ (k.admin && !s.ringAdmin 0 || k.lost && s.fw.fwLost) = false
      ∧ jobCheck (s.part 0) (cmdTag img) = (if tag = 7 then none else if tag = 8 then some stNoJob else some stJobEnded)
      ∧ (wakesBlock s.pmu.state k.op || (s.pmu.transition && wakesBlock s.pmu.target k.op)) = false
      ∧ (headerOk img && fieldsOk img k.fields && s.resultOk 0 img) = decide (f = []))
    ∧ (((asked 0x500 0 [] up).modRing 0 (fun g => { g with versionRead := false })).mayBegin 0 3).isSome = true
    ∧ cmdVer (cmd3 0x500 0 [(4, 0, 2)]) ≠ 1 ∧ up.ringAdmin 1 = false
    ∧ (¬ cmdOpcode (cmd3 0x123 0 []) ∈ opcodes ∧ ((asked 0x123 0 [] up).mayBegin 0 3).isSome = true)
    ∧ admitted ⟨1, false, false, false, []⟩ 0 3 0 (cmd3 1 0 []) (asked 1 0 [] up) = true := by decide +kernel

/-! ### Witnesses: mailbox commands -/

/-- Command 3 of ring 0 may start, under these rules, in the state that asks it. -/
def may (k : CmdRule) (tag : Nat) (fs : List (Nat × Nat × Nat)) (s : State) : Bool := admitted k 0 3 0 (cmd3 k.op tag fs) (asked k.op tag fs s)

/-- Mapped memory with these bytes at VA 0. -/
def holding (bs : List Byte) (s : State) : State := (mapped s).modChannel 0 (fun c => { c with mem := cellsFrom 0 0 0 bs })

/-- Region 0 of `mapped`. -/
def region0 : MemRegion := ⟨16, 0, 0, true, 1, false, 0, 0, 0, some [0]⟩

/-- A byte of the first page of `mapped` is the byte at that address of channel 0. -/
theorem byteVa_firstPage (t : State) (m : KMap Byte) (hsp : (t.part 0).space = ((mapped up).part 0).space)
    (hreg : t.regions = (mapped up).regions) (hcfg : t.cfg = up.cfg)
    (hch : t.channel 0 = { (mapped up).channel 0 with mem := m }) (va : Nat) (h : va < 2 ^ 25) : t.byteVa 0 va = .ok (kget 0 m va) := by
  have hc : (t.part 0).space.corrupt = [] := by rw [hsp]; rfl
  have hl : kget none (t.part 0).space.leaves 0 = some leaf0 := by rw [hsp]; rfl
  have hv : t.serve 0 0 ≠ .lost := by
    have h1 : (t.channel 0).served.getLsbD 0 = true := by rw [hch]; exact (by decide +kernel : ((mapped up).channel 0).served.getLsbD 0 = true)
    have h2 : (t.channel 0).state = .online := by rw [hch]; exact (by decide +kernel : ((mapped up).channel 0).state = .online)
    simp [State.serve, h1, h2]
  have hall : t.regionAll = (mapped up).regionAll := by simp [State.regionAll, State.region, hreg]
  have hr : t.regionAll.head? = some region0 := by rw [hall]; decide +kernel
  have hs : (regionSpan t.cfg region0).1 = 0 ∧ 2 ^ 25 ≤ (regionSpan t.cfg region0).2 := by rw [hcfg]; decide +kernel
  have hu : t.usable region0 = 2 ^ 25 := by rw [State.usable, show t.regionList region0 = [0] from rfl]; rfl
  have hok : t.leafOk 0 leaf0 = true := by
    unfold State.leafOk
    rw [List.any_eq_true]
    refine ⟨region0, List.mem_filter.mpr ⟨?_, by decide⟩, ?_⟩
    · cases hx : t.regionAll with
      | nil => simp [hx] at hr
      | cons y l => simp [hx] at hr; simp [hr]
    · rw [hu]; decide
  have hch1 : (t.channel 0).wcb = [] ∧ (t.channel 0).poison = [] ∧ (t.channel 0).undef = none ∧ (t.channel 0).mem = m := by
    rw [hch]; exact ⟨rfl, rfl, rfl, rfl⟩
  have hk : pageKey va = 0 := by unfold pageKey; omega
  have hw : (t.part 0).space.walk va = .leaf 0 leaf0 := by
    simp [Space.walk, hc, hk, hl, leaf0]
  have hleaf : t.leafAt 0 va = some (0, leaf0) := by
    have h2 : va < 2 ^ 52 := by omega
    rw [State.leafAt, if_pos h2, hw]
    simp [hok]
  have hro : t.regionOf va = some region0 := by
    obtain ⟨l, hl⟩ : ∃ l, t.regionAll = region0 :: l := by
      cases hx : t.regionAll with
      | nil => simp [hx] at hr
      | cons y l => exact ⟨l, by simpa [hx] using hr⟩
    have h3 : va < (regionSpan t.cfg region0).2 := by omega
    have h4 : (regionSpan t.cfg region0).1 ≤ va := by omega
    have h5 : region0.valid = true := rfl
    have h6 : region0.mode ≤ 1 := by decide
    simp [State.regionOf, hl, h3, h4, h5, h6]
  have hp : t.place va = some (0, va) := by
    have h7 : t.regionList region0 = [0] := rfl
    have h8 : va / 512 * 512 + va % 512 = va := by omega
    have h9 : region0.base = 0 ∧ region0.caBase = 0 := ⟨rfl, rfl⟩
    rw [State.place, hro]
    simp only [h9.1, h9.2, hu, h7, Nat.zero_mul, Nat.sub_zero]
    rw [if_pos h]
    simp [h8]
  have hf : leaf0.far = false ∧ leaf0.rd = true ∧ leaf0.target = 0 := ⟨rfl, rfl, rfl⟩
  have hq : t.locOf 0 leaf0 va = some (.hbm 0 va) := by simp [State.locOf, hf, hp]
  have hb : t.byteAt 0 (.hbm 0 va) = .ok (kget 0 m va) := by
    simp [State.byteAt, hv, hch1, chView, chByte, chDefault]
  simp [State.byteVa, hleaf, hq, hb, hf]

/-- Job 7 open in partition 0. -/
def job7 : State := up.modPart 0 (fun q => { q with job := some 7 })

/-- An image of one transfer-only Figure, for beats `a` to 200 (R494, R495). -/
def image1 (a : Nat) : List Byte :=
  let body := leBytes 4 1 ++ leBytes 4 1 ++ leBytes 8 0x50 ++ leBytes 48 (a * 2 ^ 24 + 200 * 2 ^ 72 + 1 * 2 ^ 120 + 9 * 2 ^ 188)
  leBytes 64 (0x0A5E0C01 + 2 ^ 32 + (crc32 body).toNat * 2 ^ 64 + 1 * 2 ^ 96 + 1 * 2 ^ 152) ++ body

/-- The image at VA 0 loads, its fields pass, and its schedule passes or not. -/
def loads (a : Nat) (passes : Bool) : Bool :=
  let u := markStarted 0 3 (asked 0x110 7 [(0x20, 0, 128)] (holding (image1 a) job7))
  match u.loadImage 0 0 128 7 [] with
  | .ok x => (match u.fieldsChecked 0 x with | .ok _ => u.schedChecked 0 x == passes | .error _ => false)
  | .error _ => false

/-- Job 7 open, with a run of no Figures in progress, or with one. -/
def jobRun (fs : List RunFig) : State :=
  (running (chorOf [figOf 1 .transferOnly]) (runOf 0 fs)).modPart 0 (fun q => { q with chor := q.chor.map (fun c => { c with holdMax := 64 }) })

theorem witness_JobCommands :
    (∀ e ∈ [0, 1], may ⟨2, false, false, false, [(0x18, 0, 4)]⟩ 0 [(0x18, 0, e)] up = true) ∧ up.ringOwner 0 = some 0 ∧ up.ringOwner 1 ≠ some 0
    ∧ (∀ s ∈ [up, job7], ∀ tag ∈ [0, 7], may ⟨0x100, false, false, false, []⟩ tag [] s = true)
    ∧ (∀ k ∈ [0, 1], may ⟨0x101, false, true, false, [(0x18, 0, 1)]⟩ 7 [(0x18, 0, k)] job7 = true)
    ∧ (∀ s ∈ [job7, jobRun []], may ⟨0x110, false, true, false, [(0x18, 0, 52), (0x20, 0, 32)]⟩ 7 [(0x20, 0, 128)] s = true)
    ∧ loads 100 true = true ∧ loads 300 false = true ∧ (holding (image1 100) job7).channelUnsettled = false
    ∧ (∀ s ∈ [job7, jobRun [], (jobRun []).modPart 0 (fun q => { q with run := none })], ∀ b ∈ [703, 704],
        may ⟨0x111, false, true, false, [(0x18, 0, 64), (0x20, 0, 32), (0x28, 0, 52), (0x30, 0, 32)]⟩ 7 [(0x18, 0, b)] s = true)
    ∧ (∀ s ∈ [job7, jobRun [], jobRun [inWork 0]], ∀ k ∈ [0, 1],
        may ⟨0x112, false, true, false, [(0x18, 0, 1)]⟩ 7 [(0x18, 0, k)] s = true)
    ∧ (∀ s ∈ [job7, jobRun []], ∀ k ∈ [0, 65], may ⟨0x114, false, true, false, [(0x18, 0, 16)]⟩ 7 [(0x18, 0, k)] s = true)
    ∧ (∀ k ∈ [0, 1], may ⟨0x115, false, false, false, [(0x18, 0, 2), (0x1C, 0, 8)]⟩ 0 [(0x18, 0, k)] up = true) ∧ itemOf 0 0 = .channel 0
    ∧ itemOf 1 0 = .port 0 ∧ up.itemExists (.port 0) = true ∧ up.portOwner 0 = some 0 ∧ up.itemQueued (.port 0) = false := by
  refine ⟨?_, ?_, ?_, ?_, ?_, ?_, ?_, ?_, ?_, ?_, ?_, ?_, ?_⟩ <;> decide +kernel

/-- Job 7 open; partition 0's HBM arena has these frames zeroed of 4,096, its far arena these of `far`, and its quota is 8. -/
def caching (z y : List Nat) (far : Nat) (x : Seq) : State :=
  (modKv 0 (fun _ => ⟨⟨0, 4096, z.map (fun f => (f, .zeroed))⟩, ⟨2 ^ 25, far, y.map (fun f => (f, .zeroed))⟩, 8⟩)
    ((mapped up).modPart 0 (fun q => { q with job := some 7 }))).setSeq 5 x

/-- SHAPE of one layer and head of 64 E5M2 values, or with V in BS8; PAGING of pages of 2^5 to 2^6 tokens, eight at most. -/
def shapeArgs (v : Nat) : List (Nat × Nat × Nat) := [(0x18, 0, 2 ^ 24 + 64 * 2 ^ 10 + 1 * 2 ^ 6 + v * 2 ^ 2), (0x1C, 0, 5 * 2 ^ 28 + 6 * 2 ^ 24 + 8)]

/-- A batch at VA 0 of 100 more tokens for sequence 5. -/
def batch5 : List Byte := leBytes 16 (5 + 100 * 2 ^ 32)

/-- Sequence 5 of those formats, OPEN, all its tokens written. -/
def cached : Seq := { seq5 with kFmt := 1, vFmt := 1, log2Min := 5, log2Max := 6, plCap := 8, resEnd := 40 }

/-- It has one page of 64 tokens in frame 3. -/
def paged5 (x : SeqState) : Seq := { cached with state := x, pages := [⟨false, false, true, 1, 1, 6, 0, 3⟩], hbmFrames := 2, farFrames := 2 }

def shape1 (v : Nat) : Option Seq := let i := cmd3 0x201 7 (shapeArgs v); shapeOf (arg i 0x18 0 32) (arg i 0x1C 0 32)

theorem witness_KvCommands :
    (let k : CmdRule := ⟨0x200, false, false, true, [(0x18, 0, 52), (0x20, 0, 28), (0x24, 0, 28), (0x28, 0, 52), (0x30, 0, 17)]⟩
     let fields (n : Nat) (s : State) := (markStarted 0 3 (asked 0x200 0 [(0x20, 0, n)] s)).arenaFields 0 (cmd3 0x200 0 [(0x20, 0, n)])
     let c := caching [] [] 0
     may k 0 [] (c Seq.free) = true ∧ fields 0 (c Seq.free) = false ∧ may k 0 [(0x20, 0, 4096)] (c cached) = true
      ∧ fields 4096 (c cached) = true ∧ (c cached).openSeqs 0 = [5] ∧ fields 4096 (c Seq.free) = true ∧ (c Seq.free).openSeqs 0 = [])
    ∧ (let k : CmdRule := ⟨0x201, false, true, true, [(0x18, 0, 32), (0x1C, 0, 32)]⟩
     let c := caching [0] [] 0 Seq.free
     may k 7 [] c = true ∧ may k 7 (shapeArgs 1) c = true ∧ may k 7 (shapeArgs 11) c = true ∧ shapeOf 0 0 = none
      ∧ (shape1 1).map tailFrames = some 0 ∧ (shape1 11).map tailFrames = some 1 ∧ c.openSeqs 0 = [] ∧ c.freeSlot = some 0
      ∧ ((c.part 0).kv.hbm.allocate 0 [1]).isSome = true ∧ ((caching [] [] 0 Seq.free).part 0).kv.hbm.allocate 0 [1] = none
      ∧ ((modKv 0 (fun k => { k with quota := 1 }) (caching [] [] 0 cached)).openSeqs 0).length = 1)
    ∧ (let c := caching [] [] 0 cached
     c.seqLive 0 6 = false ∧ c.seqLive 0 5 = true ∧ c.trimStatus 5 41 = some stField ∧ c.trimStatus 5 40 = none
      ∧ (∀ n ∈ [5, 6], may ⟨0x202, false, false, true, [(0x18, 0, 20)]⟩ 0 [(0x18, 0, n)] c = true
        ∧ may ⟨0x204, false, false, true, [(0x18, 0, 20), (0x1C, 0, 32)]⟩ 0 [(0x18, 0, n), (0x1C, 0, 41)] c = true
        ∧ may ⟨0x205, false, false, true, [(0x18, 0, 20)]⟩ 0 [(0x18, 0, n)] c = true))
    ∧ (let c := holding batch5 (caching (List.range 16) [] 0 cached)
     let i := cmd3 0x203 7 [(0x20, 0, 1)]
     may ⟨0x203, false, true, true, [(0x18, 0, 52), (0x20, 0, 17), (0x20, 31, 1), (0x28, 0, 52), (0x30, 0, 52), (0x38, 0, 52)]⟩ 7 [(0x20, 0, 1)] c = true
      ∧ (markStarted 0 3 (asked 0x203 7 [(0x20, 0, 1)] c)).readVa 0 0 16 = .ok batch5 ∧ batchOf batch5 1 = some [(5, 100, 0)]
      ∧ (markStarted 0 3 (asked 0x203 7 [(0x20, 0, 1)] c)).tablesOk 0 i [(5, 100, 0)] = true ∧ newPages cached 0 140 9 = [(0, 5), (32, 5), (64, 6), (128, 6)]
      ∧ ((c.part 0).kv.hbm.allocate 5 ((newPages cached 0 140 9).map (fun x => pageFrames cached (2 ^ x.2)))).isSome = true)
    ∧ (let e := fun s => may ⟨0x206, false, false, true, [(0x18, 0, 20)]⟩ 0 [(0x18, 0, 5)] s
     e (caching [] [] 0 cached) = true ∧ e (caching [] [] 16 { paged5 .opened with resEnd := 41 }) = true
      ∧ (∀ y ∈ [[], [0]], e (caching [] y 16 (paged5 .opened)) = true
        ∧ (((caching [] y 16 (paged5 .opened)).part 0).kv.far.allocate 5 (seqRuns (paged5 .opened))).isSome = decide (y ≠ []))
      ∧ e (caching [] [] 16 (paged5 .evicted)) = true)
    ∧ (let e := fun s => may ⟨0x207, false, false, true, [(0x18, 0, 20)]⟩ 0 [(0x18, 0, 5)] s
     e (caching [] [] 0 Seq.free) = true ∧ e (caching [] [] 16 (paged5 .opened)) = true
      ∧ (∀ z ∈ [[], [0]], e (caching z [] 16 (paged5 .evicted)) = true
        ∧ (((caching z [] 16 (paged5 .evicted)).part 0).kv.hbm.allocate 5 (seqRuns (paged5 .evicted))).isSome = decide (z ≠ []))
      ∧ may ⟨0x208, false, false, true, []⟩ 0 [] (caching [] [] 16 (paged5 .evicted)) = true) := by
  refine ⟨?_, ?_, ?_, ?_, ?_, ?_⟩ <;> decide +kernel

/-- Mapped memory where partition 0's KV arena lies in its first page. -/
def arenaMapped : State := modKv 0 (fun _ => ⟨⟨0, 4096, []⟩, ⟨0, 0, []⟩, 8⟩) (mapped up)

/-- Stream 4 of Figure 1 suspended on a queued fault. -/
def suspended4 : State :=
  { running (chorOf [figOf 1 .transferOnly]) (runOf 1 [inWork 0]) with
    faults := { up.faults with entries := [⟨1, 4, 0, 0, 0, false, .notMapped, 2 ^ 26⟩] }
    streams := [(4, { load4 [] with suspended := some (2 ^ 26, false, .notMapped), queued := true })] }

/-- No page, a mapped page, a target outside every region, a target in region 0; what TABLE_FULL needs rests on `Config.tableCapacity`. -/
theorem witness_MappingCommands :
    (let k : CmdRule := ⟨0x300, false, false, true, [(0x18, 0, 52), (0x20, 0, 32), (0x24, 0, 7), (0x28, 0, 41)]⟩
     let s := mapped up
     let a (va t n : Nat) : List (Nat × Nat × Nat) := [(0x18, 0, va), (0x20, 0, n), (0x24, 0, 2), (0x28, 0, t)]
     let c (va t n : Nat) := mapCmd (cmd3 0x300 0 (a va t n))
     may k 0 (a 0 0 0) s = true ∧ (c 0 0 0).rangeOk = false ∧ may k 0 (a 0 0 1) s = true ∧ (c 0 0 1).rangeOk = true
      ∧ (s.part 0).space.leavesIn 0 (2 ^ 25) ≠ [] ∧ (s.part 0).space.leavesIn (2 ^ 26) (2 ^ 26 + 2 ^ 25) = []
      ∧ (∀ t ∈ [0, 2 ^ 39], may k 0 (a (2 ^ 26) t 1) s = true ∧ (c (2 ^ 26) t 1).targetOk = true
        ∧ (c (2 ^ 26) t 1).vas.all (fun v => s.leafOk 0 ((c (2 ^ 26) t 1).leaf v)) = decide (t = 0))
      ∧ ((c (2 ^ 26) 0 1).vas.foldl (fun x v => x.put v (some ((c (2 ^ 26) 0 1).leaf v))) (s.part 0).space).tables = 3)
    ∧ (let k : CmdRule := ⟨0x301, false, false, true, [(0x18, 0, 52), (0x20, 0, 32), (0x24, 0, 1)]⟩
     let a (va : Nat) : List (Nat × Nat × Nat) := [(0x18, 0, va), (0x20, 0, 1)]
     may k 0 (a 0) arenaMapped = true ∧ (arenaMapped.part 0).kv.meetsArena 0 (2 ^ 25) = true
      ∧ (∀ i ∈ [0, 1], may k 0 (a (i * 2 ^ 25)) (mapped up) = true ∧ ((mapped up).part 0).kv.meetsArena 0 (2 ^ 26) = false
        ∧ (((mapped up).part 0).space.leavesIn (i * 2 ^ 25) (i * 2 ^ 25 + 2 ^ 25)).map (fun x => (x.2.big, x.2.pin)) = [(false, i == 0)]))
    ∧ (let k : CmdRule := ⟨0x302, false, false, true, [(0x18, 0, 52), (0x20, 0, 32), (0x24, 0, 4)]⟩
     let a (va w : Nat) : List (Nat × Nat × Nat) := [(0x18, 0, va), (0x20, 0, 1), (0x24, 0, w)]
     may k 0 (a 0 2) arenaMapped = true
      ∧ (∀ w ∈ [2, 6], may k 0 (a 0 w) (mapped up) = true ∧ may k 0 (a (2 ^ 25) w) (mapped up) = true
        ∧ (((mapped up).part 0).space.leavesIn 0 (2 ^ 26)).map (fun x => (mapCmd (cmd3 0x302 0 (a 0 w))).narrows x.2) = [w == 2, w == 2])
      ∧ (mapped up).meetsLb 0 0 (2 ^ 25) = false ∧ ((mapped up).part 0).space.moving = [])
    ∧ (let k : CmdRule := ⟨0x303, false, false, true, [(0x18, 0, 52), (0x24, 0, 1), (0x24, 5, 2), (0x28, 0, 41)]⟩
     let a (va t : Nat) : List (Nat × Nat × Nat) := [(0x18, 0, va), (0x28, 0, t)]
     let m (va t : Nat) := { mapCmd (cmd3 0x303 0 (a va t)) with pages := 1 }
     (∀ i ∈ [0, 1, 2], ∀ t ∈ [0, 2 ^ 39], may k 0 (a (i * 2 ^ 25) t) (mapped up) = true ∧ (m (i * 2 ^ 25) t).rangeOk = true
        ∧ (m (i * 2 ^ 25) t).targetOk = true ∧ (mapped up).leafOk 0 ((m (i * 2 ^ 25) t).leaf (i * 2 ^ 25)) = decide (t = 0))
      ∧ [0, 1, 2].map (fun i => (kget none ((mapped up).part 0).space.leaves (pageKey (i * 2 ^ 25))).map (·.pin)) = [some true, some false, none])
    ∧ (∀ s ∈ [up, suspended4], may ⟨0x304, false, false, true, [(0x18, 0, 10), (0x1C, 0, 24)]⟩ 0 [(0x18, 0, 4), (0x1C, 0, 1)] s = true)
    ∧ (let m := suspended4.stream 4
     (m.bound && decide (m.part = 0) && decide (m.fig = 1) && m.suspended.isSome) = true ∧ ((suspended4.part 0).active 1).isSome = true)
    ∧ may ⟨0x305, false, false, true, []⟩ 0 [] up = true ∧ may ⟨0x306, false, false, true, [(0x18, 0, 32), (0x1C, 0, 1)]⟩ 0 [(0x18, 0, 5)] up = true
    ∧ may ⟨0x307, false, false, true, []⟩ 0 [] (mapped up) = true := by
  refine ⟨?_, ?_, ?_, ?_, ?_, ?_, ?_, ?_, ?_⟩ <;> decide +kernel

/-- An image of table `t` with `n` records (R422). -/
def tableOf (t n : Nat) (recs tail : List Byte) : List Byte :=
  leBytes 64 (n + t * 2 ^ 16 + 2 ^ 24 + (crc32 recs).toNat * 2 ^ 32) ++ recs ++ tail

/-- Routes of `n` nodes, node 4's over port 1 and the others empty; group 2 with child node 6, this device its root or not. -/
def routeRecs (n : Nat) : List Byte := List.replicate 32 0 ++ leBytes 8 0x8000000000000002 ++ List.replicate (8 * n - 40) 0
def routes1 (n : Nat) : List Byte := tableOf 1 n (routeRecs n) []
def groups1 (root : Bool) : List Byte :=
  tableOf 2 1 (leBytes 32 (2 + (if root then 2 ^ 8 else 0) + 2 ^ 9 + 2 * 2 ^ 146 + 5 * 2 ^ 168 + 2 ^ 178)) (leBytes 2 6)

/-- Snapshot Figure 3, loaded, a Partner set. -/
def snapFig : Figure := figOf 3 (.snapshot ⟨false, 0, 0, 0, 0, []⟩)
def snapLoaded : State :=
  job7.modPart 0 (fun q => { q with chor := some (chorOf [snapFig]), snap := { q.snap with partner := some 6 } })

/-- A mirror of Figure 3 with a body of 512 zeros: its CRC entry right, or not. -/
def mirrorHead : List Byte := slotHeader 2 0 (leBytes 64 (100 * 2 ^ 64 + 3 * 2 ^ (8 * 0x1C) + blkVer * 2 ^ (8 * 0x28) + 512 * 2 ^ (8 * 0x30)))
def mirrorTable (good : Bool) : List Byte := if good then crcTable (List.replicate 512 0) else List.replicate 4096 1
def mirrorOf (good : Bool) : List Byte := mirrorHead ++ mirrorTable good ++ List.replicate 512 0

theorem mirror_parts (g : Bool) : (mirrorOf g).take 4096 = mirrorHead ∧ ((mirrorOf g).drop 4096).take 4096 = mirrorTable g
    ∧ ((mirrorOf g).drop 8192).take 512 = List.replicate 512 0 := by
  have h1 : ∀ w, (leBytes 4 w).length = 4 := by intro w; rfl
  have h0 : mirrorHead.length = 4096 := by
    have h2 : ∀ w, (leBytes 64 w).length = 64 := by intro w; rfl
    rw [mirrorHead, slotHeader]
    generalize 100 * 2 ^ 64 + 3 * 2 ^ (8 * 0x1C) + blkVer * 2 ^ (8 * 0x28) + 512 * 2 ^ (8 * 0x30) = w
    simp only [List.length_append, h1, List.length_replicate, List.length_take, List.length_drop, h2]
    decide
  have h3 : (mirrorTable g).length = 4096 := by
    cases g
    · exact List.length_replicate
    · have h4 : crcBytes (List.replicate 512 (0 : Byte)).length = 4096 := by rw [List.length_replicate]; decide
      have h5 : ∀ f : Nat → List Byte, (∀ j, (f j).length = 4) →
          ((List.range (ceilDiv (List.replicate 512 (0 : Byte)).length (2 ^ 20))).flatMap f).length = 4 := by
        intro f hf
        rw [List.length_replicate, show ceilDiv 512 (2 ^ 20) = 1 from by decide]
        simp [hf]
      rw [mirrorTable, if_pos rfl, crcTable]
      rw [h4, List.length_append, h5 _ (fun j => h1 _), List.length_replicate]
  refine ⟨?_, ?_, ?_⟩
  · rw [mirrorOf, List.append_assoc, List.take_left' h0]
  · rw [mirrorOf, List.append_assoc, List.drop_left' h0, List.take_left' h3]
  · rw [mirrorOf, List.drop_left' (by rw [List.length_append, h0, h3]), List.take_of_length_le (by rw [List.length_replicate])]

def fabric (op : Nat) : CmdRule :=
  ⟨op, false, decide (op = 0x501), true, match op with
    | 0x400 => [(0x18, 0, 10), (0x20, 0, 52), (0x28, 0, 32)]
    | 0x401 => [(0x18, 0, 10), (0x20, 0, 52), (0x28, 0, 32)]
    | 0x402 => [(0x20, 0, 52), (0x28, 0, 32)]
    | 0x403 => [(0x18, 0, 12), (0x20, 0, 52), (0x28, 0, 21)]
    | 0x404 => [(0x18, 0, 12)]
    | 0x405 => [(0x18, 0, 2)]
    | 0x406 => [(0x18, 0, 6)]
    | 0x500 => [(0x18, 0, 48), (0x20, 0, 32), (0x24, 0, 5)]
    | 0x501 => [(0x18, 0, 9)]
    | 0x503 => [(0x18, 0, 10), (0x18, 16, 2)]
    | _ => []⟩

/-- The image of `n` bytes at VA 0 that command `op` reads. -/
def imageOf (op n : Nat) (s : State) : Option (List Byte) := (markStarted 0 3 (asked op 0 [(0x28, 0, n)] s)).imageAt 0 0 n


/-- A table image reads back as its records, whatever their CRC. -/
theorem imageBody_tableOf (t n size : Nat) (recs : List Byte) (ht : t < 256) (hn : n < 2 ^ 16) (hr : recs.length = n * size) :
    imageBody t size (tableOf t n recs []) = some (n, recs, []) := by
  have hc : (crc32 recs).toNat < 2 ^ 32 := (crc32 recs).isLt
  have hl : ∀ w, (leBytes 64 w).length = 64 := by intro w; rfl
  have ho : ofLe (leBytes 64 (n + t * 2 ^ 16 + 2 ^ 24 + (crc32 recs).toNat * 2 ^ 32))
      = n + t * 2 ^ 16 + 2 ^ 24 + (crc32 recs).toNat * 2 ^ 32 := by
    rw [ofLe_leBytes]
    exact Nat.mod_eq_of_lt (by norm_num; omega)
  have h1 : (tableOf t n recs []).take 64 = leBytes 64 (n + t * 2 ^ 16 + 2 ^ 24 + (crc32 recs).toNat * 2 ^ 32) := by
    simp [tableOf, hl]
  have h2 : (tableOf t n recs []).drop 64 = recs := by
    rw [tableOf, List.append_nil, List.drop_left' (hl _)]
  have h3 : (tableOf t n recs []).length = 64 + n * size := by simp [tableOf, hl, hr]
  have h4 : (tableOf t n recs []).drop (64 + n * size) = [] := List.drop_eq_nil_of_le (by omega)
  unfold imageBody
  simp only [h1, h2, ho]
  have f0 : fld (n + t * 2 ^ 16 + 2 ^ 24 + (crc32 recs).toNat * 2 ^ 32) 0 16 = n := by unfold fld; omega
  have f1 : fld (n + t * 2 ^ 16 + 2 ^ 24 + (crc32 recs).toNat * 2 ^ 32) 24 8 = 1 := by unfold fld; omega
  have f2 : fld (n + t * 2 ^ 16 + 2 ^ 24 + (crc32 recs).toNat * 2 ^ 32) 16 8 = t := by unfold fld; omega
  have f3 : (n + t * 2 ^ 16 + 2 ^ 24 + (crc32 recs).toNat * 2 ^ 32) / 2 ^ 64 = 0 := by omega
  have f4 : fld (n + t * 2 ^ 16 + 2 ^ 24 + (crc32 recs).toNat * 2 ^ 32) 32 32 = (crc32 recs).toNat := by unfold fld; omega
  have h5 : recs.take (n * size) = recs := by rw [← hr, List.take_length]
  simp only [f0, f1, f2, f3, f4, h4, h5]
  rw [if_neg (by simp [h3, hr])]

theorem records_append (b : List Byte) (k : Nat) : ∀ (n : Nat) (a : List Byte), a.length = 8 * n →
    records 8 (n + k) (a ++ b) = records 8 n a ++ records 8 k b := by
  intro n
  induction n with
  | zero => intro a h; simp [List.length_eq_zero_iff.mp h, records]
  | succ n ih =>
    intro a h
    have h1 : (a.drop 8).length = 8 * n := by rw [List.length_drop]; omega
    rw [show n + 1 + k = (n + k) + 1 by omega]
    simp only [records, List.cons_append]
    rw [List.take_append_of_le_length (by omega), List.drop_append_of_le_length (by omega), ih _ h1]

theorem records_zeros : ∀ k, records 8 k (List.replicate (8 * k) 0) = List.replicate k 0 := by
  intro k
  induction k with
  | zero => rfl
  | succ k ih =>
    have h : (List.replicate (8 * (k + 1)) (0 : Byte)) = List.replicate 8 0 ++ List.replicate (8 * k) 0 := by
      rw [← List.replicate_add]; congr 1; omega
    have h0 : ofLe (List.replicate 8 0) = 0 := by decide
    rw [records, h, List.take_left' (by simp), List.drop_left' (by simp), ih, h0]
    rfl

theorem routeImage_of (bs recs : List Byte) (n : Nat) (h : imageBody 1 8 bs = some (n, recs, []))
    (h1 : (records 8 n recs).all (fun r => fld r 56 7 == 0) = true) : routeImage bs = some (records 8 n recs) := by
  unfold routeImage
  rw [h]
  exact if_pos h1

/-- A route image of 1,024 records, or of 5, passes. -/
theorem witness_routeImages : ∀ n ∈ [1024, 5], (routeImage (routes1 n)).map List.length = some n := by
  intro n hn
  obtain ⟨k, rfl⟩ : ∃ k, n = 5 + k := ⟨n - 5, by simp only [List.mem_cons, List.not_mem_nil, or_false] at hn; omega⟩
  have hk : 5 + k < 2 ^ 16 := by simp only [List.mem_cons, List.not_mem_nil, or_false] at hn; omega
  let a : List Byte := List.replicate 32 0 ++ leBytes 8 0x8000000000000002
  have ha : a.length = 8 * 5 := by decide
  have h1 : routeRecs (5 + k) = a ++ List.replicate (8 * k) 0 := by
    rw [routeRecs, show 8 * (5 + k) - 40 = 8 * k by omega]
  have h2 : (routeRecs (5 + k)).length = (5 + k) * 8 := by rw [h1, List.length_append, ha, List.length_replicate]; omega
  have h3 : records 8 (5 + k) (routeRecs (5 + k)) = records 8 5 a ++ List.replicate k 0 := by
    rw [h1, records_append _ k 5 a ha, records_zeros]
  have h4 : (records 8 5 a).all (fun r => fld r 56 7 == 0) = true ∧ (records 8 5 a).length = 5 := by decide +kernel
  have h5 : imageBody 1 8 (routes1 (5 + k)) = some (5 + k, routeRecs (5 + k), []) :=
    imageBody_tableOf 1 (5 + k) 8 (routeRecs (5 + k)) (by omega) hk h2
  have h6 : (records 8 5 a ++ List.replicate k 0).all (fun r => fld r 56 7 == 0) = true := by
    rw [List.all_append, h4.1, Bool.true_and, List.all_eq_true]
    intro x hx
    rw [List.eq_of_mem_replicate hx]
    rfl
  have h7 : (records 8 5 a ++ List.replicate k 0).length = 5 + k := by rw [List.length_append, h4.2, List.length_replicate]
  rw [routeImage_of (routes1 (5 + k)) (routeRecs (5 + k)) (5 + k) h5 (by rw [h3]; exact h6), h3, Option.map_some, h7]

theorem readVa_firstPage (t : State) (bs : List Byte) (hsp : (t.part 0).space = ((mapped up).part 0).space)
    (hreg : t.regions = (mapped up).regions) (hcfg : t.cfg = up.cfg)
    (hch : t.channel 0 = { (mapped up).channel 0 with mem := cellsFrom 0 0 0 bs }) (hn : bs.length ≤ 2 ^ 25) :
    t.imageAt 0 0 bs.length = some bs := by
  have h1 := readVa_known t 0 (kget 0 (cellsFrom 0 0 0 bs)) bs.length 0
    (fun k hk => byteVa_firstPage t _ hsp hreg hcfg hch _ (by omega))
  have h2 : (List.range bs.length).map (fun k => kget 0 (cellsFrom 0 0 0 bs) (0 + k)) = bs := by
    have h3 := take_drop_of_getD bs 0 0 bs.length (by omega)
    rw [List.drop_zero, List.take_length] at h3
    refine Eq.trans (List.map_congr_left (fun i _ => ?_)) h3
    have h4 := kget_cellsFrom 0 0 bs 0 i
    rwa [show 0 + 0 + i = 0 + i by omega, show bs.getD i 0 = bs.getD (0 + i) 0 by rw [Nat.zero_add]] at h4
  rw [h2] at h1
  rw [State.imageAt, h1]

/-- Commands 0x400 and 0x401 read these images whole from VA 0. -/
theorem witness_routesRead : ∀ n ∈ [1024, 5], imageOf 0x400 (64 + 8 * n) (holding (routes1 n) up) = some (routes1 n) := by
  intro n hn
  have h5 : 5 ≤ n ∧ n ≤ 1024 := by simp only [List.mem_cons, List.not_mem_nil, or_false] at hn; omega
  have hlen : (routes1 n).length = 64 + 8 * n := by
    have h1 : (leBytes 8 0x8000000000000002).length = 8 := by decide
    have h2 : ∀ w, (leBytes 64 w).length = 64 := by intro w; rfl
    rw [routes1, tableOf, List.append_nil, List.length_append, h2, routeRecs, List.length_append, List.length_append, h1,
      List.length_replicate, List.length_replicate]
    omega
  have h := readVa_firstPage (markStarted 0 3 (asked 0x400 0 [(0x28, 0, 64 + 8 * n)] (holding (routes1 n) up))) (routes1 n)
    (by simp only [markStarted, asked, holding, State.part, State.modRing_parts, State.modChannel_parts])
    (by simp only [markStarted, asked, holding, State.modRing_regions, State.modChannel_regions])
    (by simp only [markStarted, asked, holding, State.modRing_cfg, State.modChannel_cfg]; rfl)
    (by simp only [markStarted, asked, holding, State.channel, State.modRing_channels]; exact kget_kset_same _ _ _ _) (by omega)
  rw [hlen] at h
  unfold imageOf
  exact h

theorem witness_FabricAsked :
    ∀ s ∈ [up, jobRun []], ∀ n ∈ [1024, 5],
      may (fabric 0x400) 0 [(0x28, 0, 64 + 8 * n)] (holding (routes1 n) s) = true
      ∧ may (fabric 0x401) 0 [(0x18, 0, 1020), (0x28, 0, 64 + 8 * n)] (holding (routes1 n) s) = true := by decide +kernel

theorem witness_FabricCommands :
    (∀ s ∈ [up, (jobRun []).modPart 0 (fun q => { q with chor := q.chor.map (fun c => { c with tempoGroup := 2 }) })], ∀ root : Bool,
      may (fabric 0x402) 0 [(0x28, 0, 98)] (holding (groups1 root) s) = true
      ∧ (imageOf 0x402 98 (holding (groups1 root) s)).bind groupImage = some [(2, ⟨true, root, 2, 0, 5, [6]⟩)])
    ∧ (∀ s ∈ [mapped up, mapped (jobRun [])], ∀ b ∈ [0, 1, 2], may (fabric 0x403) 0 [(0x20, 0, b * 2 ^ 25), (0x28, 0, 1)] s = true
      ∧ may (fabric 0x404) 0 [] s = true ∧ s.ownsLb 0 0 = true
      ∧ s.pinned 0 (b * 2 ^ 25) 4096 = decide (b = 0) ∧ s.regionRefused 0 (b * 2 ^ 25) 4096 = decide (b = 1))
    ∧ (up.ownsLb 0 4095 = false ∧ may (fabric 0x403) 0 [(0x18, 0, 4095), (0x28, 0, 1)] up = true ∧ may (fabric 0x404) 0 [(0x18, 0, 4095)] up = true)
    ∧ (∀ t ∈ [1, 2, 3], may (fabric 0x405) 0 [(0x18, 0, t)] up = true)
    ∧ (∀ n ∈ [0, 63], may (fabric 0x406) 0 [(0x18, 0, n)] up = true) ∧ up.portOwner 0 = some 0
    ∧ ({ up with prot := { up.prot with portPart := 1 } }).portOwner 0 = some 1
    ∧ (∀ b ∈ [0, 0x2000000], may (fabric 0x500) 0 [(0x18, 0, b), (0x20, 0, 1), (0x24, 0, 2)] up = true ∧ up.snapFields 0 b 1 2 = decide (b ≠ 0))
    ∧ (∀ s ∈ [snapLoaded, jobRun []], ∀ k ∈ [0, 0x100], may (fabric 0x501) 7 [(0x18, 0, k)] s = true)
    ∧ (let h := (readHeader mirrorHead).filter (fun h => decide (h.state = 2))
      h.map (·.bodyBytes) = some 512 ∧ (h.bind (snapLoaded.restorable 0)).isSome = true ∧ h.map (job7.restorable 0) = some none)
    ∧ (∀ g : Bool, crcsOk (mirrorTable g) (List.replicate 512 0) = g)
    ∧ readHeader [] = none ∧ may (fabric 0x502) 0 [] snapLoaded = true
    ∧ (∀ s ∈ [up, jobRun []], ∀ f ∈ [6, 2 ^ 17], may (fabric 0x503) 0 [(0x18, 0, f)] s = true) := by
  refine ⟨?_, ?_, ?_, ?_, ?_, ?_, ?_, ?_, ?_, ?_, ?_, ?_, ?_, ?_⟩ <;> decide +kernel

/-- Board NVM holds a boot record of generation 5 with these slot states. -/
def booted (a b : Nat) : State :=
  { up with nvm := ((BootRec.bytes ⟨5, a, b, 0, 0⟩).zipIdx.filter (fun x => decide (x.1 ≠ 0xFF))).map (fun x => (x.2, x.1)) }

/-- A Fremund image of 64 zero bytes, its digest right (R517). -/
def image64 : List Byte :=
  let body := List.replicate 64 (0 : Byte)
  leBytes 16 (0x0A5E0B01 + 64 * 2 ^ 64) ++ digestBytes (sha384 body) ++ List.replicate 448 0 ++ body

/-- It stands in slot B; slot A is ACTIVE. -/
def staged : State := { booted 1 0 with nvm := (booted 1 0).nvm ++ cellsFrom 0xFF 0x900000 0 image64 }

theorem staged_read (k n : Nat) (h : k + n ≤ 576) : staged.nvmRead (0x900000 + k) n = (image64.drop k).take n := by
  have hl : image64.length = 576 := by
    have h1 : ∀ w, (leBytes 16 w).length = 16 := by intro w; rfl
    have h2 : ∀ w, (leBytes 48 w).length = 48 := by intro w; rfl
    rw [image64, List.length_append, List.length_append, List.length_append, h1, digestBytes, List.length_reverse, h2,
      List.length_replicate, List.length_replicate]
  exact nvmRead_image staged (booted 1 0).nvm 0x900000 image64 rfl (by decide +kernel) k n (by omega)

theorem witness_staged : staged.stagedOk 1 576 = true := by
  have h0 : staged.nvmRead 0x900000 512 = image64.take 512 := staged_read 0 512 (by omega)
  have h1 : staged.nvmRead 0x900008 4 = (image64.drop 8).take 4 := staged_read 8 4 (by omega)
  have h2 : ofLe ((image64.drop 8).take 4) = 64 := by decide +kernel
  have h3 : staged.nvmRead 0x900200 64 = (image64.drop 512).take 64 := staged_read 512 64 (by omega)
  have h4 : staged.imageLen 0x900000 = 64 := by rw [State.imageLen, h1, h2]
  have h5 : staged.imageBody 0x900000 = (image64.drop 512).take 64 := by rw [State.imageBody, h4, h3]
  unfold State.stagedOk
  rw [show fwSlotAt 1 = 0x900000 from rfl]
  dsimp only
  rw [h0, h5]
  decide +kernel

def service (op : Nat) : CmdRule :=
  ⟨op, decide (op ≠ 0x600 ∧ op ≠ 0x620), false, false, match op with
    | 0x600 => [(0x18, 0, 1)]
    | 0x610 => [(0x18, 0, 2)]
    | 0x611 => [(0x18, 0, 16)]
    | 0x700 => [(0x18, 0, 6)]
    | 0x701 => [(0x18, 0, 6)]
    | 0x800 => [(0x18, 0, 52), (0x20, 0, 23), (0x24, 0, 17)]
    | 0x801 => [(0x18, 0, 23)]
    | 0x802 => [(0x18, 0, 1)]
    | _ => []⟩

theorem witness_ServiceCommands :
    (∀ k ∈ [0, 1], may (service 0x600) 0 [(0x18, 0, k)] up = true)
    ∧ (∀ n ∈ [0, 1, 2, 3], ∀ s ∈ [up, jobRun [], { up with pmu := { up.pmu with transition := true } }],
      may (service 0x610) 0 [(0x18, 0, n)] s = true) ∧ up.pmu.state = 0 ∧ up.busyNow = false ∧ (jobRun []).anyRun = true ∧ up.anyRun = false
    ∧ (∀ v ∈ [0, maxPower up.cfg, maxPower up.cfg + 1], may (service 0x611) 0 [(0x18, 0, v)] up = true)
    ∧ may (service 0x620) 0 [] up = true
    ∧ (∀ c ∈ [0, 63], ∀ s ∈ [up, jobRun [], { up with prot := { up.prot with dbgHalt := false } }], may (service 0x700) 0 [(0x18, 0, c)] s = true)
    ∧ up.cfg.cores = 64 ∧ (Design.mk 2 2 48 8 8).cores ≤ 63 ∧ up.debugPart 0 = some 0
    ∧ (∀ copying : Bool, may (service 0x701) 0 [] (haltedAt 0 copying) = true ∧ (haltedAt 0 copying).copyingFrom 0 = copying)
    ∧ (∀ n ∈ [0, 64], ∀ u ∈ [0, 2], may (service 0x800) 0 [(0x24, 0, n)] (mapped (booted 1 u)) = true
      ∧ (mapped (booted 1 u)).bootRec.map (fun x => (x.1, x.2.gen, x.2.updating)) = some (0, 5, decide (u = 2)))
    ∧ (mapped (booted 1 0)).pinned 0 0 64 = true
    ∧ (∀ u ∈ [0, 2], may (service 0x801) 0 [(0x18, 0, 576)] (booted 1 u) = true)
    ∧ may (service 0x801) 0 [(0x18, 0, 576)] staged = true ∧ staged.bootRec = some (0, ⟨5, 1, 0, 0, 0⟩) ∧ (BootRec.mk 5 1 0 0 0).spare = 1
    ∧ (booted 1 0).stagedOk 1 576 = false
    ∧ (∀ u ∈ [0, 2], ∀ k ∈ [0, 1], may (service 0x802) 0 [(0x18, 0, k)] (booted 1 u) = true
      ∧ ((booted 1 u).bootRec.bind (fun x => x.2.slotIn 2)).isSome = decide (u = 2)) ∧ up.workOpen = false ∧ job7.workOpen = true
    ∧ (∀ s ∈ [up, booted 1 0, booted 1 3], may (service 0x803) 0 [] s = true) ∧ up.bootRec = none
    ∧ (booted 1 3).bootRec = some (0, ⟨5, 1, 3, 0, 0⟩) ∧ (BootRec.mk 5 1 3 0 0).slotIn 3 = some 1 ∧ (BootRec.mk 5 1 0 0 0).slotIn 3 = none := by
  refine ⟨?_, ?_, ?_, ?_, ?_, ?_, ?_, ?_, ?_, ?_, ?_, ?_, ?_, ?_, ?_, ?_, ?_, ?_, ?_, ?_, ?_⟩ <;> decide +kernel

/-! ### Witnesses: snapshots, power, resets, registers -/

/-- A snapshot of 512 bytes at VA 0 and of row 0 of core 0, staged at VA 2^24. -/
def manifest0 (mirror : Bool) : Manifest := ⟨mirror, 2 ^ 20, 64, 2 ^ 24, 2 ^ 20, [.mem 0 512, .spm 0 0 1]⟩

/-- That snapshot, of Figure 1 and beat 640, in the staging area: partition 0 has two slots of 1 MB, the second the latest. -/
def snapping (m : Bool) (f : Snap → Snap) : State :=
  (mapped ((linked (running (chorOf [figOf 1 (.snapshot (manifest0 m))]) (runOf 1 []))).modCore 0
    (fun c => { c with spm := [(0, 7)] }))).modPart 0 (fun q => { q with snap := f { q.snap with
      set := true, nvmBase := 0x2000000, slotMb := 1, slots := 2, latest := some 1, staging := some (640, List.replicate 512 0), stageFig := 1
      stageHdr := List.replicate 64 0 } })

/-- Its body, once copied: zeros, and row 0 with its first byte 7. -/
def body0 : List Byte := List.replicate 1024 0 ++ 7 :: List.replicate 511 0

/-- An NVM request for a line of slot 0, of partition 0's snapshot or of none. -/
def asking (op why : Nat) (s : State) : State := { s with nvmReqs := [⟨2, op, 0x2000000, 1, 5, why⟩] }

/-- Partition 0 waits for node 6 to answer its SET_PARTNER, which allows a shared feed or not; this board's feed is 3. -/
def partnering (same : Bool) : State :=
  let s := waitingFor 0x503 (.setPartner 6 same) (snapping false id)
  { s with pins := { s.pins with feed := 3 } }

/-- Partition 0's mirror landing buffer is 64 KiB, and it holds what `held` says. -/
def mirrored (held : Option MirrorHeld) : State :=
  let s := snapping false (fun n => { n with held := held })
  s.setLb (s.mirrorLb 0) ⟨true, 0, 65536⟩

theorem witness_SnapshotsAndPartners :
    (let s := snapping false id
     (s.part 0).snap.staging = some (640, List.replicate 512 0) ∧ (s.part 0).stageManifest = some (manifest0 false) ∧ s.cc2Runs = true
      ∧ (s.part 0).snap.writing = false ∧ (s.part 0).snap.mirroring = false ∧ s.nvmReqs = []
      ∧ s.copyRanges 0 [] (manifest0 false).ranges (List.replicate 512 0) = .ok body0
      ∧ s.copyRanges 0 [(0, 0)] (manifest0 false).ranges (List.replicate 512 0) = .parity 0 0)
    ∧ (let s := (snapping false id).modChannel 0 (fun c => { c with poison := [0] })
      ∃ l, s.copyRanges 0 [] (manifest0 false).ranges (List.replicate 512 0) = .memory l)
    ∧ (let s := snapping false (fun n => { n with staging := some (640, body0), writing := true })
      s.cc2Runs = true ∧ s.snapAsked 0 = false ∧ (s.part 0).snap.mirroring = false)
    ∧ (let s := snapping false (fun n => { n with staging := none })
      s.cc2Runs = true ∧ (s.part 0).snap.set = true ∧ (s.part 0).snap.latest ≠ some (s.part 0).snap.nextSlot ∧ s.nvmReqs = [])
    ∧ (∀ op ∈ [1, 2], ∀ why ∈ [0, 1], (asking op why (snapping false (fun n => { n with writing := true }))).nvmReqs.find?
        (fun r => decide (r.tag = 2)) = some ⟨2, op, 0x2000000, 1, 5, why⟩)
    ∧ (snapping true (fun n => { n with mirroring := true, mirrorSent := true, partner := some 6 })).cc2Runs = true
    ∧ (∀ same : Bool, (((partnering same).ring 0).find 3).isSome = true ∧ (partnering same).cc2Runs = true
      ∧ ((partnering same).part 0).waiting = [⟨0, 3, .setPartner 6 same⟩] ∧ ((partnering same).part 0).snap.slotMb = 1
      ∧ (partnering same).pins.feed = 3)
    ∧ (∀ held ∈ [none, some (MirrorHeld.mk 6 0 false 0 0 0 true)], let s := mirrored held
      s.cc2Runs = true ∧ (kget 0 (s.part 0).plane.routes 6).getLsbD 63 = true ∧ s.nextPort 0 6 = some 0 ∧ s.mirrorOffer 0 6 = 65536
      ∧ (s.part 0).snap.held = held) := by
  refine ⟨by decide +kernel, ?_, by decide +kernel, by decide +kernel, by decide +kernel, by decide +kernel, by decide +kernel,
    by decide +kernel⟩
  refine ⟨.hbm 0 0, ?_⟩
  decide +kernel

/-- Figure 1 in progress, or none, while Fremund runs. -/
def hotRun (fs : List RunFig) : State := running (chorOf [figOf 1 .transferOnly]) (runOf 1 fs)

theorem witness_PowerAndThermal :
    up.pins.phase = .running ∧ up.pmu.state = 0 ∧ up.pmu.transition = false ∧ up.busyNow = false ∧ up.pmu.stretch = false
    ∧ (1000 * up.pmu.capW < 1000 * up.pmu.capW + 1 ∧ ¬ 1000 * up.pmu.capW < 1000 * up.pmu.capW
      ∧ 950 * up.pmu.capW - 1 < 950 * up.pmu.capW ∧ ¬ 950 * up.pmu.capW < 950 * up.pmu.capW)
    ∧ (let u := { up.pmu with stretch := true, monEn := 1, droopPosted := true, duty := 8 }
      u.stretch = true ∧ u.droopPosted = true ∧ u.droopCount < 0xFFFF ∧ u.duty < 16 ∧ u.monEn.getLsbD (1 - 1) = true)
    ∧ (up.pmu.dieTripC = 115 ∧ up.pmu.dieHotC = 100 ∧ up.pmu.dieLevel = 0)
    ∧ (∀ fs ∈ [[], [inWork 0]], ((hotRun fs).part 0).run = some (runOf 1 fs) ∧ (hotRun fs).pins.phase = .running)
    ∧ (∀ a ∈ [0, 2, 3], ∀ b ∈ [0, 3], let s := linked { up with pmu := { up.pmu with state := a, target := b, transition := true } }
      s.pmu.transition = true ∧ (s.port 0).state = .up ∧ s.pins.phase = .running) := by decide +kernel

/-! A signed image, made with OpenSSL: a P-384 key pair, SHA-384. -/

/-- Bytes of a number, the first the most significant. -/
def beBytes (n v : Nat) : List Byte := (leBytes n v).reverse

/-- The signer's public key, and its SHA-384. -/
def signerKey : List Byte := beBytes 97
  0x46f33a7e25f3d6a178c15b9c8463879c9477636bc831c2fb7bba99b9e8ef86055556fd655bc06d425933a6720d7b4d5f116e119e8c7aaaf9ff1b52b61170a613f86a4713e37c3c2fda368ee3a235e75607470a25618a8a928b3ab697d87977c8a

def signerHash : List Byte := beBytes 48 0x63d1353e4c07da718ac59671f0f43687f9bc4b27afe8317b9b5b7752e72850f80d1423aa54beb66584675276807facb8

/-- A header and body with this MAGIC and signature (R517). -/
def signedImage (magic sig : Nat) (body : List Byte) : List Byte :=
  leBytes 16 (magic + body.length * 2 ^ 64) ++ digestBytes (sha384 body) ++ signerKey ++ List.replicate 95 0 ++ beBytes 96 sig
    ++ List.replicate 160 0 ++ body

/-- Protection records: an offset and a value each. -/
def recordBytes (rs : List (Nat × Nat)) : List Byte := rs.flatMap (fun x => leBytes 4 x.1 ++ leBytes 4 x.2)

/-- The block in mission mode before LOCK, the fuses of KEY_HASH read, and word `i` asked for. -/
def asksFuse (i : Nat) : State :=
  { State.reset with pins := { State.reset.pins with
    phase := .running, fuseReq := true, fuseAddr := i
    fuses := (List.range 12).map (fun k => (k, BitVec.ofNat 32 (ofLe ((signerHash.drop (4 * k)).take 4)))) } }

/-- The protection image of these records, under this signature; board NVM that holds it. -/
def protImage (sig : Nat) (rs : List (Nat × Nat)) : List Byte := signedImage 0x0A5E0B02 sig (recordBytes rs)
def boards (sig : Nat) (rs : List (Nat × Nat)) : State := { asksFuse 13 with nvm := cellsFrom 0xFF 0x10000 0 (protImage sig rs) }

def goodSig : Nat :=
  0x9e101a246db5105e44df60a7a688f352f0461b10e65570a80905589a6c4bd4a49867325501b5cba76648f9df487e1fd7171e58da211ef2e03b0350354af7c2c326178c8c80e17814ef4d493960a60d54b01e69def9158fa2dc52a68834c01f8c
def goodRecords : List (Nat × Nat) := [(0x20008, 0xFFFF), (0x20030, 0xC), (0x20040, 0xC)]
def badSig : Nat :=
  0xc14200f19e44a8532a3b7cbf61797fae75f70acd87d1493a2d85750487e0a313758677ef35280529828cddc74310940c3555085fc8b963826f27026f9e8b5168e4e8c502baef6f50363bd8de14dfd372e12beed1760b83717e9b58877a86f2a1
def badRecords : List (Nat × Nat) := [(0x20000, 1)]

/-- Every Set enabled; ring 0 administrative and requester 0 an administrator, both partition 0's. -/
def boardGood : State := boards goodSig goodRecords

/-- The same board where a region is VALID without a size, so LOCK is refused. -/
def boardRefused : State := { boardGood with regions := [(0, ⟨0, 0, 0, true, 0, false, 0, 0, 0, none⟩)] }

/-- A record names an offset that is no RWL register. -/
def boardBad : State := boards badSig badRecords

/-- What boot holds once its fuses are read, and once the records are written. -/
def afterFuses (s : State) : State :=
  { s with
    pins := { s.pins with fuses := kset 0 s.pins.fuses 13 0, fuseAddr := 14, fuseReq := false }
    prot := { s.prot with svnMin := 0, bootStage := 1 } }

def afterRecords (s : State) (rs : List (Nat × Nat)) : Option State :=
  (writeRecords rs (afterFuses s)).map (fun t => { t with prot := { t.prot with bootStage := 2, protMeasure := measureOf ((afterFuses s).nvmRead 0x10010 48) } })

/-- A stored image verifies where its parts do: the tests of R519 on the image's bytes. -/
theorem imageFault_stored (s : State) (img : List Byte) (hs : s.nvm = cellsFrom 0xFF 0x10000 0 img) (hl : 512 + ofLe ((img.drop 8).take 4) = img.length)
    (he : s.pins.nvmErr = false) (hg : headerGood 0x0A5E0B02 (2 ^ 16) (img.take 512) = true) (hk : s.keyHash = signerHash) (hv : s.minSvn = 0)
    (h3 : digestBytes (sha384 (cut (img.take 512) 0x40 97)) = signerHash)
    (h5 : ecdsaP384 (cut (img.take 512) 0x40 97) (sha384 ((img.take 512).take 256)) (cut (img.take 512) 0x100 96) = true)
    (h6 : digestBytes (sha384 (img.drop 512)) = cut (img.take 512) 0x10 48) :
    s.imageBody 0x10000 = img.drop 512 ∧ s.imageFault 0x0A5E0B02 (2 ^ 16) 0x10000 = none := by
  have r0 : s.nvmRead 0x10000 512 = img.take 512 :=
    nvmRead_image s [] 0x10000 img hs (fun x hx => absurd hx List.not_mem_nil) 0 512 (by omega)
  have r1 : s.nvmRead 0x10008 4 = (img.drop 8).take 4 :=
    nvmRead_image s [] 0x10000 img hs (fun x hx => absurd hx List.not_mem_nil) 8 4 (by omega)
  have r2 : s.nvmRead 0x10200 (ofLe ((img.drop 8).take 4)) = (img.drop 512).take (ofLe ((img.drop 8).take 4)) :=
    nvmRead_image s [] 0x10000 img hs (fun x hx => absurd hx List.not_mem_nil) 512 _ (by omega)
  have hb : s.imageBody 0x10000 = img.drop 512 := by
    rw [State.imageBody, State.imageLen, r1, r2, List.take_of_length_le (by rw [List.length_drop]; omega)]
  have hz : signerHash.all (fun b => decide (b = 0)) = false := by decide +kernel
  refine ⟨hb, ?_⟩
  unfold State.imageFault
  dsimp only
  rw [r0, he, hg, hk, hz]
  simp [h3, hv, h5, hb, h6]

theorem witness_imageVerifies :
    (afterFuses boardGood).imageBody 0x10000 = recordBytes goodRecords
    ∧ (afterFuses boardGood).imageFault 0x0A5E0B02 (2 ^ 16) 0x10000 = none := by
  have h := imageFault_stored (afterFuses boardGood) (protImage goodSig goodRecords) rfl (by decide +kernel) rfl (by decide +kernel)
    (by decide +kernel) (by decide +kernel) (by decide +kernel) (by decide +kernel) (by decide +kernel)
  exact ⟨h.1.trans (by decide +kernel), h.2⟩

theorem witness_refusedVerifies :
    (afterFuses boardRefused).imageBody 0x10000 = recordBytes goodRecords
    ∧ (afterFuses boardRefused).imageFault 0x0A5E0B02 (2 ^ 16) 0x10000 = none := witness_imageVerifies

theorem witness_badVerifies :
    (afterFuses boardBad).imageBody 0x10000 = recordBytes badRecords
    ∧ (afterFuses boardBad).imageFault 0x0A5E0B02 (2 ^ 16) 0x10000 = none := by
  have h := imageFault_stored (afterFuses boardBad) (protImage badSig badRecords) rfl (by decide +kernel) rfl (by decide +kernel)
    (by decide +kernel) (by decide +kernel) (by decide +kernel) (by decide +kernel) (by decide +kernel)
  exact ⟨h.1.trans (by decide +kernel), h.2⟩

/-- Bring-up: Fremund runs, nothing is trained. -/
def bringing : State := up

theorem witness_ResetsAndBringUp :
    (∀ ph ∈ [Phase.running, .testMode, .entry, .cold, .held], let s := { up with pins := { up.pins with phase := ph } }
      s.pins.phase = ph ∧ s.nvmReqs = [] ∧ s.pmu.monEn = 0x7FFF)
    ∧ (let s := (mapped up).modChannel 0 (fun c => { c with mem := [(0, 1)] })
      (s.channel 0).mem ≠ [] ∧ (∀ k, k < 1024 → (s.channel k).wcb = []) ∧ (s.stackAt 0).staged = 0)
    ∧ (∀ i ∈ [0, 13, 16, 271], (asksFuse i).pins.fuseReq = true ∧ (asksFuse i).pins.fuseAddr = i ∧ (asksFuse i).prot.lock = false)
    ∧ (afterFuses (asksFuse 13)).imageFault 0x0A5E0B02 (2 ^ 16) 0x10000 = some 2
    ∧ (protRecords (recordBytes badRecords) = badRecords ∧ writeRecords badRecords (afterFuses boardBad) = none)
    ∧ (protRecords (recordBytes goodRecords) = goodRecords
      ∧ (afterRecords boardRefused goodRecords).bind State.lockRefusal = some (1, 0)
      ∧ (afterRecords boardGood goodRecords).map State.lockRefusal = some none)
    ∧ (up.fwRunning = true ∧ up.fw.selfTests = false ∧ up.fw.hbmTrained = false ∧ up.setEnabled (3 / 4) = true)
    ∧ ((up.portOwner 0).isSome = true ∧ (up.port 0).state = .down
      ∧ ∀ al ∈ [0xFF, 0x0F, 0x3C], alignedLanes (kget [] [(0, lanesSeen al)] 0) = al)
    ∧ (let s := { mapped up with fw := { up.fw with selfTests := true, hbmTrained := true } }
      s.fw.hbmTrained = true ∧ s.fw.zeroed = false ∧ (s.channel 0).state = .online)
    ∧ (let s := { up with
          fw := { up.fw with selfTests := true, hbmTrained := true, zeroed := true }, regions := [(0, ⟨16, 0, 0, true, 1, true, 0, 0, 0, none⟩)] }
      s.fw.regionsBuilt = false ∧ (∀ k, k < 8 → (s.stackAt k).level ≠ 3) ∧ (s.ringOwner 0).isSome = true ∧ (s.region 0).valid = true
      ∧ (s.region 0).fw = true ∧ (s.region 0).mode ≤ 1)
    ∧ (let s := { up with pins := { up.pins with phase := .testMode, testReady := true } }
      s.pins.phase = .testMode ∧ s.pins.testReady = true) := by
  refine ⟨?_, ?_, ?_, ?_, ?_, ?_, ?_, ?_, ?_, ?_, ?_⟩ <;> decide +kernel

/-- Partition 0's telemetry ring of 16 records from VA 0. -/
def telemetry (on : Bool) : State :=
  (mapped up).modPart 0 (fun q => { q with telem := { q.telem with enable := on, records := 16, head := 3, tail := 1 } })

theorem witness_RegisterAccesses :
    up.cfg = Design.c16 ∧ up.hostOpen = true
    ∧ (∀ off ∈ [0x40008C, 0x300030, 0x500014, 0x600010, 0x60040C, 0x700018, 0x70080C, 0x100414, 0x200014, 0x20300, 0x20308, 0x6000, 0x6010,
        0x6014, 0x1100000, 0x1200000, 0x2000000, 0x2003FC0], up.admits 0 off true = true)
    ∧ (up.target 0x40008C = .core 0 ∧ up.target 0x300030 = .core 0 ∧ up.target 0x500014 = .admin ∧ up.target 0x600010 = .setCounter 0
      ∧ up.target 0x60040C = .admin ∧ up.target 0x700018 = .port 0 ∧ up.target 0x70080C = .admin ∧ up.target 0x100414 = .part 0
      ∧ up.target 0x200014 = .admin ∧ up.target 0x20300 = .prot true ∧ up.target 0x20308 = .prot true ∧ up.target 0x6000 = .part 0
      ∧ up.target 0x6010 = .part 0 ∧ up.target 0x6014 = .part 0 ∧ up.target 0x1100000 = .debugWin ∧ up.target 0x1200000 = .debugWin)
    ∧ up.partExists 0 = true
    ∧ ((telemetry false).part 0).telem.enable = false ∧ ((telemetry true).part 0).telem.enable = true
    ∧ (∀ n ∈ [0, 16], (telemetry false).telemReady 0 { ((telemetry false).part 0).telem with records := BitVec.ofNat 20 n } = decide (n = 16))
    ∧ (up.dbg.acmBusy = false ∧ up.dbg.spmBusy = false ∧ up.debugPart 0 = some 0 ∧ (up.core 0).halted = false
      ∧ ((haltedAt 0 false).core 0).halted = true ∧ ((haltedAt 0 false).core 0).fenced = false ∧ up.rowPowered 0 0 = true
      ∧ up.rowPowered 0 0x7FFF = false)
    ∧ (up.admits 0 0x40000 false = true ∧ (up.pair 0x40000).isSome = true)
    ∧ ((haltedAt 0 true).dbg.spmBusy = true ∧ up.pmu.state < 2 ∧ ({ up.dbg with acmBusy := true } : Debug).acmBusy = true)
    ∧ (∀ k ∈ [0x80], let s := { up with pins := { up.pins with jtagIr := k } }
      s.pins.phase = .running ∧ s.pins.jtagIr = 0x80 ∧ s.prot.lock = true ∧ s.prot.dbgJtag = true) := by
  refine ⟨?_, ?_, ?_, ?_, ?_, ?_, ?_, ?_, ?_, ?_, ?_, ?_⟩ <;> decide +kernel

/-! ### The spec's worked examples, standard check values, and the signed images -/

def f32 (c : Nat) : Machine.Num := fFP32.decode c

/-- BS8 (chapter Number Formats): 3.3, −0.7 and 0.01 give scale 0x7A and elements 0x6A, 0xEA and 0, with UNF and INX. -/
theorem test_block_bs8 :
    let x := fmtBlock .bs8 .rne [] [f32 0x40533333, f32 0xBF333333, f32 0x3C23D70A]
    x.1 = 0x7A ∧ x.2.1 = [0x6A, 0xEA, 0] ∧ x.2.2.unf = true ∧ x.2.2.inx = true ∧ x.2.2.ovf = false := by decide +kernel

/-- E4M3 of 1.3: RNE, RTZ, and SR at the draws of the example. -/
theorem test_e4m3_of_1_3 :
    (fmtConvert .e4m3 .rne false 0 0 (f32 0x3FA66666)).1 = 0x3A ∧ (fmtConvert .e4m3 .rtz false 0 0 (f32 0x3FA66666)).1 = 0x3A
    ∧ (fmtConvert .e4m3 .sr false 0xA1B2C3 0 (f32 0x3FA66666)).1 = 0x3B ∧ (fmtConvert .e4m3 .sr false 0x9999A0 0 (f32 0x3FA66666)).1 = 0x3B
    ∧ (fmtConvert .e4m3 .sr false 0x99999F 0 (f32 0x3FA66666)).1 = 0x3A ∧ (fmtConvert .e4m3 .sr false 0x123456 0 (f32 0x3FA66666)).1 = 0x3A
    ∧ (fmtConvert .e4m3 .rne false 0 0 (f32 0x3FA66666)).2 = flInx := by decide +kernel

/-- XS128 with RS 0: 3.5 and −1.0. -/
theorem test_xs128 :
    (fmtConvert .xs128 .rne false 0 0 (.fin false 7 (-1))).1 = 0x00000000000000000003800000000000
    ∧ (fmtConvert .xs128 .rne false 0 0 (.fin true 1 0)).1 = 0xFFFFFFFFFFFFFFFFFFFF000000000000 := by decide +kernel

/-- Split FP16 groups of one element each on grid −40: 16,094,208 units of 2^-27, the lo·lo product dropped. -/
theorem test_split_product :
    let a : Grp := ⟨[[3], [51]], 1 - 14, [], [819]⟩
    let b : Grp := ⟨[[76], [208]], 0 - 14, [], [19664]⟩
    let w := addGroup (-40) false a b ⟨0, 0, false, false, false⟩
    w.x = 16094208 * 2 ^ 13 ∧ w.inx = true ∧ w.sat = false := by decide +kernel

/-- E5M2 sums +g and −g after 2^79 − 2^36, in either order (grid −48). -/
theorem test_saturation_order :
    let g : Int := 105226698752 * 2 ^ 48
    let v : Int := (2 ^ 79 - 2 ^ 36) * 2 ^ 48
    (saturate ((saturate (v + g)).1 - g)).1 = 2 ^ 127 - 1 - g ∧ (saturate ((saturate (v - g)).1 + g)).1 = v := by decide +kernel

/-- The byte at PA 0x00_4123_4567 of the SPREAD region of the example lies on channel 162 at 0x4001_2367. -/
theorem test_place :
    ({ State.reset with regions := [(0, ⟨1024, 512, 32, true, 0, false, 0, 0, 0, some (List.range 256)⟩)] }).place 0x41234567
      = some (162, 0x40012367) := by decide +kernel

/-- The four-member chain: x and W on the way, and the saturated result. -/
theorem test_chain :
    let p : Int := 3 * 2 ^ 125
    chainAdd (0, p) p = (1, -(2 ^ 126)) ∧ chainAdd (1, -(2 ^ 126)) (-(2 ^ 125)) = (1, -3 * 2 ^ 125) ∧ chainAdd (1, -3 * 2 ^ 125) p = (1, 0)
    ∧ chainTotal (1, 0) = (2 ^ 127 - 1, true) := by decide +kernel

/-- The ring of the example is full, and 0xFF80 precedes 0x0080. -/
theorem test_ring_distance : dist16 0xFF80 0x0080 = 0x100 := by decide +kernel

/-- Requester 2 reads BEAT_CNT_LO, a beat passes, and its HI half is the one it latched. -/
theorem test_latch :
    let s : State := { up with beat := { up.beat with cnt := 0x1FFFFFFFF }, prot := { up.prot with hostReq := 0xC00000044C } }
    (match exec (.latchedLoRead 2 0x40000) s with
     | .next t => decide (({ t with beat := { t.beat with cnt := 0x200000000 } } : State).readReg 2 0x40004 = 1)
     | _ => false) = true := by decide +kernel

/-- Core 21 of partition 1 with quarters 0 and 1 powered: row 6,200 copies, row 12,288 sets RANGE, and without partition 1 in DBG_PART
a copy is denied. -/
theorem test_spm_window :
    let s : State := ((haltedAt 21 false).modPart 1 (fun q => { q with quarterOn := 3 }))
    let t : State := { s with
      dbg := { s.dbg with spmBusy := false }
      prot := { s.prot with setPart := 0x400, dbgPart := 2 } }
    (match exec (.spmDbgGo 0 0x98380015) t with
     | .next u => u.dbg.spmBusy && !u.dbg.spmDenied && !u.dbg.spmNotHalted && !u.dbg.spmRange
     | _ => false) = true
    ∧ (match exec (.spmDbgGo 0 0xB0000015) t with
       | .next u => !u.dbg.spmBusy && u.dbg.spmRange
       | _ => false) = true
    ∧ (match exec (.spmDbgGo 0 0x98380015) { t with prot := { t.prot with dbgPart := 1 } } with
       | .next u => !u.dbg.spmBusy && u.dbg.spmDenied
       | _ => false) = true := by decide +kernel

/-- CRC-32 of "123456789" and SHA-384 of "abc" (their standards' check values). -/
theorem test_crc32 : crc32 [0x31, 0x32, 0x33, 0x34, 0x35, 0x36, 0x37, 0x38, 0x39] = 0xCBF43926 := by decide +kernel

theorem test_sha384 : sha384 [0x61, 0x62, 0x63]
    = 0xCB00753F45A35E8BB5A03D699AC65007272C32AB0EDED1631A8B605A43FF5BED8086072BA1E7CC2358BAECA134C825A7 := by decide +kernel

end Sys2Proof.Tests
end

section
/-! PROOF. The register window (R21, R522, R593, R622, R656, R665): what a status word does to its counters and bits, which register an
offset names, and the effect of each access that the firewall admits. -/

namespace Sys2Proof.Machine

/-! ### The bits of a written status word -/

theorem bit_eq_testBit (v i : Nat) : bit v i = v.testBit i := by
  simp [bit, fld, Nat.testBit_eq_decide_div_mod_eq]

/-- A saturation bit held in a field: a 1 clears it, and so does CLEAR. -/
theorem getLsbD_w1cField {n i : Nat} (x : BitVec n) (v : Nat) (hi : i < n) :
    (BitVec.ofNat n (w1cField n x.toNat v)).getLsbD i = (x.getLsbD i && !bit v i && !bit v 31) := by
  rw [BitVec.getLsbD_ofNat, w1cField]
  cases hc : bit v 31 with
  | true => simp
  | false =>
    simp [hi, fld, bit_eq_testBit, Nat.testBit_and, Nat.testBit_xor, Nat.testBit_mod_two_pow, BitVec.testBit_toNat]

/-! ### Where the registers stand (R653, R654) -/

theorem instanceOf_inside {off base stride n i : Nat} (hi : i < n) (hl : base + stride * i ≤ off)
    (hu : off < base + stride * i + stride) : instanceOf off base stride n = some i := by
  have hle : stride * (i + 1) ≤ stride * n := Nat.mul_le_mul_left _ hi
  rw [Nat.mul_succ] at hle
  have hq : (off - base) / stride = i :=
    Nat.div_eq_of_lt_le (by rw [Nat.mul_comm]; omega) (by rw [Nat.mul_comm, Nat.mul_succ]; omega)
  rw [instanceOf, if_pos (by omega), hq]

theorem instanceOf_outside {off base stride n : Nat} (h : off < base ∨ base + stride * n ≤ off) :
    instanceOf off base stride n = none := if_neg (by omega)

@[simp] theorem firstSome_none_cons {α : Type} (l : List (Option α)) : firstSome (none :: l) = firstSome l := rfl
@[simp] theorem firstSome_some_cons {α : Type} (x : α) (l : List (Option α)) : firstSome (some x :: l) = some x := rfl
@[simp] theorem firstSome_nil {α : Type} : firstSome ([] : List (Option α)) = none := rfl

theorem State.target_telemCtrl {s : State} {p : Nat} (hp : p < 4) : s.target (0x6000 + 0x20 * p) = .part p := by
  have hi : instanceOf (0x6000 + 0x20 * p) 0x6000 0x20 4 = some p := instanceOf_inside hp (by omega) (by omega)
  have hb : ¬ 0x6000 + 0x20 * p < 0x1000 := by omega
  simp (disch := omega) [State.target, instanceOf_outside, hi, hb]

theorem State.target_pcntCstat {s : State} {p : Nat} (hp : p < 4) : s.target (0x100414 + 0x20 * p) = .part p := by
  have hi : instanceOf (0x100414 + 0x20 * p) 0x100400 0x20 4 = some p := instanceOf_inside hp (by omega) (by omega)
  have hb : ¬ 0x100414 + 0x20 * p < 0x1000 := by omega
  simp (disch := omega) [State.target, instanceOf_outside, hi, hb]

section
variable {s : State} (d : s.cfg = Design.c16)
include d

theorem State.target_stallCstat {c : Nat} (hc : c < 64) (e : s.setEnabled (c / 4) = true) : s.target (0x300030 + 0x80 * c) = .core c := by
  have hi : instanceOf (0x300030 + 0x80 * c) 0x300000 0x80 64 = some c := instanceOf_inside hc (by omega) (by omega)
  have hb : ¬ 0x300030 + 0x80 * c < 0x1000 := by omega
  simp (disch := omega) [State.target, d, Design.c16, Design.cores, Design.channels, instanceOf_outside, hi, hb, e, Option.filter]

theorem State.target_spmCstat {c : Nat} (hc : c < 64) (e : s.setEnabled (c / 4) = true) : s.target (0x40008C + 0x100 * c) = .core c := by
  have hi : instanceOf (0x40008C + 0x100 * c) 0x400000 0x100 64 = some c := instanceOf_inside hc (by omega) (by omega)
  have hb : ¬ 0x40008C + 0x100 * c < 0x1000 := by omega
  simp (disch := omega) [State.target, d, Design.c16, Design.cores, Design.channels, instanceOf_outside, hi, hb, e, Option.filter]

theorem State.target_trCstat {k : Nat} (hk : k < 16) (e : s.setEnabled k = true) : s.target (0x600010 + 0x40 * k) = .setCounter k := by
  have hi : instanceOf (0x600010 + 0x40 * k) 0x600000 0x40 16 = some k := instanceOf_inside hk (by omega) (by omega)
  have hb : ¬ 0x600010 + 0x40 * k < 0x1000 := by omega
  simp (disch := omega) [State.target, d, Design.c16, Design.cores, Design.channels, instanceOf_outside, hi, hb, e, Option.filter]

theorem State.target_lkCstat {n : Nat} (hn : n < s.cfg.linkPorts) : s.target (0x700018 + 0x20 * n) = .port n := by
  replace hn : n < 48 := by simpa [d, Design.c16] using hn
  have hi : instanceOf (0x700018 + 0x20 * n) 0x700000 0x20 48 = some n := instanceOf_inside hn (by omega) (by omega)
  have hb : ¬ 0x700018 + 0x20 * n < 0x1000 := by omega
  simp (disch := omega) [State.target, d, Design.c16, Design.cores, Design.channels, instanceOf_outside, hi, hb]

theorem State.target_mcCstat {ch : Nat} (hc : ch < s.cfg.channels) : s.target (0x500014 + 0x20 * ch) = .admin := by
  replace hc : ch < 256 := by simpa [d, Design.c16, Design.channels] using hc
  have hi : instanceOf (0x500014 + 0x20 * ch) 0x500000 0x20 256 = some ch := instanceOf_inside hc (by omega) (by omega)
  have hb : ¬ 0x500014 + 0x20 * ch < 0x1000 := by omega
  simp (disch := omega) [State.target, d, Design.c16, Design.cores, Design.channels, instanceOf_outside, hi, hb]

end

/-! ### What an admitted write reaches (R21, R522) -/

section
variable {s : State} {req off : Nat}

/-- A command that is an admitted write of one register completes with that register written. -/
theorem completes_of_hostWrite {c : Instr} {value : BitVec 32} {t : State} {P : State → Prop} (e : exec c s = hostWrite req off value s)
    (ho : s.hostOpen = true) (ha : s.admits req off true = true) (hw : writeReg off value.toNat s = t) (hP : P t) : completes c s P :=
  ⟨t, by rw [e, hostWrite, hostAccess_admitted ho ha, hw], hP⟩

theorem writeReg_spmCstat {c : Nat} (h : s.target (0x40008C + 0x100 * c) = .core c) (v : Nat) :
    writeReg (0x40008C + 0x100 * c) v s = writeSpmCstat c v s := by
  simp only [writeReg, h]
  rw [if_neg (by omega), if_pos trivial]

theorem writeReg_stallCstat {c : Nat} (h : s.target (0x300030 + 0x80 * c) = .core c) (v : Nat) :
    writeReg (0x300030 + 0x80 * c) v s = writeStallCstat c v s := by
  simp only [writeReg, h, if_true]

theorem writeReg_mcCstat {ch : Nat} (h : s.target (0x500014 + 0x20 * ch) = .admin) (v : Nat) :
    writeReg (0x500014 + 0x20 * ch) v s = writeMcCstat ch v s := by
  simp only [writeReg, h]
  rw [if_neg (by omega), if_neg (by omega), if_neg (by omega), if_pos (by omega),
    show (0x500014 + 0x20 * ch - 0x500000) / 0x20 = ch by omega]

theorem writeReg_trCstat {k : Nat} (h : s.target (0x600010 + 0x40 * k) = .setCounter k) (v : Nat) :
    writeReg (0x600010 + 0x40 * k) v s = writeTrCstat k v s := by
  simp only [writeReg, h, if_true]

theorem writeReg_fqCstat (h : s.target 0x60040C = .admin) (v : Nat) : writeReg 0x60040C v s = writeFqCstat v s := by
  simp [writeReg, h]

theorem writeReg_lkCstat {n : Nat} (h : s.target (0x700018 + 0x20 * n) = .port n) (v : Nat) :
    writeReg (0x700018 + 0x20 * n) v s = writeLkCstat n v s := by
  simp only [writeReg, h, if_true]

theorem writeReg_ceCstat (h : s.target 0x70080C = .admin) (v : Nat) : writeReg 0x70080C v s = writeCeCstat v s := by
  simp [writeReg, h]

theorem writeReg_blkCstat (h : s.target 0x200014 = .admin) (v : Nat) : writeReg 0x200014 v s = writeBlkCstat v s := by
  simp [writeReg, h]

theorem writeReg_hpfStat {b : Bool} (h : s.target 0x20300 = .prot b) (v : Nat) : writeReg 0x20300 v s = writeHpfStat v s := by
  simp [writeReg, h]

theorem writeReg_protViol {b : Bool} (h : s.target 0x20308 = .prot b) (v : Nat) : writeReg 0x20308 v s = writeProtViol v s := by
  simp [writeReg, h]

theorem writeReg_acmCtrl (h : s.target 0x1100000 = .debugWin) (v : Nat) : writeReg 0x1100000 v s = writeAcmCtrl v s := by
  simp [writeReg, h, writeDebugReg]

theorem writeReg_spmCtrl (h : s.target 0x1200000 = .debugWin) (v : Nat) : writeReg 0x1200000 v s = writeSpmCtrl v s := by
  simp [writeReg, h, writeDebugReg]

/-- A write at displacement `k` of partition `p`'s telemetry registers (R601). -/
def writeTelemReg (p k v : Nat) (s : State) : State :=
  match k with
  | 0x00 => writeTelemCtrl p v s
  | 0x04 => writeTelemBase p false v s
  | 0x08 => writeTelemBase p true v s
  | 0x10 => writeTelemTail p v s
  | 0x14 => writeTelemStat p v s
  | _ => s

section
variable {p : Nat} (hp : p < 4) (hx : s.partExists p = true)
include hp hx

theorem writeReg_pcntCstat (h : s.target (0x100414 + 0x20 * p) = .part p) (v : Nat) :
    writeReg (0x100414 + 0x20 * p) v s = writePcntCstat p v s := by
  simp only [writeReg, h, writePartReg, hx, Bool.not_true, Bool.false_eq_true, if_false]
  rw [if_neg (by omega), if_neg (by omega), if_neg (by omega), if_pos trivial]

/-- A telemetry register stands at a displacement in its partition's group (R601). -/
theorem writePartReg_telem {k : Nat} (hk : k < 0x20) (v : Nat) : writePartReg p (0x6000 + 0x20 * p + k) v s = writeTelemReg p k v s := by
  have hi : (decide (0x6000 ≤ 0x6000 + 0x20 * p + k) && decide (0x6000 + 0x20 * p + k < 0x6080)) = true := by
    simp only [Bool.and_eq_true, decide_eq_true_eq]; omega
  simp only [writePartReg, hx, Bool.not_true, Bool.false_eq_true, if_false, hi, Nat.add_sub_cancel_left]
  rw [if_neg (by omega), if_neg (by omega), if_neg (by omega), if_neg (by omega)]
  unfold writeTelemReg
  split
  case h_6 => simp_all
  all_goals rfl

theorem writeReg_telemCtrl (h : s.target (0x6000 + 0x20 * p) = .part p) (v : Nat) :
    writeReg (0x6000 + 0x20 * p) v s = writeTelemCtrl p v s := by
  simp only [writeReg, h]
  exact writePartReg_telem hp hx (k := 0) (by omega) v

theorem writeReg_telemTail (h : s.target (0x6010 + 0x20 * p) = .part p) (v : Nat) :
    writeReg (0x6010 + 0x20 * p) v s = writeTelemTail p v s := by
  simp only [writeReg, h]
  rw [show 0x6010 + 0x20 * p = 0x6000 + 0x20 * p + 0x10 by omega]
  exact writePartReg_telem hp hx (by omega) v

theorem writeReg_telemStat (h : s.target (0x6014 + 0x20 * p) = .part p) (v : Nat) :
    writeReg (0x6014 + 0x20 * p) v s = writeTelemStat p v s := by
  simp only [writeReg, h]
  rw [show 0x6014 + 0x20 * p = 0x6000 + 0x20 * p + 0x14 by omega]
  exact writePartReg_telem hp hx (by omega) v
end
end

/-! ### Telemetry (R601 to R603) -/

section
variable (s : State) (p v : Nat)

@[simp] theorem telem_modTelem (f : Telem → Telem) : ((modTelem p f s).part p).telem = f (s.part p).telem := by
  simp [modTelem]

variable {s p v}

/-- RECORDS is written with ENABLE, and the unit starts empty where the ring is ready (R602). -/
theorem telem_writeTelemCtrl_ready (he : (s.part p).telem.enable = false) (hv : bit v 31 = true)
    (hr : s.telemReady p { (s.part p).telem with records := BitVec.ofNat 20 (fld v 0 20) } = true) :
    ((writeTelemCtrl p v s).part p).telem =
      { (s.part p).telem with records := BitVec.ofNat 20 (fld v 0 20), enable := true, head := 0, tail := 0 } := by
  simp only [writeTelemCtrl, he, hv, Bool.not_true, Bool.false_eq_true, if_false] at hr ⊢
  rw [if_pos hr, telem_modTelem]

theorem telem_writeTelemCtrl_refused (he : (s.part p).telem.enable = false) (hv : bit v 31 = true)
    (hr : s.telemReady p { (s.part p).telem with records := BitVec.ofNat 20 (fld v 0 20) } = false) :
    ((writeTelemCtrl p v s).part p).telem = { (s.part p).telem with records := BitVec.ofNat 20 (fld v 0 20), err := true } := by
  simp only [writeTelemCtrl, he, hv, Bool.not_true, Bool.false_eq_true, if_false] at hr ⊢
  rw [if_neg (by simp [hr]), telem_modTelem]

theorem telem_writeTelemCtrl_off (he : (s.part p).telem.enable = true) (hv : bit v 31 = false) :
    ((writeTelemCtrl p v s).part p).telem = { (s.part p).telem with enable := false } := by
  simp [writeTelemCtrl, he, hv]

/-- From `t` going forward in a ring of `n` places, `w` comes no later than `h`, where the span does not wrap. -/
theorem forward_le_iff {t h w n : Nat} (ht : t ≤ h) (hh : h < n) :
    (w < n ∧ (w + n - t % n) % n ≤ (h + n - t % n) % n) ↔ t ≤ w ∧ w ≤ h := by
  have hspan : (h + n - t) % n = h - t := by
    rw [show h + n - t = h - t + n by omega, Nat.add_mod_right, Nat.mod_eq_of_lt (by omega)]
  rw [Nat.mod_eq_of_lt (show t < n by omega), hspan]
  by_cases htw : t ≤ w
  · rw [show w + n - t = w - t + n by omega, Nat.add_mod_right]
    constructor
    · rintro ⟨hw, hle⟩
      rw [Nat.mod_eq_of_lt (by omega)] at hle
      omega
    · rintro ⟨-, hwh⟩
      rw [Nat.mod_eq_of_lt (by omega)]
      omega
  · rw [Nat.mod_eq_of_lt (show w + n - t < n by omega)]
    omega

variable (s p v)

/-- TAIL moves to a record from TAIL to HEAD, where HEAD has not wrapped (R603). -/
theorem telem_writeTelemTail (ht : (s.part p).telem.tail.toNat ≤ (s.part p).telem.head.toNat)
    (hh : (s.part p).telem.head.toNat < (s.part p).telem.records.toNat) :
    ((writeTelemTail p v s).part p).telem =
      if (s.part p).telem.tail.toNat ≤ fld v 0 20 ∧ fld v 0 20 ≤ (s.part p).telem.head.toNat then
        { (s.part p).telem with tail := BitVec.ofNat 20 (fld v 0 20) }
      else (s.part p).telem := by
  rw [writeTelemTail, telem_modTelem]
  have hn : max 1 (s.part p).telem.records.toNat = (s.part p).telem.records.toNat := by omega
  simp only [hn, forward_le_iff ht hh]
end

/-! ### The ring SRAM (R458, R622) -/

/-- Byte `i` of a line written where it is enabled and in a command slot; `writeRingBytes` does so for the 64 bytes in turn. -/
def writeRingByte (a : Nat) (be : BitVec 64) (data : BitVec 512) (t : State) (i : Nat) : State :=
  if be.getLsbD i && decide ((a + i) % 0x10000 < 0x4000) then { t with ringMem := kset 0 t.ringMem (a + i) (lineByte data i) } else t

theorem writeRingBytes_eq (a : Nat) (be : BitVec 64) (data : BitVec 512) (s : State) :
    writeRingBytes a be data s = (List.range 64).foldl (writeRingByte a be data) s := rfl

theorem kget_writeRingByte (a : Nat) (be : BitVec 64) (data : BitVec 512) (t : State) (i x : Nat) :
    kget 0 (writeRingByte a be data t i).ringMem x =
      if x = a + i ∧ be.getLsbD i = true ∧ x % 0x10000 < 0x4000 then lineByte data i else kget 0 t.ringMem x := by
  unfold writeRingByte
  by_cases hx : x = a + i
  · subst hx
    split <;> simp_all
  · split <;> simp [hx, kget_kset]

/-- After the first `n` bytes of a line, a byte of the SRAM reads as the line has it where it was one of them, enabled and in a command
slot, and as before elsewhere. -/
theorem kget_foldl_writeRingByte (a : Nat) (be : BitVec 64) (data : BitVec 512) (s : State) (n x : Nat) :
    kget 0 ((List.range n).foldl (writeRingByte a be data) s).ringMem x =
      if (a ≤ x ∧ x < a + n) ∧ be.getLsbD (x - a) = true ∧ x % 0x10000 < 0x4000 then lineByte data (x - a) else kget 0 s.ringMem x := by
  induction n with
  | zero => rw [if_neg (by omega)]; rfl
  | succ n ih =>
    rw [List.range_succ, List.foldl_append, List.foldl_cons, List.foldl_nil, kget_writeRingByte, ih]
    by_cases hx : x = a + n
    · subst hx; simp
    · have hr : (a ≤ x ∧ x < a + (n + 1)) ↔ (a ≤ x ∧ x < a + n) := by omega
      simp [hx, hr]

section
variable {s : State} {a : Nat} (be : BitVec 64) (data : BitVec 512)

/-- A write of a line of command slots writes its enabled bytes. -/
theorem kget_writeRingBytes_enabled {i : Nat} (hi : i < 64) (hs : (a + i) % 0x10000 < 0x4000) (hb : be.getLsbD i = true) :
    kget 0 (writeRingBytes a be data s).ringMem (a + i) = lineByte data i := by
  rw [writeRingBytes_eq, kget_foldl_writeRingByte, Nat.add_sub_cancel_left, if_pos ⟨by omega, hb, hs⟩]

theorem kget_writeRingBytes_disabled {i : Nat} (hb : be.getLsbD i = false) :
    kget 0 (writeRingBytes a be data s).ringMem (a + i) = kget 0 s.ringMem (a + i) := by
  rw [writeRingBytes_eq, kget_foldl_writeRingByte, Nat.add_sub_cancel_left, if_neg (by simp [hb])]

theorem kget_writeRingBytes_outside {x : Nat} (h : x < a ∨ a + 64 ≤ x) :
    kget 0 (writeRingBytes a be data s).ringMem x = kget 0 s.ringMem x := by
  rw [writeRingBytes_eq, kget_foldl_writeRingByte, if_neg (by omega)]

theorem writeRingBytes_rings : (writeRingBytes a be data s).rings = s.rings :=
  same_of_mask (writeRingBytes_mask (w := 0x200000#38) (by decide) a be data s) .rings (by decide)

/-- An admitted write request of a line of ring SRAM takes its effect (R622). -/
theorem execRegisterWrite_ringLine {req : Nat} {parity : BitVec 64} (ho : s.hostOpen = true) (hp : parityGood be data parity = true)
    (hb : be ≠ 0) (h64 : a % 64 = 0) (ha : a < 0x100000) (hd : s.admits req (0x2000000 + a) true = true) :
    execRegisterWrite req (BitVec.ofNat 64 (0x2000000 + a)) be data parity s = .next (writeRingBytes a be data s) := by
  have hn : (BitVec.ofNat 64 (0x2000000 + a)).toNat = 0x2000000 + a := by
    rw [BitVec.toNat_ofNat, Nat.mod_eq_of_lt (by omega)]
  simp only [execRegisterWrite, hn]
  rw [if_neg (by simp [ho, hp, show be ≠ 0#64 from hb]; omega), if_neg (by omega),
    hostAccess_admitted ho hd, if_pos (by omega), Nat.add_sub_cancel_left]
end

/-! ### Latched reads (R82, R656) -/

section
variable {s : State}

/-- A 64-bit value depends on what the halves of its pair show, and on no latch. -/
theorem State.pair_congr {s t : State} (hh : t.healthWord = s.healthWord) (hc : t.fencedCores = s.fencedCores)
    (hp : t.failedPorts = s.failedPorts) (hf : t.fw = s.fw) (hm : t.mem = s.mem) (hb : t.beat = s.beat) (hd : t.cfg = s.cfg)
    (hk : ∀ c, t.core c = s.core c) (hs : ∀ p, t.shown p = s.shown p) (off : Nat) : t.pair off = s.pair off := by
  simp only [State.pair, hh, hc, hp, hf, hm, hb, hd, hk, hs]

theorem pair_setLatches (l : KMap (BitVec 32)) {off w : Nat} (h : s.pair off = some w) :
    ({ s with latches := l } : State).pair off = some w :=
  (State.pair_congr (s := s) (t := { s with latches := l }) rfl rfl rfl rfl rfl rfl rfl (fun _ => rfl) (fun _ => rfl) off).trans h

theorem latchRead_of_pair {off w : Nat} (h : s.pair off = some w) (req : Nat) :
    latchRead req off s = { s with latches := kset 0 s.latches (latchKey req off) (BitVec.ofNat 32 (hiHalf w)) } := by
  simp only [latchRead, h]

theorem execLatchedLoRead_admitted {req : Nat} {off : BitVec 26} (ho : s.hostOpen = true) (ha : s.admits req off.toNat false = true) :
    execLatchedLoRead req off s = .next (latchRead req off.toNat s) := by
  rw [execLatchedLoRead, hostAccess_admitted ho ha]

/-- After a read of a LO half its requester reads the HI half of the same value. -/
theorem readReg_latchRead {off w : Nat} (h : s.pair off = some w) (req : Nat) :
    (latchRead req off s).readReg req (off + 4) = hiHalf w := by
  rw [latchRead_of_pair h, State.readReg, Nat.add_sub_cancel, pair_setLatches _ h, if_pos ⟨by omega, rfl⟩]
  simp [hiHalf, fld]

theorem latches_latchRead_other {off w req k : Nat} (h : s.pair off = some w) (hk : k ≠ latchKey req off) :
    kget 0 (latchRead req off s).latches k = kget 0 s.latches k := by
  rw [latchRead_of_pair h]
  exact kget_kset_other _ _ _ _ hk

theorem latchRead_rings (req off : Nat) : (latchRead req off s).rings = s.rings :=
  same_of_mask (latchRead_mask (w := 0x100000000#38) (by decide) req off s) .rings (by decide)

theorem latchRead_dbg (req off : Nat) : (latchRead req off s).dbg = s.dbg :=
  same_of_mask (latchRead_mask (w := 0x100000000#38) (by decide) req off s) .dbg (by decide)

/-! ### Row copies (R153 to R157, R666 to R670) -/

@[simp] theorem leaveIdle_dbg : (leaveIdle s).dbg = s.dbg :=
  same_of_mask (leaveIdle_mask (w := 0x400000000#38) (by decide) s) .dbg (by decide)

theorem wakeResumes_dbg (c : Nat) : (wakeResumes c s).dbg = s.dbg :=
  same_of_mask (wakeResumes_mask (w := 0x300030#38) (by decide) c s) .dbg (by decide)

theorem debugParity_dbg (c row : Nat) (bank : Option Nat) : (debugParity c row bank s).dbg = s.dbg :=
  same_of_mask (debugParity_mask (w := 0x700030#38) (by decide) c row bank s) .dbg (by decide)

/-- What follows a copy, the report of a parity failure and the DEBUG_RESUME commands that waited, leaves the window as the copy left
it. -/
theorem afterCopy_dbg (bad : Bool) (c row : Nat) (bank : Option Nat) (u : State) :
    (wakeResumes c (if bad then debugParity c row bank u else u)).dbg = u.dbg := by
  rw [wakeResumes_dbg]
  cases bad
  · rfl
  · exact debugParity_dbg c row bank

theorem copyRefused_denied {perm : Bool} {c : Nat} (h : perm = false ∨ s.debugPart c = none) : s.copyRefused perm c = some 0 :=
  if_pos (by rcases h with h | h <;> simp [h])

theorem copyRefused_notHalted {perm : Bool} {c : Nat} (hp : perm = true) (hd : s.debugPart c ≠ none)
    (h : (s.core c).halted = false ∨ (s.core c).fenced = true) : s.copyRefused perm c = some 1 := by
  rw [State.copyRefused, if_neg (by simp [hp, hd]), if_pos (by rcases h with h | h <;> simp [h])]

theorem copyRefused_none {perm : Bool} {c : Nat} (hp : perm = true) (hd : s.debugPart c ≠ none) (hh : (s.core c).halted = true)
    (hf : (s.core c).fenced = false) : s.copyRefused perm c = none := by
  rw [State.copyRefused, if_neg (by simp [hp, hd]), if_neg (by simp [hh, hf])]

/-- Each key below `n` reads as the fold wrote it. -/
theorem kget_foldl_kset {α : Type} [DecidableEq α] (d : α) (f : Nat → α) (m : KMap α) {n j : Nat} (hj : j < n) :
    kget d ((List.range n).foldl (fun m j => kset d m j (f j)) m) j = f j := by
  induction n with
  | zero => omega
  | succ n ih =>
    rw [List.range_succ, List.foldl_append, List.foldl_cons, List.foldl_nil, kget_kset]
    split
    · subst_vars; rfl
    · exact ih (by omega)

/-- In P0 and P1 a copy of an ACM row reads its elements and the bank's ACM_SAT (R156, R157). -/
theorem acmRow_powered (c bank row : Nat) (h : s.pmu.state < 2) :
    (s.acmRow c bank row).sat = ((s.core c).bank bank).sat ∧ ∀ j, j < 128 →
      kget 0 (s.acmRow c bank row).x j = (kget Elem.zero ((s.core c).bank bank).elems (128 * row + j)).x
      ∧ kget 0 (s.acmRow c bank row).tag j = Tag.bits (kget Elem.zero ((s.core c).bank bank).elems (128 * row + j)).tag := by
  have hoff : decide (2 ≤ s.pmu.state) = false := by simpa using h
  refine ⟨?_, fun j hj => ⟨?_, ?_⟩⟩
  · simp [State.acmRow, hoff]
  · rw [State.acmRow, kget_foldl_kset _ _ _ hj]; simp [hoff]
  · rw [State.acmRow, kget_foldl_kset _ _ _ hj]; simp [hoff]

end

section
variable {s : State} {v : Nat}

section
variable (hb : s.dbg.acmBusy = false) (hv : bit v 31 = true)
include hb hv

/-- GO in ACM_DBG_CTRL writes the place to copy from, whatever the tests of R666 say. -/
theorem writeAcmCtrl_place :
    (writeAcmCtrl v s).dbg.acmCore = fld v 8 6 ∧ (writeAcmCtrl v s).dbg.acmBank = fld v 7 1
      ∧ (writeAcmCtrl v s).dbg.acmRow = fld v 0 7 := by
  rcases r : s.copyRefused s.prot.dbgAcm (fld v 8 6) with _ | _ | _ <;> simp [writeAcmCtrl, hb, hv, r]

theorem writeAcmCtrl_denied (r : s.copyRefused s.prot.dbgAcm (fld v 8 6) = some 0) :
    (writeAcmCtrl v s).dbg.acmDenied = true ∧ (writeAcmCtrl v s).dbg.acmBusy = false := by
  simp [writeAcmCtrl, hb, hv, r]

theorem writeAcmCtrl_notHalted (r : s.copyRefused s.prot.dbgAcm (fld v 8 6) = some 1) :
    (writeAcmCtrl v s).dbg.acmNotHalted = true ∧ (writeAcmCtrl v s).dbg.acmBusy = false := by
  simp [writeAcmCtrl, hb, hv, r]

theorem writeAcmCtrl_begins (r : s.copyRefused s.prot.dbgAcm (fld v 8 6) = none) : (writeAcmCtrl v s).dbg.acmBusy = true := by
  simp [writeAcmCtrl, hb, hv, r]
end

section
variable (hb : s.dbg.spmBusy = false) (hv : bit v 31 = true)
include hb hv

/-- GO in SPM_DBG_CTRL writes the place to copy from, whatever the tests of R666 say. -/
theorem writeSpmCtrl_place : (writeSpmCtrl v s).dbg.spmCore = fld v 0 6 ∧ (writeSpmCtrl v s).dbg.spmRow = fld v 16 15 := by
  rcases r : s.copyRefused s.prot.dbgSpm (fld v 0 6) with _ | _ | _
  · cases hr : s.rowPowered (fld v 0 6) (fld v 16 15) <;> simp [writeSpmCtrl, hb, hv, r, hr]
  · simp [writeSpmCtrl, hb, hv, r]
  · simp [writeSpmCtrl, hb, hv, r]

theorem writeSpmCtrl_denied (r : s.copyRefused s.prot.dbgSpm (fld v 0 6) = some 0) :
    (writeSpmCtrl v s).dbg.spmDenied = true ∧ (writeSpmCtrl v s).dbg.spmBusy = false := by
  simp [writeSpmCtrl, hb, hv, r]

theorem writeSpmCtrl_notHalted (r : s.copyRefused s.prot.dbgSpm (fld v 0 6) = some 1) :
    (writeSpmCtrl v s).dbg.spmNotHalted = true ∧ (writeSpmCtrl v s).dbg.spmBusy = false := by
  simp [writeSpmCtrl, hb, hv, r]

/-- The copy begins where the row is powered, and RANGE is set where it is not. -/
theorem writeSpmCtrl_begins (r : s.copyRefused s.prot.dbgSpm (fld v 0 6) = none) :
    (writeSpmCtrl v s).dbg.spmBusy = s.rowPowered (fld v 0 6) (fld v 16 15)
      ∧ (s.rowPowered (fld v 0 6) (fld v 16 15) = false → (writeSpmCtrl v s).dbg.spmRange = true) := by
  cases hr : s.rowPowered (fld v 0 6) (fld v 16 15) <;> simp [writeSpmCtrl, hb, hv, r, hr]
end

/-- The end of an ACM copy leaves the row read, its tags, the grid and ACM_SAT in the window (R156, R157). -/
theorem execAcmDbgCopyDone_dbg (hb : s.dbg.acmBusy = true) (bad : Bool) : ∃ t, execAcmDbgCopyDone bad s = .next t ∧
    t.dbg = { s.dbg with
      acmBusy := false
      acmData := (s.acmRow s.dbg.acmCore s.dbg.acmBank s.dbg.acmRow).x
      acmTag := (s.acmRow s.dbg.acmCore s.dbg.acmBank s.dbg.acmRow).tag
      acmGrid := (s.acmRow s.dbg.acmCore s.dbg.acmBank s.dbg.acmRow).grid
      acmSat := (s.acmRow s.dbg.acmCore s.dbg.acmBank s.dbg.acmRow).sat } :=
  ⟨_, if_neg (by simp [hb]), afterCopy_dbg _ _ _ _ _⟩

/-- The end of a Scratchpad copy leaves the row's bytes and its parity in the window (R669). -/
theorem execSpmDbgCopyDone_dbg (hb : s.dbg.spmBusy = true) (bad : Bool) : ∃ t, execSpmDbgCopyDone bad s = .next t ∧
    t.dbg = { s.dbg with
      spmBusy := false
      spmPerr := bad || (s.core s.dbg.spmCore).badRows.contains s.dbg.spmRow
      spmData := bwrite [] 0 (bread (s.core s.dbg.spmCore).spm (512 * s.dbg.spmRow) 512) } :=
  ⟨_, if_neg (by simp [hb]), afterCopy_dbg _ _ _ _ _⟩

end

/-! ### Accesses of the JTAG port (R681) -/

section
variable {s : State} {dr : BitVec 57} (hr : s.pins.phase = .running) (hi : s.pins.jtagIr = 0x80) (hl : s.prot.lock = true)
  (hj : s.prot.dbgJtag = true) (ho : 0x1000000 + 4 * fld dr.toNat 32 24 < 0x2000000)
include hr hi hl hj ho

theorem execJtagDebugAccess_read (h : bit dr.toNat 56 = false) : ∃ t, execJtagDebugAccess dr s = .next t ∧
    t.pins.jtagData = BitVec.ofNat 32 (s.readReg 16 (0x1000000 + 4 * fld dr.toNat 32 24)) ∧ t.dbg = s.dbg := by
  rw [execJtagDebugAccess, if_neg (by simp [hr, hi, hl, hj]; omega), if_neg (by simp [h])]
  exact ⟨_, rfl, rfl, latchRead_dbg _ _⟩

theorem execJtagDebugAccess_write (h : bit dr.toNat 56 = true) :
    execJtagDebugAccess dr s = .next (writeDebugReg (0x1000000 + 4 * fld dr.toNat 32 24) (fld dr.toNat 0 32) s) := by
  rw [execJtagDebugAccess, if_neg (by simp [hr, hi, hl, hj]; omega), if_pos h]
end

/-- Settles O60: each write reaches its register (`writeReg_…`), whose effect is read back; a read of a LO half latches; the copies end in
the window. -/
theorem registerAccesses : Obligations.RegisterAccesses := by
  unfold Obligations.RegisterAccesses
  refine ⟨fun s d => ⟨?_, ?_, ?_, ?_, ?_⟩, ?_, ?_⟩
  · exact fun c hc e => ⟨State.target_spmCstat d hc e, State.target_stallCstat d hc e⟩
  · exact fun k hk e => State.target_trCstat d hk e
  · exact fun n hn => State.target_lkCstat d hn
  · exact fun ch hc => State.target_mcCstat d hc
  · exact fun p hp => ⟨State.target_telemCtrl hp, State.target_pcntCstat hp⟩
  · intro s req value ho v at' n b
    refine ⟨?_, ?_, ?_, ?_, ?_, ?_, ?_, ?_, ?_, ?_, ?_, ?_, ?_, ?_, ?_, ?_⟩
    · intro c ht ha
      refine completes_of_hostWrite rfl ho ha (writeReg_spmCstat ht _) ?_
      simp only [writeSpmCstat, State.core_modCore_same]
      exact ⟨rfl, rfl, rfl, rfl, rfl, rfl, rfl, fun k hk => State.core_modCore_other _ _ _ hk⟩
    · intro c ht ha
      refine completes_of_hostWrite rfl ho ha (writeReg_stallCstat ht _) ?_
      simp only [writeStallCstat, State.core_modCore_same]
      exact ⟨rfl, fun k hk => State.core_modCore_other _ _ _ hk, fun i hi => getLsbD_w1cField _ _ hi⟩
    · exact fun ch ht ha => completes_of_hostWrite rfl ho ha (writeReg_mcCstat ht _)
        ⟨State.channel_modChannel_same _ _ _, fun k hk => State.channel_modChannel_other _ _ _ hk⟩
    · exact fun k ht ha => completes_of_hostWrite rfl ho ha (writeReg_trCstat ht _) (State.unit_modUnit_same _ _ _)
    · exact fun ha ht => completes_of_hostWrite rfl ho ha (writeReg_fqCstat ht _) rfl
    · intro k ht ha
      refine completes_of_hostWrite rfl ho ha (writeReg_lkCstat ht _) ?_
      simp only [writeLkCstat, State.port_modPort_same]
      exact ⟨rfl, rfl, rfl, rfl, rfl, rfl, fun i hi => getLsbD_w1cField _ _ hi⟩
    · exact fun ha ht => completes_of_hostWrite rfl ho ha (writeReg_ceCstat ht _) ⟨rfl, rfl, rfl, rfl, rfl, rfl⟩
    · intro p hp hx ht ha
      refine completes_of_hostWrite rfl ho ha (writeReg_pcntCstat hp hx ht _) ?_
      simp only [writePcntCstat, State.part_modPart_same]
      exact ⟨rfl, rfl, rfl, rfl, rfl, fun i hi => getLsbD_w1cField _ _ hi⟩
    · exact fun ha ht => completes_of_hostWrite rfl ho ha (writeReg_blkCstat ht _)
        ⟨rfl, rfl, rfl, rfl, rfl, fun i hi => getLsbD_w1cField _ _ hi⟩
    · exact fun ha ht => completes_of_hostWrite rfl ho ha (writeReg_hpfStat ht _) rfl
    · exact fun ha ht => completes_of_hostWrite rfl ho ha (writeReg_protViol ht _) rfl
    · intro p hp hx x y
      refine ⟨fun ht ha => ⟨?_, ?_, ?_⟩, ?_, ?_⟩
      · exact fun he hv hr =>
          completes_of_hostWrite rfl ho ha (writeReg_telemCtrl hp hx ht _) (telem_writeTelemCtrl_ready he hv hr)
      · exact fun he hv hr =>
          completes_of_hostWrite rfl ho ha (writeReg_telemCtrl hp hx ht _) (telem_writeTelemCtrl_refused he hv hr)
      · exact fun he hv => completes_of_hostWrite rfl ho ha (writeReg_telemCtrl hp hx ht _) (telem_writeTelemCtrl_off he hv)
      · exact fun ht ha hle hlt =>
          completes_of_hostWrite rfl ho ha (writeReg_telemTail hp hx ht _) (telem_writeTelemTail s p _ hle hlt)
      · exact fun ht ha => completes_of_hostWrite rfl ho ha (writeReg_telemStat hp hx ht _) (telem_modTelem _ _ _)
    · intro ha ht hb hv c
      obtain ⟨hc, hk, hr⟩ := writeAcmCtrl_place hb hv
      exact completes_of_hostWrite rfl ho ha (writeReg_acmCtrl ht _) ⟨hc, hk, hr,
        fun h => writeAcmCtrl_denied hb hv (copyRefused_denied h),
        fun hp hd h => writeAcmCtrl_notHalted hb hv (copyRefused_notHalted hp hd h),
        fun hp hd hh hf => writeAcmCtrl_begins hb hv (copyRefused_none hp hd hh hf)⟩
    · intro ha ht hb hv c
      obtain ⟨hc, hr⟩ := writeSpmCtrl_place hb hv
      exact completes_of_hostWrite rfl ho ha (writeReg_spmCtrl ht _) ⟨hc, hr,
        fun h => writeSpmCtrl_denied hb hv (copyRefused_denied h),
        fun hp hd h => writeSpmCtrl_notHalted hb hv (copyRefused_notHalted hp hd h),
        fun hp hd hh hf => writeSpmCtrl_begins hb hv (copyRefused_none hp hd hh hf)⟩
    · intro off w ha hw
      exact ⟨_, execLatchedLoRead_admitted ho ha, readReg_latchRead hw req, latchRead_rings _ _,
        fun k hk => latches_latchRead_other hw hk⟩
    · intro r k be data parity hr hk hp hb ha
      rw [Nat.add_assoc] at ha
      refine ⟨_, (congrArg (fun a => execRegisterWrite req (BitVec.ofNat 64 a) be data parity s) (Nat.add_assoc _ _ _)).trans
        (execRegisterWrite_ringLine be data ho hp hb (by omega) (by omega) ha), ?_, ?_, ?_, writeRingBytes_rings be data⟩
      · exact fun i hi h => kget_writeRingBytes_enabled be data hi (by omega) h
      · exact fun i _ h => kget_writeRingBytes_disabled be data h
      · exact fun a h => kget_writeRingBytes_outside be data h
  · intro s
    refine ⟨?_, ?_, ?_⟩
    · intro bad hb hp
      obtain ⟨t, he, ht⟩ := execAcmDbgCopyDone_dbg hb bad
      obtain ⟨hs, hrow⟩ := acmRow_powered s.dbg.acmCore s.dbg.acmBank s.dbg.acmRow hp
      refine ⟨t, he, ?_⟩
      beta_reduce
      rw [ht]
      exact ⟨rfl, hs, hrow⟩
    · intro bad hb
      obtain ⟨t, he, ht⟩ := execSpmDbgCopyDone_dbg hb bad
      refine ⟨t, he, ?_⟩
      beta_reduce
      rw [ht]
      refine ⟨rfl, rfl, ?_⟩
      simpa [bread] using bread_bwrite [] 0 (bread (s.core s.dbg.spmCore).spm (512 * s.dbg.spmRow) 512)
    · intro dr hr hi hl hj off ho
      refine ⟨fun h => execJtagDebugAccess_read hr hi hl hj ho h, fun h hoff => ?_⟩
      refine ⟨_, execJtagDebugAccess_write hr hi hl hj ho h, ?_⟩
      rw [show 0x1000000 + 4 * fld dr.toNat 32 24 = 0x1100004 from hoff]
      exact ⟨rfl, rfl⟩

end Sys2Proof.Machine
end

section
/-! PROOF. Patrol scrub, soft repair and staging (R348, R354, R358 to R361, R534): what reading a line with an error, corrected or
uncorrectable, leaves of its channel, and which items are queued or run after Fremund queues one or one ends. -/

namespace Sys2Proof.Machine

/-! ### A channel through reports -/

section
variable {s t : State}

theorem channel_of_channels (h : t.channels = s.channels) (k : Nat) : t.channel k = s.channel k := by
  rw [State.channel, State.channel, h]

theorem satAll_channels (off : Nat) : (satAll off s).channels = s.channels :=
  same_of_mask (satAll_mask (w := 0x700010#38) (by decide) off s) .channels (by decide)

theorem postEach_channels (ps : List Nat) (code payload : Nat) : (postEach ps code payload s).channels = s.channels :=
  same_of_mask (postEach_mask (w := 0x700000#38) (by decide) ps code payload s) .channels (by decide)

theorem withHealth_replaceCause_channels (i : Nat) : (withHealth (replaceCause i) s).channels = s.channels :=
  same_of_mask (w := 0x2700000#38) (withHealth_mask _ (replaceCause_mask (by decide) i) (by decide) s) .channels (by decide)
end

/-! ### Counting on a channel (R377, R589) -/

theorem satAdd_fst (w v k : Nat) : (satAdd w v k).1 = min (2 ^ w - 1) (v + k) := by
  have := Nat.two_pow_pos w
  unfold satAdd
  split <;> dsimp only <;> omega

/-- The report of a counter that saturates leaves the channels as they are. -/
theorem channel_ite_satAll (b : Bool) (off ch : Nat) (s : State) : (if b then satAll off s else s).channel ch = s.channel ch := by
  cases b
  · rfl
  · exact channel_of_channels (satAll_channels off) ch

section
variable (s : State) (ch n k : Nat)

/-- A count changes its channel in the counters alone. -/
theorem channel_mcCount :
    (mcCount ch n k s).channel ch = { s.channel ch with cnt := ((mcCount ch n k s).channel ch).cnt } := by
  simp only [mcCount, channel_ite_satAll, State.channel_modChannel_same]

theorem ue_mcCount : ((mcCount ch n k s).channel ch).cnt.ue =
    if n = 1 then min 0xFFFF ((s.channel ch).cnt.ue + k) else (s.channel ch).cnt.ue := by
  simp only [mcCount, channel_ite_satAll, State.channel_modChannel_same]
  by_cases h : n = 1
  · subst h; simp [satAdd_fst, nth]
  · simp [h]

theorem scrub_mcCount : ((mcCount ch n k s).channel ch).cnt.scrub =
    if n = 4 then min 0xFFFF ((s.channel ch).cnt.scrub + k) else (s.channel ch).cnt.scrub := by
  simp only [mcCount, channel_ite_satAll, State.channel_modChannel_same]
  by_cases h : n = 4
  · subst h; simp [satAdd_fst, nth]
  · simp [h]
end

/-! ### What an error report leaves of its channel (R357, R358, R360) -/

/-- The bytes that reads of a channel see, and MC_SCRUB. -/
def Channel.scrubView (c : Channel) : KMap Byte × Option Nat × List WcbEntry × Nat := (c.mem, c.undef, c.wcb, c.cnt.scrub)

theorem scrubView_iff {c d : Channel} :
    c.scrubView = d.scrubView ↔ c.mem = d.mem ∧ c.undef = d.undef ∧ c.wcb = d.wcb ∧ c.cnt.scrub = d.cnt.scrub := by
  simp [Channel.scrubView]

/-- A read depends on a channel's memory, the place of its undefined bytes and its Write-Combining Buffer (R351). -/
theorem chView_congr {c d : Channel} (hm : c.mem = d.mem) (hu : c.undef = d.undef) (hw : c.wcb = d.wcb) (b : Nat) :
    chView c b = chView d b := by
  simp only [chView, chByte, chDefault_eq hu, hm, hw]

section
variable (s : State) (ch ca : Nat)

/-- A soft repair, or the report that no remap is left, changes its channel in what repairs use (R360). -/
theorem channel_softRepair : (softRepair ch ca s).channel ch = { s.channel ch with
    remaps := ((softRepair ch ca s).channel ch).remaps, copying := ((softRepair ch ca s).channel ch).copying
    corrRows := ((softRepair ch ca s).channel ch).corrRows, remapFull := ((softRepair ch ca s).channel ch).remapFull } := by
  unfold softRepair
  dsimp only
  split
  · rw [State.channel_setChannel_same]
  · split
    · rfl
    · rw [channel_of_channels (withHealth_replaceCause_channels 3), channel_of_channels (postEach_channels _ _ _),
        State.channel_setChannel_same]

theorem scrubView_softRepair : ((softRepair ch ca s).channel ch).scrubView = (s.channel ch).scrubView := by
  rw [channel_softRepair]; rfl

theorem scrubView_mcCount {n : Nat} (h : n ≠ 4) (k : Nat) : ((mcCount ch n k s).channel ch).scrubView = (s.channel ch).scrubView := by
  have hs := scrub_mcCount s ch n k
  rw [if_neg h] at hs
  rw [channel_mcCount, scrubView_iff]
  exact ⟨rfl, rfl, rfl, hs⟩

/-- A corrected read changes no byte that reads see. -/
theorem scrubView_corrected : ((corrected ch ca s).channel ch).scrubView = (s.channel ch).scrubView := by
  have hcount := scrubView_mcCount
    (s.modChannel ch (fun c => { c with corrRows := kmod 0 c.corrRows (Config.rowOf ca) (· + 1) })) ch (n := 0) (by decide) 1
  rw [State.channel_modChannel_same] at hcount
  unfold corrected
  dsimp only
  split
  · rw [scrubView_softRepair, hcount]; rfl
  · exact hcount

theorem mem_insAsc (l : List Nat) (x : Nat) : x ∈ insAsc l x := by
  induction l with
  | nil => simp [insAsc]
  | cons y r ih =>
    unfold insAsc
    split
    · simp
    · split
      · simp [*]
      · exact List.mem_cons_of_mem _ ih

section
variable {s ch} (h : (s.channel ch).reachable = true) (fig : Nat) (ps : List Nat)
include h

/-- An uncorrectable read of a channel that can be reached is counted, poisons its line and has its row repaired (R358, R360). -/
theorem uncorrectable_of_reachable : ∃ u t : State, u.channel ch = s.channel ch
    ∧ t.channel ch = { (mcCount ch 1 1 u).channel ch with
        uesInBar := ((mcCount ch 1 1 u).channel ch).uesInBar + 1
        poison := insAsc ((mcCount ch 1 1 u).channel ch).poison (ca / 64) }
    ∧ uncorrectable ch ca fig ps s = softRepair ch ca t := by
  have hlive : (true && decide ((s.channel ch).state ≠ .down) && decide ((s.channel ch).state ≠ .failed)) = true := by
    simp only [Channel.reachable, Bool.or_eq_true, decide_eq_true_eq] at h
    rcases h with h | h <;> simp [h]
  simp only [uncorrectable, uncorrectableAt, hlive, if_true]
  refine ⟨if (s.paOf ch ca).isNone then s.draw else s, _, ?_, ?_, rfl⟩
  · split <;> rfl
  · rw [channel_of_channels (postEach_channels _ _ _), State.channel_modChannel_same]; rfl

theorem scrubView_uncorrectable : ((uncorrectable ch ca fig ps s).channel ch).scrubView = (s.channel ch).scrubView := by
  obtain ⟨u, t, hu, ht, e⟩ := uncorrectable_of_reachable ca h fig ps
  have hc := scrubView_mcCount u ch (n := 1) (by decide) 1
  rw [e, scrubView_softRepair, ht, ← hu, ← hc]; rfl

/-- The line holds the poison code (R358). -/
theorem poison_uncorrectable : ((uncorrectable ch ca fig ps s).channel ch).poison.contains (ca / 64) = true := by
  obtain ⟨u, t, hu, ht, e⟩ := uncorrectable_of_reachable ca h fig ps
  rw [e, channel_softRepair, ht]
  exact List.contains_iff_mem.2 (mem_insAsc _ _)

theorem ue_uncorrectable :
    ((uncorrectable ch ca fig ps s).channel ch).cnt.ue = min 0xFFFF ((s.channel ch).cnt.ue + 1) := by
  obtain ⟨u, t, hu, ht, e⟩ := uncorrectable_of_reachable ca h fig ps
  rw [e, channel_softRepair, ht, ← hu]
  exact (ue_mcCount u ch 1 1).trans (if_pos rfl)
end
end

/-! ### A step of the patrol scrub (R38, R348, R359) -/

/-- What the read of a scrub step does (R357, R358): `bad` for an uncorrectable line. -/
def scrubRead (ch : Nat) (bad : Bool) (ecc : Ecc) (s : State) : State :=
  let ca := (s.channel ch).scrubAt
  if bad then uncorrectable ch ca noFig (s.lineParts ch ca) s else if ecc = .single then corrected ch ca s else s

/-- A scrub step that waits changes nothing. -/
theorem execPatrolScrub_waits {s : State} {ch : Nat} (h : s.asleep = true ∨ (s.channel ch).scrubAge = false ∧ s.waitingAt ch ≠ [])
    (ecc : Ecc) : execPatrolScrub ch ecc s = .next s := by
  refine if_pos ?_
  rcases h with h | ⟨ha, hw⟩
  · simp [h]
  · simp [ha, hw]

section
variable {s : State} {ch : Nat} (hr : (s.channel ch).reachable = true)
include hr

theorem scrubView_scrubRead (bad : Bool) (ecc : Ecc) : ((scrubRead ch bad ecc s).channel ch).scrubView = (s.channel ch).scrubView := by
  unfold scrubRead
  dsimp only
  split
  · exact scrubView_uncorrectable _ hr _ _
  · split
    · exact scrubView_corrected _ _ _
    · rfl

variable (hl : (s.stackAt (ch / 32)).level ≠ 3) (hf : (s.stackAt (ch / 32)).selfRefresh = false) (hs : s.asleep = false)
  (hb : s.bankBusy ch (s.channel ch).scrubAt = false) (hw : (s.channel ch).scrubAge = true ∨ s.waitingAt ch = [])
include hl hf hs hb hw

/-- A scrub step whose turn it is reads its line, moves on and counts a completed pass. -/
theorem execPatrolScrub_reads (ecc : Ecc) :
    let ca := (s.channel ch).scrubAt
    let last := decide (s.channelBytes ≤ ca + 64)
    let u := (scrubRead ch ((s.channel ch).poison.contains (ca / 64) || decide (ecc = .double)) ecc s).modChannel ch (fun c =>
      { c with scrubAt := if last then 0 else ca + 64, scrubAge := false, corrRows := if last then [] else c.corrRows })
    execPatrolScrub ch ecc s = .next (if last then mcCount ch 4 1 u else u) := by
  refine if_neg ?_
  rcases hw with hw | hw <;> simp [hr, hl, hf, hs, hb, hw]

/-- Where a scrub step leaves the scrub, its passes and the bytes that reads see. -/
theorem execPatrolScrub_moves (ecc : Ecc) : ∃ t, execPatrolScrub ch ecc s = .next t
    ∧ (t.channel ch).scrubAt = (if s.channelBytes ≤ (s.channel ch).scrubAt + 64 then 0 else (s.channel ch).scrubAt + 64)
    ∧ (t.channel ch).scrubAge = false
    ∧ (t.channel ch).cnt.scrub = (if s.channelBytes ≤ (s.channel ch).scrubAt + 64 then min 0xFFFF ((s.channel ch).cnt.scrub + 1)
        else (s.channel ch).cnt.scrub)
    ∧ (∀ b, chView (t.channel ch) b = chView (s.channel ch) b)
    ∧ (ecc = .double → (t.channel ch).poison.contains ((s.channel ch).scrubAt / 64) = true
        ∧ (t.channel ch).cnt.ue = min 0xFFFF ((s.channel ch).cnt.ue + 1)) := by
  refine ⟨_, execPatrolScrub_reads hr hl hf hs hb hw ecc, ?_⟩
  have hv := scrubView_scrubRead hr ((s.channel ch).poison.contains ((s.channel ch).scrubAt / 64) || decide (ecc = .double)) ecc
  have hd : ecc = .double → scrubRead ch ((s.channel ch).poison.contains ((s.channel ch).scrubAt / 64) || decide (ecc = .double)) ecc s
      = uncorrectable ch (s.channel ch).scrubAt noFig (s.lineParts ch (s.channel ch).scrubAt) s := by
    intro h; simp [scrubRead, h]
  have hp := poison_uncorrectable (s.channel ch).scrubAt hr noFig (s.lineParts ch (s.channel ch).scrubAt)
  have hu := ue_uncorrectable (s.channel ch).scrubAt hr noFig (s.lineParts ch (s.channel ch).scrubAt)
  generalize scrubRead ch _ ecc s = v at hv hd ⊢
  obtain ⟨hm, hn, hwcb, hc⟩ := scrubView_iff.1 hv
  by_cases last : s.channelBytes ≤ (s.channel ch).scrubAt + 64
  · simp only [last, decide_true, if_true, scrub_mcCount, ue_mcCount]
    rw [channel_mcCount, State.channel_modChannel_same]
    refine ⟨rfl, rfl, by simp [hc], fun b => chView_congr hm hn hwcb b, fun h => ?_⟩
    rw [hd h]
    exact ⟨hp, by simp [hu]⟩
  · simp only [last, decide_false, if_false, Bool.false_eq_true, State.channel_modChannel_same]
    refine ⟨trivial, trivial, hc, fun b => chView_congr hm hn hwcb b, fun h => ?_⟩
    rw [hd h]
    exact ⟨hp, hu⟩
end

/-! ### Demand behind an aged scrub (R348) -/

theorem slotFor_of_scrubAge {s : State} {ch : Nat} (h : (s.channel ch).scrubAge = true) (p : Nat) (crossbar : Bool) :
    s.slotFor ch p crossbar = false := by simp [State.slotFor, h]

theorem execMcReadRequest_noSlot {s : State} {ch p : Nat} (hs : s.serve p ch = .now) (line : Nat) (r : Reader) (ecc : Ecc)
    (h : s.slotFor ch p (s.byCrossbar r ch) = false) : execMcReadRequest ch line p r ecc s = .next s :=
  if_pos (by simp [hs, h])

theorem execMcWriteRequest_noSlot {s : State} {ch p : Nat} (hs : s.serve p ch = .now) (line : Nat) (mask : BitVec 64) (data : BitVec 512)
    (h : s.slotFor ch p false = false) : execMcWriteRequest ch line p mask data s = .next s :=
  if_pos (by simp [hs, h])

/-! ### Intrusive items that Fremund queues and ends (R71, R361) -/

theorem mem_liveParts_lt {s : State} {p : Nat} (h : p ∈ s.liveParts) : p < 4 := by
  simpa using (List.mem_filter.1 h).1

/-- The first of a list of partitions, or another, is one of the four. -/
theorem head?_getD_lt {l : List Nat} {n d : Nat} (hl : ∀ p ∈ l, p < n) (hd : d < n) : l.head?.getD d < n := by
  cases l with
  | nil => exact hd
  | cons p r => exact hl p (by simp)

section
variable (s : State) (k : Nat)

/-- Staging is queued with a partition that it touches, or with one that exists. -/
theorem stagingPart_lt : ((s.itemUsers (.staging k)).head?).getD (s.liveParts.head?.getD 0) < 4 :=
  head?_getD_lt (fun _ h => mem_liveParts_lt (List.mem_filter.1 h).1) (head?_getD_lt (fun _ => mem_liveParts_lt) (by decide))

theorem queueItem_staging_channels : (queueItem (.staging k) s).channels = s.channels := by
  unfold queueItem
  split <;> rfl

theorem itemQueued_queueItem_staging : (queueItem (.staging k) s).itemQueued (.staging k) = true := by
  unfold queueItem
  split
  · assumption
  · dsimp only [markQueued]
    have hp := stagingPart_lt s k
    generalize ((s.itemUsers (.staging k)).head?).getD (s.liveParts.head?.getD 0) = p at hp ⊢
    have hm : p ∈ [0, 1, 2, 3] := by simp; omega
    exact List.any_eq_true.2 ⟨p, hm, by simp⟩
end

/-- Partition `p` has no item `it`, queued or running. -/
def State.itemGone (it : Intrusive) (s : State) (p : Nat) : Prop := ∀ y ∈ (s.part p).items, y.item ≠ it

theorem itemGone_congr {it : Intrusive} {s t : State} {p : Nat} (h : t.part p = s.part p) : t.itemGone it p ↔ s.itemGone it p := by
  rw [State.itemGone, State.itemGone, h]

theorem complete_parts (r : Nat) (q : BitVec 16) (st d b : Nat) (s : State) : (complete r q st d b s).parts = s.parts :=
  same_of_mask (complete_mask (w := 0x300000#38) (by decide) r q st d b s) .parts (by decide)

theorem part_foldl_complete (ws : List (Nat × BitVec 16)) (st d b : Nat) (s : State) (p : Nat) :
    (ws.foldl (fun t w => complete w.1 w.2 st d b t) s).part p = s.part p := by
  induction ws generalizing s with
  | nil => rfl
  | cons w ws ih => rw [List.foldl_cons, ih, State.part, complete_parts, State.part]

/-- An item ends in the queue of partition `p`; `finishItem` does so in the four in turn. -/
def finishItemIn (it : Intrusive) (bad : Bool) (code : Nat) (t : State) (p : Nat) : State :=
  match (t.part p).items.find? (fun q => decide (q.item = it)) with
  | none => t
  | some q =>
    q.who.foldl (fun t w => complete w.1 w.2 stOk (b2n bad + code * 2 ^ 8) 0 t)
      (t.modPart p (fun x => { x with items := x.items.filter (fun y => !decide (y.item = it)) }))

theorem finishItem_eq (it : Intrusive) (bad : Bool) (code : Nat) (s : State) :
    finishItem it bad code s = [0, 1, 2, 3].foldl (finishItemIn it bad code) s := rfl

section
variable (it : Intrusive) (bad : Bool) (code : Nat) (t : State) (p : Nat)

theorem part_finishItemIn_other {q : Nat} (h : q ≠ p) : (finishItemIn it bad code t p).part q = t.part q := by
  unfold finishItemIn
  split
  · rfl
  · rw [part_foldl_complete, State.part_modPart_other _ _ _ h]

theorem itemGone_finishItemIn : (finishItemIn it bad code t p).itemGone it p := by
  unfold finishItemIn
  split
  case h_1 h => exact fun y hy e => absurd (List.find?_eq_none.1 h y hy) (by simp [e])
  case h_2 q h =>
    rw [itemGone_congr (part_foldl_complete _ _ _ _ _ _)]
    intro y hy
    rw [State.part_modPart_same] at hy
    simpa using (List.mem_filter.1 hy).2
end

/-- What each step of a fold makes true of its own element, and no step undoes, holds of every element after it. -/
theorem foldl_each {σ β : Type} {f : σ → β → σ} {C : σ → β → Prop} (made : ∀ t p, C (f t p) p)
    (kept : ∀ t p q, C t q → C (f t p) q) (l : List β) (s : σ) : ∀ q, q ∈ l ∨ C s q → C (l.foldl f s) q := by
  induction l generalizing s with
  | nil => simp
  | cons p l ih =>
    rintro q (h | h)
    · rcases List.mem_cons.1 h with rfl | h
      · exact ih _ _ (.inr (made s q))
      · exact ih _ _ (.inl h)
    · exact ih _ _ (.inr (kept s p q h))

/-- An item that has ended runs nowhere. -/
theorem itemRuns_finishItem (it : Intrusive) (bad : Bool) (code : Nat) (s : State) :
    (finishItem it bad code s).itemRuns it = false := by
  have kept (t : State) (p q : Nat) (h : t.itemGone it q) : (finishItemIn it bad code t p).itemGone it q := by
    by_cases e : q = p
    · exact e ▸ itemGone_finishItemIn it bad code t p
    · exact (itemGone_congr (part_finishItemIn_other it bad code t p e)).2 h
  have gone (q : Nat) (hq : q ∈ [0, 1, 2, 3]) : (finishItem it bad code s).itemGone it q := by
    rw [finishItem_eq]
    exact foldl_each (itemGone_finishItemIn it bad code) kept _ s q (.inl hq)
  refine List.any_eq_false.2 (fun q hq => ?_)
  rw [Bool.not_eq_true]
  exact List.any_eq_false.2 (fun y hy => by simp [gone q hq y hy])

theorem finishItem_stackSt (it : Intrusive) (bad : Bool) (code : Nat) (s : State) : (finishItem it bad code s).stackSt = s.stackSt :=
  same_of_mask (finishItem_mask (w := 0x300010#38) (by decide) it bad code s) .stackSt (by decide)

/-- Staging counts the remaps of its stack (R361). -/
theorem execRepairStagingDone_runs {s : State} {k : Nat} (h : s.itemRuns (.staging k) = true) :
    ∃ t, execRepairStagingDone k s = .next t
      ∧ (t.stackAt k).staged = min 255 (((List.range 32).map (fun i => (s.channel (32 * k + i)).remaps.length)).sum)
      ∧ t.itemRuns (.staging k) = false := by
  refine ⟨_, if_neg (by simp [h]), ?_, itemRuns_finishItem _ _ _ _⟩
  rw [State.stackAt, finishItem_stackSt, ← State.stackAt, State.stackAt_modStack_same]

/-- The copy of a row ends: its bank is let go, and the stack's staging is queued (R360, R361). -/
theorem execSoftRepairDone_copied {s : State} {ch r : Nat} {rest : List Nat} (h : (s.channel ch).copying = r :: rest) :
    ∃ t, execSoftRepairDone ch s = .next t ∧ (t.channel ch).copying = rest ∧ t.itemQueued (.staging (ch / 32)) = true := by
  have e : execSoftRepairDone ch s =
      .next (queueItem (.staging (ch / 32)) (s.modChannel ch (fun c => { c with copying := rest }))) := by
    simp only [execSoftRepairDone, h]
  refine ⟨_, e, ?_, itemQueued_queueItem_staging _ _⟩
  rw [channel_of_channels (queueItem_staging_channels _ _), State.channel_modChannel_same]

/-- A mark on one channel. -/
theorem modChannel_marks (s : State) (ch : Nat) (f : Channel → Channel) :
    (s.modChannel ch f).channel ch = f (s.channel ch) ∧ ∀ k, k ≠ ch → (s.modChannel ch f).channel k = s.channel k :=
  ⟨State.channel_modChannel_same s ch f, fun _ h => State.channel_modChannel_other s ch f h⟩

/-- Settles O39: a scrub step by `execPatrolScrub_moves`, the waits of scrub and demand by their guards, repairs and staging by what
queueing and ending an item leave, and the marks of refresh and aging. -/
theorem scrubAndRepair : Obligations.ScrubAndRepair := by
  intro s ch
  refine ⟨fun hr hl hf hs hb hw e => execPatrolScrub_moves hr hl hf hs hb hw e,
    fun ha hw e => ⟨s, execPatrolScrub_waits (.inr ⟨ha, hw⟩) e, rfl⟩,
    fun ha line p r e hs => ⟨⟨s, execMcReadRequest_noSlot hs line r e (slotFor_of_scrubAge ha _ _), rfl⟩,
      fun mask data => ⟨s, execMcWriteRequest_noSlot hs line mask data (slotFor_of_scrubAge ha _ _), rfl⟩⟩,
    fun hs e => ⟨s, execPatrolScrub_waits (.inl hs) e, rfl⟩,
    fun r rest h => execSoftRepairDone_copied h, fun k h => execRepairStagingDone_runs h,
    fun hc => ⟨⟨_, congrArg Host.Outcome.next (if_pos hc), modChannel_marks s ch _⟩,
      fun hs => ⟨_, congrArg Host.Outcome.next (if_pos ⟨hc, hs⟩), modChannel_marks s ch _⟩⟩⟩

end Sys2Proof.Machine
end

section
/-! PROOF. What a landing tile leaves of a Scratchpad (R32, R187): the bytes that a write stores, in the powered rows, and what touching
rows, raising flags and writing other bytes leave alone. -/

namespace Sys2Proof.Machine

/-! ### Bytes written to a Scratchpad (R304, R331) -/

/-- Byte `x.2` of a write at `a`, stored where its row is on. -/
def putOn (on : Nat → Bool) (a : Nat) (m : KMap Byte) (x : Byte × Nat) : KMap Byte :=
  if on ((a + x.2) / 512) then kset 0 m (a + x.2) x.1 else m

theorem spm_spmWrite_eq (c a : Nat) (bs : List Byte) (s : State) :
    ((spmWrite c a bs s).core c).spm = bs.zipIdx.foldl (putOn (s.rowOn c) a) (s.core c).spm := by
  rw [spmWrite, State.core_modCore_same]; rfl

theorem kget_putOn (on : Nat → Bool) (a : Nat) (m : KMap Byte) (x : Byte × Nat) (b : Nat) :
    kget 0 (putOn on a m x) b = if b = a + x.2 ∧ on (b / 512) = true then x.1 else kget 0 m b := by
  unfold putOn
  by_cases e : b = a + x.2
  · subst e; split <;> simp [*]
  · split <;> simp [e, kget_kset]

/-- A byte after a write: the byte written there, where its row is on, else as before. -/
theorem kget_foldl_putOn (on : Nat → Bool) (a : Nat) (bs : List Byte) (m : KMap Byte) (n b : Nat) :
    kget 0 ((bs.zipIdx n).foldl (putOn on a) m) b =
      if a + n ≤ b ∧ on (b / 512) = true then (bs[b - (a + n)]?).getD (kget 0 m b) else kget 0 m b := by
  induction bs generalizing m n with
  | nil => simp
  | cons x bs ih =>
    rw [List.zipIdx_cons, List.foldl_cons, ih, kget_putOn]
    rcases lt_trichotomy b (a + n) with h | h | h
    · simp [show ¬ a + (n + 1) ≤ b by omega, show ¬ a + n ≤ b by omega, show b ≠ a + n by omega]
    · subst h; simp
    · simp [show a + (n + 1) ≤ b by omega, show a + n ≤ b by omega, show b ≠ a + n by omega,
        show b - (a + n) = b - (a + (n + 1)) + 1 by omega]

section
variable (c a : Nat) (bs : List Byte) (s : State)

/-- A byte of the Scratchpad outside a write stays as it was. -/
theorem kget_spmWrite_out {b : Nat} (h : b < a ∨ a + bs.length ≤ b) :
    kget 0 ((spmWrite c a bs s).core c).spm b = kget 0 (s.core c).spm b := by
  rw [spm_spmWrite_eq, kget_foldl_putOn, Nat.add_zero]
  split
  · rw [List.getElem?_eq_none (by omega), Option.getD_none]
  · rfl

/-- A byte written to a row that is on reads as written. -/
theorem kget_spmWrite_in {k : Nat} {v : Byte} (h : bs[k]? = some v) (ho : s.rowOn c ((a + k) / 512) = true) :
    kget 0 ((spmWrite c a bs s).core c).spm (a + k) = v := by
  rw [spm_spmWrite_eq, kget_foldl_putOn, Nat.add_zero, if_pos ⟨by omega, ho⟩, Nat.add_sub_cancel_left, h, Option.getD_some]

end

/-! ### Rows that are on (R330, R335) -/

section
variable {s t u : State} {c : Nat}

theorem rowOn_congr (hc : t.cfg = s.cfg) (hp : t.prot = s.prot) (hf : (t.core c).fenced = (s.core c).fenced)
    (hq : ∀ p, (t.part p).quarterOn = (s.part p).quarterOn) (row : Nat) : t.rowOn c row = s.rowOn c row := by
  have he (k : Nat) : t.setEnabled k = s.setEnabled k := by rw [State.setEnabled, State.setEnabled, hc, hp]
  have ho : t.coreOwner c = s.coreOwner c := by rw [State.coreOwner, State.coreOwner, State.setOwner, State.setOwner, he, hp]
  rw [State.rowOn, State.rowOn, hc, hf, ho]
  cases s.coreOwner c with
  | none => rfl
  | some p => simp only [hq]

/-- The other cores are the same, and of core `c` its rows that are on. -/
def rowsKept (c : Nat) (s t : State) : Prop := othersSame c s t ∧ ∀ row, t.rowOn c row = s.rowOn c row

theorem rowsKept.refl : rowsKept c s s := ⟨fun _ _ => rfl, fun _ => rfl⟩

theorem rowsKept.trans (h : rowsKept c s t) (g : rowsKept c t u) : rowsKept c s u :=
  ⟨fun k hk => (g.1 k hk).trans (h.1 k hk), fun row => (g.2 row).trans (h.2 row)⟩

theorem rowsKept_modCore (f : Core → Core) (h : (f (s.core c)).fenced = (s.core c).fenced) : rowsKept c s (s.modCore c f) :=
  ⟨fun _ hk => State.core_modCore_other _ _ _ hk, rowOn_congr rfl rfl (by rw [State.core_modCore_same, h]) (fun _ => rfl)⟩

/-- What changes rings and Fremund alone keeps every core and every row. -/
theorem rowsKept_of_mask (h : t.mask 0x700000#38 = s.mask 0x700000#38) : rowsKept c s t := by
  have hcores (k : Nat) : t.core k = s.core k := congrArg (kget Core.reset · k) (same_of_mask h .cores (by decide))
  have hparts (p : Nat) : t.part p = s.part p := congrArg (kget Part.reset · p) (same_of_mask h .parts (by decide))
  exact ⟨fun k _ => hcores k, rowOn_congr (same_of_mask h .cfg (by decide)) (same_of_mask h .prot (by decide))
    (by rw [hcores]) (fun p => by rw [hparts])⟩

theorem rowsKept_spmWrite (a : Nat) (bs : List Byte) : rowsKept c s (spmWrite c a bs s) :=
  rowsKept_modCore _ rfl

theorem rowsKept_modActive (p id : Nat) (f : RunFig → RunFig) : rowsKept c s (modActive p id f s) := by
  refine ⟨fun _ _ => rfl, rowOn_congr rfl rfl rfl fun q => ?_⟩
  by_cases h : q = p
  · subst h
    rw [modActive, State.part_modPart_same]
    split <;> rfl
  · rw [modActive, State.part_modPart_other _ _ _ h]

/-- Core `c`'s Scratchpad holds the same bytes, its rows are on as before, and the other cores are the same. -/
def spmSame (c : Nat) (s t : State) : Prop := rowsKept c s t ∧ (t.core c).spm = (s.core c).spm

theorem spmSame.refl : spmSame c s s := ⟨rowsKept.refl, rfl⟩

theorem spmSame.trans (h : spmSame c s t) (g : spmSame c t u) : spmSame c s u := ⟨h.1.trans g.1, g.2.trans h.2⟩

theorem spmSame_modCore (f : Core → Core) (h : (f (s.core c)).fenced = (s.core c).fenced) (hm : (f (s.core c)).spm = (s.core c).spm) :
    spmSame c s (s.modCore c f) := ⟨rowsKept_modCore f h, by rw [State.core_modCore_same, hm]⟩

theorem Core.setSlot_spm (k : Core) (i : Nat) (v : Slot) : (k.setSlot i v).spm = k.spm ∧ (k.setSlot i v).fenced = k.fenced := by
  unfold Core.setSlot
  split <;> exact ⟨rfl, rfl⟩

/-- Raising flags changes a slot of the core. -/
theorem spmSame_raise (i : Nat) (fl : Flags) : spmSame c s (raise c i fl s) := by
  have h : ∀ f : Core → Core, (f (s.core c) = s.core c ∨ ∃ v, f (s.core c) = (s.core c).setSlot i v) →
      spmSame c s (s.modCore c f) := by
    rintro f (h | ⟨v, h⟩)
    · exact spmSame_modCore f (by rw [h]) (by rw [h])
    · exact spmSame_modCore f (by rw [h, (Core.setSlot_spm _ _ _).2]) (by rw [h, (Core.setSlot_spm _ _ _).1])
  refine h _ ?_
  dsimp only
  split
  · exact .inl rfl
  · split <;> exact .inr ⟨_, rfl⟩

theorem spmSame_postEvent (p code payload : Nat) : spmSame c s (postEvent p code payload s) := by
  have h := postEvent_mask (w := 0x700000#38) (by decide) p code payload s
  exact ⟨rowsKept_of_mask h, congrArg (fun m => (kget Core.reset m c).spm) (same_of_mask h .cores (by decide))⟩

/-- The rows that a stage or a load writes are touched without a change of any byte, whether they are on or not (R323, R324). -/
theorem spmSame_touchRows_written (p fig i : Nat) (wr : List Nat) : spmSame c s (touchRows p fig c i [] wr s) := by
  have hstaged : spmSame c s (s.modCore c (fun k => { k with staged := k.staged.filter (fun r => !([] : List Nat).contains r) })) :=
    spmSame_modCore _ rfl rfl
  unfold touchRows
  dsimp only [List.filter_nil, State.failing, List.foldl_nil]
  split
  · exact hstaged
  · exact ((hstaged.trans (spmSame_raise i flInv)).trans (spmSame_postEvent _ _ _)).trans ⟨rowsKept_modActive _ _ _, rfl⟩
end

/-! ### Landing a line (R32, R187) -/

/-- In core `c`'s Scratchpad bytes `got` stand from address `a` over zeros in `rows` rows from `row`, where the rows are on; every other
byte, every other core and the rows that are on are as before. -/
structure LandedOver (c row rows a : Nat) (got : List Byte) (s t : State) : Prop where
  kept : rowsKept c s t
  landed : ∀ k v, got[k]? = some v → s.rowOn c ((a + k) / 512) = true → kget 0 (t.core c).spm (a + k) = v
  outside : ∀ b, (b < 512 * row ∨ 512 * (row + rows) ≤ b) → (b < a ∨ a + got.length ≤ b) →
    kget 0 (t.core c).spm b = kget 0 (s.core c).spm b
  zeros : ∀ b, 512 * row ≤ b → b < 512 * (row + rows) → (b < a ∨ a + got.length ≤ b) → s.rowOn c (b / 512) = true →
    kget 0 (t.core c).spm b = 0

/-- Zeros written to the slab's rows and then the line's bytes land the line over the zeros. -/
theorem LandedOver.of_writes {c row rows a : Nat} {got : List Byte} {s u v t : State} (hu : spmSame c s u)
    (hv : spmSame c (spmWrite c (512 * row) (List.replicate (512 * rows) 0) u) v) (ht : spmSame c (spmWrite c a got v) t) :
    LandedOver c row rows a got s t := by
  have kv : rowsKept c s v := (hu.1.trans (rowsKept_spmWrite _ _)).trans hv.1
  have untouched (b : Nat) (hb : b < a ∨ a + got.length ≤ b) : kget 0 (t.core c).spm b
      = kget 0 ((spmWrite c (512 * row) (List.replicate (512 * rows) 0) u).core c).spm b := by
    rw [ht.2, kget_spmWrite_out _ _ _ _ hb, hv.2]
  refine ⟨(kv.trans (rowsKept_spmWrite _ _)).trans ht.1, fun k v hk ho => ?_, fun b hb hg => ?_, fun b hl hr hg ho => ?_⟩
  · rw [ht.2, kget_spmWrite_in _ _ _ _ hk ((kv.2 _).trans ho)]
  · rw [untouched b hg, kget_spmWrite_out _ _ _ _ (by rw [List.length_replicate]; omega), hu.2]
  · obtain ⟨k, rfl⟩ := Nat.exists_eq_add_of_le hl
    rw [untouched _ hg]
    exact kget_spmWrite_in _ _ _ _ (by rw [List.getElem?_replicate, if_pos (by omega)]) ((hu.1.2 _).trans ho)

section
variable {s : State} {i : Nat} {x : LineReq} {bs : List Byte} (hd : x.data = some bs)
include hd

/-- One raw line lands where its request says, over the zeros of the slab's rows. -/
theorem landTile_raw (hc : (s.stream i).conv = .raw) (row rows : Nat) :
    LandedOver (s.stream i).core row rows x.spmByte (s.delivered (s.stream i) x.va bs).1 s
      (landTile i [x] row rows [(s.stream i).core] s) := by
  simp only [landTile, hc, hd, Option.getD_some, State.loadLine, List.map_cons, List.map_nil, List.flatMap_cons, List.flatMap_nil,
    List.append_nil, List.foldl_cons, List.foldl_nil]
  exact LandedOver.of_writes (spmSame_touchRows_written _ _ _ _) (spmSame_touchRows_written _ _ _ _) (spmSame_raise _ _)

/-- The tile's one line has its data: it lands in the stream's own core, and the tile is ready (R32). -/
theorem execLineDataValid_lands {tile : Nat} (hb : (s.stream i).bound = true) (hk : (s.stream i).kind = .tileLoad)
    (hl : (s.stream i).lines.filter (fun y => !y.write && decide (y.tile = tile)) = [x])
    (hr : (s.stream i).ready.contains tile = false) (ha : s.castsTiles i = false) (row rows : Nat) :
    execLineDataValid i tile ⟨row, rows⟩ s = .next (tileReady i tile (landTile i [x] row rows [(s.stream i).core] s)) := by
  have ht : s.tileLines i tile = [x] := hl
  have hn : tile ∉ (s.stream i).ready := by simpa using hr
  have hcomes : s.tileComes i tile rows = true := by simp [State.tileComes, ht, hb, hk, hn, hd, kindMay]
  rw [execLineDataValid, if_neg (by simp [hcomes, ha]), ht]
end

theorem landTile_stream (i : Nat) (ls : List LineReq) (row rows : Nat) (cs : List Nat) (s : State) (k : Nat) :
    (landTile i ls row rows cs s).stream k = s.stream k :=
  congrArg (kget Stream.unbound · k)
    (same_of_mask (landTile_mask (w := 0x700030#38) (by decide) i ls row rows cs s) .streams (by decide))

/-- A ready tile of a stream touches no core and no row. -/
theorem LandedOver.tileReady {c row rows a : Nat} {got : List Byte} {s t : State} (h : LandedOver c row rows a got s t) (i tile : Nat) :
    LandedOver c row rows a got s (tileReady i tile t) := ⟨h.kept, h.landed, h.outside, h.zeros⟩

theorem LandedOver.spmHolds {c row rows a : Nat} {got : List Byte} {s t : State} (h : LandedOver c row rows a got s t) :
    t.spmHolds c a got := by
  intro k v hk ho
  rw [State.spmByte, if_pos ho]
  exact h.landed k v hk ((h.kept.2 _).symm.trans ho)

theorem LandedOver.spmByte_zero {c row rows a : Nat} {got : List Byte} {s t : State} (h : LandedOver c row rows a got s t) {b : Nat}
    (hl : 512 * row ≤ b) (hr : b < 512 * (row + rows)) (hg : b < a ∨ a + got.length ≤ b) (ho : s.rowOn c (b / 512) = true) :
    t.spmByte c b = 0 := by
  rw [State.spmByte, if_pos ((h.kept.2 _).trans ho)]
  exact h.zeros b hl hr hg ho

end Sys2Proof.Machine
end

section
/-! PROOF. What copies, counts, reports, invalidations and resumed streams leave of a partition's page table and of the commands that
wait (R403, R407), and how a waiting command is answered. -/

namespace Sys2Proof.Machine

/-! ### Page tables and waiting commands -/

/-- The waiting commands, the leaves and the pages that move. -/
def Part.mapView (q : Part) : List Waiting × KMap (Option Leaf) × List Migration := (q.waiting, q.space.leaves, q.space.moving)

/-- The waiting commands and page tables, by partition. -/
def State.mapView (s : State) : Nat → List Waiting × KMap (Option Leaf) × List Migration := fun p => (s.part p).mapView

section
variable {s t : State}

theorem mapView_iff : t.mapView = s.mapView ↔ ∀ p, (t.part p).waiting = (s.part p).waiting
    ∧ (t.part p).space.leaves = (s.part p).space.leaves ∧ (t.part p).space.moving = (s.part p).space.moving := by
  simp [funext_iff, State.mapView, Part.mapView]

theorem mapView_of_parts (h : t.parts = s.parts) : t.mapView = s.mapView := by
  funext p
  rw [State.mapView, State.mapView, State.part, State.part, h]

theorem mapView_of_mask (h : t.mask 0x3fffffffef#38 = s.mask 0x3fffffffef#38) : t.mapView = s.mapView :=
  mapView_of_parts (same_of_mask h .parts (by decide))

theorem mapView_foldl {β : Type} {f : State → β → State} (h : ∀ t x, (f t x).mapView = t.mapView) (l : List β) (s : State) :
    (l.foldl f s).mapView = s.mapView := by
  induction l generalizing s with
  | nil => rfl
  | cons x l ih => rw [List.foldl_cons, ih, h]

theorem mapView_ite {b : Prop} [Decidable b] {u v : State} (hu : u.mapView = s.mapView) (hv : v.mapView = s.mapView) :
    (if b then u else v).mapView = s.mapView := by split <;> assumption

theorem mapView_modPart (s : State) (p : Nat) {f : Part → Part} (h : (f (s.part p)).mapView = (s.part p).mapView) :
    (s.modPart p f).mapView = s.mapView := by
  funext q
  by_cases e : q = p
  · subst e; rw [State.mapView, State.part_modPart_same, h, State.mapView]
  · rw [State.mapView, State.part_modPart_other _ _ _ e, State.mapView]
end

section
variable (s : State)

/-! Counters and accounts (R377, R409, R529, R589). -/

@[simp] theorem satPart_mapView (p off : Nat) : (satPart p off s).mapView = s.mapView :=
  (mapView_of_mask (postEvent_mask (by decide) _ _ _ _)).trans (mapView_modPart s p rfl)

@[simp] theorem satAll_mapView (off : Nat) : (satAll off s).mapView = s.mapView := mapView_foldl (fun t p => satPart_mapView t p off) _ s

@[simp] theorem satOwned_mapView (p : Option Nat) (off : Nat) : (satOwned p off s).mapView = s.mapView := by
  cases p with
  | none => rfl
  | some p => exact satPart_mapView s p off

@[simp] theorem acctAdd_mapView (p n k : Nat) : (acctAdd p n k s).mapView = s.mapView := by
  unfold acctAdd
  exact mapView_ite ((satPart_mapView _ _ _).trans (mapView_modPart s p rfl)) (mapView_modPart s p rfl)

@[simp] theorem mcCount_mapView (ch n k : Nat) : (mcCount ch n k s).mapView = s.mapView := by
  unfold mcCount
  exact mapView_ite (satAll_mapView _ _) rfl

@[simp] theorem trCount_mapView (k n : Nat) : (trCount k n s).mapView = s.mapView := by
  unfold trCount
  exact mapView_ite (satOwned_mapView _ _ _) rfl

@[simp] theorem fqCount_mapView (n : Nat) : (fqCount n s).mapView = s.mapView := by
  unfold fqCount
  exact mapView_ite (satAll_mapView _ _) rfl

/-! Reads and writes of lines (R351 to R353, R356 to R358, R371). -/

@[simp] theorem softRepair_mapView (ch ca : Nat) : (softRepair ch ca s).mapView = s.mapView :=
  mapView_of_mask (softRepair_mask (by decide) ch ca s)

@[simp] theorem corrected_mapView (ch ca : Nat) : (corrected ch ca s).mapView = s.mapView := by
  unfold corrected
  exact mapView_ite ((softRepair_mapView _ _ _).trans (mcCount_mapView _ _ _ _)) (mcCount_mapView _ _ _ _)

@[simp] theorem uncorrectableAt_mapView (served : Bool) (ch ca fig : Nat) (ps : List Nat) :
    (uncorrectableAt served ch ca fig ps s).mapView = s.mapView := by
  have hdraw : (if (s.paOf ch ca).isNone then s.draw else s).mapView = s.mapView := by split <;> rfl
  have hcount := (mcCount_mapView _ ch 1 1).trans hdraw
  unfold uncorrectableAt
  exact mapView_ite ((softRepair_mapView _ _ _).trans ((mapView_of_mask (postEach_mask (by decide) _ _ _ _)).trans hcount))
    ((mapView_of_mask (postEach_mask (by decide) _ _ _ _)).trans hcount)

@[simp] theorem uncorrectable_mapView (ch ca fig : Nat) (ps : List Nat) : (uncorrectable ch ca fig ps s).mapView = s.mapView :=
  uncorrectableAt_mapView s true ch ca fig ps

@[simp] theorem chargeSlots_mapView (ch p n : Nat) : (chargeSlots ch p n s).mapView = s.mapView := rfl

@[simp] theorem setChannel_mapView (ch : Nat) (c : Channel) : (s.setChannel ch c).mapView = s.mapView := rfl

@[simp] theorem modChannel_mapView (ch : Nat) (f : Channel → Channel) : (s.modChannel ch f).mapView = s.mapView := rfl

@[simp] theorem evictEntry_mapView (ch : Nat) (e : WcbEntry) (ecc : Ecc) : (evictEntry ch e ecc s).mapView = s.mapView := by
  unfold evictEntry
  dsimp only
  split
  · rfl
  · split
    · split <;> simp
    · split
      · split <;> simp
      · split <;> split <;> simp

@[simp] theorem evictForced_mapView (ch : Nat) (e : WcbEntry) : (evictForced ch e s).mapView = s.mapView := by
  unfold evictForced
  split
  · exact evictEntry_mapView _ _ _ _
  · exact evictEntry_mapView _ _ _ _

@[simp] theorem wcbAccept_mapView (ch line p : Nat) (counted : Bool) (bs : List (Nat × Byte)) :
    (wcbAccept ch line p counted bs s).mapView = s.mapView := by
  unfold wcbAccept
  dsimp only
  split
  · split <;> simp
  · have hroom : (match (s.channel ch).wcb with
        | o :: _ => if 64 ≤ (s.channel ch).wcb.length then evictForced ch o s else s
        | [] => s).mapView = s.mapView := by
      split
      · split <;> simp
      · rfl
    split
    · exact (evictEntry_mapView _ _ _ _).trans hroom
    · exact hroom

@[simp] theorem countLine_mapView (p : Nat) (l : Loc) : (countLine p l s).mapView = s.mapView := by
  cases l with
  | hbm ch ca => exact acctAdd_mapView _ _ _ _
  | far q a => exact acctAdd_mapView _ _ _ _

@[simp] theorem putLine_mapView (p : Nat) (l : Loc) (bs : List Byte) : (putLine p l bs s).mapView = s.mapView := by
  cases l with
  | hbm ch ca =>
    unfold putLine
    dsimp only
    split
    · exact mapView_of_mask (lostWrite_mask (by decide) _ _ _ _ _)
    · exact wcbAccept_mapView _ _ _ _ _ _
  | far q a => exact countLine_mapView _ _ _

@[simp] theorem fwUncorrectable_mapView (p fig : Nat) (l : Loc) : (fwUncorrectable p fig l s).mapView = s.mapView := by
  cases l with
  | hbm ch ca => exact uncorrectableAt_mapView _ _ _ _ _ _
  | far q a => exact mapView_of_mask (postEvent_mask (by decide) _ _ _ _)

@[simp] theorem poisonAt_mapView (l : Loc) : (poisonAt l s).mapView = s.mapView := by cases l <;> rfl

@[simp] theorem copyLine_mapView (p : Nat) (src dst : Loc) : (copyLine p src dst s).mapView = s.mapView := by
  unfold copyLine
  dsimp only
  split <;> simp

/-- A copy of a page moves bytes and counts, and no mapping (R407). -/
@[simp] theorem copyPage_mapView (p va : Nat) (old new : Leaf) : (copyPage p va old new s).mapView = s.mapView := by
  refine mapView_foldl (fun t i => ?_) _ s
  split
  · exact copyLine_mapView _ _ _ _
  · rfl

theorem mapView_utlbs (x : KMap (List TlbEntry)) : ({ s with utlbs := x } : State).mapView = s.mapView := rfl

theorem mapView_faults (x : FaultQueue) : ({ s with faults := x } : State).mapView = s.mapView := rfl

/-! Invalidations and resumed streams (R395, R398, R403, R406). -/

@[simp] theorem addAccess_mapView (p page n : Nat) : (addAccess p page n s).mapView = s.mapView := by
  unfold addAccess
  split
  · rfl
  · exact mapView_modPart s p rfl

@[simp] theorem dropEntries_mapView (es : List TlbEntry) : (dropEntries es s).mapView = s.mapView :=
  mapView_foldl (fun t _ => addAccess_mapView t _ _ _) es s

@[simp] theorem invalidate_mapView (p a b : Nat) : (invalidate p a b s).mapView = s.mapView := by
  unfold invalidate
  rw [mapView_utlbs]
  exact mapView_foldl (fun t k => dropEntries_mapView (t.setUnit k _) _) _ s

@[simp] theorem resumeStream_mapView (i : Nat) : (resumeStream i s).mapView = s.mapView :=
  mapView_of_mask (resumeStream_mask (by decide) i s)

@[simp] theorem enqueueFault_mapView (i : Nat) : (enqueueFault i s).mapView = s.mapView := by
  unfold enqueueFault
  dsimp only
  split
  · rfl
  · rw [fqCount_mapView, mapView_faults]
    exact mapView_modPart (s.setStream i _) _ rfl

@[simp] theorem retryParked_mapView (l : List Nat) : (retryParked l s).mapView = s.mapView := by
  induction l generalizing s with
  | nil => rfl
  | cons i more ih =>
    unfold retryParked
    split
    · rfl
    · rw [ih]
      split
      · exact resumeStream_mapView s i
      · exact enqueueFault_mapView _ i

/-- Streams that resume leave every mapping. -/
@[simp] theorem resumeLegal_mapView (p : Nat) : (resumeLegal p s).mapView = s.mapView := by
  refine (retryParked_mapView _ _).trans (mapView_foldl (fun t x => ?_) _ s)
  split
  · exact resumeStream_mapView t _
  · rfl
end

/-! ### Commands answered (R467) -/

theorem trCount_cmds (k n : Nat) (s : State) : cmdsOf (trCount k n s).rings = cmdsOf s.rings := by
  have h (b : Bool) (p : Option Nat) (off : Nat) (t : State) :
      cmdsOf (if b then satOwned p off t else t).rings = cmdsOf t.rings := by
    cases b
    · rfl
    · exact satOwned_cmds p off t
  unfold trCount
  exact (h _ _ _ _).trans (State.setUnit_cmds s k _)

section
variable {s f : State} {r : Nat} {q : BitVec 16}

/-- A completion answers its command from any earlier state with the same open commands. -/
theorem complete_answers_from (h : ((s.ring r).find q).isSome = true) (e : cmdsOf f.rings = cmdsOf s.rings) (st d b : Nat) :
    answered r q st d b s (complete r q st d b f) := by
  refine answered_of_cmds (complete_answers f r q st d b ?_) e
  rwa [Ring.find, (cmdsOf_ring e r).1]

theorem complete_part (st d b p : Nat) : (complete r q st d b s).part p = s.part p :=
  congrArg (kget Part.reset · p) (complete_parts r q st d b s)
end

/-! ### An invalidation ends (R403) -/

/-- Every unit has acknowledged the invalidation that `w` waits for: `w` leaves the waiting commands, the units count it, and streams
that it makes legal resume (R398, R403, R409). -/
def acknowledged (p : Nat) (w : Waiting) (s : State) : State :=
  resumeLegal p ((List.range s.cfg.sets).foldl (fun t k => trCount k 3 t)
    (s.modPart p (fun q => { q with waiting := q.waiting.erase w })))

theorem waiting_acknowledged (p : Nat) (w : Waiting) (s : State) :
    ((acknowledged p w s).part p).waiting = (s.part p).waiting.erase w := by
  have hcounts := mapView_foldl (fun t k => trCount_mapView t k 3) (List.range s.cfg.sets)
    (s.modPart p (fun q => { q with waiting := q.waiting.erase w }))
  rw [acknowledged, (mapView_iff.1 ((resumeLegal_mapView _ p).trans hcounts) p).1, State.part_modPart_same]

theorem acknowledged_cmds (p : Nat) (w : Waiting) (s : State) : cmdsOf (acknowledged p w s).rings = cmdsOf s.rings := by
  rw [acknowledged, resumeLegal_cmds, cmds_foldl (fun t k => trCount_cmds k 3 t), State.modPart_cmds]

section
variable {s : State} {p : Nat} {w : Waiting} {n : Nat} {o : OpenCmd} {pre rest : List Waiting}
  (hq : (s.part p).waiting = pre ++ w :: rest) (hpre : ∀ v ∈ pre, ∀ k, v.what ≠ .invalidate k) (hw : w.what = .invalidate n)
include hq hpre hw

/-- The first command that waits for an invalidation is the one found. -/
theorem find?_invalidates {f : Waiting → Bool} (hf : ∀ v, f v = true ↔ ∃ k, v.what = .invalidate k) :
    (s.part p).waiting.find? f = some w := by
  refine List.find?_eq_some_iff_append.2 ⟨(hf w).2 ⟨n, hw⟩, pre, rest, hq, fun v hv => ?_⟩
  have hv : f v ≠ true := fun h => ((hf v).1 h).elim (hpre v hv)
  simpa using hv

/-- The oldest invalidation that waits ends once its accesses have ended, and its command completes. -/
theorem execInvalidationDone_ends (ho : (s.ring w.ring).find w.seq = some o)
    (hf : s.inFlight p (mapRange o.image).1 (mapRange o.image).2 = false) :
    execInvalidationDone p s = .next (complete w.ring w.seq stOk n 0 (acknowledged p w s)) := by
  unfold execInvalidationDone
  rw [find?_invalidates hq hpre hw]
  · simp only [ho, hw, hf, Bool.false_eq_true, if_false, acknowledged]
  · intro v
    cases v.what <;> simp

/-- Taken out, it leaves those before and after it. -/
theorem erase_first : (s.part p).waiting.erase w = pre ++ rest := by
  have hn : w ∉ pre := fun h => hpre w h n hw
  rw [hq, List.erase_append_right _ hn, List.erase_cons_head]

theorem invalidationDone_completes (ho : (s.ring w.ring).find w.seq = some o)
    (hf : s.inFlight p (mapRange o.image).1 (mapRange o.image).2 = false) :
    completes (.invalidationDone p) s (fun t => (t.part p).waiting = pre ++ rest ∧ answered w.ring w.seq stOk n 0 s t) := by
  refine ⟨_, execInvalidationDone_ends hq hpre hw ho hf, ?_,
    complete_answers_from (by rw [ho]; rfl) (acknowledged_cmds p w s) _ _ _⟩
  rw [complete_part, waiting_acknowledged, erase_first hq hpre hw]
end

/-! ### A migration ends (R407) -/

section
variable (s : State) (p : Nat)

theorem space_finishWaits (f : Wait → Bool) (st d q : Nat) : ((finishWaits p f st d s).part q).space = (s.part q).space := by
  have hc (ws : List Waiting) (t : State) : (ws.foldl (fun t w => complete w.ring w.seq st d 0 t) t).part q = t.part q := by
    induction ws generalizing t with
    | nil => rfl
    | cons w ws ih => rw [List.foldl_cons, ih, complete_part]
  simp only [finishWaits, takeWaits]
  rw [hc]
  by_cases e : q = p
  · subst e; rw [State.part_modPart_same]
  · rw [State.part_modPart_other _ _ _ e]

/-- The one waiting command that satisfies a test completes. -/
theorem finishWaits_one {f : Wait → Bool} {w : Waiting} (h : (s.part p).waiting.filter (fun w => f w.what) = [w]) (st d : Nat) :
    finishWaits p f st d s = complete w.ring w.seq st d 0
      (s.modPart p (fun q => { q with waiting := q.waiting.filter (fun w => !f w.what) })) := by
  simp only [finishWaits, takeWaits, h, List.foldl_cons, List.foldl_nil]
end

section
variable {s : State} {p : Nat} {va : VA} {g : Migration} {l : Leaf}

/-- The page at `v` is no longer one that moves. -/
def stopMoving (p v : Nat) (s : State) : State :=
  modSpace p (fun t => { t with moving := t.moving.filter (fun x => decide (x.va ≠ v)) }) s

/-- A migrated page: copied, its new leaf in its place, and the old translations dropped. -/
def migrated (p v : Nat) (old new : Leaf) (s : State) : State :=
  resumeLegal p (invalidate p v (v + new.bytes)
    (modSpace p (fun t => t.put v (some new)) (copyPage p v old new (stopMoving p v s))))

theorem execMigrateCopyDone_ends (hg : (s.part p).space.moving.find? (fun m => decide (m.va = va.toNat)) = some g)
    (hs : s.asleep = false) (hf : s.inFlight p va.toNat (va.toNat + g.target.bytes) = false)
    (hl : kget none (s.part p).space.leaves (pageKey va.toNat) = some l) :
    execMigrateCopyDone p va s
      = .next (finishWaits p (fun w => decide (w = .migrate va.toNat)) stOk 0 (migrated p va.toNat l g.target s)) := by
  simp only [execMigrateCopyDone, hg, hs, hf, hl, Bool.or_self, Bool.false_eq_true, if_false, migrated, stopMoving]

/-- A migrated page's leaf is the new one, and it moves no more; nothing else of the partition's table changes. -/
theorem part_migrated (v : Nat) (old new : Leaf) :
    ((migrated p v old new s).part p).waiting = (s.part p).waiting
    ∧ ((migrated p v old new s).part p).space.leaves = kset none (s.part p).space.leaves (pageKey v) (some new)
    ∧ ((migrated p v old new s).part p).space.moving = (s.part p).space.moving.filter (fun x => decide (x.va ≠ v)) := by
  have hview : (migrated p v old new s).mapView
      = (modSpace p (fun t => t.put v (some new)) (copyPage p v old new (stopMoving p v s))).mapView :=
    (resumeLegal_mapView _ p).trans (invalidate_mapView _ p v _)
  obtain ⟨hw, hl, hm⟩ := mapView_iff.1 hview p
  obtain ⟨hw', hl', hm'⟩ := mapView_iff.1 (copyPage_mapView (stopMoving p v s) p v old new) p
  simp only [modSpace, stopMoving, State.part_modPart_same, Space.put] at hw hl hm hw' hl' hm'
  rw [hw, hl, hm, hw', hl', hm']
  exact ⟨rfl, rfl, rfl⟩

theorem migrated_cmds (v : Nat) (old new : Leaf) : cmdsOf (migrated p v old new s).rings = cmdsOf s.rings := by
  rw [migrated, resumeLegal_cmds, invalidate_cmds, modSpace_cmds, copyPage_cmds, stopMoving, modSpace_cmds]

theorem migrateCopyDone_completes (hg : (s.part p).space.moving.find? (fun m => decide (m.va = va.toNat)) = some g)
    (hs : s.asleep = false) (hf : s.inFlight p va.toNat (va.toNat + g.target.bytes) = false)
    (hl : kget none (s.part p).space.leaves (pageKey va.toNat) = some l) :
    completes (.migrateCopyDone p va) s (fun t =>
      kget none (t.part p).space.leaves (pageKey va.toNat) = some g.target
      ∧ (∀ k, k ≠ pageKey va.toNat → kget none (t.part p).space.leaves k = kget none (s.part p).space.leaves k)
      ∧ (t.part p).space.moving = (s.part p).space.moving.filter (fun x => decide (x.va ≠ va.toNat))
      ∧ (∀ w, (s.part p).waiting.filter (fun w => decide (w.what = .migrate va.toNat)) = [w] → ((s.ring w.ring).find w.seq).isSome = true →
          answered w.ring w.seq stOk 0 0 s t)) := by
  obtain ⟨hw, hleaves, hmoving⟩ := part_migrated (s := s) (p := p) va.toNat l g.target
  refine ⟨_, execMigrateCopyDone_ends hg hs hf hl, ?_, fun k hk => ?_, ?_, fun w h1 ho => ?_⟩
  · rw [space_finishWaits, hleaves, kget_kset_same]
  · rw [space_finishWaits, hleaves, kget_kset_other _ _ _ _ hk]
  · rw [space_finishWaits, hmoving]
  · rw [finishWaits_one _ _ (by rw [hw]; exact h1)]
    exact complete_answers_from ho (by rw [State.modPart_cmds, migrated_cmds]) _ _ _
end

/-- Settles O33: the line by `landTile_raw`, the invalidation and the migration by what they leave of the page table and the waiting
commands (`mapView`), and their completions by `complete_answers_from`. -/
theorem dataAndMappingsLand : Obligations.DataAndMappingsLand := by
  refine ⟨?_, fun s p w n o pre rest hq hpre hw ho hf => invalidationDone_completes hq hpre hw ho hf,
    fun s p va g l hg hs hf hl => migrateCopyDone_completes hg hs hf hl⟩
  intro s i tile x bs m hb hk hc hl hd hr ha row rows
  have h := LandedOver.tileReady (landTile_raw hd hc row rows) i tile
  refine ⟨_, execLineDataValid_lands hd hb hk hl hr ha row rows, h.spmHolds, h.outside,
    fun b hbl hbr hg ho => h.spmByte_zero hbl hbr hg ho, h.kept.1, ?_⟩
  rw [tileReady, State.stream_modStream_same, landTile_stream]

end Sys2Proof.Machine
end

section
/-! PROOF. The beat count (R43 to R49, R683): what a command leaves of the Beat Unit, and why BEAT_CNT never decreases but at a reset. -/

namespace Sys2Proof.Machine

/-! ### Views of the state -/

section
variable {α : Type} (F : State → α)

/-- What each step of a fold leaves of the state, the fold leaves. -/
theorem view_foldl {β : Type} {f : State → β → State} (h : ∀ t x, F (f t x) = F t) (l : List β) (s : State) : F (l.foldl f s) = F s := by
  induction l generalizing s with
  | nil => rfl
  | cons x l ih => rw [List.foldl_cons, ih, h]

theorem view_ite {s t u : State} {b : Prop} [Decidable b] (ht : F t = F s) (hu : F u = F s) : F (if b then t else u) = F s := by
  split <;> assumption

/-- What a change of one partition leaves of it, it leaves of every partition. -/
theorem view_modPart (V : Part → α) (s : State) (p : Nat) {f : Part → Part} (h : V (f (s.part p)) = V (s.part p)) :
    (fun q => V ((s.modPart p f).part q)) = fun q => V (s.part q) := by
  funext q
  by_cases e : q = p
  · rw [e, State.part_modPart_same, h]
  · rw [State.part_modPart_other _ _ _ e]
end

/-! ### What leaves the Beat Unit as it is -/

section
variable {s t : State}

theorem beat_of_mask (h : t.mask 0x2ffffffff7#38 = s.mask 0x2ffffffff7#38) : t.beat = s.beat := same_of_mask h .beat (by decide)
end

section
variable (s : State)

@[simp] theorem blkCount_beat (n : Nat) : (blkCount n s).beat = s.beat := beat_of_mask (blkCount_mask (by decide) n s)

@[simp] theorem beatPart_beat (p : Nat) : (beatPart p s).beat = s.beat := beat_of_mask (beatPart_mask (by decide) p s)

@[simp] theorem closeBar_beat (p : Nat) : (closeBar p s).beat = s.beat := rfl

@[simp] theorem loseTempo_beat (p : Nat) : (loseTempo p s).beat = s.beat := beat_of_mask (loseTempo_mask (by decide) p s)

@[simp] theorem flood_beat (p g : Nat) (ns : List Nat) (f : Frame) : (flood p g ns f s).beat = s.beat :=
  beat_of_mask (flood_mask (by decide) p g ns f s)

@[simp] theorem postEvent_beat (p code payload : Nat) : (postEvent p code payload s).beat = s.beat :=
  beat_of_mask (postEvent_mask (by decide) p code payload s)

@[simp] theorem fremundStop_beat (p code : Nat) : (fremundStop p code s).beat = s.beat :=
  beat_of_mask (fremundStop_mask (by decide) p code s)

/-- TEMPO_SPLIT sets SPLIT and changes nothing else of the Beat Unit (R46, R47, R67). -/
@[simp] theorem tempoSplit_beat (node : Nat) (ps : List Nat) : (tempoSplit node ps s).beat = { s.beat with split := true } := by
  unfold tempoSplit
  rw [view_foldl State.beat (fun t p => by simp), blkCount_beat]

/-- A beat that falls sets the count and changes nothing else of the Beat Unit (R46). -/
@[simp] theorem fallBeat_beat (c : BitVec 64) : (fallBeat c s).beat = { s.beat with cnt := c } := by
  unfold fallBeat
  rw [view_foldl State.beat (fun t p => beatPart_beat t p)]
  split
  · rw [view_foldl State.beat (fun t p => closeBar_beat t p)]
  · rfl
end

/-! ### The count and its lock state -/

/-- BEAT_CNT, the lock state and whether the first acquisition since a reset has completed. -/
def BeatUnit.count (u : BeatUnit) : BitVec 64 × Lock × Bool := (u.cnt, u.lock, u.acquired)

/-- A step to `t` keeps what holds until the first acquisition, and BEAT_CNT does not decrease in it, where the next counts fit. -/
def State.countsOn (s t : State) : Prop := t.beatSound ∧ (s.countFits → s.beat.cnt.toNat ≤ t.beat.cnt.toNat)

section
variable {s t : State}

theorem beatSound_of_count (h : t.beat.count = s.beat.count) (hs : s.beatSound) : t.beatSound := by
  simp only [BeatUnit.count, Prod.mk.injEq] at h
  obtain ⟨hc, hl, ha⟩ := h
  unfold State.beatSound
  rw [hc, hl, ha]
  exact hs

/-- A step that leaves the count and the lock state leaves them in order. -/
theorem countsOn_of_count (h : t.beat.count = s.beat.count) (hs : s.beatSound) : s.countsOn t :=
  ⟨beatSound_of_count h hs, fun _ => by rw [show t.beat.cnt = s.beat.cnt from congrArg Prod.fst h]⟩

/-- A beat that follows an acquisition counts on where it does not go back. -/
theorem countsOn_of_acquired (ha : t.beat.acquired = true) (h : s.countFits → s.beat.cnt.toNat ≤ t.beat.cnt.toNat) : s.countsOn t :=
  ⟨fun hn => by simp [ha] at hn, h⟩

/-- In LOCKED and HOLDOVER the first acquisition has completed. -/
theorem State.beatSound.acquired (hs : s.beatSound) (hu : s.beat.lock ≠ .unlocked) (hq : s.beat.lock ≠ .acquiring) :
    s.beat.acquired = true := by
  cases ha : s.beat.acquired with
  | true => rfl
  | false => rcases (hs ha).2 with h | h <;> contradiction

theorem State.countFits.succ (h : s.countFits) : s.beat.cnt.toNat ≤ (s.beat.cnt + 1).toNat := by
  rw [BitVec.toNat_add_of_lt h.1]
  exact Nat.le_add_right _ _

/-- The check of the frames that name an edge may set SPLIT, and leaves no frame to check (R47). -/
theorem checkFrames_beat (s : State) : (checkFrames s).beat = { s.beat with split := (checkFrames s).beat.split, armed := [] } := by
  have h (l : List (Nat × Nat)) (t : State) :
      (l.foldl (fun t x => if x.1 = t.beat.cnt.toNat then t else tempoSplit x.2 [0, 1, 2, 3] t) t).beat = { t.beat with
        split := (l.foldl (fun t x => if x.1 = t.beat.cnt.toNat then t else tempoSplit x.2 [0, 1, 2, 3] t) t).beat.split } := by
    induction l generalizing t with
    | nil => rfl
    | cons x l ih =>
      rw [List.foldl_cons, ih]
      split
      · rfl
      · rw [tempoSplit_beat]
  exact h _ _

theorem checkFrames_acquired (s : State) : (checkFrames s).beat.acquired = s.beat.acquired := by rw [checkFrames_beat]

theorem ite_tempoSplit_acquired (b : Bool) (node : Nat) (ps : List Nat) (s : State) :
    (if b then tempoSplit node ps s else s).beat.acquired = s.beat.acquired := by
  split
  · rw [tempoSplit_beat]
  · rfl

/-! ### Edges and inserted beats (R43 to R49, R683) -/

/-- The count that the beat-count frame in hand gives the edge that comes: a beat more for every edge since the frame (R46). -/
def BeatUnit.frameCount (u : BeatUnit) : Nat := match u.frame with | some f => f.1 + f.2.1 | none => 0

/-- The count that the edge which completes an acquisition takes: the frame's, or the next one where that would not rise (R46, R48). -/
def BeatUnit.acquiredCount (u : BeatUnit) : Nat :=
  if u.standalone || (!u.standalone && u.acquired && decide (u.frameCount ≤ u.cnt.toNat)) then u.cnt.toNat + 1 else u.frameCount

theorem frameCount_lt (h : s.countFits) : s.beat.frameCount < 2 ^ 64 := by
  unfold BeatUnit.frameCount
  split
  case h_1 f hf => exact h.2 f hf
  case h_2 => decide

theorem acquiredCount_lt (h : s.countFits) : s.beat.acquiredCount < 2 ^ 64 := by
  unfold BeatUnit.acquiredCount
  split
  · exact h.1
  · exact frameCount_lt h

/-- A count taken at an acquisition lies beyond the last one, or is the first since a reset (R46). -/
theorem le_acquiredCount (hs : s.beatSound) : s.beat.cnt.toNat ≤ s.beat.acquiredCount := by
  unfold BeatUnit.acquiredCount
  split
  case isTrue => exact Nat.le_succ _
  case isFalse h =>
    cases ha : s.beat.acquired with
    | true =>
      cases hal : s.beat.standalone <;> simp_all
      omega
    | false => simp [(hs ha).1]

end

section
variable {s : State} {tNs : Nat}

/-- An edge before the release of reset is none (R671). -/
theorem execBeatEdge_held (hp : s.pins.phase ≠ .running) : execBeatEdge tNs s = .next s := if_pos hp

theorem execBeatEdge_unlocked (hp : s.pins.phase = .running) (hl : s.beat.lock = .unlocked) : execBeatEdge tNs s = .next
    { s with beat := { s.beat with lock := .acquiring, run := [], lastPs := 1000 * tNs, frame := none, armed := [] } } := by
  simp [execBeatEdge, hp, hl]

/-- An edge in ACQUIRING completes the acquisition, or leaves the count and the lock state (R46, R48, R683). -/
theorem execBeatEdge_acquiring (hp : s.pins.phase = .running) (hl : s.beat.lock = .acquiring) : ∃ t, execBeatEdge tNs s = .next t
    ∧ (t.beat.acquired = true ∧ t.beat.cnt = BitVec.ofNat 64 s.beat.acquiredCount ∨ t.beat.count = s.beat.count) := by
  unfold execBeatEdge
  simp only [hp, hl, ne_eq, not_true_eq_false, if_false]
  split
  · refine ⟨_, rfl, .inl ⟨?_, ?_⟩⟩
    · rw [fallBeat_beat]
      exact (ite_tempoSplit_acquired _ _ _ _).trans (checkFrames_acquired _)
    · rw [fallBeat_beat, BeatUnit.acquiredCount, BeatUnit.frameCount]
      cases s.beat.frame <;> rfl
  · exact ⟨_, rfl, .inr (by rw [BeatUnit.count, BeatUnit.count, hl])⟩

/-- The Beat Unit after an edge at `tNs` in the window of the predicted one (R43, R45). -/
def BeatUnit.tracked (tNs : Nat) (u : BeatUnit) : BeatUnit :=
  { u with
    lock := .locked, inserted := 0, lastPs := 1000 * tNs, periodPs := track u.periodPs ((1000 * tNs - u.lastPs) / 1000), cnt := u.cnt + 1 }

variable (hp : s.pins.phase = .running) (hl : s.beat.lock = .locked ∨ s.beat.lock = .holdover)
include hp hl

theorem execBeatEdge_inWindow (hlo : s.beat.lastPs + s.beat.periodPs ≤ 1000 * tNs + 50000)
    (hhi : 1000 * tNs ≤ s.beat.lastPs + s.beat.periodPs + 50000) : execBeatEdge tNs s
      = .next (fallBeat (s.beat.cnt + 1) (checkFrames { s with beat := s.beat.tracked tNs })) := by
  rcases hl with hl | hl <;> simp [execBeatEdge, hp, hl, hlo, hhi, BeatUnit.tracked]

theorem execBeatEdge_outside (h : 1000 * tNs + 50000 < s.beat.lastPs + s.beat.periodPs ∨
    s.beat.lastPs + s.beat.periodPs + 50000 < 1000 * tNs) :
    execBeatEdge tNs s = .next (blkCount 2 { s with beat := { s.beat with glitch := true } }) := by
  have hw : ¬ (s.beat.lastPs + s.beat.periodPs ≤ 1000 * tNs + 50000 ∧ 1000 * tNs ≤ s.beat.lastPs + s.beat.periodPs + 50000) := by omega
  rcases hl with hl | hl <;> simp only [execBeatEdge, hp, hl, hw, ne_eq, not_true_eq_false, if_false]
end

section
variable {s : State} (hs : s.beatSound)
include hs

theorem execBeatEdge_countsOn (tNs : Nat) : ∃ t, execBeatEdge tNs s = .next t ∧ s.countsOn t := by
  by_cases hp : s.pins.phase = .running
  case neg => exact ⟨_, execBeatEdge_held hp, countsOn_of_count rfl hs⟩
  have htracks (hu : s.beat.lock ≠ .unlocked) (hq : s.beat.lock ≠ .acquiring) (hl : s.beat.lock = .locked ∨ s.beat.lock = .holdover) :
      ∃ t, execBeatEdge tNs s = .next t ∧ s.countsOn t := by
    by_cases hw : s.beat.lastPs + s.beat.periodPs ≤ 1000 * tNs + 50000 ∧ 1000 * tNs ≤ s.beat.lastPs + s.beat.periodPs + 50000
    · refine ⟨_, execBeatEdge_inWindow hp hl hw.1 hw.2, countsOn_of_acquired ?_ fun hf => ?_⟩
      · rw [fallBeat_beat]
        exact (checkFrames_acquired _).trans (hs.acquired hu hq)
      · rw [fallBeat_beat]
        exact hf.succ
    · exact ⟨_, execBeatEdge_outside hp hl (by omega), countsOn_of_count (by rw [blkCount_beat]; rfl) hs⟩
  cases hl : s.beat.lock with
  | unlocked =>
    refine ⟨_, execBeatEdge_unlocked hp hl, fun ha => ⟨(hs ha).1, .inr rfl⟩, fun _ => Nat.le_refl _⟩
  | acquiring =>
    obtain ⟨t, e, ⟨ha, hc⟩ | hc⟩ := execBeatEdge_acquiring (tNs := tNs) hp hl
    · refine ⟨t, e, countsOn_of_acquired ha fun hf => ?_⟩
      rw [hc, BitVec.toNat_ofNat, Nat.mod_eq_of_lt (acquiredCount_lt hf)]
      exact le_acquiredCount hs
    · exact ⟨t, e, countsOn_of_count hc hs⟩
  | locked => exact htracks (by simp [hl]) (by simp [hl]) (.inl hl)
  | holdover => exact htracks (by simp [hl]) (by simp [hl]) (.inr hl)

/-- A beat inserted in LOCKED or HOLDOVER adds 1 to the count (R45). -/
theorem execBeatInsert_countsOn : ∃ t, execBeatInsert s = .next t ∧ s.countsOn t := by
  unfold execBeatInsert
  dsimp only
  split
  case isTrue h =>
    refine ⟨_, rfl, countsOn_of_acquired ?_ fun hf => ?_⟩
    · rw [fallBeat_beat, blkCount_beat]
      exact hs.acquired (by rcases h.1 with h | h <;> simp [h]) (by rcases h.1 with h | h <;> simp [h])
    · rw [fallBeat_beat]
      exact hf.succ
  case isFalse => exact ⟨_, rfl, countsOn_of_count rfl hs⟩

/-- The move to UNLOCKED keeps the count (R45, R49). -/
theorem execHoldoverExpiry_countsOn : ∃ t, execHoldoverExpiry s = .next t ∧ s.countsOn t := by
  unfold execHoldoverExpiry
  dsimp only
  split
  · refine ⟨_, rfl, ?_⟩
    rw [State.countsOn, State.beatSound, view_foldl State.beat (fun t p => loseTempo_beat t p)]
    exact ⟨fun ha => ⟨(hs ha).1, .inl rfl⟩, fun _ => Nat.le_refl _⟩
  · exact ⟨_, rfl, countsOn_of_count rfl hs⟩
end

/-! ### Commands that leave the count (R46 to R48, R66, R441, R519, R655) -/

section
variable {s t : State}

theorem count_of_mask (h : t.mask 0x2ffffffff7#38 = s.mask 0x2ffffffff7#38) : t.beat.count = s.beat.count :=
  congrArg BeatUnit.count (beat_of_mask h)

/-- A command that keeps all but other parts of the block leaves the count in order. -/
theorem countsOn_of_keeps {r : Res} (h : Keeps 0x2ffffffff7#38 s r) (hs : s.beatSound) : ∃ t, r = .next t ∧ s.countsOn t := by
  obtain ⟨t, e, hm⟩ := h
  exact ⟨t, e, countsOn_of_count (count_of_mask hm) hs⟩

end
end Sys2Proof.Machine
end

section
/-! PROOF. What every command does to the beat count (R46 to R48, R66, R441, R519, R655): frames, writes of registers and boot leave it,
resets start it anew, and no other command touches the Beat Unit. -/

namespace Sys2Proof.Machine

/-! ### Frames (R46 to R48, R66, R67, R441, R442) -/

section
variable {s : State}

theorem keeps_ite {w : BitVec 38} {b : Prop} [Decidable b] {x y : Res} (hx : Keeps w s x) (hy : Keeps w s y) :
    Keeps w s (if b then x else y) := by split <;> assumption

variable (s)

/-- The Beat Unit after a beat-count frame of count `c` from node `d`: a count to adopt in ACQUIRING, one to check in LOCKED and
HOLDOVER, nothing in a standalone block (R46, R47, R48). -/
def BeatUnit.takeFrame (c d : Nat) (u : BeatUnit) : BeatUnit :=
  if u.standalone ∨ u.lock = .unlocked then u
  else if u.lock = .acquiring ∧ u.frame = none then { u with frame := some (c, 0, d) }
  else { u with armed := u.armed ++ [(c, d)] }

theorem takeFrame_count (c d : Nat) (u : BeatUnit) : (u.takeFrame c d).count = u.count := by
  unfold BeatUnit.takeFrame
  split
  · rfl
  split <;> rfl

/-- A beat-count frame is forwarded down the tempo group's tree, by its root and from the parent (R442). -/
def forwardFrame (n : Nat) (f : BitVec 256) (s : State) : State :=
  match s.portOwner n with
  | none => s
  | some p =>
    match s.tempoTree p with
    | some g =>
      if g.root || decide ((s.port n).peer = g.upNode) then
        flood p (s.part p).plane.tempoGroup.toNat (if g.root then [] else [g.upNode]) (.beatCount f) s
      else s
    | none => s

theorem forwardFrame_beat (n : Nat) (f : BitVec 256) : (forwardFrame n f s).beat = s.beat := by
  unfold forwardFrame
  split
  · rfl
  split
  · split
    · exact flood_beat _ _ _ _ _
    · rfl
  · rfl

/-- A count `c` from node `d` reaches the Beat Unit. -/
def takeCount (c d : Nat) (s : State) : Res :=
  if s.beat.standalone then .next s
  else
    match s.beat.lock with
    | .unlocked => .next s
    | .acquiring =>
      if s.beat.frame.isNone then .next { s with beat := { s.beat with frame := some (c, 0, d) } }
      else .next { s with beat := { s.beat with armed := s.beat.armed ++ [(c, d)] } }
    | _ => .next { s with beat := { s.beat with armed := s.beat.armed ++ [(c, d)] } }

theorem takeCount_eq (c d : Nat) : takeCount c d s = .next { s with beat := s.beat.takeFrame c d } := by
  unfold takeCount BeatUnit.takeFrame
  cases ha : s.beat.standalone with
  | true => simp
  | false =>
    cases hl : s.beat.lock with
    | unlocked => simp
    | acquiring => cases hfr : s.beat.frame <;> simp [ha, hl, hfr]
    | locked => simp [ha, hl]
    | holdover => simp [ha, hl]

theorem execBeatCountFrame_takes {n : Nat} {f : BitVec 256} (hc : (s.port n).state.carries = true) (hf : beatFrameOk f = true) :
    ∃ t, execBeatCountFrame n f s = .next t ∧ t.beat = s.beat.takeFrame (fld f.toNat 128 64) (s.port n).peer := by
  have htake : execBeatCountFrame n f s = takeCount (fld f.toNat 128 64) (s.port n).peer (forwardFrame n f s) :=
    if_neg (by simp [hc, hf])
  exact ⟨_, htake.trans (takeCount_eq _ _ _), congrArg (BeatUnit.takeFrame _ _) (forwardFrame_beat s n f)⟩

/-- A beat-count frame leaves BEAT_CNT (R46, R47). -/
theorem execBeatCountFrame_count (n : Nat) (f : BitVec 256) : ∃ t, execBeatCountFrame n f s = .next t ∧ t.beat.count = s.beat.count := by
  by_cases h : (!(s.port n).state.carries || !beatFrameOk f) = true
  · exact ⟨s, if_pos h, rfl⟩
  · simp only [Bool.or_eq_true, Bool.not_eq_true', not_or, Bool.not_eq_false] at h
    obtain ⟨t, e, ht⟩ := execBeatCountFrame_takes s h.1 h.2
    exact ⟨t, e, ht ▸ takeFrame_count _ _ _⟩

/-- A LATE frame leaves the count: one that has missed its combining beat sets SPLIT (R66, R67). -/
theorem execLateFrame_count (p n d x len : Nat) : ∃ t, execLateFrame p n d x len s = .next t ∧ t.beat.count = s.beat.count := by
  have hflood := congrArg BeatUnit.count (flood_beat s p (s.part p).plane.tempoGroup.toNat [(s.port n).peer] (.late d x len))
  unfold execLateFrame
  dsimp only
  split
  · exact ⟨_, rfl, rfl⟩
  split
  · exact ⟨_, rfl, hflood⟩
  split
  · exact ⟨_, rfl, (congrArg BeatUnit.count (tempoSplit_beat _ _ _)).trans hflood⟩
  · exact ⟨_, rfl, hflood⟩

/-- A vote frame that matches no vote is counted as a split, and SPLIT stays (R441). -/
theorem execVoteFrame_keeps_beat (p node id : Nat) (step : BitVec 32) (flags : BitVec 4) (count : Nat) :
    Keeps 0x2ffffffff7#38 s (execVoteFrame p node id step flags count s) := by
  unfold execVoteFrame
  dsimp only
  split
  · exact keeps_ite ⟨_, rfl, reportSplit_mask (by decide) p node s⟩
      (keeps_ite ⟨_, rfl, (flood_mask (by decide) _ _ _ _ _).trans (modVote_mask (by decide) _ _ _ _)⟩
        ⟨_, rfl, modVote_mask (by decide) _ _ _ _⟩)
  · exact ⟨_, rfl, rfl⟩

/-! ### Writes of registers (R83, R85, R655) -/

/-- A write of a block-wide status register clears status bits of the Beat Unit at most (R83). -/
theorem writeBlockReg_count (off v : Nat) : (writeBlockReg off v s).beat.count = s.beat.count := by
  unfold writeBlockReg
  split <;> rfl

/-- A write of any other register leaves the Beat Unit: BEAT_CNT is read-only and STANDALONE locked (R85, R655). -/
theorem writeReg_beat (off v : Nat) (h : ∀ b, s.target off ≠ .block b) : (writeReg off v s).beat = s.beat := by
  apply beat_of_mask
  unfold writeReg
  split
  case h_1 => exact writePartReg_mask (by decide) _ _ _ _
  case h_2 => exact writeDoorbell_mask (by decide) _ _ _ _
  case h_3 e => exact absurd e (h _)
  case h_4 => simp
  case h_5 => simp
  case h_6 => simp
  case h_7 => simp
  case h_8 => simp
  case h_9 => exact writeDebugReg_mask (by decide) _ _ _
  case h_10 => rfl

theorem writeReg_count (off v : Nat) : (writeReg off v s).beat.count = s.beat.count := by
  by_cases h : ∃ b, s.target off = .block b
  · obtain ⟨b, h⟩ := h
    simp only [writeReg, h]
    exact writeBlockReg_count s off v
  · exact congrArg BeatUnit.count (writeReg_beat s off v (fun b e => h ⟨b, e⟩))

theorem hostAccess_count {req off : Nat} {w : Bool} {f : State → State} (hf : (f s).beat.count = s.beat.count) :
    (hostAccess req off w f s).beat.count = s.beat.count := by
  unfold hostAccess
  split
  · rfl
  split
  · exact hf
  · exact count_of_mask (refuseAccess_mask (by decide) _ _ _ _)

theorem hostWrite_count (req off : Nat) (v : BitVec 32) : ∃ t, hostWrite req off v s = .next t ∧ t.beat.count = s.beat.count :=
  ⟨_, rfl, hostAccess_count s (writeReg_count s off v.toNat)⟩

theorem execRegisterWrite_count (req : Nat) (addr be : BitVec 64) (data : BitVec 512) (parity : BitVec 64) :
    ∃ t, execRegisterWrite req addr be data parity s = .next t ∧ t.beat.count = s.beat.count := by
  have hline (l : List Nat) (t : State) : (l.foldl (fun t g =>
      hostAccess req (addr.toNat + 4 * g) true (writeReg (addr.toNat + 4 * g) (fld data.toNat (32 * g) 32)) t) t).beat.count
        = t.beat.count := by
    induction l generalizing t with
    | nil => rfl
    | cons g l ih => rw [List.foldl_cons, ih, hostAccess_count _ (writeReg_count _ _ _)]
  have hring : ((if addr.toNat < 0x2100000 then writeRingBytes (addr.toNat - 0x2000000) be data s else s)).beat.count
      = s.beat.count := by
    split
    · exact count_of_mask (writeRingBytes_mask (by decide) _ _ _ _)
    · rfl
  unfold execRegisterWrite
  dsimp only
  split
  · exact ⟨_, rfl, rfl⟩
  split
  · split
    · exact ⟨_, rfl, rfl⟩
    · exact ⟨_, rfl, hline _ _⟩
  · exact ⟨_, rfl, hostAccess_count s hring⟩

/-! ### Boot (R518, R519, R648) -/

/-- A record of the protection image writes STANDALONE of the Beat Unit at most (R85, R519). -/
theorem writeRwl_count {t : State} {off v : Nat} (h : writeRwl off v s = some t) : t.beat.count = s.beat.count := by
  unfold writeRwl at h
  split at h
  · split at h
    · cases h
    · cases h; rfl
  split at h
  · cases h; rfl
  · cases h; rfl
  · split at h <;> cases h <;> rfl

theorem writeRecords_count {rs : List (Nat × Nat)} {s t : State} (h : writeRecords rs s = some t) : t.beat.count = s.beat.count := by
  induction rs generalizing s with
  | nil => cases h; rfl
  | cons r rs ih =>
    unfold writeRecords at h
    split at h
    case h_1 u e => exact (ih h).trans (writeRwl_count s e)
    case h_2 => cases h

theorem tryLock_beat {s t : State} {b : Bool} (h : tryLock s = (t, b)) : t.beat = s.beat := by
  unfold tryLock at h
  split at h <;> cases h <;> rfl

theorem bootFremund_beat : (bootFremund s).beat = s.beat := beat_of_mask (bootFremund_mask (by decide) s)

/-- Boot writes STANDALONE of the Beat Unit at most (R518, R519). -/
theorem runBoot_count : (runBoot s).beat.count = s.beat.count := by
  unfold runBoot
  split
  · rfl
  dsimp only
  split
  · rfl
  split
  · rfl
  case h_2 u e =>
    have hrec : u.beat.count = s.beat.count := (writeRecords_count e).trans rfl
    split
    case h_1 v e =>
      have hv := tryLock_beat e
      dsimp only [bootStep] at hv
      dsimp only [bootStop]
      rw [hv, hrec]
    case h_2 v e =>
      have hv := tryLock_beat e
      dsimp only [bootStep] at hv
      rw [bootFremund_beat, bootStep, hv, hrec]

theorem execFuseAck_count (word : BitVec 32) : ∃ t, execFuseAck word s = .next t ∧ t.beat.count = s.beat.count := by
  unfold execFuseAck
  dsimp only
  split
  · exact ⟨_, rfl, rfl⟩
  split
  · exact ⟨_, rfl, rfl⟩
  split
  · exact ⟨_, rfl, runBoot_count _⟩
  · exact ⟨_, rfl, rfl⟩
end

/-! ### Resets (R46, R546, R615, R616) -/

section
variable {s : State} (hs : s.beatSound)
include hs

omit hs in
/-- Block reset leaves the Beat Unit UNLOCKED, at count 0 (R46, R616). -/
theorem beatSound_afterReset (ph : Phase) (u : State) : (afterReset ph u).beatSound := fun _ => ⟨rfl, .inl rfl⟩

theorem execResetEntry_beatSound : ∃ t, execResetEntry s = .next t ∧ t.beatSound := by
  unfold execResetEntry
  split
  · exact ⟨_, rfl, hs⟩
  · exact ⟨_, rfl, beatSound_afterReset _ _⟩

theorem execSupplyFailure_beatSound (n : Nat) : ∃ t, execSupplyFailure n s = .next t ∧ t.beatSound := by
  unfold execSupplyFailure
  split
  · exact ⟨_, rfl, hs⟩
  · exact ⟨_, rfl, fun _ => ⟨rfl, .inl rfl⟩⟩

omit hs in
theorem execPorAssert_beatSound : ∃ t, execPorAssert s = .next t ∧ t.beatSound := ⟨_, rfl, fun _ => ⟨rfl, .inl rfl⟩⟩
end

/-! ### Every command -/

section
variable (s : State)

/-- A command whose rules do not name the Beat Unit leaves it. -/
theorem exec_keeps_beat (c : Instr) (h : Field.beat ∉ touches c) : Keeps 0x2ffffffff7#38 s (exec c s) := by
  cases c
  case barBoundary => exact execBarBoundary_keeps (by decide) ..
  case figureStalled => exact execFigureStalled_keeps (by decide) ..
  case figureStart => exact execFigureStart_keeps (by decide) ..
  case figureComplete => exact execFigureComplete_keeps (by decide) ..
  case figureAbort => exact execFigureAbort_keeps (by decide) ..
  case backwardPhaseStart => exact execBackwardPhaseStart_keeps (by decide) ..
  case mergePhaseStart => exact execMergePhaseStart_keeps (by decide) ..
  case bucketStart => exact execBucketStart_keeps (by decide) ..
  case appendPhase => exact execAppendPhase_keeps (by decide) ..
  case kvAppend => exact execKvAppend_keeps (by decide) ..
  case mxaOp => exact execMxaOp_keeps (by decide) ..
  case acmDrain => exact execAcmDrain_keeps (by decide) ..
  case acmFill => exact execAcmFill_keeps (by decide) ..
  case acmShift => exact execAcmShift_keeps (by decide) ..
  case acmClear => exact execAcmClear_keeps (by decide) ..
  case acmStatus => exact execAcmStatus_keeps (by decide) ..
  case rope => exact execRope_keeps (by decide) ..
  case vuSplit => exact execVuSplit_keeps (by decide) ..
  case cvtFromE4m3x => exact execCvtFromE4m3x_keeps (by decide) ..
  case cvtToE4m3x => exact execCvtToE4m3x_keeps (by decide) ..
  case optAdam => exact execOptAdam_keeps (by decide) ..
  case scaleStep => exact execScaleStep_keeps (by decide) ..
  case kvCommit => exact execKvCommit_keeps (by decide) ..
  case resReload => exact execResReload_keeps (by decide) ..
  case clmLoad => exact execClmLoad_keeps (by decide) ..
  case clmClaim => exact execClmClaim_keeps (by decide) ..
  case clmRetire => exact execClmRetire_keeps (by decide) ..
  case clmReturn => exact execClmReturn_keeps (by decide) ..
  case clmRelease => exact execClmRelease_keeps (by decide) ..
  case itemCommit => exact execItemCommit_keeps (by decide) ..
  case multicastStageIssue => exact execMulticastStageIssue_keeps (by decide) ..
  case spmFill => exact execSpmFill_keeps (by decide) ..
  case spmCopy => exact execSpmCopy_keeps (by decide) ..
  case credTake => exact execCredTake_keeps (by decide) ..
  case credTakeGrant => exact execCredTakeGrant_keeps (by decide) ..
  case credReturn => exact execCredReturn_keeps (by decide) ..
  case remoteRowWrite => exact execRemoteRowWrite_keeps (by decide) ..
  case streamAccess => exact execStreamAccess_keeps (by decide) ..
  case stbLookup => exact execStbLookup_keeps (by decide) ..
  case stbWalkDone => exact execStbWalkDone_keeps (by decide) ..
  case faultService => exact execFaultService_keeps (by decide) ..
  case translationPrefetch => exact execTranslationPrefetch_keeps (by decide) ..
  case lineDataValid => exact execLineDataValid_keeps (by decide) ..
  case invalidationDone => exact execInvalidationDone_keeps (by decide) ..
  case migrateCopyDone => exact execMigrateCopyDone_keeps (by decide) ..
  case pwuLookup => exact execPwuLookup_keeps (by decide) ..
  case pwuWalkDone => exact execPwuWalkDone_keeps (by decide) ..
  case quietPoint => exact execQuietPoint_keeps (by decide) ..
  case seqEvictCopyDone => exact execSeqEvictCopyDone_keeps (by decide) ..
  case seqRestoreCopyDone => exact execSeqRestoreCopyDone_keeps (by decide) ..
  case frameZeroed => exact execFrameZeroed_keeps (by decide) ..
  case reserveWaitTimeout => exact execReserveWaitTimeout_keeps (by decide) ..
  case mcReadRequest => exact execMcReadRequest_keeps (by decide) ..
  case mcWriteRequest => exact execMcWriteRequest_keeps (by decide) ..
  case softRepairDone => exact execSoftRepairDone_keeps (by decide) ..
  case wcbEvict => exact execWcbEvict_keeps (by decide) ..
  case refresh => exact execRefresh_keeps (by decide) ..
  case patrolScrub => exact execPatrolScrub_keeps (by decide) ..
  case scrubAged => exact execScrubAged_keeps (by decide) ..
  case stackTempRead => exact execStackTempRead_keeps (by decide) ..
  case channelLockLoss => exact execChannelLockLoss_keeps (by decide) ..
  case channelRelock => exact execChannelRelock_keeps (by decide) ..
  case channelFenceExpiry => exact execChannelFenceExpiry_keeps (by decide) ..
  case channelUeLimit => exact execChannelUeLimit_keeps (by decide) ..
  case intermissionItemStart => exact execIntermissionItemStart_keeps (by decide) ..
  case channelRetrainDone => exact execChannelRetrainDone_keeps (by decide) ..
  case portRetrainDone => exact execPortRetrainDone_keeps (by decide) ..
  case laneRemapDone => exact execLaneRemapDone_keeps (by decide) ..
  case repairStagingDone => exact execRepairStagingDone_keeps (by decide) ..
  case farDrsResponse => exact execFarDrsResponse_keeps (by decide) ..
  case farNdrCmp => exact execFarNdrCmp_keeps (by decide) ..
  case farLinkDown => exact execFarLinkDown_keeps (by decide) ..
  case farLinkUp => exact execFarLinkUp_keeps (by decide) ..
  case farLinkTimeout => exact execFarLinkTimeout_keeps (by decide) ..
  case flitReceive => exact execFlitReceive_keeps (by decide) ..
  case portRetryLimit => exact execPortRetryLimit_keeps (by decide) ..
  case portFecLimit => exact execPortFecLimit_keeps (by decide) ..
  case portLockLoss => exact execPortLockLoss_keeps (by decide) ..
  case portRelock => exact execPortRelock_keeps (by decide) ..
  case portRelockTimeout => exact execPortRelockTimeout_keeps (by decide) ..
  case portPeerFence => exact execPortPeerFence_keeps (by decide) ..
  case linkCalibration => exact execLinkCalibration_keeps (by decide) ..
  case portTrainRetry => exact execPortTrainRetry_keeps (by decide) ..
  case trainingFrame => exact execTrainingFrame_keeps (by decide) ..
  case transferIssue => exact execTransferIssue_keeps (by decide) ..
  case deliveryReceive => exact execDeliveryReceive_keeps (by decide) ..
  case creditFrame => exact execCreditFrame_keeps (by decide) ..
  case probeFrame => exact execProbeFrame_keeps (by decide) ..
  case voteContribute => exact execVoteContribute_keeps (by decide) ..
  case voteLatch => exact execVoteLatch_keeps (by decide) ..
  case chainSegment => exact execChainSegment_keeps (by decide) ..
  case dbProdWrite => exact execDbProdWrite_keeps (by decide) ..
  case dbCplWrite => exact execDbCplWrite_keeps (by decide) ..
  case dbEvconsWrite => exact execDbEvconsWrite_keeps (by decide) ..
  case ringReset => exact execRingReset_keeps (by decide) ..
  case ringResetDone => exact execRingResetDone_keeps (by decide) ..
  case heartbeatTick => exact execHeartbeatTick_keeps (by decide) ..
  case coreProgressFail => exact execCoreProgressFail_keeps (by decide) ..
  case watchdogExpiry => exact execWatchdogExpiry_keeps (by decide) ..
  case ccSramError => exact execCcSramError_keeps (by decide) ..
  case cifVersion => exact execCifVersion_keeps (by decide) ..
  case commandUnknownOpcode => exact execCommandUnknownOpcode_keeps (by decide) ..
  case eventRingSet => exact execEventRingSet_keeps (by decide) ..
  case jobOpen => exact execJobOpen_keeps (by decide) ..
  case jobEnd => exact execJobEnd_keeps (by decide) ..
  case chorLoad => exact execChorLoad_keeps (by decide) ..
  case chorRun => exact execChorRun_keeps (by decide) ..
  case chorStop => exact execChorStop_keeps (by decide) ..
  case holdRequest => exact execHoldRequest_keeps (by decide) ..
  case intermissionReq => exact execIntermissionReq_keeps (by decide) ..
  case kvArenaSet => exact execKvArenaSet_keeps (by decide) ..
  case seqOpen => exact execSeqOpen_keeps (by decide) ..
  case seqQuery => exact execSeqQuery_keeps (by decide) ..
  case seqReserve => exact execSeqReserve_keeps (by decide) ..
  case seqTrim => exact execSeqTrim_keeps (by decide) ..
  case seqClose => exact execSeqClose_keeps (by decide) ..
  case seqEvict => exact execSeqEvict_keeps (by decide) ..
  case seqRestore => exact execSeqRestore_keeps (by decide) ..
  case kvStat => exact execKvStat_keeps (by decide) ..
  case map => exact execMap_keeps (by decide) ..
  case unmap => exact execUnmap_keeps (by decide) ..
  case protect => exact execProtect_keeps (by decide) ..
  case migrate => exact execMigrate_keeps (by decide) ..
  case faultAbort => exact execFaultAbort_keeps (by decide) ..
  case hotRead => exact execHotRead_keeps (by decide) ..
  case hotSet => exact execHotSet_keeps (by decide) ..
  case tableDigest => exact execTableDigest_keeps (by decide) ..
  case fabricSet => exact execFabricSet_keeps (by decide) ..
  case routeSet => exact execRouteSet_keeps (by decide) ..
  case groupSet => exact execGroupSet_keeps (by decide) ..
  case lbSet => exact execLbSet_keeps (by decide) ..
  case lbClear => exact execLbClear_keeps (by decide) ..
  case tableRead => exact execTableRead_keeps (by decide) ..
  case linkQuery => exact execLinkQuery_keeps (by decide) ..
  case snapSet => exact execSnapSet_keeps (by decide) ..
  case snapRestore => exact execSnapRestore_keeps (by decide) ..
  case snapQuery => exact execSnapQuery_keeps (by decide) ..
  case setPartner => exact execSetPartner_keeps (by decide) ..
  case partnerReply => exact execPartnerReply_keeps (by decide) ..
  case partnerTimeout => exact execPartnerTimeout_keeps (by decide) ..
  case counterRead => exact execCounterRead_keeps (by decide) ..
  case powerState => exact execPowerState_keeps (by decide) ..
  case powerCap => exact execPowerCap_keeps (by decide) ..
  case healthRead => exact execHealthRead_keeps (by decide) ..
  case debugHalt => exact execDebugHalt_keeps (by decide) ..
  case debugResume => exact execDebugResume_keeps (by decide) ..
  case fwStage => exact execFwStage_keeps (by decide) ..
  case fwCommit => exact execFwCommit_keeps (by decide) ..
  case fwActivate => exact execFwActivate_keeps (by decide) ..
  case fwConfirm => exact execFwConfirm_keeps (by decide) ..
  case snapStagingDone => exact execSnapStagingDone_keeps (by decide) ..
  case snapSlotWritten => exact execSnapSlotWritten_keeps (by decide) ..
  case snapSlotErase => exact execSnapSlotErase_keeps (by decide) ..
  case mirrorDone => exact execMirrorDone_keeps (by decide) ..
  case mirrorTimeout => exact execMirrorTimeout_keeps (by decide) ..
  case nvmResponse tag ok data => exact execNvmResponse_keeps (by decide) tag ok data s
  case p1IdleEntry => exact execP1IdleEntry_keeps (by decide) ..
  case dutyAdjust => exact execDutyAdjust_keeps (by decide) ..
  case capWindowEnd => exact execCapWindowEnd_keeps (by decide) ..
  case droopWarnStart => exact execDroopWarnStart_keeps (by decide) ..
  case droopWarnEnd => exact execDroopWarnEnd_keeps (by decide) ..
  case dieTempRead => exact execDieTempRead_keeps (by decide) ..
  case thermThrottleChange => exact execThermThrottleChange_keeps (by decide) ..
  case porRelease => exact execPorRelease_keeps (by decide) ..
  case resetEntryDone => exact execResetEntryDone_keeps (by decide) ..
  case resetRelease => exact execResetRelease_keeps (by decide) ..
  case selfTests => exact execSelfTests_keeps (by decide) ..
  case hbmTraining => exact execHbmTraining_keeps (by decide) ..
  case linkTraining => exact execLinkTraining_keeps (by decide) ..
  case hbmZeroInit => exact execHbmZeroInit_keeps (by decide) ..
  case fwRegionBuild => exact execFwRegionBuild_keeps (by decide) ..
  case jtagIrUpdate => exact execJtagIrUpdate_keeps (by decide) ..
  case jtagDebugAccess => exact execJtagDebugAccess_keeps (by decide) ..
  case scanPattern => exact execScanPattern_keeps (by decide) ..
  case latchedLoRead => exact execLatchedLoRead_keeps (by decide) ..
  case acmDbgCopyDone => exact execAcmDbgCopyDone_keeps (by decide) ..
  case spmDbgCopyDone => exact execSpmDbgCopyDone_keeps (by decide) ..
  case vuOperation => exact execVuOperation_keeps (by decide) ..
  case powerTransitionDone => exact execPowerTransitionDone_keeps (by decide) ..
  case partnerRequest => exact execPartnerRequest_keeps (by decide) ..
  all_goals exact absurd (by simp [touches]) h

variable {s} (hs : s.beatSound)
include hs

/-- A command that leaves the count leaves it in order. -/
theorem countsOn_of_next {c : Instr} (h : ∃ t, exec c s = .next t ∧ t.beat.count = s.beat.count) :
    ∃ t, exec c s = .next t ∧ s.countsOn t := h.imp fun _ ⟨e, hc⟩ => ⟨e, countsOn_of_count hc hs⟩

/-- Every command but a reset leaves the count in order. -/
theorem exec_countsOn (c : Instr) (hr : resetting c = false) : ∃ t, exec c s = .next t ∧ s.countsOn t := by
  by_cases h : Field.beat ∈ touches c
  case neg => exact countsOn_of_keeps (exec_keeps_beat s c h) hs
  cases c
  case beatEdge tNs => exact execBeatEdge_countsOn hs tNs
  case beatInsert => exact execBeatInsert_countsOn hs
  case holdoverExpiry => exact execHoldoverExpiry_countsOn hs
  case beatCountFrame n f => exact countsOn_of_next hs (execBeatCountFrame_count s n f)
  case lateFrame p n d x len => exact countsOn_of_next hs (execLateFrame_count s p n d x len)
  case voteFrame => exact countsOn_of_keeps (execVoteFrame_keeps_beat s ..) hs
  case fuseAck w => exact countsOn_of_next hs (execFuseAck_count s w)
  case registerWrite => exact countsOn_of_next hs (execRegisterWrite_count s ..)
  case acmDbgGo => exact countsOn_of_next hs (hostWrite_count s ..)
  case spmDbgGo => exact countsOn_of_next hs (hostWrite_count s ..)
  case telemEnable => exact countsOn_of_next hs (hostWrite_count s ..)
  case telemTailWrite => exact countsOn_of_next hs (hostWrite_count s ..)
  case telemStatClear => exact countsOn_of_next hs (hostWrite_count s ..)
  case spmCstatClear => exact countsOn_of_next hs (hostWrite_count s ..)
  case mcCstatClear => exact countsOn_of_next hs (hostWrite_count s ..)
  case trCstatClear => exact countsOn_of_next hs (hostWrite_count s ..)
  case fqCstatClear => exact countsOn_of_next hs (hostWrite_count s ..)
  case lkCstatClear => exact countsOn_of_next hs (hostWrite_count s ..)
  case ceCstatClear => exact countsOn_of_next hs (hostWrite_count s ..)
  case stallCstatClear => exact countsOn_of_next hs (hostWrite_count s ..)
  case pcntCstatClear => exact countsOn_of_next hs (hostWrite_count s ..)
  case blkCstatClear => exact countsOn_of_next hs (hostWrite_count s ..)
  case hpfStatClear => exact countsOn_of_next hs (hostWrite_count s ..)
  case protViolClear => exact countsOn_of_next hs (hostWrite_count s ..)
  case supplyFailure => cases hr
  case porAssert => cases hr
  case resetEntry => cases hr
  all_goals exact absurd h (by simp [touches])

/-- A reset leaves the Beat Unit as no acquisition has touched it (R46, R616). -/
theorem exec_resets_beatSound (c : Instr) (hr : resetting c = true) : ∃ t, exec c s = .next t ∧ t.beatSound := by
  cases c
  case resetEntry => exact execResetEntry_beatSound hs
  case supplyFailure n => exact execSupplyFailure_beatSound hs n
  case porAssert => exact execPorAssert_beatSound
  all_goals cases hr
end

/-- Settles O5: a command that is no reset leaves the count and the lock state, or is one of the Beat Unit's own, whose next count lies
beyond the last (`exec_countsOn`). -/
theorem beatCountRises : Obligations.BeatCountRises := by
  intro s t hs ht
  unfold step at ht
  cases hq : s.pending with
  | nil =>
    rw [hq] at ht
    cases ht
    exact ⟨hs, fun _ _ => Nat.le_refl _⟩
  | cons c rest =>
    rw [hq] at ht
    cases hr : resetting c with
    | true =>
      obtain ⟨u, e, hu⟩ := exec_resets_beatSound (s := { s with pending := rest }) hs c hr
      cases e.symm.trans ht
      exact ⟨hu, fun _ hn => by simp [hn c rfl] at hr⟩
    | false =>
      obtain ⟨u, e, hu⟩ := exec_countsOn (s := { s with pending := rest }) hs c hr
      cases e.symm.trans ht
      exact ⟨hu.1, fun hf _ => hu.2 hf⟩

end Sys2Proof.Machine
end

section
/-! PROOF. What counting, reporting, writing lines and sending frames leave of a partition (R415, R423, R529, R589, R591): everything but
its counters, the notes of its Bar and the frames in hand, and of its accounting counters CORE_BEATS. -/

namespace Sys2Proof.Machine

/-! ### A partition without its counters -/

/-- A partition with its counters, the notes of the Bar in progress and what sending frames uses at their reset values. -/
def Part.bare (q : Part) : Part :=
  { q with
    plane := { q.plane with noRoute := false, rotate := [], waitq := [] }
    acct := { q.acct with live := [], rem := [], sat := 0 }
    cnt := Part.reset.cnt
    notes := BarNotes.reset }

/-- A partition without its counters, with CORE_BEATS and the number of its accounting counters. -/
def Part.uncounted (q : Part) : Part × Nat × Nat := (q.bare, nth q.acct.live 0, q.acct.live.length)

/-- What counting leaves of the partitions. -/
def State.uncounted (s : State) : Nat → Part × Nat × Nat := fun p => (s.part p).uncounted

section
variable {s t u : State}

theorem bare_of_uncounted (h : t.uncounted = s.uncounted) (p : Nat) : (t.part p).bare = (s.part p).bare :=
  congrArg Prod.fst (congrFun h p)

theorem tempo_of_uncounted (h : t.uncounted = s.uncounted) (p : Nat) : (t.part p).tempo = (s.part p).tempo :=
  (congrArg Part.tempo (bare_of_uncounted h p) :)

theorem run_of_uncounted (h : t.uncounted = s.uncounted) (p : Nat) : (t.part p).run = (s.part p).run :=
  (congrArg Part.run (bare_of_uncounted h p) :)

theorem items_of_uncounted (h : t.uncounted = s.uncounted) (p : Nat) : (t.part p).items = (s.part p).items :=
  (congrArg Part.items (bare_of_uncounted h p) :)

theorem uncounted_of_parts (h : t.parts = s.parts) : t.uncounted = s.uncounted := by
  funext p
  rw [State.uncounted, State.uncounted, State.part, State.part, h]

theorem uncounted_of_mask (h : t.mask 0x3fffffffef#38 = s.mask 0x3fffffffef#38) : t.uncounted = s.uncounted :=
  uncounted_of_parts (same_of_mask h .parts (by decide))

theorem uncounted_modPart (s : State) (p : Nat) {f : Part → Part} (h : (f (s.part p)).uncounted = (s.part p).uncounted) :
    (s.modPart p f).uncounted = s.uncounted := view_modPart Part.uncounted s p h
end

section
variable (s : State)

/-! ### Counters and accounts (R377, R409, R452, R529, R589, R598, R599) -/

@[simp] theorem satPart_uncounted (p off : Nat) : (satPart p off s).uncounted = s.uncounted :=
  (uncounted_of_mask (postEvent_mask (by decide) _ _ _ _)).trans (uncounted_modPart s p rfl)

@[simp] theorem satAll_uncounted (off : Nat) : (satAll off s).uncounted = s.uncounted :=
  view_foldl State.uncounted (fun t p => satPart_uncounted t p off) _ s

@[simp] theorem satOwned_uncounted (p : Option Nat) (off : Nat) : (satOwned p off s).uncounted = s.uncounted := by
  cases p with
  | none => rfl
  | some p => exact satPart_uncounted s p off

theorem nth_set_other {l : List Nat} {n i v : Nat} (h : n ≠ i) : nth (l.set n v) i = nth l i := by
  simp [nth, List.getElem?_set_ne h]

/-- An account other than CORE_BEATS is counted. -/
theorem acctAdd_uncounted (p k : Nat) {n : Nat} (hn : n ≠ 0) : (acctAdd p n k s).uncounted = s.uncounted := by
  have hadd : ∀ rem sat v, ({ s.part p with acct := { (s.part p).acct with live := (s.part p).acct.live.set n v, rem := rem, sat := sat } }
      : Part).uncounted = (s.part p).uncounted := by
    intro rem sat v
    simp only [Part.uncounted, nth_set_other hn, List.length_set]
    rfl
  unfold acctAdd
  exact view_ite State.uncounted ((satPart_uncounted _ _ _).trans (uncounted_modPart s p (hadd _ _ _))) (uncounted_modPart s p (hadd _ _ _))

@[simp] theorem partCount_uncounted (p n k : Nat) : (partCount p n k s).uncounted = s.uncounted := by
  unfold partCount
  exact view_ite State.uncounted ((satPart_uncounted _ _ _).trans (uncounted_modPart s p rfl)) (uncounted_modPart s p rfl)

@[simp] theorem blkCount_uncounted (n : Nat) : (blkCount n s).uncounted = s.uncounted := by
  unfold blkCount
  exact view_ite State.uncounted (satAll_uncounted _ _) rfl

@[simp] theorem mcCount_uncounted (ch n k : Nat) : (mcCount ch n k s).uncounted = s.uncounted := by
  unfold mcCount
  exact view_ite State.uncounted (satAll_uncounted _ _) rfl

@[simp] theorem fqCount_uncounted (n : Nat) : (fqCount n s).uncounted = s.uncounted := by
  unfold fqCount
  exact view_ite State.uncounted (satAll_uncounted _ _) rfl

@[simp] theorem lkCount_uncounted (n i w k : Nat) : (lkCount n i w k s).uncounted = s.uncounted := by
  unfold lkCount
  exact view_ite State.uncounted (satOwned_uncounted _ _ _) rfl

/-! ### Writes of lines (R351 to R353, R356 to R358, R371) -/

@[simp] theorem softRepair_uncounted (ch ca : Nat) : (softRepair ch ca s).uncounted = s.uncounted :=
  uncounted_of_mask (softRepair_mask (by decide) ch ca s)

@[simp] theorem corrected_uncounted (ch ca : Nat) : (corrected ch ca s).uncounted = s.uncounted := by
  unfold corrected
  exact view_ite State.uncounted ((softRepair_uncounted _ _ _).trans (mcCount_uncounted _ _ _ _)) (mcCount_uncounted _ _ _ _)

@[simp] theorem uncorrectableAt_uncounted (served : Bool) (ch ca fig : Nat) (ps : List Nat) :
    (uncorrectableAt served ch ca fig ps s).uncounted = s.uncounted := by
  have hdraw : (if (s.paOf ch ca).isNone then s.draw else s).uncounted = s.uncounted := by split <;> rfl
  have hcount := (mcCount_uncounted _ ch 1 1).trans hdraw
  unfold uncorrectableAt
  exact view_ite State.uncounted ((softRepair_uncounted _ _ _).trans ((uncounted_of_mask (postEach_mask (by decide) _ _ _ _)).trans hcount))
    ((uncounted_of_mask (postEach_mask (by decide) _ _ _ _)).trans hcount)

@[simp] theorem lostWrite_uncounted (ch ca fig : Nat) (ps : List Nat) : (lostWrite ch ca fig ps s).uncounted = s.uncounted :=
  uncounted_of_mask (lostWrite_mask (by decide) ch ca fig ps s)

/-- A count of bytes, where the entry's bytes are counted. -/
theorem counted_uncounted (b : Bool) (p k : Nat) {n : Nat} (hn : n ≠ 0) :
    (if b then acctAdd p n k s else s).uncounted = s.uncounted := view_ite State.uncounted (acctAdd_uncounted s p k hn) rfl

@[simp] theorem evictEntry_uncounted (ch : Nat) (e : WcbEntry) (ecc : Ecc) : (evictEntry ch e ecc s).uncounted = s.uncounted := by
  unfold evictEntry
  refine view_ite State.uncounted rfl (view_ite State.uncounted ((counted_uncounted _ _ _ _ (by decide)).trans rfl) ?_)
  have hcount := fun u : State => (counted_uncounted u e.counted e.part 128 (n := 2) (by decide))
  have hmerge := fun u : State => (hcount (mcCount ch 2 1 u)).trans (mcCount_uncounted u ch 2 1)
  exact view_ite State.uncounted ((uncorrectableAt_uncounted _ true _ _ _ _).trans ((hmerge _).trans rfl))
    (view_ite State.uncounted ((corrected_uncounted _ _ _).trans ((hmerge _).trans rfl)) ((hmerge _).trans rfl))

@[simp] theorem evictForced_uncounted (ch : Nat) (e : WcbEntry) : (evictForced ch e s).uncounted = s.uncounted := by
  unfold evictForced
  exact view_ite State.uncounted (evictEntry_uncounted _ _ _ _) (evictEntry_uncounted _ _ _ _)

@[simp] theorem wcbAccept_uncounted (ch line p : Nat) (counted : Bool) (bs : List (Nat × Byte)) :
    (wcbAccept ch line p counted bs s).uncounted = s.uncounted := by
  unfold wcbAccept
  dsimp only
  split
  · exact view_ite State.uncounted ((evictEntry_uncounted _ _ _ _).trans rfl) rfl
  · have hroom : (match (s.channel ch).wcb with
        | o :: _ => if 64 ≤ (s.channel ch).wcb.length then evictForced ch o s else s
        | [] => s).uncounted = s.uncounted := by
      split
      · exact view_ite State.uncounted (evictForced_uncounted _ _ _) rfl
      · rfl
    exact view_ite State.uncounted ((evictEntry_uncounted _ _ _ _).trans hroom) hroom

@[simp] theorem writePiece_uncounted (p : Nat) (counted : Bool) (va : Nat) (bs : List Byte) :
    (writePiece p counted va bs s).uncounted = s.uncounted := by
  unfold writePiece
  split
  · rfl
  split
  · rfl
  · exact view_ite State.uncounted (lostWrite_uncounted _ _ _ _ _) (wcbAccept_uncounted _ _ _ _ _ _)
  · exact (counted_uncounted _ _ _ _ (by decide)).trans rfl

@[simp] theorem writeVa_uncounted (p : Nat) (counted : Bool) (va : Nat) (bs : List Byte) :
    (writeVa p counted va bs s).uncounted = s.uncounted := by
  unfold writeVa
  exact view_ite State.uncounted rfl (view_foldl State.uncounted (fun t (x : Nat × List Byte) => writePiece_uncounted t p counted x.1 x.2) _ s)

/-! ### Frames (R415, R416, R423, R438, R451) -/

@[simp] theorem countFrameBytes_uncounted (n dir k : Nat) : (countFrameBytes n dir k s).uncounted = s.uncounted := by
  unfold countFrameBytes
  exact view_ite State.uncounted rfl ((lkCount_uncounted _ _ _ _ _).trans rfl)

@[simp] theorem pump_uncounted (n k : Nat) : (pump n k s).uncounted = s.uncounted := by
  induction k generalizing s with
  | zero => rfl
  | succ k ih =>
    unfold pump
    dsimp only
    split
    · rfl
    · exact view_ite State.uncounted ((ih _).trans ((countFrameBytes_uncounted _ _ _ _).trans rfl)) rfl

@[simp] theorem queueFrame_uncounted (n toward : Nat) (f : Frame) : (queueFrame n toward f s).uncounted = s.uncounted :=
  (pump_uncounted _ _ _).trans rfl

@[simp] theorem reportRoute_uncounted (p code node : Nat) : (reportRoute p code node s).uncounted = s.uncounted := by
  have hnote := uncounted_modPart s p (f := fun q => { q with
    plane := { q.plane with noRoute := true },
    notes := if code = 0x71 then { q.notes with noRoute := true } else { q.notes with loop := true } }) rfl
  unfold reportRoute
  exact view_ite State.uncounted hnote ((uncounted_of_mask (postEvent_mask (by decide) _ _ _ _)).trans hnote)

@[simp] theorem sendToward_uncounted (p node : Nat) (f : Frame) : (sendToward p node f s).uncounted = s.uncounted := by
  unfold sendToward
  refine view_ite State.uncounted (reportRoute_uncounted _ _ _ _) ?_
  split
  · exact (queueFrame_uncounted _ _ _ _).trans (uncounted_modPart s p rfl)
  · exact (reportRoute_uncounted _ _ _ _).trans (uncounted_modPart s p rfl)

@[simp] theorem flood_uncounted (p g : Nat) (but : List Nat) (f : Frame) : (flood p g but f s).uncounted = s.uncounted := by
  unfold flood
  split
  · rfl
  · exact view_foldl State.uncounted (fun t n => sendToward_uncounted t p n f) _ s
end

end Sys2Proof.Machine
end

section
/-! PROOF. The Beat Unit's moves and the tempo's reports (R44 to R49, R66, R67, R70, R89, R599): what edges, inserted beats and frames
leave, with the parts of a partition that counting and sending leave alone. -/

namespace Sys2Proof.Machine

/-! ### Discarded edges (R44, R599) -/

section
variable (s : State)

theorem blkCount_tempo (n p : Nat) : ((blkCount n s).part p).tempo = (s.part p).tempo :=
  tempo_of_uncounted (blkCount_uncounted s n) p

theorem ite_satAll_blk (b : Bool) (off : Nat) : (if b then satAll off s else s).blk = s.blk := by
  cases b
  · rfl
  · exact same_of_mask (satAll_mask (w := 0x700010#38) (by decide) off s) .blk (by decide)

/-- BEAT_GLITCH counts a discarded edge (R599). -/
theorem blkCount_glitch : (blkCount 2 s).blk.glitch = min 0xFFFF (s.blk.glitch + 1) := by
  simp only [blkCount, ite_satAll_blk]
  exact satAdd_fst 16 s.blk.glitch 1
end

/-! ### Inserted beats and their end (R45, R49) -/

section
variable {s : State}

theorem execBeatInsert_inserts (hl : s.beat.lock = .locked ∨ s.beat.lock = .holdover) (hi : s.beat.inserted < 1024) :
    execBeatInsert s = .next (fallBeat (s.beat.cnt + 1) (blkCount 3 { s with beat := { s.beat with
      lock := .holdover, missed := true, inserted := s.beat.inserted + 1, lastPs := s.beat.lastPs + s.beat.periodPs } })) :=
  if_pos ⟨hl, hi⟩

theorem execHoldoverExpiry_unlocks (hl : s.beat.lock = .holdover) (hi : 1024 ≤ s.beat.inserted) :
    execHoldoverExpiry s = .next ([0, 1, 2, 3].foldl (fun t p => loseTempo p t) { s with beat := { s.beat with
      lock := .unlocked, periodPs := 0, run := [], frame := none, armed := [] } }) :=
  if_pos ⟨hl, hi⟩
end

/-- Settles O7: an edge's three cases and the two ends of HOLDOVER by their equations, the Beat Unit through the beat that falls. -/
theorem beatUnitMoves : Obligations.BeatUnitMoves := by
  intro s
  refine ⟨fun tNs hp hl => ⟨_, execBeatEdge_unlocked hp hl, rfl⟩,
    fun tNs hp hl hlo hhi => ⟨_, execBeatEdge_inWindow hp hl hlo hhi, ?_⟩,
    fun tNs hp hl hout => ⟨_, execBeatEdge_outside hp hl hout, blkCount_beat _ _, blkCount_tempo _ _, blkCount_glitch _⟩,
    fun hl hi => ⟨_, execBeatInsert_inserts hl hi, ?_⟩,
    fun hl hi => ⟨_, execHoldoverExpiry_unlocks hl hi, view_foldl State.beat (fun t p => loseTempo_beat t p) _ _⟩⟩
  · beta_reduce
    rw [fallBeat_beat, checkFrames_beat]
    exact ⟨rfl, rfl, rfl, rfl, rfl, rfl⟩
  · beta_reduce
    rw [fallBeat_beat, blkCount_beat]

/-! ### LATE frames and stalled Figures (R66, R67, R70, R89) -/

section
variable {s : State} {p n : Nat}

theorem flood_tempo (g : Nat) (but : List Nat) (f : Frame) (q : Nat) : ((flood p g but f s).part q).tempo = (s.part q).tempo :=
  tempo_of_uncounted (flood_uncounted s p g but f) q

variable (ha : s.beat.standalone = false) (ho : s.portOwner n = some p) (hc : (s.port n).state.carries = true)
  (hr : (s.part p).tempo.running = true) (d x len : Nat)
include ha ho hc hr

/-- A LATE frame in time joins the requests of the partition, and goes on along the tree (R66). -/
theorem execLateFrame_joins (hm : ((s.sched p).isSome && (s.part p).tempo.missedLate x) = false) : execLateFrame p n d x len s
    = .next ((flood p (s.part p).plane.tempoGroup.toNat [(s.port n).peer] (.late d x len) s).modPart p (fun q =>
        { q with tempo := { q.tempo with late := q.tempo.late ++ [⟨d, x, len⟩] } })) := by
  simp [execLateFrame, ha, ho, hc, hr, hm]

/-- A LATE frame that has missed its combining beat is a split of the tempo (R67). -/
theorem execLateFrame_splits (hm : ((s.sched p).isSome && (s.part p).tempo.missedLate x) = true) : execLateFrame p n d x len s
    = .next (tempoSplit d [p] (flood p (s.part p).plane.tempoGroup.toNat [(s.port n).peer] (.late d x len) s)) := by
  simp [execLateFrame, ha, ho, hc, hr, hm]
end

theorem postEvent_parts (p code payload : Nat) (s : State) : (postEvent p code payload s).parts = s.parts :=
  same_of_mask (postEvent_mask (w := 0x700000#38) (by decide) p code payload s) .parts (by decide)

theorem part_of_parts {s t : State} (h : t.parts = s.parts) (p : Nat) : t.part p = s.part p := by rw [State.part, State.part, h]

/-- A Figure that has raised LATE in 8 Holds is reported, and its count begins again (R70, R89). -/
theorem execFigureStalled_reports {s : State} {p fig i : Nat} {c : Chor} {r : Run} (hc : (s.part p).chor = some c)
    (hr : (s.part p).run = some r) (hi : c.place fig = some i) (h8 : 8 ≤ kget 0 r.lateHolds i) : execFigureStalled p fig s
      = .next (postEvent p 0x12 (payloadOf fig 0 0) (s.modPart p (fun q => { q with
          tempo := { q.tempo with stalled := true }, run := some { r with lateHolds := kset 0 r.lateHolds i 0 } }))) := by
  simp only [execFigureStalled, hc, hr, hi, if_neg (Nat.not_lt.2 h8)]

/-- Settles O9: each report by its equation, the frame's way along the tree leaving the tempo alone (`flood_uncounted`). -/
theorem tempoReports : Obligations.TempoReports := by
  intro s
  refine ⟨fun n f hc hf => execBeatCountFrame_takes s hc hf,
    fun p n d x len ha ho hc hr hm => ⟨_, execLateFrame_joins ha ho hc hr d x len hm, flood_beat _ _ _ _ _, ?_⟩,
    fun p n d x len ha ho hc hr hm => ⟨_, execLateFrame_splits ha ho hc hr d x len hm, ?_⟩,
    fun p fig c r i hc hr hi h8 => ⟨_, execFigureStalled_reports hc hr hi h8, ?_, fun q hq => ?_⟩⟩
  · rw [State.part_modPart_same, flood_tempo]
  · beta_reduce
    rw [tempoSplit_beat, flood_beat]
  · rw [part_of_parts (postEvent_parts _ _ _ _), State.part_modPart_same]
  · rw [part_of_parts (postEvent_parts _ _ _ _), State.part_modPart_other _ _ _ hq]

end Sys2Proof.Machine
end

section
/-! PROOF. How a running partition counts beats (R52, R61 to R66): what `Tempo.advance` makes of a beat, and that the work of the beat
leaves what it has counted. -/

namespace Sys2Proof.Machine

/-! ### The beat's kind (R52, R65) -/

/-- Beat `cnt` of a running partition at or after its base beat, by kind. -/
def Tempo.advanced (old : Tempo) (cnt : BitVec 64) (t : Tempo) (k : BeatKind) : Prop :=
  t.base = old.base
  ∧ (k = .schedule ∧ t.sched = cnt - old.base - old.holdTotal + BitVec.ofNat 64 old.offset ∧ t.holdTotal = old.holdTotal ∧ t.hold = false
    ∨ (k = .hold ∨ k = .holdFirst) ∧ t.sched = old.sched ∧ t.holdTotal = old.holdTotal + 1 ∧ t.hold = true)

theorem advance_advanced {old t : Tempo} {b : Nat} {cnt : BitVec 64} {k : BeatKind} (hr : old.running = true)
    (hb : old.base.toNat ≤ cnt.toNat) (h : old.advance b cnt = (t, k)) : old.advanced cnt t k := by
  unfold Tempo.advance at h
  simp only [hr, Bool.not_true, Bool.false_eq_true, if_false, if_neg (Nat.not_lt.2 hb)] at h
  split at h
  · split at h
    · cases h; exact ⟨rfl, .inr ⟨.inl rfl, rfl, rfl, rfl⟩⟩
    · split at h
      · split at h
        · cases h; exact ⟨rfl, .inr ⟨.inl rfl, rfl, rfl, rfl⟩⟩
        · cases h; exact ⟨rfl, .inl ⟨rfl, rfl, rfl, rfl⟩⟩
      · cases h; exact ⟨rfl, .inl ⟨rfl, rfl, rfl, rfl⟩⟩
  · split at h
    · split at h
      · cases h; exact ⟨rfl, .inr ⟨.inr rfl, rfl, rfl, rfl⟩⟩
      · cases h; exact ⟨rfl, .inl ⟨rfl, rfl, rfl, rfl⟩⟩
    · cases h; exact ⟨rfl, .inl ⟨rfl, rfl, rfl, rfl⟩⟩

/-! ### The work of a beat leaves its count (R61 to R63, R70, R452) -/

/-- The beats a tempo has counted. -/
def Tempo.beats (t : Tempo) : BitVec 64 × BitVec 64 × BitVec 64 × Bool := (t.base, t.sched, t.holdTotal, t.hold)

/-- The beats that partition `p` has counted. -/
def State.beats (s : State) (p : Nat) : BitVec 64 × BitVec 64 × BitVec 64 × Bool := (s.part p).tempo.beats

section
variable (s : State) (p : Nat)

theorem beats_of_uncounted {s t : State} (h : t.uncounted = s.uncounted) (p : Nat) : t.beats p = s.beats p :=
  congrArg Tempo.beats (tempo_of_uncounted h p)

theorem beats_modPart {f : Part → Part} (h : (f (s.part p)).tempo.beats = (s.part p).tempo.beats) :
    (s.modPart p f).beats p = s.beats p := by
  rw [State.beats, State.part_modPart_same, h, State.beats]

theorem countCreditWaits_uncounted : (countCreditWaits p s).uncounted = s.uncounted := by
  unfold countCreditWaits
  split
  · rfl
  · exact (view_foldl State.uncounted (fun t n => lkCount_uncounted t n 5 32 1) _ _).trans (uncounted_modPart s p rfl)

theorem raiseLate_beats (len : Nat) : (raiseLate p len s).beats p = s.beats p := by
  have hreq := (beats_of_uncounted (partCount_uncounted (s.modPart p (fun q => { q with
      tempo := { q.tempo with late := q.tempo.late ++ [⟨(s.part p).plane.node.toNat, (s.part p).tempo.sched.toNat, len⟩] },
      notes := { q.notes with late := q.notes.late + 1 } })) p 2 1) p).trans (beats_modPart s p rfl)
  unfold raiseLate
  dsimp only
  split
  · exact (beats_of_uncounted (flood_uncounted _ _ _ _ _) p).trans hreq
  · exact hreq

theorem callerCheck_beats : (callerCheck p s).beats p = s.beats p := by
  unfold callerCheck
  dsimp only
  split
  · split
    · exact beats_modPart s p rfl
    · exact (raiseLate_beats _ p _).trans (beats_modPart s p rfl)
  · rfl

theorem holdEnded_beats : (holdEnded p s).beats p = s.beats p := by
  refine beats_modPart s p ?_
  dsimp only
  split <;> rfl

/-- A Hold beat is counted and noted for the telemetry record. -/
theorem held_beats : (partCount p 1 1 (s.modPart p (fun q =>
    { q with notes := { q.notes with hold := true, holdBeats := q.notes.holdBeats + 1 } }))).beats p = s.beats p :=
  (beats_of_uncounted (partCount_uncounted _ _ _ _) p).trans (beats_modPart s p rfl)
end

section
variable {s : State} {p : Nat} {c : Chor} {t : Tempo} {k : BeatKind}

/-- The beats that a running partition has counted once a beat has fallen. -/
theorem beatPart_beats (hr : (s.part p).tempo.running = true) (hc : (s.part p).chor = some c)
    (ha : (s.part p).tempo.advance c.barrier s.beat.cnt = (t, k)) : (beatPart p s).beats p = t.beats := by
  have hcount := acctAdd_uncounted s p (s.framesHeld p) (n := 5) (by decide)
  have htempo := tempo_of_uncounted hcount p
  have hchor : ((acctAdd p 5 (s.framesHeld p) s).part p).chor = some c := hc ▸ (congrArg Part.chor (bare_of_uncounted hcount p) :)
  have hbeat : (acctAdd p 5 (s.framesHeld p) s).beat = s.beat := beat_of_mask (acctAdd_mask (by decide) _ _ _ _)
  have hcredit (f : Part → Part) : (countCreditWaits p ((acctAdd p 5 (s.framesHeld p) s).modPart p f)).beats p
      = (f ((acctAdd p 5 (s.framesHeld p) s).part p)).tempo.beats := by
    rw [beats_of_uncounted (countCreditWaits_uncounted _ _) p, State.beats, State.part_modPart_same]
  unfold beatPart
  simp only [htempo, hchor, hbeat, ha, hr, Bool.not_true, Bool.false_eq_true, if_false]
  cases k with
  | idle => exact hcredit _
  | hold => exact (held_beats _ p).trans (hcredit _)
  | holdFirst =>
    refine (held_beats _ p).trans ((beats_of_uncounted (partCount_uncounted _ _ _ _) p).trans ?_)
    exact (beats_modPart _ p rfl).trans (hcredit _)
  | schedule =>
    refine (callerCheck_beats _ p).trans ?_
    split
    · exact (holdEnded_beats _ p).trans (hcredit _)
    · exact hcredit _
end

/-- Settles O8: the kind of the beat by `advance_advanced`, kept by the work of the beat (`beatPart_beats`). -/
theorem holdArithmetic : Obligations.HoldArithmetic := by
  intro s p c t k hr hc hb ha
  obtain ⟨hbase, hkind⟩ := advance_advanced hr hb ha
  have hbeats := beatPart_beats hr hc ha
  simp only [State.beats, Tempo.beats, Prod.mk.injEq] at hbeats
  obtain ⟨hb', hs', ht', hh'⟩ := hbeats
  refine ⟨hs', ht', hh', hb'.trans hbase, ?_⟩
  rcases hkind with ⟨rfl, hsched⟩ | ⟨hk, hheld⟩
  · exact ⟨fun _ => hsched, fun h => by simp at h, .inl rfl⟩
  · exact ⟨fun h => by subst h; simp at hk, fun _ => hheld, .inr hk⟩

end Sys2Proof.Machine
end

section
/-! PROOF. What block reset leaves (R46, R117, R220, R333, R335, R347, R376, R450, R473, R510, R550): every field as `State.reset` has it,
and the invariants of the lock and of the beat count. -/

namespace Sys2Proof.Machine

/-- Partition `p` at reset: no Figure flagged, no vote, all quarters on, no job and no run (R117, R220, R333). -/
theorem part_reset (p : Nat) : State.reset.part p = Part.reset := rfl

theorem ring_reset (r : Nat) : State.reset.ring r = Ring.reset := rfl

/-- Settles O6: each register by evaluating the reset state; LOCK is 0, and the count is 0 in UNLOCKED. -/
theorem resetState : Obligations.ResetState := by
  have hlock : State.reset.lockSound := fun h => by cases h
  have hbeat : State.reset.beatSound := fun _ => ⟨rfl, .inl rfl⟩
  have hpart (p : Nat) : (State.reset.part p).firstFig = 0xFFFFFF ∧ (State.reset.part p).flags = Flags.none
      ∧ (State.reset.part p).voteValid = false ∧ (State.reset.part p).quarterOn = 0xF ∧ (State.reset.part p).job = none
      ∧ (State.reset.part p).run = none ∧ (State.reset.part p).telem.enable = false := by
    rw [part_reset]
    decide
  refine ⟨rfl, rfl, rfl, rfl, hpart, ring_reset, ?_⟩
  exact ⟨rfl, rfl, rfl, rfl, rfl, rfl, rfl, rfl, rfl, rfl, rfl, rfl, rfl, rfl, rfl, rfl, fun n => ⟨rfl, rfl, rfl⟩,
    fun c => ⟨rfl, rfl, rfl⟩, fun k => ⟨rfl, rfl⟩, hlock, hbeat, reset_memWf⟩

end Sys2Proof.Machine
end

section
/-! PROOF. A Figure that completes (R58, R110, R116, R117, R289, R435): what ending its attempt, folding its flags, returning credits and
tracing leave of the run. -/

namespace Sys2Proof.Machine

/-! ### The end of an attempt (R289, R314, R379, R395) -/

section
variable (s : State)

theorem uncounted_faults (l : FaultQueue) : ({ s with faults := l } : State).uncounted = s.uncounted := rfl

@[simp] theorem enqueueFault_uncounted (i : Nat) : (enqueueFault i s).uncounted = s.uncounted := by
  unfold enqueueFault
  dsimp only
  split
  · rfl
  · rw [fqCount_uncounted, uncounted_faults]
    exact uncounted_modPart (s.setStream i _) _ rfl

@[simp] theorem resumeStream_uncounted (i : Nat) : (resumeStream i s).uncounted = s.uncounted :=
  uncounted_of_mask (resumeStream_mask (by decide) i s)

@[simp] theorem retryParked_uncounted (l : List Nat) : (retryParked l s).uncounted = s.uncounted := by
  induction l generalizing s with
  | nil => rfl
  | cons i more ih =>
    unfold retryParked
    refine view_ite State.uncounted rfl ((ih _).trans ?_)
    exact view_ite State.uncounted (resumeStream_uncounted s i) ((enqueueFault_uncounted _ i).trans rfl)

theorem unbindWhere_uncounted (f : Stream → Bool) : (unbindWhere f s).uncounted = s.uncounted :=
  (retryParked_uncounted _ _).trans
    (view_foldl State.uncounted (fun t (x : Nat × Stream) => uncounted_of_mask (unbindStream_mask (by decide) x.1 t)) _ s)

/-- The end of an attempt takes back streams, windows, slots and counters, and leaves the partitions. -/
theorem endAttempt_uncounted (p fid : Nat) (clms : List Nat) : (endAttempt p fid clms s).uncounted = s.uncounted :=
  (uncounted_of_mask (clearClms_mask (by decide) _ _)).trans ((uncounted_of_mask (leaveSlots_mask (by decide) _ _ _ _)).trans
    ((uncounted_of_mask (closeWindows_mask (by decide) _ _ _)).trans (unbindWhere_uncounted s _)))

/-- The listed counters are cleared, and no other. -/
theorem clearClms_clm (l : List Nat) (k : Nat) : (clearClms l s).clm k = if k ∈ l then Clm.clear else s.clm k := by
  induction l generalizing s with
  | nil => rfl
  | cons i l ih =>
    rw [clearClms, List.foldl_cons, ← clearClms, ih]
    by_cases hl : k ∈ l
    · simp [hl]
    · by_cases hi : k = i
      · subst hi; simp [hl]
      · simp [State.clm, State.setClm, kget_kset, hl, hi]

theorem endAttempt_clm (p fid : Nat) (clms : List Nat) (k : Nat) :
    (endAttempt p fid clms s).clm k = if k ∈ clms then Clm.clear else s.clm k := by
  have hkeep : (leaveSlots p fid clms (closeWindows p fid
      (unbindWhere (fun x => decide (x.part = p) && decide (x.fig = fid)) s))).clms = s.clms := by
    refine same_of_mask (w := 0x700530#38) ?_ .clms (by decide)
    rw [leaveSlots_mask (by decide), closeWindows_mask (by decide), unbindWhere_mask (by decide)]
  rw [endAttempt, clearClms_clm]
  unfold State.clm
  rw [hkeep]
end

/-! ### The run's progress -/

/-- The Figures in progress and completed, the iteration and whether the run is to stop; the flags; and the length of the list. -/
def Part.progress (q : Part) : Option (List RunFig × List Nat × Nat × Bool) × Flags × Option Nat :=
  (q.run.map (fun r => (r.active, r.completed, r.iteration, r.stopNow)), q.flags, q.chor.map (·.figures.length))

section
variable {s t : State}

theorem progress_of_uncounted (h : t.uncounted = s.uncounted) (p : Nat) : (t.part p).progress = (s.part p).progress :=
  (congrArg Part.progress (bare_of_uncounted h p) :)

theorem progress_modPart (s : State) (p : Nat) {f : Part → Part} (h : (f (s.part p)).progress = (s.part p).progress) :
    ((s.modPart p f).part p).progress = (s.part p).progress := by rw [State.part_modPart_same, h]

/-- Credits go back as frames, and the bindings are released (R435). -/
theorem returnCredits_progress (p fid : Nat) : ((returnCredits p fid s).part p).progress = (s.part p).progress := by
  unfold returnCredits
  dsimp only
  split
  · rfl
  · refine (progress_modPart _ p ?_).trans (progress_of_uncounted
      (view_foldl State.uncounted (fun t (b : Binding) => sendToward_uncounted t p b.srcNode _) _ s) p)
    simp only [Part.progress, Option.map_map]
    rfl

/-- A trace record moves the trace on, or ends it (R498). -/
theorem writeTrace_progress (p : Nat) (bs : List Byte) : ((writeTrace p bs s).part p).progress = (s.part p).progress := by
  unfold writeTrace
  split
  · rfl
  case h_2 r hr =>
    have hrun (r' : Run) (h : (r'.active, r'.completed, r'.iteration, r'.stopNow) = (r.active, r.completed, r.iteration, r.stopNow)) :
        ((s.modPart p (fun q => { q with run := some r' })).part p).progress = (s.part p).progress := by
      refine progress_modPart s p ?_
      simp only [Part.progress, hr, Option.map_some, h]
    split
    · rfl
    split
    · exact (progress_of_uncounted (writeVa_uncounted _ _ _ _ _) p).trans (hrun _ rfl)
    · exact hrun _ rfl

/-- The iteration goes on while Figures of the list are not completed (R110). -/
theorem endIteration_goesOn {p : Nat} {r : Run} {c : Chor} (hr : (s.part p).run = some r) (hc : (s.part p).chor = some c)
    (h : r.completed.length < c.figures.length) : endIteration p s = s := by
  simp [endIteration, hr, hc, h]

theorem settle_goesOn {p : Nat} {r : Run} (hr : (s.part p).run = some r) (h : r.stopNow = false) : settle p s = s := by
  simp [settle, hr, h]
end

/-! ### Completion (R58, R116, R117) -/

/-- The flags of a Figure that completes (R116, R219). -/
def doneFlags (p fig : Nat) (a : RunFig) (s : State) : Flags := if a.noWrite then Flags.none else a.flags.or (s.slotFlags p fig)

/-- A completed Figure has left the run's Figures in progress, and its attempt has ended (R58, R289). -/
def leaveRun (p fig : Nat) (r : Run) (a : RunFig) (s : State) : State :=
  endAttempt p fig a.clms ((if (closeBucket a (Config.freeWord s.free).toNat).bucketRecs.length = a.bucketRecs.length then s
    else s.draw).modPart p (fun q => { q with run := some { r with
      active := r.active.filter (fun x => !decide (x.fig = a.fig)), completed := insAsc r.completed a.fig } }))

/-- The block once a Figure has completed, before the iteration may end. -/
def completed (p fig : Nat) (r : Run) (a : RunFig) (f : Figure) (s : State) : State :=
  let fl := doneFlags p fig a s
  let t := writeTrace p (traceRecord fig (closeBucket a (Config.freeWord s.free).toNat) fl s.beat.cnt r.iteration)
    (returnCredits p fig ((leaveRun p fig r a s).modPart p (foldFlags fig s.beat.cnt fl)))
  if f.hdr.kind = 2 then t.modPart p (fun q => { q with tempo := { q.tempo with
      intermission := q.run.any (fun r => r.active.any (fun x => match q.figure x.fig with | some g => decide (g.hdr.kind = 2) | none => false)) } })
    else t

section
variable {s : State} {p fig : Nat} {c : Chor} {r : Run} {a : RunFig} {f : Figure}

theorem execFigureComplete_completes (hc : (s.part p).chor = some c) (hr : (s.part p).run = some r)
    (ha : (s.part p).active fig = some a) (hf : (s.part p).figure a.fig = some f) (hab : a.aborting = none)
    (hout : s.outputsDone p f a = true) (hbd : a.bucketDone = true) (hbn : a.buckets.length ≤ a.bucketNow)
    (hst : a.buckets = [] ∨ s.storing p fig = false) (hx : ∀ x ∈ c.xfers, x.srcFig = fig → x.issued = true)
    (hch : c.chainsSent fig = true) :
    execFigureComplete p fig s = .next (settle p (endIteration p (completed p fig r a f s))) := by
  have hxs : (c.xfers.filter (fun x => decide (x.srcFig = fig))).all (·.issued) = true := by
    simpa [or_iff_not_imp_left] using hx
  have hstore : (!a.buckets.isEmpty && s.storing p fig) = false := by rcases hst with h | h <;> simp [h]
  unfold execFigureComplete
  simp only [hc, hr, ha, hf]
  rw [if_neg (by simp [hab, hout, hbd, hstore, hxs, hch, Nat.not_lt.2 hbn])]
  rfl

theorem leaveRun_progress : ((leaveRun p fig r a s).part p).progress
    = (some (r.active.filter (fun x => !decide (x.fig = a.fig)), insAsc r.completed a.fig, r.iteration, r.stopNow), (s.part p).flags,
        (s.part p).chor.map (·.figures.length)) := by
  unfold leaveRun
  rw [progress_of_uncounted (endAttempt_uncounted _ _ _ _) p, State.part_modPart_same]
  split <;> rfl

theorem foldFlags_progress (fid : Nat) (cnt : BitVec 64) (fl : Flags) (q : Part) :
    (foldFlags fid cnt fl q).progress = (q.progress.1, q.flags.or fl, q.progress.2.2) := by
  simp only [Part.progress, foldFlags, Option.map_map]
  rfl

theorem completed_progress : ((completed p fig r a f s).part p).progress
    = (some (r.active.filter (fun x => !decide (x.fig = a.fig)), insAsc r.completed a.fig, r.iteration, r.stopNow),
        (s.part p).flags.or (doneFlags p fig a s), (s.part p).chor.map (·.figures.length)) := by
  have hleave := leaveRun_progress (s := s) (p := p) (fig := fig) (r := r) (a := a)
  have hflags : ((leaveRun p fig r a s).part p).flags = (s.part p).flags := congrArg (fun v => v.2.1) hleave
  have htrace (bs : List Byte) : ((writeTrace p bs (returnCredits p fig ((leaveRun p fig r a s).modPart p
      (foldFlags fig s.beat.cnt (doneFlags p fig a s))))).part p).progress = _ :=
    (writeTrace_progress p bs).trans (returnCredits_progress p fig)
  rw [State.part_modPart_same, foldFlags_progress, hleave, hflags] at htrace
  unfold completed
  dsimp only
  split
  · exact (progress_modPart _ p rfl).trans (htrace _)
  · exact htrace _

theorem leaveRun_clm (k : Nat) : (leaveRun p fig r a s).clm k = if k ∈ a.clms then Clm.clear else s.clm k := by
  unfold leaveRun
  rw [endAttempt_clm]
  split
  · rfl
  · split <;> rfl

theorem clm_of_clms {t : State} (h : t.clms = s.clms) (k : Nat) : t.clm k = s.clm k := by rw [State.clm, State.clm, h]

theorem completed_clm (k : Nat) : (completed p fig r a f s).clm k = if k ∈ a.clms then Clm.clear else s.clm k := by
  have htrace (bs : List Byte) (u : State) : (writeTrace p bs (returnCredits p fig u)).clms = u.clms :=
    same_of_mask (w := 0x80272a012#38) (by rw [writeTrace_mask (by decide), returnCredits_mask (by decide)]) .clms (by decide)
  rw [← leaveRun_clm (fig := fig)]
  refine clm_of_clms ?_ k
  unfold completed
  dsimp only
  split
  · exact htrace _ ((leaveRun p fig r a s).modPart p _)
  · exact htrace _ ((leaveRun p fig r a s).modPart p _)
end

/-- Settles O12: the completion leaves the run, folds the flags and clears the counters; the iteration goes on and the run does not stop. -/
theorem figureCompletes : Obligations.FigureCompletes := by
  unfold Obligations.FigureCompletes
  intro s p fig c r a f hc hr ha hf hab hout hbd hbn hst hx hch hmore hgo
  have hprog := completed_progress (s := s) (p := p) (fig := fig) (r := r) (a := a) (f := f)
  obtain ⟨hrun, hflags, hlen⟩ : _ ∧ _ ∧ _ := by simpa only [Part.progress, Prod.mk.injEq] using hprog
  obtain ⟨r', hr', hview⟩ := Option.map_eq_some_iff.1 hrun
  simp only [Prod.mk.injEq] at hview
  obtain ⟨hactive, hdone, hiter, hstop⟩ := hview
  obtain ⟨c', hc', hfigs⟩ := Option.map_eq_some_iff.1 (hlen.trans (congrArg _ hc))
  refine ⟨_, execFigureComplete_completes hc hr ha hf hab hout hbd hbn hst hx hch, ?_⟩
  rw [endIteration_goesOn hr' hc' (by rw [hdone, hfigs]; exact hmore), settle_goesOn hr' (hstop.trans hgo)]
  refine ⟨r', hr', hactive, hdone, hiter, hflags, fun k hk => ?_, fun k hk => ?_⟩
  · rw [completed_clm, if_pos hk]
  · rw [completed_clm, if_neg hk]

end Sys2Proof.Machine
end

section
/-! PROOF. A Figure that starts (R57, R219, R302): what the start of an attempt, events and a snapshot's capture leave of the runs, and
the run that the Figure enters. -/

namespace Sys2Proof.Machine

/-! ### The runs of the partitions -/

/-- The runs in progress. -/
def State.runs (s : State) : Nat → Option Run := fun p => (s.part p).run

/-- The runs, partition `p`'s being `r`. -/
def State.runsWith (s : State) (p : Nat) (r : Run) : Nat → Option Run := fun q => if q = p then some r else s.runs q

/-- A run that a Figure has entered. -/
def Run.enter (r : Run) (a : RunFig) : Run := { r with next := a.fig + 1, active := r.active ++ [a] }

section
variable {s t u : State} {p : Nat}

theorem runs_of_uncounted (h : t.uncounted = s.uncounted) : t.runs = s.runs := funext (run_of_uncounted h)

theorem runs_of_mask (h : t.mask 0x3fffffffef#38 = s.mask 0x3fffffffef#38) : t.runs = s.runs := runs_of_uncounted (uncounted_of_mask h)

theorem runs_modPart (s : State) (p : Nat) {f : Part → Part} (h : (f (s.part p)).run = (s.part p).run) : (s.modPart p f).runs = s.runs :=
  view_modPart Part.run s p h

/-- The runs with `p`'s replaced depend on the runs only. -/
theorem runsWith_congr (h : t.runs = s.runs) (r : Run) : t.runsWith p r = s.runsWith p r := by
  unfold State.runsWith
  rw [h]

theorem enterFigure_runs {r : Run} (hr : s.runs p = some r) (a : RunFig) : (enterFigure p a s).runs = s.runsWith p (r.enter a) := by
  have hr' : (s.part p).run = some r := hr
  funext q
  by_cases e : q = p
  · subst e
    rw [State.runsWith, if_pos rfl, State.runs, enterFigure, State.part_modPart_same]
    simp only [hr']
    rfl
  · rw [State.runsWith, if_neg e, State.runs, enterFigure, State.part_modPart_other _ _ _ e, State.runs]
end

/-! ### What a start leaves of the runs -/

section
variable (s : State) (p : Nat)

theorem acctAdd_runs (n k : Nat) : (acctAdd p n k s).runs = s.runs := by
  unfold acctAdd
  exact view_ite State.runs ((runs_of_uncounted (satPart_uncounted _ _ _)).trans (runs_modPart s p rfl)) (runs_modPart s p rfl)

/-- An attempt binds streams, opens windows, takes slots and counts CORE_BEATS. -/
theorem beginAttempt_runs (f : Figure) (mask : Nat) : (beginAttempt p f mask s).runs = s.runs := by
  have hunits : (takeSlots (s.figHealthy p f.hdr) p f.hdr.figId f.slot mask (openWindows p f.hdr.figId f.prog.wins
      (bindStreams p f.hdr.figId f.prog.streams s))).runs = s.runs := runs_of_mask (by
    rw [takeSlots_mask (by decide), openWindows_mask (by decide), bindStreams_mask (by decide)])
  exact view_ite State.runs ((acctAdd_runs _ _ _ _).trans hunits) hunits

theorem postEvents_runs (es : List (Nat × Nat)) : (es.foldl (fun t e => postEvent p e.1 e.2 t) s).runs = s.runs :=
  runs_of_uncounted (view_foldl State.uncounted (fun t e => uncounted_of_mask (postEvent_mask (by decide) p e.1 e.2 t)) es s)

theorem snapFail_runs (slot cause status : Nat) : (snapFail p slot cause status s).runs = s.runs :=
  (runs_of_mask (postEvent_mask (by decide) _ _ _ _)).trans (runs_modPart s p rfl)

theorem fwUncorrectable_uncounted (fig : Nat) (l : Loc) : (fwUncorrectable p fig l s).uncounted = s.uncounted := by
  cases l with
  | hbm ch ca => exact uncorrectableAt_uncounted _ _ _ _ _ _
  | far q a => exact uncounted_of_mask (postEvent_mask (by decide) _ _ _ _)

/-- A snapshot is captured, or reported to have failed (R576, R577). -/
theorem snapCapture_runs (fid start : Nat) (m : Manifest) : (snapCapture p fid start m s).runs = s.runs := by
  unfold snapCapture
  refine view_ite State.runs (snapFail_runs _ _ _ _ _) (view_ite State.runs (snapFail_runs _ _ _ _ _) ?_)
  split
  · exact (snapFail_runs _ _ _ _ _).trans (runs_of_uncounted (fwUncorrectable_uncounted _ _ _ _))
  · exact snapFail_runs _ _ _ _ _
  · exact runs_modPart s p rfl

/-- Where every region the Figure reads is VALID, none is loaded. -/
theorem loadRegions_ready {prog : TileProg} (h : s.regionsReady p prog = true) : loadRegions p prog s = s := by
  have hnone : (s.part p).residents.filter (fun r => !r.valid && readsRegion s.cfg.spmRows prog r) = [] := by
    refine List.filter_eq_nil_iff.2 fun r hr => ?_
    have := List.all_eq_true.1 h r hr
    grind
  rw [loadRegions, hnone, List.foldl_nil]
end

/-! ### The start (R57, R219, R302) -/

section
variable {s : State} {p fig : Nat} {c : Chor} {r : Run} {f : Figure}

/-- The runs once the Figure at place `i` has started in run `r`, the block having been in `s`. -/
def Entered (s : State) (p : Nat) (r : Run) (i : Nat) (noWrite : Bool) (t : State) : Prop :=
  ∃ clms pl gangs inv, t.runs = s.runsWith p (r.enter (startedFig i s.beat.cnt noWrite clms pl gangs inv none))

theorem startNoWrite_entered (hr : s.runs p = some r) (i fid : Nat) : Entered s p r i true (startNoWrite p i fid s) := by
  have hchor := runs_modPart s p (f := fun q => { q with chor := q.chor.map (fun c =>
    { c with xfers := c.xfers.map (fun x => if x.srcFig = fid then { x with isNull := true } else x) }) }) rfl
  exact ⟨[], Plan.empty, [], false, (enterFigure_runs (by rw [hchor, hr]) _).trans (runsWith_congr hchor _)⟩

theorem startWork_entered (hr : s.runs p = some r) (i : Nat) (pl : Plan) (hready : s.regionsReady p f.prog = true) :
    Entered s p r i false (startWork p i f pl s) := by
  have hbegin := (postEvents_runs (beginAttempt p f pl.rowMask s) p pl.events).trans (beginAttempt_runs s p f pl.rowMask)
  have henter (a : RunFig) := (enterFigure_runs (by rw [hbegin, hr]) a).trans (runsWith_congr hbegin _)
  refine ⟨(s.freeClms p).take (clmsOf f), pl, s.gangs p f, !pl.events.isEmpty, Eq.trans ?_ (henter _)⟩
  unfold startWork
  simp only [loadRegions_ready s p hready, hready, Bool.not_true, Bool.false_eq_true, if_false]
  split
  · exact snapCapture_runs _ _ _ _ _
  · exact runs_modPart _ p rfl
  · rfl

/-- The Figure's plan, a fused consumer's items being its producer's. -/
def fusedPlan (prod : Option RunFig) (pl : Plan) : Plan :=
  match prod with
  | some a => { pl with items := a.items }
  | none => pl

theorem execFigureStart_noWrite (hc : (s.part p).chor = some c) (hr : (s.part p).run = some r) (hf : c.figures[r.next]? = some f)
    (hid : f.hdr.figId = fig) (hmay : s.mayStart p r f = true) (hearly : earlierDone c r r.next f = true)
    (hin : s.inputsValid p c r r.next f = true) (hseq : s.seqsReady p f = true) (hnw : isNoWrite c f = true) :
    execFigureStart p fig s = .next (startNoWrite p r.next fig (leaveIdle s)) := by
  unfold execFigureStart
  simp only [hc, hr, hf]
  rw [if_neg (by simp [hid, hmay, hearly, hin, hseq]), if_pos hnw]

theorem execFigureStart_works {pl : Plan} (hc : (s.part p).chor = some c) (hr : (s.part p).run = some r)
    (hf : c.figures[r.next]? = some f)
    (hid : f.hdr.figId = fig) (hmay : s.mayStart p r f = true) (hearly : earlierDone c r r.next f = true)
    (hin : s.inputsValid p c r r.next f = true) (hseq : s.seqsReady p f = true) (hnw : ¬ isNoWrite c f = true)
    (hcores : f.works = true → s.figHealthy p f.hdr ≠ []) (hclms : clmsOf f ≤ (s.freeClms p).length)
    (hplan : s.plan p f (s.figHealthy p f.hdr).length none ((producerOf (s.part p) f).map (·.shape)) = some pl)
    (hstate : ∀ base, stateBaseOf f = some base → ∃ bs, s.table p base 40 = some bs ∧ (StepState.ofBytes bs).ok = true) :
    execFigureStart p fig s = .next (startWork p r.next f (fusedPlan (producerOf (s.part p) f) pl) (leaveIdle s)) := by
  unfold execFigureStart
  simp only [hc, hr, hf]
  rw [if_neg (by simp [hid, hmay, hearly, hin, hseq]), if_neg hnw, if_neg (by simpa using hcores), if_neg (Nat.not_lt.2 hclms)]
  simp only [hplan]
  cases hb : stateBaseOf f with
  | none => rfl
  | some base =>
    obtain ⟨bs, hbs, hok⟩ := hstate base hb
    simp only [hbs, hok, if_true]
    rfl

/-- The end of P1 Idle changes the power state only (R535). -/
theorem leaveIdle_parts (s : State) : (leaveIdle s).parts = s.parts := by unfold leaveIdle; split <;> rfl
theorem leaveIdle_beat (s : State) : (leaveIdle s).beat = s.beat := by unfold leaveIdle; split <;> rfl
theorem leaveIdle_cfg (s : State) : (leaveIdle s).cfg = s.cfg := by unfold leaveIdle; split <;> rfl

theorem leaveIdle_regionsReady (s : State) (p : Nat) (prog : TileProg) : (leaveIdle s).regionsReady p prog = s.regionsReady p prog := by
  rw [State.regionsReady, State.regionsReady, State.part, State.part, leaveIdle_parts, leaveIdle_cfg]

theorem Entered.of_leaveIdle {t : State} {i : Nat} {nw : Bool} (h : Entered (leaveIdle s) p r i nw t) : Entered s p r i nw t := by
  obtain ⟨clms, pl, gangs, inv, ht⟩ := h
  rw [leaveIdle_beat] at ht
  exact ⟨clms, pl, gangs, inv, ht.trans (runsWith_congr (runs_of_uncounted (uncounted_of_parts (leaveIdle_parts s))) _)⟩
end

/-- Settles O11: a no-write Figure enters the run at once; work passes its checks, loads no region, and enters it with its plan. -/
theorem figureStarts : Obligations.FigureStarts := by
  unfold Obligations.FigureStarts
  intro s p fig c r f hc hr hf hid hmay hearly hin hseq hwork
  have hidle : (leaveIdle s).runs p = some r :=
    (congrFun (runs_of_uncounted (uncounted_of_parts (leaveIdle_parts s))) p).trans hr
  obtain ⟨t, hstep, henter⟩ : ∃ t, execFigureStart p fig s = .next t ∧ Entered s p r r.next (isNoWrite c f) t := by
    by_cases hnw : isNoWrite c f = true
    · refine ⟨_, execFigureStart_noWrite hc hr hf hid hmay hearly hin hseq hnw, ?_⟩
      rw [hnw]
      exact (startNoWrite_entered hidle r.next fig).of_leaveIdle
    · obtain ⟨hcores, hclms, hplan, hready, hstate⟩ := hwork.resolve_left hnw
      obtain ⟨pl, hpl⟩ := Option.isSome_iff_exists.1 hplan
      refine ⟨_, execFigureStart_works hc hr hf hid hmay hearly hin hseq hnw hcores hclms hpl hstate, ?_⟩
      rw [Bool.eq_false_iff.2 hnw]
      exact (startWork_entered hidle r.next _ ((leaveIdle_regionsReady s p f.prog).trans hready)).of_leaveIdle
  obtain ⟨clms, pl, gangs, inv, hruns⟩ := henter
  refine ⟨t, hstep, r.enter (startedFig r.next s.beat.cnt (isNoWrite c f) clms pl gangs inv none), _,
    (congrFun hruns p).trans (if_pos rfl), rfl, rfl, rfl, rfl, rfl, rfl, rfl, rfl, fun q hq => (congrFun hruns q).trans (if_neg hq)⟩

end Sys2Proof.Machine
end

section
/-! PROOF. The Bar boundary (R42, R51, R406, R531, R590, R603): what the Bar's counts, the telemetry and the hot lists leave of the
accounting copies, and what the copy takes. -/

namespace Sys2Proof.Machine

/-! ### The copies, and what they are taken from -/

/-- The copy of a partition's accounting counters, and of what it is taken: KV_PAGE_BEATS before the boundary's beat, CORE_BEATS and the
number of the counters. -/
def Part.bars (q : Part) : (List Nat × BitVec 64) × Nat × Nat × Nat :=
  ((q.acct.bar, q.acct.barBeat), q.acct.kvEdge, nth q.acct.live 0, q.acct.live.length)

/-- The BAR copy of the boundary at count `cnt` has been taken. -/
def Part.Copied (cnt : BitVec 64) (q : Part) : Prop :=
  q.acct.barBeat = cnt ∧ nth q.acct.bar 0 = nth q.acct.live 0 ∧ (q.acct.live.length = 7 → nth q.acct.bar 5 = q.acct.kvEdge)

/-- The copies of every partition. -/
def State.bars (s : State) : Nat → (List Nat × BitVec 64) × Nat × Nat × Nat := fun p => (s.part p).bars

section
variable {s t u : State}

theorem bars_of_uncounted (h : t.uncounted = s.uncounted) : t.bars = s.bars := by
  funext p
  have hbare := bare_of_uncounted h p
  have hlive : (nth (t.part p).acct.live 0, (t.part p).acct.live.length) = (nth (s.part p).acct.live 0, (s.part p).acct.live.length) :=
    congrArg Prod.snd (congrFun h p)
  have hcopy : ((t.part p).acct.bar, (t.part p).acct.barBeat) = ((s.part p).acct.bar, (s.part p).acct.barBeat) :=
    (congrArg (fun q : Part => (q.acct.bar, q.acct.barBeat)) hbare :)
  have hedge : (t.part p).acct.kvEdge = (s.part p).acct.kvEdge := (congrArg (fun q : Part => q.acct.kvEdge) hbare :)
  rw [State.bars, State.bars, Part.bars, Part.bars, hcopy, hedge, hlive]

theorem bars_modPart (s : State) (p : Nat) {f : Part → Part} (h : (f (s.part p)).bars = (s.part p).bars) :
    (s.modPart p f).bars = s.bars :=
  view_modPart Part.bars s p h

theorem nth_set_same {l : List Nat} {n v : Nat} (h : n < l.length) : nth (l.set n v) n = v := by simp [nth, h]

/-- That the copy has been taken shows in the copies alone. -/
theorem Part.copied_of_bars {q q' : Part} {cnt : BitVec 64} (h : q'.bars = q.bars) (hq : q.Copied cnt) : q'.Copied cnt := by
  simp only [Part.bars, Prod.mk.injEq] at h
  obtain ⟨⟨hbar, hbeat⟩, hedge, hcore, hlen⟩ := h
  rw [Part.Copied, hbar, hbeat, hedge, hcore, hlen]
  exact hq
end

/-! ### The Bar's counts (R406, R591, R594) -/

section
variable (s : State)

theorem countStalls_uncounted (c : Nat) (add : List Nat) : (countStalls c add s).uncounted = s.uncounted :=
  (view_foldl State.uncounted (fun t _ => satOwned_uncounted t _ _) _ _).trans rfl

theorem countSpm_uncounted (c : Nat) (conf : List Nat) (nwait crwait : Nat) : (countSpm c conf nwait crwait s).uncounted = s.uncounted :=
  (view_foldl State.uncounted (fun t _ => satOwned_uncounted t _ _) _ _).trans rfl

theorem countBar_uncounted (act : BarActivity) : (countBar act s).uncounted = s.uncounted :=
  (view_foldl State.uncounted (fun _ _ => view_ite State.uncounted rfl (lkCount_uncounted _ _ _ _ _)) _ _).trans
    ((view_foldl State.uncounted (fun _ _ => view_ite State.uncounted rfl (mcCount_uncounted _ _ _ _)) _ _).trans
      ((view_foldl State.uncounted (fun t c => countSpm_uncounted t c _ _ _) _ _).trans
        (view_foldl State.uncounted (fun t c => countStalls_uncounted t c _) _ _)))

theorem drainAccess_bars : (drainAccess s).bars = s.bars := by
  unfold drainAccess
  refine view_foldl State.bars (fun t k => ?_) _ s
  refine (view_foldl State.bars (fun u e => ?_) _ _).trans (bars_of_uncounted (uncounted_of_parts rfl))
  split
  · rfl
  · exact bars_modPart u e.part rfl

/-! ### Telemetry (R603, R605) -/

theorem telemDrop_bars (p : Nat) : (telemDrop p s).bars = s.bars := by
  unfold telemDrop
  exact view_ite State.bars ((bars_of_uncounted (satPart_uncounted _ _ _)).trans (bars_modPart s p rfl)) (bars_modPart s p rfl)

theorem telemPut_bars (p : Nat) (r : List Byte) : (telemPut p r s).bars = s.bars := by
  unfold telemPut
  exact view_ite State.bars (telemDrop_bars s p) ((bars_of_uncounted (writeVa_uncounted _ _ _ _ _)).trans (bars_modPart s p rfl))

theorem telemBar_bars (p : Nat) (act : BarActivity) : (telemBar p act s).bars = s.bars := by
  unfold telemBar
  exact view_ite State.bars rfl (view_ite State.bars (view_ite State.bars (bars_modPart s p rfl) (telemDrop_bars s p)) (telemPut_bars s p _))

/-! ### The boundary's work for a partition -/

theorem addEnergy_bars (p : Nat) : (addEnergy p s).bars = s.bars :=
  bars_of_uncounted ((acctAdd_uncounted _ p _ (by decide)).trans rfl)

theorem addEnergy_beat (p : Nat) : (addEnergy p s).beat = s.beat :=
  same_of_mask (w := 0x80270a012#38) (addEnergy_mask (by decide) p s) .beat (by decide)

theorem hotBar_bars (p : Nat) : (hotBar p s).bars = s.bars := by
  unfold hotBar
  exact bars_modPart s p rfl

theorem Part.bars_notes (q : Part) (n : BarNotes) : ({ q with notes := n } : Part).bars = q.bars := rfl

/-- Telemetry, the hot list and the notes of the Bar follow the copy, and leave it. -/
theorem barPart_bars (act : BarActivity) (p : Nat) : (barPart act p s).bars = (barCopy p (addEnergy p s)).bars := by
  unfold barPart
  rw [bars_modPart _ p (Part.bars_notes _ _), hotBar_bars, telemBar_bars]

theorem barPart_bars_other (act : BarActivity) {p q : Nat} (h : q ≠ p) : ((barPart act p s).part q).bars = (s.part q).bars := by
  refine (congrFun (barPart_bars s act p) q).trans (Eq.trans ?_ (congrFun (addEnergy_bars s p) q))
  rw [State.bars, barCopy, State.part_modPart_other _ _ _ h, State.bars]

theorem barPart_edge (act : BarActivity) (p q : Nat) : ((barPart act p s).part q).bars.2 = (s.part q).bars.2 := by
  by_cases h : q = p
  · subst h
    refine (congrArg Prod.snd (congrFun (barPart_bars s act q) q)).trans
      (Eq.trans ?_ (congrArg Prod.snd (congrFun (addEnergy_bars s q) q)))
    rw [State.bars, barCopy, State.part_modPart_same]
    rfl
  · rw [barPart_bars_other s act h]

theorem barPart_copies (act : BarActivity) (p : Nat) : ((barPart act p s).part p).Copied s.beat.cnt := by
  refine Part.copied_of_bars (congrFun (barPart_bars s act p) p) ?_
  rw [barCopy, State.part_modPart_same, addEnergy_beat]
  exact ⟨rfl, nth_set_other (by decide), fun hlen => nth_set_same (lt_of_lt_of_eq (by decide : 5 < 7) hlen.symm)⟩

theorem barPart_beat (act : BarActivity) (p : Nat) : (barPart act p s).beat = s.beat :=
  same_of_mask (w := 0x80270a012#38) (barPart_mask (by decide) act p s) .beat (by decide)

/-- The copies of a list of partitions are taken one after another, at one count. -/
theorem barParts_copied (act : BarActivity) (l : List Nat) {p : Nat} (h : p ∈ l ∨ (s.part p).Copied s.beat.cnt) :
    ((l.foldl (fun t p => barPart act p t) s).part p).Copied s.beat.cnt := by
  induction l generalizing s with
  | nil => exact h.resolve_left (by simp)
  | cons x l ih =>
    rw [List.foldl_cons, ← barPart_beat s act x]
    refine ih _ ?_
    rw [barPart_beat]
    by_cases hx : p = x
    · subst hx
      exact .inr (barPart_copies s act p)
    · rcases h with h | h
      · exact .inl ((List.mem_cons.1 h).resolve_left hx)
      · exact .inr (Part.copied_of_bars (barPart_bars_other s act hx) h)

theorem barParts_edge (act : BarActivity) (l : List Nat) (p : Nat) :
    ((l.foldl (fun t p => barPart act p t) s).part p).bars.2 = (s.part p).bars.2 := by
  induction l generalizing s with
  | nil => rfl
  | cons x l ih => rw [List.foldl_cons, ih, barPart_edge]
end

/-! ### The new Bar -/

/-- What holds of the default and of every value of a map holds of what the map gives. -/
theorem kget_of_forall {α : Type} {d : α} {P : α → Prop} (hd : P d) {m : KMap α} (h : ∀ e ∈ m, P e.2) (k : Nat) : P (kget d m k) := by
  induction m with
  | nil => exact hd
  | cons e m ih =>
    rw [kget]
    split
    · exact h e (by simp)
    · exact ih (fun e he => h e (by simp [he]))

section
variable (s : State) (n : Nat)

theorem newBar_uesInBar : ((newBar s).channel n).uesInBar = 0 := by
  refine kget_of_forall (P := fun c : Channel => c.uesInBar = 0) rfl (fun e he => ?_) n
  obtain ⟨c, -, rfl⟩ := List.mem_map.1 (List.mem_filter.1 he).1
  rfl

theorem newBar_uncInBar : ((newBar s).port n).uncInBar = 0 := by
  refine kget_of_forall (P := fun c : Port => c.uncInBar = 0) rfl (fun e he => ?_) n
  obtain ⟨c, -, rfl⟩ := List.mem_map.1 (List.mem_filter.1 he).1
  rfl

theorem newBar_part : (newBar s).part n = s.part n := rfl

theorem newBar_pmu : (newBar s).pmu.dutyMin = s.pmu.duty ∧ (newBar s).pmu.dieTempMax = s.pmu.dieTemp ∧ (newBar s).pmu.droopPosted = false :=
  ⟨rfl, rfl, rfl⟩
end

/-- The block before the new Bar: the Bar's counts, the access fields and each partition's copies and records. -/
def barWork (act : BarActivity) (s : State) : State := [0, 1, 2, 3].foldl (fun t p => barPart act p t) (drainAccess (countBar act s))

section
variable (s : State) (act : BarActivity)

theorem barCounts_bars : (drainAccess (countBar act s)).bars = s.bars := (drainAccess_bars _).trans (bars_of_uncounted (countBar_uncounted s act))

theorem barCounts_beat : (drainAccess (countBar act s)).beat = s.beat := by
  refine same_of_mask (w := 0x80272a072#38) ?_ .beat (by decide)
  rw [drainAccess_mask (by decide), countBar_mask (by decide)]

theorem barWork_pmu : (barWork act s).pmu = s.pmu := by
  refine same_of_mask (w := 0x80272a072#38) ((mask_foldl (fun t p => barPart_mask (by decide) act p t) _ _).trans ?_) .pmu (by decide)
  rw [drainAccess_mask (by decide), countBar_mask (by decide)]

theorem barWork_copied {p : Nat} (hp : p < 4) : ((barWork act s).part p).Copied s.beat.cnt := by
  rw [← barCounts_beat s act]
  exact barParts_copied _ act _ (.inl (by interval_cases p <;> decide))

theorem barWork_edge (p : Nat) : ((barWork act s).part p).bars.2 = (s.part p).bars.2 :=
  (barParts_edge _ act _ p).trans (congrArg Prod.snd (congrFun (barCounts_bars s act) p))
end

/-- Settles O10: each partition's copy is taken at the boundary's count, and what it is taken of does not change with the Bar's work. -/
theorem barBoundary : Obligations.BarBoundary := by
  unfold Obligations.BarBoundary
  intro s act hlock hcnt hnew
  have hdue : execBarBoundary act s = .next (newBar (barWork act s)) := by
    unfold execBarBoundary
    rw [if_neg (by grind)]
    rfl
  obtain ⟨hduty, htemp, hdroop⟩ := newBar_pmu (barWork act s)
  rw [barWork_pmu] at hduty htemp
  refine ⟨_, hdue, fun p hp => ?_, fun n => ⟨newBar_uesInBar _ n, newBar_uncInBar _ n⟩, hduty, htemp, hdroop⟩
  rw [newBar_part]
  obtain ⟨hbeat, hcore, hkv⟩ := barWork_copied s act hp
  obtain ⟨hedge, hlive⟩ := Prod.mk.inj (barWork_edge s act p)
  obtain ⟨hcores, hlen⟩ := Prod.mk.inj hlive
  exact ⟨hbeat, hcore.trans hcores, fun h => (hkv (hlen.trans h)).trans hedge⟩

end Sys2Proof.Machine
end

section
/-! PROOF. Intrusive items of an Intermission (R71 to R76, R353, R363, R417, R419): what sending frames leaves of the ports, what writing
out a Write-Combining Buffer leaves of the channels, and what an item's start and end do. -/

namespace Sys2Proof.Machine

/-! ### Reports of the health word (R561) -/

/-- What no event changes, a change of the health word leaves as the change itself does. -/
theorem withHealth_view {α : Type} {F : State → α} (hF : ∀ code payload t, F (postAll code payload t) = F t) (f : State → State) (s : State) :
    F (withHealth f s) = F (f s) := by
  rcases withHealth_eq f s with h | h
  · rw [h]
  · rw [h, hF]

theorem withHealth_uncounted (f : State → State) (s : State) : (withHealth f s).uncounted = (f s).uncounted :=
  withHealth_view (F := State.uncounted) (fun _ _ _ => uncounted_of_mask (postAll_mask (by decide) _ _ _)) f s

/-! ### The ports' links -/

/-- The state of a port's link, and the lanes it uses. -/
def Port.link (q : Port) : PortState × BitVec 8 × Nat := (q.state, q.lanes, q.width)

/-- Every port's link. -/
def State.links (s : State) : Nat → PortState × BitVec 8 × Nat := fun n => (s.port n).link

section
variable {s t u : State}

theorem links_of_ports (h : t.ports = s.ports) : t.links = s.links := by
  unfold State.links State.port
  rw [h]

theorem link_of_links (h : t.links = s.links) (n : Nat) : (t.port n).link = (s.port n).link := congrFun h n

theorem state_of_link {q : Port} {st : PortState} {lanes : BitVec 8} {w : Nat} (h : q.link = (st, lanes, w)) :
    q.state = st ∧ q.lanes = lanes ∧ q.width = w := by
  simpa only [Port.link, Prod.mk.injEq] using h

theorem links_of_mask (h : t.mask 0x3ffffdffff#38 = s.mask 0x3ffffdffff#38) : t.links = s.links :=
  links_of_ports (same_of_mask h .ports (by decide))

theorem links_setPort (s : State) (n : Nat) {v : Port} (h : v.link = (s.port n).link) : (s.setPort n v).links = s.links := by
  funext k
  by_cases e : k = n
  · subst e; rw [State.links, State.port_setPort_same, h, State.links]
  · rw [State.links, State.port_setPort_other _ _ _ e, State.links]

theorem links_modPort (s : State) (n : Nat) {f : Port → Port} (h : (f (s.port n)).link = (s.port n).link) : (s.modPort n f).links = s.links :=
  links_setPort s n h

theorem withHealth_links (f : State → State) (s : State) : (withHealth f s).links = (f s).links :=
  withHealth_view (F := State.links) (fun _ _ _ => links_of_mask (postAll_mask (by decide) _ _ _)) f s
end

section
variable (s : State)

theorem lkCount_links (n i w k : Nat) : (lkCount n i w k s).links = s.links := by
  have hcount (c : LkCounters) : (s.modPort n (fun q => { q with cnt := c })).links = s.links := links_modPort s n rfl
  unfold lkCount
  exact view_ite State.links ((links_of_mask (satOwned_mask (by decide) _ _ _)).trans (hcount _)) (hcount _)

theorem countFrameBytes_links (n dir k : Nat) : (countFrameBytes n dir k s).links = s.links := by
  unfold countFrameBytes
  exact view_ite State.links (links_modPort s n rfl) ((lkCount_links _ _ _ _ _).trans (links_modPort s n rfl))

theorem pump_links (n k : Nat) : (pump n k s).links = s.links := by
  induction k generalizing s with
  | zero => rfl
  | succ k ih =>
    unfold pump
    dsimp only
    split
    · rfl
    · exact view_ite State.links ((ih _).trans ((countFrameBytes_links _ _ _ _).trans (links_setPort s n rfl))) rfl

theorem queueFrame_links (n toward : Nat) (f : Frame) : (queueFrame n toward f s).links = s.links := by
  unfold queueFrame
  exact (pump_links _ _ _).trans (links_modPort s n rfl)

theorem reportRoute_links (p code node : Nat) : (reportRoute p code node s).links = s.links :=
  links_of_mask (reportRoute_mask (by decide) _ _ _ _)

theorem sendToward_links (p node : Nat) (f : Frame) : (sendToward p node f s).links = s.links := by
  unfold sendToward
  refine view_ite State.links (reportRoute_links _ _ _ _) ?_
  split
  · exact (queueFrame_links _ _ _ _).trans rfl
  · exact (reportRoute_links _ _ _ _).trans rfl

/-- Frames sent, or sent again, leave every link (R420, R423). -/
theorem sendAll_links (p : Nat) (l : List (Nat × Frame)) : (l.foldl (fun t x => sendToward p x.1 x.2 t) s).links = s.links := by
  refine view_foldl State.links (fun t x => ?_) l s
  exact sendToward_links t p x.1 x.2

theorem retryFrames_links (p : Nat) : (retryFrames p s).links = s.links := by
  unfold retryFrames
  exact (sendAll_links _ p _).trans (links_of_ports rfl)

theorem portFlow_links (n : Nat) : (portFlow n s).links = s.links := by
  unfold portFlow
  dsimp only
  split
  · exact (retryFrames_links _ _).trans (pump_links _ _ _)
  · exact pump_links _ _ _

theorem resend_links (n got : Nat) : (resend n got s).links = s.links := by
  unfold resend
  dsimp only
  split
  · exact links_setPort s n rfl
  · exact (sendAll_links _ _ _).trans (links_setPort s n rfl)

theorem resend_uncounted (n got : Nat) : (resend n got s).uncounted = s.uncounted := by
  unfold resend
  dsimp only
  split
  · rfl
  · exact (view_foldl State.uncounted (fun t x => sendToward_uncounted t _ _ _) _ _).trans rfl

/-! ### Ports come UP or FAIL (R417, R419) -/

theorem portUp_links (n : Nat) (lanes : BitVec 8) : (portUp n lanes s).links = (s.modPort n (fun q => q.raised lanes)).links :=
  (portFlow_links _ n).trans (withHealth_links _ s)

theorem portUp_link (n : Nat) (lanes : BitVec 8) : ((portUp n lanes s).port n).link = (.up, lanes, laneCount lanes) := by
  rw [link_of_links (portUp_links s n lanes), State.port_modPort_same]
  rfl

theorem portFailed_links (n : Nat) : (portFailed n s).links = (s.modPort n Port.lost).links := by
  refine (links_of_mask (tellFailed_mask (by decide) n _)).trans ((withHealth_links _ s).trans ?_)
  exact links_of_ports rfl

theorem portFailed_state (n : Nat) : ((portFailed n s).port n).state = .failed := by
  have hlost := link_of_links (portFailed_links s n) n
  rw [State.port_modPort_same] at hlost
  exact (state_of_link hlost).1

theorem tellFailed_health (n : Nat) : (tellFailed n s).health = s.health :=
  same_of_mask (w := 0x700000#38) (tellFailed_mask (by decide) n s) .health (by decide)

theorem withHealth_health (f : State → State) : (withHealth f s).health = (f s).health :=
  withHealth_view (F := State.health) (fun _ _ _ => same_of_mask (w := 0x700000#38) (postAll_mask (by decide) _ _ _) .health (by decide)) f s

/-- A cause set in the health word is set. -/
theorem replaceCause_bit (cause : BitVec 5) : (BitVec.ofNat 5 (setBit cause.toNat 2 true)).getLsbD 2 = true := by
  revert cause
  decide

/-- The failed port is a cause for replacement (R561). -/
theorem portFailed_cause (n : Nat) : (portFailed n s).health.replaceCause.getLsbD 2 = true := by
  rw [portFailed, tellFailed_health, withHealth_health]
  exact replaceCause_bit _
end

/-! ### The end of an item (R76) -/

section
variable (it : Intrusive) (bad : Bool) (code : Nat) (s : State)

theorem finishItem_link (n : Nat) : ((finishItem it bad code s).port n).link = (s.port n).link :=
  link_of_links (links_of_mask (finishItem_mask (by decide) it bad code s)) n

theorem finishItem_health : (finishItem it bad code s).health = s.health :=
  same_of_mask (w := 0x300010#38) (finishItem_mask (by decide) it bad code s) .health (by decide)
end

section
variable (s : State) (n : Nat) (it : Intrusive)

/-- An item that ends with its port UP on a mask of lanes. -/
theorem finishUp_port (lanes : BitVec 8) :
    let q := (finishItem it false 2 (portUp n lanes s)).port n
    q.state = .up ∧ q.lanes = lanes ∧ q.width = laneCount lanes :=
  state_of_link ((finishItem_link it false 2 _ n).trans (portUp_link s n lanes))

/-- An item that ends with its port FAILED. -/
theorem finishFailed_state : ((finishItem it true 6 (portFailed n s)).port n).state = .failed :=
  (state_of_link (finishItem_link it true 6 (portFailed n s) n)).1.trans (portFailed_state s n)
end

section
variable {s : State} {n : Nat}

theorem execPortRetrainDone_ends (hst : (s.port n).state = .retraining) (hrun : s.itemRuns (.port n) = true) :
    execPortRetrainDone n true s = .next (finishItem (.port n) false 2 (portUp n (if (s.port n).lanes = 0 then 0xFF else (s.port n).lanes) s))
    ∧ execPortRetrainDone n false s = .next (finishItem (.port n) true 6 (portFailed n s)) := by
  simp [execPortRetrainDone, hst, hrun]

theorem execLaneRemapDone_ends (hst : (s.port n).state = .retraining) (hrun : s.itemRuns (.laneRemap n) = true) :
    (∀ hi, execLaneRemapDone n true hi s = .next (finishItem (.laneRemap n) false 2 (portUp n 0x0F s)))
    ∧ execLaneRemapDone n false true s = .next (finishItem (.laneRemap n) false 2 (portUp n 0xF0 s))
    ∧ execLaneRemapDone n false false s = .next (finishItem (.laneRemap n) true 6 (portFailed n s)) := by
  simp [execLaneRemapDone, hst, hrun]
end

/-! ### Write-Combining Buffers (R353) -/

/-- The state of a channel and its Write-Combining Buffer. -/
def Channel.buffer (c : Channel) : ChState × List WcbEntry := (c.state, c.wcb)

/-- Every channel's state and buffer. -/
def State.buffers (s : State) : Nat → ChState × List WcbEntry := fun k => (s.channel k).buffer

section
variable {s t u : State}

theorem buffers_of_channels (h : t.channels = s.channels) : t.buffers = s.buffers := by
  unfold State.buffers State.channel
  rw [h]

theorem buffers_of_mask (h : t.mask 0x3fffffdfff#38 = s.mask 0x3fffffdfff#38) : t.buffers = s.buffers :=
  buffers_of_channels (same_of_mask h .channels (by decide))

theorem buffers_setChannel (s : State) (k : Nat) {v : Channel} (h : v.buffer = (s.channel k).buffer) :
    (s.setChannel k v).buffers = s.buffers := by
  funext j
  by_cases e : j = k
  · subst e; rw [State.buffers, State.channel_setChannel_same, h, State.buffers]
  · rw [State.buffers, State.channel_setChannel_other _ _ _ e, State.buffers]

theorem withHealth_buffers (f : State → State) (s : State) : (withHealth f s).buffers = (f s).buffers :=
  withHealth_view (F := State.buffers) (fun _ _ _ => buffers_of_mask (postAll_mask (by decide) _ _ _)) f s
end

section
variable (s : State) (ch : Nat)

theorem mcCount_buffers (n k : Nat) : (mcCount ch n k s).buffers = s.buffers := by
  have hcount (c : McCounters) : (s.modChannel ch (fun h => { h with cnt := c })).buffers = s.buffers := buffers_setChannel s ch rfl
  unfold mcCount
  exact view_ite State.buffers ((buffers_of_mask (satAll_mask (by decide) _ _)).trans (hcount _)) (hcount _)

theorem softRepair_buffers (ca : Nat) : (softRepair ch ca s).buffers = s.buffers := by
  unfold softRepair
  refine view_ite State.buffers (buffers_setChannel s ch rfl) (view_ite State.buffers rfl ?_)
  exact (buffers_of_channels (withHealth_replaceCause_channels 3)).trans
    ((buffers_of_channels (postEach_channels _ _ _)).trans (buffers_setChannel s ch rfl))

theorem corrected_buffers (ca : Nat) : (corrected ch ca s).buffers = s.buffers := by
  have hcount := (mcCount_buffers (s.modChannel ch (fun c => { c with corrRows := kmod 0 c.corrRows (Config.rowOf ca) (· + 1) })) ch 0 1).trans
    (buffers_setChannel s ch rfl)
  unfold corrected
  exact view_ite State.buffers ((softRepair_buffers _ _ _).trans hcount) hcount

theorem uncorrectableAt_buffers (served : Bool) (ca fig : Nat) (ps : List Nat) :
    (uncorrectableAt served ch ca fig ps s).buffers = s.buffers := by
  have hdraw : (if (s.paOf ch ca).isNone then s.draw else s).buffers = s.buffers := by split <;> rfl
  have hcount := (mcCount_buffers _ ch 1 1).trans hdraw
  have hreport (u : State) (f : Channel → Channel) (h : (f (u.channel ch)).buffer = (u.channel ch).buffer) (payload : Nat) :
      (postEach ps 0x50 payload (u.modChannel ch f)).buffers = u.buffers :=
    (buffers_of_channels (postEach_channels _ _ _)).trans (buffers_setChannel u ch h)
  unfold uncorrectableAt
  dsimp only
  exact view_ite State.buffers ((softRepair_buffers _ _ _).trans ((hreport _ _ rfl _).trans hcount)) ((hreport _ _ rfl _).trans hcount)

theorem chargeSlots_buffers (p n : Nat) : (chargeSlots ch p n s).buffers = s.buffers := buffers_setChannel s ch rfl

theorem acctAdd_buffers (p n k : Nat) : (acctAdd p n k s).buffers = s.buffers := buffers_of_mask (acctAdd_mask (by decide) _ _ _ _)

theorem mergeLine_buffer (c : Channel) (e : WcbEntry) : (mergeLine c e).buffer = c.buffer := by
  unfold mergeLine
  generalize List.range 64 = l
  induction l generalizing c with
  | nil => rfl
  | cons i l ih =>
    rw [List.foldl_cons, ih]
    split <;> rfl

/-- The entries of a buffer that are of none of these lines. -/
def WcbEntry.without (ls : List Nat) (wcb : List WcbEntry) : List WcbEntry := wcb.filter (fun x => decide (x.line ∉ ls))

theorem WcbEntry.without_line (e : WcbEntry) (wcb : List WcbEntry) :
    wcb.filter (fun x => !decide (x.line = e.line)) = WcbEntry.without [e.line] wcb := by
  simp [WcbEntry.without]

theorem WcbEntry.without_cons (i : Nat) (ls : List Nat) (wcb : List WcbEntry) :
    WcbEntry.without ls (WcbEntry.without [i] wcb) = WcbEntry.without (i :: ls) wcb := by
  simp [WcbEntry.without, List.filter_filter, Bool.and_comm]

theorem WcbEntry.without_own (wcb : List WcbEntry) : WcbEntry.without (wcb.map (·.line)) wcb = [] := by
  simp only [WcbEntry.without, List.filter_eq_nil_iff, decide_eq_true_eq, not_not]
  exact fun x hx => List.mem_map_of_mem hx

/-- An eviction takes the entry's line out of the buffer, and nothing else. -/
theorem evictEntry_buffers (e : WcbEntry) (ecc : Ecc) :
    (evictEntry ch e ecc s).buffers = (s.setChannel ch { s.channel ch with
      wcb := WcbEntry.without [e.line] (s.channel ch).wcb }).buffers := by
  rw [← WcbEntry.without_line]
  have hset (v : Channel) (h : v.buffer = ((s.channel ch).state, (s.channel ch).wcb.filter (fun x => !decide (x.line = e.line)))) :
      (s.setChannel ch v).buffers = (s.setChannel ch { s.channel ch with
        wcb := (s.channel ch).wcb.filter (fun x => !decide (x.line = e.line)) }).buffers := by
    funext k
    by_cases hk : k = ch
    · subst hk; rw [State.buffers, State.buffers, State.channel_setChannel_same, State.channel_setChannel_same, h]; rfl
    · rw [State.buffers, State.buffers, State.channel_setChannel_other _ _ _ hk, State.channel_setChannel_other _ _ _ hk]
  have hbytes (u : State) (n : Nat) : (if e.counted then acctAdd e.part 2 n u else u).buffers = u.buffers :=
    view_ite State.buffers (acctAdd_buffers _ _ _ _) rfl
  have hrmw (u : State) := (hbytes (mcCount ch 2 1 (chargeSlots ch e.part 2 u)) 128).trans
    ((mcCount_buffers _ ch 2 1).trans (chargeSlots_buffers u ch e.part 2))
  unfold evictEntry
  dsimp only
  split
  · rfl
  split
  · refine ((hbytes _ _).trans (chargeSlots_buffers _ _ _ _)).trans (hset _ ?_)
    rw [mergeLine_buffer]
    rfl
  · have hmerge := (hrmw _).trans (hset (mergeLine { s.channel ch with
      wcb := (s.channel ch).wcb.filter (fun x => !decide (x.line = e.line)) } e) (by rw [mergeLine_buffer]; rfl))
    split
    · exact (uncorrectableAt_buffers _ _ _ _ _ _).trans hmerge
    split
    · exact (corrected_buffers _ _ _).trans hmerge
    · exact hmerge

theorem evictForced_buffer (e : WcbEntry) :
    ((evictForced ch e s).channel ch).buffer = ((s.channel ch).state, WcbEntry.without [e.line] (s.channel ch).wcb) := by
  have hevict (u : State) (ecc : Ecc) :
      ((evictEntry ch e ecc u).channel ch).buffer = ((u.channel ch).state, WcbEntry.without [e.line] (u.channel ch).wcb) := by
    refine (congrFun (evictEntry_buffers u ch e ecc) ch).trans ?_
    rw [State.buffers, State.channel_setChannel_same]
    rfl
  unfold evictForced
  split
  · exact hevict s _
  · exact hevict s.draw _

theorem evictAll_buffer (l : List WcbEntry) : ((l.foldl (fun t e => evictForced ch e t) s).channel ch).buffer
    = ((s.channel ch).state, WcbEntry.without (l.map (·.line)) (s.channel ch).wcb) := by
  induction l generalizing s with
  | nil => simp [WcbEntry.without, Channel.buffer]
  | cons e l ih =>
    obtain ⟨hstate, hwcb⟩ := Prod.mk.inj (evictForced_buffer s ch e)
    rw [List.foldl_cons, ih, hstate, hwcb, WcbEntry.without_cons, List.map_cons]

/-- The whole buffer written out is empty, its channel in the state it was in (R353). -/
theorem flushAll_buffer : ((flushChannel ch (fun _ => true) s).channel ch).buffer = ((s.channel ch).state, []) := by
  rw [flushChannel, List.filter_true, evictAll_buffer, WcbEntry.without_own]

theorem flushChannel_uncounted (f : WcbEntry → Bool) : (flushChannel ch f s).uncounted = s.uncounted :=
  view_foldl State.uncounted (fun t e => evictForced_uncounted t ch e) _ s
end

/-! ### The start of an item (R72, R363, R417) -/

/-- The block with the first item of partition `p`'s queue running. -/
def itemStarted (p : Nat) (x : QueuedItem) (rest : List QueuedItem) (s : State) : State :=
  s.setPart p { s.part p with items := { x with running := true } :: rest }

/-- A channel that begins to retrain. -/
def Channel.retrained (c : Channel) : Channel := { c with keep := decide (c.state ≠ .down), state := .retraining, retrainQueued := false }

/-- A port that begins to retrain. -/
def Port.retrained (q : Port) : Port := { q with state := .retraining, relocking := false, retrainQueued := false }

section
variable {s : State}

theorem execIntermissionItemStart_begins {p : Nat} {x : QueuedItem} {rest : List QueuedItem} (hfw : s.fwRunning = true)
    (hawake : s.asleep = false) (hitems : (s.part p).items = x :: rest) (hidle : ∀ y ∈ x :: rest, y.running = false)
    (hready : s.itemReady x.item = true) :
    execIntermissionItemStart p s = .next (beginItem x.item (itemStarted p x rest s)) := by
  obtain ⟨hx, hrest⟩ := List.forall_mem_cons.1 hidle
  have hnone : rest.any (·.running) = false := by simpa using hrest
  unfold execIntermissionItemStart
  simp only [hitems]
  rw [if_neg (by simp [hfw, hawake, hx, hnone, hready])]
  rfl

theorem itemStarted_items (p : Nat) (x : QueuedItem) (rest : List QueuedItem) :
    ((itemStarted p x rest s).part p).items = { x with running := true } :: rest := by
  rw [itemStarted, State.part_setPart_same]

theorem beginItem_channel {ch : Nat} (h : (s.channel ch).state ≠ .failed) :
    beginItem (.channel ch) s = withHealth (fun t => t.modChannel ch Channel.retrained) (flushChannel ch (fun _ => true) s) := by
  rw [beginItem, if_neg h]
  rfl

theorem beginItem_channel_uncounted {ch : Nat} (h : (s.channel ch).state ≠ .failed) :
    (beginItem (.channel ch) s).uncounted = s.uncounted := by
  rw [beginItem_channel h, withHealth_uncounted]
  exact (uncounted_of_parts rfl).trans (flushChannel_uncounted s ch _)

theorem withHealth_channel (f : State → State) (u : State) (k : Nat) : (withHealth f u).channel k = (f u).channel k :=
  withHealth_view (F := fun t => t.channel k)
    (fun _ _ _ => channel_of_channels (same_of_mask (w := 0x700000#38) (postAll_mask (by decide) _ _ _) .channels (by decide)) k) f u

/-- The channel of a started item retrains with its buffer written out; it keeps its lines unless it was DOWN (R363). -/
theorem beginItem_channel_retrains {ch : Nat} (h : (s.channel ch).state ≠ .failed) :
    let c := (beginItem (.channel ch) s).channel ch
    c.state = .retraining ∧ c.keep = decide ((s.channel ch).state ≠ .down) ∧ c.wcb = [] := by
  obtain ⟨hstate, hwcb⟩ := Prod.mk.inj (flushAll_buffer s ch)
  rw [beginItem_channel h, withHealth_channel, State.channel_modChannel_same]
  refine ⟨rfl, ?_, hwcb⟩
  rw [← hstate]
  rfl

/-- The item of a port, its retraining or its lane remap. -/
theorem beginItem_port {n : Nat} {it : Intrusive} (hit : it = .port n ∨ it = .laneRemap n) (h : (s.port n).state ≠ .failed) :
    beginItem it s = resend n 0 (withHealth (fun t => t.modPort n Port.retrained) s) := by
  have hstart : startPortItem n it s = resend n 0 (withHealth (fun t => t.modPort n Port.retrained) s) := by
    rw [startPortItem, if_neg h]
    rfl
  rcases hit with rfl | rfl
  · exact hstart
  · exact hstart

theorem beginItem_port_uncounted {n : Nat} {it : Intrusive} (hit : it = .port n ∨ it = .laneRemap n) (h : (s.port n).state ≠ .failed) :
    (beginItem it s).uncounted = s.uncounted := by
  rw [beginItem_port hit h, resend_uncounted, withHealth_uncounted]
  exact uncounted_of_parts rfl

theorem beginItem_port_retrains {n : Nat} {it : Intrusive} (hit : it = .port n ∨ it = .laneRemap n) (h : (s.port n).state ≠ .failed) :
    ((beginItem it s).port n).state = .retraining := by
  have hlink := link_of_links ((resend_links (withHealth (fun t => t.modPort n Port.retrained) s) n 0).trans (withHealth_links _ s)) n
  rw [← beginItem_port hit h, State.port_modPort_same] at hlink
  exact (state_of_link hlink).1
end

/-! ### The obligation -/

/-- An item that starts takes its resource, and runs. -/
theorem intermissionItem_starts (s : State) (p : Nat) (x : QueuedItem) (rest : List QueuedItem) (hfw : s.fwRunning = true)
    (hawake : s.asleep = false) (hitems : (s.part p).items = x :: rest) (hidle : ∀ y ∈ x :: rest, y.running = false)
    (hready : s.itemReady x.item = true) :
    completes (.intermissionItemStart p) s (fun t =>
      (∀ ch, x.item = .channel ch → (s.channel ch).state ≠ .failed →
        (t.channel ch).state = .retraining ∧ (t.channel ch).keep = decide ((s.channel ch).state ≠ .down)
        ∧ (t.part p).items = { x with running := true } :: rest ∧ (t.channel ch).wcb = [])
      ∧ (∀ n, x.item = .port n ∨ x.item = .laneRemap n → (s.port n).state ≠ .failed →
          (t.port n).state = .retraining ∧ (t.part p).items = { x with running := true } :: rest)
      ∧ (∀ k, x.item = .staging k → (t.part p).items = { x with running := true } :: rest)) := by
  have hrun (u : State) (h : u.uncounted = (itemStarted p x rest s).uncounted) : (u.part p).items = { x with running := true } :: rest :=
    (items_of_uncounted h p).trans (itemStarted_items p x rest)
  refine ⟨_, execIntermissionItemStart_begins hfw hawake hitems hidle hready, fun ch hit hst => ?_, fun n hit hst => ?_, fun k hit => ?_⟩
  · have hretrains := beginItem_channel_retrains (s := itemStarted p x rest s) hst
    have hparts := beginItem_channel_uncounted (s := itemStarted p x rest s) hst
    rw [← hit] at hretrains hparts
    obtain ⟨hstate, hkeep, hwcb⟩ := hretrains
    exact ⟨hstate, hkeep, hrun _ hparts, hwcb⟩
  · exact ⟨beginItem_port_retrains hit hst, hrun _ (beginItem_port_uncounted hit hst)⟩
  · exact hrun _ (by rw [hit, beginItem])

/-- Settles O42: items start by kind, and end with their ports UP on their lanes, or FAILED. -/
theorem intermissionItems : Obligations.IntermissionItems := by
  unfold Obligations.IntermissionItems
  refine ⟨intermissionItem_starts, fun s n hst => ⟨fun hrun => ?_, fun hrun => ?_⟩⟩
  · obtain ⟨hdone, hfail⟩ := execPortRetrainDone_ends hst hrun
    obtain ⟨hup, hlanes, -⟩ := finishUp_port s n (.port n) (if (s.port n).lanes = 0 then 0xFF else (s.port n).lanes)
    refine ⟨⟨_, hdone, hup, itemRuns_finishItem _ _ _ _, hlanes⟩, _, hfail, finishFailed_state s n _, itemRuns_finishItem _ _ _ _, ?_⟩
    rw [finishItem_health]
    exact portFailed_cause s n
  · obtain ⟨hlow, hhigh, hfail⟩ := execLaneRemapDone_ends hst hrun
    have hup := fun lanes => finishUp_port s n (.laneRemap n) lanes
    exact ⟨fun hi => ⟨_, hlow hi, hup 0x0F⟩, ⟨_, hhigh, hup 0xF0⟩, _, hfail, finishFailed_state s n _, itemRuns_finishItem _ _ _ _⟩

end Sys2Proof.Machine
end

section
/-! PROOF. The two conversions between the E4M3 conventions (R106), over what every operation of the Vector Unit does to its core: what
reading rows, raising flags and writing runs of bytes leave of it (R115, R323, R324, R331). -/

namespace Sys2Proof.Machine

/-! ### What an operation leaves of a core -/

/-- The other cores are the same, and of core `c` the rows that are on and what `F` reads of it. -/
def coreSame {α : Type} (F : Core → α) (c : Nat) (s t : State) : Prop := rowsKept c s t ∧ F (t.core c) = F (s.core c)

/-- The Accumulator Memory of a core. -/
def Core.banks (k : Core) : Bank × Bank := (k.bank0, k.bank1)

/-- The Scratchpad bytes and the Accumulator Memory of a core. -/
def Core.stored (k : Core) : KMap Byte × Bank × Bank := (k.spm, k.banks)

section
variable {α β : Type} {F : Core → α} {s t u : State} {c : Nat}

theorem coreSame.refl : coreSame F c s s := ⟨rowsKept.refl, rfl⟩

theorem coreSame.trans (h : coreSame F c s t) (g : coreSame F c t u) : coreSame F c s u := ⟨h.1.trans g.1, g.2.trans h.2⟩

theorem coreSame.others (h : coreSame F c s t) : othersSame c s t := h.1.1

theorem coreSame.banks (h : coreSame Core.stored c s t) : coreSame Core.banks c s t := ⟨h.1, congrArg Prod.snd h.2⟩

theorem coreSame.spm (h : coreSame Core.stored c s t) : (t.core c).spm = (s.core c).spm := congrArg Prod.fst h.2

theorem coreSame_foldl {f : State → β → State} (h : ∀ t x, coreSame F c t (f t x)) (l : List β) (s : State) :
    coreSame F c s (l.foldl f s) := by
  induction l generalizing s with
  | nil => exact .refl
  | cons x l ih => exact (h s x).trans (ih _)

theorem coreSame_ite {b : Prop} [Decidable b] (ht : coreSame F c s t) (hu : coreSame F c s u) : coreSame F c s (if b then t else u) := by
  split <;> assumption

theorem coreSame_modCore (f : Core → Core) (hf : (f (s.core c)).fenced = (s.core c).fenced) (hF : F (f (s.core c)) = F (s.core c)) :
    coreSame F c s (s.modCore c f) := ⟨rowsKept_modCore f hf, by rw [State.core_modCore_same, hF]⟩

/-- A change that touches no core leaves what any view reads of it. -/
theorem coreSame_of_cores (h : rowsKept c s t) (hc : t.cores = s.cores) : coreSame F c s t :=
  ⟨h, congrArg (fun m => F (kget Core.reset m c)) hc⟩

theorem coreSame_modPart (p : Nat) (f : Part → Part) (h : (f (s.part p)).quarterOn = (s.part p).quarterOn) :
    coreSame F c s (s.modPart p f) := by
  refine coreSame_of_cores ⟨fun _ _ => rfl, rowOn_congr rfl rfl rfl fun q => ?_⟩ rfl
  by_cases e : q = p
  · subst e; rw [State.part_modPart_same, h]
  · rw [State.part_modPart_other _ _ _ e]

theorem coreSame_postEvent (p code payload : Nat) : coreSame F c s (postEvent p code payload s) :=
  have h := postEvent_mask (w := 0x700000#38) (by decide) p code payload s
  coreSame_of_cores (rowsKept_of_mask h) (same_of_mask h .cores (by decide))

theorem coreSame_askAbort (p fig : Nat) (cause : AbortCause) : coreSame F c s (askAbort p fig cause s) :=
  coreSame_of_cores (rowsKept_modActive _ _ _) rfl

theorem coreSame_satOwned (p : Option Nat) (off : Nat) : coreSame F c s (satOwned p off s) := by
  cases p with
  | none => exact .refl
  | some p => exact (coreSame_modPart p _ rfl).trans (coreSame_postEvent _ _ _)

theorem coreSame_spoilRegions (row : Nat) : coreSame F c s (spoilRegions c row s) := by
  unfold spoilRegions
  split
  · exact .refl
  · exact coreSame_modPart _ _ rfl

theorem Core.setSlot_stored (k : Core) (i : Nat) (v : Slot) : (k.setSlot i v).stored = k.stored := by
  unfold Core.setSlot
  split <;> rfl

theorem coreSame_raise (i : Nat) (fl : Flags) : coreSame Core.stored c s (raise c i fl s) := by
  refine coreSame_modCore _ ?_ ?_ <;> dsimp only <;> split
  · rfl
  · split <;> exact (Core.setSlot_spm _ _ _).2
  · rfl
  · split <;> exact Core.setSlot_stored _ _ _

theorem coreSame_countPerr : coreSame Core.stored c s (countPerr c s) := by
  have hcount (n : SpmCounters) (b : Nat) : coreSame Core.stored c s (s.modCore c (fun k => { k with cnt := n, perrBar := k.perrBar + b })) :=
    coreSame_modCore _ rfl rfl
  exact coreSame_ite ((hcount _ _).trans (coreSame_satOwned _ _)) (hcount _ _)

theorem coreSame_parityDetect (p fig row : Nat) (bank : Option Nat) : coreSame Core.stored c s (parityDetect p fig c row bank s) := by
  have hreport : coreSame Core.stored c s (postEvent p 0x40 (payloadOf fig c (parityRest row bank)) (countPerr c s)) :=
    coreSame_countPerr.trans (coreSame_postEvent _ _ _)
  have hpoison (u : State) : coreSame Core.stored c u (u.modCore c (fun k => { k with poisoned := true })) := coreSame_modCore _ rfl rfl
  have hspoilt := coreSame_ite (b := bank.isNone = true) (hreport.trans (coreSame_spoilRegions row)) hreport
  exact ((hspoilt.trans (hpoison _)).trans (coreSame_askAbort _ _ _)).trans (coreSame_of_cores (rowsKept_modActive _ _ _) rfl)

/-- Touching rows, whether they fail or are off, changes no stored byte (R323, R324, R331). -/
theorem coreSame_touchRows (p fig i : Nat) (rd wr : List Nat) : coreSame Core.stored c s (touchRows p fig c i rd wr s) := by
  have hstaged : coreSame Core.stored c s (s.modCore c (fun k => { k with staged := k.staged.filter (fun r => !rd.contains r) })) :=
    coreSame_modCore _ rfl rfl
  have hread := hstaged.trans
    (coreSame_foldl (fun t r => coreSame_parityDetect (s := t) p fig r none) (s.failing c (rd.filter (s.rowOn c))) _)
  exact coreSame_ite hread (((hread.trans (coreSame_raise i flInv)).trans (coreSame_postEvent _ _ _)).trans (coreSame_askAbort _ _ _))

theorem coreSame_spmWrite (a : Nat) (bs : List Byte) : coreSame Core.banks c s (spmWrite c a bs s) := coreSame_modCore _ rfl rfl
end

/-! ### A run of bytes written (R115, R331) -/

/-- Bytes `bs` lie in core `c`'s Scratchpad from address `a`; its other bytes, its Accumulator Memory and every other core stay. -/
structure Wrote (c a : Nat) (bs : List Byte) (s t : State) : Prop where
  holds : t.spmHolds c a bs
  kept : spmKept c a bs.length s t
  same : coreSame Core.banks c s t

section
variable {s : State} {c i p fig : Nat}

/-- A write between two steps that leave what is stored. -/
theorem Wrote.of_spmWrite {a : Nat} {bs : List Byte} {u t : State} (hu : coreSame Core.stored c s u)
    (ht : coreSame Core.stored c (spmWrite c a bs u) t) : Wrote c a bs s t where
  holds k v hk ho := by
    rw [State.spmByte, if_pos ho, ht.spm]
    exact kget_spmWrite_in c a bs u hk ((((rowsKept_spmWrite a bs).trans ht.1).2 _).symm.trans ho)
  kept b hb := by rw [ht.spm, kget_spmWrite_out c a bs u hb, hu.spm]
  same := (hu.banks.trans (coreSame_spmWrite a bs)).trans ht.banks

/-- An operation that writes one run of bytes writes it. -/
theorem vuApply_wrote (h : s.issuing c i = some (p, fig)) (rd : List Nat) (a : Nat) (bs : List Byte) (fl : Flags) :
    ∃ t, vuApply c i rd [(a, bs)] fl s = .next t ∧ Wrote c a bs s t := by
  simp only [vuApply, h]
  exact ⟨_, rfl, .of_spmWrite (coreSame_touchRows _ _ _ _ _) (coreSame_raise _ _)⟩

/-! ### The two E4M3 conventions (R106) -/

theorem e4m3_fields {sg m : Nat} (hs : sg < 2) (hm : m < 8) :
    fld (sg * 128 + 120 + m) 3 4 = 15 ∧ fld (sg * 128 + 120 + m) 0 3 = m ∧ fld (sg * 128 + 120 + m) 7 1 = sg := by
  simp only [fld]
  omega

theorem fromE4m3x_top {sg m : Nat} (hs : sg < 2) (hm : m < 7) (sat : Bool) :
    fromE4m3x sat (sg * 128 + 120 + m) = (sg * 128 + (if sat then 0x77 else 0x78), flOvfInx) := by
  obtain ⟨hexp, hman, hsign⟩ := e4m3_fields hs (Nat.lt_succ_of_lt hm)
  rw [fromE4m3x, hexp, hman, hsign, if_neg (by decide), if_neg (by omega)]

theorem fromE4m3x_nan {sg : Nat} (hs : sg < 2) (sat : Bool) : fromE4m3x sat (sg * 128 + 127) = (0x7F, Flags.none) := by
  obtain ⟨hexp, hman, -⟩ := e4m3_fields hs (m := 7) (by decide)
  rw [fromE4m3x, hexp, hman, if_neg (by decide), if_pos rfl]

theorem toE4m3x_inf {sg : Nat} (hs : sg < 2) (sat : Bool) :
    toE4m3x sat (sg * 128 + 120) = if sat then (sg * 128 + 0x7E, flOvf) else (0x7F, flInv) := by
  obtain ⟨hexp, hman, hsign⟩ := e4m3_fields hs (m := 0) (by decide)
  rw [Nat.add_zero] at hexp hman hsign
  rw [toE4m3x, hexp, hman, hsign, if_neg (by decide), if_neg (by decide)]

theorem toE4m3x_nan {sg m : Nat} (hs : sg < 2) (h0 : 0 < m) (hm : m < 8) (sat : Bool) :
    toE4m3x sat (sg * 128 + 120 + m) = (0x7F, Flags.none) := by
  obtain ⟨hexp, hman, -⟩ := e4m3_fields hs hm
  rw [toE4m3x, hexp, hman, if_neg (by decide), if_pos (by omega)]

theorem mapCodes_wrote (h : s.issuing c i = some (p, fig)) (f : Nat → Nat × Flags) (count src dst : Nat) :
    ∃ t, mapCodes f c i count src dst s = .next t
      ∧ t.spmHolds c (512 * dst) ((s.spmBytes c (512 * src) count).map (fun b => BitVec.ofNat 8 (f b.toNat).1))
      ∧ spmKept c (512 * dst) count s t ∧ othersSame c s t := by
  obtain ⟨t, ht, hw⟩ := vuApply_wrote h (rowsOf (512 * src) count) (512 * dst)
    (((s.spmBytes c (512 * src) count).map (fun b => f b.toNat)).map (fun x => BitVec.ofNat 8 x.1))
    (Flags.all (((s.spmBytes c (512 * src) count).map (fun b => f b.toNat)).map (·.2)))
  refine ⟨t, ht, ?_, ?_, hw.same.others⟩
  · simpa only [List.map_map, Function.comp_def] using hw.holds
  · simpa [State.spmBytes] using hw.kept
end

/-- Settles O20: the codes by their exponent and significand fields, the operations by the one run of bytes they write. -/
theorem e4m3Conventions : Obligations.E4m3Conventions := by
  unfold Obligations.E4m3Conventions
  refine ⟨fun sat c _ hexp => ⟨if_pos hexp, if_pos hexp⟩, fun sat m sg hm hs => fromE4m3x_top hs hm sat,
    fun sat sg hs => fromE4m3x_nan hs sat, fun sg hs => ⟨toE4m3x_inf hs true, toE4m3x_inf hs false⟩,
    fun sat m sg h0 hm hs => toE4m3x_nan hs h0 hm sat, fun s c slot p fig sat count src dst h => ⟨?_, ?_⟩⟩
  · exact mapCodes_wrote h (fromE4m3x sat) count src dst
  · exact mapCodes_wrote h (toE4m3x sat) count src dst

end Sys2Proof.Machine
end

section
/-! PROOF. Operations of the Vector Unit (R101, R118 to R122, R172): elementwise arithmetic, the reset of the rows, scalar writes, and
the frame of every operation, which is that its core's Accumulator Memory and the other cores stay. -/

namespace Sys2Proof.Machine

/-! ### Operations that a tile program orders (R180, R292) -/

/-- An operation answers a next state in which core `c` has its Accumulator Memory and every other core stays. -/
def leavesBanks (c : Nat) (s : State) (r : Res) : Prop := ∃ t, r = .next t ∧ coreSame Core.banks c s t

section
variable {s : State} {c : Nat}

theorem leavesBanks_ite {b : Prop} [Decidable b] {x y : Res} (hx : leavesBanks c s x) (hy : leavesBanks c s y) :
    leavesBanks c s (if b then x else y) := by
  split <;> assumption

theorem leavesBanks.stay : leavesBanks c s (.next s) := ⟨s, rfl, .refl⟩

theorem leavesBanks.after {u : State} {r : Res} (hu : coreSame Core.banks c s u) (h : leavesBanks c u r) : leavesBanks c s r :=
  h.imp fun _ ht => ⟨ht.1, hu.trans ht.2⟩

theorem coreSame_primeItem : coreSame Core.stored c s (primeItem c s) := by
  unfold primeItem
  refine coreSame_ite .refl ?_
  split
  · exact .refl
  · split
    · exact .refl
    · split
      · exact .refl
      · exact coreSame_modCore _ rfl rfl

/-- Moving the tile program on changes the first slot of its core alone. -/
theorem coreSame_admission {i bank : Nat} {got : Step → Act} {rows : List Nat} {t : Step} {u : State}
    (h : s.admission c i bank got rows = .step t u) : coreSame Core.stored c s u := by
  unfold State.admission at h
  split at h
  · cases h
  · split at h
    · cases h
    · split at h
      · cases h
      · dsimp only at h
        split at h
        · cases h
        · split at h
          · split at h
            · cases h
              exact coreSame_primeItem.trans (coreSame_modCore _ rfl rfl)
            · cases h
          · cases h

theorem coreSame_runs {i bank : Nat} {got : Step → Act} {rows : List Nat} {st : Option Step} {u : State}
    (h : (s.admission c i bank got rows).runs s = some (st, u)) : coreSame Core.stored c s u := by
  cases e : s.admission c i bank got rows with
  | no => simp [e, Admit.runs] at h
  | free =>
    obtain ⟨-, rfl⟩ : none = st ∧ s = u := by simpa [e, Admit.runs] using h
    exact .refl
  | step t v =>
    obtain ⟨-, rfl⟩ : some t = st ∧ v = u := by simpa [e, Admit.runs] using h
    exact coreSame_admission e

theorem leavesBanks_ordered {i bank : Nat} {got : Step → Act} {rows : List Nat} {f : Option Step → State → Res}
    (hf : ∀ st u, leavesBanks c u (f st u)) : leavesBanks c s (ordered (s.admission c i bank got rows) f s) := by
  unfold ordered
  split
  · exact .stay
  · next e => exact .after (coreSame_runs e).banks (hf _ _)

theorem leavesBanks_orderedOrFree {i bank : Nat} {got : Step → Act} {rows : List Nat} {f : Option Step → State → Res}
    (hf : ∀ st u, leavesBanks c u (f st u)) : leavesBanks c s (orderedOrFree (s.admission c i bank got rows) f s) := by
  unfold orderedOrFree
  split
  · exact hf _ _
  · next e => exact .after (coreSame_runs e).banks (hf _ _)

/-! ### The banks through every VU operation -/

theorem leavesBanks_vuApply (i : Nat) (rd : List Nat) (ws : List (Nat × List Byte)) (fl : Flags) :
    leavesBanks c s (vuApply c i rd ws fl s) := by
  unfold vuApply
  split
  · exact .stay
  · have hwritten (u : State) := coreSame_foldl (fun t (w : Nat × List Byte) => coreSame_spmWrite (s := t) (c := c) w.1 w.2) ws u
    exact ⟨_, rfl, ((coreSame_touchRows _ _ _ _ _).banks.trans (hwritten _)).trans (coreSame_raise _ _).banks⟩

theorem coreSame_writeSplit (dst n : Nat) (slab : List (List Aligned)) : coreSame Core.banks c s (writeSplit c dst n slab s) := by
  refine coreSame_foldl (fun t x => ?_) _ s
  exact (coreSame_spmWrite _ _).trans (coreSame_modCore _ rfl rfl)

theorem coreSame_writeBoth (row : Nat) (wide : Bool) (f : FloatFmt) (v : Nat → Nat → Num) :
    coreSame Core.banks c s (writeBoth c row wide f v s) :=
  coreSame_ite ((coreSame_writeSplit _ _ _).trans (coreSame_writeSplit _ _ _)) ((coreSame_spmWrite _ _).trans (coreSame_spmWrite _ _))

theorem coreSame_skipShift (grew : Bool) : coreSame Core.banks c s (skipShift c grew s) := by
  refine coreSame_modCore _ ?_ ?_ <;> dsimp only <;> split
  · split
    · split <;> rfl
    · rfl
  · rfl
  · split
    · split <;> rfl
    · rfl
  · rfl

theorem coreSame_setRows (g : Core → KMap RowState) : coreSame Core.banks c s (s.modCore c (fun k => { k with rows := g k })) :=
  coreSame_modCore _ rfl rfl

theorem leavesBanks_arith (o : ArithOp) : leavesBanks o.core s (vuArith o s) := by
  unfold vuArith
  split
  · exact .stay
  · exact leavesBanks_ite .stay (leavesBanks_vuApply _ _ _ _)

theorem leavesBanks_convert (o : CvtOp) : leavesBanks o.core s (vuConvert o s) := by
  unfold vuConvert
  exact leavesBanks_ite .stay (leavesBanks_orderedOrFree fun _ _ => leavesBanks_vuApply _ _ _ _)

theorem leavesBanks_resetRows (strict : Bool) : leavesBanks c s (vuResetRows c strict s) := by
  unfold vuResetRows
  exact leavesBanks_ite .stay (leavesBanks_ordered fun _ _ => ⟨_, rfl, coreSame_modCore _ rfl rfl⟩)

theorem leavesBanks_softmax (o : SoftOp) : leavesBanks o.core s (vuSoftmax o s) := by
  unfold vuSoftmax
  split
  · exact .stay
  · refine leavesBanks_ordered fun _ u => ⟨_, rfl, ?_⟩
    refine .trans ?_ (coreSame_raise _ _).banks
    refine .trans ?_ (coreSame_setRows _)
    refine .trans ?_ (coreSame_skipShift _)
    refine .trans ?_ (coreSame_spmWrite _ _)
    exact (coreSame_touchRows _ _ _ _ _).banks.trans (coreSame_ite (coreSame_writeSplit _ _ _) (coreSame_spmWrite _ _))

theorem leavesBanks_finish (o : FinishOp) : leavesBanks o.core s (vuFinish o s) :=
  leavesBanks_ordered fun _ _ => leavesBanks_vuApply _ _ _ _

theorem leavesBanks_output (o : OutOp) : leavesBanks o.core s (vuOutput o s) :=
  leavesBanks_ordered fun _ _ => leavesBanks_vuApply _ _ _ _

theorem leavesBanks_records (i : Nat) (pair : PairOp) (row : Nat) : leavesBanks c s (vuRecords c i pair row s) :=
  leavesBanks_ordered fun _ _ => leavesBanks_vuApply _ _ _ _

theorem leavesBanks_mergeRun (o : MergeOp) : leavesBanks o.core s (mergeRun o s) := by
  obtain ⟨u, hu, hsame⟩ := leavesBanks_vuApply (s := s) (c := o.core) o.slot _ _ _
  rw [mergeRun]
  rw [hu]
  exact leavesBanks_ite ⟨_, rfl, hsame⟩ ⟨_, rfl, hsame.trans (coreSame_setRows _)⟩

theorem leavesBanks_merge (o : MergeOp) : leavesBanks o.core s (vuMerge o s) :=
  leavesBanks_ordered fun _ _ => leavesBanks_mergeRun o

theorem leavesBanks_rowTerm (o : BwdOp) (doFmt oFmt : Fmt) (doRow oRow cols : Nat) :
    leavesBanks o.core s (vuRowTerm o doFmt oFmt doRow oRow cols s) :=
  leavesBanks_ordered fun _ _ => leavesBanks_vuApply _ _ _ _

theorem leavesBanks_probs (o : BwdOp) : leavesBanks o.core s (vuProbs o s) := by
  unfold vuProbs
  split
  · exact .stay
  · exact leavesBanks_ordered fun _ _ =>
      ⟨_, rfl, ((coreSame_touchRows _ _ _ _ _).banks.trans (coreSame_writeBoth _ _ _ _)).trans (coreSame_raise _ _).banks⟩

theorem leavesBanks_ds (o : BwdOp) : leavesBanks o.core s (vuDs o s) := by
  unfold vuDs
  split
  · exact leavesBanks_ordered fun _ _ =>
      ⟨_, rfl, ((coreSame_touchRows _ _ _ _ _).banks.trans (coreSame_writeBoth _ _ _ _)).trans (coreSame_raise _ _).banks⟩
  · exact .stay
end

/-- The core whose vector unit runs an operation. -/
def vuCore (o : VuOp) : Nat :=
  match o with
  | .arith o => o.core
  | .convert o => o.core
  | .resetRows c _ => c
  | .softmax o => o.core
  | .finish o => o.core
  | .output o => o.core
  | .stateRecords c _ _ _ => c
  | .merge o => o.core
  | .rowTerm o _ _ _ _ _ => o.core
  | .probs o => o.core
  | .dsForm o => o.core
  | .scalarWrite c _ _ _ => c

theorem leavesBanks_vuOperation (o : VuOp) (s : State) : leavesBanks (vuCore o) s (execVuOperation o s) := by
  cases o with
  | arith o => exact leavesBanks_arith o
  | convert o => exact leavesBanks_convert o
  | resetRows c strict => exact leavesBanks_resetRows strict
  | softmax o => exact leavesBanks_softmax o
  | finish o => exact leavesBanks_finish o
  | output o => exact leavesBanks_output o
  | stateRecords c i pair row => exact leavesBanks_records i pair row
  | merge o => exact leavesBanks_merge o
  | rowTerm o doFmt oFmt doRow oRow cols => exact leavesBanks_rowTerm o doFmt oFmt doRow oRow cols
  | probs o => exact leavesBanks_probs o
  | dsForm o => exact leavesBanks_ds o
  | scalarWrite c i byte data => exact leavesBanks_vuApply _ _ _ _

/-! ### Resetting the rows (R172) -/

/-- The row states that a reset gives a core in the mode: those of the strict mode are not the default. -/
def resetRowStates (strict : Bool) : KMap RowState :=
  if strict then (List.range 128).map (fun i => (i, { RowState.reset with e := eP true })) else []

theorem kget_resetRowStates {i : Nat} (hi : i < 128) (strict : Bool) :
    kget RowState.reset (resetRowStates strict) i = ⟨none, 0, eP strict, false, false⟩ := by
  cases strict with
  | false => rfl
  | true =>
    rw [resetRowStates, if_pos rfl, List.range_eq_range', kget_range_map, if_pos (by omega)]
    rfl

theorem vuResetRows_runs {s : State} {c : Nat} {strict : Bool} (hf : (s.core c).fenced = false) (hh : (s.core c).halted = false)
    {st : Option Step} {u : State} (hr : (s.admission c 0 0 (fun _ => .resetRows strict) []).runs s = some (st, u)) :
    vuResetRows c strict s = .next (u.modCore c (fun k => { k with rows := resetRowStates strict })) := by
  rw [vuResetRows, if_neg (by simp [hf, hh])]
  simp only [ordered, hr]
  rfl

/-! ### The obligation -/

/-- Settles O22: one run of bytes written, the rows' states set, and for the frame a case for each operation. -/
theorem vuOperations : Obligations.VuOperations := by
  unfold Obligations.VuOperations
  refine ⟨fun s o f p fig hi hf hr => ?_, fun s c strict hf hh hruns => ?_, fun s c slot byte p fig bs hi => ?_, fun s o c hc => ?_⟩
  · have harith : exec (.vuOperation (.arith o)) s = vuArith o s := rfl
    rw [completes, harith, vuArith, hf]
    simp only [hr, Bool.not_true, Bool.false_eq_true, if_false, List.map_map, Function.comp_def]
    obtain ⟨t, ht, hw⟩ := vuApply_wrote hi _ _ _ _
    exact ⟨t, ht, hw.holds, hw.kept⟩
  · obtain ⟨⟨st, u⟩, hu⟩ := Option.isSome_iff_exists.1 hruns
    refine ⟨_, vuResetRows_runs hf hh hu, fun i hlt => ?_⟩
    rw [Core.row, State.core_modCore_same]
    exact kget_resetRowStates hlt strict
  · obtain ⟨t, ht, hw⟩ := vuApply_wrote hi (rowsOf byte bs.length) byte bs Flags.none
    exact ⟨t, ht, hw.holds, hw.kept⟩
  · replace hc : vuCore o = c := by rw [← hc]; cases o <;> rfl
    subst hc
    obtain ⟨t, ht, hsame⟩ := leavesBanks_vuOperation o s
    obtain ⟨h0, h1⟩ := Prod.mk.inj hsame.2
    exact ⟨t, ht, h0, h1, hsame.others⟩

end Sys2Proof.Machine
end

section
/-! PROOF. Committing, retiring, returning and releasing items (R116, R290, R292, R293): what each leaves of the claim counter, the core
and the Figure's record. -/

namespace Sys2Proof.Machine

/-! ### A Figure's record (R61, R116) -/

/-- The first entry that a predicate finds, after a change of the entries it holds for that keeps it. -/
theorem find?_map_ite {α : Type} (P : α → Prop) [DecidablePred P] {f : α → α} (hf : ∀ a, P (f a) ↔ P a) (l : List α) :
    (l.map (fun a => if P a then f a else a)).find? (fun a => decide (P a)) = (l.find? (fun a => decide (P a))).map f := by
  induction l with
  | nil => rfl
  | cons a l ih => by_cases h : P a <;> simp [h, hf, ih]

theorem active_modActive (s : State) (p id : Nat) {f : RunFig → RunFig} (hf : ∀ a, (f a).fig = a.fig) :
    ((modActive p id f s).part p).active id = ((s.part p).active id).map f := by
  rw [modActive, State.part_modPart_same]
  unfold Part.active
  cases h : (s.part p).run with
  | none => simp [h]
  | some r => exact find?_map_ite (fun a : RunFig => (s.part p).figId a.fig = id) (fun a => by rw [hf a]) r.active

/-! ### A core that commits (R116, R239, R292) -/

/-- The flags that the items in work raised, by slot. -/
def Core.itemFlags (k : Core) (i : Nat) : Flags := (k.slot i).item

theorem Core.slot_setSlot (k : Core) (i : Nat) (v : Slot) : (k.setSlot i v).slot i = v := by
  by_cases h : i = 0 <;> simp [Core.slot, Core.setSlot, h]

section
variable {s : State} {c p key item : Nat} {a : RunFig} {f : Figure}

theorem coreSame_modStream {α : Type} {F : Core → α} (k : Nat) (g : Stream → Stream) : coreSame F c s (s.modStream k g) :=
  coreSame_of_cores ⟨fun _ _ => rfl, rowOn_congr rfl rfl rfl fun _ => rfl⟩ rfl

theorem coreSame_leaveWork : coreSame Core.itemFlags c s (leaveWork c s) :=
  coreSame_modCore _ rfl (by funext i; unfold Core.itemFlags Core.slot; split <;> rfl)

theorem coreSame_endItem : coreSame Core.itemFlags c s (endItem c s) := by
  unfold endItem
  split
  · refine .trans (.trans (coreSame_foldl (fun t x => ?_) _ s) (coreSame_foldl (fun t y => ?_) _ _)) coreSame_leaveWork
    · split
      · exact coreSame_postEvent _ _ _
      · exact .refl
    · exact coreSame_ite (coreSame_modStream _ _) .refl
  · exact coreSame_leaveWork

theorem endItem_part (s : State) (c p : Nat) : (endItem c s).part p = s.part p :=
  part_of_parts (same_of_mask (w := 0x700120#38) (endItem_mask (by decide) c s) .parts (by decide)) p

theorem primeItem_part (s : State) (c p : Nat) : (primeItem c s).part p = s.part p :=
  part_of_parts (same_of_mask (w := 0x20#38) (primeItem_mask (by decide) c s) .parts (by decide)) p

theorem primeItem_commitGroup (s : State) (c p : Nat) (a : RunFig) : (primeItem c s).commitGroup p a = s.commitGroup p a := by
  rw [State.commitGroup, State.commitGroup, primeItem_part]

theorem commitFor_active (h : (s.part p).active f.hdr.figId = some a) :
    ((commitFor p c key item true (a, f) s).part p).active f.hdr.figId = some { a with
      flags := a.flags.or ((s.core c).slot f.slot).item, committed := a.committed ++ [(key, item)] } := by
  rw [commitFor, active_modActive, State.part_modCore, h]
  · rfl
  · exact fun _ => rfl

theorem commitFor_core : othersSame c s (commitFor p c key item true (a, f) s)
    ∧ ((commitFor p c key item true (a, f) s).core c).itemFlags f.slot = Flags.none := by
  have hcore (j : Nat) : (commitFor p c key item true (a, f) s).core j
      = (s.modCore c (fun k => k.setSlot f.slot { k.slot f.slot with item := Flags.none })).core j := rfl
  refine ⟨fun k hk => (hcore k).trans (State.core_modCore_other _ _ _ hk), ?_⟩
  rw [hcore, State.core_modCore_same, Core.itemFlags, Core.slot_setSlot]

/-- The item that a core has worked to its program's end, of a Figure that is no forward attention Figure and no fused pair, is
committed. -/
theorem execItemCommit_commits {k slot : Nat} (hk : s.clmFig k = some (a, f)) (hattn : ∀ x, f.par ≠ .attn x)
    (hgroup : s.commitGroup (k / 16) a = [(a, f)]) (hfen : (s.core c).fenced = false) (hhalt : (s.core c).halted = false)
    (hdie : s.pmu.dieLevel ≠ 2) (hpois : (s.core c).poisoned = false) (hheld : (s.core c).held.contains (k, item) = true)
    (hnew : a.committed.contains (itemKey f a k, item) = false)
    (hdone : (primeItem c s).itemFinished c (itemKey f a k) item = true) :
    execItemCommit c k item slot s
      = .next (endItem c (commitFor (k / 16) c (itemKey f a k) item true (a, f) (primeItem c s))) := by
  rw [execItemCommit, if_neg (by simp [hfen, hhalt, hdie, hpois]), hk]
  dsimp only
  rw [if_neg (by rw [hheld, hnew, hdone]; decide), primeItem_commitGroup, hgroup]
  split
  · next x hx => exact absurd hx (hattn x)
  · rfl
end

/-! ### Retiring (R290, R394) -/

section
variable {s : State} {c k item : Nat} {a : RunFig} {f : Figure}

theorem retired_fold_clms (l : List (RunFig × Figure)) (p : Nat) (s : State) :
    (l.foldl (fun t y => countRetired p y t) s).clms = s.clms ∧ (l.foldl (fun t y => countRetired p y t) s).cores = s.cores :=
  have h := mask_foldl (w := 0x10#38) (fun t y => countRetired_mask (by decide) p y t) l s
  ⟨same_of_mask h .clms (by decide), same_of_mask h .cores (by decide)⟩

theorem retireItem_clm (k : Nat) (a : RunFig) (s : State) (j : Nat) : (retireItem k a s).clm j
    = (s.modClm k (fun x => { x with retired := x.retired + 1, signalled := x.signalled || decide (x.limit ≤ x.retired + 1) })).clm j :=
  clm_of_clms (retired_fold_clms _ _ _).1 j

theorem retireItem_core (k : Nat) (a : RunFig) (s : State) (j : Nat) : (retireItem k a s).core j = s.core j :=
  congrArg (kget Core.reset · j) (retired_fold_clms _ _ _).2

theorem execClmRetire_retires (hk : s.clmFig k = some (a, f)) (hheld : (s.core c).held.contains (k, item) = true)
    (hdone : a.committed.contains (itemKey f a k, item) = true) (hst : s.storeWaits c (k / 16) f.hdr.figId = false) :
    execClmRetire c k item s = .next (retireItem k a (s.modCore c (fun x => { x with held := x.held.erase (k, item) }))) := by
  rw [execClmRetire, hk]
  dsimp only
  rw [if_neg (by rw [hheld, hdone, hst]; decide)]

/-! ### Returning (R293) -/

theorem execClmReturn_returns (hk : s.clmFig k = some (a, f)) (hl : (s.clm k).loaded = true) (hnext : item < (s.clm k).next)
    (hnew : a.committed.contains (itemKey f a k, item) = false) (hq : (s.clm k).queue.contains item = false)
    (hkept : (s.clm k).kept.contains item = false)
    (hfree : ∀ c ∈ s.partCores (k / 16), (s.core c).fenced = false → (s.core c).held.contains (k, item) = false) :
    execClmReturn k item s = .next (returnItem k item s) := by
  have hnone : (s.partCores (k / 16)).any (fun c => !(s.core c).fenced && (s.core c).held.contains (k, item)) = false := by
    rw [List.any_eq_false]
    intro c hc h
    obtain ⟨hf, hh⟩ := Bool.and_eq_true_iff.1 h
    rw [hfree c hc (by simpa using hf)] at hh
    contradiction
  rw [execClmReturn, hk]
  dsimp only
  rw [if_neg (by rw [hl, hnew, hq, hkept, hnone, decide_eq_false (Nat.not_le.2 hnext)]; decide)]
end

/-! ### The obligation -/

/-- Settles O26: each command by what it does to the counter, the core and the Figure's record. -/
theorem itemsRetire : Obligations.ItemsRetire := by
  unfold Obligations.ItemsRetire
  intro s k
  refine ⟨fun a f hk c item => ⟨fun slot hattn hg hact hf hh hd hp hheld hnew hdone => ?_, fun hheld hdone hst => ?_,
    fun hl hn hnew hq hkept hfree => ?_⟩, fun hl hsig => ?_⟩
  · have hend := coreSame_endItem (c := c) (s := commitFor (k / 16) c (itemKey f a k) item true (a, f) (primeItem c s))
    obtain ⟨hothers, hflags⟩ :=
      commitFor_core (s := primeItem c s) (c := c) (p := k / 16) (key := itemKey f a k) (item := item) (a := a) (f := f)
    refine ⟨_, execItemCommit_commits hk hattn hg hf hh hd hp hheld hnew hdone, ?_, ?_, fun j hj => ?_⟩
    · rw [endItem_part]
      exact commitFor_active (by rw [primeItem_part, hact])
    · exact (congrFun hend.2 f.slot).trans hflags
    · exact (hend.others j hj).trans ((hothers j hj).trans (coreSame_primeItem.others j hj))
  · refine ⟨_, execClmRetire_retires hk hheld hdone hst, ?_, fun j hj => ?_, ?_, fun j hj => ?_⟩
    · rw [retireItem_clm, State.clm_modClm_same]; rfl
    · rw [retireItem_clm, State.clm_modClm_other _ _ _ hj]; rfl
    · rw [retireItem_core, State.core_modCore_same]
    · rw [retireItem_core, State.core_modCore_other _ _ _ hj]
  · refine ⟨_, execClmReturn_returns hk hl hn hnew hq hkept hfree, fun j hj => ?_, ?_⟩
    · exact State.clm_modClm_other _ _ _ hj
    · exact State.clm_modClm_same _ _ _
  · refine ⟨_, if_pos (by rw [hl, hsig]; rfl), State.clm_setClm_same _ _ _, fun j hj => State.clm_setClm_other _ _ _ hj⟩

end Sys2Proof.Machine
end

section
/-! PROOF. Flag votes over the tempo tree (R117, R218, R220, R441): a frame sent toward a node is queued or sent (R415, R416), a vote
changes as its command says, and sending leaves every vote. -/

namespace Sys2Proof.Machine

/-! ### Frames queued and sent (R415, R416, R423) -/

/-- The frames that wait in each port's queue, and those sent on it and not yet acknowledged. -/
def State.traffic (s : State) (n : Nat) : List (Nat × Frame) × List SentFrame := ((s.port n).out, (s.port n).sent)

section
variable {s t : State} {n : Nat} {f : Frame}

theorem traffic_of_ports (h : t.ports = s.ports) : t.traffic = s.traffic := by
  unfold State.traffic State.port
  rw [h]

theorem traffic_modPort (s : State) (n : Nat) {g : Port → Port} (ho : (g (s.port n)).out = (s.port n).out)
    (hs : (g (s.port n)).sent = (s.port n).sent) : (s.modPort n g).traffic = s.traffic := by
  funext k
  by_cases e : k = n
  · subst e; rw [State.traffic, State.traffic, State.port_modPort_same, ho, hs]
  · rw [State.traffic, State.traffic, State.port_modPort_other _ _ _ e]

theorem sends_of_traffic (h : t.traffic = s.traffic) (hs : s.sends n f) : t.sends n f := by
  obtain ⟨hout, hsent⟩ := Prod.mk.inj (congrFun h n)
  rwa [State.sends, hout, hsent]

theorem lkCount_traffic (m i w k : Nat) (s : State) : (lkCount m i w k s).traffic = s.traffic := by
  have hcount (c : LkCounters) : (s.modPort m (fun q => { q with cnt := c })).traffic = s.traffic := traffic_modPort s m rfl rfl
  have hsat (q : Option Nat) (off : Nat) (u : State) : (satOwned q off u).traffic = u.traffic :=
    traffic_of_ports (same_of_mask (w := 0x700010#38) (satOwned_mask (by decide) q off u) .ports (by decide))
  unfold lkCount
  exact view_ite State.traffic ((hsat _ _ _).trans (hcount _)) (hcount _)

theorem countFrameBytes_traffic (m dir k : Nat) (s : State) : (countFrameBytes m dir k s).traffic = s.traffic :=
  view_ite State.traffic (traffic_modPort s m rfl rfl) ((lkCount_traffic _ _ _ _ _).trans (traffic_modPort s m rfl rfl))

/-- A frame taken from the queue to be sent stays among the frames queued or sent. -/
theorem sends_take (hs : s.sends n f) (m : Nat) (x : Nat × Frame) (tx last : BitVec 12) (k : Nat) :
    (s.setPort m { s.port m with
      out := (s.port m).out.erase x, txSeq := tx, sent := (s.port m).sent ++ [⟨last, k, x.1, x.2⟩] }).sends n f := by
  by_cases e : n = m
  · subst e
    simp only [State.sends, State.port_setPort_same]
    rcases hs with ⟨y, hy, hf⟩ | ⟨y, hy, hf⟩
    · by_cases hx : y = x
      · exact .inr ⟨_, List.mem_append_right _ (List.mem_singleton_self _), hx ▸ hf⟩
      · exact .inl ⟨y, (List.mem_erase_of_ne hx).2 hy, hf⟩
    · exact .inr ⟨y, List.mem_append_left _ hy, hf⟩
  · simpa only [State.sends, State.port_setPort_other _ _ _ e] using hs

theorem sends_pump (hs : s.sends n f) (m k : Nat) : (pump m k s).sends n f := by
  induction k generalizing s with
  | zero => exact hs
  | succ k ih =>
    unfold pump
    dsimp only
    split
    · exact hs
    · split
      · exact ih (sends_of_traffic (countFrameBytes_traffic _ _ _ _) (sends_take hs _ _ _ _ _))
      · exact hs

theorem sends_queueFrame (s : State) (n toward : Nat) (f : Frame) : (queueFrame n toward f s).sends n f := by
  refine sends_pump (.inl ⟨(toward, f), ?_, rfl⟩) _ _
  rw [State.port_modPort_same]
  exact List.mem_append_right _ (List.mem_singleton_self _)

/-- A frame goes out toward a node on the port that its route names next (R423). -/
theorem sends_sendToward {p node : Nat} (hr : (kget 0 (s.part p).plane.routes node).getLsbD 63 = true)
    (hn : s.nextPort p node = some n) (f : Frame) : (sendToward p node f s).sends n f := by
  rw [sendToward, if_neg (by rw [hr]; decide), hn]
  exact sends_queueFrame _ _ _ _
end

/-! ### Votes and what changes them -/

section
variable {s t : State} {p id : Nat} {v : Vote}

theorem vote_modVote {g : Vote → Vote} (hg : ∀ v, (g v).voteId = v.voteId) (h : (s.part p).vote id = some v) :
    ((modVote p id g s).part p).vote id = some (g v) := by
  have hmap : ((modVote p id g s).part p).vote id = ((s.part p).vote id).map g := by
    rw [modVote, State.part_modPart_same]
    unfold Part.vote
    cases (s.part p).chor with
    | none => rfl
    | some c => exact find?_map_ite (fun v : Vote => v.voteId = id) (fun v => by rw [hg v]) c.votes
  rw [hmap, h]
  rfl

theorem vote_of_uncounted (h : t.uncounted = s.uncounted) (p id : Nat) : (t.part p).vote id = (s.part p).vote id :=
  (congrArg (fun q => Part.vote q id) (bare_of_uncounted h p) :)

theorem modVote_nextPort (g : Vote → Vote) (node : Nat) : (modVote p id g s).nextPort p node = s.nextPort p node := by
  simp only [State.nextPort, State.usablePorts, modVote, State.part_modPart_same]
  rfl

theorem modVote_routes (g : Vote → Vote) : ((modVote p id g s).part p).plane.routes = (s.part p).plane.routes := by
  rw [modVote, State.part_modPart_same]

theorem standalone_of_tempoTree {g : Group} (h : s.tempoTree p = some g) : s.beat.standalone = false := by
  by_contra hs
  simp [State.tempoTree, hs] at h
end

/-! ### Contributing (R218, R441) -/

section
variable {s : State} {p id b : Nat} {c : Chor} {r : Run} {v : Vote} (hc : (s.part p).chor = some c) (hr : (s.part p).run = some r)
  (hv : (s.part p).vote id = some v) (hb : s.iterBeat p = some b) (hsent : v.sent = false) (hbeat : v.v ≤ b)
  (hscope : scopeDone c r v = true)
include hc hr hv hb hsent hbeat hscope

theorem execVoteContribute_alone (ha : s.beat.standalone = true) : execVoteContribute p id s
    = .next (modVote p id (fun w => { w with sent := true, result := some (scopeFlags c r v ||| v.childFlags, b) }) s) := by
  simp [execVoteContribute, hc, hr, hv, hb, hsent, hscope, ha, Nat.not_lt.2 hbeat]

theorem execVoteContribute_up {g : Group} (hg : s.tempoTree p = some g) (hch : g.children.length ≤ v.children) (hroot : g.root = false) :
    execVoteContribute p id s = .next (sendToward p g.upNode
      (.vote true id (s.part p).voteStep (scopeFlags c r v ||| v.childFlags) (v.childCount + 1))
      (modVote p id (fun w => { w with sent := true }) s)) := by
  simp [execVoteContribute, hc, hr, hv, hb, hsent, hscope, standalone_of_tempoTree hg, hg, hroot, Nat.not_lt.2 hbeat, Nat.not_lt.2 hch]

theorem execVoteContribute_root {g : Group} (hg : s.tempoTree p = some g) (hch : g.children.length ≤ v.children) (hroot : g.root = true)
    (hall : v.childCount + 1 = g.members) : execVoteContribute p id s = .next (flood p (s.part p).plane.tempoGroup.toNat []
      (.vote false id (s.part p).voteStep (scopeFlags c r v ||| v.childFlags) (v.childCount + 1))
      (modVote p id (fun w => { w with sent := true, result := some (scopeFlags c r v ||| v.childFlags, b) }) s)) := by
  simp [execVoteContribute, hc, hr, hv, hb, hsent, hscope, standalone_of_tempoTree hg, hg, hroot, hall, Nat.not_lt.2 hbeat,
    Nat.not_lt.2 hch]
end

/-! ### Frames of a vote (R441) -/

section
variable {s : State} {p id b node : Nat} {g : Group} {v : Vote} (hv : (s.part p).vote id = some v) (hb : s.iterBeat p = some b)
  (hg : s.tempoTree p = some g)
include hv hb hg

theorem execVoteFrame_joins (flags : BitVec 4) (count : Nat) (hres : v.result = none) (hfrom : g.root = true ∨ node ≠ g.upNode)
    (hsent : v.sent = false) (hch : v.children < g.children.length) : execVoteFrame p node id (s.part p).voteStep flags count s
      = .next (modVote p id (fun w => { w with
        childFlags := w.childFlags ||| flags, childCount := w.childCount + count, children := w.children + 1 }) s) := by
  have hdown : (!g.root && decide (node = g.upNode)) = false := by rcases hfrom with h | h <;> simp [h]
  simp [execVoteFrame, hg, hb, hv, hres, hsent, hch, hdown]

theorem execVoteFrame_result (flags : BitVec 4) (count : Nat) (hres : v.result = none) (hroot : g.root = false) (hup : node = g.upNode)
    (hsent : v.sent = true) : execVoteFrame p node id (s.part p).voteStep flags count s
      = .next (flood p (s.part p).plane.tempoGroup.toNat [node] (.vote false id (s.part p).voteStep flags count)
        (modVote p id (fun w => { w with result := some (flags, b) }) s)) := by
  simp [execVoteFrame, hg, hb, hv, hres, hsent, hroot, hup]

theorem execVoteFrame_split (flags : BitVec 4) (count : Nat) {step : BitVec 32} (hstep : step ≠ (s.part p).voteStep) :
    execVoteFrame p node id step flags count s = .next (reportSplit p node s) := by
  simp [execVoteFrame, hg, hb, hv, Ne.symm hstep]
end

section
variable (s : State) (p node : Nat)

theorem blkCount_splits : (blkCount 4 s).blk.splits = min 0xFFFF (s.blk.splits + 1) := by
  simp only [blkCount, ite_satAll_blk]
  exact satAdd_fst 16 s.blk.splits 1

theorem reportSplit_splits : (reportSplit p node s).blk.splits = min 0xFFFF (s.blk.splits + 1) := by
  have hpost := same_of_mask (w := 0x700000#38) (postEvent_mask (by decide) p 0x14 (payloadOf noFig 0 node) (blkCount 4 s)) .blk (by decide)
  rw [reportSplit, hpost, blkCount_splits]

theorem reportSplit_beat : (reportSplit p node s).beat = s.beat := by
  rw [reportSplit, postEvent_beat, blkCount_beat]

theorem reportSplit_uncounted : (reportSplit p node s).uncounted = s.uncounted :=
  (uncounted_of_parts (postEvent_parts _ _ _ _)).trans (blkCount_uncounted s 4)
end

/-! ### Latching (R117, R220) -/

/-- The partition's registers as the result `r` of vote `id` is latched: VOTE_STAT takes it and FLAG_ACC is cleared. -/
def Part.latchVote (id : Nat) (v : Vote) (r : BitVec 4) (q : Part) : Part :=
  { q with
    flags := Flags.none, firstFig := 0xFFFFFF,
    voteId := BitVec.ofNat 8 id, voteFlags := r, voteClear := v.clear, voteValid := true }

theorem execVoteLatch_latches {s : State} {p id b n : Nat} {v : Vote} {r : BitVec 4} (hv : (s.part p).vote id = some v)
    (hb : s.iterBeat p = some b) (hr : v.result = some (r, n)) (hl : v.latched = false) (hh : (s.part p).tempo.hold = false)
    (hvd : v.vd ≤ b) (hn : n < b) : execVoteLatch p id s
      = .next (modVote p id (fun w => { w with latched := true }) (s.modPart p (Part.latchVote id v r))) := by
  simp only [execVoteLatch, hv, hb, hr]
  rw [if_neg (by simp [hl, hh, hvd, hn])]
  rfl

/-! ### The obligation -/

/-- Settles O47: each command by the vote it changes, and the frames it sends leave the votes. -/
theorem votes : Obligations.Votes := by
  unfold Obligations.Votes
  intro s p id c v b hc hv hb
  refine ⟨fun r hr hsent hbeat hscope => ⟨fun ha => ?_, fun g hg hch => ⟨fun hroot => ?_, fun hroot hall => ?_⟩⟩,
    fun g node flags count hg hres => ⟨fun hfrom hsent hch => ?_, fun hroot hup hsent => ?_, fun step hstep => ?_⟩,
    fun r n hres hl hh hvd hn => ?_⟩
  · exact ⟨_, execVoteContribute_alone hc hr hv hb hsent hbeat hscope ha, vote_modVote (fun _ => rfl) hv⟩
  · refine ⟨_, execVoteContribute_up hc hr hv hb hsent hbeat hscope hg hch hroot, ?_, fun n hroute hnext => ?_⟩
    · exact (vote_of_uncounted (sendToward_uncounted _ _ _ _) p id).trans (vote_modVote (fun _ => rfl) hv)
    · exact sends_sendToward (by rw [modVote_routes, hroute]) (by rw [modVote_nextPort, hnext]) _
  · exact ⟨_, execVoteContribute_root hc hr hv hb hsent hbeat hscope hg hch hroot hall,
      (vote_of_uncounted (flood_uncounted _ _ _ _ _) p id).trans (vote_modVote (fun _ => rfl) hv)⟩
  · exact ⟨_, execVoteFrame_joins hv hb hg flags count hres hfrom hsent hch, vote_modVote (fun _ => rfl) hv⟩
  · exact ⟨_, execVoteFrame_result hv hb hg flags count hres hroot hup hsent,
      (vote_of_uncounted (flood_uncounted _ _ _ _ _) p id).trans (vote_modVote (fun _ => rfl) hv)⟩
  · exact ⟨_, execVoteFrame_split hv hb hg flags count hstep, reportSplit_beat s p node,
      (vote_of_uncounted (reportSplit_uncounted s p node) p id).trans hv, reportSplit_splits s p node⟩
  · have hlatched : ((s.modPart p (Part.latchVote id v r)).part p).vote id = some v := by rw [State.part_modPart_same]; exact hv
    refine ⟨_, execVoteLatch_latches hv hb hres hl hh hvd hn, vote_modVote (fun _ => rfl) hlatched, ?_⟩
    rw [modVote, State.part_modPart_same, State.part_modPart_same]
    refine ⟨rfl, rfl, rfl, rfl, rfl, fun k hk => ?_⟩
    rw [State.part_modPart_other _ _ _ hk, State.part_modPart_other _ _ _ hk]

end Sys2Proof.Machine
end

section
/-! PROOF. Placement on an element's grid, and one K-step of one-piece operands (R131 to R138). -/

namespace Sys2Proof.Machine

/-! ### Rounding to the nearest, ties to even (R135) -/

section
variable {m : Nat} {e g : Int}

theorem roundAt_rne_exact (h : g ≤ e) : roundAt .rne false 0 m e false g = (m * 2 ^ (e - g).toNat, false) := if_pos h

/-- Below the grid the quotient by `d = 2^(g − e)`, one more where the rest is over half of `d`, or is half and the quotient odd. -/
theorem roundAt_rne_coarse {d : Nat} (hd : 2 ^ (g - e).toNat = d) (h : e < g) :
    roundAt .rne false 0 m e false g =
      (if d < 2 * (m % d) ∨ 2 * (m % d) = d ∧ m / d % 2 = 1 then m / d + 1 else m / d, decide (m % d ≠ 0)) := by
  subst hd
  rw [roundAt, if_neg (not_le.2 h)]
  simp

theorem placeOn_fst (x e g : Int) : (placeOn x e g).1 =
    if x < 0 then -((roundAt .rne false 0 x.natAbs e false g).1 : Int) else (roundAt .rne false 0 x.natAbs e false g).1 := rfl

theorem placeOn_snd (x e g : Int) : (placeOn x e g).2 = (roundAt .rne false 0 x.natAbs e false g).2 := rfl

theorem placeOn_exact (x : Int) (h : g ≤ e) : placeOn x e g = (x * 2 ^ (e - g).toNat, false) := by
  refine Prod.ext ?_ ?_
  · rw [placeOn_fst, roundAt_rne_exact h]
    push_cast
    rcases lt_or_ge x 0 with hneg | hpos
    · rw [if_pos hneg, abs_of_neg hneg, neg_mul, neg_neg]
    · rw [if_neg (not_lt.2 hpos), abs_of_nonneg hpos]
  · rw [placeOn_snd, roundAt_rne_exact h]

/-- Rounding by magnitude and sign is as far from the value as rounding the magnitude. -/
theorem abs_sub_placeOn (x e g : Int) (d : Nat) :
    |x - (placeOn x e g).1 * d| = |(x.natAbs : Int) - (roundAt .rne false 0 x.natAbs e false g).1 * d| := by
  rw [placeOn_fst]
  rcases lt_or_ge x 0 with hneg | hpos
  · rw [if_pos hneg, ← abs_neg, Int.natCast_natAbs, abs_of_neg hneg]
    congr 1
    ring
  · rw [if_neg (not_lt.2 hpos), Int.natAbs_of_nonneg hpos]

theorem placeOn_even_iff (x e g : Int) : (placeOn x e g).1 % 2 = 0 ↔ (roundAt .rne false 0 x.natAbs e false g).1 % 2 = 0 := by
  rw [placeOn_fst]
  split <;> omega

theorem roundAt_rne_nearest {d : Nat} (hd : 2 ^ (g - e).toNat = d) (h : e < g) :
    2 * |(m : Int) - (roundAt .rne false 0 m e false g).1 * d| ≤ d
    ∧ (2 * |(m : Int) - (roundAt .rne false 0 m e false g).1 * d| = d → (roundAt .rne false 0 m e false g).1 % 2 = 0) := by
  have hpos : 0 < d := hd ▸ Nat.two_pow_pos _
  have hrest : m % d < d := Nat.mod_lt m hpos
  have hdiv : (m : Int) = (m / d : Nat) * (d : Int) + (m % d : Nat) := by exact_mod_cast (Nat.div_add_mod' m d).symm
  rw [roundAt_rne_coarse hd h]
  split
  · have hdist : (m : Int) - ((m / d + 1 : Nat) : Int) * d = -((d - m % d : Nat) : Int) := by
      push_cast [hrest.le]
      push_cast at hdiv
      linarith
    rw [hdist, abs_neg, Nat.abs_cast]
    omega
  · have hdist : (m : Int) - ((m / d : Nat) : Int) * d = (m % d : Nat) := by linarith
    rw [hdist, Nat.abs_cast]
    omega

theorem placeOn_coarse (x : Int) (h : e < g) :
    2 * |x - (placeOn x e g).1 * 2 ^ (g - e).toNat| ≤ 2 ^ (g - e).toNat
    ∧ (2 * |x - (placeOn x e g).1 * 2 ^ (g - e).toNat| = 2 ^ (g - e).toNat → (placeOn x e g).1 % 2 = 0)
    ∧ ((placeOn x e g).2 = true ↔ ¬ (2 ^ (g - e).toNat : Int) ∣ x) := by
  obtain ⟨d, hd⟩ : ∃ d, 2 ^ (g - e).toNat = d := ⟨_, rfl⟩
  have hcast : (2 ^ (g - e).toNat : Int) = d := by exact_mod_cast hd
  obtain ⟨hnear, htie⟩ := roundAt_rne_nearest (m := x.natAbs) hd h
  rw [hcast, abs_sub_placeOn, placeOn_even_iff]
  refine ⟨hnear, htie, ?_⟩
  rw [placeOn_snd, roundAt_rne_coarse hd h, decide_eq_true_iff, Int.natCast_dvd, Nat.dvd_iff_mod_eq_zero]

end

/-! ### Adding with saturation (R136, R137) -/

section
variable {x : Int}

theorem saturate_inside (hmin : accMin ≤ x) (hmax : x ≤ accMax) : saturate x = (x, false) := by
  rw [saturate, if_neg (not_lt.2 hmax), if_neg (not_lt.2 hmin)]

theorem saturate_above (h : accMax < x) : saturate x = (accMax, true) := if_pos h

theorem saturate_below (h : x < accMin) : saturate x = (accMin, true) := by
  have hmax : x ≤ accMax := h.le.trans (by decide)
  rw [saturate, if_neg (not_lt.2 hmax), if_pos h]
end

/-! ### One K-step of one-piece operands (R131 to R133) -/

theorem groupTag_finite {a b : Grp} (ha : ∀ k, k < 32 → nth a.tags k = 0) (hb : ∀ k, k < 32 → nth b.tags k = 0) :
    groupTag a b = (0, false) := by
  have hfin : ∀ k ∈ List.range 32, nth a.tags k = 0 ∧ nth b.tags k = 0 := fun k hk =>
    ⟨ha k (List.mem_range.1 hk), hb k (List.mem_range.1 hk)⟩
  rw [groupTag, List.map_congr_left (g := fun _ => (0, false)) fun k hk => if_pos (hfin k hk)]
  rfl

/-- Nothing is dropped of one-piece operands, and their one pass adds the dot product with saturation. -/
theorem addGroup_onePiece {g : Int} (first : Bool) {a b : Grp} {u v : List Int} {w : Work} (hu : a.ps = [u]) (hv : b.ps = [v])
    (ha : ∀ k, k < 32 → nth a.tags k = 0) (hb : ∀ k, k < 32 → nth b.tags k = 0) (hw : w.tag = 0) (hg : g ≤ a.e + b.e) :
    addGroup g first a b w =
      let sum := saturate (w.x + dot u v * 2 ^ (a.e + b.e - g).toNat)
      { w with x := sum.1, sat := w.sat || sum.2 } := by
  have hpass : passes 1 1 = [(0, 0)] := rfl
  have hdrop : dropped 1 1 = [] := rfl
  obtain ⟨x, tag, sat, inx, inv⟩ := w
  subst hw
  simp [addGroup, groupTag_finite ha hb, addTags, hu, hv, hpass, hdrop, placeOn_exact _ hg]

/-- Settles O16: placement through the rounding of the magnitude, and the K-step through its one pass. -/
theorem accumulationExact : Obligations.AccumulationExact := by
  unfold Obligations.AccumulationExact
  refine ⟨fun x e g => ⟨placeOn_exact x, placeOn_coarse x⟩, fun g first a b u v w hu hv ha hb hw hg => ?_⟩
  dsimp only
  rw [addGroup_onePiece first hu hv ha hb hw hg]
  refine ⟨hw, rfl, rfl, fun hmin hmax => ?_, fun h => ?_, fun h => ?_⟩
  · simp [saturate_inside hmin hmax]
  · simp [saturate_above h]
  · simp [saturate_below h]

end Sys2Proof.Machine
end

section
/-! PROOF. What the operations on the Accumulator Memory have in common (R134, R139, R143, R180): the elements and the banks of a core, what a
tile program's next step leaves alone, and what an operation that sets a bank leaves of its core and of the others. -/

namespace Sys2Proof.Machine

/-! ### Elements of a bank (R134) -/

/-- A key reads as `v` where each of its entries holds `v` and it has one unless `v` is the unlisted value. -/
theorem kget_of_entries {α : Type} {d v : α} {m : KMap α} {k : Nat} (hval : ∀ e ∈ m, e.1 = k → e.2 = v)
    (hkey : v ≠ d → ∃ e ∈ m, e.1 = k) : kget d m k = v := by
  induction m with
  | nil =>
    by_contra hne
    obtain ⟨e, he, -⟩ := hkey (Ne.symm hne)
    cases he
  | cons e m ih =>
    obtain ⟨k', v'⟩ := e
    rw [kget]
    split
    · exact hval _ (List.mem_cons_self ..) ‹_›
    · refine ih (fun e he => hval e (List.mem_cons_of_mem _ he)) fun hne => ?_
      obtain ⟨e, he, rfl⟩ := hkey hne
      obtain rfl | he := List.mem_cons.1 he
      · exact absurd rfl ‹_›
      · exact ⟨e, he, rfl⟩

theorem mem_elemsOf {f : Nat → Nat → Elem} {x : Nat × Elem} :
    x ∈ elemsOf f ↔ ∃ i < 128, ∃ j < 128, f i j ≠ Elem.zero ∧ x = (128 * i + j, f i j) := by
  simp [elemsOf, eq_comm]

theorem kget_elemsOf (f : Nat → Nat → Elem) {i j : Nat} (hi : i < 128) (hj : j < 128) :
    kget Elem.zero (elemsOf f) (128 * i + j) = f i j := by
  refine kget_of_entries (fun x hx hkey => ?_) fun hne => ⟨_, mem_elemsOf.2 ⟨i, hi, j, hj, hne, rfl⟩, rfl⟩
  obtain ⟨i', _, j', hj', -, rfl⟩ := mem_elemsOf.1 hx
  obtain rfl : i' = i := by dsimp only at hkey; omega
  obtain rfl : j' = j := by dsimp only at hkey; omega
  rfl

/-- A bank made from a function of row and column holds what it gives. -/
theorem Bank.at_elemsOf (f : Nat → Nat → Elem) (g : Int) (sat : Bool) (bad : List Nat) {i j : Nat} (hi : i < 128) (hj : j < 128) :
    (Bank.mk (elemsOf f) g sat bad).at i j = f i j := kget_elemsOf f hi hj

/-! ### Elements from works (R132, R137) -/

/-- The element a work leaves. -/
def Work.elem (w : Work) : Elem := ⟨BitVec.ofInt 128 w.x, numTag w.tag⟩

/-- The element that row `i`, column `j` of a table of works leaves, zero beyond it. -/
def workElem (ws : List (List Work)) (i j : Nat) : Elem := ((ws.getD i [])[j]?).elim Elem.zero Work.elem

theorem workElem_eq {ws : List (List Work)} {i j : Nat} {w : Work} (h : ws[i]?.bind (·[j]?) = some w) : workElem ws i j = w.elem := by
  obtain ⟨r, hr, hw⟩ := Option.bind_eq_some_iff.1 h
  rw [workElem, List.getD_eq_getElem?_getD, hr, Option.getD_some, hw]
  rfl

/-- A table of works given by row and column. -/
theorem workElem_table (f : Nat → Nat → Work) {i j : Nat} (hi : i < 128) (hj : j < 128) :
    workElem ((List.range 128).map (fun i => (List.range 128).map (f i))) i j = (f i j).elem := by
  refine workElem_eq ?_
  rw [List.getElem?_map, List.getElem?_range hi, Option.map_some, Option.bind_some, List.getElem?_map, List.getElem?_range hj]
  rfl

/-! ### The banks of a core -/

section
variable (k : Core) (b : Nat) (v : Bank)

@[simp] theorem Core.bank_setBank : (k.setBank b v).bank b = v := by
  by_cases h : b = 0 <;> simp [Core.bank, Core.setBank, h]

/-- Setting a bank leaves the other one, whichever of the two it is. -/
theorem Core.bank_setBank_other : (k.setBank b v).bank (1 - b) = k.bank (1 - b) := by
  by_cases h : b = 0
  · simp [Core.bank, Core.setBank, h]
  · have h1 : 1 - b = 0 := by omega
    simp [Core.bank, Core.setBank, h, h1]

@[simp] theorem Core.fenced_setBank : (k.setBank b v).fenced = k.fenced := by unfold Core.setBank; split <;> rfl

@[simp] theorem Core.spm_setBank : (k.setBank b v).spm = k.spm := by unfold Core.setBank; split <;> rfl

@[simp] theorem Core.tags_setBank : (k.setBank b v).tags = k.tags := by unfold Core.setBank; split <;> rfl

@[simp] theorem Core.rows_setBank : (k.setBank b v).rows = k.rows := by unfold Core.setBank; split <;> rfl
end

/-- The Scratchpad bytes of a core and the bank that is not bank `b`. -/
def Core.besides (b : Nat) (k : Core) : KMap Byte × Bank := (k.spm, k.bank (1 - b))

/-- What a drain of bank `b` keeps of it. -/
def Core.values (b : Nat) (k : Core) : KMap Elem × Int × Bool := ((k.bank b).elems, (k.bank b).grid, (k.bank b).sat)

@[simp] theorem Core.besides_setBank (k : Core) (b : Nat) (v : Bank) : (k.setBank b v).besides b = k.besides b := by
  rw [Core.besides, Core.spm_setBank, Core.bank_setBank_other]
  rfl

section
variable {s t u : State} {c : Nat}

theorem coreSame_setBank (s : State) (c b : Nat) (v : Bank) : coreSame (Core.besides b) c s (s.modCore c (fun k => k.setBank b v)) :=
  coreSame_modCore _ (Core.fenced_setBank _ _ _) (Core.besides_setBank _ _ _)

/-- Bank `b` out of both of them. -/
def pickBank (b : Nat) (x : Bank × Bank) : Bank := if b = 0 then x.1 else x.2

theorem coreSame.bank (h : coreSame Core.banks c s t) (b : Nat) : (t.core c).bank b = (s.core c).bank b := congrArg (pickBank b) h.2

theorem coreSame.values (h : coreSame Core.banks c s t) (b : Nat) : coreSame (Core.values b) c s t :=
  ⟨h.1, by rw [Core.values, h.bank]; rfl⟩

theorem coreSame.besides (h : coreSame Core.stored c s t) (b : Nat) : coreSame (Core.besides b) c s t :=
  ⟨h.1, Prod.ext h.spm (h.banks.bank (1 - b))⟩

theorem coreSame_detectBank (p fig b : Nat) (rows : List Nat) : coreSame Core.stored c s (detectBank p fig c b rows s) :=
  coreSame_foldl (fun _ r => coreSame_parityDetect p fig r (some b)) rows s

theorem coreSame_acctAdd {α : Type} {F : Core → α} (p n k : Nat) : coreSame F c s (acctAdd p n k s) := by
  have hcount (a : Acct) : coreSame F c s (s.modPart p (fun q => { q with acct := a })) := coreSame_modPart p _ rfl
  exact coreSame_ite ((hcount _).trans (coreSame_satOwned (some p) _)) (hcount _)
end

/-! ### A tile program that moves on (R180, R292) -/

/-- Only the first slot of core `c` differs. Array operations and drains read more of a core than what is stored in it, of which alone
`coreSame_runs` speaks. -/
structure SlotMoved (c : Nat) (s u : State) : Prop where
  others : othersSame c s u
  core : ∃ v, u.core c = { s.core c with slot0 := v }
  rest : u = { s with cores := u.cores }

section
variable {s u : State} {c : Nat}

theorem SlotMoved.refl : SlotMoved c s s := ⟨fun _ _ => rfl, ⟨_, rfl⟩, rfl⟩

theorem SlotMoved.modCore (h : SlotMoved c s u) (f : Core → Slot) :
    SlotMoved c s (u.modCore c (fun k => { k with slot0 := f k })) := by
  obtain ⟨v, hv⟩ := h.core
  refine ⟨fun k hk => (State.core_modCore_other _ _ _ hk).trans (h.others k hk), ⟨f (u.core c), ?_⟩, ?_⟩
  · rw [State.core_modCore_same, hv]
  · rw [h.rest]; rfl

theorem slotMoved_primeItem : SlotMoved c s (primeItem c s) := by
  unfold primeItem
  dsimp only
  split
  · exact .refl
  · split
    · exact .refl
    · split
      · exact .refl
      · split
        · exact .refl
        · exact SlotMoved.refl.modCore _

theorem slotMoved_admission {i bank : Nat} {got : Step → Act} {rows : List Nat} {t : Step}
    (h : s.admission c i bank got rows = .step t u) : SlotMoved c s u := by
  unfold State.admission at h
  split at h
  · cases h
  · split at h
    · cases h
    · split at h
      · cases h
      · dsimp only at h
        split at h
        · cases h
        · split at h
          · split at h
            · cases h
              exact slotMoved_primeItem.modCore _
            · cases h
          · cases h

theorem slotMoved_runs {i bank : Nat} {got : Step → Act} {rows : List Nat} {st : Option Step}
    (h : (s.admission c i bank got rows).runs s = some (st, u)) : SlotMoved c s u := by
  cases e : s.admission c i bank got rows with
  | no => simp [e, Admit.runs] at h
  | free =>
    obtain ⟨-, rfl⟩ : none = st ∧ s = u := by simpa [e, Admit.runs] using h
    exact .refl
  | step t v =>
    obtain ⟨-, rfl⟩ : some t = st ∧ v = u := by simpa [e, Admit.runs] using h
    exact slotMoved_admission e

theorem SlotMoved.parts (h : SlotMoved c s u) : u.parts = s.parts := by rw [h.rest]

/-- A view of a core that does not see its first slot is the same. -/
theorem SlotMoved.same {α : Type} {F : Core → α} (hF : ∀ k v, F { k with slot0 := v } = F k) (h : SlotMoved c s u) : coreSame F c s u := by
  obtain ⟨v, hv⟩ := h.core
  refine ⟨⟨h.others, rowOn_congr (by rw [h.rest]) (by rw [h.rest]) (by rw [hv]) fun p => ?_⟩, by rw [hv, hF]⟩
  rw [State.part, State.part, h.parts]

theorem SlotMoved.bank (h : SlotMoved c s u) (b : Nat) : (u.core c).bank b = (s.core c).bank b :=
  (h.same (F := (Core.bank · b)) fun _ _ => rfl).2
end

theorem ordered_none {x : Admit} {f : Option Step → State → Res} {s : State} (h : x.runs s = none) : ordered x f s = .next s := by
  rw [ordered, h]

theorem ordered_some {x : Admit} {f : Option Step → State → Res} {s u : State} {st : Option Step} (h : x.runs s = some (st, u)) :
    ordered x f s = f st u := by
  rw [ordered, h]

/-! ### Reads of a Scratchpad whose bytes are the same (R92, R97) -/

section
variable {s t : State} {c : Nat} (h : coreSame Core.spm c s t)
include h

theorem spmByte_congr (a : Nat) : t.spmByte c a = s.spmByte c a := by rw [State.spmByte, State.spmByte, h.1.2, h.2]

theorem spmNat_congr (a n : Nat) : t.spmNat c a n = s.spmNat c a n := by
  simp only [State.spmNat, State.spmBytes, spmByte_congr h]

theorem spmI32_congr (a i : Nat) : t.spmI32 c a i = s.spmI32 c a i := by rw [State.spmI32, State.spmI32, spmNat_congr h]

theorem spmF32_congr (a i : Nat) : t.spmF32 c a i = s.spmF32 c a i := by rw [State.spmF32, State.spmF32, spmNat_congr h]

theorem spmCode_congr (f : Fmt) (a i : Nat) : t.spmCode c f a i = s.spmCode c f a i := by
  rw [State.spmCode, State.spmCode, spmNat_congr h, spmByte_congr h]
end

/-! ### Operations that set a bank -/

/-- Bank `b` of core `c` is `v`; the core's other bank and its Scratchpad bytes, and every other core, are the same. -/
structure BankSet (c b : Nat) (v : Bank) (s t : State) : Prop where
  bank : (t.core c).bank b = v
  besides : coreSame (Core.besides b) c s t

section
variable {s u t : State} {c b : Nat} {v : Bank}

/-- Setting the bank between steps that leave the other bank and the bytes, the last of them also the bank. -/
theorem BankSet.of_setBank (hu : coreSame (Core.besides b) c s u)
    (ht : coreSame Core.stored c (u.modCore c (fun k => k.setBank b v)) t) : BankSet c b v s t where
  bank := by rw [ht.banks.bank, State.core_modCore_same, Core.bank_setBank]
  besides := (hu.trans (coreSame_setBank u c b v)).trans (ht.besides b)

theorem BankSet.after (h : BankSet c b v u t) (hu : SlotMoved c s u) : BankSet c b v s t :=
  ⟨h.bank, (hu.same fun _ _ => rfl).trans h.besides⟩

theorem BankSet.spm (h : BankSet c b v s t) : (t.core c).spm = (s.core c).spm := congrArg Prod.fst h.besides.2

theorem BankSet.other (h : BankSet c b v s t) : (t.core c).bank (1 - b) = (s.core c).bank (1 - b) := congrArg Prod.snd h.besides.2

theorem BankSet.others (h : BankSet c b v s t) : othersSame c s t := h.besides.others
end

end Sys2Proof.Machine
end

section
/-! PROOF. Array operations (R128 to R138): the works of the rows computed, on the grid of the bank they set. -/

namespace Sys2Proof.Machine

/-! ### What an array operation reads (R126, R131) -/

/-- What an array operation on bank `b` reads of its core. -/
def Core.operands (b : Nat) (k : Core) : KMap Byte × KMap Nat × KMap Elem := (k.spm, k.tags, (k.bank b).elems)

section
variable {s t : State} {c : Nat}

theorem grp_congr (h : coreSame Core.spm c s t) (htags : (t.core c).tags = (s.core c).tags) (f : Fmt) (ty : OpType) (bT : Bool)
    (row sc m st : Nat) : t.grp c f ty bT row sc m st = s.grp c f ty bT row sc m st := by
  cases ty <;> simp only [State.grp, spmByte_congr h, spmNat_congr h, htags]

theorem mxaWork_congr {o : ArrayOp} (h : coreSame (Core.operands o.bank) c s t) (g : Int) (n : Nat) :
    t.mxaWork c o g n = s.mxaWork c o g n := by
  have hspm : coreSame Core.spm c s t := ⟨h.1, congrArg Prod.fst h.2⟩
  have htags : (t.core c).tags = (s.core c).tags := congrArg (·.2.1) h.2
  have helems : ((t.core c).bank o.bank).elems = ((s.core c).bank o.bank).elems := congrArg (·.2.2) h.2
  have hgrp : t.grp c = s.grp c := by
    funext f ty bT row sc m st
    exact grp_congr hspm htags f ty bT row sc m st
  simp only [State.mxaWork, hgrp, Bank.at, helems]

/-- Each element of the rows an operation computes has its work. -/
theorem mxaWork_some (s : State) (c : Nat) (o : ArrayOp) (g : Int) {n i j : Nat} (hi : i < n) (hj : j < 128) :
    ∃ w, (s.mxaWork c o g n)[i]?.bind (·[j]?) = some w := by
  rw [State.mxaWork]
  dsimp only
  rw [List.getElem?_map, List.getElem?_range hi, Option.map_some, Option.bind_some]
  exact ⟨_, List.getElem?_eq_getElem (by simpa using hj)⟩
end

/-! ### What an array operation sets (R128, R134, R137) -/

/-- The grid an array operation leaves its bank on (R134). -/
def ArrayOp.gridOn (o : ArrayOp) (old : Int) : Int := if o.add then old else o.grid.getD (naturalGrid o)

/-- The bank that an array operation makes of bank `b`: works `ws` in the first `n` rows, and the rows beyond as they are or 0. -/
def ArrayOp.bankOf (o : ArrayOp) (n : Nat) (b : Bank) (bad : List Nat) (ws : List (List Work)) : Bank :=
  ⟨elemsOf (fun i j => if i < n then workElem ws i j else if o.add then b.at i j else Elem.zero), o.gridOn b.grid,
    (workFlags ws).ovf || (o.add && b.sat), if o.add then bad else []⟩

section
variable {o : ArrayOp} {n : Nat} {b : Bank} {bad : List Nat} {ws : List (List Work)} {i j : Nat}

theorem ArrayOp.bankOf_at_computed (hn : n ≤ 128) (hi : i < n) (hj : j < 128) : (o.bankOf n b bad ws).at i j = workElem ws i j := by
  rw [bankOf, Bank.at_elemsOf _ _ _ _ (hi.trans_le hn) hj, if_pos hi]

theorem ArrayOp.bankOf_at_beyond (hn : n ≤ i) (hi : i < 128) (hj : j < 128) :
    (o.bankOf n b bad ws).at i j = if o.add then b.at i j else Elem.zero := by
  rw [bankOf, Bank.at_elemsOf _ _ _ _ hi hj, if_neg (not_lt.2 hn)]

theorem ArrayOp.bankOf_sat (ha : o.add = true) (hs : b.sat = true) : (o.bankOf n b bad ws).sat = true := by
  simp [bankOf, ha, hs]
end

/-- The rows an array operation computes on a core (R128). -/
def Core.mxaRows (k : Core) : Nat := min 128 (32 * k.rowMask)

/-- The parity an operation meets changes nothing that it reads or leaves, but for the rows that fail. -/
theorem mxaRun_sets (p fig c slot : Nat) (o : ArrayOp) (m : MxaMeet) (st : Option Step) (s : State) :
    ∃ t bad, mxaRun p fig c slot o m st s = .next t ∧ BankSet c o.bank (o.bankOf (s.core c).mxaRows ((s.core c).bank o.bank) bad
      (s.mxaWork c o (o.gridOn ((s.core c).bank o.bank).grid) (s.core c).mxaRows)) s t := by
  unfold mxaRun
  extract_lets k0 b0 s0 rows s1 bad s2 g ws el fl b1
  have hupset {α : Type} {F : Core → α} (hF : ∀ v, F (k0.setBank o.bank { b0 with bad := v }) = F (s.core c)) : coreSame F c s s0 :=
    coreSame_modCore (fun _ => k0.setBank o.bank { b0 with bad := m.acmBad.foldl insAsc b0.bad }) (Core.fenced_setBank _ _ _) (hF _)
  have hread : ws = s.mxaWork c o (o.gridOn ((s.core c).bank o.bank).grid) (s.core c).mxaRows :=
    mxaWork_congr (hupset fun v => by simp only [Core.operands, Core.spm_setBank, Core.tags_setBank, Core.bank_setBank]; rfl) _ _
  clear_value ws
  have hel : el = fun i j => if i < rows then workElem ws i j else if o.add then b0.at i j else Elem.zero := by
    funext i j
    dsimp only [el, workElem]
    cases (ws.getD i [])[j]? <;> rfl
  have hb1 : b1 = o.bankOf (s.core c).mxaRows ((s.core c).bank o.bank) bad ws := by
    simp only [b1, hel]
    rfl
  clear_value b1
  refine ⟨_, bad, rfl, ?_⟩
  rw [← hread, ← hb1]
  refine .of_setBank ((hupset fun v => Core.besides_setBank _ _ _).trans ?_) ((coreSame_raise _ _).trans (coreSame_acctAdd _ _ _))
  exact ((coreSame_touchRows _ _ _ _ _).trans (coreSame_detectBank _ _ _ _)).besides _

theorem execMxaOp_decoded {s : State} {c slot p fig : Nat} {w0 w1 : BitVec 64} {o : ArrayOp} (hi : s.issuing c slot = some (p, fig))
    (hd : arrayDecode s.cfg.spmRows w0 w1 = some o) (m : MxaMeet) :
    exec (.mxaOp c slot w0 w1 m) s = ordered (s.admitMxa c slot o) (mxaRun p fig c slot o m) s := by
  show execMxaOp c slot w0 w1 m s = _
  simp only [execMxaOp, hi, hd]

theorem execMxaOp_rejected {s : State} {c slot p fig : Nat} {w0 w1 : BitVec 64} (hi : s.issuing c slot = some (p, fig))
    (hd : arrayDecode s.cfg.spmRows w0 w1 = none) (m : MxaMeet) :
    exec (.mxaOp c slot w0 w1 m) s = .next (askAbort p fig (.mxaInvalid c) (postEvent p 0x20 (payloadOf fig c 0) s)) := by
  show execMxaOp c slot w0 w1 m s = _
  simp only [execMxaOp, hi, hd]

/-! ### The obligation -/

/-- Settles O17: the bank that the operation sets, read by rows computed and rows beyond. -/
theorem arrayOperation : Obligations.ArrayOperation := by
  unfold Obligations.ArrayOperation
  intro s c slot p fig w0 w1 m hi
  refine ⟨fun o hd hno => ⟨s, (execMxaOp_decoded hi hd m).trans (ordered_none hno), rfl⟩, fun o st u hd hruns => ?_,
    fun hd => ⟨_, execMxaOp_rejected hi hd m, rfl⟩⟩
  have hmoved : SlotMoved c s u := slotMoved_runs hruns
  have hrows : (u.core c).mxaRows = (s.core c).mxaRows := (hmoved.same (F := Core.mxaRows) fun _ _ => rfl).2
  have hwork := mxaWork_congr (o := o) (hmoved.same (F := Core.operands o.bank) fun _ _ => rfl)
  obtain ⟨t, bad, ht, hset⟩ := mxaRun_sets p fig c slot o m st u
  rw [hmoved.bank, hrows, hwork] at hset
  replace hset := hset.after hmoved
  refine ⟨t, ((execMxaOp_decoded hi hd m).trans (ordered_some hruns)).trans ht, ?_⟩
  dsimp only
  rw [hset.bank]
  refine ⟨rfl, fun i j hin hj => ?_, fun i j hni hi hj => ArrayOp.bankOf_at_beyond hni hi hj, ArrayOp.bankOf_sat, hset.other, hset.spm,
    hset.others⟩
  obtain ⟨w, hw⟩ := mxaWork_some s c o (o.gridOn ((s.core c).bank o.bank).grid) hin hj
  exact ⟨w, hw, (ArrayOp.bankOf_at_computed (Nat.min_le_left ..) hin hj).trans (workElem_eq hw)⟩

end Sys2Proof.Machine
end

section
/-! PROOF. Fills, shifts, clears and the status of a bank (R140, R142, R143). -/

namespace Sys2Proof.Machine

/-! ### Fills (R142) -/

section
variable {s t : State}

theorem fillRs_congr {o : FillOp} (h : coreSame Core.spm o.core s t) (i : Nat) : t.fillRs o i = s.fillRs o i := by
  unfold State.fillRs
  cases o.rsRow with
  | none => rfl
  | some r => exact congrArg rsUsed (spmI32_congr h _ _)

/-- The value that element (i, j) of a fill takes: its source, 0 where the step has no data. -/
def State.fillNum (s : State) (o : FillOp) (st : Option Step) (i j : Nat) : Num :=
  if realRow st i && realCol st j then fmtDecode o.src (s.spmCode o.core o.src (512 * o.srcRow) (128 * i + j)) 0 (s.fillRs o i)
  else Num.zero

theorem fillNum_congr {o : FillOp} (h : coreSame Core.spm o.core s t) (st : Option Step) (i j : Nat) :
    t.fillNum o st i j = s.fillNum o st i j := by
  rw [State.fillNum, State.fillNum, spmCode_congr h, fillRs_congr h]
end

/-- The works of a fill, row by row. -/
def State.fillWorks (s : State) (o : FillOp) (st : Option Step) : List (List Work) :=
  (List.range 128).map (fun i => (List.range 128).map (fun j => fillElem o.grid (s.fillNum o st i j)))

theorem fillRun_sets (p fig : Nat) (o : FillOp) (st : Option Step) (s : State) :
    ∃ t, fillRun p fig o st s = .next t
      ∧ BankSet o.core o.bank ⟨elemsOf (workElem (s.fillWorks o st)), o.grid, (workFlags (s.fillWorks o st)).ovf, []⟩ s t := by
  unfold fillRun
  extract_lets ws el fl rd
  have hworks : ws = s.fillWorks o st := by simp only [ws, State.fillWorks, State.fillNum, apply_ite (fillElem o.grid)]
  clear_value ws
  have hel : el = workElem ws := by
    funext i j
    dsimp only [el, workElem]
    cases (ws.getD i [])[j]? <;> rfl
  rw [← hworks, ← hel]
  exact ⟨_, rfl, .of_setBank ((coreSame_touchRows _ _ _ _ _).besides _) (coreSame_raise _ _)⟩

theorem fillWorks_congr {s t : State} {o : FillOp} (h : coreSame Core.spm o.core s t) (st : Option Step) :
    t.fillWorks o st = s.fillWorks o st := by
  rw [State.fillWorks, State.fillWorks, funext fun i => funext fun j => fillNum_congr h st i j]

theorem fillOk_of {o : FillOp} (hsrc : o.src = .fp32 ∨ o.src = .int32 ∨ o.src = .xs128) (hrs : o.rsRow.isSome = true → o.src = .xs128)
    (hlo : -16432 ≤ o.grid) (hhi : o.grid ≤ 16335) : fillOk o = true := by
  have hscale : o.rsRow = none ∨ o.src = .xs128 := (Option.eq_none_or_eq_some o.rsRow).imp id fun ⟨_, h⟩ => hrs (by rw [h]; rfl)
  simp [fillOk, or_assoc, hsrc, hscale, hlo, hhi]

theorem execAcmFill_admitted {s : State} {o : FillOp} {p fig : Nat} (hi : s.issuing o.core o.slot = some (p, fig)) (hok : fillOk o = true) :
    exec (.acmFill o) s = ordered (s.admitFill o) (fillRun p fig o) s := by
  show execAcmFill o s = _
  simp only [execAcmFill, hi, hok, if_true]

/-! ### Shifts (R143) -/

/-- An element after a shift by `d`: the floor of an untagged one divided by 2^d. -/
def Elem.shifted (e : Elem) (d : Nat) : Elem := if e.tag = .fin then ⟨BitVec.ofInt 128 (e.x.toInt / 2 ^ d), .fin⟩ else e

/-- The amount by which a shift moves row `i`. -/
def State.shiftBy (s : State) (c row i : Nat) : Nat := min 127 (s.spmI32 c (512 * row) i).toNat

theorem shiftRun_sets (p fig c slot bank row : Nat) (st : Option Step) (s : State) :
    ∃ t, shiftRun p fig c slot bank row st s = .next t ∧ BankSet c bank { (s.core c).bank bank with
      elems := elemsOf (fun i j => (((s.core c).bank bank).at i j).shifted (s.shiftBy c row i)) } s t := by
  have hshift (e : Elem) (d : Nat) : (if e.tag = .fin then { e with x := BitVec.ofInt 128 (e.x.toInt / 2 ^ d) } else e) = e.shifted d := by
    unfold Elem.shifted
    split
    · rw [‹e.tag = _›]
    · rfl
  refine ⟨_, rfl, ?_⟩
  simp only [← hshift]
  exact .of_setBank (((coreSame_touchRows _ _ _ _ _).trans (coreSame_detectBank _ _ _ _)).besides _) (coreSame_raise _ _)

theorem shiftBy_congr {s t : State} {c : Nat} (h : coreSame Core.spm c s t) (row : Nat) : t.shiftBy c row = s.shiftBy c row := by
  funext i
  rw [State.shiftBy, State.shiftBy, spmI32_congr h]

theorem execAcmShift_issued {s : State} {c slot p fig : Nat} (hi : s.issuing c slot = some (p, fig)) (bank row : Nat) :
    exec (.acmShift c slot bank row) s = ordered (s.admitShift c slot bank row) (shiftRun p fig c slot bank row) s := by
  show execAcmShift c slot bank row s = _
  simp only [execAcmShift, hi]

/-! ### Clears and the status of a bank (R140) -/

section
variable {s : State} {c : Nat} (hf : (s.core c).fenced = false) (hh : (s.core c).halted = false)
include hf hh

theorem execAcmClear_issued (bank : Nat) : exec (.acmClear c bank) s = .next (s.modCore c (fun k => k.setBank bank Bank.clear)) := by
  show execAcmClear c bank s = _
  simp [execAcmClear, hf, hh]

theorem execAcmStatus_issued (bank reg : Nat) : exec (.acmStatus c bank reg) s = .next (s.modCore c (fun k => { k with
    regs := kset 0 k.regs reg (BitVec.ofNat 64 (toTwos 16 ((s.core c).bank bank).grid + b2n ((s.core c).bank bank).sat * 2 ^ 16)) })) := by
  show execAcmStatus c bank reg s = _
  simp [execAcmStatus, hf, hh]
end

/-! ### The obligation -/

/-- Settles O19: a fill and a shift by the bank each sets, a clear and a status read on a core that may issue. -/
theorem acmBanks : Obligations.AcmBanks := by
  unfold Obligations.AcmBanks
  refine ⟨fun s o p fig hi hsrc hrs hlo hhi => ?_, fun s c slot bank row p fig hi => ?_, fun s c bank hf hh => ⟨?_, fun reg => ?_⟩⟩
  · have hexec : exec (.acmFill o) s = ordered (s.admitFill o) (fillRun p fig o) s := execAcmFill_admitted hi (fillOk_of hsrc hrs hlo hhi)
    refine ⟨fun hno => ⟨s, hexec.trans (ordered_none hno), rfl⟩, fun st u hruns => ?_⟩
    have hmoved : SlotMoved o.core s u := slotMoved_runs hruns
    obtain ⟨t, ht, hset⟩ := fillRun_sets p fig o st u
    rw [fillWorks_congr (hmoved.same fun _ _ => rfl)] at hset
    replace hset := hset.after hmoved
    refine ⟨t, (hexec.trans (ordered_some hruns)).trans ht, fun i j hilt hjlt => ?_, ?_, hset.spm, hset.others⟩
    · rw [hset.bank, Bank.at_elemsOf _ _ _ _ hilt hjlt]
      exact workElem_table _ hilt hjlt
    · rw [hset.bank]
  · have hexec := execAcmShift_issued hi bank row
    refine ⟨fun hno => ⟨s, hexec.trans (ordered_none hno), rfl⟩, fun st u hruns => ?_⟩
    have hmoved : SlotMoved c s u := slotMoved_runs hruns
    obtain ⟨t, ht, hset⟩ := shiftRun_sets p fig c slot bank row st u
    rw [hmoved.bank, shiftBy_congr (hmoved.same fun _ _ => rfl)] at hset
    replace hset := hset.after hmoved
    refine ⟨t, (hexec.trans (ordered_some hruns)).trans ht, fun i j hilt hjlt => ?_, ?_, ?_, hset.spm, hset.others⟩
    · rw [hset.bank, Bank.at_elemsOf _ _ _ _ hilt hjlt]
      rfl
    · rw [hset.bank]
    · rw [hset.bank]
  · have hset : BankSet c bank Bank.clear s (s.modCore c (fun k => k.setBank bank Bank.clear)) := .of_setBank .refl .refl
    exact ⟨_, execAcmClear_issued hf hh bank, hset.bank, hset.spm, hset.others⟩
  · have hregs (v : Core → KMap (BitVec 64)) : coreSame Core.stored c s (s.modCore c (fun k => { k with regs := v k })) :=
      coreSame_modCore _ rfl rfl
    refine ⟨_, execAcmStatus_issued hf hh bank reg, ?_, (hregs _).banks.bank bank, (hregs _).spm, (hregs _).others⟩
    rw [State.core_modCore_same, kget_kset_same]

end Sys2Proof.Machine
end

section
/-! PROOF. Drains (R139 to R141): the runs of bytes that a drain writes one after another, and what it keeps of its bank. -/

namespace Sys2Proof.Machine

/-! ### Runs of bytes written one after another (R331) -/

/-- The runs, each bytes at an address, are written in order. -/
def writeRuns (c : Nat) (ws : List (Nat × List Byte)) (s : State) : State := ws.foldl (fun t w => spmWrite c w.1 w.2 t) s

section
variable {c : Nat} {ws : List (Nat × List Byte)} {s : State}

theorem coreSame_writeRuns : coreSame Core.banks c s (writeRuns c ws s) :=
  coreSame_foldl (fun t (w : Nat × List Byte) => coreSame_spmWrite (s := t) w.1 w.2) ws s

theorem kget_writeRuns_out {b : Nat} (h : ∀ w ∈ ws, b < w.1 ∨ w.1 + w.2.length ≤ b) :
    kget 0 ((writeRuns c ws s).core c).spm b = kget 0 (s.core c).spm b := by
  induction ws generalizing s with
  | nil => rfl
  | cons w ws ih =>
    rw [writeRuns, List.foldl_cons, ← writeRuns, ih fun x hx => h x (List.mem_cons_of_mem _ hx),
      kget_spmWrite_out _ _ _ _ (h w (List.mem_cons_self ..))]

/-- Where the runs rise without overlap, each is read back. -/
theorem kget_writeRuns_in (hrise : ws.Pairwise (fun x y => x.1 + x.2.length ≤ y.1)) {w : Nat × List Byte} (hw : w ∈ ws)
    {k : Nat} {v : Byte} (hk : w.2[k]? = some v) (ho : s.rowOn c ((w.1 + k) / 512) = true) : kget 0 ((writeRuns c ws s).core c).spm (w.1 + k) = v := by
  induction ws generalizing s with
  | nil => cases hw
  | cons x ws ih =>
    obtain ⟨hfirst, hrest⟩ := List.pairwise_cons.1 hrise
    rw [writeRuns, List.foldl_cons, ← writeRuns]
    obtain rfl | hw := List.mem_cons.1 hw
    · have hlt : k < w.2.length := (List.getElem?_eq_some_iff.1 hk).1
      rw [kget_writeRuns_out fun y hy => .inl (by have := hfirst y hy; omega), kget_spmWrite_in _ _ _ _ hk ho]
    · exact ih hrest hw (((rowsKept_spmWrite _ _).2 _).trans ho)

section
variable {a : Nat} {bs : List Byte} {t : State} (ht : coreSame Core.stored c (writeRuns c ws (spmWrite c a bs s)) t)
include ht

/-- A run that no later one touches is read back after them. -/
theorem spmHolds_beforeRuns (hout : ∀ k < bs.length, ∀ w ∈ ws, a + k < w.1 ∨ w.1 + w.2.length ≤ a + k) : t.spmHolds c a bs := by
  intro k v hk ho
  have hon : s.rowOn c ((a + k) / 512) = true := ((((rowsKept_spmWrite a bs).trans coreSame_writeRuns.1).trans ht.1).2 _).symm.trans ho
  rw [State.spmByte, if_pos ho, ht.spm, kget_writeRuns_out (hout k (List.getElem?_eq_some_iff.1 hk).1), kget_spmWrite_in _ _ _ _ hk hon]

theorem spmHolds_run (hrise : ws.Pairwise (fun x y => x.1 + x.2.length ≤ y.1)) {w : Nat × List Byte} (hw : w ∈ ws) :
    t.spmHolds c w.1 w.2 := by
  intro k v hk ho
  rw [State.spmByte, if_pos ho, ht.spm, kget_writeRuns_in hrise hw hk (((coreSame_writeRuns.1.trans ht.1).2 _).symm.trans ho)]

theorem spmKept_noRuns (hws : ws = []) : spmKept c a bs.length s t := by
  subst hws
  intro b hb
  rw [ht.spm, writeRuns, List.foldl_nil, kget_spmWrite_out _ _ _ _ hb]
end

theorem mem_rowsOf {a n k : Nat} (h : k < n) : (a + k) / 512 ∈ rowsOf a n := by
  rw [rowsOf, if_neg (by omega)]
  exact List.mem_map.2 ⟨(a + k) / 512 - a / 512, List.mem_range.2 (by omega), by omega⟩
end

/-! ### What a drain reads (R140, R141) -/

/-- What a drain of bank `b` reads of its core. -/
def Core.drained (b : Nat) (k : Core) : KMap Byte × KMap RowState × KMap Elem × Int :=
  (k.spm, k.rows, (k.bank b).elems, (k.bank b).grid)

/-- The codes of a drain, row by row: 0 where the step has no result. -/
def State.drainCodes (s : State) (p fig : Nat) (o : DrainOp) (st : Option Step) : List Nat :=
  ((List.range o.count).map (o.first + ·)).flatMap (fun i => (List.range 128).map (fun j =>
    if s.drainsZero o.core st i j then 0 else (s.drainElem p fig o i j).1))

/-- The row scales of a drain on grid `g`, each at its row's place in the row-scale plane. -/
def drainScales (o : DrainOp) (g : Int) : List (Nat × List Byte) :=
  o.rsRow.elim [] (fun r => ((List.range o.count).map (o.first + ·)).map (fun i => (512 * r + 4 * i, leBytes 4 (toTwos 32 (g + 48)))))

theorem drawAt_congr {s t : State} (h : t.parts = s.parts) (p fig : Nat) (v : Conv) (list row col : Nat) :
    t.drawAt p fig v list row col = s.drawAt p fig v list row col := by
  have hpart : t.part p = s.part p := congrArg (fun m => kget Part.reset m p) h
  rw [State.drawAt, State.drawAt, hpart]

theorem drainValue_congr {a b : Bank} (helems : a.elems = b.elems) (hgrid : a.grid = b.grid) (i j : Nat) (mul rm : Num) :
    drainValue a i j mul rm = drainValue b i j mul rm := by
  rw [drainValue, drainValue, Bank.at, Bank.at, helems, hgrid]

section
variable {s t : State} {o : DrainOp} (h : coreSame (Core.drained o.bank) o.core s t)
include h

theorem drainsZero_congr (st : Option Step) (i j : Nat) : t.drainsZero o.core st i j = s.drainsZero o.core st i j := by
  have hrows : (t.core o.core).rows = (s.core o.core).rows := congrArg (fun x : KMap Byte × KMap RowState × KMap Elem × Int => x.2.1) h.2
  unfold State.drainsZero Core.row
  rw [hrows]

theorem drainElem_congr (hparts : t.parts = s.parts) (p fig i j : Nat) : t.drainElem p fig o i j = s.drainElem p fig o i j := by
  have hspm : coreSame Core.spm o.core s t := ⟨h.1, congrArg Prod.fst h.2⟩
  have helems : ((t.core o.core).bank o.bank).elems = ((s.core o.core).bank o.bank).elems := congrArg (·.2.2.1) h.2
  have hgrid : ((t.core o.core).bank o.bank).grid = ((s.core o.core).bank o.bank).grid := congrArg (·.2.2.2) h.2
  have hat : ((t.core o.core).bank o.bank).at i j = ((s.core o.core).bank o.bank).at i j := by rw [Bank.at, Bank.at, helems]
  have hf32 : t.spmF32 o.core = s.spmF32 o.core := funext fun a => funext (spmF32_congr hspm a)
  unfold State.drainElem
  dsimp only
  rw [hat, hgrid, hf32, drawAt_congr hparts, drainValue_congr helems hgrid]

theorem drainCodes_congr (hparts : t.parts = s.parts) (p fig : Nat) (st : Option Step) :
    t.drainCodes p fig o st = s.drainCodes p fig o st := by
  simp only [State.drainCodes, drainsZero_congr h, drainElem_congr h hparts]
end

/-! ### What a drain writes -/

/-- A drain writes its codes and then its row scales, and keeps its bank but for the rows found to fail parity. -/
theorem drainRun_writes (p fig : Nat) (o : DrainOp) (st : Option Step) (s : State) : ∃ t u, drainRun p fig o st s = .next t
    ∧ coreSame Core.spm o.core s u
    ∧ coreSame Core.stored o.core (writeRuns o.core (drainScales o (drainGrid st ((s.core o.core).bank o.bank)))
        (spmWrite o.core (512 * o.dstRow) (packCodes o.dst (s.drainCodes p fig o st)) u)) t
    ∧ coreSame (Core.values o.bank) o.core s t := by
  unfold drainRun
  extract_lets b0 s0 is es bytes rs wr s1 s2 s3
  have hbad {α : Type} {F : Core → α} (hF : ∀ v, F ((s.core o.core).setBank o.bank { b0 with bad := v }) = F (s.core o.core)) :
      coreSame F o.core s s0 := coreSame_modCore _ (Core.fenced_setBank _ _ _) (hF _)
  have hcodes : es.map (·.1) = s.drainCodes p fig o st := by
    rw [← drainCodes_congr (hbad (F := Core.drained o.bank)
      fun v => by simp only [Core.drained, Core.spm_setBank, Core.rows_setBank, Core.bank_setBank]; rfl) rfl]
    simp only [es, is, State.drainCodes, List.map_flatMap, List.map_map, Function.comp_def, apply_ite Prod.fst]
  have hscales : rs = drainScales o (drainGrid st ((s.core o.core).bank o.bank)) := by
    dsimp only [rs, drainScales]
    cases o.rsRow <;> rfl
  have hread : coreSame Core.stored o.core s0 s2 := (coreSame_touchRows _ _ _ _ _).trans (coreSame_detectBank _ _ _ _)
  have hvalues : coreSame (Core.values o.bank) o.core s s0 := hbad fun v => by rw [Core.values, Core.bank_setBank]; rfl
  clear_value es rs
  subst hscales
  refine ⟨_, s2, rfl, (hbad fun v => Core.spm_setBank _ _ _).trans ⟨hread.1, hread.spm⟩, ?_, ?_⟩
  · rw [← hcodes]
    exact coreSame_raise _ _
  · refine hvalues.trans (.values ?_ o.bank)
    exact ((hread.banks.trans (coreSame_spmWrite _ _)).trans coreSame_writeRuns).trans (coreSame_raise _ _).banks

/-- A drain that the loader admits and whose multipliers suit its row-scale plane runs as the tile program orders it. -/
theorem execAcmDrain_issued {s : State} {o : DrainOp} {p fig : Nat} (hi : s.issuing o.core o.slot = some (p, fig)) (hok : drainOk o = true)
    (hmul : s.rsMulOk o = true) : exec (.acmDrain o) s = ordered (s.admitDrain o) (drainRun p fig o) s := by
  show execAcmDrain o s = _
  simp [execAcmDrain, hi, hok, hmul]

theorem execAcmDrain_refused {s : State} {o : DrainOp} {p fig : Nat} (hi : s.issuing o.core o.slot = some (p, fig))
    (hmul : s.rsMulOk o = false) : exec (.acmDrain o) s = .next s := by
  show execAcmDrain o s = _
  simp [execAcmDrain, hi, hmul]

theorem drainOk_rows {o : DrainOp} (h : drainOk o = true) : o.first + o.count ≤ 128 := by
  simp only [drainOk, Bool.and_eq_true, decide_eq_true_eq] at h
  exact h.1.2

/-! ### Where the row scales lie -/

section
variable {o : DrainOp} {g : Int} {r : Nat} (hr : o.rsRow = some r)
include hr

theorem mem_drainScales {w : Nat × List Byte} : w ∈ drainScales o g ↔
    ∃ i < o.count, w = (512 * r + 4 * (o.first + i), leBytes 4 (toTwos 32 (g + 48))) := by
  simp [drainScales, hr, eq_comm]

theorem drainScales_rise : (drainScales o g).Pairwise (fun x y => x.1 + x.2.length ≤ y.1) := by
  simp only [drainScales, hr, Option.elim_some, List.map_map, List.pairwise_map]
  refine List.pairwise_lt_range.imp fun {i j} hij => ?_
  simp only [Function.comp_apply, leBytes_length]
  omega

/-- Every row scale lies in the plane's row. -/
theorem drainScales_inRow (hok : drainOk o = true) {b : Nat} (hb : b / 512 ≠ r) :
    ∀ w ∈ drainScales o g, b < w.1 ∨ w.1 + w.2.length ≤ b := by
  intro w hw
  obtain ⟨i, hi, rfl⟩ := (mem_drainScales hr).1 hw
  have hlast := drainOk_rows hok
  dsimp only
  rw [leBytes_length]
  omega
end

theorem drainScales_none {o : DrainOp} (hr : o.rsRow = none) (g : Int) : drainScales o g = [] := by rw [drainScales, hr]; rfl

/-! ### The obligation -/

/-- Settles O18: the drain's runs read back, the row scales lying in another row or having one of their own place each. -/
theorem acmDrains : Obligations.AcmDrains := by
  unfold Obligations.AcmDrains
  intro s o p fig hi hok
  refine ⟨fun hno => ⟨s, ?_, rfl⟩, fun st u hmul hruns => ?_⟩
  · cases hmul : s.rsMulOk o with
    | false => exact execAcmDrain_refused hi hmul
    | true => exact (execAcmDrain_issued hi hok hmul).trans (ordered_none (hno.resolve_left (by simp [hmul])))
  have hmoved : SlotMoved o.core s u := slotMoved_runs hruns
  obtain ⟨t, v, ht, hv, hwritten, hvalues⟩ := drainRun_writes p fig o st u
  rw [hmoved.bank, drainCodes_congr (hmoved.same fun _ _ => rfl) hmoved.parts] at hwritten
  have hkept : coreSame (Core.values o.bank) o.core s t := (hmoved.same fun _ _ => rfl).trans hvalues
  obtain ⟨helems, hgrid, hsat⟩ : ((t.core o.core).bank o.bank).elems = ((s.core o.core).bank o.bank).elems
      ∧ ((t.core o.core).bank o.bank).grid = ((s.core o.core).bank o.bank).grid
      ∧ ((t.core o.core).bank o.bank).sat = ((s.core o.core).bank o.bank).sat := by simpa [Core.values] using hkept.2
  have hread : coreSame Core.spm o.core s v := (hmoved.same fun _ _ => rfl).trans hv
  refine ⟨t, ((execAcmDrain_issued hi hok hmul).trans (ordered_some hruns)).trans ht, fun hplane => ?_, fun r i hr hlt => ?_,
    fun hr b hb => ?_, helems, hgrid, hsat, hkept.others⟩
  · refine spmHolds_beforeRuns hwritten fun k hk => ?_
    obtain hr | ⟨r, hr, hnot⟩ := hplane
    · simp [drainScales_none hr]
    · exact drainScales_inRow hr hok fun e => hnot (e ▸ mem_rowsOf hk)
  · exact spmHolds_run hwritten (drainScales_rise hr) ((mem_drainScales hr).2 ⟨i, hlt, rfl⟩)
  · exact (spmKept_noRuns hwritten (drainScales_none hr _) b hb).trans (congrArg (kget 0 · b) hread.2)

end Sys2Proof.Machine
end

section
/-! PROOF. ROPE (R162) and SPLIT (R146, R147): a pair turned, and the K-steps of a split slab as runs of bytes written one after another,
each from where the one before it ends. -/

namespace Sys2Proof.Machine

/-! ### Writes as runs of bytes -/

section
variable {α : Type} {s t : State} {c : Nat}

/-- A write to two states that store the same in core `c` stores the same. -/
theorem spmWrite_congr (h : coreSame Core.stored c s t) (a : Nat) (bs : List Byte) :
    coreSame Core.stored c (spmWrite c a bs s) (spmWrite c a bs t) := by
  have hon (u : State) : (spmWrite c a bs u).rowOn c = u.rowOn c := funext (rowsKept_spmWrite a bs).2
  have hother (u : State) : othersSame c u (spmWrite c a bs u) := (rowsKept_spmWrite a bs).1
  have hrows : t.rowOn c = s.rowOn c := funext h.1.2
  have hbanks : (t.core c).banks = (s.core c).banks := h.banks.2
  refine ⟨⟨fun k hk => ?_, congrFun ?_⟩, Prod.ext ?_ ?_⟩
  · rw [hother t k hk, hother s k hk, h.others k hk]
  · rw [hon, hon, hrows]
  · rw [Core.stored, Core.stored, spm_spmWrite_eq, spm_spmWrite_eq, hrows, h.spm]
  · exact ((coreSame_spmWrite a bs).2.trans hbanks).trans (coreSame_spmWrite a bs).2.symm

/-- Steps of which each writes one run of bytes store what the runs store. -/
theorem coreSame_foldl_writeRuns {f : State → α → State} {w : α → Nat × List Byte}
    (hf : ∀ u x, coreSame Core.stored c (spmWrite c (w x).1 (w x).2 u) (f u x)) (l : List α) (h : coreSame Core.stored c s t) :
    coreSame Core.stored c (writeRuns c (l.map w) s) (l.foldl f t) := by
  induction l generalizing s t with
  | nil => exact h
  | cons x l ih => exact ih ((spmWrite_congr h _ _).trans (hf t x))
end

/-! ### The K-steps of a slab (R127, R146, R147) -/

/-- The runs of bytes of a slab written from row `dst`: K-step by K-step. -/
def slabRuns (dst n : Nat) (slab : List (List Aligned)) : List (Nat × List Byte) :=
  slab.zipIdx.map (fun x => (512 * (dst + splitRows n * x.2), splitBytes n x.1))

/-- The tags beside a split slab are no stored bytes. -/
theorem writeSplit_runs (c dst n : Nat) (slab : List (List Aligned)) (s : State) :
    coreSame Core.stored c (writeRuns c (slabRuns dst n slab) s) (writeSplit c dst n slab s) :=
  coreSame_foldl_writeRuns (fun _ _ => coreSame_modCore _ rfl rfl) _ .refl

theorem mem_slabRuns {dst n : Nat} {slab : List (List Aligned)} {w : Nat × List Byte} : w ∈ slabRuns dst n slab ↔
    ∃ st l, slab[st]? = some l ∧ w = (512 * (dst + splitRows n * st), splitBytes n l) := by
  simp only [slabRuns, List.mem_map, Prod.exists, List.mem_zipIdx_iff_getElem?, eq_comm (a := w)]
  exact exists_comm

theorem alignGroup_length (n : Nat) (vs : List Num) : (alignGroup n vs).q.length = vs.length := by simp [alignGroup]

/-- A K-step fills its rows: `n` planes of 128 × 32 bytes, the exponents and the padding. -/
theorem splitBytes_length {n : Nat} {gs : List Aligned} (hgs : gs.length = 128) (hq : ∀ g ∈ gs, g.q.length = 32) :
    (splitBytes n gs).length = 512 * splitRows n := by
  have hplane : (gs.map (fun g => g.q.length)).sum = 4096 := by
    rw [List.map_congr_left hq, List.map_const', List.sum_replicate, hgs]
    rfl
  simp only [splitBytes, splitRows, List.length_append, List.length_flatMap, List.length_map, List.length_replicate, leBytes_length,
    hplane, List.map_const', List.sum_replicate, List.length_range, hgs, smul_eq_mul]
  omega

section
variable {dst n steps : Nat} {f : Nat → Nat → Num}

theorem splitBytes_slabOf_length {l : List Aligned} (hl : l ∈ slabOf n steps f) : (splitBytes n l).length = 512 * splitRows n := by
  obtain ⟨st, -, rfl⟩ := List.mem_map.1 hl
  refine splitBytes_length (by simp) fun g hg => ?_
  obtain ⟨m, -, rfl⟩ := List.mem_map.1 hg
  simp [alignGroup_length]

theorem slabRuns_rise : (slabRuns dst n (slabOf n steps f)).Pairwise (fun x y => x.1 + x.2.length ≤ y.1) := by
  rw [slabRuns, List.pairwise_map, List.pairwise_iff_getElem]
  intro i j hi hj hij
  simp only [List.getElem_zipIdx, Nat.zero_add, splitBytes_slabOf_length (List.getElem_mem _)]
  have hnext : splitRows n * (i + 1) ≤ splitRows n * j := Nat.mul_le_mul_left _ hij
  rw [Nat.mul_succ] at hnext
  omega

/-- The runs lie in the rows of the slab's K-steps. -/
theorem slabRuns_inRows {b : Nat} (hb : b < 512 * dst ∨ 512 * dst + 512 * (splitRows n * steps) ≤ b) :
    ∀ w ∈ slabRuns dst n (slabOf n steps f), b < w.1 ∨ w.1 + w.2.length ≤ b := by
  intro w hw
  obtain ⟨st, l, hl, rfl⟩ := mem_slabRuns.1 hw
  have hst : st + 1 ≤ steps := by simpa [slabOf] using (List.getElem?_eq_some_iff.1 hl).1
  have hlast : splitRows n * st + splitRows n ≤ splitRows n * steps := Nat.mul_le_mul_left (splitRows n) hst
  dsimp only
  rw [splitBytes_slabOf_length (List.mem_of_getElem? hl)]
  omega
end

/-! ### The two operations -/

/-- The slab of a SPLIT: its source's elements, aligned 32 by 32. -/
def State.vuSplitSlab (s : State) (o : SplitOp) (n : Nat) : List (List Aligned) :=
  slabOf n o.groups (fun m k => s.spmVal o.core o.fmt o.srcRow (m * (32 * o.groups) + k) 0)

section
variable {s : State} {p fig : Nat}

/-- A ROPE from its rows' position writes the converted rows as one run of bytes. -/
theorem execRope_wrote {o : RopeOp} (hi : s.issuing o.core o.slot = some (p, fig)) (hok : s.ropeOk o = true) :
    ∃ t, exec (.rope o) s = .next t ∧ Wrote o.core (512 * o.dstRow)
      (packCodes o.dstFmt ((List.range o.rows).flatMap (fun i => (s.ropeRow p fig o i).1))) s t := by
  have hwho : s.who o.core o.slot = (p, fig) := by rw [State.who, hi, Option.getD_some]
  have hrope : exec (.rope o) s = execRope o s := rfl
  rw [hrope, execRope, hok, hwho]
  simp only [Bool.not_true, Bool.false_eq_true, if_false, List.flatMap_map]
  exact vuApply_wrote hi _ _ _ _

/-- A SPLIT stores, between the touch of its rows and its flags, the runs of its slab. -/
theorem execVuSplit_runs {o : SplitOp} {n : Nat} (hi : s.issuing o.core o.slot = some (p, fig)) (hn : piecesOf o.fmt = some n) :
    ∃ u t, exec (.vuSplit o) s = .next t ∧ coreSame Core.stored o.core s u
      ∧ coreSame Core.stored o.core (writeRuns o.core (slabRuns o.dstRow n (s.vuSplitSlab o n)) u) t := by
  have hsplit : exec (.vuSplit o) s = execVuSplit o s := rfl
  rw [hsplit]
  simp only [execVuSplit, hi, hn]
  exact ⟨_, _, rfl, coreSame_touchRows _ _ _ _ _, (writeSplit_runs _ _ _ _ _).trans (coreSame_raise _ _)⟩
end

/-! ### The obligation -/

/-- Settles O21: ROPE by the one run of bytes it writes, SPLIT by its K-steps, which rise row by row without overlap. -/
theorem ropeAndSplit : Obligations.RopeAndSplit := by
  unfold Obligations.RopeAndSplit
  refine ⟨fun a b co si => ⟨rfl, rfl⟩, fun s o p fig hi hok => ?_, fun s o p fig n hi hn => ?_⟩
  · obtain ⟨t, ht, hw⟩ := execRope_wrote hi hok
    obtain ⟨h0, h1⟩ := Prod.mk.inj hw.same.2
    exact ⟨t, ht, hw.holds, hw.kept, h0, h1, hw.same.others⟩
  · obtain ⟨u, t, ht, hread, hwritten⟩ := execVuSplit_runs hi hn
    have hbanks : coreSame Core.banks o.core s t := (hread.banks.trans coreSame_writeRuns).trans hwritten.banks
    refine ⟨t, ht, fun st l hl k v hk ho => ?_, fun b hb => ?_, hbanks.others⟩
    · have hon := ((coreSame_writeRuns.1.trans hwritten.1).2 _).symm.trans ho
      rw [State.spmByte, if_pos ho, hwritten.spm]
      exact kget_writeRuns_in slabRuns_rise (mem_slabRuns.2 ⟨st, l, hl, rfl⟩) hk hon
    · rw [hwritten.spm]
      exact (kget_writeRuns_out (slabRuns_inRows hb)).trans (congrArg (kget 0 · b) hread.spm)

end Sys2Proof.Machine
end

section
/-! PROOF. The phases of a Figure in progress (R193, R246, R265, R272, R273): each updates the Figure's record, and the second phase of a
backward Figure frees its later counters. -/

namespace Sys2Proof.Machine

section
variable {s : State} {p fig : Nat} {a : RunFig} {f : Figure}

/-! ### The record of a Figure in progress -/

theorem Part.parOf_of_figure {q : Part} {i : Nat} (h : q.figure i = some f) : q.parOf i = some f.par := by rw [Part.parOf, h]

theorem modActive_active (g : RunFig → RunFig) (hg : ∀ x, (g x).fig = x.fig) (ha : (s.part p).active fig = some a) :
    ((modActive p fig g s).part p).active fig = some (g a) := by rw [active_modActive s p fig hg, ha, Option.map_some]

theorem clearClms_part (l : List Nat) (s : State) (j : Nat) : (clearClms l s).part j = s.part j :=
  part_of_parts (same_of_mask (w := 0x80#38) (clearClms_mask (by decide) l s) .parts (by decide)) j

/-! ### Second phases (R193, R265) -/

theorem execBackwardPhaseStart_starts {x : AttnParams} {y : BwdExt} (ha : (s.part p).active fig = some a)
    (hf : (s.part p).figure a.fig = some f) (hpar : f.par = .backward x y) (hab : a.aborting = none) (hphase : a.phase = 0)
    (hwrites : a.noWrite = false) (hdone : a.firstDone = true) : execBackwardPhaseStart p fig s
      = .next (clearClms (a.clms.drop 1) (modActive p fig (fun a => { a with phase := 1 }) s)) := by
  rw [execBackwardPhaseStart, ha]
  simp only [Part.parOf_of_figure hf, hpar, hab, hphase, hwrites, hdone]
  rfl

theorem execMergePhaseStart_starts {x : AttnParams} {y : DecExt} (ha : (s.part p).active fig = some a)
    (hf : (s.part p).figure a.fig = some f) (hpar : f.par = .decode x y) (hbucket : y.bucket = false) (hab : a.aborting = none)
    (hphase : a.phase = 0) (hwrites : a.noWrite = false) (hdone : a.firstDone = true) :
    execMergePhaseStart p fig s = .next (modActive p fig (fun a => { a with phase := 1 }) s) := by
  rw [execMergePhaseStart, ha]
  simp only [Part.parOf_of_figure hf, hpar, hbucket, hab, hphase, hwrites, hdone]
  rfl

/-! ### Buckets (R272 to R274) -/

/-- The record of a Figure whose next bucket starts: the clocks are those of the bucket before. -/
def RunFig.nextBucket (clocks : Nat) (assign : List (Nat × Nat)) (a : RunFig) : RunFig :=
  { closeBucket a clocks with bucketNow := a.bucketNow + 1, assign := assign }

theorem closeBucket_eq (a : RunFig) (clocks : Nat) : ∃ l, closeBucket a clocks = { a with bucketRecs := l } := by
  unfold closeBucket
  split
  · split <;> exact ⟨_, rfl⟩
  · exact ⟨_, rfl⟩

theorem RunFig.nextBucket_eq (clocks : Nat) (assign : List (Nat × Nat)) (a : RunFig) :
    ∃ l, a.nextBucket clocks assign = { a with bucketRecs := l, bucketNow := a.bucketNow + 1, assign := assign } := by
  obtain ⟨l, hl⟩ := closeBucket_eq a clocks
  exact ⟨l, by rw [nextBucket, hl]⟩

theorem RunFig.nextBucket_fig (clocks : Nat) (assign : List (Nat × Nat)) (a : RunFig) : (a.nextBucket clocks assign).fig = a.fig := by
  obtain ⟨l, hl⟩ := a.nextBucket_eq clocks assign
  rw [hl]

theorem execBucketStart_starts {b : BucketRun} (ha : (s.part p).active fig = some a) (hf : (s.part p).figure a.fig = some f)
    (hab : a.aborting = none) (hb : a.buckets[a.bucketNow]? = some b) (hdone : a.bucketDone = true) (hstored : s.storing p fig = false)
    (happ : appendsDone f a 1 = true) : execBucketStart p fig s
      = .next (modActive p fig (RunFig.nextBucket (Config.freeWord s.free).toNat (assignBucket (s.figHealthy p f.hdr) b))
        (if 0 < a.bucketNow then s.draw else s)) := by
  rw [execBucketStart, ha]
  simp only [hb, hf, hab, hdone, hstored, happ]
  rfl

/-! ### Appends (R246) -/

theorem execAppendPhase_lists (ha : (s.part p).active fig = some a) (hf : (s.part p).figure a.fig = some f) (hab : a.aborting = none)
    (hdue : if f.hdr.append = 1 then a.committed = [] ∧ ∀ k ∈ a.clms, (s.clm k).next = 0 else f.hdr.append = 2 ∧ a.total ≤ a.retired)
    (happ : a.appended = false) (hwrites : a.noWrite = false) : execAppendPhase p fig s
      = .next (modActive p fig (fun x => { x with appended := true, appendLeft := appendsOf f a }) s) := by
  have hdue' : (if f.hdr.append = 1 then a.committed.isEmpty && a.clms.all (fun k => (s.clm k).next == 0)
      else decide (f.hdr.append = 2) && decide (a.total ≤ a.retired)) = true := by
    split at hdue <;> simp_all
  rw [execAppendPhase, ha]
  simp only [hf, hdue', happ, hwrites, hab]
  rfl
end

/-! ### The obligation -/

/-- Settles O14: each phase by the one update of the Figure's record that it makes. -/
theorem figurePhases : Obligations.FigurePhases := by
  unfold Obligations.FigurePhases
  intro s p fig a f ha hf hab
  refine ⟨fun x y hpar hphase hw hdone => ?_, fun x y hpar hbucket hphase hw hdone => ?_, fun b hb hdone hstored happ => ?_,
    fun hdue happ hw => ?_⟩
  · refine ⟨_, execBackwardPhaseStart_starts ha hf hpar hab hphase hw hdone, ?_, clearClms_clm _ _⟩
    rw [clearClms_part]
    exact modActive_active _ (fun _ => rfl) ha
  · exact ⟨_, execMergePhaseStart_starts ha hf hpar hbucket hab hphase hw hdone, modActive_active _ (fun _ => rfl) ha⟩
  · have hdrawn : ((if 0 < a.bucketNow then s.draw else s).part p).active fig = some a := by split <;> exact ha
    obtain ⟨l, hl⟩ := a.nextBucket_eq (Config.freeWord s.free).toNat (assignBucket (s.figHealthy p f.hdr) b)
    refine ⟨_, execBucketStart_starts ha hf hab hb hdone hstored happ, _, modActive_active _ (RunFig.nextBucket_fig _ _) hdrawn, ?_⟩
    rw [hl]
    exact ⟨rfl, rfl, rfl⟩
  · exact ⟨_, execAppendPhase_lists ha hf hab hdue happ hw, modActive_active _ (fun _ => rfl) ha⟩

end Sys2Proof.Machine
end

section
/-! PROOF. The control operations of a Figure in progress (R221, R247, R327): the step of a state record, the lengths that a batch commits,
and the region that is to be loaded again. -/

namespace Sys2Proof.Machine

/-! ### The step of a state record (R221) -/

section
variable {x : StepState}

/-- The record after a step with a clear vote, but for the growth of LOSS. -/
def StepState.advanced (x : StepState) : StepState :=
  { x with
    t := x.t + 1
    p1 := (vu32 .mul false x.p1 x.b1 Num.zero).1
    p2 := (vu32 .mul false x.p2 x.b2 Num.zero).1
    good := (x.good + 1) % 2 ^ 32 }

theorem scaleStep_grows (h : x.growth ≠ 0 ∧ (x.good + 1) % 2 ^ 32 = x.growth) : scaleStep true x
    = { x.advanced with loss := if numLe (x.loss.scale 1) x.hi then x.loss.scale 1 else x.hi, good := 0 } := if_pos h

theorem scaleStep_counts (h : ¬ (x.growth ≠ 0 ∧ (x.good + 1) % 2 ^ 32 = x.growth)) : scaleStep true x = x.advanced := if_neg h

theorem scaleStep_advances : (scaleStep true x).t = x.advanced.t ∧ (scaleStep true x).p1 = x.advanced.p1
    ∧ (scaleStep true x).p2 = x.advanced.p2 := by
  by_cases h : x.growth ≠ 0 ∧ (x.good + 1) % 2 ^ 32 = x.growth
  · rw [scaleStep_grows h]; exact ⟨rfl, rfl, rfl⟩
  · rw [scaleStep_counts h]; exact ⟨rfl, rfl, rfl⟩

theorem scaleStep_halves : scaleStep false x
    = { x with loss := if numLe x.lo (x.loss.scale (-1)) then x.loss.scale (-1) else x.lo, good := 0 } := rfl
end

/-! ### The operations -/

section
variable {s : State} {p fig : Nat} {a : RunFig} {f : Figure} {c : Chor}

/-- The Figure's one operation is done. -/
def markOpDone (p fig : Nat) (s : State) : State := modActive p fig (fun a => { a with opDone := true }) s

theorem markOpDone_active (ha : (s.part p).active fig = some a) :
    ((markOpDone p fig s).part p).active fig = some { a with opDone := true } :=
  modActive_active _ (fun _ => rfl) ha

theorem execScaleStep_steps {va : Nat} {bs : List Byte} (ha : (s.part p).active fig = some a) (hc : (s.part p).chor = some c)
    (hf : (s.part p).figure a.fig = some f) (hab : a.aborting = none) (hop : a.opDone = false) (hpar : f.par = .scaleStep va)
    (hbs : s.table p va 40 = some bs) (hv : (governing c f.hdr).any (·.latched) = true) : execScaleStep p fig s
      = .next (markOpDone p fig
          (if clearFor c f.hdr = true ∧ 2 ^ 32 - 1 ≤ (StepState.ofBytes bs).t then postEvent p 0x17 (payloadOf fig 0 0) s
           else writeVa p false va (scaleStep (clearFor c f.hdr) (StepState.ofBytes bs)).bytes s)) := by
  rw [execScaleStep, ha, hc]
  simp only [hf, hpar, hop, hab, hv, hbs, Bool.and_eq_true, decide_eq_true_eq]
  by_cases h : clearFor c f.hdr = true ∧ 2 ^ 32 - 1 ≤ (StepState.ofBytes bs).t
  · rw [if_pos h, if_pos h]; rfl
  · rw [if_neg h, if_neg h]; rfl

/-- LEN after a commit of `k` tokens (R247). -/
def Seq.commit (k : Nat) (d : Seq) : Seq := { d with len := max d.len (min (d.len + k) d.resEnd) }

theorem execKvCommit_commits {va k : Nat} {i : BitVec 20} (ha : (s.part p).active fig = some a) (hf : (s.part p).figure a.fig = some f)
    (hab : a.aborting = none) (hop : a.opDone = false) (hpar : f.par = .kvCommit va)
    (hres : (s.part p).reserved = [⟨va, [(i, k, true)]⟩]) (hlive : s.seqLive p i = true) :
    execKvCommit p fig s = .next (markOpDone p fig (s.modSeq (seqSlot i) (Seq.commit k))) := by
  rw [execKvCommit, ha]
  simp only [Part.parOf_of_figure hf, hpar, hop, hab, hres, List.find?_cons, decide_true, List.foldl_cons, List.foldl_nil, hlive]
  rfl

theorem execResReload_empties {id : Nat} (ha : (s.part p).active fig = some a) (hf : (s.part p).figure a.fig = some f)
    (hab : a.aborting = none) (hop : a.opDone = false) (hpar : f.par = .resReload id) : execResReload p fig s
      = .next (markOpDone p fig (s.modPart p (fun q => { q with
          residents := q.residents.map (fun r => if r.resId = id then { r with valid := false } else r) }))) := by
  rw [execResReload, ha]
  simp only [Part.parOf_of_figure hf, hpar, hop, hab]
  rfl

theorem modActive_residents (g : RunFig → RunFig) : ((modActive p fig g s).part p).residents = (s.part p).residents := by
  rw [modActive, State.part_modPart_same]
  split <;> rfl
end

/-! ### The obligation -/

/-- Settles O15: the record by the cases of its step, and each operation by what it leaves. -/
theorem controlOperations : Obligations.ControlOperations := by
  unfold Obligations.ControlOperations
  refine ⟨fun x => ⟨?_, ?_⟩, fun s p fig a f c ha hc hf hab hop => ⟨fun va bs hpar hbs hv => ?_,
    fun va i k hpar hres hlive => ?_, fun id hpar => ?_⟩⟩
  · obtain ⟨ht, h1, h2⟩ := scaleStep_advances (x := x)
    refine ⟨ht, h1, h2, fun h => ?_, fun h => ?_⟩
    · rw [scaleStep_grows h]; exact ⟨rfl, rfl⟩
    · rw [scaleStep_counts h]; exact ⟨rfl, rfl⟩
  · rw [scaleStep_halves]
    exact ⟨rfl, rfl, rfl, rfl, rfl⟩
  · exact ⟨_, execScaleStep_steps ha hc hf hab hop hpar hbs hv, rfl⟩
  · refine ⟨_, execKvCommit_commits ha hf hab hop hpar hres hlive, markOpDone_active ha, ?_, fun j hj => ?_⟩
    · exact State.seq_modSeq_same s (seqSlot i) (Seq.commit k)
    · exact State.seq_modSeq_other s (seqSlot i) (Seq.commit k) hj
  · refine ⟨_, execResReload_empties ha hf hab hop hpar, markOpDone_active ?_, ?_⟩
    · rw [State.part_modPart_same]
      exact ha
    · rw [markOpDone, modActive_residents, State.part_modPart_same]

end Sys2Proof.Machine
end

section
/-! PROOF. OPT_ADAM (R213, R214): the new parameters, or with compensation the new terms, are the last of the runs that it writes. -/

namespace Sys2Proof.Machine

section
variable {s : State} {p fig : Nat} {o : AdamOp} {q : OptParams} {bs : List Byte} {gf tfm : Fmt} {tf : FloatFmt}

/-- Of the runs that an operation writes, the last one lies where it was written. -/
theorem vuApply_last {c i : Nat} (h : s.issuing c i = some (p, fig)) (rd : List Nat) (ws : List (Nat × List Byte)) (w : Nat × List Byte)
    (fl : Flags) : ∃ t, vuApply c i rd (ws ++ [w]) fl s = .next t ∧ t.spmHolds c w.1 w.2 ∧ coreSame Core.banks c s t := by
  have hlast (u : State) : Wrote c w.1 w.2 u (raise c i fl (spmWrite c w.1 w.2 u)) := .of_spmWrite .refl (coreSame_raise i fl)
  simp only [vuApply, h, List.foldl_append, List.foldl_cons, List.foldl_nil]
  exact ⟨_, rfl, (hlast _).holds, ((coreSame_touchRows _ _ _ _ _).banks.trans coreSame_writeRuns).trans (hlast _).same⟩

/-- Element `i` of the run, from the Figure's record `bs` and what lies in the Scratchpad. -/
def State.adamAt (s : State) (o : AdamOp) (q : OptParams) (bs : List Byte) (gf tfm : Fmt) (tf : FloatFmt) (i : Nat) :
    Num × Num × Num × Num × Flags :=
  adamElem q (adamConst q (StepState.ofBytes bs)) tf (s.spmVal o.core gf o.gRow i o.gRs)
    (s.spmElem o.core .bs8 o.mRow o.mSc o.count 0 0 i) (s.spmElem o.core .bs8 o.rRow o.rSc o.count 0 0 i)
    (s.spmVal o.core tfm o.thRow i 0) (s.spmVal o.core .bf16 o.cRow i 0)

/-- The last run that OPT_ADAM writes: the compensation terms, or without compensation the parameters. -/
def State.adamLast (s : State) (o : AdamOp) (q : OptParams) (bs : List Byte) (gf tfm : Fmt) (tf : FloatFmt) : Nat × List Byte :=
  let el := s.adamAt o q bs gf tfm tf
  if q.comp then (512 * o.cRow, packCodes .bf16 ((List.range o.count).map (fun i => fBF16.encode (el i).2.2.2.1)))
  else (512 * o.thRow, packCodes tfm ((List.range o.count).map (fun i => tf.encode (el i).2.2.1)))

theorem adamLast_comp (h : q.comp = true) :
    s.adamLast o q bs gf tfm tf = (512 * o.cRow, packCodes .bf16 ((List.range o.count).map (fun i =>
      fBF16.encode (s.adamAt o q bs gf tfm tf i).2.2.2.1))) := if_pos h

theorem adamLast_plain (h : q.comp = false) :
    s.adamLast o q bs gf tfm tf = (512 * o.thRow, packCodes tfm ((List.range o.count).map (fun i =>
      tf.encode (s.adamAt o q bs gf tfm tf i).2.2.1))) := if_neg (by simp [h])

theorem execOptAdam_last {a : RunFig} {f : Figure} (hi : s.issuing o.core o.slot = some (p, fig))
    (ha : (s.part p).active fig = some a) (hf : (s.part p).figure a.fig = some f) (hpar : f.par = .optimiser q)
    (hbs : s.readVa p (q.stateBase % 2 ^ 52) 40 = .ok bs) (hgf : fmtOf q.gFmt = some gf) (htfm : fmtOf q.thetaFmt = some tfm)
    (htf : vuFmt tfm = some tf) : ∃ rd ws fl, execOptAdam o s
      = vuApply o.core o.slot rd (ws ++ [s.adamLast o q bs gf tfm tf]) fl s := by
  have hwho : s.who o.core o.slot = (p, fig) := by rw [State.who, hi, Option.getD_some]
  rw [execOptAdam, hwho]
  simp only [ha, Option.bind_some, hf, hpar, hbs, hgf, htfm, htf, List.map_map]
  unfold State.adamLast
  split
  · exact ⟨_, _, _, rfl⟩
  · exact ⟨_, [_, _, _, _], _, rfl⟩
end

/-! ### The obligation -/

/-- Settles O23: the last run written is read back, and the runs leave the banks and the other cores. -/
theorem optAdamRuns : Obligations.OptAdamRuns := by
  unfold Obligations.OptAdamRuns
  intro s o p fig a f q bs gf tfm tf hi ha hf hpar hbs hgf htfm htf
  obtain ⟨rd, ws, fl, hrun⟩ := execOptAdam_last hi ha hf hpar hbs hgf htfm htf
  obtain ⟨t, ht, hholds, hsame⟩ := vuApply_last hi rd ws _ fl
  obtain ⟨h0, h1⟩ := Prod.mk.inj hsame.2
  refine ⟨t, hrun.trans ht, fun hcomp => ?_, fun hcomp => ?_, h0, h1, hsame.others⟩
  · rw [adamLast_plain hcomp] at hholds
    exact hholds
  · rw [adamLast_comp hcomp] at hholds
    exact hholds

end Sys2Proof.Machine
end

section
/-! PROOF. Stores that a detection holds back (R209, R324, R557), and the lookup whose STB entry fails its parity (R389, R390, R558): the
entry leaves, CACHE_PAR counts it, and the walk that starts is the one of a miss. -/

namespace Sys2Proof.Machine

/-! ### Stores held back (R209, R324) -/

section
variable {s : State}

theorem storesOpen_detected {m : Stream} {a : RunFig} (ha : (s.part m.part).active m.fig = some a)
    (h : (s.core m.core).poisoned = true ∨ a.aborting.isSome = true) : s.storesOpen m = false := by
  rw [State.storesOpen, ha]
  dsimp only
  split
  · rfl
  · obtain h | h := h
    · simp [h]
    · simp [Option.isSome_iff_ne_none.1 h]

theorem execStreamAccess_heldBack {i : Nat} (va : VA) (bytes tile spmByte scByte : Nat) (h : s.storesOpen (s.stream i) = false) :
    execStreamAccess i va bytes true tile spmByte scByte s = .next s := by
  rw [execStreamAccess, if_pos (by simp [h])]
end

/-! ### An entry dropped, a lookup counted (R409, R558) -/

/-- The translations that a Set holds and its walks. -/
def SetUnits.lookups (u : SetUnits) : List TlbEntry × List Walk := (u.stb, u.walks)

section
variable (s : State) (k : Nat) (e : TlbEntry)

theorem unit_of_sets {s t : State} (h : t.sets = s.sets) (k : Nat) : t.unit k = s.unit k := by rw [State.unit, State.unit, h]

theorem stream_of_streams {s t : State} (h : t.streams = s.streams) (i : Nat) : t.stream i = s.stream i := by
  rw [State.stream, State.stream, h]

theorem ite_satOwned_unit (b : Bool) (p : Option Nat) (off : Nat) : (if b then satOwned p off s else s).unit k = s.unit k := by
  cases b
  · rfl
  · exact unit_of_sets (same_of_mask (satOwned_mask (w := 0x700010#38) (by decide) p off s) .sets (by decide)) k

theorem trCount_lookups (n : Nat) : ((trCount k n s).unit k).lookups = (s.unit k).lookups := by
  simp only [trCount, ite_satOwned_unit, State.unit_setUnit_same]
  rfl

theorem dropStb_lookups : ((dropStb k e s).unit k).lookups = ((s.unit k).stb.erase e, (s.unit k).walks) := by
  have hcount (t : State) : (blkCount 1 t).unit k = t.unit k :=
    unit_of_sets (same_of_mask (blkCount_mask (w := 0x4700010#38) (by decide) 1 t) .sets (by decide)) k
  have hdrop (t : State) : (dropEntries [e] t).unit k = t.unit k :=
    unit_of_sets (same_of_mask (dropEntries_mask (w := 0x10#38) (by decide) [e] t) .sets (by decide)) k
  rw [dropStb, hcount, hdrop, State.unit_modUnit_same]
  rfl

theorem blkCount_cachePar : (blkCount 1 s).blk.cachePar = min 0xFFFF (s.blk.cachePar + 1) := by
  simp only [blkCount, ite_satAll_blk]
  exact satAdd_fst 16 s.blk.cachePar 1

theorem dropStb_cachePar : (dropStb k e s).blk.cachePar = min 0xFFFF (s.blk.cachePar + 1) := by
  have hdrop : (dropEntries [e] (s.modUnit k (fun u => { u with stb := u.stb.erase e }))).blk = s.blk :=
    same_of_mask (dropEntries_mask (w := 0x10#38) (by decide) [e] _) .blk (by decide)
  rw [dropStb, blkCount_cachePar, hdrop]
end

/-! ### A walk that starts (R389, R390) -/

section
variable {s : State} {k i : Nat}

theorem joinWalk_starts {p page : Nat} {second : Bool} (hroom : (s.unit k).walks.length < 16)
    (hnew : ∀ w ∈ (s.unit k).walks, ¬ (w.part = p ∧ w.page = page ∧ w.second = second)) : joinWalk k p page i second s
      = some (s.setUnit k { s.unit k with walks := (s.unit k).walks ++ [⟨p, page, [i], second, false⟩] }) := by
  have hnone : (s.unit k).walks.any (fun w => decide (w.part = p) && decide (w.page = page) && w.second == second) = false := by
    rw [List.any_eq_false]
    intro w hw
    simpa [and_assoc] using hnew w hw
  unfold joinWalk
  dsimp only
  rw [hnone, if_neg Bool.false_ne_true, if_pos hroom]

/-- The state in which the walk of a failing entry starts: the entry is dropped and the miss counted. -/
def dropMiss (k : Nat) (e : TlbEntry) (s : State) : State := trCount k 2 (dropStb k e s)

theorem dropMiss_lookups (e : TlbEntry) : ((dropMiss k e s).unit k).lookups = ((s.unit k).stb.erase e, (s.unit k).walks) :=
  (trCount_lookups _ _ _).trans (dropStb_lookups _ _ _)

theorem dropMiss_cachePar (e : TlbEntry) : (dropMiss k e s).blk.cachePar = min 0xFFFF (s.blk.cachePar + 1) := by
  have hcount := same_of_mask (trCount_mask (w := 0x700050#38) (by decide) k 2 (dropStb k e s)) .blk (by decide)
  rw [dropMiss, hcount, dropStb_cachePar]

theorem dropMiss_stream (e : TlbEntry) (n : Nat) : (dropMiss k e s).stream n = s.stream n :=
  stream_of_streams (same_of_mask (w := 0x4700050#38) (by rw [dropMiss, trCount_mask (by decide), dropStb_mask (by decide)])
    .streams (by decide)) n

theorem execStbLookup_parity {j : Nat} {x : LineReq} {e : TlbEntry} {t : State} (hx : s.waitingLine i = some (j, x))
    (hi : s.mayIssue i = true) (hk : (s.stream i).core / 4 = k) (hidle : ∀ w ∈ (s.unit k).walks, ¬ i ∈ w.streams)
    (hkind : kindTranslated (s.stream i).kind = true)
    (hhit : (s.unit k).stb.find? (fun e => e.holds (s.stream i).part x.va) = some e)
    (hwalk : joinWalk k (s.stream i).part (s.walkPage (s.stream i).part x.va) i false (dropMiss k e s) = some t) :
    execStbLookup k ⟨i, true⟩ s = .next t := by
  have hfree : (s.unit k).walks.any (fun w => w.streams.contains i) = false := by
    rw [List.any_eq_false]
    intro w hw
    simpa using hidle w hw
  unfold dropMiss at hwalk
  unfold execStbLookup
  simp only [hx, hi, hk, hfree, hkind, hhit, ne_eq, not_true_eq_false, decide_false, Bool.not_true, Bool.or_self, Bool.false_eq_true,
    if_true, if_false, hwalk]
end

/-! ### The obligation -/

/-- Settles O30: a store held back leaves the state, and a lookup that fails its parity starts its walk where the entry is dropped. -/
theorem detectionsHoldBack : Obligations.DetectionsHoldBack := by
  unfold Obligations.DetectionsHoldBack
  refine ⟨fun s i va bytes tile spmByte scByte h => ⟨s, execStreamAccess_heldBack va bytes tile spmByte scByte h, rfl⟩,
    fun s m a ha h => storesOpen_detected ha h, fun s k i j x e hx _ hi hk hidle hkind hhit hroom hnew => ?_⟩
  obtain ⟨hstb, hwalks⟩ := Prod.mk.inj (dropMiss_lookups (s := s) (k := k) e)
  have hwalk := joinWalk_starts (s := dropMiss k e s) (k := k) (i := i) (second := false) (by rw [hwalks]; exact hroom)
    (by rw [hwalks]; exact hnew)
  refine ⟨_, execStbLookup_parity hx hi hk hidle hkind hhit hwalk, ?_, ?_, ?_, fun n => ?_⟩
  · rw [State.unit_setUnit_same]
    exact hstb
  · rw [State.unit_setUnit_same, hwalks]
  · rw [State.setUnit_blk, dropMiss_cachePar]
  · rw [State.stream_setUnit, dropMiss_stream]

end Sys2Proof.Machine
end

section
/-! PROOF. The KV commands (R222 to R254, R499, R500): what each outcome of a command leaves of the arenas, the descriptors and the waits
of its partition, with the state in which the command has started. -/

namespace Sys2Proof.Machine

/-! ### What completing leaves -/

section
variable {s t : State}

theorem seqs_of_mask (h : t.mask 0x3ffffff7ff#38 = s.mask 0x3ffffff7ff#38) : t.seqs = s.seqs := same_of_mask h .seqs (by decide)

theorem seq_of_seqs (h : t.seqs = s.seqs) (k : Nat) : t.seq k = s.seq k := by rw [State.seq, State.seq, h]

theorem kv_of_uncounted (h : t.uncounted = s.uncounted) (p : Nat) : (t.part p).kv = (s.part p).kv :=
  (congrArg Part.kv (bare_of_uncounted h p) :)

theorem waiting_of_uncounted (h : t.uncounted = s.uncounted) (p : Nat) : (t.part p).waiting = (s.part p).waiting :=
  (congrArg Part.waiting (bare_of_uncounted h p) :)
end

section
variable (s : State) (p r : Nat) (q : BitVec 16)

theorem complete_seqs (st d b : Nat) : (complete r q st d b s).seqs = s.seqs := seqs_of_mask (complete_mask (by decide) ..)

theorem complete_seq (st d b k : Nat) : (complete r q st d b s).seq k = s.seq k := seq_of_seqs (complete_seqs s r q st d b) k

theorem completeWith_seqs (img : BitVec 512) (d : Nat) (bs : List Byte) : (completeWith p r q img d bs s).seqs = s.seqs :=
  seqs_of_mask (completeWith_mask (by decide) ..)

theorem complete_uncounted (st d b : Nat) : (complete r q st d b s).uncounted = s.uncounted := uncounted_of_parts (complete_parts ..)

theorem completeWith_uncounted (img : BitVec 512) (d : Nat) (bs : List Byte) : (completeWith p r q img d bs s).uncounted = s.uncounted := by
  unfold completeWith
  exact view_ite State.uncounted (complete_uncounted _ _ _ _ _ _) (view_ite State.uncounted
    ((complete_uncounted _ _ _ _ _ _).trans (writeVa_uncounted ..)) ((complete_uncounted _ _ _ _ _ _).trans (writeVa_uncounted ..)))

theorem addWait_kv (w : Wait) : ((addWait p r q w s).part p).kv = (s.part p).kv := by rw [addWait, State.part_modPart_same]

theorem addWait_seqs (w : Wait) : (addWait p r q w s).seqs = s.seqs := rfl

theorem kv_modKv (f : KvPart → KvPart) : ((modKv p f s).part p).kv = f (s.part p).kv := by rw [modKv, State.part_modPart_same]

theorem waiting_modKv (f : KvPart → KvPart) : ((modKv p f s).part p).waiting = (s.part p).waiting := by
  rw [modKv, State.part_modPart_same]

theorem neverUsed_congr {t : State} (hseq : t.seqs = s.seqs) (hfw : t.fw = s.fw) (i n : Nat) : t.neverUsed i n = s.neverUsed i n := by
  induction n generalizing i with
  | zero => rfl
  | succ n ih => rw [State.neverUsed, State.neverUsed, ih, hfw, seq_of_seqs hseq]

theorem markStarted_freeSlot : (markStarted r q s).freeSlot = s.freeSlot := by
  rw [State.freeSlot, State.freeSlot, neverUsed_congr s (t := markStarted r q s) rfl rfl]
  rfl
end

section
variable (s : State) (r : Nat) (q : BitVec 16)

theorem markStarted_cfg : (markStarted r q s).cfg = s.cfg := rfl
theorem markStarted_part (p : Nat) : (markStarted r q s).part p = s.part p := rfl
theorem markStarted_seq (k : Nat) : (markStarted r q s).seq k = s.seq k := rfl
theorem markStarted_openSeqs (p : Nat) : (markStarted r q s).openSeqs p = s.openSeqs p := rfl
theorem markStarted_seqLive (p : Nat) (i : BitVec 20) : (markStarted r q s).seqLive p i = s.seqLive p i := rfl
theorem markStarted_trimStatus (k len : Nat) : (markStarted r q s).trimStatus k len = s.trimStatus k len := rfl
end

/-! ### Outcomes of a command -/

/-- A command has completed with a status and DATA, the arenas and descriptors being as before. -/
def kvAnswered (s : State) (r p : Nat) (q : BitVec 16) (st data : Nat) (t : State) : Prop :=
  answered r q st data 0 s t ∧ (t.part p).kv = (s.part p).kv ∧ t.seqs = s.seqs

section
variable {s : State} {r p : Nat} {q : BitVec 16} {img : BitVec 512} {k : CmdRule} (h : admitted k r q p img s = true)
include h

/-- A command that may start completes as its body does. -/
theorem completes_admitted {c : Instr} {body : Nat → BitVec 512 → State → State} {P : State → Prop}
    (hc : exec c s = .next (runCommand k r q body s)) (hP : P (body p img (markStarted r q s))) : completes c s P :=
  ⟨_, hc, by rwa [runCommand_admitted h]⟩

theorem complete_kvAnswered (st data : Nat) : kvAnswered s r p q st data (complete r q st data 0 (markStarted r q s)) :=
  ⟨complete_started s _ r q _ _ _ (admitted_find h) rfl, by rw [complete_part]; rfl, complete_seqs _ _ _ _ _ _⟩
end

/-! ### KV_ARENA_SET (R222, R223) -/

section
variable {s : State} {r p : Nat} {q : BitVec 16} {img : BitVec 512}
  (h : admitted ⟨0x200, false, false, true, [(0x18, 0, 52), (0x20, 0, 28), (0x24, 0, 28), (0x28, 0, 52), (0x30, 0, 17)]⟩ r q p img s = true)
include h

theorem kvArenaSet_badField (hf : (markStarted r q s).arenaFields p img = false) :
    completes (.kvArenaSet r q) s (kvAnswered s r p q stField 0) := by
  refine completes_admitted h rfl ?_
  simp only [hf, Bool.not_false, if_true]
  exact complete_kvAnswered h _ _

theorem kvArenaSet_busy (hf : (markStarted r q s).arenaFields p img = true) (ho : s.openSeqs p ≠ []) :
    completes (.kvArenaSet r q) s (kvAnswered s r p q stSeqBusy 0) := by
  have hsome : (s.openSeqs p).isEmpty = false := by simpa using ho
  refine completes_admitted h rfl ?_
  simp only [hf, markStarted_openSeqs, hsome, Bool.not_true, Bool.not_false, Bool.false_eq_true, if_false, if_true]
  exact complete_kvAnswered h _ _

theorem kvArenaSet_sets (hf : (markStarted r q s).arenaFields p img = true) (ho : s.openSeqs p = []) :
    completes (.kvArenaSet r q) s (fun t => answered r q stOk 0 0 s t ∧ (t.part p).kv = ⟨⟨arg img 0x18 0 52, arg img 0x20 0 28, []⟩,
      ⟨if arg img 0x24 0 28 = 0 then 0 else arg img 0x28 0 52, arg img 0x24 0 28, []⟩, arg img 0x30 0 17⟩) := by
  refine completes_admitted h rfl ?_
  simp only [hf, markStarted_openSeqs, ho, Bool.not_true, Bool.false_eq_true, if_false, List.isEmpty_nil]
  exact ⟨complete_started s _ r q _ _ _ (admitted_find h) rfl, by rw [complete_part, kv_modKv]⟩
end

/-! ### SEQ_OPEN (R226 to R228, R233) -/

section
variable {s : State} {r p : Nat} {q : BitVec 16} {img : BitVec 512}
  (h : admitted ⟨0x201, false, true, true, [(0x18, 0, 32), (0x1C, 0, 32)]⟩ r q p img s = true)
include h

theorem seqOpen_badShape (hx : shapeOf (arg img 0x18 0 32) (arg img 0x1C 0 32) = none) :
    completes (.seqOpen r q) s (kvAnswered s r p q stField 0) := by
  refine completes_admitted h rfl ?_
  simp only [hx]
  exact complete_kvAnswered h _ _

variable {x : Seq} (hx : shapeOf (arg img 0x18 0 32) (arg img 0x1C 0 32) = some x)
include hx

theorem seqOpen_overQuota (hn : (s.part p).kv.quota ≤ (s.openSeqs p).length) :
    completes (.seqOpen r q) s (kvAnswered s r p q stSeqLimit 0) := by
  refine completes_admitted h rfl ?_
  simp only [hx, markStarted_part, markStarted_openSeqs, hn, if_true]
  exact complete_kvAnswered h _ _

variable {j : Nat} (hn : (s.openSeqs p).length < (s.part p).kv.quota) (hj : s.freeSlot = some j)
include hn hj

theorem seqOpen_full (ht : tailFrames x ≠ 0) (ha : (s.part p).kv.hbm.allocate j [tailFrames x] = none) :
    completes (.seqOpen r q) s (kvAnswered s r p q stCacheFull (s.part p).kv.hbm.largestRun) := by
  refine completes_admitted h rfl ?_
  simp only [hx, markStarted_part, markStarted_openSeqs, Nat.not_le.2 hn, if_false, markStarted_freeSlot, hj, ht, ha]
  exact complete_kvAnswered h _ _

end

/-- The descriptor of a sequence opened in slot `j` with first frames `fs`, its page list at `pl` (R226, R227). -/
def openedSeq (s : State) (p j : Nat) (img : BitVec 512) (x : Seq) (fs : List Nat) (pl : BitVec 64) : Seq :=
  { x with
    gen := (s.seq j).gen + 1, part := p, jobTag := cmdTag img, plAddr := pl, hbmFrames := tailFrames x
    tailFrame := match fs with | f :: _ => BitVec.ofNat 32 f | [] => x.tailFrame }

/-- The state in which slot `j` holds that sequence, HBM's arena being `a`. -/
def seqOpened (p j : Nat) (img : BitVec 512) (x : Seq) (fs : List Nat) (a : Arena) (s : State) : State :=
  let t := (modKv p (fun k => { k with hbm := a }) s.draw).setSeq j (openedSeq s p j img x fs (Config.plAddr s.free))
  { t with fw := { t.fw with freeSlots := t.fw.freeSlots.erase j } }

section
variable (s : State) (p j : Nat) (img : BitVec 512) (x : Seq) (fs : List Nat) (a : Arena)

theorem seqOpened_kv : ((seqOpened p j img x fs a s).part p).kv = { (s.part p).kv with hbm := a } :=
  kv_modKv s.draw p (fun k => { k with hbm := a })

theorem seqOpened_same : (seqOpened p j img x fs a s).seq j = openedSeq s p j img x fs (Config.plAddr s.free) := State.seq_setSeq_same ..

theorem seqOpened_other {i : Nat} (hi : i ≠ j) : (seqOpened p j img x fs a s).seq i = s.seq i := State.seq_setSeq_other _ _ _ hi
end

section
variable {s : State} {r p : Nat} {q : BitVec 16} {img : BitVec 512}
  (h : admitted ⟨0x201, false, true, true, [(0x18, 0, 32), (0x1C, 0, 32)]⟩ r q p img s = true)
  {x : Seq} (hx : shapeOf (arg img 0x18 0 32) (arg img 0x1C 0 32) = some x)
  {j : Nat} (hn : (s.openSeqs p).length < (s.part p).kv.quota) (hj : s.freeSlot = some j)
  {fs : List Nat} {a : Arena} (h0 : tailFrames x = 0 → fs = [] ∧ a = (s.part p).kv.hbm)
  (ha : tailFrames x ≠ 0 → (s.part p).kv.hbm.allocate j [tailFrames x] = some (fs, a))
include h hx hn hj h0 ha

theorem execSeqOpen_opens : execSeqOpen r q s = .next (complete r q stOk (j + ((s.seq j).gen + 1).toNat * 2 ^ 16) 0
    (seqOpened p j img x fs a (markStarted r q s))) := by
  have hframes : (if tailFrames x = 0 then some ([], (s.part p).kv.hbm) else (s.part p).kv.hbm.allocate j [tailFrames x])
      = some (fs, a) := by
    by_cases e : tailFrames x = 0
    · obtain ⟨rfl, rfl⟩ := h0 e
      exact if_pos e
    · exact (if_neg e).trans (ha e)
  rw [execSeqOpen, runCommand_admitted h]
  simp only [hx, markStarted_part, markStarted_openSeqs, Nat.not_le.2 hn, if_false, markStarted_freeSlot, hj, hframes]
  rfl

theorem seqOpen_opens :
    completes (.seqOpen r q) s (fun t => answered r q stOk (j + ((s.seq j).gen + 1).toNat * 2 ^ 16) 0 s t
      ∧ (t.part p).kv = { (s.part p).kv with hbm := a } ∧ t.seq j = openedSeq s p j img x fs (t.seq j).plAddr
      ∧ ∀ i, i ≠ j → t.seq i = s.seq i) := by
  refine ⟨_, execSeqOpen_opens h hx hn hj h0 ha, complete_started s _ r q _ _ _ (admitted_find h) rfl, ?_, ?_, fun i hi => ?_⟩
  · rw [complete_part, seqOpened_kv]
    rfl
  · rw [complete_seq, seqOpened_same]
    rfl
  · rw [complete_seq, seqOpened_other _ _ _ _ _ _ _ hi]
    rfl
end

/-! ### Queries (R499) -/

section
variable {s : State} {r p : Nat} {q : BitVec 16} {img : BitVec 512}

/-- A query whose result is `bs` has completed with it, the descriptors being as before. -/
def kvQueried (s : State) (r : Nat) (q : BitVec 16) (img : BitVec 512) (data : Nat) (bs : List Byte) (t : State) : Prop :=
  let a := resultAnswer img data bs
  answered r q a.1 a.2.1 a.2.2 s t ∧ t.seqs = s.seqs

theorem completeWith_kvQueried {k : CmdRule} (h : admitted k r q p img s = true) (data : Nat) (bs : List Byte) :
    kvQueried s r q img data bs (completeWith p r q img data bs (markStarted r q s)) :=
  ⟨completeWith_started s _ p r q img _ _ (admitted_find h) rfl, completeWith_seqs ..⟩

theorem seqQuery_stale (h : admitted ⟨0x202, false, false, true, [(0x18, 0, 20)]⟩ r q p img s = true)
    (hl : s.seqLive p (cmdSeqId img) = false) : completes (.seqQuery r q) s (kvAnswered s r p q stSeqStale 0) := by
  refine completes_admitted h rfl ?_
  simp only [markStarted_seqLive, hl, Bool.not_false, if_true]
  exact complete_kvAnswered h _ _

theorem seqQuery_reads (h : admitted ⟨0x202, false, false, true, [(0x18, 0, 20)]⟩ r q p img s = true)
    (hl : s.seqLive p (cmdSeqId img) = true) : completes (.seqQuery r q) s (fun t =>
      let bs := (s.seq (seqSlot (cmdSeqId img))).bytes
      let word (o : Nat) : List Byte := (bs.drop o).take 4
      kvQueried s r q img (ofLe (word 0 ++ word 0x10 ++ word 0x14 ++ word 0x24)) bs t) := by
  refine completes_admitted h rfl ?_
  simp only [markStarted_seqLive, hl, Bool.not_true, Bool.false_eq_true, if_false]
  exact completeWith_kvQueried h _ _

/-- Four words in a row, spelt as a number, give their bytes. -/
theorem leBytes_ofLe_words (a b c d : Nat) : leBytes 16 (ofLe (leBytes 4 a ++ leBytes 4 b ++ leBytes 4 c ++ leBytes 4 d))
    = leBytes 4 a ++ leBytes 4 b ++ leBytes 4 c ++ leBytes 4 d := by
  have hlen : (leBytes 4 a ++ leBytes 4 b ++ leBytes 4 c ++ leBytes 4 d).length = 16 := by simp only [List.length_append, leBytes_length]
  rw [← hlen]
  exact leBytes_ofLe _

theorem flatMap_words (a b c d : Nat) : [a, b, c, d].flatMap (leBytes 4) = leBytes 4 a ++ leBytes 4 b ++ leBytes 4 c ++ leBytes 4 d := by
  simp only [List.flatMap_cons, List.flatMap_nil, List.append_nil, List.append_assoc]

/-- KV_STAT counts the frames of both arenas, the open sequences and the quota. -/
theorem kvStat_counts (h : admitted ⟨0x208, false, false, true, []⟩ r q p img s = true) : completes (.kvStat r q) s (fun t =>
    let kv := (s.part p).kv
    let w := leBytes 4
    let data := w kv.hbm.zeroed ++ w kv.hbm.dirty ++ w kv.hbm.heldFrames ++ w kv.hbm.largestRun
    let more := w (kv.far.frames - kv.far.heldFrames) ++ w kv.far.heldFrames ++ w (s.openSeqs p).length ++ w kv.quota
    kvQueried s r q img (ofLe data) (data ++ more) t) := by
  refine completes_admitted h rfl ?_
  simp only [flatMap_words, leBytes_ofLe_words]
  exact completeWith_kvQueried h _ _
end

/-! ### SEQ_TRIM and SEQ_CLOSE (R248 to R250) -/

section
variable {s : State} {r p : Nat} {q : BitVec 16} {img : BitVec 512}

/-- A command that has started waits, and the descriptors are as before. -/
theorem addWait_started (w : Wait) :
    nowWaits p r q w s (addWait p r q w (markStarted r q s)) ∧ (addWait p r q w (markStarted r q s)).seqs = s.seqs :=
  ⟨addWait_waits s _ p r q w rfl rfl, rfl⟩

section
variable (h : admitted ⟨0x204, false, false, true, [(0x18, 0, 20), (0x1C, 0, 32)]⟩ r q p img s = true)
include h

theorem seqTrim_stale (hl : s.seqLive p (cmdSeqId img) = false) : completes (.seqTrim r q) s (kvAnswered s r p q stSeqStale 0) := by
  refine completes_admitted h rfl ?_
  simp only [markStarted_seqLive, hl, Bool.not_false, if_true]
  exact complete_kvAnswered h _ _

variable (hl : s.seqLive p (cmdSeqId img) = true)
include hl

theorem seqTrim_refused {st : Nat} (ht : s.trimStatus (seqSlot (cmdSeqId img)) (arg img 0x1C 0 32) = some st) :
    completes (.seqTrim r q) s (kvAnswered s r p q st 0) := by
  refine completes_admitted h rfl ?_
  simp only [markStarted_seqLive, markStarted_trimStatus, hl, ht, Bool.not_true, Bool.false_eq_true, if_false]
  exact complete_kvAnswered h _ _

theorem seqTrim_waits (ht : s.trimStatus (seqSlot (cmdSeqId img)) (arg img 0x1C 0 32) = none) : completes (.seqTrim r q) s (fun t =>
    nowWaits p r q (.trim (seqSlot (cmdSeqId img)) (arg img 0x1C 0 32)) s t ∧ t.seqs = s.seqs) := by
  refine completes_admitted h rfl ?_
  simp only [markStarted_seqLive, markStarted_trimStatus, hl, ht, Bool.not_true, Bool.false_eq_true, if_false]
  exact addWait_started _
end

section
variable (h : admitted ⟨0x205, false, false, true, [(0x18, 0, 20)]⟩ r q p img s = true)
include h

theorem seqClose_stale (hl : s.seqLive p (cmdSeqId img) = false) : completes (.seqClose r q) s (kvAnswered s r p q stSeqStale 0) := by
  refine completes_admitted h rfl ?_
  simp only [markStarted_seqLive, hl, Bool.not_false, if_true]
  exact complete_kvAnswered h _ _

theorem seqClose_waits (hl : s.seqLive p (cmdSeqId img) = true) : completes (.seqClose r q) s (fun t =>
    nowWaits p r q (.close (seqSlot (cmdSeqId img))) s t ∧ t.seqs = s.seqs) := by
  refine completes_admitted h rfl ?_
  simp only [markStarted_seqLive, hl, Bool.not_true, Bool.false_eq_true, if_false]
  exact addWait_started _
end
end

/-! ### SEQ_EVICT (R253, R500) -/

/-- The state in which slot `slot` is EVICTING into the frames `fs`, the far arena being `a`. -/
def evicting (p slot : Nat) (fs : List Nat) (a : Arena) (s : State) : State :=
  let d := s.seq slot
  (modKv p (fun k => { k with far := a }) s).setSeq slot { d with
    state := .evicting, target := fs, targetTail := if tailFrames d = 0 then none else fs.getLast?,
    farFrames := (seqRuns d).sum, copied := false }

/-- What SEQ_EVICT does with a live sequence (R253, R500). -/
def evictStarted (p r : Nat) (q : BitVec 16) (slot : Nat) (s : State) : State :=
  let d := s.seq slot
  match d.state with
  | .evicted => complete r q stOk d.farFrames 0 s
  | .evicting => addWait p r q (.evict slot) s
  | .opened =>
    if d.len < d.resEnd then complete r q stSeqBusy 0 0 s
    else
      match (s.part p).kv.far.allocate slot (seqRuns d) with
      | none => complete r q stFarFull 0 0 s
      | some (fs, a) => addWait p r q (.evict slot) (evicting p slot fs a s)
  | _ => complete r q stSeqBusy 0 0 s

section
variable {s : State} {p r slot : Nat} {q : BitVec 16}

theorem evictStarted_evicted (hd : (s.seq slot).state = .evicted) :
    evictStarted p r q slot s = complete r q stOk (s.seq slot).farFrames 0 s := by simp only [evictStarted, hd]

variable (hd : (s.seq slot).state = .opened)
include hd

theorem evictStarted_reserved (hr : (s.seq slot).len < (s.seq slot).resEnd) :
    evictStarted p r q slot s = complete r q stSeqBusy 0 0 s := by simp only [evictStarted, hd, hr, if_true]

variable (hr : (s.seq slot).resEnd ≤ (s.seq slot).len)
include hr

theorem evictStarted_full (ha : (s.part p).kv.far.allocate slot (seqRuns (s.seq slot)) = none) :
    evictStarted p r q slot s = complete r q stFarFull 0 0 s := by simp only [evictStarted, hd, Nat.not_lt.2 hr, if_false, ha]

theorem evictStarted_copies {fs : List Nat} {a : Arena} (ha : (s.part p).kv.far.allocate slot (seqRuns (s.seq slot)) = some (fs, a)) :
    evictStarted p r q slot s = addWait p r q (.evict slot) (evicting p slot fs a s) := by
  simp only [evictStarted, hd, Nat.not_lt.2 hr, if_false, ha]
end

section
variable {s : State} {r p : Nat} {q : BitVec 16} {img : BitVec 512}
  (h : admitted ⟨0x206, false, false, true, [(0x18, 0, 20)]⟩ r q p img s = true)
include h

theorem seqEvict_noFar (hf : s.cfg.farPorts = 0 ∨ (s.part p).kv.far.frames = 0) :
    completes (.seqEvict r q) s (kvAnswered s r p q stNoFar 0) := by
  refine completes_admitted h rfl ?_
  simp only [markStarted_cfg, markStarted_part, hf, if_true]
  exact complete_kvAnswered h _ _

variable (hports : 0 < s.cfg.farPorts) (hfar : 0 < (s.part p).kv.far.frames) (hl : s.seqLive p (cmdSeqId img) = true)
include hports hfar hl

theorem execSeqEvict_live : execSeqEvict r q s = .next (evictStarted p r q (seqSlot (cmdSeqId img)) (markStarted r q s)) := by
  have hnofar : ¬ (s.cfg.farPorts = 0 ∨ (s.part p).kv.far.frames = 0) := by omega
  rw [execSeqEvict, runCommand_admitted h]
  simp only [markStarted_cfg, markStarted_part, hnofar, markStarted_seqLive, hl, Bool.not_true, Bool.false_eq_true, if_false]
  rfl

theorem completes_evictStarted {P : State → Prop} (hP : P (evictStarted p r q (seqSlot (cmdSeqId img)) (markStarted r q s))) :
    completes (.seqEvict r q) s P := ⟨_, execSeqEvict_live h hports hfar hl, hP⟩
end

section
variable (s : State) (p slot : Nat) (fs : List Nat) (a : Arena)

theorem evicting_kv : ((evicting p slot fs a s).part p).kv = { (s.part p).kv with far := a } :=
  kv_modKv s p (fun k => { k with far := a })

theorem evicting_waiting : ((evicting p slot fs a s).part p).waiting = (s.part p).waiting :=
  waiting_modKv s p (fun k => { k with far := a })

theorem evicting_same : (evicting p slot fs a s).seq slot = { s.seq slot with
    state := .evicting, target := fs, targetTail := if tailFrames (s.seq slot) = 0 then none else fs.getLast?,
    farFrames := (seqRuns (s.seq slot)).sum, copied := false } := State.seq_setSeq_same ..
end

/-! ### SEQ_RESTORE (R233, R254, R500) -/

/-- The state in which slot `slot` is RESTORING into the frames `fs`, HBM's arena being `a`. -/
def restoring (p slot : Nat) (fs : List Nat) (a : Arena) (s : State) : State :=
  let d := s.seq slot
  (modKv p (fun k => { k with hbm := a }) s).setSeq slot { d with
    state := .restoring, target := fs, targetTail := if tailFrames d = 0 then none else fs.getLast?,
    hbmFrames := (seqRuns d).sum, copied := false }

section
variable (s : State) (p slot : Nat) (fs : List Nat) (a : Arena)

theorem restoring_kv : ((restoring p slot fs a s).part p).kv = { (s.part p).kv with hbm := a } :=
  kv_modKv s p (fun k => { k with hbm := a })

theorem restoring_waiting : ((restoring p slot fs a s).part p).waiting = (s.part p).waiting :=
  waiting_modKv s p (fun k => { k with hbm := a })

theorem restoring_same : (restoring p slot fs a s).seq slot = { s.seq slot with
    state := .restoring, target := fs, targetTail := if tailFrames (s.seq slot) = 0 then none else fs.getLast?,
    hbmFrames := (seqRuns (s.seq slot)).sum, copied := false } := State.seq_setSeq_same ..
end

section
variable {s : State} {p r slot : Nat} {q : BitVec 16}

theorem startRestore_full (ha : (s.part p).kv.hbm.allocate slot (seqRuns (s.seq slot)) = none) :
    startRestore p r q slot s = complete r q stCacheFull (s.part p).kv.hbm.largestRun 0 s := by simp only [startRestore, ha]

theorem startRestore_copies {fs : List Nat} {a : Arena} (ha : (s.part p).kv.hbm.allocate slot (seqRuns (s.seq slot)) = some (fs, a)) :
    startRestore p r q slot s = addWait p r q (.restore slot) (restoring p slot fs a s) := by
  simp only [startRestore, ha]
  rfl
end

section
variable {s : State} {r p : Nat} {q : BitVec 16} {img : BitVec 512}
  (h : admitted ⟨0x207, false, false, true, [(0x18, 0, 20)]⟩ r q p img s = true)
include h

theorem seqRestore_stale (hl : s.seqLive p (cmdSeqId img) = false) : completes (.seqRestore r q) s (kvAnswered s r p q stSeqStale 0) := by
  refine completes_admitted h rfl ?_
  simp only [markStarted_seqLive, hl, Bool.not_false, if_true]
  exact complete_kvAnswered h _ _

variable (hl : s.seqLive p (cmdSeqId img) = true)
include hl

theorem seqRestore_opened (hd : (s.seq (seqSlot (cmdSeqId img))).state = .opened) :
    completes (.seqRestore r q) s (kvAnswered s r p q stOk (s.seq (seqSlot (cmdSeqId img))).hbmFrames) := by
  refine completes_admitted h rfl ?_
  simp only [markStarted_seqLive, hl, markStarted_seq, hd, Bool.not_true, Bool.false_eq_true, if_false]
  exact complete_kvAnswered h _ _

theorem completes_startRestore (hd : (s.seq (seqSlot (cmdSeqId img))).state = .evicted) {P : State → Prop}
    (hP : P (startRestore p r q (seqSlot (cmdSeqId img)) (markStarted r q s))) : completes (.seqRestore r q) s P := by
  refine completes_admitted h rfl ?_
  simp only [markStarted_seqLive, hl, markStarted_seq, hd, Bool.not_true, Bool.false_eq_true, if_false]
  exact hP
end

/-! ### SEQ_RESERVE (R229, R243, R244) -/

/-- The pages that a reservation of `n` tokens adds to a sequence, as first token and size (R229). -/
def Seq.pagesFor (d : Seq) (n : Nat) : List (Nat × Nat) := newPages d d.covered (d.len + n) (d.plCap + 1)

/-- The frames of each of them (R231). -/
def Seq.framesFor (d : Seq) (n : Nat) : List Nat := (d.pagesFor n).map (fun x => pageFrames d (2 ^ x.2))

/-- The sequence with `n` tokens reserved, its new pages in the runs that begin at `fs`. -/
def Seq.reserved (d : Seq) (n : Nat) (fs : List Nat) : Seq :=
  { d with
    pages := d.pages ++ ((d.pagesFor n).zip fs).map (fun x => (⟨false, false, true, d.vFmt, d.kFmt, x.1.2, x.1.1, x.2⟩ : Page))
    hbmFrames := d.hbmFrames + (d.framesFor n).sum
    resEnd := max d.resEnd (d.len + n) }

/-- The state in which slot `slot` holds it, HBM's arena being `a`. -/
def seqReserved (p slot n : Nat) (fs : List Nat) (a : Arena) (s : State) : State :=
  (modKv p (fun k => { k with hbm := a }) s).setSeq slot ((s.seq slot).reserved n fs)

theorem withdraw_nil (p : Nat) (img : BitVec 512) (s : State) : withdraw p img [] s = s := by
  unfold withdraw
  generalize reserveTables img = vs
  induction vs with
  | nil => rfl
  | cons v vs ih => exact ih

/-- A reservation whose one entry has its frames completes with one entry done and none lost (R243, R499). -/
theorem finishReserve_one (p r : Nat) (q : BitVec 16) (img : BitVec 512) (e : Nat × Nat × Nat) (n : Nat) (s : State) :
    ∃ f : List Reserved → List Reserved, finishReserve p r q img [e] [stOk] n s
      = completeWith p r q img (1 + n * 2 ^ 64) (leBytes 2 stOk) (s.modPart p (fun x => { x with reserved := f x.reserved })) := by
  have hfull : [stOk].contains stCacheFull = false := rfl
  have hdata : 1 + 0 * 2 ^ 32 + n * 2 ^ 64 + 0 * 2 ^ 96 = 1 + n * 2 ^ 64 := by omega
  refine ⟨fun l => l.filter (fun x => decide (x.batchVa ≠ arg img 0x18 0 52))
    ++ [⟨arg img 0x18 0 52, [(BitVec.ofNat 20 e.1, e.2.1, true)]⟩], ?_⟩
  rw [← hdata]
  unfold finishReserve
  dsimp only
  have hlost : ([e].zip [stOk]).filter (fun x => decide (x.2 ≠ stOk)) = [] := rfl
  rw [hlost, List.map_nil, withdraw_nil, hfull]
  rfl

section
variable {s : State} {p n : Nat} {i : BitVec 20} (hl : s.seqLive p i = true) (hd : (s.seq (seqSlot i)).state = .opened)
  (hlen : (s.seq (seqSlot i)).len + n ≤ 2 ^ 24)
  (hcap : (s.seq (seqSlot i)).pages.length + ((s.seq (seqSlot i)).pagesFor n).length ≤ (s.seq (seqSlot i)).plCap)
  {fs : List Nat} {a : Arena} (ha : (s.part p).kv.hbm.allocate (seqSlot i) ((s.seq (seqSlot i)).framesFor n) = some (fs, a))
include hl hd hlen hcap ha

theorem reserveOne_reserves : reserveOne p i n s = (stOk, ((s.seq (seqSlot i)).framesFor n).sum, seqReserved p (seqSlot i) n fs a s) := by
  have hopen : ¬ (s.seq (seqSlot i)).state ≠ .opened := not_not_intro hd
  have hlimit : ¬ (2 ^ 24 < (s.seq (seqSlot i)).len + n
      ∨ (s.seq (seqSlot i)).plCap < (s.seq (seqSlot i)).pages.length + ((s.seq (seqSlot i)).pagesFor n).length) := by omega
  unfold Seq.framesFor at ha
  unfold Seq.pagesFor at hlimit ha
  simp only [reserveOne, hl, hopen, ha, hlimit, Bool.not_true, Bool.false_eq_true, if_false]
  rfl

theorem goReserve_one (r : Nat) (q : BitVec 16) (img : BitVec 512) (wait : Bool) (l : Nat) :
    goReserve p r q img wait [(i.toNat, n, l)] [] 0 s
      = finishReserve p r q img [(i.toNat, n, l)] [stOk] ((s.seq (seqSlot i)).framesFor n).sum (seqReserved p (seqSlot i) n fs a s) := by
  have hid : BitVec.ofNat 20 i.toNat = i := by simp
  have hfull : (wait && stOk == stCacheFull && decide (0 < (s.part p).kv.hbm.dirty)) = false := by
    rw [show (stOk == stCacheFull) = false from rfl, Bool.and_false, Bool.false_and]
  simp only [goReserve, List.length_nil, List.drop_zero, reserveAll, hid, reserveOne_reserves hl hd hlen hcap ha, hfull, Bool.false_eq_true,
    if_false, List.nil_append, Nat.zero_add]
end

section
variable {s : State} {r p : Nat} {q : BitVec 16} {img : BitVec 512} (h : admitted ⟨0x203, false, true, true,
    [(0x18, 0, 52), (0x20, 0, 17), (0x20, 31, 1), (0x28, 0, 52), (0x30, 0, 52), (0x38, 0, 52)]⟩ r q p img s = true)
  {bs : List Byte} {es : List (Nat × Nat × Nat)} (hn : arg img 0x20 0 17 = 1)
  (hbs : (markStarted r q s).readVa p (arg img 0x18 0 52) 16 = .ok bs) (hes : batchOf bs 1 = some es)
  (ht : (markStarted r q s).tablesOk p img es = true)
include h hn hbs hes ht

theorem execSeqReserve_goes : execSeqReserve r q s
    = .next (goReserve p r q img (arg img 0x20 31 1 == 1) es [] 0 (markStarted r q s)) := by
  rw [execSeqReserve, runCommand_admitted h]
  simp only [hn, hbs, hes, ht, Bool.not_true, Bool.false_eq_true, if_false, Nat.mul_one, Nat.one_ne_zero, false_or,
    show ¬ 65536 < 1 by decide]

theorem seqReserve_reserves {n l : Nat} {i : BitVec 20} (he : es = [(i.toNat, n, l)]) (hl : s.seqLive p i = true)
    (hd : (s.seq (seqSlot i)).state = .opened) (hlen : (s.seq (seqSlot i)).len + n ≤ 2 ^ 24)
    (hcap : (s.seq (seqSlot i)).pages.length + ((s.seq (seqSlot i)).pagesFor n).length ≤ (s.seq (seqSlot i)).plCap)
    {fs : List Nat} {a : Arena} (ha : (s.part p).kv.hbm.allocate (seqSlot i) ((s.seq (seqSlot i)).framesFor n) = some (fs, a)) :
    completes (.seqReserve r q) s (fun t =>
      let b := resultAnswer img (1 + ((s.seq (seqSlot i)).framesFor n).sum * 2 ^ 64) (leBytes 2 stOk)
      answered r q b.1 b.2.1 b.2.2 s t ∧ (t.part p).kv = { (s.part p).kv with hbm := a }
      ∧ t.seq (seqSlot i) = (s.seq (seqSlot i)).reserved n fs) := by
  subst he
  obtain ⟨f, hf⟩ := finishReserve_one p r q img (i.toNat, n, l) ((s.seq (seqSlot i)).framesFor n).sum
    (seqReserved p (seqSlot i) n fs a (markStarted r q s))
  refine ⟨_, (execSeqReserve_goes h hn hbs hes ht).trans (congrArg Host.Outcome.next
    ((goReserve_one (s := markStarted r q s) hl hd hlen hcap ha r q img _ l).trans hf)),
    completeWith_started s _ p r q img _ _ (admitted_find h) rfl, ?_, ?_⟩
  · rw [kv_of_uncounted (completeWith_uncounted ..), State.part_modPart_same]
    exact kv_modKv (markStarted r q s) p (fun k => { k with hbm := a })
  · rw [seq_of_seqs (completeWith_seqs ..)]
    exact State.seq_setSeq_same ..
end

/-! ### The obligation -/

/-- Settles O53: each command by its outcomes, every one read off the command's body in the state in which it has started. -/
theorem kvCommands : Obligations.KvCommands := by
  unfold Obligations.KvCommands
  intro s r p q img ok kv u failsWith fails sid k d one
  refine ⟨fun h => ⟨kvArenaSet_badField h, kvArenaSet_busy h, fun hf ho => ?arenaSet⟩,
    fun h => ⟨seqOpen_badShape h, fun x hx => ⟨seqOpen_overQuota h hx, fun j hn hj =>
      ⟨seqOpen_full h hx hn hj, fun fs a h0 ha => seqOpen_opens h hx hn hj h0 ha⟩⟩⟩,
    fun h => ⟨seqQuery_stale h, seqQuery_reads h⟩,
    fun h bs i n l hn hbs hes ht hl hd hlen hcap fs a ha => ?reserved,
    fun h => ⟨seqTrim_stale h, fun _ hl => seqTrim_refused h hl, seqTrim_waits h⟩,
    fun h => ⟨seqClose_stale h, seqClose_waits h⟩,
    fun h => ⟨seqEvict_noFar h, fun hports hfar hl =>
      ⟨fun hd hr => ?evictReserved, fun hd hr ha => ?evictFull, fun hd hr fs a ha => ?evictWaits, fun hd => ?evicted⟩⟩,
    fun h => ⟨seqRestore_stale h, fun hl => ⟨fun hd => ?opened, fun hd ha => ?restoreFull, fun hd fs a ha => ?restoreWaits⟩⟩,
    kvStat_counts⟩
  case arenaSet =>
    obtain ⟨t, ht, hans, hkv⟩ := kvArenaSet_sets h hf ho
    refine ⟨t, ht, hans, ?_⟩
    rw [hkv]
    exact ⟨rfl, rfl, rfl, rfl, fun _ => ⟨rfl, rfl⟩⟩
  case reserved =>
    obtain ⟨t, ht, hans, hkv, hseq⟩ := seqReserve_reserves h hn hbs hes ht rfl hl hd hlen hcap ha
    rw [Seq.framesFor, Seq.pagesFor] at hans
    refine ⟨t, ht, hans, hkv, ?_⟩
    rw [hseq]
    exact ⟨rfl, rfl, rfl, rfl⟩
  case evictReserved => exact completes_evictStarted h hports hfar hl (evictStarted_reserved (s := u) hd hr ▸ complete_kvAnswered h _ _)
  case evictFull => exact completes_evictStarted h hports hfar hl (evictStarted_full (s := u) hd hr ha ▸ complete_kvAnswered h _ _)
  case evictWaits =>
    refine completes_evictStarted h hports hfar hl ?_
    rw [evictStarted_copies (s := u) hd hr ha]
    refine ⟨addWait_waits s _ p r q _ rfl (evicting_waiting ..), (addWait_kv ..).trans (evicting_kv ..), ?_⟩
    rw [seq_of_seqs (addWait_seqs ..), evicting_same]
    exact ⟨rfl, rfl, rfl, rfl, rfl⟩
  case evicted =>
    obtain ⟨t, ht, hans, -, hseqs⟩ : completes (.seqEvict r q) s (kvAnswered s r p q stOk d.farFrames) :=
      completes_evictStarted h hports hfar hl (evictStarted_evicted (s := u) hd ▸ complete_kvAnswered h _ _)
    exact ⟨t, ht, hans, hseqs⟩
  case opened =>
    obtain ⟨t, ht, hans, -, hseqs⟩ := seqRestore_opened h hl hd
    exact ⟨t, ht, hans, hseqs⟩
  case restoreFull => exact completes_startRestore h hl hd (startRestore_full (s := u) ha ▸ complete_kvAnswered h _ _)
  case restoreWaits =>
    refine completes_startRestore h hl hd ?_
    rw [startRestore_copies (s := u) ha]
    refine ⟨addWait_waits s _ p r q _ rfl (restoring_waiting ..), (addWait_kv ..).trans (restoring_kv ..), ?_⟩
    rw [seq_of_seqs (addWait_seqs ..), restoring_same]
    exact ⟨rfl, rfl, rfl, rfl⟩

end Sys2Proof.Machine
end

section
/-! PROOF. Changes at the quiet point (R248 to R253): the one change that waits, and what trimming, closing and the switch of an eviction
leave of the descriptors. -/

namespace Sys2Proof.Machine

/-! ### The commands that wait -/

/-- The waiting commands, by partition. -/
def State.waits (s : State) : Nat → List Waiting := fun p => (s.part p).waiting

section
variable {s t : State}

theorem waits_of_uncounted (h : t.uncounted = s.uncounted) : t.waits = s.waits := funext (waiting_of_uncounted h)

theorem waits_of_mask (h : t.mask 0x3fffffffef#38 = s.mask 0x3fffffffef#38) : t.waits = s.waits := waits_of_uncounted (uncounted_of_mask h)

theorem waits_modPart (s : State) (p : Nat) {f : Part → Part} (h : (f (s.part p)).waiting = (s.part p).waiting) :
    (s.modPart p f).waits = s.waits := view_modPart Part.waiting s p h

theorem waits_modKv (s : State) (p : Nat) (f : KvPart → KvPart) : (modKv p f s).waits = s.waits := waits_modPart s p rfl

theorem waits_setSeq (s : State) (k : Nat) (d : Seq) : (s.setSeq k d).waits = s.waits := rfl

theorem waits_fw (s : State) (x : Fremund) : ({ s with fw := x } : State).waits = s.waits := rfl

theorem waiting_of_waits (h : t.waits = s.waits) {p : Nat} {ws : List Waiting} (hw : (s.part p).waiting = ws) : (t.part p).waiting = ws :=
  (congrFun h p).trans hw

variable {p : Nat} {w : Waiting} (hw : (s.part p).waiting = [w])
include hw

theorem dropWait_waiting : ((dropWait p w s).part p).waiting = [] := by
  rw [dropWait, State.part_modPart_same, hw, List.erase_cons_head]
end

section
variable {s : State} {p : Nat} (hw : (s.part p).waiting = [])
include hw

/-- No command waits: none is finished. -/
theorem finishWaits_none (f : Wait → Bool) (st d : Nat) :
    finishWaits p f st d s = s.modPart p (fun q => { q with waiting := q.waiting.filter (fun w => !f w.what) }) := by
  simp only [finishWaits, takeWaits, hw, List.filter_nil, List.foldl_nil]

theorem finishWaits_waiting (f : Wait → Bool) (st d : Nat) : ((finishWaits p f st d s).part p).waiting = [] := by
  rw [finishWaits_none hw, State.part_modPart_same, hw, List.filter_nil]

theorem finishWaits_rings (f : Wait → Bool) (st d : Nat) : (finishWaits p f st d s).rings = s.rings := by rw [finishWaits_none hw]; rfl
end

theorem finishWaits_seqs (p : Nat) (f : Wait → Bool) (st d : Nat) (s : State) : (finishWaits p f st d s).seqs = s.seqs :=
  seqs_of_mask (finishWaits_mask (by decide) ..)

theorem dropSeqCaches_seqs (slot : Nat) (s : State) : (dropSeqCaches slot s).seqs = s.seqs := seqs_of_mask (dropSeqCaches_mask (by decide) ..)

theorem dropSeqCaches_waits (slot : Nat) (s : State) : (dropSeqCaches slot s).waits = s.waits :=
  waits_of_mask (dropSeqCaches_mask (by decide) ..)

/-! ### Trimming (R249) -/

section
variable (s : State) (slot len : Nat)

theorem trimSeq_same : ∃ d, (trimSeq slot len s).seq slot = d ∧ d.len = len ∧ d.resEnd = len ∧ ∀ g ∈ d.pages, g.firstToken < len := by
  refine ⟨_, State.seq_setSeq_same .., rfl, rfl, fun g hg => ?_⟩
  obtain ⟨g', hg', rfl⟩ := List.mem_map.1 hg
  have hlt := (List.mem_filter.1 hg').2
  split <;> simpa using hlt

theorem trimSeq_other {k : Nat} (hk : k ≠ slot) : (trimSeq slot len s).seq k = s.seq k :=
  (State.seq_setSeq_other _ _ _ hk).trans (seq_of_seqs (dropSeqCaches_seqs slot s) k)

theorem trimSeq_waits : (trimSeq slot len s).waits = s.waits := by
  rw [trimSeq, waits_setSeq, waits_modKv, dropSeqCaches_waits]

/-! ### Closing (R250) -/

theorem closeSeq_same : (closeSeq slot s).seq slot = { Seq.free with gen := (s.seq slot).gen } := State.seq_setSeq_same ..

theorem closeSeq_other {k : Nat} (hk : k ≠ slot) : (closeSeq slot s).seq k = s.seq k :=
  (State.seq_setSeq_other _ _ _ hk).trans (seq_of_seqs (dropSeqCaches_seqs slot s) k)

theorem closeSeq_waits : (closeSeq slot s).waits = s.waits := by
  rw [closeSeq, waits_fw, waits_setSeq, waits_modKv, dropSeqCaches_waits]

/-! ### The switch of an eviction (R253) -/

theorem switchSeq_same : (switchSeq slot s).seq slot = { (s.seq slot).moved true with state := .evicted, hbmFrames := 0 } :=
  State.seq_setSeq_same ..

theorem switchSeq_waits : (switchSeq slot s).waits = s.waits := by
  rw [switchSeq, waits_setSeq, waits_modKv, dropSeqCaches_waits]
end

theorem movePages_far (far : Bool) (ps : List Page) (fs : List Nat) : ∀ g ∈ movePages far ps fs, g.far = far := by
  intro g hg
  obtain ⟨x, -, rfl⟩ := List.mem_map.1 hg
  rfl

/-! ### The one change that waits -/

section
variable {s u : State} {p : Nat}

theorem execQuietPoint_busy (hq : s.quiet p = false) : execQuietPoint p s = .next s := by
  rw [execQuietPoint, hq, Bool.and_false, if_neg Bool.false_ne_true]

theorem execQuietPoint_one {w : Waiting} (hf : s.fwRunning = true) (hq : s.quiet p = true) (hw : (s.part p).waiting = [w])
    (hu : quietEffect p w (dropWait p w s) = some u) : execQuietPoint p s = .next u := by
  rw [dropWait] at hu
  rw [execQuietPoint, hf, hq, Bool.and_true, if_pos rfl, hw, quietChanges, List.foldl_cons, List.foldl_nil]
  simp only [hw, List.contains_cons, BEq.rfl, Bool.true_or, Bool.not_true, Bool.false_eq_true, if_false, hu]

variable {r slot len : Nat} {q : BitVec 16}

theorem trimStatus_none (ho : (s.seq slot).state = .opened) (hlen : len ≤ (s.seq slot).len)
    (hb : blockCode (s.seq slot).vFmt = true → len % 32 = 0) : s.trimStatus slot len = none := by
  have hfield : ¬ ((s.seq slot).len < len ∨ (blockCode (s.seq slot).vFmt = true ∧ len % 32 ≠ 0)) := by
    rintro (h | ⟨h, hne⟩)
    · omega
    · exact hne (hb h)
  simp only [State.trimStatus, ho, hfield, reduceCtorEq, if_false, ne_eq, not_true_eq_false]

section
variable (hf : s.fwRunning = true) (hq : s.quiet p = true)
include hf hq

theorem execQuietPoint_trims (hw : (s.part p).waiting = [⟨r, q, .trim slot len⟩]) (ht : s.trimStatus slot len = none) :
    execQuietPoint p s = .next (complete r q stOk 0 0 (trimSeq slot len (dropWait p ⟨r, q, .trim slot len⟩ s))) := by
  have ht : (dropWait p ⟨r, q, .trim slot len⟩ s).trimStatus slot len = none := ht
  refine execQuietPoint_one hf hq hw ?_
  simp only [quietEffect, quietChange, ht]

theorem execQuietPoint_closes (hw : (s.part p).waiting = [⟨r, q, .close slot⟩]) (ho : (s.seq slot).state ≠ .free) :
    execQuietPoint p s = .next (complete r q stOk 0 0
      (finishWaits p (fun x => decide (x = .evict slot) || decide (x = .restore slot) || decide (x = .restoreAfterEvict slot)) stSeqStale 0
        (closeSeq slot (dropWait p ⟨r, q, .close slot⟩ s)))) := by
  have ho : ((dropWait p ⟨r, q, .close slot⟩ s).seq slot).state ≠ .free := ho
  refine execQuietPoint_one hf hq hw ?_
  simp only [quietEffect, quietChange, ho, if_false]

theorem execQuietPoint_evicts (hw : (s.part p).waiting = [⟨r, q, .evict slot⟩]) (he : (s.seq slot).state = .evicting)
    (hc : (s.seq slot).copied = true) : execQuietPoint p s = .next (finishWaits p (fun x => decide (x = .evict slot)) stOk (s.seq slot).farFrames
      (complete r q stOk (s.seq slot).farFrames 0 (switchSeq slot (dropWait p ⟨r, q, .evict slot⟩ s)))) := by
  have he : ((dropWait p ⟨r, q, .evict slot⟩ s).seq slot).state = .evicting := he
  have hc : ((dropWait p ⟨r, q, .evict slot⟩ s).seq slot).copied = true := hc
  refine execQuietPoint_one hf hq hw ?_
  simp only [quietEffect, quietChange, he, hc, and_self, if_true]
  rfl
end
end

/-! ### The obligation -/

/-- Settles O36: while a Figure of kind 0 or 1 is in progress nothing is done, and else the one change that waits, by its kind. -/
theorem quietPointApplies : Obligations.QuietPointApplies := by
  unfold Obligations.QuietPointApplies
  intro s p r slot q hf
  refine ⟨fun hq => ⟨s, execQuietPoint_busy hq, rfl⟩, fun hq hopen =>
    ⟨fun len hw ho hlen hb => ?trim, fun hw ho => ?close, fun hw he hc => ?evict⟩⟩
  case trim =>
    obtain ⟨d, hd, hdlen, hres, hpages⟩ := trimSeq_same (dropWait p ⟨r, q, .trim slot len⟩ s) slot len
    refine ⟨_, execQuietPoint_trims hf hq hw (trimStatus_none ho hlen hb), ?_, ?_, ?_, fun k hk => ?_, ?_,
      complete_answers_from hopen ?_ _ _ _⟩
    · rw [complete_seq, hd, hdlen]
    · rw [complete_seq, hd, hres]
    · rwa [complete_seq, hd]
    · rw [complete_seq, trimSeq_other _ _ _ hk]
      rfl
    · rw [complete_part]
      exact waiting_of_waits (trimSeq_waits ..) (dropWait_waiting hw)
    · rw [trimSeq_cmds, dropWait_cmds]
  case close =>
    have hnone : ((closeSeq slot (dropWait p ⟨r, q, .close slot⟩ s)).part p).waiting = [] :=
      waiting_of_waits (closeSeq_waits ..) (dropWait_waiting hw)
    refine ⟨_, execQuietPoint_closes hf hq hw ho, ?_, fun k hk => ?_, ?_, complete_answers_from hopen ?_ _ _ _⟩
    · rw [complete_seq, seq_of_seqs (finishWaits_seqs ..), closeSeq_same]
      rfl
    · rw [complete_seq, seq_of_seqs (finishWaits_seqs ..), closeSeq_other _ _ hk]
      rfl
    · rw [complete_part]
      exact finishWaits_waiting hnone _ _ _
    · rw [finishWaits_rings hnone, closeSeq_cmds, dropWait_cmds]
  case evict =>
    have hnone : ((complete r q stOk (s.seq slot).farFrames 0 (switchSeq slot (dropWait p ⟨r, q, .evict slot⟩ s))).part p).waiting = [] := by
      rw [complete_part]
      exact waiting_of_waits (switchSeq_waits ..) (dropWait_waiting hw)
    have hseq : (dropWait p ⟨r, q, .evict slot⟩ s).seq slot = s.seq slot := rfl
    refine ⟨_, execQuietPoint_evicts hf hq hw he hc, ?_⟩
    beta_reduce
    rw [seq_of_seqs (finishWaits_seqs ..), complete_seq, switchSeq_same, hseq, finishWaits_none hnone]
    refine ⟨rfl, movePages_far _ _ _, rfl, rfl, ?_, ?_⟩
    · rw [State.part_modPart_same, hnone, List.filter_nil]
    · exact complete_answers_from hopen ((switchSeq_cmds ..).trans (dropWait_cmds ..)) _ _ _

end Sys2Proof.Machine
end

section
/-! PROOF. Sequences that move between the tiers, frames that are zeroed and reservations whose wait ends (R251, R253, R254, R371): what
each leaves of the descriptors, the arenas and the waits. -/

namespace Sys2Proof.Machine

/-! ### Copies that end (R253, R254, R371) -/

/-- Copy frame runs: those of a list from VA `a` of their first frame to VA `b` of their target. -/
def copyAll (p : Nat) (a b : Nat → Nat) (runs : List (Nat × Nat × Nat)) (s : State) : State :=
  runs.foldl (fun t x => copyVas p (a x.1) (b x.2.1) (128 * x.2.2) t) s

theorem copyAll_seqs (p : Nat) (a b : Nat → Nat) (runs : List (Nat × Nat × Nat)) (s : State) : (copyAll p a b runs s).seqs = s.seqs :=
  view_foldl State.seqs (fun t (x : Nat × Nat × Nat) => seqs_of_mask (copyVas_mask (by decide) p (a x.1) (b x.2.1) (128 * x.2.2) t)) runs s

theorem finishWaits_seq (p : Nat) (f : Wait → Bool) (st d : Nat) (s : State) (k : Nat) : (finishWaits p f st d s).seq k = s.seq k :=
  seq_of_seqs (finishWaits_seqs p f st d s) k

/-- The first line of a sequence's far copy that is uncorrectable (R371). -/
def State.badRun (s : State) (d : Seq) : Option Loc :=
  (copyRuns d).findSome? (fun x => s.badLine d.part ((s.part d.part).kv.far.va x.1) (128 * x.2.2))

/-- The state in which a restore has stopped at the far line `l` (R254, R371). -/
def restoreStopped (slot : Nat) (l : Loc) (s : State) : State :=
  (modKv (s.seq slot).part (fun k => { k with hbm := k.hbm.release slot }) (fwUncorrectable (s.seq slot).part noFig l s)).setSeq slot
    { s.seq slot with state := .evicted, target := [], targetTail := none, hbmFrames := 0 }

/-- The state in which a restore has ended: the sequence lies in HBM, its far frames free (R254). -/
def restored (slot : Nat) (s : State) : State :=
  let d := s.seq slot
  let k := (s.part d.part).kv
  (modKv d.part (fun k => { k with far := k.far.release slot }) (dropSeqCaches slot (copyAll d.part k.far.va k.hbm.va (copyRuns d) s))).setSeq
    slot { d.moved false with state := .opened, farFrames := 0 }

section
variable (slot : Nat) (l : Loc) (s : State)

theorem restoreStopped_same : (restoreStopped slot l s).seq slot
    = { s.seq slot with state := .evicted, target := [], targetTail := none, hbmFrames := 0 } := State.seq_setSeq_same ..

theorem restoreStopped_other {k : Nat} (hk : k ≠ slot) : (restoreStopped slot l s).seq k = s.seq k :=
  (State.seq_setSeq_other _ _ _ hk).trans
    (seq_of_seqs (seqs_of_mask (fwUncorrectable_mask (by decide) (s.seq slot).part noFig l s)) k)

theorem restored_same : (restored slot s).seq slot = { (s.seq slot).moved false with state := .opened, farFrames := 0 } :=
  State.seq_setSeq_same ..

theorem restored_other {k : Nat} (hk : k ≠ slot) : (restored slot s).seq k = s.seq k :=
  (State.seq_setSeq_other _ _ _ hk).trans (seq_of_seqs ((dropSeqCaches_seqs slot _).trans (copyAll_seqs ..)) k)
end

section
variable {s : State} {slot : Nat} (ha : s.asleep = false)
include ha

theorem execSeqEvictCopyDone_notes (he : (s.seq slot).state = .evicting) (hc : (s.seq slot).copied = false) :
    execSeqEvictCopyDone slot s = .next ((copyAll (s.seq slot).part (s.part (s.seq slot).part).kv.hbm.va
      (s.part (s.seq slot).part).kv.far.va (copyRuns (s.seq slot)) s).modSeq slot (fun d => { d with copied := true })) := by
  have hguard : (s.asleep || decide ((s.seq slot).state ≠ .evicting) || (s.seq slot).copied) = false := by simp [ha, he, hc]
  unfold execSeqEvictCopyDone
  exact if_neg (by rw [hguard]; exact Bool.false_ne_true)

theorem evictCopyDone_completes (he : (s.seq slot).state = .evicting) (hc : (s.seq slot).copied = false) :
    completes (.seqEvictCopyDone slot) s (fun t => t.seq slot = { s.seq slot with copied := true } ∧ ∀ k, k ≠ slot → t.seq k = s.seq k) := by
  refine ⟨_, execSeqEvictCopyDone_notes ha he hc, ?_, fun k hk => ?_⟩
  · rw [State.seq_modSeq_same, seq_of_seqs (copyAll_seqs ..)]
  · rw [State.seq_modSeq_other _ _ _ hk, seq_of_seqs (copyAll_seqs ..)]

variable (hr : (s.seq slot).state = .restoring)
include hr

theorem execSeqRestoreCopyDone_stops {l : Loc} (hb : s.badRun (s.seq slot) = some l) : execSeqRestoreCopyDone slot s
    = .next (finishWaits (s.seq slot).part (fun w => decide (w = .restore slot)) stFarError 0 (restoreStopped slot l s)) := by
  have hguard : (s.asleep || decide ((s.seq slot).state ≠ .restoring)) = false := by simp [ha, hr]
  unfold State.badRun at hb
  unfold execSeqRestoreCopyDone
  simp only [hguard, Bool.false_eq_true, if_false, hb]
  rfl

theorem execSeqRestoreCopyDone_restores (hb : s.badRun (s.seq slot) = none) : execSeqRestoreCopyDone slot s
    = .next (finishWaits (s.seq slot).part (fun w => decide (w = .restore slot)) stOk (s.seq slot).hbmFrames (restored slot s)) := by
  have hguard : (s.asleep || decide ((s.seq slot).state ≠ .restoring)) = false := by simp [ha, hr]
  unfold State.badRun at hb
  unfold execSeqRestoreCopyDone
  simp only [hguard, Bool.false_eq_true, if_false, hb]
  rfl

theorem restoreCopyDone_restores (hb : s.badRun (s.seq slot) = none) : completes (.seqRestoreCopyDone slot) s (fun t =>
    (t.seq slot).state = .opened ∧ (t.seq slot).len = (s.seq slot).len ∧ (t.seq slot).farFrames = 0
    ∧ (∀ g ∈ (t.seq slot).pages, g.far = false) ∧ ∀ k, k ≠ slot → t.seq k = s.seq k) := by
  refine ⟨_, execSeqRestoreCopyDone_restores ha hr hb, ?_⟩
  beta_reduce
  rw [finishWaits_seq, restored_same]
  exact ⟨rfl, rfl, rfl, movePages_far _ _ _, fun k hk => (finishWaits_seq ..).trans (restored_other _ _ hk)⟩

theorem restoreCopyDone_stops {l : Loc} (hb : s.badRun (s.seq slot) = some l) : completes (.seqRestoreCopyDone slot) s (fun t =>
    (t.seq slot).state = .evicted ∧ (t.seq slot).pages = (s.seq slot).pages ∧ (t.seq slot).hbmFrames = 0
    ∧ ∀ k, k ≠ slot → t.seq k = s.seq k) := by
  refine ⟨_, execSeqRestoreCopyDone_stops ha hr hb, ?_⟩
  beta_reduce
  rw [finishWaits_seq, restoreStopped_same]
  exact ⟨rfl, rfl, rfl, fun k hk => (finishWaits_seq ..).trans (restoreStopped_other _ _ _ hk)⟩
end

/-! ### Frames that are zeroed (R38, R40, R251) -/

theorem frame_setRun_one (a : Arena) (f : Nat) (v : FrameUse) (k : Nat) : (a.setRun f 1 v).frame k = if k = f then v else a.frame k :=
  kget_kset _ _ _ _ _

/-- An arena with one frame zeroed. -/
def Arena.zeroedAt (a : Arena) (f : Nat) : Arena := a.setRun f 1 .zeroed

theorem zeroedAt_frames (a : Arena) (f : Nat) : (a.zeroedAt f).frame f = .zeroed ∧ ∀ k, k ≠ f → (a.zeroedAt f).frame k = a.frame k :=
  ⟨(frame_setRun_one ..).trans (if_pos rfl), fun _ hk => (frame_setRun_one ..).trans (if_neg hk)⟩

section
variable {s : State} {p f : Nat} (ha : s.asleep = false) (hw : ∀ w ∈ (s.part p).waiting, w.what.isReserve = false)
include ha

theorem execFrameZeroed_far (hf : f < (s.part p).kv.far.frames) (hd : (s.part p).kv.far.frame f = .dirty)
    (hn : s.demandOn p ((s.part p).kv.far.va f) = false) : execFrameZeroed p true f s = .next
      (modKv p (fun k => { k with far := (s.part p).kv.far.zeroedAt f })
        (writeVa p false ((s.part p).kv.far.va f) (List.replicate 8192 0) s)) := by
  have hguard : (s.asleep || decide ((s.part p).kv.far.frames ≤ f) || decide ((s.part p).kv.far.frame f ≠ .dirty)
      || s.demandOn p ((s.part p).kv.far.va f)) = false := by simp [ha, hf, hd, hn]
  unfold execFrameZeroed
  simp only [if_true, hguard, Bool.false_eq_true, if_false]
  rfl

include hw

/-- No reservation waits: the frame is zeroed, and nothing more. -/
theorem execFrameZeroed_hbm (hf : f < (s.part p).kv.hbm.frames) (hd : (s.part p).kv.hbm.frame f = .dirty)
    (hn : s.demandOn p ((s.part p).kv.hbm.va f) = false) : execFrameZeroed p false f s = .next
      ((modKv p (fun k => { k with hbm := (s.part p).kv.hbm.zeroedAt f })
        (writeVa p false ((s.part p).kv.hbm.va f) (List.replicate 8192 0) s)).modPart p
          (fun q => { q with waiting := q.waiting.filter (fun w => !w.what.isReserve) })) := by
  have hguard : (s.asleep || decide ((s.part p).kv.hbm.frames ≤ f) || decide ((s.part p).kv.hbm.frame f ≠ .dirty)
      || s.demandOn p ((s.part p).kv.hbm.va f)) = false := by simp [ha, hf, hd, hn]
  have hnone : ((modKv p (fun k => { k with hbm := (s.part p).kv.hbm.setRun f 1 .zeroed })
      (writeVa p false ((s.part p).kv.hbm.va f) (List.replicate 8192 0) s)).part p).waiting.filter (fun w => w.what.isReserve) = [] := by
    rw [waiting_modKv, waiting_of_uncounted (writeVa_uncounted ..), List.filter_eq_nil_iff]
    exact fun w h => Bool.eq_false_iff.1 (hw w h)
  unfold execFrameZeroed
  simp only [hguard, Bool.false_eq_true, if_false, takeWaits, hnone, List.foldl_nil]
  rfl
end

/-! ### A reservation whose wait has run out (R251) -/

theorem complete_find (r : Nat) (q : BitVec 16) (st d b : Nat) (s : State) : ((complete r q st d b s).ring r).find q = none := by
  cases h : (s.ring r).find q with
  | none => simp only [complete, h]
  | some o => exact (complete_answers s r q st d b (by rw [h]; rfl)).1

theorem completeWith_find (p r : Nat) (q : BitVec 16) (img : BitVec 512) (d : Nat) (bs : List Byte) (s : State) :
    ((completeWith p r q img d bs s).ring r).find q = none := by
  unfold completeWith
  split
  · exact complete_find ..
  · dsimp only
    split <;> exact complete_find ..

theorem reserveOne_waits (p : Nat) (i : BitVec 20) (n : Nat) (s : State) : (reserveOne p i n s).2.2.waits = s.waits := by
  unfold reserveOne
  dsimp only
  split
  · rfl
  split
  · rfl
  split
  · rfl
  split
  · rfl
  · rw [waits_setSeq, waits_modKv]

/-- Where no entry waits, every entry is decided. -/
theorem reserveAll_decides (p : Nat) (todo : List (Nat × Nat × Nat)) (rs : List Nat) (frames : Nat) (s : State) :
    (reserveAll p false todo rs frames s).2.2.1 = false ∧ (reserveAll p false todo rs frames s).2.2.2.waits = s.waits := by
  induction todo generalizing rs frames s with
  | nil => exact ⟨rfl, rfl⟩
  | cons e more ih =>
    simp only [reserveAll, Bool.false_and, Bool.false_eq_true, if_false]
    obtain ⟨hdone, hwaits⟩ := ih (rs ++ [(reserveOne p (BitVec.ofNat 20 e.1) e.2.1 s).1])
      (frames + (reserveOne p (BitVec.ofNat 20 e.1) e.2.1 s).2.1) (reserveOne p (BitVec.ofNat 20 e.1) e.2.1 s).2.2
    exact ⟨hdone, hwaits.trans (reserveOne_waits ..)⟩

section
variable (p r : Nat) (q : BitVec 16) (img : BitVec 512) (es : List (Nat × Nat × Nat)) (rs : List Nat) (fr : Nat) (s : State)

theorem withdraw_waits (lists : List Nat) : (withdraw p img lists s).waits = s.waits :=
  view_foldl State.waits (fun _ _ => view_foldl State.waits (fun t _ => waits_of_uncounted (writeVa_uncounted t p false _ _)) lists _) _ s

theorem finishReserve_ends : (finishReserve p r q img es rs fr s).waits = s.waits
    ∧ ((finishReserve p r q img es rs fr s).ring r).find q = none := by
  refine ⟨?_, completeWith_find ..⟩
  unfold finishReserve
  dsimp only
  rw [waits_of_uncounted (completeWith_uncounted ..)]
  exact (waits_modPart _ _ rfl).trans (withdraw_waits ..)

theorem goReserve_decides : (goReserve p r q img false es rs fr s).waits = s.waits
    ∧ ((goReserve p r q img false es rs fr s).ring r).find q = none := by
  obtain ⟨hdone, hwaits⟩ := reserveAll_decides p (es.drop rs.length) rs fr s
  simp only [goReserve, hdone, Bool.false_eq_true, if_false]
  exact (finishReserve_ends ..).imp_left (·.trans hwaits)
end

section
variable {s : State} {p : Nat} {w : Waiting} (hp : s.ringOwner w.ring = some p) (hw : (s.part p).waiting = [w]) (hr : w.what.isReserve = true)
  (ho : ((s.ring w.ring).find w.seq).isSome = true)
include hp hw hr

theorem execReserveWaitTimeout_resumes : execReserveWaitTimeout w.ring w.seq s = .next (resumeReserve p false w (dropWait p w s)) := by
  simp only [execReserveWaitTimeout, hp, hw, List.find?_cons, decide_true, hr, Bool.and_true]
  rfl

include ho

theorem reserveWaitTimeout_decides : completes (.reserveWaitTimeout w.ring w.seq) s (fun t =>
    (t.part p).waiting = [] ∧ (t.ring w.ring).find w.seq = none) := by
  obtain ⟨o, ho⟩ := Option.isSome_iff_exists.1 ho
  have ho : ((dropWait p w s).ring w.ring).find w.seq = some o := ho
  refine ⟨_, execReserveWaitTimeout_resumes hp hw hr, ?_⟩
  cases hwhat : w.what with
  | reserve es rs fr =>
    simp only [resumeReserve, hwhat, ho]
    obtain ⟨hwaits, hfind⟩ := goReserve_decides p w.ring w.seq o.image es rs fr (dropWait p w s)
    exact ⟨waiting_of_waits hwaits (dropWait_waiting hw), hfind⟩
  | _ => rw [hwhat] at hr; exact absurd hr Bool.false_ne_true
end

/-! ### The obligation -/

/-- Settles O37: the descriptor that a copy's end leaves, the one frame that is zeroed, and the reservation decided to its end. -/
theorem sequencesMove : Obligations.SequencesMove := by
  unfold Obligations.SequencesMove
  refine ⟨fun s slot => ⟨evictCopyDone_completes, fun ha hr hb => restoreCopyDone_restores ha hr (List.findSome?_eq_none_iff.2 hb),
    fun x l ha hr hx hl => ?stops⟩, fun s p f ha hw => ⟨fun hf hd hn => ?hbm, fun hf hd hn => ?far⟩,
    fun s p r q w hp hw hring hseq hr ho => ?decided⟩
  case stops =>
    have hbad : (s.badRun (s.seq slot)).isSome = true := List.findSome?_isSome_iff.2 ⟨x, hx, Option.isSome_iff_exists.2 ⟨l, hl⟩⟩
    obtain ⟨l', hl'⟩ := Option.isSome_iff_exists.1 hbad
    exact restoreCopyDone_stops ha hr hl'
  case hbm =>
    obtain ⟨hzeroed, hothers⟩ := zeroedAt_frames (s.part p).kv.hbm f
    refine ⟨_, execFrameZeroed_hbm ha hw hf hd hn, ?_⟩
    beta_reduce
    rw [State.part_modPart_same, kv_modKv, kv_of_uncounted (writeVa_uncounted ..)]
    exact ⟨hzeroed, rfl, hothers⟩
  case far =>
    obtain ⟨hzeroed, hothers⟩ := zeroedAt_frames (s.part p).kv.far f
    refine ⟨_, execFrameZeroed_far ha hf hd hn, ?_⟩
    beta_reduce
    rw [kv_modKv, kv_of_uncounted (writeVa_uncounted ..)]
    exact ⟨hzeroed, rfl, hothers⟩
  case decided =>
    subst hring hseq
    exact reserveWaitTimeout_decides hp hw hr ho

end Sys2Proof.Machine
end

section
/-! PROOF. KV_APPEND (R239, R240, R245, R246, R685): what writing rows, resolving pages and reporting leave of the descriptors and of the
appends still to be issued, and the flags that an append of a dead sequence leaves. -/

namespace Sys2Proof.Machine

/-! ### Folds -/

/-- What each step of a fold leaves, the fold leaves. -/
theorem foldl_keeps {σ β α : Type} (F : σ → α) {f : σ → β → σ} (h : ∀ x b, F (f x b) = F x) (l : List β) (x : σ) :
    F (l.foldl f x) = F x := by
  induction l generalizing x with
  | nil => rfl
  | cons b l ih => rw [List.foldl_cons, ih, h]

/-! ### What an append leaves -/

/-- The appends still to be issued, by FIG_ID. -/
def Part.lefts (q : Part) : Nat → Option (List (Nat × Option Nat)) := fun fig => (q.active fig).map (·.appendLeft)

/-- The appends still to be issued and the descriptors, that of slot `slot` without its pages and sealed groups. -/
def State.appendView (slot : Nat) (s : State) : (Nat → Nat → Option (List (Nat × Option Nat))) × (Nat → Seq) :=
  (fun p => (s.part p).lefts, fun k => if k = slot then { s.seq k with pages := [], sealed := [] } else s.seq k)

section
variable {s t : State} {slot : Nat}

theorem appendView_of (hl : (fun p => (t.part p).lefts) = fun p => (s.part p).lefts) (hs : t.seqs = s.seqs) :
    t.appendView slot = s.appendView slot := by
  refine Prod.ext hl ?_
  funext k
  simp only [State.appendView, seq_of_seqs hs]

theorem lefts_of_uncounted (h : t.uncounted = s.uncounted) : (fun p => (t.part p).lefts) = fun p => (s.part p).lefts :=
  funext fun p => (congrArg Part.lefts (bare_of_uncounted h p) :)

theorem appendView_of_uncounted (h : t.uncounted = s.uncounted) (hs : t.seqs = s.seqs) : t.appendView slot = s.appendView slot :=
  appendView_of (lefts_of_uncounted h) hs

/-- Neither the partitions nor the descriptors changed. -/
theorem appendView_of_mask (h : t.mask 0x3ffffff7ef#38 = s.mask 0x3ffffff7ef#38) : t.appendView slot = s.appendView slot :=
  appendView_of_uncounted (uncounted_of_parts (same_of_mask h .parts (by decide))) (same_of_mask h .seqs (by decide))

theorem appendView_modSeq (s : State) {f : Seq → Seq}
    (h : ({ f (s.seq slot) with pages := [], sealed := [] } : Seq) = { s.seq slot with pages := [], sealed := [] }) :
    (s.modSeq slot f).appendView slot = s.appendView slot := by
  refine Prod.ext rfl ?_
  funext k
  by_cases e : k = slot
  · subst e
    simp only [State.appendView, if_true, State.seq_modSeq_same, h]
  · simp only [State.appendView, e, if_false, State.seq_modSeq_other _ _ _ e]
end

section
variable (s : State) (slot : Nat)

/-- A change of an attempt that leaves its place and the appends still to be issued. -/
theorem modActive_lefts (p id : Nat) {f : RunFig → RunFig} (hf : ∀ a, (f a).fig = a.fig ∧ (f a).appendLeft = a.appendLeft) :
    (fun k => ((modActive p id f s).part k).lefts) = fun k => (s.part k).lefts := by
  refine view_modPart Part.lefts s p ?_
  funext fig
  cases hr : (s.part p).run with
  | none => rfl
  | some r =>
    have hg (a : RunFig) : (if (s.part p).figId a.fig = id then f a else a).fig = a.fig
        ∧ (if (s.part p).figId a.fig = id then f a else a).appendLeft = a.appendLeft := by
      split
      · exact hf a
      · exact ⟨rfl, rfl⟩
    have hfound : (fun a : RunFig => decide ((s.part p).figId a.fig = fig)) ∘ (fun a => if (s.part p).figId a.fig = id then f a else a)
        = fun a => decide ((s.part p).figId a.fig = fig) := by
      funext a
      rw [Function.comp_apply, (hg a).1]
    have hleft : (fun a : RunFig => a.appendLeft) ∘ (fun a => if (s.part p).figId a.fig = id then f a else a) = fun a => a.appendLeft := by
      funext a
      exact (hg a).2
    simp only [Part.lefts, Part.active, hr]
    refine (congrArg (Option.map _) List.find?_map).trans ?_
    rw [Option.map_map, hleft]
    exact congrArg (Option.map _) (congrArg (List.find? · r.active) hfound)

theorem appendView_modActive (p id : Nat) {f : RunFig → RunFig} (hf : ∀ a, (f a).fig = a.fig ∧ (f a).appendLeft = a.appendLeft) :
    (modActive p id f s).appendView slot = s.appendView slot := appendView_of (modActive_lefts s p id hf) rfl

theorem appendView_askAbort (p fig : Nat) (c : AbortCause) : (askAbort p fig c s).appendView slot = s.appendView slot :=
  appendView_modActive s slot p fig fun a => by split <;> exact ⟨rfl, rfl⟩

theorem appendView_postEvent (p code payload : Nat) : (postEvent p code payload s).appendView slot = s.appendView slot :=
  appendView_of_mask (postEvent_mask (by decide) ..)

theorem appendView_modPart (p : Nat) {f : Part → Part} (h : (f (s.part p)).lefts = (s.part p).lefts) :
    (s.modPart p f).appendView slot = s.appendView slot := appendView_of (view_modPart Part.lefts s p h) rfl

theorem appendView_raise (c i : Nat) (fl : Flags) : (raise c i fl s).appendView slot = s.appendView slot := rfl

theorem appendView_appendReports (p code payload n : Nat) : (appendReports p code payload n s).appendView slot = s.appendView slot :=
  appendView_of_mask (appendReports_mask (by decide) ..)

/-! Rows that fail, or that are off (R323, R324, R331). -/

theorem appendView_countPerr (c : Nat) : (countPerr c s).appendView slot = s.appendView slot := by
  have hown (o : Option Nat) (off : Nat) (t : State) : (satOwned o off t).appendView slot = t.appendView slot :=
    appendView_of_uncounted (satOwned_uncounted ..) (seqs_of_mask (satOwned_mask (by decide) ..))
  unfold countPerr
  exact view_ite (State.appendView slot) (hown _ _ _) rfl

theorem appendView_spoilRegions (c row : Nat) : (spoilRegions c row s).appendView slot = s.appendView slot := by
  unfold spoilRegions
  split
  · rfl
  · exact appendView_modPart _ _ _ rfl

theorem appendView_parityDetect (p fig c row : Nat) (bank : Option Nat) :
    (parityDetect p fig c row bank s).appendView slot = s.appendView slot := by
  have hreport : (postEvent p 0x40 (payloadOf fig c (parityRest row bank)) (countPerr c s)).appendView slot = s.appendView slot :=
    (appendView_postEvent ..).trans (appendView_countPerr ..)
  have hspoilt := view_ite (State.appendView slot) (b := bank.isNone = true) ((appendView_spoilRegions _ slot c row).trans hreport) hreport
  have hpoisoned (u : State) : (u.modCore c (fun k => { k with poisoned := true })).appendView slot = u.appendView slot := rfl
  refine (appendView_modActive _ slot p fig ?_).trans ((appendView_askAbort ..).trans ((hpoisoned _).trans hspoilt))
  exact fun a => ⟨rfl, rfl⟩

theorem appendView_touchRows (p fig c i : Nat) (rd wr : List Nat) : (touchRows p fig c i rd wr s).appendView slot = s.appendView slot := by
  have hread (l : List Nat) (u : State) :
      (l.foldl (fun t r => parityDetect p fig c r none t) u).appendView slot = u.appendView slot :=
    view_foldl (State.appendView slot) (fun t r => appendView_parityDetect t slot p fig c r none) l u
  unfold touchRows
  exact view_ite (State.appendView slot) (hread _ _)
    ((appendView_askAbort ..).trans ((appendView_postEvent ..).trans ((appendView_raise ..).trans (hread _ _))))

/-! Pages resolved (R237, R245). -/

theorem appendView_readDescriptor (k d : Nat) (bad : Bool) : (readDescriptor k d bad s).appendView slot = s.appendView slot := by
  refine appendView_of_uncounted ?_ (seqs_of_mask (readDescriptor_mask (by decide) ..))
  unfold readDescriptor
  exact view_ite State.uncounted (blkCount_uncounted ..) rfl

theorem appendView_walkPages (k p : Nat) (sid : BitVec 20) (tok : Nat) (cur stream : Option Nat) :
    (walkPages k p sid tok cur stream s).2.appendView slot = s.appendView slot := by
  refine appendView_of_uncounted ?_ (seqs_of_mask (walkPages_mask (by decide) ..))
  unfold walkPages
  dsimp only
  split <;> exact acctAdd_uncounted s p _ (by decide)

theorem appendView_appendPages (p core : Nat) (sid : BitVec 20) (ts : List Nat) :
    (appendPages p core sid ts s).2.appendView slot = s.appendView slot := by
  refine foldl_keeps (fun x : List (Nat × KvFound) × State => x.2.appendView slot) (fun x t => ?_) ts _
  dsimp only
  split
  · rfl
  · dsimp only
    exact (appendView_walkPages ..).trans (appendView_readDescriptor ..)

/-! Rows written (R232, R234, R240). -/

theorem appendView_writeVa (p : Nat) (b : Bool) (va : Nat) (bs : List Byte) : (writeVa p b va bs s).appendView slot = s.appendView slot :=
  appendView_of_uncounted (writeVa_uncounted ..) (seqs_of_mask (writeVa_mask (by decide) ..))

theorem appendView_appendK (p fig : Nat) (o : AppendOp) (d : Seq) (g : Page) (head t : Nat) (vs : List Num) :
    (appendK p fig o d g head t vs s).1.appendView slot = s.appendView slot := by
  unfold appendK
  split
  · rfl
  · exact view_ite (State.appendView slot) ((appendView_writeVa ..).trans (appendView_writeVa ..)) (appendView_writeVa ..)

/-- Sealing a group changes the pages and the sealed groups of its sequence (R234, R235). -/
theorem appendView_sealGroup (p : Nat) (o : AppendOp) (head t : Nat) (d : Seq) (g : Page) (f : Fmt) :
    (sealGroup p o slot head t d g f s).1.appendView slot = s.appendView slot := by
  unfold sealGroup
  exact (appendView_modSeq _ rfl).trans
    (view_foldl (State.appendView slot) (fun t b => (appendView_writeVa ..).trans (appendView_writeVa ..)) _ s)

theorem appendView_appendV (p fig : Nat) (o : AppendOp) (d : Seq) (g : Page) (head t : Nat) (vs : List Num) :
    (appendV p fig o slot d g head t vs s).1.appendView slot = s.appendView slot := by
  unfold appendV
  split
  · rfl
  dsimp only
  split
  · split
    · exact (appendView_sealGroup ..).trans (appendView_writeVa ..)
    · exact appendView_writeVa ..
  · exact appendView_writeVa ..

theorem appendView_appendToken (p fig : Nat) (o : AppendOp) (head t e : Nat) (g : Page) :
    (appendToken p fig o slot head t e g s).1.appendView slot = s.appendView slot :=
  (appendView_appendV ..).trans (appendView_appendK ..)
end

/-- Heads and tokens are written one after another. -/
theorem appendView_rows {slot : Nat} {g : Nat × Nat × Nat → State × Flags → Nat × KvFound → State × Flags}
    (hg : ∀ h x t, (g h x t).1.appendView slot = x.1.appendView slot) (hs : List (Nat × Nat × Nat)) (ps : List (Nat × KvFound))
    (x : State × Flags) : (hs.foldl (fun x h => ps.foldl (g h) x) x).1.appendView slot = x.1.appendView slot :=
  foldl_keeps (fun x : State × Flags => x.1.appendView slot)
    (fun x h => foldl_keeps (fun x : State × Flags => x.1.appendView slot) (hg h) ps x) hs x

/-- An append that runs writes rows of its sequence, and issues nothing (R245). -/
theorem appendView_runAppend (p fig : Nat) (o : AppendOp) (s : State) :
    (runAppend p fig o s).appendView (seqSlot o.seqId) = s.appendView (seqSlot o.seqId) := by
  have hreports (l : List (Nat × Nat)) (n : Nat) (t : State) :
      (l.foldl (fun t x => appendReports p 0x30 (walkError fig x.1 o.list o.seqId x.2) n t) t).appendView (seqSlot o.seqId)
        = t.appendView (seqSlot o.seqId) :=
    view_foldl (State.appendView _) (fun t x => appendView_appendReports ..) l t
  have hpages (u : State) (ts : List Nat) (rd : List Nat) :
      (appendPages p o.core o.seqId ts (touchRows p fig o.core o.slot rd [] u)).2.appendView (seqSlot o.seqId)
        = u.appendView (seqSlot o.seqId) := (appendView_appendPages ..).trans (appendView_touchRows ..)
  unfold runAppend
  dsimp only
  split
  case' h_2 => refine (appendView_appendReports ..).trans ?_
  all_goals
    refine (hreports ..).trans ((appendView_raise ..).trans ((appendView_rows (fun h x t => ?_) _ _ _).trans (hpages ..)))
    split
    · rfl
    · exact appendView_appendToken ..

/-! ### Flags of an append (R115, R116, R239) -/

/-- The slot's flags, with its item or apart from items, have INV. -/
def Slot.inv (v : Slot) : Prop := v.item.inv = true ∨ v.other.inv = true

theorem Flags.or_inv (a b : Flags) : (a.or b).inv = (a.inv || b.inv) := rfl

/-- One of the flag records has INV: so has their union. -/
theorem Flags.all_inv {l : List Flags} {f : Flags} (hf : f ∈ l) (hi : f.inv = true) : (Flags.all l).inv = true := by
  have hacc (m : List Flags) (a : Flags) (ha : a.inv = true) : (m.foldl Flags.or a).inv = true := by
    induction m generalizing a with
    | nil => exact ha
    | cons g m ih => exact ih _ (by rw [Flags.or_inv, ha, Bool.true_or])
  obtain ⟨l₁, l₂, rfl⟩ := List.append_of_mem hf
  rw [Flags.all, List.foldl_append, List.foldl_cons]
  exact hacc _ _ (by rw [Flags.or_inv, hi, Bool.or_true])

theorem core_of_cores {s t : State} (h : t.cores = s.cores) (c : Nat) : t.core c = s.core c := by rw [State.core, State.core, h]

theorem slot_of_issuing {s : State} {c i p fig : Nat} (h : s.issuing c i = some (p, fig)) : ((s.core c).slot i).fig = some (p, fig) := by
  unfold State.issuing at h
  dsimp only at h
  split at h
  · exact absurd h nofun
  · exact h

/-- INV raised in a slot that works a Figure (R115). -/
theorem raise_inv {s : State} {c i p fig : Nat} (h : ((s.core c).slot i).fig = some (p, fig)) :
    (((raise c i flInv s).core c).slot i).fig = some (p, fig) ∧ (((raise c i flInv s).core c).slot i).inv := by
  rw [raise, State.core_modCore_same]
  simp only [h]
  split
  · rw [Core.slot_setSlot]
    exact ⟨rfl, .inl (by rw [Flags.or_inv]; exact Bool.or_true _)⟩
  · rw [Core.slot_setSlot]
    exact ⟨rfl, .inr (by rw [Flags.or_inv]; exact Bool.or_true _)⟩

theorem slotFlags_inv {s : State} {c i p fig : Nat} (hc : c ∈ s.partCores p) (h : ((s.core c).slot i).fig = some (p, fig))
    (hv : ((s.core c).slot i).other.inv = true) : (s.slotFlags p fig).inv = true := by
  refine Flags.all_inv (List.mem_map_of_mem hc) ?_
  rw [Flags.or_inv]
  by_cases hi : i = 0
  · rw [Core.slot, if_pos hi] at h hv
    rw [if_pos h, hv, Bool.true_or]
  · rw [Core.slot, if_neg hi] at h hv
    rw [if_pos h, hv, Bool.or_true]

/-! ### The end of an append (R116) -/

/-- A slot without the flags of Figure `fig` of partition `p` that belong to no item. -/
def Slot.cleared (p fig : Nat) (v : Slot) : Slot := if v.fig = some (p, fig) then { v with other := Flags.none } else v

/-- The cores of a list with such slots. -/
def clearSlots (p fig : Nat) (cs : List Nat) (s : State) : State :=
  cs.foldl (fun t c => t.modCore c (fun k => { k with slot0 := k.slot0.cleared p fig, slot1 := k.slot1.cleared p fig })) s

section
variable (s : State) (p fig : Nat) (cs : List Nat)

theorem clearSlots_item (c i : Nat) : (((clearSlots p fig cs s).core c).slot i).item = ((s.core c).slot i).item := by
  have hcleared (v : Slot) : (v.cleared p fig).item = v.item := by
    unfold Slot.cleared
    split <;> rfl
  refine view_foldl (fun t => ((t.core c).slot i).item) (fun t k => ?_) cs s
  by_cases e : c = k
  · subst e
    rw [State.core_modCore_same]
    by_cases hi : i = 0
    · simp only [Core.slot, hi, if_true, hcleared]
    · simp only [Core.slot, hi, if_false, hcleared]
  · rw [State.core_modCore_other _ _ _ e]

theorem clearSlots_other {c : Nat} (hc : c ∉ cs) : (clearSlots p fig cs s).core c = s.core c := by
  unfold clearSlots
  induction cs generalizing s with
  | nil => rfl
  | cons k cs ih =>
    obtain ⟨hk, hcs⟩ := not_or.1 (List.mem_cons.not.1 hc)
    rw [List.foldl_cons, ih _ hcs, State.core_modCore_other _ _ _ hk]

theorem clearSlots_parts : (clearSlots p fig cs s).parts = s.parts := by
  refine view_foldl State.parts (fun t c => ?_) cs s
  rfl
end

/-- An attempt that has done an append. -/
def RunFig.appendDone (o : AppendOp) (a : RunFig) : RunFig := { a with appendLeft := a.appendLeft.erase (o.list, o.head) }

/-- An attempt with flags joined to its record. -/
def RunFig.flagged (fl : Flags) (a : RunFig) : RunFig := { a with flags := a.flags.or fl }

section
variable {s : State} {p fig : Nat} {o : AppendOp} {a : RunFig} (ha : (s.part p).active fig = some a)
include ha

theorem appendDone_active : ((modActive p fig (RunFig.appendDone o) s).part p).active fig = some (a.appendDone o) :=
  modActive_active (RunFig.appendDone o) (fun _ => rfl) ha

theorem endAppend_more (he : (a.appendDone o).appendLeft.isEmpty = false) :
    endAppend p fig o s = modActive p fig (RunFig.appendDone o) s := by
  have hdone := appendDone_active (o := o) ha
  unfold RunFig.appendDone at hdone he
  simp only [endAppend, hdone, he, Bool.not_false, if_true]
  rfl

theorem endAppend_last (he : (a.appendDone o).appendLeft.isEmpty = true) : endAppend p fig o s
    = modActive p fig (RunFig.flagged (s.slotFlags p fig)) (clearSlots p fig (s.partCores p) (modActive p fig (RunFig.appendDone o) s)) := by
  have hdone := appendDone_active (o := o) ha
  unfold RunFig.appendDone at hdone he
  simp only [endAppend, hdone, he, Bool.not_true, Bool.false_eq_true, if_false]
  rfl

/-- An append done: it leaves the list, and INV of a slot that works the Figure stays there or joins the record. -/
theorem endAppend_ends : ∃ b, ((endAppend p fig o s).part p).active fig = some b
    ∧ b.appendLeft = a.appendLeft.erase (o.list, o.head)
    ∧ ∀ c i, ((s.core c).slot i).fig = some (p, fig) → ((s.core c).slot i).inv →
        b.flags.inv = true ∨ (((endAppend p fig o s).core c).slot i).inv := by
  have hdone := appendDone_active (o := o) ha
  cases he : (a.appendDone o).appendLeft.isEmpty with
  | false =>
    rw [endAppend_more ha he]
    exact ⟨_, hdone, rfl, fun c i _ hv => .inr hv⟩
  | true =>
    have hcleared := part_of_parts (clearSlots_parts (modActive p fig (RunFig.appendDone o) s) p fig (s.partCores p)) p
    rw [← hcleared] at hdone
    rw [endAppend_last ha he]
    refine ⟨_, modActive_active (RunFig.flagged (s.slotFlags p fig)) (fun _ => rfl) hdone, rfl, fun c i hf hv => ?_⟩
    by_cases hc : c ∈ s.partCores p
    · refine hv.elim (fun hitem => .inr (.inl ?_)) (fun hother => .inl ?_)
      · exact (congrArg Flags.inv (clearSlots_item ..)).trans hitem
      · rw [RunFig.flagged, Flags.or_inv, slotFlags_inv hc hf hother, Bool.or_true]
    · refine .inr ?_
      have hcore := clearSlots_other (modActive p fig (RunFig.appendDone o) s) p fig _ hc
      rwa [modActive, State.core_modPart, hcore]
end

/-! ### What the view says -/

section
variable {s u : State} {p fig slot : Nat} {a : RunFig}

theorem active_of_appendView (h : u.appendView slot = s.appendView slot) (ha : (s.part p).active fig = some a) :
    ∃ b, (u.part p).active fig = some b ∧ b.appendLeft = a.appendLeft := by
  have hl : ((u.part p).active fig).map (·.appendLeft) = some a.appendLeft := by
    have := congrFun (congrFun (congrArg Prod.fst h) p) fig
    simpa only [State.appendView, Part.lefts, ha, Option.map_some] using this
  exact Option.map_eq_some_iff.1 hl

theorem seq_of_appendView (h : u.appendView slot = s.appendView slot) (k : Nat) :
    ((u.seq k).len = (s.seq k).len ∧ (u.seq k).resEnd = (s.seq k).resEnd ∧ (u.seq k).state = (s.seq k).state)
    ∧ (k ≠ slot → u.seq k = s.seq k) := by
  have hk : (if k = slot then { u.seq k with pages := [], sealed := [] } else u.seq k)
      = if k = slot then { s.seq k with pages := [], sealed := [] } else s.seq k := congrFun (congrArg Prod.snd h) k
  by_cases e : k = slot
  · rw [if_pos e, if_pos e] at hk
    exact ⟨⟨(congrArg Seq.len hk :), (congrArg Seq.resEnd hk :), (congrArg Seq.state hk :)⟩, fun hne => absurd e hne⟩
  · rw [if_neg e, if_neg e] at hk
    rw [hk]
    exact ⟨⟨rfl, rfl, rfl⟩, fun _ => rfl⟩
end

/-! ### KV_APPEND (R239, R245) -/

theorem endAppend_seq (p fig : Nat) (o : AppendOp) (s : State) (k : Nat) : (endAppend p fig o s).seq k = s.seq k :=
  seq_of_seqs (seqs_of_mask (endAppend_mask (by decide) p fig o s)) k

section
variable {s : State} {o : AppendOp} {p fig : Nat} {a : RunFig} {f : Figure} (hi : s.issuing o.core o.slot = some (p, fig))
  (ha : (s.part p).active fig = some a) (hf : (s.part p).figure a.fig = some f) (hdue : s.appendDue p f o = true) (happ : a.appended = true)
  (hleft : a.appendLeft.contains (o.list, o.head) = true) (hsrc : appendSrcOk o.src = true)
include hi ha hf hdue happ hleft hsrc

/-- An append of a dead sequence raises INV, is reported and done (R239). -/
theorem execKvAppend_stale (hl : s.seqLive p o.seqId = false) : ∃ u, execKvAppend o s = .next (endAppend p fig o u)
    ∧ u.appendView (seqSlot o.seqId) = s.appendView (seqSlot o.seqId) ∧ u.seqs = s.seqs ∧ u.cores = (raise o.core o.slot flInv s).cores := by
  simp only [execKvAppend, hi, ha, hf, happ, hleft, hsrc, hdue, hl, Bool.not_true, Bool.not_false, Bool.or_self, Bool.true_or,
    Bool.false_eq_true, if_true, if_false]
  exact ⟨_, rfl, (appendView_appendReports ..).trans (appendView_raise ..), seqs_of_mask (appendReports_mask (by decide) ..),
    same_of_mask (w := 0x3fffffffdf#38) (appendReports_mask (by decide) ..) .cores (by decide)⟩

/-- An append of a live sequence is reported, or run, and done (R239, R245). -/
theorem execKvAppend_live (hl : s.seqLive p o.seqId = true) : ∃ u, execKvAppend o s = .next (endAppend p fig o u)
    ∧ u.appendView (seqSlot o.seqId) = s.appendView (seqSlot o.seqId) := by
  simp only [execKvAppend, hi, ha, hf, happ, hleft, hsrc, hdue, hl, Bool.not_true, Bool.or_self, Bool.false_or, Bool.false_eq_true,
    if_true, if_false]
  split
  · exact ⟨_, rfl, (appendView_appendReports ..).trans (appendView_raise ..)⟩
  split
  · exact ⟨_, rfl, appendView_raise ..⟩
  · exact ⟨_, rfl, appendView_runAppend ..⟩
end

/-! ### The obligation -/

/-- Settles O35: the append's work leaves the view of lists and descriptors, its end takes it off the list, and INV of a dead sequence stays
in the slot or joins the record. -/
theorem appendsKeepLen : Obligations.AppendsKeepLen := by
  unfold Obligations.AppendsKeepLen
  intro s o p fig a f hi ha hf hdue happ hleft hsrc
  cases hl : s.seqLive p o.seqId with
  | false =>
    obtain ⟨u, hu, hview, hseqs, hcores⟩ := execKvAppend_stale hi ha hf hdue happ hleft hsrc hl
    obtain ⟨hfig, hinv⟩ := raise_inv (slot_of_issuing hi)
    rw [← core_of_cores hcores] at hfig hinv
    obtain ⟨a', ha', hleft'⟩ := active_of_appendView hview ha
    obtain ⟨b, hb, hbleft, hflags⟩ := endAppend_ends (o := o) ha'
    have hsame (k : Nat) : (endAppend p fig o u).seq k = s.seq k := (endAppend_seq ..).trans (seq_of_seqs hseqs k)
    refine ⟨_, hu, ⟨b, hb, hbleft.trans (by rw [hleft']), fun _ => hflags _ _ hfig hinv⟩, fun k => ?_, fun k _ => hsame k, fun _ => hsame⟩
    rw [hsame]
    exact ⟨rfl, rfl, rfl⟩
  | true =>
    obtain ⟨u, hu, hview⟩ := execKvAppend_live hi ha hf hdue happ hleft hsrc hl
    obtain ⟨a', ha', hleft'⟩ := active_of_appendView hview ha
    obtain ⟨b, hb, hbleft, -⟩ := endAppend_ends (o := o) ha'
    refine ⟨_, hu, ⟨b, hb, hbleft.trans (by rw [hleft']), nofun⟩, fun k => ?_, fun k hk => ?_, nofun⟩
    · rw [endAppend_seq]
      exact (seq_of_appendView hview k).1
    · rw [endAppend_seq]
      exact (seq_of_appendView hview k).2 hk

end Sys2Proof.Machine
end

section
/-! PROOF. Claim Counters (R289 to R294, R526): what a claim takes from a counter, and what a load, a claim and a refused claim leave of
the counters, the core and the record of refused claims. -/

namespace Sys2Proof.Machine

/-! ### Taking items (R290, R293) -/

/-- The indices that NEXT has still to pass, less those committed in an earlier attempt (R290, log 36), in rising order. -/
def Clm.fresh (k : Clm) (done : List Nat) : List Nat :=
  ((List.range (k.limit - k.next)).map (k.next + ·)).filter (fun i => !done.contains i)

/-- NEXT after a claim from it: past the last index taken, or at LIMIT where no index was left. -/
def Clm.nextAfter (k : Clm) (got : List Nat) : Nat :=
  match got.getLast? with
  | some i => i + 1
  | none => k.limit

section
variable {k : Clm} {done : List Nat} {z i : Nat}

theorem Clm.mem_fresh : i ∈ k.fresh done ↔ (k.next ≤ i ∧ i < k.limit) ∧ i ∉ done := by
  have hrange : (List.range (k.limit - k.next)).map (k.next + ·) = List.range' k.next (k.limit - k.next) :=
    List.range'_eq_map_range.symm
  simp only [Clm.fresh, hrange, List.mem_filter, List.mem_range'_1, Bool.not_eq_true', List.contains_eq_mem, decide_eq_false_iff_not]
  refine and_congr_left fun _ => ?_
  omega

theorem Clm.fresh_sorted (k : Clm) (done : List Nat) : (k.fresh done).Pairwise (· < ·) := by
  rw [Clm.fresh, ← List.range'_eq_map_range]
  exact List.Pairwise.filter _ List.pairwise_lt_range'

/-- A claim from NEXT takes nothing only where no fresh index is left, and else moves NEXT just past the last it takes. -/
theorem Clm.nextAfter_take (hz : 0 < z) : (k.fresh done = [] ∧ k.nextAfter ((k.fresh done).take z) = k.limit)
    ∨ ∃ l j, (k.fresh done).take z = l ++ [j] ∧ k.nextAfter ((k.fresh done).take z) = j + 1 := by
  cases h : ((k.fresh done).take z).getLast? with
  | none =>
    have hnil := (List.take_eq_nil_iff.1 (List.getLast?_eq_none_iff.1 h)).resolve_left (Nat.pos_iff_ne_zero.1 hz)
    exact .inl ⟨hnil, by rw [Clm.nextAfter, h]⟩
  | some j =>
    obtain ⟨l, hl⟩ := List.getLast?_eq_some_iff.1 h
    exact .inr ⟨l, j, hl, by rw [Clm.nextAfter, h]⟩

theorem Clm.nextAfter_le (hz : 0 < z) (hk : k.next ≤ k.limit) :
    k.next ≤ k.nextAfter ((k.fresh done).take z) ∧ k.nextAfter ((k.fresh done).take z) ≤ k.limit := by
  obtain ⟨-, hn⟩ | ⟨l, j, hl, hn⟩ := Clm.nextAfter_take (k := k) (done := done) hz
  · rw [hn]
    exact ⟨hk, Nat.le_refl _⟩
  · obtain ⟨⟨hle, hlt⟩, -⟩ := Clm.mem_fresh.1 (List.mem_of_mem_take (hl ▸ List.mem_append_right l (List.mem_singleton_self j)))
    rw [hn]
    exact ⟨Nat.le_succ_of_le hle, hlt⟩

theorem Clm.lt_nextAfter (hz : 0 < z) (hi : i ∈ (k.fresh done).take z) : i < k.nextAfter ((k.fresh done).take z) := by
  obtain ⟨hnil, -⟩ | ⟨l, j, hl, hn⟩ := Clm.nextAfter_take (k := k) (done := done) hz
  · rw [hnil, List.take_nil] at hi
    exact absurd hi List.not_mem_nil
  · have hsorted := (Clm.fresh_sorted k done).take (i := z)
    rw [hl, List.pairwise_append] at hsorted
    obtain ⟨-, -, hlast⟩ := hsorted
    rw [hn]
    rcases List.mem_append.1 (hl ▸ hi) with hmem | hmem
    · exact Nat.lt_succ_of_lt (hlast i hmem j (List.mem_singleton_self j))
    · rw [List.mem_singleton.1 hmem]
      exact Nat.lt_succ_self j

/-- NEXT passes no index that is neither taken nor committed: what a claim leaves of the fresh indices lies past the last it takes. -/
theorem Clm.mem_take_of_lt_nextAfter (hz : 0 < z) (hk : k.next ≤ k.limit) (hi : k.next ≤ i)
    (hlt : i < k.nextAfter ((k.fresh done).take z)) (hnew : i ∉ done) : i ∈ (k.fresh done).take z := by
  have hfresh : i ∈ k.fresh done := Clm.mem_fresh.2 ⟨⟨hi, Nat.lt_of_lt_of_le hlt (Clm.nextAfter_le hz hk).2⟩, hnew⟩
  obtain ⟨hnil, -⟩ | ⟨l, j, hl, hn⟩ := Clm.nextAfter_take (k := k) (done := done) hz
  · exact absurd (hnil ▸ hfresh) List.not_mem_nil
  · have hsorted := Clm.fresh_sorted k done
    rw [← List.take_append_drop z (k.fresh done), List.pairwise_append] at hsorted
    obtain ⟨-, -, hleft⟩ := hsorted
    rw [← List.take_append_drop z (k.fresh done), List.mem_append] at hfresh
    refine hfresh.resolve_right fun hdrop => ?_
    have hpast : j < i := hleft j (hl ▸ List.mem_append_right l (List.mem_singleton_self j)) i hdrop
    omega

/-- A claim takes from the return queue and leaves NEXT, or takes the first fresh indices and moves NEXT past them; for one index the
queue comes first (R290). -/
theorem takeItems_cases {k' : Clm} {got : List Nat} (h : takeItems k done z = (got, k')) :
    (k.queue ≠ [] ∧ got = k.queue.take z ∧ k'.next = k.next ∧ k'.limit = k.limit)
    ∨ ((k.queue = [] ∨ z ≠ 1) ∧ got = (k.fresh done).take z ∧ k'.next = k.nextAfter got ∧ k'.limit = k.limit) := by
  rw [takeItems] at h
  dsimp only at h
  split at h
  · next huse =>
    obtain ⟨rfl, rfl⟩ := Prod.mk.inj h
    refine .inl ⟨fun hnil => ?_, rfl, rfl, rfl⟩
    simp [hnil] at huse
  · next huse =>
    obtain ⟨rfl, rfl⟩ := Prod.mk.inj h
    refine .inr ⟨?_, rfl, rfl, rfl⟩
    by_contra hqueue
    obtain ⟨hq, hz⟩ := not_or.1 hqueue
    simp [hq, not_not.1 hz] at huse
end

/-- Settles O24: from the return queue NEXT stays; from NEXT the indices taken are the first fresh ones, and NEXT passes these and those
committed before only. -/
theorem claimsTakeInOrder : Obligations.ClaimsTakeInOrder := by
  unfold Obligations.ClaimsTakeInOrder
  intro k k' done got z hz hk h
  obtain ⟨-, rfl, hnext, hlimit⟩ | ⟨hqueue, rfl, hnext, hlimit⟩ := takeItems_cases h
  · refine ⟨List.length_take_le .., hlimit, hnext.ge, hnext ▸ hk, fun i hi => .inl (List.mem_of_mem_take hi), fun i hi hlt => ?_,
      fun _ hone => ⟨hnext, by rw [hone]⟩⟩
    omega
  · rw [hnext]
    obtain ⟨hle, hlast⟩ := Clm.nextAfter_le (done := done) hz hk
    refine ⟨List.length_take_le .., hlimit, hle, hlast, fun i hi => .inr ?_, fun i hi hlt => ?_,
      fun hq hone => absurd hone (hqueue.resolve_left hq)⟩
    · obtain ⟨⟨hge, -⟩, hnew⟩ := Clm.mem_fresh.1 (List.mem_of_mem_take hi)
      exact ⟨hge, Clm.lt_nextAfter hz hi, hnew⟩
    · exact or_iff_not_imp_right.2 (Clm.mem_take_of_lt_nextAfter hz hk hi hlt)

/-! ### Answers and refused claims (R290, R291, R526) -/

section
variable {s : State} {c k z : Nat}

@[simp] theorem State.clm_answerClaim (c : Nat) (x : ClaimAnswer) (j : Nat) : (answerClaim c x s).clm j = s.clm j := rfl

@[simp] theorem State.answer_answerClaim (c : Nat) (x : ClaimAnswer) : ((answerClaim c x s).core c).answer = some x := by
  rw [answerClaim, State.core_modCore_same]

@[simp] theorem State.held_answerClaim (c : Nat) (x : ClaimAnswer) : ((answerClaim c x s).core c).held = (s.core c).held := by
  rw [answerClaim, State.core_modCore_same]

theorem refuseClaim_clms (c k : Nat) (s : State) : (refuseClaim c k s).clms = s.clms :=
  same_of_mask (w := 0x200700010#38) (refuseClaim_mask (by decide) c k s) .clms (by decide)

theorem refuseClaim_cores (c k : Nat) (s : State) : (refuseClaim c k s).cores = s.cores :=
  same_of_mask (w := 0x200700010#38) (refuseClaim_mask (by decide) c k s) .cores (by decide)

theorem satAll_prot (off : Nat) (s : State) : (satAll off s).prot = s.prot :=
  same_of_mask (w := 0x700010#38) (satAll_mask (by decide) off s) .prot (by decide)

/-- A refused claim is recorded, and counted up to the counter's largest value. -/
theorem refuseClaim_prot (c k : Nat) (s : State) : (refuseClaim c k s).prot.violValid = true
    ∧ (refuseClaim c k s).prot.violCount = min 0xFFFF (s.prot.violCount + 1) := by
  rw [refuseClaim]
  dsimp only
  split
  · rw [satAll_prot]
    exact ⟨rfl, satAdd_fst 16 s.prot.violCount 1⟩
  · exact ⟨rfl, satAdd_fst 16 s.prot.violCount 1⟩

/-! ### Items handed out (R290, R294) -/

theorem giveItems_clms (attn : Bool) (k : Nat) (cs items : List Nat) (s : State) : (giveItems attn k cs items s).clms = s.clms :=
  same_of_mask (w := 0x20#38) (giveItems_mask (by decide) attn k cs items s) .clms (by decide)

/-- One item that goes to one core joins those it holds, of a forward Figure or another. -/
theorem giveItems_one (attn : Bool) (k c i : Nat) (s : State) :
    ((giveItems attn k [c] [i] s).core c).held = (s.core c).held ++ [(k, i)] := by
  cases attn <;> simp [giveItems]

/-! ### Loading and claiming (R290, R291) -/

variable {a : RunFig} {f : Figure}

theorem execClmLoad_loads (hk : s.clmFig k = some (a, f)) (hl : (s.clm k).loaded = false) (ha : a.aborting = none)
    (hdue : loadDue f a k = true) : execClmLoad k (a.countOf f k) (k / 16) f.hdr.figId s
      = .next (s.setClm k ⟨true, a.countOf f k, 0, [], [], 0, f.hdr.figId, k / 16, false, []⟩) := by
  rw [execClmLoad, hk]
  dsimp only
  rw [if_neg (by simp [hl, ha, hdue])]

/-- What a claim on counter `k` for the Figure takes: items of the counter's key, less those committed (R290, log 36). -/
def State.taken (s : State) (a : RunFig) (f : Figure) (k z : Nat) : List Nat × Clm :=
  takeItems (s.clm k) ((a.committed.filter (fun y => decide (y.1 = itemKey f a k))).map (·.2)) z

/-- The answer to a claim by what it took and the counter it left: the items, or EMPTY while items are still to retire, or DONE. -/
def claimAnswer (r : List Nat × Clm) : ClaimAnswer :=
  if r.1 = [] then (if r.2.retired < r.2.limit then .empty else .done) else .items r.1

section
variable (hk : s.clmFig k = some (a, f)) (hfen : (s.core c).fenced = false) (hhalt : (s.core c).halted = false)
  (hdie : s.pmu.dieLevel ≠ 2)
include hk hfen hhalt hdie

theorem execClmClaim_refuses (hmask : (s.figCores (k / 16) f.hdr).contains c = false) :
    execClmClaim c k z s = .next (refuseClaim c k (answerClaim c .empty s)) := by
  rw [execClmClaim]
  dsimp only
  rw [if_neg (by simp [hfen, hhalt, hdie]), hk]
  dsimp only
  rw [if_pos (by rw [hmask]; rfl)]

/-- A claim by a core that may claim: the counter is left as the claim takes from it, the claimants hold what it takes, and the core is
answered. -/
theorem execClmClaim_claims {cs : List Nat} (hmask : (s.figCores (k / 16) f.hdr).contains c = true) (ha : a.aborting = none)
    (hpois : (s.core c).poisoned = false) (happ : appendsDone f a 1 = true) (hl : (s.clm k).loaded = true)
    (hcs : a.claimants f c z = some cs) (hroom : ∀ d ∈ cs, ((s.core d).held.filter (fun h => decide (h.1 = k))).length < 2) :
    ∃ t, execClmClaim c k z s = .next (answerClaim c (claimAnswer (s.taken a f k z)) t)
      ∧ t.clms = (s.setClm k (s.taken a f k z).2).clms
      ∧ ((s.taken a f k z).1 = [] → (t.core c).held = (s.core c).held)
      ∧ (∀ i, (s.taken a f k z).1 = [i] → cs = [c] → (t.core c).held = (s.core c).held ++ [(k, i)]) := by
  have hfree : cs.any (fun d => decide (2 ≤ ((s.core d).held.filter (fun h => decide (h.1 = k))).length)) = false := by
    simpa using hroom
  rw [execClmClaim]
  dsimp only
  rw [if_neg (by simp [hfen, hhalt, hdie]), hk]
  dsimp only
  rw [if_neg (by rw [hmask]; decide), if_neg (by rw [ha, hpois, happ, hl]; decide), hcs]
  dsimp only
  rw [if_neg (by rw [hfree]; decide)]
  rw [← State.taken]
  obtain ⟨got, k'⟩ := s.taken a f k z
  cases got with
  | nil => exact ⟨_, rfl, rfl, fun _ => rfl, nofun⟩
  | cons i is =>
    refine ⟨_, rfl, giveItems_clms _ _ _ _ _, nofun, fun j hone hc => ?_⟩
    obtain ⟨rfl, rfl⟩ := List.cons.inj hone
    rw [hc]
    exact giveItems_one _ _ _ _ _
end
end

/-- Settles O25: a load sets the counter; a claim leaves what it takes in the counter and with the core; a refused claim leaves every
counter and is recorded. -/
theorem claimCounters : Obligations.ClaimCounters := by
  unfold Obligations.ClaimCounters
  intro s k a f hk
  refine ⟨fun hl ha hdue => ?_, fun c z cs hfen hhalt hdie hmask ha hpois happ hl hcs hroom => ?_, fun c z hfen hhalt hdie hmask => ?_⟩
  · exact ⟨_, execClmLoad_loads hk hl ha hdue, State.clm_setClm_same _ _ _, fun j hj => State.clm_setClm_other _ _ _ hj⟩
  · obtain ⟨t, hrun, hclms, hnone, hitem⟩ := execClmClaim_claims hk hfen hhalt hdie hmask ha hpois happ hl hcs hroom
    have hclm (j : Nat) := (State.clm_answerClaim c (claimAnswer (s.taken a f k z)) j).trans (clm_of_clms hclms j)
    refine ⟨_, hrun, (hclm k).trans (State.clm_setClm_same _ _ _), fun j hj => (hclm j).trans (State.clm_setClm_other _ _ _ hj),
      State.answer_answerClaim _ _, fun hgot => ?_, fun i hgot hc => ?_⟩
    · rw [State.held_answerClaim, hnone hgot]
    · rw [State.held_answerClaim, hitem i hgot hc]
  · have hcores : ((refuseClaim c k (answerClaim c .empty s)).core c) = (answerClaim c .empty s).core c :=
      core_of_cores (refuseClaim_cores _ _ _) c
    refine ⟨_, execClmClaim_refuses hk hfen hhalt hdie hmask, ?_, fun j => ?_, ?_,
      refuseClaim_prot _ _ _⟩
    · rw [hcores, State.answer_answerClaim]
    · rw [clm_of_clms (refuseClaim_clms _ _ _), State.clm_answerClaim]
    · rw [hcores, State.held_answerClaim]

end Sys2Proof.Machine
end

section
/-! PROOF. Receive windows (R314 to R316): what a take, a grant, a return and a row from another core leave of the window, of the taker's
channels and of the Scratchpad. -/

namespace Sys2Proof.Machine

/-! ### A window and the channels of its takers -/

/-- Window `win` of core `c`. -/
def State.window (s : State) (c win : Nat) : Window := kget Window.closed (s.core c).windows win

section
variable {s t : State} {c win : Nat}

/-- What a change of one core leaves of it, it leaves of every core. -/
theorem view_modCore {α : Type} (V : Core → α) (s : State) (c : Nat) {f : Core → Core} (h : V (f (s.core c)) = V (s.core c)) (d : Nat) :
    V ((s.modCore c f).core d) = V (s.core d) := by
  by_cases e : d = c
  · rw [e, State.core_modCore_same, h]
  · rw [State.core_modCore_other _ _ _ e]

@[simp] theorem window_setWindow (x : Window) : (setWindow c win x s).window c win = x := by
  rw [State.window, setWindow, State.core_modCore_same]
  exact kget_kset_same ..

theorem window_of_windows (h : (t.core c).windows = (s.core c).windows) : t.window c win = s.window c win := by
  rw [State.window, State.window, h]

/-- A window that is set changes no slot, no flag and no channel of any core. -/
theorem busyCh_setWindow (x : Window) (w : Nat) : ((setWindow c win x s).core w).busyCh = (s.core w).busyCh :=
  view_modCore Core.busyCh s c rfl w

theorem slot_setWindow (x : Window) (i : Nat) : ((setWindow c win x s).core c).slot i = (s.core c).slot i :=
  view_modCore (Core.slot · i) s c rfl c

theorem othersSame_setWindow (x : Window) : othersSame c s (setWindow c win x s) := fun _ hk => State.core_modCore_other _ _ _ hk

/-- The channels that a core's takes occupy are no part of a window. -/
theorem window_setBusy (f : List Nat → List Nat) (w : Nat) :
    (s.modCore w (fun k => { k with busyCh := f k.busyCh })).window c win = s.window c win :=
  window_of_windows (view_modCore Core.windows s w rfl c)

theorem Core.setSlot_windows (k : Core) (i : Nat) (v : Slot) : (k.setSlot i v).windows = k.windows := by
  unfold Core.setSlot
  split <;> rfl

theorem window_raise (i : Nat) (fl : Flags) : (raise c i fl s).window c win = s.window c win := by
  refine window_of_windows ?_
  rw [raise, State.core_modCore_same]
  dsimp only
  split
  · rfl
  · split <;> exact Core.setSlot_windows _ _ _
end

/-! ### Takes and grants (R315) -/

section
variable {s : State} {c win w ch n : Nat}

theorem execCredTake_takes (ho : (s.window c win).isOpen = true) (hf : (s.core w).fenced = false) (hh : (s.core w).halted = false)
    (hc : s.channelFree w ch = true) : execCredTake w ch c win n s = .next
      (if (s.window c win).waiting = [] ∧ n ≤ (s.window c win).avail then setWindow c win ((s.window c win).grant w n) s
      else (setWindow c win { s.window c win with waiting := (s.window c win).waiting ++ [(w, ch, n)] } s).modCore w
        (fun k => { k with busyCh := ch :: k.busyCh })) := by
  rw [execCredTake]
  dsimp only
  rw [← State.window, if_neg (by simp [ho, hf, hh, hc])]
  simp only [Bool.and_eq_true, List.isEmpty_iff, decide_eq_true_eq]
  split <;> rfl

theorem execCredTakeGrant_grants {rest : List (Nat × Nat × Nat)} (hw : (s.window c win).waiting = (w, ch, n) :: rest)
    (ho : (s.window c win).isOpen = true) (hn : n ≤ (s.window c win).avail) : execCredTakeGrant c win s = .next
      ((setWindow c win { (s.window c win).grant w n with waiting := rest } s).modCore w
        (fun k => { k with busyCh := k.busyCh.erase ch })) := by
  rw [execCredTakeGrant]
  dsimp only
  rw [← State.window, hw]
  dsimp only
  rw [if_pos (by simp [ho, hn])]

/-- A take is granted, or waits with its channel. -/
theorem credTake_completes (ho : (s.window c win).isOpen = true) (hf : (s.core w).fenced = false) (hh : (s.core w).halted = false)
    (hc : s.channelFree w ch = true) : completes (.credTake w ch c win n) s (fun t =>
      t.window c win = (if (s.window c win).waiting = [] ∧ n ≤ (s.window c win).avail then (s.window c win).grant w n
        else { s.window c win with waiting := (s.window c win).waiting ++ [(w, ch, n)] })
      ∧ (¬ ((s.window c win).waiting = [] ∧ n ≤ (s.window c win).avail) → ch ∈ (t.core w).busyCh)) := by
  refine ⟨_, execCredTake_takes ho hf hh hc, ?_⟩
  by_cases hgrant : (s.window c win).waiting = [] ∧ n ≤ (s.window c win).avail
  · rw [if_pos hgrant, if_pos hgrant]
    exact ⟨window_setWindow _, fun h => absurd hgrant h⟩
  · rw [if_neg hgrant, if_neg hgrant]
    refine ⟨(window_setBusy (ch :: ·) w).trans (window_setWindow _), fun _ => ?_⟩
    rw [State.core_modCore_same]
    exact List.mem_cons_self ..

/-- The oldest take that waits is granted, and its channel issues again. -/
theorem credTakeGrant_completes {rest : List (Nat × Nat × Nat)} (hw : (s.window c win).waiting = (w, ch, n) :: rest)
    (ho : (s.window c win).isOpen = true) (hn : n ≤ (s.window c win).avail) : completes (.credTakeGrant c win) s (fun t =>
      t.window c win = { (s.window c win).grant w n with waiting := rest } ∧ (t.core w).busyCh = (s.core w).busyCh.erase ch) := by
  refine ⟨_, execCredTakeGrant_grants hw ho hn, (window_setBusy (·.erase ch) w).trans (window_setWindow _), ?_⟩
  rw [State.core_modCore_same]
  exact congrArg (List.erase · ch) (busyCh_setWindow _ w)
end

/-! ### Returns (R315) -/

section
variable {s : State} {c win slot n p fig : Nat} (hi : s.issuing c slot = some (p, fig)) (ho : (s.window c win).isOpen = true)
include hi ho

theorem execCredReturn_returns : execCredReturn c slot win n s = .next
    (if (s.window c win).avail + n ≤ (s.window c win).rows then
      setWindow c win { s.window c win with avail := (s.window c win).avail + n } s
    else postEvent p 0x42 (payloadOf fig c win)
      (raise c slot flInv (setWindow c win { s.window c win with avail := (s.window c win).rows } s))) := by
  rw [execCredReturn]
  dsimp only
  rw [← State.window, hi]
  dsimp only
  rw [if_neg (by simp [ho])]
  split <;> rfl

/-- A return adds its rows, held to ROWS, INV being set where they were more. -/
theorem credReturn_completes : completes (.credReturn c slot win n) s (fun t =>
    t.window c win = { s.window c win with avail := min ((s.window c win).avail + n) (s.window c win).rows }
    ∧ ((s.window c win).rows < (s.window c win).avail + n →
        (((t.core c).slot slot).item.inv = true ∨ ((t.core c).slot slot).other.inv = true)) ∧ othersSame c s t) := by
  refine ⟨_, execCredReturn_returns hi ho, ?_⟩
  by_cases hfits : (s.window c win).avail + n ≤ (s.window c win).rows
  · rw [if_pos hfits, Nat.min_eq_left hfits]
    exact ⟨window_setWindow _, fun h => absurd hfits (Nat.not_le.2 h), othersSame_setWindow _⟩
  · rw [if_neg hfits, Nat.min_eq_right (Nat.le_of_not_le hfits)]
    have hcores (v : State) : (postEvent p 0x42 (payloadOf fig c win) v).cores = v.cores :=
      same_of_mask (postEvent_mask (w := 0x700000#38) (by decide) _ _ _ v) .cores (by decide)
    have hfig (x : Window) : (((setWindow c win x s).core c).slot slot).fig = some (p, fig) := by
      rw [slot_setWindow]
      exact slot_of_issuing hi
    refine ⟨?_, fun _ => ?_, fun k hk => ?_⟩
    · have hpost (v : State) : (postEvent p 0x42 (payloadOf fig c win) v).window c win = v.window c win :=
        window_of_windows (by rw [core_of_cores (hcores v)])
      exact ((hpost _).trans (window_raise _ _)).trans (window_setWindow _)
    · rw [core_of_cores (hcores _)]
      exact (raise_inv (hfig _)).2
    · rw [core_of_cores (hcores _), (coreSame_raise slot flInv).others k hk, othersSame_setWindow _ k hk]
end

/-! ### Rows from other cores (R316) -/

section
variable {s : State} {w ch c win row p fig : Nat} {data : List Byte}

theorem execRemoteRowWrite_writes (hw : s.writerFig w c win = some (p, fig)) (hc : s.channelFree w ch = true) (hd : data.length = 512) :
    execRemoteRowWrite w ch c win row data s = .next (if s.windowOk w c win row then spmWrite c (512 * row) data s
      else askAbort p fig .windowFault (postEvent p 0x43 (payloadOf fig c (w % 256 + row % 2 ^ 16 * 2 ^ 16)) s)) := by
  rw [execRemoteRowWrite, hw]
  dsimp only
  rw [if_neg (by simp [hc, hd])]
  split <;> rfl

/-- A row that the window admits is written; any other is reported and aborts its writer's Figure. -/
theorem remoteRowWrite_completes (hw : s.writerFig w c win = some (p, fig)) (hc : s.channelFree w ch = true) (hd : data.length = 512) :
    completes (.remoteRowWrite w ch c win row data) s (fun t =>
      (s.windowOk w c win row = true → t.spmHolds c (512 * row) data ∧ spmKept c (512 * row) 512 s t ∧ othersSame c s t)
      ∧ (s.windowOk w c win row = false →
          t = askAbort p fig .windowFault (postEvent p 0x43 (payloadOf fig c (w % 256 + row % 2 ^ 16 * 2 ^ 16)) s))) := by
  refine ⟨_, execRemoteRowWrite_writes hw hc hd, fun hok => ?_, fun hno => if_neg (by rw [hno]; decide)⟩
  have hwrote : Wrote c (512 * row) data s (spmWrite c (512 * row) data s) := .of_spmWrite .refl .refl
  rw [if_pos hok]
  exact ⟨hwrote.holds, hd ▸ hwrote.kept, hwrote.same.others⟩
end

/-- Settles O28: each of takes, grants, returns and remote rows by the one state it leaves. -/
theorem receiveWindows : Obligations.ReceiveWindows := by
  unfold Obligations.ReceiveWindows
  intro s c win
  exact ⟨fun w ch n ho hf hh hc => credTake_completes ho hf hh hc, fun w ch n rest hw ho hn => credTakeGrant_completes hw ho hn,
    fun slot n p fig hi ho => credReturn_completes hi ho, fun w ch row data p fig hw hc hd => remoteRowWrite_completes hw hc hd⟩

end Sys2Proof.Machine
end

section
/-! PROOF. Fills, copies and multicast stages of the Scratchpads (R31, R297, R311 to R313): each fill and copy writes one run of bytes, and
a stage lands its line in one member after another, which leaves the rows that are on and the other members alone. -/

namespace Sys2Proof.Machine

/-! ### Fills and copies (R311 to R313) -/

section
variable {s : State} {c slot ch p fig n : Nat} (hi : s.issuing c slot = some (p, fig)) (hc : s.channelFree c ch = true)
  (hn : rowCountOk n = true)
include hi hc hn

theorem execSpmFill_off {first : Nat} (hoff : s.rowsOn c first n = false) (pat : BitVec 32) :
    execSpmFill c slot ch first n pat s = .next (rangeAbort p fig c slot (rowRun first n) s) := by
  rw [execSpmFill, hi]
  dsimp only
  rw [if_neg (by simp [hc, hn]), if_pos (by rw [hoff]; rfl)]

/-- A fill of rows that are on writes its pattern, word by word. -/
theorem spmFill_wrote {first : Nat} (hon : s.rowsOn c first n = true) (pat : BitVec 32) : ∃ t, execSpmFill c slot ch first n pat s = .next t
    ∧ Wrote c (512 * first) ((List.replicate (128 * n) (leBytes 4 pat.toNat)).flatten) s t := by
  rw [execSpmFill, hi]
  dsimp only
  rw [if_neg (by simp [hc, hn]), if_neg (by simp [hon])]
  exact ⟨_, rfl, .of_spmWrite .refl .refl⟩

theorem execSpmCopy_off {src dst : Nat} (hoff : (s.rowsOn c src n && s.rowsOn c dst n) = false) :
    execSpmCopy c slot ch src dst n s = .next (rangeAbort p fig c slot (rowRun src n ++ rowRun dst n) s) := by
  rw [execSpmCopy, hi]
  dsimp only
  rw [if_neg (by simp [hc, hn]), if_pos (by rw [← Bool.not_and, hoff]; rfl)]

/-- A copy between rows that are on writes what the source rows held before any row was written. -/
theorem spmCopy_wrote {src dst : Nat} (hsrc : s.rowsOn c src n = true) (hdst : s.rowsOn c dst n = true) :
    ∃ t, execSpmCopy c slot ch src dst n s = .next t ∧ Wrote c (512 * dst) (s.spmBytes c (512 * src) (512 * n)) s t := by
  rw [execSpmCopy, hi]
  dsimp only
  rw [if_neg (by simp [hc, hn]), if_neg (by simp [hsrc, hdst])]
  exact ⟨_, rfl, .of_spmWrite (coreSame_touchRows _ _ _ _ _) (coreSame_modCore _ rfl rfl)⟩
end

theorem fillBytes_length (n w : Nat) : ((List.replicate (128 * n) (leBytes 4 w)).flatten).length = 512 * n := by
  rw [List.length_flatten, List.map_replicate, leBytes_length, List.sum_replicate, smul_eq_mul]
  omega

theorem spmBytes_length (s : State) (c a n : Nat) : (s.spmBytes c a n).length = n := by simp [State.spmBytes]

/-! ### Rows that stay on, on every core (R330, R335) -/

/-- On every core the rows that are on are the same. -/
def rowsStay (s t : State) : Prop := ∀ c row, t.rowOn c row = s.rowOn c row

section
variable {s t u : State}

theorem rowsStay.refl : rowsStay s s := fun _ _ => rfl

theorem rowsStay.trans (h : rowsStay s t) (g : rowsStay t u) : rowsStay s u := fun c row => (g c row).trans (h c row)

/-- A change of one core that keeps its rows keeps every core's. -/
theorem rowsStay_modCore {c : Nat} {f : Core → Core} (h : rowsKept c s (s.modCore c f)) : rowsStay s (s.modCore c f) := by
  intro d row
  by_cases e : d = c
  · rw [e, h.2]
  · exact rowOn_congr (s := s) (t := s.modCore c f) rfl rfl (congrArg Core.fenced (h.1 d e)) (fun _ => rfl) row

theorem rowsStay_spmWrite (c a : Nat) (bs : List Byte) : rowsStay s (spmWrite c a bs s) := rowsStay_modCore (rowsKept_spmWrite a bs)

theorem rowsStay_raise (c i : Nat) (fl : Flags) : rowsStay s (raise c i fl s) := rowsStay_modCore (spmSame_raise i fl).1

theorem rowsStay_touchRows_written (p fig c i : Nat) (wr : List Nat) : rowsStay s (touchRows p fig c i [] wr s) := by
  have hstaged : rowsStay s (s.modCore c (fun k => { k with staged := k.staged.filter (fun r => !([] : List Nat).contains r) })) :=
    rowsStay_modCore (rowsKept_modCore _ rfl)
  have habort (v : State) : rowsStay v (askAbort p fig (.spmRange c) (postEvent p 0x41 (payloadOf fig c 0) v)) := fun _ =>
    (spmSame_postEvent p 0x41 (payloadOf fig c 0)).1.trans (rowsKept_modActive p fig _) |>.2
  unfold touchRows
  dsimp only [List.filter_nil, State.failing, List.foldl_nil]
  split
  · exact hstaged
  · exact (hstaged.trans (rowsStay_raise c i flInv)).trans (habort _)
end

/-! ### A line landed in one core after another (R31, R187) -/

/-- Core `c` receives a line's bytes at address `a`, over zeros in `rows` rows from `row`, for the Figure of stream `m`. -/
def landOn (m : Stream) (i row rows a : Nat) (got : List Byte) (t : State) (c : Nat) : State :=
  spmWrite c a got (touchRows m.part m.fig c i [] (rowsOf a got.length)
    (spmWrite c (512 * row) (List.replicate (512 * rows) 0) (touchRows m.part m.fig c i [] ((List.range rows).map (row + ·)) t)))

/-- A raw line lands in each of the cores, and its flags are raised in the stream's own. -/
theorem landTile_raw_each {s : State} {i : Nat} {x : LineReq} {bs : List Byte} (hd : x.data = some bs) (hc : (s.stream i).conv = .raw)
    (row rows : Nat) (cs : List Nat) : ∃ fl, landTile i [x] row rows cs s = raise (s.stream i).core (s.streamSlot (s.stream i)) fl
      (cs.foldl (landOn (s.stream i) (s.streamSlot (s.stream i)) row rows x.spmByte (s.delivered (s.stream i) x.va bs).1) s) := by
  simp only [landTile, hc, hd, Option.getD_some, State.loadLine, List.map_cons, List.map_nil, List.flatMap_cons, List.flatMap_nil,
    List.append_nil, List.foldl_cons, List.foldl_nil]
  exact ⟨_, rfl⟩

/-- Bytes `got` stand from address `a` in every core of `cs`, where its rows are on; bytes outside them and outside `rows` rows from `row`,
the Scratchpads of other cores, and the rows that are on are as before. -/
structure LandedAll (cs : List Nat) (row rows a : Nat) (got : List Byte) (s t : State) : Prop where
  stay : rowsStay s t
  landed : ∀ c ∈ cs, ∀ k v, got[k]? = some v → s.rowOn c ((a + k) / 512) = true → kget 0 (t.core c).spm (a + k) = v
  outside : ∀ c b, (b < 512 * row ∨ 512 * (row + rows) ≤ b) → (b < a ∨ a + got.length ≤ b) →
    kget 0 (t.core c).spm b = kget 0 (s.core c).spm b
  others : ∀ c, c ∉ cs → (t.core c).spm = (s.core c).spm

section
variable {row rows a : Nat} {got : List Byte} {s t u : State} {cs : List Nat}

theorem LandedAll.nil : LandedAll [] row rows a got s s := ⟨.refl, nofun, fun _ _ _ _ => rfl, fun _ _ => rfl⟩

/-- What keeps the rows that are on and every Scratchpad keeps what has landed. -/
theorem LandedAll.of_spm (h : LandedAll cs row rows a got s t) (hr : rowsStay t u) (hs : ∀ c, (u.core c).spm = (t.core c).spm) :
    LandedAll cs row rows a got s u where
  stay := h.stay.trans hr
  landed c hc k v hk ho := by rw [hs]; exact h.landed c hc k v hk ho
  outside c b hb hg := by rw [hs]; exact h.outside c b hb hg
  others c hc := (hs c).trans (h.others c hc)

/-- One more core. -/
theorem LandedAll.cons (h : LandedAll cs row rows a got s t) (m : Stream) (i c : Nat) :
    LandedAll (c :: cs) row rows a got s (landOn m i row rows a got t c) := by
  have hone : LandedOver c row rows a got t (landOn m i row rows a got t c) :=
    .of_writes (spmSame_touchRows_written _ _ _ _) (spmSame_touchRows_written _ _ _ _) .refl
  have hstay : rowsStay t (landOn m i row rows a got t c) :=
    (((rowsStay_touchRows_written _ _ _ _ _).trans (rowsStay_spmWrite _ _ _)).trans (rowsStay_touchRows_written _ _ _ _ _)).trans
      (rowsStay_spmWrite _ _ _)
  have hother (d : Nat) (hd : d ≠ c) : (landOn m i row rows a got t c).core d = t.core d := hone.kept.1 d hd
  refine ⟨h.stay.trans hstay, fun d hd k v hk ho => ?_, fun d b hb hg => ?_, fun d hd => ?_⟩
  · by_cases e : d = c
    · subst e
      exact hone.landed k v hk ((h.stay _ _).trans ho)
    · rw [hother d e]
      exact h.landed d ((List.mem_cons.1 hd).resolve_left e) k v hk ho
  · by_cases e : d = c
    · subst e
      exact (hone.outside b hb hg).trans (h.outside d b hb hg)
    · rw [hother d e]
      exact h.outside d b hb hg
  · obtain ⟨hne, hnot⟩ := not_or.1 (mt List.mem_cons.2 hd)
    rw [hother d hne]
    exact h.others d hnot

theorem LandedAll.foldl (m : Stream) (i : Nat) (l : List Nat) (h : LandedAll cs row rows a got s t) :
    LandedAll (l.reverse ++ cs) row rows a got s (l.foldl (landOn m i row rows a got) t) := by
  induction l generalizing cs t with
  | nil => exact h
  | cons c l ih =>
    rw [List.reverse_cons, List.append_assoc, List.foldl_cons]
    exact ih (h.cons m i c)

theorem LandedAll.spmHolds (h : LandedAll cs row rows a got s t) {c : Nat} (hc : c ∈ cs) : t.spmHolds c a got := by
  intro k v hk ho
  rw [State.spmByte, if_pos ho]
  exact h.landed c hc k v hk ((h.stay _ _).symm.trans ho)
end

/-! ### A stage of a multicast (R31, R296, R297) -/

section
variable {s : State} {i tile row rows : Nat} {x : LineReq} {bs : List Byte}

/-- The members of a stream's multicast set that are not fenced. -/
def State.liveMembers (s : State) (i : Nat) : List Nat := (s.stream i).mcast.filter (fun c => !(s.core c).fenced)

/-- The rows that a stage of one line writes. -/
def stageRows (row rows : Nat) (x : LineReq) : List Nat := (List.range rows).map (row + ·) ++ rowsOf x.spmByte x.bytes

/-- The rows that the stage wrote are noted with every member. -/
def noteStaged (cs dst : List Nat) (s : State) : State :=
  cs.foldl (fun t c => t.modCore c (fun k => { k with staged := dst.foldl insAsc k.staged })) s

theorem noteStaged_keeps (cs dst : List Nat) (s : State) : rowsStay s (noteStaged cs dst s)
    ∧ (∀ c, ((noteStaged cs dst s).core c).spm = (s.core c).spm) ∧ (noteStaged cs dst s).streams = s.streams := by
  induction cs generalizing s with
  | nil => exact ⟨.refl, fun _ => rfl, rfl⟩
  | cons c cs ih =>
    obtain ⟨hstay, hspm, hstreams⟩ := ih (s.modCore c (fun k => { k with staged := dst.foldl insAsc k.staged }))
    exact ⟨(rowsStay_modCore (rowsKept_modCore _ rfl)).trans hstay, fun d => (hspm d).trans (view_modCore Core.spm s c rfl d), hstreams⟩

theorem execMulticastStageIssue_waits (hline : s.tileLines i tile = [x]) {c r : Nat} (hc : c ∈ s.liveMembers i) (hr : r ∈ stageRows row rows x)
    (hs : r ∈ (s.core c).staged) : execMulticastStageIssue (s.stream i).part (s.stream i).fig i tile ⟨row, rows⟩ s = .next s := by
  have hunread : (s.liveMembers i).any (fun c => (stageRows row rows x).any (s.core c).staged.contains) = true :=
    List.any_eq_true.2 ⟨c, hc, List.any_eq_true.2 ⟨r, hr, List.contains_iff_mem.2 hs⟩⟩
  rw [execMulticastStageIssue]
  dsimp only
  rw [hline, List.flatMap_singleton]
  exact if_pos (by rw [State.liveMembers, stageRows] at hunread; rw [hunread, Bool.or_true])

theorem execMulticastStageIssue_lands (hcomes : s.tileComes i tile rows = true) (hcasts : s.castsTiles i = true)
    (hline : s.tileLines i tile = [x]) (hread : ∀ c ∈ s.liveMembers i, ∀ r ∈ stageRows row rows x, ¬ r ∈ (s.core c).staged) :
    execMulticastStageIssue (s.stream i).part (s.stream i).fig i tile ⟨row, rows⟩ s
      = .next (noteStaged (s.liveMembers i) (stageRows row rows x)
          (tileReady i tile (landTile i [x] row rows (s.liveMembers i) s))) := by
  have hnone : (s.liveMembers i).any (fun c => (stageRows row rows x).any (s.core c).staged.contains) = false := by
    simpa using hread
  rw [execMulticastStageIssue]
  dsimp only
  rw [hline, List.flatMap_singleton]
  exact if_neg (by rw [State.liveMembers, stageRows] at hnone; rw [hnone]; simp [hcomes, hcasts])

/-- The line has landed in every member once its tile is ready and its rows are noted. -/
theorem stage_landedAll (hd : x.data = some bs) (hraw : (s.stream i).conv = .raw) (tile : Nat) (dst : List Nat) :
    LandedAll ((s.liveMembers i).reverse ++ []) row rows x.spmByte (s.delivered (s.stream i) x.va bs).1 s
      (noteStaged (s.liveMembers i) dst (tileReady i tile (landTile i [x] row rows (s.liveMembers i) s))) := by
  obtain ⟨hstay, hspm, -⟩ :=
    noteStaged_keeps (s.liveMembers i) dst (tileReady i tile (landTile i [x] row rows (s.liveMembers i) s))
  refine LandedAll.of_spm (t := landTile i [x] row rows (s.liveMembers i) s) ?_ hstay hspm
  obtain ⟨fl, hland⟩ := landTile_raw_each hd hraw row rows (s.liveMembers i)
  rw [hland]
  exact (LandedAll.nil.foldl _ _ _).of_spm (rowsStay_raise _ _ _) fun c => by
    by_cases e : c = (s.stream i).core
    · rw [e, (spmSame_raise _ _).2]
    · rw [(spmSame_raise _ _).1.1 c e]

theorem stage_ready (ls : List LineReq) (cs dst : List Nat) :
    ((noteStaged cs dst (tileReady i tile (landTile i ls row rows cs s))).stream i).ready = (s.stream i).ready ++ [tile] := by
  rw [State.stream, (noteStaged_keeps _ _ _).2.2, ← State.stream, tileReady, State.stream_modStream_same]
  exact congrArg (fun m : Stream => m.ready ++ [tile]) (landTile_stream _ _ _ _ _ _ _)

/-- A stage that every member awaits lands its line in each of them, and in no other core. -/
theorem multicastStageIssue_lands (hcomes : s.tileComes i tile rows = true) (hcasts : s.castsTiles i = true)
    (hline : s.tileLines i tile = [x]) (hd : x.data = some bs) (hraw : (s.stream i).conv = .raw)
    (hread : ∀ c ∈ s.liveMembers i, ∀ r ∈ stageRows row rows x, ¬ r ∈ (s.core c).staged) :
    completes (.multicastStageIssue (s.stream i).part (s.stream i).fig i tile ⟨row, rows⟩) s (fun t =>
      (∀ c ∈ s.liveMembers i, t.spmHolds c x.spmByte (s.delivered (s.stream i) x.va bs).1
        ∧ ∀ b, (b < 512 * row ∨ 512 * (row + rows) ≤ b) →
          (b < x.spmByte ∨ x.spmByte + (s.delivered (s.stream i) x.va bs).1.length ≤ b) →
          kget 0 (t.core c).spm b = kget 0 (s.core c).spm b)
      ∧ (∀ c, ¬ c ∈ s.liveMembers i → (t.core c).spm = (s.core c).spm) ∧ (t.stream i).ready = (s.stream i).ready ++ [tile]) := by
  have hall := stage_landedAll (row := row) (rows := rows) hd hraw tile (stageRows row rows x)
  have hmem (c : Nat) : c ∈ (s.liveMembers i).reverse ++ [] ↔ c ∈ s.liveMembers i := by simp
  exact ⟨_, execMulticastStageIssue_lands hcomes hcasts hline hread,
    fun c hc => ⟨hall.spmHolds ((hmem c).2 hc), fun b hb hg => hall.outside c b hb hg⟩,
    fun c hc => hall.others c (mt (hmem c).1 hc), stage_ready _ _ _⟩
end

/-- Settles O27: a fill and a copy by the one run of bytes they write, a stage by its line landed in one member after another. -/
theorem scratchpadWrites : Obligations.ScratchpadWrites := by
  unfold Obligations.ScratchpadWrites
  refine fun s => ⟨fun c slot ch p fig n hi hc hn => ⟨fun first pat hon => ?_, fun first pat hoff => ?_, fun src dst hsrc hdst => ?_,
    fun src dst hoff => ?_⟩, fun i tile row rows x bs hcomes hcasts hline hd hraw => ⟨fun hread => ?_, fun c r hc hr hs => ?_⟩⟩
  · obtain ⟨t, ht, hw⟩ := spmFill_wrote hi hc hn hon pat
    exact ⟨t, ht, hw.holds, fillBytes_length n pat.toNat ▸ hw.kept, hw.same.others⟩
  · exact ⟨_, execSpmFill_off hi hc hn hoff pat, rfl⟩
  · obtain ⟨t, ht, hw⟩ := spmCopy_wrote hi hc hn hsrc hdst
    exact ⟨t, ht, hw.holds, spmBytes_length s c (512 * src) (512 * n) ▸ hw.kept, hw.same.others⟩
  · exact ⟨_, execSpmCopy_off hi hc hn hoff, rfl⟩
  · exact multicastStageIssue_lands hcomes hcasts hline hd hraw hread
  · exact ⟨_, execMulticastStageIssue_waits hline hc hr hs, rfl⟩

end Sys2Proof.Machine
end

section
/-! PROOF. A Figure that aborts (R293, R324, R557, R598): what the end of its attempt, the fences and the start of its next attempt leave
of the attempts in progress, and how a rerun, a drop and a stop change them. -/

namespace Sys2Proof.Machine

/-! ### The attempts in progress -/

/-- What an abort decides of an attempt: its place, its number, what it committed, and the cause it is to abort for. -/
def RunFig.attempt (a : RunFig) : Nat × Nat × List (Nat × Nat) × Option AbortCause := (a.fig, a.attempts, a.committed, a.aborting)

/-- The attempts in progress and whether the run is to stop, and the Figures. -/
def Part.work (q : Part) : Option (List (Nat × Nat × List (Nat × Nat) × Option AbortCause) × Bool) × Option (List Figure) :=
  (q.run.map (fun r => (r.active.map RunFig.attempt, r.stopNow)), q.chor.map (·.figures))

/-- The same of every partition, with the reruns and the aborts counted. -/
def State.aborts (s : State) :
    Nat → (Option (List (Nat × Nat × List (Nat × Nat) × Option AbortCause) × Bool) × Option (List Figure)) × Nat × Nat :=
  fun p => ((s.part p).work, (s.part p).cnt.reruns, (s.part p).cnt.aborts)

/-- The FIG_ID of a place in a list of Figures. -/
def figIdIn (fs : Option (List Figure)) (i : Nat) : Nat := ((fs.bind (·[i]?)).map (·.hdr.figId)).getD noFig

theorem Part.figId_eq (q : Part) (i : Nat) : q.figId i = figIdIn (q.chor.map (·.figures)) i := by
  unfold Part.figId Part.figure figIdIn
  cases q.chor with
  | none => rfl
  | some c =>
    simp only [Option.map_some, Option.bind_some]
    cases c.figures[i]? <;> rfl

/-- The attempt of a FIG_ID, from the view. -/
theorem Part.active_attempt (q : Part) (fig : Nat) : (q.active fig).map RunFig.attempt
    = q.work.1.bind (fun v => v.1.find? (fun x => decide (figIdIn q.work.2 x.1 = fig))) := by
  unfold Part.active Part.work
  cases hr : q.run with
  | none => rfl
  | some r =>
    simp only [Option.map_some, Option.bind_some, List.find?_map, Part.figId_eq]
    rfl

section
variable {s t : State} {p fig : Nat} {a : RunFig}

theorem active_of_work (h : (t.part p).work = (s.part p).work) (ha : (s.part p).active fig = some a) :
    ∃ b, (t.part p).active fig = some b ∧ b.attempt = a.attempt := by
  have hsame : ((t.part p).active fig).map RunFig.attempt = ((s.part p).active fig).map RunFig.attempt := by
    rw [Part.active_attempt, Part.active_attempt, h]
  rw [ha] at hsame
  exact Option.map_eq_some_iff.1 hsame

theorem run_of_work {r : Run} (h : (t.part p).work = (s.part p).work) (hr : (s.part p).run = some r) :
    ∃ r', (t.part p).run = some r' ∧ r'.active.map RunFig.attempt = r.active.map RunFig.attempt ∧ r'.stopNow = r.stopNow := by
  have hsame : (t.part p).run.map (fun r => (r.active.map RunFig.attempt, r.stopNow)) = some (r.active.map RunFig.attempt, r.stopNow) :=
    (congrArg Prod.fst h).trans (by rw [Part.work, hr]; rfl)
  obtain ⟨r', hr', hv⟩ := Option.map_eq_some_iff.1 hsame
  exact ⟨r', hr', (Prod.mk.inj hv).1, (Prod.mk.inj hv).2⟩

theorem work_of_aborts (h : t.aborts = s.aborts) (p : Nat) : (t.part p).work = (s.part p).work := congrArg Prod.fst (congrFun h p)

theorem reruns_of_aborts (h : t.aborts = s.aborts) (p : Nat) : (t.part p).cnt.reruns = (s.part p).cnt.reruns :=
  congrArg (fun v => v.2.1) (congrFun h p)

theorem aborted_of_aborts (h : t.aborts = s.aborts) (p : Nat) : (t.part p).cnt.aborts = (s.part p).cnt.aborts :=
  congrArg (fun v => v.2.2) (congrFun h p)

theorem aborts_of_parts (h : t.parts = s.parts) : t.aborts = s.aborts := by
  funext q
  rw [State.aborts, State.aborts, part_of_parts h]

theorem aborts_of_mask (h : t.mask 0x3fffffffef#38 = s.mask 0x3fffffffef#38) : t.aborts = s.aborts :=
  aborts_of_parts (same_of_mask h .parts (by decide))

theorem aborts_modPart (s : State) (p : Nat) {f : Part → Part} (hw : (f (s.part p)).work = (s.part p).work)
    (hc : (f (s.part p)).cnt = (s.part p).cnt) : (s.modPart p f).aborts = s.aborts :=
  view_modPart (fun q => (q.work, q.cnt.reruns, q.cnt.aborts)) s p (by rw [hw, hc])

/-- A change of the run that keeps its attempts. -/
theorem Part.work_mapRun (q : Part) {g : Run → Run}
    (h : ∀ r, (g r).active.map RunFig.attempt = r.active.map RunFig.attempt ∧ (g r).stopNow = r.stopNow) :
    ({ q with run := q.run.map g } : Part).work = q.work := by
  unfold Part.work
  cases q.run with
  | none => rfl
  | some r => simp only [Option.map_some, h r]

theorem modActive_cnt (s : State) (p id : Nat) (f : RunFig → RunFig) : ((modActive p id f s).part p).cnt = (s.part p).cnt := by
  rw [modActive, State.part_modPart_same]
  split <;> rfl

theorem aborts_modActive (s : State) (p id : Nat) {f : RunFig → RunFig} (h : ∀ a, (f a).attempt = a.attempt) :
    (modActive p id f s).aborts = s.aborts := by
  refine aborts_modPart s p ?_ (by split <;> rfl)
  cases hr : (s.part p).run with
  | none => rfl
  | some r =>
    have hmap : (r.active.map (fun a => if (s.part p).figId a.fig = id then f a else a)).map RunFig.attempt = r.active.map RunFig.attempt := by
      rw [List.map_map]
      refine List.map_congr_left fun a _ => ?_
      rw [Function.comp_apply]
      split
      · exact h a
      · rfl
    simp only [Part.work, hr, Option.map_some, hmap]
end

/-! ### The end of an attempt (R289, R314, R379) -/

section
variable (s : State)

theorem satAll_aborts (off : Nat) : (satAll off s).aborts = s.aborts :=
  view_foldl State.aborts (fun t p => (aborts_of_mask (postEvent_mask (by decide) _ _ _ _)).trans (aborts_modPart t p rfl rfl)) _ s

theorem satPart_aborts (p off : Nat) : (satPart p off s).aborts = s.aborts :=
  (aborts_of_mask (postEvent_mask (by decide) _ _ _ _)).trans (aborts_modPart s p rfl rfl)

theorem enqueueFault_aborts (i : Nat) : (enqueueFault i s).aborts = s.aborts := by
  unfold enqueueFault fqCount
  dsimp only
  split
  · rfl
  · have hnote := aborts_modPart (s.setStream i { s.stream i with queued := true, parked := false }) (s.stream i).part
      (f := fun q => { q with notes := { q.notes with faults := q.notes.faults + 1 } }) rfl rfl
    exact view_ite State.aborts ((satAll_aborts _ _).trans hnote) hnote

theorem retryParked_aborts (l : List Nat) : (retryParked l s).aborts = s.aborts := by
  induction l generalizing s with
  | nil => rfl
  | cons i more ih =>
    unfold retryParked
    refine view_ite State.aborts rfl ((ih _).trans ?_)
    exact view_ite State.aborts (aborts_of_mask (resumeStream_mask (by decide) i s)) (enqueueFault_aborts _ i)

theorem unbindWhere_aborts (f : Stream → Bool) : (unbindWhere f s).aborts = s.aborts :=
  (retryParked_aborts _ _).trans
    (view_foldl State.aborts (fun t (x : Nat × Stream) => aborts_of_mask (unbindStream_mask (by decide) x.1 t)) _ s)

theorem endAttempt_aborts (p fid : Nat) (clms : List Nat) : (endAttempt p fid clms s).aborts = s.aborts :=
  (aborts_of_mask (clearClms_mask (by decide) _ _)).trans ((aborts_of_mask (leaveSlots_mask (by decide) _ _ _ _)).trans
    ((aborts_of_mask (closeWindows_mask (by decide) _ _ _)).trans (unbindWhere_aborts s _)))

/-! ### Fences (R293, R324) -/

theorem countRetired_aborts (p : Nat) (x : RunFig × Figure) : (countRetired p x s).aborts = s.aborts := by
  refine (aborts_modPart _ p ?_ rfl).trans (aborts_modActive s p x.2.hdr.figId fun _ => rfl)
  refine Part.work_mapRun _ fun r => ?_
  exact ⟨rfl, rfl⟩

theorem retireItem_aborts (k : Nat) (a : RunFig) : (retireItem k a s).aborts = s.aborts :=
  view_foldl State.aborts (fun t y => countRetired_aborts t (k / 16) y) _ _

theorem giveBack_aborts (k item : Nat) : (giveBack k item s).aborts = s.aborts := by
  have hreturn : (returnItem k item s).aborts = s.aborts := aborts_of_mask (returnItem_mask (by decide) _ _ _)
  unfold giveBack
  split
  · exact view_ite State.aborts (retireItem_aborts _ _ _) hreturn
  · exact hreturn

theorem zeroiseCore_aborts (c : Nat) : (zeroiseCore c s).aborts = s.aborts := by
  unfold zeroiseCore
  dsimp only
  split
  · rfl
  · exact aborts_modPart (s.modCore c _) _ rfl rfl

theorem RunFig.without_attempt (a : RunFig) (c : Nat) (cs : List Nat) : (a.without c cs).attempt = a.attempt := rfl

/-- A Figure that goes on without a core keeps its attempt. -/
theorem leaveFigures_aborts (p c : Nat) : (leaveFigures p c s).aborts = s.aborts := by
  refine aborts_modPart s p (Part.work_mapRun _ fun r => ⟨?_, rfl⟩) rfl
  rw [List.map_map]
  refine List.map_congr_left fun a _ => ?_
  rw [Function.comp_apply]
  split
  · exact RunFig.without_attempt _ _ _
  · rfl

theorem fenceCore_aborts (c : Nat) : (fenceCore c s).aborts = s.aborts := by
  have hshared : (dropShared c s).aborts = s.aborts := aborts_of_mask (dropShared_mask (by decide) c s)
  have hback (l : List (Nat × Nat)) (u : State) : (l.foldl (fun t h => giveBack h.1 h.2 t) u).aborts = u.aborts :=
    view_foldl State.aborts (fun t (h : Nat × Nat) => giveBack_aborts t h.1 h.2) l u
  have hzero (l : List (Nat × Nat)) (f : Core → Core) :
      ((zeroiseCore c (l.foldl (fun t h => giveBack h.1 h.2 t) (unbindWhere (fun x => decide (x.core = c)) (dropShared c s)))).modCore c
        f).aborts = s.aborts :=
    (zeroiseCore_aborts _ c).trans ((hback l _).trans ((unbindWhere_aborts _ _).trans hshared))
  unfold fenceCore
  dsimp only
  split
  · exact (leaveFigures_aborts _ _ _).trans ((aborts_modPart _ _ rfl rfl).trans (hzero _ _))
  · exact hzero _ _

theorem withHealth_aborts {f : State → State} (h : (f s).aborts = s.aborts) : (withHealth f s).aborts = s.aborts := by
  rcases withHealth_eq f s with e | e <;> rw [e]
  · exact h
  · exact (aborts_of_mask (postAll_mask (by decide) _ _ _)).trans h

theorem fenceForParity_aborts (c : Nat) : (fenceForParity c s).aborts = s.aborts := withHealth_aborts s (fenceCore_aborts s c)

/-- Ending the attempt and fencing the cores of its later detections keep the attempts. -/
def abortEnded (p fig : Nat) (a : RunFig) (s : State) : State :=
  a.detectedOn.foldl (fun t c => if (t.core c).fenced then t else fenceForParity c t) (endAttempt p fig a.clms s)

theorem abortEnded_aborts (p fig : Nat) (a : RunFig) : (abortEnded p fig a s).aborts = s.aborts :=
  (view_foldl State.aborts (fun t c => view_ite State.aborts rfl (fenceForParity_aborts t c)) _ _).trans (endAttempt_aborts s _ _ _)

/-! ### The next attempt (R208, R280, R301, R324) -/

theorem loadRegions_aborts (p : Nat) (prog : TileProg) : (loadRegions p prog s).aborts = s.aborts := by
  have hwrite (r : Region) (bs : List Byte) (l : List (Nat × Nat)) (u : State) :
      (l.foldl (fun t c => spmWrite c.1 (512 * r.firstRow) bs t) u).aborts = u.aborts :=
    view_foldl State.aborts (fun t (c : Nat × Nat) => aborts_of_mask (spmWrite_mask (by decide) c.1 (512 * r.firstRow) bs t)) l u
  refine view_foldl State.aborts (fun t r => ?_) _ s
  unfold loadRegion
  split
  · exact (aborts_modPart _ p rfl rfl).trans (hwrite _ _ _ _)
  · rfl

theorem acctAdd_aborts (p n k : Nat) : (acctAdd p n k s).aborts = s.aborts := by
  unfold acctAdd
  exact view_ite State.aborts ((satPart_aborts _ _ _).trans (aborts_modPart s p rfl rfl)) (aborts_modPart s p rfl rfl)

theorem beginAttempt_aborts (p : Nat) (f : Figure) (mask : Nat) : (beginAttempt p f mask s).aborts = s.aborts := by
  have hunits : (takeSlots (s.figHealthy p f.hdr) p f.hdr.figId f.slot mask (openWindows p f.hdr.figId f.prog.wins
      (bindStreams p f.hdr.figId f.prog.streams s))).aborts = s.aborts := aborts_of_mask (by
    rw [takeSlots_mask (by decide), openWindows_mask (by decide), bindStreams_mask (by decide)])
  exact view_ite State.aborts ((acctAdd_aborts _ _ _ _).trans hunits) hunits

theorem partCount_work (p n k q : Nat) : ((partCount p n k s).part q).work = (s.part q).work :=
  (congrArg Part.work (bare_of_uncounted (partCount_uncounted s p n k) q) :)

theorem satPart_counters (b : Bool) (p off : Nat) : ((if b then satPart p off s else s).part p).cnt.reruns = (s.part p).cnt.reruns
    ∧ ((if b then satPart p off s else s).part p).cnt.aborts = (s.part p).cnt.aborts :=
  have h : (if b then satPart p off s else s).aborts = s.aborts := view_ite State.aborts (satPart_aborts s p off) rfl
  ⟨reruns_of_aborts h p, aborted_of_aborts h p⟩

theorem partCount_reruns (p : Nat) : ((partCount p 3 1 s).part p).cnt.reruns = min 0xFFFF ((s.part p).cnt.reruns + 1) := by
  unfold partCount
  dsimp only
  rw [(satPart_counters _ _ _ _).1, State.part_modPart_same]
  exact satAdd_fst ..

theorem partCount_aborted (p : Nat) : ((partCount p 4 1 s).part p).cnt.aborts = min 0xFFFF ((s.part p).cnt.aborts + 1) := by
  unfold partCount
  dsimp only
  rw [(satPart_counters _ _ _ _).2, State.part_modPart_same]
  exact satAdd_fst ..
end

section
variable {u : State} {p : Nat} {b : RunFig} {f : Figure}

/-- The count of a rerun, and the record of its attempt. -/
theorem rerun_recorded (hb : (u.part p).active f.hdr.figId = some b) (whole : Bool) (clms : List Nat) (gangs : List (List Nat)) :
    ∃ a', ((modActive p f.hdr.figId (fun a => a.again whole clms gangs) (partCount p 3 1 (loadRegions p f.prog u))).part p).active
      f.hdr.figId = some a' ∧ a'.attempt = (b.fig, b.attempts + 1, if whole then [] else b.committed, none) := by
  obtain ⟨b', hb', he⟩ := active_of_work ((partCount_work _ p 3 1 p).trans (work_of_aborts (loadRegions_aborts u p f.prog) p)) hb
  obtain ⟨hfig, hatt, hcom, -⟩ : b'.fig = b.fig ∧ b'.attempts = b.attempts ∧ b'.committed = b.committed ∧ b'.aborting = b.aborting := by
    simpa only [RunFig.attempt, Prod.mk.injEq] using he
  refine ⟨_, modActive_active (fun a => a.again whole clms gangs) (fun _ => rfl) hb', ?_⟩
  rw [← hfig, ← hatt, ← hcom]
  rfl

/-- A rerun is the Figure's next attempt, with what it committed unless it runs whole, and is counted. -/
theorem rerunFigure_reruns (x : RunFig) (hb : (u.part p).active f.hdr.figId = some b) : ∃ a',
    ((rerunFigure p false (x, f) u).part p).active f.hdr.figId = some a'
    ∧ a'.attempt = (b.fig, b.attempts + 1, if f.hdr.rerunOk then [] else b.committed, none)
    ∧ ((rerunFigure p false (x, f) u).part p).cnt.reruns = min 0xFFFF ((u.part p).cnt.reruns + 1) := by
  have hbegun : (rerunFigure p false (x, f) u).aborts = (modActive p f.hdr.figId (fun a => a.again (f.hdr.rerunOk && !false)
      ((u.freeClms p).take x.clms.length) (u.gangs p f)) (partCount p 3 1 (loadRegions p f.prog u))).aborts :=
    view_ite State.aborts (aborts_of_mask (postEvent_mask (by decide) _ _ _ _)) (beginAttempt_aborts _ p f _)
  obtain ⟨a1, ha1, hattempt⟩ := rerun_recorded hb (f.hdr.rerunOk && !false) ((u.freeClms p).take x.clms.length) (u.gangs p f)
  obtain ⟨a', ha', hsame⟩ := active_of_work (work_of_aborts hbegun p) ha1
  refine ⟨a', ha', hsame.trans (hattempt.trans ?_), ?_⟩
  · rw [Bool.not_false, Bool.and_true]
  · rw [reruns_of_aborts hbegun, modActive_cnt, partCount_reruns, reruns_of_aborts (loadRegions_aborts _ _ _)]
end

/-! ### Drops and stops (R497, R557) -/

section
variable {s u : State} {p i : Nat} {r : Run}

/-- A dropped Figure leaves the Figures in progress, and is counted. -/
theorem dropFigure_drops (h : u.aborts = s.aborts) (hr : (s.part p).run = some r) : ∃ r', ((dropFigure p i u).part p).run = some r'
    ∧ r'.active.map (·.fig) = (r.active.map (·.fig)).filter (fun k => !decide (k = i)) ∧ r'.stopNow = r.stopNow
    ∧ ((dropFigure p i u).part p).cnt.aborts = min 0xFFFF ((s.part p).cnt.aborts + 1) := by
  obtain ⟨r1, hr1, hactive, hstop⟩ := run_of_work (work_of_aborts h p) hr
  have hplaces : r1.active.map (·.fig) = r.active.map (·.fig) := by
    have := congrArg (List.map Prod.fst) hactive
    rwa [List.map_map, List.map_map] at this
  refine ⟨{ r1 with active := r1.active.filter (fun a => !decide (a.fig = i)) }, ?_, ?_, hstop, ?_⟩
  · rw [dropFigure, run_of_uncounted (partCount_uncounted _ _ _ _), State.part_modPart_same, hr1]
    rfl
  · rw [← hplaces, List.filter_map]
    rfl
  · rw [dropFigure, partCount_aborted, State.part_modPart_same, ← aborted_of_aborts h]

/-- Fremund stops a run with Figures in progress at its next Figure boundary. -/
theorem fremundStop_waits (hr : (s.part p).run = some r) (hgo : r.stopNow = false) (hne : r.active ≠ []) (code : Nat) :
    ((fremundStop p code s).part p).run = some { r with stopNow := true, stopCause := code } := by
  have hstopped : ((stopChor p code s).part p).run = some { r with stopNow := true, stopCause := code } := by
    rw [stopChor, State.part_modPart_same]
    simp only [hr, hgo, Bool.false_eq_true, if_false]
  have hbusy : r.active.isEmpty = false := by simpa using hne
  simp only [fremundStop, settle, hstopped, hbusy, Bool.and_false, Bool.false_eq_true, if_false]
end

/-! ### The abort -/

section
variable {s : State} {p fig : Nat} {r : Run} {a : RunFig} {f : Figure} {cause : AbortCause} (hr : (s.part p).run = some r)
  (ha : (s.part p).active fig = some a) (hab : a.aborting = some cause) (hgroup : abortGroup (s.part p) r a.fig = [(a, f)])
include hr ha hab hgroup

/-- A Figure that aborts alone: its attempt ended and its cores fenced, it reruns, or is dropped and the run stops or goes on. -/
theorem execFigureAbort_alone (hid : f.hdr.figId = fig) : execFigureAbort p fig s = .next
    (if causeReruns cause then rerunFigure p false (a, f) (modActive p fig (fun a => { a with clms := [] }) (abortEnded p fig a s))
    else match causeStop cause with
      | some code => fremundStop p code (dropFigure p a.fig (abortEnded p fig a s))
      | none => settle p (dropFigure p a.fig (abortEnded p fig a s))) := by
  subst hid
  rw [execFigureAbort]
  dsimp only
  rw [ha, hr]
  dsimp only
  rw [hab]
  dsimp only
  rw [hgroup]
  dsimp only [List.foldl_cons, List.foldl_nil]
  rw [List.flatMap_singleton, ← abortEnded]
  have halone : decide (1 < [(a, f)].length) = false := rfl
  rw [halone]
  cases causeReruns cause with
  | true => rw [if_pos rfl, if_pos rfl]
  | false =>
    rw [if_neg Bool.false_ne_true, if_neg Bool.false_ne_true]
    cases causeStop cause <;> rfl
end

/-- Settles O13: a parity detection reruns the Figure; any other cause drops it, and the run goes on or is to stop. -/
theorem figureAborts : Obligations.FigureAborts := by
  unfold Obligations.FigureAborts
  intro s p fig r a f cause hr ha hab hgroup hid
  subst hid
  have hended := abortEnded_aborts s p f.hdr.figId a
  have hexec := execFigureAbort_alone hr ha hab hgroup rfl
  refine ⟨fun hre => ?_, fun hre hst hgo => ?_, fun code hre hst hgo hmore => ?_⟩
  · have hcleared := (aborts_modActive (abortEnded p f.hdr.figId a s) p f.hdr.figId (f := fun a => { a with clms := [] }) fun _ => rfl).trans hended
    obtain ⟨b, hb, hbat⟩ := active_of_work (work_of_aborts hcleared p) ha
    obtain ⟨a', ha', hat, hcnt⟩ := rerunFigure_reruns a hb
    rw [RunFig.attempt, RunFig.attempt, Prod.mk.injEq, Prod.mk.injEq, Prod.mk.injEq] at hbat
    rw [RunFig.attempt, Prod.mk.injEq, Prod.mk.injEq, Prod.mk.injEq] at hat
    obtain ⟨hbfig, hbatt, hbcom, -⟩ := hbat
    obtain ⟨hfig, hatt, hcom, hnone⟩ := hat
    rw [if_pos hre] at hexec
    refine ⟨_, hexec, a', ha', hatt.trans (by rw [hbatt]), hnone, hfig.trans hbfig, hcom.trans (by rw [hbcom]), ?_⟩
    rw [hcnt, reruns_of_aborts hcleared]
  · obtain ⟨r', hr', hactive, hstop, hcnt⟩ := dropFigure_drops (i := a.fig) hended hr
    rw [if_neg (by rw [hre]; decide), hst] at hexec
    refine ⟨_, hexec, ?_⟩
    rw [settle_goesOn hr' (hstop.trans hgo)]
    exact ⟨r', hr', hactive, hstop.trans hgo, hcnt⟩
  · obtain ⟨r', hr', hactive, hstop, -⟩ := dropFigure_drops (i := a.fig) hended hr
    have hne : r'.active ≠ [] := by
      obtain ⟨x, hx, hxne⟩ := List.any_eq_true.1 hmore
      intro hnil
      rw [hnil, List.map_nil] at hactive
      exact List.not_mem_nil (hactive ▸ List.mem_filter.2 ⟨List.mem_map_of_mem hx, hxne⟩)
    rw [if_neg (by rw [hre]; decide), hst] at hexec
    exact ⟨_, hexec, _, fremundStop_waits hr' (hstop.trans hgo) hne code, hactive, rfl, rfl⟩

end Sys2Proof.Machine
end

section
/-! PROOF. The two resets and their release (R327, R540, R546, R554, R615 to R618, R646, R649): what the block holds after a reset, what of
the stacks' contents stays, and the test mode. -/

namespace Sys2Proof.Machine

/-! ### Folds of which one step sets what the others keep -/

/-- Where the step of `x` gives `P`, the other steps keep it, and all of them keep `I`, a fold over a list with `x` gives `P`. -/
theorem foldl_sets {σ β : Type} {I P : σ → Prop} {F : σ → β → σ} {x : β} {l : List β} (hI : ∀ t y, I t → I (F t y))
    (hset : ∀ t, I t → P (F t x)) (hkeep : ∀ t y, I t → y ≠ x → P t → P (F t y)) (hx : x ∈ l) {s : σ} (hs : I s) : P (l.foldl F s) := by
  have hstep (t : σ) (y : β) (h : I t ∧ P t) : I (F t y) ∧ P (F t y) := by
    by_cases e : y = x
    · exact ⟨hI t y h.1, e ▸ hset t h.1⟩
    · exact ⟨hI t y h.1, hkeep t y h.1 e h.2⟩
  obtain ⟨l1, l2, rfl⟩ := List.append_of_mem hx
  rw [List.foldl_append, List.foldl_cons]
  have hbefore : I (l1.foldl F s) := List.foldlRecOn l1 F hs fun t ht y _ => hI t y ht
  exact (List.foldlRecOn l2 F (motive := fun t => I t ∧ P t) ⟨hI _ _ hbefore, hset _ hbefore⟩ fun t ht y _ => hstep t y ht).2

/-- The same without a property that all steps keep. -/
theorem foldl_sets_of_step {σ β : Type} {P : σ → Prop} {F : σ → β → σ} {x : β} {l : List β} (hset : ∀ t, P (F t x))
    (hkeep : ∀ t y, y ≠ x → P t → P (F t y)) (hx : x ∈ l) (s : σ) : P (l.foldl F s) :=
  foldl_sets (I := fun _ => True) (fun _ _ _ => trivial) (fun t _ => hset t) (fun t y _ => hkeep t y) hx trivial

/-! ### Keyed lists with changed entries -/

/-- A read after every entry has been changed and those at the default value dropped. -/
theorem kget_map_filter {α : Type} [DecidableEq α] (d : α) {f : α → α} (hd : f d = d) (m : KMap α) (k : Nat) (h : f (kget d m k) ≠ d) :
    kget d ((m.map (fun c => (c.1, f c.2))).filter (fun c => decide (c.2 ≠ d))) k = f (kget d m k) := by
  induction m with
  | nil => exact absurd hd h
  | cons e r ih =>
    obtain ⟨j, v⟩ := e
    by_cases e : j = k
    · have hv : f v ≠ d := by simpa [kget, e] using h
      simp [kget, e, hv]
    · have hr : f (kget d r k) ≠ d := by simpa [kget, e] using h
      by_cases hv : f v = d
      · simpa [kget, e, hv] using ih hr
      · simpa [kget, e, hv] using ih hr

/-! ### The block after a reset (R46, R616) -/

/-- Every part of the block that no reset keeps is at its reset value, in configuration `d`. -/
def AtReset (d : Design) (t : State) : Prop :=
  t.prot = Prot.reset ∧ t.fw = Fremund.reset ∧ t.parts = [] ∧ t.cores = [] ∧ t.sets = [] ∧ t.regions = []
    ∧ t.rings = [] ∧ t.ringMem = [] ∧ t.ports = [] ∧ t.seqs = [] ∧ t.lbs = [] ∧ t.nvmReqs = [] ∧ t.beat = BeatUnit.reset ∧ t.cfg = d

/-- The pins, the PMU and the fatal causes have no part in it. -/
theorem AtReset.setPower {d : Design} {t : State} (h : AtReset d t) (pins : Pins) (pmu : Pmu) (fatal : Fatal) :
    AtReset d { t with pins := pins, pmu := pmu, fatal := fatal } := h

section
variable {s u : State} {ph : Phase} {ch : Nat}

theorem afterReset_atReset (h : u.cfg = s.cfg) : AtReset s.cfg (afterReset ph u) :=
  ⟨rfl, rfl, rfl, rfl, rfl, rfl, rfl, rfl, rfl, rfl, rfl, rfl, rfl, h⟩

/-- A channel keeps its contents, and what undefines them, where it has any (R616). -/
theorem channel_afterReset (h : (u.channel ch).kept ≠ Channel.reset) : (afterReset ph u).channel ch = (u.channel ch).kept :=
  kget_map_filter Channel.reset rfl u.channels ch h

theorem kept_ne_reset_of_mem {c : Channel} (h : c.mem ≠ []) : c.kept ≠ Channel.reset := fun e => h (congrArg Channel.mem e)

theorem kept_ne_reset_of_undef {c : Channel} (h : c.undef.isSome = true) : c.kept ≠ Channel.reset := by
  intro e
  have hnone : c.undef = none := congrArg Channel.undef e
  rw [hnone] at h
  cases h

/-! ### What the stacks lose (R361, R540, R649) -/

/-- A channel whose contents are lost. -/
def Channel.lost (c : Channel) : Prop := c.mem = [] ∧ c.undef.isSome = true

theorem loseStacks_other {f : Nat → Bool} (h : f (ch / 32) = false) : (loseStacks f s).channel ch = s.channel ch := by
  refine view_foldl (fun t => t.channel ch) (fun t k => ?_) _ s
  by_cases e : ch = k
  · subst e
    rw [if_neg (by rw [h]; decide)]
  · split
    · exact State.channel_modChannel_other _ _ _ e
    · rfl

theorem loseStacks_lost {f : Nat → Bool} (h : f (ch / 32) = true) (hc : ch < s.cfg.channels) : ((loseStacks f s).channel ch).lost := by
  refine foldl_sets_of_step (P := fun t : State => (t.channel ch).lost) (fun t => ?_) (fun t k hk ht => ?_) (List.mem_range.2 hc) s
  · rw [if_pos h, State.channel_modChannel_same]
    exact ⟨rfl, rfl⟩
  · split
    · rwa [State.channel_modChannel_other _ _ _ hk.symm]
    · exact ht

/-- Where no Write-Combining Buffer holds a line, none is written out. -/
theorem flushAll_empty (h : ∀ k, (s.channel k).wcb = []) : flushAll s = s := by
  refine List.foldl_fixed' (fun k => ?_) _
  rw [flushChannel, h k]
  rfl

theorem cutRequests_nvm (h : s.nvmReqs = []) : (cutRequests s).nvm = s.nvm := by
  rw [cutRequests, h]
  exact same_of_mask (w := 0x8002#38) (endFar_mask (by decide) s) .nvm (by decide)

theorem channel_cutRequests : (cutRequests s).channel ch = s.channel ch :=
  channel_of_channels (same_of_mask (w := 0x40008002#38) (cutRequests_mask (by decide) s) .channels (by decide)) ch

theorem cutRequests_cfg : (cutRequests s).cfg = s.cfg := same_of_mask (w := 0x40008002#38) (cutRequests_mask (by decide) s) .cfg (by decide)

theorem loseStacks_cfg (f : Nat → Bool) : (loseStacks f s).cfg = s.cfg :=
  same_of_mask (w := 0x2002#38) (loseStacks_mask (by decide) f s) .cfg (by decide)

/-! ### Block reset (R616) -/

/-- The state that an entry to block reset leaves. -/
def enteredReset (s : State) : State :=
  afterReset .entry (loseStacks (fun k => decide (0 < (s.stackAt k).staged)) (flushAll (cutRequests s)))

theorem execResetEntry_enters (h : s.pins.phase = .running ∨ s.pins.phase = .testMode) : execResetEntry s = .next (enteredReset s) :=
  if_neg (by rcases h with h | h <;> simp [State.outOfReset, h])

theorem enteredReset_atReset : AtReset s.cfg (enteredReset s) :=
  afterReset_atReset ((loseStacks_cfg _).trans
    ((same_of_mask (w := 0x802702012#38) (flushAll_mask (by decide) _) .cfg (by decide) : (flushAll (cutRequests s)).cfg = _).trans
      cutRequests_cfg))

theorem enteredReset_nvm (h : s.nvmReqs = []) : (enteredReset s).nvm = s.nvm := by
  have hlost : (enteredReset s).nvm = (flushAll (cutRequests s)).nvm :=
    same_of_mask (w := 0x2002#38) (loseStacks_mask (by decide) (fun k => decide (0 < (s.stackAt k).staged)) _) .nvm (by decide)
  exact hlost.trans ((same_of_mask (w := 0x802702012#38) (flushAll_mask (by decide) (cutRequests s)) .nvm (by decide)).trans (cutRequests_nvm h))

/-- The contents of a stack without staged repairs stay. -/
theorem enteredReset_channel (hm : (s.channel ch).mem ≠ []) (hw : ∀ k, (s.channel k).wcb = []) (hst : (s.stackAt (ch / 32)).staged = 0) :
    (enteredReset s).channel ch = (s.channel ch).kept := by
  have hflushed : flushAll (cutRequests s) = cutRequests s := flushAll_empty fun k => by rw [channel_cutRequests, hw]
  have hkept : (loseStacks (fun k => decide (0 < (s.stackAt k).staged)) (flushAll (cutRequests s))).channel ch = s.channel ch := by
    rw [loseStacks_other (by simp [hst]), hflushed, channel_cutRequests]
  rw [enteredReset, channel_afterReset (by rw [hkept]; exact kept_ne_reset_of_mem hm), hkept]

theorem resetEntry_completes (h : s.pins.phase = .running ∨ s.pins.phase = .testMode) : completes .resetEntry s (fun t =>
    AtReset s.cfg t ∧ t.pins.phase = .entry ∧ t.pins.rstAck = false ∧ (s.nvmReqs = [] → t.nvm = s.nvm)
    ∧ ∀ ch, ch < s.cfg.channels → (s.channel ch).mem ≠ [] → (∀ k, (s.channel k).wcb = []) → (s.stackAt (ch / 32)).staged = 0 →
        (t.channel ch).mem = (s.channel ch).mem ∧ (t.channel ch).poison = (s.channel ch).poison) := by
  refine ⟨_, execResetEntry_enters h, enteredReset_atReset, rfl, rfl, enteredReset_nvm, fun ch _ hm hw hst => ?_⟩
  rw [enteredReset_channel hm hw hst]
  exact ⟨rfl, rfl⟩

theorem resetEntryDone_completes (h : s.pins.phase = .entry) : completes .resetEntryDone s (fun t =>
    t = { s with pins := { s.pins with phase := .held, rstAck := true } }) := ⟨_, if_pos h, rfl⟩

/-! ### A supply failure (R546, R554, R617) -/

theorem supplyFailure_completes {i : Nat} (hp : s.pins.phase ≠ .cold)
    (hi : i = 0 ∨ (0 < i ∧ i ≤ 15 ∧ s.pmu.monEn.getLsbD (i - 1) = true)) : completes (.supplyFailure i) s (fun t =>
      AtReset s.cfg t ∧ t.pins.phase = .held ∧ t.pmu.rstSupply = true ∧ t.pmu.rstSource = i ∧ t.fatal.supply = true) := by
  have hsource : s.pmu.source i = true := by
    obtain rfl | ⟨-, hle, hbit⟩ := hi
    · rfl
    · rw [Pmu.source, hbit, decide_eq_true hle, Bool.and_true, Bool.or_true]
  have hcfg : (tearAll (cutRequests s)).cfg = s.cfg :=
    (same_of_mask (w := 0x2002#38) (tearAll_mask (by decide) _) .cfg (by decide) : (tearAll (cutRequests s)).cfg = _).trans cutRequests_cfg
  have hexec : execSupplyFailure i s = .next _ := if_neg (by simp [hp, hsource])
  exact ⟨_, hexec, (afterReset_atReset hcfg).setPower _ _ _, rfl, rfl, rfl, rfl⟩

/-! ### Power-on reset and release (R540, R554, R615, R648) -/

theorem porAssert_completes : completes .porAssert s (fun t => AtReset s.cfg t ∧ t.pins.phase = .cold
    ∧ ∀ ch, ch < s.cfg.channels → (t.channel ch).mem = [] ∧ (t.channel ch).undef.isSome = true) := by
  have hreset := afterReset_atReset (ph := .cold) ((loseStacks_cfg (fun _ => true)).trans (cutRequests_cfg (s := s)))
  refine ⟨_, rfl, hreset.setPower _ _ _, rfl, fun ch hc => ?_⟩
  obtain ⟨hmem, hundef⟩ := loseStacks_lost (s := cutRequests s) (f := fun _ => true) rfl (by rwa [cutRequests_cfg])
  have hch := channel_afterReset (ph := .cold) (kept_ne_reset_of_undef hundef)
  exact ⟨(congrArg Channel.mem hch).trans hmem, (congrArg (fun c : Channel => c.undef.isSome) hch).trans hundef⟩

theorem porRelease_completes (h : s.pins.phase = .cold) : completes .porRelease s (fun t => t.pins.phase = .held ∧ t.pmu.rstSupply = false
    ∧ t.pmu.rstSource = 0 ∧ t.fatal.supply = false ∧ t.pins.fuseReq = true ∧ t.pins.fuseAddr = 16 ∧ t.prot = s.prot) :=
  ⟨_, if_neg (not_not.2 h), rfl, rfl, rfl, rfl, rfl, rfl, rfl⟩

/-! ### Release into mission or test mode (R617, R618, R648, R649) -/

/-- The pins as the release of block reset leaves them, before the mode is entered. -/
def releasedPins (b : BootInput) (s : State) : State :=
  { s with pins := { s.pins with rstAck := false, blkRstN := true, feed := b.feed, nvmErr := b.nvmErr } }

theorem execResetRelease_releases (b : BootInput) (h : s.pins.phase = .held) : execResetRelease b s = .next
    (if b.testMode then enterTest (releasedPins b s)
    else { s with pins := { (releasedPins b s).pins with phase := .running, fuseReq := true } }) := by
  rw [execResetRelease, if_neg (by simp [h])]
  cases b.testMode <;> rfl

theorem enterTest_channels (hc : ch < s.cfg.channels) : ((enterTest s).channel ch).lost :=
  loseStacks_lost (f := fun _ => true) rfl hc

theorem enterTest_pins : (enterTest s).pins = { s.pins with phase := .testMode, testReady := true } := by
  have hpins : (loseStacks (fun _ => true) s).pins = s.pins := same_of_mask (w := 0x2002#38) (loseStacks_mask (by decide) _ s) .pins (by decide)
  rw [enterTest, hpins]

theorem resetRelease_mission {b : BootInput} (h : s.pins.phase = .held) (hb : b.testMode = false) : completes (.resetRelease b) s (fun t =>
    t.pins.phase = .running ∧ t.pins.rstAck = false ∧ t.pins.blkRstN = true
      ∧ t.pins.feed = b.feed ∧ t.pins.fuseReq = true ∧ t.cores = s.cores ∧ t.ringMem = s.ringMem) := by
  have hexec := execResetRelease_releases b h
  rw [hb] at hexec
  exact ⟨_, hexec, rfl, rfl, rfl, rfl, rfl, rfl, rfl⟩

theorem resetRelease_test {b : BootInput} (h : s.pins.phase = .held) (hb : b.testMode = true) : completes (.resetRelease b) s (fun t =>
    t.pins.phase = .testMode ∧ t.pins.testReady = true ∧ t.pins.rstAck = false ∧ t.cores = [] ∧ t.ringMem = []
      ∧ ∀ ch, ch < s.cfg.channels → (t.channel ch).mem = [] ∧ (t.channel ch).undef.isSome = true) := by
  have hexec := execResetRelease_releases b h
  rw [hb, if_pos rfl] at hexec
  refine ⟨_, hexec, ?_, ?_, ?_, rfl, rfl, fun ch hc => enterTest_channels (s := releasedPins b s) hc⟩
  all_goals rw [enterTest_pins]
  rfl
end

end Sys2Proof.Machine
end

section
/-! PROOF. Boot (R510, R516 to R519, R630, R648): the words of the fuses, and the state in which each step of boot stops, or LOCK is set and
the chosen image runs. -/

namespace Sys2Proof.Machine

/-! ### Fuse words (R648) -/

/-- The block with the last key word stored. -/
def fused (w : BitVec 32) (s : State) : State :=
  { s with pins := { s.pins with fuses := kset 0 s.pins.fuses 13 w, fuseAddr := 14, fuseReq := false } }

/-- Step 1 of boot: the fuses are read. -/
def fusesRead (s : State) : State := { s with prot := { s.prot with svnMin := s.minSvn, bootStage := 1 } }

/-- Step 2 of boot: the protection records, read by `t`, are written in `s`. -/
def recordsWritten (t s : State) : State :=
  { s with prot := { s.prot with bootStage := 2, protMeasure := measureOf (t.nvmRead 0x10010 48) } }

theorem recordsWritten_lock (t s : State) : (recordsWritten t s).prot.lock = s.prot.lock := by
  dsimp only [recordsWritten]

theorem recordsWritten_stage (t s : State) : (recordsWritten t s).prot.bootStage = 2 := by
  dsimp only [recordsWritten]

theorem recordsWritten_fw (t s : State) : (recordsWritten t s).fw = s.fw := by
  dsimp only [recordsWritten]

section
variable {s : State} {w : BitVec 32} (hreq : s.pins.fuseReq = true)
include hreq

theorem fuseAck_stores (h13 : s.pins.fuseAddr ≠ 13) (h271 : s.pins.fuseAddr ≠ 271) : completes (.fuseAck w) s (fun t =>
    t.pins = { s.pins with fuses := kset 0 s.pins.fuses s.pins.fuseAddr w, fuseAddr := s.pins.fuseAddr + 1 } ∧ t.prot = s.prot) := by
  have hexec : execFuseAck w s = .next { s with pins :=
      { s.pins with fuses := kset 0 s.pins.fuses s.pins.fuseAddr w, fuseAddr := s.pins.fuseAddr + 1 } } := by
    rw [execFuseAck]
    dsimp only
    rw [if_neg (by rw [hreq]; decide), if_neg h271, if_neg h13]
  exact ⟨_, hexec, rfl, rfl⟩

theorem fuseAck_lastRepair (h271 : s.pins.fuseAddr = 271) : completes (.fuseAck w) s (fun t =>
    t.pins.fuseAddr = 0 ∧ t.pins.fuseReq = decide (s.pins.phase = .running)) := by
  have hexec : execFuseAck w s = .next { s with pins := { s.pins with
      fuses := kset 0 s.pins.fuses s.pins.fuseAddr w, fuseReq := decide (s.pins.phase = .running), fuseAddr := 0 } } := by
    rw [execFuseAck]
    dsimp only
    rw [if_neg (by rw [hreq]; decide), if_pos h271]
  exact ⟨_, hexec, rfl, rfl⟩

theorem execFuseAck_boots (h13 : s.pins.fuseAddr = 13) : execFuseAck w s = .next (runBoot (fused w s)) := by
  rw [execFuseAck]
  dsimp only
  rw [if_neg (by rw [hreq]; decide), if_neg (by rw [h13]; decide), if_pos h13, h13]
  rfl
end

/-! ### The outcomes of boot (R516 to R519) -/

section
variable {s s2 : State} (hl : s.prot.lock = false)
include hl

theorem runBoot_noImage {c : Nat} (hi : (fusesRead s).imageFault 0x0A5E0B02 (2 ^ 16) 0x10000 = some c) :
    runBoot s = bootStop c (fusesRead s) := by
  unfold fusesRead at hi
  rw [runBoot, if_neg (by rw [hl]; decide)]
  dsimp only [bootStep]
  rw [hi]
  rfl

section
variable (hi : (fusesRead s).imageFault 0x0A5E0B02 (2 ^ 16) 0x10000 = none)
include hi

theorem runBoot_badRecord (hw : writeRecords (protRecords ((fusesRead s).imageBody 0x10000)) (fusesRead s) = none) :
    runBoot s = bootStop 7 (fusesRead s) := by
  unfold fusesRead at hi hw
  rw [runBoot, if_neg (by rw [hl]; decide)]
  dsimp only [bootStep]
  rw [hi]
  dsimp only
  rw [hw]
  rfl

/-- Boot tries the lock once the records are written. -/
theorem runBoot_triesLock (hw : writeRecords (protRecords ((fusesRead s).imageBody 0x10000)) (fusesRead s) = some s2) :
    runBoot s = match tryLock (recordsWritten (fusesRead s) s2) with
      | (s4, false) => bootStop 8 s4
      | (s4, true) => bootFremund (bootStep 3 s4) := by
  unfold fusesRead at hi hw
  rw [runBoot, if_neg (by rw [hl]; decide)]
  dsimp only [bootStep]
  rw [hi]
  dsimp only
  rw [hw]
  rfl
end
end

/-- Step 3 of boot: LOCK is set. -/
def locked (s : State) : State := { s with prot := { s.prot with lock := true } }

/-- Step 3 of boot: LOCK is refused for cause `c` at index `j`. -/
def unlocked (c j : Nat) (s : State) : State := { s with prot := { s.prot with refuse := c, refIndex := j } }

theorem tryLock_refused {s : State} {c j : Nat} (hr : s.lockRefusal = some (c, j)) : tryLock s = (unlocked c j s, false) := by
  rw [tryLock, hr]
  rfl

theorem tryLock_locks {s : State} (hr : s.lockRefusal = none) : tryLock s = (locked s, true) := by
  rw [tryLock, hr]
  rfl

/-! ### What boot writes -/

theorem Prot.put_lock {t u : Prot} {off v : Nat} (h : t.put off v = some u) : u.lock = t.lock := by
  unfold Prot.put at h
  split at h <;> cases h <;> rfl

theorem writeRwl_lock {s t : State} {off v : Nat} (h : writeRwl off v s = some t) : t.prot.lock = s.prot.lock := by
  unfold writeRwl at h
  split at h
  · split at h
    · cases h
    · cases h; rfl
  split at h
  case h_1 u e => cases h; exact Prot.put_lock e
  case h_2 => cases h; rfl
  case h_3 => split at h <;> cases h <;> rfl

theorem writeRecords_lock {rs : List (Nat × Nat)} {s t : State} (h : writeRecords rs s = some t) : t.prot.lock = s.prot.lock := by
  induction rs generalizing s with
  | nil => cases h; rfl
  | cons r rs ih =>
    unfold writeRecords at h
    split at h
    case h_1 u e => exact (ih h).trans (writeRwl_lock e)
    case h_2 => cases h

theorem writeRecords_fw {rs : List (Nat × Nat)} {s t : State} (h : writeRecords rs s = some t) : t.fw = s.fw :=
  same_of_mask (writeRecords_mask (w := 0x1811008) (by decide) rs s t h) .fw (by decide)

theorem chooseImage_prot {s t : State} {i l : Nat} {tr : Bool} (h : s.chooseImage = .run i tr l t) : t.prot = s.prot :=
  same_of_mask (chooseImage_mask (w := 0x40000000) (by decide) s i tr l t h) .prot (by decide)

theorem loadFremund_lock (i : Nat) (tr : Bool) (l : Nat) (s : State) : (loadFremund i tr l s).prot.lock = s.prot.lock := by
  dsimp only [loadFremund]

theorem loadFremund_runs (i : Nat) (tr : Bool) (l : Nat) (s : State) :
    (loadFremund i tr l s).fw.state = .running ∧ (loadFremund i tr l s).prot.bootStage = 5 := by
  dsimp only [loadFremund]
  exact ⟨rfl, rfl⟩

/-- Step 4 of boot runs an image, or stops with the stage that was reached. -/
theorem bootFremund_runs_or_stops (s : State) : (bootFremund s).prot.lock = s.prot.lock
    ∧ (((bootFremund s).fw.state = .running ∧ (bootFremund s).prot.bootStage = 5)
      ∨ ((bootFremund s).fatal.bootStop = true ∧ (bootFremund s).prot.bootStage = s.prot.bootStage)) := by
  unfold bootFremund
  split
  next slot trial last t h =>
    exact ⟨(loadFremund_lock slot trial last t).trans (congrArg Prot.lock (chooseImage_prot h)), .inl (loadFremund_runs slot trial last t)⟩
  next => exact ⟨rfl, .inr ⟨rfl, rfl⟩⟩

/-! ### Boot from the last key word on -/

/-- Boot of `s` has stopped for cause `c`. -/
def BootStops (s : State) (c : Nat) (t : State) : Prop :=
  t.prot.bootFail = c ∧ t.fatal.bootStop = true ∧ t.prot.lock = false ∧ t.fw.state = s.fw.state

section
variable {s s2 : State} {w : BitVec 32} (hreq : s.pins.fuseReq = true) (h13 : s.pins.fuseAddr = 13) (hl : s.prot.lock = false)
include hreq h13 hl

theorem fuseAck_noImage {c : Nat} (hi : (fusesRead (fused w s)).imageFault 0x0A5E0B02 (2 ^ 16) 0x10000 = some c) :
    completes (.fuseAck w) s (fun t => BootStops s c t ∧ t.prot.bootStage = 1) := by
  refine ⟨bootStop c (fusesRead (fused w s)), ?_, ⟨rfl, rfl, hl, rfl⟩, rfl⟩
  exact (execFuseAck_boots hreq h13).trans (congrArg Host.Outcome.next (runBoot_noImage (s := fused w s) hl hi))

section
variable (hi : (fusesRead (fused w s)).imageFault 0x0A5E0B02 (2 ^ 16) 0x10000 = none)
include hi

theorem fuseAck_badRecord
    (hw : writeRecords (protRecords ((fusesRead (fused w s)).imageBody 0x10000)) (fusesRead (fused w s)) = none) :
    completes (.fuseAck w) s (BootStops s 7) := by
  refine ⟨bootStop 7 (fusesRead (fused w s)), ?_, rfl, rfl, hl, rfl⟩
  exact (execFuseAck_boots hreq h13).trans (congrArg Host.Outcome.next (runBoot_badRecord (s := fused w s) hl hi hw))

section
variable (hw : writeRecords (protRecords ((fusesRead (fused w s)).imageBody 0x10000)) (fusesRead (fused w s)) = some s2)
include hw

theorem fuseAck_lockRefused {c j : Nat} (hr : (recordsWritten (fusesRead (fused w s)) s2).lockRefusal = some (c, j)) :
    completes (.fuseAck w) s (fun t => BootStops s 8 t ∧ t.prot.refuse = c ∧ t.prot.refIndex = j ∧ t.prot.bootStage = 2) := by
  have hlock := (recordsWritten_lock (fusesRead (fused w s)) s2).trans ((writeRecords_lock hw).trans hl)
  have hfw := (recordsWritten_fw (fusesRead (fused w s)) s2).trans ((writeRecords_fw hw).trans rfl)
  have hstage := recordsWritten_stage (fusesRead (fused w s)) s2
  have hboot := runBoot_triesLock (s := fused w s) hl hi hw
  rw [tryLock_refused hr] at hboot
  generalize recordsWritten (fusesRead (fused w s)) s2 = u at hlock hfw hstage hboot
  exact ⟨bootStop 8 (unlocked c j u), (execFuseAck_boots hreq h13).trans (congrArg Host.Outcome.next hboot),
    ⟨rfl, rfl, hlock, congrArg Fremund.state hfw⟩, rfl, rfl, hstage⟩

theorem fuseAck_locks (hr : (recordsWritten (fusesRead (fused w s)) s2).lockRefusal = none) :
    completes (.fuseAck w) s (fun t => t.prot.lock = true
      ∧ ((t.fw.state = .running ∧ t.prot.bootStage = 5) ∨ (t.fatal.bootStop = true ∧ t.prot.bootStage = 3))) := by
  have hlocked : (locked (recordsWritten (fusesRead (fused w s)) s2)).prot.lock = true := rfl
  have hboot := runBoot_triesLock (s := fused w s) hl hi hw
  rw [tryLock_locks hr] at hboot
  generalize locked (recordsWritten (fusesRead (fused w s)) s2) = u at hboot hlocked
  obtain ⟨hlock, hend⟩ := bootFremund_runs_or_stops (bootStep 3 u)
  exact ⟨_, (execFuseAck_boots hreq h13).trans (congrArg Host.Outcome.next hboot), hlock.trans hlocked, hend⟩
end
end
end

end Sys2Proof.Machine
end

section
/-! PROOF. Self-tests (R671, R672): every Scratchpad and bank is cleared, and the cores that fail are fenced. -/

namespace Sys2Proof.Machine

/-- What self-tests leave of a core: its contents and whether it is fenced. -/
def Core.tested (k : Core) : (KMap Byte × Bank × Bank) × Bool := (k.stored, k.fenced)

/-- A cleared Scratchpad and cleared banks. -/
def Core.cleared (k : Core) : Prop := k.spm = [] ∧ k.bank0 = Bank.clear ∧ k.bank1 = Bank.clear

section
variable {s : State} {c d : Nat}

theorem Core.cleared_of_tested {k m : Core} (h : k.tested = m.tested) (hm : m.cleared) : k.cleared := by
  obtain ⟨hstored, -⟩ := Prod.mk.inj h
  obtain ⟨hspm, hbanks⟩ := Prod.mk.inj hstored
  obtain ⟨h0, h1⟩ := Prod.mk.inj hbanks
  exact ⟨hspm.trans hm.1, h0.trans hm.2.1, h1.trans hm.2.2⟩

theorem Core.fenced_of_tested {k m : Core} (h : k.tested = m.tested) (hm : m.fenced = true) : k.fenced = true :=
  (congrArg Prod.snd h).trans hm

theorem tested_of_cores {t : State} (h : t.cores = s.cores) (c : Nat) : (t.core c).tested = (s.core c).tested :=
  congrArg Core.tested (core_of_cores h c)

/-! ### Clearing -/

theorem zeroiseCore_other (h : c ≠ d) : (zeroiseCore d s).core c = s.core c := by
  unfold zeroiseCore
  dsimp only
  split
  · exact State.core_modCore_other _ _ _ h
  · exact (State.core_modPart _ _ _ _).trans (State.core_modCore_other _ _ _ h)

theorem zeroiseCore_cleared (c : Nat) (s : State) : ((zeroiseCore c s).core c).cleared := by
  unfold zeroiseCore
  dsimp only
  split
  · rw [State.core_modCore_same]
    exact ⟨rfl, rfl, rfl⟩
  · rw [State.core_modPart, State.core_modCore_same]
    exact ⟨rfl, rfl, rfl⟩

theorem zeroiseAll_cleared (hc : c < s.cfg.cores) : ((zeroiseAll s).core c).cleared :=
  foldl_sets_of_step (P := fun t : State => (t.core c).cleared) (fun t => zeroiseCore_cleared c t)
    (fun t d hd ht => by rwa [zeroiseCore_other hd.symm]) (List.mem_range.2 hc) s

/-! ### Fencing -/

theorem dropShared_tested (d c : Nat) : ((dropShared d s).core c).tested = (s.core c).tested := by
  refine view_foldl (fun t => (t.core c).tested) (fun t h => view_foldl (fun t => (t.core c).tested) (fun t e => ?_) _ t) _ s
  exact view_ite (fun t => (t.core c).tested) rfl (view_modCore Core.tested t e rfl c)

/-- What comes before a core that is fenced is zeroised leaves the contents of all cores. -/
theorem released_tested (f : Stream → Bool) (l : List (Nat × Nat)) (d c : Nat) :
    ((l.foldl (fun t h => giveBack h.1 h.2 t) (unbindWhere f (dropShared d s))).core c).tested = (s.core c).tested := by
  have hback (t : State) (h : Nat × Nat) : ((giveBack h.1 h.2 t).core c).tested = (t.core c).tested :=
    tested_of_cores (same_of_mask (w := 0x90#38) (giveBack_mask (by decide) h.1 h.2 t) .cores (by decide)) c
  have hunbind (t : State) : ((unbindWhere f t).core c).tested = (t.core c).tested :=
    tested_of_cores (same_of_mask (w := 0x700510#38) (unbindWhere_mask (by decide) f t) .cores (by decide)) c
  exact (view_foldl (fun t => (t.core c).tested) hback l _).trans ((hunbind _).trans (dropShared_tested d c))

theorem leaveFigures_core (p d c : Nat) (t : State) : (leaveFigures p d t).core c = t.core c :=
  core_of_cores (same_of_mask (w := 0x10#38) (leaveFigures_mask (by decide) p d t) .cores (by decide)) c

theorem fenceCore_other (h : c ≠ d) (s : State) : ((fenceCore d s).core c).tested = (s.core c).tested := by
  unfold fenceCore
  dsimp only
  split
  · rw [leaveFigures_core, State.core_modPart, State.core_modCore_other _ _ _ h, zeroiseCore_other h, released_tested]
  · rw [State.core_modCore_other _ _ _ h, zeroiseCore_other h, released_tested]

theorem fenceCore_fences (c : Nat) (s : State) : ((fenceCore c s).core c).cleared ∧ ((fenceCore c s).core c).fenced = true := by
  unfold fenceCore
  dsimp only
  split
  · rw [leaveFigures_core, State.core_modPart, State.core_modCore_same]
    exact ⟨zeroiseCore_cleared c _, rfl⟩
  · rw [State.core_modCore_same]
    exact ⟨zeroiseCore_cleared c _, rfl⟩

theorem fenceCore_keeps_cleared (d : Nat) {t : State} (h : (t.core c).cleared) : ((fenceCore d t).core c).cleared := by
  by_cases e : c = d
  · exact e ▸ (fenceCore_fences c t).1
  · exact Core.cleared_of_tested (fenceCore_other e t) h

/-! ### What self-tests fence -/

/-- The Sets and the causes for replacement that follow the cores leave the cores. -/
theorem fenceFailed_core (r : SelfTestResult) (s : State) (c : Nat) : (fenceFailed r s).core c =
    ((((List.range s.cfg.cores).filter (fun c => s.setEnabled (c / 4) && (r.cores.contains c
      || (r.sets.filter s.setEnabled).contains (c / 4)))).foldl (fun t c => fenceCore c t) s).core c) := by
  have hsets (u : State) : ((r.sets.filter s.setEnabled).foldl (fun t k => t.modUnit k (fun u => { u with fenced := true })) u).core c = u.core c :=
    view_foldl (fun t => t.core c) (f := fun t k => t.modUnit k (fun u => { u with fenced := true })) (fun _ _ => rfl) _ u
  unfold fenceFailed
  dsimp only
  split <;> exact hsets _

theorem fenceFailed_keeps_cleared (r : SelfTestResult) (h : (s.core c).cleared) : ((fenceFailed r s).core c).cleared := by
  rw [fenceFailed_core]
  exact List.foldlRecOn _ _ (motive := fun t : State => (t.core c).cleared) h fun t ht d _ => fenceCore_keeps_cleared d ht

theorem fenceFailed_fences {r : SelfTestResult} (hc : c < s.cfg.cores) (he : s.setEnabled (c / 4) = true) (hr : c ∈ r.cores ∨ c / 4 ∈ r.sets) :
    ((fenceFailed r s).core c).fenced = true := by
  rw [fenceFailed_core]
  refine foldl_sets_of_step (P := fun t : State => (t.core c).fenced = true) (fun t => (fenceCore_fences c t).2)
    (fun t d hd ht => Core.fenced_of_tested (fenceCore_other hd.symm t) ht) (x := c) ?_ s
  rw [List.mem_filter, List.mem_range]
  refine ⟨hc, ?_⟩
  rcases hr with hr | hr
  · simp [he, hr]
  · simp [he, hr]

/-! ### SELF_TESTS -/

theorem withHealth_core (f : State → State) (s : State) (c : Nat) : (withHealth f s).core c = (f s).core c :=
  withHealth_view (F := fun t => t.core c) (fun code payload t => core_of_cores
    (same_of_mask (w := 0x700000#38) (postAll_mask (by decide) code payload t) .cores (by decide)) c) f s

theorem zeroiseAll_setEnabled (s : State) (k : Nat) : (zeroiseAll s).setEnabled k = s.setEnabled k := by
  have hprot := same_of_mask (w := 0x30#38) (zeroiseAll_mask (by decide) s) .prot (by decide)
  have hcfg := same_of_mask (w := 0x30#38) (zeroiseAll_mask (by decide) s) .cfg (by decide)
  simp only [Field.same] at hprot hcfg
  rw [State.setEnabled, State.setEnabled, hprot, hcfg]

/-- Fremund notes that self-tests are done. -/
def noteTested (s : State) : State := { s with fw := { s.fw with selfTests := true } }

theorem noteTested_core (s : State) (c : Nat) : (noteTested s).core c = s.core c := rfl

/-- The block after self-tests that do not panic it. -/
def tested (x : SelfTestResult) (s : State) : State := noteTested (withHealth (fenceFailed x) (zeroiseAll s))

theorem tested_selfTests (x : SelfTestResult) (s : State) : (tested x s).fw.selfTests = true := by
  dsimp only [tested, noteTested]

theorem tested_core (x : SelfTestResult) (s : State) (c : Nat) : (tested x s).core c = (fenceFailed x (zeroiseAll s)).core c :=
  (noteTested_core _ c).trans (withHealth_core (fenceFailed x) (zeroiseAll s) c)

theorem panicNow_cores (s : State) : (panicNow s).cores = s.cores :=
  same_of_mask (w := 0x8500000#38) (panicNow_mask (by decide) s) .cores (by decide)

theorem panicNow_panics (s : State) : (panicNow s).fw = { s.fw with state := .panic } ∧ (panicNow s).fatal.panic = true :=
  ⟨same_of_mask (w := 0x100000#38) (haltRings_mask (by decide) _) .fw (by decide), rfl⟩

theorem selfTests_completes (hp : s.pins.phase = .running) (hf : s.fwRunning = true) (x : SelfTestResult) (ht : s.fw.selfTests = false) :
    completes (.selfTests x) s (fun t => t.fw.selfTests = true
      ∧ (∀ c, c < s.cfg.cores → (t.core c).spm = [] ∧ (t.core c).bank0 = Bank.clear ∧ (t.core c).bank1 = Bank.clear)
      ∧ (∀ c, c < s.cfg.cores → s.setEnabled (c / 4) = true → (c ∈ x.cores ∨ c / 4 ∈ x.sets) → (t.core c).fenced = true)
      ∧ (x.block = true → t.fw.state = .panic ∧ t.fatal.panic = true)) := by
  have hexec : execSelfTests x s = .next (if x.block then panicNow (tested x s) else tested x s) := by
    rw [execSelfTests, if_neg (by simp [State.bringUp, State.powered, hp, hf, ht])]
    rfl
  have hcleared (c : Nat) (hc : c < s.cfg.cores) : ((tested x s).core c).cleared := by
    rw [tested_core]
    exact fenceFailed_keeps_cleared x (zeroiseAll_cleared hc)
  have hfenced (c : Nat) (hc : c < s.cfg.cores) (he : s.setEnabled (c / 4) = true) (hr : c ∈ x.cores ∨ c / 4 ∈ x.sets) :
      ((tested x s).core c).fenced = true := by
    rw [tested_core]
    have hcfg := same_of_mask (w := 0x30#38) (zeroiseAll_mask (by decide) s) .cfg (by decide)
    exact fenceFailed_fences (by rwa [hcfg]) (by rwa [zeroiseAll_setEnabled]) hr
  by_cases hb : x.block = true
  · obtain ⟨hfw, hfatal⟩ := panicNow_panics (tested x s)
    have hcores := core_of_cores (panicNow_cores (tested x s))
    rw [if_pos hb] at hexec
    refine ⟨_, hexec, (congrArg Fremund.selfTests hfw).trans (tested_selfTests x s), fun c hc => ?_, fun c hc he hr => ?_,
      fun _ => ⟨congrArg Fremund.state hfw, hfatal⟩⟩
    · rw [hcores]
      exact hcleared c hc
    · rw [hcores]
      exact hfenced c hc he hr
  · rw [if_neg hb] at hexec
    exact ⟨_, hexec, tested_selfTests x s, hcleared, hfenced, fun h => absurd h hb⟩

end
end Sys2Proof.Machine
end

section
/-! PROOF. Training of the HBM stacks (R340, R354, R362, R671, R675): the channels that train, and what a trip while training leaves. -/

namespace Sys2Proof.Machine

/-! ### The stages of bring-up that are done -/

/-- The stages of bring-up that Fremund notes as done. -/
def Fremund.stages (f : Fremund) : Bool × Bool × Bool × Bool := (f.selfTests, f.hbmTrained, f.zeroed, f.regionsBuilt)

def State.stages (s : State) : Bool × Bool × Bool × Bool := s.fw.stages

section
variable {s : State} {ch k : Nat}

theorem stages_of_fw {t : State} (h : t.fw = s.fw) : t.stages = s.stages := congrArg Fremund.stages h

theorem postEvent_stages (p code payload : Nat) (s : State) : (postEvent p code payload s).stages = s.stages := by
  unfold postEvent
  dsimp only
  split
  · rfl
  · repeat' refine view_ite State.stages ?_ ?_
    all_goals rfl

theorem postEach_stages (ps : List Nat) (code payload : Nat) (s : State) : (postEach ps code payload s).stages = s.stages :=
  view_foldl State.stages (fun t p => postEvent_stages p code payload t) ps s

theorem withHealth_stages (f : State → State) (s : State) : (withHealth f s).stages = (f s).stages :=
  withHealth_view (F := State.stages) (fun code payload t => postEach_stages t.liveParts code payload t) f s

theorem haltRun_stages (p : Nat) (s : State) : (haltRun p s).stages = s.stages := by
  unfold haltRun
  dsimp only
  split
  · rfl
  · next r _ =>
    have hdone (t : State) (w : Waiting) (data : Nat) : (complete w.ring w.seq stOk data 0 t).stages = t.stages :=
      stages_of_fw (same_of_mask (w := 0x300000#38) (complete_mask (by decide) _ _ _ _ _ t) .fw (by decide))
    have hwaits (t : State) (f : Wait → Bool) : (takeWaits p f t).2.stages = t.stages := rfl
    refine (view_foldl State.stages (fun t w => hdone t w _) _ _).trans ((hwaits _ _).trans ?_)
    exact view_ite State.stages rfl (postEvent_stages _ _ _ _)

theorem fremundStop_stages (p cause : Nat) (s : State) : (fremundStop p cause s).stages = s.stages := by
  have hstop : (stopChor p cause s).stages = s.stages := rfl
  unfold fremundStop settle
  split
  · exact view_ite State.stages ((haltRun_stages _ _).trans hstop) hstop
  · exact hstop

theorem fwLoss_stages (s : State) : (fwLoss s).stages = s.stages :=
  (withHealth_stages _ _).trans (view_foldl State.stages (fun t p => fremundStop_stages p 0x51 t) _ s)

theorem channelDown_stages (ch : Nat) (s : State) : (channelDown ch s).stages = s.stages := by
  have hdown : (withHealth (fun s => s.modChannel ch (fun c => { c with state := .down, served := 0, wcb := [], copying := [] })) s).stages =
      s.stages := (withHealth_stages _ s).trans rfl
  have hqueue (t : State) : (queueItem (.channel ch) t).stages = t.stages :=
    stages_of_fw (same_of_mask (w := 0x22010#38) (queueItem_mask (by decide) _ t) .fw (by decide))
  have hstops (l : List Nat) (t : State) : (l.foldl (fun t p => fremundStop p 0x51 t) t).stages = t.stages :=
    view_foldl State.stages (fun t p => fremundStop_stages p 0x51 t) l t
  have hall := (hstops (s.channelUsers ch) _).trans ((postEach_stages (s.channelParts ch) 0x51 (payloadOf noFig ch 0) _).trans
    ((hqueue _).trans hdown))
  exact view_ite State.stages ((fwLoss_stages _).trans hall) hall

theorem stages_tripAlarm (s : State) : (tripAlarm s).stages = s.stages := (withHealth_stages _ _).trans rfl

theorem tripTrained_stages (s : State) : (tripTrained s).stages = s.stages := by
  refine view_foldl State.stages (fun t k => ?_) _ s
  refine (postEach_stages _ _ _ _).trans ((stages_tripAlarm _).trans (view_foldl State.stages (fun t ch => ?_) _ t))
  exact view_ite State.stages rfl (channelDown_stages ch t)

/-! ### A channel through a failure of another (R363) -/

theorem channelFailed_channel (k : Nat) (s : State) (ch : Nat) : (channelFailed k s).channel ch = (s.modChannel k (fun c =>
    { c with state := .failed, served := 0, retrainQueued := false, wcb := [], copying := [] })).channel ch :=
  (channel_of_channels (postEach_channels _ _ _) ch).trans (withHealth_channel _ s ch)

theorem channelFailed_other (h : ch ≠ k) : (channelFailed k s).channel ch = s.channel ch := by
  rw [channelFailed_channel, State.channel_modChannel_other _ _ _ h]

theorem channelFailed_same (ch : Nat) (s : State) : (channelFailed ch s).channel ch =
    { s.channel ch with state := .failed, served := 0, retrainQueued := false, wcb := [], copying := [] } := by
  rw [channelFailed_channel, State.channel_modChannel_same]

theorem fremundStop_channel (p cause : Nat) (s : State) (ch : Nat) : (fremundStop p cause s).channel ch = s.channel ch :=
  channel_of_channels (same_of_mask (w := 0x700010#38) (fremundStop_mask (by decide) p cause s) .channels (by decide)) ch

theorem channelDown_other (h : ch ≠ k) : (channelDown k s).channel ch = s.channel ch := by
  have hdown : (withHealth (fun s => s.modChannel k (fun c => { c with state := .down, served := 0, wcb := [], copying := [] })) s).channel ch =
      s.channel ch := (withHealth_channel _ s ch).trans (State.channel_modChannel_other _ _ _ h)
  have hqueue (t : State) : (queueItem (.channel k) t).channel ch = t.channel ch :=
    view_ite (fun t => t.channel ch) rfl (State.channel_modChannel_other _ _ _ h)
  have hstops (l : List Nat) (t : State) : (l.foldl (fun t p => fremundStop p 0x51 t) t).channel ch = t.channel ch :=
    view_foldl (fun t => t.channel ch) (fun t p => fremundStop_channel p 0x51 t ch) l t
  have hloss (t : State) : (fwLoss t).channel ch = t.channel ch :=
    channel_of_channels (same_of_mask (w := 0x2700010#38) (fwLoss_mask (by decide) t) .channels (by decide)) ch
  have hall := (hstops (s.channelUsers k) _).trans ((channel_of_channels (postEach_channels (s.channelParts k) 0x51 (payloadOf noFig k 0)) ch).trans
    ((hqueue _).trans hdown))
  exact view_ite (fun t => t.channel ch) ((hloss _).trans hall) hall

/-! ### Training -/

theorem trainChannel_other (h : ch ≠ k) (lanes : Option Nat) : (trainChannel k lanes s).channel ch = s.channel ch := by
  unfold trainChannel
  split
  · exact State.channel_modChannel_other _ _ _ h
  · exact channelFailed_other h

theorem trainChannel_trains {n : Nat} (h : n ≤ 4) (ch : Nat) (s : State) :
    (trainChannel ch (some n) s).channel ch = { s.channel ch with state := .online, sparesUsed := n } := by
  rw [trainChannel, Option.filter_some, if_pos (decide_eq_true h)]
  exact State.channel_modChannel_same _ _ _

theorem trainChannel_fails {lanes : Option Nat} (h : ∀ n, lanes = some n → 4 < n) (ch : Nat) (s : State) :
    ((trainChannel ch lanes s).channel ch).state = .failed := by
  have hnone : lanes.filter (fun n => decide (n ≤ 4)) = none :=
    Option.filter_eq_none_iff.2 fun n hn => by simpa using h n hn
  rw [trainChannel, hnone]
  exact congrArg Channel.state (channelFailed_same ch s)

theorem trainChannel_stackSt (ch : Nat) (lanes : Option Nat) (s : State) (k : Nat) : (trainChannel ch lanes s).stackAt k = s.stackAt k := by
  have h := same_of_mask (w := 0x2702000#38) (trainChannel_mask (by decide) ch lanes s) .stackSt (by decide)
  simp only [Field.same] at h
  rw [State.stackAt, State.stackAt, h]

section
variable {i : Nat} {a : StackTraining}

theorem trainStack_sets {P : Channel → Prop} (hi : i < 32)
    (h : ∀ t : State, P ((trainChannel (32 * k + i) ((a.channels[i]?).join) t).channel (32 * k + i))) (s : State) : P ((trainStack k a s).channel (32 * k + i)) :=
  foldl_sets_of_step (P := fun t : State => P (t.channel (32 * k + i))) h
    (fun t j hj ht => by rwa [trainChannel_other (by omega)]) (List.mem_range.2 hi) _

theorem trainStack_other {m : Nat} (hi : i < 32) (h : k ≠ m) : (trainStack m a s).channel (32 * k + i) = s.channel (32 * k + i) := by
  let F (t : State) (j : Nat) : State := trainChannel (32 * m + j) ((a.channels[j]?).join) t
  have hkeep (t : State) (j : Nat) (hj : j ∈ List.range 32) : (F t j).channel (32 * k + i) = t.channel (32 * k + i) := by
    have := List.mem_range.1 hj
    exact trainChannel_other (by omega) _
  exact List.foldlRecOn (List.range 32) F (motive := fun t : State => t.channel (32 * k + i) = s.channel (32 * k + i)) rfl
    fun t ht j hj => (hkeep t j hj).trans ht

theorem trainStack_level (k m : Nat) (a : StackTraining) (s : State) :
    ((trainStack m a s).stackAt k).level = if k = m then stackLevel 0 a.temp else (s.stackAt k).level := by
  have hchannels (u : State) : ((List.range 32).foldl (fun t i => trainChannel (32 * m + i) ((a.channels[i]?).join) t) u).stackAt k = u.stackAt k :=
    view_foldl (fun t => t.stackAt k) (fun t i => trainChannel_stackSt (32 * m + i) ((a.channels[i]?).join) t k) _ u
  refine (congrArg Stack.level (hchannels _)).trans ?_
  split
  next e => exact e ▸ congrArg Stack.level (State.stackAt_setStack_same _ k _)
  next e => exact congrArg Stack.level (State.stackAt_setStack_other _ m _ e)

/-- A stack that is not tripped keeps its channels while the trips of others are handled. -/
theorem tripTrained_channel (hi : i < 32) (h : (s.stackAt k).level ≠ 3) : (tripTrained s).channel (32 * k + i) = s.channel (32 * k + i) := by
  have hpost (t : State) (code payload : Nat) : (postAll code payload t).channel (32 * k + i) = t.channel (32 * k + i) :=
    channel_of_channels (postEach_channels _ _ _) _
  have halarm (t : State) : (tripAlarm t).channel (32 * k + i) = t.channel (32 * k + i) := (withHealth_channel _ _ _).trans rfl
  refine List.foldlRecOn _ _ (motive := fun t : State => t.channel (32 * k + i) = s.channel (32 * k + i)) rfl fun t ht m hm => ?_
  rw [List.mem_filter, decide_eq_true_iff] at hm
  have hk : k ≠ m := fun e => h (e ▸ hm.2)
  refine (hpost _ _ _).trans ((halarm _).trans ?_)
  refine List.foldlRecOn _ _ (motive := fun t : State => t.channel (32 * k + i) = s.channel (32 * k + i)) ht fun u hu ch hch => ?_
  obtain ⟨j, hj, rfl⟩ := List.mem_map.1 hch
  have := List.mem_range.1 hj
  exact (view_ite (fun t => t.channel (32 * k + i)) rfl (channelDown_other (by omega))).trans hu
end

/-! ### HBM_TRAINING -/

/-- The answer of stack `k` to training. -/
def answerOf (l : List StackTraining) (k : Nat) : StackTraining := l.getD k ⟨0, 0, []⟩

/-- The sizes that the stacks answer. -/
def answeredSizes (l : List StackTraining) (s : State) : List Nat := (List.range s.cfg.hbmStacks).map (fun k => (answerOf l k).gb)

def smallestSize (l : List StackTraining) (s : State) : Nat := (answeredSizes l s).foldl min ((answeredSizes l s).headD 0)

def sizesDiffer (l : List StackTraining) (s : State) : Bool := (answeredSizes l s).any (fun g => decide (g ≠ smallestSize l s))

def trainStacks (l : List StackTraining) (s : State) : State :=
  (List.range s.cfg.hbmStacks).foldl (fun t k => trainStack k (answerOf l k) t) s

/-- What training has found is noted. -/
def noteTraining (gb : Nat) (odd : Bool) (s : State) : State :=
  { s with mem := { s.mem with stackGb := gb, mismatch := odd, trained := true }, fw := { s.fw with hbmTrained := true } }

def reportSizes (odd : Bool) (payload : Nat) (s : State) : State := if odd then postAll 0x54 payload s else s

variable {l : List StackTraining}

theorem execHbmTraining_trains (hp : s.pins.phase = .running) (hf : s.fwRunning = true) (ht : s.fw.hbmTrained = false) :
    ∃ payload, execHbmTraining l s = .next (tripTrained (reportSizes (sizesDiffer l s) payload
      (noteTraining (smallestSize l s) (sizesDiffer l s) (trainStacks l s)))) := by
  refine ⟨payloadOf noFig (((answeredSizes l s).findIdx? (fun g => decide (g = smallestSize l s))).getD 0) (smallestSize l s), ?_⟩
  rw [execHbmTraining, if_neg (by simp [State.bringUp, State.powered, hp, hf, ht])]
  rfl

theorem reportSizes_channel (odd : Bool) (payload : Nat) (t : State) (ch : Nat) : (reportSizes odd payload t).channel ch = t.channel ch :=
  view_ite (fun t => t.channel ch) (channel_of_channels (postEach_channels _ _ _) ch) rfl

theorem reportSizes_mem (odd : Bool) (payload : Nat) (t : State) : (reportSizes odd payload t).mem = t.mem :=
  view_ite State.mem (same_of_mask (w := 0x700000#38) (postAll_mask (by decide) _ _ t) .mem (by decide)) rfl

theorem reportSizes_stackAt (odd : Bool) (payload : Nat) (t : State) (k : Nat) : (reportSizes odd payload t).stackAt k = t.stackAt k := by
  have h := same_of_mask (w := 0x700000#38) (postAll_mask (by decide) 0x54 payload t) .stackSt (by decide)
  exact view_ite (fun t => t.stackAt k) (congrArg (kget Stack.reset · k) h) rfl

theorem reportSizes_stages (odd : Bool) (payload : Nat) (t : State) : (reportSizes odd payload t).stages = t.stages :=
  view_ite State.stages (postEach_stages _ _ _ _) rfl

theorem tripTrained_mem (t : State) : (tripTrained t).mem = t.mem :=
  same_of_mask (w := 0x2a722010#38) (tripTrained_mask (by decide) t) .mem (by decide)

theorem trainStacks_sets {P : Channel → Prop} {i : Nat} (hk : k < s.cfg.hbmStacks) (hi : i < 32)
    (h : ∀ t : State, P ((trainChannel (32 * k + i) (((answerOf l k).channels[i]?).join) t).channel (32 * k + i))) :
    P ((trainStacks l s).channel (32 * k + i)) := by
  have hset (t : State) : P ((trainStack k (answerOf l k) t).channel (32 * k + i)) := trainStack_sets hi h t
  have hkeep (t : State) (m : Nat) (hm : m ≠ k) (ht : P (t.channel (32 * k + i))) : P ((trainStack m (answerOf l m) t).channel (32 * k + i)) := by
    rwa [trainStack_other hi hm.symm]
  exact foldl_sets_of_step (P := fun t : State => P (t.channel (32 * k + i))) (F := fun t k => trainStack k (answerOf l k) t) hset hkeep
    (List.mem_range.2 hk) s

theorem trainStacks_level (hk : k < s.cfg.hbmStacks) : ((trainStacks l s).stackAt k).level = stackLevel 0 (answerOf l k).temp :=
  foldl_sets_of_step (P := fun t : State => (t.stackAt k).level = stackLevel 0 (answerOf l k).temp)
    (F := fun t k => trainStack k (answerOf l k) t) (fun t => by rw [trainStack_level, if_pos rfl])
    (fun t m hm ht => by rwa [trainStack_level, if_neg hm.symm]) (List.mem_range.2 hk) s

theorem stackLevel_cool {c : Nat} (h : c < 105) : stackLevel 0 c ≠ 3 := by
  rw [stackLevel, if_neg (by omega)]
  repeat' split
  all_goals decide

theorem foldl_min_le (l : List Nat) (b : Nat) : l.foldl min b ≤ b ∧ ∀ x ∈ l, l.foldl min b ≤ x := by
  induction l generalizing b with
  | nil => simp
  | cons y l ih =>
    obtain ⟨hb, hl⟩ := ih (min b y)
    rw [List.foldl_cons]
    refine ⟨hb.trans (min_le_left b y), fun x hx => ?_⟩
    rcases List.mem_cons.1 hx with rfl | hx
    · exact hb.trans (min_le_right b x)
    · exact hl x hx

theorem smallestSize_le (hk : k < s.cfg.hbmStacks) : smallestSize l s ≤ (answerOf l k).gb :=
  (foldl_min_le _ _).2 _ (List.mem_map_of_mem (f := fun k => (answerOf l k).gb) (List.mem_range.2 hk))

theorem sizesDiffer_iff : sizesDiffer l s = true ↔ ∃ k, k < s.cfg.hbmStacks ∧ (answerOf l k).gb ≠ smallestSize l s := by
  simp [sizesDiffer, answeredSizes]

theorem hbmTraining_completes (hp : s.pins.phase = .running) (hf : s.fwRunning = true) (ht : s.fw.hbmTrained = false) :
    completes (.hbmTraining l) s (fun t =>
      t.mem.trained = true ∧ t.fw.hbmTrained = true ∧ (∀ k, k < s.cfg.hbmStacks → t.mem.stackGb ≤ (answerOf l k).gb)
      ∧ (t.mem.mismatch = true ↔ ∃ k, k < s.cfg.hbmStacks ∧ (answerOf l k).gb ≠ t.mem.stackGb)
      ∧ ∀ k i, k < s.cfg.hbmStacks → i < 32 → (answerOf l k).temp < 105 →
          (∀ n, (answerOf l k).channels[i]? = some (some n) → n ≤ 4 →
            (t.channel (32 * k + i)).state = .online ∧ (t.channel (32 * k + i)).sparesUsed = n)
          ∧ ((∀ n, (answerOf l k).channels[i]? = some (some n) → 4 < n) → (t.channel (32 * k + i)).state = .failed)) := by
  obtain ⟨payload, hexec⟩ := execHbmTraining_trains (l := l) hp hf ht
  set u := noteTraining (smallestSize l s) (sizesDiffer l s) (trainStacks l s)
  set v := reportSizes (sizesDiffer l s) payload u
  have hmem : (tripTrained v).mem = u.mem := (tripTrained_mem v).trans (reportSizes_mem _ _ u)
  have hstages : (tripTrained v).stages = u.stages := (tripTrained_stages v).trans (reportSizes_stages _ _ u)
  refine ⟨tripTrained v, hexec, ?_, ?_, ?_, ?_, ?_⟩
  · rw [hmem]
    rfl
  · exact congrArg (·.2.1) hstages
  · rw [hmem]
    exact fun k hk => smallestSize_le hk
  · rw [hmem]
    exact sizesDiffer_iff
  · intro k i hk hi hcool
    have hlevel : (v.stackAt k).level = stackLevel 0 (answerOf l k).temp :=
      (congrArg Stack.level (reportSizes_stackAt _ _ u k)).trans (trainStacks_level hk)
    have hchannel : (tripTrained v).channel (32 * k + i) = (trainStacks l s).channel (32 * k + i) :=
      (tripTrained_channel hi (by rw [hlevel]; exact stackLevel_cool hcool)).trans (reportSizes_channel _ _ u _)
    rw [hchannel]
    constructor
    · intro n hn h4
      refine trainStacks_sets (P := fun c => c.state = .online ∧ c.sparesUsed = n) hk hi fun t => ?_
      rw [hn, Option.join_some, trainChannel_trains h4]
      exact ⟨rfl, rfl⟩
    · intro hbad
      refine trainStacks_sets (P := fun c => c.state = .failed) hk hi fun t => trainChannel_fails (fun n hn => hbad n ?_) _ t
      exact Option.join_eq_some_iff.1 hn

end
end Sys2Proof.Machine
end

section
/-! PROOF. Training of the links (R512, R642, R671, R676): what the lanes that align make of a port. -/

namespace Sys2Proof.Machine

section
variable {s : State} {n k : Nat}

theorem Port.link_fst (q : Port) : q.link.1 = q.state := rfl

theorem queueItem_laneRemap_links (n : Nat) (s : State) : (queueItem (.laneRemap n) s).links = s.links :=
  view_ite State.links rfl (links_modPort _ n rfl)

theorem trainResult_allLanes (n : Nat) (s : State) : trainResult n 0xFF s = portUp n 0xFF s := by
  rw [trainResult, if_pos (by decide)]

/-- A port whose low half aligns comes up on it, and a remap is queued. -/
theorem trainResult_lowHalf (n : Nat) (s : State) : trainResult n 0x0F s = queueItem (.laneRemap n) (portUp n 0x0F s) := by
  rw [trainResult, if_neg (by decide), if_pos (by decide)]

/-- A port of which no half aligns has failed. -/
theorem trainResult_middle (n : Nat) (s : State) : trainResult n 0x3C s = portFailed n s := by
  rw [trainResult, if_neg (by decide), if_neg (by decide), if_neg (by decide), if_neg (by decide)]

theorem trainResult_other (h : k ≠ n) (lanes : BitVec 8) (s : State) : ((trainResult n lanes s).port k).link = (s.port k).link := by
  have hup (m : BitVec 8) : ((portUp n m s).port k).link = (s.port k).link :=
    (link_of_links (portUp_links s n m) k).trans (congrArg Port.link (State.port_modPort_other _ _ _ h))
  have hremap (m : BitVec 8) : ((queueItem (.laneRemap n) (portUp n m s)).port k).link = (s.port k).link :=
    (link_of_links (queueItem_laneRemap_links n _) k).trans (hup m)
  have hfail : ((portFailed n s).port k).link = (s.port k).link :=
    (link_of_links (portFailed_links s n) k).trans (congrArg Port.link (State.port_modPort_other _ _ _ h))
  unfold trainResult
  dsimp only
  split
  · exact hup _
  split
  · exact hremap _
  split
  · exact hremap _
  split
  · rfl
  · exact hfail

/-- The ports that LINK_TRAINING trains. -/
def portsToTrain (s : State) : List Nat :=
  (List.range s.cfg.linkPorts).filter (fun n => (s.portOwner n).isSome && decide ((s.port n).state = .down))

/-- One port trains. -/
def trainPort (m : KMap (List LaneWatch)) (t : State) (n : Nat) : State :=
  trainResult n (alignedLanes (kget [] m n)) (t.modPort n (fun q => { q with state := .training, phyReset := false }))

variable {m : KMap (List LaneWatch)}

theorem execLinkTraining_trains (hp : s.pins.phase = .running) (hf : s.fwRunning = true) :
    execLinkTraining m s = .next ((portsToTrain s).foldl (trainPort m) s) := by
  rw [execLinkTraining, if_neg (by simp [State.bringUp, State.powered, hp, hf])]
  rfl

theorem trainPort_other (h : k ≠ n) (t : State) : ((trainPort m t n).port k).link = (t.port k).link :=
  (trainResult_other h _ _).trans (congrArg Port.link (State.port_modPort_other _ _ _ h))

theorem linkTraining_completes (hp : s.pins.phase = .running) (hf : s.fwRunning = true) (hn : n < s.cfg.linkPorts)
    (ho : (s.portOwner n).isSome = true) (hd : (s.port n).state = .down) :
    completes (.linkTraining m) s (fun t => (alignedLanes (kget [] m n) = 0xFF → (t.port n).state = .up ∧ (t.port n).width = 8)
      ∧ (alignedLanes (kget [] m n) = 0x0F → (t.port n).state = .up ∧ (t.port n).lanes = 0x0F)
      ∧ (alignedLanes (kget [] m n) = 0x3C → (t.port n).state = .failed)) := by
  have hmem : n ∈ portsToTrain s := List.mem_filter.2 ⟨List.mem_range.2 hn, by simp [ho, hd]⟩
  have hsets {P : PortState × BitVec 8 × Nat → Prop} (h : ∀ t, P ((trainPort m t n).port n).link) :
      P (((portsToTrain s).foldl (trainPort m) s).port n).link :=
    foldl_sets_of_step (P := fun t : State => P (t.port n).link) h (fun t k hk ht => by rwa [trainPort_other hk.symm]) hmem s
  refine ⟨_, execLinkTraining_trains hp hf, fun h => ?_, fun h => ?_, fun h => ?_⟩
  · have hlink := hsets (P := (· = (.up, 0xFF, laneCount 0xFF))) fun t => by rw [trainPort, h, trainResult_allLanes, portUp_link]
    obtain ⟨hstate, -, hwidth⟩ := state_of_link hlink
    exact ⟨hstate, hwidth.trans (by decide)⟩
  · have hlink := hsets (P := (· = (.up, 0x0F, laneCount 0x0F))) fun t => by
      rw [trainPort, h, trainResult_lowHalf, link_of_links (queueItem_laneRemap_links n _) n, portUp_link]
    obtain ⟨hstate, hlanes, -⟩ := state_of_link hlink
    exact ⟨hstate, hlanes⟩
  · rw [← Port.link_fst]
    refine hsets (P := fun l => l.1 = .failed) fun t => ?_
    rw [Port.link_fst, trainPort, h, trainResult_middle, portFailed_state]

end

end Sys2Proof.Machine
end

section
/-! PROOF. Zeroing of the memory (R671, R675): channels that are zeroed, and those that fail in it. -/

namespace Sys2Proof.Machine

section
variable {s : State} {ch : Nat}

/-- A channel that bring-up zeroes: ONLINE or FENCED. -/
def State.zeroable (s : State) (ch : Nat) : Prop := (s.channel ch).state = .online ∨ (s.channel ch).state = .fenced

/-- One channel is zeroed where it is ONLINE or FENCED. -/
def zeroChannel (t : State) (ch : Nat) : State :=
  if (t.channel ch).state = .online ∨ (t.channel ch).state = .fenced then
    t.modChannel ch (fun c => { c with mem := [], poison := [], undef := none })
  else t

/-- All channels are zeroed. -/
def zeroChannels (s : State) : State := (List.range s.cfg.channels).foldl zeroChannel s

/-- The channels of `failed` that fail while they are zeroed. -/
def failChannels (failed : List Nat) (n : Nat) (s : State) : State :=
  (failed.filter (fun ch => decide (ch < n) && decide ((s.channel ch).state ≠ .failed))).foldl (fun t ch => channelFailed ch t) s

def noteZeroed (s : State) : State := { s with fw := { s.fw with zeroed := true } }

theorem noteZeroed_channel (s : State) (ch : Nat) : (noteZeroed s).channel ch = s.channel ch := rfl

theorem zeroChannel_state (t : State) (k ch : Nat) : ((zeroChannel t k).channel ch).state = (t.channel ch).state := by
  unfold zeroChannel
  split
  · by_cases e : ch = k
    · rw [e, State.channel_modChannel_same]
    · rw [State.channel_modChannel_other _ _ _ e]
  · rfl

theorem zeroChannel_other {k : Nat} (h : ch ≠ k) (t : State) : (zeroChannel t k).channel ch = t.channel ch :=
  view_ite (fun t => t.channel ch) (State.channel_modChannel_other _ _ _ h) rfl

theorem zeroChannels_state (s : State) (ch : Nat) : ((zeroChannels s).channel ch).state = (s.channel ch).state :=
  view_foldl (fun t => (t.channel ch).state) (fun t k => zeroChannel_state t k ch) _ s

theorem zeroChannels_zeroes (hc : ch < s.cfg.channels) (h : s.zeroable ch) :
    ((zeroChannels s).channel ch).mem = [] ∧ ((zeroChannels s).channel ch).undef = none := by
  refine foldl_sets (I := fun t : State => t.zeroable ch) (P := fun t : State => (t.channel ch).mem = [] ∧ (t.channel ch).undef = none)
    (F := zeroChannel) (x := ch) (fun t k ht => ?_) (fun t ht => ?_) (fun t k _ hk ht => ?_) (List.mem_range.2 hc) h
  · rwa [State.zeroable, zeroChannel_state]
  · unfold State.zeroable at ht
    rw [zeroChannel, if_pos ht, State.channel_modChannel_same]
    exact ⟨rfl, rfl⟩
  · rwa [zeroChannel_other hk.symm]

theorem channelFailed_contents (k : Nat) (t : State) (ch : Nat) :
    ((channelFailed k t).channel ch).mem = (t.channel ch).mem ∧ ((channelFailed k t).channel ch).undef = (t.channel ch).undef := by
  by_cases e : ch = k
  · rw [e, channelFailed_same]
    exact ⟨rfl, rfl⟩
  · rw [channelFailed_other e]
    exact ⟨rfl, rfl⟩

theorem failChannels_contents (l : List Nat) (n : Nat) (s : State) (ch : Nat) :
    ((failChannels l n s).channel ch).mem = (s.channel ch).mem ∧ ((failChannels l n s).channel ch).undef = (s.channel ch).undef :=
  ⟨view_foldl (fun t => (t.channel ch).mem) (fun t k => (channelFailed_contents k t ch).1) _ s,
    view_foldl (fun t => (t.channel ch).undef) (fun t k => (channelFailed_contents k t ch).2) _ s⟩

theorem failChannels_fails {l : List Nat} {n : Nat} (hc : ch < n) (hl : ch ∈ l) (hs : (s.channel ch).state ≠ .failed) :
    ((failChannels l n s).channel ch).state = .failed := by
  refine foldl_sets_of_step (P := fun t : State => (t.channel ch).state = .failed) (F := fun t ch => channelFailed ch t) (x := ch)
    (fun t => by rw [channelFailed_same]) (fun t k hk ht => by rwa [channelFailed_other hk.symm]) ?_ s
  exact List.mem_filter.2 ⟨hl, by simp [hc, hs]⟩

theorem failChannels_other {l : List Nat} {n : Nat} (hl : ch ∉ l) : (failChannels l n s).channel ch = s.channel ch := by
  refine List.foldlRecOn _ _ (motive := fun t : State => t.channel ch = s.channel ch) rfl fun t ht k hk => ?_
  have hne : ch ≠ k := fun e => hl (e ▸ (List.mem_filter.1 hk).1)
  rwa [channelFailed_other hne]

theorem execHbmZeroInit_zeroes {l : List Nat} (hp : s.pins.phase = .running) (hf : s.fwRunning = true) (ht : s.fw.hbmTrained = true)
    (hz : s.fw.zeroed = false) : execHbmZeroInit l s = .next (noteZeroed (failChannels l s.cfg.channels (zeroChannels s))) := by
  rw [execHbmZeroInit, if_neg (by simp [State.bringUp, State.powered, hp, hf, ht, hz])]
  rfl

theorem hbmZeroInit_completes {l : List Nat} (hp : s.pins.phase = .running) (hf : s.fwRunning = true) (ht : s.fw.hbmTrained = true)
    (hz : s.fw.zeroed = false) : completes (.hbmZeroInit l) s (fun t => t.fw.zeroed = true
      ∧ ∀ ch, ch < s.cfg.channels → ((s.channel ch).state = .online ∨ (s.channel ch).state = .fenced) →
        (t.channel ch).mem = [] ∧ (t.channel ch).undef = none ∧ (ch ∈ l → (t.channel ch).state = .failed)
        ∧ (¬ ch ∈ l → (t.channel ch).state = (s.channel ch).state)) := by
  refine ⟨_, execHbmZeroInit_zeroes hp hf ht hz, rfl, fun ch hc h => ?_⟩
  obtain ⟨hmem, hundef⟩ := zeroChannels_zeroes hc h
  obtain ⟨hkeepMem, hkeepUndef⟩ := failChannels_contents l s.cfg.channels (zeroChannels s) ch
  have hnotFailed : ((zeroChannels s).channel ch).state ≠ .failed := by
    rw [zeroChannels_state]
    rcases h with h | h <;> rw [h] <;> decide
  rw [noteZeroed_channel]
  refine ⟨hkeepMem.trans hmem, hkeepUndef.trans hundef, fun hl => failChannels_fails hc hl hnotFailed, fun hl => ?_⟩
  rw [failChannels_other hl, zeroChannels_state]

end
end Sys2Proof.Machine
end

section
/-! PROOF. Stage 6 of bring-up (R344, R476, R486, R671, R677): the FW regions latch their channels, and the owned rings open. -/

namespace Sys2Proof.Machine

section
variable {s : State} {n r : Nat}

/-! ### Regions -/

/-- A FW region of the block's memory latches its channel list. -/
def latchRegion (t : State) (n : Nat) : State :=
  let r := t.region n
  if r.valid && r.fw && decide (r.mode ≤ 1) then t.setRegion n { r with list := some ((regionReach t.cfg r).filter t.inService) } else t

theorem latchRegion_other {k : Nat} (h : n ≠ k) (t : State) : (latchRegion t k).region n = t.region n :=
  view_ite (fun t => t.region n) (State.region_setRegion_other _ _ _ h) rfl

theorem latchRegion_fixed (t : State) (k n : Nat) : ((latchRegion t k).region n).fixed = (t.region n).fixed := by
  by_cases e : n = k
  · subst e
    refine view_ite (fun t => (t.region n).fixed) ?_ rfl
    rw [State.region_setRegion_same]
    rfl
  · rw [latchRegion_other e]

/-- What the channel list of region `n` is latched from. -/
def State.latchBase (s : State) (n : Nat) : Design × KMap Channel × MemRegion := (s.cfg, s.channels, (s.region n).fixed)

theorem latchRegion_latchBase (t : State) (k n : Nat) : (latchRegion t k).latchBase n = t.latchBase n := by
  have hcfg : (latchRegion t k).cfg = t.cfg := view_ite State.cfg rfl rfl
  have hchannels : (latchRegion t k).channels = t.channels := view_ite State.channels rfl rfl
  rw [State.latchBase, State.latchBase, hcfg, hchannels, latchRegion_fixed]

theorem regionReach_fixed (d : Design) (r : MemRegion) : regionReach d r.fixed = regionReach d r := rfl

/-- The register group and the channels that two states share give one channel list. -/
theorem latchRegion_latches {t : State} (h : t.latchBase n = s.latchBase n) (hv : (s.region n).valid = true) (hfw : (s.region n).fw = true)
    (hm : (s.region n).mode ≤ 1) : ((latchRegion t n).region n).list = some ((regionReach s.cfg (s.region n)).filter s.inService) := by
  obtain ⟨hcfg, hrest⟩ := Prod.mk.inj h
  obtain ⟨hchannels, hfixed⟩ := Prod.mk.inj hrest
  have hcond : ((t.region n).valid && (t.region n).fw && decide ((t.region n).mode ≤ 1)) = true := by
    have hvalid : (t.region n).valid = true := (congrArg MemRegion.valid hfixed).trans hv
    have hfw' : (t.region n).fw = true := (congrArg MemRegion.fw hfixed).trans hfw
    have hmode : (t.region n).mode = (s.region n).mode := (congrArg MemRegion.mode hfixed : (t.region n).fixed.mode = (s.region n).fixed.mode)
    rw [hvalid, hfw', hmode]
    simpa using hm
  have hreach : regionReach t.cfg (t.region n) = regionReach s.cfg (s.region n) := by
    rw [← regionReach_fixed, hfixed, hcfg, regionReach_fixed]
  have hservice : t.inService = s.inService := by
    funext c
    rw [State.inService, State.inService, hcfg, channel_of_channels hchannels]
  rw [latchRegion, if_pos hcond, State.region_setRegion_same, hreach, hservice]

theorem latchFw_latches (hn : n < 64) (hv : (s.region n).valid = true) (hfw : (s.region n).fw = true) (hm : (s.region n).mode ≤ 1) :
    ((latchFw s).region n).list = some ((regionReach s.cfg (s.region n)).filter s.inService) :=
  foldl_sets (F := latchRegion) (I := fun t : State => t.latchBase n = s.latchBase n)
    (P := fun t : State => (t.region n).list = some ((regionReach s.cfg (s.region n)).filter s.inService))
    (fun t k ht => (latchRegion_latchBase t k n).trans ht) (fun t ht => latchRegion_latches ht hv hfw hm)
    (fun t k _ hk ht => by rwa [latchRegion_other hk.symm]) (List.mem_range.2 hn) rfl

/-! ### Rings -/

/-- One owned ring opens. -/
def openRing (t : State) (r : Nat) : State := if (t.ringOwner r).isSome then t.modRing r Ring.fresh else t

theorem openRings_opens (hr : r < 16) (ho : (s.ringOwner r).isSome = true) :
    ((openRings s).ring r).state = .ready ∧ ((openRings s).ring r).opened = [] := by
  refine foldl_sets (F := openRing) (I := fun t : State => t.prot = s.prot)
    (P := fun t : State => (t.ring r).state = .ready ∧ (t.ring r).opened = []) (x := r)
    (fun t k ht => ?_) (fun t ht => ?_) (fun t k _ hk ht => ?_) (List.mem_range.2 hr) rfl
  · exact (view_ite State.prot rfl rfl : (openRing t k).prot = t.prot).trans ht
  · have hown : (t.ringOwner r).isSome = true := by
      rw [State.ringOwner, ht]
      exact ho
    rw [openRing, if_pos hown, State.ring_modRing_same]
    exact ⟨rfl, rfl⟩
  · rw [openRing]
    split
    · rwa [State.ring_modRing_other _ _ _ hk.symm]
    · exact ht

/-! ### The events of bring-up (R677) -/

theorem postEarly_cmds (s : State) : cmdsOf (postEarly s).rings = cmdsOf s.rings :=
  cmds_foldl (fun t (e : Nat × Nat × BitVec 128) => postEvent_cmds e.1 e.2.1 e.2.2.toNat t) s.fw.early { s with fw := { s.fw with early := [] } }

theorem postEarly_stages (s : State) : (postEarly s).stages = s.stages :=
  view_foldl State.stages (fun t (e : Nat × Nat × BitVec 128) => postEvent_stages e.1 e.2.1 e.2.2.toNat t) s.fw.early
    { s with fw := { s.fw with early := [] } }

/-! ### FW_REGION_BUILD -/

def noteRegions (s : State) : State := { s with fw := { s.fw with regionsBuilt := true } }

theorem noteRegions_built (s : State) : (noteRegions s).fw.regionsBuilt = true := rfl

theorem noteRegions_region (s : State) (n : Nat) : (noteRegions s).region n = s.region n := rfl

theorem noteRegions_ringOwner (s : State) (r : Nat) : (noteRegions s).ringOwner r = s.ringOwner r := rfl

theorem regionsBuilt_of_stages {t u : State} (h : t.stages = u.stages) (hu : u.fw.regionsBuilt = true) : t.fw.regionsBuilt = true :=
  (congrArg (fun x : Bool × Bool × Bool × Bool => x.2.2.2) h : t.fw.regionsBuilt = u.fw.regionsBuilt).trans hu

theorem region_of_regions {t u : State} (h : t.regions = u.regions) (n : Nat) : t.region n = u.region n := by
  rw [State.region, State.region, h]

theorem latchFw_ringOwner (s : State) (r : Nat) : (latchFw s).ringOwner r = s.ringOwner r := by
  have hprot : (latchFw s).prot = s.prot := same_of_mask (w := 0x2000000000#38) (latchFw_mask (by decide) s) .prot (by decide)
  rw [State.ringOwner, State.ringOwner, hprot]

theorem regionBuild_runs (hp : s.pins.phase = .running) (hf : s.fwRunning = true) (ht : s.fw.selfTests = true) (hz : s.fw.zeroed = true)
    (hb : s.fw.regionsBuilt = false) (hl : ∀ k, k < s.cfg.hbmStacks → (s.stackAt k).level ≠ 3) :
    execFwRegionBuild true s = .next (postEarly (openRings (noteRegions (latchFw s)))) ∧ execFwRegionBuild false s = .next (panicNow s) := by
  have hcool : (List.range s.cfg.hbmStacks).any (fun k => decide ((s.stackAt k).level = 3)) = false :=
    List.any_eq_false.2 fun k hk => by simpa using hl k (List.mem_range.1 hk)
  have hguard : ¬ (!s.bringUp || !s.fw.selfTests || !s.fw.zeroed || s.fw.regionsBuilt
      || (List.range s.cfg.hbmStacks).any (fun k => decide ((s.stackAt k).level = 3))) = true := by
    rw [hcool]
    simp [State.bringUp, State.powered, hp, hf, ht, hz, hb]
  constructor
  · rw [execFwRegionBuild, if_neg hguard, if_neg (by decide)]
    rfl
  · rw [execFwRegionBuild, if_neg hguard, if_pos (by decide)]

theorem fwRegionBuild_completes (hp : s.pins.phase = .running) (hf : s.fwRunning = true) (ht : s.fw.selfTests = true) (hz : s.fw.zeroed = true)
    (hb : s.fw.regionsBuilt = false) (hl : ∀ k, k < s.cfg.hbmStacks → (s.stackAt k).level ≠ 3) :
    completes (.fwRegionBuild true) s (fun t => t.fw.regionsBuilt = true
      ∧ (∀ r, r < 16 → (s.ringOwner r).isSome = true → (t.ring r).state = .ready ∧ (t.ring r).opened = [])
      ∧ ∀ n, n < 64 → (s.region n).valid = true → (s.region n).fw = true → (s.region n).mode ≤ 1 →
          (t.region n).list = some ((regionReach s.cfg (s.region n)).filter s.inService))
    ∧ completes (.fwRegionBuild false) s (fun t => t.fw.state = .panic ∧ t.fatal.panic = true) := by
  obtain ⟨hbuilds, hpanics⟩ := regionBuild_runs hp hf ht hz hb hl
  obtain ⟨hfw, hfatal⟩ := panicNow_panics s
  refine ⟨⟨_, hbuilds, ?_, fun r hr ho => ?_, fun n hn hv hw hm => ?_⟩, _, hpanics, congrArg Fremund.state hfw, hfatal⟩
  · have hopen (u : State) : (openRings u).stages = u.stages :=
      stages_of_fw (same_of_mask (w := 0x100000#38) (openRings_mask (by decide) u) .fw (by decide))
    exact regionsBuilt_of_stages ((postEarly_stages _).trans (hopen (noteRegions (latchFw s)))) (noteRegions_built _)
  · have hown : ((noteRegions (latchFw s)).ringOwner r).isSome = true := by rwa [noteRegions_ringOwner, latchFw_ringOwner]
    obtain ⟨hready, hempty⟩ := openRings_opens hr hown
    obtain ⟨hopened, -, hstate⟩ := cmdsOf_ring (postEarly_cmds (openRings (noteRegions (latchFw s)))) r
    exact ⟨hstate.trans hready, hopened.trans hempty⟩
  · have hregion (u : State) : (postEarly (openRings u)).region n = u.region n := by
      exact (region_of_regions (same_of_mask (w := 0x700000#38) (postEarly_mask (by decide) (openRings u)) .regions (by decide)) n).trans
        (region_of_regions (same_of_mask (w := 0x100000#38) (openRings_mask (by decide) u) .regions (by decide)) n)
    rw [hregion, noteRegions_region]
    exact latchFw_latches hn hv hw hm
end

/-! ### Test access (R650 to R652) -/

theorem jtagIrUpdate_completes (s : State) (c : BitVec 8) :
    completes (.jtagIrUpdate c) s (fun t => t = { s with pins := { s.pins with jtagIr := c } }) := ⟨_, rfl, rfl⟩

section
variable {s : State}

theorem getLsbD_lowMask {n k : Nat} (w : BitVec 8) (hk : k < n) (h8 : k < 8) : (w &&& BitVec.ofNat 8 (2 ^ n - 1)).getLsbD k = w.getLsbD k := by
  rw [BitVec.getLsbD_and, BitVec.getLsbD_ofNat, Nat.testBit_two_pow_sub_one, decide_eq_true hk, decide_eq_true h8, Bool.and_self, Bool.and_true]

/-- The pins as a scan pattern drives the stacks. -/
def scanned (n : Nat) (d : ScanDrive) (p : Pins) : Pins :=
  { p with wrapIn := d.wrap.take n, wrapOut := d.wso &&& BitVec.ofNat 8 (2 ^ n - 1) }

theorem execScanPattern_test (h : s.pins.phase = .testMode) (d : ScanDrive) : execScanPattern d s = .next (if s.pins.testReady
    then { s.draw with pins := { scanned s.cfg.hbmStacks d s.pins with scanOut := Config.scanOut s.free d.input } }
    else { s with pins := scanned s.cfg.hbmStacks d s.pins }) := by
  rw [execScanPattern, if_neg (not_not.2 h)]
  split <;> rfl

theorem scanPattern_test (h : s.pins.phase = .testMode) (d : ScanDrive) : completes (.scanPattern d) s (fun t =>
    t.pins.wrapIn = d.wrap.take s.cfg.hbmStacks
    ∧ (∀ k, k < s.cfg.hbmStacks → k < 8 → t.pins.wrapOut.getLsbD k = d.wso.getLsbD k)
    ∧ (s.pins.testReady = false → t.pins.scanOut = s.pins.scanOut)
    ∧ t.pins = { s.pins with scanOut := t.pins.scanOut, wrapIn := t.pins.wrapIn, wrapOut := t.pins.wrapOut }
    ∧ t.cores = s.cores ∧ t.prot = s.prot ∧ t.fw = s.fw) := by
  have hexec := execScanPattern_test h d
  by_cases hr : s.pins.testReady = true
  · rw [if_pos hr] at hexec
    refine ⟨_, hexec, rfl, fun k hk h8 => getLsbD_lowMask _ hk h8, fun h => ?_, rfl, rfl, rfl, rfl⟩
    rw [hr] at h
    cases h
  · rw [if_neg hr] at hexec
    exact ⟨_, hexec, rfl, fun k hk h8 => getLsbD_lowMask _ hk h8, fun _ => rfl, rfl, rfl, rfl, rfl⟩

theorem scanPattern_mission (h : s.pins.phase ≠ .testMode) (d : ScanDrive) : completes (.scanPattern d) s (fun t =>
    t = { s with pins := { s.pins with wrapIn := [], wrapOut := 0 } }) :=
  ⟨_, if_pos h, rfl⟩
end

end Sys2Proof.Machine
end

section
/-! PROOF. Resets, the boot sequence, bring-up and the test mode: the statement from its stages. -/

namespace Sys2Proof.Machine

variable {s : State}

/-- Boot from the last key word on, by what it meets first (R516 to R519). -/
theorem fuseAck_boots {w : BitVec 32} (hreq : s.pins.fuseReq = true) (h13 : s.pins.fuseAddr = 13) (hl : s.prot.lock = false) :
    (∀ c, (fusesRead (fused w s)).imageFault 0x0A5E0B02 (2 ^ 16) 0x10000 = some c →
      completes (.fuseAck w) s (fun t => BootStops s c t ∧ t.prot.bootStage = 1))
    ∧ ((fusesRead (fused w s)).imageFault 0x0A5E0B02 (2 ^ 16) 0x10000 = none →
      (writeRecords (protRecords ((fusesRead (fused w s)).imageBody 0x10000)) (fusesRead (fused w s)) = none →
        completes (.fuseAck w) s (BootStops s 7))
      ∧ ∀ s2, writeRecords (protRecords ((fusesRead (fused w s)).imageBody 0x10000)) (fusesRead (fused w s)) = some s2 →
        (∀ c j, (recordsWritten (fusesRead (fused w s)) s2).lockRefusal = some (c, j) → completes (.fuseAck w) s (fun t =>
          BootStops s 8 t ∧ t.prot.refuse = c ∧ t.prot.refIndex = j ∧ t.prot.bootStage = 2))
        ∧ ((recordsWritten (fusesRead (fused w s)) s2).lockRefusal = none → completes (.fuseAck w) s (fun t => t.prot.lock = true
            ∧ ((t.fw.state = .running ∧ t.prot.bootStage = 5) ∨ (t.fatal.bootStop = true ∧ t.prot.bootStage = 3))))) :=
  ⟨fun _ hi => fuseAck_noImage hreq h13 hl hi, fun hi => ⟨fun hw => fuseAck_badRecord hreq h13 hl hi hw, fun _ hw =>
    ⟨fun _ _ hr => fuseAck_lockRefused hreq h13 hl hi hw hr, fun hr => fuseAck_locks hreq h13 hl hi hw hr⟩⟩⟩

/-- Settles O59, from a lemma per command: the resets and their release, boot by the first check that fails, each stage of bring-up as a
fold of which one step sets what the other steps keep, and the two test inputs. -/
theorem resetsAndBringUp : Obligations.ResetsAndBringUp := by
  unfold Obligations.ResetsAndBringUp
  intro s
  refine ⟨resetEntry_completes, resetEntryDone_completes, fun i hp hi => supplyFailure_completes hp hi, porAssert_completes,
    porRelease_completes, fun b h => ⟨resetRelease_mission h, resetRelease_test h⟩, fun w hreq => ⟨fuseAck_stores hreq, fuseAck_lastRepair hreq,
    fun h13 hl => fuseAck_boots hreq h13 hl⟩, fun hp hf => ⟨fun x ht => selfTests_completes hp hf x ht,
    fun l ht => hbmTraining_completes hp hf ht, fun m n hn ho hd => linkTraining_completes hp hf hn ho hd,
    fun l ht hz => hbmZeroInit_completes hp hf ht hz, fun ht hz hb hl => fwRegionBuild_completes hp hf ht hz hb hl⟩,
    jtagIrUpdate_completes s, fun x wrap wso =>
    ⟨fun h => scanPattern_test h ⟨x, wrap, wso⟩, fun h => scanPattern_mission h ⟨x, wrap, wso⟩⟩⟩

end Sys2Proof.Machine
end

section
/-! PROOF. The bandwidth regulators (R347, R349): the shares scaled down together, the slots that a partition may take, and the limit on
crossbar requests. -/

namespace Sys2Proof.Machine

/-! ### The shares of a round -/

/-- Numbers scaled down one by one come to no more than their sum scaled down. -/
theorem sum_map_mul_div_le (l : List Nat) (n d : Nat) : (l.map (fun x => x * n / d)).sum ≤ l.sum * n / d := by
  induction l with
  | nil => simp
  | cons x l ih =>
    rw [List.map_cons, List.sum_cons, List.sum_cons, Nat.add_mul]
    exact (Nat.add_le_add_left ih _).trans Nat.div_add_div_le_add_div

section
variable (s : State)

/-- The shares as BW_SHARE holds them (R349). -/
def State.givenShares (s : State) : List Nat := (List.range 4).map (fun p => fld s.mem.bwShare.toNat (8 * p) 8)

theorem shares_eq : s.shares =
    if 64 < s.givenShares.sum then s.givenShares.map (fun x => x * 64 / s.givenShares.sum) else s.givenShares := rfl

theorem shares_length : s.shares.length = 4 := by
  rw [shares_eq]
  split <;> simp [State.givenShares]

theorem shares_sum_le : s.shares.sum ≤ 64 := by
  rw [shares_eq]
  split
  next h =>
    calc (s.givenShares.map (fun x => x * 64 / s.givenShares.sum)).sum
        ≤ s.givenShares.sum * 64 / s.givenShares.sum := sum_map_mul_div_le _ _ _
      _ = 64 := Nat.mul_div_cancel_left _ (by omega)
  next h => omega

theorem shares_of_sum_le (h : s.givenShares.sum ≤ 64) : s.shares = s.givenShares := by
  rw [shares_eq, if_neg (by omega)]
end

/-! ### The slot that a partition may take -/

section
variable {t : Turns} {sh w : List Nat} {p : Nat}

/-- A partition asks for the slot: `p` itself, or one of the waiting. -/
def asksWith (w : List Nat) (p q : Nat) : Bool := decide (q = p) || w.contains q

/-- The partitions in rotation after the one that took the last slot beyond its share. -/
def Turns.rotation (t : Turns) : List Nat := (List.range 4).map (fun i => (t.last + 1 + i) % 4)

/-- A slot of the share, or one that the shares of the waiting leave, in rotation. -/
theorem grants_iff : t.grants sh w p = true ↔ 0 < t.owed sh p
    ∨ (t.slots.sum + (((List.range 4).filter (asksWith w p)).map (t.owed sh)).sum < 64
      ∧ t.rotation.find? (fun q => asksWith w p q && decide (t.owed sh q = 0)) = some p) := by
  simp only [Turns.grants, Bool.or_eq_true, Bool.and_eq_true, decide_eq_true_eq]
  rfl

theorem mem_rotation (hp : p < 4) : p ∈ t.rotation := by
  have hplace : (t.last + 1 + (p + 3 - t.last % 4) % 4) % 4 = p := by omega
  exact List.mem_map.2 ⟨(p + 3 - t.last % 4) % 4, by simp; omega, hplace⟩

theorem asksWith_alone (h : ∀ q ∈ w, q = p) (q : Nat) : asksWith w p q = decide (q = p) := by
  by_cases e : q = p
  · simp [asksWith, e]
  · have hw : q ∉ w := fun hq => e (h q hq)
    simp [asksWith, e, hw]

/-- A search that only one member of the list passes finds it. -/
theorem find?_eq_some_of_unique {α : Type} {l : List α} {f : α → Bool} {x : α} (hx : x ∈ l) (hf : f x = true)
    (h : ∀ y, f y = true → y = x) : l.find? f = some x := by
  obtain ⟨y, hy⟩ := Option.isSome_iff_exists.1 (List.find?_isSome.2 ⟨x, hx, hf⟩)
  rw [hy, h y (List.find?_some hy)]

/-- One that waits alone may take any slot of the round (R349). -/
theorem grants_alone (hp : p < 4) (hslots : t.slots.sum < 64) (h : ∀ q ∈ w, q = p) : t.grants sh w p = true := by
  rw [grants_iff]
  by_cases howed : 0 < t.owed sh p
  · exact .inl howed
  · have hzero : t.owed sh p = 0 := by omega
    refine .inr ⟨?_, find?_eq_some_of_unique (mem_rotation hp) (by simp [asksWith, hzero]) (fun q hq => ?_)⟩
    · have hnone : (((List.range 4).filter (asksWith w p)).map (t.owed sh)).sum = 0 := by
        refine List.sum_eq_zero (fun n hn => ?_)
        obtain ⟨q, hq, rfl⟩ := List.mem_map.1 hn
        have hasks := (List.mem_filter.1 hq).2
        rw [asksWith_alone h, decide_eq_true_iff] at hasks
        rw [hasks, hzero]
      omega
    · rw [asksWith_alone h, Bool.and_eq_true, decide_eq_true_iff] at hq
      exact hq.1
end

/-- A crossbar request beside near ones takes its slot below FAR_SHARE (R347). -/
theorem cross_lt_of_slotFor {s : State} {ch p : Nat} (hboth : s.bothPaths ch p = true) (h : s.slotFor ch p true = true) :
    (s.channel ch).turns.cross.getD p 0 < s.crossShare := by
  simp only [State.slotFor, hboth, Bool.and_eq_true, Bool.not_eq_true', Bool.and_self, Bool.true_and, decide_eq_false_iff_not] at h
  exact Nat.lt_of_not_le h.2

/-- Settles O40: the shares scaled down together, each way to be granted a slot, and the limit of the crossbar. -/
theorem regulators : Obligations.Regulators := by
  unfold Obligations.Regulators
  refine ⟨fun s => ⟨shares_length s, shares_sum_le s, shares_of_sum_le s⟩, fun t sh w p hp => ⟨fun howed => grants_iff.2 (.inl howed),
    fun hzero hgrants => ?_, grants_alone hp⟩, fun s ch p => cross_lt_of_slotFor⟩
  rcases grants_iff.1 hgrants with howed | ⟨hroom, -⟩
  · omega
  · exact hroom

end Sys2Proof.Machine
end

section
/-! PROOF. Responses and failures of the Far Memory Ports (R358, R368, R370, R371, R639): what a request taken off its port, a line put
and a line delivered leave of the ports and the streams, and the state that each response answers. -/

namespace Sys2Proof.Machine

/-! ### Far ports and streams through counts and reports -/

section
variable {s t : State}

theorem farPort_of_far (h : t.far = s.far) (q : Nat) : t.farPort q = s.farPort q := by
  rw [State.farPort, State.farPort, h]

/-- What a change of one stream leaves of it, it leaves of every stream. -/
theorem view_modStream {α : Type} (V : Stream → α) (s : State) (i k : Nat) {f : Stream → Stream}
    (h : V (f (s.stream i)) = V (s.stream i)) : V ((s.modStream i f).stream k) = V (s.stream k) := by
  by_cases e : k = i
  · rw [e, State.stream_modStream_same, h]
  · rw [State.stream_modStream_other _ _ _ e]
end

section
variable (s : State)

theorem acctAdd_farPort (p n k q : Nat) : (acctAdd p n k s).farPort q = s.farPort q :=
  farPort_of_far (same_of_mask (acctAdd_mask (w := 0x700010#38) (by decide) p n k s) .far (by decide)) q

theorem acctAdd_stream (p n k i : Nat) : (acctAdd p n k s).stream i = s.stream i :=
  stream_of_streams (same_of_mask (acctAdd_mask (w := 0x700010#38) (by decide) p n k s) .streams (by decide)) i

theorem farError_farPort (p fig q addr k : Nat) : (farError p fig q addr s).farPort k = s.farPort k :=
  farPort_of_far (same_of_mask (farError_mask (w := 0x700000#38) (by decide) p fig q addr s) .far (by decide)) k
end

/-! ### A line delivered, a stream poisoned (R358, R371) -/

section
variable (s : State) (i : Nat)

theorem deliverLine_lines (j : Nat) (x : LineReq) (bs : List Byte) (bad : Bool) :
    ((deliverLine i j x bs bad s).stream i).lines = (s.stream i).lines.set j { x with data := some bs, poisoned := bad } := by
  rw [deliverLine, setLine, State.stream_modStream_same]

theorem poisonStream_stream (c : AbortCause) (k : Nat) :
    (poisonStream i c s).stream k = (s.modStream i (fun m => { m with poisoned := true })).stream k := rfl

theorem poisonStream_channel (c : AbortCause) (k : Nat) : (poisonStream i c s).channel k = s.channel k := rfl

theorem poisonStream_farPort (c : AbortCause) (k : Nat) : (poisonStream i c s).farPort k = s.farPort k := rfl

theorem poisonStream_mem (c : AbortCause) : (poisonStream i c s).mem = s.mem := rfl

theorem poisonStream_poisoned (c : AbortCause) : ((poisonStream i c s).stream i).poisoned = true := by
  rw [poisonStream_stream, State.stream_modStream_same]

theorem poisonStream_keeps (c : AbortCause) {k : Nat} (h : (s.stream k).poisoned = true) :
    ((poisonStream i c s).stream k).poisoned = true := by
  by_cases e : k = i
  · rw [e, poisonStream_poisoned]
  · rw [poisonStream_stream, State.stream_modStream_other _ _ _ e, h]

theorem farDeliver_waiting {q j a : Nat} {r : FarReq} {x : LineReq} (h : s.farWaiting r.stream q r.addr false = some (j, x, a))
    (line : List Byte) (bad : Bool) :
    farDeliver q r line bad s = deliverLine r.stream j x ((line.drop (a % 64)).take x.bytes) bad s := by
  rw [farDeliver, h]

theorem farDeliver_poisoned (q : Nat) (r : FarReq) (line : List Byte) (bad : Bool) (k : Nat) :
    ((farDeliver q r line bad s).stream k).poisoned = (s.stream k).poisoned := by
  unfold farDeliver
  split
  · exact view_modStream Stream.poisoned s _ k rfl
  · rfl

theorem farDeliver_farPort (q : Nat) (r : FarReq) (line : List Byte) (bad : Bool) (k : Nat) :
    (farDeliver q r line bad s).farPort k = s.farPort k :=
  farPort_of_far (same_of_mask (farDeliver_mask (w := 0x100#38) (by decide) q r line bad s) .far (by decide)) k
end

/-! ### The requests of a port (R637) -/

section
variable {s : State} {q tag : Nat} {r r' : FarReq}

theorem tag_of_req {f : FarPort} (h : f.req tag = some r) : r.tag = tag :=
  of_decide_eq_true (List.find?_some (p := fun x : FarReq => decide (x.tag = tag)) h)

theorem dropReq_farPort (s : State) (q tag : Nat) : (dropReq q tag s).farPort q =
    { s.farPort q with reqs := (s.farPort q).reqs.filter (fun r => !decide (r.tag = tag)) } := State.farPort_modFar_same _ _ _

/-- A request taken off its port is outstanding no more. -/
theorem req_dropReq (s : State) (q tag : Nat) : ((dropReq q tag s).farPort q).req tag = none := by
  rw [dropReq_farPort]
  exact List.find?_eq_none.2 (fun x hx => by simpa using (List.mem_filter.1 hx).2)

/-- A request replaced under its tag is found there. -/
theorem req_replaced {f : FarPort} (h : f.req tag = some r) (ht : r'.tag = tag) :
    ({ f with reqs := f.reqs.map (fun x => if x.tag = tag then r' else x) } : FarPort).req tag = some r' := by
  have hsame : ((fun x : FarReq => decide (x.tag = tag)) ∘ fun x => if x.tag = tag then r' else x) = fun x => decide (x.tag = tag) := by
    funext x
    by_cases e : x.tag = tag <;> simp [e, ht]
  unfold FarPort.req at h ⊢
  rw [List.find?_map, hsame, h, Option.map_some, if_pos (tag_of_req h)]

/-! ### A read's response (R358, R368, R370, R371) -/

theorem execFarDrsResponse_reads {data : BitVec 512} (hreq : (s.farPort q).req tag = some r) (hup : (s.farPort q).linkUp = true)
    (hw : r.write = none) (hmay : (s.farPort q).mayAnswer r (leBytes 64 data.toNat) = true) :
    execFarDrsResponse q tag data false s =
      .next (farDeliver q r (leBytes 64 data.toNat) false (dropReq q tag (acctAdd r.part 4 64 s))) := by
  simp [execFarDrsResponse, hreq, hup, hw, hmay]

/-- The far line at `addr` of port `q` is poisoned. -/
def poisonFar (q addr : Nat) (s : State) : State := s.modFar q (fun f => { f with poison := insAsc f.poison (addr / 64) })

theorem execFarDrsResponse_poisoned {data : BitVec 512} (hreq : (s.farPort q).req tag = some r) (hup : (s.farPort q).linkUp = true)
    (hw : r.write = none) : execFarDrsResponse q tag data true s =
      .next (poisonStream r.stream .farUe (farError r.part (s.stream r.stream).fig q r.addr
        (farDeliver q r (leBytes 64 data.toNat) true (dropReq q tag (poisonFar q r.addr (acctAdd r.part 4 64 s)))))) := by
  simp [execFarDrsResponse, hreq, hup, hw, poisonFar]

/-- The write that the read of a read-merge-write turns into (R368). -/
def FarReq.merged (r : FarReq) (line : List Byte) (w : KMap (Option Byte)) : FarReq :=
  { r with write := some (maskOf 0 (overlay line w)), rmw := false, poison := false }

theorem execFarDrsResponse_merges {data : BitVec 512} {w : KMap (Option Byte)} (hreq : (s.farPort q).req tag = some r)
    (hup : (s.farPort q).linkUp = true) (hw : r.write = some w) (hrmw : r.rmw = true)
    (hmay : (s.farPort q).mayAnswer r (leBytes 64 data.toNat) = true) :
    execFarDrsResponse q tag data false s = .next ((acctAdd r.part 4 64 s).modFar q (fun f =>
      { f with reqs := f.reqs.map (fun x => if x.tag = tag then r.merged (leBytes 64 data.toNat) w else x) })) := by
  simp [execFarDrsResponse, hreq, hup, hw, hrmw, hmay, FarReq.merged]

theorem farDrsResponse_delivers {data : BitVec 512} {j a : Nat} {x : LineReq} (hreq : (s.farPort q).req tag = some r)
    (hup : (s.farPort q).linkUp = true) (hw : r.write = none) (hwait : s.farWaiting r.stream q r.addr false = some (j, x, a))
    (hmay : (s.farPort q).mayAnswer r (leBytes 64 data.toNat) = true) : completes (.farDrsResponse q tag data false) s (fun t =>
      (t.stream r.stream).lines = (s.stream r.stream).lines.set j
        { x with data := some (((leBytes 64 data.toNat).drop (a % 64)).take x.bytes), poisoned := false }
      ∧ (t.farPort q).req tag = none) := by
  have hstream (i : Nat) : (dropReq q tag (acctAdd r.part 4 64 s)).stream i = s.stream i := acctAdd_stream s r.part 4 64 i
  have hwaits : (dropReq q tag (acctAdd r.part 4 64 s)).farWaiting r.stream q r.addr false = some (j, x, a) := by
    rw [← hwait, State.farWaiting, State.farWaiting, hstream]
  refine ⟨_, execFarDrsResponse_reads hreq hup hw hmay, ?_, ?_⟩
  · rw [farDeliver_waiting _ hwaits, deliverLine_lines, hstream]
  · rw [farDeliver_farPort, req_dropReq]

theorem farDrsResponse_poisons (data : BitVec 512) (hreq : (s.farPort q).req tag = some r) (hup : (s.farPort q).linkUp = true)
    (hw : r.write = none) : completes (.farDrsResponse q tag data true) s (fun t =>
      (t.stream r.stream).poisoned = true ∧ (t.farPort q).poison.contains (r.addr / 64) = true ∧ (t.farPort q).req tag = none) := by
  refine ⟨_, execFarDrsResponse_poisoned hreq hup hw, poisonStream_poisoned _ _ _, ?_⟩
  rw [poisonStream_farPort, farError_farPort, farDeliver_farPort]
  refine ⟨?_, req_dropReq _ q tag⟩
  rw [dropReq_farPort, poisonFar, State.farPort_modFar_same]
  exact List.contains_iff_mem.2 (mem_insAsc _ _)

theorem farDrsResponse_merges {data : BitVec 512} {w : KMap (Option Byte)} (hreq : (s.farPort q).req tag = some r)
    (hup : (s.farPort q).linkUp = true) (hw : r.write = some w) (hrmw : r.rmw = true)
    (hmay : (s.farPort q).mayAnswer r (leBytes 64 data.toNat) = true) : completes (.farDrsResponse q tag data false) s (fun t =>
      (t.farPort q).req tag = some (r.merged (leBytes 64 data.toNat) w) ∧ (t.farPort q).mem = (s.farPort q).mem) := by
  have htag := tag_of_req hreq
  have hport := State.farPort_modFar_same (acctAdd r.part 4 64 s) q (fun f =>
    { f with reqs := f.reqs.map (fun x => if x.tag = tag then r.merged (leBytes 64 data.toNat) w else x) })
  rw [acctAdd_farPort] at hport
  refine ⟨_, execFarDrsResponse_merges hreq hup hw hrmw hmay, ?_, ?_⟩
  · rw [hport]
    exact req_replaced hreq htag
  · rw [hport]

/-! ### A completed write (R370) -/

/-- The bytes of a whole line's write. -/
theorem maskOf_values (bs : List Byte) : (maskOf 0 bs).map (fun x => x.2.getD 0) = bs := by
  have hfst : ((fun x : Nat × Option Byte => x.2.getD 0) ∘ fun x : Byte × Nat => (0 + x.2, some x.1)) = Prod.fst := rfl
  rw [maskOf, List.map_map, hfst, List.zipIdx_map_fst]

theorem execFarNdrCmp_writes {bs : List Byte} (hreq : (s.farPort q).req tag = some r) (hup : (s.farPort q).linkUp = true)
    (hw : r.write = some (maskOf 0 bs)) (hrmw : r.rmw = false) (hpoison : r.poison = false) :
    ∃ t, execFarNdrCmp q tag s = .next t ∧ t.farPort q = (farPut q r.addr bs (dropReq q tag s)).farPort q := by
  simp only [execFarNdrCmp, hreq, hw, hup, hrmw, hpoison, maskOf_values, Bool.not_true, Bool.or_self, Bool.false_eq_true, if_false]
  split
  · exact ⟨_, rfl, acctAdd_farPort _ _ _ _ _⟩
  · exact ⟨_, rfl, acctAdd_farPort _ _ _ _ _⟩

/-- A whole line put holds its bytes, poisoned no more; every other byte stays (R356, R370). -/
theorem farPut_line (addr : Nat) {bs : List Byte} (hlen : bs.length = 64) (s : State) :
    let f := (farPut q addr bs s).farPort q
    bread f.mem addr 64 = bs ∧ (∀ b, (b < addr ∨ addr + 64 ≤ b) → kget 0 f.mem b = kget 0 (s.farPort q).mem b)
    ∧ f.poison.contains (addr / 64) = false ∧ f.reqs = (s.farPort q).reqs := by
  dsimp only
  rw [farPut, State.farPort_modFar_same]
  dsimp only
  rw [if_pos hlen]
  refine ⟨?_, fun b hb => kget_bwrite_out _ _ _ _ (by rwa [hlen]), ?_, rfl⟩
  · rw [← hlen]
    exact bread_bwrite _ _ _
  · rw [← Bool.not_eq_true, List.contains_iff_mem, List.mem_filter]
    simp

theorem farNdrCmp_writes {bs : List Byte} (hreq : (s.farPort q).req tag = some r) (hup : (s.farPort q).linkUp = true)
    (hw : r.write = some (maskOf 0 bs)) (hlen : bs.length = 64) (hrmw : r.rmw = false) (hpoison : r.poison = false) :
    completes (.farNdrCmp q tag) s (fun t => bread (t.farPort q).mem r.addr 64 = bs
      ∧ (∀ b, (b < r.addr ∨ r.addr + 64 ≤ b) → kget 0 (t.farPort q).mem b = kget 0 (s.farPort q).mem b)
      ∧ (t.farPort q).poison.contains (r.addr / 64) = false ∧ (t.farPort q).req tag = none) := by
  obtain ⟨t, hexec, hport⟩ := execFarNdrCmp_writes hreq hup hw hrmw hpoison
  obtain ⟨hbytes, hothers, hclean, hreqs⟩ := farPut_line (q := q) r.addr hlen (dropReq q tag s)
  rw [← hport] at hbytes hothers hclean hreqs
  rw [dropReq_farPort] at hothers
  refine ⟨t, hexec, hbytes, hothers, hclean, ?_⟩
  rw [FarPort.req, hreqs]
  exact req_dropReq s q tag
end

/-! ### A link that stays down (R371, R639) -/

section
variable {s : State} {q : Nat}

theorem farGiveUp_poisons {r : FarReq} (h : r.write = none) (t : State) : ((farGiveUp q r t).stream r.stream).poisoned = true := by
  rw [farGiveUp, h, if_neg (by simp)]
  exact poisonStream_poisoned _ _ _

theorem farGiveUp_keeps (r : FarReq) {t : State} {k : Nat} (h : (t.stream k).poisoned = true) :
    ((farGiveUp q r t).stream k).poisoned = true := by
  unfold farGiveUp
  split
  · split
    · exact (view_modStream Stream.poisoned t _ k rfl).trans h
    · exact h
  · exact poisonStream_keeps _ _ _ ((farDeliver_poisoned _ _ _ _ _ k).trans h)

theorem farGiveUp_farPort (r : FarReq) (t : State) : (farGiveUp q r t).farPort q = t.farPort q :=
  farPort_of_far (same_of_mask (farGiveUp_mask (w := 0x110#38) (by decide) q r t) .far (by decide)) q

/-- Port `q` with its outstanding requests given up. -/
def giveUpAll (q : Nat) (s : State) : State :=
  (s.farPort q).reqs.foldl (fun t r => farGiveUp q r t) (s.setFar q { s.farPort q with reqs := [] })

theorem execFarLinkTimeout_givesUp (hq : q < s.cfg.farPorts) (hdown : (s.farPort q).linkUp = false) :
    execFarLinkTimeout q s = .next (postEach (s.farParts q) 0x57 (payloadOf noFig q 0) (giveUpAll q s)) := by
  have hgo : ¬ ((s.farPort q).linkUp || decide (s.cfg.farPorts ≤ q)) = true := by simp [hdown, hq]
  exact if_neg hgo

theorem giveUpAll_farPort (s : State) (q : Nat) : (giveUpAll q s).farPort q = { s.farPort q with reqs := [] } :=
  (view_foldl (fun t => t.farPort q) (fun t r => farGiveUp_farPort r t) _ _).trans (State.farPort_setFar_same _ _ _)

theorem giveUpAll_poisons {r : FarReq} (hr : r ∈ (s.farPort q).reqs) (hw : r.write = none) :
    ((giveUpAll q s).stream r.stream).poisoned = true :=
  foldl_sets_of_step (P := fun t : State => (t.stream r.stream).poisoned = true) (F := fun t r => farGiveUp q r t)
    (fun t => farGiveUp_poisons hw t) (fun _ y _ h => farGiveUp_keeps y h) hr _

theorem farLinkTimeout_completes (hq : q < s.cfg.farPorts) (hdown : (s.farPort q).linkUp = false) :
    completes (.farLinkTimeout q) s (fun t => (t.farPort q).reqs = [] ∧ (t.farPort q).mem = (s.farPort q).mem
      ∧ ∀ r ∈ (s.farPort q).reqs, r.write = none → (t.stream r.stream).poisoned = true) := by
  have hmask := postEach_mask (w := 0x700000#38) (by decide) (s.farParts q) 0x57 (payloadOf noFig q 0) (giveUpAll q s)
  have hport := (farPort_of_far (same_of_mask hmask .far (by decide)) q).trans (giveUpAll_farPort s q)
  refine ⟨_, execFarLinkTimeout_givesUp hq hdown, by rw [hport], by rw [hport], fun r hr hw => ?_⟩
  rw [stream_of_streams (same_of_mask hmask .streams (by decide))]
  exact giveUpAll_poisons hr hw

/-- A link that goes down or comes up is noted, and its port keeps its requests (R639). -/
theorem farLink_marks (hq : q < s.cfg.farPorts) :
    completes (.farLinkDown q) s (fun t => t.farPort q = { s.farPort q with linkUp := false })
    ∧ completes (.farLinkUp q) s (fun t => t.farPort q = { s.farPort q with linkUp := true }) :=
  ⟨⟨_, congrArg Host.Outcome.next (if_pos hq), State.farPort_modFar_same _ _ _⟩,
    ⟨_, congrArg Host.Outcome.next (if_pos hq), State.farPort_modFar_same _ _ _⟩⟩
end

/-- Settles O43: a lemma per response and per failure of the link. -/
theorem farResponses : Obligations.FarResponses := by
  unfold Obligations.FarResponses
  refine ⟨fun s q tag r data hreq hup => ⟨fun j x a hw hwait hmay => farDrsResponse_delivers hreq hup hw hwait hmay,
    farDrsResponse_poisons data hreq hup, fun w hw hrmw hmay => farDrsResponse_merges hreq hup hw hrmw hmay,
    fun bs hw hlen hrmw hpoison => farNdrCmp_writes hreq hup hw hlen hrmw hpoison⟩, fun s q hq => ?_⟩
  obtain ⟨hdown, hup⟩ := farLink_marks hq
  exact ⟨hdown, hup, farLinkTimeout_completes hq⟩

end Sys2Proof.Machine
end

section
/-! PROOF. The states of a channel and the temperature of a stack (R354, R363, R364, R366, R548): what a channel that goes DOWN leaves of
its state and its item, how a retraining ends, and what a reading of the temperature and a trip leave. -/

namespace Sys2Proof.Machine

/-! ### The items of the partitions (R71) -/

/-- The queued items, by partition. -/
def State.itemQueues (s : State) : Nat → List QueuedItem := fun p => (s.part p).items

section
variable {s t : State}

theorem itemQueues_of_parts (h : t.parts = s.parts) : t.itemQueues = s.itemQueues := by
  funext p
  rw [State.itemQueues, State.itemQueues, State.part, State.part, h]

theorem itemQueues_of_mask (h : t.mask 0x3fffffffef#38 = s.mask 0x3fffffffef#38) : t.itemQueues = s.itemQueues :=
  itemQueues_of_parts (same_of_mask h .parts (by decide))

theorem itemQueued_congr (h : t.itemQueues = s.itemQueues) (it : Intrusive) : t.itemQueued it = s.itemQueued it := by
  have hp (p : Nat) : (t.part p).items = (s.part p).items := congrFun h p
  simp only [State.itemQueued, hp]
end

section
variable (s : State) (p : Nat)

theorem postEach_itemQueues (ps : List Nat) (code payload : Nat) : (postEach ps code payload s).itemQueues = s.itemQueues :=
  itemQueues_of_mask (postEach_mask (by decide) ps code payload s)

theorem modPart_itemQueues {f : Part → Part} (h : (f (s.part p)).items = (s.part p).items) : (s.modPart p f).itemQueues = s.itemQueues :=
  view_modPart Part.items s p h

theorem stopChor_itemQueues (cause : Nat) : (stopChor p cause s).itemQueues = s.itemQueues := by
  refine modPart_itemQueues s p ?_
  split
  · split <;> rfl
  · rfl

theorem haltRun_itemQueues : (haltRun p s).itemQueues = s.itemQueues := by
  unfold haltRun
  split
  · rfl
  · have hdone (t : State) (w : Waiting) (data : Nat) : (complete w.ring w.seq stOk data 0 t).itemQueues = t.itemQueues :=
      itemQueues_of_parts (complete_parts _ _ _ _ _ t)
    refine (view_foldl State.itemQueues (fun t w => hdone t w _) _ _).trans ((modPart_itemQueues _ p rfl).trans ?_)
    have hended := modPart_itemQueues s p (f := fun q => { q with
      run := none, chor := q.chor.map Chor.fresh
      tempo := { q.tempo with running := false, hold := false, intermission := false, late := [], plan := none, hostLate := none }
      plane := { q.plane with tempoGroup := 0, credits := [] } }) rfl
    exact view_ite State.itemQueues hended ((itemQueues_of_mask (postEvent_mask (by decide) _ _ _ _)).trans hended)

theorem fremundStop_itemQueues (cause : Nat) : (fremundStop p cause s).itemQueues = s.itemQueues := by
  have hstop := stopChor_itemQueues s p cause
  unfold fremundStop settle
  split
  · exact view_ite State.itemQueues ((haltRun_itemQueues _ p).trans hstop) hstop
  · exact hstop

theorem fwLoss_itemQueues : (fwLoss s).itemQueues = s.itemQueues :=
  (withHealth_view (F := State.itemQueues) (fun code payload t => postEach_itemQueues t t.liveParts code payload) _ _).trans
    (view_foldl State.itemQueues (fun t p => fremundStop_itemQueues t p 0x51) _ s)
end

/-! ### An item queued by Fremund (R71) -/

section
variable (s : State)

theorem markQueued_parts (it : Intrusive) (b : Bool) : (markQueued it b s).parts = s.parts := by
  cases it <;> rfl

/-- An item is queued once Fremund has queued it, with one of the four partitions. -/
theorem itemQueued_queueItem {it : Intrusive} (hp : ((s.itemUsers it).head?).getD (s.liveParts.head?.getD 0) < 4) :
    (queueItem it s).itemQueued it = true := by
  unfold queueItem
  split
  · assumption
  · generalize ((s.itemUsers it).head?).getD (s.liveParts.head?.getD 0) = p at hp ⊢
    have hm : p ∈ [0, 1, 2, 3] := by simp; omega
    rw [itemQueued_congr (itemQueues_of_parts (markQueued_parts _ it true))]
    exact List.any_eq_true.2 ⟨p, hm, by simp⟩

/-- A retraining is queued with a partition that may use the channel, or with one that exists. -/
theorem channelPart_lt (ch : Nat) : ((s.itemUsers (.channel ch)).head?).getD (s.liveParts.head?.getD 0) < 4 :=
  head?_getD_lt (fun _ h => mem_liveParts_lt (List.mem_filter.1 h).1) (head?_getD_lt (fun _ => mem_liveParts_lt) (by decide))
end

/-! ### A channel goes DOWN (R353, R363 to R366) -/

/-- A channel's state, the partitions it serves and its Write-Combining Buffer. -/
def Channel.service (c : Channel) : ChState × BitVec 4 × List WcbEntry := (c.state, c.served, c.wcb)

/-- A channel cut off from its partitions, its buffer lost: the first step of going DOWN. -/
def cutOff (ch : Nat) (s : State) : State :=
  withHealth (fun s => s.modChannel ch (fun c => { c with state := .down, served := 0, wcb := [], copying := [] })) s

section
variable (s : State) (ch : Nat)

/-- What events and stopped runs leave, going DOWN leaves as the cut and the queued retraining do. -/
theorem channelDown_view {α : Type} (F : State → α) (hpost : ∀ ps code payload t, F (postEach ps code payload t) = F t)
    (hstop : ∀ p cause t, F (fremundStop p cause t) = F t) (hloss : ∀ t, F (fwLoss t) = F t) :
    F (channelDown ch s) = F (queueItem (.channel ch) (cutOff ch s)) := by
  have hall := (view_foldl F (fun t p => hstop p 0x51 t) (s.channelUsers ch) _).trans
    (hpost (s.channelParts ch) 0x51 (payloadOf noFig ch 0) (queueItem (.channel ch) (cutOff ch s)))
  exact view_ite F ((hloss _).trans hall) hall

theorem queueItem_service (k : Nat) : ((queueItem (.channel ch) s).channel k).service = (s.channel k).service := by
  unfold queueItem
  split
  · rfl
  · dsimp only [markQueued]
    by_cases e : k = ch
    · rw [e, State.channel_modChannel_same]
      rfl
    · rw [State.channel_modChannel_other _ _ _ e]
      rfl

theorem channelDown_service : ((channelDown ch s).channel ch).service = (.down, 0, []) := by
  have hloss (t : State) : (fwLoss t).channel ch = t.channel ch :=
    channel_of_channels (same_of_mask (w := 0x2700010#38) (fwLoss_mask (by decide) t) .channels (by decide)) ch
  rw [channelDown_view s ch (fun t => t.channel ch) (fun ps code payload t => channel_of_channels (postEach_channels ps code payload) ch)
    (fun p cause t => fremundStop_channel p cause t ch) hloss, queueItem_service, cutOff, withHealth_channel, State.channel_modChannel_same]
  rfl

theorem channelDown_queues : (channelDown ch s).itemQueued (.channel ch) = true := by
  rw [itemQueued_congr (channelDown_view s ch State.itemQueues (fun ps code payload t => postEach_itemQueues t ps code payload)
    (fun p cause t => fremundStop_itemQueues t p cause) fwLoss_itemQueues)]
  exact itemQueued_queueItem _ (channelPart_lt _ ch)

/-- A channel that goes DOWN serves nobody, its buffer empty, and its retraining is queued. -/
theorem channelDown_goesDown : let t := channelDown ch s
    (t.channel ch).state = .down ∧ (t.channel ch).served = 0 ∧ (t.channel ch).wcb = [] ∧ t.itemQueued (.channel ch) = true := by
  obtain ⟨hstate, hrest⟩ := Prod.mk.inj (channelDown_service s ch)
  obtain ⟨hserved, hwcb⟩ := Prod.mk.inj hrest
  exact ⟨hstate, hserved, hwcb, channelDown_queues s ch⟩
end

/-! ### Fences (R363) -/

section
variable {s : State} {ch : Nat}

theorem channelLockLoss_fences (h : (s.channel ch).state = .online ∨ (s.channel ch).state = .spare) :
    completes (.channelLockLoss ch) s (fun t =>
      t.channel ch = { s.channel ch with state := .fenced, keep := decide ((s.channel ch).state = .online) }
      ∧ ∀ k, k ≠ ch → t.channel k = s.channel k) :=
  ⟨_, if_pos h, (withHealth_channel _ s ch).trans (State.channel_modChannel_same _ _ _),
    fun k hk => (withHealth_channel _ s k).trans (State.channel_modChannel_other _ _ _ hk)⟩

theorem channelRelock_restores (h : (s.channel ch).state = .fenced) : completes (.channelRelock ch) s (fun t =>
    t.channel ch = { s.channel ch with state := if (s.channel ch).keep then .online else .spare }) :=
  ⟨_, if_pos h, (withHealth_channel _ s ch).trans (State.channel_modChannel_same _ _ _)⟩

/-! ### The end of a retraining (R362, R363, R367) -/

theorem finishItem_channel (it : Intrusive) (bad : Bool) (code : Nat) (s : State) (k : Nat) :
    (finishItem it bad code s).channel k = s.channel k :=
  channel_of_channels (same_of_mask (w := 0x300010#38) (finishItem_mask (by decide) it bad code s) .channels (by decide)) k

/-- A channel that trains, its contents kept (R363). -/
def backOnline (ch n : Nat) (s : State) : State :=
  withHealth (fun s => s.modChannel ch (fun c => { c with state := .online, sparesUsed := n })) s

/-- A channel that is SPARE, its contents those of the free value `free`. -/
def Channel.spared (c : Channel) (n free : Nat) : Channel :=
  { c with state := .spare, sparesUsed := n, mem := [], poison := [], wcb := [], undef := some free }

/-- A channel that trains with contents undefined. -/
def backSpare (ch n : Nat) (s : State) : State :=
  withHealth (fun t => { t with channels := (s.modChannel ch (·.spared n s.free)).channels }) s.draw

theorem backOnline_channel (n : Nat) : (backOnline ch n s).channel ch = { s.channel ch with state := .online, sparesUsed := n } :=
  (withHealth_channel _ s ch).trans (State.channel_modChannel_same _ _ _)

theorem backSpare_channel (n : Nat) : (backSpare ch n s).channel ch = (s.channel ch).spared n s.free :=
  (withHealth_channel _ _ ch).trans (State.channel_modChannel_same s ch (·.spared n s.free))

theorem execChannelRetrainDone_hot (hl : (s.stackAt (ch / 32)).level = 3) (l : Option Nat) : execChannelRetrainDone ch l s = .next s :=
  if_pos (.inr hl)

/-- A channel that FAILED is a cause for replacement (R561). -/
theorem replaceCause_channel (cause : BitVec 5) : (BitVec.ofNat 5 (setBit cause.toNat 1 true)).getLsbD 1 = true := by
  revert cause
  decide

section
variable (hst : (s.channel ch).state = .retraining) (hl : (s.stackAt (ch / 32)).level ≠ 3)
include hst hl

theorem execChannelRetrainDone_trains {n : Nat} (hn : n ≤ 4) : execChannelRetrainDone ch (some n) s =
    if (s.channel ch).keep then .next (finishItem (.channel ch) false 0 (backOnline ch n s))
    else .next (finishItem (.channel ch) false 5 (backSpare ch n s)) := by
  unfold execChannelRetrainDone
  rw [if_neg (by simp [hst, hl]), Option.filter_some, if_pos (decide_eq_true hn)]
  rfl

theorem execChannelRetrainDone_fails : execChannelRetrainDone ch none s = .next (finishItem (.channel ch) true 4 (channelFailed ch s)) := by
  unfold execChannelRetrainDone
  rw [if_neg (by simp [hst, hl]), Option.filter_none]

theorem channelRetrainDone_trains {n : Nat} (hn : n ≤ 4) : completes (.channelRetrainDone ch (some n)) s (fun t =>
    (t.channel ch).sparesUsed = n ∧ t.itemRuns (.channel ch) = false
    ∧ ((s.channel ch).keep = true → (t.channel ch).state = .online ∧ ∀ b, chView (t.channel ch) b = chView (s.channel ch) b)
    ∧ ((s.channel ch).keep = false → (t.channel ch).state = .spare ∧ (t.channel ch).mem = [] ∧ (t.channel ch).undef.isSome = true)) := by
  have hexec := execChannelRetrainDone_trains hst hl hn
  by_cases hk : (s.channel ch).keep = true
  · have hchannel := (finishItem_channel (.channel ch) false 0 _ ch).trans (backOnline_channel (s := s) (ch := ch) n)
    rw [if_pos hk] at hexec
    refine ⟨_, hexec, by rw [hchannel], itemRuns_finishItem _ _ _ _, fun _ => ⟨by rw [hchannel], fun b => ?_⟩, fun h => ?_⟩
    · rw [hchannel]
      exact chView_congr rfl rfl rfl b
    · rw [hk] at h
      cases h
  · have hchannel := (finishItem_channel (.channel ch) false 5 _ ch).trans (backSpare_channel (s := s) (ch := ch) n)
    rw [if_neg hk] at hexec
    refine ⟨_, hexec, by rw [hchannel, Channel.spared], itemRuns_finishItem _ _ _ _, fun h => absurd h hk, fun _ => ?_⟩
    rw [hchannel]
    exact ⟨rfl, rfl, rfl⟩

theorem channelRetrainDone_fails : completes (.channelRetrainDone ch none) s (fun t =>
    (t.channel ch).state = .failed ∧ (t.channel ch).served = 0 ∧ t.health.replaceCause.getLsbD 1 = true) := by
  have hchannel := (finishItem_channel (.channel ch) true 4 _ ch).trans (channelFailed_same ch s)
  have hposts (ps : List Nat) (code payload : Nat) (t : State) : (postEach ps code payload t).health = t.health :=
    same_of_mask (w := 0x700000#38) (postEach_mask (by decide) ps code payload t) .health (by decide)
  refine ⟨_, execChannelRetrainDone_fails hst hl, by rw [hchannel], by rw [hchannel], ?_⟩
  rw [finishItem_health, channelFailed, hposts, withHealth_health]
  exact replaceCause_channel _
end
end

/-! ### The temperature of a stack (R354, R548) -/

/-- The level with its hysteresis. -/
theorem stackLevel_eq (old n : Nat) : stackLevel old n = if old = 3 ∨ 105 ≤ n then 3 else if 95 ≤ n then 2
    else if 92 ≤ n ∧ old = 2 then 2 else if 85 ≤ n then 1 else if 82 ≤ n ∧ 1 ≤ old then 1 else 0 := by
  unfold stackLevel
  split_ifs <;> omega

/-- A stack with its temperature read. -/
def Stack.read (x : Stack) (n : Nat) : Stack := { x with temp := n, level := stackLevel x.level n }

/-- A reading of stack `k`'s temperature is noted. -/
def noteTemp (k n : Nat) (s : State) : State :=
  { s.modStack k (·.read n) with pmu := { s.pmu with stackTempMax := max s.pmu.stackTempMax n } }

/-- A channel goes DOWN unless it is DOWN or FAILED. -/
def downOnce (t : State) (ch : Nat) : State :=
  if (t.channel ch).state = .failed ∨ (t.channel ch).state = .down then t else channelDown ch t

/-- The channels of stack `k` go DOWN. -/
def stackDown (k : Nat) (s : State) : State := ((List.range 32).map (32 * k + ·)).foldl downOnce s

/-- The state with the alarm of a trip raised, before the health word is reported. -/
def alarmed (s : State) : State := replaceCause 4 { s with
  health := { s.health with thermalTrip := true }, pins := { s.pins with shdnReq := true }, fatal := { s.fatal with therm := true } }

/-- A stack trips: its channels DOWN, the alarm raised and the partitions told. -/
def stackTrip (k payload : Nat) (s : State) : State := postAll 0x55 payload (tripAlarm (stackDown k s))

section
variable {s : State} {k n : Nat}

section
variable (ht : s.mem.trained = true) (hk : k < s.cfg.hbmStacks)
include ht hk

theorem execStackTempRead_notes : execStackTempRead k n s =
    if stackLevel (s.stackAt k).level n = 3 ∧ (s.stackAt k).level ≠ 3 then
      .next (stackTrip k (payloadOf noFig k (n % 256)) (noteTemp k n s))
    else .next (noteTemp k n s) := by
  have hgo : ¬ (!s.mem.trained || decide (s.cfg.hbmStacks ≤ k)) = true := by simp [ht, hk]
  exact if_neg hgo
end

theorem noteTemp_stackAt (k n : Nat) (s : State) : (noteTemp k n s).stackAt k = (s.stackAt k).read n :=
  State.stackAt_modStack_same s k (·.read n)

theorem noteTemp_pmu (k n : Nat) (s : State) : (noteTemp k n s).pmu = { s.pmu with stackTempMax := max s.pmu.stackTempMax n } := rfl

theorem stackDown_mask (k : Nat) (s : State) : (stackDown k s).mask 0x2722010#38 = s.mask 0x2722010#38 :=
  view_foldl (fun t : State => t.mask 0x2722010#38)
    (fun t ch => view_ite (fun t : State => t.mask 0x2722010#38) rfl (channelDown_mask (by decide) ch t)) _ s

theorem stackTrip_mask (k payload : Nat) (s : State) : (stackTrip k payload s).mask 0x2a722010#38 = s.mask 0x2a722010#38 := by
  rw [stackTrip, postAll_mask (by decide), tripAlarm_mask (by decide)]
  exact mask_mono (stackDown_mask k s) (by decide)

theorem downOnce_state (t : State) (ch : Nat) :
    ((downOnce t ch).channel ch).state = .down ∨ ((downOnce t ch).channel ch).state = .failed := by
  unfold downOnce
  split
  next h => exact h.symm
  next h => exact .inl (channelDown_goesDown t ch).1

theorem downOnce_other (t : State) {ch j : Nat} (h : j ≠ ch) : (downOnce t ch).channel j = t.channel j :=
  view_ite (fun t => t.channel j) rfl (channelDown_other h)

/-- Every channel of a stack whose channels went DOWN is DOWN or FAILED. -/
theorem stackDown_state (s : State) {i : Nat} (hi : i < 32) :
    ((stackDown k s).channel (32 * k + i)).state = .down ∨ ((stackDown k s).channel (32 * k + i)).state = .failed :=
  foldl_sets_of_step (P := fun t : State => (t.channel (32 * k + i)).state = .down ∨ (t.channel (32 * k + i)).state = .failed)
    (F := downOnce) (fun t => downOnce_state t _) (fun t ch hch h => by rwa [downOnce_other t hch.symm])
    (List.mem_map_of_mem (List.mem_range.2 hi)) s

theorem tripAlarm_view {α : Type} {F : State → α} (s : State) (hF : ∀ code payload t, F (postAll code payload t) = F t) :
    F (tripAlarm s) = F (alarmed s) := withHealth_view hF _ _

theorem alarmed_channel (s : State) (j : Nat) : (alarmed s).channel j = s.channel j := rfl

/-- What no event changes, a trip leaves as the alarm makes it of the state with the stack's channels DOWN. -/
theorem stackTrip_view {α : Type} {F : State → α} (k payload : Nat) (s : State)
    (hF : ∀ code payload t, F (postAll code payload t) = F t) : F (stackTrip k payload s) = F (alarmed (stackDown k s)) := by
  rw [stackTrip, hF, tripAlarm_view _ hF]

/-- A trip raises the shutdown request, the fatal cause and the health word's flag, and no channel of the stack is in service. -/
theorem stackTrip_trips (k payload : Nat) (s : State) : let t := stackTrip k payload s
    t.pins.shdnReq = true ∧ t.fatal.therm = true ∧ t.health.thermalTrip = true
    ∧ ∀ i, i < 32 → (t.channel (32 * k + i)).state = .down ∨ (t.channel (32 * k + i)).state = .failed := by
  have hposts (code payload : Nat) (t : State) := postAll_mask (w := 0x700000#38) (by decide) code payload t
  have hpins := stackTrip_view k payload s (F := State.pins) fun code payload t => same_of_mask (hposts code payload t) .pins (by decide)
  have hfatal := stackTrip_view k payload s (F := State.fatal) fun code payload t => same_of_mask (hposts code payload t) .fatal (by decide)
  have hhealth := stackTrip_view k payload s (F := State.health) fun code payload t =>
    same_of_mask (hposts code payload t) .health (by decide)
  have hchannel (j : Nat) : (stackTrip k payload s).channel j = (stackDown k s).channel j :=
    (stackTrip_view k payload s (F := fun t => t.channel j) fun _ _ _ => channel_of_channels (postEach_channels _ _ _) j).trans
      (alarmed_channel _ j)
  refine ⟨congrArg Pins.shdnReq hpins, congrArg Fatal.therm hfatal, congrArg Health.thermalTrip hhealth, fun i hi => ?_⟩
  rw [hchannel]
  exact stackDown_state s hi

/-- A reading is noted whatever it brings about, and one of 105 degrees or more trips the stack unless it has tripped. -/
theorem stackTempRead_notes (ht : s.mem.trained = true) (hk : k < s.cfg.hbmStacks) :
    ∃ t, execStackTempRead k n s = .next t ∧ t.stackAt k = (noteTemp k n s).stackAt k ∧ t.pmu = (noteTemp k n s).pmu
      ∧ (105 ≤ n → (s.stackAt k).level ≠ 3 → ∃ payload, t = stackTrip k payload (noteTemp k n s)) := by
  have hexec := execStackTempRead_notes (n := n) ht hk
  by_cases htrip : stackLevel (s.stackAt k).level n = 3 ∧ (s.stackAt k).level ≠ 3
  · have hmask := stackTrip_mask k (payloadOf noFig k (n % 256)) (noteTemp k n s)
    rw [if_pos htrip] at hexec
    exact ⟨_, hexec, congrArg (kget Stack.reset · k) (same_of_mask hmask .stackSt (by decide)),
      same_of_mask hmask .pmu (by decide), fun _ _ => ⟨_, rfl⟩⟩
  · rw [if_neg htrip] at hexec
    refine ⟨_, hexec, rfl, rfl, fun hhot hold => absurd ⟨?_, hold⟩ htrip⟩
    rw [stackLevel, if_pos (.inr hhot)]
end

theorem stackTempRead_completes {s : State} {k : Nat} (n : Nat) (ht : s.mem.trained = true) (hk : k < s.cfg.hbmStacks) :
    let old := (s.stackAt k).level
    completes (.stackTempRead k n) s (fun t =>
      (t.stackAt k).temp = n ∧ t.pmu.stackTempMax = max s.pmu.stackTempMax n
      ∧ (t.stackAt k).level = (if old = 3 ∨ 105 ≤ n then 3 else if 95 ≤ n then 2 else if 92 ≤ n ∧ old = 2 then 2
          else if 85 ≤ n then 1 else if 82 ≤ n ∧ 1 ≤ old then 1 else 0)
      ∧ (105 ≤ n → old ≠ 3 → t.pins.shdnReq = true ∧ t.fatal.therm = true ∧ t.health.thermalTrip = true
          ∧ ∀ i, i < 32 → (t.channel (32 * k + i)).state = .down ∨ (t.channel (32 * k + i)).state = .failed)) := by
  obtain ⟨t, hexec, hstack, hpmu, htrip⟩ := stackTempRead_notes (n := n) ht hk
  rw [noteTemp_stackAt] at hstack
  rw [noteTemp_pmu] at hpmu
  refine ⟨t, hexec, by rw [hstack, Stack.read], by rw [hpmu], by rw [hstack]; exact stackLevel_eq _ _, fun hhot hold => ?_⟩
  obtain ⟨payload, htripped⟩ := htrip hhot hold
  rw [htripped]
  exact stackTrip_trips k payload _

/-- Settles O41: a lemma per move of a channel, and the reading of a temperature. -/
theorem channelStates : Obligations.ChannelStates := by
  unfold Obligations.ChannelStates
  refine ⟨fun s ch => ⟨channelLockLoss_fences, channelRelock_restores, fun h => ⟨_, if_pos h, channelDown_goesDown s ch⟩,
    fun hues h => ⟨_, if_pos ⟨hues, h⟩, channelDown_goesDown s ch⟩,
    fun _ hl l => ⟨s, execChannelRetrainDone_hot hl l, rfl⟩, fun hst hl n hn => channelRetrainDone_trains hst hl hn,
    channelRetrainDone_fails⟩, fun s k n ht hk => stackTempRead_completes n ht hk⟩

end Sys2Proof.Machine
end

section
/-! PROOF. Reading and writing a line of a channel (R347 to R353, R356, R358, R360, R363, R364): which channel an access changes, what an
eviction and an accepted write leave of the bytes that reads see, and what a served read delivers. -/

namespace Sys2Proof.Machine

/-! ### Channels that an access leaves alone -/

section
variable {s : State} {ch k : Nat} (h : k ≠ ch)
include h

theorem mcCount_other (n m : Nat) : (mcCount ch n m s).channel k = s.channel k := by
  have hmod (c : McCounters) : (s.modChannel ch (fun d => { d with cnt := c })).channel k = s.channel k :=
    State.channel_modChannel_other s ch _ h
  exact view_ite (fun t => t.channel k) ((channel_of_channels (satAll_channels _) k).trans (hmod _)) (hmod _)

theorem softRepair_other (ca : Nat) : (softRepair ch ca s).channel k = s.channel k := by
  refine view_ite (fun t => t.channel k) (State.channel_setChannel_other _ _ _ h) (view_ite (fun t => t.channel k) rfl ?_)
  rw [withHealth_channel]
  exact (channel_of_channels (postEach_channels _ _ _) k).trans (State.channel_setChannel_other _ _ _ h)

theorem corrected_other (ca : Nat) : (corrected ch ca s).channel k = s.channel k := by
  have hcount := (mcCount_other (s := s.modChannel ch (fun c => { c with corrRows := kmod 0 c.corrRows (Config.rowOf ca) (· + 1) })) h 0 1).trans
    (State.channel_modChannel_other s ch _ h)
  exact view_ite (fun t => t.channel k) ((softRepair_other h ca).trans hcount) hcount

theorem uncorrectable_other (ca fig : Nat) (ps : List Nat) : (uncorrectable ch ca fig ps s).channel k = s.channel k := by
  have hdraw : (if (s.paOf ch ca).isNone then s.draw else s).channel k = s.channel k := view_ite (fun t => t.channel k) rfl rfl
  have hcount := (mcCount_other h 1 1).trans hdraw
  have hposted (u : State) (f : Channel → Channel) (payload : Nat) : (postEach ps 0x50 payload (u.modChannel ch f)).channel k = u.channel k :=
    (channel_of_channels (postEach_channels _ _ _) k).trans (State.channel_modChannel_other u ch f h)
  unfold uncorrectable uncorrectableAt
  dsimp only
  split
  · rw [softRepair_other h, hposted]
    exact hcount
  · rw [hposted]
    exact hcount

theorem chargeSlots_other (p n : Nat) : (chargeSlots ch p n s).channel k = s.channel k := State.channel_modChannel_other s ch _ h
end

section
variable (s : State)

theorem acctAdd_channel (p n m k : Nat) : (acctAdd p n m s).channel k = s.channel k :=
  channel_of_channels (same_of_mask (acctAdd_mask (w := 0x700010#38) (by decide) p n m s) .channels (by decide)) k

theorem counted_channel (b : Bool) (p n m k : Nat) : (if b then acctAdd p n m s else s).channel k = s.channel k :=
  view_ite (fun t => t.channel k) (acctAdd_channel s p n m k) rfl

variable {s} {ch k : Nat} (h : k ≠ ch)
include h

theorem evictEntry_other (e : WcbEntry) (ecc : Ecc) : (evictEntry ch e ecc s).channel k = s.channel k := by
  have hset (c : Channel) : (s.setChannel ch c).channel k = s.channel k := State.channel_setChannel_other _ _ _ h
  have hfull (c : Channel) := (counted_channel _ e.counted e.part 2 64 k).trans
    ((chargeSlots_other h e.part 1).trans (hset c))
  have hpartial (c : Channel) := (counted_channel _ e.counted e.part 2 128 k).trans
    ((mcCount_other h 2 1).trans ((chargeSlots_other h e.part 2).trans (hset c)))
  unfold evictEntry
  dsimp only
  refine view_ite (fun t => t.channel k) (hset _) (view_ite (fun t => t.channel k) (hfull _) ?_)
  exact view_ite (fun t => t.channel k) ((uncorrectable_other h _ _ _).trans (hpartial _))
    (view_ite (fun t => t.channel k) ((corrected_other h _).trans (hpartial _)) (hpartial _))

theorem evictForced_other (e : WcbEntry) : (evictForced ch e s).channel k = s.channel k :=
  view_ite (fun t => t.channel k) (evictEntry_other h e .clean) ((evictEntry_other h e _).trans rfl)
end

/-! ### The bytes that a channel shows (R351) -/

/-- The entry of a Write-Combining Buffer for a line. -/
def wcbEntry (wcb : List WcbEntry) (line : Nat) : Option WcbEntry := wcb.find? (fun e => decide (e.line = line))

section
variable {c : Channel} {e : WcbEntry} {line b : Nat}

/-- A byte shows as its line's entry covers it, or as it is stored. -/
theorem chView_eq (c : Channel) (b : Nat) :
    chView c b = ((wcbEntry c.wcb (b / 64)).bind (fun e => kget none e.data (b % 64))).getD (chByte c b) := by
  unfold chView wcbEntry
  split
  next e h => rw [h, Option.bind_some]
  next h => rw [h]; rfl

theorem chView_of_entry (h : wcbEntry c.wcb (b / 64) = some e) : chView c b = (kget none e.data (b % 64)).getD (chByte c b) := by
  rw [chView_eq, h, Option.bind_some]

theorem chView_of_no_entry (h : wcbEntry c.wcb (b / 64) = none) : chView c b = chByte c b := by
  rw [chView_eq, h]; rfl

theorem line_of_wcbEntry {wcb : List WcbEntry} (h : wcbEntry wcb line = some e) : e.line = line := by
  simpa using List.find?_some h

/-- A change of the buffer that keeps the entry of a byte's line keeps what the byte shows. -/
theorem chView_wcb_congr {wcb : List WcbEntry} (h : wcbEntry wcb (b / 64) = wcbEntry c.wcb (b / 64)) :
    chView { c with wcb := wcb } b = chView c b := by
  rw [chView_eq, chView_eq, h]; rfl

theorem wcbEntry_without_self (wcb : List WcbEntry) (line : Nat) : wcbEntry (WcbEntry.without [line] wcb) line = none :=
  List.find?_eq_none.2 (fun x hx => by simpa [WcbEntry.without] using (List.mem_filter.1 hx).2)

/-- The other lines keep their entries. -/
theorem wcbEntry_without_other {line l : Nat} (h : l ≠ line) (wcb : List WcbEntry) :
    wcbEntry (WcbEntry.without [line] wcb) l = wcbEntry wcb l := by
  unfold wcbEntry WcbEntry.without
  rw [List.find?_filter]
  congr 1
  funext x
  by_cases e : x.line = l
  · simp [e, h]
  · simp [e]

theorem wcbEntry_append_same {wcb : List WcbEntry} (h : wcbEntry wcb e.line = none) : wcbEntry (wcb ++ [e]) e.line = some e := by
  unfold wcbEntry at h ⊢
  rw [List.find?_append, h]
  simp

theorem wcbEntry_append_other {wcb : List WcbEntry} (h : line ≠ e.line) : wcbEntry (wcb ++ [e]) line = wcbEntry wcb line := by
  unfold wcbEntry
  rw [List.find?_append]
  simp [Ne.symm h]

/-- The buffer with the entries of `e`'s line replaced by `e`. -/
def WcbEntry.replaced (e : WcbEntry) (wcb : List WcbEntry) : List WcbEntry := wcb.map (fun x => if x.line = e.line then e else x)

theorem wcbEntry_replaced (e : WcbEntry) (wcb : List WcbEntry) (line : Nat) :
    wcbEntry (e.replaced wcb) line = (wcbEntry wcb line).map (fun x => if x.line = e.line then e else x) := by
  have hline : ((fun x : WcbEntry => decide (x.line = line)) ∘ fun x => if x.line = e.line then e else x)
      = fun x => decide (x.line = line) := by
    funext x
    by_cases h : x.line = e.line <;> simp [h]
  unfold wcbEntry WcbEntry.replaced
  rw [List.find?_map, hline]

theorem wcbEntry_replaced_same {e' : WcbEntry} {wcb : List WcbEntry} (h : wcbEntry wcb e.line = some e') :
    wcbEntry (e.replaced wcb) e.line = some e := by
  rw [wcbEntry_replaced, h, Option.map_some, if_pos (line_of_wcbEntry h)]

theorem wcbEntry_replaced_other (wcb : List WcbEntry) (h : line ≠ e.line) : wcbEntry (e.replaced wcb) line = wcbEntry wcb line := by
  rw [wcbEntry_replaced]
  cases hentry : wcbEntry wcb line with
  | none => rfl
  | some x =>
    have hx : x.line ≠ e.line := fun hx => h ((line_of_wcbEntry hentry).symm.trans hx)
    rw [Option.map_some, if_neg hx]
end

/-! ### Writing an entry out (R351, R352, R356) -/

section
variable (c : Channel) (e : WcbEntry)

/-- One place of an entry written into its line. -/
def mergeByte (e : WcbEntry) (c : Channel) (i : Nat) : Channel :=
  match kget none e.data i with
  | some b => setChByte c (64 * e.line + i) b
  | none => c

theorem mergeLine_eq : mergeLine c e = (List.range 64).foldl (mergeByte e) c := rfl

theorem chByte_mergeByte (i b : Nat) : chByte (mergeByte e c i) b =
    if b = 64 * e.line + i then (kget none e.data i).getD (chByte c b) else chByte c b := by
  unfold mergeByte
  split
  next x h => rw [chByte_setChByte, h]; rfl
  next h => rw [h]; simp

theorem chByte_mergeBytes (n b : Nat) : chByte ((List.range n).foldl (mergeByte e) c) b =
    if 64 * e.line ≤ b ∧ b < 64 * e.line + n then (kget none e.data (b - 64 * e.line)).getD (chByte c b) else chByte c b := by
  induction n with
  | zero => rw [if_neg (by omega)]; rfl
  | succ n ih =>
    rw [List.range_succ, List.foldl_append, List.foldl_cons, List.foldl_nil, chByte_mergeByte, ih]
    by_cases hb : b = 64 * e.line + n
    · rw [if_pos hb, if_neg (by omega), if_pos (by omega), hb, Nat.add_sub_cancel_left]
    · rw [if_neg hb]
      congr 1
      exact propext (by omega)

/-- A line written out stores what its entry covers. -/
theorem chByte_mergeLine (b : Nat) : chByte (mergeLine c e) b =
    if b / 64 = e.line then (kget none e.data (b % 64)).getD (chByte c b) else chByte c b := by
  rw [mergeLine_eq, chByte_mergeBytes]
  by_cases h : b / 64 = e.line
  · rw [if_pos h, if_pos (by omega), show b - 64 * e.line = b % 64 by omega]
  · rw [if_neg h, if_neg (by omega)]

/-- The channel with entry `e` written into its line and out of the buffer. -/
def Channel.written (c : Channel) (e : WcbEntry) : Channel :=
  mergeLine { c with wcb := c.wcb.filter (fun x => !decide (x.line = e.line)) } e

theorem written_buffer : (c.written e).buffer = (c.state, WcbEntry.without [e.line] c.wcb) := by
  rw [Channel.written, mergeLine_buffer, Channel.buffer, WcbEntry.without_line]

theorem written_state : (c.written e).state = c.state := congrArg Prod.fst (written_buffer c e)

theorem written_wcb : (c.written e).wcb = WcbEntry.without [e.line] c.wcb := congrArg Prod.snd (written_buffer c e)

/-- An entry written out, the channel shows the bytes that it showed. -/
theorem chView_written {c : Channel} {e : WcbEntry} (h : wcbEntry c.wcb e.line = some e) (b : Nat) :
    chView (c.written e) b = chView c b := by
  rw [chView_eq, written_wcb, Channel.written, chByte_mergeLine]
  by_cases hb : b / 64 = e.line
  · rw [hb, wcbEntry_without_self, if_pos rfl, chView_of_entry (by rw [hb]; exact h)]
    rfl
  · rw [wcbEntry_without_other hb, if_neg hb, chView_eq]
    rfl

/-- What a channel shows depends on its memory and buffer alone. -/
theorem chView_of_scrubView {c d : Channel} (h : c.scrubView = d.scrubView) : chView c = chView d := by
  obtain ⟨hmem, hundef, hwcb, -⟩ := scrubView_iff.1 h
  exact funext (chView_congr hmem hundef hwcb)

/-- What a written line leaves of the memory and the buffer depends on them alone. -/
theorem mergeLine_scrubView {c d : Channel} (h : c.scrubView = d.scrubView) : (mergeLine c e).scrubView = (mergeLine d e).scrubView := by
  rw [mergeLine_eq, mergeLine_eq]
  generalize List.range 64 = l
  induction l generalizing c d with
  | nil => exact h
  | cons i l ih =>
    refine ih ?_
    obtain ⟨hmem, hundef, hwcb, hscrub⟩ := scrubView_iff.1 h
    unfold mergeByte
    split
    · exact scrubView_iff.2 ⟨by simp only [setChByte, chDefault_eq hundef, hmem], hundef, hwcb, hscrub⟩
    · exact h
end

section
variable {s : State} {ch : Nat}

theorem reachable_iff {c : Channel} : c.reachable = true ↔ c.state = .online ∨ c.state = .spare := by
  simp [Channel.reachable]

theorem reachable_congr {c d : Channel} (h : c.state = d.state) : c.reachable = d.reachable := by
  rw [Channel.reachable, Channel.reachable, h]

theorem chargeSlots_scrubView (p n : Nat) (s : State) : ((chargeSlots ch p n s).channel ch).scrubView = (s.channel ch).scrubView := by
  rw [chargeSlots, State.channel_modChannel_same]
  rfl

/-- A read-merge-write of entry `e` takes its slots and is counted (R352, R377, R529). -/
def rmwCounted (ch : Nat) (e : WcbEntry) (s : State) : State :=
  let s1 := mcCount ch 2 1 (chargeSlots ch e.part 2 s)
  if e.counted then acctAdd e.part 2 128 s1 else s1

theorem rmwCounted_scrubView (e : WcbEntry) (s : State) : ((rmwCounted ch e s).channel ch).scrubView = (s.channel ch).scrubView := by
  rw [rmwCounted, counted_channel, scrubView_mcCount _ _ (by decide), chargeSlots_scrubView]

theorem rmwCounted_state (e : WcbEntry) (s : State) : ((rmwCounted ch e s).channel ch).state = (s.channel ch).state := by
  rw [rmwCounted, counted_channel, channel_mcCount, chargeSlots, State.channel_modChannel_same]

section
variable (hr : (s.channel ch).reachable = true) {e : WcbEntry} {ecc : Ecc}
include hr

theorem not_lost_of_reachable : ¬ ((s.channel ch).state = .down ∨ (s.channel ch).state = .failed) := by
  rcases reachable_iff.1 hr with h | h <;> simp [h]

/-- A partial line is written out by a read-merge-write, whose read reports its error. -/
theorem evictEntry_partial (hf : e.full = false) : evictEntry ch e ecc s =
    let t := rmwCounted ch e (s.setChannel ch ((s.channel ch).written e))
    if (s.channel ch).poison.contains e.line || decide (ecc = .double) then uncorrectable ch (64 * e.line) noFig [e.part] t
    else if ecc = .single then corrected ch (64 * e.line) t else t := by
  unfold evictEntry
  dsimp only
  rw [if_neg (not_lost_of_reachable hr), if_neg (by simp [hf])]
  rfl

/-- Writing an entry out leaves the line's bytes in the memory and the entry out of the buffer, whatever is counted and reported. -/
theorem evictEntry_scrubView : ((evictEntry ch e ecc s).channel ch).scrubView = ((s.channel ch).written e).scrubView := by
  cases hf : e.full with
  | true =>
    unfold evictEntry
    dsimp only
    rw [if_neg (not_lost_of_reachable hr), if_pos hf, counted_channel, chargeSlots_scrubView, State.channel_setChannel_same]
    exact mergeLine_scrubView e rfl
  | false =>
    have hview := rmwCounted_scrubView (ch := ch) e (s.setChannel ch ((s.channel ch).written e))
    have hstate := rmwCounted_state (ch := ch) e (s.setChannel ch ((s.channel ch).written e))
    rw [State.channel_setChannel_same] at hview hstate
    rw [evictEntry_partial hr hf]
    dsimp only
    split
    · rw [scrubView_uncorrectable _ ((reachable_congr (hstate.trans (written_state _ e))).trans hr), hview]
    split
    · rw [scrubView_corrected, hview]
    · exact hview

theorem evictEntry_wcb : ((evictEntry ch e ecc s).channel ch).wcb = WcbEntry.without [e.line] (s.channel ch).wcb := by
  obtain ⟨-, -, hwcb, -⟩ := scrubView_iff.1 (evictEntry_scrubView hr (e := e) (ecc := ecc))
  rw [hwcb, written_wcb]

/-- An eviction changes no byte that the channel shows (R351, R352). -/
theorem evictEntry_chView (h : wcbEntry (s.channel ch).wcb e.line = some e) (b : Nat) :
    chView ((evictEntry ch e ecc s).channel ch) b = chView (s.channel ch) b := by
  rw [chView_of_scrubView (evictEntry_scrubView hr), chView_written h]
end

theorem wcbEvict_completes {line : Nat} {e : WcbEntry} (ecc : Ecc) (he : wcbEntry (s.channel ch).wcb line = some e)
    (hr : (s.channel ch).reachable = true) (hbank : s.bankBusy ch (64 * line) = false) (hslot : s.slotFor ch e.part false = true) :
    completes (.wcbEvict ch line ecc) s (fun t => (∀ b, chView (t.channel ch) b = chView (s.channel ch) b)
      ∧ (∀ x ∈ (t.channel ch).wcb, x.line ≠ line) ∧ (∀ k, k ≠ ch → t.channel k = s.channel k)) := by
  have hline := line_of_wcbEntry he
  have hexec : execWcbEvict ch line ecc s = .next (evictEntry ch e ecc s) := by
    unfold wcbEntry at he
    simp [execWcbEvict, he, hr, hbank, hslot]
  refine ⟨_, hexec, fun b => evictEntry_chView hr (by rw [hline]; exact he) b, fun x hx => ?_, fun k hk => evictEntry_other hk e ecc⟩
  rw [evictEntry_wcb hr, hline] at hx
  simpa [WcbEntry.without] using (List.mem_filter.1 hx).2

/-! ### Accepting a write (R351) -/

/-- Bytes, each with its place, put into what an entry's mask covers (R351). -/
def putBytes (l : List (Nat × Byte)) (m : KMap (Option Byte)) : KMap (Option Byte) := l.foldl (fun m x => kset none m x.1 (some x.2)) m

/-- The bytes `f` at places `l` of a line. -/
def bytesAt (l : List Nat) (f : Nat → Byte) : List (Nat × Byte) := l.map (fun i => (i, f i))

theorem kget_putBytes (l : List Nat) (f : Nat → Byte) (m : KMap (Option Byte)) (k : Nat) :
    kget none (putBytes (bytesAt l f) m) k = if k ∈ l then some (f k) else kget none m k := by
  unfold putBytes bytesAt
  induction l generalizing m with
  | nil => rfl
  | cons i l ih =>
    rw [List.map_cons, List.foldl_cons, ih, kget_kset]
    by_cases hl : k ∈ l
    · rw [if_pos hl, if_pos (List.mem_cons_of_mem _ hl)]
    · by_cases hi : k = i
      · simp [hi]
      · rw [if_neg hl, if_neg hi, if_neg (by simp [hi, hl])]

/-- A line whose mask is full is written out at once. -/
def evictFull (ch : Nat) (e : WcbEntry) (s : State) : State := if e.full then evictEntry ch e .clean s else s

/-- A full buffer writes its oldest entry out, so that one is free. -/
def makeRoom (ch : Nat) (s : State) : State :=
  match (s.channel ch).wcb with
  | o :: _ => if 64 ≤ (s.channel ch).wcb.length then evictForced ch o s else s
  | [] => s

/-- An entry with a later write merged into it. -/
def WcbEntry.joined (e : WcbEntry) (p : Nat) (counted : Bool) (bs : List (Nat × Byte)) : WcbEntry :=
  { e with part := p, counted := e.counted || counted, data := putBytes bs e.data }

theorem WcbEntry.joined_line (e : WcbEntry) (p : Nat) (counted : Bool) (bs : List (Nat × Byte)) :
    (e.joined p counted bs).line = e.line := rfl

section
variable {line p : Nat} {counted : Bool} {bs : List (Nat × Byte)} {e : WcbEntry}

theorem wcbAccept_joins (h : wcbEntry (s.channel ch).wcb line = some e) : wcbAccept ch line p counted bs s =
    evictFull ch (e.joined p counted bs) (s.setChannel ch { s.channel ch with
      wcb := (e.joined p counted bs).replaced (s.channel ch).wcb }) := by
  have hline : (e.joined p counted bs).line = line := (e.joined_line p counted bs).trans (line_of_wcbEntry h)
  unfold wcbEntry at h
  unfold wcbAccept WcbEntry.replaced
  simp only [h, hline]
  rfl

theorem wcbAccept_enters (h : wcbEntry (s.channel ch).wcb line = none) : wcbAccept ch line p counted bs s =
    evictFull ch ⟨line, p, counted, putBytes bs []⟩ ((makeRoom ch s).modChannel ch (fun c =>
      { c with wcb := c.wcb ++ [⟨line, p, counted, putBytes bs []⟩] })) := by
  unfold wcbEntry at h
  unfold wcbAccept
  simp only [h]
  rfl
end

section
variable (hr : (s.channel ch).reachable = true)
include hr

theorem evictFull_chView {e : WcbEntry} (h : wcbEntry (s.channel ch).wcb e.line = some e) (b : Nat) :
    chView ((evictFull ch e s).channel ch) b = chView (s.channel ch) b :=
  view_ite (fun t => chView (t.channel ch) b) (evictEntry_chView hr h b) rfl

/-- Room is made with the bytes that the channel shows as they are, and no line gets an entry. -/
theorem makeRoom_keeps : ((makeRoom ch s).channel ch).state = (s.channel ch).state
    ∧ (∀ b, chView ((makeRoom ch s).channel ch) b = chView (s.channel ch) b)
    ∧ ∀ line, wcbEntry (s.channel ch).wcb line = none → wcbEntry ((makeRoom ch s).channel ch).wcb line = none := by
  unfold makeRoom
  split
  next o r hwcb =>
    split
    · obtain ⟨hstate, hleft⟩ := Prod.mk.inj (evictForced_buffer s ch o)
      have hfirst : wcbEntry (s.channel ch).wcb o.line = some o := by simp [wcbEntry, hwcb]
      refine ⟨hstate, fun b => ?_, fun line hnone => ?_⟩
      · exact view_ite (fun t => chView (t.channel ch) b) (evictEntry_chView hr hfirst b)
          ((evictEntry_chView (s := s.draw) hr hfirst b).trans rfl)
      · have hmem := List.find?_eq_none.1 hnone
        rw [hleft]
        exact List.find?_eq_none.2 (fun x hx => hmem x (List.mem_filter.1 hx).1)
    · exact ⟨rfl, fun _ => rfl, fun _ h => h⟩
  next => exact ⟨rfl, fun _ => rfl, fun _ h => h⟩

/-- An accepted write is what the channel shows at the places that it names, and nowhere else (R351). -/
theorem wcbAccept_chView (line p : Nat) (counted : Bool) (l : List Nat) (f : Nat → Byte) (b : Nat) :
    chView ((wcbAccept ch line p counted (bytesAt l f) s).channel ch) b =
      if b / 64 = line ∧ b % 64 ∈ l then f (b % 64) else chView (s.channel ch) b := by
  cases he : wcbEntry (s.channel ch).wcb line with
  | some e =>
    have hline := (e.joined_line p counted (bytesAt l f)).trans (line_of_wcbEntry he)
    have hentry := wcbEntry_replaced_same (e := e.joined p counted (bytesAt l f)) (by rw [hline]; exact he)
    rw [wcbAccept_joins he, evictFull_chView (by rw [State.channel_setChannel_same]; exact hr)
      (by rw [State.channel_setChannel_same]; exact hentry), State.channel_setChannel_same]
    rw [hline] at hentry
    by_cases hb : b / 64 = line
    · have hkept := chView_of_entry (c := s.channel ch) (b := b) (by rw [hb]; exact he)
      rw [chView_of_entry (e := e.joined p counted (bytesAt l f)) (by rw [hb]; exact hentry), WcbEntry.joined, kget_putBytes, hkept]
      by_cases hl : b % 64 ∈ l
      · rw [if_pos hl, if_pos ⟨hb, hl⟩]; rfl
      · rw [if_neg hl, if_neg (fun h => hl h.2)]; rfl
    · rw [chView_wcb_congr (wcbEntry_replaced_other _ (by rw [hline]; exact hb)), if_neg (fun h => hb h.1)]
  | none =>
    obtain ⟨hstate, hview, hnone⟩ := makeRoom_keeps hr
    have hroom := hnone line he
    have hentry := wcbEntry_append_same (e := ⟨line, p, counted, putBytes (bytesAt l f) []⟩) hroom
    rw [wcbAccept_enters he, evictFull_chView (by rw [State.channel_modChannel_same]; exact (reachable_congr hstate).trans hr)
      (by rw [State.channel_modChannel_same]; exact hentry), State.channel_modChannel_same, ← hview b]
    by_cases hb : b / 64 = line
    · rw [chView_of_entry (by rw [hb]; exact hentry), kget_putBytes, chView_of_no_entry (by rw [hb]; exact hroom)]
      by_cases hl : b % 64 ∈ l
      · rw [if_pos hl, if_pos ⟨hb, hl⟩]; rfl
      · rw [if_neg hl, if_neg (fun h => hl h.2)]; rfl
    · rw [chView_wcb_congr (wcbEntry_append_other hb), if_neg (fun h => hb h.1)]
end

theorem wcbAccept_other {k : Nat} (h : k ≠ ch) (line p : Nat) (counted : Bool) (bs : List (Nat × Byte)) :
    (wcbAccept ch line p counted bs s).channel k = s.channel k := by
  have hevict (e : WcbEntry) (t : State) : (evictFull ch e t).channel k = t.channel k :=
    view_ite (fun t => t.channel k) (evictEntry_other h e .clean) rfl
  have hroom : (makeRoom ch s).channel k = s.channel k := by
    unfold makeRoom
    split
    · exact view_ite (fun t => t.channel k) (evictForced_other h _) rfl
    · rfl
  cases he : wcbEntry (s.channel ch).wcb line with
  | some e => rw [wcbAccept_joins he, hevict, State.channel_setChannel_other _ _ _ h]
  | none => rw [wcbAccept_enters he, hevict, State.channel_modChannel_other _ _ _ h, hroom]

/-! ### A write request (R348 to R351, R363, R364) -/

theorem reachable_of_serve {p : Nat} (h : s.serve p ch = .now) : (s.channel ch).reachable = true := by
  rw [reachable_iff]
  cases hstate : (s.channel ch).state with
  | online => exact .inl rfl
  | spare => exact .inr rfl
  | fenced | down | retraining | failed =>
    simp only [State.serve, hstate] at h
    split at h <;> cases h

/-- The byte that a line's data hold for place `i`. -/
def dataByte (data : BitVec 512) (i : Nat) : Byte := BitVec.ofNat 8 (fld data.toNat (8 * i) 8)

/-- The places that a mask selects. -/
def maskPlaces (mask : BitVec 64) : List Nat := (List.range 64).filter (fun i => mask.getLsbD i)

theorem maskBytes_eq (mask : BitVec 64) (data : BitVec 512) : maskBytes mask data = bytesAt (maskPlaces mask) (dataByte data) := rfl

theorem mem_maskPlaces {mask : BitVec 64} {i : Nat} : i ∈ maskPlaces mask ↔ i < 64 ∧ mask.getLsbD i = true := by
  simp [maskPlaces]

theorem maskBytes_isEmpty {mask : BitVec 64} (h : mask ≠ 0) (data : BitVec 512) : (maskBytes mask data).isEmpty = false := by
  rw [← Bool.not_eq_true, List.isEmpty_iff]
  intro hempty
  refine h (BitVec.eq_of_getLsbD_eq fun i hi => ?_)
  have hnone : maskPlaces mask = [] := List.map_eq_nil_iff.1 hempty
  have hi' : i ∉ maskPlaces mask := by simp [hnone]
  rw [mem_maskPlaces] at hi'
  simpa [hi] using hi'

section
variable {line p : Nat} {mask : BitVec 64} {data : BitVec 512}

theorem execMcWriteRequest_queued (h : s.serve p ch = .queued) : execMcWriteRequest ch line p mask data s = .next s :=
  if_pos (by simp [h])

variable (hc : ch < s.cfg.channels) (hm : mask ≠ 0)
include hc hm

/-- A write does not wait where its channel does not queue and, if it serves the writer, has a slot. -/
theorem writeProceeds (hq : s.serve p ch ≠ .queued) (hslot : s.serve p ch ≠ .now ∨ s.slotFor ch p false = true) :
    ¬ (decide (s.cfg.channels ≤ ch) || (maskBytes mask data).isEmpty || decide (s.serve p ch = .queued)
      || (decide (s.serve p ch = .now) && !s.slotFor ch p false)) = true := by
  rcases hslot with hslot | hslot <;> simp [hc, maskBytes_isEmpty hm, hq, hslot]

/-- A write that its channel accepts, the store that waits with these bytes taken off. -/
theorem execMcWriteRequest_accepts (hs : s.serve p ch = .now) (hslot : s.slotFor ch p false = true) :
    ∃ u, u.channels = s.channels ∧ execMcWriteRequest ch line p mask data s = .next (wcbAccept ch line p true (maskBytes mask data) u) := by
  refine ⟨match s.storeWaiting ch line p (maskBytes mask data) with | some (i, j) => dropLine i j s | none => s, ?_, ?_⟩
  · split <;> rfl
  · exact (if_neg (writeProceeds hc hm (by simp [hs]) (.inr hslot))).trans (if_neg (by simp [hs]))

/-- A write to a channel that does not serve its writer is reported (R363, R364). -/
theorem execMcWriteRequest_lost (hs : s.serve p ch = .lost) : ∃ u fig, u.channels = s.channels
    ∧ execMcWriteRequest ch line p mask data s = .next (lostWrite ch (64 * line) fig [p] u) := by
  refine ⟨match s.storeWaiting ch line p (maskBytes mask data) with | some (i, j) => dropLine i j s | none => s,
    match s.storeWaiting ch line p (maskBytes mask data) with | some (i, _) => (s.stream i).fig | none => noFig, ?_, ?_⟩
  · split <;> rfl
  · exact (if_neg (writeProceeds hc hm (by simp [hs]) (.inl (by simp [hs])))).trans (if_pos hs)

theorem mcWriteRequest_accepted (hs : s.serve p ch = .now) (hslot : s.slotFor ch p false = true) :
    completes (.mcWriteRequest ch line p mask data) s (fun t =>
      (∀ k, k < 64 → mask.getLsbD k = true → chView (t.channel ch) (64 * line + k) = BitVec.ofNat 8 (fld data.toNat (8 * k) 8))
      ∧ (∀ b, (b / 64 ≠ line ∨ mask.getLsbD (b % 64) = false) → chView (t.channel ch) b = chView (s.channel ch) b)
      ∧ (∀ k, k ≠ ch → t.channel k = s.channel k)) := by
  obtain ⟨u, hu, hexec⟩ := execMcWriteRequest_accepts (line := line) (data := data) hc hm hs hslot
  have hr : (u.channel ch).reachable = true := by rw [channel_of_channels hu]; exact reachable_of_serve hs
  have hview := wcbAccept_chView hr line p true (maskPlaces mask) (dataByte data)
  rw [← maskBytes_eq, channel_of_channels hu] at hview
  refine ⟨_, hexec, fun k hk hbit => ?_, fun b hb => ?_, fun k hk => ?_⟩
  · have hplace : (64 * line + k) / 64 = line ∧ (64 * line + k) % 64 = k := by omega
    rw [hview, if_pos ⟨hplace.1, by rw [hplace.2, mem_maskPlaces]; exact ⟨hk, hbit⟩⟩, hplace.2]
    rfl
  · rw [hview, if_neg]
    rintro ⟨hline, hmem⟩
    rcases hb with hb | hb
    · exact hb hline
    · rw [mem_maskPlaces, hb] at hmem
      exact Bool.false_ne_true hmem.2
  · rw [wcbAccept_other hk, channel_of_channels hu]

theorem mcWriteRequest_lost (hs : s.serve p ch = .lost) :
    completes (.mcWriteRequest ch line p mask data) s (fun t => t.channels = s.channels) := by
  obtain ⟨u, fig, hu, hexec⟩ := execMcWriteRequest_lost (line := line) (data := data) hc hm hs
  exact ⟨_, hexec, (same_of_mask (lostWrite_mask (w := 0x700002#38) (by decide) ch (64 * line) fig [p] u) .channels (by decide)).trans hu⟩
end

/-! ### A read request of a stream (R347 to R351, R356 to R358) -/

section
variable {line i j a : Nat} {x : LineReq}

/-- A read takes its slot, is counted and delivers the line's bytes. -/
def readServed (ch i j a : Nat) (x : LineReq) (bad : Bool) (s : State) : State :=
  deliverLine i j x ((List.range x.bytes).map (fun k => chView (s.channel ch) (a + k))) bad
    (acctAdd (s.stream i).part 2 64 (takeRead ch (s.stream i).part (.stream i) s))

/-- A channel without the state of its regulators. -/
def Channel.unturned (c : Channel) : Channel := { c with turns := Channel.reset.turns }

/-- What a change of one channel leaves of it, it leaves of every channel. -/
theorem view_modChannel {α : Type} (V : Channel → α) (s : State) (i k : Nat) {f : Channel → Channel}
    (h : V (f (s.channel i)) = V (s.channel i)) : V ((s.modChannel i f).channel k) = V (s.channel k) := by
  by_cases e : k = i
  · rw [e, State.channel_modChannel_same, h]
  · rw [State.channel_modChannel_other _ _ _ e]

/-- A slot taken changes the regulators alone (R347, R349). -/
theorem takeRead_unturned (p : Nat) (r : Reader) (k : Nat) : ((takeRead ch p r s).channel k).unturned = (s.channel k).unturned :=
  (view_modChannel Channel.unturned _ ch k rfl).trans
    (view_ite (fun t => (t.channel k).unturned) (view_modChannel Channel.unturned s ch k rfl) rfl)

theorem readServed_unturned (bad : Bool) (k : Nat) : ((readServed ch i j a x bad s).channel k).unturned = (s.channel k).unturned :=
  (congrArg Channel.unturned (acctAdd_channel _ _ _ _ k)).trans (takeRead_unturned _ _ k)

theorem chView_of_unturned {c d : Channel} (h : c.unturned = d.unturned) (b : Nat) : chView c b = chView d b :=
  chView_congr (congrArg Channel.mem h :) (congrArg Channel.undef h :) (congrArg Channel.wcb h :) b

theorem setLine_stream {t : State} (h : t.streams = s.streams) (x : LineReq) (k : Nat) : (setLine i j x t).stream k = (setLine i j x s).stream k := by
  simp only [setLine, State.modStream, State.setStream, State.stream, h]

theorem readServed_stream (bad : Bool) (k : Nat) : (readServed ch i j a x bad s).stream k =
    (setLine i j { x with data := some ((List.range x.bytes).map (fun k => chView (s.channel ch) (a + k))), poisoned := bad } s).stream k := by
  have hstreams : (acctAdd (s.stream i).part 2 64 (takeRead ch (s.stream i).part (.stream i) s)).streams = s.streams :=
    (same_of_mask (acctAdd_mask (w := 0x700010#38) (by decide) _ _ _ _) .streams (by decide)).trans
      (same_of_mask (takeRead_mask (w := 0x2000#38) (by decide) ch _ _ s) .streams (by decide))
  exact setLine_stream hstreams _ k

theorem readLost_stream (i p ca : Nat) (t : State) : readLost (.stream i) true p ch ca t =
    poisonStream i .memUe (uncorrectable ch ca (t.stream i).fig [p] t) := rfl

/-- An uncorrectable read is recorded in MEM_UE_LAST (R358). -/
theorem uncorrectable_mem (ca fig : Nat) (ps : List Nat) (t : State) :
    (uncorrectable ch ca fig ps t).mem.ueValid = true ∧ (uncorrectable ch ca fig ps t).mem.ueChannel = ch := by
  have hrepair (u : State) : (softRepair ch ca u).mem = u.mem :=
    same_of_mask (softRepair_mask (w := 0x2702000#38) (by decide) ch ca u) .mem (by decide)
  have hpost (payload : Nat) (u : State) : (postEach ps 0x50 payload u).mem = u.mem :=
    same_of_mask (postEach_mask (w := 0x700000#38) (by decide) ps 0x50 payload u) .mem (by decide)
  unfold uncorrectable uncorrectableAt
  dsimp only
  split
  · rw [hrepair, hpost]
    exact ⟨rfl, rfl⟩
  · rw [hpost]
    exact ⟨rfl, rfl⟩

section
variable (hc : ch < s.cfg.channels) (hw : s.readWaiting i ch line = some (j, x, a)) (hs : s.serve (s.stream i).part ch = .now)
  (hb : s.bankBusy ch (64 * line) = false) (hslot : s.slotFor ch (s.stream i).part (s.byCrossbar (.stream i) ch) = true)
include hc hw hs hb hslot

theorem execMcReadRequest_serves (ecc : Ecc) : execMcReadRequest ch line (s.stream i).part (.stream i) ecc s =
    let bad := (s.channel ch).poison.contains line || decide (ecc = .double)
    let t := readServed ch i j a x bad s
    .next (if bad then readLost (.stream i) true (s.stream i).part ch (64 * line) t
      else if ecc = .single then corrected ch (64 * line) t else t) := by
  simp [execMcReadRequest, readerPart, hc, hw, hs, hb, hslot, readServed]

theorem mcReadRequest_clean (hp : (s.channel ch).poison.contains line = false) :
    completes (.mcReadRequest ch line (s.stream i).part (.stream i) .clean) s (fun t =>
      (t.stream i).lines = (s.stream i).lines.set j
        { x with data := some ((List.range x.bytes).map (fun k => chView (s.channel ch) (a + k))), poisoned := false }
      ∧ (∀ k, k ≠ i → t.stream k = s.stream k)
      ∧ (∀ k b, chView (t.channel k) b = chView (s.channel k) b) ∧ ∀ k, (t.channel k).poison = (s.channel k).poison) := by
  have hexec := execMcReadRequest_serves hc hw hs hb hslot .clean
  simp only [hp, reduceCtorEq, decide_false, Bool.or_self, Bool.false_eq_true, if_false] at hexec
  have hkept := readServed_unturned (s := s) (ch := ch) (i := i) (j := j) (a := a) (x := x) false
  refine ⟨_, hexec, ?_, fun k hk => ?_, fun k b => chView_of_unturned (hkept k) b, fun k => (congrArg Channel.poison (hkept k) :)⟩
  · rw [readServed_stream, setLine, State.stream_modStream_same]
  · rw [readServed_stream, setLine, State.stream_modStream_other _ _ _ hk]

theorem mcReadRequest_uncorrectable {ecc : Ecc} (hbad : (s.channel ch).poison.contains line = true ∨ ecc = .double) :
    completes (.mcReadRequest ch line (s.stream i).part (.stream i) ecc) s (fun t =>
      (t.stream i).poisoned = true ∧ (t.channel ch).poison.contains line = true
      ∧ (t.channel ch).cnt.ue = min 0xFFFF ((s.channel ch).cnt.ue + 1) ∧ t.mem.ueValid = true ∧ t.mem.ueChannel = ch
      ∧ ∀ b, chView (t.channel ch) b = chView (s.channel ch) b) := by
  have hexec := execMcReadRequest_serves hc hw hs hb hslot ecc
  have hbad' : ((s.channel ch).poison.contains line || decide (ecc = .double)) = true := by
    rw [Bool.or_eq_true, decide_eq_true_iff]
    exact hbad
  simp only [hbad', if_true, readLost_stream] at hexec
  set u := readServed ch i j a x true s
  have hkept : (u.channel ch).unturned = (s.channel ch).unturned := readServed_unturned true ch
  have hr : (u.channel ch).reachable = true :=
    (reachable_congr (congrArg Channel.state hkept :)).trans (reachable_of_serve hs)
  obtain ⟨hvalid, hchannel⟩ := uncorrectable_mem (ch := ch) (64 * line) (u.stream i).fig [(s.stream i).part] u
  have hpoison := poison_uncorrectable (64 * line) hr (u.stream i).fig [(s.stream i).part]
  rw [Nat.mul_div_cancel_left line (by decide)] at hpoison
  refine ⟨_, hexec, poisonStream_poisoned _ _ _, ?_⟩
  simp only [poisonStream_channel, poisonStream_mem]
  refine ⟨hpoison, ?_, hvalid, hchannel, fun b => ?_⟩
  · have hue : (u.channel ch).cnt.ue = (s.channel ch).cnt.ue := (congrArg (fun c => c.cnt.ue) hkept :)
    rw [← hue]
    exact ue_uncorrectable (64 * line) hr (u.stream i).fig [(s.stream i).part]
  · have hview := chView_of_scrubView (scrubView_uncorrectable (64 * line) hr (u.stream i).fig [(s.stream i).part])
    exact (congrFun hview b).trans (chView_of_unturned hkept b)
end
end
end

/-- Settles O38: reads by what a served read leaves, writes by what an accepted one shows, and evictions. -/
theorem linesReadAndWrite : Obligations.LinesReadAndWrite := by
  unfold Obligations.LinesReadAndWrite
  refine fun s ch line hc => ⟨fun i j x a hw hs hb hslot => ⟨mcReadRequest_clean hc hw hs hb hslot,
      fun e hbad => mcReadRequest_uncorrectable hc hw hs hb hslot hbad⟩,
    fun p mask data hm => ⟨fun hs hslot => ⟨s, execMcWriteRequest_noSlot hs line mask data hslot, rfl⟩,
      mcWriteRequest_accepted hc hm, mcWriteRequest_lost hc hm, fun hs => ⟨s, execMcWriteRequest_queued hs, rfl⟩⟩,
    fun e ecc he hr hb hslot => wcbEvict_completes ecc he hr hb hslot⟩

end Sys2Proof.Machine
end

section
/-! PROOF. One step of the block (log 2); a command that changes a part its rules do not name; and the locked configuration (R509, R510,
R516): what a step leaves of the RWL registers once LOCK is 1, and that the checks of LOCK hold from then on. -/

namespace Sys2Proof.Machine

/-! ### A step -/

theorem step_cons {s : State} {c : Instr} {rest : List Instr} (h : s.pending = c :: rest) :
    step s = exec c { s with pending := rest } := by
  rw [step, h]

theorem step_idle {s : State} (h : s.pending = []) : step s = .next s := by
  rw [step, h]

/-- Settles O1: the two branches of `step`. -/
theorem stepRunsFront : Obligations.StepRunsFront := by
  unfold Obligations.StepRunsFront
  exact ⟨fun _ _ _ h => step_cons h, fun _ h => step_idle h⟩

/-! ### A command that changes what its rules do not name -/

/-- PROTECT of the page at VA 0, command 3 of ring 0. -/
def protectFirstPage : BitVec 512 := BitVec.ofNat 512 (3 + 0x302 * 2 ^ 16 + 2 ^ 32 + 2 ^ (8 * 0x20))

/-- A running block: partition 0 has Sets 0 to 15, ring 0, READY with PROTECT next, and ring 1, its event ring, DOWN. Stream 4 is parked on
an access to a page that nothing maps, and FQ_POSTED is one short of saturation. -/
def parkedUnderProtect : State :=
  { State.reset with
    fw := { Fremund.reset with state := .running }
    pins := { State.reset.pins with phase := .running }
    prot := { Prot.reset with setEn := 0xFFFF, ringCfg := 0x4C }
    rings := [(0, { Ring.reset with state := .ready, versionRead := true, opened := [⟨3, protectFirstPage, false, 0⟩] })]
    faults := { State.reset.faults with parking := [4], posted := 2 ^ 32 - 1 }
    streams := [(4, { Stream.unbound with bound := true, suspended := some (2 ^ 26, false, .notMapped), parked := true })] }

/-- The number of events that wait for a ring to be READY after a command (R677). -/
def earlyAfter (c : Instr) (s : State) : Nat :=
  match exec c s with
  | .next t => t.fw.early.length
  | _ => 0

/-- PROTECT posts the fault of the parked stream; FQ_POSTED saturates, and its COUNTER_SAT event waits in Fremund for the DOWN ring. -/
theorem protect_earlyEvent : earlyAfter (.protect 0 3) parkedUnderProtect = 1 := by decide +kernel

/-- Refutes O2: PROTECT and MAP let parked streams try again (R395, R398); the COUNTER_SAT event of a saturated FQ_POSTED (R591) changes
Fremund's state where the event ring is DOWN (R677), and neither command names that part. -/
theorem not_commandFrame : ¬ Obligations.CommandFrame := by
  intro h
  obtain ⟨t, e, hframe⟩ := h (.protect 0 3) parkedUnderProtect
  have hfw : t.fw = parkedUnderProtect.fw := hframe .fw (by decide)
  have hone := protect_earlyEvent
  simp only [earlyAfter, e, hfw] at hone
  exact absurd hone (by decide)

/-! ### The locked configuration -/

/-- What a command that is no reset and no step of boot may change: all but the design and what the lock freezes. -/
def openMask : BitVec 38 := 0x3FFE7EEFF3#38

/-- Only the resets and boot reach the RWL registers (R510, R518, R655). -/
theorem exec_keeps_locked (s : State) (c : Instr) (hr : resetting c = false) (hb : ∀ w, c ≠ .fuseAck w) : Keeps openMask s (exec c s) := by
  cases c
  case beatEdge => exact execBeatEdge_keeps (by decide) ..
  case beatInsert => exact execBeatInsert_keeps (by decide) ..
  case holdoverExpiry => exact execHoldoverExpiry_keeps (by decide) ..
  case beatCountFrame => exact execBeatCountFrame_keeps (by decide) ..
  case barBoundary => exact execBarBoundary_keeps (by decide) ..
  case lateFrame => exact execLateFrame_keeps (by decide) ..
  case figureStalled => exact execFigureStalled_keeps (by decide) ..
  case figureStart => exact execFigureStart_keeps (by decide) ..
  case figureComplete => exact execFigureComplete_keeps (by decide) ..
  case figureAbort => exact execFigureAbort_keeps (by decide) ..
  case backwardPhaseStart => exact execBackwardPhaseStart_keeps (by decide) ..
  case mergePhaseStart => exact execMergePhaseStart_keeps (by decide) ..
  case bucketStart => exact execBucketStart_keeps (by decide) ..
  case appendPhase => exact execAppendPhase_keeps (by decide) ..
  case kvAppend => exact execKvAppend_keeps (by decide) ..
  case mxaOp => exact execMxaOp_keeps (by decide) ..
  case acmDrain => exact execAcmDrain_keeps (by decide) ..
  case acmFill => exact execAcmFill_keeps (by decide) ..
  case acmShift => exact execAcmShift_keeps (by decide) ..
  case acmClear => exact execAcmClear_keeps (by decide) ..
  case acmStatus => exact execAcmStatus_keeps (by decide) ..
  case rope => exact execRope_keeps (by decide) ..
  case vuSplit => exact execVuSplit_keeps (by decide) ..
  case cvtFromE4m3x => exact execCvtFromE4m3x_keeps (by decide) ..
  case cvtToE4m3x => exact execCvtToE4m3x_keeps (by decide) ..
  case optAdam => exact execOptAdam_keeps (by decide) ..
  case scaleStep => exact execScaleStep_keeps (by decide) ..
  case kvCommit => exact execKvCommit_keeps (by decide) ..
  case resReload => exact execResReload_keeps (by decide) ..
  case clmLoad => exact execClmLoad_keeps (by decide) ..
  case clmClaim => exact execClmClaim_keeps (by decide) ..
  case clmRetire => exact execClmRetire_keeps (by decide) ..
  case clmReturn => exact execClmReturn_keeps (by decide) ..
  case clmRelease => exact execClmRelease_keeps (by decide) ..
  case itemCommit => exact execItemCommit_keeps (by decide) ..
  case multicastStageIssue => exact execMulticastStageIssue_keeps (by decide) ..
  case spmFill => exact execSpmFill_keeps (by decide) ..
  case spmCopy => exact execSpmCopy_keeps (by decide) ..
  case credTake => exact execCredTake_keeps (by decide) ..
  case credTakeGrant => exact execCredTakeGrant_keeps (by decide) ..
  case credReturn => exact execCredReturn_keeps (by decide) ..
  case remoteRowWrite => exact execRemoteRowWrite_keeps (by decide) ..
  case streamAccess => exact execStreamAccess_keeps (by decide) ..
  case stbLookup => exact execStbLookup_keeps (by decide) ..
  case stbWalkDone => exact execStbWalkDone_keeps (by decide) ..
  case faultService => exact execFaultService_keeps (by decide) ..
  case translationPrefetch => exact execTranslationPrefetch_keeps (by decide) ..
  case lineDataValid => exact execLineDataValid_keeps (by decide) ..
  case invalidationDone => exact execInvalidationDone_keeps (by decide) ..
  case migrateCopyDone => exact execMigrateCopyDone_keeps (by decide) ..
  case pwuLookup => exact execPwuLookup_keeps (by decide) ..
  case pwuWalkDone => exact execPwuWalkDone_keeps (by decide) ..
  case quietPoint => exact execQuietPoint_keeps (by decide) ..
  case seqEvictCopyDone => exact execSeqEvictCopyDone_keeps (by decide) ..
  case seqRestoreCopyDone => exact execSeqRestoreCopyDone_keeps (by decide) ..
  case frameZeroed => exact execFrameZeroed_keeps (by decide) ..
  case reserveWaitTimeout => exact execReserveWaitTimeout_keeps (by decide) ..
  case mcReadRequest => exact execMcReadRequest_keeps (by decide) ..
  case mcWriteRequest => exact execMcWriteRequest_keeps (by decide) ..
  case softRepairDone => exact execSoftRepairDone_keeps (by decide) ..
  case wcbEvict => exact execWcbEvict_keeps (by decide) ..
  case refresh => exact execRefresh_keeps (by decide) ..
  case patrolScrub => exact execPatrolScrub_keeps (by decide) ..
  case scrubAged => exact execScrubAged_keeps (by decide) ..
  case stackTempRead => exact execStackTempRead_keeps (by decide) ..
  case channelLockLoss => exact execChannelLockLoss_keeps (by decide) ..
  case channelRelock => exact execChannelRelock_keeps (by decide) ..
  case channelFenceExpiry => exact execChannelFenceExpiry_keeps (by decide) ..
  case channelUeLimit => exact execChannelUeLimit_keeps (by decide) ..
  case intermissionItemStart => exact execIntermissionItemStart_keeps (by decide) ..
  case channelRetrainDone => exact execChannelRetrainDone_keeps (by decide) ..
  case portRetrainDone => exact execPortRetrainDone_keeps (by decide) ..
  case laneRemapDone => exact execLaneRemapDone_keeps (by decide) ..
  case repairStagingDone => exact execRepairStagingDone_keeps (by decide) ..
  case farDrsResponse => exact execFarDrsResponse_keeps (by decide) ..
  case farNdrCmp => exact execFarNdrCmp_keeps (by decide) ..
  case farLinkDown => exact execFarLinkDown_keeps (by decide) ..
  case farLinkUp => exact execFarLinkUp_keeps (by decide) ..
  case farLinkTimeout => exact execFarLinkTimeout_keeps (by decide) ..
  case flitReceive => exact execFlitReceive_keeps (by decide) ..
  case portRetryLimit => exact execPortRetryLimit_keeps (by decide) ..
  case portFecLimit => exact execPortFecLimit_keeps (by decide) ..
  case portLockLoss => exact execPortLockLoss_keeps (by decide) ..
  case portRelock => exact execPortRelock_keeps (by decide) ..
  case portRelockTimeout => exact execPortRelockTimeout_keeps (by decide) ..
  case portPeerFence => exact execPortPeerFence_keeps (by decide) ..
  case linkCalibration => exact execLinkCalibration_keeps (by decide) ..
  case portTrainRetry => exact execPortTrainRetry_keeps (by decide) ..
  case trainingFrame => exact execTrainingFrame_keeps (by decide) ..
  case transferIssue => exact execTransferIssue_keeps (by decide) ..
  case deliveryReceive => exact execDeliveryReceive_keeps (by decide) ..
  case creditFrame => exact execCreditFrame_keeps (by decide) ..
  case probeFrame => exact execProbeFrame_keeps (by decide) ..
  case voteContribute => exact execVoteContribute_keeps (by decide) ..
  case voteFrame => exact execVoteFrame_keeps (by decide) ..
  case voteLatch => exact execVoteLatch_keeps (by decide) ..
  case chainSegment => exact execChainSegment_keeps (by decide) ..
  case dbProdWrite => exact execDbProdWrite_keeps (by decide) ..
  case dbCplWrite => exact execDbCplWrite_keeps (by decide) ..
  case dbEvconsWrite => exact execDbEvconsWrite_keeps (by decide) ..
  case ringReset => exact execRingReset_keeps (by decide) ..
  case ringResetDone => exact execRingResetDone_keeps (by decide) ..
  case heartbeatTick => exact execHeartbeatTick_keeps (by decide) ..
  case coreProgressFail => exact execCoreProgressFail_keeps (by decide) ..
  case watchdogExpiry => exact execWatchdogExpiry_keeps (by decide) ..
  case ccSramError => exact execCcSramError_keeps (by decide) ..
  case cifVersion => exact execCifVersion_keeps (by decide) ..
  case commandUnknownOpcode => exact execCommandUnknownOpcode_keeps (by decide) ..
  case eventRingSet => exact execEventRingSet_keeps (by decide) ..
  case jobOpen => exact execJobOpen_keeps (by decide) ..
  case jobEnd => exact execJobEnd_keeps (by decide) ..
  case chorLoad => exact execChorLoad_keeps (by decide) ..
  case chorRun => exact execChorRun_keeps (by decide) ..
  case chorStop => exact execChorStop_keeps (by decide) ..
  case holdRequest => exact execHoldRequest_keeps (by decide) ..
  case intermissionReq => exact execIntermissionReq_keeps (by decide) ..
  case kvArenaSet => exact execKvArenaSet_keeps (by decide) ..
  case seqOpen => exact execSeqOpen_keeps (by decide) ..
  case seqQuery => exact execSeqQuery_keeps (by decide) ..
  case seqReserve => exact execSeqReserve_keeps (by decide) ..
  case seqTrim => exact execSeqTrim_keeps (by decide) ..
  case seqClose => exact execSeqClose_keeps (by decide) ..
  case seqEvict => exact execSeqEvict_keeps (by decide) ..
  case seqRestore => exact execSeqRestore_keeps (by decide) ..
  case kvStat => exact execKvStat_keeps (by decide) ..
  case map => exact execMap_keeps (by decide) ..
  case unmap => exact execUnmap_keeps (by decide) ..
  case protect => exact execProtect_keeps (by decide) ..
  case migrate => exact execMigrate_keeps (by decide) ..
  case faultAbort => exact execFaultAbort_keeps (by decide) ..
  case hotRead => exact execHotRead_keeps (by decide) ..
  case hotSet => exact execHotSet_keeps (by decide) ..
  case tableDigest => exact execTableDigest_keeps (by decide) ..
  case fabricSet => exact execFabricSet_keeps (by decide) ..
  case routeSet => exact execRouteSet_keeps (by decide) ..
  case groupSet => exact execGroupSet_keeps (by decide) ..
  case lbSet => exact execLbSet_keeps (by decide) ..
  case lbClear => exact execLbClear_keeps (by decide) ..
  case tableRead => exact execTableRead_keeps (by decide) ..
  case linkQuery => exact execLinkQuery_keeps (by decide) ..
  case snapSet => exact execSnapSet_keeps (by decide) ..
  case snapRestore => exact execSnapRestore_keeps (by decide) ..
  case snapQuery => exact execSnapQuery_keeps (by decide) ..
  case setPartner => exact execSetPartner_keeps (by decide) ..
  case partnerReply => exact execPartnerReply_keeps (by decide) ..
  case partnerTimeout => exact execPartnerTimeout_keeps (by decide) ..
  case counterRead => exact execCounterRead_keeps (by decide) ..
  case powerState => exact execPowerState_keeps (by decide) ..
  case powerCap => exact execPowerCap_keeps (by decide) ..
  case healthRead => exact execHealthRead_keeps (by decide) ..
  case debugHalt => exact execDebugHalt_keeps (by decide) ..
  case debugResume => exact execDebugResume_keeps (by decide) ..
  case fwStage => exact execFwStage_keeps (by decide) ..
  case fwCommit => exact execFwCommit_keeps (by decide) ..
  case fwActivate => exact execFwActivate_keeps (by decide) ..
  case fwConfirm => exact execFwConfirm_keeps (by decide) ..
  case snapStagingDone => exact execSnapStagingDone_keeps (by decide) ..
  case snapSlotWritten => exact execSnapSlotWritten_keeps (by decide) ..
  case snapSlotErase => exact execSnapSlotErase_keeps (by decide) ..
  case mirrorDone => exact execMirrorDone_keeps (by decide) ..
  case mirrorTimeout => exact execMirrorTimeout_keeps (by decide) ..
  case nvmResponse tag ok data => exact execNvmResponse_keeps (by decide) tag ok data s
  case p1IdleEntry => exact execP1IdleEntry_keeps (by decide) ..
  case dutyAdjust => exact execDutyAdjust_keeps (by decide) ..
  case capWindowEnd => exact execCapWindowEnd_keeps (by decide) ..
  case droopWarnStart => exact execDroopWarnStart_keeps (by decide) ..
  case droopWarnEnd => exact execDroopWarnEnd_keeps (by decide) ..
  case supplyFailure => cases hr
  case dieTempRead => exact execDieTempRead_keeps (by decide) ..
  case thermThrottleChange => exact execThermThrottleChange_keeps (by decide) ..
  case porAssert => cases hr
  case porRelease => exact execPorRelease_keeps (by decide) ..
  case resetEntry => cases hr
  case resetEntryDone => exact execResetEntryDone_keeps (by decide) ..
  case resetRelease => exact execResetRelease_keeps (by decide) ..
  case selfTests => exact execSelfTests_keeps (by decide) ..
  case hbmTraining => exact execHbmTraining_keeps (by decide) ..
  case linkTraining => exact execLinkTraining_keeps (by decide) ..
  case hbmZeroInit => exact execHbmZeroInit_keeps (by decide) ..
  case fwRegionBuild => exact execFwRegionBuild_keeps (by decide) ..
  case jtagIrUpdate => exact execJtagIrUpdate_keeps (by decide) ..
  case jtagDebugAccess => exact execJtagDebugAccess_keeps (by decide) ..
  case scanPattern => exact execScanPattern_keeps (by decide) ..
  case latchedLoRead => exact execLatchedLoRead_keeps (by decide) ..
  case acmDbgGo => exact execAcmDbgGo_keeps (by decide) ..
  case acmDbgCopyDone => exact execAcmDbgCopyDone_keeps (by decide) ..
  case spmDbgGo => exact execSpmDbgGo_keeps (by decide) ..
  case spmDbgCopyDone => exact execSpmDbgCopyDone_keeps (by decide) ..
  case telemEnable => exact execTelemEnable_keeps (by decide) ..
  case telemTailWrite => exact execTelemTailWrite_keeps (by decide) ..
  case telemStatClear => exact execTelemStatClear_keeps (by decide) ..
  case spmCstatClear => exact execSpmCstatClear_keeps (by decide) ..
  case mcCstatClear => exact execMcCstatClear_keeps (by decide) ..
  case trCstatClear => exact execTrCstatClear_keeps (by decide) ..
  case fqCstatClear => exact execFqCstatClear_keeps (by decide) ..
  case lkCstatClear => exact execLkCstatClear_keeps (by decide) ..
  case ceCstatClear => exact execCeCstatClear_keeps (by decide) ..
  case stallCstatClear => exact execStallCstatClear_keeps (by decide) ..
  case pcntCstatClear => exact execPcntCstatClear_keeps (by decide) ..
  case blkCstatClear => exact execBlkCstatClear_keeps (by decide) ..
  case hpfStatClear => exact execHpfStatClear_keeps (by decide) ..
  case protViolClear => exact execProtViolClear_keeps (by decide) ..
  case registerWrite => exact execRegisterWrite_keeps (by decide) ..
  case vuOperation => exact execVuOperation_keeps (by decide) ..
  case powerTransitionDone => exact execPowerTransitionDone_keeps (by decide) ..
  case fuseAck w => exact absurd rfl (hb w)
  case partnerRequest => exact execPartnerRequest_keeps (by decide) ..

section
variable {s t : State}

theorem lockedView_of_mask (h : t.mask openMask = s.mask openMask) : t.lockedView = s.lockedView := by
  have hprot : t.prot.fixed = s.prot.fixed := same_of_mask h .protFixed (by decide)
  have hregions : t.regionRegs = s.regionRegs := same_of_mask h .regionRegs (by decide)
  have hpmu : t.pmu.fixed = s.pmu.fixed := same_of_mask h .pmuFixed (by decide)
  have hmem : t.mem.fixed = s.mem.fixed := same_of_mask h .memFixed (by decide)
  have hbeat : t.beat.fixed = s.beat.fixed := same_of_mask h .beatFixed (by decide)
  rw [State.lockedView, State.lockedView, hprot, hregions, hpmu, hmem, hbeat]

theorem cfg_of_mask (h : t.mask openMask = s.mask openMask) : t.cfg = s.cfg := same_of_mask h .cfg (by decide)

/-- A locked view tells whether the lock is set. -/
theorem lock_of_lockedView (h : t.lockedView = s.lockedView) : t.prot.lock = s.prot.lock :=
  congrArg (fun v : LockedView => v.prot.lock) h

/-- Boot does nothing where LOCK is 1 (R510). -/
theorem runBoot_locked (h : s.prot.lock = true) : runBoot s = s := by
  rw [runBoot, if_pos h]

/-- Where LOCK is 1 a fuse word changes the pins alone. -/
theorem execFuseAck_locked (w : BitVec 32) (h : s.prot.lock = true) : ∃ p, execFuseAck w s = .next { s with pins := p } := by
  unfold execFuseAck
  dsimp only
  split
  · exact ⟨_, rfl⟩
  split
  · exact ⟨_, rfl⟩
  split
  · exact ⟨_, congrArg Host.Outcome.next (runBoot_locked h)⟩
  · exact ⟨_, rfl⟩

/-- Where LOCK is 1 a command that is no reset leaves the RWL registers and the design. -/
theorem exec_locked (c : Instr) (hl : s.prot.lock = true) (hr : resetting c = false) :
    ∃ t, exec c s = .next t ∧ t.lockedView = s.lockedView ∧ t.cfg = s.cfg := by
  by_cases hb : ∃ w, c = .fuseAck w
  · obtain ⟨w, rfl⟩ := hb
    obtain ⟨p, e⟩ := execFuseAck_locked w hl
    exact ⟨_, e, rfl, rfl⟩
  · obtain ⟨t, e, m⟩ := exec_keeps_locked s c hr (fun w hw => hb ⟨w, hw⟩)
    exact ⟨t, e, lockedView_of_mask m, cfg_of_mask m⟩
end

/-- Settles O3: a command that is no reset leaves the RWL registers where LOCK is 1 (`exec_locked`). -/
theorem lockFreezes : Obligations.LockFreezes := by
  intro s t hl hn ht
  cases hq : s.pending with
  | nil =>
    rw [step_idle hq] at ht
    cases ht
    exact ⟨rfl, hl⟩
  | cons c rest =>
    rw [step_cons hq] at ht
    obtain ⟨u, e, hview, -⟩ := exec_locked (s := { s with pending := rest }) c hl (hn c (by rw [hq]; rfl))
    cases e.symm.trans ht
    exact ⟨hview, (lock_of_lockedView hview).trans hl⟩

/-! ### The checks of LOCK (R516) -/

section
variable {s t : State}

theorem region_fixed_of_regs (h : t.regionRegs = s.regionRegs) {n : Nat} (hn : n < 64) : (t.region n).fixed = (s.region n).fixed := by
  have := congrArg (fun l : List MemRegion => l[n]?) h
  simpa [State.regionRegs, hn] using this

/-- The registers that the checks of LOCK read; LOCK itself is not among them. -/
def State.checkedRegs (s : State) : Prot × List MemRegion × Pmu × Design :=
  ({ s.prot.fixed with lock := false }, s.regionRegs, s.pmu.fixed, s.cfg)

/-- What the checks read of the protection registers: all but LOCK. -/
def Prot.checked (p : Prot) : Prot := { p.fixed with lock := false }

theorem checked_of_fixed {p q : Prot} (h : p.fixed = q.fixed) : p.checked = q.checked := by rw [Prot.checked, Prot.checked, h]

theorem setOwner_congr (hp : t.prot.checked = s.prot.checked) (hc : t.cfg = s.cfg) (k : Nat) : t.setOwner k = s.setOwner k := by
  have hpart : t.prot.setPart = s.prot.setPart := (congrArg Prot.setPart hp :)
  have hen : t.prot.setEn = s.prot.setEn := (congrArg Prot.setEn hp :)
  rw [State.setOwner, State.setOwner, State.setEnabled, State.setEnabled, hpart, hen, hc]

theorem partExists_congr (hp : t.prot.checked = s.prot.checked) (hc : t.cfg = s.cfg) (p : Nat) : t.partExists p = s.partExists p := by
  simp only [State.partExists, State.partSets, setOwner_congr hp hc]

theorem ringOwner_congr (hp : t.prot.checked = s.prot.checked) (r : Nat) : t.ringOwner r = s.ringOwner r := by
  have hcfg : t.prot.ringCfg = s.prot.ringCfg := (congrArg Prot.ringCfg hp :)
  rw [State.ringOwner, State.ringOwner, hcfg]

theorem regionFits_congr (hp : t.prot.checked = s.prot.checked) (hc : t.cfg = s.cfg) {a b : MemRegion} (h : a.fixed = b.fixed) :
    t.regionFits a = s.regionFits b := by
  have hfixed : t.regionFits a.fixed = s.regionFits b.fixed := by
    rw [h, State.regionFits, State.regionFits, setOwner_congr hp hc, hc]
  exact hfixed

theorem regionsMeet_congr (d : Design) {a b x y : MemRegion} (h : a.fixed = b.fixed) (hxy : x.fixed = y.fixed) :
    regionsMeet d a x = regionsMeet d b y := by
  have hfixed : regionsMeet d a.fixed x.fixed = regionsMeet d b.fixed y.fixed := by rw [h, hxy]
  exact hfixed

theorem valid_of_fixed {a b : MemRegion} (h : a.fixed = b.fixed) : a.valid = b.valid := by
  have hfixed : a.fixed.valid = b.fixed.valid := by rw [h]
  exact hfixed

theorem badRegion_congr (hp : t.prot.checked = s.prot.checked) (hc : t.cfg = s.cfg) (hr : t.regionRegs = s.regionRegs) :
    t.badRegion = s.badRegion := by
  refine List.find?_congr fun n hn => ?_
  replace hn := region_fixed_of_regs hr (List.mem_range.1 hn)
  have hmeets : (List.range 64).any (fun m => decide (m ≠ n) && (t.region m).valid && regionsMeet t.cfg (t.region n) (t.region m))
      = (List.range 64).any (fun m => decide (m ≠ n) && (s.region m).valid && regionsMeet s.cfg (s.region n) (s.region m)) := by
    rw [Bool.eq_iff_iff, List.any_eq_true, List.any_eq_true]
    refine exists_congr fun m => and_congr_right fun hm => ?_
    replace hm := region_fixed_of_regs hr (List.mem_range.1 hm)
    rw [valid_of_fixed hm, hc, regionsMeet_congr s.cfg hn hm]
  dsimp only
  rw [valid_of_fixed hn, regionFits_congr hp hc hn, hmeets]

/-- The checks of LOCK read the frozen registers, but LOCK itself, and the design (R516). -/
theorem lockRefusal_congr (hp : t.prot.checked = s.prot.checked) (hr : t.regionRegs = s.regionRegs) (hm : t.pmu.fixed = s.pmu.fixed)
    (hc : t.cfg = s.cfg) : t.lockRefusal = s.lockRefusal := by
  have hports : t.prot.portEn = s.prot.portEn ∧ t.prot.portPart = s.prot.portPart :=
    ⟨(congrArg Prot.portEn hp :), (congrArg Prot.portPart hp :)⟩
  have hrings : t.prot.ringCfg = s.prot.ringCfg ∧ t.prot.hostReq = s.prot.hostReq ∧ t.prot.setEn = s.prot.setEn :=
    ⟨(congrArg Prot.ringCfg hp :), (congrArg Prot.hostReq hp :), (congrArg Prot.setEn hp :)⟩
  rw [Pmu.fixed_iff] at hm
  simp only [State.lockRefusal, badRegion_congr hp hc hr, partExists_congr hp hc, ringOwner_congr hp, hports, hrings, hm, hc]

theorem lockRefusal_of_lockedView (h : t.lockedView = s.lockedView) (hc : t.cfg = s.cfg) : t.lockRefusal = s.lockRefusal := by
  injection h with hprot hregions hpmu
  exact lockRefusal_congr (checked_of_fixed hprot) hregions hpmu hc

/-- A locked configuration that passes the checks passes them as long as the frozen registers stay. -/
theorem State.lockSound.of_lockedView (hs : s.lockSound) (h : t.lockedView = s.lockedView) (hc : t.cfg = s.cfg) : t.lockSound :=
  fun hl => (lockRefusal_of_lockedView h hc).trans (hs ((lock_of_lockedView h).symm.trans hl))

theorem lockSound_of_unlocked (h : s.prot.lock = false) : s.lockSound := fun hl => by simp [h] at hl
end

/-! ### Boot sets LOCK (R516, R518) -/

section
variable {s : State}

/-- Steps 4 and 5 of boot leave what the checks of LOCK read. -/
theorem bootFremund_lockRefusal (s : State) : (bootFremund s).lockRefusal = s.lockRefusal := by
  have m : (bootFremund s).mask openMask = s.mask openMask := bootFremund_mask (by decide) s
  exact lockRefusal_of_lockedView (lockedView_of_mask m) (cfg_of_mask m)

/-- Boot leaves LOCK 0, or sets it where every check passes. -/
theorem runBoot_lockSound (hl : s.prot.lock = false) : (runBoot s).lockSound := by
  cases hi : (fusesRead s).imageFault 0x0A5E0B02 (2 ^ 16) 0x10000 with
  | some c => rw [runBoot_noImage hl hi]; exact lockSound_of_unlocked hl
  | none =>
    cases hw : writeRecords (protRecords ((fusesRead s).imageBody 0x10000)) (fusesRead s) with
    | none => rw [runBoot_badRecord hl hi hw]; exact lockSound_of_unlocked hl
    | some u =>
      have hboot := runBoot_triesLock hl hi hw
      have hlock := (recordsWritten_lock (fusesRead s) u).trans ((writeRecords_lock hw).trans hl)
      generalize recordsWritten (fusesRead s) u = v at hboot hlock
      cases hr : v.lockRefusal with
      | some c =>
        rw [tryLock_refused hr] at hboot
        rw [hboot]
        exact lockSound_of_unlocked hlock
      | none =>
        rw [tryLock_locks hr] at hboot
        rw [hboot]
        exact fun _ => (bootFremund_lockRefusal _).trans ((lockRefusal_congr rfl rfl rfl rfl).trans hr)

theorem execFuseAck_lockSound (w : BitVec 32) (hl : s.prot.lock = false) : ∃ t, execFuseAck w s = .next t ∧ t.lockSound := by
  unfold execFuseAck
  dsimp only
  split
  · exact ⟨_, rfl, lockSound_of_unlocked hl⟩
  split
  · exact ⟨_, rfl, lockSound_of_unlocked hl⟩
  split
  · exact ⟨_, rfl, runBoot_lockSound hl⟩
  · exact ⟨_, rfl, lockSound_of_unlocked hl⟩

/-! ### Every command -/

/-- A reset clears LOCK, or does nothing where the block does not take it up (R510, R615). -/
theorem exec_resets_lockSound (c : Instr) (hr : resetting c = true) (hs : s.lockSound) : ∃ t, exec c s = .next t ∧ t.lockSound := by
  cases c
  case resetEntry =>
    change ∃ t, execResetEntry s = .next t ∧ t.lockSound
    unfold execResetEntry
    split
    · exact ⟨_, rfl, hs⟩
    · exact ⟨_, rfl, lockSound_of_unlocked rfl⟩
  case supplyFailure n =>
    change ∃ t, execSupplyFailure n s = .next t ∧ t.lockSound
    unfold execSupplyFailure
    split
    · exact ⟨_, rfl, hs⟩
    · exact ⟨_, rfl, lockSound_of_unlocked rfl⟩
  case porAssert => exact ⟨_, rfl, lockSound_of_unlocked rfl⟩
  all_goals cases hr

theorem exec_lockSound (c : Instr) (hs : s.lockSound) : ∃ t, exec c s = .next t ∧ t.lockSound := by
  cases hr : resetting c with
  | true => exact exec_resets_lockSound c hr hs
  | false =>
    by_cases hb : ∃ w, c = .fuseAck w
    · obtain ⟨w, rfl⟩ := hb
      cases hl : s.prot.lock with
      | true =>
        obtain ⟨t, e, hview, hc⟩ := exec_locked (.fuseAck w) hl hr
        exact ⟨t, e, hs.of_lockedView hview hc⟩
      | false => exact execFuseAck_lockSound w hl
    · obtain ⟨t, e, m⟩ := exec_keeps_locked s c hr (fun w hw => hb ⟨w, hw⟩)
      exact ⟨t, e, hs.of_lockedView (lockedView_of_mask m) (cfg_of_mask m)⟩
end

/-- Settles O4: a reset clears LOCK, boot sets it once every check passes, and any other command leaves what the checks read
(`exec_lockSound`). -/
theorem lockedPassesChecks : Obligations.LockedPassesChecks := by
  intro s t hs ht
  cases hq : s.pending with
  | nil =>
    rw [step_idle hq] at ht
    cases ht
    exact hs
  | cons c rest =>
    rw [step_cons hq] at ht
    obtain ⟨u, e, hu⟩ := exec_lockSound (s := { s with pending := rest }) c (fun hl => hs hl)
    cases e.symm.trans ht
    exact hu

end Sys2Proof.Machine
end

section
/-! PROOF. Alignment markers (R642): the symbols of a marker, and what a receiver's watch of a lane says of alignment and of lock. -/

namespace Sys2Proof.Machine

/-! ### The marker of a lane -/

theorem markerOf_symbols (l : Nat) : (markerOf l).length = 8 ∧ (markerOf l).take 6 = [0x2A5, 0x15A, 0x2A5, 0x15A, 0x2A5, 0x15A]
    ∧ (markerOf l)[6]? = some (0x3C0 + BitVec.ofNat 10 l) ∧ (markerOf l)[7]? = some (~~~(0x3C0 + BitVec.ofNat 10 l)) := ⟨rfl, rfl, rfl, rfl⟩

/-- The symbol that names a lane. -/
theorem laneSymbol_toNat {l : Nat} (h : l < 8) : (0x3C0 + BitVec.ofNat 10 l : BitVec 10).toNat = 0x3C0 + l := by
  have hbase : (0x3C0 : BitVec 10).toNat = 960 := rfl
  rw [BitVec.toNat_add, BitVec.toNat_ofNat, hbase]
  omega

/-- A symbol and its complement. -/
theorem toNat_add_not (x : BitVec 10) : x.toNat + (~~~x).toNat = 1023 := by
  have := x.isLt
  rw [BitVec.toNat_not]
  omega

/-! ### Watching a lane -/

theorem laneAligned_threeMarkers (ms : List (Nat × List (BitVec 10))) (l n d : Nat) :
    laneAligned ⟨true, ms ++ [(d, markerOf l), (16384, markerOf l), (16384, markerOf l)], n⟩ l = true := by
  simp [laneAligned]

theorem laneAligned_sees {x : LaneWatch} {l : Nat} (h : laneAligned x l = true) :
    x.lock = true ∧ 3 ≤ x.markers.length ∧ ∃ d, x.markers.getLast? = some (d, markerOf l) := by
  simp only [laneAligned, Bool.and_eq_true, decide_eq_true_eq, List.all_eq_true] at h
  obtain ⟨⟨⟨hlock, hlen⟩, hall⟩, -⟩ := h
  have hthree : 3 ≤ x.markers.length := by
    rw [List.length_drop] at hlen
    omega
  refine ⟨hlock, hthree, ?_⟩
  obtain ⟨y, hy⟩ : ∃ y, x.markers.getLast? = some y :=
    Option.isSome_iff_exists.1 (by rw [List.getLast?_isSome]; exact List.ne_nil_of_length_pos (by omega))
  have hmem : y ∈ x.markers.drop (x.markers.length - 3) := by
    refine List.mem_of_getLast? ?_
    rw [List.getLast?_drop, if_neg (by omega)]
    exact hy
  exact ⟨y.1, by rw [hy, ← hall y hmem]⟩

theorem laneLost_iff (x : LaneWatch) : laneLost x = true ↔ (x.lock = false ∨ 4 ≤ x.missing) := by
  simp [laneLost]

/-! ### The lanes of a port that align -/

/-- The bits of a sum of distinct powers of two, one for each place of a list that passes a test. -/
theorem sum_powers_bits {α : Type} (f : α → Nat → Bool) (ls : List α) (i : Nat) :
    ∃ n, ((ls.zipIdx i).map (fun x => b2n (f x.1 x.2) * 2 ^ x.2)).sum = 2 ^ i * n
      ∧ ∀ k, n.testBit k = (ls[k]?).any (fun x => f x (i + k)) := by
  induction ls generalizing i with
  | nil => exact ⟨0, rfl, fun k => by simp⟩
  | cons x ls ih =>
    obtain ⟨n, hsum, hbits⟩ := ih (i + 1)
    refine ⟨b2n (f x i) + 2 * n, ?_, fun k => ?_⟩
    · rw [List.zipIdx_cons, List.map_cons, List.sum_cons, hsum, Nat.pow_succ]
      ring
    · cases k with
      | zero =>
        cases hf : f x i <;> simp [b2n, hf]
      | succ k =>
        have hhalf : (b2n (f x i) + 2 * n) / 2 = n := by
          cases f x i
          · simp [b2n]
          · simp only [b2n, if_true]; omega
        rw [Nat.testBit_succ, hhalf, hbits, List.getElem?_cons_succ, Nat.add_right_comm, Nat.add_assoc i k 1]

theorem alignedLanes_bit (ls : List LaneWatch) {l : Nat} (h : l < 8) :
    (alignedLanes ls).getLsbD l = true ↔ ∃ x, ls[l]? = some x ∧ laneAligned x l = true := by
  obtain ⟨n, hsum, hbits⟩ := sum_powers_bits laneAligned (ls.take 8) 0
  rw [alignedLanes, hsum, BitVec.getLsbD_ofNat, Nat.pow_zero, Nat.one_mul, hbits, List.getElem?_take_of_lt h, Nat.zero_add]
  simp [h, Option.any_eq_true]

/-! ### Losing lock (R418) -/

/-- While no lane in use has lost lock, a port keeps its state. -/
theorem execPortLockLoss_inLock {s : State} {n : Nat} {w : LockWatch}
    (h : ∀ l x, w.lanes[l]? = some x → (s.port n).lanes.getLsbD l = true → laneLost x = false) : execPortLockLoss n w s = .next s := by
  have hnone : w.lanes.zipIdx.any (fun x => (s.port n).lanes.getLsbD x.2 && laneLost x.1) = false := by
    rw [List.any_eq_false]
    rintro ⟨x, l⟩ hx
    have hx := h l x (List.mem_zipIdx_iff_getElem?.1 hx)
    cases hl : (s.port n).lanes.getLsbD l
    · simp
    · simp [hx hl]
  rw [execPortLockLoss, hnone]
  rfl

/-- Settles O45: each clause by its lemma on the marker or on the watch of a lane. -/
theorem alignmentMarkers : Obligations.AlignmentMarkers := by
  unfold Obligations.AlignmentMarkers
  refine ⟨fun l hl => ?marker, laneAligned_threeMarkers, fun x l h => laneAligned_sees h, laneLost_iff,
    fun ls l hl => alignedLanes_bit ls hl, fun s n got ls h => ⟨s, execPortLockLoss_inLock h, rfl⟩⟩
  case marker =>
    obtain ⟨hlen, htake, hsix, hseven⟩ := markerOf_symbols l
    refine ⟨hlen, htake, fun x y hx hy => ?_⟩
    cases hsix.symm.trans hx
    cases hseven.symm.trans hy
    exact ⟨laneSymbol_toNat hl, toNat_add_not _⟩

end Sys2Proof.Machine
end

section
/-! PROOF. Link ports (R414 to R420, R450, R676): what sending frames leaves of every port, what a fence does to the frames of its port,
which items a port's retraining or lane remap queues, and which flits a port accepts. -/

namespace Sys2Proof.Machine

/-! ### What sending leaves of a port (R415, R416) -/

/-- A port without its frames to send, its flits sent and its counters. -/
def Port.unsent (q : Port) : Port := { q with out := [], sent := [], txSeq := 0, cnt := Port.reset.cnt }

/-- Every port but for what sending changes. -/
def State.unsent (s : State) : Nat → Port := fun n => (s.port n).unsent

section
variable {s t : State}

theorem unsent_of_ports (h : t.ports = s.ports) : t.unsent = s.unsent := by
  unfold State.unsent State.port
  rw [h]

theorem unsent_of_mask (h : t.mask 0x3ffffdffff#38 = s.mask 0x3ffffdffff#38) : t.unsent = s.unsent :=
  unsent_of_ports (same_of_mask h .ports (by decide))

theorem unsent_setPort (s : State) (n : Nat) {v : Port} (h : v.unsent = (s.port n).unsent) : (s.setPort n v).unsent = s.unsent := by
  funext k
  by_cases e : k = n
  · subst e; rw [State.unsent, State.port_setPort_same, h, State.unsent]
  · rw [State.unsent, State.port_setPort_other _ _ _ e, State.unsent]

theorem unsent_modPort (s : State) (n : Nat) {f : Port → Port} (h : (f (s.port n)).unsent = (s.port n).unsent) :
    (s.modPort n f).unsent = s.unsent := unsent_setPort s n h

theorem withHealth_unsent (f : State → State) (s : State) : (withHealth f s).unsent = (f s).unsent :=
  withHealth_view (F := State.unsent) (fun _ _ _ => unsent_of_mask (postAll_mask (by decide) _ _ _)) f s
end

section
variable (s : State)

theorem lkCount_unsent (n i w k : Nat) : (lkCount n i w k s).unsent = s.unsent := by
  have hcount (c : LkCounters) : (s.modPort n (fun q => { q with cnt := c })).unsent = s.unsent := unsent_modPort s n rfl
  unfold lkCount
  exact view_ite State.unsent ((unsent_of_mask (satOwned_mask (by decide) _ _ _)).trans (hcount _)) (hcount _)

theorem countFrameBytes_unsent (n dir k : Nat) : (countFrameBytes n dir k s).unsent = s.unsent := by
  unfold countFrameBytes
  exact view_ite State.unsent (unsent_modPort s n rfl) ((lkCount_unsent _ _ _ _ _).trans (unsent_modPort s n rfl))

theorem pump_unsent (n k : Nat) : (pump n k s).unsent = s.unsent := by
  induction k generalizing s with
  | zero => rfl
  | succ k ih =>
    unfold pump
    dsimp only
    split
    · rfl
    · exact view_ite State.unsent ((ih _).trans ((countFrameBytes_unsent _ _ _ _).trans (unsent_setPort s n rfl))) rfl

theorem queueFrame_unsent (n toward : Nat) (f : Frame) : (queueFrame n toward f s).unsent = s.unsent :=
  (pump_unsent _ _ _).trans (unsent_modPort s n rfl)

theorem sendToward_unsent (p node : Nat) (f : Frame) : (sendToward p node f s).unsent = s.unsent := by
  have hreport (code : Nat) (t : State) : (reportRoute p code node t).unsent = t.unsent :=
    unsent_of_mask (reportRoute_mask (by decide) _ _ _ _)
  unfold sendToward
  refine view_ite State.unsent (hreport _ _) ?_
  split
  · exact (queueFrame_unsent _ _ _ _).trans rfl
  · exact (hreport _ _).trans rfl

theorem sendAll_unsent (p : Nat) (l : List (Nat × Frame)) : (l.foldl (fun t x => sendToward p x.1 x.2 t) s).unsent = s.unsent := by
  refine view_foldl State.unsent (fun t x => ?_) l s
  exact sendToward_unsent t p x.1 x.2

theorem portFlow_unsent (n : Nat) : (portFlow n s).unsent = s.unsent := by
  unfold portFlow
  dsimp only
  split
  · exact (sendAll_unsent _ _ _).trans ((unsent_of_ports rfl).trans (pump_unsent _ _ _))
  · exact pump_unsent _ _ _

/-- A port that comes UP, but for what sending changes. -/
theorem portUp_unsent (n : Nat) (lanes : BitVec 8) : ((portUp n lanes s).port n).unsent = ((s.port n).raised lanes).unsent := by
  have hflow := congrFun ((portFlow_unsent _ n).trans (withHealth_unsent (fun s => s.modPort n (fun q => q.raised lanes)) s)) n
  rw [State.unsent, State.unsent, State.port_modPort_same] at hflow
  exact hflow
end

/-! ### A port that carries no frames (R420, R423) -/

section
variable {s : State} {n : Nat}

theorem ports_satOwned (p : Option Nat) (off : Nat) (s : State) : (satOwned p off s).ports = s.ports :=
  same_of_mask (w := 0x700010#38) (satOwned_mask (by decide) p off s) .ports (by decide)

theorem port_of_ports {t : State} (h : t.ports = s.ports) (n : Nat) : t.port n = s.port n := by
  rw [State.port, State.port, h]

theorem lkCount_port_other {m : Nat} (h : n ≠ m) (i w k : Nat) (s : State) : (lkCount m i w k s).port n = s.port n := by
  unfold lkCount
  dsimp only
  split
  · exact (port_of_ports (ports_satOwned _ _ _) n).trans (State.port_modPort_other _ _ _ h)
  · exact State.port_modPort_other _ _ _ h

theorem countFrameBytes_port_other {m : Nat} (h : n ≠ m) (dir k : Nat) (s : State) : (countFrameBytes m dir k s).port n = s.port n := by
  unfold countFrameBytes
  exact view_ite (fun t => t.port n) (State.port_modPort_other _ _ _ h)
    ((lkCount_port_other h _ _ _ _).trans (State.port_modPort_other _ _ _ h))

theorem pump_port_other {m : Nat} (h : n ≠ m) (k : Nat) (s : State) : (pump m k s).port n = s.port n := by
  induction k generalizing s with
  | zero => rfl
  | succ k ih =>
    unfold pump
    dsimp only
    split
    · rfl
    · split
      · exact (ih _).trans ((countFrameBytes_port_other h _ _ _).trans (State.port_setPort_other _ _ _ h))
      · rfl

theorem queueFrame_port_other {m : Nat} (h : n ≠ m) (toward : Nat) (f : Frame) (s : State) : (queueFrame m toward f s).port n = s.port n :=
  (pump_port_other h _ _).trans (State.port_modPort_other _ _ _ h)

/-- The next port toward a node carries frames. -/
theorem nextPort_carries {p node m : Nat} (h : s.nextPort p node = some m) : (s.port m).state.carries = true := by
  have hmem : m ∈ s.usablePorts p (kget 0 (s.part p).plane.routes node) := by
    unfold State.nextPort at h
    dsimp only at h
    split at h
    case h_1 x hx => exact Option.some.inj h ▸ List.mem_of_find?_eq_some hx
    case h_2 => exact List.mem_of_mem_head? h
  simp only [State.usablePorts, List.mem_filter, Bool.and_eq_true] at hmem
  exact hmem.2.2

/-- A frame sent leaves a port that carries none as it is. -/
theorem sendToward_port_idle (h : (s.port n).state.carries = false) (p node : Nat) (f : Frame) :
    (sendToward p node f s).port n = s.port n := by
  have hreport (code : Nat) (t : State) : (reportRoute p code node t).port n = t.port n :=
    port_of_ports (same_of_mask (w := 0x700010#38) (reportRoute_mask (by decide) p code node t) .ports (by decide)) n
  unfold sendToward
  split
  · exact hreport _ _
  split
  next m hm =>
    have hne : n ≠ m := by
      rintro rfl
      rw [nextPort_carries hm] at h
      cases h
    exact queueFrame_port_other hne _ _ _
  · exact hreport _ _

theorem sendAll_port_idle (h : (s.port n).state.carries = false) (p : Nat) (l : List (Nat × Frame)) :
    (l.foldl (fun t x => sendToward p x.1 x.2 t) s).port n = s.port n := by
  induction l generalizing s with
  | nil => rfl
  | cons x l ih =>
    have hx := sendToward_port_idle h p x.1 x.2
    rw [List.foldl_cons, ih (by rw [hx]; exact h), hx]

/-- A port with its frames moved away. -/
def Port.emptied (q : Port) : Port := { q with sent := [], out := [], replays := 0, rxBytes := [] }

/-- The frames of a port out of service go out over the remaining ports. -/
theorem resend_port (h : (s.port n).state.carries = false) (got : Nat) : (resend n got s).port n = (s.port n).emptied := by
  have hset : (s.setPort n (s.port n).emptied).port n = (s.port n).emptied := State.port_setPort_same ..
  unfold resend
  dsimp only
  split
  · exact hset
  · refine (sendAll_port_idle (s := s.setPort n (s.port n).emptied) ?_ _ _).trans hset
    rw [hset]
    exact h
end

/-! ### Items queued for a port (R71, R418, R419) -/

section
variable (s : State) (it : Intrusive)

theorem portOwner_lt {n p : Nat} (h : s.portOwner n = some p) : p < 4 := by
  unfold State.portOwner at h
  split at h
  · cases h
    exact Nat.mod_lt _ (by decide)
  · cases h

/-- An item of a port is queued with the port's owner, or with a partition that exists. -/
theorem portPart_lt {n : Nat} (h : it = .port n ∨ it = .laneRemap n) : ((s.itemUsers it).head?).getD (s.liveParts.head?.getD 0) < 4 := by
  refine head?_getD_lt (fun p hp => ?_) (head?_getD_lt (fun _ => mem_liveParts_lt) (by decide))
  have howner : s.portOwner n = some p := by rcases h with rfl | rfl <;> simpa [State.itemUsers] using hp
  exact portOwner_lt s howner

theorem itemQueued_queuePortItem {n : Nat} (h : it = .port n ∨ it = .laneRemap n) : (queueItem it s).itemQueued it = true :=
  itemQueued_queueItem s (portPart_lt s it h)

/-- Queueing an item of a port changes of the port only that its retraining waits. -/
theorem port_queueItem {n : Nat} (h : it = .port n ∨ it = .laneRemap n) :
    ∃ b, (queueItem it s).port n = { s.port n with retrainQueued := b } := by
  unfold queueItem
  split
  · exact ⟨_, rfl⟩
  · rcases h with rfl | rfl
    · exact ⟨true, State.port_modPort_same ..⟩
    · exact ⟨true, State.port_modPort_same ..⟩
end

/-! ### Fences (R417, R418, R420) -/

/-- Port `n` is fenced for `cause`, its frames moved away. -/
def State.portFenced (t : State) (n cause : Nat) : Prop :=
  (t.port n).state = .fenced ∧ (t.port n).cause = cause ∧ (t.port n).sent = [] ∧ (t.port n).out = []

section
variable {s : State} {n : Nat} (hc : (s.port n).state.carries = true) (got : Nat)
include hc

omit hc in
/-- The port once its fence has begun: out of service, and without frames. -/
theorem fenceBegun_port (cause : Nat) : (resend n got (withHealth (fun s => s.modPort n (fun q => { q with
    state := .fenced, cause := cause, relocking := decide (cause = 1), discarding := false })) s)).port n
      = { s.port n with state := .fenced, cause := cause, relocking := decide (cause = 1), discarding := false, sent := [], out := [],
                        replays := 0, rxBytes := [] } := by
  have hport := withHealth_view (F := fun t => t.port n) (fun code payload t => port_of_ports
    (same_of_mask (w := 0x700000#38) (postAll_mask (by decide) code payload t) .ports (by decide)) n)
    (fun s => s.modPort n (fun q => { q with
      state := .fenced, cause := cause, relocking := decide (cause = 1), discarding := false })) s
  rw [State.port_modPort_same] at hport
  rw [resend_port (by rw [hport]; rfl), hport]
  rfl

theorem fencePort_lock : (fencePort n 1 got s).portFenced n 1 ∧ ((fencePort n 1 got s).port n).relocking = true := by
  unfold fencePort State.portFenced
  rw [if_neg (by rw [hc]; decide)]
  dsimp only
  rw [if_pos rfl, fenceBegun_port got 1]
  exact ⟨⟨rfl, rfl, rfl, rfl⟩, rfl⟩

/-- A fence for a cause other than LOCK queues its item. -/
theorem fencePort_queues {cause : Nat} (h : cause ≠ 1) (it : Intrusive) (hit : it = if cause = 4 then .laneRemap n else .port n) :
    (fencePort n cause got s).portFenced n cause ∧ (fencePort n cause got s).itemQueued it = true := by
  have hport : it = .port n ∨ it = .laneRemap n := by
    rw [hit]
    split
    · exact .inr rfl
    · exact .inl rfl
  have hfence : fencePort n cause got s = queueItem it (resend n got (withHealth (fun s => s.modPort n (fun q => { q with
      state := .fenced, cause := cause, relocking := decide (cause = 1), discarding := false })) s)) := by
    unfold fencePort
    rw [if_neg (by rw [hc]; decide)]
    dsimp only
    rw [if_neg h, hit]
    split <;> rfl
  rw [hfence]
  refine ⟨?_, itemQueued_queuePortItem _ it hport⟩
  obtain ⟨b, hq⟩ := port_queueItem (resend n got (withHealth (fun s => s.modPort n (fun q => { q with
      state := .fenced, cause := cause, relocking := decide (cause = 1), discarding := false })) s)) it hport
  unfold State.portFenced
  rw [hq, fenceBegun_port got cause]
  exact ⟨rfl, rfl, rfl, rfl⟩
end

/-! ### Fence causes (R418, R419) -/

section
variable {s : State} {n : Nat} (hc : (s.port n).state.carries = true) (got : Nat)
include hc

theorem portLockLoss_fences {lanes : List LaneWatch}
    (h : ∃ l x, lanes[l]? = some x ∧ (s.port n).lanes.getLsbD l = true ∧ laneLost x = true) :
    completes (.portLockLoss n ⟨got, lanes⟩) s (fun t => t.portFenced n 1 ∧ (t.port n).relocking = true) := by
  obtain ⟨l, x, hx, hl, hlost⟩ := h
  have hany : lanes.zipIdx.any (fun x => (s.port n).lanes.getLsbD x.2 && laneLost x.1) = true :=
    List.any_eq_true.2 ⟨(x, l), List.mem_zipIdx_iff_getElem?.2 hx, by simp [hl, hlost]⟩
  exact ⟨_, congrArg Host.Outcome.next (if_pos hany), fencePort_lock hc got⟩

theorem portPeerFence_fences :
    completes (.portPeerFence n got) s (fun t => t.portFenced n 5 ∧ t.itemQueued (.port n) = true) :=
  ⟨_, rfl, fencePort_queues hc got (by decide) _ rfl⟩

theorem portRetryLimit_fences (h : 16 ≤ (s.port n).replays) :
    completes (.portRetryLimit n got) s (fun t => t.portFenced n 2 ∧ t.itemQueued (.port n) = true) :=
  ⟨_, congrArg Host.Outcome.next (if_pos h), fencePort_queues hc got (by decide) _ rfl⟩

theorem portFecLimit_fences (h : 16 < (s.port n).uncInBar) :
    completes (.portFecLimit n got) s (fun t => t.portFenced n 3 ∧ t.itemQueued (.port n) = true) :=
  ⟨_, congrArg Host.Outcome.next (if_pos h), fencePort_queues hc got (by decide) _ rfl⟩

theorem linkCalibration_lane {low : BitVec 8} (h0 : low &&& (s.port n).lanes ≠ 0) (hall : low &&& (s.port n).lanes ≠ (s.port n).lanes) :
    completes (.linkCalibration n low got) s (fun t => t.portFenced n 4 ∧ t.itemQueued (.laneRemap n) = true) := by
  refine ⟨fencePort n 4 got s, ?_, fencePort_queues hc got (by decide) _ rfl⟩
  change execLinkCalibration n low got s = _
  rw [execLinkCalibration, if_neg h0, if_neg hall]

theorem linkCalibration_margin {low : BitVec 8} (h0 : low &&& (s.port n).lanes ≠ 0) (hall : low &&& (s.port n).lanes = (s.port n).lanes) :
    completes (.linkCalibration n low got) s (fun t => t.portFenced n 6 ∧ t.itemQueued (.port n) = true) := by
  refine ⟨fencePort n 6 got s, ?_, fencePort_queues hc got (by decide) _ rfl⟩
  change execLinkCalibration n low got s = _
  rw [execLinkCalibration, if_neg h0, if_pos hall]

omit hc in
theorem linkCalibration_clear {low : BitVec 8} (h0 : low &&& (s.port n).lanes = 0) : completes (.linkCalibration n low got) s (fun t => t = s) :=
  ⟨s, congrArg Host.Outcome.next (if_pos h0), rfl⟩
end

/-! ### Relocking (R417, R418) -/

section
variable {s : State} {n : Nat} (hf : (s.port n).state = .fenced) (hr : (s.port n).relocking = true)
include hf hr

theorem execPortRelock_raises : execPortRelock n s = .next (portUp n (s.port n).lanes s) := by
  rw [execPortRelock, if_pos ⟨hf, hr⟩]

omit hf hr in
theorem relocking_of_unsent {a b : Port} (h : a.unsent = b.unsent) : a.relocking = b.relocking := (congrArg Port.relocking h :)

theorem portRelock_comesUp : completes (.portRelock n) s (fun t =>
    (t.port n).state = .up ∧ (t.port n).lanes = (s.port n).lanes ∧ (t.port n).relocking = false) := by
  obtain ⟨hstate, hlanes, -⟩ := state_of_link (portUp_link s n (s.port n).lanes)
  exact ⟨_, execPortRelock_raises hf hr, hstate, hlanes, relocking_of_unsent (portUp_unsent s n (s.port n).lanes)⟩

theorem portRelockTimeout_staysFenced : completes (.portRelockTimeout n) s (fun t =>
    (t.port n).state = .fenced ∧ (t.port n).relocking = false ∧ t.itemQueued (.port n) = true) := by
  obtain ⟨b, hq⟩ := port_queueItem (s.setPort n { s.port n with relocking := false }) (.port n) (.inl rfl)
  refine ⟨_, congrArg Host.Outcome.next (if_pos ⟨hf, hr⟩), ?_, ?_, itemQueued_queuePortItem _ _ (.inl rfl)⟩
  · rw [hq, State.port_setPort_same]
    exact hf
  · rw [hq, State.port_setPort_same]
end

/-! ### Training (R642, R676) -/

section
variable (s : State) (n : Nat) {a : BitVec 8}

theorem trainResult_low (hlow : a &&& 0x0F = 0x0F) (hhigh : a &&& 0xF0 ≠ 0xF0) :
    trainResult n a s = queueItem (.laneRemap n) (portUp n 0x0F s) := by
  rw [trainResult, decide_eq_true hlow, decide_eq_false hhigh, if_neg (by decide), if_pos rfl]

theorem trainResult_high (hlow : a &&& 0x0F ≠ 0x0F) (hhigh : a &&& 0xF0 = 0xF0) :
    trainResult n a s = queueItem (.laneRemap n) (portUp n 0xF0 s) := by
  rw [trainResult, decide_eq_false hlow, decide_eq_true hhigh, if_neg (by decide), if_neg (by decide), if_pos rfl]

theorem trainResult_neither (hlow : a &&& 0x0F ≠ 0x0F) (hhigh : a &&& 0xF0 ≠ 0xF0) (h0 : a ≠ 0) :
    trainResult n a s = portFailed n s := by
  rw [trainResult, decide_eq_false hlow, decide_eq_false hhigh, if_neg (by decide), if_neg (by decide), if_neg (by decide), if_neg h0]
end

section
variable {s : State} {n : Nat} (ht : (s.port n).state = .training) {lanes : List LaneWatch}
include ht

theorem execPortTrainRetry_trains : execPortTrainRetry n lanes s = .next (trainResult n (alignedLanes lanes) s) :=
  congrArg Host.Outcome.next (if_pos ht)

theorem portTrainRetry_none (h : alignedLanes lanes = 0) : completes (.portTrainRetry n lanes) s (fun t => t = s) := by
  refine ⟨_, execPortTrainRetry_trains ht, ?_⟩
  rw [h, trainResult, if_neg (by decide), if_neg (by decide), if_neg (by decide), if_pos rfl]

theorem portTrainRetry_all (h : alignedLanes lanes = 0xFF) :
    completes (.portTrainRetry n lanes) s (fun t => (t.port n).state = .up ∧ (t.port n).width = 8) := by
  refine ⟨_, execPortTrainRetry_trains ht, ?_⟩
  rw [h, trainResult_allLanes]
  obtain ⟨hstate, -, hwidth⟩ := state_of_link (portUp_link s n 0xFF)
  exact ⟨hstate, hwidth⟩

omit ht in
/-- A port that comes up on one half has a remap queued. -/
theorem portUp_half (m : BitVec 8) (hm : laneCount m = 4) : ((queueItem (.laneRemap n) (portUp n m s)).port n).state = .up
    ∧ ((queueItem (.laneRemap n) (portUp n m s)).port n).width = 4
    ∧ (queueItem (.laneRemap n) (portUp n m s)).itemQueued (.laneRemap n) = true := by
  have hlink := (link_of_links (queueItem_laneRemap_links n (portUp n m s)) n).trans (portUp_link s n m)
  obtain ⟨hstate, -, hwidth⟩ := state_of_link hlink
  exact ⟨hstate, hwidth.trans hm, itemQueued_queuePortItem _ _ (.inr rfl)⟩

theorem portTrainRetry_half (h : alignedLanes lanes ≠ 0xFF)
    (hhalf : alignedLanes lanes &&& 0x0F = 0x0F ∨ alignedLanes lanes &&& 0xF0 = 0xF0) : completes (.portTrainRetry n lanes) s (fun t =>
      (t.port n).state = .up ∧ (t.port n).width = 4 ∧ t.itemQueued (.laneRemap n) = true) := by
  refine ⟨_, execPortTrainRetry_trains ht, ?_⟩
  have hboth : ∀ a : BitVec 8, a &&& 0x0F = 0x0F → a &&& 0xF0 = 0xF0 → a = 0xFF := by decide
  by_cases hlow : alignedLanes lanes &&& 0x0F = 0x0F
  · rw [trainResult_low s n hlow fun e => h (hboth _ hlow e)]
    exact portUp_half 0x0F (by decide)
  · rw [trainResult_high s n hlow (hhalf.resolve_left hlow)]
    exact portUp_half 0xF0 (by decide)

theorem portTrainRetry_fails (h0 : alignedLanes lanes ≠ 0) (hlow : alignedLanes lanes &&& 0x0F ≠ 0x0F)
    (hhigh : alignedLanes lanes &&& 0xF0 ≠ 0xF0) : completes (.portTrainRetry n lanes) s (fun t =>
      (t.port n).state = .failed ∧ t.health.replaceCause.getLsbD 2 = true) := by
  refine ⟨portFailed n s, ?_, portFailed_state s n, portFailed_cause s n⟩
  exact (execPortTrainRetry_trains ht).trans (congrArg Host.Outcome.next (trainResult_neither s n hlow hhigh h0))
end

theorem trainingFrame_notes {s : State} {n : Nat} (h : (s.port n).state = .training ∨ (s.port n).state.carries = true) (node : Nat) (m : Bool) :
    completes (.trainingFrame n node m) s (fun t =>
      t.port n = { s.port n with peer := node % 1024, master := m } ∧ ∀ k, k ≠ n → t.port k = s.port k) :=
  ⟨s.setPort n { s.port n with peer := node % 1024, master := m }, congrArg Host.Outcome.next (if_pos h), State.port_setPort_same ..,
    fun _ hk => State.port_setPort_other _ _ _ hk⟩

/-! ### Flits (R413 to R416) -/

section
variable {s : State} {n : Nat}

/-- What a port has received. -/
def Port.received (q : Port) : BitVec 12 × List Byte := (q.rxSeq, q.rxBytes)

theorem received_of_unsent {t : State} (h : t.unsent = s.unsent) (n : Nat) : (t.port n).received = (s.port n).received :=
  (congrArg Port.received (congrFun h n) :)

/-- The block once the uncorrectable codewords of a flit are counted (R418, R452). -/
def countUnc (n : Nat) (f : Flit) (s : State) : State :=
  if f.newUnc = 0 then s else lkCount n 3 16 f.newUnc (s.modPort n (fun q => { q with uncInBar := q.uncInBar + f.newUnc }))

theorem countUnc_received (f : Flit) : ((countUnc n f s).port n).received = (s.port n).received := by
  unfold countUnc
  split
  · rfl
  · rw [received_of_unsent (lkCount_unsent _ _ _ _ _), State.port_modPort_same]
    rfl

theorem countUnc_sent (f : Flit) : ((countUnc n f s).port n).sent = (s.port n).sent := by
  have htraffic : (countUnc n f s).traffic = s.traffic :=
    view_ite State.traffic rfl ((lkCount_traffic _ _ _ _ _).trans (traffic_modPort s n rfl rfl))
  exact congrArg Prod.snd (congrFun htraffic n)

theorem takeAck_received (ack : BitVec 12) (nak : Bool) : ((takeAck n ack nak s).port n).received = (s.port n).received := by
  have hset (q : Port) (h : q.received = (s.port n).received) : ((s.setPort n q).port n).received = (s.port n).received := by
    rw [State.port_setPort_same, h]
  unfold takeAck
  dsimp only
  split
  · rw [received_of_unsent (lkCount_unsent _ _ _ _ _)]
    refine hset _ ?_
    split <;> rfl
  · refine hset _ ?_
    split <;> rfl

theorem seq_eq_iff (x : BitVec 12) (w : Nat) : BitVec.ofNat 12 (fld w 52 12) = x ↔ fld w 52 12 = x.toNat := by
  have hlt : fld w 52 12 < 2 ^ 12 := Nat.mod_lt _ (by decide)
  rw [← BitVec.toNat_inj, BitVec.toNat_ofNat, Nat.mod_eq_of_lt hlt]

/-- A good flit out of SEQ order is not accepted. -/
theorem takeContent_outOfOrder {f : Flit} (h : fld f.trailer.toNat 52 12 ≠ (s.port n).rxSeq.toNat) : takeContent n f s = s :=
  if_pos (fun e => h ((seq_eq_iff _ _).1 e))

/-- A good flit in SEQ order is accepted: its content joins the frame in progress, unless it carries none. -/
theorem takeContent_inOrder {f : Flit} (h : fld f.trailer.toNat 52 12 = (s.port n).rxSeq.toNat) :
    ((takeContent n f s).port n).unsent = ({ s.port n with
      rxSeq := (s.port n).rxSeq + 1, discarding := false
      rxBytes := if f.trailer.getLsbD 32 then (s.port n).rxBytes else (takeFrames 64 ((s.port n).rxBytes ++ f.content)).2 } : Port).unsent := by
  unfold takeContent
  dsimp only
  rw [if_neg (fun e => e ((seq_eq_iff _ _).2 h))]
  by_cases hfill : f.trailer.getLsbD 32 = true
  · rw [if_pos hfill, if_pos hfill, State.port_setPort_same]
  · rw [if_neg hfill, if_neg hfill]
    refine (congrFun (countFrameBytes_unsent _ n 1 _) n).trans ?_
    rw [State.unsent, State.port_setPort_same]

/-- The block once a good flit has acknowledged. -/
def acknowledges (n : Nat) (f : Flit) (s : State) : State :=
  takeAck n (BitVec.ofNat 12 (fld f.trailer.toNat 40 12)) (f.trailer.getLsbD 33) (countUnc n f s)

theorem acknowledges_received (f : Flit) : ((acknowledges n f s).port n).received = (s.port n).received :=
  (takeAck_received _ _).trans (countUnc_received f)

variable (hc : (s.port n).state.carries = true) {f : Flit}
include hc

theorem execFlitReceive_bad (h : flitOk f = false) :
    execFlitReceive n f s = .next ((countUnc n f s).modPort n (fun q => { q with discarding := true })) := by
  rw [execFlitReceive, if_neg (by rw [hc]; decide)]
  dsimp only
  rw [if_pos (by rw [h]; decide)]
  rfl

theorem execFlitReceive_good (h : flitOk f = true) : ∃ t, execFlitReceive n f s = .next t
    ∧ (t.port n).unsent = ((takeContent n f (acknowledges n f s)).port n).unsent := by
  refine ⟨pump n ((takeContent n f (acknowledges n f s)).port n).out.length (takeContent n f (acknowledges n f s)), ?_,
    congrFun (pump_unsent _ _ _) n⟩
  rw [execFlitReceive, if_neg (by rw [hc]; decide)]
  dsimp only
  rw [if_neg (by rw [h]; decide)]
  rfl

theorem flitReceive_bad (h : flitOk f = false) : completes (.flitReceive n f) s (fun t => (t.port n).discarding = true
    ∧ (t.port n).rxSeq = (s.port n).rxSeq ∧ (t.port n).rxBytes = (s.port n).rxBytes ∧ (t.port n).sent = (s.port n).sent) := by
  obtain ⟨hseq, hbytes⟩ := Prod.mk.inj (countUnc_received (s := s) (n := n) f)
  refine ⟨_, execFlitReceive_bad hc h, ?_⟩
  dsimp only
  rw [State.port_modPort_same]
  exact ⟨rfl, hseq, hbytes, countUnc_sent f⟩

theorem flitReceive_outOfOrder (h : flitOk f = true) (hseq : fld f.trailer.toNat 52 12 ≠ (s.port n).rxSeq.toNat) :
    completes (.flitReceive n f) s (fun t => (t.port n).rxSeq = (s.port n).rxSeq ∧ (t.port n).rxBytes = (s.port n).rxBytes) := by
  obtain ⟨t, e, ht⟩ := execFlitReceive_good hc h
  have hrec := acknowledges_received (s := s) (n := n) f
  have hsame := (Prod.mk.inj hrec).1
  rw [takeContent_outOfOrder (by rwa [hsame])] at ht
  exact ⟨t, e, Prod.mk.inj ((congrArg Port.received ht :).trans hrec)⟩

theorem flitReceive_inOrder (h : flitOk f = true) (hseq : fld f.trailer.toNat 52 12 = (s.port n).rxSeq.toNat) :
    completes (.flitReceive n f) s (fun t => (t.port n).rxSeq = (s.port n).rxSeq + 1 ∧ (t.port n).discarding = false
      ∧ (t.port n).rxBytes = if f.trailer.getLsbD 32 then (s.port n).rxBytes else (takeFrames 64 ((s.port n).rxBytes ++ f.content)).2) := by
  obtain ⟨t, e, ht⟩ := execFlitReceive_good hc h
  obtain ⟨hnext, hbytes⟩ := Prod.mk.inj (acknowledges_received (s := s) (n := n) f)
  rw [takeContent_inOrder (by rwa [hnext]), hnext, hbytes] at ht
  exact ⟨t, e, (congrArg Port.rxSeq ht :), (congrArg Port.discarding ht :), (congrArg Port.rxBytes ht :)⟩
end

/-- Settles O44: the commands of a port by its state, each from its lemma. -/
theorem linkPorts : Obligations.LinkPorts := by
  unfold Obligations.LinkPorts
  intro s n got q fenced
  exact ⟨fun hc => ⟨fun lanes h => portLockLoss_fences hc got h, portPeerFence_fences hc got, portRetryLimit_fences hc got,
      portFecLimit_fences hc got, fun low => linkCalibration_lane hc got, fun low => linkCalibration_margin hc got,
      fun low => linkCalibration_clear got⟩,
    fun hf hr => ⟨portRelock_comesUp hf hr, portRelockTimeout_staysFenced hf hr⟩,
    fun ht lanes => ⟨portTrainRetry_none ht, portTrainRetry_all ht, portTrainRetry_half ht, portTrainRetry_fails ht⟩,
    trainingFrame_notes,
    fun hc f => ⟨flitReceive_bad hc, flitReceive_outOfOrder hc, flitReceive_inOrder hc⟩⟩

end Sys2Proof.Machine
end

section
/-! PROOF. Chain reductions (R443 to R446): the running value of an element is exact whatever the order of its partials, a row whose RS
disagrees becomes zeros, and what a segment done once leaves of the chains, the credits and the counter of RS mismatches. -/

namespace Sys2Proof.Machine

/-! ### Running elements (R444) -/

/-- The value of a running element. -/
def chainValue (a : Int × Int) : Int := a.1 * 2 ^ 128 + a.2

/-- The low part of a running element lies in the range of a signed 128-bit word. -/
def chainInRange (a : Int × Int) : Prop := -(2 ^ 127) ≤ a.2 ∧ a.2 < 2 ^ 127

section
variable {a b : Int × Int}

/-- A running element is given by its value. -/
theorem chainValue_inj (ha : chainInRange a) (hb : chainInRange b) (h : chainValue a = chainValue b) : a = b := by
  obtain ⟨ha1, ha2⟩ := ha
  obtain ⟨hb1, hb2⟩ := hb
  unfold chainValue at h
  exact Prod.ext (by omega) (by omega)

theorem chainAdd_exact (ha : chainInRange a) {p : Int} (hp : -(2 ^ 127) ≤ p ∧ p < 2 ^ 127) :
    chainInRange (chainAdd a p) ∧ chainValue (chainAdd a p) = chainValue a + p := by
  obtain ⟨ha1, ha2⟩ := ha
  unfold chainInRange chainValue chainAdd
  dsimp only
  split
  · exact ⟨by dsimp only; omega, by dsimp only; omega⟩
  split
  · exact ⟨by dsimp only; omega, by dsimp only; omega⟩
  · exact ⟨by dsimp only; omega, by dsimp only; omega⟩

theorem foldl_chainAdd_exact {ps : List Int} (hps : ∀ x ∈ ps, -(2 ^ 127) ≤ x ∧ x < 2 ^ 127) (ha : chainInRange a) :
    chainInRange (ps.foldl chainAdd a) ∧ chainValue (ps.foldl chainAdd a) = chainValue a + ps.sum := by
  induction ps generalizing a with
  | nil => simpa using ha
  | cons p ps ih =>
    obtain ⟨hp, hps⟩ := List.forall_mem_cons.1 hps
    obtain ⟨hr, hv⟩ := chainAdd_exact ha hp
    obtain ⟨hr', hv'⟩ := ih hps hr
    exact ⟨hr', by rw [List.foldl_cons, hv', hv, List.sum_cons, Int.add_assoc]⟩

theorem foldl_chainAdd_perm {ps qs : List Int} (hps : ∀ x ∈ ps, -(2 ^ 127) ≤ x ∧ x < 2 ^ 127) (ha : chainInRange a) (h : ps.Perm qs) :
    qs.foldl chainAdd a = ps.foldl chainAdd a := by
  obtain ⟨hr, hv⟩ := foldl_chainAdd_exact hps ha
  obtain ⟨hr', hv'⟩ := foldl_chainAdd_exact (fun x hx => hps x (h.mem_iff.2 hx)) ha
  exact chainValue_inj hr' hr (by rw [hv, hv', h.sum_eq])

/-- The total of an element is its value, saturated. -/
theorem chainTotal_saturates (a : Int × Int) : (chainTotal a).1 = max (-(2 ^ 127)) (min (2 ^ 127 - 1) (chainValue a))
    ∧ ((chainTotal a).2 = true ↔ (chainTotal a).1 ≠ chainValue a) := by
  unfold chainTotal saturate chainValue accMax accMin
  split
  · exact ⟨by dsimp only; omega, by simp only [true_iff]; omega⟩
  split
  · exact ⟨by dsimp only; omega, by simp only [true_iff]; omega⟩
  · exact ⟨by dsimp only; omega, by simp⟩
end

/-- A row with a partial whose RS disagrees (R445). -/
theorem chainRow_mismatch {r : ChainRow} {ps : List Partial} (h : ∃ q ∈ ps, q.rs ≠ r.rs) :
    chainRow true (some r) ps = ({ r with acc := r.acc.map (fun _ => (0, 0)) }, flInv, true) := by
  have hany : ps.any (fun q => decide (q.rs ≠ r.rs)) = true := by simpa [List.any_eq_true] using h
  unfold chainRow
  dsimp only
  rw [if_pos rfl, if_pos hany]

/-! ### What sending data and writing results leave of a partition (R426, R429, R443) -/

section
variable (s : State)

theorem sendData_uncounted (p node : Nat) (h : BitVec 256) (data : List Byte) : (sendData p node h data s).uncounted = s.uncounted := by
  unfold sendData
  exact (sendToward_uncounted _ _ _ _).trans (view_ite State.uncounted (acctAdd_uncounted s p _ (by decide)) rfl)

theorem floodData_uncounted (p g : Nat) (but : List Nat) (h : BitVec 256) (data : List Byte) :
    (floodData p g but h data s).uncounted = s.uncounted := by
  unfold floodData
  split
  · rfl
  · exact view_foldl State.uncounted (fun t n => sendData_uncounted t p n h data) _ s

theorem sendAll_uncounted (p kind lb off xid : Nat) (mc : Bool) (dest : Nat) (bs : List Byte) :
    (sendAll p kind lb off xid mc dest bs s).uncounted = s.uncounted := by
  unfold sendAll
  refine view_foldl State.uncounted (fun t d => ?_) _ s
  exact view_ite State.uncounted (floodData_uncounted t p dest [] _ d.2) (sendData_uncounted t p dest _ d.2)

theorem landPiece_uncounted (p va : Nat) (bs : List Byte) : (landPiece p va bs s).uncounted = s.uncounted := by
  unfold landPiece
  split
  · exact view_ite State.uncounted (lostWrite_uncounted _ _ _ _ _) (wcbAccept_uncounted _ _ _ _ _ _)
  · rfl

theorem landBytes_uncounted (p lb off : Nat) (bs : List Byte) : (landBytes p lb off bs s).uncounted = s.uncounted := by
  unfold landBytes
  refine view_foldl State.uncounted (fun t x => ?_) _ s
  exact landPiece_uncounted t p x.1 x.2

theorem writeResult_uncounted (p : Nat) (c : Chor) (k : Chain) (off : Nat) (bs : List Byte) :
    (writeResult p c k off bs s).uncounted = s.uncounted := by
  unfold writeResult
  refine view_ite State.uncounted ?_ (writeVa_uncounted _ _ _ _ _)
  split
  · exact view_ite State.uncounted (landBytes_uncounted _ _ _ _ _) (writeVa_uncounted _ _ _ _ _)
  · rfl

theorem finishSegment_uncounted (p : Nat) (c : Chor) (k : Chain) (i : Nat) (rs : List ChainRow) :
    (finishSegment p c k i rs s).2.uncounted = s.uncounted := by
  unfold finishSegment
  dsimp only
  split
  · exact (writeResult_uncounted _ _ _ _ _ _).trans (writeResult_uncounted _ _ _ _ _ _)
  · exact writeResult_uncounted _ _ _ _ _ _
end

theorem chor_of_uncounted {s t : State} (h : t.uncounted = s.uncounted) (p : Nat) : (t.part p).chor = (s.part p).chor :=
  (congrArg Part.chor (bare_of_uncounted h p) :)

theorem credit_of_uncounted {s t : State} (h : t.uncounted = s.uncounted) (p node lb : Nat) :
    (t.part p).plane.credit node lb = (s.part p).plane.credit node lb :=
  (congrArg (fun q : Part => q.plane.credit node lb) (bare_of_uncounted h p) :)

/-! ### Counting RS mismatches (R445, R598) -/

section
variable (s : State)

theorem ite_satAll_ce (b : Bool) (off : Nat) : (if b then satAll off s else s).ce = s.ce :=
  view_ite State.ce (same_of_mask (satAll_mask (w := 0x700010#38) (by decide) off s) .ce (by decide)) rfl

theorem ceCount_rsMis : (ceCount 2 s).ce.rsMis = min 0xFFFF (s.ce.rsMis + 1) := by
  simp only [ceCount, ite_satAll_ce]
  exact satAdd_fst 16 s.ce.rsMis 1

theorem ceCount_uncounted (n : Nat) : (ceCount n s).uncounted = s.uncounted := by
  unfold ceCount
  exact view_ite State.uncounted (satAll_uncounted _ _) rfl

/-- The RS mismatches of `bad` rows are counted. -/
def countMismatches (bad : Nat) (s : State) : State := (List.range bad).foldl (fun t _ => ceCount 2 t) s

theorem countMismatches_uncounted (bad : Nat) : (countMismatches bad s).uncounted = s.uncounted :=
  view_foldl State.uncounted (fun t _ => ceCount_uncounted t 2) _ s

theorem countMismatches_rsMis {bad : Nat} (h : s.ce.rsMis + bad < 2 ^ 16) : (countMismatches bad s).ce.rsMis = s.ce.rsMis + bad := by
  unfold countMismatches
  induction bad with
  | zero => rfl
  | succ n ih =>
    have hn := ih (by omega)
    rw [List.range_succ, List.foldl_append, List.foldl_cons, List.foldl_nil, ceCount_rsMis, hn]
    omega
end

/-! ### Taking credits and marking the segment (R434, R443) -/

section
variable (s : State) (p : Nat)

theorem takeCredits_chor (nodes : List Nat) (lb units : Nat) : ((takeCredits p nodes lb units s).part p).chor = (s.part p).chor := by
  unfold takeCredits
  refine view_foldl (fun t => (t.part p).chor) (fun t n => ?_) nodes s
  rw [State.part_modPart_same]

theorem takeCredits_one (n lb units : Nat) :
    ((takeCredits p [n] lb units s).part p).plane.credit n lb = (s.part p).plane.credit n lb - units := by
  simp [takeCredits, State.part_modPart_same, Plane.credit, kmod]

theorem markSegment_ce (id : Nat) (fig : Option Nat) (fl : Flags) : (markSegment p id fig fl s).ce = s.ce :=
  same_of_mask (w := 0x10#38) (markSegment_mask (by decide) p id fig fl s) .ce (by decide)

theorem modActive_chor_plane (id : Nat) (f : RunFig → RunFig) :
    ((modActive p id f s).part p).chor = (s.part p).chor ∧ ((modActive p id f s).part p).plane = (s.part p).plane := by
  rw [modActive, State.part_modPart_same]
  split <;> exact ⟨rfl, rfl⟩

theorem markSegment_part (id : Nat) (fig : Option Nat) (fl : Flags) : ((markSegment p id fig fl s).part p).plane = (s.part p).plane
    ∧ ((markSegment p id fig fl s).part p).chor = (s.part p).chor.map (fun c => { c with
      chains := c.chains.map (fun k => if k.chainId = id then { k with done := k.done + 1 } else k) }) := by
  cases fig with
  | none => exact ⟨by rw [markSegment, State.part_modPart_same], by rw [markSegment, State.part_modPart_same]⟩
  | some f =>
    obtain ⟨hchor, hplane⟩ := modActive_chor_plane (s.modPart p (fun q => { q with chor := q.chor.map (fun c => { c with
      chains := c.chains.map (fun k => if k.chainId = id then { k with done := k.done + 1 } else k) }) })) p f
      (fun a => { a with flags := a.flags.or fl })
    rw [State.part_modPart_same] at hchor hplane
    exact ⟨hplane, hchor⟩

/-- The marking of a segment after a state whose Choreography is `c`. -/
theorem markSegment_chains {c : Chor} (hc : (s.part p).chor = some c) (id : Nat) (fig : Option Nat) (fl : Flags) :
    ∃ d, ((markSegment p id fig fl s).part p).chor = some d
      ∧ d.chains = c.chains.map (fun k => if k.chainId = id then { k with done := k.done + 1 } else k) :=
  ⟨_, by rw [(markSegment_part s p id fig fl).2, hc]; rfl, rfl⟩
end

/-! ### A segment that is ready -/

/-- The state in which a ready segment has been sent on, or its totals written, and its flags. -/
def segmentSent (p id : Nat) (c : Chor) (k : Chain) (succ : Option Nat) (rs : List ChainRow) (s : State) : Flags × State :=
  match succ with
  | some n => (Flags.none, sendAll p 2 k.lb (k.offset k.done) id false n (segmentBytes k rs) (takeCredits p [n] k.lb (k.units k.done) s))
  | none => finishSegment p c k k.done rs s

section
variable (s : State) (p id : Nat) (c : Chor) (k : Chain) (rs : List ChainRow)

theorem segmentSent_ce (succ : Option Nat) : (segmentSent p id c k succ rs s).2.ce = s.ce := by
  cases succ with
  | some n =>
    exact (same_of_mask (w := 0x720010#38) (sendAll_mask (by decide) _ _ _ _ _ _ _ _ _) .ce (by decide)).trans
      (same_of_mask (w := 0x10#38) (takeCredits_mask (by decide) _ _ _ _ _) .ce (by decide))
  | none => exact same_of_mask (w := 0x80270a012#38) (finishSegment_mask (by decide) _ _ _ _ _ _) .ce (by decide)

theorem segmentSent_chor (succ : Option Nat) : ((segmentSent p id c k succ rs s).2.part p).chor = (s.part p).chor := by
  cases succ with
  | some n => exact (chor_of_uncounted (sendAll_uncounted _ _ _ _ _ _ _ _ _) p).trans (takeCredits_chor _ _ _ _ _)
  | none => exact chor_of_uncounted (finishSegment_uncounted _ _ _ _ _ _) p

theorem segmentSent_credit (n : Nat) : ((segmentSent p id c k (some n) rs s).2.part p).plane.credit n k.lb
    = (s.part p).plane.credit n k.lb - k.units k.done :=
  (credit_of_uncounted (sendAll_uncounted _ _ _ _ _ _ _ _ _) p n k.lb).trans (takeCredits_one _ _ _ _ _)
end

section
variable {s : State} {p id m : Nat} {c : Chor} {k : Chain} {pred succ : Option Nat} {ins : List (Option ChainRow)} {rs : List ChainRow}
  {fl : Flags} {bad : Nat} (hc : (s.part p).chor = some c) (hr : (s.part p).run.isSome = true)
  (hk : c.chains.find? (fun k => decide (k.chainId = id)) = some k)
  (hm : k.member (s.part p).plane.node.toNat = some (m, pred, succ)) (hdone : k.done < ceilDiv k.rows k.segRows)
  (hcredit : ∀ n, succ = some n → k.units k.done ≤ (s.part p).plane.credit n k.lb) (hsrc : s.sourcesReady p c k k.done = true)
  (hin : s.incoming p c k k.done pred = some (.ok ins)) (hseg : s.segment p c k k.done ins = .ok (rs, fl, bad))
include hc hr hk hm hdone hcredit hsrc hin hseg

theorem execChainSegment_ready : ∃ fl', execChainSegment p id k.done s = .next (markSegment p id (k.sources.getLast?.map (·.1)) fl'
    (segmentSent p id c k succ rs (countMismatches bad s)).2) := by
  obtain ⟨r, hr⟩ := Option.isSome_iff_exists.1 hr
  unfold execChainSegment
  cases succ with
  | some n =>
    have hheld := hcredit n rfl
    refine ⟨fl, ?_⟩
    simp only [hc, hr, hk, hm, hsrc, hin, hseg, Nat.not_lt.2 hheld, Nat.not_le.2 hdone, decide_false, Bool.or_false, ne_eq,
      not_true_eq_false, Bool.not_true, Bool.false_eq_true, if_false]
    rfl
  | none =>
    refine ⟨fl.or (finishSegment p c k k.done rs (countMismatches bad s)).1, ?_⟩
    simp only [hc, hr, hk, hm, hsrc, hin, hseg, Nat.not_le.2 hdone, decide_false, Bool.or_false, ne_eq, not_true_eq_false, Bool.not_true,
      Bool.false_eq_true, if_false]
    rfl

theorem chainSegment_done : completes (.chainSegment p id k.done) s (fun t =>
    (∃ d, (t.part p).chor = some d ∧ d.chains = c.chains.map (fun k => if k.chainId = id then { k with done := k.done + 1 } else k))
    ∧ (s.ce.rsMis + bad < 2 ^ 16 → t.ce.rsMis = s.ce.rsMis + bad)
    ∧ ∀ n, succ = some n → (t.part p).plane.credit n k.lb = (s.part p).plane.credit n k.lb - k.units k.done) := by
  obtain ⟨fl', e⟩ := execChainSegment_ready hc hr hk hm hdone hcredit hsrc hin hseg
  refine ⟨_, e, markSegment_chains _ p ?_ id _ fl', fun hlt => ?_, ?_⟩
  · rw [segmentSent_chor, chor_of_uncounted (countMismatches_uncounted s bad), hc]
  · rw [markSegment_ce, segmentSent_ce, countMismatches_rsMis s hlt]
  · rintro n rfl
    rw [(markSegment_part _ p id _ fl').1, segmentSent_credit, credit_of_uncounted (countMismatches_uncounted s bad)]
end

/-- Settles O48: a running element is determined by its exact value, and a ready segment changes its own chain and credits only. -/
theorem chains : Obligations.Chains := by
  unfold Obligations.Chains
  refine ⟨fun a ps qs ha1 ha2 hps hperm => ?values, fun r ps => chainRow_mismatch,
    fun s p id c k m pred succ ins rs fl bad => chainSegment_done⟩
  case values =>
    obtain ⟨⟨hlo, hhi⟩, hv⟩ := foldl_chainAdd_exact hps ⟨ha1, ha2⟩
    obtain ⟨hmax, hsat⟩ := chainTotal_saturates (ps.foldl chainAdd a)
    exact ⟨hv, hlo, hhi, foldl_chainAdd_perm hps ⟨ha1, ha2⟩ hperm, hmax, hsat⟩

end Sys2Proof.Machine
end

section
/-! PROOF. Transfers, deliveries, credits and probes (R423, R428 to R434, R438): the route of a frame is that of the state in which its
command begins, and each command changes the bindings, the credits or the echoes as its rules say. -/

namespace Sys2Proof.Machine

/-! ### What the next port toward a node depends on (R423) -/

/-- What gives the port of partition `p`'s next frame: its routes and their rotation, the ports and their owners. -/
def State.hops (s : State) (p : Nat) : KMap (BitVec 64) × KMap Nat × KMap Port × Design × Prot :=
  ((s.part p).plane.routes, (s.part p).plane.rotate, s.ports, s.cfg, s.prot)

section
variable {s t : State} {p : Nat}

theorem hops_of_mask (h : t.mask 0x700010#38 = s.mask 0x700010#38) (hp : (t.part p).plane.routes = (s.part p).plane.routes)
    (hr : (t.part p).plane.rotate = (s.part p).plane.rotate) : t.hops p = s.hops p := by
  have hports := same_of_mask h .ports (by decide)
  have hcfg := same_of_mask h .cfg (by decide)
  have hprot := same_of_mask h .prot (by decide)
  simp only [Field.same] at hports hcfg hprot
  simp only [State.hops, hp, hr, hports, hcfg, hprot]

theorem routes_of_hops (h : t.hops p = s.hops p) : (t.part p).plane.routes = (s.part p).plane.routes := congrArg Prod.fst h

theorem nextPort_of_hops (h : t.hops p = s.hops p) (node : Nat) : t.nextPort p node = s.nextPort p node := by
  simp only [State.hops, Prod.mk.injEq] at h
  obtain ⟨hroutes, hrotate, hports, hcfg, hprot⟩ := h
  simp only [State.nextPort, State.usablePorts, State.portOwner, State.port, hroutes, hrotate, hports, hcfg, hprot]
  rfl

theorem hops_modPart (s : State) (p : Nat) {f : Part → Part} (hp : (f (s.part p)).plane.routes = (s.part p).plane.routes)
    (hr : (f (s.part p)).plane.rotate = (s.part p).plane.rotate) : (s.modPart p f).hops p = s.hops p := by
  simp only [State.hops, State.part_modPart_same, hp, hr]
  rfl

/-- A frame goes out on the port of the state in which its command begins. -/
theorem sends_from {n node : Nat} (h : t.hops p = s.hops p) (hr : (kget 0 (s.part p).plane.routes node).getLsbD 63 = true)
    (hn : s.nextPort p node = some n) (f : Frame) : (sendToward p node f t).sends n f :=
  sends_sendToward (by rwa [routes_of_hops h]) (by rwa [nextPort_of_hops h]) f
end

section
variable (s : State) (p : Nat)

theorem satPart_hops (off : Nat) : (satPart p off s).hops p = s.hops p := by
  have hparts := postEvent_parts p 0x80 (payloadOf noFig 0 off) (s.modPart p (fun q => { q with notes := { q.notes with satEvent := true } }))
  have hpost : (satPart p off s).hops p = (s.modPart p (fun q => { q with notes := { q.notes with satEvent := true } })).hops p :=
    hops_of_mask (postEvent_mask (by decide) _ _ _ _) (by rw [satPart, State.part, hparts]; rfl) (by rw [satPart, State.part, hparts]; rfl)
  exact hpost.trans (hops_modPart s p rfl rfl)

theorem acctAdd_hops (n k : Nat) : (acctAdd p n k s).hops p = s.hops p := by
  unfold acctAdd
  exact view_ite (fun t => t.hops p) ((satPart_hops _ _ _).trans (hops_modPart s p rfl rfl)) (hops_modPart s p rfl rfl)

theorem takeCredits_hops (nodes : List Nat) (lb units : Nat) : (takeCredits p nodes lb units s).hops p = s.hops p := by
  unfold takeCredits
  exact view_foldl (fun t => t.hops p) (fun t n => hops_modPart t p rfl rfl) nodes s

theorem markIssued_hops (xid : Nat) : (markIssued p xid s).hops p = s.hops p := hops_modPart s p rfl rfl

/-- Data go out on the port of the state in which their command begins. -/
theorem sends_sendData {t : State} {n node : Nat} (h : t.hops p = s.hops p)
    (hr : (kget 0 (s.part p).plane.routes node).getLsbD 63 = true) (hn : s.nextPort p node = some n) (w : BitVec 256) (data : List Byte) :
    (sendData p node w data t).sends n (.delivery w data) := by
  unfold sendData
  exact sends_from ((view_ite (fun t => t.hops p) (acctAdd_hops t p 3 _) rfl).trans h) hr hn _
end

theorem node_of_uncounted {s t : State} (h : t.uncounted = s.uncounted) (p : Nat) : (t.part p).plane.node = (s.part p).plane.node :=
  (congrArg (fun q : Part => q.plane.node) (bare_of_uncounted h p) :)

/-! ### Transfers (R428, R429, R434) -/

section
variable (s : State) (p xid : Nat)

theorem markIssued_xfers {c : Chor} (hc : (s.part p).chor = some c) : ∃ d, ((markIssued p xid s).part p).chor = some d
    ∧ d.xfers = c.xfers.map (fun x => if x.xferId = xid then { x with issued := true } else x) := by
  refine ⟨{ c with xfers := c.xfers.map (fun x => if x.xferId = xid then { x with issued := true } else x) }, ?_, rfl⟩
  rw [markIssued, State.part_modPart_same, hc]
  rfl

theorem markIssued_credit (n lb : Nat) : ((markIssued p xid s).part p).plane.credit n lb = (s.part p).plane.credit n lb := by
  rw [markIssued, State.part_modPart_same]

/-- Bytes that one delivery carries (R429). -/
theorem deliveries_one {bs : List Byte} (h0 : 0 < bs.length) (h : bs.length ≤ 8192) : deliveries bs = [(0, bs)] := by
  have hone : ceilDiv bs.length 8192 = 1 := by unfold ceilDiv; omega
  rw [deliveries, hone, List.range_one, List.map_cons, List.map_nil, Nat.mul_zero, List.drop_zero, List.take_of_length_le h]
end

/-- The transfer with ID `xid` to `dest` is issued from `s` to `t`, its units taken (R428, R434). -/
def issuedFrom (s : State) (p xid : Nat) (c : Chor) (x : Xfer) (t : State) : Prop :=
  (∃ d, (t.part p).chor = some d ∧ d.xfers = c.xfers.map (fun x => if x.xferId = xid then { x with issued := true } else x))
  ∧ (t.part p).plane.credit x.dest x.lb = (s.part p).plane.credit x.dest x.lb - xferUnits x

section
variable {s : State} {p xid : Nat} {c : Chor} {x : Xfer} (hc : (s.part p).chor = some c)
  (hx : c.xfers.find? (fun x => decide (x.xferId = xid)) = some x) (hready : s.xferReady p c x = true) (hmc : x.mc = false)

/-- The state in which a transfer is marked as issued, its credits taken. -/
def issueMarked (p xid : Nat) (x : Xfer) (s : State) : State := markIssued p xid (takeCredits p [x.dest] x.lb (xferUnits x) s)

theorem issueMarked_hops (p xid : Nat) (x : Xfer) (s : State) : (issueMarked p xid x s).hops p = s.hops p :=
  (markIssued_hops _ _ _).trans (takeCredits_hops _ _ _ _ _)

include hc in
theorem issueMarked_issues {t : State} (h : t.uncounted = (issueMarked p xid x s).uncounted) : issuedFrom s p xid c x t := by
  refine ⟨?_, ?_⟩
  · rw [chor_of_uncounted h]
    exact markIssued_xfers _ p xid ((takeCredits_chor s p _ _ _).trans hc)
  · rw [credit_of_uncounted h, issueMarked, markIssued_credit, takeCredits_one]

include hmc in
theorem xferNodes_unicast : s.xferNodes p x = [x.dest] := by rw [State.xferNodes, hmc]; rfl

include hc hx hready hmc

theorem execTransferIssue_null (hn : x.isNull = true) : execTransferIssue p xid s = .next (sendData p x.dest
    (deliveryHeader 1 x.lb x.offset xid false x.dest (s.part p).plane.node.toNat []) [] (issueMarked p xid x s)) := by
  simp only [execTransferIssue, hc, hx, hready, hn, hmc, xferNodes_unicast hmc]
  rfl

theorem execTransferIssue_data {bs : List Byte} (hn : x.isNull = false) (hsrc : s.xferSource p x = .ok bs) :
    execTransferIssue p xid s = .next (sendAll p 0 x.lb x.offset xid false x.dest bs (acctAdd p 2 x.bytes (issueMarked p xid x s))) := by
  simp only [execTransferIssue, hc, hx, hready, hn, hmc, hsrc, xferNodes_unicast hmc]
  rfl

theorem transferIssue_null (hn : x.isNull = true) : completes (.transferIssue p xid) s (issuedFrom s p xid c x) :=
  ⟨_, execTransferIssue_null hc hx hready hmc hn, issueMarked_issues hc (sendData_uncounted _ _ _ _ _)⟩

omit hc hx hready hmc in
/-- A transfer's node, as its deliveries name it. -/
theorem issueMarked_node (k : Nat) : ((acctAdd p 2 k (issueMarked p xid x s)).part p).plane.node = (s.part p).plane.node := by
  have hacct := acctAdd_uncounted (issueMarked p xid x s) p k (n := 2) (by decide)
  rw [node_of_uncounted hacct, issueMarked, markIssued, State.part_modPart_same]
  unfold takeCredits
  refine view_foldl (fun t => (t.part p).plane.node) (fun t n => ?_) [x.dest] s
  rw [State.part_modPart_same]

theorem transferIssue_data {bs : List Byte} (hn : x.isNull = false) (hsrc : s.xferSource p x = .ok bs) :
    completes (.transferIssue p xid) s (fun t => issuedFrom s p xid c x t
      ∧ (∀ n, 0 < bs.length → bs.length ≤ 8192 → (kget 0 (s.part p).plane.routes x.dest).getLsbD 63 = true →
          s.nextPort p x.dest = some n →
          t.sends n (.delivery (deliveryHeader 0 x.lb x.offset xid false x.dest (s.part p).plane.node.toNat bs) bs))) := by
  refine ⟨_, execTransferIssue_data hc hx hready hmc hn hsrc, issueMarked_issues hc ?_, fun n h0 hlen hr hnext => ?_⟩
  · exact (sendAll_uncounted _ _ _ _ _ _ _ _ _).trans (acctAdd_uncounted _ p _ (by decide))
  · have hhops := (acctAdd_hops (issueMarked p xid x s) p 2 x.bytes).trans (issueMarked_hops p xid x s)
    rw [sendAll, deliveries_one h0 hlen, issueMarked_node]
    exact sends_sendData s p hhops hr hnext _ bs
end

/-! ### Deliveries (R423, R430 to R432) -/

section
variable {s : State} {n p : Nat} {h : BitVec 256} {data : List Byte} (hp : s.frameFrom n = some p) (hpmu : s.pmu.state ≠ 3)
  (hmc : bit h.toNat 116 = false)
include hp hpmu hmc

omit hmc in
theorem execDeliveryReceive_loops (ht : fld h.toNat 117 4 ≤ 1) :
    execDeliveryReceive n h data s = .next (reportRoute p 0x72 (fld h.toNat 88 10) s) := by
  simp only [execDeliveryReceive, hp, hpmu, decide_false, Bool.and_false, Bool.false_eq_true, if_false, if_pos ht]

theorem execDeliveryReceive_forwards (ht : 1 < fld h.toNat 117 4) (hd : fld h.toNat 88 10 ≠ (s.part p).plane.node.toNat) :
    execDeliveryReceive n h data s = .next (sendData p (fld h.toNat 88 10) (lowerTtl h.toNat) data s) := by
  simp only [execDeliveryReceive, hp, hpmu, hmc, hd, decide_false, Bool.and_false, Bool.or_false, Bool.false_eq_true, if_false,
    if_neg (Nat.not_le.2 ht)]

theorem execDeliveryReceive_lands (ht : 1 < fld h.toNat 117 4) (hd : fld h.toNat 88 10 = (s.part p).plane.node.toNat) :
    execDeliveryReceive n h data s = .next (landDelivery p h.toNat data s) := by
  simp only [execDeliveryReceive, hp, hpmu, hmc, hd, decide_false, decide_true, Bool.and_false, Bool.or_true, Bool.false_eq_true, if_false,
    if_true, if_neg (Nat.not_le.2 ht)]
end

section
variable (s : State) (p : Nat)

theorem reportRoute_channels (code node : Nat) : (reportRoute p code node s).channels = s.channels :=
  same_of_mask (w := 0x700010#38) (reportRoute_mask (by decide) p code node s) .channels (by decide)

theorem reportRoute_noRoute (code node : Nat) : ((reportRoute p code node s).part p).plane.noRoute = true := by
  unfold reportRoute
  refine (view_ite (fun t => (t.part p).plane.noRoute) rfl ?_).trans (congrArg (fun q : Part => q.plane.noRoute) (State.part_modPart_same s p _))
  exact congrArg (fun m => (kget Part.reset m p).plane.noRoute) (postEvent_parts _ _ _ _)

theorem sendData_channels (node : Nat) (h : BitVec 256) (data : List Byte) : (sendData p node h data s).channels = s.channels :=
  same_of_mask (w := 0x720010#38) (sendData_mask (by decide) p node h data s) .channels (by decide)

theorem unbound_channels (src xid : Nat) : (unbound p src xid s).channels = s.channels :=
  same_of_mask (w := 0x780010#38) (unbound_mask (by decide) p src xid s) .channels (by decide)

theorem ceCount_unbound : (ceCount 0 s).ce.unbound = min 0xFFFF (s.ce.unbound + 1) := by
  simp only [ceCount, ite_satAll_ce]
  exact satAdd_fst 16 s.ce.unbound 1

theorem ceCount_dcrc : (ceCount 1 s).ce.dcrc = min 0xFFFF (s.ce.dcrc + 1) := by
  simp only [ceCount, ite_satAll_ce]
  exact satAdd_fst 16 s.ce.dcrc 1

theorem postEvent_ce (code payload : Nat) : (postEvent p code payload s).ce = s.ce :=
  same_of_mask (w := 0x700000#38) (postEvent_mask (by decide) p code payload s) .ce (by decide)

theorem unbound_counts (src xid : Nat) : (unbound p src xid s).ce.unbound = min 0xFFFF (s.ce.unbound + 1) := by
  have hcount := ceCount_unbound (s.modPart p (fun q => { q with notes := { q.notes with unbound := true } }))
  unfold unbound
  dsimp only
  split
  · exact hcount
  · rw [postEvent_ce, hcount]
    rfl
end

/-- No binding and no mirror takes the delivery. -/
theorem landDelivery_unbound {s : State} {p : Nat} (hc : (s.part p).chor = none) (hm : (s.part p).snap.held = none) (h : Nat)
    (data : List Byte) : landDelivery p h data s = unbound p (fld h 98 10) (fld h 132 16) s := by
  simp [landDelivery, hc, hm, State.mirrorFits]

section
variable {s : State} {p src xid : Nat} {c : Chor} (hc : (s.part p).chor = some c)
include hc

theorem modBinding_bindings (f : Binding → Binding) : ∃ d, ((modBinding p src xid f s).part p).chor = some d
    ∧ d.bindings = c.bindings.map (fun b => if b.srcNode = src ∧ b.xferId = xid then f b else b) := by
  refine ⟨{ c with bindings := c.bindings.map (fun b => if b.srcNode = src ∧ b.xferId = xid then f b else b) }, ?_, rfl⟩
  rw [modBinding, State.part_modPart_same, hc]
  rfl
end

section
variable {s : State} {p h : Nat} {data : List Byte} {c : Chor} {b : Binding} (hc : (s.part p).chor = some c)
  (hr : (s.part p).run.isSome = true)
  (hb : c.bindings.find? (fun (b : Binding) => decide (b.srcNode = fld h 98 10) && decide (b.xferId = fld h 132 16)) = some b)
  (hkind : fld h 121 3 = 0) (h0 : 0 < 64 * fld h 124 8) (hlen : 64 * fld h 124 8 ≤ 8192) (hdata : data.length = 64 * fld h 124 8)
  (hfits : s.fitsBinding b (fld h 148 12) (fld h 160 32) (64 * fld h 124 8) = true)
include hc hr hb hkind h0 hlen hdata hfits

/-- A DATA delivery that its binding takes lands, or is a DCRC failure (R430, R432). -/
theorem landDelivery_bound : landDelivery p h data s = if fld h 224 32 ≠ (crc32 data).toNat then dataError p b s
    else modBinding p (fld h 98 10) (fld h 132 16) (fun b => { b with
      landed := b.landed + 64 * fld h 124 8, pieces := b.pieces ++ [(fld h 160 32, 64 * fld h 124 8)] })
        (landBytes p (fld h 148 12) (fld h 160 32) data (acctAdd p 3 (64 * fld h 124 8) s)) := by
  have hrange : ¬ (2 < fld h 121 3 ∨ 64 * fld h 124 8 = 0 ∨ 8192 < 64 * fld h 124 8 ∨ data.length ≠ 64 * fld h 124 8
      ∨ (!s.fitsBinding b (fld h 148 12) (fld h 160 32) (64 * fld h 124 8)) = true) := by
    rw [hfits, hkind, hdata]
    simp only [Bool.not_true, Bool.false_eq_true, ne_eq, not_true_eq_false, or_false]
    omega
  have hdata' : ¬ fld h 121 3 = 1 := by rw [hkind]; decide
  simp only [landDelivery, hc, hr, hb, if_true]
  rw [if_neg hdata', if_neg hrange]

theorem landDelivery_lands (hcrc : fld h 224 32 = (crc32 data).toNat) : ∃ d, ((landDelivery p h data s).part p).chor = some d
    ∧ d.bindings = c.bindings.map (fun b => if b.srcNode = fld h 98 10 ∧ b.xferId = fld h 132 16 then
      { b with landed := b.landed + 64 * fld h 124 8, pieces := b.pieces ++ [(fld h 160 32, 64 * fld h 124 8)] } else b) := by
  rw [landDelivery_bound hc hr hb hkind h0 hlen hdata hfits, if_neg (not_not.2 hcrc)]
  refine modBinding_bindings ?_ _
  rw [chor_of_uncounted ((landBytes_uncounted _ _ _ _ _).trans (acctAdd_uncounted _ _ _ (by decide))), hc]

theorem landDelivery_bad (hcrc : fld h 224 32 ≠ (crc32 data).toNat) : landDelivery p h data s = dataError p b s := by
  rw [landDelivery_bound hc hr hb hkind h0 hlen hdata hfits, if_pos hcrc]
end

section
variable {s : State} {p : Nat} (b : Binding)

theorem dataError_channels : (dataError p b s).channels = s.channels :=
  same_of_mask (w := 0x780010#38) (dataError_mask (by decide) p b s) .channels (by decide)

/-- The state in which a DCRC failure has been counted and reported, and the binding poisoned (R432). -/
def dataErrorNoted (p : Nat) (b : Binding) (s : State) : State :=
  postEvent p 0x74 (payloadOf b.consumer 0 (b.srcNode + b.xferId * 2 ^ 16))
    (modBinding p b.srcNode b.xferId (fun b => { b with poisoned := true }) (ceCount 1 s))

/-- A DCRC failure of a consumer that is active. -/
theorem dataError_active (h : ((s.part p).active b.consumer).isSome = true) :
    dataError p b s = askAbort p b.consumer .linkData (dataErrorNoted p b s) := by
  unfold dataError
  exact if_pos h

theorem dataErrorNoted_dcrc : (dataErrorNoted p b s).ce.dcrc = min 0xFFFF (s.ce.dcrc + 1) := by
  rw [dataErrorNoted, postEvent_ce]
  exact ceCount_dcrc s

theorem dataErrorNoted_bindings {c : Chor} (hc : (s.part p).chor = some c) : ∃ d, ((dataErrorNoted p b s).part p).chor = some d
    ∧ d.bindings = c.bindings.map (fun a => if a.srcNode = b.srcNode ∧ a.xferId = b.xferId then { a with poisoned := true } else a) := by
  rw [dataErrorNoted, State.part, postEvent_parts]
  exact modBinding_bindings ((chor_of_uncounted (ceCount_uncounted s 1) p).trans hc) _

theorem askAbort_ce (id : Nat) (cause : AbortCause) (s : State) : (askAbort p id cause s).ce = s.ce :=
  same_of_mask (w := 0x10#38) (modActive_mask (by decide) p id _ s) .ce (by decide)
end

section
variable {s : State} {n p : Nat} {h : BitVec 256} {data : List Byte} (hp : s.frameFrom n = some p) (hpmu : s.pmu.state ≠ 3)
  (hmc : bit h.toNat 116 = false)
include hp hpmu hmc

omit hmc in
theorem deliveryReceive_loops (ht : fld h.toNat 117 4 ≤ 1) : completes (.deliveryReceive n h data) s (fun t =>
    t.channels = s.channels ∧ (t.part p).plane.noRoute = true) :=
  ⟨_, execDeliveryReceive_loops hp hpmu ht, reportRoute_channels s p _ _, reportRoute_noRoute s p _ _⟩

theorem deliveryReceive_forwards (ht : 1 < fld h.toNat 117 4) (hd : fld h.toNat 88 10 ≠ (s.part p).plane.node.toNat) :
    completes (.deliveryReceive n h data) s (fun t => t.channels = s.channels
      ∧ ∀ m, (kget 0 (s.part p).plane.routes (fld h.toNat 88 10)).getLsbD 63 = true → s.nextPort p (fld h.toNat 88 10) = some m →
          t.sends m (.delivery (lowerTtl h.toNat) data)) :=
  ⟨_, execDeliveryReceive_forwards hp hpmu hmc ht hd, sendData_channels s p _ _ _, fun _ hr hn => sends_sendData s p rfl hr hn _ _⟩

theorem deliveryReceive_unbound (ht : 1 < fld h.toNat 117 4) (hd : fld h.toNat 88 10 = (s.part p).plane.node.toNat)
    (hc : (s.part p).chor = none) (hm : (s.part p).snap.held = none) : completes (.deliveryReceive n h data) s (fun t =>
      t.channels = s.channels ∧ t.ce.unbound = min 0xFFFF (s.ce.unbound + 1)) := by
  refine ⟨_, execDeliveryReceive_lands hp hpmu hmc ht hd, ?_⟩
  rw [landDelivery_unbound hc hm]
  exact ⟨unbound_channels s p _ _, unbound_counts s p _ _⟩

variable {c : Chor} {b : Binding} (ht : 1 < fld h.toNat 117 4) (hd : fld h.toNat 88 10 = (s.part p).plane.node.toNat)
  (hc : (s.part p).chor = some c) (hr : (s.part p).run.isSome = true)
  (hb : c.bindings.find? (fun (b : Binding) => decide (b.srcNode = fld h.toNat 98 10) && decide (b.xferId = fld h.toNat 132 16)) = some b)
  (hkind : fld h.toNat 121 3 = 0) (h0 : 0 < 64 * fld h.toNat 124 8) (hlen : 64 * fld h.toNat 124 8 ≤ 8192)
  (hdata : data.length = 64 * fld h.toNat 124 8)
  (hfits : s.fitsBinding b (fld h.toNat 148 12) (fld h.toNat 160 32) (64 * fld h.toNat 124 8) = true)
include ht hd hc hr hb hkind h0 hlen hdata hfits

theorem deliveryReceive_lands (hcrc : fld h.toNat 224 32 = (crc32 data).toNat) : completes (.deliveryReceive n h data) s (fun t =>
    ∃ d, (t.part p).chor = some d
      ∧ d.bindings = c.bindings.map (fun b => if b.srcNode = fld h.toNat 98 10 ∧ b.xferId = fld h.toNat 132 16 then
        { b with landed := b.landed + 64 * fld h.toNat 124 8, pieces := b.pieces ++ [(fld h.toNat 160 32, 64 * fld h.toNat 124 8)] }
        else b)) :=
  ⟨_, execDeliveryReceive_lands hp hpmu hmc ht hd, landDelivery_lands hc hr hb hkind h0 hlen hdata hfits hcrc⟩

theorem deliveryReceive_poisons (hcrc : fld h.toNat 224 32 ≠ (crc32 data).toNat) (ha : ((s.part p).active b.consumer).isSome = true) :
    completes (.deliveryReceive n h data) s (fun t => t.channels = s.channels ∧ t.ce.dcrc = min 0xFFFF (s.ce.dcrc + 1)
      ∧ ∃ d, (t.part p).chor = some d
        ∧ d.bindings = c.bindings.map (fun b => if b.srcNode = fld h.toNat 98 10 ∧ b.xferId = fld h.toNat 132 16 then
          { b with poisoned := true } else b)) := by
  have hfound := List.find?_some hb
  simp only [Bool.and_eq_true, decide_eq_true_eq] at hfound
  obtain ⟨hsrc, hxid⟩ := hfound
  refine ⟨_, execDeliveryReceive_lands hp hpmu hmc ht hd, ?_⟩
  rw [landDelivery_bad hc hr hb hkind h0 hlen hdata hfits hcrc]
  refine ⟨dataError_channels b, ?_, ?_⟩
  · rw [dataError_active b ha, askAbort_ce, dataErrorNoted_dcrc]
  · rw [dataError_active b ha, askAbort, (modActive_chor_plane _ p _ _).1, ← hsrc, ← hxid]
    exact dataErrorNoted_bindings b hc
end

/-! ### Credits (R433) -/

section
variable {s : State} {n p dst src lb units : Nat} (hp : s.frameFrom n = some p)
include hp

theorem creditFrame_adds (hd : dst = (s.part p).plane.node.toNat) (hm : (s.part p).snap.mirroring = false) :
    completes (.creditFrame n dst src lb units) s (fun t =>
      (t.part p).plane.credit src lb = (s.part p).plane.credit src lb + units) := by
  refine ⟨pushMirror p (s.modPart p (fun q => { q with plane := { (s.part p).plane with
    credits := kset none (s.part p).plane.credits (4096 * src + lb) (some ((s.part p).plane.credit src lb + units)) } })), ?_, ?_⟩
  · change execCreditFrame n dst src lb units s = _
    simp only [execCreditFrame, hp, hd, if_true]
    rfl
  · dsimp only
    rw [pushMirror_idle (by rw [State.part_modPart_same]; exact hm), State.part_modPart_same]
    simp [Plane.credit]
where
  /-- No mirror goes out where none waits. -/
  pushMirror_idle {s : State} {p : Nat} (h : (s.part p).snap.mirroring = false) : pushMirror p s = s := by
    simp only [pushMirror, h, Bool.not_false, Bool.true_or, if_true]
    split <;> rfl

theorem creditFrame_forwards {m : Nat} (hd : dst ≠ (s.part p).plane.node.toNat)
    (hr : (kget 0 (s.part p).plane.routes dst).getLsbD 63 = true) (hn : s.nextPort p dst = some m) :
    completes (.creditFrame n dst src lb units) s (fun t => t.sends m (.credit dst src lb units)) := by
  refine ⟨sendToward p dst (.credit dst src lb units) s, ?_, sends_sendToward hr hn _⟩
  change execCreditFrame n dst src lb units s = _
  simp only [execCreditFrame, hp, hd, if_false]
end

/-! ### Probes (R438, R439) -/

section
variable {s : State} {p g rtt : Nat}

theorem probeFrame_leaf {x : Group} {m : Nat} (he : kget 0 (s.part p).plane.echoes g = 0)
    (hg : kget none (s.part p).plane.groups g = some x) (hroot : x.root = false) (hleaf : x.children = [])
    (hr : (kget 0 (s.part p).plane.routes x.upNode).getLsbD 63 = true) (hn : s.nextPort p x.upNode = some m) :
    completes (.probeFrame p g rtt) s (fun t => t.sends m (.probe g)) := by
  refine ⟨sendToward p x.upNode (.probe g) s, ?_, sends_sendToward hr hn _⟩
  change execProbeFrame p g rtt s = _
  simp only [execProbeFrame, he, hg, hroot, hleaf]
  rfl

theorem probeFrame_counts {k : Nat} (he : kget 0 (s.part p).plane.echoes g = k + 2) :
    completes (.probeFrame p g rtt) s (fun t => t = setEchoes p g (k + 1) s) := by
  refine ⟨_, ?_, rfl⟩
  change execProbeFrame p g rtt s = _
  simp only [execProbeFrame, he, Nat.succ_pos, if_true]

section
variable {w : Waiting} {gs : List (Nat × Group)} {r : Nat} (he : kget 0 (s.part p).plane.echoes g = 1)
  (hw : (s.part p).waiting = [w]) (hwhat : w.what = .groupSet gs [g] r)
include hw hwhat

theorem probing_one : (s.part p).probing g = some (w, gs, [g], r) := by simp [Part.probing, hw, hwhat]

include he

theorem execProbeFrame_last : execProbeFrame p g rtt s = .next (probeBack p g rtt (setEchoes p g 0 s)) := by
  simp only [execProbeFrame, he, probing_one hw hwhat, Nat.lt_irrefl, if_false, Option.isSome_some, if_true]

/-- The state in which the last echo has come back and nothing waits. -/
def echoed (p g : Nat) (s : State) : State := (setEchoes p g 0 s).modPart p (fun q => { q with waiting := [] })

omit he hw hwhat in
theorem echoed_part : (echoed p g s).part p = { s.part p with
    plane := { (s.part p).plane with echoes := kset 0 (s.part p).plane.echoes g 0 }, waiting := [] } := by
  rw [echoed, State.part_modPart_same, setEchoes, State.part_modPart_same]

omit he hw hwhat in
theorem echoed_rings (s : State) (p g : Nat) : (echoed p g s).rings = s.rings := rfl

omit he hw hwhat in
theorem setGroups_rings (s : State) (p : Nat) (gs : List (Nat × Group)) : (setGroups p gs s).rings = s.rings :=
  same_of_mask (w := 0x10#38) (setGroups_mask (by decide) p gs s) .rings (by decide)

omit he in
theorem probeBack_last : probeBack p g rtt (setEchoes p g 0 s) = if s.tooSlow rtt then complete w.ring w.seq stFabricSlow 0 0 (echoed p g s)
    else complete w.ring w.seq stOk (max r rtt % 2 ^ 32) 0 (setGroups p gs (echoed p g s)) := by
  have hpart : (setEchoes p g 0 s).part p = { s.part p with
      plane := { (s.part p).plane with echoes := kset 0 (s.part p).plane.echoes g 0 } } := State.part_modPart_same ..
  have hprobing : ((setEchoes p g 0 s).part p).probing g = some (w, gs, [g], r) := by
    rw [hpart]
    exact probing_one hw hwhat
  have hone : (setEchoes p g 0 s).modPart p (fun q => { q with waiting := q.waiting.erase w }) = echoed p g s := by
    simp only [State.modPart, echoed, hpart, hw, List.erase_cons_head]
  have hslow : (setEchoes p g 0 s).tooSlow rtt = s.tooSlow rtt := rfl
  simp only [probeBack, hprobing, hone, hslow, List.filter_cons, List.filter_nil, decide_true, Bool.not_true, Bool.false_eq_true, if_false,
    List.isEmpty_nil, if_true]

variable (hopen : ((s.ring w.ring).find w.seq).isSome = true)
include hopen

theorem probeFrame_slow (ht : s.tooSlow rtt = true) : completes (.probeFrame p g rtt) s (fun t =>
    (t.part p).plane = { (s.part p).plane with echoes := kset 0 (s.part p).plane.echoes g 0 } ∧ (t.part p).waiting = []
    ∧ answered w.ring w.seq stFabricSlow 0 0 s t) := by
  refine ⟨_, execProbeFrame_last he hw hwhat, ?_⟩
  dsimp only
  rw [probeBack_last hw hwhat, if_pos ht, complete_part, echoed_part]
  exact ⟨rfl, rfl, complete_answers_from hopen (congrArg cmdsOf (echoed_rings s p g)) _ _ _⟩

theorem probeFrame_loads (ht : s.tooSlow rtt = false) : completes (.probeFrame p g rtt) s (fun t => (t.part p).waiting = []
    ∧ (t.part p).plane.groups = gs.foldl (fun m x => kset none m x.1 (some x.2)) (s.part p).plane.groups
    ∧ answered w.ring w.seq stOk (max r rtt % 2 ^ 32) 0 s t) := by
  refine ⟨_, execProbeFrame_last he hw hwhat, ?_⟩
  dsimp only
  rw [probeBack_last hw hwhat, if_neg (by rw [ht]; decide), complete_part, setGroups, State.part_modPart_same, echoed_part]
  exact ⟨rfl, rfl, complete_answers_from hopen (congrArg cmdsOf ((setGroups_rings _ p gs).trans (echoed_rings s p g))) _ _ _⟩
end
end

/-- Settles O46: a transfer, the kinds of a delivery, a credit frame and a probe, each by its lemma. -/
theorem deliveriesSettled : Obligations.Deliveries := by
  unfold Obligations.Deliveries
  refine ⟨?transfers, ?deliveries, ?credits, ?probes⟩
  case transfers =>
    intro s p xid c x hc hx hready hmc issued
    exact ⟨transferIssue_null hc hx hready hmc, fun bs => transferIssue_data hc hx hready hmc⟩
  case deliveries =>
    intro s n p h data hp hpmu hmc w src xid len
    refine ⟨deliveryReceive_loops hp hpmu, deliveryReceive_forwards hp hpmu hmc, deliveryReceive_unbound hp hpmu hmc, ?_⟩
    exact fun c b ht hd hc hr hb hkind h0 hlen hdata hfits =>
      ⟨deliveryReceive_lands hp hpmu hmc ht hd hc hr hb hkind h0 hlen hdata hfits,
       deliveryReceive_poisons hp hpmu hmc ht hd hc hr hb hkind h0 hlen hdata hfits⟩
  case credits => exact fun s n p dst src lb units hp => ⟨creditFrame_adds hp, fun m => creditFrame_forwards hp⟩
  case probes =>
    exact fun s p g rtt => ⟨fun x m => probeFrame_leaf, fun k => probeFrame_counts, fun w gs r he hw hwhat hopen =>
      ⟨probeFrame_slow he hw hwhat hopen, probeFrame_loads he hw hwhat hopen⟩⟩

end Sys2Proof.Machine
end

section
/-! PROOF. The rings of the mailbox (R464, R465, R469, R471, R473, R474, R522 to R524): what a write of each doorbell register leaves of its
ring, what posting events leaves of every ring, and how the commands that a write of DB_PROD covers are read. -/

namespace Sys2Proof.Machine

/-! ### What posting events leaves of a ring (R458, R469, R470) -/

/-- A ring without what posting an event changes. -/
def Ring.unposted (g : Ring) : Ring := { g with etail := 0, evtPend := false, dropped := 0, evtOverflow := false }

/-- Every ring without what posting an event changes. -/
def State.unposted (s : State) : Nat → Ring := fun r => (s.ring r).unposted

section
variable {s t : State}

theorem unposted_of_rings (h : t.rings = s.rings) : t.unposted = s.unposted := by
  unfold State.unposted State.ring
  rw [h]

theorem unposted_setRing (s : State) (r : Nat) {v : Ring} (h : v.unposted = (s.ring r).unposted) : (s.setRing r v).unposted = s.unposted := by
  funext k
  rw [State.unposted, ring_setRing]
  split
  next e => rw [h, e, State.unposted]
  · rfl

theorem putEvent_unposted (r code payload : Nat) (tag : BitVec 16) (s : State) : (putEvent r code payload tag s).unposted = s.unposted := by
  have hput (m : KMap Byte) (e : BitVec 16) :
      (({ s with ringMem := m } : State).setRing r { s.ring r with etail := e, evtPend := true }).unposted = s.unposted := by
    rw [unposted_setRing]
    · exact unposted_of_rings rfl
    · rfl
  exact hput _ _

theorem postEvent_unposted (p code payload : Nat) (s : State) : (postEvent p code payload s).unposted = s.unposted := by
  have hput := putEvent_unposted
  have hfw (fw : Fremund) : ({ s with fw := fw } : State).unposted = s.unposted := unposted_of_rings rfl
  have hdrop (r d : Nat) (o : Bool) : (s.setRing r { s.ring r with dropped := d, evtOverflow := o }).unposted = s.unposted :=
    unposted_setRing s r rfl
  unfold postEvent
  split
  · rfl
  dsimp only
  split
  · rfl
  split
  · exact hfw _
  split
  · exact view_ite State.unposted (hput _ _ _ _ _) (hfw _)
  · exact view_ite State.unposted (hput _ _ _ _ _) (hdrop _ _ _)

theorem drainBacklog_unposted (p n : Nat) (s : State) : (drainBacklog p n s).unposted = s.unposted := by
  induction n generalizing s with
  | zero => rfl
  | succ n ih =>
    unfold drainBacklog
    split
    · exact view_ite State.unposted ((ih _).trans (putEvent_unposted _ _ _ _ s)) rfl
    · rfl

theorem drainFaults_unposted (p : Option Nat) (s : State) : (drainFaults p s).unposted = s.unposted := by
  cases p with
  | none => rfl
  | some p => exact drainBacklog_unposted _ _ _

theorem satPart_unposted (p off : Nat) (s : State) : (satPart p off s).unposted = s.unposted :=
  (postEvent_unposted _ _ _ _).trans (unposted_of_rings rfl)

theorem satAll_unposted (off : Nat) (s : State) : (satAll off s).unposted = s.unposted :=
  view_foldl State.unposted (fun t p => satPart_unposted p off t) s.liveParts s

/-- Where no FAULT waits, none is posted. -/
theorem drainFaults_idle (p : Option Nat) (h : s.fw.backlog = []) : drainFaults p s = s := by
  cases p with
  | none => rfl
  | some p => rw [drainFaults, h]; rfl
end

/-! ### Doorbell writes by the ring's state (R471, R476) -/

section
variable {s : State} {r : Nat} (f : Ring → State → State)

theorem doorbell_ready (h : (s.ring r).state = .ready) : doorbell r f s = f (s.ring r) s := by simp only [doorbell, h]

theorem doorbell_resetting (h : (s.ring r).state = .resetting) : doorbell r f s = s.setRing r { s.ring r with overrun := true } := by
  simp only [doorbell, h]

theorem doorbell_dead (h : (s.ring r).state = .down ∨ (s.ring r).state = .halted) : doorbell r f s = s := by
  rcases h with h | h <;> simp only [doorbell, h]
end

/-! ### Reading commands (R456, R464, R465) -/

/-- What a completion leaves of the indices of ring `r` that a write of DB_PROD moves. -/
def State.dbIndices (s : State) (r : Nat) : BitVec 16 × BitVec 16 × RingState := ((s.ring r).prod, (s.ring r).head, (s.ring r).state)

section
variable (r : Nat) (s : State)

theorem complete_dbIndices (q : BitVec 16) (st d b : Nat) : (complete r q st d b s).dbIndices r = s.dbIndices r := by
  unfold complete
  dsimp only
  split
  · rfl
  · split <;> simp only [State.dbIndices, ring_setRing, if_true]

/-- The command at position `x` of ring `r`. -/
def State.commandAt (s : State) (r : Nat) (x : BitVec 16) : BitVec 512 :=
  BitVec.ofNat 512 (ofLe (bread s.ringMem (0x10000 * r + 64 * (x.toNat % 256)) 64))

/-- The state in which the command at position `x` is acknowledged and open. -/
def slotOpened (r : Nat) (x : BitVec 16) (s : State) : State :=
  ({ s with fw := { s.fw with handed := s.fw.handed + 1 } } : State).modRing r (fun g =>
    { g with head := x + 1, ack := x + 1, opened := g.opened ++ [⟨x, s.commandAt r x, false, s.fw.handed⟩] })

theorem slotOpened_ring (x : BitVec 16) : (slotOpened r x s).ring r = { s.ring r with
    head := x + 1, ack := x + 1, opened := (s.ring r).opened ++ [⟨x, s.commandAt r x, false, s.fw.handed⟩] } :=
  State.ring_setRing_same ..

theorem readSlot_cases (x : BitVec 16) : readSlot r x s = if arg (s.commandAt r x) 0 0 16 = x.toNat then slotOpened r x s
    else complete r x stSeqNum 0 0 (markStarted r x (slotOpened r x s)) := rfl

theorem markStarted_dbIndices (x : BitVec 16) : (markStarted r x s).dbIndices r = s.dbIndices r := by
  simp only [State.dbIndices, markStarted, State.modRing, State.ring_setRing_same]

theorem readSlot_dbIndices (x : BitVec 16) : (readSlot r x s).dbIndices r = ((s.ring r).prod, x + 1, (s.ring r).state) := by
  have hopen : (slotOpened r x s).dbIndices r = ((s.ring r).prod, x + 1, (s.ring r).state) := by rw [State.dbIndices, slotOpened_ring]
  rw [readSlot_cases]
  split
  · exact hopen
  · rw [complete_dbIndices, markStarted_dbIndices, hopen]

/-- The commands from position `x` on are read. -/
def readSlots (r : Nat) (x : BitVec 16) (n : Nat) (s : State) : State :=
  (List.range n).foldl (fun t i => readSlot r (x + BitVec.ofNat 16 i) t) s

theorem readSlots_dbIndices {x : BitVec 16} (h : (s.ring r).head = x) (n : Nat) :
    (readSlots r x n s).dbIndices r = ((s.ring r).prod, x + BitVec.ofNat 16 n, (s.ring r).state) := by
  unfold readSlots
  induction n with
  | zero => simp [State.dbIndices, h]
  | succ n ih =>
    obtain ⟨hprod, -, hstate⟩ : _ ∧ _ ∧ _ := by simpa only [State.dbIndices, Prod.mk.injEq] using ih
    have hnext : x + BitVec.ofNat 16 n + 1 = x + BitVec.ofNat 16 (n + 1) := by
      rw [BitVec.ofNat_add, ← BitVec.add_assoc]
      rfl
    rw [List.range_succ, List.foldl_append, List.foldl_cons, List.foldl_nil, readSlot_dbIndices, hprod, hstate, hnext]

theorem add_dist16 (a b : BitVec 16) : a + BitVec.ofNat 16 (dist16 a b) = b := by
  rw [dist16, BitVec.ofNat_toNat, BitVec.setWidth_eq, BitVec.add_comm, BitVec.sub_add_cancel]

theorem dist16_next (a : BitVec 16) : dist16 a (a + 1) = 1 := by
  rw [dist16, BitVec.add_comm, BitVec.add_sub_cancel]
  rfl
end

section
variable {s : State} {r : Nat} (x : BitVec 16)

/-- A command with its own SEQ is opened and acknowledged. -/
theorem readSlot_own (h : arg (s.commandAt r x) 0 0 16 = x.toNat) : ((readSlot r x s).ring r).ack = x + 1
    ∧ ((readSlot r x s).ring r).opened = (s.ring r).opened ++ [⟨x, s.commandAt r x, false, s.fw.handed⟩]
    ∧ (readSlot r x s).ringMem = s.ringMem := by
  rw [readSlot_cases, if_pos h, slotOpened_ring]
  exact ⟨rfl, rfl, rfl⟩

theorem complete_ack (k r : Nat) (q : BitVec 16) (st d b : Nat) (s : State) : ((complete r q st d b s).ring k).ack = (s.ring k).ack := by
  have hring (g : Ring) (u : State) (hu : u.rings = s.rings) (hg : g.ack = (s.ring r).ack) : ((u.setRing r g).ring k).ack = (s.ring k).ack := by
    rw [ring_setRing]
    split
    next e => rw [hg, e]
    · exact congrArg (fun m => (kget Ring.reset m k).ack) hu
  unfold complete
  dsimp only
  split
  · rfl
  · split
    · exact hring _ _ rfl rfl
    · exact hring _ _ rfl rfl

/-- A command with another SEQ is acknowledged and completes. -/
theorem readSlot_other (hr : (s.ring r).state = .ready) (h : arg (s.commandAt r x) 0 0 16 ≠ x.toNat) :
    ((readSlot r x s).ring r).ack = x + 1 ∧ ((readSlot r x s).ring r).find x = none
    ∧ ((readSlot r x s).ring r).ctail = (s.ring r).ctail + 1 := by
  have hopen : (((slotOpened r x s).ring r).find x).isSome = true := by
    rw [slotOpened_ring, Ring.find, List.find?_isSome]
    exact ⟨_, List.mem_append_right _ (List.mem_singleton_self _), decide_eq_true rfl⟩
  have hanswer := complete_started (slotOpened r x s) (markStarted r x (slotOpened r x s)) r x stSeqNum 0 0 hopen rfl
  obtain ⟨hfind, hready⟩ := hanswer
  rw [slotOpened_ring] at hready
  rw [readSlot_cases, if_neg h]
  refine ⟨?_, hfind, (hready hr).1⟩
  rw [complete_ack, markStarted, State.modRing, State.ring_setRing_same, slotOpened_ring]
end

/-! ### A write of DB_PROD (R464, R465, R473) -/

section
variable {s : State} {r : Nat} {value : BitVec 32} {v : BitVec 16} (hv : v = BitVec.ofNat 16 (fld value.toNat 0 16))
  (hr : (s.ring r).state = .ready)
include hv hr

theorem writeProd_discards (h : dist16 (s.ring r).prod v = 0 ∨ 32767 < dist16 (s.ring r).prod v ∨ 256 < dist16 (s.ring r).cpl v) :
    writeProd r value.toNat s = s.setRing r { s.ring r with overrun := true } := by
  subst hv
  unfold writeProd
  rw [doorbell_ready _ hr, if_pos h]

theorem writeProd_reads (h0 : 0 < dist16 (s.ring r).prod v) (h1 : dist16 (s.ring r).prod v ≤ 32767) (h2 : dist16 (s.ring r).cpl v ≤ 256) :
    writeProd r value.toNat s
      = readSlots r (s.ring r).head (dist16 (s.ring r).head v) (s.setRing r { s.ring r with prod := v }) := by
  have hnot : ¬ (dist16 (s.ring r).prod v = 0 ∨ 32767 < dist16 (s.ring r).prod v ∨ 256 < dist16 (s.ring r).cpl v) := by omega
  subst hv
  unfold writeProd
  rw [doorbell_ready _ hr, if_neg hnot]
  rfl

omit hv hr in
/-- The covered commands are read up to the value written. -/
theorem readSlots_reaches : ((readSlots r (s.ring r).head (dist16 (s.ring r).head v) (s.setRing r { s.ring r with prod := v })).ring r).prod = v
    ∧ ((readSlots r (s.ring r).head (dist16 (s.ring r).head v) (s.setRing r { s.ring r with prod := v })).ring r).head = v := by
  have hindices := readSlots_dbIndices r (s.setRing r { s.ring r with prod := v }) (x := (s.ring r).head) (by rw [State.ring_setRing_same])
    (dist16 (s.ring r).head v)
  rw [add_dist16, State.ring_setRing_same] at hindices
  obtain ⟨hprod, hhead, -⟩ : _ ∧ _ ∧ _ := by simpa only [State.dbIndices, Prod.mk.injEq] using hindices
  exact ⟨hprod, hhead⟩

omit hv hr in
theorem readSlots_one (x : BitVec 16) (t : State) : readSlots r x 1 t = readSlot r x t := by
  simp [readSlots, List.range_one]

omit hv in
/-- A value one past the head covers one command. -/
theorem readSlots_next (h : v = (s.ring r).head + 1) :
    let t := readSlots r (s.ring r).head (dist16 (s.ring r).head v) (s.setRing r { s.ring r with prod := v })
    let img := s.commandAt r (s.ring r).head
    (t.ring r).ack = v
    ∧ (arg img 0 0 16 = (s.ring r).head.toNat →
        (t.ring r).opened = (s.ring r).opened ++ [⟨(s.ring r).head, img, false, s.fw.handed⟩] ∧ t.ringMem = s.ringMem)
    ∧ (arg img 0 0 16 ≠ (s.ring r).head.toNat →
        (t.ring r).find (s.ring r).head = none ∧ (t.ring r).ctail = (s.ring r).ctail + 1) := by
  have himg : (s.setRing r { s.ring r with prod := v }).commandAt r (s.ring r).head = s.commandAt r (s.ring r).head := rfl
  have hring : (s.setRing r { s.ring r with prod := v }).ring r = { s.ring r with prod := v } := State.ring_setRing_same ..
  have hone : dist16 (s.ring r).head v = 1 := by rw [h, dist16_next]
  intro t img
  have ht : t = readSlot r (s.ring r).head (s.setRing r { s.ring r with prod := v }) := by
    simp only [t, hone, readSlots_one]
  rw [ht]
  by_cases hseq : arg img 0 0 16 = (s.ring r).head.toNat
  · obtain ⟨hack, hopen, hmem⟩ := readSlot_own (s := s.setRing r { s.ring r with prod := v }) (s.ring r).head (by rw [himg]; exact hseq)
    rw [himg, hring] at hopen
    exact ⟨hack.trans h.symm, fun _ => ⟨hopen, hmem⟩, fun e => absurd hseq e⟩
  · obtain ⟨hack, hfind, htail⟩ := readSlot_other (s := s.setRing r { s.ring r with prod := v }) (s.ring r).head
      (by rw [hring]; exact hr) (by rw [himg]; exact hseq)
    rw [hring] at htail
    exact ⟨hack.trans h.symm, fun e => absurd e hseq, fun _ => ⟨hfind, htail⟩⟩
end

/-! ### Refused accesses (R523, R524) -/

section
variable (s : State) (req off : Nat) (w : Bool)

theorem ite_satAll_prot (b : Bool) (o : Nat) : (if b then satAll o s else s).prot = s.prot :=
  view_ite State.prot (same_of_mask (satAll_mask (w := 0x700010#38) (by decide) o s) .prot (by decide)) rfl

theorem refuseAccess_prot : (refuseAccess req off w s).prot = { s.prot with
    hpfValid := true, hpfReq := if s.prot.hpfValid then s.prot.hpfReq else req % 16
    hpfWrite := if s.prot.hpfValid then s.prot.hpfWrite else w
    hpfAddr := if s.prot.hpfValid then s.prot.hpfAddr else BitVec.ofNat 26 off
    hpfCount := (satAdd 16 s.prot.hpfCount 1).1, hpfSat := s.prot.hpfSat || (satAdd 16 s.prot.hpfCount 1).2 } := by
  simp only [refuseAccess, ite_satAll_prot]

theorem refuseAccess_unposted : (refuseAccess req off w s).unposted = s.unposted := by
  unfold refuseAccess
  exact view_ite State.unposted (satAll_unposted _ _) rfl

theorem refuseAccess_rings (h : s.prot.hpfCount < 0xFFFF) : (refuseAccess req off w s).rings = s.rings := by
  have hadd : satAdd 16 s.prot.hpfCount 1 = (s.prot.hpfCount + 1, false) := if_pos (by omega)
  simp only [refuseAccess, hadd]
  rfl
end

/-! ### The doorbells of a ring that the firewall admits or refuses -/

section
variable {s : State} {req r : Nat} {value : BitVec 32} {v : BitVec 16} (ho : s.hostOpen = true)
include ho

theorem dbProdWrite_admitted (ha : s.admits req (dbOffset r 0) true = true) :
    execDbProdWrite req r value s = .next (writeProd r value.toNat s) := by rw [execDbProdWrite, hostAccess_admitted ho ha]

theorem dbProdWrite_refused (ha : s.admits req (dbOffset r 0) true = false) : completes (.dbProdWrite req r value) s (fun t =>
    t.prot.hpfValid = true ∧ t.prot.hpfCount = min 0xFFFF (s.prot.hpfCount + 1) ∧ (t.ring r).prod = (s.ring r).prod
    ∧ (t.ring r).opened = (s.ring r).opened ∧ (s.prot.hpfCount < 0xFFFF → t.rings = s.rings)
    ∧ (s.prot.hpfValid = false → t.prot.hpfReq = req % 16 ∧ t.prot.hpfWrite = true ∧ t.prot.hpfAddr = BitVec.ofNat 26 (dbOffset r 0))
    ∧ (s.prot.hpfValid = true → t.prot.hpfReq = s.prot.hpfReq ∧ t.prot.hpfAddr = s.prot.hpfAddr)) := by
  have hprot := refuseAccess_prot s req (dbOffset r 0) true
  have hring := congrFun (refuseAccess_unposted s req (dbOffset r 0) true) r
  refine ⟨refuseAccess req (dbOffset r 0) true s, ?_, ?_⟩
  · change execDbProdWrite req r value s = _
    rw [execDbProdWrite, hostAccess_refused ho ha]
  · dsimp only
    rw [hprot]
    refine ⟨rfl, satAdd_fst 16 s.prot.hpfCount 1, (congrArg Ring.prod hring :), (congrArg Ring.opened hring :), refuseAccess_rings s _ _ _,
      fun hvalid => ?_, fun hvalid => ?_⟩
    · simp only [hvalid, Bool.false_eq_true, if_false, and_self]
    · simp only [hvalid, if_true, and_self]

section
variable (ha : s.admits req (dbOffset r 0) true = true) (hv : v = BitVec.ofNat 16 (fld value.toNat 0 16))
include ha

theorem dbProdWrite_resetting (h : (s.ring r).state = .resetting) :
    completes (.dbProdWrite req r value) s (fun t => t = s.setRing r { s.ring r with overrun := true }) :=
  ⟨_, dbProdWrite_admitted ho ha, by rw [writeProd, doorbell_resetting _ h]⟩

theorem dbProdWrite_dead (h : (s.ring r).state = .down ∨ (s.ring r).state = .halted) :
    completes (.dbProdWrite req r value) s (fun t => t = s) :=
  ⟨_, dbProdWrite_admitted ho ha, by rw [writeProd, doorbell_dead _ h]⟩

include hv

theorem dbProdWrite_discards (hr : (s.ring r).state = .ready)
    (h : dist16 (s.ring r).prod v = 0 ∨ 32767 < dist16 (s.ring r).prod v ∨ 256 < dist16 (s.ring r).cpl v) :
    completes (.dbProdWrite req r value) s (fun t => t = s.setRing r { s.ring r with overrun := true }) :=
  ⟨_, dbProdWrite_admitted ho ha, writeProd_discards hv hr h⟩

theorem dbProdWrite_reads (hr : (s.ring r).state = .ready) (h0 : 0 < dist16 (s.ring r).prod v) (h1 : dist16 (s.ring r).prod v ≤ 32767)
    (h2 : dist16 (s.ring r).cpl v ≤ 256) : completes (.dbProdWrite req r value) s (fun t => (t.ring r).prod = v ∧ (t.ring r).head = v
      ∧ (v = (s.ring r).head + 1 →
          let img := s.commandAt r (s.ring r).head
          (t.ring r).ack = v
          ∧ (arg img 0 0 16 = (s.ring r).head.toNat →
              (t.ring r).opened = (s.ring r).opened ++ [⟨(s.ring r).head, img, false, s.fw.handed⟩] ∧ t.ringMem = s.ringMem)
          ∧ (arg img 0 0 16 ≠ (s.ring r).head.toNat →
              (t.ring r).find (s.ring r).head = none ∧ (t.ring r).ctail = (s.ring r).ctail + 1))) := by
  obtain ⟨hprod, hhead⟩ := readSlots_reaches (s := s) (r := r) (v := v)
  exact ⟨_, (dbProdWrite_admitted ho ha).trans (congrArg Host.Outcome.next (writeProd_reads hv hr h0 h1 h2)), hprod, hhead,
    readSlots_next hr⟩
end

theorem dbCplWrite_moves (ha : s.admits req (dbOffset r 4) true = true) (hr : (s.ring r).state = .ready)
    (hv : v = BitVec.ofNat 16 (fld value.toNat 0 16)) : completes (.dbCplWrite req r value) s (fun t =>
      t = if dist16 (s.ring r).cpl v ≤ dist16 (s.ring r).cpl (s.ring r).ctail then s.setRing r { s.ring r with cpl := v }
        else s.setRing r { s.ring r with badCons := true }) := by
  subst hv
  exact ⟨_, congrArg Host.Outcome.next (hostAccess_admitted ho ha _), by rw [writeCpl, doorbell_ready _ hr]⟩

theorem dbEvconsWrite_moves (ha : s.admits req (dbOffset r 8) true = true) (hr : (s.ring r).state = .ready)
    (hv : v = BitVec.ofNat 16 (fld value.toNat 0 16)) : completes (.dbEvconsWrite req r value) s (fun t =>
      (dist16 (s.ring r).evcons v ≤ dist16 (s.ring r).evcons (s.ring r).etail →
        (t.ring r).evcons = v ∧ (s.fw.backlog = [] → t = s.setRing r { s.ring r with evcons := v }))
      ∧ (¬ dist16 (s.ring r).evcons v ≤ dist16 (s.ring r).evcons (s.ring r).etail →
        t = s.setRing r { s.ring r with badCons := true })) := by
  refine ⟨writeEvcons r value.toNat s, congrArg Host.Outcome.next (hostAccess_admitted ho ha _), ?_⟩
  have hwrite : writeEvcons r value.toNat s = if dist16 (s.ring r).evcons v ≤ dist16 (s.ring r).evcons (s.ring r).etail
      then drainFaults (s.ringOwner r) (s.setRing r { s.ring r with evcons := v }) else s.setRing r { s.ring r with badCons := true } := by
    rw [writeEvcons, doorbell_ready _ hr, hv]
  dsimp only
  rw [hwrite]
  refine ⟨fun h => ?_, fun h => if_neg h⟩
  rw [if_pos h]
  have hring := congrFun (drainFaults_unposted (s.ringOwner r) (s.setRing r { s.ring r with evcons := v })) r
  have hcons : ((s.setRing r { s.ring r with evcons := v }).ring r).evcons = v := by rw [State.ring_setRing_same]
  exact ⟨(congrArg Ring.evcons hring :).trans hcons, fun hb => drainFaults_idle _ hb⟩

theorem ringReset_begins (ha : s.admits req (dbOffset r 0xC) true = true) (hr : (s.ring r).state = .ready) :
    completes (.ringReset req r value) s (fun t => t = s.setRing r { s.ring r with
      cplEn := bit value.toNat 0, evtEn := bit value.toNat 1, state := if bit value.toNat 31 then .resetting else .ready }) := by
  refine ⟨_, congrArg Host.Outcome.next (hostAccess_admitted ho ha _), ?_⟩
  rw [writeCtrl, doorbell_ready _ hr, hr]
end

/-- A reset that is done (R471). -/
theorem ringResetDone_ready {s : State} {r : Nat} (hr : (s.ring r).state = .resetting) (ho : (s.ring r).opened = [])
    (hb : s.fw.backlog = []) : completes (.ringResetDone r) s (fun t => t = s.setRing r { s.ring r with
      prod := 0, cpl := 0, evcons := 0, ack := 0, head := 0, etail := 0, ctail := 0, dropped := 0, state := .ready
      evtPend := false, cplPend := false, versionRead := false }) := by
  have hexec : execRingResetDone r s = .next (drainFaults (s.ringOwner r) (s.setRing r (s.ring r).fresh)) :=
    if_pos ⟨hr, by rw [ho]; rfl⟩
  refine ⟨_, hexec, (drainFaults_idle _ ?_).trans ?_⟩
  · exact hb
  · rw [Ring.fresh, ← ho]

/-- Settles O49: the writes of each doorbell register by the state of its ring, refused accesses, and the end of a reset. -/
theorem ringDoorbells : Obligations.RingDoorbells := by
  unfold Obligations.RingDoorbells
  refine ⟨?writes, fun s r => ringResetDone_ready⟩
  case writes =>
    intro s req r value ho g v
    exact ⟨fun ha => ⟨dbProdWrite_discards ho ha rfl, dbProdWrite_reads ho ha rfl, dbProdWrite_resetting ho ha, dbProdWrite_dead ho ha⟩,
      dbProdWrite_refused ho, fun ha hr => dbCplWrite_moves ho ha hr rfl, fun ha hr => dbEvconsWrite_moves ho ha hr rfl,
      ringReset_begins ho⟩

end Sys2Proof.Machine
end

section
/-! PROOF. Events and PANIC (R455, R461, R469, R470, R476, R478 to R480, R599): where an event goes by the room in its ring, and the checks
of the Control Cluster that end in PANIC. -/

namespace Sys2Proof.Machine

/-! ### Writing an event (R458, R461, R470) -/

section
variable (r code payload : Nat) (tag : BitVec 16) (s : State)

theorem putEvent_ring : (putEvent r code payload tag s).ring r = { s.ring r with etail := (s.ring r).etail + 1, evtPend := true } :=
  State.ring_setRing_same ..

theorem putEvent_slot : bread (putEvent r code payload tag s).ringMem (0x10000 * r + 0x6000 + 32 * ((s.ring r).etail.toNat % 256)) 32
    = leBytes 32 ((s.ring r).etail.toNat + code * 2 ^ 16 + tag.toNat * 2 ^ 48 + s.beat.cnt.toNat * 2 ^ 64 + payload % 2 ^ 128 * 2 ^ 128) := by
  have hread := bread_bwrite s.ringMem (0x10000 * r + 0x6000 + 32 * ((s.ring r).etail.toNat % 256))
    (leBytes 32 ((s.ring r).etail.toNat + code * 2 ^ 16 + tag.toNat * 2 ^ 48 + s.beat.cnt.toNat * 2 ^ 64 + payload % 2 ^ 128 * 2 ^ 128))
  rw [leBytes_length] at hread
  exact hread

theorem putEvent_elsewhere {a : Nat} (h : a < 0x10000 * r + 0x6000 ∨ 0x10000 * r + 0x8000 ≤ a) :
    kget 0 (putEvent r code payload tag s).ringMem a = kget 0 s.ringMem a :=
  kget_bwrite_out _ _ _ _ (by rw [leBytes_length]; omega)
end

/-! ### Posting an event by the room in its ring (R469) -/

section
variable {s : State} {p r code : Nat} (payload : Nat) (he : s.eventRing p = some r) (hf : s.fwRunning = true)
  (hr : (s.ring r).state = .ready)
include he hf hr

/-- An event whose ring is READY: written, made to wait, or dropped. -/
theorem postEvent_ready : postEvent p code payload s = if code = 1 then
      (if s.eventRoom r && !s.faultsWait p then putEvent r code payload (s.jobTag p) s
        else { s with fw := { s.fw with backlog := s.fw.backlog ++ [⟨p, s.jobTag p, BitVec.ofNat 128 payload⟩] } })
    else if s.eventRoom r then putEvent r code payload (s.jobTag p) s
    else s.setRing r { s.ring r with dropped := min 0xFFFF ((s.ring r).dropped + 1), evtOverflow := true } := by
  unfold postEvent
  simp only [he, hf, hr]
  rfl

theorem postEvent_writes (hroom : s.eventRoom r = true) (hwait : code = 1 → s.faultsWait p = false) :
    postEvent p code payload s = putEvent r code payload (s.jobTag p) s := by
  rw [postEvent_ready payload he hf hr]
  split
  next hc => rw [hroom, hwait hc]; rfl
  next => rfl

theorem postEvent_drops (hroom : s.eventRoom r = false) (hc : code ≠ 1) : postEvent p code payload s
    = s.setRing r { s.ring r with dropped := min 0xFFFF ((s.ring r).dropped + 1), evtOverflow := true } := by
  rw [postEvent_ready payload he hf hr, if_neg hc, if_neg (by rw [hroom]; decide)]

theorem postEvent_waits (hroom : s.eventRoom r = false) (hc : code = 1) : postEvent p code payload s
    = { s with fw := { s.fw with backlog := s.fw.backlog ++ [⟨p, s.jobTag p, BitVec.ofNat 128 payload⟩] } } := by
  rw [postEvent_ready payload he hf hr, if_pos hc, hroom]
  rfl
end

/-! ### PANIC (R476, R479) -/

/-- Fremund has panicked, and every ring that a partition owns in `s` is HALTED. -/
def State.panics (s t : State) : Prop := t.fw.state = .panic ∧ ∀ r, (s.ringOwner r).isSome = true → (t.ring r).state = .halted

/-- Ring `r` is HALTED if a partition owns it. -/
def haltOwned (s : State) (r : Nat) : State := if (s.ringOwner r).isSome then s.modRing r (fun g => { g with state := .halted }) else s

section
variable (s : State) (r : Nat)

theorem haltOwned_owner (k : Nat) : (haltOwned s r).ringOwner k = s.ringOwner k := by
  unfold haltOwned
  split <;> rfl

theorem haltOwned_keeps {k : Nat} (h : (s.ring k).state = .halted) : ((haltOwned s r).ring k).state = .halted := by
  unfold haltOwned
  split
  · rw [State.modRing, ring_setRing]
    split
    · rfl
    · exact h
  · exact h

theorem haltOwned_halts (h : (s.ringOwner r).isSome = true) : ((haltOwned s r).ring r).state = .halted := by
  rw [haltOwned, if_pos h, State.modRing, State.ring_setRing_same]
end

/-- A ring that is HALTED, or is in the list and owned, is HALTED. -/
theorem foldl_haltOwned {rs : List Nat} {s : State} {k : Nat} (h : (s.ring k).state = .halted ∨ (k ∈ rs ∧ (s.ringOwner k).isSome = true)) :
    ((rs.foldl haltOwned s).ring k).state = .halted := by
  induction rs generalizing s with
  | nil => exact h.resolve_right (fun h => nomatch h.1)
  | cons r rs ih =>
    refine ih ?_
    rcases h with hk | ⟨hmem, ho⟩
    · exact .inl (haltOwned_keeps s r hk)
    · rcases List.mem_cons.1 hmem with rfl | hmem
      · exact .inl (haltOwned_halts s k ho)
      · exact .inr ⟨hmem, by rwa [haltOwned_owner]⟩

theorem ringOwner_lt {s : State} {r : Nat} (h : (s.ringOwner r).isSome = true) : r < 16 := by
  by_contra hr
  simp [State.ringOwner, hr] at h

theorem enterPanic_panics (s : State) : s.panics (enterPanic s) := by
  refine ⟨congrArg Fremund.state (same_of_mask (w := 0x100000#38) (haltRings_mask (by decide) _) .fw (by decide)), fun r h => ?_⟩
  exact foldl_haltOwned (.inr ⟨List.mem_range.2 (ringOwner_lt h), h⟩)

theorem enterPanic_fw (s : State) : (enterPanic s).fw = { s.fw with state := .panic } :=
  same_of_mask (w := 0x100000#38) (haltRings_mask (by decide) _) .fw (by decide)

/-! ### Watching the Control Cluster (R455, R478, R480, R599) -/

section
variable {s : State}

theorem heartbeatTick_counts (hf : s.fwRunning = true) (st : BitVec 3) : completes (.heartbeatTick st) s (fun t => t.fw.hb = s.fw.hb + 1
    ∧ ∀ i, i < 3 → nth t.fw.misses i = if s.pmu.state = 3 then 0 else if st.getLsbD i = true then nth s.fw.misses i + 1 else 0) := by
  have hexec : execHeartbeatTick st s = .next { s with fw := { s.fw with
      hb := s.fw.hb + 1
      misses := (List.range 3).map (fun i => if s.pmu.state = 3 then 0 else if st.getLsbD i then nth s.fw.misses i + 1 else 0) } } := by
    rw [execHeartbeatTick, if_neg (by rw [hf]; decide)]
  refine ⟨_, hexec, rfl, fun i hi => ?_⟩
  rw [nth, List.getD_eq_getElem?_getD, List.getElem?_map, List.getElem?_range hi]
  rfl

/-- A cause set among the faults of the cores is set. -/
theorem coreFault_bit {i : Nat} (h : i < 3) (c : BitVec 4) : (BitVec.ofNat 4 (setBit c.toNat i true)).getLsbD i = true := by
  have hall : ∀ i < 3, ∀ c : BitVec 4, (BitVec.ofNat 4 (setBit c.toNat i true)).getLsbD i = true := by decide
  exact hall i h c

/-- The state in which core `i`'s fault is noted. -/
def coreFaultNoted (i : Nat) (s : State) : State :=
  { s with fw := { s.fw with coreFault := BitVec.ofNat 4 (setBit s.fw.coreFault.toNat i true) } }

theorem coreProgressFail_panics (hf : s.fwRunning = true) {i : Nat} (hi : i < 3) (hm : 4 ≤ nth s.fw.misses i) :
    completes (.coreProgressFail i) s (fun t => s.panics t ∧ t.fatal.panic = true ∧ t.fw.coreFault.getLsbD i = true) := by
  have hexec : execCoreProgressFail i s = .next { enterPanic (coreFaultNoted i s) with
      fatal := { (enterPanic (coreFaultNoted i s)).fatal with panic := true } } := by
    unfold execCoreProgressFail
    rw [if_neg (by rw [hf, decide_eq_false (Nat.not_lt.2 hm)]; decide)]
    rfl
  refine ⟨_, hexec, enterPanic_panics (coreFaultNoted i s), rfl, ?_⟩
  exact (congrArg (fun f : Fremund => f.coreFault.getLsbD i) (enterPanic_fw (coreFaultNoted i s))).trans (coreFault_bit hi _)

variable (hp : s.pins.phase = .running)
include hp

theorem watchdogExpiry_panics (hb : s.fw.state ≠ .boot) :
    completes .watchdogExpiry s (fun t => s.panics t ∧ t.fatal.wdog = true ∧ t.fw.wdog = true) := by
  have hexec : execWatchdogExpiry s = .next { enterPanic { s with fw := { s.fw with wdog := true } } with
      fatal := { (enterPanic { s with fw := { s.fw with wdog := true } }).fatal with wdog := true } } := by
    rw [execWatchdogExpiry, if_neg (not_or.2 ⟨not_not.2 hp, hb⟩)]
  refine ⟨_, hexec, enterPanic_panics { s with fw := { s.fw with wdog := true } }, rfl, ?_⟩
  exact congrArg Fremund.wdog (enterPanic_fw { s with fw := { s.fw with wdog := true } })

theorem ccSramError_panics : completes (.ccSramError false) s (fun t => s.panics t ∧ t.fatal.panic = true) := by
  have hexec : execCcSramError false s = .next { enterPanic s with fatal := { (enterPanic s).fatal with panic := true } } := by
    rw [execCcSramError, if_neg (not_not.2 hp), if_neg (by decide)]
  exact ⟨_, hexec, enterPanic_panics s, rfl⟩

omit hp in
theorem blkCount_ccCorr (s : State) : (blkCount 0 s).blk.ccCorr = min 0xFFFF (s.blk.ccCorr + 1) := by
  simp only [blkCount, ite_satAll_blk]
  exact satAdd_fst 16 s.blk.ccCorr 1

omit hp in
theorem postEvent_fwState (p code payload : Nat) (s : State) : (postEvent p code payload s).fw.state = s.fw.state := by
  have hput (r : Nat) (tag : BitVec 16) : (putEvent r code payload tag s).fw.state = s.fw.state := rfl
  have hfw (fw : Fremund) (h : fw.state = s.fw.state) : ({ s with fw := fw } : State).fw.state = s.fw.state := h
  unfold postEvent
  split
  · rfl
  dsimp only
  split
  · rfl
  split
  · exact hfw _ rfl
  split
  · exact view_ite (fun t => t.fw.state) (hput _ _) (hfw _ rfl)
  · exact view_ite (fun t => t.fw.state) (hput _ _) rfl

omit hp in
theorem satPart_fwState (p off : Nat) (s : State) : (satPart p off s).fw.state = s.fw.state := postEvent_fwState _ _ _ _

omit hp in
theorem satAll_fwState (off : Nat) (s : State) : (satAll off s).fw.state = s.fw.state :=
  view_foldl (fun t => t.fw.state) (fun t p => satPart_fwState p off t) s.liveParts s

omit hp in
theorem blkCount_fwState (n : Nat) (s : State) : (blkCount n s).fw.state = s.fw.state := by
  unfold blkCount
  exact view_ite (fun t => t.fw.state) (satAll_fwState _ _) rfl

theorem ccSramError_counts : completes (.ccSramError true) s (fun t => t.blk.ccCorr = min 0xFFFF (s.blk.ccCorr + 1)
    ∧ t.fw.state = s.fw.state) := by
  have hexec : execCcSramError true s = .next (blkCount 0 s) := by rw [execCcSramError, if_neg (not_not.2 hp), if_pos rfl]
  exact ⟨_, hexec, blkCount_ccCorr s, blkCount_fwState 0 s⟩
end

/-- Settles O50: an event is written, waits or is dropped by the room in its ring; the three ways to PANIC halt the owned rings. -/
theorem eventsAndPanic : Obligations.EventsAndPanic := by
  unfold Obligations.EventsAndPanic
  refine ⟨?events, ?panics⟩
  case events =>
    intro s p r code payload he hf hr g t
    refine ⟨fun hroom hwait => ?_, postEvent_drops payload he hf hr, postEvent_waits payload he hf hr⟩
    have ht : t = putEvent r code payload (s.jobTag p) s := postEvent_writes payload he hf hr hroom hwait
    rw [ht, putEvent_ring]
    exact ⟨rfl, rfl, rfl, rfl, putEvent_slot r code payload _ s, fun a => putEvent_elsewhere r code payload _ s⟩
  case panics =>
    intro s panics
    exact ⟨fun hf => ⟨heartbeatTick_counts hf, fun i => coreProgressFail_panics hf⟩,
      fun hp => ⟨watchdogExpiry_panics hp, ccSramError_panics hp, ccSramError_counts hp⟩⟩

end Sys2Proof.Machine
end

section
/-! PROOF. The checks of a command that its control core comes to (R456, R482, R483, R488, R489, R565), one lemma per check, and the
answers of CIF_VERSION and of an unknown opcode. -/

namespace Sys2Proof.Machine

/-! ### The checks in their order (R488, R489) -/

/-- CIF_VERSION has been read, or the command is CIF_VERSION (R482). -/
def State.versionKnown (s : State) (k : CmdRule) (r : Nat) : Bool := decide (k.op = 1) || (s.ring r).versionRead

/-- The ring or a lost FW region denies the command (R488, R565). -/
def State.denies (s : State) (k : CmdRule) (r : Nat) : Bool := k.admin && !s.ringAdmin r || k.lost && s.fw.fwLost

/-- A power state stands before the command (R537). -/
def State.heldByPower (s : State) (op : Nat) : Bool := wakesBlock s.pmu.state op || (s.pmu.transition && wakesBlock s.pmu.target op)

/-- The header, the fields and the result buffer of the command are valid (R488). -/
def State.wellFormed (s : State) (k : CmdRule) (p : Nat) (img : BitVec 512) : Bool := headerOk img && fieldsOk img k.fields && s.resultOk p img

section
variable {k : CmdRule} {s : State} {r : Nat} {q : BitVec 16} {o : OpenCmd} {p : Nat} (body : Nat → BitVec 512 → State → State)
  (hm : s.mayBegin r q = some o) (ho : s.ringOwner r = some p) (hr : s.ringRuns r = true) (hop : cmdOpcode o.image = k.op)
include hm ho hr hop

/-- What a command that its control core comes to does, by the first check that fails. -/
theorem runCommand_checks : runCommand k r q body s =
    if s.versionKnown k r = false then complete r q stNotRead 0 0 s
    else if cmdVer o.image ≠ 1 then complete r q stVersion 0 0 s
    else if s.denies k r then complete r q stDenied 0 0 s
    else
      match if k.job then jobCheck (s.part p) (cmdTag o.image) else none with
      | some st => complete r q st 0 0 s
      | none =>
        if wakesBlock s.pmu.state k.op then
          (if s.pmu.transition then s else { s with pmu := { s.pmu with target := 0, transition := true } })
        else if s.pmu.transition && wakesBlock s.pmu.target k.op then s
        else if s.wellFormed k p o.image = false then complete r q stField 0 0 s
        else body p o.image (markStarted r q s) := by
  have hread : (k.op ≠ 1 ∧ ¬ (s.ring r).versionRead = true) ↔ s.versionKnown k r = false := by
    simp [State.versionKnown]
  have hform : (!headerOk o.image || !fieldsOk o.image k.fields || !s.resultOk p o.image) = true ↔ s.wellFormed k p o.image = false := by
    rw [← Bool.not_and, ← Bool.not_and, Bool.not_eq_true', State.wellFormed]
  have hdenied {t u : State} : (if (k.admin && !s.ringAdmin r) = true then t else if (k.lost && s.fw.fwLost) = true then t else u)
      = if s.denies k r = true then t else u := by
    by_cases h : (k.admin && !s.ringAdmin r) = true
    · rw [if_pos h, if_pos (by rw [State.denies, h]; rfl)]
    · rw [if_neg h, State.denies, Bool.eq_false_of_not_eq_true h, Bool.false_or]
  unfold runCommand
  simp only [hm, ho, hr, hop, bne_self_eq_false, Bool.not_true, Bool.or_self, Bool.false_eq_true, if_false, hread, hform, hdenied]
    <;> rfl

theorem runCommand_notRead (h : s.versionKnown k r = false) : runCommand k r q body s = complete r q stNotRead 0 0 s := by
  rw [runCommand_checks body hm ho hr hop, if_pos h]

variable (hread : s.versionKnown k r = true)
include hread

theorem runCommand_version (h : cmdVer o.image ≠ 1) : runCommand k r q body s = complete r q stVersion 0 0 s := by
  rw [runCommand_checks body hm ho hr hop, if_neg (by rw [hread]; decide), if_pos h]

variable (hver : cmdVer o.image = 1)
include hver

theorem runCommand_denied (h : s.denies k r = true) : runCommand k r q body s = complete r q stDenied 0 0 s := by
  rw [runCommand_checks body hm ho hr hop, if_neg (by rw [hread]; decide), if_neg (not_not.2 hver), if_pos h]

variable (hdeny : s.denies k r = false)
include hdeny

theorem runCommand_job {st : Nat} (hk : k.job = true) (h : jobCheck (s.part p) (cmdTag o.image) = some st) :
    runCommand k r q body s = complete r q st 0 0 s := by
  rw [runCommand_checks body hm ho hr hop, if_neg (by rw [hread]; decide), if_neg (not_not.2 hver), if_neg (by rw [hdeny]; decide),
    if_pos hk, h]

variable (hjob : k.job = true → jobCheck (s.part p) (cmdTag o.image) = none) (hheld : s.heldByPower k.op = false)
include hjob hheld

/-- A command that passes the checks of its job and of the power state. -/
theorem runCommand_formed : runCommand k r q body s =
    if s.wellFormed k p o.image = false then complete r q stField 0 0 s else body p o.image (markStarted r q s) := by
  obtain ⟨hstate, htarget⟩ := Bool.or_eq_false_iff.1 hheld
  have hnone : (if k.job = true then jobCheck (s.part p) (cmdTag o.image) else none) = none := by
    split
    next h => exact hjob h
    next => rfl
  rw [runCommand_checks body hm ho hr hop, if_neg (by rw [hread]; decide), if_neg (not_not.2 hver), if_neg (by rw [hdeny]; decide), hnone]
  dsimp only
  rw [if_neg (by rw [hstate]; decide), if_neg (by rw [htarget]; decide)]

theorem runCommand_field (h : s.wellFormed k p o.image = false) : runCommand k r q body s = complete r q stField 0 0 s := by
  rw [runCommand_formed body hm ho hr hop hread hver hdeny hjob hheld, if_pos h]

theorem runCommand_body (h : s.wellFormed k p o.image = true) : runCommand k r q body s = body p o.image (markStarted r q s) := by
  rw [runCommand_formed body hm ho hr hop hread hver hdeny hjob hheld, if_neg (by rw [h]; decide)]
end

/-! ### The job check (R489) -/

section
variable {q : Part} {tag : BitVec 16}

theorem jobCheck_ended (h : tag ∈ q.endedTags) : jobCheck q tag = some stJobEnded := by
  rw [jobCheck, if_neg (fun hc => hc.2.2 h), if_pos h]

theorem jobCheck_noJob (h : ¬ tag ∈ q.endedTags) (hj : tag = 0 ∨ q.job ≠ some tag) : jobCheck q tag = some stNoJob := by
  rw [jobCheck, if_neg (fun hc => hj.elim hc.2.1 (fun hne => hne hc.1)), if_neg h]

theorem jobCheck_passes (h : ¬ tag ∈ q.endedTags) (h0 : tag ≠ 0) (hj : q.job = some tag) : jobCheck q tag = none :=
  if_pos ⟨hj, h0, h⟩
end

/-! ### An unknown opcode (R483, R488) -/

section
variable {s : State} {r : Nat} {q : BitVec 16} {o : OpenCmd}

theorem startable_open {g : Ring} (h : startable g q = some o) : (g.find q).isSome = true := by
  unfold startable at h
  split at h
  next x hx =>
    split at h
    next hq =>
      rw [Ring.find, List.find?_isSome]
      exact ⟨x, List.mem_of_find?_eq_some hx, decide_eq_true hq.1⟩
    · cases h
  · cases h

theorem mayBegin_open (h : s.mayBegin r q = some o) : ((s.ring r).find q).isSome = true :=
  startable_open (Option.filter_eq_some_iff.1 h).1

theorem commandUnknownOpcode_answers (hm : s.mayBegin r q = some o) (hr : s.ringRuns r = true) (ho : ¬ cmdOpcode o.image ∈ opcodes) :
    completes (.commandUnknownOpcode r q) s (fun t =>
      answered r q (if (s.ring r).versionRead = true then stUnknown else stNotRead) 0 0 s t) := by
  have hexec : execCommandUnknownOpcode r q s
      = .next (complete r q (if (s.ring r).versionRead = true then stUnknown else stNotRead) 0 0 s) := by
    unfold execCommandUnknownOpcode
    rw [hm]
    dsimp only
    rw [if_neg (by rw [hr]; simpa using ho)]
  exact ⟨_, hexec, complete_answers s r q _ 0 0 (mayBegin_open hm)⟩
end

/-! ### CIF_VERSION (R482) -/

section
variable {s u : State} {r p : Nat} {q : BitVec 16} {img : BitVec 512}

/-- The completion of an open CIF_VERSION with OK or RESULT_SHORT admits the ring's other commands. -/
theorem complete_versionRead {o : OpenCmd} {st : Nat} (ho : (u.ring r).find q = some o) (hop : cmdOpcode o.image = 1)
    (hst : st = 0 ∨ st = 8) (hr : (u.ring r).state = .ready) (d b : Nat) : ((complete r q st d b u).ring r).versionRead = true := by
  unfold complete
  simp only [ho, hr, if_true, State.ring_setRing_same, hop]
  rcases hst with rfl | rfl <;> simp

theorem completeWith_versionRead {o : OpenCmd} (ho : (u.ring r).find q = some o) (hop : cmdOpcode o.image = 1)
    (hr : (u.ring r).state = .ready) (d : Nat) (bs : List Byte) : ((completeWith p r q img d bs u).ring r).versionRead = true := by
  have hwrite (va : Nat) (l : List Byte) : ((writeVa p false va l u).ring r).find q = some o ∧ ((writeVa p false va l u).ring r).state = .ready := by
    obtain ⟨hopened, -, hstate⟩ := cmdsOf_ring (writeVa_cmds p false va l u) r
    exact ⟨by rw [Ring.find, hopened]; exact ho, hstate.trans hr⟩
  unfold completeWith
  dsimp only
  split
  · exact complete_versionRead ho hop (.inl rfl) hr _ _
  · obtain ⟨ho', hr'⟩ := hwrite (resultVa img) (bs.take (min bs.length (resultLen img)))
    split
    · exact complete_versionRead ho' hop (.inr rfl) hr' _ _
    · exact complete_versionRead ho' hop (.inl rfl) hr' _ _

/-- The open command of an admitted command, once it has started. -/
theorem admitted_started {k : CmdRule} (h : admitted k r q p img s = true) :
    ∃ o, ((markStarted r q s).ring r).find q = some o ∧ cmdOpcode o.image = k.op := by
  simp only [admitted, Bool.and_eq_true, decide_eq_true_eq, beq_iff_eq] at h
  obtain ⟨⟨⟨⟨⟨⟨⟨⟨⟨⟨⟨⟨⟨⟨-, hfind⟩, -⟩, -⟩, hop⟩, -⟩, -⟩, -⟩, -⟩, -⟩, -⟩, -⟩, -⟩, -⟩, -⟩ := h
  have himage := (find_started (s.ring r) q q).trans hfind
  obtain ⟨o, ho, rfl⟩ := Option.map_eq_some_iff.1 himage
  exact ⟨o, by rw [markStarted, State.modRing, State.ring_setRing_same]; exact ho, hop⟩

theorem cifVersion_answers (h : admitted ⟨1, false, false, false, []⟩ r q p img s = true) : completes (.cifVersion r q) s (fun t =>
    let a := resultAnswer img (3 + s.fw.version.toNat * 2 ^ 32 + blkVer * 2 ^ 64) (opcodes.flatMap (fun o => leBytes 4 (o + 2 ^ 16 + 2 ^ 24)))
    answered r q a.1 a.2.1 a.2.2 s t ∧ ((s.ring r).state = .ready → (t.ring r).versionRead = true)) := by
  refine completes_admitted h rfl ⟨completeWith_started s _ p r q img _ _ (admitted_find h) rfl, fun hr => ?_⟩
  obtain ⟨o, ho, hop⟩ := admitted_started h
  refine completeWith_versionRead ho hop ?_ _ _
  rw [markStarted, State.modRing, State.ring_setRing_same]
  exact hr
end

/-- Settles O51: each check of a command by its lemma, the job check, and the two commands that answer for the interface itself. -/
theorem commandChecks : Obligations.CommandChecks := by
  unfold Obligations.CommandChecks
  refine ⟨?checks, fun q tag => ⟨jobCheck_ended, jobCheck_noJob, jobCheck_passes⟩, fun s r q o => commandUnknownOpcode_answers,
    fun s r p q img => cifVersion_answers⟩
  case checks =>
    intro k s r q o p body hm ho hr hop t fails read denied held
    exact ⟨runCommand_notRead body hm ho hr hop, runCommand_version body hm ho hr hop, runCommand_denied body hm ho hr hop,
      fun st hread hver hdeny => runCommand_job body hm ho hr hop hread hver hdeny, fun hread hver hdeny hjob hheld =>
        ⟨runCommand_field body hm ho hr hop hread hver hdeny hjob hheld, runCommand_body body hm ho hr hop hread hver hdeny hjob hheld⟩⟩

end Sys2Proof.Machine
end

section
/-! PROOF. Jobs, loading and runs by command (R52, R71, R336, R469, R493 to R497, R527, R528): each outcome of each command by a lemma, and
what ending a job leaves of its partition's commands, tags and sequences. -/

namespace Sys2Proof.Machine

/-! ### Commands that fail -/

/-- A command has completed with a status alone, its partition being as before. -/
def failsWith (s : State) (r p : Nat) (q : BitVec 16) (st : Nat) (t : State) : Prop := answered r q st 0 0 s t ∧ t.part p = s.part p

section
variable {s : State} {r p : Nat} {q : BitVec 16} {img : BitVec 512} {k : CmdRule} (h : admitted k r q p img s = true)
include h

theorem complete_failsWith (st : Nat) : failsWith s r p q st (complete r q st 0 0 (markStarted r q s)) :=
  ⟨complete_started s _ r q _ _ _ (admitted_find h) rfl, by rw [complete_part]; rfl⟩

/-- An admitted command of a job names the partition's open job (R489). -/
theorem admitted_job (hk : k.job = true) : (s.part p).job = some (cmdTag img) := by
  simp only [admitted, Bool.and_eq_true, Bool.or_eq_true, Bool.not_eq_true'] at h
  obtain ⟨⟨⟨⟨⟨⟨-, hjob⟩, -⟩, -⟩, -⟩, -⟩, -⟩ := h
  have hnone := hjob.resolve_left (by rw [hk]; decide)
  unfold jobCheck at hnone
  split at hnone
  next hj => exact hj.1
  · split at hnone <;> cases hnone
end

/-! ### EVENT_RING_SET (R469, R492, R496) -/

theorem denied_iff {a : Option Nat} {p : Nat} {x y : Bool} :
    (decide (a ≠ some p) || x && !y) = true ↔ ¬ (a = some p ∧ (x = true → y = true)) := by
  cases x <;> cases y <;> simp

section
variable {s : State} {r p : Nat} {q : BitVec 16} {img : BitVec 512} (h : admitted ⟨2, false, false, false, [(0x18, 0, 4)]⟩ r q p img s = true)
include h

theorem eventRingSet_sets (ho : s.ringOwner (arg img 0x18 0 4) = some p ∧ (s.ringAdmin (arg img 0x18 0 4) = true → s.ringAdmin r = true)) :
    completes (.eventRingSet r q) s (fun t => answered r q stOk 0 0 s t ∧ (t.part p).eventRing = arg img 0x18 0 4) := by
  have hpass : ¬ ((decide ((markStarted r q s).ringOwner (arg img 0x18 0 4) ≠ some p)
      || (markStarted r q s).ringAdmin (arg img 0x18 0 4) && !(markStarted r q s).ringAdmin r) = true) :=
    fun hd => denied_iff.1 hd ho
  refine completes_admitted h rfl ?_
  dsimp only
  rw [if_neg hpass]
  refine ⟨complete_started s _ r q _ _ _ (admitted_find h) (drainBacklog_cmds _ _ _), ?_⟩
  rw [complete_part, drainFaults, State.part, same_of_mask (w := 0x700000#38) (drainBacklog_mask (by decide) _ _ _) .parts (by decide)]
  exact congrArg Part.eventRing (State.part_modPart_same (markStarted r q s) p _)

theorem eventRingSet_denied
    (ho : ¬ (s.ringOwner (arg img 0x18 0 4) = some p ∧ (s.ringAdmin (arg img 0x18 0 4) = true → s.ringAdmin r = true))) :
    completes (.eventRingSet r q) s (failsWith s r p q stDenied) := by
  have hdeny : (decide ((markStarted r q s).ringOwner (arg img 0x18 0 4) ≠ some p)
      || (markStarted r q s).ringAdmin (arg img 0x18 0 4) && !(markStarted r q s).ringAdmin r) = true := denied_iff.2 ho
  refine completes_admitted h rfl ?_
  dsimp only
  rw [if_pos hdeny]
  exact complete_failsWith h _
end

/-! ### JOB_OPEN (R493, R527) -/

section
variable {s : State} {r p : Nat} {q : BitVec 16} {img : BitVec 512} (h : admitted ⟨0x100, false, false, false, []⟩ r q p img s = true)
include h

theorem jobOpen_noTag (ht : cmdTag img = 0) : completes (.jobOpen r q) s (failsWith s r p q stField) := by
  refine completes_admitted h rfl ?_
  simp only [ht, if_true]
  exact complete_failsWith h _

theorem jobOpen_busy (ht : cmdTag img ≠ 0) (hj : (s.part p).job ≠ none) : completes (.jobOpen r q) s (failsWith s r p q stJobBusy) := by
  refine completes_admitted h rfl ?_
  simp only [ht, if_false, markStarted_part, Option.isSome_iff_ne_none.2 hj, if_true]
  exact complete_failsWith h _

theorem jobOpen_opens (ht : cmdTag img ≠ 0) (hj : (s.part p).job = none) : completes (.jobOpen r q) s (fun t =>
    answered r q stOk s.beat.cnt.toNat 0 s t ∧ (t.part p).job = some (cmdTag img) ∧ (t.part p).jobLoaded = false
    ∧ ¬ cmdTag img ∈ (t.part p).endedTags ∧ (t.part p).acct.opened = (s.part p).acct.live ∧ (t.part p).acct.openBeat = s.beat.cnt
    ∧ (t.part p).acct.openTag = cmdTag img) := by
  refine completes_admitted h rfl ?_
  simp only [ht, if_false, markStarted_part, hj, Option.isSome_none, Bool.false_eq_true]
  refine ⟨complete_started s _ r q _ _ _ (admitted_find h) rfl, ?_⟩
  rw [complete_part, State.part_modPart_same, markStarted_part]
  exact ⟨rfl, rfl, by simp, rfl, rfl, rfl⟩
end

/-! ### HOLD_REQUEST (R62, R497) -/

section
variable {s : State} {r p : Nat} {q : BitVec 16} {img : BitVec 512}
  (h : admitted ⟨0x114, false, true, false, [(0x18, 0, 16)]⟩ r q p img s = true)
include h

theorem holdRequest_zero (hn : arg img 0x18 0 16 = 0) : completes (.holdRequest r q) s (failsWith s r p q stField) := by
  refine completes_admitted h rfl ?_
  simp only [hn, if_true]
  exact complete_failsWith h _

theorem holdRequest_notRunning (hn : arg img 0x18 0 16 ≠ 0) (hr : (s.part p).run = none) :
    completes (.holdRequest r q) s (failsWith s r p q stNotRunning) := by
  refine completes_admitted h rfl ?_
  simp only [hn, if_false, markStarted_part, hr]
  exact complete_failsWith h _

theorem holdRequest_raises {c : Chor} (hn : arg img 0x18 0 16 ≠ 0) (hr : (s.part p).run ≠ none) (hc : (s.part p).chor = some c) :
    completes (.holdRequest r q) s (fun t => (∃ d, answered r q stOk d 0 s t)
      ∧ (t.part p).tempo.hostLate = some (max ((s.part p).tempo.hostLate.getD 0) (min (arg img 0x18 0 16) c.holdMax))) := by
  obtain ⟨x, hx⟩ := Option.ne_none_iff_exists'.1 hr
  refine completes_admitted h rfl ?_
  simp only [hn, if_false, markStarted_part, hx, hc]
  refine ⟨⟨_, complete_started s _ r q _ _ _ (admitted_find h) rfl⟩, ?_⟩
  rw [complete_part, State.part_modPart_same, markStarted_part]
end

/-! ### INTERMISSION_REQ (R71, R496, R497) -/

theorem markStarted_ctail (s : State) (r : Nat) (q : BitVec 16) : ((markStarted r q s).ring r).ctail = (s.ring r).ctail := by
  rw [markStarted, State.modRing, State.ring_setRing_same]

section
variable {s : State} {r p : Nat} {q : BitVec 16} {img : BitVec 512}
  (h : admitted ⟨0x115, false, false, false, [(0x18, 0, 2), (0x1C, 0, 8)]⟩ r q p img s = true)
include h

theorem intermissionReq_denied {ch : Nat} (hi : itemOf (arg img 0x18 0 2) (arg img 0x1C 0 8) = .channel ch) (ha : s.ringAdmin r = false) :
    completes (.intermissionReq r q) s (failsWith s r p q stDenied) := by
  have ha' : (markStarted r q s).ringAdmin r = false := ha
  refine completes_admitted h rfl ?_
  simp only [hi, ha']
  exact complete_failsWith h _

variable {n : Nat} (hi : itemOf (arg img 0x18 0 2) (arg img 0x1C 0 8) = .port n) (he : s.itemExists (.port n) = true)
include hi he

theorem intermissionReq_port (ho : s.portOwner n ≠ some p) : completes (.intermissionReq r q) s (failsWith s r p q stPort) := by
  have he' : (markStarted r q s).itemExists (.port n) = true := he
  have ho' : (markStarted r q s).portOwner n ≠ some p := ho
  refine completes_admitted h rfl ?_
  simp only [hi, he', ho', Option.isNone_some, Bool.false_and, Bool.false_eq_true, if_false, Bool.not_true, ne_eq, not_false_eq_true,
    decide_true, if_true]
  exact complete_failsWith h _

theorem intermissionReq_queues (ho : s.portOwner n = some p) (hq : s.itemQueued (.port n) = false) :
    completes (.intermissionReq r q) s (fun t => (t.part p).items = (s.part p).items ++ [⟨.port n, [(r, q)], false⟩]
      ∧ (t.port n).retrainQueued = true ∧ (t.ring r).ctail = (s.ring r).ctail) := by
  have he' : (markStarted r q s).itemExists (.port n) = true := he
  have ho' : (markStarted r q s).portOwner n = some p := ho
  have hq' : (markStarted r q s).itemQueued (.port n) = false := hq
  refine completes_admitted h rfl ?_
  simp only [hi, he', ho', hq', Option.isNone_some, Bool.false_and, Bool.false_eq_true, if_false, Bool.not_true, ne_eq,
    not_true_eq_false, decide_false]
  refine ⟨?_, ?_, ?_⟩
  · rw [State.part, markQueued_parts]
    exact congrArg Part.items (State.part_modPart_same (markStarted r q s) p _)
  · exact congrArg Port.retrainQueued (State.port_modPort_same ..)
  · exact (cmdsOf_ring (markQueued_cmds _ _ _) r).2.1.trans (markStarted_ctail s r q)
end

/-! ### CHOR_RUN (R52, R330, R496 to R498, R585) -/

section
variable (s : State) (p : Nat) (c : Chor) (b iterations traceVa traceLen : Nat)

theorem grantCredits_uncounted : (grantCredits p c s).uncounted = s.uncounted := by
  unfold grantCredits
  exact view_foldl State.uncounted (fun t (k : CreditRec) => sendToward_uncounted t p k.srcNode _) _ s

theorem powerQuarters_part (n : Nat) : (powerQuarters p n s).part p = { s.part p with quarterOn := BitVec.ofNat 4 (2 ^ n - 1) } := by
  have hcores (f : Nat → Core → Core) (l : List Nat) (t : State) : (l.foldl (fun t c => t.modCore c (f c)) t).part p = t.part p :=
    view_foldl (fun t => t.part p) (f := fun t c => t.modCore c (f c)) (fun _ _ => rfl) l t
  rw [powerQuarters, setQuarters, State.part_modPart_same, hcores]

/-- The partition with a run that begins, but for the sending of its credits. -/
def Part.beginning (q : Part) (c : Chor) (cnt : BitVec 64) (b iterations traceVa traceLen : Nat) : Part :=
  { q with
    quarterOn := BitVec.ofNat 4 (2 ^ c.quarters - 1)
    run := some (startRun iterations traceVa traceLen q.snap.resume)
    chor := some c.fresh
    tempo := q.tempo.begin cnt b (match q.snap.resume with | some (o, _, _) => o | none => 0)
    voteValid := false
    plane := { q.plane with tempoGroup := BitVec.ofNat 8 c.tempoGroup }
    snap := { q.snap with resume := none } }

theorem beginRun_bare : ((beginRun p c b iterations traceVa traceLen s).part p).bare
    = ((s.part p).beginning c s.beat.cnt b iterations traceVa traceLen).bare := by
  unfold beginRun
  rw [bare_of_uncounted (grantCredits_uncounted _ p c), State.part_modPart_same, powerQuarters_part]
  rfl

theorem beginRun_cmds : cmdsOf (beginRun p c b iterations traceVa traceLen s).rings = cmdsOf s.rings := by
  unfold beginRun
  rw [grantCredits_cmds, State.modPart_cmds, powerQuarters_cmds]

/-- The powered quarters (R330). -/
theorem quarters_bit (n : Nat) {k : Nat} (hk : k < 4) : (BitVec.ofNat 4 (2 ^ n - 1)).getLsbD k = decide (k < n) := by
  rw [BitVec.getLsbD_ofNat, Nat.testBit_two_pow_sub_one, decide_eq_true hk, Bool.true_and]

theorem arg_lt (img : BitVec 512) (off lo n : Nat) : arg img off lo n < 2 ^ n := Nat.mod_lt _ (Nat.two_pow_pos n)
end

section
variable {s : State} {r p : Nat} {q : BitVec 16} {img : BitVec 512}
  (h : admitted ⟨0x111, false, true, false, [(0x18, 0, 64), (0x20, 0, 32), (0x28, 0, 52), (0x30, 0, 32)]⟩ r q p img s = true)
include h

theorem chorRun_notLoaded (hc : (s.part p).chor = none) : completes (.chorRun r q) s (failsWith s r p q stNotLoaded) := by
  refine completes_admitted h rfl ?_
  simp only [markStarted_part, hc]
  exact complete_failsWith h _

variable {c : Chor} (hc : (s.part p).chor = some c)
include hc

theorem chorRun_busy (hr : (s.part p).run ≠ none) : completes (.chorRun r q) s (failsWith s r p q stChorBusy) := by
  refine completes_admitted h rfl ?_
  simp only [markStarted_part, hc, Option.isSome_iff_ne_none.2 hr, if_true]
  exact complete_failsWith h _

variable (hr : (s.part p).run = none)
include hr

theorem chorRun_noTempo (h1 : s.beat.lock ≠ .locked) (h2 : s.beat.lock ≠ .holdover) :
    completes (.chorRun r q) s (failsWith s r p q stTempo) := by
  have hb : (markStarted r q s).beat.lock ≠ .locked ∧ (markStarted r q s).beat.lock ≠ .holdover := ⟨h1, h2⟩
  refine completes_admitted h rfl ?_
  simp only [markStarted_part, hc, hr, Option.isSome_none, Bool.false_eq_true, if_false]
  rw [if_pos hb]
  exact complete_failsWith h _

variable (hb : s.beat.lock = .locked ∨ s.beat.lock = .holdover)
include hb

theorem chorRun_tooSoon (ht : arg img 0x18 0 64 < s.beat.cnt.toNat + 64) : completes (.chorRun r q) s (failsWith s r p q stTooSoon) := by
  have hb' : ¬ ((markStarted r q s).beat.lock ≠ .locked ∧ (markStarted r q s).beat.lock ≠ .holdover) :=
    fun hn => hb.elim hn.1 hn.2
  have ht' : arg img 0x18 0 64 < (markStarted r q s).beat.cnt.toNat + 64 := ht
  refine completes_admitted h rfl ?_
  simp only [markStarted_part, hc, hr, Option.isSome_none, Bool.false_eq_true, if_false]
  rw [if_neg hb', if_pos ht']
  exact complete_failsWith h _

theorem execChorRun_begins (ht : s.beat.cnt.toNat + 64 ≤ arg img 0x18 0 64) : execChorRun r q s = .next (complete r q stOk s.beat.cnt.toNat 0
    (beginRun p c (arg img 0x18 0 64) (arg img 0x20 0 32) (arg img 0x28 0 52) (arg img 0x30 0 32) (markStarted r q s))) := by
  have hb' : ¬ ((markStarted r q s).beat.lock ≠ .locked ∧ (markStarted r q s).beat.lock ≠ .holdover) :=
    fun hn => hb.elim hn.1 hn.2
  have ht' : ¬ (arg img 0x18 0 64 < (markStarted r q s).beat.cnt.toNat + 64) := Nat.not_lt.2 ht
  unfold execChorRun
  rw [runCommand_admitted h]
  simp only [markStarted_part, hc, hr, Option.isSome_none, Bool.false_eq_true, if_false]
  rw [if_neg hb', if_neg ht']
  rfl

theorem chorRun_begins (ht : s.beat.cnt.toNat + 64 ≤ arg img 0x18 0 64) : completes (.chorRun r q) s (fun t =>
    answered r q stOk s.beat.cnt.toNat 0 s t
    ∧ (∃ x, (t.part p).run = some x ∧ x.iterations = arg img 0x20 0 32 ∧ x.active = [] ∧ ((s.part p).snap.resume = none → x.next = 0))
    ∧ (t.part p).tempo.running = true ∧ (t.part p).tempo.base.toNat = arg img 0x18 0 64 ∧ (t.part p).tempo.holdTotal = 0
    ∧ (∀ k, k < 4 → (t.part p).quarterOn.getLsbD k = decide (k < c.quarters))) := by
  refine ⟨_, execChorRun_begins h hc hr hb ht, complete_started s _ r q _ _ _ (admitted_find h) (beginRun_cmds ..), ?_⟩
  rw [complete_part]
  have hbare := beginRun_bare (markStarted r q s) p c (arg img 0x18 0 64) (arg img 0x20 0 32) (arg img 0x28 0 52) (arg img 0x30 0 32)
  have hrun := (congrArg Part.run hbare :)
  have htempo := (congrArg Part.tempo hbare :)
  have hquarters := (congrArg Part.quarterOn hbare :)
  simp only [Part.bare, Part.beginning, markStarted_part] at hrun htempo hquarters
  refine ⟨⟨_, hrun, rfl, rfl, fun hn => ?_⟩, ?_, ?_, ?_, fun k hk => ?_⟩
  · rw [hn]; rfl
  · rw [htempo]; rfl
  · rw [htempo]
    exact Nat.mod_eq_of_lt (arg_lt img 0x18 0 64)
  · rw [htempo]; rfl
  · rw [hquarters, quarters_bit _ hk]
end

/-! ### The end of a run (R497) -/

/-- The state in which partition `p`'s run is over. -/
def runOver (p : Nat) (s : State) : State := s.modPart p (fun q => { q with
  run := none, chor := q.chor.map Chor.fresh
  tempo := { q.tempo with running := false, hold := false, intermission := false, late := [], plan := none, hostLate := none }
  plane := { q.plane with tempoGroup := 0, credits := [] } })

/-- The state in which the end of run `x` is reported. -/
def runReported (p : Nat) (x : Run) (s : State) : State :=
  if x.stopCause = 0 then runOver p s else postEvent p 0x11 (payloadOf noFig 0 x.stopCause) (runOver p s)

section
variable {s : State} {p : Nat} {x : Run} (hr : (s.part p).run = some x)
include hr

/-- A run is over, and the commands that wait for its end complete. -/
theorem haltRun_finishes : haltRun p s = finishWaits p (fun w => decide (w = .chorStop)) stOk
    (x.next % 2 ^ 24 + x.iteration % 2 ^ 32 * 2 ^ 32) (runReported p x s) := by
  unfold haltRun
  rw [hr]
  rfl

/-- A run that Fremund did not stop itself, which one command waits for. -/
theorem haltRun_one (hc : x.stopCause = 0) {w : Waiting} (hw : (s.part p).waiting = [w]) (hstop : w.what = .chorStop) :
    ∃ u, haltRun p s = complete w.ring w.seq stOk (x.next % 2 ^ 24 + x.iteration % 2 ^ 32 * 2 ^ 32) 0 u
      ∧ (u.part p).run = none ∧ (u.part p).tempo.running = false ∧ cmdsOf u.rings = cmdsOf s.rings := by
  have hover : (runOver p s).part p = _ := State.part_modPart_same ..
  have hwait : ((runOver p s).part p).waiting = [w] := by rw [hover]; exact hw
  have hone := finishWaits_one (s := runOver p s) (p := p) (f := fun w => decide (w = .chorStop)) (w := w) (by rw [hwait]; simp [hstop]) stOk
    (x.next % 2 ^ 24 + x.iteration % 2 ^ 32 * 2 ^ 32)
  have heq := haltRun_finishes hr
  rw [runReported, if_pos hc] at heq
  refine ⟨_, heq.trans hone, ?_, ?_, rfl⟩
  · rw [State.part_modPart_same, hover]
  · rw [State.part_modPart_same, hover]
end

/-! ### CHOR_STOP (R497) -/

section
variable {s : State} {r p : Nat} {q : BitVec 16} {img : BitVec 512}
  (h : admitted ⟨0x112, false, true, false, [(0x18, 0, 1)]⟩ r q p img s = true)
include h

theorem chorStop_notRunning (hr : (s.part p).run = none) : completes (.chorStop r q) s (failsWith s r p q stNotRunning) := by
  refine completes_admitted h rfl ?_
  simp only [markStarted_part, hr]
  exact complete_failsWith h _

/-- A run that is asked to stop, at its end or at the next Figure boundary. -/
def Run.asked (x : Run) (atEnd : Prop) [Decidable atEnd] : Run :=
  { x with stopNow := x.stopNow || !decide atEnd, stopAtEnd := x.stopAtEnd || decide atEnd }

/-- The state in which CHOR_STOP waits for the run's end. -/
def stopAsked (p r : Nat) (q : BitVec 16) (x : Run) (atEnd : Prop) [Decidable atEnd] (s : State) : State :=
  addWait p r q .chorStop (s.modPart p (fun q => { q with run := some (x.asked atEnd) }))

variable {x : Run} (hr : (s.part p).run = some x) (hc : x.stopCause = 0)
include hr hc

theorem execChorStop_asks : execChorStop r q s = .next (settle p (stopAsked p r q x (arg img 0x18 0 1 = 1) (markStarted r q s))) := by
  have hrun : (x.stopNow && x.stopCause != 0) = false := by rw [hc]; simp
  unfold execChorStop
  rw [runCommand_admitted h]
  simp only [markStarted_part, hr, hrun, Bool.false_eq_true, if_false]
  rfl

omit h hr hc in
theorem stopAsked_part (atEnd : Prop) [Decidable atEnd] (s : State) : (stopAsked p r q x atEnd s).part p
    = { s.part p with run := some (x.asked atEnd), waiting := (s.part p).waiting ++ [⟨r, q, .chorStop⟩] } := by
  rw [stopAsked, addWait, State.part_modPart_same, State.part_modPart_same]

theorem chorStop_waits (hgo : x.active ≠ [] ∨ (arg img 0x18 0 1 = 1 ∧ x.stopNow = false)) : completes (.chorStop r q) s (fun t =>
    nowWaits p r q .chorStop s t
    ∧ ∃ y, (t.part p).run = some y ∧ (arg img 0x18 0 1 = 0 → y.stopNow = true) ∧ (arg img 0x18 0 1 = 1 → y.stopAtEnd = true)) := by
  have hrun : ((stopAsked p r q x (arg img 0x18 0 1 = 1) (markStarted r q s)).part p).run = some (x.asked (arg img 0x18 0 1 = 1)) := by
    rw [stopAsked_part]
  have hstay : settle p (stopAsked p r q x (arg img 0x18 0 1 = 1) (markStarted r q s))
      = stopAsked p r q x (arg img 0x18 0 1 = 1) (markStarted r q s) := by
    have hgo' : ((x.asked (arg img 0x18 0 1 = 1)).stopNow && (x.asked (arg img 0x18 0 1 = 1)).active.isEmpty) = false := by
      rcases hgo with ha | ⟨h1, h2⟩
      · simp [Run.asked, ha]
      · simp [Run.asked, h1, h2]
    simp only [settle, hrun, hgo', Bool.false_eq_true, if_false]
  refine ⟨_, execChorStop_asks h hr hc, ?_⟩
  rw [hstay]
  refine ⟨addWait_waits s _ p r q .chorStop rfl ?_, _, hrun, fun h0 => ?_, fun h1 => ?_⟩
  · rw [State.part_modPart_same, markStarted_part]
  · simp [Run.asked, h0]
  · simp [Run.asked, h1]

theorem chorStop_ends (ha : x.active = []) (h0 : arg img 0x18 0 1 = 0) (hw : (s.part p).waiting = []) :
    completes (.chorStop r q) s (fun t => answered r q stOk (x.next % 2 ^ 24 + x.iteration % 2 ^ 32 * 2 ^ 32) 0 s t
      ∧ (t.part p).run = none ∧ (t.part p).tempo.running = false) := by
  have hpart := stopAsked_part (p := p) (r := r) (q := q) (x := x) (arg img 0x18 0 1 = 1) (markStarted r q s)
  have hrun := (congrArg Part.run hpart :)
  have hwait : ((stopAsked p r q x (arg img 0x18 0 1 = 1) (markStarted r q s)).part p).waiting = [⟨r, q, .chorStop⟩] := by
    rw [hpart, markStarted_part, hw]
    rfl
  have hstop : ((x.asked (arg img 0x18 0 1 = 1)).stopNow && (x.asked (arg img 0x18 0 1 = 1)).active.isEmpty) = true := by
    simp [Run.asked, h0, ha]
  obtain ⟨u, hhalt, hnone, htempo, hcmds⟩ := haltRun_one hrun hc hwait rfl
  have hsettle : settle p (stopAsked p r q x (arg img 0x18 0 1 = 1) (markStarted r q s))
      = complete r q stOk (x.next % 2 ^ 24 + x.iteration % 2 ^ 32 * 2 ^ 32) 0 u := by
    simp only [settle, hrun, hstop, if_true]
    exact hhalt
  refine ⟨_, execChorStop_asks h hr hc, ?_⟩
  beta_reduce
  rw [hsettle, complete_part]
  exact ⟨complete_started s _ r q _ _ _ (admitted_find h) hcmds, hnone, htempo⟩
end

/-! ### What the end of a job leaves of its partition's waits and tags (R336) -/

/-- The commands that wait and the ended tags of every partition. -/
def State.ends (s : State) : Nat → List Waiting × List (BitVec 16) := fun p => ((s.part p).waiting, (s.part p).endedTags)

section
variable {s t : State}

theorem ends_of_uncounted (h : t.uncounted = s.uncounted) : t.ends = s.ends :=
  funext fun p => (congrArg (fun q : Part => (q.waiting, q.endedTags)) (bare_of_uncounted h p) :)

theorem ends_of_mask (h : t.mask 0x3fffffffef#38 = s.mask 0x3fffffffef#38) : t.ends = s.ends := ends_of_uncounted (uncounted_of_mask h)

theorem ends_modPart (s : State) (p : Nat) {f : Part → Part} (hw : (f (s.part p)).waiting = (s.part p).waiting)
    (ht : (f (s.part p)).endedTags = (s.part p).endedTags) : (s.modPart p f).ends = s.ends :=
  view_modPart (fun q : Part => (q.waiting, q.endedTags)) s p (by rw [hw, ht])
end

section
variable (s : State) (p : Nat)

theorem drainWrites_ends : (drainWrites p s).ends = s.ends := by
  unfold drainWrites
  refine view_foldl State.ends (fun t x => ?_) _ s
  refine view_foldl State.ends (fun t (l : LineReq) => ?_) x.2.lines t
  split
  · exact view_ite State.ends rfl (view_ite State.ends (ends_of_uncounted (lostWrite_uncounted _ _ _ _ _))
      (ends_of_uncounted (wcbAccept_uncounted _ _ _ _ _ _)))
  · rfl

theorem dropFigure_ends (i : Nat) : (dropFigure p i s).ends = s.ends :=
  (ends_of_uncounted (partCount_uncounted _ _ _ _)).trans (ends_modPart s p rfl rfl)

theorem stopFigures_ends (kill : Bool) : (stopFigures p kill s).1.ends = s.ends := by
  unfold stopFigures
  refine view_foldl State.ends (fun t a => ?_) _ s
  have hend (fid : Nat) (clms : List Nat) : (endAttempt p fid clms t).ends = t.ends := ends_of_uncounted (endAttempt_uncounted t p fid clms)
  exact view_ite State.ends ((dropFigure_ends _ p _).trans (hend _ _)) ((ends_modPart _ p rfl rfl).trans (hend _ _))

theorem abandonSnapshot_ends : (abandonSnapshot p s).ends = s.ends := by
  have hfail (slot cause st : Nat) : (snapFail p slot cause st s).ends = s.ends :=
    (ends_of_mask (postEvent_mask (by decide) _ _ _ _)).trans (ends_modPart s p rfl rfl)
  unfold abandonSnapshot
  exact view_ite State.ends ((ends_modPart _ p rfl rfl).trans (hfail _ _ _)) rfl

theorem flushPart_ends : (flushPart p s).ends = s.ends := by
  unfold flushPart
  refine view_foldl State.ends (fun t ch => ?_) _ s
  exact view_foldl State.ends (fun u (e : WcbEntry) => ends_of_uncounted (evictForced_uncounted u ch e)) _ t

theorem zeroiseCore_ends (c : Nat) : (zeroiseCore c s).ends = s.ends := by
  unfold zeroiseCore
  split
  · rfl
  · exact ends_modPart _ _ rfl rfl

theorem runReported_ends (x : Run) : (runReported p x s).ends = s.ends := by
  have hover : (runOver p s).ends = s.ends := ends_modPart s p rfl rfl
  exact view_ite State.ends hover ((ends_of_mask (postEvent_mask (by decide) _ _ _ _)).trans hover)

theorem runReported_cmds (x : Run) : cmdsOf (runReported p x s).rings = cmdsOf s.rings :=
  view_ite (fun t => cmdsOf t.rings) rfl (postEvent_cmds _ _ _ _)

theorem waiting_of_ends {t : State} (h : t.ends p = s.ends p) (hw : (s.part p).waiting = []) : (t.part p).waiting = [] :=
  (congrArg Prod.fst h).trans hw

/-- Where no command waits, finishing waits leaves the waits, the tags and the commands. -/
theorem finishWaits_idle (f : Wait → Bool) (st d : Nat) (hw : (s.part p).waiting = []) :
    (finishWaits p f st d s).ends p = s.ends p ∧ cmdsOf (finishWaits p f st d s).rings = cmdsOf s.rings := by
  rw [finishWaits_none hw]
  refine ⟨?_, rfl⟩
  rw [State.ends, State.part_modPart_same, hw, State.ends, hw]
  rfl

/-- A run that no command waits for is over without a completion. -/
theorem haltRun_idle (hw : (s.part p).waiting = []) :
    (haltRun p s).ends p = s.ends p ∧ cmdsOf (haltRun p s).rings = cmdsOf s.rings := by
  cases hr : (s.part p).run with
  | none =>
    have hsame : haltRun p s = s := by rw [haltRun, hr]
    rw [hsame]
    exact ⟨rfl, rfl⟩
  | some x =>
    have hends := congrFun (runReported_ends s p x) p
    obtain ⟨hends', hcmds⟩ := finishWaits_idle (runReported p x s) p (fun w => decide (w = .chorStop)) stOk
      (x.next % 2 ^ 24 + x.iteration % 2 ^ 32 * 2 ^ 32) ((congrArg Prod.fst hends).trans hw)
    rw [haltRun_finishes hr]
    exact ⟨hends'.trans hends, hcmds.trans (runReported_cmds s p x)⟩
end

/-! ### Closing the sequences of a job (R252, R336) -/

section
variable {s : State} {p : Nat}

theorem closeSeq_endedTags (slot : Nat) : ((closeSeq slot s).part p).endedTags = (s.part p).endedTags := by
  have hkv (q : Nat) (f : KvPart → KvPart) (t : State) : (modKv q f t).ends = t.ends := ends_modPart t q rfl rfl
  have hends : (closeSeq slot s).ends = s.ends := by
    have hdrop : (dropSeqCaches slot s).ends = s.ends := ends_of_mask (dropSeqCaches_mask (by decide) slot s)
    change (modKv (s.seq slot).part (fun k => { k with hbm := k.hbm.release slot, far := k.far.release slot }) (dropSeqCaches slot s)).ends
      = s.ends
    rw [hkv, hdrop]
  exact congrArg Prod.snd (congrFun hends p)

/-- A sequence of the job is closed, no command waiting for it. -/
theorem closeTagSeq_idle (slot : Nat) (hw : (s.part p).waiting = []) :
    (closeTagSeq p slot s).ends p = s.ends p ∧ cmdsOf (closeTagSeq p slot s).rings = cmdsOf s.rings := by
  have hwait : ((closeSeq slot s).part p).waiting = [] := waiting_of_waits (closeSeq_waits s slot) hw
  obtain ⟨hends, hcmds⟩ := finishWaits_idle (closeSeq slot s) p
    (fun x => decide (x = .evict slot) || decide (x = .restore slot) || decide (x = .restoreAfterEvict slot)) stSeqStale 0 hwait
  exact ⟨hends.trans (Prod.ext (hwait.trans hw.symm) (closeSeq_endedTags slot)), hcmds.trans (closeSeq_cmds slot s)⟩

theorem closeTagSeq_seq (slot k : Nat) : (closeTagSeq p slot s).seq k = (closeSeq slot s).seq k := finishWaits_seq _ _ _ _ _ _

theorem closeTagSeqs_idle (ks : List Nat) (hw : (s.part p).waiting = []) :
    (ks.foldl (fun t k => closeTagSeq p k t) s).ends p = s.ends p
    ∧ cmdsOf (ks.foldl (fun t k => closeTagSeq p k t) s).rings = cmdsOf s.rings := by
  induction ks generalizing s with
  | nil => exact ⟨rfl, rfl⟩
  | cons k ks ih =>
    obtain ⟨hends, hcmds⟩ := closeTagSeq_idle (p := p) k hw
    obtain ⟨hends', hcmds'⟩ := ih (s := closeTagSeq p k s) ((congrArg Prod.fst hends).trans hw)
    exact ⟨hends'.trans hends, hcmds'.trans hcmds⟩

/-- A slot that is free stays so, and each slot listed is free. -/
theorem closeTagSeqs_free (ks : List Nat) {k : Nat} (h : (s.seq k).state = .free ∨ k ∈ ks) :
    ((ks.foldl (fun t k => closeTagSeq p k t) s).seq k).state = .free := by
  induction ks generalizing s with
  | nil => exact h.resolve_right (List.not_mem_nil)
  | cons j ks ih =>
    refine ih ?_
    rw [closeTagSeq_seq]
    by_cases e : k = j
    · left
      rw [e, closeSeq_same]
      rfl
    · rw [closeSeq_other s j e]
      exact h.imp_right fun hmem => (List.mem_cons.1 hmem).resolve_left e
end

theorem kget_mem {α : Type} {d : α} {m : KMap α} {k : Nat} (h : kget d m k ≠ d) : (k, kget d m k) ∈ m := by
  induction m with
  | nil => exact absurd rfl h
  | cons e m ih =>
    obtain ⟨j, v⟩ := e
    simp only [kget] at h ⊢
    by_cases e : j = k
    · subst e
      simp
    · simp only [e, if_false] at h ⊢
      exact List.mem_cons_of_mem _ (ih h)

/-- A sequence of the partition that was opened under the tag is free, or its slot is among those that close. -/
theorem tagSeqs_covers {s : State} {p k : Nat} {tag : BitVec 16} (hp : (s.seq k).part = p) (ht : (s.seq k).jobTag = tag) :
    (s.seq k).state = .free ∨ k ∈ s.tagSeqs p tag := by
  by_cases hfree : (s.seq k).state = .free
  · exact .inl hfree
  · right
    have hne : s.seq k ≠ Seq.free := fun e => hfree (by rw [e]; rfl)
    refine List.mem_map.2 ⟨(k, s.seq k), List.mem_filter.2 ⟨kget_mem hne, ?_⟩, rfl⟩
    simp only [hp, ht, hfree, decide_true, Bool.and_true, decide_not, decide_false, Bool.not_false]

/-! ### JOB_END (R336, R493, R528) -/

/-- A job's Scratchpads and cores once its run is over: streams unbound, snapshot abandoned, writes flushed, cores zeroised. -/
def jobZeroised (p : Nat) (s : State) : State :=
  let s4 := unbindWhere (fun x => decide (x.part = p)) (clearClms ((List.range 16).map (16 * p + ·)) s)
  let s5 := flushPart p (abandonSnapshot p ((s4.partCores p).foldl (fun t c => idleCore c t) s4))
  (s5.partCores p).foldl (fun t c => zeroiseCore c t) (s5.modPart p (fun q => { q with zeroising := true }))

/-- A job's partition once its Figures have stopped, its run is over and its cores are zeroised. -/
def jobCleared (p : Nat) (kill : Bool) (s : State) : State := jobZeroised p (haltRun p (stopFigures p kill (drainWrites p s)).1)

/-- The sequences of the job are closed, and no reservation waits. -/
def jobSeqsClosed (p : Nat) (tag : BitVec 16) (s : State) : State :=
  (takeWaits p Wait.isReserve ((s.tagSeqs p tag).foldl (fun t k => closeTagSeq p k t) s)).2

section
variable (s : State) (p : Nat) (kill : Bool)

theorem jobZeroised_ends : (jobZeroised p s).ends = s.ends := by
  unfold jobZeroised
  dsimp only
  have hzeroising (t : State) : (t.modPart p (fun q => { q with zeroising := true })).ends = t.ends := ends_modPart t p rfl rfl
  have hidle (t : State) (c : Nat) : (idleCore c t).ends = t.ends := ends_of_mask (idleCore_mask (by decide) c t)
  have hunbind (t : State) (f : Stream → Bool) : (unbindWhere f t).ends = t.ends := ends_of_uncounted (unbindWhere_uncounted t f)
  have hclear (l : List Nat) : (clearClms l s).ends = s.ends := ends_of_mask (clearClms_mask (by decide) l s)
  rw [view_foldl State.ends (fun t c => zeroiseCore_ends t c), hzeroising, flushPart_ends, abandonSnapshot_ends,
    view_foldl State.ends hidle, hunbind, hclear]

theorem jobZeroised_cmds : cmdsOf (jobZeroised p s).rings = cmdsOf s.rings := by
  unfold jobZeroised
  dsimp only
  rw [cmds_foldl (fun t c => zeroiseCore_cmds c t), State.modPart_cmds, flushPart_cmds, abandonSnapshot_cmds,
    cmds_foldl (fun t c => idleCore_cmds c t), unbindWhere_cmds, clearClms_cmds]

theorem jobCleared_idle (hw : (s.part p).waiting = []) :
    (jobCleared p kill s).ends p = s.ends p ∧ cmdsOf (jobCleared p kill s).rings = cmdsOf s.rings := by
  have hstop := congrFun ((stopFigures_ends (drainWrites p s) p kill).trans (drainWrites_ends s p)) p
  have hstopCmds := (stopFigures_cmds p kill (drainWrites p s)).trans (drainWrites_cmds p s)
  obtain ⟨hhalt, hhaltCmds⟩ := haltRun_idle (stopFigures p kill (drainWrites p s)).1 p ((congrArg Prod.fst hstop).trans hw)
  exact ⟨(congrFun (jobZeroised_ends _ p) p).trans (hhalt.trans hstop), (jobZeroised_cmds _ p).trans (hhaltCmds.trans hstopCmds)⟩

theorem jobCleared_seqs : (jobCleared p kill s).seqs = s.seqs := by
  have hzero : (jobZeroised p (haltRun p (stopFigures p kill (drainWrites p s)).1)).seqs
      = (haltRun p (stopFigures p kill (drainWrites p s)).1).seqs := by
    refine seqs_of_mask ?_
    unfold jobZeroised
    dsimp only
    rw [mask_foldl (fun t c => zeroiseCore_mask (by decide) c t), State.modPart_mask (by decide), flushPart_mask (by decide),
      abandonSnapshot_mask (by decide), mask_foldl (fun t c => idleCore_mask (by decide) c t), unbindWhere_mask (by decide),
      clearClms_mask (by decide)]
  refine hzero.trans (seqs_of_mask ?_)
  rw [haltRun_mask (by decide), stopFigures_mask (by decide), drainWrites_mask (by decide)]

theorem jobSeqsClosed_seq (tag : BitVec 16) (k : Nat) :
    (jobSeqsClosed p tag s).seq k = ((s.tagSeqs p tag).foldl (fun t k => closeTagSeq p k t) s).seq k := by
  unfold jobSeqsClosed takeWaits
  rfl

theorem jobSeqsClosed_idle (tag : BitVec 16) (hw : (s.part p).waiting = []) :
    (jobSeqsClosed p tag s).ends p = s.ends p ∧ cmdsOf (jobSeqsClosed p tag s).rings = cmdsOf s.rings := by
  obtain ⟨hends, hcmds⟩ := closeTagSeqs_idle (s := s) (p := p) (s.tagSeqs p tag) hw
  have hnone := (congrArg Prod.fst hends).trans hw
  refine ⟨?_, hcmds⟩
  rw [jobSeqsClosed, takeWaits, State.ends, State.part_modPart_same]
  exact Prod.ext ((congrArg (List.filter _) hnone).trans hw.symm) (congrArg Prod.snd hends :)

/-- The state in which a job's sequences are closed and its reservations go on. -/
def jobResumed (p : Nat) (tag : BitVec 16) (s : State) : State :=
  (takeWaits p Wait.isReserve ((s.tagSeqs p tag).foldl (fun t k => closeTagSeq p k t) s)).1.foldl (fun t w => resumeReserve p false w t)
    (jobSeqsClosed p tag s)

/-- A job ends with one completion. -/
theorem endJob_completes (r : Nat) (q : BitVec 16) : endJob p r q kill s = complete r q stOk
    (((jobCleared p kill s).tagSeqs p (s.jobTag p)).length % 2 ^ 32 + (stopFigures p kill (drainWrites p s)).2 % 2 ^ 32 * 2 ^ 32) 0
    ((jobResumed p (s.jobTag p) (jobCleared p kill s)).modPart p (fun q =>
      q.ended (s.jobTag p) (jobResumed p (s.jobTag p) (jobCleared p kill s)).beat.cnt)) := by
  unfold endJob jobResumed jobSeqsClosed jobCleared jobZeroised
  dsimp only

/-- Where no command waits, no reservation goes on. -/
theorem jobResumed_idle (tag : BitVec 16) (hw : (s.part p).waiting = []) : jobResumed p tag s = jobSeqsClosed p tag s := by
  obtain ⟨hends, -⟩ := closeTagSeqs_idle (s := s) (p := p) (s.tagSeqs p tag) hw
  have hnone := (congrArg Prod.fst hends).trans hw
  have hws : (takeWaits p Wait.isReserve ((s.tagSeqs p tag).foldl (fun t k => closeTagSeq p k t) s)).1 = [] :=
    congrArg (List.filter _) hnone
  rw [jobResumed, hws, List.foldl_nil]
end

section
variable {s : State} {r p : Nat} {q : BitVec 16} {img : BitVec 512}
  (h : admitted ⟨0x101, false, true, false, [(0x18, 0, 1)]⟩ r q p img s = true)
include h

theorem jobEnd_waits (h0 : arg img 0x18 0 1 = 0) : completes (.jobEnd r q) s (fun t =>
    nowWaits p r q (.jobEnd false 0 0) s t ∧ (t.part p).endedTags = cmdTag img :: (s.part p).endedTags ∧ (t.part p).run = (s.part p).run) := by
  refine completes_admitted h rfl ?_
  simp only [h0, Nat.zero_ne_one, if_false]
  refine ⟨addWait_waits s _ p r q _ rfl ?_, ?_, ?_⟩
  · rw [State.part_modPart_same, markStarted_part]
  · rw [addWait, State.part_modPart_same, State.part_modPart_same, markStarted_part]
  · rw [addWait, State.part_modPart_same, State.part_modPart_same, markStarted_part]

theorem jobEnd_kills (h1 : arg img 0x18 0 1 = 1) (hw : (s.part p).waiting = []) : completes (.jobEnd r q) s (fun t =>
    (∃ d, answered r q stOk d 0 s t) ∧ (t.part p).job = none ∧ (t.part p).chor = none ∧ (t.part p).run = none
    ∧ cmdTag img ∈ (t.part p).endedTags ∧ (t.part p).acct.endTag = cmdTag img
    ∧ ∀ k, (s.seq k).part = p → (s.seq k).jobTag = cmdTag img → (t.seq k).state = .free) := by
  have hpart : ((markStarted r q s).modPart p (fun q => { q with endedTags := cmdTag img :: q.endedTags })).part p
      = { s.part p with endedTags := cmdTag img :: (s.part p).endedTags } := State.part_modPart_same ..
  have hseqs : ((markStarted r q s).modPart p (fun q => { q with endedTags := cmdTag img :: q.endedTags })).seqs = s.seqs := rfl
  have hcmds : cmdsOf ((markStarted r q s).modPart p (fun q => { q with endedTags := cmdTag img :: q.endedTags })).rings
      = cmdsOf (markStarted r q s).rings := rfl
  refine completes_admitted h rfl ?_
  simp only [h1, if_true]
  generalize (markStarted r q s).modPart p (fun q => { q with endedTags := cmdTag img :: q.endedTags }) = u at hpart hseqs hcmds
  have htag : u.jobTag p = cmdTag img := by rw [State.jobTag, hpart, admitted_job h rfl]; rfl
  have hw' : (u.part p).waiting = [] := by rw [hpart]; exact hw
  obtain ⟨hends, hcmds1⟩ := jobCleared_idle u p true hw'
  have hclear := waiting_of_ends u p hends hw'
  have e := endJob_completes u p true r q
  rw [jobResumed_idle _ p _ hclear] at e
  obtain ⟨hends', hcmds2⟩ := jobSeqsClosed_idle (jobCleared p true u) p (u.jobTag p) hclear
  generalize hv : jobSeqsClosed p (u.jobTag p) (jobCleared p true u) = v at e hends' hcmds2
  rw [e, htag, complete_part, State.part_modPart_same]
  refine ⟨⟨_, complete_started s _ r q _ _ _ (admitted_find h) ((State.modPart_cmds v p _).trans (hcmds2.trans (hcmds1.trans hcmds)))⟩,
    rfl, rfl, rfl, ?_, rfl, fun k hp ht => ?_⟩
  · have htags : (v.part p).endedTags = (u.part p).endedTags := congrArg Prod.snd (hends'.trans hends)
    change cmdTag img ∈ (v.part p).endedTags
    rw [htags, hpart]
    exact List.mem_cons_self
  · have hcleared : (jobCleared p true u).seq k = s.seq k := seq_of_seqs ((jobCleared_seqs u p true).trans hseqs) k
    rw [complete_seq]
    change (v.seq k).state = .free
    rw [← hv, htag, jobSeqsClosed_seq]
    exact closeTagSeqs_free _ (tagSeqs_covers (by rw [hcleared, hp]) (by rw [hcleared, ht]))
end

end Sys2Proof.Machine
end

section
/-! PROOF. CHOR_LOAD (R109, R329, R335, R344, R386, R493) and the assembly of O52. -/

namespace Sys2Proof.Machine

/-! ### Partitions without their address spaces -/

/-- Every partition, its address space at the reset value. -/
def State.unmapped (s : State) : Nat → Part := fun p => { s.part p with space := Part.reset.space }

section
variable {s t : State}

theorem unmapped_of_mask (h : t.mask 0x3fffffffef#38 = s.mask 0x3fffffffef#38) : t.unmapped = s.unmapped :=
  congrArg (fun (m : KMap Part) (p : Nat) => { kget Part.reset m p with space := Part.reset.space }) (same_of_mask (w := 0x3fffffffef#38) h .parts (by decide))

theorem unmapped_modPart (s : State) (p : Nat) {f : Part → Part}
    (h : { f (s.part p) with space := Part.reset.space } = { s.part p with space := Part.reset.space }) : (s.modPart p f).unmapped = s.unmapped :=
  view_modPart (fun q => { q with space := Part.reset.space }) s p h

theorem run_of_unmapped (h : t.unmapped = s.unmapped) (p : Nat) : (t.part p).run = (s.part p).run := (congrArg Part.run (congrFun h p) :)

theorem addAccess_unmapped (p page n : Nat) : (addAccess p page n s).unmapped = s.unmapped := by
  unfold addAccess
  split
  · rfl
  · exact unmapped_modPart s p rfl

theorem dropEntries_unmapped (es : List TlbEntry) : (dropEntries es s).unmapped = s.unmapped :=
  view_foldl State.unmapped (fun t _ => addAccess_unmapped (s := t) _ _ _) es s

theorem invalidate_unmapped (p a b : Nat) : (invalidate p a b s).unmapped = s.unmapped := by
  unfold invalidate
  exact view_foldl State.unmapped (fun t k => dropEntries_unmapped (s := t.setUnit k _) _) _ s

theorem removePages_unmapped (p : Nat) (ls : List (Nat × Leaf)) : (removePages p ls s).unmapped = s.unmapped :=
  view_foldl State.unmapped (fun t _ => (invalidate_unmapped _ _ _).trans (unmapped_modPart t p rfl)) ls s
end

/-! ### The load -/

section
variable {s : State} {p : Nat}

/-- A job load marks the partition as loaded and leaves its run. -/
theorem jobLoad_part : ((jobLoad p s).1.part p).jobLoaded = true ∧ ((jobLoad p s).1.part p).run = (s.part p).run := by
  have hremoved : (removePages p ((setServed p (latchLists p s)).lostPages p) (setServed p (latchLists p s))).unmapped = s.unmapped :=
    (removePages_unmapped _ _).trans (unmapped_of_mask ((setServed_mask (by decide) _ _).trans (latchLists_mask (by decide) _ _)))
  have hpart : (jobLoad p s).1.part p = { (removePages p ((setServed p (latchLists p s)).lostPages p) (setServed p (latchLists p s))).part p with
      jobLoaded := true } := by
    dsimp only [jobLoad]
    rw [State.part_modPart_same]
  generalize removePages p ((setServed p (latchLists p s)).lostPages p) (setServed p (latchLists p s)) = v at hremoved hpart
  rw [hpart]
  exact ⟨rfl, run_of_unmapped hremoved p⟩

/-- What the installation of a Choreography sets. -/
theorem installChor_part (x : Loaded) : ((installChor p x s).part p).chor = some x.chor ∧ ((installChor p x s).part p).spin = x.spin
    ∧ ((installChor p x s).part p).jobLoaded = (s.part p).jobLoaded ∧ ((installChor p x s).part p).run = (s.part p).run := by
  have hparts (rs : List Region) : (zeroiseForLoad p rs s).parts = s.parts :=
    same_of_mask (w := 0x20#38) (zeroiseForLoad_mask (by decide) p rs s) .parts (by decide)
  have hpart (rs : List Region) : (zeroiseForLoad p rs s).part p = s.part p := congrArg (kget Part.reset · p) (hparts rs)
  rw [installChor, State.part_modPart_same, hpart]
  exact ⟨rfl, rfl, rfl, rfl⟩

/-- The state that a load installs its Choreography in. -/
def loadBase (p : Nat) (s : State) : State := if (s.part p).jobLoaded then s else (jobLoad p s).1

theorem loadBase_part : ((loadBase p s).part p).jobLoaded = true ∧ ((loadBase p s).part p).run = (s.part p).run := by
  unfold loadBase
  by_cases hl : (s.part p).jobLoaded = true
  · rw [if_pos hl]
    exact ⟨hl, rfl⟩
  · rw [if_neg hl]
    exact jobLoad_part

theorem loadBase_cmds : cmdsOf (loadBase p s).rings = cmdsOf s.rings := by
  unfold loadBase
  exact view_ite (fun t => cmdsOf t.rings) rfl (jobLoad_cmds p s)

/-- A load completes with the number of Figures. -/
theorem loadChor_completes (r : Nat) (q : BitVec 16) (x : Loaded) : ∃ d,
    loadChor p r q x s = complete r q stOk (x.chor.figures.length + d * 2 ^ 32) 0 (installChor p x (loadBase p s)) := by
  have hdata (n gone lost channels : Nat) : n + gone * 2 ^ 32 + lost * 2 ^ 64 + channels * 2 ^ 96
      = n + (gone + lost * 2 ^ 32 + channels * 2 ^ 64) * 2 ^ 32 := by omega
  unfold loadChor loadBase
  by_cases hl : (s.part p).jobLoaded = true
  · simp only [if_pos hl, hdata]
    exact ⟨_, rfl⟩
  · simp only [if_neg hl, hdata]
    exact ⟨_, rfl⟩
end

section
variable {s : State} {r p : Nat} {q : BitVec 16} {img : BitVec 512} {progs : List TileProg} {x : Loaded}
  (h : admitted ⟨0x110, false, true, false, [(0x18, 0, 52), (0x20, 0, 32)]⟩ r q p img s = true)
  (hx : (markStarted r q s).loadImage p (arg img 0x18 0 52) (arg img 0x20 0 32) (cmdTag img) progs = .ok x)
  (hf : (markStarted r q s).fieldsChecked p x = .ok ())
include h hx hf

/-- The image, once read and checked. -/
theorem execChorLoad_read : execChorLoad r q progs s = .next (
    if (s.part p).run.isSome then complete r q stChorBusy 0 0 (markStarted r q s)
    else if !(markStarted r q s).schedChecked p x then complete r q stSchedule 0 0 (markStarted r q s)
    else if !(s.part p).jobLoaded && s.channelUnsettled then s
    else loadChor p r q x (markStarted r q s)) := by
  unfold execChorLoad
  rw [runCommand_admitted h]
  simp only [hx, hf, bind, Except.bind, pure, Except.pure, markStarted_part]
  rfl

theorem chorLoad_busy (hr : (s.part p).run ≠ none) : completes (.chorLoad r q progs) s (failsWith s r p q stChorBusy) := by
  refine ⟨_, execChorLoad_read h hx hf, ?_⟩
  rw [if_pos (Option.isSome_iff_ne_none.2 hr)]
  exact complete_failsWith h _

variable (hr : (s.part p).run = none)
include hr

theorem chorLoad_schedule (hs : (markStarted r q s).schedChecked p x = false) :
    completes (.chorLoad r q progs) s (failsWith s r p q stSchedule) := by
  refine ⟨_, execChorLoad_read h hx hf, ?_⟩
  rw [hr, hs, if_neg (by decide), if_pos (by decide)]
  exact complete_failsWith h _

theorem chorLoad_loads (hs : (markStarted r q s).schedChecked p x = true) (hc : (s.part p).jobLoaded = true ∨ s.channelUnsettled = false) :
    completes (.chorLoad r q progs) s (fun t => (∃ d, answered r q stOk (x.chor.figures.length + d * 2 ^ 32) 0 s t)
      ∧ (t.part p).chor = some x.chor ∧ (t.part p).spin = x.spin ∧ (t.part p).jobLoaded = true ∧ (t.part p).run = none) := by
  have hgo : (!(s.part p).jobLoaded && s.channelUnsettled) = false := by rcases hc with e | e <;> rw [e] <;> simp
  refine ⟨_, execChorLoad_read h hx hf, ?_⟩
  rw [hr, hs, hgo, if_neg (by decide), if_neg (by decide), if_neg (by decide)]
  obtain ⟨d, e⟩ := loadChor_completes (s := markStarted r q s) (p := p) r q x
  obtain ⟨hchor, hspin, hloaded, hrun⟩ := installChor_part (s := loadBase p (markStarted r q s)) (p := p) x
  obtain ⟨hloaded', hrun'⟩ := loadBase_part (s := markStarted r q s) (p := p)
  rw [e, complete_part]
  refine ⟨⟨d, complete_started s _ r q _ _ _ (admitted_find h) ?_⟩, hchor, hspin, hloaded.trans hloaded', hrun.trans (hrun'.trans ?_)⟩
  · rw [installChor_cmds, loadBase_cmds]
  · rw [markStarted_part, hr]
end

/-- Settles O52: each command's outcomes in turn, the end of a killed job with no command waiting through the waits and ended tags
that each stage of R336 leaves. -/
theorem jobCommands : Obligations.JobCommands := by
  unfold Obligations.JobCommands
  intro s r p q img ok me u fails
  refine ⟨fun h => ⟨eventRingSet_sets h, eventRingSet_denied h⟩,
    fun h => ⟨jobOpen_noTag h, jobOpen_busy h, jobOpen_opens h⟩,
    fun h => ⟨jobEnd_waits h, jobEnd_kills h⟩,
    fun h progs x hx hf => ⟨chorLoad_busy h hx hf, chorLoad_schedule h hx hf, chorLoad_loads h hx hf⟩,
    fun h => ⟨chorRun_notLoaded h, fun c hc => ⟨chorRun_busy h hc, chorRun_noTempo h hc,
      fun hr hl => ⟨chorRun_tooSoon h hc hr hl, chorRun_begins h hc hr hl⟩⟩⟩,
    fun h => ⟨chorStop_notRunning h, fun x hx h0 => ⟨chorStop_waits h hx h0, chorStop_ends h hx h0⟩⟩,
    fun h => ⟨holdRequest_zero h, holdRequest_notRunning h, fun c => holdRequest_raises h⟩, fun h => ?_⟩
  intro it
  have hitem : itemOf (arg img 0x18 0 2) (arg img 0x1C 0 8) = it := rfl
  clear_value it
  refine ⟨fun ch hi => ?_, fun n hi he => ?_, fun n hi he => ?_⟩ <;> subst hi
  · exact intermissionReq_denied h hitem
  · exact intermissionReq_port h hitem he
  · exact intermissionReq_queues h hitem he

end Sys2Proof.Machine
end

section
/-! PROOF. Power and temperature (R353, R354, R448, R533 to R538, R541 to R548, R604): O58. -/

namespace Sys2Proof.Machine

/-! ### The PMU's own steps -/

/-- A view that has one value on both sides of a choice has it of the choice. -/
theorem view_ite_eq {α : Type} {F : State → α} {x : α} {t u : State} {b : Prop} [Decidable b] (ht : F t = x) (hu : F u = x) :
    F (if b then t else u) = x := by
  split <;> assumption

/-- The ceiling of DUTY, 8 while a cause holds it down (R542, R544, R547). -/
theorem Pmu.ceiling_eq (u : Pmu) : u.ceiling = if u.dieLevel = 0 ∧ u.throttle = false ∧ u.stretch = false then 16 else 8 := by
  unfold Pmu.ceiling
  by_cases h : u.dieLevel = 0 <;> cases u.throttle <;> cases u.stretch <;> simp [h, Nat.one_le_iff_ne_zero]

section
variable {s : State} (hp : s.pins.phase = .running)
include hp

theorem powered_of_running : s.powered = true := by rw [State.powered, hp]; rfl

theorem p1IdleEntry_enters (h0 : s.pmu.state = 0) (ht : s.pmu.transition = false) (hb : s.busyNow = false) :
    completes .p1IdleEntry s (fun t => t = { s with pmu := { s.pmu with state := 1, target := 1 } }) := by
  refine ⟨_, rfl, ?_⟩
  rw [powered_of_running hp, h0, ht, hb]
  rfl

theorem dutyAdjust_follows (avg : Nat) : completes (.dutyAdjust avg) s (fun t =>
    let u := s.pmu
    let top := if u.dieLevel = 0 ∧ u.throttle = false ∧ u.stretch = false then 16 else 8
    (1000 * u.capW < avg → t.pmu.duty = min (max 4 (u.duty - 1)) top)
    ∧ (avg ≤ 1000 * u.capW → avg < 950 * u.capW → u.duty < top → t.pmu.duty = u.duty + 1)
    ∧ (avg ≤ 1000 * u.capW → 950 * u.capW ≤ avg → t.pmu.duty = min u.duty top)
    ∧ t.pmu.duty ≤ top ∧ t.pmu.dutyMin = min u.dutyMin t.pmu.duty
    ∧ t = { s with pmu := { u with duty := t.pmu.duty, dutyMin := t.pmu.dutyMin } }) := by
  refine ⟨_, rfl, ?_⟩
  beta_reduce
  intro u top
  have htop : top = s.pmu.ceiling := s.pmu.ceiling_eq.symm
  rw [if_pos (powered_of_running hp), htop]
  have hduty : (Pmu.settled { s.pmu with duty := dutyNext s.pmu avg }).duty = min (dutyNext s.pmu avg) s.pmu.ceiling := rfl
  refine ⟨fun h => ?_, fun h1 h2 h3 => ?_, fun h1 h2 => ?_, Nat.min_le_right _ _, rfl, rfl⟩
  · rw [hduty, dutyNext, if_pos h]
  · rw [hduty, dutyNext, if_neg (Nat.not_lt.2 h1), if_pos ⟨h2, h3⟩]
    exact Nat.min_eq_left h3
  · rw [hduty, dutyNext, if_neg (Nat.not_lt.2 h1), if_neg (fun h => Nat.not_lt.2 h2 h.1)]

theorem capWindowEnd_notes (avg : Nat) : completes (.capWindowEnd avg) s (fun t =>
    t.pmu = { s.pmu with avgW := avg / 1000, overCap := decide (1000 * s.pmu.capW < avg) }
    ∧ ((avg ≤ 1000 * s.pmu.capW ∨ s.pmu.overCap = true) → t.rings = s.rings)) := by
  have hexec : execCapWindowEnd avg s = .next (if decide (1000 * s.pmu.capW < avg) && !s.pmu.overCap then
      postAll 0x91 (payloadOf noFig 0 (avg % 2 ^ 32)) { s with pmu := { s.pmu with avgW := avg / 1000, overCap := decide (1000 * s.pmu.capW < avg) } }
      else { s with pmu := { s.pmu with avgW := avg / 1000, overCap := decide (1000 * s.pmu.capW < avg) } }) := by
    rw [execCapWindowEnd, powered_of_running hp]
    rfl
  refine ⟨_, hexec, view_ite State.pmu (same_of_mask (postAll_mask (w := 0x700000#38) (by decide) _ _ _) .pmu (by decide)) rfl, fun h => ?_⟩
  have hquiet : (decide (1000 * s.pmu.capW < avg) && !s.pmu.overCap) = false := by
    rcases h with h | h
    · rw [decide_eq_false (Nat.not_lt.2 h)]
      rfl
    · rw [h, Bool.not_true, Bool.and_false]
  rw [hquiet, if_neg Bool.false_ne_true]

theorem droopWarnStart_stretches (i : Nat) (hi : i = 0 ∨ (0 < i ∧ i ≤ 15 ∧ s.pmu.monEn.getLsbD (i - 1) = true)) (hs : s.pmu.stretch = false) :
    completes (.droopWarnStart i) s (fun t => t.pmu.stretch = true ∧ t.pmu.duty = min s.pmu.duty 8 ∧ t.pmu.droopBar = true
      ∧ t.pmu.episode = i ∧ t.rings = s.rings) := by
  have hsource : s.pmu.source i = true := by
    rcases hi with rfl | ⟨-, hi, hm⟩
    · rfl
    · rw [Pmu.source, hm, decide_eq_true hi]
      simp
  have hexec : execDroopWarnStart i s
      = .next { s with pmu := Pmu.settled { s.pmu with stretch := true, droopBar := true, episode := i } } := by
    rw [execDroopWarnStart, powered_of_running hp, hsource, hs]
    rfl
  refine ⟨_, hexec, rfl, ?_, rfl, rfl, rfl⟩
  simp [Pmu.settled, Pmu.ceiling]

/-- The PMU once an episode of droop warnings has ended. -/
def Pmu.droopEnded (u : Pmu) : Pmu :=
  { u with
    stretch := false, droopWarn := true, droopCount := (satAdd 16 u.droopCount 1).1, droopSat := u.droopSat || (satAdd 16 u.droopCount 1).2
    droopSource := u.episode, droopPosted := true }

/-- The counter of episodes has saturated now: COUNTER_SAT is posted. -/
def droopCounted (s : State) : State :=
  if (satAdd 16 s.pmu.droopCount 1).2 && !s.pmu.droopSat then satAll 0x5008 { s with pmu := s.pmu.droopEnded } else { s with pmu := s.pmu.droopEnded }

theorem execDroopWarnEnd_ends (ns : Nat) (hs : s.pmu.stretch = true) : execDroopWarnEnd ns s = .next (
    if s.pmu.droopPosted then droopCounted s
    else postAll 0x90 (payloadOf noFig s.pmu.episode (min ns 0xFFFFFFFF)) (droopCounted s)) := by
  rw [execDroopWarnEnd]
  dsimp only
  rw [powered_of_running hp, hs]
  rfl

theorem droopWarnEnd_counts (ns : Nat) (hs : s.pmu.stretch = true) : completes (.droopWarnEnd ns) s (fun t =>
    t.pmu.stretch = false ∧ t.pmu.droopWarn = true ∧ t.pmu.droopCount = min 0xFFFF (s.pmu.droopCount + 1)
    ∧ t.pmu.droopSource = s.pmu.episode ∧ t.pmu.droopPosted = true ∧ t.pmu.duty = s.pmu.duty
    ∧ (s.pmu.droopPosted = true → s.pmu.droopCount < 0xFFFF → t.rings = s.rings)) := by
  have hcounted : (droopCounted s).pmu = s.pmu.droopEnded :=
    view_ite State.pmu (same_of_mask (satAll_mask (w := 0x700010#38) (by decide) _ _) .pmu (by decide)) rfl
  have hpmu : (if s.pmu.droopPosted then droopCounted s
      else postAll 0x90 (payloadOf noFig s.pmu.episode (min ns 0xFFFFFFFF)) (droopCounted s)).pmu = s.pmu.droopEnded :=
    view_ite_eq hcounted ((same_of_mask (postAll_mask (w := 0x700000#38) (by decide) _ _ _) .pmu (by decide)).trans hcounted)
  refine ⟨_, execDroopWarnEnd_ends hp ns hs, ?_⟩
  beta_reduce
  rw [hpmu]
  refine ⟨rfl, rfl, satAdd_fst 16 s.pmu.droopCount 1, rfl, rfl, rfl, fun h1 h2 => ?_⟩
  have hlow : (satAdd 16 s.pmu.droopCount 1).2 = false := by
    rw [satAdd, if_pos (by omega)]
  rw [if_pos h1, droopCounted, hlow, Bool.false_and, if_neg Bool.false_ne_true]
end

theorem Pmu.settled_throttle_duty (u : Pmu) (b : Bool) : (b = true → (Pmu.settled { u with throttle := b }).duty ≤ 8)
    ∧ (Pmu.settled { u with throttle := b }).duty ≤ u.duty := by
  refine ⟨fun hb => ?_, Nat.min_le_left _ _⟩
  subst hb
  exact (Nat.min_le_right _ _).trans_eq (by simp [Pmu.ceiling])

theorem thermThrottleChange_sets (s : State) (b : Bool) : completes (.thermThrottleChange b) s (fun t =>
    t.pmu.throttle = b ∧ (b = true → t.pmu.duty ≤ 8) ∧ t.pmu.duty ≤ s.pmu.duty ∧ t.rings = s.rings) :=
  ⟨_, rfl, rfl, (s.pmu.settled_throttle_duty b).1, (s.pmu.settled_throttle_duty b).2, rfl⟩

/-! ### The end of a run that Fremund stops (R497) -/

section
variable {s : State} {p q : Nat} {r : Run}

theorem finishWaits_run (f : Wait → Bool) (st d : Nat) : ((finishWaits p f st d s).part p).run = (s.part p).run := by
  simp only [finishWaits, takeWaits]
  rw [view_foldl (fun t => t.part p) (fun t w => complete_part (s := t) st d 0 p), State.part_modPart_same]

theorem runReported_run (x : Run) : ((runReported p x s).part p).run = none := by
  have hover : ((runOver p s).part p).run = none := by rw [runOver, State.part_modPart_same]
  exact view_ite_eq (F := fun t => (t.part p).run) hover ((congrArg Part.run (part_of_parts (postEvent_parts _ _ _ _) p)).trans hover)

theorem haltRun_run : ((haltRun p s).part p).run = none := by
  cases hr : (s.part p).run with
  | none => rw [haltRun, hr]; exact hr
  | some x => rw [haltRun_finishes hr, finishWaits_run, runReported_run]

theorem stopChor_run (hr : (s.part p).run = some r) (code : Nat) : ((stopChor p code s).part p).run
    = some (if r.stopNow then r else { r with stopNow := true, stopCause := code }) := by
  rw [stopChor, State.part_modPart_same]
  cases h : r.stopNow <;> simp [hr, h]

/-- A run that has no Figure in progress ends when Fremund stops it. -/
theorem fremundStop_idle (hr : (s.part p).run = some r) (ha : r.active = []) (code : Nat) : ((fremundStop p code s).part p).run = none := by
  have hstopped := stopChor_run hr code
  have hends : settle p (stopChor p code s) = haltRun p (stopChor p code s) := by
    cases h : r.stopNow <;> rw [settle, hstopped] <;> simp [h, ha]
  rw [fremundStop, hends, haltRun_run]

/-- A run with Figures in progress is to stop at its next Figure boundary. -/
theorem fremundStop_busy (hr : (s.part p).run = some r) (ha : r.active ≠ []) (code : Nat) :
    ∃ r', ((fremundStop p code s).part p).run = some r' ∧ r'.stopNow = true ∧ r'.active = r.active := by
  have hstopped := stopChor_run hr code
  by_cases h : r.stopNow = true
  · rw [if_pos h] at hstopped
    refine ⟨r, ?_, h, rfl⟩
    rw [fremundStop, settle, hstopped]
    simp only [h, List.isEmpty_eq_false_iff.2 ha, Bool.and_false, Bool.false_eq_true, if_false, hstopped]
  · exact ⟨_, fremundStop_waits hr (Bool.eq_false_of_not_eq_true h) ha code, rfl, rfl⟩
end

/-! ### The die's trip (R547, R548) -/

section
variable {s u : State} {p q : Nat} {r : Run}

theorem modActive_figId (id i : Nat) (f : RunFig → RunFig) : ((modActive p id f s).part p).figId i = (s.part p).figId i := by
  rw [modActive, State.part_modPart_same]
  split <;> rfl

/-- A Figure in progress aborts, or its place is still to be asked for, once the place of `a` has been asked for. -/
theorem asked_or_left {id : Nat → Nat} {c : AbortCause} {a b : RunFig} {as : List RunFig}
    (h : b.aborting.isSome = true ∨ b.fig ∈ (a :: as).map (·.fig)) :
    let b' := if id b.fig = id a.fig then (if b.aborting.isNone then { b with aborting := some c } else b) else b
    b'.aborting.isSome = true ∨ b'.fig ∈ as.map (·.fig) := by
  intro b'
  by_cases hsome : b.aborting.isSome = true
  · have hsame : b' = b := by simp [b', Option.isNone_iff_eq_none, Option.isSome_iff_ne_none.1 hsome]
    exact hsame ▸ .inl hsome
  · by_cases hplace : id b.fig = id a.fig
    · have hasked : b' = { b with aborting := some c } := by simp [b', hplace, Option.not_isSome_iff_eq_none.1 hsome]
      exact hasked ▸ .inl rfl
    · have hsame : b' = b := if_neg hplace
      exact hsame ▸ .inr ((List.mem_cons.1 (h.resolve_left hsome)).resolve_left fun e => hplace (congrArg id e))

/-- Asked for the place of each Figure in progress that is not aborting, every one is. -/
theorem askAborts_all {id : Nat → Nat} (c : AbortCause) (as : List RunFig) (hid : ∀ i, (u.part p).figId i = id i)
    (hr : (u.part p).run = some r) (has : ∀ b ∈ r.active, b.aborting.isSome = true ∨ b.fig ∈ as.map (·.fig)) :
    ∃ r', ((as.foldl (fun u a => askAbort p (id a.fig) c u) u).part p).run = some r' ∧ r'.stopNow = r.stopNow
      ∧ (r'.active = [] ↔ r.active = []) ∧ ∀ b ∈ r'.active, b.aborting.isSome = true := by
  induction as generalizing u r with
  | nil => exact ⟨r, hr, rfl, Iff.rfl, fun b hb => (has b hb).resolve_right (List.not_mem_nil)⟩
  | cons a as ih =>
    have hrun : ((askAbort p (id a.fig) c u).part p).run = some { r with active := r.active.map (fun b =>
        if (u.part p).figId b.fig = id a.fig then (if b.aborting.isNone then { b with aborting := some c } else b) else b) } := by
      rw [askAbort, modActive, State.part_modPart_same, hr]
    obtain ⟨r', hr', hstop, hnil, hall⟩ := ih (u := askAbort p (id a.fig) c u) (fun i => (modActive_figId _ _ _).trans (hid i)) hrun (by
      intro b' hb'
      obtain ⟨b, hb, rfl⟩ := List.mem_map.1 hb'
      rw [hid]
      exact asked_or_left (has b hb))
    exact ⟨r', hr', hstop, hnil.trans List.map_eq_nil_iff, hall⟩

/-- The die's trip for one partition. -/
def dieTripIn (t : State) (p : Nat) : State :=
  match (t.part p).run with
  | none => t
  | some r => fremundStop p 0xB0 (r.active.foldl (fun u a => askAbort p ((t.part p).figId a.fig) .dieTrip u) t)

theorem dieTripped_eq (s : State) : dieTripped s = [0, 1, 2, 3].foldl dieTripIn s := rfl

theorem askAbort_other (id : Nat) (c : AbortCause) (hq : q ≠ p) : (askAbort p id c s).part q = s.part q :=
  State.part_modPart_other _ _ _ hq

theorem finishWaits_other (f : Wait → Bool) (st d : Nat) (hq : q ≠ p) : (finishWaits p f st d s).part q = s.part q := by
  simp only [finishWaits, takeWaits]
  rw [view_foldl (fun t => t.part q) (fun t w => complete_part (s := t) st d 0 q), State.part_modPart_other _ _ _ hq]

theorem haltRun_other (hq : q ≠ p) : (haltRun p s).part q = s.part q := by
  cases hr : (s.part p).run with
  | none => rw [haltRun, hr]
  | some x =>
    have hover : (runOver p s).part q = s.part q := State.part_modPart_other _ _ _ hq
    rw [haltRun_finishes hr, finishWaits_other _ _ _ hq]
    exact view_ite_eq (F := fun t => t.part q) hover ((part_of_parts (postEvent_parts _ _ _ _) q).trans hover)

theorem fremundStop_other (code : Nat) (hq : q ≠ p) : (fremundStop p code s).part q = s.part q := by
  have hstop : (stopChor p code s).part q = s.part q := State.part_modPart_other _ _ _ hq
  rw [fremundStop, settle]
  split
  · exact view_ite_eq (F := fun t => t.part q) ((haltRun_other hq).trans hstop) hstop
  · exact hstop

theorem dieTripIn_other (t : State) (hq : q ≠ p) : (dieTripIn t p).part q = t.part q := by
  unfold dieTripIn
  split
  · rfl
  · rw [fremundStop_other _ hq, view_foldl (fun t => t.part q) (fun t a => askAbort_other _ _ hq)]

/-- A run without Figures in progress ends, the others are to stop and their Figures abort. -/
theorem dieTripIn_stops (hr : (s.part p).run = some r) : (r.active = [] → ((dieTripIn s p).part p).run = none)
    ∧ (r.active ≠ [] → ∃ r', ((dieTripIn s p).part p).run = some r' ∧ r'.stopNow = true ∧ ∀ a ∈ r'.active, a.aborting.isSome = true) := by
  obtain ⟨r1, hr1, -, hnil, hall⟩ := askAborts_all (u := s) (p := p) .dieTrip r.active (fun _ => rfl) hr
    (fun b hb => .inr (List.mem_map_of_mem hb))
  have hstep : dieTripIn s p = fremundStop p 0xB0 (r.active.foldl (fun u a => askAbort p ((s.part p).figId a.fig) .dieTrip u) s) := by
    rw [dieTripIn, hr]
  rw [hstep]
  refine ⟨fun ha => fremundStop_idle hr1 (hnil.2 ha) _, fun ha => ?_⟩
  obtain ⟨r2, hr2, hstop, hsame⟩ := fremundStop_busy hr1 (mt hnil.1 ha) 0xB0
  exact ⟨r2, hr2, hstop, fun a hmem => hall a (hsame ▸ hmem)⟩

/-- A fold whose step changes one partition each does to a partition of the list what its own step does. -/
theorem foldl_part {F : State → Nat → State} {P : Part → Prop} (hother : ∀ t j, j ≠ p → (F t j).part p = t.part p) {l : List Nat}
    (hp : p ∈ l) (hl : l.Nodup) (hset : ∀ t, t.part p = s.part p → P ((F t p).part p)) : P ((l.foldl F s).part p) := by
  induction l generalizing s with
  | nil => exact absurd hp List.not_mem_nil
  | cons j l ih =>
    obtain ⟨hj, hl⟩ := List.nodup_cons.1 hl
    rw [List.foldl_cons]
    by_cases e : p = j
    · have hrest : (l.foldl F (F s j)).part p = (F s j).part p :=
        List.foldlRecOn l F (motive := fun t => t.part p = (F s j).part p) rfl
          fun t ht k hk => (hother t k fun ek => hj (e ▸ ek ▸ hk)).trans ht
      rw [hrest, ← e]
      exact hset s rfl
    · have hsame := hother s j (Ne.symm e)
      exact ih ((List.mem_cons.1 hp).resolve_left e) hl fun t ht => hset t (ht.trans hsame)

theorem dieTripped_stops (hp : p < 4) (hr : (s.part p).run = some r) : (r.active = [] → ((dieTripped s).part p).run = none)
    ∧ (r.active ≠ [] → ∃ r', ((dieTripped s).part p).run = some r' ∧ r'.stopNow = true ∧ ∀ a ∈ r'.active, a.aborting.isSome = true) := by
  rw [dieTripped_eq]
  refine foldl_part (P := fun x => (r.active = [] → x.run = none)
    ∧ (r.active ≠ [] → ∃ r', x.run = some r' ∧ r'.stopNow = true ∧ ∀ a ∈ r'.active, a.aborting.isSome = true))
    (fun t j hj => dieTripIn_other t hj.symm) (List.mem_range.2 hp) (by decide) fun t ht => dieTripIn_stops ((congrArg Part.run ht).trans hr)
end

/-- The PMU after a reading of the die's temperature. -/
def Pmu.read (u : Pmu) (temp : Nat) : Pmu :=
  Pmu.settled { u with dieTemp := temp % 256, dieLevel := u.levelAt temp, dieTempMax := max u.dieTempMax (temp % 256) }

theorem Pmu.read_duty (u : Pmu) (temp : Nat) (h : u.levelAt temp ≠ 0) : (u.read temp).duty ≤ 8 := by
  refine (Nat.min_le_right _ _).trans_eq ?_
  rw [Pmu.ceiling, if_pos (.inl (Nat.one_le_iff_ne_zero.2 h))]

/-- The trip raises its fatal cause and the shutdown request, and stops every run. -/
theorem dieTrip_alarms (s : State) : (tripAlarm (dieTripped s)).fatal.therm = true ∧ (tripAlarm (dieTripped s)).pins.shdnReq = true
    ∧ ∀ p r, p < 4 → (s.part p).run = some r →
      (r.active = [] → r.stopNow = false → ((tripAlarm (dieTripped s)).part p).run = none)
      ∧ (r.active ≠ [] → ∃ r', ((tripAlarm (dieTripped s)).part p).run = some r' ∧ r'.stopNow = true ∧ ∀ a ∈ r'.active, a.aborting.isSome = true) := by
  have hposts (code payload : Nat) (t : State) := postAll_mask (w := 0x700000#38) (by decide) code payload t
  have hfatal := tripAlarm_view (F := State.fatal) (dieTripped s) fun code payload t => same_of_mask (hposts code payload t) .fatal (by decide)
  have hpins := tripAlarm_view (F := State.pins) (dieTripped s) fun code payload t => same_of_mask (hposts code payload t) .pins (by decide)
  have hpart (p : Nat) : (tripAlarm (dieTripped s)).part p = (dieTripped s).part p :=
    part_of_parts (same_of_mask (tripAlarm_mask (w := 0x2a700000#38) (by decide) _) .parts (by decide)) p
  refine ⟨congrArg Fatal.therm hfatal, congrArg Pins.shdnReq hpins, fun p r hp hr => ?_⟩
  obtain ⟨hidle, hbusy⟩ := dieTripped_stops hp hr
  rw [hpart]
  exact ⟨fun ha _ => hidle ha, hbusy⟩

section
variable {s : State} (hp : s.pins.phase = .running)
include hp

theorem execDieTempRead_reads (temp : Nat) : execDieTempRead temp s = .next (
    if s.pmu.levelAt temp = 2 ∧ s.pmu.dieLevel ≠ 2 then tripAlarm (dieTripped { s with pmu := s.pmu.read temp })
    else { s with pmu := s.pmu.read temp }) := by
  rw [execDieTempRead, powered_of_running hp]
  rfl

theorem dieTempRead_sets (temp : Nat) (ht : temp < 256) : completes (.dieTempRead temp) s (fun t =>
    t.pmu.dieTemp = temp ∧ t.pmu.dieTempMax = max s.pmu.dieTempMax temp
    ∧ (s.pmu.dieTripC ≤ temp → t.pmu.dieLevel = 2) ∧ (s.pmu.dieLevel = 2 → t.pmu.dieLevel = 2)
    ∧ (s.pmu.dieLevel ≠ 2 → temp < s.pmu.dieTripC → s.pmu.dieHotC ≤ temp → t.pmu.dieLevel = 1)
    ∧ (s.pmu.dieLevel = 1 → temp < s.pmu.dieTripC → s.pmu.dieHotC ≤ temp + 3 → t.pmu.dieLevel = 1)
    ∧ (s.pmu.dieLevel = 1 → temp < s.pmu.dieTripC → temp + 3 < s.pmu.dieHotC → t.pmu.dieLevel = 0)
    ∧ (t.pmu.dieLevel ≠ 0 → t.pmu.duty ≤ 8)
    ∧ (s.pmu.dieTripC ≤ temp → s.pmu.dieLevel ≠ 2 → t.fatal.therm = true ∧ t.pins.shdnReq = true
        ∧ ∀ p r, p < 4 → (s.part p).run = some r →
          (r.active = [] → r.stopNow = false → (t.part p).run = none)
          ∧ (r.active ≠ [] → ∃ r', (t.part p).run = some r' ∧ r'.stopNow = true ∧ ∀ a ∈ r'.active, a.aborting.isSome = true))) := by
  have hpmu : (if s.pmu.levelAt temp = 2 ∧ s.pmu.dieLevel ≠ 2 then tripAlarm (dieTripped { s with pmu := s.pmu.read temp })
      else { s with pmu := s.pmu.read temp }).pmu = s.pmu.read temp :=
    view_ite_eq ((same_of_mask (tripAlarm_mask (w := 0x2a700000#38) (by decide) _) .pmu (by decide)).trans
      (same_of_mask (dieTripped_mask (w := 0x700010#38) (by decide) _) .pmu (by decide))) rfl
  have hlevel : (s.pmu.read temp).dieLevel = s.pmu.levelAt temp := rfl
  have htemp : temp % 256 = temp := Nat.mod_eq_of_lt ht
  refine ⟨_, execDieTempRead_reads hp temp, ?_⟩
  beta_reduce
  rw [hpmu, hlevel]
  refine ⟨htemp, congrArg (max s.pmu.dieTempMax) htemp, fun h => ?_, fun h => ?_, fun h1 h2 h3 => ?_, fun h1 h2 h3 => ?_, fun h1 h2 h3 => ?_,
    fun h => ?_, fun h1 h2 => ?_⟩
  · rw [Pmu.levelAt, if_pos (.inr h)]
  · rw [Pmu.levelAt, if_pos (.inl h)]
  · rw [Pmu.levelAt, if_neg (by omega), if_pos (.inl h3)]
  · rw [Pmu.levelAt, if_neg (by omega), if_pos (.inr ⟨h1, h3⟩)]
  · rw [Pmu.levelAt, if_neg (by omega), if_neg (by omega)]
  · exact s.pmu.read_duty temp h
  · have htrip : s.pmu.levelAt temp = 2 ∧ s.pmu.dieLevel ≠ 2 := ⟨by rw [Pmu.levelAt, if_pos (.inr h1)], h2⟩
    rw [if_pos htrip]
    exact dieTrip_alarms _
end


/-! ### The end of a transition (R417, R448, R536, R538) -/

/-- Entering P2 or P3: the write buffers are flushed and the ports that are UP enter KEEPALIVE. -/
def powerPorts (s : State) : State := if 2 ≤ s.pmu.target then keepalivePorts (flushAll s) else s

/-- Entering or leaving P3. -/
def powerDeep (n old : Nat) (s : State) : State :=
  if n = 3 ∧ old ≠ 3 then sleepDeep s else if old = 3 ∧ n ≠ 3 then wakeDeep s else s

/-- Leaving P2 or P3: both banks of every core are cleared and the ports wake. -/
def powerWoken (n old : Nat) (s : State) : State := if 2 ≤ old ∧ n < 2 then wakePorts (clearAcm s) else s

/-- The block once it is in the state it went to, before POWER_STATE completes. -/
def powerMoved (s : State) : State := powerWoken s.pmu.target s.pmu.state (powerDeep s.pmu.target s.pmu.state (powerPorts s))

/-- The block after the transition. -/
def powerArrived (s : State) : State :=
  finishPower s.pmu.target { powerMoved s with pmu := { (powerMoved s).pmu with state := s.pmu.target, transition := false } }

theorem execPowerTransitionDone_arrives {s : State} (hp : s.pins.phase = .running) (ht : s.pmu.transition = true) :
    execPowerTransitionDone s = .next (powerArrived s) := by
  rw [execPowerTransitionDone, powered_of_running hp, ht]
  rfl

section
variable (s : State)

theorem powerArrived_pmu : (powerArrived s).pmu = { (powerMoved s).pmu with state := s.pmu.target, transition := false } :=
  same_of_mask (finishPower_mask (w := 0x300010#38) (by decide) _ _) .pmu (by decide)

theorem powerArrived_port (n : Nat) : (powerArrived s).port n = (powerMoved s).port n :=
  congrArg (kget Port.reset · n) (same_of_mask (finishPower_mask (w := 0x300010#38) (by decide) _ _) .ports (by decide) : (powerArrived s).ports = _)

theorem powerArrived_core (c : Nat) : (powerArrived s).core c = (powerMoved s).core c :=
  congrArg (kget Core.reset · c) (same_of_mask (finishPower_mask (w := 0x300010#38) (by decide) _ _) .cores (by decide) : (powerArrived s).cores = _)

theorem powerArrived_stackAt (k : Nat) : (powerArrived s).stackAt k = (powerMoved s).stackAt k :=
  congrArg (kget Stack.reset · k) (same_of_mask (finishPower_mask (w := 0x300010#38) (by decide) _ _) .stackSt (by decide) : (powerArrived s).stackSt = _)

/-- A port that is UP enters KEEPALIVE on one lane. -/
theorem keepalivePorts_up {n : Nat} (hn : n < s.cfg.linkPorts) (h : (s.port n).state = .up) :
    ((keepalivePorts s).port n).state = .keepalive ∧ ((keepalivePorts s).port n).width = 1 := by
  have hmoved (t : State) (ht : (t.port n).state = .up) :
      ((t.modPort n (fun q => { q with state := .keepalive, width := 1 })).port n).state = .keepalive
      ∧ ((t.modPort n (fun q => { q with state := .keepalive, width := 1 })).port n).width = 1 := by
    rw [State.port_modPort_same]
    exact ⟨rfl, rfl⟩
  unfold keepalivePorts
  refine foldl_sets (I := fun t : State => (t.port n).state = .up ∨ ((t.port n).state = .keepalive ∧ (t.port n).width = 1))
    (P := fun t => (t.port n).state = .keepalive ∧ (t.port n).width = 1) (x := n) (fun t y ht => ?_) (fun t ht => ?_) (fun t y _ hy ht => ?_) (List.mem_range.2 hn) (.inl h)
  · split
    · by_cases e : y = n
      · subst e
        exact .inr (hmoved t ‹_›)
      · rwa [State.port_modPort_other _ _ _ (Ne.symm e)]
    · exact ht
  · by_cases hup : (t.port n).state = .up
    · rw [if_pos hup]
      exact hmoved t hup
    · rw [if_neg hup]
      exact ht.resolve_left hup
  · split
    · rwa [State.port_modPort_other _ _ _ hy.symm]
    · exact ht

/-- A port in KEEPALIVE is UP again. -/
theorem wakePorts_keepalive {n : Nat} (hn : n < s.cfg.linkPorts) (h : (s.port n).state = .keepalive) :
    ((wakePorts s).port n).state = .up := by
  unfold wakePorts
  refine foldl_sets (I := fun t : State => (t.port n).state = .keepalive ∨ (t.port n).state = .up)
    (P := fun t => (t.port n).state = .up) (x := n) (fun t y ht => ?_) (fun t ht => ?_) (fun t y _ hy ht => ?_) (List.mem_range.2 hn) (.inl h)
  · split
    · by_cases e : y = n
      · subst e
        rw [State.port_modPort_same]
        exact .inr rfl
      · rwa [State.port_modPort_other _ _ _ (Ne.symm e)]
    · exact ht
  · by_cases hka : (t.port n).state = .keepalive
    · rw [if_pos hka, State.port_modPort_same]
    · rw [if_neg hka]
      exact ht.resolve_left hka
  · split
    · rwa [State.port_modPort_other _ _ _ hy.symm]
    · exact ht

theorem clearAcm_core {c : Nat} (hc : c < s.cfg.cores) :
    ((clearAcm s).core c).bank0 = Bank.clear ∧ ((clearAcm s).core c).bank1 = Bank.clear := by
  unfold clearAcm
  refine foldl_sets_of_step (P := fun t : State => (t.core c).bank0 = Bank.clear ∧ (t.core c).bank1 = Bank.clear) (x := c) (fun t => ?_)
    (fun t y hy ht => ?_) (List.mem_range.2 hc) s
  · rw [State.core_modCore_same]
    exact ⟨rfl, rfl⟩
  · rwa [State.core_modCore_other _ _ _ hy.symm]

/-- Every stack once self-refresh has been switched on or off. -/
theorem selfRefresh_all (b : Bool) {k : Nat} (hk : k < s.cfg.hbmStacks) :
    (((List.range s.cfg.hbmStacks).foldl (fun t k => t.modStack k (fun x => { x with selfRefresh := b })) s).stackAt k).selfRefresh = b := by
  refine foldl_sets_of_step (P := fun t : State => (t.stackAt k).selfRefresh = b) (x := k) (fun t => ?_) (fun t y hy ht => ?_) (List.mem_range.2 hk) s
  · rw [State.stackAt_modStack_same]
  · rwa [State.stackAt_modStack_other _ _ _ hy.symm]

theorem sleepDeep_stack {k : Nat} (hk : k < s.cfg.hbmStacks) : ((sleepDeep s).stackAt k).selfRefresh = true := by
  have hslept : (s.liveParts.foldl (fun t p => sleepQuarters p t) s).cfg = s.cfg :=
    view_foldl State.cfg (fun t p => same_of_mask (sleepQuarters_mask (w := 0x30#38) (by decide) p t) .cfg (by decide)) _ s
  have hall := selfRefresh_all (s.liveParts.foldl (fun t p => sleepQuarters p t) s) true (k := k) (by rw [hslept]; exact hk)
  rw [hslept] at hall
  exact hall

theorem wakeDeep_stack {k : Nat} (hk : k < s.cfg.hbmStacks) : ((wakeDeep s).stackAt k).selfRefresh = false := by
  have hwoken (t : State) (l : List Nat) : (l.foldl (fun t p => telemFlush p (t.modPart p (fun q => { q with quarterOn := q.wakeOn }))) t).stackSt
      = t.stackSt :=
    view_foldl State.stackSt (fun t p => same_of_mask ((telemFlush_mask (w := 0x80270a012#38) (by decide) p _).trans
      (State.modPart_mask (by decide) t p _)) .stackSt (by decide)) l t
  have hall := selfRefresh_all s false hk
  unfold wakeDeep
  dsimp only
  rw [State.stackAt, hwoken]
  exact hall
end

/-! ### What the block is like after the transition -/

section
variable {s : State}

/-- What each part of the transition leaves of the configuration, the ports, the cores and the stacks. -/
theorem powerPorts_cfg : (powerPorts s).cfg = s.cfg :=
  view_ite State.cfg ((same_of_mask (keepalivePorts_mask (w := 0x20000#38) (by decide) _) .cfg (by decide)).trans
    (same_of_mask (flushAll_mask (w := 0x802702012#38) (by decide) s) .cfg (by decide))) rfl

theorem powerDeep_ports (n old : Nat) : (powerDeep n old s).ports = s.ports :=
  view_ite State.ports (same_of_mask (sleepDeep_mask (w := 0x4030#38) (by decide) s) .ports (by decide))
    (view_ite State.ports (same_of_mask (wakeDeep_mask (w := 0x80270e032#38) (by decide) s) .ports (by decide)) rfl)

theorem powerDeep_cfg (n old : Nat) : (powerDeep n old s).cfg = s.cfg :=
  view_ite State.cfg (same_of_mask (sleepDeep_mask (w := 0x4030#38) (by decide) s) .cfg (by decide))
    (view_ite State.cfg (same_of_mask (wakeDeep_mask (w := 0x80270e032#38) (by decide) s) .cfg (by decide)) rfl)

theorem powerWoken_stackSt (n old : Nat) : (powerWoken n old s).stackSt = s.stackSt :=
  view_ite State.stackSt ((same_of_mask (wakePorts_mask (w := 0x20000#38) (by decide) _) .stackSt (by decide)).trans
    (same_of_mask (clearAcm_mask (w := 0x20#38) (by decide) s) .stackSt (by decide))) rfl

theorem flushAll_ports : (flushAll s).ports = s.ports := same_of_mask (flushAll_mask (w := 0x802702012#38) (by decide) s) .ports (by decide)

theorem flushAll_cfg : (flushAll s).cfg = s.cfg := same_of_mask (flushAll_mask (w := 0x802702012#38) (by decide) s) .cfg (by decide)

theorem clearAcm_ports : (clearAcm s).ports = s.ports := same_of_mask (clearAcm_mask (w := 0x20#38) (by decide) s) .ports (by decide)

theorem clearAcm_cfg : (clearAcm s).cfg = s.cfg := same_of_mask (clearAcm_mask (w := 0x20#38) (by decide) s) .cfg (by decide)

theorem wakePorts_cores : (wakePorts s).cores = s.cores := same_of_mask (wakePorts_mask (w := 0x20000#38) (by decide) s) .cores (by decide)

/-- Entering P2 or P3, a port that is UP enters KEEPALIVE. -/
theorem powerMoved_keepalive {n : Nat} (hn : n < s.cfg.linkPorts) (ht : 2 ≤ s.pmu.target) (hup : (s.port n).state = .up) :
    ((powerMoved s).port n).state = .keepalive ∧ ((powerMoved s).port n).width = 1 := by
  have hwoken : powerMoved s = powerDeep s.pmu.target s.pmu.state (powerPorts s) := if_neg (by omega)
  have hports : powerPorts s = keepalivePorts (flushAll s) := if_pos ht
  rw [hwoken, port_of_ports (powerDeep_ports _ _), hports]
  exact keepalivePorts_up _ (by rwa [flushAll_cfg]) (by rwa [port_of_ports flushAll_ports])

section
variable (ho : 2 ≤ s.pmu.state) (ht : s.pmu.target < 2)
include ho ht

theorem powerMoved_wakes : powerMoved s = wakePorts (clearAcm (powerDeep s.pmu.target s.pmu.state s)) := by
  have hports : powerPorts s = s := if_neg (by omega)
  have hwoken : powerMoved s = wakePorts (clearAcm (powerDeep s.pmu.target s.pmu.state (powerPorts s))) := if_pos ⟨ho, ht⟩
  rw [hwoken, hports]

/-- Leaving P2 or P3, a port in KEEPALIVE is UP again, and both banks of every core are clear. -/
theorem powerMoved_up {n : Nat} (hn : n < s.cfg.linkPorts) (hka : (s.port n).state = .keepalive) :
    ((powerMoved s).port n).state = .up := by
  rw [powerMoved_wakes ho ht]
  exact wakePorts_keepalive _ (by rwa [clearAcm_cfg, powerDeep_cfg]) (by rwa [port_of_ports (clearAcm_ports.trans (powerDeep_ports _ _))])

theorem powerMoved_banks {c : Nat} (hc : c < s.cfg.cores) :
    ((powerMoved s).core c).bank0 = Bank.clear ∧ ((powerMoved s).core c).bank1 = Bank.clear := by
  rw [powerMoved_wakes ho ht, State.core, wakePorts_cores]
  exact clearAcm_core _ (by rwa [powerDeep_cfg])
end

theorem stackAt_of_stackSt {t : State} (h : t.stackSt = s.stackSt) (k : Nat) : t.stackAt k = s.stackAt k := congrArg (kget Stack.reset · k) h

/-- Entering P3, the stacks enter self-refresh; leaving it, they leave it. -/
theorem powerMoved_sleeps {k : Nat} (hk : k < s.cfg.hbmStacks) (ht : s.pmu.target = 3) (ho : s.pmu.state ≠ 3) :
    ((powerMoved s).stackAt k).selfRefresh = true := by
  have hdeep : powerDeep s.pmu.target s.pmu.state (powerPorts s) = sleepDeep (powerPorts s) := if_pos ⟨ht, ho⟩
  rw [powerMoved, stackAt_of_stackSt (powerWoken_stackSt _ _), hdeep]
  exact sleepDeep_stack _ (by rwa [powerPorts_cfg])

theorem powerMoved_refreshes {k : Nat} (hk : k < s.cfg.hbmStacks) (ho : s.pmu.state = 3) (ht : s.pmu.target ≠ 3) :
    ((powerMoved s).stackAt k).selfRefresh = false := by
  have hdeep : powerDeep s.pmu.target s.pmu.state (powerPorts s) = wakeDeep (powerPorts s) :=
    (if_neg fun h => ht h.1).trans (if_pos ⟨ho, ht⟩)
  rw [powerMoved, stackAt_of_stackSt (powerWoken_stackSt _ _), hdeep]
  exact wakeDeep_stack _ (by rwa [powerPorts_cfg])
end

/-- Settles O58: the PMU's own steps, the die's trip for each partition apart, and each part of a transition with what it leaves of the
others. -/
theorem powerAndThermal : Obligations.PowerAndThermal := by
  unfold Obligations.PowerAndThermal
  intro s hp u
  refine ⟨p1IdleEntry_enters hp, dutyAdjust_follows hp, capWindowEnd_notes hp, droopWarnStart_stretches hp, droopWarnEnd_counts hp,
    dieTempRead_sets hp, thermThrottleChange_sets s, fun ht => ⟨_, execPowerTransitionDone_arrives hp ht, ?_⟩⟩
  beta_reduce
  simp only [powerArrived_port, powerArrived_core, powerArrived_stackAt, powerArrived_pmu, true_and]
  exact ⟨rfl, fun n hn => powerMoved_keepalive hn, fun n hn h1 h2 => powerMoved_up h1 h2 hn, fun c hc h1 h2 => powerMoved_banks h1 h2 hc,
    fun k hk => powerMoved_sleeps hk, fun k hk => powerMoved_refreshes hk⟩

end Sys2Proof.Machine
end

section
/-! PROOF. Counters, power, debug halts and health by command (R484 to R486, R492, R503, R504, R515, R532, R535, R536, R541, R562, R670): the
first part of O56. -/

namespace Sys2Proof.Machine

/-- The command completes with a status, and the cores, the PMU, the NVM and the partitions stay as they were. -/
def serviceFails (s : State) (r : Nat) (q : BitVec 16) (st : Nat) (t : State) : Prop :=
  answered r q st 0 0 s t ∧ t.cores = s.cores ∧ t.pmu = s.pmu ∧ t.nvm = s.nvm ∧ t.parts = s.parts

/-- The command completes with a result (R467). -/
def givesResult (s : State) (r : Nat) (q : BitVec 16) (img : BitVec 512) (data : Nat) (bs : List Byte) (t : State) : Prop :=
  answered r q (resultAnswer img data bs).1 (resultAnswer img data bs).2.1 (resultAnswer img data bs).2.2 s t

section
variable {s : State} {r p : Nat} {q : BitVec 16} {img : BitVec 512} {k : CmdRule} (h : admitted k r q p img s = true)
include h

theorem complete_serviceFails (st : Nat) : serviceFails s r q st (complete r q st 0 0 (markStarted r q s)) := by
  have hmask := complete_mask (w := 0x300000#38) (by decide) r q st 0 0 (markStarted r q s)
  exact ⟨complete_started s _ r q _ _ _ (admitted_find h) rfl, same_of_mask hmask .cores (by decide), same_of_mask hmask .pmu (by decide),
    same_of_mask hmask .nvm (by decide), same_of_mask hmask .parts (by decide)⟩

theorem completeWith_gives (data : Nat) (bs : List Byte) : givesResult s r q img data bs (completeWith p r q img data bs (markStarted r q s)) :=
  completeWith_started s _ p r q img data bs (admitted_find h) rfl
end

/-! ### COUNTER_READ and HEALTH_READ (R503, R532, R562) -/

section
variable {s : State} {r p : Nat} {q : BitVec 16} {img : BitVec 512}

theorem counterRead_live (h : admitted ⟨0x600, false, false, false, [(0x18, 0, 1)]⟩ r q p img s = true) (hb : arg img 0x18 0 1 = 0) :
    completes (.counterRead r q) s (givesResult s r q img s.beat.cnt.toNat
      ((s.part p).acct.live.flatMap (leBytes 8) ++ leBytes 8 (s.part p).acct.sat.toNat)) := by
  refine completes_admitted h rfl ?_
  simp only [markStarted_part, hb, Nat.zero_ne_one, if_false]
  exact completeWith_gives h _ _

theorem counterRead_bar (h : admitted ⟨0x600, false, false, false, [(0x18, 0, 1)]⟩ r q p img s = true) (hb : arg img 0x18 0 1 = 1) :
    completes (.counterRead r q) s (givesResult s r q img (s.part p).acct.barBeat.toNat
      ((s.part p).acct.bar.flatMap (leBytes 8) ++ leBytes 8 (s.part p).acct.sat.toNat)) := by
  refine completes_admitted h rfl ?_
  simp only [markStarted_part, hb, if_true]
  exact completeWith_gives h _ _

theorem healthRead_gives (h : admitted ⟨0x620, false, false, false, []⟩ r q p img s = true) :
    completes (.healthRead r q) s (givesResult s r q img s.healthWord
      (leBytes 8 (maskWord s.fencedCores) ++ leBytes 32 (maskWord s.failedChannels) ++ leBytes 8 (maskWord s.failedPorts))) :=
  completes_admitted h rfl (completeWith_gives h _ _)
end

/-! ### POWER_STATE and POWER_CAP (R535, R536, R541) -/

section
variable {s : State} {r p : Nat} {q : BitVec 16} {img : BitVec 512}
  (h : admitted ⟨0x610, true, false, false, [(0x18, 0, 2)]⟩ r q p img s = true)
include h

theorem powerState_waits (ht : s.pmu.transition = true) : completes (.powerState r q) s (fun t => t = s) :=
  completes_admitted h rfl (if_pos ht)

variable (ht : s.pmu.transition = false)
include ht

/-- POWER_STATE with no transition in progress. -/
theorem execPowerState_still : execPowerState r q s = .next (
    if 2 ≤ arg img 0x18 0 2 ∧ s.anyRun then complete r q stPowerBusy 0 0 (markStarted r q s)
    else if arg img 0x18 0 2 = s.pmu.state then complete r q stOk 0 0 (markStarted r q s)
    else if arg img 0x18 0 2 < 2 ∧ s.pmu.state < 2 then
      complete r q stOk 0 0 (powerTo (if arg img 0x18 0 2 = 1 ∧ s.busyNow then 0 else arg img 0x18 0 2) (markStarted r q s))
    else addWait p r q (.power (arg img 0x18 0 2)) (powerToward (arg img 0x18 0 2) (markStarted r q s))) := by
  unfold execPowerState
  rw [runCommand_admitted h]
  exact congrArg Host.Outcome.next (if_neg (by rw [Bool.not_eq_true]; exact ht))

theorem powerState_busy (hn : 2 ≤ arg img 0x18 0 2) (hr : s.anyRun = true) : completes (.powerState r q) s (serviceFails s r q stPowerBusy) := by
  refine ⟨_, execPowerState_still h ht, ?_⟩
  rw [if_pos ⟨hn, hr⟩]
  exact complete_serviceFails h _

variable (hidle : 2 ≤ arg img 0x18 0 2 → s.anyRun = false)
include hidle

theorem powerState_same (hn : arg img 0x18 0 2 = s.pmu.state) : completes (.powerState r q) s (serviceFails s r q stOk) := by
  refine ⟨_, execPowerState_still h ht, ?_⟩
  rw [if_neg (fun hb => by simp [hidle hb.1] at hb), if_pos hn]
  exact complete_serviceFails h _

theorem powerState_transits (hn : arg img 0x18 0 2 ≠ s.pmu.state) (h2 : 2 ≤ arg img 0x18 0 2 ∨ 2 ≤ s.pmu.state) :
    completes (.powerState r q) s (fun t => nowWaits p r q (.power (arg img 0x18 0 2)) s t
      ∧ t.pmu = { s.pmu with target := arg img 0x18 0 2, transition := true }) := by
  refine ⟨_, execPowerState_still h ht, ?_⟩
  rw [if_neg (fun hb => by simp [hidle hb.1] at hb), if_neg hn, if_neg (by omega)]
  exact ⟨addWait_waits s _ p r q _ rfl rfl, rfl⟩

omit hidle in
theorem powerState_moves (hn : arg img 0x18 0 2 ≠ s.pmu.state) (h2 : arg img 0x18 0 2 < 2) (hs : s.pmu.state < 2)
    (hb : arg img 0x18 0 2 = 1 → s.busyNow = false) : completes (.powerState r q) s (fun t => answered r q stOk 0 0 s t
      ∧ t.pmu = { s.pmu with state := arg img 0x18 0 2, target := arg img 0x18 0 2 }) := by
  refine ⟨_, execPowerState_still h ht, ?_⟩
  rw [if_neg (by omega), if_neg hn, if_pos ⟨h2, hs⟩, if_neg (fun hbusy => by simp [hb hbusy.1] at hbusy)]
  exact ⟨complete_started s _ r q _ _ _ (admitted_find h) rfl,
    same_of_mask (complete_mask (w := 0x300000#38) (by decide) _ _ _ _ _ _) .pmu (by decide)⟩
end

section
variable {s : State} {r p : Nat} {q : BitVec 16} {img : BitVec 512}

theorem capOf_top {top v : Nat} (hv : v = 0 ∨ top < v) : capOf top v = top := if_pos hv

theorem capOf_within {top v : Nat} (h0 : 0 < v) (hv : v ≤ top) : capOf top v = max v (top * 3 / 10) := by
  unfold capOf
  rw [if_neg (by omega)]
  split
  · exact (Nat.max_eq_right (by omega)).symm
  · exact (Nat.max_eq_left (by omega)).symm

theorem powerCap_sets (h : admitted ⟨0x611, true, false, false, [(0x18, 0, 16)]⟩ r q p img s = true) : completes (.powerCap r q) s (fun t =>
    answered r q stOk 0 0 s t ∧ let v := arg img 0x18 0 16
      let top := maxPower s.cfg
      ((v = 0 ∨ top < v) → t.pmu.capW = top) ∧ (0 < v → v ≤ top → t.pmu.capW = max v (top * 3 / 10))) := by
  refine completes_admitted h rfl ⟨complete_started s _ r q _ _ _ (admitted_find h) rfl, ?_⟩
  intro v top
  rw [same_of_mask (complete_mask (w := 0x300000#38) (by decide) _ _ _ _ _ _) .pmu (by decide)]
  exact ⟨capOf_top, capOf_within⟩
end

/-! ### DEBUG_HALT and DEBUG_RESUME (R153, R503, R515, R535, R670) -/

section
variable (s : State)

theorem leaveIdle_state : (leaveIdle s).pmu.state ≠ 1 := by
  unfold leaveIdle
  split
  · exact Nat.zero_ne_one
  · assumption

theorem leaveIdle_cores : (leaveIdle s).cores = s.cores := same_of_mask (leaveIdle_mask (w := 0x400000000#38) (by decide) s) .cores (by decide)
end

section
variable (s : State) (r : Nat) (q : BitVec 16)

/-- What a command's start leaves, as the checks of the service commands read it. -/
theorem markStarted_prot : (markStarted r q s).prot = s.prot := rfl

theorem markStarted_debugPart (c : Nat) : (markStarted r q s).debugPart c = s.debugPart c := rfl

theorem markStarted_copyingFrom (c : Nat) : (markStarted r q s).copyingFrom c = s.copyingFrom c := rfl

theorem markStarted_bootRec : (markStarted r q s).bootRec = s.bootRec := rfl

theorem markStarted_stagedOk (i n : Nat) : (markStarted r q s).stagedOk i n = s.stagedOk i n := rfl

theorem markStarted_workOpen : (markStarted r q s).workOpen = s.workOpen := rfl
end

section
variable {s u : State} {r c : Nat} {q : BitVec 16} {f : Core → Core} (hu : u.cores = s.cores)
include hu

/-- A command that changes one core and completes, with P1 left. -/
theorem completedCore (h : ((s.ring r).find q).isSome = true) (hcmds : cmdsOf u.rings = cmdsOf (markStarted r q s).rings) :
    let t := complete r q stOk 0 0 (leaveIdle (u.modCore c f))
    answered r q stOk 0 0 s t ∧ t.core c = f (s.core c) ∧ othersSame c s t ∧ t.pmu.state ≠ 1 := by
  intro t
  have hmask := complete_mask (w := 0x300000#38) (by decide) r q stOk 0 0 (leaveIdle (u.modCore c f))
  have hcores : t.cores = (u.modCore c f).cores := (same_of_mask hmask .cores (by decide) : t.cores = _).trans (leaveIdle_cores _)
  have hcore (k : Nat) : t.core k = (u.modCore c f).core k := congrArg (kget Core.reset · k) hcores
  have hsame (k : Nat) : u.core k = s.core k := congrArg (kget Core.reset · k) hu
  have hpmu : t.pmu = (leaveIdle (u.modCore c f)).pmu := same_of_mask hmask .pmu (by decide)
  refine ⟨complete_started s _ r q _ _ _ h ((leaveIdle_cmds _).trans hcmds), ?_, fun k hk => ?_, ?_⟩
  · rw [hcore, State.core_modCore_same, hsame]
  · rw [hcore, State.core_modCore_other _ _ _ hk, hsame]
  · rw [hpmu]
    exact leaveIdle_state _
end

section
variable {s : State} {r p : Nat} {q : BitVec 16} {img : BitVec 512}
  (h : admitted ⟨0x700, true, false, false, [(0x18, 0, 6)]⟩ r q p img s = true)
include h

theorem debugHalt_noCore (hc : s.cfg.cores ≤ arg img 0x18 0 6) : completes (.debugHalt r q) s (serviceFails s r q stField) := by
  refine completes_admitted h rfl ?_
  simp only [markStarted_cfg, hc, if_true]
  exact complete_serviceFails h _

variable (hc : arg img 0x18 0 6 < s.cfg.cores)
include hc

theorem debugHalt_denied (hd : s.debugPart (arg img 0x18 0 6) = none ∨ s.prot.dbgHalt = false) :
    completes (.debugHalt r q) s (serviceFails s r q stDenied) := by
  refine completes_admitted h rfl ?_
  simp only [markStarted_cfg, markStarted_debugPart, markStarted_prot, Nat.not_le.2 hc, if_false]
  cases ho : s.debugPart (arg img 0x18 0 6) with
  | none => exact complete_serviceFails h _
  | some o =>
    have hoff : s.prot.dbgHalt = false := hd.resolve_left (by rw [ho]; exact Option.some_ne_none o)
    simp only [hoff, Bool.not_false, if_true]
    exact complete_serviceFails h _

variable {o : Nat} (ho : s.debugPart (arg img 0x18 0 6) = some o) (hd : s.prot.dbgHalt = true)
include ho hd

theorem debugHalt_busy (hr : (s.part o).run ≠ none) : completes (.debugHalt r q) s (serviceFails s r q stChorBusy) := by
  refine completes_admitted h rfl ?_
  simp only [markStarted_cfg, markStarted_debugPart, markStarted_prot, markStarted_part, Nat.not_le.2 hc, if_false, ho, hd, Bool.not_true,
    Bool.false_eq_true, Option.isSome_iff_ne_none.2 hr, if_true]
  exact complete_serviceFails h _

theorem debugHalt_halts (hr : (s.part o).run = none) : completes (.debugHalt r q) s (fun t => answered r q stOk 0 0 s t
    ∧ t.core (arg img 0x18 0 6) = { s.core (arg img 0x18 0 6) with halted := true } ∧ othersSame (arg img 0x18 0 6) s t ∧ t.pmu.state ≠ 1) := by
  refine completes_admitted h rfl ?_
  simp only [markStarted_cfg, markStarted_debugPart, markStarted_prot, markStarted_part, Nat.not_le.2 hc, if_false, ho, hd, Bool.not_true,
    Bool.false_eq_true, hr, Option.isSome_none]
  exact completedCore rfl (admitted_find h) rfl
end

section
variable {s : State} {r p : Nat} {q : BitVec 16} {img : BitVec 512}
  (h : admitted ⟨0x701, true, false, false, [(0x18, 0, 6)]⟩ r q p img s = true)
include h

theorem debugResume_noCore (hc : s.cfg.cores ≤ arg img 0x18 0 6) : completes (.debugResume r q) s (serviceFails s r q stField) := by
  refine completes_admitted h rfl ?_
  simp only [markStarted_cfg, hc, if_true]
  exact complete_serviceFails h _

variable (hc : arg img 0x18 0 6 < s.cfg.cores)
include hc

theorem debugResume_waits (hb : s.copyingFrom (arg img 0x18 0 6) = true) : completes (.debugResume r q) s (fun t =>
    nowWaits p r q (.debugResume (arg img 0x18 0 6)) s t ∧ t.cores = s.cores ∧ t.pmu.state ≠ 1) := by
  refine completes_admitted h rfl ?_
  simp only [markStarted_cfg, markStarted_copyingFrom, Nat.not_le.2 hc, if_false, hb, if_true]
  have hparts : (leaveIdle (markStarted r q s)).parts = s.parts :=
    same_of_mask (leaveIdle_mask (w := 0x400000000#38) (by decide) (markStarted r q s)) .parts (by decide)
  exact ⟨addWait_waits s _ p r q _ (leaveIdle_cmds _) (by rw [part_of_parts hparts]), leaveIdle_cores _, leaveIdle_state _⟩

theorem debugResume_resumes (hb : s.copyingFrom (arg img 0x18 0 6) = false) : completes (.debugResume r q) s (fun t =>
    answered r q stOk 0 0 s t ∧ t.core (arg img 0x18 0 6) = { s.core (arg img 0x18 0 6) with halted := false }
    ∧ othersSame (arg img 0x18 0 6) s t ∧ t.pmu.state ≠ 1) := by
  refine completes_admitted h rfl ?_
  simp only [markStarted_cfg, markStarted_copyingFrom, Nat.not_le.2 hc, if_false, hb, Bool.false_eq_true]
  exact completedCore rfl (admitted_find h) rfl
end

end Sys2Proof.Machine
end

section
/-! PROOF. The boot record and the firmware commands (R484 to R486, R492, R504, R521, R630), and the assembly of O56. -/

namespace Sys2Proof.Machine

/-! ### Bytes -/

theorem ofLe_lt (bs : List Byte) : ofLe bs < 256 ^ bs.length := by
  induction bs with
  | nil => exact Nat.one_pos
  | cons b bs ih =>
    have hb := b.isLt
    have hpow : 256 ^ (b :: bs).length = 256 * 256 ^ bs.length := Nat.pow_succ'
    rw [ofLe, hpow]
    omega

theorem ofLe_cut_lt (bs : List Byte) (a n : Nat) : ofLe (cut bs a n) < 256 ^ n := by
  have hlen : (cut bs a n).length ≤ n := List.length_take_le ..
  exact (ofLe_lt _).trans_le (Nat.pow_le_pow_right (by decide) hlen)

/-- A piece of bytes that stands after others. -/
theorem cut_mid (x y z : List Byte) (a n : Nat) (ha : x.length = a) (hn : y.length = n) : cut (x ++ y ++ z) a n = y := by
  subst ha hn
  rw [cut, List.append_assoc, List.drop_left, List.take_left]

/-- A piece of bytes that are put together of pieces. -/
theorem cut_flatten {l : List (List Byte)} {k : Nat} {y : List Byte} (h : l[k]? = some y) {a n : Nat}
    (ha : ((l.take k).map List.length).sum = a) (hn : y.length = n) : cut l.flatten a n = y := by
  have hsplit : l = l.take k ++ y :: l.drop (k + 1) := by
    obtain ⟨hk, rfl⟩ := List.getElem?_eq_some_iff.1 h
    rw [← List.drop_eq_getElem_cons hk, List.take_append_drop]
  rw [hsplit, List.flatten_append, List.flatten_cons, ← List.append_assoc]
  exact cut_mid _ _ _ a n ((List.length_flatten).trans ha) hn

theorem nvmRead_put (s : State) (a n : Nat) (bs rest : List Byte) (h : bs.length = n) : (nvmWrite a (bs ++ rest) s).nvmRead a n = bs := by
  subst h
  refine List.ext_getElem (by simp [State.nvmRead]) fun k h1 h2 => ?_
  have hget : (bs ++ rest)[k]? = some bs[k] := by rw [List.getElem?_append_left h2, List.getElem?_eq_getElem h2]
  simpa [State.nvmRead, nvmWrite] using kget_nvmPut_in s.nvm a (bs ++ rest) k bs[k] hget

theorem nvmRead_other (s : State) (a b n : Nat) (bs : List Byte) (h : b + n ≤ a ∨ a + bs.length ≤ b) :
    (nvmWrite a bs s).nvmRead b n = s.nvmRead b n := by
  refine List.map_congr_left fun k hk => ?_
  have hlt := List.mem_range.1 hk
  exact kget_nvmPut_out s.nvm a bs (b + k) (by omega)

/-! ### The boot record (R629, R630) -/

/-- The fields of a record that its bytes hold. -/
def BootRec.inRange (x : BootRec) : Prop := x.gen < 2 ^ 32 ∧ x.stateA < 2 ^ 8 ∧ x.stateB < 2 ^ 8 ∧ x.lenA < 2 ^ 32 ∧ x.lenB < 2 ^ 32

/-- The bytes of a record before its CRC. -/
def BootRec.body (x : BootRec) : List Byte :=
  leBytes 4 0x0A5E0B00 ++ leBytes 4 1 ++ leBytes 4 x.gen ++ leBytes 1 x.stateA ++ leBytes 1 x.stateB ++ leBytes 2 0
    ++ leBytes 4 x.lenA ++ leBytes 4 x.lenB ++ leBytes 4 0

/-- The pieces that a record's bytes are put together of. -/
def BootRec.pieces (x : BootRec) : List (List Byte) :=
  [leBytes 4 0x0A5E0B00, leBytes 4 1, leBytes 4 x.gen, leBytes 1 x.stateA, leBytes 1 x.stateB, leBytes 2 0, leBytes 4 x.lenA,
    leBytes 4 x.lenB, leBytes 4 0, leBytes 4 (crc32 x.body).toNat]

section
variable (x : BootRec)

theorem BootRec.body_length : x.body.length = 28 := by simp [BootRec.body]

theorem BootRec.bytes_eq : x.bytes = x.body ++ leBytes 4 (crc32 x.body).toNat := rfl

theorem BootRec.bytes_length : x.bytes.length = 32 := by rw [x.bytes_eq, List.length_append, x.body_length, leBytes_length]

theorem BootRec.bytes_pieces : x.bytes = x.pieces.flatten := by
  simp only [x.bytes_eq, BootRec.body, BootRec.pieces, List.flatten_cons, List.flatten_nil, List.append_nil, List.append_assoc]

/-- The number that piece `k` of a record's bytes spells. -/
theorem BootRec.bytes_field {k n w a : Nat} (hk : x.pieces[k]? = some (leBytes n w)) (ha : ((x.pieces.take k).map List.length).sum = a)
    (hw : w < 256 ^ n) : ofLe (cut x.bytes a n) = w := by
  rw [x.bytes_pieces, cut_flatten hk ha (leBytes_length n w), ofLe_leBytes, Nat.mod_eq_of_lt hw]

theorem BootRec.bytes_crc : ofLe (cut x.bytes 0x1C 4) = (crc32 (x.bytes.take 28)).toNat := by
  have htake : x.bytes.take 28 = x.body := by rw [x.bytes_eq, ← x.body_length, List.take_left]
  rw [htake]
  exact x.bytes_field (k := 9) rfl (by simp [BootRec.pieces]) (crc32 x.body).isLt
end

section
variable {s : State} {x : BootRec}

/-- A record that is written into a copy is the copy's record. -/
theorem bootCopy_putBootRec_same (h : x.inRange) (i : Nat) : (putBootRec i x s).bootCopy i = some x := by
  obtain ⟨hgen, ha, hb, hla, hlb⟩ := h
  have hread : (putBootRec i x s).nvmRead (0x800 * i) 32 = x.bytes := nvmRead_put s _ 32 _ _ x.bytes_length
  have hmagic := x.bytes_field (k := 0) (a := 0) (w := 0x0A5E0B00) rfl rfl (by decide)
  have hone := x.bytes_field (k := 1) (a := 4) (w := 1) rfl (by simp [BootRec.pieces]) (by decide)
  rw [State.bootCopy, hread, hmagic, hone, x.bytes_crc, if_pos ⟨rfl, rfl, rfl⟩,
    x.bytes_field (k := 2) (a := 8) rfl (by simp [BootRec.pieces]) hgen, x.bytes_field (k := 3) (a := 12) rfl (by simp [BootRec.pieces]) ha,
    x.bytes_field (k := 4) (a := 13) rfl (by simp [BootRec.pieces]) hb, x.bytes_field (k := 6) (a := 16) rfl (by simp [BootRec.pieces]) hla,
    x.bytes_field (k := 7) (a := 20) rfl (by simp [BootRec.pieces]) hlb]

theorem bootCopy_putBootRec_other {i j : Nat} (h : j ≠ i) : (putBootRec i x s).bootCopy j = s.bootCopy j := by
  have hread : (putBootRec i x s).nvmRead (0x800 * j) 32 = s.nvmRead (0x800 * j) 32 := by
    refine nvmRead_other s _ _ 32 _ ?_
    rw [List.length_append, x.bytes_length, List.length_replicate]
    omega
  rw [State.bootCopy, State.bootCopy, hread]

/-- The record of a valid copy is in range. -/
theorem bootCopy_inRange {i : Nat} (h : s.bootCopy i = some x) : x.inRange := by
  rw [State.bootCopy] at h
  split at h
  · cases h
    exact ⟨ofLe_cut_lt _ 8 4, ofLe_cut_lt _ 12 1, ofLe_cut_lt _ 13 1, ofLe_cut_lt _ 16 4, ofLe_cut_lt _ 20 4⟩
  · cases h

/-- The record in force is that of one of the two copies. -/
theorem bootRec_copy {i : Nat} (h : s.bootRec = some (i, x)) : i < 2 ∧ s.bootCopy i = some x := by
  unfold State.bootRec at h
  split at h
  next a b ha hb =>
    split at h <;> cases h
    · exact ⟨by decide, hb⟩
    · exact ⟨by decide, ha⟩
  next a ha _ => cases h; exact ⟨by decide, ha⟩
  next b _ hb => cases h; exact ⟨by decide, hb⟩
  next => cases h

/-- The copy with the larger generation is in force, copy 0 where they agree. -/
theorem bootRec_second {a b : BootRec} (h0 : s.bootCopy 0 = some a) (h1 : s.bootCopy 1 = some b) (h : a.gen < b.gen) : s.bootRec = some (1, b) := by
  rw [State.bootRec, h0, h1]
  exact if_pos h

theorem bootRec_first {a b : BootRec} (h0 : s.bootCopy 0 = some a) (h1 : s.bootCopy 1 = some b) (h : ¬ a.gen < b.gen) : s.bootRec = some (0, a) := by
  rw [State.bootRec, h0, h1]
  exact if_neg h

/-- A record of a larger generation that is written into the other copy is in force. -/
theorem bootRec_putBootRec {i : Nat} {y : BootRec} (h : s.bootRec = some (i, x)) (hy : y.inRange) (hgen : x.gen < y.gen) :
    (putBootRec (1 - i) y s).bootRec = some (1 - i, y) := by
  obtain ⟨hi, hcopy⟩ := bootRec_copy h
  have hnew : (putBootRec (1 - i) y s).bootCopy (1 - i) = some y := bootCopy_putBootRec_same hy _
  have hold : (putBootRec (1 - i) y s).bootCopy i = some x := (bootCopy_putBootRec_other (by omega)).trans hcopy
  obtain rfl | rfl : i = 0 ∨ i = 1 := by omega
  · exact bootRec_second hold hnew hgen
  · exact bootRec_first hnew hold (Nat.lt_asymm hgen)

/-- A changed record is in force, in the other copy and with the next generation. -/
theorem bootRec_modBootRec {i : Nat} {f : BootRec → BootRec} (h : s.bootRec = some (i, x)) (hf : (f x).inRange) (hgen : x.gen + 1 < 2 ^ 32) :
    (modBootRec f s).bootRec = some (1 - i, { f x with gen := x.gen + 1 }) := by
  have hmod : modBootRec f s = putBootRec (1 - i) { f x with gen := (x.gen + 1) % 2 ^ 32 } s := by rw [modBootRec, h]
  rw [hmod, Nat.mod_eq_of_lt hgen]
  exact bootRec_putBootRec h ⟨hgen, hf.2⟩ (Nat.lt_succ_self _)

theorem BootRec.setState_inRange {i v : Nat} (h : x.inRange) (hv : v < 2 ^ 8) : (x.setState i v).inRange := by
  obtain ⟨hgen, ha, hb, hlens⟩ := h
  unfold BootRec.setState
  split
  · exact ⟨hgen, hv, hb, hlens⟩
  · exact ⟨hgen, ha, hv, hlens⟩

theorem BootRec.setLen_inRange {i n : Nat} (h : x.inRange) (hn : n < 2 ^ 32) : (x.setLen i n).inRange := by
  obtain ⟨hgen, ha, hb, hla, hlb⟩ := h
  unfold BootRec.setLen
  split
  · exact ⟨hgen, ha, hb, hn, hlb⟩
  · exact ⟨hgen, ha, hb, hla, hn⟩

theorem bootRec_of_nvm {t : State} (h : t.nvm = s.nvm) : t.bootRec = s.bootRec := by
  have hread (a n : Nat) : t.nvmRead a n = s.nvmRead a n := by rw [State.nvmRead, State.nvmRead, h]
  have hcopy (i : Nat) : t.bootCopy i = s.bootCopy i := by rw [State.bootCopy, State.bootCopy, hread]
  rw [State.bootRec, State.bootRec, hcopy, hcopy]

theorem complete_nvm (r : Nat) (q : BitVec 16) (st d b : Nat) : (complete r q st d b s).nvm = s.nvm :=
  same_of_mask (complete_mask (w := 0x300000#38) (by decide) _ _ _ _ _ _) .nvm (by decide)
end

/-! ### FW_STAGE (R484, R504) -/

section
variable {s : State}

theorem kget_filter_in {α : Type} {d : α} {g : Nat → Bool} (m : KMap α) {k : Nat} (h : g k = true) :
    kget d (m.filter (fun e => g e.1)) k = kget d m k := by
  induction m with
  | nil => rfl
  | cons e m ih =>
    obtain ⟨j, v⟩ := e
    by_cases hj : g j = true
    · rw [List.filter_cons_of_pos (by exact hj), kget, kget, ih]
    · have hne : j ≠ k := fun e => hj (e ▸ h)
      rw [List.filter_cons_of_neg (by exact hj), ih, kget, if_neg hne]

theorem kget_filter_out {α : Type} {d : α} {g : Nat → Bool} (m : KMap α) {k : Nat} (h : g k = false) :
    kget d (m.filter (fun e => g e.1)) k = d := by
  induction m with
  | nil => rfl
  | cons e m ih =>
    obtain ⟨j, v⟩ := e
    by_cases hj : g j = true
    · have hne : j ≠ k := fun e => by rw [e, h] at hj; cases hj
      rw [List.filter_cons_of_pos (by exact hj), kget, if_neg hne, ih]
    · rw [List.filter_cons_of_neg (by exact hj), ih]

/-- The byte is one of slot `i` (R627). -/
def inFwSlot (i b : Nat) : Prop := fwSlotAt i ≤ b ∧ b < fwSlotAt i + 2 ^ 23

theorem eraseSlot_in {i b : Nat} (h : inFwSlot i b) : kget 0xFF (eraseSlot i s).nvm b = 0xFF :=
  kget_filter_out (g := fun b => !(decide (fwSlotAt i ≤ b) && decide (b < fwSlotAt i + 2 ^ 23))) _ (by simpa [inFwSlot] using h)

theorem eraseSlot_out {i b : Nat} (h : ¬ inFwSlot i b) : kget 0xFF (eraseSlot i s).nvm b = kget 0xFF s.nvm b :=
  kget_filter_in (g := fun b => !(decide (fwSlotAt i ≤ b) && decide (b < fwSlotAt i + 2 ^ 23))) _ (by
    rw [inFwSlot] at h
    simp only [Bool.not_eq_true', Bool.and_eq_false_iff, decide_eq_false_iff_not]
    omega)

/-- Staged bytes stand in the slot; the rest of it is erased with those at offset 0, and NVM elsewhere stays. -/
theorem stageBytes_nvm (i off : Nat) (bs : List Byte) :
    (∀ k b, bs[k]? = some b → kget 0xFF (stageBytes i off bs s).nvm (fwSlotAt i + off + k) = b)
    ∧ (∀ b, (b < fwSlotAt i + off ∨ fwSlotAt i + off + bs.length ≤ b) → (off ≠ 0 ∨ ¬ inFwSlot i b) →
        kget 0xFF (stageBytes i off bs s).nvm b = kget 0xFF s.nvm b)
    ∧ (∀ b, off = 0 → inFwSlot i b → fwSlotAt i + bs.length ≤ b → kget 0xFF (stageBytes i off bs s).nvm b = 0xFF) := by
  refine ⟨fun k b hb => kget_nvmPut_in _ _ bs k b hb, fun b hb hout => (kget_nvmPut_out _ _ bs b hb).trans ?_, fun b h0 hin hb => ?_⟩
  · by_cases h0 : off = 0
    · rw [if_pos h0]
      exact eraseSlot_out (hout.resolve_left (not_not_intro h0))
    · rw [if_neg h0]
  · refine (kget_nvmPut_out _ _ bs b (.inr (by omega))).trans ?_
    rw [if_pos h0]
    exact eraseSlot_in hin
end

/-- A range that FW_STAGE may read. -/
theorem stageRange_ok {n off : Nat} {pinned : Bool} (h0 : 0 < n) (hn : n ≤ 65536) (hend : off + n ≤ maxImage) (hpin : pinned = true) :
    ¬ (n = 0 ∨ 65536 < n ∨ maxImage ≤ off ∨ maxImage < off + n ∨ (!pinned) = true) := by
  rw [hpin]
  simp
  omega

section
variable {s : State} {r p : Nat} {q : BitVec 16} {img : BitVec 512}
  (h : admitted ⟨0x800, true, false, false, [(0x18, 0, 52), (0x20, 0, 23), (0x24, 0, 17)]⟩ r q p img s = true)
include h

theorem fwStage_field (hbad : arg img 0x24 0 17 = 0 ∨ 65536 < arg img 0x24 0 17 ∨ maxImage < arg img 0x20 0 23 + arg img 0x24 0 17
    ∨ (markStarted r q s).pinned p (arg img 0x18 0 52) (arg img 0x24 0 17) = false) :
    completes (.fwStage r q) s (serviceFails s r q stField) := by
  refine completes_admitted h rfl ?_
  dsimp only
  rw [if_pos (by simpa using by tauto)]
  exact complete_serviceFails h _

variable (h0 : 0 < arg img 0x24 0 17) (hn : arg img 0x24 0 17 ≤ 65536) (hend : arg img 0x20 0 23 + arg img 0x24 0 17 ≤ maxImage)
  (hpin : (markStarted r q s).pinned p (arg img 0x18 0 52) (arg img 0x24 0 17) = true) {i : Nat} {x : BootRec} (hx : s.bootRec = some (i, x))
include h0 hn hend hpin hx

theorem fwStage_busy (hup : x.updating = true) : completes (.fwStage r q) s (serviceFails s r q stFwBusy) := by
  refine completes_admitted h rfl ?_
  simp only [if_neg (stageRange_ok h0 hn hend hpin), markStarted_bootRec, hx, hup, if_true]
  exact complete_serviceFails h _

theorem fwStage_stages {bs : List Byte} (hup : x.updating = false)
    (hread : (markStarted r q s).readVa p (arg img 0x18 0 52) (arg img 0x24 0 17) = .ok bs) : completes (.fwStage r q) s (fun t =>
    answered r q stOk 0 0 s t
    ∧ (∀ k b, bs[k]? = some b → kget 0xFF t.nvm (fwSlotAt x.spare + arg img 0x20 0 23 + k) = b)
    ∧ (∀ b, (b < fwSlotAt x.spare + arg img 0x20 0 23 ∨ fwSlotAt x.spare + arg img 0x20 0 23 + bs.length ≤ b) →
        (arg img 0x20 0 23 ≠ 0 ∨ ¬ inFwSlot x.spare b) → kget 0xFF t.nvm b = kget 0xFF s.nvm b)
    ∧ (∀ b, arg img 0x20 0 23 = 0 → inFwSlot x.spare b → fwSlotAt x.spare + bs.length ≤ b → kget 0xFF t.nvm b = 0xFF)) := by
  refine completes_admitted h rfl ?_
  simp only [if_neg (stageRange_ok h0 hn hend hpin), markStarted_bootRec, hx, hup, Bool.false_eq_true, if_false, hread, complete_nvm]
  have hcmds : cmdsOf (stageBytes x.spare (arg img 0x20 0 23) bs (markStarted r q s)).rings = cmdsOf (markStarted r q s).rings :=
    (nvmWrite_cmds _ _ _).trans (view_ite_eq (F := fun t => cmdsOf t.rings) rfl rfl)
  exact ⟨complete_started s _ r q _ _ _ (admitted_find h) hcmds, stageBytes_nvm (s := markStarted r q s) _ _ _⟩
end

/-! ### FW_COMMIT and FW_CONFIRM (R484, R630) -/

section
variable {s : State} {r p : Nat} {q : BitVec 16} {img : BitVec 512}
  (h : admitted ⟨0x801, true, false, false, [(0x18, 0, 23)]⟩ r q p img s = true) {i : Nat} {x : BootRec} (hx : s.bootRec = some (i, x))
include h hx

theorem fwCommit_busy (hup : x.updating = true) : completes (.fwCommit r q) s (serviceFails s r q stFwBusy) := by
  refine completes_admitted h rfl ?_
  simp only [markStarted_bootRec, hx, hup, if_true]
  exact complete_serviceFails h _

variable (hup : x.updating = false)
include hup

theorem fwCommit_invalid (hbad : maxImage < arg img 0x18 0 23 ∨ s.stagedOk x.spare (arg img 0x18 0 23) = false) :
    completes (.fwCommit r q) s (serviceFails s r q stFwInvalid) := by
  have hbad' : maxImage < arg img 0x18 0 23 ∨ (!s.stagedOk x.spare (arg img 0x18 0 23)) = true := hbad.imp_right fun e => by rw [e]; rfl
  refine completes_admitted h rfl ?_
  simp only [markStarted_bootRec, markStarted_stagedOk, hx, hup, Bool.false_eq_true, if_false, hbad', if_true]
  exact complete_serviceFails h _

theorem fwCommit_commits (hn : arg img 0x18 0 23 ≤ maxImage) (hok : s.stagedOk x.spare (arg img 0x18 0 23) = true) (hgen : x.gen + 1 < 2 ^ 32) :
    completes (.fwCommit r q) s (fun t => answered r q stOk 0 0 s t
      ∧ t.bootRec = some (1 - i, { (x.setState x.spare 2).setLen x.spare (arg img 0x18 0 23) with gen := x.gen + 1 })) := by
  have hlen : arg img 0x18 0 23 < 2 ^ 32 := (arg_lt img 0x18 0 23).trans (by decide)
  have hgo : ¬ maxImage < arg img 0x18 0 23 := Nat.not_lt.2 hn
  refine completes_admitted h rfl ?_
  simp only [markStarted_bootRec, markStarted_stagedOk, hx, hup, Bool.false_eq_true, if_false, hok, Bool.not_true, hgo, or_self]
  refine ⟨complete_started s _ r q _ _ _ (admitted_find h) (modBootRec_cmds _ _), ?_⟩
  rw [bootRec_of_nvm (complete_nvm _ _ _ _ _)]
  exact bootRec_modBootRec (s := markStarted r q s) hx
    (BootRec.setLen_inRange (BootRec.setState_inRange (bootCopy_inRange (bootRec_copy hx).2) (by decide)) hlen) hgen
end

section
variable {s : State} {r p : Nat} {q : BitVec 16} {img : BitVec 512} (h : admitted ⟨0x803, true, false, false, []⟩ r q p img s = true)
include h

theorem fwConfirm_noRecord (hx : s.bootRec = none) : completes (.fwConfirm r q) s (serviceFails s r q stFwInvalid) := by
  refine completes_admitted h rfl ?_
  simp only [markStarted_bootRec, hx]
  exact complete_serviceFails h _

variable {i : Nat} {x : BootRec} (hx : s.bootRec = some (i, x))
include hx

theorem fwConfirm_noTrial (ht : x.slotIn 3 = none) : completes (.fwConfirm r q) s (serviceFails s r q stFwInvalid) := by
  refine completes_admitted h rfl ?_
  simp only [markStarted_bootRec, hx, ht]
  exact complete_serviceFails h _

theorem fwConfirm_confirms {j : Nat} (ht : x.slotIn 3 = some j) (hgen : x.gen + 1 < 2 ^ 32) : completes (.fwConfirm r q) s (fun t =>
    answered r q stOk 0 0 s t ∧ t.fw.trial = false
    ∧ t.bootRec = some (1 - i, { (x.setState j 1).setState (1 - j) 0 with gen := x.gen + 1 })) := by
  refine completes_admitted h rfl ?_
  simp only [markStarted_bootRec, hx, ht]
  have hrec := bootRec_modBootRec (s := markStarted r q s) (f := fun x => (x.setState j 1).setState (1 - j) 0) hx
    (BootRec.setState_inRange (BootRec.setState_inRange (bootCopy_inRange (bootRec_copy hx).2) (by decide)) (by decide)) hgen
  have hcmds := modBootRec_cmds (fun x => (x.setState j 1).setState (1 - j) 0) (markStarted r q s)
  generalize modBootRec (fun x => (x.setState j 1).setState (1 - j) 0) (markStarted r q s) = v at hrec hcmds
  refine ⟨complete_started s _ r q _ _ _ (admitted_find h) hcmds, ?_, ?_⟩
  · rw [same_of_mask (complete_mask (w := 0x300000#38) (by decide) _ _ _ _ _ _) .fw (by decide)]
  · rw [bootRec_of_nvm (complete_nvm _ _ _ _ _)]
    exact hrec
end

/-! ### FW_ACTIVATE and the restart (R484 to R486, R521) -/

/-- A property of every entry and of the default value, of every read. -/
theorem kget_of_all {α : Type} {d : α} {P : α → Prop} {m : KMap α} (hd : P d) (h : ∀ e ∈ m, P e.2) (k : Nat) : P (kget d m k) := by
  by_cases e : kget d m k = d
  · rwa [e]
  · exact h _ (kget_mem e)

section
variable (s : State)

theorem clearFremund_part (k : Nat) : ((clearFremund s).part k).chor = none ∧ ((clearFremund s).part k).waiting = []
    ∧ ((clearFremund s).part k).kv = Part.reset.kv ∧ ((clearFremund s).part k).space = Space.reset := by
  refine kget_of_all (P := fun x : Part => x.chor = none ∧ x.waiting = [] ∧ x.kv = Part.reset.kv ∧ x.space = Space.reset) ⟨rfl, rfl, rfl, rfl⟩
    (fun e he => ?_) k
  obtain ⟨x, -, rfl⟩ := List.mem_map.1 (List.mem_of_mem_filter he)
  exact ⟨rfl, rfl, rfl, rfl⟩

/-- The state before the rings of a restarted cluster open. -/
def rebooted : State := bootFremund (clearFremund (haltRings s))

/-- Every ring that is owned, DOWN. -/
def downRings : State :=
  (List.range 16).foldl (fun t r => if (t.ringOwner r).isSome then t.modRing r (fun g => { g.fresh with state := .down }) else t) s

theorem restartCluster_eq : restartCluster s = if (rebooted s).fw.state = .running then openRings (rebooted s) else downRings (rebooted s) := rfl

theorem downRings_mask : (downRings s).mask 0x100000#38 = s.mask 0x100000#38 :=
  mask_foldl (fun t r => view_ite (fun t => t.mask 0x100000#38) (State.modRing_mask (by decide) t r _) rfl) _ s

/-- A restart leaves of the rest what boot code leaves of it. -/
theorem restartCluster_rebooted : (restartCluster s).mask 0x100000#38 = (rebooted s).mask 0x100000#38 := by
  rw [restartCluster_eq]
  exact view_ite (fun t => t.mask 0x100000#38) (openRings_mask (by decide) _) (downRings_mask _)

theorem openRings_fresh {k : Nat} (hk : k < 16) (ho : (s.ringOwner k).isSome = true) : ∃ g : Ring, (openRings s).ring k = g.fresh := by
  have howner (t : State) (r : Nat) : (openRing t r).ringOwner k = t.ringOwner k := view_ite (fun t => t.ringOwner k) rfl rfl
  refine foldl_sets (F := openRing) (I := fun t => (t.ringOwner k).isSome = true) (P := fun t => ∃ g : Ring, t.ring k = g.fresh) (x := k)
    (fun t y ht => by rwa [howner]) (fun t ht => ?_) (fun t y ht hy hg => ?_) (List.mem_range.2 hk) ho
  · rw [openRing, if_pos ht, State.ring_modRing_same]
    exact ⟨_, rfl⟩
  · have hsame : (openRing t y).ring k = t.ring k := view_ite (fun t => t.ring k) (State.ring_modRing_other _ _ _ hy.symm) rfl
    rwa [hsame]

/-- Boot code and the clearing leave the owners of the rings. -/
theorem rebooted_ringOwner (k : Nat) : (rebooted s).ringOwner k = s.ringOwner k := by
  have hfixed : (rebooted s).prot.fixed = (clearFremund (haltRings s)).prot.fixed :=
    same_of_mask (bootFremund_mask (w := 0x248400000#38) (by decide) _) .protFixed (by decide)
  have hhalt : (clearFremund (haltRings s)).prot = s.prot := same_of_mask (haltRings_mask (w := 0x100000#38) (by decide) s) .prot (by decide)
  have hcfg : (rebooted s).prot.ringCfg = s.prot.ringCfg := by
    obtain ⟨-, -, -, -, -, hc, -⟩ := (Prot.fixed_iff _ _).1 hfixed
    rw [hc, hhalt]
  rw [State.ringOwner, State.ringOwner, hcfg]

theorem restartCluster_runs (h : (restartCluster s).fw.state = .running) : restartCluster s = openRings (rebooted s) := by
  have hfw : (restartCluster s).fw = (rebooted s).fw := same_of_mask (restartCluster_rebooted s) .fw (by decide)
  rw [hfw] at h
  rw [restartCluster_eq, if_pos h]

/-- What a restart clears, and the rings once the new Fremund runs. -/
theorem restartCluster_clears {t : State} (ht : restartCluster s = t) :
    t.seqs = [] ∧ t.lbs = [] ∧ t.clms = [] ∧ t.utlbs = [] ∧ t.faults.entries = []
    ∧ (∀ k, (t.part k).chor = none ∧ (t.part k).waiting = [] ∧ (t.part k).kv = Part.reset.kv ∧ (t.part k).space = Space.reset)
    ∧ (t.fw.state = .running → ∀ k, k < 16 → (s.ringOwner k).isSome = true →
        (t.ring k).state = .ready ∧ (t.ring k).opened = [] ∧ (t.ring k).prod = 0 ∧ (t.ring k).ctail = 0 ∧ (t.ring k).versionRead = false) := by
  have hboot : (rebooted s).mask 0x248400000#38 = (clearFremund (haltRings s)).mask 0x248400000#38 := bootFremund_mask (by decide) _
  have hmask : t.mask 0x248500000#38 = (clearFremund (haltRings s)).mask 0x248500000#38 :=
    ht ▸ (mask_mono (restartCluster_rebooted s) (by decide)).trans (mask_mono hboot (by decide))
  have hparts : t.parts = (clearFremund (haltRings s)).parts := same_of_mask hmask .parts (by decide)
  have hfaults : t.faults = (clearFremund (haltRings s)).faults := same_of_mask hmask .faults (by decide)
  refine ⟨same_of_mask hmask .seqs (by decide), same_of_mask hmask .lbs (by decide), same_of_mask hmask .clms (by decide),
    same_of_mask hmask .utlbs (by decide), congrArg FaultQueue.entries hfaults, fun k => ?_, fun hrun k hk ho => ?_⟩
  · rw [part_of_parts hparts]
    exact clearFremund_part _ k
  · have hopen : t = openRings (rebooted s) := ht.symm.trans (restartCluster_runs s (by rwa [ht]))
    have ho' : ((rebooted s).ringOwner k).isSome = true := by rwa [rebooted_ringOwner]
    obtain ⟨g, hg⟩ := openRings_fresh (rebooted s) hk ho'
    rw [hopen, hg]
    exact ⟨rfl, rfl, rfl, rfl, rfl⟩
end

section
variable {s : State} {r p : Nat} {q : BitVec 16} {img : BitVec 512} (h : admitted ⟨0x802, true, false, false, [(0x18, 0, 1)]⟩ r q p img s = true)
include h

theorem fwActivate_busy (hnow : arg img 0x18 0 1 = 1) (hw : s.workOpen = true) : completes (.fwActivate r q) s (serviceFails s r q stFwBusy) := by
  refine completes_admitted h rfl ?_
  simp only [markStarted_workOpen, hnow, hw, decide_true, Bool.and_self, if_true]
  exact complete_serviceFails h _

omit h in
theorem activation_free (hw : arg img 0x18 0 1 = 1 → s.workOpen = false) : (decide (arg img 0x18 0 1 = 1) && s.workOpen) = false := by
  by_cases hnow : arg img 0x18 0 1 = 1
  · rw [hw hnow, Bool.and_false]
  · rw [decide_eq_false hnow, Bool.false_and]

theorem fwActivate_notPending (hw : arg img 0x18 0 1 = 1 → s.workOpen = false) (hp : (s.bootRec.bind (fun x => x.2.slotIn 2)).isSome = false) :
    completes (.fwActivate r q) s (serviceFails s r q stFwInvalid) := by
  refine completes_admitted h rfl ?_
  simp only [markStarted_workOpen, markStarted_bootRec, activation_free hw, Bool.false_eq_true, if_false,
    Option.isNone_iff_eq_none.1 (Option.isSome_eq_false_iff.1 hp)]
  exact complete_serviceFails h _

variable (hp : (s.bootRec.bind (fun x => x.2.slotIn 2)).isSome = true)
include hp

theorem fwActivate_later (hnow : ¬ arg img 0x18 0 1 = 1) : completes (.fwActivate r q) s (serviceFails s r q stOk) := by
  obtain ⟨i, hi⟩ := Option.isSome_iff_exists.1 hp
  refine completes_admitted h rfl ?_
  simp only [markStarted_bootRec, hnow, hi, decide_false, Bool.false_and, Bool.false_eq_true, if_false]
  exact complete_serviceFails h _

theorem fwActivate_restarts (hnow : arg img 0x18 0 1 = 1) (hw : s.workOpen = false) : completes (.fwActivate r q) s (fun t =>
    t.seqs = [] ∧ t.lbs = [] ∧ t.clms = [] ∧ t.utlbs = [] ∧ t.faults.entries = []
    ∧ (∀ k, (t.part k).chor = none ∧ (t.part k).waiting = [] ∧ (t.part k).kv = Part.reset.kv ∧ (t.part k).space = Space.reset)
    ∧ (t.fw.state = .running → ∀ k, k < 16 → (s.ringOwner k).isSome = true →
        (t.ring k).state = .ready ∧ (t.ring k).opened = [] ∧ (t.ring k).prod = 0 ∧ (t.ring k).ctail = 0 ∧ (t.ring k).versionRead = false)) := by
  obtain ⟨i, hi⟩ := Option.isSome_iff_exists.1 hp
  refine completes_admitted h rfl ?_
  simp only [markStarted_workOpen, markStarted_bootRec, hnow, hw, hi, Bool.and_false, Bool.false_eq_true, if_false, decide_true, if_true]
  have hprot : (complete r q stOk 0 0 (markStarted r q s)).prot = s.prot :=
    same_of_mask (complete_mask (w := 0x300000#38) (by decide) _ _ _ _ _ (markStarted r q s)) .prot (by decide)
  have howner (k : Nat) : (complete r q stOk 0 0 (markStarted r q s)).ringOwner k = s.ringOwner k := by
    rw [State.ringOwner, State.ringOwner, hprot]
  simpa only [howner] using restartCluster_clears (complete r q stOk 0 0 (markStarted r q s)) rfl
end

/-- Settles O56: the commands of each group in turn, the firmware's through the boot record that stands in the other copy with the next
generation. -/
theorem serviceCommands : Obligations.ServiceCommands := by
  unfold Obligations.ServiceCommands
  intro s r p q img ok u fails gives
  refine ⟨fun h => ⟨counterRead_live h, counterRead_bar h⟩, fun h => ⟨powerState_waits h, fun ht => ⟨powerState_busy h ht, ?_, powerState_moves h ht, ?_⟩⟩,
    powerCap_sets, healthRead_gives,
    fun h => ⟨debugHalt_noCore h, debugHalt_denied h, fun o hc ho hd => ⟨debugHalt_busy h hc ho hd, debugHalt_halts h hc ho hd⟩⟩,
    fun h => ⟨debugResume_noCore h, debugResume_waits h, debugResume_resumes h⟩,
    fun h => ⟨fwStage_field h, fun h0 hn hend hpin i x hx =>
      ⟨fwStage_busy h h0 hn hend hpin hx, fun bs hup hread => fwStage_stages h h0 hn hend hpin hx hup hread⟩⟩,
    fun h i x hx => ⟨fwCommit_busy h hx, fwCommit_invalid h hx, fwCommit_commits h hx⟩,
    fun h => ⟨fwActivate_busy h, fwActivate_notPending h, fun hnow hp => fwActivate_later h hp hnow,
      fun hnow hw hp => fwActivate_restarts h hp hnow hw⟩,
    fun h => ⟨fwConfirm_noRecord h, fun i x hx => ⟨fwConfirm_noTrial h hx, fun j ht hgen => fwConfirm_confirms h hx ht hgen⟩⟩⟩
  · exact fun hn hidle => powerState_same h ht hidle hn
  · exact fun hn hidle h2 => powerState_transits h ht hidle hn h2

end Sys2Proof.Machine
end

section
/-! PROOF. Snapshots, NVM requests and Partners (R573 to R582, R625, R626): O57. -/

namespace Sys2Proof.Machine

/-! ### Views of the snapshots -/

/-- The snapshot state of every partition. -/
def State.snaps (s : State) : Nat → Snap := fun p => (s.part p).snap

section
variable {s t : State}

theorem snaps_of_uncounted (h : t.uncounted = s.uncounted) : t.snaps = s.snaps := funext fun p => (congrArg Part.snap (bare_of_uncounted h p) :)

theorem snaps_of_mask (h : t.mask 0x3fffffffef#38 = s.mask 0x3fffffffef#38) : t.snaps = s.snaps := snaps_of_uncounted (uncounted_of_mask h)

theorem snaps_of_parts (h : t.parts = s.parts) : t.snaps = s.snaps := funext fun p => congrArg Part.snap (part_of_parts h p)

theorem snaps_modPart (s : State) (p : Nat) {f : Part → Part} (h : (f (s.part p)).snap = (s.part p).snap) : (s.modPart p f).snaps = s.snaps :=
  view_modPart Part.snap s p h

theorem snap_of_snaps (h : t.snaps = s.snaps) (p : Nat) : (t.part p).snap = (s.part p).snap := congrFun h p

theorem modSnap_snap (p : Nat) (f : Snap → Snap) (s : State) : ((modSnap p f s).part p).snap = f (s.part p).snap := by
  rw [modSnap, State.part_modPart_same]

theorem postEvent_snaps (p code payload : Nat) (s : State) : (postEvent p code payload s).snaps = s.snaps := snaps_of_parts (postEvent_parts ..)

theorem snapFail_snap (p slot cause status : Nat) (s : State) :
    ((snapFail p slot cause status s).part p).snap = { (s.part p).snap with failed := true, lastCause := cause } := by
  rw [snapFail, snap_of_snaps (postEvent_snaps ..), State.part_modPart_same]

theorem freeStaging_snap (p : Nat) (s : State) : ((freeStaging p s).part p).snap
    = if (s.part p).snap.writing || (s.part p).snap.mirroring then (s.part p).snap else { (s.part p).snap with staging := none, stageHdr := [] } :=
  modSnap_snap ..

theorem tellPartner_uncounted (p node kind : Nat) (s : State) : (tellPartner p node kind s).uncounted = s.uncounted := sendToward_uncounted ..

theorem countRange_uncounted (p : Nat) (r : SnapRange) (s : State) : (countRange p r s).uncounted = s.uncounted := by
  unfold countRange
  split
  · split
    next l _ => exact acctAdd_uncounted s p _ (by cases l.far <;> decide)
    · rfl
  · rfl

theorem nvmWrite_snaps (a : Nat) (bs : List Byte) (s : State) : (nvmWrite a bs s).snaps = s.snaps := rfl
end

/-! ### The staging copy (R573 to R577) -/

/-- A parity detection counts for the Bar. -/
theorem countPerr_perrBar (c : Nat) (s : State) : ((countPerr c s).core c).perrBar = (s.core c).perrBar + 1 := by
  have hcounted (g : SpmCounters) : ((s.modCore c (fun k => { k with cnt := g, perrBar := k.perrBar + 1 })).core c).perrBar
      = (s.core c).perrBar + 1 := congrArg Core.perrBar (State.core_modCore_same ..)
  have hsat (o : Option Nat) (off : Nat) (t : State) : (satOwned o off t).core c = t.core c :=
    congrArg (kget Core.reset · c) (same_of_mask (satOwned_mask (w := 0x700010#38) (by decide) o off t) .cores (by decide) : _ = t.cores)
  unfold countPerr
  exact view_ite_eq (F := fun t => (t.core c).perrBar) ((congrArg Core.perrBar (hsat _ _ _)).trans (hcounted _)) (hcounted _)

section
variable {s : State} {p : Nat}

/-- The block with the body in the staging area's memory. -/
def bodyPlaced (p : Nat) (m : Manifest) (body : List Byte) (s : State) : State :=
  writeVa p true m.stageVa body (m.ranges.foldl (fun t r => countRange p r t) s)

/-- The snapshot state with the body staged, and its slot write and mirror begun. -/
def Snap.staged (n : Snap) (beat : Nat) (body : List Byte) (wear : Nat) (mirror : Bool) : Snap :=
  { n with
    staging := some (beat, body), snapSeq := n.snapSeq + 1, writing := true, wear := wear, mirroring := mirror && n.partner.isSome
    mirrorSent := false }

/-- The block once the body is staged and the slot's header asked for. -/
def slotAsked (p beat : Nat) (m : Manifest) (body : List Byte) (s : State) : State :=
  let s2 := modSnap p (fun n => n.staged beat body (s.slotWear p n.nextSlot + 1) m.mirror) (bodyPlaced p m body s)
  askHeader p (s.part p).snap.nextSlot (slotHeader 1 (s2.part p).snap.wear (s.part p).snap.stageHdr) s2

theorem bodyPlaced_uncounted (m : Manifest) (body : List Byte) : (bodyPlaced p m body s).uncounted = s.uncounted :=
  (writeVa_uncounted ..).trans (view_foldl State.uncounted (fun t r => countRange_uncounted p r t) _ s)

theorem bodyPlaced_nvmReqs (m : Manifest) (body : List Byte) : (bodyPlaced p m body s).nvmReqs = s.nvmReqs :=
  (same_of_mask (writeVa_mask (w := 0x80270a012#38) (by decide) _ _ _ _ _) .nvmReqs (by decide)).trans
    (view_foldl State.nvmReqs (fun t r => same_of_mask (countRange_mask (w := 0x700010#38) (by decide) p r t) .nvmReqs (by decide)) _ s)

/-- With no request outstanding, a request is the only one. -/
theorem nvmAsk_empty (h : s.nvmReqs = []) (op addr lines : Nat) (data : BitVec 512) (why : Nat) :
    (nvmAsk op addr lines data why s).nvmReqs = [⟨0, op, addr, lines, data, why⟩] := by
  unfold nvmAsk
  rw [h]
  rfl

theorem askHeader_nvmReqs (h : s.nvmReqs = []) (slot : Nat) (hdr : List Byte) :
    (askHeader p slot hdr s).nvmReqs.map (fun r => (r.op, r.addr, r.lines)) = [(1, (s.part p).snap.slotAt slot, 1)] := by
  have hempty (a : Nat) (bs : List Byte) : (nvmWrite a bs s).nvmReqs = [] := h
  rw [askHeader, nvmAsk_empty (hempty _ _)]
  rfl

theorem slotAsked_snap (beat : Nat) (m : Manifest) (body : List Byte) : ∃ wear,
    ((slotAsked p beat m body s).part p).snap = (s.part p).snap.staged beat body wear m.mirror := by
  have hsnap : ((bodyPlaced p m body s).part p).snap = (s.part p).snap := snap_of_snaps (snaps_of_uncounted (bodyPlaced_uncounted m body)) p
  refine ⟨s.slotWear p (s.part p).snap.nextSlot + 1, ?_⟩
  rw [slotAsked, snap_of_snaps (snaps_of_mask (askHeader_mask (by decide) _ _ _ _)), modSnap_snap, hsnap]

theorem slotAsked_nvmReqs (h : s.nvmReqs = []) (beat : Nat) (m : Manifest) (body : List Byte) :
    (slotAsked p beat m body s).nvmReqs.map (fun r => (r.op, r.addr, r.lines)) = [(1, (s.part p).snap.slotAt (s.part p).snap.nextSlot, 1)] := by
  have hsnap : ((bodyPlaced p m body s).part p).snap = (s.part p).snap := snap_of_snaps (snaps_of_uncounted (bodyPlaced_uncounted m body)) p
  have hempty (f : Snap → Snap) : (modSnap p f (bodyPlaced p m body s)).nvmReqs = [] := (bodyPlaced_nvmReqs m body).trans h
  rw [slotAsked, askHeader_nvmReqs (hempty _), modSnap_snap, hsnap]
  rfl

/-- What a mirror that goes out leaves of the snapshot state: all but that it is sent. -/
theorem pushMirror_snap (s : State) : ∃ b, ((pushMirror p s).part p).snap = { (s.part p).snap with mirrorSent := b } := by
  unfold pushMirror
  dsimp only
  split
  · split
    · exact ⟨_, rfl⟩
    · refine ⟨true, ?_⟩
      rw [modSnap_snap, snap_of_snaps (snaps_of_uncounted (sendAll_uncounted ..)), snap_of_snaps (snaps_of_uncounted (sendAll_uncounted ..)),
        takeCredits, snap_of_snaps (view_foldl State.snaps (fun t n => snaps_modPart t p rfl) _ s)]
  · exact ⟨_, rfl⟩

/-- A body that is staged has its slot's header asked for, and its mirror may go out. -/
theorem stageBody_asked (beat : Nat) (m : Manifest) (body : List Byte) : stageBody p beat m body s = slotAsked p beat m body s
    ∨ ∃ node, stageBody p beat m body s = pushMirror p (tellPartner p node 3 (slotAsked p beat m body s)) := by
  unfold stageBody slotAsked bodyPlaced Snap.staged
  dsimp only
  split
  · exact .inr ⟨_, rfl⟩
  · exact .inl rfl

theorem stageBody_snap (beat : Nat) (m : Manifest) (body : List Byte) : ∃ wear sent,
    ((stageBody p beat m body s).part p).snap = { (s.part p).snap.staged beat body wear m.mirror with mirrorSent := sent } := by
  obtain ⟨wear, hwear⟩ := slotAsked_snap (s := s) (p := p) beat m body
  rcases stageBody_asked (s := s) (p := p) beat m body with e | ⟨node, e⟩ <;> rw [e]
  · exact ⟨wear, false, hwear⟩
  · obtain ⟨sent, hsent⟩ := pushMirror_snap (p := p) (tellPartner p node 3 (slotAsked p beat m body s))
    exact ⟨wear, sent, by rw [hsent, snap_of_snaps (snaps_of_uncounted (tellPartner_uncounted ..)), hwear]⟩

theorem stageBody_nvmReqs (beat : Nat) (m : Manifest) (body : List Byte) : (stageBody p beat m body s).nvmReqs = (slotAsked p beat m body s).nvmReqs := by
  rcases stageBody_asked (s := s) (p := p) beat m body with e | ⟨node, e⟩ <;> rw [e]
  exact (same_of_mask (pushMirror_mask (w := 0x720010#38) (by decide) _ _) .nvmReqs (by decide)).trans
    (same_of_mask (tellPartner_mask (w := 0x720010#38) (by decide) _ _ _ _) .nvmReqs (by decide))

theorem copyFailed_snap (cause : Nat) :
    ((copyFailed p cause s).part p).snap = { (s.part p).snap with staging := none, stageHdr := [], failed := true, lastCause := cause } := by
  rw [copyFailed, snapFail_snap, modSnap_snap]

variable {bad : List (Nat × Nat)} {beat : Nat} {fixed : List Byte} {m : Manifest} (hstage : (s.part p).snap.staging = some (beat, fixed))
  (hm : (s.part p).stageManifest = some m) (hcc : s.cc2Runs = true) (hw : (s.part p).snap.writing = false)
  (hmir : (s.part p).snap.mirroring = false) (hreq : s.nvmReqs = [])
include hstage hm hcc hw hmir hreq

omit hstage hm in
theorem snapAsked_none : (!s.cc2Runs || (s.part p).snap.writing || (s.part p).snap.mirroring || s.snapAsked p) = false := by
  rw [hcc, hw, hmir, State.snapAsked, hreq]
  rfl

theorem snapStagingDone_stages {body : List Byte} (hok : s.copyRanges p bad m.ranges fixed = .ok body) : completes (.snapStagingDone p bad) s (fun t =>
    (t.part p).snap.staging = some (beat, body) ∧ (t.part p).snap.snapSeq = (s.part p).snap.snapSeq + 1 ∧ (t.part p).snap.writing = true
    ∧ (t.part p).snap.mirroring = (m.mirror && (s.part p).snap.partner.isSome)
    ∧ t.nvmReqs.map (fun r => (r.op, r.addr, r.lines)) = [(1, (s.part p).snap.slotAt (s.part p).snap.nextSlot, 1)]) := by
  have hexec : execSnapStagingDone p bad s = .next (stageBody p beat m body s) := by
    simp only [execSnapStagingDone, hstage, hm, snapAsked_none hcc hw hmir hreq, Bool.false_eq_true, if_false, hok]
  refine ⟨_, hexec, ?_⟩
  obtain ⟨wear, sent, hsnap⟩ := stageBody_snap (s := s) (p := p) beat m body
  rw [hsnap, stageBody_nvmReqs]
  exact ⟨rfl, rfl, rfl, rfl, slotAsked_nvmReqs hreq beat m body⟩

theorem snapStagingDone_memory {l : Loc} (hl : s.copyRanges p bad m.ranges fixed = .memory l) : completes (.snapStagingDone p bad) s (fun t =>
    (t.part p).snap.staging = none ∧ (t.part p).snap.failed = true ∧ (t.part p).snap.lastCause = 2 ∧ t.nvmReqs = []) := by
  have hexec : execSnapStagingDone p bad s = .next (copyFailed p 2 (fwUncorrectable p noFig l s)) := by
    simp only [execSnapStagingDone, hstage, hm, snapAsked_none hcc hw hmir hreq, Bool.false_eq_true, if_false, hl]
  refine ⟨_, hexec, ?_⟩
  beta_reduce
  rw [copyFailed_snap]
  exact ⟨rfl, rfl, rfl, (same_of_mask (copyFailed_mask (w := 0x700010#38) (by decide) _ _ _) .nvmReqs (by decide)).trans
    ((same_of_mask (fwUncorrectable_mask (w := 0x802702012#38) (by decide) _ _ _ _) .nvmReqs (by decide)).trans hreq)⟩

theorem snapStagingDone_parity {c row : Nat} (hl : s.copyRanges p bad m.ranges fixed = .parity c row) : completes (.snapStagingDone p bad) s (fun t =>
    (t.part p).snap.staging = none ∧ (t.part p).snap.failed = true ∧ (t.part p).snap.lastCause = 3
    ∧ (t.core c).perrBar = (s.core c).perrBar + 1) := by
  have hexec : execSnapStagingDone p bad s = .next (copyFailed p 3
      (spoilRegions c row (postEvent p 0x40 (payloadOf noFig c (parityRest row none)) (countPerr c s)))) := by
    simp only [execSnapStagingDone, hstage, hm, snapAsked_none hcc hw hmir hreq, Bool.false_eq_true, if_false, hl]
  refine ⟨_, hexec, ?_⟩
  beta_reduce
  rw [copyFailed_snap]
  refine ⟨rfl, rfl, rfl, ?_⟩
  have hcores : (copyFailed p 3 (spoilRegions c row (postEvent p 0x40 (payloadOf noFig c (parityRest row none)) (countPerr c s)))).cores
      = (countPerr c s).cores :=
    (same_of_mask (copyFailed_mask (w := 0x700010#38) (by decide) _ _ _) .cores (by decide)).trans
      ((same_of_mask (spoilRegions_mask (w := 0x10#38) (by decide) _ _ _) .cores (by decide)).trans
        (same_of_mask (postEvent_mask (w := 0x700000#38) (by decide) _ _ _ _) .cores (by decide)))
  rw [State.core, hcores]
  exact countPerr_perrBar c s
end

/-! ### The slot write (R575, R577) -/

section
variable {s : State} {p : Nat}

theorem modSnap_nvm (f : Snap → Snap) : (modSnap p f s).nvm = s.nvm := rfl

theorem nvmWrite_nvm (a : Nat) (bs : List Byte) : (nvmWrite a bs s).nvm = nvmPut s.nvm a bs := rfl

theorem freeStaging_nvm : (freeStaging p s).nvm = s.nvm := rfl

theorem postEvent_nvm (code payload : Nat) : (postEvent p code payload s).nvm = s.nvm :=
  same_of_mask (postEvent_mask (w := 0x700000#38) (by decide) _ _ _ _) .nvm (by decide)

theorem slotComplete_snap (beat : Nat) (body : List Byte) : ((slotComplete p beat body s).part p).snap =
    if (s.part p).snap.mirroring then
      { (s.part p).snap with
        latest := some (s.part p).snap.nextSlot, nextSlot := (s.part p).snap.slotAfter (s.part p).snap.nextSlot, writing := false, doneBit := true }
    else
      { (s.part p).snap with
        latest := some (s.part p).snap.nextSlot, nextSlot := (s.part p).snap.slotAfter (s.part p).snap.nextSlot, writing := false, doneBit := true
        staging := none, stageHdr := [] } := by
  rw [slotComplete, freeStaging_snap, snap_of_snaps (postEvent_snaps ..), modSnap_snap, snap_of_snaps (nvmWrite_snaps ..)]
  dsimp only
  rw [Bool.false_or]

theorem slotComplete_nvm (beat : Nat) (body : List Byte) : (slotComplete p beat body s).nvm = nvmPut s.nvm
    ((s.part p).snap.slotAt (s.part p).snap.nextSlot)
    (slotHeader 2 (s.part p).snap.wear (s.part p).snap.stageHdr ++ crcTable body ++ body) := by
  rw [slotComplete, freeStaging_nvm, postEvent_nvm, modSnap_nvm, nvmWrite_nvm]

/-- The snapshot state with its slot BAD, before the staging area is freed. -/
def Snap.slotBad (n : Snap) : Snap :=
  { n with
    bad := n.nextSlot :: n.bad, writing := false, nextSlot := ({ n with bad := n.nextSlot :: n.bad } : Snap).slotAfter n.nextSlot, failed := true
    lastCause := 4 }

theorem slotFailed_snap : ((slotFailed p s).part p).snap =
    if (s.part p).snap.mirroring then (s.part p).snap.slotBad else { (s.part p).snap.slotBad with staging := none, stageHdr := [] } := by
  rw [slotFailed, freeStaging_snap, snapFail_snap, snap_of_snaps (snaps_of_uncounted (withHealth_uncounted ..)), modSnap_snap,
    snap_of_snaps (nvmWrite_snaps ..)]
  rfl

variable {beat : Nat} {body : List Byte} (hstage : (s.part p).snap.staging = some (beat, body)) (hcc : s.cc2Runs = true)
  (hw : (s.part p).snap.writing = true) (hask : s.snapAsked p = false)
include hstage hcc hw hask

theorem execSnapSlotWritten_ends (ok : Bool) : execSnapSlotWritten p ok s = .next (if ok then slotComplete p beat body s else slotFailed p s) := by
  simp only [execSnapSlotWritten, hstage, hcc, hw, hask, Bool.not_true, Bool.or_self, Bool.false_eq_true, if_false]
  cases ok <;> rfl

theorem snapSlotWritten_completes : completes (.snapSlotWritten p true) s (fun t => (t.part p).snap.latest = some (s.part p).snap.nextSlot
    ∧ (t.part p).snap.nextSlot = (s.part p).snap.slotAfter (s.part p).snap.nextSlot ∧ (t.part p).snap.writing = false
    ∧ (t.part p).snap.doneBit = true ∧ ((s.part p).snap.mirroring = false → (t.part p).snap.staging = none)
    ∧ ∀ k b, (slotHeader 2 (s.part p).snap.wear (s.part p).snap.stageHdr ++ crcTable body ++ body)[k]? = some b →
        kget 0xFF t.nvm ((s.part p).snap.slotAt (s.part p).snap.nextSlot + k) = b) := by
  refine ⟨_, execSnapSlotWritten_ends hstage hcc hw hask true, ?_⟩
  simp only [if_true, slotComplete_snap, slotComplete_nvm]
  have hnvm := fun k b => kget_nvmPut_in s.nvm ((s.part p).snap.slotAt (s.part p).snap.nextSlot)
    (slotHeader 2 (s.part p).snap.wear (s.part p).snap.stageHdr ++ crcTable body ++ body) k b
  cases hmir : (s.part p).snap.mirroring with
  | true => exact ⟨rfl, rfl, rfl, rfl, fun h => Bool.noConfusion h, hnvm⟩
  | false => exact ⟨rfl, rfl, rfl, rfl, fun _ => rfl, hnvm⟩

theorem snapSlotWritten_fails : completes (.snapSlotWritten p false) s (fun t =>
    (t.part p).snap.bad = (s.part p).snap.nextSlot :: (s.part p).snap.bad ∧ (t.part p).snap.writing = false ∧ (t.part p).snap.failed = true
    ∧ (t.part p).snap.lastCause = 4 ∧ (t.part p).snap.latest = (s.part p).snap.latest) := by
  refine ⟨_, execSnapSlotWritten_ends hstage hcc hw hask false, ?_⟩
  simp only [Bool.false_eq_true, if_false, slotFailed_snap]
  cases (s.part p).snap.mirroring <;> exact ⟨rfl, rfl, rfl, rfl, rfl⟩
end

section
variable {s : State} {p : Nat}

theorem snapSlotErase_asks (hcc : s.cc2Runs = true) (hset : (s.part p).snap.set = true) (hst : (s.part p).snap.staging = none)
    (hw : (s.part p).snap.writing = false) (hmir : (s.part p).snap.mirroring = false) (hreq : s.nvmReqs = [])
    (hlatest : (s.part p).snap.latest ≠ some (s.part p).snap.nextSlot) : completes (.snapSlotErase p) s (fun t =>
      t.nvmReqs.map (fun r => (r.op, r.addr, r.lines)) = [(2, (s.part p).snap.slotAt (s.part p).snap.nextSlot, (s.part p).snap.slotMb * 15625)]
      ∧ t.nvm = s.nvm) := by
  have hgo : (!s.cc2Runs || !(s.part p).snap.set || (s.part p).snap.busy || (s.part p).snap.writing || (s.part p).snap.mirroring
      || s.snapAsked p || decide ((s.part p).snap.latest = some (s.part p).snap.nextSlot)) = false := by
    rw [hcc, hset, Snap.busy, hst, hw, hmir, State.snapAsked, hreq, decide_eq_false hlatest]
    rfl
  refine ⟨_, if_neg (by rw [hgo]; exact Bool.false_ne_true), ?_, ?_⟩
  · rw [nvmAsk_empty (s := modSnap p _ s) hreq]
    rfl
  · exact same_of_mask (nvmAsk_mask (w := 0x80000000#38) (by decide) _ _ _ _ _ _) .nvm (by decide)
end

/-! ### NVM responses (R577, R625, R626) -/

section
variable {s : State} {p tag : Nat} {data : BitVec 512} {r : NvmReq} (hr : s.nvmReqs.find? (fun r => decide (r.tag = tag)) = some r)

theorem nvmDone_write (ho : r.op = 1) (t : State) : nvmDone r t = nvmWrite r.addr (leBytes 64 r.data.toNat) t := by
  simp only [nvmDone, ho]

theorem nvmDone_erase (ho : r.op = 2) (hy : r.why = 0) (t : State) :
    nvmDone r t = { t with nvm := t.nvm.filter (fun e => !(decide (r.addr ≤ e.1) && decide (e.1 < r.addr + 64 * r.lines))) } := by
  simp only [nvmDone, ho, hy, if_true]

include hr

theorem execNvmResponse_succeeds : execNvmResponse tag true data s = .next (nvmDone r { s with nvmReqs := s.nvmReqs.erase r }) := by
  rw [execNvmResponse, hr]
  rfl

theorem nvmResponse_writes (ho : r.op = 1) : completes (.nvmResponse tag true data) s (fun t =>
    t.nvmReqs = s.nvmReqs.erase r ∧ t.parts = s.parts
    ∧ (∀ k b, (leBytes 64 r.data.toNat)[k]? = some b → kget 0xFF t.nvm (r.addr + k) = b)
    ∧ ∀ a, (a < r.addr ∨ r.addr + 64 ≤ a) → kget 0xFF t.nvm a = kget 0xFF s.nvm a) := by
  refine ⟨_, execNvmResponse_succeeds (data := data) hr, ?_⟩
  beta_reduce
  rw [nvmDone_write ho]
  refine ⟨rfl, rfl, fun k b hb => kget_nvmPut_in s.nvm r.addr _ k b hb, fun a ha => kget_nvmPut_out s.nvm r.addr _ a ?_⟩
  rwa [leBytes_length]

theorem nvmResponse_erases (ho : r.op = 2) (hy : r.why = 0) : completes (.nvmResponse tag true data) s (fun t =>
    t.nvmReqs = s.nvmReqs.erase r
    ∧ (∀ a, r.addr ≤ a → a < r.addr + 64 * r.lines → kget 0xFF t.nvm a = 0xFF)
    ∧ ∀ a, (a < r.addr ∨ r.addr + 64 * r.lines ≤ a) → kget 0xFF t.nvm a = kget 0xFF s.nvm a) := by
  refine ⟨_, execNvmResponse_succeeds (data := data) hr, ?_⟩
  beta_reduce
  rw [nvmDone_erase ho hy]
  refine ⟨rfl, fun a h1 h2 => kget_filter_out (g := fun b => !(decide (r.addr ≤ b) && decide (b < r.addr + 64 * r.lines))) _ (by simp [h1, h2]),
    fun a ha => kget_filter_in (g := fun b => !(decide (r.addr ≤ b) && decide (b < r.addr + 64 * r.lines))) _ ?_⟩
  simp only [Bool.not_eq_true', Bool.and_eq_false_iff, decide_eq_false_iff_not]
  omega

theorem nvmResponse_fails (ho : r.op = 1) (hy : r.why = 1 + p) (hw : (s.part p).snap.writing = true) :
    completes (.nvmResponse tag false data) s (fun t => t.nvmReqs = s.nvmReqs.erase r
      ∧ (t.part p).snap.bad = (s.part p).snap.nextSlot :: (s.part p).snap.bad ∧ (t.part p).snap.lastCause = 4) := by
  have hwhy : r.why - 1 = p := by omega
  have hexec : execNvmResponse tag false data s = .next (slotFailed p { s with nvmReqs := s.nvmReqs.erase r }) := by
    rw [execNvmResponse, hr]
    dsimp only
    rw [hwhy, if_neg Bool.false_ne_true, if_pos ⟨ho, by omega, hw⟩]
  refine ⟨_, hexec, same_of_mask (slotFailed_mask (w := 0x40700010#38) (by decide) _ _) .nvmReqs (by decide), ?_⟩
  rw [slotFailed_snap]
  split <;> exact ⟨rfl, rfl⟩
end

/-! ### Mirrors (R577, R581, R582) -/

section
variable {s : State} {p : Nat}

theorem mirrorDone_held {m : MirrorHeld} (hh : (s.part p).snap.held = some m) (hd : m.header = true) : completes (.mirrorDone p true) s (fun t =>
    ∃ m', (t.part p).snap.held = some m' ∧ m'.node = m.node ∧ m'.complete = true ∧ m'.half = m.other ∧ ∀ k, k ≠ p → t.part k = s.part k) := by
  have hexec : execMirrorDone p true s = .next (modSnap p (fun n => { n with held := some { m with
      half := m.other, complete := true, seq := m.next, landed := 0, header := false } }) s) := by
    simp only [execMirrorDone, hh, hd, if_true]
  have hheld := congrArg Snap.held (modSnap_snap p (fun n => { n with held := some { m with
      half := m.other, complete := true, seq := m.next, landed := 0, header := false } }) s)
  exact ⟨_, hexec, _, hheld, rfl, rfl, rfl, fun k hk => State.part_modPart_other _ _ _ hk⟩

theorem mirrorSentDone_snap : ((mirrorSentDone p s).part p).snap =
    if (s.part p).snap.writing then { (s.part p).snap with
      mirroring := false, mirrorSent := false, mirrorDown := false, mirrorHalf := 1 - (s.part p).snap.mirrorHalf }
    else { (s.part p).snap with
      mirroring := false, mirrorSent := false, mirrorDown := false, mirrorHalf := 1 - (s.part p).snap.mirrorHalf, staging := none, stageHdr := [] } := by
  rw [mirrorSentDone, freeStaging_snap, snap_of_snaps (snaps_of_uncounted (withHealth_uncounted ..)), modSnap_snap]
  dsimp only
  rw [Bool.or_false]

theorem mirrorDone_sent (hm : (s.part p).snap.mirroring = true) (hs : (s.part p).snap.mirrorSent = true) : completes (.mirrorDone p false) s (fun t =>
    (t.part p).snap.mirroring = false ∧ (t.part p).snap.mirrorHalf = 1 - (s.part p).snap.mirrorHalf
    ∧ ((s.part p).snap.writing = false → (t.part p).snap.staging = none)) := by
  have hexec : execMirrorDone p false s = .next (mirrorSentDone p s) := by
    simp only [execMirrorDone, Bool.false_eq_true, if_false, hm, hs, Bool.and_self, if_true]
  refine ⟨_, hexec, ?_⟩
  beta_reduce
  rw [mirrorSentDone_snap]
  cases hw : (s.part p).snap.writing with
  | true => exact ⟨rfl, rfl, fun h => Bool.noConfusion h⟩
  | false => exact ⟨rfl, rfl, fun _ => rfl⟩

/-- The block once a mirror has been given up, before the staging area is freed. -/
def mirrorDropped (p : Nat) (s : State) : State :=
  snapFail p (if (s.part p).snap.writing then (s.part p).snap.nextSlot else (s.part p).snap.latest.getD (s.part p).snap.nextSlot) 6 stUnreachable
    (withHealth (modSnap p (fun n => { n with mirroring := false, mirrorSent := false, mirrorDown := true })) s)

theorem mirrorDropped_snap : ((mirrorDropped p s).part p).snap = { (s.part p).snap with
    mirroring := false, mirrorSent := false, mirrorDown := true, failed := true, lastCause := 6 } := by
  rw [mirrorDropped, snapFail_snap, snap_of_snaps (snaps_of_uncounted (withHealth_uncounted ..)), modSnap_snap]

theorem mirrorTimeout_drops (hcc : s.cc2Runs = true) (hm : (s.part p).snap.mirroring = true) : completes (.mirrorTimeout p) s (fun t =>
    (t.part p).snap.mirroring = false ∧ (t.part p).snap.failed = true ∧ (t.part p).snap.lastCause = 6
    ∧ (t.part p).snap.writing = (s.part p).snap.writing ∧ t.nvm = s.nvm) := by
  have hexec : execMirrorTimeout p s = .next (freeStaging p (mirrorDropped p s)) := by
    simp only [execMirrorTimeout, mirrorDropped, hcc, hm, Bool.not_true, Bool.or_self, Bool.false_eq_true, if_false]
  refine ⟨_, hexec, ?_⟩
  beta_reduce
  rw [freeStaging_snap, mirrorDropped_snap]
  have hnvm : (freeStaging p (mirrorDropped p s)).nvm = s.nvm := by
    rw [freeStaging_nvm, mirrorDropped]
    exact (same_of_mask (snapFail_mask (w := 0x700010#38) (by decide) _ _ _ _ _) .nvm (by decide)).trans
      (same_of_mask (withHealth_mask (w := 0x700010#38) _ (fun t => modSnap_mask (by decide) _ _ _) (by decide) s) .nvm (by decide))
  split <;> exact ⟨rfl, rfl, rfl, rfl, hnvm⟩
end

/-! ### Partners (R579 to R581) -/

/-- The snapshot state with a Partner. -/
def Snap.partnered (n : Snap) (node cap lb half : Nat) (same : Bool) : Snap :=
  { n with partner := some node, partnerLb := lb, partnerCap := cap, mirrorHalf := half, atRisk := same }

/-- The block with the Partner set and told, before the command completes. -/
def partnerNoted (p : Nat) (w : Waiting) (node : Nat) (feed : BitVec 16) (cap lb half : Nat) (s : State) : State :=
  let same := sameFeed s.pins.feed feed
  let s1 := tellPartner p node 1 (withHealth (modSnap p (fun n => n.partnered node cap lb half same)) (dropWait p w s))
  if same then postEvent p 0xA2 (payloadOf noFig 0 node) s1 else s1

section
variable (s : State) (p : Nat) (w : Waiting) (node : Nat) (feed : BitVec 16) (cap lb half : Nat)

theorem partnerNoted_uncounted : (partnerNoted p w node feed cap lb half s).uncounted
    = (modSnap p (fun n => n.partnered node cap lb half (sameFeed s.pins.feed feed)) (dropWait p w s)).uncounted := by
  have htold := (tellPartner_uncounted p node 1 (withHealth (modSnap p (fun n => n.partnered node cap lb half (sameFeed s.pins.feed feed)))
    (dropWait p w s))).trans (withHealth_uncounted ..)
  exact view_ite_eq ((uncounted_of_parts (postEvent_parts ..)).trans htold) htold

theorem partnerNoted_cmds : cmdsOf (partnerNoted p w node feed cap lb half s).rings = cmdsOf s.rings := by
  have hset : cmdsOf (withHealth (modSnap p (fun n => n.partnered node cap lb half (sameFeed s.pins.feed feed))) (dropWait p w s)).rings
      = cmdsOf s.rings := (withHealth_cmds _ _ (modSnap_cmds _ _ _)).trans (dropWait_cmds _ _ _)
  have htold := (tellPartner_cmds p node 1 _).trans hset
  exact view_ite_eq (F := fun t => cmdsOf t.rings) ((postEvent_cmds ..).trans htold) htold

theorem waits_modSnap (f : Snap → Snap) : (modSnap p f s).waits = s.waits := view_modPart Part.waiting s p rfl
end

section
variable {s : State} {p : Nat} {w : Waiting} {node : Nat} {may : Bool} (hwait : (s.part p).waiting = [w]) (hwhat : w.what = .setPartner node may)

theorem dropWait_snaps (w : Waiting) (s : State) : (dropWait p w s).snaps = s.snaps := snaps_modPart s p rfl

include hwait hwhat

theorem askedPartner_one : (s.part p).askedPartner = some (w, node, may) := by
  rw [Part.askedPartner, hwait, List.findSome?_cons, hwhat]

variable (hf : ((s.ring w.ring).find w.seq).isSome = true)
include hf

omit hwait hwhat in
/-- A SET_PARTNER that fails completes, and the snapshot state stays. -/
theorem partnerFails (st : Nat) : answered w.ring w.seq st 0 0 s (complete w.ring w.seq st 0 0 (dropWait p w s))
    ∧ ((complete w.ring w.seq st 0 0 (dropWait p w s)).part p).snap = (s.part p).snap := by
  refine ⟨complete_answers_from hf (dropWait_cmds _ _ _) _ _ _, ?_⟩
  rw [complete_part]
  exact snap_of_snaps (dropWait_snaps w s) p

theorem partnerTimeout_fails : completes (.partnerTimeout p) s (fun t => answered w.ring w.seq stUnreachable 0 0 s t ∧ (t.part p).waiting = []
    ∧ (t.part p).snap = (s.part p).snap) := by
  have hexec : execPartnerTimeout p s = .next (complete w.ring w.seq stUnreachable 0 0 (dropWait p w s)) := by
    rw [execPartnerTimeout, askedPartner_one hwait hwhat]
  obtain ⟨hans, hsnap⟩ := partnerFails hf stUnreachable
  refine ⟨_, hexec, hans, ?_, hsnap⟩
  rw [complete_part]
  exact dropWait_waiting hwait

variable (hcc : s.cc2Runs = true) {feed : BitVec 16} {cap lb half : Nat}
include hcc

theorem partnerReply_small (hcap : cap = 0 ∨ cap < 2 * (s.part p).snap.slotMb * 1000000) : completes (.partnerReply p feed cap lb half) s (fun t =>
    answered w.ring w.seq stField 0 0 s t ∧ (t.part p).snap = (s.part p).snap) := by
  have hexec : execPartnerReply p feed cap lb half s = .next (complete w.ring w.seq stField 0 0 (dropWait p w s)) := by
    simp only [execPartnerReply, askedPartner_one hwait hwhat, hcc, Bool.not_true, Bool.false_eq_true, if_false]
    rw [if_pos hcap]
  exact ⟨_, hexec, partnerFails hf stField⟩

variable (h0 : 0 < cap) (hcap : 2 * (s.part p).snap.slotMb * 1000000 ≤ cap)
include h0 hcap

theorem partnerReply_sameFeed (hsame : sameFeed s.pins.feed feed = true) (hmay : may = false) : completes (.partnerReply p feed cap lb half) s (fun t =>
    answered w.ring w.seq stSameFeed 0 0 s t ∧ (t.part p).snap = (s.part p).snap) := by
  have hexec : execPartnerReply p feed cap lb half s = .next (complete w.ring w.seq stSameFeed 0 0 (dropWait p w s)) := by
    simp only [execPartnerReply, askedPartner_one hwait hwhat, hcc, Bool.not_true, Bool.false_eq_true, if_false, hsame, hmay, Bool.not_false,
      Bool.and_self, if_true]
    rw [if_neg (by omega)]
  exact ⟨_, hexec, partnerFails hf stSameFeed⟩

theorem partnerReply_accepts (hsame : sameFeed s.pins.feed feed = true → may = true) : completes (.partnerReply p feed cap lb half) s (fun t =>
    answered w.ring w.seq stOk (feed.toNat + (if sameFeed s.pins.feed feed = true then 1 else 0) * 2 ^ 32) 0 s t ∧ (t.part p).waiting = []
    ∧ (t.part p).snap.partner = some node ∧ (t.part p).snap.atRisk = sameFeed s.pins.feed feed ∧ (t.part p).snap.partnerCap = cap) := by
  have hexec : execPartnerReply p feed cap lb half s = .next (complete w.ring w.seq stOk
      (feed.toNat + b2n (sameFeed s.pins.feed feed) * 2 ^ 32) 0 (partnerNoted p w node feed cap lb half s)) := by
    have hgo : (sameFeed s.pins.feed feed && !may) = false := by
      cases e : sameFeed s.pins.feed feed with
      | false => rfl
      | true => rw [hsame e]; rfl
    simp only [execPartnerReply, askedPartner_one hwait hwhat, hcc, hgo, Bool.not_true, Bool.false_eq_true, if_false]
    rw [if_neg (by omega)]
    rfl
  refine ⟨_, hexec, complete_answers_from hf (partnerNoted_cmds ..) _ _ _, ?_⟩
  rw [complete_part, waiting_of_uncounted (partnerNoted_uncounted ..), snap_of_snaps (snaps_of_uncounted (partnerNoted_uncounted ..)), modSnap_snap]
  exact ⟨(congrFun (waits_modSnap ..) p).trans (dropWait_waiting hwait), rfl, rfl, rfl⟩
end

/-! ### Requests of a Partner's Fremund (R579 to R581) -/

section
variable {s : State} {p node n : Nat} (hcc : s.cc2Runs = true) (hroute : (kget 0 (s.part p).plane.routes node).getLsbD 63 = true)
  (hn : s.nextPort p node = some n)

include hcc

theorem partnerRequest_installs (ho : s.mirrorOffer p node ≠ 0) (hh : (s.part p).snap.held = none) : completes (.partnerRequest p node 1) s (fun t =>
    ∃ x, (t.part p).snap.held = some x ∧ x.node = node ∧ x.complete = false) := by
  have hexec : execPartnerRequest p node 1 s = .next (modSnap p (fun n => { n with held := some ⟨node, 0, false, 0, 0, 0, false⟩ }) s) := by
    simp only [execPartnerRequest, hcc, Bool.not_true, Bool.false_eq_true, if_false, hh, Option.isSome_none, ho, or_self]
  exact ⟨_, hexec, _, congrArg Snap.held (modSnap_snap p _ s), rfl, rfl⟩

theorem partnerRequest_clears : completes (.partnerRequest p node 2) s (fun t =>
    (t.part p).snap.held = (s.part p).snap.held.filter (fun x => decide (x.node ≠ node))) := by
  have hexec : execPartnerRequest p node 2 s
      = .next (modSnap p (fun n => { n with held := n.held.filter (fun m => decide (m.node ≠ node)) }) s) := by
    simp only [execPartnerRequest, hcc, Bool.not_true, Bool.false_eq_true, if_false]
  exact ⟨_, hexec, congrArg Snap.held (modSnap_snap p _ s)⟩

include hroute hn

theorem partnerRequest_answers : completes (.partnerRequest p node 0) s (fun t => t.sends n (.partner node (s.part p).plane.node.toNat 5
    s.pins.feed.toNat (s.mirrorOffer p node) (s.mirrorLb p) (match (s.part p).snap.held with | some x => x.other | none => 0))) := by
  have hexec : execPartnerRequest p node 0 s = .next (sendToward p node (.partner node (s.part p).plane.node.toNat 5
      s.pins.feed.toNat (s.mirrorOffer p node) (s.mirrorLb p) (match (s.part p).snap.held with | some x => x.other | none => 0)) s) := by
    simp only [execPartnerRequest, hcc, Bool.not_true, Bool.false_eq_true, if_false]
      <;> rfl
  exact ⟨_, hexec, sends_sendToward hroute hn _⟩

theorem partnerRequest_credits {x : MirrorHeld} (hh : (s.part p).snap.held = some x) (hx : x.node = node) :
    completes (.partnerRequest p node 3) s (fun t =>
      t.sends n (.credit node (s.part p).plane.node.toNat (s.mirrorLb p) ((s.landBuf (s.mirrorLb p)).size / 1024))) := by
  have hexec : execPartnerRequest p node 3 s = .next (sendToward p node
      (.credit node (s.part p).plane.node.toNat (s.mirrorLb p) ((s.landBuf (s.mirrorLb p)).size / 1024)) s) := by
    simp only [execPartnerRequest, hcc, Bool.not_true, Bool.false_eq_true, if_false, hh, hx, if_true]
  exact ⟨_, hexec, sends_sendToward hroute hn _⟩
end

/-- Settles O57: the copy, the slot write, the NVM requests, the mirrors and the Partners in turn, each through what it leaves of the
snapshot state. -/
theorem snapshotsAndPartners : Obligations.SnapshotsAndPartners := by
  unfold Obligations.SnapshotsAndPartners
  intro s p me n snap
  refine ⟨fun bad beat fixed m hst hm hcc hw hmir hreq => ⟨fun body => snapStagingDone_stages hst hm hcc hw hmir hreq,
      fun l => snapStagingDone_memory hst hm hcc hw hmir hreq, fun c row => snapStagingDone_parity hst hm hcc hw hmir hreq⟩,
    fun beat body hst hcc hw hask => ⟨snapSlotWritten_completes hst hcc hw hask, snapSlotWritten_fails hst hcc hw hask⟩,
    snapSlotErase_asks,
    fun tag data r hr => ⟨nvmResponse_writes hr, nvmResponse_erases hr, nvmResponse_fails hr⟩,
    fun m => mirrorDone_held, mirrorDone_sent, mirrorTimeout_drops,
    fun w node may hwait hwhat hf => ⟨partnerTimeout_fails hwait hwhat hf, fun feed cap lb half hcc => ?_⟩,
    fun node m hcc hroute hn => ⟨partnerRequest_answers hcc hroute hn, partnerRequest_installs hcc, partnerRequest_clears hcc,
      fun x => partnerRequest_credits hcc hroute hn⟩⟩
  exact ⟨partnerReply_small hwait hwhat hf hcc, fun h0 hcap => partnerReply_sameFeed hwait hwhat hf hcc h0 hcap,
    fun h0 hcap => partnerReply_accepts hwait hwhat hf hcc h0 hcap⟩

end Sys2Proof.Machine
end

section
/-! PROOF. The fabric commands (R421 to R425, R437, R439, R449, R450, R452, R502): the first part of O55. -/

namespace Sys2Proof.Machine

/-- The command completes with a status, and the partition and the landing buffers stay as they were. -/
def fabricFails (s : State) (r p : Nat) (q : BitVec 16) (st : Nat) (t : State) : Prop :=
  answered r q st 0 0 s t ∧ t.part p = s.part p ∧ t.lbs = s.lbs

/-- The records of the image that a fabric command names, as `f` reads them. -/
def imageRecords {α : Type} (s : State) (r p : Nat) (q : BitVec 16) (img : BitVec 512) (f : List Byte → Option α) : Option α :=
  ((markStarted r q s).imageAt p (arg img 0x20 0 52) (arg img 0x28 0 32)).bind f

section
variable {s : State} {r p : Nat} {q : BitVec 16} {img : BitVec 512} {k : CmdRule} (h : admitted k r q p img s = true)
include h

theorem complete_fabricFails (st : Nat) : fabricFails s r p q st (complete r q st 0 0 (markStarted r q s)) :=
  ⟨complete_started s _ r q _ _ _ (admitted_find h) rfl, complete_part .., same_of_mask (complete_mask (w := 0x300000#38) (by decide) ..) .lbs (by decide)⟩
end

section
variable {s : State} {r p : Nat} {q : BitVec 16}

theorem markStarted_chorRuns : (markStarted r q s).chorRuns p = (s.part p).run.isSome := rfl

theorem isSome_of_ne_none {α : Type} {o : Option α} (h : o ≠ none) : o.isSome = true := Option.isSome_iff_ne_none.2 h
end

theorem complete_landBuf (s : State) (r : Nat) (q : BitVec 16) (st d b n : Nat) : (complete r q st d b s).landBuf n = s.landBuf n :=
  congrArg (kget LandBuf.reset · n) (same_of_mask (complete_mask (w := 0x300000#38) (by decide) r q st d b s) .lbs (by decide) : _ = s.lbs)

/-! ### FABRIC_SET and ROUTE_SET (R421 to R423) -/

section
variable {rs : List Nat} {m : KMap (BitVec 64)} {first : Nat}

/-- Records set from a node on leave the others. -/
theorem kget_routesSet_out (n : Nat) {i : Nat} (hi : i < first + n ∨ first + n + rs.length ≤ i) :
    kget 0 ((rs.zipIdx n).foldl (fun m x => kset 0 m (first + x.2) (BitVec.ofNat 64 x.1)) m) i = kget 0 m i := by
  induction rs generalizing m n with
  | nil => rfl
  | cons x rs ih =>
    rw [List.length_cons] at hi
    rw [List.zipIdx_cons, List.foldl_cons, ih _ (by omega), kget_kset_other _ _ _ _ (by omega)]

/-- Records set from a node on read as set. -/
theorem kget_routesSet_in (n : Nat) {i : Nat} (hi : i < rs.length) :
    kget 0 ((rs.zipIdx n).foldl (fun m x => kset 0 m (first + x.2) (BitVec.ofNat 64 x.1)) m) (first + n + i) = BitVec.ofNat 64 (nth rs i) := by
  induction rs generalizing m n i with
  | nil => exact absurd hi (Nat.not_lt_zero i)
  | cons x rs ih =>
    rw [List.zipIdx_cons, List.foldl_cons]
    cases i with
    | zero => rw [kget_routesSet_out (n + 1) (by omega), Nat.add_zero, kget_kset_same]; rfl
    | succ i =>
      rw [show first + n + (i + 1) = first + (n + 1) + i by omega, ih _ (Nat.lt_of_succ_lt_succ hi)]
      rfl
end

section
variable {s : State} {p : Nat}

theorem retryFrames_uncounted : (retryFrames p s).uncounted = s.uncounted := by
  unfold retryFrames
  have hqueue : (s.modPart p (fun q => { q with plane := { q.plane with waitq := [] } })).uncounted = s.uncounted :=
    view_modPart Part.uncounted s p rfl
  exact (view_foldl State.uncounted (fun t (x : Nat × Frame) => sendToward_uncounted t p x.1 x.2) _ _).trans hqueue

/-- What is left of a plane by what only counts and sends. -/
theorem plane_of_uncounted {t : State} (h : t.uncounted = s.uncounted) (p : Nat) : (t.part p).plane.valid = (s.part p).plane.valid
    ∧ (t.part p).plane.node = (s.part p).plane.node ∧ (t.part p).plane.routes = (s.part p).plane.routes
    ∧ (t.part p).plane.groups = (s.part p).plane.groups := by
  have hplane : (t.part p).bare.plane = (s.part p).bare.plane := congrArg Part.plane (bare_of_uncounted h p)
  exact ⟨(congrArg Plane.valid hplane :), (congrArg Plane.node hplane :), (congrArg Plane.routes hplane :), (congrArg Plane.groups hplane :)⟩

theorem setRoutes_plane (first : Nat) (rs : List Nat) : ((setRoutes p first rs s).part p).plane = { (s.part p).plane with
    routes := rs.zipIdx.foldl (fun m x => kset 0 m (first + x.2) (BitVec.ofNat 64 x.1)) (s.part p).plane.routes } := by
  rw [setRoutes, State.part_modPart_same]

variable {r : Nat} {q : BitVec 16} {img : BitVec 512} {rs : List Nat}

section
variable (h : admitted ⟨0x400, false, false, true, [(0x18, 0, 10), (0x20, 0, 52), (0x28, 0, 32)]⟩ r q p img s = true)
  (himg : imageRecords s r p q img routeImage = some rs)
include h himg

theorem fabricSet_length (hl : rs.length ≠ 1024) : completes (.fabricSet r q) s (fabricFails s r p q stField) := by
  rw [imageRecords] at himg
  refine completes_admitted h rfl ?_
  simp only [himg]
  rw [if_pos hl]
  exact complete_fabricFails h _

variable (hl : rs.length = 1024)
include hl

theorem fabricSet_busy (hr : (s.part p).run ≠ none) : completes (.fabricSet r q) s (fabricFails s r p q stFabricBusy) := by
  rw [imageRecords] at himg
  refine completes_admitted h rfl ?_
  simp only [himg, markStarted_chorRuns, isSome_of_ne_none hr, if_true]
  rw [if_neg (not_not_intro hl)]
  exact complete_fabricFails h _

/-- The block with its node and its routes set. -/
def fabricPlaced (p node : Nat) (rs : List Nat) (s : State) : State :=
  setRoutes p 0 rs (s.modPart p (fun q => { q with plane := { q.plane with node := BitVec.ofNat 10 node, valid := true } }))

omit h himg hl in
theorem fabricPlaced_plane (node : Nat) : ((fabricPlaced p node rs s).part p).plane = { (s.part p).plane with
    node := BitVec.ofNat 10 node, valid := true
    routes := rs.zipIdx.foldl (fun m x => kset 0 m (0 + x.2) (BitVec.ofNat 64 x.1)) (s.part p).plane.routes } := by
  rw [fabricPlaced, setRoutes_plane, State.part_modPart_same]

theorem fabricSet_sets (hr : (s.part p).run = none) : completes (.fabricSet r q) s (fun t => answered r q stOk 0 0 s t
    ∧ (t.part p).plane.valid = true ∧ (t.part p).plane.node.toNat = arg img 0x18 0 10
    ∧ ∀ i, i < 1024 → kget 0 (t.part p).plane.routes i = BitVec.ofNat 64 (nth rs i)) := by
  have hexec : execFabricSet r q s = .next (complete r q stOk 0 0 (retryFrames p (fabricPlaced p (arg img 0x18 0 10) rs (markStarted r q s)))) := by
    rw [imageRecords] at himg
    unfold execFabricSet
    rw [runCommand_admitted h]
    simp only [himg, markStarted_chorRuns, hr, Option.isSome_none, Bool.false_eq_true, if_false]
    rw [if_neg (not_not_intro hl)]
    rfl
  have hcmds : cmdsOf (retryFrames p (fabricPlaced p (arg img 0x18 0 10) rs (markStarted r q s))).rings = cmdsOf (markStarted r q s).rings :=
    (retryFrames_cmds _ _).trans (setRoutes_cmds ..)
  obtain ⟨hvalid, hnode, hroutes, -⟩ := plane_of_uncounted (retryFrames_uncounted (s := fabricPlaced p (arg img 0x18 0 10) rs (markStarted r q s)) (p := p)) p
  have hplane := fabricPlaced_plane (s := markStarted r q s) (p := p) (rs := rs) (arg img 0x18 0 10)
  refine ⟨_, hexec, complete_started s _ r q _ _ _ (admitted_find h) hcmds, ?_, ?_, fun i hi => ?_⟩
  · rw [complete_part, hvalid, hplane]
  · rw [complete_part, hnode, hplane]
    exact (BitVec.toNat_ofNat ..).trans (Nat.mod_eq_of_lt (arg_lt img 0x18 0 10))
  · have hset := kget_routesSet_in (m := (s.part p).plane.routes) (first := 0) 0 (hl ▸ hi : i < rs.length)
    rw [Nat.zero_add] at hset
    rw [complete_part, hroutes, hplane]
    exact hset
end

section
variable (h : admitted ⟨0x401, false, false, true, [(0x18, 0, 10), (0x20, 0, 52), (0x28, 0, 32)]⟩ r q p img s = true)
  (himg : imageRecords s r p q img routeImage = some rs)
include h himg

theorem routeSet_outside (hl : 1024 < arg img 0x18 0 10 + rs.length) : completes (.routeSet r q) s (fabricFails s r p q stField) := by
  rw [imageRecords] at himg
  refine completes_admitted h rfl ?_
  simp only [himg, hl, if_true]
  exact complete_fabricFails h _

theorem routeSet_sets (hl : arg img 0x18 0 10 + rs.length ≤ 1024) : completes (.routeSet r q) s (fun t => answered r q stOk 0 0 s t
    ∧ (∀ i, i < rs.length → kget 0 (t.part p).plane.routes (arg img 0x18 0 10 + i) = BitVec.ofNat 64 (nth rs i))
    ∧ ∀ i, (i < arg img 0x18 0 10 ∨ arg img 0x18 0 10 + rs.length ≤ i) →
      kget 0 (t.part p).plane.routes i = kget 0 (s.part p).plane.routes i) := by
  rw [imageRecords] at himg
  refine completes_admitted h rfl ?_
  simp only [himg, Nat.not_lt.2 hl, if_false]
  have hcmds : cmdsOf (retryFrames p (setRoutes p (arg img 0x18 0 10) rs (markStarted r q s))).rings = cmdsOf (markStarted r q s).rings :=
    (retryFrames_cmds _ _).trans (setRoutes_cmds ..)
  obtain ⟨-, -, hroutes, -⟩ := plane_of_uncounted (retryFrames_uncounted (s := setRoutes p (arg img 0x18 0 10) rs (markStarted r q s)) (p := p)) p
  rw [setRoutes_plane] at hroutes
  refine ⟨complete_started s _ r q _ _ _ (admitted_find h) hcmds, fun i hi => ?_, fun i hi => ?_⟩
  · rw [complete_part, hroutes]
    exact kget_routesSet_in 0 hi
  · rw [complete_part, hroutes]
    exact kget_routesSet_out 0 hi
end
end

/-! ### GROUP_SET (R437, R439) -/

/-- Records written into a keyed list leave the keys they do not name, and each named key holds one of its records. -/
theorem kget_records {α β : Type} [DecidableEq α] (d : α) (key : β → Nat) (val : β → α) (l : List β) (m : KMap α) :
    (∀ n, ¬ n ∈ l.map key → kget d (l.foldl (fun m x => kset d m (key x) (val x)) m) n = kget d m n)
    ∧ ∀ x ∈ l, ∃ y ∈ l, key y = key x ∧ kget d (l.foldl (fun m x => kset d m (key x) (val x)) m) (key x) = val y := by
  induction l generalizing m with
  | nil => exact ⟨fun _ _ => rfl, fun x hx => absurd hx List.not_mem_nil⟩
  | cons a l ih =>
    obtain ⟨hout, hin⟩ := ih (kset d m (key a) (val a))
    refine ⟨fun n hn => ?_, fun x hx => ?_⟩
    · rw [List.map_cons, List.mem_cons, not_or] at hn
      rw [List.foldl_cons, hout n hn.2, kget_kset_other _ _ _ _ hn.1]
    · by_cases hrest : key x ∈ l.map key
      · obtain ⟨z, hz, hzx⟩ := List.mem_map.1 hrest
        obtain ⟨y, hy, hyz, hval⟩ := hin z hz
        exact ⟨y, List.mem_cons_of_mem _ hy, hyz.trans hzx, by rw [List.foldl_cons, ← hzx, hval]⟩
      · have hxa : x = a := (List.mem_cons.1 hx).resolve_right fun hmem => hrest (List.mem_map_of_mem hmem)
        subst hxa
        exact ⟨x, List.mem_cons_self, rfl, by rw [List.foldl_cons, hout _ hrest, kget_kset_same]⟩

section
variable {s : State} {r p : Nat} {q : BitVec 16} {img : BitVec 512} {gs : List (Nat × Group)}
  (h : admitted ⟨0x402, false, false, true, [(0x20, 0, 52), (0x28, 0, 32)]⟩ r q p img s = true)
  (himg : imageRecords s r p q img groupImage = some gs)
include h himg

theorem groupSet_busy {c : Chor} (hr : (s.part p).run ≠ none) (hc : (s.part p).chor = some c)
    (hg : gs.any (fun g => decide (g.1 = c.tempoGroup)) = true) : completes (.groupSet r q) s (fabricFails s r p q stFabricBusy) := by
  rw [imageRecords] at himg
  refine completes_admitted h rfl ?_
  simp only [himg, markStarted_part, hc, markStarted_chorRuns, isSome_of_ne_none hr, hg, Bool.and_self, if_true]
  exact complete_fabricFails h _

/-- The tempo groups that this device roots and that have children: those that are probed first. -/
def probedGroups (gs : List (Nat × Group)) : List Nat := (gs.filter (fun g => g.2.tempo && g.2.root && !g.2.children.isEmpty)).map (·.1)

/-- The block with its probes sent. -/
def probesSent (p : Nat) (gs : List (Nat × Group)) (s : State) : State :=
  (gs.filter (fun g => (probedGroups gs).contains g.1)).foldl (fun t g =>
    g.2.children.foldl (fun t c => sendToward p c (.probe g.1) t) (setEchoes p g.1 g.2.children.length t)) s

omit h himg in
theorem probesSent_cmds (p : Nat) (gs : List (Nat × Group)) (s : State) : cmdsOf (probesSent p gs s).rings = cmdsOf s.rings := by
  unfold probesSent
  exact cmds_foldl (fun t (g : Nat × Group) =>
    (cmds_foldl (fun t c => sendToward_cmds p c (.probe g.1) t) g.2.children (setEchoes p g.1 g.2.children.length t)).trans rfl) _ s

omit h himg in
/-- The probes leave the waits and the groups of the partition. -/
theorem probesSent_left (p : Nat) (gs : List (Nat × Group)) (s : State) :
    (((probesSent p gs s).part p).waiting, ((probesSent p gs s).part p).plane.groups) = ((s.part p).waiting, (s.part p).plane.groups) := by
  have hsend (t : State) (c : Nat) (f : Frame) : (((sendToward p c f t).part p).waiting, ((sendToward p c f t).part p).plane.groups)
      = ((t.part p).waiting, (t.part p).plane.groups) := by
    rw [waiting_of_uncounted (sendToward_uncounted ..), (plane_of_uncounted (sendToward_uncounted t p c f) p).2.2.2]
  have hset (t : State) (g n : Nat) : (((setEchoes p g n t).part p).waiting, ((setEchoes p g n t).part p).plane.groups)
      = ((t.part p).waiting, (t.part p).plane.groups) := by
    rw [setEchoes, State.part_modPart_same]
  exact view_foldl (fun t => ((t.part p).waiting, (t.part p).plane.groups))
    (fun t g => (view_foldl (fun t => ((t.part p).waiting, (t.part p).plane.groups)) (fun t c => hsend t c _) _ _).trans (hset t _ _)) _ s

variable (hr : (s.part p).run = none)
include hr

theorem execGroupSet_idle : execGroupSet r q s = .next (
    if (probedGroups gs).isEmpty then complete r q stOk 0 0 (setGroups p gs (markStarted r q s))
    else addWait p r q (.groupSet gs (probedGroups gs) 0) (probesSent p gs (markStarted r q s))) := by
  rw [imageRecords] at himg
  have hrun : (markStarted r q s).chorRuns p = false := by rw [markStarted_chorRuns, hr]; rfl
  unfold execGroupSet
  rw [runCommand_admitted h]
  simp only [himg, hrun, Bool.false_and]
  cases ((markStarted r q s).part p).chor <;> rfl

theorem groupSet_loads (hp : probedGroups gs = []) : completes (.groupSet r q) s (fun t => answered r q stOk 0 0 s t
    ∧ (∀ g, ¬ g ∈ gs.map (·.1) → kget none (t.part p).plane.groups g = kget none (s.part p).plane.groups g)
    ∧ ∀ x ∈ gs, ∃ y ∈ gs, y.1 = x.1 ∧ kget none (t.part p).plane.groups x.1 = some y.2) := by
  refine ⟨_, execGroupSet_idle h himg hr, ?_⟩
  have hempty : (probedGroups gs).isEmpty = true := by rw [hp]; rfl
  have hplane : ((setGroups p gs (markStarted r q s)).part p).plane.groups
      = gs.foldl (fun m g => kset none m g.1 (some g.2)) (s.part p).plane.groups := by
    rw [setGroups, State.part_modPart_same]
    rfl
  rw [if_pos hempty]
  beta_reduce
  rw [complete_part, hplane]
  exact ⟨complete_started s _ r q _ _ _ (admitted_find h) rfl, kget_records none _ (fun g => some g.2) gs _⟩

theorem groupSet_probes (hp : probedGroups gs ≠ []) : completes (.groupSet r q) s (fun t =>
    nowWaits p r q (.groupSet gs (probedGroups gs) 0) s t ∧ (t.part p).plane.groups = (s.part p).plane.groups) := by
  refine ⟨_, execGroupSet_idle h himg hr, ?_⟩
  obtain ⟨hwaiting, hgroups⟩ := Prod.mk.inj (probesSent_left p gs (markStarted r q s))
  rw [if_neg (by simpa using hp)]
  refine ⟨addWait_waits s _ p r q _ (probesSent_cmds ..) hwaiting, ?_⟩
  rw [addWait, State.part_modPart_same]
  exact hgroups
end

/-! ### Landing buffers (R424, R425) -/

section
variable {s : State} {r p : Nat} {q : BitVec 16} {img : BitVec 512}
  (h : admitted ⟨0x403, false, false, true, [(0x18, 0, 12), (0x20, 0, 52), (0x28, 0, 21)]⟩ r q p img s = true)
include h

/-- The fields of an LB_SET that is refused for them. -/
theorem lbSet_field (hbad : s.ownsLb p (arg img 0x18 0 12) = false ∨ arg img 0x20 0 52 % 512 ≠ 0 ∨ arg img 0x28 0 21 = 0
    ∨ 2 ^ 20 < arg img 0x28 0 21 ∨ 2 ^ 52 < arg img 0x20 0 52 + 4096 * arg img 0x28 0 21) :
    completes (.lbSet r q) s (fabricFails s r p q stField) := by
  have howns : (markStarted r q s).ownsLb p (arg img 0x18 0 12) = s.ownsLb p (arg img 0x18 0 12) := rfl
  refine completes_admitted h rfl ?_
  dsimp only
  rw [howns, if_pos ?_]
  · exact complete_fabricFails h _
  · simp only [Nat.reducePow] at hbad
    rcases hbad with e | e | e | e | e <;> simp [e]

variable (howns : s.ownsLb p (arg img 0x18 0 12) = true) (hbase : arg img 0x20 0 52 % 512 = 0) (h0 : 0 < arg img 0x28 0 21)
  (hk : arg img 0x28 0 21 ≤ 2 ^ 20) (hend : arg img 0x20 0 52 + 4096 * arg img 0x28 0 21 ≤ 2 ^ 52)
include howns hbase h0 hk hend

/-- LB_SET with fields in range. -/
theorem execLbSet_inRange : execLbSet r q s = .next (
    let u := markStarted r q s
    let refused := u.regionRefused p (arg img 0x20 0 52) (4096 * arg img 0x28 0 21)
    if !refused && !u.pinned p (arg img 0x20 0 52) (4096 * arg img 0x28 0 21) then complete r q stField 0 0 u
    else if (s.part p).run.isSome then complete r q stLbBusy 0 0 u
    else if refused then complete r q stRegion 0 0 u
    else complete r q stOk 0 0 (u.setLb (arg img 0x18 0 12) ⟨true, arg img 0x20 0 52, 4096 * arg img 0x28 0 21⟩)) := by
  have howns' : (markStarted r q s).ownsLb p (arg img 0x18 0 12) = true := howns
  unfold execLbSet
  rw [runCommand_admitted h]
  simp only [howns', hbase, h0.ne', Nat.not_lt.2 hk, Nat.not_lt.2 hend, Bool.not_true, ne_eq, not_true_eq_false, decide_false, Bool.or_self,
    Bool.false_or, markStarted_chorRuns]
  rfl

theorem lbSet_unpinned (hr : (markStarted r q s).regionRefused p (arg img 0x20 0 52) (4096 * arg img 0x28 0 21) = false)
    (hp : (markStarted r q s).pinned p (arg img 0x20 0 52) (4096 * arg img 0x28 0 21) = false) :
    completes (.lbSet r q) s (fabricFails s r p q stField) := by
  refine ⟨_, execLbSet_inRange h howns hbase h0 hk hend, ?_⟩
  simp only [hr, hp, Bool.not_false, Bool.and_self, if_true]
  exact complete_fabricFails h _

theorem lbSet_busy (hp : (markStarted r q s).pinned p (arg img 0x20 0 52) (4096 * arg img 0x28 0 21) = true) (hrun : (s.part p).run ≠ none) :
    completes (.lbSet r q) s (fabricFails s r p q stLbBusy) := by
  refine ⟨_, execLbSet_inRange h howns hbase h0 hk hend, ?_⟩
  simp only [hp, Bool.not_true, Bool.and_false, Bool.false_eq_true, if_false, isSome_of_ne_none hrun, if_true]
  exact complete_fabricFails h _

variable (hrun : (s.part p).run = none)
include hrun

theorem lbSet_region (hr : (markStarted r q s).regionRefused p (arg img 0x20 0 52) (4096 * arg img 0x28 0 21) = true) :
    completes (.lbSet r q) s (fabricFails s r p q stRegion) := by
  refine ⟨_, execLbSet_inRange h howns hbase h0 hk hend, ?_⟩
  simp only [hr, hrun, Bool.not_true, Bool.false_and, Bool.false_eq_true, if_false, Option.isSome_none, if_true]
  exact complete_fabricFails h _

theorem lbSet_sets (hr : (markStarted r q s).regionRefused p (arg img 0x20 0 52) (4096 * arg img 0x28 0 21) = false)
    (hp : (markStarted r q s).pinned p (arg img 0x20 0 52) (4096 * arg img 0x28 0 21) = true) : completes (.lbSet r q) s (fun t =>
    answered r q stOk 0 0 s t ∧ t.landBuf (arg img 0x18 0 12) = ⟨true, arg img 0x20 0 52, 4096 * arg img 0x28 0 21⟩
    ∧ ∀ n, n ≠ arg img 0x18 0 12 → t.landBuf n = s.landBuf n) := by
  refine ⟨_, execLbSet_inRange h howns hbase h0 hk hend, ?_⟩
  simp only [hr, hp, hrun, Bool.not_true, Bool.and_false, Bool.false_eq_true, if_false, Option.isSome_none, complete_landBuf]
  exact ⟨complete_started s _ r q _ _ _ (admitted_find h) rfl, State.landBuf_setLb_same .., fun n hn => State.landBuf_setLb_other _ _ _ hn⟩
end

section
variable {s : State} {r p : Nat} {q : BitVec 16} {img : BitVec 512} (h : admitted ⟨0x404, false, false, true, [(0x18, 0, 12)]⟩ r q p img s = true)
include h

theorem lbClear_field (ho : s.ownsLb p (arg img 0x18 0 12) = false) : completes (.lbClear r q) s (fabricFails s r p q stField) := by
  have ho' : (markStarted r q s).ownsLb p (arg img 0x18 0 12) = false := ho
  refine completes_admitted h rfl ?_
  simp only [ho', Bool.not_false, if_true]
  exact complete_fabricFails h _

variable (ho : s.ownsLb p (arg img 0x18 0 12) = true)
include ho

theorem lbClear_busy (hr : (s.part p).run ≠ none) : completes (.lbClear r q) s (fabricFails s r p q stLbBusy) := by
  have ho' : (markStarted r q s).ownsLb p (arg img 0x18 0 12) = true := ho
  refine completes_admitted h rfl ?_
  simp only [ho', Bool.not_true, Bool.false_eq_true, if_false, markStarted_chorRuns, isSome_of_ne_none hr, if_true]
  exact complete_fabricFails h _

/-- The block with the mirror binding of the partition ended where its buffer is cleared. -/
def mirrorUnbound (p lb : Nat) (s : State) : State :=
  if lb = s.mirrorLb p then s.modPart p (fun q => { q with snap := { q.snap with held := none } }) else s

omit h ho in
theorem mirrorUnbound_held {lb : Nat} (hl : lb = s.mirrorLb p) : ((mirrorUnbound p lb s).part p).snap.held = none := by
  rw [mirrorUnbound, if_pos hl, State.part_modPart_same]

theorem lbClear_clears (hr : (s.part p).run = none) : completes (.lbClear r q) s (fun t => answered r q stOk 0 0 s t
    ∧ (t.landBuf (arg img 0x18 0 12)).isSet = false ∧ (arg img 0x18 0 12 = s.mirrorLb p → (t.part p).snap.held = none)
    ∧ ∀ n, n ≠ arg img 0x18 0 12 → t.landBuf n = s.landBuf n) := by
  have hexec : execLbClear r q s
      = .next (complete r q stOk 0 0 ((mirrorUnbound p (arg img 0x18 0 12) (markStarted r q s)).setLb (arg img 0x18 0 12) LandBuf.reset)) := by
    have ho' : (markStarted r q s).ownsLb p (arg img 0x18 0 12) = true := ho
    unfold execLbClear
    rw [runCommand_admitted h]
    simp only [ho', hr, Bool.not_true, Bool.false_eq_true, if_false, markStarted_chorRuns, Option.isSome_none, mirrorUnbound]
  have hcmds : cmdsOf (mirrorUnbound p (arg img 0x18 0 12) (markStarted r q s)).rings = cmdsOf (markStarted r q s).rings :=
    view_ite_eq (F := fun t => cmdsOf t.rings) rfl rfl
  have hlbs : (mirrorUnbound p (arg img 0x18 0 12) (markStarted r q s)).lbs = s.lbs := view_ite_eq (F := State.lbs) rfl rfl
  refine ⟨_, hexec, complete_started s _ r q _ _ _ (admitted_find h) hcmds, ?_, fun hl => ?_, fun n hn => ?_⟩
  · rw [complete_landBuf, State.landBuf_setLb_same]
    rfl
  · rw [complete_part]
    exact mirrorUnbound_held (s := markStarted r q s) hl
  · rw [complete_landBuf, State.landBuf_setLb_other _ _ _ hn]
    exact congrArg (kget LandBuf.reset · n) hlbs
end

/-! ### TABLE_READ and LINK_QUERY (R422, R450, R452) -/

section
variable {s : State} {r p : Nat} {q : BitVec 16} {img : BitVec 512}

section
variable (h : admitted ⟨0x405, false, false, true, [(0x18, 0, 2)]⟩ r q p img s = true)
include h

theorem tableRead_routes (ht : arg img 0x18 0 2 = 1) : completes (.tableRead r q) s (givesResult s r q img 0 (s.part p).plane.routeImage) := by
  refine completes_admitted h rfl ?_
  simp only [ht, markStarted_part]
  exact completeWith_gives h _ _

theorem tableRead_groups (ht : arg img 0x18 0 2 = 2) : completes (.tableRead r q) s (givesResult s r q img 0 (s.part p).plane.groupImage) := by
  refine completes_admitted h rfl ?_
  simp only [ht, markStarted_part]
  exact completeWith_gives h _ _

theorem tableRead_other (h1 : arg img 0x18 0 2 ≠ 1) (h2 : arg img 0x18 0 2 ≠ 2) : completes (.tableRead r q) s (fabricFails s r p q stField) := by
  refine completes_admitted h rfl ?_
  split
  · exact absurd ‹_› h1
  · exact absurd ‹_› h2
  · exact complete_fabricFails h _
end

section
variable (h : admitted ⟨0x406, false, false, true, [(0x18, 0, 6)]⟩ r q p img s = true)
include h

theorem linkQuery_noPort (hn : s.cfg.linkPorts ≤ arg img 0x18 0 6) : completes (.linkQuery r q) s (fabricFails s r p q stField) := by
  refine completes_admitted h rfl ?_
  simp only [markStarted_cfg, hn, if_true]
  exact complete_fabricFails h _

variable (hn : arg img 0x18 0 6 < s.cfg.linkPorts)
include hn

theorem linkQuery_foreign (ho : s.portOwner (arg img 0x18 0 6) ≠ some p) : completes (.linkQuery r q) s (fabricFails s r p q stPort) := by
  have ho' : (markStarted r q s).portOwner (arg img 0x18 0 6) ≠ some p := ho
  refine completes_admitted h rfl ?_
  simp only [markStarted_cfg, Nat.not_le.2 hn, if_false, ho', ne_eq, not_false_eq_true, if_true]
  exact complete_fabricFails h _

theorem linkQuery_gives (ho : s.portOwner (arg img 0x18 0 6) = some p) : completes (.linkQuery r q) s (fun t =>
    let c := (s.port (arg img 0x18 0 6)).cnt
    givesResult s r q img (s.linkStat (arg img 0x18 0 6)) ([c.tx, c.rx, c.fecCorr, c.fecUnc, c.retry, c.crwait].flatMap (leBytes 4)) t) := by
  have ho' : (markStarted r q s).portOwner (arg img 0x18 0 6) = some p := ho
  refine completes_admitted h rfl ?_
  simp only [markStarted_cfg, Nat.not_le.2 hn, if_false, ho', ne_eq, not_true_eq_false]
  exact completeWith_gives h _ _
end
end
end Sys2Proof.Machine
end

section
/-! PROOF. Snapshots and Partners by command (R566, R579, R583 to R585), and the fabric commands: O55. -/

namespace Sys2Proof.Machine

/-! ### SNAP_SET and SNAP_QUERY (R503, R566) -/

section
variable {s : State} {r p : Nat} {q : BitVec 16} {img : BitVec 512}

/-- Slots that are placed: their place is as asked for, and none is BAD. -/
theorem placeSlots_snap (base mb slots : Nat) : ∃ latest next seq, ((placeSlots p base mb slots s).part p).snap = { (s.part p).snap with
    set := true, nvmBase := base, slotMb := mb, slots := slots, bad := [], latest := latest, nextSlot := next, snapSeq := seq } := by
  unfold placeSlots
  dsimp only
  split
  · exact ⟨none, 0, 0, by rw [modSnap_snap, modSnap_snap]⟩
  next i h _ => exact ⟨some i, (i + 1) % slots, h.snapSeq, by rw [modSnap_snap, modSnap_snap]⟩

section
variable (h : admitted ⟨0x500, false, false, true, [(0x18, 0, 48), (0x20, 0, 32), (0x24, 0, 5)]⟩ r q p img s = true)
include h

theorem snapSet_field (hf : s.snapFields p (arg img 0x18 0 48) (arg img 0x20 0 32) (arg img 0x24 0 5) = false) :
    completes (.snapSet r q) s (fabricFails s r p q stField) := by
  have hf' : (markStarted r q s).snapFields p (arg img 0x18 0 48) (arg img 0x20 0 32) (arg img 0x24 0 5) = false := hf
  refine completes_admitted h rfl ?_
  simp only [hf', Bool.not_false, if_true]
  exact complete_fabricFails h _

variable (hf : s.snapFields p (arg img 0x18 0 48) (arg img 0x20 0 32) (arg img 0x24 0 5) = true)
include hf

theorem snapSet_busy (hb : ((s.part p).snap.writing || (s.part p).snap.mirroring) = true) :
    completes (.snapSet r q) s (fabricFails s r p q stSnapBusy) := by
  have hf' : (markStarted r q s).snapFields p (arg img 0x18 0 48) (arg img 0x20 0 32) (arg img 0x24 0 5) = true := hf
  refine completes_admitted h rfl ?_
  simp only [hf', Bool.not_true, Bool.false_eq_true, if_false, markStarted_part, hb, if_true]
  exact complete_fabricFails h _

theorem snapSet_places (hb : ((s.part p).snap.writing || (s.part p).snap.mirroring) = false) (hr : (s.part p).run = none) :
    completes (.snapSet r q) s (fun t => answered r q stOk 0 0 s t ∧ (t.part p).snap.set = true
      ∧ (t.part p).snap.nvmBase = arg img 0x18 0 48 ∧ (t.part p).snap.slotMb = arg img 0x20 0 32 ∧ (t.part p).snap.slots = arg img 0x24 0 5
      ∧ (t.part p).snap.bad = [] ∧ t.nvm = s.nvm) := by
  have hf' : (markStarted r q s).snapFields p (arg img 0x18 0 48) (arg img 0x20 0 32) (arg img 0x24 0 5) = true := hf
  refine completes_admitted h rfl ?_
  simp only [hf', Bool.not_true, Bool.false_eq_true, if_false, markStarted_part, hb, markStarted_chorRuns, hr, Option.isSome_none]
  obtain ⟨latest, next, seq, hsnap⟩ := placeSlots_snap (s := markStarted r q s) (p := p) (arg img 0x18 0 48) (arg img 0x20 0 32) (arg img 0x24 0 5)
  rw [complete_part, complete_nvm, snap_of_snaps (snaps_of_uncounted (withHealth_uncounted ..)), hsnap]
  refine ⟨complete_started s _ r q _ _ _ (admitted_find h) (withHealth_cmds _ _ (placeSlots_cmds ..)), rfl, rfl, rfl, rfl, rfl, ?_⟩
  exact same_of_mask (withHealth_mask (w := 0x700010#38) _ (placeSlots_mask (by decide) _ _ _ _) (by decide) (markStarted r q s)) .nvm (by decide)
end

theorem snapQuery_gives (h : admitted ⟨0x502, false, false, true, []⟩ r q p img s = true) : completes (.snapQuery r q) s
    (givesResult s r q img ((s.part p).snap.latest.getD 0xFF) ((List.range (s.part p).snap.slots).flatMap (s.slotRecord p))) := by
  have hread : (markStarted r q s).nvmRead = s.nvmRead := rfl
  have hheader (i : Nat) : (markStarted r q s).slotHdr p i = s.slotHdr p i := by
    rw [State.slotHdr, State.slotHdr, hread, markStarted_part]
  have hrecord (i : Nat) : (markStarted r q s).slotRecord p i = s.slotRecord p i := by
    unfold State.slotRecord
    rw [hheader]
  refine completes_admitted h rfl ?_
  simp only [funext hrecord, markStarted_part]
  exact completeWith_gives h _ _
end

/-! ### SNAP_RESTORE (R583 to R585) -/

section
variable {s : State} {p : Nat}

theorem writeRange_uncounted (r : SnapRange) (bs : List Byte) (s : State) : (writeRange p r bs s).uncounted = s.uncounted := by
  unfold writeRange
  split
  · exact writeVa_uncounted ..
  · exact uncounted_of_mask (spmWrite_mask (by decide) _ _ _ _)

theorem spoilRanges_uncounted (rs : List SnapRange) (s : State) : (spoilRanges p rs s).uncounted = s.uncounted := by
  unfold spoilRanges
  exact view_foldl State.uncounted (fun t r =>
    (writeRange_uncounted r ((List.range r.bytes).map (Config.restoreByte t.free)) t.draw).trans (uncounted_of_parts (State.draw_parts t))) _ s

theorem spin_of_uncounted {t : State} (h : t.uncounted = s.uncounted) (p : Nat) : (t.part p).spin = (s.part p).spin :=
  (congrArg Part.spin (bare_of_uncounted h p) :)

/-- A partition with its registers restored. -/
def Part.restored (q : Part) (body : List Byte) (at_ : Nat × Nat × Nat) : Part :=
  { q with
    spin := spinsOf body, flags := Flags.none, firstFig := 0xFFFFFF, firstBeat := 0, voteId := 0, voteFlags := 0, voteClear := false
    voteValid := false, snap := { q.snap with resume := some at_ } }

/-- The block with the ranges and the Figures' positions restored. -/
def rangesRestored (p : Nat) (m : Manifest) (body : List Byte) (s : State) : State :=
  writeVa p true m.posVa ((body.drop 512).take m.posBytes)
    (writeRanges p m.ranges (body.drop (body.length - (m.ranges.map (fun r => up512 r.bytes)).sum)) s)

theorem rangesRestored_cmds (m : Manifest) (body : List Byte) : cmdsOf (rangesRestored p m body s).rings = cmdsOf s.rings :=
  (writeVa_cmds ..).trans (writeRanges_cmds ..)

variable {r : Nat} {q : BitVec 16} {img : BitVec 512} {bs : List Byte}

/-- The bytes of a complete header. -/
def completeHeader (bs : List Byte) : Option SlotHdr := (readHeader (bs.take 4096)).filter (fun h => decide (h.state = 2))

/-- The CRC table of a slot's bytes. -/
def slotTable (bs : List Byte) (h : SlotHdr) : List Byte := (bs.drop 4096).take (crcBytes h.bodyBytes)

/-- The body of a slot's bytes. -/
def slotBody (bs : List Byte) (h : SlotHdr) : List Byte := (bs.drop (4096 + crcBytes h.bodyBytes)).take h.bodyBytes

theorem restoreFrom_noHeader (hh : completeHeader bs = none) : restoreFrom p r q img bs s = complete r q stSnapInvalid 0 0 s := by
  rw [completeHeader] at hh
  rw [restoreFrom, hh]

variable {h : SlotHdr} (hh : completeHeader bs = some h)
include hh

theorem restoreFrom_foreign (hr : s.restorable p h = none) : restoreFrom p r q img bs s = complete r q stSnapInvalid 0 0 s := by
  rw [completeHeader] at hh
  rw [restoreFrom, hh]
  dsimp only
  rw [hr]

variable {i : Nat} {m : Manifest} (hr : s.restorable p h = some (i, m))
include hr

theorem restoreFrom_broken (hb : (slotBody bs h).length ≠ h.bodyBytes ∨ crcsOk (slotTable bs h) (slotBody bs h) = false) :
    restoreFrom p r q img bs s = complete r q stSnapInvalid 0 0 (spoilRanges p m.ranges s) := by
  have hbad : (decide ((slotBody bs h).length ≠ h.bodyBytes) || !crcsOk (slotTable bs h) (slotBody bs h)) = true := by
    rcases hb with e | e <;> simp [e]
  rw [completeHeader] at hh
  rw [slotBody, slotTable] at hbad
  rw [restoreFrom, hh]
  dsimp only
  rw [hr]
  dsimp only
  rw [if_pos hbad]

theorem restoreFrom_restores (hl : (slotBody bs h).length = h.bodyBytes) (hc : crcsOk (slotTable bs h) (slotBody bs h) = true) :
    ∃ result, restoreFrom p r q img bs s = completeWith p r q img h.beat result
      ((rangesRestored p m (slotBody bs h) s).modPart p (fun k => k.restored (slotBody bs h) (h.beat, h.iteration, i))) := by
  have hgood : ¬ (decide ((slotBody bs h).length ≠ h.bodyBytes) || !crcsOk (slotTable bs h) (slotBody bs h)) = true := by simp [hl, hc]
  rw [completeHeader] at hh
  rw [slotBody, slotTable] at hgood
  unfold restoreFrom
  rw [hh]
  dsimp only
  rw [hr]
  dsimp only
  rw [if_neg hgood]
  exact ⟨_, rfl⟩
end

section
variable {s : State} {r p : Nat} {q : BitVec 16} {img : BitVec 512} {mirror : List Byte}
  (h : admitted ⟨0x501, false, true, true, [(0x18, 0, 9)]⟩ r q p img s = true)
include h

theorem snapRestore_running (hr : (s.part p).run ≠ none) : completes (.snapRestore r q mirror) s (fabricFails s r p q stChorBusy) := by
  refine completes_admitted h rfl ?_
  simp only [markStarted_chorRuns, isSome_of_ne_none hr, if_true]
  exact complete_fabricFails h _

variable (hr : (s.part p).run = none)
include hr

theorem snapRestore_busy (hb : (s.part p).snap.busy = true) : completes (.snapRestore r q mirror) s (fabricFails s r p q stSnapBusy) := by
  refine completes_admitted h rfl ?_
  simp only [markStarted_chorRuns, hr, Option.isSome_none, Bool.false_eq_true, if_false, markStarted_part, hb, if_true]
  exact complete_fabricFails h _

variable (hb : (s.part p).snap.busy = false)
include hb

theorem snapRestore_noPartner (hp : bit (arg img 0x18 0 9) 8 = true) (hn : (s.part p).snap.partner = none) :
    completes (.snapRestore r q mirror) s (fabricFails s r p q stSnapInvalid) := by
  refine completes_admitted h rfl ?_
  simp only [markStarted_chorRuns, hr, Option.isSome_none, Bool.false_eq_true, if_false, markStarted_part, hb, hp, hn, Option.isNone_none,
    if_true]
  exact complete_fabricFails h _

/-- The slot that a restore names. -/
def restoredSlot (s : State) (p : Nat) (img : BitVec 512) : Option Nat :=
  if arg img 0x18 0 8 = 0xFF then (s.part p).snap.latest else some (arg img 0x18 0 8)

/-- A restore of an idle partition reads the mirror or a slot of its own. -/
theorem execSnapRestore_from {bs : List Byte} (hm : bit (arg img 0x18 0 9) 8 = true → (s.part p).snap.partner ≠ none ∧ bs = mirror)
    (hs : bit (arg img 0x18 0 9) 8 = false → ∃ i, restoredSlot s p img = some i ∧ i < (s.part p).snap.slots
      ∧ bs = s.nvmRead ((s.part p).snap.slotAt i) ((s.part p).snap.slotMb * 1000000)) :
    execSnapRestore r q mirror s = .next (restoreFrom p r q img bs (markStarted r q s)) := by
  unfold execSnapRestore
  rw [runCommand_admitted h]
  simp only [markStarted_chorRuns, hr, Option.isSome_none, Bool.false_eq_true, if_false, markStarted_part, hb]
  cases hbit : bit (arg img 0x18 0 9) 8 with
  | true =>
    obtain ⟨hn, rfl⟩ := hm hbit
    have hsome : (s.part p).snap.partner.isNone = false := Option.isNone_eq_false_iff.2 (isSome_of_ne_none hn)
    simp only [if_true, hsome, Bool.false_eq_true, if_false]
  | false =>
    obtain ⟨i, hi, hlt, rfl⟩ := hs hbit
    rw [restoredSlot] at hi
    simp only [Bool.false_eq_true, if_false, hi, Nat.not_le.2 hlt]
    rfl

omit h hr hb
variable (hfind : ((s.ring r).find q).isSome = true) {bs : List Byte} (hexec : execSnapRestore r q mirror s = .next (restoreFrom p r q img bs (markStarted r q s)))
include hexec

theorem snapRestore_noHeader (h : admitted ⟨0x501, false, true, true, [(0x18, 0, 9)]⟩ r q p img s = true) (hh : completeHeader bs = none) :
    completes (.snapRestore r q mirror) s (fabricFails s r p q stSnapInvalid) := by
  refine ⟨_, hexec, ?_⟩
  rw [restoreFrom_noHeader hh]
  exact complete_fabricFails h _

variable {hdr : SlotHdr} (hh : completeHeader bs = some hdr)
include hh

theorem snapRestore_foreign (h : admitted ⟨0x501, false, true, true, [(0x18, 0, 9)]⟩ r q p img s = true) (hn : s.restorable p hdr = none) :
    completes (.snapRestore r q mirror) s (fabricFails s r p q stSnapInvalid) := by
  refine ⟨_, hexec, ?_⟩
  rw [restoreFrom_foreign (s := markStarted r q s) hh hn]
  exact complete_fabricFails h _

include hfind
variable {i : Nat} {m : Manifest} (hi : s.restorable p hdr = some (i, m))
include hi

theorem snapRestore_broken (hbad : (slotBody bs hdr).length ≠ hdr.bodyBytes ∨ crcsOk (slotTable bs hdr) (slotBody bs hdr) = false) :
    completes (.snapRestore r q mirror) s (fun t => answered r q stSnapInvalid 0 0 s t
      ∧ (t.part p).snap.resume = (s.part p).snap.resume ∧ (t.part p).spin = (s.part p).spin) := by
  refine ⟨_, hexec, ?_⟩
  have hi' : (markStarted r q s).restorable p hdr = some (i, m) := hi
  have hkept := spoilRanges_uncounted (p := p) m.ranges (markStarted r q s)
  rw [restoreFrom_broken hh hi' hbad]
  beta_reduce
  rw [complete_part, snap_of_snaps (snaps_of_uncounted hkept), spin_of_uncounted hkept]
  exact ⟨complete_started s _ r q _ _ _ hfind (spoilRanges_cmds ..), rfl, rfl⟩

theorem snapRestore_restores (hl : (slotBody bs hdr).length = hdr.bodyBytes) (hc : crcsOk (slotTable bs hdr) (slotBody bs hdr) = true) :
    completes (.snapRestore r q mirror) s (fun t =>
      (∃ st d b, answered r q st d b s t ∧ (resultVa img = 0 → st = stOk ∧ d = hdr.beat ∧ b = 0))
      ∧ (t.part p).snap.resume = some (hdr.beat, hdr.iteration, i) ∧ (t.part p).spin = spinsOf (slotBody bs hdr)
      ∧ (t.part p).flags = Flags.none) := by
  refine ⟨_, hexec, ?_⟩
  have hi' : (markStarted r q s).restorable p hdr = some (i, m) := hi
  obtain ⟨result, hfrom⟩ := restoreFrom_restores (r := r) (q := q) (img := img) hh hi' hl hc
  rw [hfrom]
  have hkept := completeWith_uncounted (p := p) (r := r) (q := q) (s := (rangesRestored p m (slotBody bs hdr) (markStarted r q s)).modPart p
    (fun k => k.restored (slotBody bs hdr) (hdr.beat, hdr.iteration, i))) img hdr.beat result
  have hflags := (congrArg Part.flags (bare_of_uncounted hkept p) :)
  refine ⟨⟨_, _, _, completeWith_started s _ p r q img hdr.beat result hfind (rangesRestored_cmds ..), fun h0 => ?_⟩, ?_, ?_, hflags.trans ?_⟩
  · rw [resultAnswer, if_pos h0]
    exact ⟨rfl, rfl, rfl⟩
  · rw [snap_of_snaps (snaps_of_uncounted hkept), State.part_modPart_same]
    rfl
  · rw [spin_of_uncounted hkept, State.part_modPart_same]
    rfl
  · exact congrArg Part.flags (State.part_modPart_same ..)
end

/-! ### SET_PARTNER (R579) -/

section
variable {s : State} {r p : Nat} {q : BitVec 16} {img : BitVec 512}
  (h : admitted ⟨0x503, false, false, true, [(0x18, 0, 10), (0x18, 16, 2)]⟩ r q p img s = true)
include h

theorem setPartner_busy (hr : (s.part p).run ≠ none) : completes (.setPartner r q) s (fabricFails s r p q stChorBusy) := by
  refine completes_admitted h rfl ?_
  simp only [markStarted_chorRuns, isSome_of_ne_none hr, if_true]
  exact complete_fabricFails h _

variable (hr : (s.part p).run = none)
include hr

/-- The block with the Partner of the partition cleared. -/
def partnerCleared (p : Nat) (s : State) : State := withHealth (modSnap p (fun n => { n with partner := none, atRisk := false })) s

omit h hr in
theorem partnerCleared_snap : ((partnerCleared p s).part p).snap = { (s.part p).snap with partner := none, atRisk := false } := by
  rw [partnerCleared, snap_of_snaps (snaps_of_uncounted (withHealth_uncounted ..)), modSnap_snap]

/-- A Partner that was set is told that it is cleared. -/
theorem execSetPartner_clear (hc : arg img 0x18 17 1 = 1) : execSetPartner r q s = .next (complete r q stOk 0 0 (partnerCleared p (markStarted r q s)))
    ∨ ∃ d, execSetPartner r q s = .next (complete r q stOk 0 0 (tellPartner p d 2 (partnerCleared p (markStarted r q s)))) := by
  unfold execSetPartner
  rw [runCommand_admitted h]
  simp only [markStarted_chorRuns, hr, Option.isSome_none, Bool.false_eq_true, if_false, hc, if_true, markStarted_part]
  cases (s.part p).snap.partner with
  | none => exact .inl rfl
  | some d => exact .inr ⟨d, rfl⟩

theorem setPartner_clears (hc : arg img 0x18 17 1 = 1) : completes (.setPartner r q) s (fun t =>
    answered r q stOk 0 0 s t ∧ (t.part p).snap.partner = none ∧ (t.part p).snap.atRisk = false) := by
  have hcmds : cmdsOf (partnerCleared p (markStarted r q s)).rings = cmdsOf (markStarted r q s).rings := withHealth_cmds _ _ (modSnap_cmds ..)
  rcases execSetPartner_clear h hr hc with hexec | ⟨d, hexec⟩ <;> refine ⟨_, hexec, ?_⟩ <;> beta_reduce <;> rw [complete_part]
  · rw [partnerCleared_snap]
    exact ⟨complete_started s _ r q _ _ _ (admitted_find h) hcmds, rfl, rfl⟩
  · rw [snap_of_snaps (snaps_of_uncounted (tellPartner_uncounted ..)), partnerCleared_snap]
    exact ⟨complete_started s _ r q _ _ _ (admitted_find h) ((tellPartner_cmds ..).trans hcmds), rfl, rfl⟩

theorem setPartner_asks (hc : arg img 0x18 17 1 = 0) : completes (.setPartner r q) s (fun t =>
    nowWaits p r q (.setPartner (arg img 0x18 0 10) (arg img 0x18 16 1 = 1)) s t ∧ (t.part p).snap = (s.part p).snap) := by
  refine completes_admitted h rfl ?_
  simp only [markStarted_chorRuns, hr, Option.isSome_none, Bool.false_eq_true, if_false, hc, Nat.zero_ne_one]
  have hkept := tellPartner_uncounted p (arg img 0x18 0 10) 0 (markStarted r q s)
  refine ⟨addWait_waits s _ p r q _ (tellPartner_cmds ..) (waiting_of_uncounted hkept p), ?_⟩
  rw [addWait, State.part_modPart_same]
  exact snap_of_snaps (snaps_of_uncounted hkept) p
end

/-- Settles O55: each fabric, snapshot and Partner command that the interface admits answers, or waits, as its conditions in turn decide. -/
theorem fabricCommands : Obligations.FabricCommands := by
  unfold Obligations.FabricCommands
  intro s r p q img ok me u fails image route
  refine ⟨fun h rs hrs => ⟨fabricSet_length h hrs, fabricSet_busy h hrs, fabricSet_sets h hrs⟩,
    fun h rs hrs => ⟨routeSet_outside h hrs, routeSet_sets h hrs⟩,
    fun h gs hgs => ⟨fun c hr hc hg => groupSet_busy h hgs hr hc hg, fun hr => ⟨groupSet_loads h hgs hr, groupSet_probes h hgs hr⟩⟩,
    fun h => ⟨lbSet_field h, fun ho hb h0 hk he => ⟨lbSet_unpinned h ho hb h0 hk he, fun hp hr => lbSet_busy h ho hb h0 hk he hp hr,
      fun hr hreg => lbSet_region h ho hb h0 hk he hr hreg, fun hr hreg hp => lbSet_sets h ho hb h0 hk he hr hreg hp⟩⟩,
    fun h => ⟨lbClear_field h, lbClear_busy h, lbClear_clears h⟩,
    fun h => ⟨tableRead_routes h, tableRead_groups h, tableRead_other h⟩,
    fun h => ⟨linkQuery_noPort h, linkQuery_foreign h, linkQuery_gives h⟩,
    fun h => ⟨snapSet_field h, snapSet_busy h, snapSet_places h⟩,
    fun h mirror => ⟨snapRestore_running h, snapRestore_busy h, fun hr hb hp hn => snapRestore_noPartner h hr hb hp hn, ?_⟩,
    fun h => snapQuery_gives h,
    fun h => ⟨setPartner_busy h, setPartner_clears h, setPartner_asks h⟩⟩
  intro hr hb bs hm hs
  have hexec := execSnapRestore_from h hr hb hm hs
  exact ⟨snapRestore_noHeader hexec h, fun hdr hh => ⟨snapRestore_foreign hexec hh h, fun i m hi =>
    ⟨snapRestore_broken (admitted_find h) hexec hh hi, snapRestore_restores (admitted_find h) hexec hh hi⟩⟩⟩
end Sys2Proof.Machine
end

section
/-! PROOF. The mapping commands (R386, R391, R398, R401 to R403, R406, R407, R501): O54. -/

namespace Sys2Proof.Machine

/-- The command completes with a status, and the partition's page table stays as it was. -/
def mapFails (s : State) (r p : Nat) (q : BitVec 16) (st : Nat) (t : State) : Prop :=
  answered r q st 0 0 s t ∧ (t.part p).space = (s.part p).space

/-- The VA after the last page of a command. -/
def MapCmd.stop (c : MapCmd) : Nat := c.va + c.pages * pageBytes c.big

/-- The valid leaves of partition `p` that a command's range meets. -/
def State.met (s : State) (p : Nat) (c : MapCmd) : List (Nat × Leaf) := (s.part p).space.leavesIn c.va c.stop

/-- The leaf of the page at `va` in partition `p`. -/
def State.leafOf (s : State) (p va : Nat) : Option Leaf := kget none (s.part p).space.leaves (pageKey va)

/-- Only the leaves of the pages at `vs` differ. -/
def leavesKept (s : State) (p : Nat) (vs : List Nat) (t : State) : Prop :=
  ∀ n, ¬ n ∈ vs.map pageKey → kget none (t.part p).space.leaves n = kget none (s.part p).space.leaves n

section
variable {s : State} {r p : Nat} {q : BitVec 16} {img : BitVec 512} {k : CmdRule} (h : admitted k r q p img s = true)
include h

theorem complete_mapFails (st : Nat) : mapFails s r p q st (complete r q st 0 0 (markStarted r q s)) :=
  ⟨complete_started s _ r q _ _ _ (admitted_find h) rfl, by rw [complete_part]; rfl⟩
end

/-! ### Leaves written into a table -/

section
variable {β : Type} (key : β → Nat) (val : β → Option Leaf) (l : List β) (t : Space)

theorem putAll_leaves : (l.foldl (fun t x => t.put (key x) (val x)) t).leaves
    = l.foldl (fun m x => kset none m (pageKey (key x)) (val x)) t.leaves := by
  induction l generalizing t with
  | nil => rfl
  | cons x l ih => rw [List.foldl_cons, List.foldl_cons, ih]; rfl
end

section
variable {s t : State} {p : Nat} {β : Type} {key : β → Nat} {val : β → Option Leaf} {l : List β}
  (ht : (t.part p).space.leaves = l.foldl (fun m x => kset none m (pageKey (key x)) (val x)) (s.part p).space.leaves)
include ht

theorem leavesKept_of_putAll : leavesKept s p (l.map key) t := by
  intro n hn
  rw [List.map_map] at hn
  rw [ht]
  exact (kget_records none (fun x => pageKey (key x)) val l _).1 n hn

theorem leafOf_of_putAll {x : β} (hx : x ∈ l) : ∃ y ∈ l, pageKey (key y) = pageKey (key x) ∧ t.leafOf p (key x) = val y := by
  rw [State.leafOf, ht]
  exact (kget_records none (fun x => pageKey (key x)) val l _).2 x hx
end

/-- Pages of a command at different VAs have different keys. -/
theorem MapCmd.va_of_pageKey {c : MapCmd} {v w : Nat} (hv : v ∈ c.vas) (hw : w ∈ c.vas) (h : pageKey v = pageKey w) : v = w := by
  obtain ⟨i, -, rfl⟩ := List.mem_map.1 hv
  obtain ⟨j, -, rfl⟩ := List.mem_map.1 hw
  cases hbig : c.big <;> simp only [pageKey, pageBytes, hbig, Bool.false_eq_true, if_false, if_true, Nat.reducePow] at h ⊢ <;> omega

/-- A leaf found in a table's list is kept under the key of its VA. -/
theorem Space.pageKey_leavesIn {t : Space} {a b : Nat} {x : Nat × Leaf} (hx : x ∈ t.leavesIn a b) : pageKey x.1 * 2 ^ 25 = x.1 := by
  obtain ⟨y, -, hy⟩ := List.mem_filterMap.1 hx
  split at hy
  · split at hy
    · cases hy
      rw [pageKey, Nat.mul_div_cancel _ (by norm_num)]
    · cases hy
  · cases hy

theorem any_and_false {α : Type} {l : List α} {f g : α → Bool} (h : l.any f = false) : l.any (fun x => f x && g x) = false := by
  rw [List.any_eq_false] at h ⊢
  intro x hx
  simp [h x hx]

/-- Leaves that are all of a size include none of another. -/
theorem otherSize_none {l : List (Nat × Leaf)} {b : Bool} (h : l.all (fun x => x.2.big == b) = true) : l.any (fun x => x.2.big != b) = false := by
  rw [List.all_eq_true] at h
  rw [List.any_eq_false]
  intro x hx
  simpa using h x hx

/-! ### MAP (R386, R391, R401, R501) -/

section
variable {s : State} {r p : Nat} {q : BitVec 16}

theorem markStarted_leafOk : (markStarted r q s).leafOk = s.leafOk := rfl

/-- What streams that resume leave of the leaves. -/
theorem resumeLegal_leaves (t : State) : ((resumeLegal p t).part p).space.leaves = (t.part p).space.leaves :=
  (mapView_iff.1 (resumeLegal_mapView t p) p).2.1

theorem modSpace_space (f : Space → Space) (t : State) : ((modSpace p f t).part p).space = f (t.part p).space := by
  rw [modSpace, State.part_modPart_same]

theorem resumeLegal_started_cmds (f : Space → Space) :
    cmdsOf (resumeLegal p (modSpace p f (markStarted r q s))).rings = cmdsOf (markStarted r q s).rings :=
  (resumeLegal_cmds ..).trans (modSpace_cmds ..)
end

section
variable {s : State} {r p : Nat} {q : BitVec 16} {img : BitVec 512}
  (h : admitted ⟨0x300, false, false, true, [(0x18, 0, 52), (0x20, 0, 32), (0x24, 0, 7), (0x28, 0, 41)]⟩ r q p img s = true)
include h

theorem map_field (hf : ((mapCmd img).rangeOk && (mapCmd img).targetOk) = false) : completes (.map r q) s (mapFails s r p q stField) := by
  have hbad : (!(mapCmd img).rangeOk || !(mapCmd img).targetOk) = true := by rw [← Bool.not_and, hf]; rfl
  refine completes_admitted h rfl ?_
  simp only [hbad, if_true]
  exact complete_mapFails h _

/-- The table that MAP leaves. -/
def State.mapped (s : State) (p : Nat) (c : MapCmd) : Space := c.vas.foldl (fun t v => t.put v (some (c.leaf v))) (s.part p).space

variable (hr : (mapCmd img).rangeOk = true) (ht : (mapCmd img).targetOk = true) (hrep : (mapCmd img).replace = false)
include hr ht hrep

theorem map_mapped (hold : s.met p (mapCmd img) ≠ []) : completes (.map r q) s (mapFails s r p q stPageMapped) := by
  have hsome : (s.met p (mapCmd img)).isEmpty = false := by simpa using hold
  rw [State.met, MapCmd.stop] at hsome
  refine completes_admitted h rfl ?_
  simp only [hr, ht, hrep, markStarted_part, hsome, Bool.not_true, Bool.or_self, Bool.false_eq_true, if_false, Bool.false_and, Bool.not_false,
    Bool.and_self, if_true]
  exact complete_mapFails h _

variable (hold : s.met p (mapCmd img) = [])
include hold

theorem map_region (hl : (mapCmd img).vas.all (fun v => s.leafOk p ((mapCmd img).leaf v)) = false) :
    completes (.map r q) s (mapFails s r p q stRegion) := by
  rw [State.met, MapCmd.stop] at hold
  refine completes_admitted h rfl ?_
  simp only [hr, ht, hrep, markStarted_part, hold, markStarted_leafOk, hl, Bool.not_true, Bool.or_self, Bool.false_eq_true, if_false,
    Bool.false_and, Bool.not_false, List.isEmpty_nil, Bool.and_false, if_true]
  exact complete_mapFails h _

variable (hl : (mapCmd img).vas.all (fun v => s.leafOk p ((mapCmd img).leaf v)) = true)
include hl

theorem map_full (hfull : 3 + Config.tableCapacity p < (s.mapped p (mapCmd img)).tables) : completes (.map r q) s (mapFails s r p q stTableFull) := by
  rw [State.met, MapCmd.stop] at hold
  rw [State.mapped] at hfull
  refine completes_admitted h rfl ?_
  simp only [hr, ht, hrep, markStarted_part, hold, markStarted_leafOk, hl, hfull, Bool.not_true, Bool.or_self, Bool.false_eq_true, if_false,
    Bool.false_and, Bool.not_false, List.isEmpty_nil, Bool.and_false, if_true]
  exact complete_mapFails h _

theorem map_maps (hroom : (s.mapped p (mapCmd img)).tables ≤ 3 + Config.tableCapacity p) : completes (.map r q) s (fun t =>
    answered r q stOk (mapCmd img).pages 0 s t ∧ (∀ v ∈ (mapCmd img).vas, t.leafOf p v = some ((mapCmd img).leaf v))
    ∧ leavesKept s p (mapCmd img).vas t) := by
  have hexec : execMap r q s = .next (complete r q stOk (mapCmd img).pages 0
      (resumeLegal p (modSpace p (fun _ => s.mapped p (mapCmd img)) (markStarted r q s)))) := by
    rw [State.met, MapCmd.stop] at hold
    have hroom' := Nat.not_lt.2 hroom
    rw [State.mapped] at hroom'
    unfold execMap
    rw [runCommand_admitted h]
    simp only [hr, ht, hrep, markStarted_part, hold, markStarted_leafOk, hl, hroom', Bool.not_true, Bool.or_self, Bool.false_eq_true, if_false,
      Bool.not_false, List.isEmpty_nil, Bool.and_false, List.any_nil, State.mapped]
  refine ⟨_, hexec, complete_started s _ r q _ _ _ (admitted_find h) (resumeLegal_started_cmds _), ?_⟩
  have hleaves : ((complete r q stOk (mapCmd img).pages 0
        (resumeLegal p (modSpace p (fun _ => s.mapped p (mapCmd img)) (markStarted r q s)))).part p).space.leaves
      = (mapCmd img).vas.foldl (fun m v => kset none m (pageKey v) (some ((mapCmd img).leaf v))) (s.part p).space.leaves := by
    rw [complete_part, resumeLegal_leaves, modSpace_space, State.mapped, putAll_leaves (fun v => v)]
  refine ⟨fun v hv => ?_, ?_⟩
  · obtain ⟨w, hw, hwv, hleaf⟩ := leafOf_of_putAll (key := fun v => v) hleaves hv
    rw [hleaf, MapCmd.va_of_pageKey hw hv hwv]
  · have hkept := leavesKept_of_putAll (key := fun v => v) hleaves
    rwa [List.map_id'] at hkept
end

/-! ### UNMAP (R223, R401, R403) -/

section
variable {s : State} {r p : Nat} {q : BitVec 16} {img : BitVec 512}

/-- A command that waits for its invalidation has changed the table as `f` does. -/
theorem afterInvalidation_waits (c : MapCmd) (n : Nat) (f : Space → Space) :
    nowWaits p r q (.invalidate n) s (afterInvalidation p r q c n (modSpace p f (markStarted r q s)))
    ∧ ((afterInvalidation p r q c n (modSpace p f (markStarted r q s))).part p).space.leaves = (f (s.part p).space).leaves := by
  have hview := mapView_iff.1 (invalidate_mapView (modSpace p f (markStarted r q s)) p c.va (c.va + c.pages * pageBytes c.big)) p
  obtain ⟨hwaiting, hleaves, -⟩ := hview
  refine ⟨addWait_waits s _ p r q _ ((invalidate_cmds ..).trans (modSpace_cmds ..)) (hwaiting.trans ?_), ?_⟩
  · rw [modSpace, State.part_modPart_same]
    rfl
  · rw [afterInvalidation, addWait, State.part_modPart_same]
    exact hleaves.trans (congrArg Space.leaves (modSpace_space ..))

variable (h : admitted ⟨0x301, false, false, true, [(0x18, 0, 52), (0x20, 0, 32), (0x24, 0, 1)]⟩ r q p img s = true)
  (hr : (mapCmd img).rangeOk = true) (hsize : (s.met p (mapCmd img)).all (fun x => x.2.big == (mapCmd img).big) = true)
include h hr hsize

theorem unmap_arena (ha : (s.part p).kv.meetsArena (mapCmd img).va (mapCmd img).stop = true) :
    completes (.unmap r q) s (mapFails s r p q stSeqBusy) := by
  have hsize' := otherSize_none hsize
  rw [State.met, MapCmd.stop] at hsize'
  rw [MapCmd.stop] at ha
  refine completes_admitted h rfl ?_
  simp only [hr, markStarted_part, hsize', ha, Bool.not_true, Bool.false_eq_true, if_false, if_true]
  exact complete_mapFails h _

variable (ha : (s.part p).kv.meetsArena (mapCmd img).va (mapCmd img).stop = false)
include ha

theorem unmap_pinned (hp : (s.met p (mapCmd img)).any (fun x => x.2.pin) = true) : completes (.unmap r q) s (mapFails s r p q stPinned) := by
  have hsize' := otherSize_none hsize
  rw [State.met, MapCmd.stop] at hsize' hp
  rw [MapCmd.stop] at ha
  refine completes_admitted h rfl ?_
  simp only [hr, markStarted_part, hsize', ha, hp, Bool.not_true, Bool.false_eq_true, if_false, if_true]
  exact complete_mapFails h _

theorem unmap_clears (hp : (s.met p (mapCmd img)).any (fun x => x.2.pin) = false) : completes (.unmap r q) s (fun t =>
    nowWaits p r q (.invalidate (s.met p (mapCmd img)).length) s t ∧ (∀ x ∈ s.met p (mapCmd img), t.leafOf p x.1 = none)
    ∧ leavesKept s p ((s.met p (mapCmd img)).map (·.1)) t) := by
  have hexec : execUnmap r q s = .next (afterInvalidation p r q (mapCmd img) (s.met p (mapCmd img)).length
      (modSpace p (fun t => (s.met p (mapCmd img)).foldl (fun t x => t.put x.1 none) t) (markStarted r q s))) := by
    have hsize' := otherSize_none hsize
    rw [State.met, MapCmd.stop] at hsize' hp
    rw [MapCmd.stop] at ha
    unfold execUnmap
    rw [runCommand_admitted h]
    simp only [hr, markStarted_part, hsize', ha, hp, Bool.not_true, Bool.false_eq_true, if_false, State.met, MapCmd.stop]
  obtain ⟨hwaits, hleaves⟩ := afterInvalidation_waits (s := s) (p := p) (r := r) (q := q) (mapCmd img) (s.met p (mapCmd img)).length
    (fun t => (s.met p (mapCmd img)).foldl (fun t x => t.put x.1 none) t)
  rw [putAll_leaves (fun x : Nat × Leaf => x.1) (fun _ => none)] at hleaves
  refine ⟨_, hexec, hwaits, fun x hx => ?_, leavesKept_of_putAll hleaves⟩
  obtain ⟨y, -, -, hleaf⟩ := leafOf_of_putAll hleaves hx
  exact hleaf
end
end Sys2Proof.Machine
end

section
/-! PROOF. PROTECT, MIGRATE, FAULT_ABORT and the commands of the hot list and the table digest (R398, R402, R406, R407): the second part
of O54. -/

namespace Sys2Proof.Machine

/-! ### PROTECT (R223, R391, R401, R403) -/

section
variable {s : State} {r p : Nat} {q : BitVec 16} {img : BitVec 512}
  (h : admitted ⟨0x302, false, false, true, [(0x18, 0, 52), (0x20, 0, 32), (0x24, 0, 4)]⟩ r q p img s = true)
  (hr : (mapCmd img).rangeOk = true) (hsize : (s.met p (mapCmd img)).all (fun x => x.2.big == (mapCmd img).big) = true)
include h hr hsize

theorem protect_arena (ha : (s.part p).kv.meetsArena (mapCmd img).va (mapCmd img).stop = true)
    (hall : ((mapCmd img).pin && (mapCmd img).rd && (mapCmd img).wr) = false) : completes (.protect r q) s (mapFails s r p q stSeqBusy) := by
  have hsize' := otherSize_none hsize
  rw [State.met, MapCmd.stop] at hsize'
  rw [MapCmd.stop] at ha
  refine completes_admitted h rfl ?_
  simp only [hr, markStarted_part, hsize', ha, hall, Bool.not_true, Bool.not_false, Bool.and_self, Bool.false_eq_true, if_false, if_true]
  exact complete_mapFails h _

variable (ha : (s.part p).kv.meetsArena (mapCmd img).va (mapCmd img).stop = false)
include ha

theorem protect_pinned (hp : (s.met p (mapCmd img)).any (fun x => x.2.pin && (mapCmd img).narrows x.2) = true)
    (hlb : s.meetsLb p (mapCmd img).va (mapCmd img).stop = false) : completes (.protect r q) s (mapFails s r p q stPinned) := by
  have hsize' := otherSize_none hsize
  have hlb' : (markStarted r q s).meetsLb p (mapCmd img).va (mapCmd img).stop = false := hlb
  rw [State.met, MapCmd.stop] at hsize' hp
  rw [MapCmd.stop] at ha hlb'
  refine completes_admitted h rfl ?_
  simp only [hr, markStarted_part, hsize', ha, hp, hlb', Bool.not_true, Bool.and_false, Bool.false_and, Bool.false_eq_true, if_false, if_true]
  exact complete_mapFails h _

/-- The leaf that PROTECT writes over one that does not move. -/
def MapCmd.over (c : MapCmd) (l : Leaf) : Leaf := { l with rd := c.rd, wr := c.wr, pin := c.pin }

/-- The table after a PROTECT of pages that do not move. -/
def protectedSpace (s : State) (p : Nat) (c : MapCmd) : Space :=
  { (s.met p c).foldl (fun t x => t.put x.1 (some (c.over x.2))) (s.part p).space with moving := [] }

variable (hp : (s.met p (mapCmd img)).any (fun x => x.2.pin) = false) (hm : (s.part p).space.moving = [])
include hp hm

theorem execProtect_unpinned : execProtect r q s = .next (
    if (s.met p (mapCmd img)).any (fun x => (mapCmd img).narrows x.2) then
      afterInvalidation p r q (mapCmd img) (s.met p (mapCmd img)).length
        (modSpace p (fun _ => protectedSpace s p (mapCmd img)) (markStarted r q s))
    else complete r q stOk (s.met p (mapCmd img)).length 0
      (resumeLegal p (modSpace p (fun _ => protectedSpace s p (mapCmd img)) (markStarted r q s)))) := by
  have hsize' := otherSize_none hsize
  have hnarrow := any_and_false (g := fun x : Nat × Leaf => (mapCmd img).narrows x.2) hp
  have huses := any_and_false (g := fun x : Nat × Leaf => ((markStarted r q s).pinUses p).any (fun u => meets u (x.1, x.1 + x.2.bytes))) hp
  have hover (l : Leaf) : (mapCmd img).protect false l = (mapCmd img).over l := by rw [MapCmd.protect, MapCmd.over, Bool.not_false, Bool.and_true]
  have hmoving (f : Migration → Migration) :
      modSpace p (fun t => { (s.met p (mapCmd img)).foldl (fun t x => t.put x.1 (some ((mapCmd img).over x.2))) t with moving := t.moving.map f })
        (markStarted r q s) = modSpace p (fun _ => protectedSpace s p (mapCmd img)) (markStarted r q s) := by
    rw [modSpace, modSpace, State.modPart, State.modPart, markStarted_part, hm]
    rfl
  rw [State.met, MapCmd.stop] at hsize' hp hnarrow huses
  rw [MapCmd.stop] at ha
  unfold execProtect
  rw [runCommand_admitted h]
  simp only [hr, markStarted_part, hsize', ha, hp, hnarrow, huses, hm, List.any_nil, hover, Bool.not_true, Bool.and_false, Bool.false_and,
    Bool.false_eq_true, if_false]
  simp only [State.met, MapCmd.stop] at hmoving ⊢
  rw [hmoving]
  rfl

/-- Every leaf that the range met has the permissions of the command, and no other leaf differs. -/
def protectsMet (s : State) (p : Nat) (c : MapCmd) (t : State) : Prop :=
  (∀ x ∈ s.met p c, ∃ y ∈ s.met p c, y.1 = x.1 ∧ t.leafOf p x.1 = some (c.over y.2)) ∧ leavesKept s p ((s.met p c).map (·.1)) t

omit h hr hsize ha hp hm in
theorem protectsMet_of_leaves {c : MapCmd} {t : State} (ht : (t.part p).space.leaves = (protectedSpace s p c).leaves) : protectsMet s p c t := by
  have hleaves := ht.trans (putAll_leaves (fun x : Nat × Leaf => x.1) (fun x => some (c.over x.2)) (s.met p c) (s.part p).space)
  refine ⟨fun x hx => ?_, leavesKept_of_putAll hleaves⟩
  obtain ⟨y, hy, hkey, hleaf⟩ := leafOf_of_putAll hleaves hx
  exact ⟨y, hy, by rw [← Space.pageKey_leavesIn hx, ← Space.pageKey_leavesIn hy, hkey], hleaf⟩

theorem protect_widens (hn : (s.met p (mapCmd img)).any (fun x => (mapCmd img).narrows x.2) = false) : completes (.protect r q) s (fun t =>
    answered r q stOk (s.met p (mapCmd img)).length 0 s t ∧ protectsMet s p (mapCmd img) t) := by
  refine ⟨_, execProtect_unpinned h hr hsize ha hp hm, ?_⟩
  rw [hn]
  refine ⟨complete_started s _ r q _ _ _ (admitted_find h) (resumeLegal_started_cmds _), protectsMet_of_leaves ?_⟩
  rw [if_neg Bool.false_ne_true, complete_part, resumeLegal_leaves, modSpace_space]

theorem protect_narrows (hn : (s.met p (mapCmd img)).any (fun x => (mapCmd img).narrows x.2) = true) : completes (.protect r q) s (fun t =>
    nowWaits p r q (.invalidate (s.met p (mapCmd img)).length) s t ∧ protectsMet s p (mapCmd img) t) := by
  refine ⟨_, execProtect_unpinned h hr hsize ha hp hm, ?_⟩
  rw [hn, if_pos rfl]
  obtain ⟨hwaits, hleaves⟩ := afterInvalidation_waits (s := s) (p := p) (r := r) (q := q) (mapCmd img) (s.met p (mapCmd img)).length
    (fun _ => protectedSpace s p (mapCmd img))
  exact ⟨hwaits, protectsMet_of_leaves hleaves⟩
end

/-! ### MIGRATE (R401, R407) -/

/-- The one page that a MIGRATE names. -/
def migrateCmd (img : BitVec 512) : MapCmd := { mapCmd img with pages := 1 }

section
variable {s : State} {r p : Nat} {q : BitVec 16} {img : BitVec 512}
  (h : admitted ⟨0x303, false, false, true, [(0x18, 0, 52), (0x24, 0, 1), (0x24, 5, 2), (0x28, 0, 41)]⟩ r q p img s = true)
  (hr : (migrateCmd img).rangeOk = true) (ht : (migrateCmd img).targetOk = true)
include h hr ht

theorem migrate_unmapped (hl : s.leafOf p (mapCmd img).va = none) (hok : s.leafOk p ((migrateCmd img).leaf (mapCmd img).va) = true) :
    completes (.migrate r q) s (mapFails s r p q stNotMapped) := by
  rw [migrateCmd] at hr ht hok
  rw [State.leafOf] at hl
  refine completes_admitted h rfl ?_
  simp only [hr, ht, markStarted_part, hl, markStarted_leafOk, hok, Bool.not_true, Bool.or_self, Bool.false_eq_true, if_false]
  exact complete_mapFails h _

variable {l : Leaf} (hl : s.leafOf p (mapCmd img).va = some l) (hb : l.big = (mapCmd img).big)
include hl hb

theorem migrate_pinned (hp : l.pin = true) : completes (.migrate r q) s (mapFails s r p q stPinned) := by
  rw [migrateCmd] at hr ht
  rw [State.leafOf] at hl
  refine completes_admitted h rfl ?_
  simp only [hr, ht, markStarted_part, hl, hb, if_true, hp, Bool.not_true, Bool.or_self, Bool.false_eq_true, if_false]
  exact complete_mapFails h _

variable (hp : l.pin = false)
include hp

theorem migrate_region (hok : s.leafOk p ((migrateCmd img).leaf (mapCmd img).va) = false) :
    completes (.migrate r q) s (mapFails s r p q stRegion) := by
  rw [migrateCmd] at hr ht hok
  rw [State.leafOf] at hl
  refine completes_admitted h rfl ?_
  simp only [hr, ht, markStarted_part, hl, hb, if_true, hp, markStarted_leafOk, hok, Bool.not_true, Bool.not_false, Bool.or_self,
    Bool.false_eq_true, if_false]
  exact complete_mapFails h _

/-- The leaf that a migration will write, with the permissions of the page. -/
def migrateTarget (img : BitVec 512) (l : Leaf) : Leaf :=
  { (migrateCmd img).leaf (mapCmd img).va with rd := l.rd, wr := l.wr, pin := l.pin }

/-- A page's writes held, and the page among those that move. -/
def movedSpace (img : BitVec 512) (l : Leaf) (t : Space) : Space :=
  { t.put (mapCmd img).va (some { l with wr := false }) with moving := t.moving ++ [⟨(mapCmd img).va, migrateTarget img l⟩] }

theorem migrate_moves (hok : s.leafOk p ((migrateCmd img).leaf (mapCmd img).va) = true)
    (hm : (s.part p).space.moving.any (fun x => decide (x.va = (mapCmd img).va)) = false) : completes (.migrate r q) s (fun t =>
      nowWaits p r q (.migrate (mapCmd img).va) s t ∧ t.leafOf p (mapCmd img).va = some { l with wr := false }
      ∧ leavesKept s p [(mapCmd img).va] t
      ∧ (t.part p).space.moving = (s.part p).space.moving ++ [⟨(mapCmd img).va, migrateTarget img l⟩]) := by
  have hexec : execMigrate r q s = .next (addWait p r q (.migrate (mapCmd img).va)
      (invalidate p (mapCmd img).va ((mapCmd img).va + pageBytes (mapCmd img).big) (modSpace p (movedSpace img l) (markStarted r q s)))) := by
    rw [migrateCmd] at hr ht hok
    rw [State.leafOf] at hl
    unfold execMigrate
    rw [runCommand_admitted h]
    simp only [hr, ht, markStarted_part, hl, hb, if_true, hp, markStarted_leafOk, hok, hm, Bool.not_true, Bool.or_self, Bool.false_eq_true,
      if_false]
    unfold movedSpace migrateTarget migrateCmd
    simp only [hb, hp]
  refine ⟨_, hexec, ?_⟩
  obtain ⟨hwaiting, hleaves, hmoving⟩ := mapView_iff.1 (invalidate_mapView (modSpace p (movedSpace img l) (markStarted r q s)) p (mapCmd img).va
    ((mapCmd img).va + pageBytes (mapCmd img).big)) p
  rw [modSpace_space] at hleaves hmoving
  have hset (n : Nat) : kget none (movedSpace img l (s.part p).space).leaves n
      = kget none (kset none (s.part p).space.leaves (pageKey (mapCmd img).va) (some { l with wr := false })) n := rfl
  refine ⟨addWait_waits s _ p r q _ ((invalidate_cmds ..).trans (modSpace_cmds ..)) (hwaiting.trans ?_), ?_, fun n hn => ?_, ?_⟩
  · rw [modSpace, State.part_modPart_same]
    rfl
  · rw [State.leafOf, addWait, State.part_modPart_same]
    dsimp only
    rw [hleaves, markStarted_part, hset, kget_kset_same]
  · have hne : n ≠ pageKey (mapCmd img).va := fun e => hn (e ▸ List.mem_singleton_self _)
    rw [addWait, State.part_modPart_same]
    dsimp only
    rw [hleaves, markStarted_part, hset, kget_kset_other _ _ _ _ hne]
  · rw [addWait, State.part_modPart_same]
    dsimp only
    rw [hmoving, markStarted_part]
    rfl
end

/-! ### FAULT_ABORT (R398) -/

section
variable {i : Nat}

/-- Stream `i` is not suspended, and none of its faults is queued. -/
def State.faultless (s : State) (i : Nat) : Prop := (s.stream i).suspended = none ∧ ∀ e ∈ s.faults.entries, e.stream ≠ i

theorem resumeStream_faultless (s : State) : (resumeStream i s).faultless i := by
  refine ⟨?_, fun e he => ?_⟩
  · rw [resumeStream, State.stream_modStream_same]
  · have hkept : e ∈ s.faults.entries.filter (fun e => !decide (e.stream = i)) := he
    simpa using (List.mem_filter.1 hkept).2

theorem fqCount_streams (n : Nat) (s : State) : (fqCount n s).streams = s.streams :=
  same_of_mask (fqCount_mask (w := 0x700410#38) (by decide) n s) .streams (by decide)

theorem fqCount_entries (n : Nat) (s : State) : (fqCount n s).faults.entries = s.faults.entries := by
  have hall (t : State) : (satAll (0x600400 + 4 * n) t).faults = t.faults :=
    same_of_mask (satAll_mask (w := 0x700010#38) (by decide) _ t) .faults (by decide)
  unfold fqCount
  exact view_ite_eq (F := fun t => t.faults.entries) ((congrArg FaultQueue.entries (hall _)).trans rfl) rfl

/-- What another stream's resumption leaves of stream `i`. -/
theorem resumeStream_keeps_faultless {j : Nat} (hj : j ≠ i) {s : State} (h : s.faultless i) : (resumeStream j s).faultless i := by
  refine ⟨?_, fun e he => ?_⟩
  · rw [resumeStream, State.stream_modStream_other _ _ _ hj.symm]
    exact h.1
  · have hkept : e ∈ s.faults.entries.filter (fun e => !decide (e.stream = j)) := he
    exact h.2 e (List.mem_filter.1 hkept).1

/-- What another stream's fault leaves of stream `i`. -/
theorem enqueueFault_keeps_faultless {j : Nat} (hj : j ≠ i) {s : State} (h : s.faultless i) : (enqueueFault j s).faultless i := by
  obtain ⟨hnone, hentries⟩ := h
  unfold enqueueFault
  dsimp only
  split
  · exact ⟨hnone, hentries⟩
  · refine ⟨?_, fun e he => ?_⟩
    · rw [stream_of_streams (fqCount_streams ..)]
      exact (congrArg Stream.suspended (State.stream_setStream_other s _ _ hj.symm)).trans hnone
    · rw [fqCount_entries] at he
      rcases List.mem_append.1 he with he | he
      · exact hentries e he
      · rw [List.mem_singleton.1 he]
        exact hj

theorem retryParked_keeps_faultless {l : List Nat} (hl : i ∉ l) {s : State} (h : s.faultless i) : (retryParked l s).faultless i := by
  induction l generalizing s with
  | nil => exact h
  | cons j more ih =>
    have hj : j ≠ i := fun e => hl (e ▸ List.mem_cons_self)
    have hmore : i ∉ more := fun hi => hl (List.mem_cons_of_mem _ hi)
    rw [retryParked]
    split
    · exact h
    · refine ih hmore ?_
      split
      · exact resumeStream_keeps_faultless hj h
      · exact enqueueFault_keeps_faultless hj h

/-- A stream that is resumed stays so while the parked streams try again. -/
theorem unpark_resumeStream_faultless (s : State) : (unpark (resumeStream i s)).faultless i := by
  refine retryParked_keeps_faultless (fun hi => ?_) (resumeStream_faultless s)
  have hkept : i ∈ s.faults.parking.filter (fun k => !decide (k = i)) := hi
  simpa using (List.mem_filter.1 hkept).2
end

/-- The Figure that is asked to abort aborts. -/
theorem askAbort_aborts {s : State} {p id : Nat} {a : RunFig} (c : AbortCause) (ha : (s.part p).active id = some a) :
    ∃ b, ((askAbort p id c s).part p).active id = some b ∧ b.aborting.isSome = true := by
  refine ⟨_, modActive_active _ (fun x => ?_) ha, ?_⟩
  · split <;> rfl
  · split
    · rfl
    · simpa [Option.isSome_iff_ne_none] using ‹¬ a.aborting.isNone = true›

section
variable {s : State} {r p : Nat} {q : BitVec 16} {img : BitVec 512}
  (h : admitted ⟨0x304, false, false, true, [(0x18, 0, 10), (0x1C, 0, 24)]⟩ r q p img s = true)
include h

/-- The stream that a FAULT_ABORT names is suspended for its Figure. -/
def abortHits (s : State) (p : Nat) (img : BitVec 512) : Bool :=
  let m := s.stream (arg img 0x18 0 10)
  m.bound && decide (m.part = p) && decide (m.fig = arg img 0x1C 0 24) && m.suspended.isSome

omit h in
theorem abortHits_not : (!(s.stream (arg img 0x18 0 10)).bound || decide ((s.stream (arg img 0x18 0 10)).part ≠ p)
    || decide ((s.stream (arg img 0x18 0 10)).fig ≠ arg img 0x1C 0 24) || (s.stream (arg img 0x18 0 10)).suspended.isNone)
    = !abortHits s p img := by
  simp only [abortHits, Bool.not_and, decide_not, Option.not_isSome]

theorem faultAbort_misses (hh : abortHits s p img = false) : completes (.faultAbort r q) s (mapFails s r p q stNotSuspended) := by
  have hstream : (markStarted r q s).stream = s.stream := rfl
  refine completes_admitted h rfl ?_
  simp only [hstream, abortHits_not, hh, Bool.not_false, if_true]
  exact complete_mapFails h _

/-- The block with the named stream's fault withdrawn and its Figure asked to abort. -/
def faultAborted (p i fig : Nat) (s : State) : State :=
  postEvent p 0x02 (payloadOf fig 0 i) (askAbort p fig .faultAbort (unpark (resumeStream i s)))

omit h in
theorem faultAborted_faultless (p i fig : Nat) (s : State) : (faultAborted p i fig s).faultless i := by
  have hkept (t : State) : (postEvent p 0x02 (payloadOf fig 0 i) (askAbort p fig .faultAbort t)).mask 0x700010#38 = t.mask 0x700010#38 :=
    (postEvent_mask (by decide) ..).trans (askAbort_mask (by decide) ..)
  obtain ⟨hnone, hentries⟩ := unpark_resumeStream_faultless (i := i) s
  refine ⟨?_, ?_⟩
  · rw [faultAborted, stream_of_streams (same_of_mask (hkept _) .streams (by decide)), hnone]
  · rw [faultAborted, (same_of_mask (hkept _) .faults (by decide) : State.faults _ = _)]
    exact hentries

omit h in
theorem faultAborted_aborts (p i : Nat) {fig : Nat} (s : State) {a : RunFig} (ha : (s.part p).active fig = some a) :
    ∃ b, ((faultAborted p i fig s).part p).active fig = some b ∧ b.aborting.isSome = true := by
  have hkept : (unpark (resumeStream i s)).uncounted = s.uncounted := (retryParked_uncounted ..).trans (resumeStream_uncounted ..)
  have hactive : ((unpark (resumeStream i s)).part p).active fig = some a :=
    (congrArg (Part.active · fig) (bare_of_uncounted hkept p) :).trans ha
  obtain ⟨b, hb, habort⟩ := askAbort_aborts .faultAbort hactive
  exact ⟨b, by rw [faultAborted, part_of_parts (postEvent_parts ..), hb], habort⟩

theorem faultAbort_aborts (hh : abortHits s p img = true) : completes (.faultAbort r q) s (fun t => answered r q stOk 0 0 s t
    ∧ (t.stream (arg img 0x18 0 10)).suspended = none ∧ (∀ e ∈ t.faults.entries, e.stream ≠ arg img 0x18 0 10)
    ∧ ∀ a, (s.part p).active (s.stream (arg img 0x18 0 10)).fig = some a →
      ∃ b, (t.part p).active (s.stream (arg img 0x18 0 10)).fig = some b ∧ b.aborting.isSome = true) := by
  have hexec : execFaultAbort r q s
      = .next (complete r q stOk 0 0 (faultAborted p (arg img 0x18 0 10) (arg img 0x1C 0 24) (markStarted r q s))) := by
    have hstream : (markStarted r q s).stream = s.stream := rfl
    unfold execFaultAbort
    rw [runCommand_admitted h]
    simp only [hstream, abortHits_not, hh, Bool.not_true, Bool.false_eq_true, if_false, faultAborted]
  have hfig : (s.stream (arg img 0x18 0 10)).fig = arg img 0x1C 0 24 := by
    simp only [abortHits, Bool.and_eq_true, decide_eq_true_eq] at hh
    exact hh.1.2
  obtain ⟨hsuspended, hentries⟩ := faultAborted_faultless p (arg img 0x18 0 10) (arg img 0x1C 0 24) (markStarted r q s)
  have hcmds : cmdsOf (faultAborted p (arg img 0x18 0 10) (arg img 0x1C 0 24) (markStarted r q s)).rings = cmdsOf (markStarted r q s).rings := by
    rw [faultAborted, postEvent_cmds, askAbort_cmds, unpark_cmds, resumeStream_cmds]
  refine ⟨_, hexec, complete_started s _ r q _ _ _ (admitted_find h) hcmds, ?_, ?_, fun a ha => ?_⟩
  · rw [stream_of_streams (same_of_mask (complete_mask (w := 0x300000#38) (by decide) ..) .streams (by decide)), hsuspended]
  · rw [(same_of_mask (complete_mask (w := 0x300000#38) (by decide) ..) .faults (by decide) : State.faults _ = _)]
    exact hentries
  · rw [hfig] at ha ⊢
    rw [complete_part]
    exact faultAborted_aborts p (arg img 0x18 0 10) (markStarted r q s) ha
end

/-! ### The hot list and the table digest (R402, R406) -/

section
variable {s : State} {r p : Nat} {q : BitVec 16} {img : BitVec 512}

theorem space_of_uncounted {t : State} (h : t.uncounted = s.uncounted) (p : Nat) : (t.part p).space = (s.part p).space :=
  (congrArg Part.space (bare_of_uncounted h p) :)

theorem hotRead_reads (h : admitted ⟨0x305, false, false, true, []⟩ r q p img s = true) : completes (.hotRead r q) s (fun t =>
    givesResult s r q img ((if resultVa img = 0 then 0 else min (s.part p).space.hot.length (resultLen img / 16))
        + (s.part p).space.hotDropped % 2 ^ 32 * 2 ^ 32)
      ((s.part p).space.hot.flatMap (fun h => leBytes 8 (h.1 * 2 ^ 25) ++ leBytes 4 h.2.1 ++ leBytes 4 h.2.2)) t
    ∧ (t.part p).space = { (s.part p).space with hot := [], hotDropped := 0 }) := by
  refine completes_admitted h rfl ⟨completeWith_started s _ p r q img _ _ (admitted_find h) (modSpace_cmds ..), ?_⟩
  rw [space_of_uncounted (completeWith_uncounted ..), modSpace_space]
  rfl

theorem hotSet_sets (h : admitted ⟨0x306, false, false, true, [(0x18, 0, 32), (0x1C, 0, 1)]⟩ r q p img s = true) :
    completes (.hotSet r q) s (fun t => answered r q stOk 0 0 s t
      ∧ (t.part p).space = { (s.part p).space with hotThreshold := arg img 0x18 0 32, hotFarOnly := arg img 0x1C 0 1 == 1 }) := by
  refine completes_admitted h rfl ⟨complete_started s _ r q _ _ _ (admitted_find h) (modSpace_cmds ..), ?_⟩
  rw [complete_part, modSpace_space]
  rfl

theorem tableDigest_gives (h : admitted ⟨0x307, false, false, true, []⟩ r q p img s = true) : completes (.tableDigest r q) s (fun t =>
    answered r q stOk ((crc32 (((s.part p).space.leavesIn 0 (2 ^ 52)).flatMap (fun x => leBytes 8 x.1 ++ leBytes 8 x.2.entry))).toNat
      + ((s.part p).space.leavesIn 0 (2 ^ 52)).length * 2 ^ 32) 0 s t ∧ (t.part p).space = (s.part p).space) :=
  completes_admitted h rfl ⟨complete_started s _ r q _ _ _ (admitted_find h) rfl, by rw [complete_part]; rfl⟩
end

/-- Settles O54: each mapping command that the interface admits answers, or waits, as its conditions in turn decide, and leaves the leaves
that it names (`kget_records`, `mapView`). -/
theorem mappingCommands : Obligations.MappingCommands := by
  unfold Obligations.MappingCommands
  intro s r p q img ok space fails c b old leafAfter kept
  exact ⟨fun h => ⟨map_field h, fun hr ht hrep => ⟨map_mapped h hr ht hrep, fun hold hl => map_region h hr ht hrep hold hl,
      fun hold hl => ⟨map_maps h hr ht hrep hold hl, map_full h hr ht hrep hold hl⟩⟩⟩,
    fun h hr hsize => ⟨unmap_arena h hr hsize, fun ha hp => unmap_pinned h hr hsize ha hp, fun ha hp => unmap_clears h hr hsize ha hp⟩,
    fun h hr hsize => ⟨protect_arena h hr hsize, fun ha hp hlb => protect_pinned h hr hsize ha hp hlb,
      fun ha hp hm => ⟨protect_widens h hr hsize ha hp hm, protect_narrows h hr hsize ha hp hm⟩⟩,
    fun h hr ht => ⟨migrate_unmapped h hr ht, fun l hl hb => ⟨migrate_pinned h hr ht hl hb,
      fun hp hok => migrate_region h hr ht hl hb hp hok, fun hp hok hm => migrate_moves h hr ht hl hb hp hok hm⟩⟩,
    fun h => ⟨faultAbort_misses h, faultAbort_aborts h⟩, hotRead_reads, hotSet_sets, tableDigest_gives⟩
end Sys2Proof.Machine
end

section
/-! PROOF. Translation: what a line's access changes of the streams, the uTLBs and the STBs (R379 to R391, R406), and a stream's line
accesses: O29. -/

namespace Sys2Proof.Machine

/-! ### Places of lines -/

section
variable {s t : State}

/-- Places of lines depend on the configuration, the regions and the channels alone (R343 to R345). -/
theorem locOf_congr (hc : t.cfg = s.cfg) (hr : t.regions = s.regions) (hch : t.channels = s.channels) : t.locOf = s.locOf := by
  cases s; cases t; cases hc; cases hr; cases hch; rfl

theorem leafOk_congr (hc : t.cfg = s.cfg) (hr : t.regions = s.regions) (hch : t.channels = s.channels) : t.leafOk = s.leafOk := by
  cases s; cases t; cases hc; cases hr; cases hch; rfl

theorem locOf_of_mask (h : t.mask 0x1fffffcffb#38 = s.mask 0x1fffffcffb#38) : t.locOf = s.locOf :=
  locOf_congr (same_of_mask h .cfg (by decide)) (same_of_mask h .regions (by decide)) (same_of_mask h .channels (by decide))

theorem leafOk_of_mask (h : t.mask 0x1fffffcffb#38 = s.mask 0x1fffffcffb#38) : t.leafOk = s.leafOk :=
  leafOk_congr (same_of_mask h .cfg (by decide)) (same_of_mask h .regions (by decide)) (same_of_mask h .channels (by decide))
end

/-! ### The uTLBs and the STBs -/

section
variable (s : State) (c g : Nat)

theorem utlb_setUtlb_same (v : List TlbEntry) : (s.setUtlb c g v).utlb c g = v := kget_kset_same ..

theorem fillUtlb_head (p base : Nat) (l : Leaf) : ((fillUtlb c g p base l s).utlb c g).head? = some (entryOf p base l) := by
  rw [fillUtlb, utlb_setUtlb_same]
  rfl

theorem keepWays_head (e : TlbEntry) (n : Nat) (l : List TlbEntry) : (keepWays e.index (n + 1) (e :: l)).1.head? = some e := by
  rw [keepWays, if_pos rfl]
  rfl

theorem dropEntries_sets (es : List TlbEntry) (t : State) : (dropEntries es t).sets = t.sets :=
  same_of_mask (dropEntries_mask (w := 0x10#38) (by decide) es t) .sets (by decide)

theorem fillStb_head (k p base : Nat) (l : Leaf) : ((fillStb k p base l s).unit k).stb.head? = some (entryOf p base l) := by
  unfold fillStb
  dsimp only
  rw [unit_of_sets (dropEntries_sets ..), State.unit_setUnit_same]
  exact keepWays_head ..

/-- Counted accesses leave what an entry translates (R406). -/
theorem countAccess_head (k k' p va : Nat) : ((countAccess k p va s).unit k').stb.head?.map (fun e => (e.part, e.page, e.leaf))
    = (s.unit k').stb.head?.map (fun e => (e.part, e.page, e.leaf)) := by
  by_cases hk : k' = k
  · subst hk
    rw [countAccess, State.unit_modUnit_same]
    cases (s.unit k').stb with
    | nil => rfl
    | cons e es =>
      rw [List.map_cons, List.head?_cons, Option.map_some, List.head?_cons, Option.map_some]
      split <;> rfl
  · rw [countAccess, State.unit_modUnit_other _ _ _ hk]

theorem trCount_utlbMiss (k : Nat) : ((trCount k 0 s).unit k).utlbMiss = min (2 ^ 32 - 1) ((s.unit k).utlbMiss + 1) := by
  simp only [trCount, ite_satOwned_unit, State.unit_setUnit_same]
  exact satAdd_fst 32 _ 1

theorem trCount_stbMiss (k : Nat) : ((trCount k 2 s).unit k).stbMiss = min (2 ^ 32 - 1) ((s.unit k).stbMiss + 1) := by
  simp only [trCount, ite_satOwned_unit, State.unit_setUnit_same]
  exact satAdd_fst 32 _ 1

theorem fqCount_viol : (fqCount 2 s).faults.viol = min (2 ^ 16 - 1) (s.faults.viol + 1) := by
  have hall (t : State) : (satAll (0x600400 + 4 * 2) t).faults = t.faults :=
    same_of_mask (satAll_mask (w := 0x700010#38) (by decide) _ t) .faults (by decide)
  have hadd : (satAdd 16 s.faults.viol 1).1 = min (2 ^ 16 - 1) (s.faults.viol + 1) := satAdd_fst ..
  unfold fqCount
  exact view_ite_eq (F := fun t => t.faults.viol) ((congrArg FaultQueue.viol (hall _)).trans hadd) hadd
end

/-! ### Performing an access (R387, R406) -/

section
variable {s : State} {i j base : Nat} {l : Leaf} {x : LineReq} (hx : (s.stream i).lines[j]? = some x)
include hx

/-- A read whose leaf places in HBM waits for its channel. -/
theorem performLine_hbm (hw : x.write = false) {ch ca : Nat} (hl : s.locOf base l x.va = some (.hbm ch ca)) :
    performLine i j base l s
      = setLine i j { x with place := some (false, ch, ca), data := none } (countAccess ((s.stream i).core / 4) (s.stream i).part x.va s) := by
  rw [performLine]
  simp only [hx, hl]
  unfold issueAt
  simp only [hw, Bool.false_and, Bool.false_eq_true, if_false]

/-- An access whose leaf places nowhere violates. -/
theorem performLine_nowhere (hl : s.locOf base l x.va = none) :
    performLine i j base l s = violate i j x (countAccess ((s.stream i).core / 4) (s.stream i).part x.va s) := by
  rw [performLine]
  simp only [hx, hl]
end

section
variable (s : State) (i j : Nat) (x : LineReq)

theorem setLine_same : (setLine i j x s).stream i = { s.stream i with lines := (s.stream i).lines.set j x } := State.stream_modStream_same ..

theorem setLine_other {k : Nat} (hk : k ≠ i) : (setLine i j x s).stream k = s.stream k := State.stream_modStream_other _ _ _ hk

/-- A read that is not performed delivers zeros and poisons its tile; the violation is counted. -/
theorem violate_read (hw : x.write = false) : (violate i j x s).stream i
      = { s.stream i with lines := (s.stream i).lines.set j { x with data := some (List.replicate x.bytes 0), poisoned := true }, poisoned := true }
    ∧ (violate i j x s).faults.viol = min (2 ^ 16 - 1) (s.faults.viol + 1) := by
  have hkept (p fig payload : Nat) (t : State) : (askAbort p fig .regionViolation (postEvent p 0x60 payload t)).mask 0x700010#38
      = t.mask 0x700010#38 := (askAbort_mask (by decide) ..).trans (postEvent_mask (by decide) ..)
  unfold violate
  simp only [hw, Bool.false_eq_true, if_false]
  refine ⟨?_, ?_⟩
  · rw [stream_of_streams (same_of_mask (hkept ..) .streams (by decide)), stream_of_streams (fqCount_streams ..), setLine_same,
      State.stream_modStream_same]
  · rw [(same_of_mask (hkept ..) .faults (by decide) : State.faults _ = _), fqCount_viol]
    rfl
end
/-! ### A stream's line access (R379, R387 to R390) -/

/-- The item of stream `i` may make an access of `n` bytes at `va` in tile `tile`. -/
structure AccessStarts (s : State) (i va n tile scByte : Nat) (write : Bool) : Prop where
  issues  : s.mayIssue i = true
  may     : kindMay (s.stream i).kind write = true
  walks   : kindTranslated (s.stream i).kind = true
  ordered : ∀ y ∈ (s.stream i).lines, y.untranslated = false ∧ y.tile ≤ tile
  room    : s.engineLines (s.stream i).core (s.stream i).engine < 512
  some    : 0 < n
  inLine  : va % 64 + n ≤ 64
  ok      : s.accessOk (s.stream i) va n write = true
  gathers : s.gathers (s.stream i) va scByte = true
  opened  : write = true → s.storesOpen (s.stream i) = true

/-- The line of stream `i` queued, and the index of a gathering stream read. -/
def lineQueued (i : Nat) (x : LineReq) (s : State) : State :=
  readIndex (s.stream i) x.scByte (s.setStream i { s.stream i with lines := (s.stream i).lines ++ [x] })

section
variable {s : State} {i : Nat} {x : LineReq}

theorem lineQueued_mask : (lineQueued i x s).mask 0x700130#38 = s.mask 0x700130#38 :=
  (readIndex_mask (by decide) ..).trans (State.setStream_mask (by decide) ..)

theorem lineQueued_same : (lineQueued i x s).stream i = { s.stream i with lines := (s.stream i).lines ++ [x] } := by
  rw [lineQueued, stream_of_streams (same_of_mask (readIndex_mask (w := 0x700030#38) (by decide) ..) .streams (by decide)),
    State.stream_setStream_same]

theorem lineQueued_other {k : Nat} (hk : k ≠ i) : (lineQueued i x s).stream k = s.stream k := by
  rw [lineQueued, stream_of_streams (same_of_mask (readIndex_mask (w := 0x700030#38) (by decide) ..) .streams (by decide)),
    State.stream_setStream_other _ _ _ hk]
end

section
variable {s : State} {i : Nat} {va : VA} {bytes tile spmByte scByte : Nat} {write : Bool}

/-- The request of an access that waits for its translation. -/
def requestAt (va bytes tile spmByte scByte : Nat) (write : Bool) : LineReq := ⟨va, bytes, write, tile, spmByte, scByte, none, none, false⟩

/-- The entry of the engine's uTLB that the access hits. -/
def State.utlbHit (s : State) (i va : Nat) (write : Bool) : Option TlbEntry :=
  (s.utlb (s.stream i).core (s.stream i).engine).find? (fun e => e.holds (s.stream i).part va && e.leaf.permits write)

variable (h : AccessStarts s i va.toNat bytes tile scByte write)
include h

theorem AccessStarts.passes : (!s.mayIssue i || !kindMay (s.stream i).kind write || !s.accessOk (s.stream i) va.toNat bytes write
    || !s.gathers (s.stream i) va.toNat scByte || (write && !s.storesOpen (s.stream i))
    || (s.stream i).lines.any (fun y => y.untranslated || decide (tile < y.tile))
    || decide (512 ≤ s.engineLines (s.stream i).core (s.stream i).engine) || decide (bytes = 0) || decide (64 < va.toNat % 64 + bytes)) = false := by
  have hopen : (write && !s.storesOpen (s.stream i)) = false := by
    cases hw : write with
    | false => rfl
    | true => rw [h.opened hw]; rfl
  have hlines : (s.stream i).lines.any (fun y => y.untranslated || decide (tile < y.tile)) = false := by
    rw [List.any_eq_false]
    intro y hy
    obtain ⟨hsent, htile⟩ := h.ordered y hy
    simp [hsent, htile]
  simp [h.issues, h.may, h.ok, h.gathers, hopen, hlines, h.room, h.some.ne', h.inLine]

theorem execStreamAccess_misses (hhit : s.utlbHit i va.toNat write = none) : execStreamAccess i va bytes write tile spmByte scByte s
    = .next (trCount ((s.stream i).core / 4) 0 (lineQueued i (requestAt va.toNat bytes tile spmByte scByte write) s)) := by
  rw [State.utlbHit] at hhit
  rw [execStreamAccess]
  simp only [h.passes, Bool.false_eq_true, if_false, h.walks, if_true]
  rw [hhit]
  rfl

theorem execStreamAccess_hits {e : TlbEntry} (hhit : s.utlbHit i va.toNat write = some e) :
    execStreamAccess i va bytes write tile spmByte scByte s = .next (performLine i (s.stream i).lines.length e.base e.leaf
      ((lineQueued i (requestAt va.toNat bytes tile spmByte scByte write) s).setUtlb (s.stream i).core (s.stream i).engine
        (e :: (s.utlb (s.stream i).core (s.stream i).engine).erase e))) := by
  rw [State.utlbHit] at hhit
  rw [execStreamAccess]
  simp only [h.passes, Bool.false_eq_true, if_false, h.walks, if_true]
  rw [hhit]
  rfl
end

section
variable {s : State} {i : Nat} {va : VA} {bytes tile spmByte scByte : Nat}

/-- The last of a list replaced. -/
theorem set_length_append {α : Type} (l : List α) (a b : α) : (l ++ [a]).set l.length b = l ++ [b] := by
  rw [List.set_append_right _ _ (Nat.le_refl _), Nat.sub_self]
  rfl

theorem streamAccess_misses {write : Bool} (h : AccessStarts s i va.toNat bytes tile scByte write) (hhit : s.utlbHit i va.toNat write = none) :
    completes (.streamAccess i va bytes write tile spmByte scByte) s (fun t =>
      t.stream i = { s.stream i with lines := (s.stream i).lines ++ [requestAt va.toNat bytes tile spmByte scByte write] }
      ∧ (∀ k, k ≠ i → t.stream k = s.stream k)
      ∧ (t.unit ((s.stream i).core / 4)).utlbMiss = min (2 ^ 32 - 1) ((s.unit ((s.stream i).core / 4)).utlbMiss + 1)) := by
  refine ⟨_, execStreamAccess_misses h hhit, ?_, fun k hk => ?_, ?_⟩
  · rw [stream_of_streams (same_of_mask (trCount_mask (w := 0x700050#38) (by decide) ..) .streams (by decide)), lineQueued_same]
  · rw [stream_of_streams (same_of_mask (trCount_mask (w := 0x700050#38) (by decide) ..) .streams (by decide)), lineQueued_other hk]
  · rw [trCount_utlbMiss, unit_of_sets (same_of_mask lineQueued_mask .sets (by decide))]

variable (h : AccessStarts s i va.toNat bytes tile scByte false) {e : TlbEntry} (hhit : s.utlbHit i va.toNat false = some e)
include h hhit

/-- The block with the line queued and its entry the most recently used. -/
def hitUsed (i : Nat) (x : LineReq) (e : TlbEntry) (s : State) : State :=
  (lineQueued i x s).setUtlb (s.stream i).core (s.stream i).engine (e :: (s.utlb (s.stream i).core (s.stream i).engine).erase e)

omit h hhit in
theorem hitUsed_last (x : LineReq) : ((hitUsed i x e s).stream i).lines[(s.stream i).lines.length]? = some x := by
  rw [hitUsed, State.stream_setUtlb, lineQueued_same]
  exact List.getElem?_concat_length

omit h hhit in
theorem hitUsed_locOf (x : LineReq) : (hitUsed i x e s).locOf = s.locOf :=
  locOf_of_mask ((mask_mono (State.setUtlb_mask (w := 0x200#38) (by decide) ..) (by decide)).trans (mask_mono lineQueued_mask (by decide)))

theorem streamAccess_reads {ch ca : Nat} (hl : s.locOf e.base e.leaf va.toNat = some (.hbm ch ca)) :
    completes (.streamAccess i va bytes false tile spmByte scByte) s (fun t =>
      t.stream i = { s.stream i with lines := (s.stream i).lines
        ++ [{ requestAt va.toNat bytes tile spmByte scByte false with place := some (false, ch, ca) }] }
      ∧ (∀ k, k ≠ i → t.stream k = s.stream k) ∧ (t.utlb (s.stream i).core (s.stream i).engine).head? = some e) := by
  have hperform := performLine_hbm (base := e.base) (l := e.leaf) (hitUsed_last (s := s) (i := i) (e := e)
    (requestAt va.toNat bytes tile spmByte scByte false)) rfl (by rw [hitUsed_locOf]; exact hl)
  refine ⟨_, (execStreamAccess_hits h hhit).trans (congrArg Host.Outcome.next hperform), ?_, fun k hk => ?_, ?_⟩
  · rw [setLine_same, countAccess, State.stream_modUnit, hitUsed, State.stream_setUtlb, lineQueued_same]
    dsimp only
    rw [set_length_append]
    rfl
  · rw [setLine_other _ _ _ _ hk]
    exact lineQueued_other hk
  · have hutlb := utlb_setUtlb_same (lineQueued i (requestAt va.toNat bytes tile spmByte scByte false) s) (s.stream i).core (s.stream i).engine
      (e :: (s.utlb (s.stream i).core (s.stream i).engine).erase e)
    exact (congrArg List.head? hutlb).trans rfl

theorem streamAccess_nowhere (hl : s.locOf e.base e.leaf va.toNat = none) :
    completes (.streamAccess i va bytes false tile spmByte scByte) s (fun t =>
      t.stream i = { s.stream i with
        lines := (s.stream i).lines
          ++ [{ requestAt va.toNat bytes tile spmByte scByte false with data := some (List.replicate bytes 0), poisoned := true }]
        poisoned := true }
      ∧ t.faults.viol = min (2 ^ 16 - 1) (s.faults.viol + 1)) := by
  have hperform := performLine_nowhere (base := e.base) (l := e.leaf) (hitUsed_last (s := s) (i := i) (e := e)
    (requestAt va.toNat bytes tile spmByte scByte false)) (by rw [hitUsed_locOf]; exact hl)
  refine ⟨_, (execStreamAccess_hits h hhit).trans (congrArg Host.Outcome.next hperform), ?_⟩
  obtain ⟨hstream, hviol⟩ := violate_read (countAccess (((hitUsed i (requestAt va.toNat bytes tile spmByte scByte false) e s).stream i).core / 4)
    ((hitUsed i (requestAt va.toNat bytes tile spmByte scByte false) e s).stream i).part va.toNat
    (hitUsed i (requestAt va.toNat bytes tile spmByte scByte false) e s)) i (s.stream i).lines.length
    (requestAt va.toNat bytes tile spmByte scByte false) rfl
  refine ⟨hstream.trans ?_, hviol.trans ?_⟩
  · rw [countAccess, State.stream_modUnit, hitUsed, State.stream_setUtlb, lineQueued_same]
    dsimp only
    rw [set_length_append]
    rfl
  · have hfaults : (lineQueued i (requestAt va.toNat bytes tile spmByte scByte false) s).faults = s.faults :=
      same_of_mask lineQueued_mask .faults (by decide)
    exact congrArg (fun f : FaultQueue => min (2 ^ 16 - 1) (f.viol + 1)) hfaults
end

/-- Settles O29: the access queues its line, and what follows is decided by the hit in the uTLB and by the place that its leaf gives. -/
theorem streamAccesses : Obligations.StreamAccesses := by
  unfold Obligations.StreamAccesses
  intro s i va bytes tile spmByte scByte write m x hit hissue hmay hkind hlines hroom hsome hline hok hgather hopen
  have h : AccessStarts s i va.toNat bytes tile scByte write := ⟨hissue, hmay, hkind, hlines, hroom, hsome, hline, hok, hgather, hopen⟩
  refine ⟨fun hhit => streamAccess_misses h hhit, fun e ch ca hhit hw hl => ?_, fun e hhit hw hl => ?_⟩
  · subst hw
    exact streamAccess_reads h hhit hl
  · subst hw
    exact streamAccess_nowhere h hhit hl
end Sys2Proof.Machine
end

section
/-! PROOF. STB lookups and table walks, and the faults they end in (R389 to R391, R393 to R395, R404): O31. -/

namespace Sys2Proof.Machine

/-! ### The line that waits -/

section
variable {s t : State} {k i j : Nat} {x : LineReq}

theorem waitingLine_of_streams (h : t.streams = s.streams) (i : Nat) : t.waitingLine i = s.waitingLine i := by
  rw [State.waitingLine, State.waitingLine, stream_of_streams h]

/-- The line that waits is among its stream's, and has neither a place nor data. -/
theorem waitingLine_spec (hx : s.waitingLine i = some (j, x)) : (s.stream i).lines[j]? = some x ∧ x.data = none := by
  rw [State.waitingLine] at hx
  split at hx
  next j' hj =>
    obtain ⟨y, hy, hyx⟩ := Option.map_eq_some_iff.1 hx
    cases hyx
    obtain ⟨hlt, huntranslated, -⟩ := List.findIdx?_eq_some_iff_getElem.1 hj
    rw [List.getElem?_eq_getElem hlt] at hy
    cases hy
    refine ⟨List.getElem?_eq_getElem hlt, ?_⟩
    rw [LineReq.untranslated, Bool.and_eq_true] at huntranslated
    exact Option.isNone_iff_eq_none.1 huntranslated.2
  next => cases hx
end

section
variable (s : State) (i j base : Nat) (l : Leaf)

/-- An access performed leaves the uTLBs, and what the STBs translate. -/
theorem performLine_utlb : (performLine i j base l s).utlb = s.utlb := by
  have hutlbs : (performLine i j base l s).utlbs = s.utlbs := same_of_mask (performLine_mask (w := 0x708570#38) (by decide) ..) .utlbs (by decide)
  funext c g
  rw [State.utlb, State.utlb, hutlbs]

theorem performLine_stb (k : Nat) : ((performLine i j base l s).unit k).stb.head?.map (fun e => (e.part, e.page, e.leaf))
    = (s.unit k).stb.head?.map (fun e => (e.part, e.page, e.leaf)) := by
  unfold performLine
  dsimp only
  split
  · rfl
  · split
    · rw [unit_of_sets (same_of_mask (violate_mask (w := 0x700510#38) (by decide) ..) .sets (by decide)), countAccess_head]
    · rw [unit_of_sets (same_of_mask (issueAt_mask (w := 0x708130#38) (by decide) ..) .sets (by decide)), countAccess_head]
end

/-! ### STB_LOOKUP (R389 to R391) -/

/-- The lookup of stream `i` in the STB of Set `k` for its line that waits. -/
structure LookupStarts (s : State) (k i j : Nat) (x : LineReq) : Prop where
  waits  : s.waitingLine i = some (j, x)
  issues : s.mayIssue i = true
  set    : (s.stream i).core / 4 = k
  idle   : ∀ w ∈ (s.unit k).walks, ¬ i ∈ w.streams
  walks  : kindTranslated (s.stream i).kind = true

section
variable {s : State} {k i j : Nat} {x : LineReq} (h : LookupStarts s k i j x)
include h

theorem LookupStarts.passes : (!s.mayIssue i || decide ((s.stream i).core / 4 ≠ k) || (s.unit k).walks.any (fun w => w.streams.contains i)
    || !kindTranslated (s.stream i).kind) = false := by
  have hfree : (s.unit k).walks.any (fun w => w.streams.contains i) = false := by
    rw [List.any_eq_false]
    intro w hw
    simpa using h.idle w hw
  simp only [h.issues, h.set, hfree, h.walks, ne_eq, not_true_eq_false, decide_false, Bool.not_true, Bool.or_self]

/-- The entry `e` of Set `k` used, the hit counted, and the uTLB of stream `i` filled. -/
def stbHitUsed (k i : Nat) (e : TlbEntry) (s : State) : State :=
  fillUtlb (s.stream i).core (s.stream i).engine (s.stream i).part e.base e.leaf
    (trCount k 1 (s.setUnit k { s.unit k with stb := e :: (s.unit k).stb.erase e }))

omit h in
theorem stbHitUsed_mask (e : TlbEntry) : (stbHitUsed k i e s).mask 0x700250#38 = s.mask 0x700250#38 :=
  (fillUtlb_mask (by decide) ..).trans ((trCount_mask (by decide) ..).trans (State.setUnit_mask (by decide) ..))

theorem execStbLookup_hits {e : TlbEntry} (hhit : (s.unit k).stb.find? (fun e => e.holds (s.stream i).part x.va) = some e)
    (hp : e.leaf.permits x.write = true) : execStbLookup k ⟨i, false⟩ s = .next (performLine i j e.base e.leaf (stbHitUsed k i e s)) := by
  unfold execStbLookup
  simp only [h.waits, h.passes, Bool.false_eq_true, if_false, hhit, hp, if_true]
  rfl

theorem stbLookup_hits {e : TlbEntry} (hhit : (s.unit k).stb.find? (fun e => e.holds (s.stream i).part x.va) = some e)
    (hp : e.leaf.permits x.write = true) : completes (.stbLookup k ⟨i, false⟩) s (fun t =>
      (t.utlb (s.stream i).core (s.stream i).engine).head? = some (entryOf (s.stream i).part e.base e.leaf)
      ∧ ∀ ch ca, x.write = false → s.locOf e.base e.leaf x.va = some (.hbm ch ca) →
        (t.stream i).lines = (s.stream i).lines.set j { x with place := some (false, ch, ca) }) := by
  refine ⟨_, execStbLookup_hits h hhit hp, ?_, fun ch ca hw hl => ?_⟩
  · rw [performLine_utlb]
    exact fillUtlb_head ..
  · obtain ⟨hline, hdata⟩ := waitingLine_spec h.waits
    have hstream : (stbHitUsed k i e s).stream i = s.stream i :=
      stream_of_streams (same_of_mask (stbHitUsed_mask e) .streams (by decide)) i
    have hloc : (stbHitUsed k i e s).locOf = s.locOf := locOf_of_mask (mask_mono (stbHitUsed_mask e) (by decide))
    rw [performLine_hbm (by rw [hstream]; exact hline) hw (by rw [hloc]; exact hl), setLine_same, countAccess, State.stream_modUnit, hstream,
      ← hdata]

theorem execStbLookup_misses (hmiss : (s.unit k).stb.find? (fun e => e.holds (s.stream i).part x.va) = none) (bad : Bool) {t : State}
    (hwalk : joinWalk k (s.stream i).part (s.walkPage (s.stream i).part x.va) i false (trCount k 2 s) = some t) :
    execStbLookup k ⟨i, bad⟩ s = .next t := by
  unfold execStbLookup
  simp only [h.waits, h.passes, Bool.false_eq_true, if_false, hmiss, ite_self, hwalk]

theorem stbLookup_misses (hmiss : (s.unit k).stb.find? (fun e => e.holds (s.stream i).part x.va) = none)
    (hroom : (s.unit k).walks.length < 16) (hnew : ∀ w ∈ (s.unit k).walks,
      ¬ (w.part = (s.stream i).part ∧ w.page = s.walkPage (s.stream i).part x.va ∧ w.second = false)) (bad : Bool) :
    completes (.stbLookup k ⟨i, bad⟩) s (fun t =>
      (t.unit k).walks = (s.unit k).walks ++ [⟨(s.stream i).part, s.walkPage (s.stream i).part x.va, [i], false, false⟩]
      ∧ (∀ n, t.stream n = s.stream n) ∧ (t.unit k).stbMiss = min (2 ^ 32 - 1) ((s.unit k).stbMiss + 1)) := by
  have hwalks : ((trCount k 2 s).unit k).walks = (s.unit k).walks := congrArg Prod.snd (trCount_lookups s k 2)
  have hwalk := joinWalk_starts (s := trCount k 2 s) (k := k) (i := i) (second := false) (by rw [hwalks]; exact hroom)
    (by rw [hwalks]; exact hnew)
  refine ⟨_, execStbLookup_misses h hmiss bad hwalk, ?_, fun n => ?_, ?_⟩
  · rw [State.unit_setUnit_same, hwalks]
  · rw [State.stream_setUnit, stream_of_streams (same_of_mask (trCount_mask (w := 0x700050#38) (by decide) ..) .streams (by decide))]
  · rw [State.unit_setUnit_same]
    exact trCount_stbMiss s k
end

/-! ### What a finished walk does for its stream (R387, R391, R393) -/

section
variable {s : State} {k i j : Nat} {x : LineReq} (hx : s.waitingLine i = some (j, x)) (hb : (s.stream i).bound = true)
include hx hb

theorem walkFor_walksAgain (hw : (s.part (s.stream i).part).space.walk x.va = .unmapped) :
    walkFor k false i s = (joinWalk k (s.stream i).part (s.walkPage (s.stream i).part x.va) i true s).getD s := by
  unfold walkFor
  simp only [hx, hb, hw, Bool.not_true, Bool.false_eq_true, if_false]

theorem walkFor_faults (hw : (s.part (s.stream i).part).space.walk x.va = .unmapped) :
    walkFor k true i s = faultStream i x .notMapped s := by
  unfold walkFor
  simp only [hx, hb, hw, Bool.not_true, Bool.false_eq_true, if_false, if_true]

theorem walkFor_fills {b : Nat} {l : Leaf} (second : Bool) (hw : (s.part (s.stream i).part).space.walk x.va = .leaf b l)
    (hok : s.leafOk (s.stream i).part l = true) (hp : l.permits x.write = true) : walkFor k second i s
      = performLine i j b l (fillUtlb (s.stream i).core (s.stream i).engine (s.stream i).part b l (fillStb k (s.stream i).part b l s)) := by
  unfold walkFor
  simp only [hx, hb, hw, hok, hp, Bool.not_true, Bool.false_eq_true, if_false, if_true]
end

section
variable {s : State} {i : Nat}

/-- A stream that faults on a page that is not mapped is suspended, and its fault enters the queue while there is room. -/
theorem faultStream_queues (x : LineReq) (hroom : s.faults.entries.length < 512) :
    (faultStream i x .notMapped s).stream i = { s.stream i with suspended := some (x.va, x.write, .notMapped), queued := true, parked := false }
    ∧ (faultStream i x .notMapped s).faults.entries = s.faults.entries
      ++ [⟨(s.stream i).fig, i, (s.stream i).part, (s.stream i).core, (s.stream i).engine, x.write, .notMapped, x.va⟩] := by
  have hfault : faultStream i x .notMapped s
      = enqueueFault i (s.setStream i { s.stream i with suspended := some (x.va, x.write, .notMapped) }) := by
    unfold faultStream
    simp only [reduceCtorEq, false_and, if_false, hroom, if_true]
  rw [hfault, enqueueFault]
  simp only [State.stream_setStream_same]
  refine ⟨?_, ?_⟩
  · rw [stream_of_streams (fqCount_streams ..)]
    exact State.stream_setStream_same ..
  · rw [fqCount_entries]
    rfl
end

/-! ### STB_WALK_DONE (R387, R390, R391, R393, R404) -/

/-- The walk taken from Set `k`, its non-leaf entries read. -/
def walkTaken (k : Nat) (w : Walk) (bad : Bool) (s : State) : State :=
  readNonLeaf k w.part w.page bad (s.setUnit k { s.unit k with walks := (s.unit k).walks.erase w })

section
variable {s : State} {k : Nat} {w : Walk} {bad : Bool}

theorem walkTaken_mask : (walkTaken k w bad s).mask 0x4700050#38 = s.mask 0x4700050#38 :=
  (readNonLeaf_mask (by decide) ..).trans (State.setUnit_mask (by decide) ..)

theorem walkTaken_space (p : Nat) : ((walkTaken k w bad s).part p).space = (s.part p).space := by
  refine space_of_uncounted ?_ p
  unfold walkTaken readNonLeaf
  exact view_ite State.uncounted (blkCount_uncounted ..) rfl

theorem walkTaken_walks : ((walkTaken k w bad s).unit k).walks = (s.unit k).walks.erase w := by
  have hcount (t : State) : (blkCount 1 t).unit k = t.unit k :=
    unit_of_sets (same_of_mask (blkCount_mask (w := 0x4700010#38) (by decide) 1 t) .sets (by decide)) k
  unfold walkTaken readNonLeaf
  refine view_ite_eq (F := fun t => (t.unit k).walks) ((congrArg SetUnits.walks (hcount _)).trans ?_) ?_ <;>
    rw [State.unit_setUnit_same, State.unit_setUnit_same]

theorem walkTaken_stream (i : Nat) : (walkTaken k w bad s).stream i = s.stream i :=
  stream_of_streams (same_of_mask walkTaken_mask .streams (by decide)) i

theorem walkTaken_waitingLine (i : Nat) : (walkTaken k w bad s).waitingLine i = s.waitingLine i :=
  waitingLine_of_streams (same_of_mask walkTaken_mask .streams (by decide)) i

variable {i j : Nat} {x : LineReq} (hwalk : (s.unit k).walks.find? (fun w => w.streams.contains i) = some w)
include hwalk

theorem stbWalkDone_stale (hs : w.stale = true) (bad : Bool) : completes (.stbWalkDone k ⟨i, bad⟩) s (fun t =>
    (∀ n, t.stream n = s.stream n)
    ∧ (t.unit k).walks = (s.unit k).walks.map (fun y => if y = w then { y with stale := false } else y)) := by
  have hexec : execStbWalkDone k ⟨i, bad⟩ s = .next (s.setUnit k { s.unit k with
      walks := (s.unit k).walks.map (fun y => if y = w then { y with stale := false } else y) }) := by
    unfold execStbWalkDone
    simp only [hwalk, hs, if_true]
  exact ⟨_, hexec, fun _ => rfl, congrArg SetUnits.walks (State.unit_setUnit_same ..)⟩

variable (hx : s.waitingLine i = some (j, x)) (hb : (s.stream i).bound = true) (hs : w.stale = false) (hone : w.streams = [i])

include hs hone in
theorem execStbWalkDone_one (bad : Bool) : execStbWalkDone k ⟨i, bad⟩ s = .next (walkFor k w.second i (walkTaken k w bad s)) := by
  unfold execStbWalkDone
  simp only [hwalk, hs, Bool.false_eq_true, if_false, hone, List.foldl_cons, List.foldl_nil]
  rfl

include hx hb hs hone

theorem stbWalkDone_walksAgain (hun : (s.part (s.stream i).part).space.walk x.va = .unmapped) (hfirst : w.second = false)
    (honly : (s.unit k).walks = [w]) (bad : Bool) : completes (.stbWalkDone k ⟨i, bad⟩) s (fun t =>
      (t.unit k).walks = [⟨(s.stream i).part, s.walkPage (s.stream i).part x.va, [i], true, false⟩] ∧ t.stream i = s.stream i) := by
  have hnone : ((walkTaken k w bad s).unit k).walks = [] := by rw [walkTaken_walks, honly, List.erase_cons_head]
  have hpage : (walkTaken k w bad s).walkPage (s.stream i).part x.va = s.walkPage (s.stream i).part x.va := by
    rw [State.walkPage, State.walkPage, walkTaken_space]
  have hjoin := joinWalk_starts (s := walkTaken k w bad s) (k := k) (i := i) (p := (s.stream i).part)
    (page := s.walkPage (s.stream i).part x.va) (second := true) (by rw [hnone]; decide) (by rw [hnone]; exact fun _ h => absurd h List.not_mem_nil)
  have hexec := execStbWalkDone_one hwalk hs hone bad
  rw [hfirst, walkFor_walksAgain (by rw [walkTaken_waitingLine]; exact hx) (by rw [walkTaken_stream]; exact hb)
    (by rw [walkTaken_stream, walkTaken_space]; exact hun), walkTaken_stream, hpage, hjoin, Option.getD_some, hnone] at hexec
  exact ⟨_, hexec, congrArg SetUnits.walks (State.unit_setUnit_same ..), walkTaken_stream i⟩

theorem stbWalkDone_faults (hun : (s.part (s.stream i).part).space.walk x.va = .unmapped) (hsecond : w.second = true)
    (hroom : s.faults.entries.length < 512) (bad : Bool) : completes (.stbWalkDone k ⟨i, bad⟩) s (fun t =>
      t.stream i = { s.stream i with suspended := some (x.va, x.write, .notMapped), queued := true, parked := false }
      ∧ t.faults.entries = s.faults.entries
        ++ [⟨(s.stream i).fig, i, (s.stream i).part, (s.stream i).core, (s.stream i).engine, x.write, .notMapped, x.va⟩]) := by
  have hfaults : (walkTaken k w bad s).faults = s.faults := same_of_mask walkTaken_mask .faults (by decide)
  have hexec := execStbWalkDone_one hwalk hs hone bad
  rw [hsecond, walkFor_faults (by rw [walkTaken_waitingLine]; exact hx) (by rw [walkTaken_stream]; exact hb)
    (by rw [walkTaken_stream, walkTaken_space]; exact hun)] at hexec
  obtain ⟨hstream, hentries⟩ := faultStream_queues (s := walkTaken k w bad s) (i := i) x (by rw [hfaults]; exact hroom)
  rw [walkTaken_stream] at hstream hentries
  rw [hfaults] at hentries
  exact ⟨_, hexec, hstream, hentries⟩

theorem stbWalkDone_fills {b : Nat} {l : Leaf} (hleaf : (s.part (s.stream i).part).space.walk x.va = .leaf b l)
    (hok : s.leafOk (s.stream i).part l = true) (hp : l.permits x.write = true) (bad : Bool) :
    completes (.stbWalkDone k ⟨i, bad⟩) s (fun t =>
      (t.utlb (s.stream i).core (s.stream i).engine).head? = some (entryOf (s.stream i).part b l)
      ∧ ((t.unit k).stb.head?.map (fun e => (e.part, e.page, e.leaf))) = some ((s.stream i).part, b / 2 ^ 25, l)) := by
  have hleafOk : (walkTaken k w bad s).leafOk = s.leafOk := leafOk_of_mask (mask_mono walkTaken_mask (by decide))
  have hexec := execStbWalkDone_one hwalk hs hone bad
  rw [walkFor_fills (by rw [walkTaken_waitingLine]; exact hx) (by rw [walkTaken_stream]; exact hb) w.second
    (by rw [walkTaken_stream, walkTaken_space]; exact hleaf) (by rw [walkTaken_stream, hleafOk]; exact hok) hp, walkTaken_stream] at hexec
  refine ⟨_, hexec, ?_, ?_⟩
  · rw [performLine_utlb]
    exact fillUtlb_head ..
  · rw [performLine_stb, unit_of_sets (same_of_mask (fillUtlb_mask (w := 0x200#38) (by decide) ..) .sets (by decide)), fillStb_head]
    rfl
end

/-- Settles O31: a lookup uses its entry, or starts its walk; a walk that is done walks again, suspends its stream, or fills the STB and
the uTLB. -/
theorem walksAndFaults : Obligations.WalksAndFaults := by
  unfold Obligations.WalksAndFaults
  intro s k i j x hx hb m u page
  refine ⟨fun hissue hset hidle hkind => ?_, fun w bad hwalk => ⟨fun hs => stbWalkDone_stale hwalk hs bad, fun hs hone hun =>
      ⟨fun hfirst honly => stbWalkDone_walksAgain hwalk hx hb hs hone hun hfirst honly bad,
        fun hsecond hroom => stbWalkDone_faults hwalk hx hb hs hone hun hsecond hroom bad⟩,
    fun b l hs hone hleaf hok hp => stbWalkDone_fills hwalk hx hb hs hone hleaf hok hp bad⟩⟩
  have h : LookupStarts s k i j x := ⟨hx, hissue, hset, hidle, hkind⟩
  exact ⟨fun e hhit hp => stbLookup_hits h hhit hp, fun hmiss hroom hnew bad => stbLookup_misses h hmiss hroom hnew bad⟩
end Sys2Proof.Machine
end

section
/-! PROOF. Serving faults, parked streams, and prefetching (R382, R395, R397): O32. -/

namespace Sys2Proof.Machine

/-! ### A stream that resumed, or whose fault is queued, while others try again (R395) -/

section
variable {i : Nat}

theorem fqCount_parking (n : Nat) (s : State) : (fqCount n s).faults.parking = s.faults.parking := by
  have hall (t : State) : (satAll (0x600400 + 4 * n) t).faults = t.faults :=
    same_of_mask (satAll_mask (w := 0x700010#38) (by decide) _ t) .faults (by decide)
  unfold fqCount
  exact view_ite_eq (F := fun t => t.faults.parking) ((congrArg FaultQueue.parking (hall _)).trans rfl) rfl

/-- The streams that are parked from now on. -/
def reparked (more : List Nat) (s : State) : State := { s with faults := { s.faults with parking := more } }

theorem retryParked_cons (j : Nat) (more : List Nat) (s : State) : retryParked (j :: more) s = if 512 ≤ s.faults.entries.length then s
    else retryParked more (if s.legalNow j then resumeStream j s else enqueueFault j (reparked more s)) := rfl

/-- Stream `i` is neither suspended nor parked. -/
def State.resumed (s : State) (i : Nat) : Prop := (s.stream i).suspended = none ∧ (s.stream i).parked = false

theorem resumeStream_other {j : Nat} (hj : j ≠ i) (s : State) : (resumeStream j s).stream i = s.stream i := by
  rw [resumeStream, State.stream_modStream_other _ _ _ hj.symm]
  rfl

theorem enqueueFault_other {j : Nat} (hj : j ≠ i) (s : State) : (enqueueFault j s).stream i = s.stream i := by
  unfold enqueueFault
  dsimp only
  split
  · rfl
  · rw [stream_of_streams (fqCount_streams ..)]
    exact State.stream_setStream_other _ _ _ hj.symm

theorem resumeStream_resumed (s : State) : (resumeStream i s).resumed i := by
  rw [State.resumed, resumeStream, State.stream_modStream_same]
  exact ⟨rfl, rfl⟩

/-- A stream without a fault has none to queue. -/
theorem enqueueFault_resumed {s : State} (h : (s.stream i).suspended = none) : enqueueFault i s = s := by
  rw [enqueueFault]
  simp only [h]

/-- A stream that has resumed stays so while parked streams try again. -/
theorem retryParked_resumed (l : List Nat) {s : State} (h : s.resumed i) : (retryParked l s).resumed i := by
  induction l generalizing s with
  | nil => exact h
  | cons j more ih =>
    rw [retryParked_cons]
    split
    · exact h
    · refine ih ?_
      by_cases hj : j = i
      · subst hj
        split
        · exact resumeStream_resumed s
        · rw [enqueueFault_resumed (s := reparked more s) h.1]
          exact h
      · split
        · rw [State.resumed, resumeStream_other hj]
          exact h
        · rw [State.resumed, enqueueFault_other hj]
          exact h

/-- Stream `i` waits with its fault `e` in the queue, its access still not legal. -/
structure State.faulted (s : State) (i : Nat) (e : FaultEntry) (f : Nat × Bool × FaultCause) : Prop where
  suspended : (s.stream i).suspended = some f
  queued    : (s.stream i).queued = true
  unparked  : (s.stream i).parked = false
  entry     : e ∈ s.faults.entries
  illegal   : s.legalNow i = false

/-- The access that suspended a stream is legal by its partition's table alone. -/
theorem legalNow_congr {s t : State} (hs : (t.stream i).suspended = (s.stream i).suspended) (hp : (t.stream i).part = (s.stream i).part)
    (hspace : (t.part (s.stream i).part).space = (s.part (s.stream i).part).space) : t.legalNow i = s.legalNow i := by
  rw [State.legalNow, State.legalNow, hs, hp]
  simp only [hspace]

theorem enqueueFault_space (j p : Nat) (s : State) : ((enqueueFault j s).part p).space = (s.part p).space :=
  space_of_uncounted (enqueueFault_uncounted s j) p

theorem resumeStream_space (j p : Nat) (s : State) : ((resumeStream j s).part p).space = (s.part p).space :=
  space_of_uncounted (resumeStream_uncounted s j) p

/-- The fault of a suspended stream enters the queue. -/
theorem enqueueFault_queues {s : State} {va : Nat} {w : Bool} {c : FaultCause} (h : (s.stream i).suspended = some (va, w, c)) :
    (enqueueFault i s).stream i = { s.stream i with queued := true, parked := false }
    ∧ (enqueueFault i s).faults.entries = s.faults.entries
      ++ [⟨(s.stream i).fig, i, (s.stream i).part, (s.stream i).core, (s.stream i).engine, w, c, va⟩] := by
  rw [enqueueFault]
  simp only [h]
  refine ⟨?_, ?_⟩
  · rw [stream_of_streams (fqCount_streams ..)]
    exact State.stream_setStream_same ..
  · rw [fqCount_entries]
    rfl

/-- A fault that enters the queue leaves the parking order. -/
theorem enqueueFault_parking (j : Nat) (s : State) : (enqueueFault j s).faults.parking = s.faults.parking := by
  unfold enqueueFault
  dsimp only
  split
  · rfl
  · rw [fqCount_parking]
    rfl

/-- Entries already in the queue stay there when another fault enters it. -/
theorem enqueueFault_entries (j : Nat) {s : State} {e : FaultEntry} (he : e ∈ s.faults.entries) : e ∈ (enqueueFault j s).faults.entries := by
  unfold enqueueFault
  dsimp only
  split
  · exact he
  · rw [fqCount_entries]
    exact List.mem_append_left _ he

theorem faulted_resumeStream {j : Nat} (hj : j ≠ i) {s : State} {e : FaultEntry} {f : Nat × Bool × FaultCause} (hi : e.stream = i)
    (h : s.faulted i e f) : (resumeStream j s).faulted i e f where
  suspended := by rw [resumeStream_other hj, h.suspended]
  queued := by rw [resumeStream_other hj, h.queued]
  unparked := by rw [resumeStream_other hj, h.unparked]
  entry := List.mem_filter.2 ⟨h.entry, by simpa [hi] using hj.symm⟩
  illegal := (legalNow_congr (by rw [resumeStream_other hj]) (by rw [resumeStream_other hj]) (resumeStream_space ..)).trans h.illegal

theorem faulted_enqueueFault (j : Nat) {s : State} {e : FaultEntry} {f : Nat × Bool × FaultCause} (h : s.faulted i e f) :
    (enqueueFault j s).faulted i e f := by
  have hstream : (enqueueFault j s).stream i = s.stream i ∨ (enqueueFault j s).stream i = { s.stream i with queued := true, parked := false } := by
    by_cases hj : j = i
    · subst hj
      exact .inr (enqueueFault_queues h.suspended).1
    · exact .inl (enqueueFault_other hj s)
  have hlegal : (enqueueFault j s).legalNow i = s.legalNow i := by
    refine legalNow_congr ?_ ?_ (enqueueFault_space ..) <;> rcases hstream with e | e <;> rw [e]
  refine ⟨?_, ?_, ?_, enqueueFault_entries j h.entry, hlegal.trans h.illegal⟩ <;> rcases hstream with e | e <;> rw [e]
  exacts [h.suspended, h.suspended, h.queued, h.unparked]

/-- A stream whose fault is queued stays so while parked streams try again. -/
theorem retryParked_faulted (l : List Nat) {s : State} {e : FaultEntry} {f : Nat × Bool × FaultCause} (hi : e.stream = i)
    (h : s.faulted i e f) : (retryParked l s).faulted i e f := by
  induction l generalizing s with
  | nil => exact h
  | cons j more ih =>
    rw [retryParked_cons]
    split
    · exact h
    · refine ih ?_
      split
      next hj => exact faulted_resumeStream (fun e => by rw [e, h.illegal] at hj; exact Bool.false_ne_true hj) hi h
      next =>
        exact faulted_enqueueFault j (s := reparked more s) ⟨h.suspended, h.queued, h.unparked, h.entry, h.illegal⟩
end

/-! ### FAULT_SERVICE (R395, R397) -/

section
variable {s : State} {e : FaultEntry} {rest : List FaultEntry}

/-- The oldest entry taken from the queue, and its stream's fault no longer queued. -/
def entryTaken (e : FaultEntry) (rest : List FaultEntry) (s : State) : State :=
  { s with faults := { s.faults with entries := rest } }.modStream e.stream (fun m => { m with queued := false })

/-- The same with its event posted. -/
def faultPosted (e : FaultEntry) (rest : List FaultEntry) (s : State) : State := postEvent e.part 1 e.bits (entryTaken e rest s)

theorem faultPosted_faults : (faultPosted e rest s).faults = { s.faults with entries := rest } :=
  same_of_mask (postEvent_mask (w := 0x700000#38) (by decide) ..) .faults (by decide)

variable (hq : s.faults.entries = e :: rest) (hf : s.fwRunning = true)

include hq hf in
theorem execFaultService_posts : execFaultService s = .next (retryParked s.faults.parking (faultPosted e rest s)) := by
  have hparking : s.faults.parking = (faultPosted e rest s).faults.parking := by rw [faultPosted_faults]
  have hunpark : execFaultService s = .next (unpark (faultPosted e rest s)) := by
    rw [execFaultService, hq]
    simp only [hf, Bool.not_true, Bool.false_eq_true, if_false]
    rfl
  rw [hunpark, hparking]
  rfl

theorem faultPosted_entries : (faultPosted e rest s).faults.entries = rest := by rw [faultPosted_faults]

theorem faultPosted_streams : (faultPosted e rest s).streams = (s.modStream e.stream (fun m => { m with queued := false })).streams :=
  same_of_mask (postEvent_mask (w := 0x700000#38) (by decide) ..) .streams (by decide)

theorem faultPosted_same : (faultPosted e rest s).stream e.stream = { s.stream e.stream with queued := false } := by
  rw [stream_of_streams faultPosted_streams, State.stream_modStream_same]

/-- What posting a fault leaves of a stream. -/
theorem faultPosted_stream (i : Nat) : ∃ b, (faultPosted e rest s).stream i = { s.stream i with queued := b } := by
  rw [stream_of_streams faultPosted_streams]
  by_cases hi : i = e.stream
  · subst hi
    exact ⟨false, State.stream_modStream_same ..⟩
  · exact ⟨(s.stream i).queued, State.stream_modStream_other _ _ _ hi⟩

theorem faultPosted_legalNow (i : Nat) : (faultPosted e rest s).legalNow i = s.legalNow i := by
  obtain ⟨b, hb⟩ := faultPosted_stream (s := s) (e := e) (rest := rest) i
  refine legalNow_congr (by rw [hb]) (by rw [hb]) ?_
  exact congrArg Part.space (part_of_parts (postEvent_parts ..) _)

/-- A fault whose owner's ring has room is written to it. -/
theorem faultPosted_event (hf : s.fwRunning = true) {r : Nat} (he : s.eventRing e.part = some r) (hroom : s.eventRoom r = true)
    (hwait : s.faultsWait e.part = false) :
    ((faultPosted e rest s).ring r).etail = (s.ring r).etail + 1 ∧ ((faultPosted e rest s).ring r).evtPend = true := by
  have hready : (s.ring r).state = .ready := by
    rw [State.eventRoom, Bool.and_eq_true, decide_eq_true_eq] at hroom
    exact hroom.1
  rw [faultPosted, postEvent_writes (s := entryTaken e rest s) (r := r) e.bits he hf hready hroom (fun _ => hwait), putEvent_ring]
  exact ⟨rfl, rfl⟩

include hq hf

theorem faultService_posts (hpark : s.faults.parking = []) : completes .faultService s (fun t =>
    t.faults.entries = rest ∧ (t.stream e.stream).queued = false
    ∧ ∀ r, s.eventRing e.part = some r → s.eventRoom r = true → s.faultsWait e.part = false →
      (t.ring r).etail = (s.ring r).etail + 1 ∧ (t.ring r).evtPend = true) := by
  refine ⟨_, execFaultService_posts hq hf, ?_⟩
  rw [hpark, retryParked]
  exact ⟨faultPosted_entries, by rw [faultPosted_same], fun r he hroom hwait => faultPosted_event hf he hroom hwait⟩

variable {i : Nat} {more : List Nat} (hpark : s.faults.parking = i :: more) (hroom : rest.length < 512)
include hpark hroom

/-- The first parked stream tries again, and then the others. -/
theorem execFaultService_retries : execFaultService s = .next (retryParked more (if s.legalNow i then resumeStream i (faultPosted e rest s)
    else enqueueFault i (reparked more (faultPosted e rest s)))) := by
  rw [execFaultService_posts hq hf, hpark, retryParked_cons, faultPosted_entries, if_neg (Nat.not_le.2 hroom), faultPosted_legalNow]

theorem faultService_resumes (hl : s.legalNow i = true) : completes .faultService s (fun t => t.resumed i) := by
  refine ⟨_, execFaultService_retries hq hf hpark hroom, ?_⟩
  rw [hl, if_pos rfl]
  exact retryParked_resumed _ (resumeStream_resumed _)

theorem faultService_queues {va : Nat} {w : Bool} {c : FaultCause} (hs : (s.stream i).suspended = some (va, w, c)) (hl : s.legalNow i = false) :
    completes .faultService s (fun t =>
      ⟨(s.stream i).fig, i, (s.stream i).part, (s.stream i).core, (s.stream i).engine, w, c, va⟩ ∈ t.faults.entries
      ∧ (t.stream i).queued = true ∧ (t.stream i).parked = false ∧ (more = [] → t.faults.parking = [])) := by
  obtain ⟨b, hb⟩ := faultPosted_stream (s := s) (e := e) (rest := rest) i
  have hsusp : ((reparked more (faultPosted e rest s)).stream i).suspended = some (va, w, c) := (congrArg Stream.suspended hb).trans hs
  obtain ⟨hstream, hentries⟩ := enqueueFault_queues hsusp
  have hpost : (reparked more (faultPosted e rest s)).stream i = { s.stream i with queued := b } := hb
  rw [hpost] at hstream hentries
  have hlegal : (enqueueFault i (reparked more (faultPosted e rest s))).legalNow i = (faultPosted e rest s).legalNow i :=
    legalNow_congr (by rw [hstream, hb]) (by rw [hstream, hb]) (enqueueFault_space ..)
  have hfaulted : (enqueueFault i (reparked more (faultPosted e rest s))).faulted i
      ⟨(s.stream i).fig, i, (s.stream i).part, (s.stream i).core, (s.stream i).engine, w, c, va⟩ (va, w, c) :=
    ⟨by rw [hstream]; exact hs, by rw [hstream], by rw [hstream], by rw [hentries]; exact List.mem_append_right _ (List.mem_singleton_self _),
      hlegal.trans ((faultPosted_legalNow i).trans hl)⟩
  refine ⟨_, execFaultService_retries hq hf hpark hroom, ?_⟩
  rw [hl, if_neg Bool.false_ne_true]
  obtain ⟨-, hqueued, hunparked, hentry, -⟩ := retryParked_faulted more (by rfl) hfaulted
  refine ⟨hentry, hqueued, hunparked, fun hmore => ?_⟩
  rw [hmore, retryParked]
  exact enqueueFault_parking ..
end

/-! ### Prefetching (R382) -/

/-- The page at `v` prefetched for stream `i`: a leaf that permits what the stream may do fills the STB and the uTLB. -/
def prefetchPage (c g i v : Nat) (s : State) : State :=
  match (s.part (s.stream i).part).space.walk v with
  | .leaf b l =>
    if s.leafOk (s.stream i).part l && (l.permits false || kindMay (s.stream i).kind true)
        && (l.permits true || kindMay (s.stream i).kind false) then
      fillUtlb c g (s.stream i).part b l (fillStb (c / 4) (s.stream i).part b l s)
    else s
  | _ => s

section
variable {s : State} {c g i n : Nat} {va : VA} (hi : s.mayIssue i = true) (hc : (s.stream i).core = c) (hg : (s.stream i).engine = g)
  (hk : kindTranslated (s.stream i).kind = true) (hn : va.toNat % 2 ^ 25 + n ≤ 2 ^ 25)
include hi hc hg hk hn

/-- A prefetch within one page walks the table for it alone. -/
theorem execTranslationPrefetch_page :
    execTranslationPrefetch c g i va n s = .next (prefetchPage c g i (va.toNat / 2 ^ 25 * 2 ^ 25) s) := by
  have hone : (va.toNat + max n 1 - 1) / 2 ^ 25 - va.toNat / 2 ^ 25 + 1 = 1 := by omega
  unfold execTranslationPrefetch
  simp only [hi, hc, hg, hk, ne_eq, not_true_eq_false, decide_false, Bool.not_true, Bool.or_self, Bool.false_eq_true, if_false, hone,
    List.range_one, List.map_cons, List.map_nil, Nat.add_zero, List.foldl_cons, List.foldl_nil]
  rfl

theorem translationPrefetch_fills {b : Nat} {l : Leaf} (hw : (s.part (s.stream i).part).space.walk (va.toNat / 2 ^ 25 * 2 ^ 25) = .leaf b l)
    (hok : s.leafOk (s.stream i).part l = true) (hrd : l.rd = true) (hwr : l.wr = true) :
    completes (.translationPrefetch c g i va n) s (fun t =>
      (t.utlb c g).head? = some (entryOf (s.stream i).part b l) ∧ ∀ k, t.stream k = s.stream k) := by
  have hpage : prefetchPage c g i (va.toNat / 2 ^ 25 * 2 ^ 25) s
      = fillUtlb c g (s.stream i).part b l (fillStb (c / 4) (s.stream i).part b l s) := by
    rw [prefetchPage, hw]
    simp only [hok, Leaf.permits, hrd, hwr, Bool.true_or, Bool.and_self, if_true, ite_self]
  refine ⟨_, (execTranslationPrefetch_page hi hc hg hk hn).trans (congrArg Host.Outcome.next hpage), fillUtlb_head .., fun k => ?_⟩
  rw [stream_of_streams (same_of_mask (fillUtlb_mask (w := 0x200#38) (by decide) ..) .streams (by decide)),
    stream_of_streams (same_of_mask (fillStb_mask (w := 0x50#38) (by decide) ..) .streams (by decide))]

theorem translationPrefetch_unmapped (hw : (s.part (s.stream i).part).space.walk (va.toNat / 2 ^ 25 * 2 ^ 25) = .unmapped) :
    completes (.translationPrefetch c g i va n) s (fun t => t = s) := by
  refine ⟨_, execTranslationPrefetch_page hi hc hg hk hn, ?_⟩
  rw [prefetchPage, hw]
end

/-- Settles O32: the oldest fault is posted and the parked streams try again; a prefetch fills what its one page permits. -/
theorem faultsServed : Obligations.FaultsServed := by
  unfold Obligations.FaultsServed
  refine ⟨fun s e rest hq hf => ⟨faultService_posts hq hf, fun i more hpark hroom =>
    ⟨faultService_resumes hq hf hpark hroom, fun va w c hs hl => faultService_queues hq hf hpark hroom hs hl⟩⟩, ?_⟩
  intro s c g i n va m hi hc hg hk _ hn
  exact ⟨fun b l hw hok hrd hwr => translationPrefetch_fills hi hc hg hk hn hw hok hrd hwr,
    translationPrefetch_unmapped hi hc hg hk hn⟩
end Sys2Proof.Machine
end

section
/-! PROOF. Page lookups and walks of the KV cache (R237 to R239, R253, R255, R558): O34. -/

namespace Sys2Proof.Machine

/-! ### The page that a binary search reaches (R237) -/

/-- Entry `j` of a page list is the last whose first token is at most `tok`. -/
structure LastUpTo (ps : List Page) (tok j : Nat) : Prop where
  inList : j < ps.length
  upTo   : ∀ (n : Nat) (x : Page), n ≤ j → ps[n]? = some x → x.firstToken ≤ tok
  beyond : ∀ (n : Nat) (x : Page), j < n → ps[n]? = some x → tok < x.firstToken

/-- A binary search between places that hold the entry reaches it once its steps halve their distance to nothing. -/
theorem searchIn_reaches {ps : List Page} {tok j : Nat} (h : LastUpTo ps tok j) (n lo hi : Nat) (hlo : lo ≤ j) (hhi : j ≤ hi)
    (hlen : hi < ps.length) (hn : hi - lo < 2 ^ n) : (searchIn ps tok lo hi (n + 1)).1 = j := by
  induction n generalizing lo hi with
  | zero =>
    have hend : ¬ lo < hi := by omega
    rw [searchIn, if_neg hend]
    omega
  | succ n ih =>
    rw [Nat.pow_succ] at hn
    rw [searchIn]
    split
    · have hmid : (lo + hi + 1) / 2 < ps.length := by omega
      have hget : ps[(lo + hi + 1) / 2]? = some ps[(lo + hi + 1) / 2] := List.getElem?_eq_getElem hmid
      simp only [hget]
      by_cases hle : (lo + hi + 1) / 2 ≤ j
      · rw [decide_eq_true (h.upTo _ _ hle hget), if_pos rfl]
        exact ih _ _ hle hhi hlen (by omega)
      · rw [decide_eq_false (Nat.not_le.2 (h.beyond _ _ (Nat.not_le.1 hle) hget)), if_neg Bool.false_ne_true]
        exact ih _ _ hlo (by omega) (by omega) (by omega)
    · show lo = j
      omega

/-- In a page list whose first tokens rise, the search of a lookup without a cursor reaches the page that holds its token. -/
theorem Seq.reach_search {d : Seq} {tok j : Nat} (h : LastUpTo d.pages tok j) (hlen : d.pages.length ≤ 4096) :
    (d.reach none tok).1 = j := by
  have hj := h.inList
  exact searchIn_reaches h 12 0 (d.pages.length - 1) (Nat.zero_le _) (by omega) (by omega) (by omega)

/-! ### What reads of a descriptor and results leave -/

/-- The cached pages of a Set, its walks and its cursors. -/
def SetUnits.pageView (u : SetUnits) : List KvlbEntry × List KvWalk × KMap (Option (BitVec 20 × Nat)) := (u.kvlb, u.kvWalks, u.cursors)

section
variable {s : State} {k i : Nat}

theorem blkCount_unit (n k : Nat) (t : State) : (blkCount n t).unit k = t.unit k :=
  unit_of_sets (same_of_mask (blkCount_mask (w := 0x4700010#38) (by decide) n t) .sets (by decide)) k

theorem readDescriptor_pageView (slot : Nat) (bad : Bool) (s : State) :
    ((readDescriptor k slot bad s).unit k).pageView = (s.unit k).pageView := by
  unfold readDescriptor
  refine view_ite_eq (F := fun t => (t.unit k).pageView) ((congrArg SetUnits.pageView (blkCount_unit ..)).trans ?_) ?_ <;>
    rw [State.unit_setUnit_same] <;> rfl

theorem readDescriptor_stream (slot : Nat) (bad : Bool) (s : State) (n : Nat) : (readDescriptor k slot bad s).stream n = s.stream n :=
  stream_of_streams (same_of_mask (readDescriptor_mask (w := 0x4700050#38) (by decide) ..) .streams (by decide)) n

/-- A result joins those of its stream. -/
theorem walkResult_stream (w : Nat × Nat) (sid : BitVec 20) (tok : Nat) (r : KvFound) (s : State) :
    (walkResult i w sid tok r s).stream i = { s.stream i with kvPages := (s.stream i).kvPages ++ [⟨w, sid, tok, r⟩] } := by
  have hraise (c n : Nat) (f : Flags) (t : State) : (raise c n f t).streams = t.streams :=
    same_of_mask (raise_mask (w := 0x20#38) (by decide) ..) .streams (by decide)
  have hset := State.stream_setStream_same s i { s.stream i with kvPages := (s.stream i).kvPages ++ [⟨w, sid, tok, r⟩] }
  cases r with
  | page g => exact hset
  | failed c => exact view_ite_eq (F := fun t => t.stream i) ((stream_of_streams (hraise ..) i).trans hset) hset

theorem walkResult_unit (w : Nat × Nat) (sid : BitVec 20) (tok : Nat) (r : KvFound) (s : State) (k : Nat) :
    (walkResult i w sid tok r s).unit k = s.unit k :=
  unit_of_sets (same_of_mask (walkResult_mask (w := 0x700120#38) (by decide) ..) .sets (by decide)) k
end

/-! ### PWU_LOOKUP (R237, R238, R253, R255, R558) -/

/-- A lookup of stream `i`, in Set `k`, for a sequence and a token that its item reads. -/
structure PageLookup (s : State) (k i : Nat) (sid : BitVec 20) (tok : Nat) (ahead : Bool) : Prop where
  stream : s.kvStream k i = true
  healthy : (s.unit k).fenced = false
  looks : s.looksFor (s.stream i).core (s.lookWork (s.stream i).core ahead) sid tok = true

/-- The item that a lookup of stream `i` is for. -/
def State.lookedFor (s : State) (i : Nat) (ahead : Bool) : Nat × Nat := (s.lookWork (s.stream i).core ahead).getD (0, 0)

section
variable {s : State} {k i : Nat} {sid : BitVec 20} {tok : Nat} {ahead : Bool} (h : PageLookup s k i sid tok ahead)
include h

theorem PageLookup.passes :
    (!s.kvStream k i || (s.unit k).fenced || !s.looksFor (s.stream i).core (s.lookWork (s.stream i).core ahead) sid tok) = false := by
  simp only [h.stream, h.healthy, h.looks, Bool.not_true, Bool.or_self]

theorem pwuLookup_hits {e : KvlbEntry} (hhit : (s.unit k).kvHit sid tok = some e) (search : Bool) :
    completes (.pwuLookup k ⟨i, false⟩ sid tok ⟨search, ahead⟩) s (fun t =>
      t.stream i = { s.stream i with kvPages := (s.stream i).kvPages ++ [⟨s.lookedFor i ahead, sid, tok, .page e.page⟩] }
      ∧ (t.unit k).kvlb.head? = some e) := by
  have hexec : execPwuLookup k ⟨i, false⟩ sid tok ⟨search, ahead⟩ s = .next (walkResult i (s.lookedFor i ahead) sid tok (.page e.page)
      (s.setUnit k { s.unit k with kvlb := useFirst (s.unit k).kvlb e 256 })) := by
    unfold execPwuLookup
    simp only [h.passes, Bool.false_eq_true, if_false, hhit]
    rfl
  refine ⟨_, hexec, walkResult_stream .., ?_⟩
  rw [walkResult_unit, State.unit_setUnit_same]
  rfl

variable (hidle : ∀ w ∈ (s.unit k).kvWalks, w.stream ≠ i) (hroom : (s.unit k).kvWalks.length < 8)
include hidle hroom

omit h in
theorem walk_room : ((s.unit k).kvWalks.any (fun w => decide (w.stream = i)) || decide (8 ≤ (s.unit k).kvWalks.length)) = false := by
  have hfree : (s.unit k).kvWalks.any (fun w => decide (w.stream = i)) = false := by
    rw [List.any_eq_false]
    intro w hw
    simpa using hidle w hw
  rw [hfree, Bool.false_or, decide_eq_false (Nat.not_le.2 hroom)]

theorem pwuLookup_denied {c : Nat} (bad search : Bool) (hmiss : (s.unit k).kvHit sid tok = none)
    (hd : s.walkDenied (s.stream i).part sid tok = some c) : completes (.pwuLookup k ⟨i, bad⟩ sid tok ⟨search, ahead⟩) s (fun t =>
      t.stream i = { s.stream i with kvPages := (s.stream i).kvPages ++ [⟨s.lookedFor i ahead, sid, tok, .failed c⟩] }) := by
  have hexec : execPwuLookup k ⟨i, bad⟩ sid tok ⟨search, ahead⟩ s = .next (walkResult i (s.lookedFor i ahead) sid tok (.failed c)
      (readDescriptor k (seqSlot sid) bad s)) := by
    unfold execPwuLookup
    simp only [h.passes, Bool.false_eq_true, if_false, hmiss, ite_self, walk_room hidle hroom, hd, Option.isNone_none, Bool.and_true]
    rfl
  refine ⟨_, hexec, ?_⟩
  beta_reduce
  rw [walkResult_stream, readDescriptor_stream]

theorem pwuLookup_walks (bad search : Bool) (hmiss : (s.unit k).kvHit sid tok = none)
    (hd : s.walkDenied (s.stream i).part sid tok = none) : completes (.pwuLookup k ⟨i, bad⟩ sid tok ⟨search, ahead⟩) s (fun t =>
      (t.unit k).kvWalks = (s.unit k).kvWalks ++ [⟨i, sid, tok, search, s.lookedFor i ahead⟩] ∧ t.stream i = s.stream i) := by
  have hexec : execPwuLookup k ⟨i, bad⟩ sid tok ⟨search, ahead⟩ s = .next ((readDescriptor k (seqSlot sid) bad s).modUnit k
      (fun u => { u with kvWalks := u.kvWalks ++ [⟨i, sid, tok, search, s.lookedFor i ahead⟩] })) := by
    unfold execPwuLookup
    simp only [h.passes, Bool.false_eq_true, if_false, hmiss, ite_self, walk_room hidle hroom, hd, Option.isNone_none, Bool.and_true]
    rfl
  refine ⟨_, hexec, ?_, ?_⟩
  · have hwalks := congrArg (fun v => v.2.1) (readDescriptor_pageView (k := k) (seqSlot sid) bad s)
    rw [State.unit_modUnit_same]
    exact congrArg (· ++ [_]) hwalks
  · rw [State.stream_modUnit, readDescriptor_stream]

/-- The block with a cached page dropped that failed its parity. -/
def kvlbDropped (k : Nat) (e : KvlbEntry) (s : State) : State := blkCount 1 (s.setUnit k { s.unit k with kvlb := (s.unit k).kvlb.erase e })

theorem pwuLookup_drops (search : Bool) {e : KvlbEntry} (hhit : (s.unit k).kvHit sid tok = some e)
    (hd : s.walkDenied (s.stream i).part sid tok = none) : completes (.pwuLookup k ⟨i, true⟩ sid tok ⟨search, ahead⟩) s (fun t =>
      (t.unit k).kvlb = (s.unit k).kvlb.erase e
      ∧ (t.unit k).kvWalks = (s.unit k).kvWalks ++ [⟨i, sid, tok, search, s.lookedFor i ahead⟩] ∧ t.stream i = s.stream i
      ∧ t.blk.cachePar = min 0xFFFF (s.blk.cachePar + 1)) := by
  have hexec : execPwuLookup k ⟨i, true⟩ sid tok ⟨search, ahead⟩ s = .next ((readDescriptor k (seqSlot sid) false (kvlbDropped k e s)).modUnit k
      (fun u => { u with kvWalks := u.kvWalks ++ [⟨i, sid, tok, search, s.lookedFor i ahead⟩] })) := by
    unfold execPwuLookup
    simp only [h.passes, Bool.false_eq_true, if_false, hhit, if_true, walk_room hidle hroom, hd]
    rfl
  have hview := readDescriptor_pageView (k := k) (seqSlot sid) false (kvlbDropped k e s)
  rw [kvlbDropped, blkCount_unit, State.unit_setUnit_same] at hview
  obtain ⟨hkvlb, hrest⟩ := Prod.mk.inj hview
  obtain ⟨hwalks, -⟩ := Prod.mk.inj hrest
  refine ⟨_, hexec, ?_, ?_, ?_, ?_⟩
  · rw [State.unit_modUnit_same]
    exact hkvlb
  · rw [State.unit_modUnit_same]
    exact congrArg (· ++ [_]) hwalks
  · rw [State.stream_modUnit, readDescriptor_stream, kvlbDropped,
      stream_of_streams (same_of_mask (blkCount_mask (w := 0x4700010#38) (by decide) ..) .streams (by decide)), State.stream_setUnit]
  · exact blkCount_cachePar _
end

/-! ### PWU_WALK_DONE (R237, R239) -/

section
variable {s : State} {k i : Nat} {w : KvWalk} {g : Page} {j : Nat}

/-- The walk taken from Set `k`, its descriptor read. -/
def pageWalkTaken (k : Nat) (w : KvWalk) (bad : Bool) (s : State) : State :=
  readDescriptor k (seqSlot w.seqId) bad (s.setUnit k { s.unit k with kvWalks := (s.unit k).kvWalks.erase w })

theorem pageWalkTaken_seq (bad : Bool) (n : Nat) : (pageWalkTaken k w bad s).seq n = s.seq n :=
  seq_of_seqs (same_of_mask (w := 0x4700050#38) ((readDescriptor_mask (by decide) ..).trans (State.setUnit_mask (by decide) ..)) .seqs
    (by decide)) n

/-- A walk without a cursor that finds its page caches it, and notes where the stream is. -/
theorem walkPages_finds {p : Nat} {sid : BitVec 20} {tok : Nat} (hlast : LastUpTo (s.seq (seqSlot sid)).pages tok j)
    (hlen : (s.seq (seqSlot sid)).pages.length ≤ 4096) (hfound : (s.seq (seqSlot sid)).entryFound j = .page g) :
    ∃ n, walkPages k p sid tok none (some i) s = (.page g, (acctAdd p 2 n s).modUnit k (fun u => { u with
      kvlb := useFirst u.kvlb ⟨sid, g⟩ 256, cursors := kset none u.cursors i (some (sid, j)) })) := by
  refine ⟨64 * (((((s.seq (seqSlot sid)).reach none tok).2.map (· / 4)).foldl insAsc []).length), ?_⟩
  unfold walkPages
  simp only [Seq.reach_search hlast hlen, hfound]

variable (hs : s.kvStream k i = true) (hwalk : (s.unit k).kvWalks.find? (fun w => decide (w.stream = i)) = some w)
  (hcur : kget none (s.unit k).cursors i = none) (hd : s.walkDenied (s.stream i).part w.seqId w.token = none)
include hs hwalk hcur hd

theorem execPwuWalkDone_walks (bad : Bool) : execPwuWalkDone k ⟨i, bad⟩ s = .next (walkResult i w.work w.seqId w.token
    (walkPages k (s.stream i).part w.seqId w.token none (some i) (pageWalkTaken k w bad s)).1
    (walkPages k (s.stream i).part w.seqId w.token none (some i) (pageWalkTaken k w bad s)).2) := by
  unfold execPwuWalkDone
  simp only [hwalk, hs, Bool.not_true, Bool.false_eq_true, if_false, hd, hcur]
  rfl

theorem pwuWalkDone_finds (hlen : (s.seq (seqSlot w.seqId)).pages.length ≤ 4096) (hlast : LastUpTo (s.seq (seqSlot w.seqId)).pages w.token j)
    (hfound : (s.seq (seqSlot w.seqId)).entryFound j = .page g) (bad : Bool) : completes (.pwuWalkDone k ⟨i, bad⟩) s (fun t =>
      t.stream i = { s.stream i with kvPages := (s.stream i).kvPages ++ [⟨w.work, w.seqId, w.token, .page g⟩] }
      ∧ (t.unit k).kvlb.head? = some ⟨w.seqId, g⟩ ∧ (t.unit k).kvWalks = (s.unit k).kvWalks.erase w) := by
  obtain ⟨n, hpages⟩ := walkPages_finds (s := pageWalkTaken k w bad s) (k := k) (i := i) (p := (s.stream i).part) (by rw [pageWalkTaken_seq]; exact hlast)
    (by rw [pageWalkTaken_seq]; exact hlen) (by rw [pageWalkTaken_seq]; exact hfound)
  have hexec := execPwuWalkDone_walks hs hwalk hcur hd bad
  rw [hpages] at hexec
  refine ⟨_, hexec, ?_, ?_, ?_⟩
  · rw [walkResult_stream, State.stream_modUnit,
      stream_of_streams (same_of_mask (acctAdd_mask (w := 0x700010#38) (by decide) ..) .streams (by decide)), pageWalkTaken, readDescriptor_stream,
      State.stream_setUnit]
  · rw [walkResult_unit, State.unit_modUnit_same]
    rfl
  · have hview := readDescriptor_pageView (k := k) (seqSlot w.seqId) bad (s.setUnit k { s.unit k with kvWalks := (s.unit k).kvWalks.erase w })
    rw [State.unit_setUnit_same] at hview
    rw [walkResult_unit, State.unit_modUnit_same]
    dsimp only
    rw [unit_of_sets (same_of_mask (acctAdd_mask (w := 0x700010#38) (by decide) ..) .sets (by decide))]
    exact congrArg (fun v => v.2.1) hview
end

/-- An entry that is valid, near, and of its sequence's formats is found. -/
theorem Seq.entryFound_page {d : Seq} {j : Nat} {g : Page} (hj : d.pages[j]? = some g) (hv : g.valid = true) (hk : g.kFmt = d.kFmt)
    (hf : g.vFmt = d.vFmt) (hfar : g.far = false) : d.entryFound j = .page g := by
  rw [Seq.entryFound, hj]
  simp only [hv, hk, hf, hfar, ne_eq, not_true_eq_false, decide_false, Bool.not_true, Bool.or_self, Bool.false_eq_true, if_false]

/-- Settles O34: a lookup is answered from the KVLB, denied, or walks; a walk without a cursor reaches its page by the binary search. -/
theorem pageWalks : Obligations.PageWalks := by
  unfold Obligations.PageWalks
  intro s k i hs m u
  refine ⟨fun sid tok search ahead hhealthy hlooks => ?_, ?_⟩
  · have h : PageLookup s k i sid tok ahead := ⟨hs, hhealthy, hlooks⟩
    exact ⟨fun e hhit => pwuLookup_hits h hhit search, fun hidle hroom =>
      ⟨fun c bad hmiss hd => pwuLookup_denied h hidle hroom bad search hmiss hd,
        fun bad hmiss hd => pwuLookup_walks h hidle hroom bad search hmiss hd,
        fun e hhit hd => pwuLookup_drops h hidle hroom search hhit hd⟩⟩
  · intro w g j bad hwalk hcur hd d hj hlen hv hk hf hfar hupTo hbeyond
    obtain ⟨hlt, -⟩ := List.getElem?_eq_some_iff.1 hj
    exact pwuWalkDone_finds hs hwalk hcur hd hlen ⟨hlt, hupTo, hbeyond⟩ (Seq.entryFound_page hj hv hk hf hfar) bad
end Sys2Proof.Machine
end
